-- ==== Sys2Proof/Word.lean ====
section
/-!
DEFINITION. The words of the LN-8064: 32-bit registers (R8), bytes, and the unit in which the model counts press time.
-/

namespace Sys2Proof

/-- A register word: every register is 32 bits wide (R8). -/
abbrev Word := BitVec 32

/-- A byte of a memory. -/
abbrev Byte := BitVec 8

/-- An initiator of register and memory accesses, in the order of R50 (the lower number wins). -/
inductive Initiator where
  | tc | jc0 | jc1 | lc | dma | host
  deriving DecidableEq, Repr

namespace Machine

/-- The three planes (R20, R21). -/
inductive Plane where
  | control | data | management
  deriving DecidableEq, Repr

/-- What the port makes of an arriving back-channel frame (R311): good, a CRC that fails, a type or length that is wrong. -/
inductive FrameCheck where
  | good | badCrc | badForm
  deriving DecidableEq, Repr

/-- A signature of a frame: nozzle, NOFIRE, ISENSE, TNUC. -/
structure Signature where
  q : Nat
  noFire : Bool
  isense : Nat
  tnuc : Nat
  deriving DecidableEq, Repr

/-- An agent that accesses DDR, in the order of the initiator bits of R523. -/
inductive Agent where
  | tc | jc0 | jc1 | lc | dma | host | str | pipe | fab
  deriving DecidableEq, Repr

/-- What a scratchpad or alias write does to its word (R499, R500). -/
inductive WriteKind where
  | plain | setBits | clearBits
  deriving DecidableEq, Repr

/-- A write that reaches a scratchpad word: initiator, kind, word address, bytes of the word it covers, data. -/
structure WordWrite where
  init : Initiator
  kind : WriteKind
  addr : Nat
  bytes : Nat
  data : Nat
  deriving DecidableEq, Repr

/-- What the check bits of a read say (R499). -/
inductive Ecc where
  | clean | corrected | uncorrectable
  deriving DecidableEq, Repr

/-- A DDR line (its 64-byte aligned address) whose devices deliver an error in this step: whether it is correctable, and
the rank and device (R514 to R516). -/
structure DdrError where
  line : Nat
  fatal : Bool
  rank : Nat
  dev : Nat
  deriving DecidableEq, Repr

/-- The bits of a fuse row that a programming command pulsed without success: those that still read 0 at tight margin, and
those among them that read 0 at normal margin too (R604). -/
structure PulseFail where
  row : Nat
  tight : Nat
  normal : Nat
  deriving DecidableEq, Repr

/-- A read or a write with the bytes written, least significant first. -/
inductive MemOp where
  | read (size : Nat)
  | write (bytes : List Byte)
  deriving DecidableEq, Repr

/-- How a write changes a field (R10). -/
inductive Access where
  | rw | w1c | w1s | wo | rwl | rwx
  deriving DecidableEq, Repr

/-- A writable field of a register: its bits, its access type, the values a write may give it (other values are ignored
and counted), and whether the field is shadowed (R24). -/
structure FieldDef where
  hi : Nat
  lo : Nat
  acc : Access
  min : Nat
  max : Nat
  shadow : Bool
  deriving DecidableEq, Repr

/-- A register of a block: its offset, the strides and counts of its two indices, its reset value and its writable
fields; every bit that no field names ignores writes (R9). -/
structure RegDef where
  off : Nat
  s1 : Nat
  n1 : Nat
  s2 : Nat
  n2 : Nat
  reset : Nat
  fields : List FieldDef
  deriving DecidableEq, Repr

/-- A named place in the register file: the address of a register (or of the first of an indexed family), the strides of
its indices, and the bits [hi:lo] of the field. -/
structure Place where
  addr : Nat
  s1 : Nat
  s2 : Nat
  hi : Nat
  lo : Nat
  deriving DecidableEq, Repr

/-- A fabric frame (R423): kind, scope, the WRAPPED and FLOW_START bits, destination, source, hops, FRAG, SEQ, body, AUX, and
the credit class it came with (0 C0, 1 C1, 2 D0, 3 D1, 4 M). -/
structure FabFrame where
  kind : Nat
  scope : Nat
  wrapped : Bool
  flowStart : Bool
  dest : Nat
  src : Nat
  hops : Nat
  frag : Nat
  seq : Nat
  body : List Nat
  aux : Nat
  cls : Nat
  deriving DecidableEq, Repr

/-- A TOPO frame's values (R424): node, power state, TOPO_SEQ, port states and peers of FE, FW, FU, time rank, master. -/
structure Topo where
  node : Nat
  pstate : Nat
  tseq : Nat
  states : List Nat
  peers : List Nat
  prio : Nat
  estab : Bool
  locked : Bool
  master : Bool
  hops : Nat
  masterId : Nat
  deriving DecidableEq, Repr

/-- What an MSI-X message is sent for (R476, R479, R486, R643, R659): a completion ring, the record ring, mailbox 5, an event
source, the host event queue, or a vector that was held masked. -/
inductive MsixSource where
  | cq (c : Nat)
  | records
  | mbx
  | event (s : Nat)
  | hq
  | held (v : Nat)
  deriving DecidableEq, Repr

/-- What a calibration sweep observed (R673 to R686): for LINK_DESKEW whether each tap of each lane passes and whether each lane
locks at its centre; for BC_PHASE and ENC_THR whether each setting passes; for FIRE_TRIM the samples that read high at each
step from -32; for FAB_EQ whether each phase passes, by lane and CTLE value; for DDR_TRACK whether each step from -32 passes,
by byte lane. TICK_TRIM and SENS_OFS use what the block has gathered. -/
inductive CalSweep where
  | lanes (pass : List (List Bool)) (locks : List Bool)
  | settings (pass : List Bool)
  | samples (high : List Nat)
  | eyes (pass : List (List (List Bool)))
  | delays (pass : List (List Bool))
  | gathered
  deriving DecidableEq, Repr

/-- What the board, the flash and the DDR devices do at a cold boot (R597 to R626, R712, R714): the levels of I2C_ADDR1 and
I2C_ADDR0, TEST_EN, whether VPP_OTP is in range, the flash slots whose reads do not complete (bits 0, 1 trusted firmware A, B;
2, 3 service firmware; 4, 5 image), the DDR configuration fitted (as DDR_CFG codes it), the failing byte lane of each failed
training attempt, and whether service firmware reports ready. -/
structure BootEnv where
  pins : Nat
  testEn : Bool
  vpp : Bool
  flashFail : Nat
  ddrCfg : Nat
  ddrFails : List Nat
  fwReady : Bool
  deriving DecidableEq, Repr

/-- A heartbeat as it arrives (R361). T_SEND in ns; lines signed. -/
structure Heartbeat where
  node : Nat
  seq : Nat
  state : Nat
  tSend : Nat
  key : Nat
  echo : Nat
  ok : Nat
  solo : Nat
  lastFired : Int
  pendValid : Bool
  pendKey : Nat
  pendLine : Int
  deriving DecidableEq, Repr

end Machine

end Sys2Proof
end

