-- ==== Sys2Proof/Syntax.lean ====
section
/-!
DEFINITION. The commands of the LN-8064, one constructor per row of the table of operations and events. The first operand t of
every command is the press time at which it happens, in 2^-32 ns. Rows that are accesses of software carry the initiator and the
word written; the other operands are what the block cannot know of its surroundings. The meaning of each command
(Sys2Proof.Machine.exec...) says what its operands are.
-/

namespace Sys2Proof

open Machine

/-- A command. -/
inductive Instr where
  /-- REGISTER_WRITE -/
  | registerWrite (t : Nat) (i : Initiator) (addr size : Nat) (w hi : Word) (same : Bool) (errs : List DdrError) (ues : List Nat)
  /-- LOCK_BIT_WRITE -/
  | lockBitWrite (t : Nat) (i : Initiator) (b : Fin 3) (w : Word)
  /-- CROSSING_WRITE -/
  | crossingWrite (t : Nat) (p : Plane) (src dst w : Nat) (cut : Bool)
  /-- CROSSING_WORD_READABLE -/
  | crossingWordReadable (t : Nat) (p : Plane) (src dst : Nat)
  /-- CROSSING_SPACE_FREED -/
  | crossingSpaceFreed (t : Nat) (p : Plane) (src dst : Nat)
  /-- FAULT_REPORT -/
  | faultReport (t : Nat)
  /-- FAULT_TC_DECISION -/
  | faultTcDecision (t actions : Nat)
  /-- ISLAND_RESET_WRITE -/
  | islandResetWrite (t : Nat) (i : Initiator) (mask : Nat)
  /-- ISLAND_LEAVE_RESET -/
  | islandLeaveReset (t isl : Nat)
  /-- SOFT_RESET -/
  | softReset (t : Nat) (i : Initiator) (w : Word)
  /-- PTIME_MARKER -/
  | ptimeMarker (t : Nat) (corr : List (Nat × Int))
  /-- MARKER_TIMEOUT -/
  | markerTimeout (t isl : Nat)
  /-- PTIME_LO_READ -/
  | ptimeLoRead (t : Nat) (i : Initiator)
  /-- SERVICE_FW_CRASH -/
  | serviceFwCrash (t : Nat)
  /-- FW_RESTART_DEFERRED_START -/
  | fwRestartDeferredStart (t : Nat)
  /-- ENC_COUNT -/
  | encCount (t : Nat) (x : Fin 2) (a b : Bool) (first run : Nat)
  /-- ENC_INDEX_EDGE -/
  | encIndexEdge (t : Nat) (x : Fin 2) (level : Bool) (run : Nat)
  /-- WIRE_FAULT -/
  | wireFault (t : Nat) (x : Fin 2) (sig : Fin 3)
  /-- WIRE_RESTORED -/
  | wireRestored (t : Nat) (x : Fin 2) (sig : Fin 3)
  /-- ENC_ENABLE -/
  | encEnable (t : Nat) (i : Initiator) (x : Fin 2) (w : Word)
  /-- ENC_FAULT_CLEAR -/
  | encFaultClear (t : Nat) (i : Initiator) (x : Fin 2) (w : Word)
  /-- ENC_POS_LO_READ -/
  | encPosLoRead (t : Nat) (i : Initiator) (x : Fin 2)
  /-- HALL_EDGE -/
  | hallEdge (t levels run : Nat)
  /-- MARK_EDGE -/
  | markEdge (t : Nat) (y : Fin 2) (rising : Bool) (first run : Nat)
  /-- MARK_POS_READ -/
  | markPosRead (t : Nat) (i : Initiator) (y : Fin 2)
  /-- ENCO_STEP -/
  | encoStep (t : Nat)
  /-- ENCO_RATIO_WRITE -/
  | encoRatioWrite (t : Nat) (i : Initiator) (w : Word)
  /-- CMP_ENTRY_PUSH -/
  | cmpEntryPush (t : Nat) (i : Initiator) (n : Fin 8) (w : Word)
  /-- CMP_ENTRY_REACHED -/
  | cmpEntryReached (t : Nat) (n : Fin 8)
  /-- CMP_PULSE_END -/
  | cmpPulseEnd (t : Nat) (n : Fin 8)
  /-- CMP_OUTPUT_ENABLE -/
  | cmpOutputEnable (t : Nat) (i : Initiator) (n : Fin 8) (w : Word)
  /-- CMP_FLUSH -/
  | cmpFlush (t : Nat) (i : Initiator) (n : Fin 8)
  /-- TRK_ENABLE -/
  | trkEnable (t : Nat) (i : Initiator) (w : Word)
  /-- LINE_EVENT_ISSUE -/
  | lineEventIssue (t : Nat)
  /-- TRK_SRC_SWITCH -/
  | trkSrcSwitch (t : Nat) (i : Initiator) (w : Word)
  /-- FAB_SAMPLE_TIMEOUT -/
  | fabSampleTimeout (t : Nat)
  /-- NO_SOURCE -/
  | noSource (t : Nat)
  /-- PLACEMENT_CHECK -/
  | placementCheck (t : Nat) (n : Int)
  /-- POS_SAMPLE_BROADCAST -/
  | posSampleBroadcast (t : Nat)
  /-- SPEED_REQ_HOLD_END -/
  | speedReqHoldEnd (t : Nat)
  /-- TRK_POS_LO_READ -/
  | trkPosLoRead (t : Nat) (i : Initiator)
  /-- TRK_LINE_LO_READ -/
  | trkLineLoRead (t : Nat) (i : Initiator)
  /-- ITEM_ENQUEUE -/
  | itemEnqueue (t : Nat) (i : Initiator) (wr : Nat) (errs : List DdrError)
  /-- ITEM_PLACE -/
  | itemPlace (t : Nat) (lane : Fin 8)
  /-- MARK_RECORD_RX -/
  | markRecordRx (t : Nat)
  /-- MARK_MISSING_NOTICE -/
  | markMissingNotice (t : Nat)
  /-- PARTNER_PLACEMENT_RX -/
  | partnerPlacementRx (t id : Nat) (start : Int)
  /-- COMPOSE_LINE -/
  | composeLine (t : Nat) (errs : List DdrError)
  /-- CMP_ENABLE -/
  | cmpEnable (t : Nat) (i : Initiator) (w : Word)
  /-- CMP_DISABLE -/
  | cmpDisable (t : Nat) (i : Initiator) (w : Word)
  /-- CMP_FRONT_LO_READ -/
  | cmpFrontLoRead (t : Nat) (i : Initiator)
  /-- CMP_ASM_LO_READ -/
  | cmpAsmLoRead (t : Nat) (i : Initiator)
  /-- LINE_ASSEMBLE -/
  | lineAssemble (t : Nat) (k : Fin 8) (errs : List DdrError)
  /-- MODE_NOTICE -/
  | modeNotice (t : Nat)
  /-- STBY_ACTIVATE -/
  | stbyActivate (t : Nat) (i : Initiator) (w : Word)
  /-- STBY_RELEASE -/
  | stbyRelease (t : Nat) (i : Initiator) (w : Word)
  /-- DNT_WRITE -/
  | dntWrite (t : Nat) (i : Initiator) (w : Word)
  /-- DNT_READ -/
  | dntRead (t : Nat) (i : Initiator)
  /-- COL_SW_LO_READ -/
  | colSwLoRead (t : Nat) (i : Initiator)
  /-- COL_REQ_RX -/
  | colReqRx (t src tp ic col method : Nat)
  /-- COL_ACK_RX -/
  | colAckRx (t node tp ic col method : Nat) (ar : Int)
  /-- COL_NACK_RX -/
  | colNackRx (t node tp ic col method reason : Nat)
  /-- COL_COMMIT_RX -/
  | colCommitRx (t src tp ic col method : Nat) (own : Bool) (wa : Int)
  /-- COL_RELEASE_RX -/
  | colReleaseRx (t src tp ic col method : Nat)
  /-- COL_REQ_TIMEOUT -/
  | colReqTimeout (t idx : Nat)
  /-- BC_LINE_FRAME -/
  | bcLineFrame (t : Nat) (k : Fin 8) (check : FrameCheck) (ltag : Nat) (temps : List Int) (sigs : List Signature)
  /-- BC_IDLE_FRAME -/
  | bcIdleFrame (t : Nat) (k : Fin 8) (check : FrameCheck) (temps : List Int)
  /-- BC_RSP_FRAME -/
  | bcRspFrame (t : Nat) (k : Fin 8) (check : FrameCheck) (status tag : Nat) (data : List Nat)
  /-- BC_EVT_FRAME -/
  | bcEvtFrame (t : Nat) (k : Fin 8) (check : FrameCheck) (code detail : Nat)
  /-- BC_FRAME_TIMEOUT -/
  | bcFrameTimeout (t : Nat) (k : Fin 8)
  /-- TEMP_STALE -/
  | tempStale (t : Nat) (k : Fin 8)
  /-- NOZZLE_STATE_WRITE -/
  | nozzleStateWrite (t : Nat) (i : Initiator) (w : Word)
  /-- NZ_DATA_READ -/
  | nzDataRead (t : Nat) (i : Initiator)
  /-- DEAD_FIFO_READ -/
  | deadFifoRead (t : Nat) (i : Initiator)
  /-- RECORD_ISSUE -/
  | recordIssue (t : Nat) (errs : List DdrError)
  /-- VERDICT_RX -/
  | verdictRx (t id flags : Nat) (errs : List DdrError)
  /-- PV_TIMEOUT -/
  | pvTimeout (t : Nat) (errs : List DdrError)
  /-- ARQ_CLAIM -/
  | arqClaim (t : Nat) (i : Initiator)
  /-- ARQ_RELEASE -/
  | arqRelease (t : Nat) (i : Initiator)
  /-- ARQ_RD_WRITE -/
  | arqRdWrite (t : Nat) (i : Initiator) (w : Word)
  /-- SHAPE_WRITE -/
  | shapeWrite (t : Nat) (i : Initiator) (ic : Fin 6) (n : Nat) (second : Bool) (w : Word)
  /-- TRIM_BOUND_WRITE -/
  | trimBoundWrite (t : Nat) (i : Initiator) (ic : Fin 6) (w : Word)
  /-- COMMIT_GO -/
  | commitGo (t : Nat) (i : Initiator) (w : Word)
  /-- IDLE_WARMING_START -/
  | idleWarmingStart (t : Nat) (k : Fin 8)
  /-- WARM_LINE_SEND -/
  | warmLineSend (t : Nat) (k : Fin 8)
  /-- LINE_EVENT_ARRIVAL -/
  | lineEventArrival (t : Nat) (k : Fin 8)
  /-- LINE_TRANSFER_START -/
  | lineTransferStart (t : Nat) (k : Fin 8)
  /-- SEGMENT_SEND -/
  | segmentSend (t : Nat) (k : Fin 8)
  /-- FIRE_STROBE -/
  | fireStrobe (t : Nat) (k : Fin 8)
  /-- WDOG_ACT -/
  | wdogAct (t : Nat) (k : Fin 8) (high : Nat)
  /-- HEAD_PRES_CHANGE -/
  | headPresChange (t : Nat) (k : Fin 8) (low : Bool)
  /-- BRINGUP_START -/
  | bringupStart (t : Nat) (k : Fin 8)
  /-- PGOOD_RISE -/
  | pgoodRise (t : Nat) (k : Fin 8)
  /-- PGOOD_TIMEOUT -/
  | pgoodTimeout (t : Nat) (k : Fin 8)
  /-- TRAIN_START -/
  | trainStart (t : Nat) (k : Fin 8)
  /-- TRAIN_TIMEOUT -/
  | trainTimeout (t : Nat) (k : Fin 8)
  /-- CMD_ANSWER_TIMEOUT -/
  | cmdAnswerTimeout (t : Nat) (k : Fin 8)
  /-- HEAD_REMOVED -/
  | headRemoved (t : Nat) (k : Fin 8)
  /-- PGOOD_LOST -/
  | pgoodLost (t : Nat) (k : Fin 8)
  /-- PORT_DOWN_WRITE -/
  | portDownWrite (t : Nat) (i : Initiator) (k : Fin 8) (w : Word)
  /-- PORT_EN_WRITE -/
  | portEnWrite (t : Nat) (i : Initiator) (k : Fin 8) (w : Word)
  /-- LANE_ALERT -/
  | laneAlert (t : Nat) (k : Fin 8) (locked : Nat)
  /-- RETRAIN_WRITE -/
  | retrainWrite (t : Nat) (i : Initiator) (k : Fin 8) (w : Word)
  /-- LANE_RETRAIN_TIMER -/
  | laneRetrainTimer (t : Nat) (k : Fin 8)
  /-- LANE_RETRAIN_END -/
  | laneRetrainEnd (t : Nat) (k : Fin 8)
  /-- BC_LOCK_LOST -/
  | bcLockLost (t : Nat) (k : Fin 8)
  /-- PING -/
  | ping (t : Nat) (i : Initiator) (k : Fin 8) (w : Word)
  /-- GET_STATUS -/
  | getStatus (t : Nat) (i : Initiator) (k : Fin 8) (w : Word)
  /-- READ_MEM -/
  | readMem (t : Nat) (i : Initiator) (k : Fin 8) (w : Word)
  /-- XDATA_READ -/
  | xdataRead (t : Nat) (i : Initiator) (k : Fin 8)
  /-- MEM_DATA_READ -/
  | memDataRead (t : Nat) (i : Initiator) (k : Fin 8)
  /-- WDOG_LIMIT_WRITE -/
  | wdogLimitWrite (t : Nat) (i : Initiator) (k : Fin 8) (w : Word)
  /-- TEMP_THRESHOLD_WRITE -/
  | tempThresholdWrite (t : Nat) (i : Initiator) (k : Fin 8) (lim : Bool) (w : Word)
  /-- HEAD_TEMP_TIMEOUT -/
  | headTempTimeout (t : Nat) (k : Fin 8)
  /-- LADLE_REQUEST -/
  | ladleRequest (t : Nat) (client : Fin 8) (idx : Nat) (errs : List DdrError)
  /-- LADLE_RELEASE -/
  | ladleRelease (t : Nat) (client : Fin 8) (idx : Nat)
  /-- LADLE_RETRY -/
  | ladleRetry (t : Nat) (client : Fin 8) (idx : Nat) (errs : List DdrError)
  /-- SW_GRANT_REQUEST -/
  | swGrantRequest (t : Nat) (i : Initiator) (w : Word)
  /-- SW_GRANT_RELEASE -/
  | swGrantRelease (t : Nat) (i : Initiator) (w : Word)
  /-- SW_GRANT_BIND -/
  | swGrantBind (t : Nat) (i : Initiator) (w : Word)
  /-- TKO_ENABLE -/
  | tkoEnable (t : Nat) (i : Initiator) (w : Word)
  /-- HB_SEND -/
  | hbSend (t : Nat)
  /-- HB_RX -/
  | hbRx (t : Nat) (h : Heartbeat)
  /-- PARTNER_LOST -/
  | partnerLost (t : Nat)
  /-- TKO_PROCEED -/
  | tkoProceed (t : Nat) (i : Initiator) (w : Word)
  /-- TKO_VETO -/
  | tkoVeto (t : Nat) (i : Initiator) (w : Word)
  /-- DECISION_TIMEOUT -/
  | decisionTimeout (t : Nat)
  /-- TKO_JOIN -/
  | tkoJoin (t : Nat) (i : Initiator) (w : Word)
  /-- JOIN_RX -/
  | joinRx (t : Nat) (w0 : Int) (firsts : List Int)
  /-- RET_REQ_RX -/
  | retReqRx (t port : Nat) (earliest : Int)
  /-- RET_LINE_RX -/
  | retLineRx (t mask : Nat) (n : Int)
  /-- FILL_REQ_RX -/
  | fillReqRx (t port : Nat)
  /-- FILL_ACK_RX -/
  | fillAckRx (t port : Nat) (n : Int)
  /-- FILL_NAK_RX -/
  | fillNakRx (t port reason : Nat)
  /-- FILL_END_RX -/
  | fillEndRx (t port : Nat) (earliest : Int)
  /-- FILL_RET_RX -/
  | fillRetRx (t port : Nat) (n : Int)
  /-- FILL_TIMEOUT -/
  | fillTimeout (t : Nat) (k : Fin 8)
  /-- STBY_SW_RX -/
  | stbySwRx (t p op : Nat) (n : Int)
  /-- STR_LOAD -/
  | strLoad (t : Nat) (i : Initiator) (w : Word) (errs : List DdrError)
  /-- IMAGE_CHECK_DONE -/
  | imageCheckDone (t : Nat) (errs : List DdrError)
  /-- STR_APPROVE -/
  | strApprove (t : Nat) (i : Initiator) (w : Word)
  /-- STR_CANCEL -/
  | strCancel (t : Nat) (i : Initiator) (w : Word)
  /-- BLOCK_READY -/
  | blockReady (t block : Nat)
  /-- STR_APPLIED_LO_READ -/
  | strAppliedLoRead (t : Nat) (i : Initiator)
  /-- STR_CMPLINE_LO_READ -/
  | strCmplineLoRead (t : Nat) (i : Initiator)
  /-- FAB_PORT_TRAIN -/
  | fabPortTrain (t : Nat) (p : Fin 3)
  /-- LINK_ID_RX -/
  | linkIdRx (t : Nat) (p : Fin 3) (lanes node port cl press : Nat)
  /-- FAB_LANE_LOST -/
  | fabLaneLost (t : Nat) (p : Fin 3) (lane : Nat)
  /-- FAB_LANE_RETRY -/
  | fabLaneRetry (t : Nat) (p : Fin 3) (locks : Bool)
  /-- FAB_PORT_DOWN -/
  | fabPortDown (t : Nat) (p : Fin 3)
  /-- FAB_PORT_RETRAIN -/
  | fabPortRetrain (t : Nat) (i : Initiator) (p : Fin 3) (w : Word)
  /-- FAB_PORT_DOWN_WRITE -/
  | fabPortDownWrite (t : Nat) (i : Initiator) (p : Fin 3) (w : Word)
  /-- FAB_ACK_RX -/
  | fabAckRx (t : Nat) (p : Fin 3) (lseq : Nat) (nak : Bool)
  /-- FAB_FRAME_FORWARD -/
  | fabFrameForward (t source lseq : Nat) (crcOk : Bool) (f : FabFrame)
  /-- TOPO_SEND -/
  | topoSend (t : Nat)
  /-- TOPO_RX -/
  | topoRx (t : Nat) (v : Topo)
  /-- NODE_LOST -/
  | nodeLost (t n : Nat)
  /-- STEERED -/
  | steered (t : Nat)
  /-- E2E_ACK_RX -/
  | e2eAckRx (t src seq : Nat) (full : Bool) (errs : List DdrError)
  /-- E2E_TIMEOUT -/
  | e2eTimeout (t : Nat) (errs : List DdrError)
  /-- ITEM_FRAGMENT_RX -/
  | itemFragmentRx (t src seq : Nat) (start : Bool) (idx : Nat) (last : Bool) (body : List Nat) (errs : List DdrError)
  /-- BULK_FRAME_RX -/
  | bulkFrameRx (t : Nat) (unicast : Bool) (src seq : Nat) (start : Bool) (aux xfer : Nat) (last : Bool) (tcrc tstart : Nat)
      (data : List Nat) (errs : List DdrError)
  /-- FAB_MBX_RX -/
  | fabMbxRx (t : Nat) (words : List Nat)
  /-- FAB_POS_SAMPLE_RX -/
  | fabPosSampleRx (t node seq ts : Nat) (pos : Int) (valid : Bool)
  /-- FAB_TXQ_DESCRIPTOR -/
  | fabTxqDescriptor (t : Nat) (errs : List DdrError)
  /-- TIME_EXCHANGE -/
  | timeExchange (t : Nat)
  /-- TREQ_RX -/
  | treqRx (t : Nat) (p : Fin 3) (tseq : Nat)
  /-- TIME_DATA_RX -/
  | timeDataRx (t tseq t2 t3 t4 : Nat)
  /-- LP_RX -/
  | lpRx (t : Nat) (p : Fin 3) (req : Nat) (ack : Bool)
  /-- BEACON_RX -/
  | beaconRx (t : Nat) (p : Fin 3)
  /-- BEACON_SEND -/
  | beaconSend (t : Nat) (p : Fin 3)
  /-- BEACON_TX_WRITE -/
  | beaconTxWrite (t : Nat) (i : Initiator) (w : Word)
  /-- LC_RESTART -/
  | lcRestart (t : Nat)
  /-- SQ_DOORBELL -/
  | sqDoorbell (t : Nat) (i : Initiator) (q : Nat) (w : Word)
  /-- SQ_FETCH -/
  | sqFetch (t room : Nat) (bad : Option Nat)
  /-- SQ_ERR_CLEAR -/
  | sqErrClear (t : Nat) (i : Initiator) (q : Nat)
  /-- SQ_ENABLE -/
  | sqEnable (t : Nat) (i : Initiator) (q : Nat) (w : Word)
  /-- CQ_ENABLE -/
  | cqEnable (t : Nat) (i : Initiator) (n : Nat) (w : Word)
  /-- CQ_WRITE -/
  | cqWrite (t n : Nat) (fail : Bool)
  /-- CQ_HEAD_WRITE -/
  | cqHeadWrite (t : Nat) (i : Initiator) (n : Nat) (w : Word)
  /-- MSIX_SEND -/
  | msixSend (t : Nat) (src : MsixSource)
  /-- REC_ENABLE -/
  | recEnable (t : Nat) (i : Initiator) (w : Word)
  /-- REC_COPY -/
  | recCopy (t n : Nat) (fail : Bool) (errs : List DdrError)
  /-- REC_HEAD_WRITE -/
  | recHeadWrite (t : Nat) (i : Initiator) (w : Word)
  /-- LINK_DOWN -/
  | linkDown (t : Nat)
  /-- LINK_UP -/
  | linkUp (t speed width : Nat)
  /-- IDENTIFY -/
  | identify (t q : Nat)
  /-- QUERY -/
  | query (t q : Nat)
  /-- JOB_OPEN -/
  | jobOpen (t q : Nat) (fail : Bool)
  /-- JOB_CLOSE -/
  | jobClose (t q : Nat)
  /-- LOAD_STATIC -/
  | loadStatic (t q : Nat) (fail : Bool) (errs : List DdrError)
  /-- LOAD_GLYPHS -/
  | loadGlyphs (t q : Nat) (fail : Bool) (errs : List DdrError)
  /-- LOAD_GSET -/
  | loadGset (t q : Nat) (fail : Bool) (errs : List DdrError)
  /-- SUBMIT_ITEMS -/
  | submitItems (t q : Nat) (fail : Bool) (amt : Nat) (errs : List DdrError)
  /-- FAB_SEND -/
  | fabSend (t q buf : Nat) (fail : Bool) (errs : List DdrError)
  /-- TC_FORWARD -/
  | tcForward (t q : Nat)
  /-- TC_FORWARD_TIMEOUT -/
  | tcForwardTimeout (t : Nat)
  /-- CAL_RUN -/
  | calRun (t q : Nat)
  /-- INBOX_ADMIT -/
  | inboxAdmit (t amt : Nat) (errs : List DdrError)
  /-- MBX_SEND -/
  | mbxSend (t : Nat) (i : Initiator) (m : Nat)
  /-- MBX_ACK -/
  | mbxAck (t : Nat) (i : Initiator) (m : Nat)
  /-- IMG_LOAD -/
  | imgLoad (t m : Nat) (errs : List DdrError)
  /-- IMG_SWITCH -/
  | imgSwitch (t m : Nat)
  /-- IMG_CANCEL -/
  | imgCancel (t m : Nat)
  /-- FW_STAGE -/
  | fwStage (t m : Nat) (errs : List DdrError)
  /-- FW_RESTART -/
  | fwRestart (t m : Nat)
  /-- POWER -/
  | power (t m : Nat)
  /-- OTP_PROGRAM -/
  | otpProgram (t m : Nat)
  /-- OTP_LOCK -/
  | otpLock (t m : Nat)
  /-- LIFE_CYCLE -/
  | lifeCycle (t m : Nat)
  /-- TKO_SET -/
  | tkoSet (t m : Nat)
  /-- ISL_RESET -/
  | islReset (t m : Nat)
  /-- DEV_RESET -/
  | devReset (t m : Nat)
  /-- ADMIT_RELEASE -/
  | admitRelease (t m : Nat)
  /-- I2C_READ_SYS_ID -/
  | i2cReadSysId (t addr : Nat)
  /-- I2C_READ_STATUS -/
  | i2cReadStatus (t addr : Nat)
  /-- I2C_READ_RST_CAUSE -/
  | i2cReadRstCause (t addr : Nat)
  /-- I2C_SET_WINDOW -/
  | i2cSetWindow (t addr w : Nat)
  /-- I2C_WINDOW_READ -/
  | i2cWindowRead (t addr : Nat)
  /-- SCRATCHPAD_ACCESS -/
  | scratchpadAccess (t : Nat) (i : Initiator) (addr : Nat) (op : MemOp) (others : List WordWrite) (ecc : Ecc) (wait : Nat)
  /-- BIT_SET_ALIAS_WRITE -/
  | bitSetAliasWrite (t : Nat) (i : Initiator) (addr : Fin 0x100000) (l : List Byte) (others : List WordWrite) (ecc : Ecc)
      (wait : Nat)
  /-- BIT_CLEAR_ALIAS_WRITE -/
  | bitClearAliasWrite (t : Nat) (i : Initiator) (addr : Fin 0x100000) (l : List Byte) (others : List WordWrite) (ecc : Ecc)
      (wait : Nat)
  /-- BANK_OWNER_WRITE -/
  | bankOwnerWrite (t : Nat) (i : Initiator) (b : Fin 16) (w : Word)
  /-- GROTTO_WIPE_GO -/
  | grottoWipeGo (t : Nat) (i : Initiator) (w : Word)
  /-- GROTTO_WIPE -/
  | grottoWipe (t : Nat)
  /-- DDR_EN_WRITE -/
  | ddrEnWrite (t : Nat) (i : Initiator) (w : Word)
  /-- DDR_TRAINING_DONE -/
  | ddrTrainingDone (t : Nat) (values eyes : List Nat)
  /-- DDR_ACCESS -/
  | ddrAccess (t : Nat) (a : Agent) (addr : Nat) (op : MemOp) (errs : List DdrError) (inFlight : Nat)
  /-- DDR_ECC_ADDR_LO_READ -/
  | ddrEccAddrLoRead (t : Nat) (i : Initiator)
  /-- SCRUB_BURST -/
  | scrubBurst (t : Nat) (errs : List DdrError)
  /-- DDR_REFRESH -/
  | ddrRefresh (t : Nat)
  /-- DMA_GO -/
  | dmaGo (t : Nat) (i : Initiator) (errs : List DdrError) (ues : List Nat)
  /-- DMA_PAUSE -/
  | dmaPause (t : Nat) (i : Initiator)
  /-- DMA_PAUSED -/
  | dmaPaused (t : Nat) (n : Fin 32) (words : Nat) (errs : List DdrError) (ues : List Nat)
  /-- DMA_ABORT -/
  | dmaAbort (t : Nat) (i : Initiator)
  /-- DMA_APPEND -/
  | dmaAppend (t : Nat) (i : Initiator) (w : Word) (same : Bool) (errs : List DdrError) (ues : List Nat)
  /-- DMA_DESC_END -/
  | dmaDescEnd (t : Nat) (n : Fin 32) (errs : List DdrError) (ues : List Nat)
  /-- DMA_RETRY -/
  | dmaRetry (t : Nat) (n : Fin 32) (errs : List DdrError) (ues : List Nat)
  /-- DMA_CH_SRC_LO_READ -/
  | dmaChSrcLoRead (t : Nat) (i : Initiator)
  /-- DMA_CH_FAULT_LO_READ -/
  | dmaChFaultLoRead (t : Nat) (i : Initiator)
  /-- PWR_REQUEST -/
  | pwrRequest (t : Nat) (i : Initiator) (target : Fin 4)
  /-- PWR_CANCEL -/
  | pwrCancel (t : Nat) (i : Initiator)
  /-- AUTO_IDLE_ENTRY -/
  | autoIdleEntry (t : Nat)
  /-- AUTO_SLEEP_ENTRY -/
  | autoSleepEntry (t : Nat)
  /-- VOTER_ANSWER -/
  | voterAnswer (t : Nat) (flashOk : Bool)
  /-- PREPARE_TIMEOUT -/
  | prepareTimeout (t : Nat)
  /-- PWR_COMMIT -/
  | pwrCommit (t : Nat) (i : Initiator) (w : Word)
  /-- COMMIT_TIMEOUT -/
  | commitTimeout (t : Nat)
  /-- PWR_ENTER -/
  | pwrEnter (t : Nat)
  /-- WAKE_SOURCE_LATCH -/
  | wakeSourceLatch (t : Nat) (src : Fin 8)
  /-- WAKE_TIMER_EXPIRY -/
  | wakeTimerExpiry (t : Nat)
  /-- WAKE_SW_WRITE -/
  | wakeSwWrite (t : Nat) (i : Initiator)
  /-- WAKE_STAGE_READY -/
  | wakeStageReady (t : Nat) (env : BootEnv)
  /-- PAD_RELEASE -/
  | padRelease (t : Nat) (i : Initiator) (w : Word)
  /-- BROWNOUT -/
  | brownout (t causes isl : Nat) (fails : List PulseFail) (pulses : Nat)
  /-- COLD_BOOT -/
  | coldBoot (t : Nat) (env : BootEnv)
  /-- RESET_ASSERT -/
  | resetAssert (t : Nat)
  /-- THM_SAMPLE -/
  | thmSample (t : Nat) (raw : List Int) (cur : List Nat) (vin : Nat)
  /-- HARDWARE_TRIP -/
  | hardwareTrip (t : Nat)
  /-- TRIP_RESTART -/
  | tripRestart (t : Nat)
  /-- SENSOR_READMIT -/
  | sensorReadmit (t : Nat) (i : Initiator) (mask : Fin 16)
  /-- OTP_READ -/
  | otpRead (t : Nat) (i : Initiator) (w : Word) (vpp : Bool)
  /-- PROGRAM -/
  | program (t : Nat) (i : Initiator) (w : Word) (vpp : Bool)
  /-- REINFORCE -/
  | reinforce (t : Nat) (i : Initiator) (w : Word) (vpp : Bool)
  /-- LOCK -/
  | lock (t : Nat) (i : Initiator) (w : Word) (vpp : Bool)
  /-- RELOCATE -/
  | relocate (t : Nat) (i : Initiator) (w : Word) (vpp : Bool)
  /-- LC_ADVANCE -/
  | lcAdvance (t : Nat) (i : Initiator) (w : Word) (vpp : Bool)
  /-- OTP_CMD_DONE -/
  | otpCmdDone (t : Nat) (fails : List PulseFail) (pulses : Nat)
  /-- TAMPER -/
  | tamper (t mask : Nat)
  /-- WDOG_KICK -/
  | wdogKick (t : Nat) (i : Initiator) (w : Word)
  /-- TC_WDOG_EXPIRY -/
  | tcWdogExpiry (t : Nat)
  /-- SEC_DENY_LO_READ -/
  | secDenyLoRead (t : Nat) (i : Initiator)
  /-- EVENT_SOURCE_RAISE -/
  | eventSourceRaise (t : Nat)
  /-- EVENT_CLAIM -/
  | eventClaim (t : Nat) (i : Initiator) (n : Fin 4)
  /-- SW_TRIGGER -/
  | swTrigger (t : Nat) (i : Initiator) (w : Word)
  /-- XTEST_GO -/
  | xtestGo (t : Nat) (i : Initiator) (w : Word)
  /-- FW_EVENT_SUBMIT -/
  | fwEventSubmit (t : Nat) (i : Initiator) (w : Word)
  /-- ROUTE_WRITE -/
  | routeWrite (t : Nat) (i : Initiator) (w : Word)
  /-- EVENT_RECORD -/
  | eventRecord (t : Nat)
  /-- RECORD_CLOSE -/
  | recordClose (t : Nat)
  /-- RATE_WINDOW_CLOSE -/
  | rateWindowClose (t : Nat)
  /-- PHASE_CHANGE -/
  | phaseChange (t : Nat) (i : Initiator) (w : Word)
  /-- HOLD_FLUSH -/
  | holdFlush (t : Nat)
  /-- MIRROR_WRITE -/
  | mirrorWrite (t : Nat) (ok : Bool)
  /-- HQ_DELIVER -/
  | hqDeliver (t : Nat)
  /-- HQ_HEAD_WRITE -/
  | hqHeadWrite (t : Nat) (i : Initiator) (w : Word)
  /-- FAB_EVENT_RX -/
  | fabEventRx (t : Nat) (record : List Nat) (src : Nat)
  /-- LINK_DESKEW -/
  | linkDeskew (t : Nat) (i : Initiator) (w : Word)
  /-- BC_PHASE -/
  | bcPhase (t : Nat) (i : Initiator) (w : Word)
  /-- FIRE_TRIM -/
  | fireTrim (t : Nat) (i : Initiator) (w : Word)
  /-- TICK_TRIM -/
  | tickTrim (t : Nat) (i : Initiator) (w : Word)
  /-- ENC_THR -/
  | encThr (t : Nat) (i : Initiator) (w : Word)
  /-- FAB_EQ -/
  | fabEq (t : Nat) (i : Initiator) (w : Word)
  /-- DDR_TRACK -/
  | ddrTrack (t : Nat) (i : Initiator) (w : Word)
  /-- SENS_OFS -/
  | sensOfs (t : Nat) (i : Initiator) (w : Word)
  /-- CAL_INPUT_PRESENT -/
  | calInputPresent (t : Nat)
  /-- CAL_PRECOND_CHECK -/
  | calPrecondCheck (t : Nat)
  /-- CAL_SWEEP_END -/
  | calSweepEnd (t : Nat) (sweep : CalSweep)
  /-- CAL_ABORT -/
  | calAbort (t : Nat) (i : Initiator)
  /-- CAL_TIMEOUT -/
  | calTimeout (t : Nat)
  /-- CAL_VALUE_WRITE -/
  | calValueWrite (t : Nat) (i : Initiator) (w : Word)
  /-- TKO_HB_TS_LO_READ -/
  | tkoHbTsLoRead (t : Nat) (i : Initiator)
  /-- TKO_SW_LO_READ -/
  | tkoSwLoRead (t : Nat) (i : Initiator)
  /-- TKO_RET_LO_READ -/
  | tkoRetLoRead (t : Nat) (i : Initiator)
  /-- BC_SYMBOL_LOCK -/
  | bcSymbolLock (t : Nat) (k : Fin 8)
  /-- APPLICATION_POINT -/
  | applicationPoint (t : Nat)
  /-- PCIE_CONFIG_WRITE -/
  | pcieConfigWrite (t : Nat) (bme : Bool) (dstate : Nat) (msixEn msixMask : Bool)
  /-- FAB_CREDIT_RX -/
  | fabCreditRx (t : Nat) (p : Fin 3) (amounts : List Nat)
  /-- BOUNDARY_SCAN_RESET -/
  | boundaryScanReset (t : Nat)
  /-- VAON_RISE -/
  | vaonRise (t pins : Nat)
  /-- POWER_OFF -/
  | powerOff (t : Nat)
  deriving DecidableEq, Repr

end Sys2Proof
end

