-- ==== Sys2Proof/Machine/Bits.lean ====
section
/-!
DEFINITION. Bit fields, signed readings, saturation and byte order: the helpers every block uses.
-/

namespace Sys2Proof.Machine

/-- Bits [hi:lo] of a natural number. -/
def bitsOf (n hi lo : Nat) : Nat := n / 2 ^ lo % 2 ^ (hi + 1 - lo)

/-- n with bits [hi:lo] replaced by the low bits of v. -/
def withBits (n hi lo v : Nat) : Nat :=
  n - bitsOf n hi lo * 2 ^ lo + v % 2 ^ (hi + 1 - lo) * 2 ^ lo

/-- Bit k of a natural number. -/
def bitAt (n k : Nat) : Bool := n / 2 ^ k % 2 == 1

/-- n with bit k set or cleared. -/
def putBit (n k : Nat) (b : Bool) : Nat := withBits n k k (if b then 1 else 0)

/-- A boolean as a bit. -/
def bit (b : Bool) : Nat := if b then 1 else 0

/-- The two's complement reading of the low w bits of n. -/
def signed (w n : Nat) : Int :=
  let m := n % 2 ^ w
  if m < 2 ^ (w - 1) then (m : Int) else (m : Int) - (2 ^ w : Nat)

/-- The low w bits of the two's complement form of i. -/
def unsigned (w : Nat) (i : Int) : Nat := (i % ((2 ^ w : Nat) : Int)).toNat

/-- A count that stops at its greatest w-bit value. -/
def satNat (w n : Nat) : Nat := if n < 2 ^ w then n else 2 ^ w - 1

/-- A value held within the signed range of w bits. -/
def satInt (w : Nat) (i : Int) : Int :=
  if i < -((2 ^ (w - 1) : Nat) : Int) then -((2 ^ (w - 1) : Nat) : Int)
  else if ((2 ^ (w - 1) : Nat) : Int) ≤ i then ((2 ^ (w - 1) : Nat) : Int) - 1 else i

/-- A value held between two bounds. -/
def clampInt (lo hi i : Int) : Int := if i < lo then lo else if hi < i then hi else i

/-- How many of the low w bits of n are set. -/
def onesIn (w n : Nat) : Nat := ((List.range w).filter (bitAt n)).length

/-- The positions of the set bits among the low w bits of n, lowest first. -/
def setBits (w n : Nat) : List Nat := (List.range w).filter (bitAt n)

/-- The k bytes of n, least significant first. -/
def bytesLE : Nat → Nat → List Nat
  | 0, _ => []
  | k + 1, n => n % 256 :: bytesLE k (n / 256)

/-- The number whose bytes, least significant first, are l. -/
def ofBytesLE : List Nat → Nat
  | [] => 0
  | b :: r => b % 256 + 256 * ofBytesLE r

/-- Quotient rounded to the nearest whole number, halves away from zero. -/
def roundDiv (a : Int) (b : Nat) : Int :=
  if 0 ≤ a then (2 * a + b) / (2 * b) else -((2 * (-a) + b) / (2 * b))

/-- Nearest whole number, halves away from zero. -/
def roundQ (r : Rat) : Int := if 0 ≤ r then (r + 1 / 2).floor else -((-r + 1 / 2).floor)

/-- Quotient rounded up. -/
def ceilDiv (a b : Nat) : Nat := if b = 0 then 0 else (a + b - 1) / b

/-- The first element of a list that meets p, and the list without it. -/
def takeFirst {α : Type} (p : α → Bool) : List α → Option (α × List α)
  | [] => none
  | a :: r => if p a then some (a, r) else (takeFirst p r).map (fun x => (x.1, a :: x.2))

end Sys2Proof.Machine
end

