-- ==== Sys2Proof/Machine/Desc.lean ====
section
/-!
DEFINITION. Item descriptors (R150 to R153), CRC-32 (R166), the layer geometry and costs (R154, R158 to R163, R175).
-/

namespace Sys2Proof.Machine

/-- One bit of the reflected CRC-32. -/
def crcBit (crc : Nat) : Nat := if crc % 2 = 1 then (crc / 2) ^^^ 0xEDB88320 else crc / 2

/-- One byte of CRC-32 (R166), without the final inversion. -/
def crcByte (crc b : Nat) : Nat := (List.range 8).foldl (fun c _ => crcBit c) (crc ^^^ (b % 256))

/-- CRC-32 of a list of bytes: initial value and final XOR 0xFFFF_FFFF (R166). -/
def crc32 (l : List Nat) : Nat := (l.foldl crcByte 0xFFFFFFFF) ^^^ 0xFFFFFFFF

/-- n bytes of a byte list from position a, little-endian. -/
def fieldLE (l : List Nat) (a n : Nat) : Nat := ofBytesLE ((l.drop a).take n)

/-- A layer record (R151), with its type-specific bytes as they stand. -/
structure Layer where
  ty : Nat
  op : Nat
  map : Nat
  x : Nat
  y : Nat
  b : List Nat
  reservedOk : Bool
  deriving DecidableEq, Repr

/-- Layer record number k of a descriptor. -/
def layerAt (d : List Nat) (k : Nat) : Layer :=
  let r := (d.drop (32 + 16 * k)).take 16
  let kind := fieldLE r 0 1
  let map := fieldLE r 1 1
  let b := r.drop 8
  let ty := kind % 4
  let spare := if ty = 0 then fieldLE b 2 6 else if ty = 1 then fieldLE b 7 1 else if ty = 2 then fieldLE b 6 2
    else fieldLE b 6 1 / 4 + fieldLE b 7 1
  ⟨ty, kind / 4 % 4, map % 16, fieldLE r 2 2, fieldLE r 4 3, b,
    kind / 16 == 0 && map / 16 == 0 && fieldLE r 7 1 == 0 && spare == 0⟩

def Layer.poff (l : Layer) : Nat := fieldLE l.b 0 2
/-- STATIC: the handle. -/
def Layer.handle (l : Layer) : Nat := fieldLE l.b 0 2
/-- PATCH: width, height and depth. -/
def Layer.patchW (l : Layer) : Nat := fieldLE l.b 2 2
def Layer.patchH (l : Layer) : Nat := fieldLE l.b 4 2
def Layer.patchD (l : Layer) : Nat := fieldLE l.b 6 1
/-- GLYPH: characters, glyph set and track. -/
def Layer.nchar (l : Layer) : Nat := fieldLE l.b 2 1
def Layer.gset (l : Layer) : Nat := fieldLE l.b 3 1
def Layer.track (l : Layer) : Int := signed 16 (fieldLE l.b 4 2)
/-- MATRIX: modules, module size, bar-width reduction. -/
def Layer.mw (l : Layer) : Nat := if fieldLE l.b 2 1 = 0 then 256 else fieldLE l.b 2 1
def Layer.mh (l : Layer) : Nat := if fieldLE l.b 3 1 = 0 then 256 else fieldLE l.b 3 1
def Layer.modx (l : Layer) : Nat := fieldLE l.b 4 1
def Layer.mody (l : Layer) : Nat := fieldLE l.b 5 1
def Layer.bwr (l : Layer) : Nat := fieldLE l.b 6 1 % 4

/-- Bytes of a payload row of w elements of some depth, padded to 32 bits (R152). -/
def rowBytes (w depth : Nat) : Nat := ceilDiv (w * depth) 32 * 4

/-- Size of a layer's payload in the descriptor (R152). -/
def Layer.payload (l : Layer) : Nat :=
  if l.ty = 1 then l.patchH * rowBytes l.patchW l.patchD
  else if l.ty = 2 then ceilDiv (2 * l.nchar) 4 * 4
  else if l.ty = 3 then l.mh * rowBytes l.mw 1 else 0

/-- Whether the payload lies inside the payload area (R151). -/
def Layer.payloadOk (l : Layer) (n dlen : Nat) : Bool :=
  l.ty == 0 || (l.poff % 4 == 0 && 32 + 16 * n ≤ l.poff && l.poff + l.payload ≤ dlen)

/-- Whether sizes are in the ranges of R151 and R177. -/
def Layer.sizeOk (l : Layer) : Bool :=
  if l.ty = 0 then l.handle < 4096
  else if l.ty = 1 then 1 ≤ l.patchW && l.patchW ≤ 1024 && 1 ≤ l.patchH && l.patchH ≤ 1024 && (l.patchD == 1 || l.patchD == 2)
  else if l.ty = 2 then 1 ≤ l.nchar
  else 1 ≤ l.modx && l.modx ≤ 64 && 1 ≤ l.mody && l.mody ≤ 64 && l.bwr < l.modx && l.bwr < l.mody

/-- Header fields (R150). -/
def descFormat (d : List Nat) : Nat := fieldLE d 0 1
def descLayers (d : List Nat) : Nat := fieldLE d 1 1
def descLen (d : List Nat) : Nat := fieldLE d 2 2
def descId (d : List Nat) : Nat := fieldLE d 4 8
def descJob (d : List Nat) : Nat := fieldLE d 12 2
def descLane (d : List Nat) : Nat := fieldLE d 14 1 % 8
def descAnchor (d : List Nat) : Nat := fieldLE d 14 1 / 8 % 4
def descForce (d : List Nat) : Bool := fieldLE d 15 1 % 2 == 1
def descStart (d : List Nat) : Nat := fieldLE d 16 6
def descLines (d : List Nat) : Nat := fieldLE d 24 3

/-- The layers of a descriptor. -/
def descLayerList (d : List Nat) : List Layer := (List.range (descLayers d)).map (layerAt d)

/-- Whether the descriptor's CRC is right: its own field counts as 0 (R150). -/
def descCrcOk (d : List Nat) : Bool :=
  crc32 (d.take 28 ++ [0, 0, 0, 0] ++ (d.take (descLen d)).drop 32) == fieldLE d 28 4

/-- Whether the length is one the header allows (R150). -/
def descLenOk (d : List Nat) : Bool :=
  descLen d % 4 == 0 && 32 + 16 * descLayers d ≤ descLen d && descLen d ≤ 4096

/-- Whether every reserved field of header and layers is 0. -/
def descReservedOk (d : List Nat) : Bool :=
  fieldLE d 14 1 / 32 == 0 && fieldLE d 15 1 / 2 == 0 && fieldLE d 22 2 == 0 && fieldLE d 27 1 == 0
    && (descLayerList d).all Layer.reservedOk

/-- The check of R153 before composition: CRC, format, layers, length, reserved fields, payload bounds. -/
def descSound (limit : Nat) (d : List Nat) : Bool :=
  descFormat d == 1 && 1 ≤ descLayers d && descLayers d ≤ limit && descLenOk d && descCrcOk d && descReservedOk d
    && (descLayerList d).all (fun l => l.payloadOk (descLayers d) (descLen d))

/-- The bytes of a layer's payload. -/
def payloadOf (d : List Nat) (l : Layer) : List Nat := (d.drop l.poff).take l.payload

/-- Element i of a packed row of some depth (R152). -/
def element (row : List Nat) (depth i : Nat) : Nat :=
  let per := 8 / depth
  row.getD (i / per) 0 / 2 ^ (depth * (i % per)) % 2 ^ depth

/-! ### Matrix modules and bar-width reduction (R162, R163) -/

/-- Whether module (i, j) of a matrix is dark. -/
def Layer.dark (l : Layer) (p : List Nat) (i j : Int) : Bool :=
  if i < 0 || j < 0 || (l.mw : Int) ≤ i || (l.mh : Int) ≤ j then false
  else element ((p.drop (j.toNat * rowBytes l.mw 1)).take (rowBytes l.mw 1)) 1 i.toNat == 1

/-- Whether a dot of the module grid, at (dx, dy) from its corner, survives both trims of R163. -/
def Layer.matrixDot (l : Layer) (p : List Nat) (dx dy : Nat) : Bool :=
  let i : Int := (dx / l.modx : Nat)
  let j : Int := (dy / l.mody : Nat)
  let rx := dx % l.modx
  let ry := dy % l.mody
  let lead := l.bwr / 2
  let trail := l.bwr - l.bwr / 2
  l.dark p i j && (lead ≤ rx || l.dark p (i - 1) j) && (rx + trail < l.modx || l.dark p (i + 1) j)
    && (lead ≤ ry || l.dark p i (j - 1)) && (ry + trail < l.mody || l.dark p i (j + 1))

/-! ### Boxes and costs (R175) -/

/-- A part of a layer: columns from x0, lines from y0, and what a line of it costs. -/
structure Box where
  x0 : Int
  y0 : Int
  w : Nat
  h : Nat
  factor : Nat
  fixed : Nat
  deriving DecidableEq, Repr

/-- The columns of a box inside a lane of some width. -/
def Box.clipped (b : Box) (width : Nat) : Nat :=
  (min (b.x0 + b.w) width - max b.x0 0).toNat

/-- What a line of a box costs (R175). -/
def Box.cost (b : Box) (width : Nat) : Nat := b.fixed + b.factor * ceilDiv (b.clipped width) 64

/-- Whether a box has line y. -/
def Box.has (b : Box) (y : Int) : Bool := b.y0 ≤ y && y < b.y0 + b.h

/-- What a layer costs on a line it touches (R175). -/
def layerCost (bs : List Box) (width : Nat) (y : Int) : Nat :=
  let on := bs.filter (fun b => b.has y)
  if on.isEmpty then 0 else 8 + (on.map (fun b => b.cost width)).sum

/-- The highest line cost of an item: the cost changes only where a box begins or ends. -/
def itemCost (layers : List (List Box)) (width lines : Nat) : Nat :=
  let starts := 0 :: (layers.flatten.map (fun b => max b.y0 0)).filter (fun y => decide (y < (lines : Int)))
  (starts.map (fun y => (layers.map (fun bs => layerCost bs width y)).sum)).foldl max 0

end Sys2Proof.Machine
end

