-- ==== Sys2Proof/Config.lean ====
section
/-!
DEFINITION. What an implementation fixes and the spec leaves open, as constants without a body: nothing can be proved
about their values, so a claim holds whatever they are.
-/

namespace Sys2Proof.Config

/-- Depth of the crossing FIFO of a plane from one island to another (the spec gives no number; R29 asks only that control
crossings are deep enough). -/
opaque crossingDepth : Nat → Nat → Nat → Nat

/-- The loop constant 2π × bandwidth in rad/s for TRK_LOOP.BW_SEL (R118, R119): irrational, and the precision in which the
device holds it is not stated. -/
opaque loopOmega : Nat → Rat

/-- 1 − exp(−t / τ) for a ratio t / τ (R114, R582): the precision in which the device computes it is not stated. -/
opaque decay : Rat → Rat

/-- Whether a fraction of 1/256 ns of an event time is rounded up or down (R121 states no rounding for TIME). -/
opaque eventTimeRoundsUp : Bool

/-- The Ladle amount a head-link retrain asks for, in Ladle current units: R315 and R571 name the grant, not its amount. -/
opaque headRetrainAmount : Nat

/-- Credits of a class that a fabric link starts with: the depth of the peer's receive buffer, which R434 does not give. -/
opaque fabricCredits : Nat → Nat

end Sys2Proof.Config
end

