-- ==== Sys2Proof/Machine/Places.lean ====
section
/-!
DEFINITION. The names of the registers (R.) and of the fields (F.) that the meanings use, each with its address, the
strides of its indices and its bits, as the register tables of the spec give them. An index letter of a register name
(x, k, c, ...) is left out of the name and given as an argument where the place is read or written.
-/

namespace Sys2Proof.Machine

def F.CAL_ARG_ABS : Place := ⟨0x101A0014, 0, 0, 16, 16⟩
def F.CAL_ARG_ARG : Place := ⟨0x101A0014, 0, 0, 15, 0⟩
def F.CAL_CHART_GEO_PITCH : Place := ⟨0x101A003C, 0, 0, 15, 0⟩
def F.CAL_CHART_GEO_Y : Place := ⟨0x101A003C, 0, 0, 31, 16⟩
def F.CAL_CHART_ID_HI_ID_HI : Place := ⟨0x101A0034, 0, 0, 31, 0⟩
def F.CAL_CHART_ID_LO_ID_LO : Place := ⟨0x101A0030, 0, 0, 31, 0⟩
def F.CAL_CHART_MARK : Place := ⟨0x101A0038, 0, 0, 0, 0⟩
def F.CAL_CHART_POL : Place := ⟨0x101A0038, 0, 0, 1, 1⟩
def F.CAL_CHART_REP : Place := ⟨0x101A0038, 0, 0, 15, 8⟩
def F.CAL_CMD_ABORT : Place := ⟨0x101A0004, 0, 0, 30, 30⟩
def F.CAL_CMD_GO : Place := ⟨0x101A0004, 0, 0, 31, 31⟩
def F.CAL_CMD_PROC : Place := ⟨0x101A0004, 0, 0, 7, 0⟩
def F.CAL_CNT_APPLIED : Place := ⟨0x101A005C, 0, 0, 15, 0⟩
def F.CAL_CNT_NOT_APPLIED : Place := ⟨0x101A005C, 0, 0, 31, 16⟩
def F.CAL_DWELL_STROBES : Place := ⟨0x101A0020, 0, 0, 31, 24⟩
def F.CAL_LDL_AMT : Place := ⟨0x101A001C, 0, 0, 15, 0⟩
def F.CAL_LIM0_BC_MIN : Place := ⟨0x101A0024, 0, 0, 15, 8⟩
def F.CAL_LIM0_FAB_MIN : Place := ⟨0x101A0024, 0, 0, 23, 16⟩
def F.CAL_LIM0_LINK_MIN : Place := ⟨0x101A0024, 0, 0, 7, 0⟩
def F.CAL_LIM0_THR_MIN : Place := ⟨0x101A0024, 0, 0, 31, 24⟩
def F.CAL_LIM1_EDGE_MAX : Place := ⟨0x101A0028, 0, 0, 7, 0⟩
def F.CAL_LIM1_SENS_MAX : Place := ⟨0x101A0028, 0, 0, 31, 24⟩
def F.CAL_LIM1_TICK_MAX : Place := ⟨0x101A0028, 0, 0, 23, 8⟩
def F.CAL_MOTION_RATE : Place := ⟨0x101A002C, 0, 0, 23, 0⟩
def F.CAL_QUALITY_FIGURE : Place := ⟨0x101A0010, 0, 0, 15, 0⟩
def F.CAL_REJ_CNT_COUNT : Place := ⟨0x101A0060, 0, 0, 15, 0⟩
def F.CAL_RESULT_CODE : Place := ⟨0x101A000C, 0, 0, 7, 0⟩
def F.CAL_RESULT_DETAIL : Place := ⟨0x101A000C, 0, 0, 15, 8⟩
def F.CAL_RESULT_DONE : Place := ⟨0x101A000C, 0, 0, 31, 31⟩
def F.CAL_RESULT_PROC : Place := ⟨0x101A000C, 0, 0, 23, 16⟩
def F.CAL_SENS_OFS_OFS : Place := ⟨0x101A0040, 0, 0, 23, 0⟩
def F.CAL_STAT_BUSY : Place := ⟨0x101A0008, 0, 0, 0, 0⟩
def F.CAL_STAT_PHASE : Place := ⟨0x101A0008, 0, 0, 18, 16⟩
def F.CAL_STAT_PROC : Place := ⟨0x101A0008, 0, 0, 7, 1⟩
def F.CAL_STAT_TARGET : Place := ⟨0x101A0008, 0, 0, 15, 8⟩
def F.CAL_TO_MS : Place := ⟨0x101A0018, 0, 0, 15, 0⟩
def F.CAL_XCFG_NO_APPLY : Place := ⟨0x101A0400, 0, 0, 0, 0⟩
def F.CMP_BUDGET_RATE_RATE : Place := ⟨0x100B0048, 0, 0, 16, 0⟩
def F.CMP_BUDGET_USE_USE : Place := ⟨0x100B004C, 0, 0, 9, 0⟩
def F.CMP_CTRL_EN : Place := ⟨0x100B0000, 0, 0, 1, 1⟩
def F.CMP_GLYPH_BASE_HI_ADDR : Place := ⟨0x100B0034, 0, 0, 7, 0⟩
def F.CMP_GLYPH_BASE_LO_ADDR : Place := ⟨0x100B0030, 0, 0, 31, 12⟩
def F.CMP_GSET_BASE_HI_ADDR : Place := ⟨0x100B003C, 0, 0, 7, 0⟩
def F.CMP_GSET_BASE_LO_ADDR : Place := ⟨0x100B0038, 0, 0, 31, 12⟩
def F.CMP_IDLE_LEAD_LEAD : Place := ⟨0x100B0054, 0, 0, 12, 0⟩
def F.CMP_IQ_BASE_HI_ADDR : Place := ⟨0x100B0024, 0, 0, 7, 0⟩
def F.CMP_IQ_BASE_LO_ADDR : Place := ⟨0x100B0020, 0, 0, 31, 12⟩
def F.CMP_IQ_RD_RD : Place := ⟨0x100B0044, 0, 0, 10, 0⟩
def F.CMP_IQ_WR_WR : Place := ⟨0x100B0040, 0, 0, 10, 0⟩
def F.CMP_LANE_GEO_ORIGIN : Place := ⟨0x100B0100, 0x10, 0, 13, 0⟩
def F.CMP_LANE_GEO_WIDTH : Place := ⟨0x100B0100, 0x10, 0, 29, 16⟩
def F.CMP_LANE_MARK_MARK_SEL : Place := ⟨0x100B0108, 0x10, 0, 0, 0⟩
def F.CMP_LANE_MARK_MISS_POL : Place := ⟨0x100B0108, 0x10, 0, 1, 1⟩
def F.CMP_LANE_MARK_OFS : Place := ⟨0x100B0108, 0x10, 0, 31, 8⟩
def F.CMP_LANE_PITCH_PITCH : Place := ⟨0x100B0104, 0x10, 0, 23, 0⟩
def F.CMP_LANE_SHARE_SHARE : Place := ⟨0x100B010C, 0x10, 0, 9, 0⟩
def F.CMP_LDL_THR_THR : Place := ⟨0x100B0050, 0, 0, 9, 0⟩
def F.CMP_LSPAN_L_MAX : Place := ⟨0x100B0070, 0, 0, 28, 16⟩
def F.CMP_LSPAN_L_MIN : Place := ⟨0x100B0070, 0, 0, 12, 0⟩
def F.CMP_MARK_GUARD_GUARD : Place := ⟨0x100B0058, 0, 0, 7, 0⟩
def F.CMP_MISS_CNT_COUNT : Place := ⟨0x100B0074, 0, 0, 31, 0⟩
def F.CMP_NP_CNT_COUNT : Place := ⟨0x100B0078, 0, 0, 31, 0⟩
def F.CMP_REJ_CNT_COUNT : Place := ⟨0x100B007C, 0, 0, 15, 0⟩
def F.CMP_RING_BASE_HI_ADDR : Place := ⟨0x100B0014, 0, 0, 7, 0⟩
def F.CMP_RING_BASE_LO_ADDR : Place := ⟨0x100B0010, 0, 0, 31, 12⟩
def F.CMP_RING_CFG_DEPTH_SEL : Place := ⟨0x100B0018, 0, 0, 1, 0⟩
def F.CMP_SHSTAT_PENDING : Place := ⟨0x100B0008, 0, 0, 1, 1⟩
def F.CMP_SHSTAT_SHADOW_TAKEN : Place := ⟨0x100B0008, 0, 0, 0, 0⟩
def F.CMP_STAT_BASE_HI_ADDR : Place := ⟨0x100B002C, 0, 0, 7, 0⟩
def F.CMP_STAT_BASE_LO_ADDR : Place := ⟨0x100B0028, 0, 0, 31, 12⟩
def F.CMP_STAT_BEHIND : Place := ⟨0x100B0004, 0, 0, 3, 3⟩
def F.CMP_STAT_DEPTH_SHORT : Place := ⟨0x100B0004, 0, 0, 4, 4⟩
def F.CMP_STAT_LAYER_FAULT : Place := ⟨0x100B0004, 0, 0, 1, 1⟩
def F.CMP_STAT_MARK_WAIT : Place := ⟨0x100B0004, 0, 0, 15, 8⟩
def F.CMP_STAT_RING_MISS : Place := ⟨0x100B0004, 0, 0, 2, 2⟩
def F.CMP_STAT_RUN : Place := ⟨0x100B0004, 0, 0, 0, 0⟩
def F.CMP_TP_EN : Place := ⟨0x100B0080, 0x4, 0, 31, 31⟩
def F.CMP_TP_ORG : Place := ⟨0x100B0080, 0x4, 0, 13, 0⟩
def F.CMP_VMAP_CODES : Place := ⟨0x100B0200, 0x10, 0x4, 27, 16⟩
def F.CMP_VMAP_EN : Place := ⟨0x100B0200, 0x10, 0x4, 5, 0⟩
def F.CMP_WARN_WARN : Place := ⟨0x100B005C, 0, 0, 12, 0⟩
def F.CMP_XCFG_AHEAD_MAX : Place := ⟨0x100B0400, 0, 0, 15, 0⟩
def F.COL_COMP_CNT_COUNT : Place := ⟨0x100C0110, 0, 0, 31, 0⟩
def F.COL_DNT_CNT_REMOTE : Place := ⟨0x100C0108, 0, 0, 28, 16⟩
def F.COL_DNT_CNT_USED : Place := ⟨0x100C0108, 0, 0, 12, 0⟩
def F.COL_DNT_IDX_AUTOINC : Place := ⟨0x100C0100, 0, 0, 31, 31⟩
def F.COL_DNT_IDX_IDX : Place := ⟨0x100C0100, 0, 0, 11, 0⟩
def F.COL_GROW_G : Place := ⟨0x100C00C4, 0, 0, 5, 0⟩
def F.COL_LOST_CNT_COUNT : Place := ⟨0x100C010C, 0, 0, 31, 0⟩
def F.COL_PORT_EN : Place := ⟨0x100C0010, 0x4, 0, 31, 31⟩
def F.COL_PORT_MODE : Place := ⟨0x100C0010, 0x4, 0, 26, 24⟩
def F.COL_PORT_PEER : Place := ⟨0x100C0010, 0x4, 0, 22, 20⟩
def F.COL_PORT_SIDE : Place := ⟨0x100C0010, 0x4, 0, 27, 27⟩
def F.COL_PORT_TP : Place := ⟨0x100C0010, 0x4, 0, 30, 28⟩
def F.COL_PSTAT_EXTRA : Place := ⟨0x100C0030, 0x4, 0, 2, 2⟩
def F.COL_PSTAT_FIRES : Place := ⟨0x100C0030, 0x4, 0, 1, 0⟩
def F.COL_REJ_CNT_COUNT : Place := ⟨0x100C0114, 0, 0, 15, 0⟩
def F.COL_SEED_SEED : Place := ⟨0x100C00C0, 0, 0, 15, 0⟩
def F.COL_STAT_DNT_FULL : Place := ⟨0x100C0004, 0, 0, 2, 2⟩
def F.COL_STAT_DOT_LOST : Place := ⟨0x100C0004, 0, 0, 0, 0⟩
def F.COL_STAT_PARITY_SKEW : Place := ⟨0x100C0004, 0, 0, 1, 1⟩
def F.COL_STAT_REQ_WAIT : Place := ⟨0x100C0004, 0, 0, 15, 8⟩
def F.COL_STAT_SOLO : Place := ⟨0x100C0004, 0, 0, 31, 24⟩
def F.COL_STAT_STBY_ACT : Place := ⟨0x100C0004, 0, 0, 23, 16⟩
def F.COL_STBY_ACT : Place := ⟨0x100C00D0, 0x4, 0, 1, 1⟩
def F.COL_STBY_ARM : Place := ⟨0x100C00D0, 0x4, 0, 0, 0⟩
def F.COL_STBY_CMD_OP : Place := ⟨0x100C0060, 0, 0, 1, 0⟩
def F.COL_STBY_CMD_PORT : Place := ⟨0x100C0060, 0, 0, 6, 4⟩
def F.COL_STBY_CMD_TARGET : Place := ⟨0x100C0060, 0, 0, 10, 8⟩
def F.COL_STBY_LINE_HI_LINE_HI : Place := ⟨0x100C005C, 0, 0, 15, 0⟩
def F.COL_STBY_LINE_LO_LINE_LO : Place := ⟨0x100C0058, 0, 0, 31, 0⟩
def F.COL_STITCH_HI_EN : Place := ⟨0x100C0084, 0x8, 0, 31, 31⟩
def F.COL_STITCH_HI_PAT : Place := ⟨0x100C0084, 0x8, 0, 17, 0⟩
def F.COL_STITCH_HI_PEER_NODE : Place := ⟨0x100C0084, 0x8, 0, 27, 18⟩
def F.COL_STITCH_HI_PEER_TP : Place := ⟨0x100C0084, 0x8, 0, 30, 28⟩
def F.COL_STITCH_LO_EN : Place := ⟨0x100C0080, 0x8, 0, 31, 31⟩
def F.COL_STITCH_LO_PAT : Place := ⟨0x100C0080, 0x8, 0, 17, 0⟩
def F.COL_STITCH_LO_PEER_NODE : Place := ⟨0x100C0080, 0x8, 0, 27, 18⟩
def F.COL_STITCH_LO_PEER_TP : Place := ⟨0x100C0080, 0x8, 0, 30, 28⟩
def F.COL_SW_HI_LINE_HI : Place := ⟨0x100C0054, 0, 0, 15, 0⟩
def F.COL_SW_HI_PORT : Place := ⟨0x100C0054, 0, 0, 18, 16⟩
def F.COL_SW_LO_LINE_LO : Place := ⟨0x100C0050, 0, 0, 31, 0⟩
def F.COL_XCFG_NO_HANDOFF : Place := ⟨0x100C0400, 0, 0, 0, 0⟩
def F.COL_XCFG_NO_REMOTE : Place := ⟨0x100C0400, 0, 0, 1, 1⟩
def F.COL_XCFG_REQ_MARGIN : Place := ⟨0x100C0400, 0, 0, 15, 8⟩
def F.COL_XCFG_REQ_TO : Place := ⟨0x100C0400, 0, 0, 23, 16⟩
def F.DDR_CFG_DENSITY : Place := ⟨0x101E0004, 0, 0, 9, 8⟩
def F.DDR_CFG_RANKS : Place := ⟨0x101E0004, 0, 0, 4, 4⟩
def F.DDR_CFG_WIDTH : Place := ⟨0x101E0004, 0, 0, 0, 0⟩
def F.DDR_CTRL_EN : Place := ⟨0x101E0000, 0, 0, 1, 1⟩
def F.DDR_CTRL_LOCK : Place := ⟨0x101E0000, 0, 0, 2, 2⟩
def F.DDR_DEV_SEL_DEV : Place := ⟨0x101E0024, 0, 0, 4, 0⟩
def F.DDR_DEV_SEL_RANK : Place := ⟨0x101E0024, 0, 0, 5, 5⟩
def F.DDR_ECC_ADDR_LO_ADDR : Place := ⟨0x101E001C, 0, 0, 31, 6⟩
def F.DDR_ECC_CE_COUNT : Place := ⟨0x101E0014, 0, 0, 31, 0⟩
def F.DDR_ECC_CFG_DEV_THR : Place := ⟨0x101E0010, 0, 0, 15, 8⟩
def F.DDR_ECC_UE_COUNT : Place := ⟨0x101E0018, 0, 0, 31, 0⟩
def F.DDR_PWR_SR_DEEP : Place := ⟨0x101E0044, 0, 0, 0, 0⟩
def F.DDR_RD_INUSE : Place := ⟨0x101E0048, 0, 0, 6, 0⟩
def F.DDR_RD_MAX : Place := ⟨0x101E0048, 0, 0, 30, 24⟩
def F.DDR_REJ_CNT_COUNT : Place := ⟨0x101E004C, 0, 0, 15, 0⟩
def F.DDR_SCRUB_AMT_AMT : Place := ⟨0x101E003C, 0, 0, 15, 0⟩
def F.DDR_SCRUB_EN : Place := ⟨0x101E0030, 0, 0, 0, 0⟩
def F.DDR_SCRUB_PERIOD : Place := ⟨0x101E0030, 0, 0, 23, 16⟩
def F.DDR_SCRUB_POS_POS : Place := ⟨0x101E0038, 0, 0, 22, 0⟩
def F.DDR_SCRUB_STAT_PASSES : Place := ⟨0x101E0034, 0, 0, 31, 16⟩
def F.DDR_SCRUB_STAT_REFUSED : Place := ⟨0x101E0034, 0, 0, 15, 0⟩
def F.DDR_STAT_READY : Place := ⟨0x101E0008, 0, 0, 1, 1⟩
def F.DDR_STAT_SIZE : Place := ⟨0x101E0008, 0, 0, 21, 16⟩
def F.DDR_STAT_SR : Place := ⟨0x101E0008, 0, 0, 3, 3⟩
def F.DDR_STAT_TRAIN_FAIL : Place := ⟨0x101E0008, 0, 0, 2, 2⟩
def F.DDR_WIN_BASE_PAGE : Place := ⟨0x101E0100, 0x10, 0, 27, 0⟩
def F.DDR_WIN_LIMIT_PAGE : Place := ⟨0x101E0104, 0x10, 0, 27, 0⟩
def F.DDR_WIN_PERM_EN : Place := ⟨0x101E0108, 0x10, 0, 31, 31⟩
def F.DDR_WIN_PERM_RD : Place := ⟨0x101E0108, 0x10, 0, 8, 0⟩
def F.DDR_WIN_PERM_WR : Place := ⟨0x101E0108, 0x10, 0, 24, 16⟩
def F.DMA_CHSEL_CH : Place := ⟨0x10050014, 0, 0, 4, 0⟩
def F.DMA_DONE_DONE : Place := ⟨0x1005000C, 0, 0, 31, 0⟩
def F.DMA_LDL_AMT : Place := ⟨0x10050010, 0, 0, 31, 16⟩
def F.DMA_LDL_THR : Place := ⟨0x10050010, 0, 0, 15, 0⟩
def F.DMA_REJ_CNT_COUNT : Place := ⟨0x10050018, 0, 0, 15, 0⟩
def F.DMA_XCFG_GAP : Place := ⟨0x10050400, 0, 0, 19, 16⟩
def F.EVC_CORE_THR_THR : Place := ⟨0x10040050, 0x4, 0, 2, 0⟩
def F.EVC_HQ_BASE_HI_ADDR : Place := ⟨0x10040074, 0, 0, 31, 0⟩
def F.EVC_HQ_BASE_LO_ADDR : Place := ⟨0x10040070, 0, 0, 31, 12⟩
def F.EVC_HQ_CFG_COAL_N : Place := ⟨0x10040078, 0, 0, 15, 8⟩
def F.EVC_HQ_CFG_COAL_US : Place := ⟨0x10040078, 0, 0, 29, 24⟩
def F.EVC_HQ_CFG_EN : Place := ⟨0x10040078, 0, 0, 31, 31⟩
def F.EVC_HQ_CFG_SIZE_LOG2 : Place := ⟨0x10040078, 0, 0, 3, 0⟩
def F.EVC_HQ_CFG_VEC : Place := ⟨0x10040078, 0, 0, 21, 16⟩
def F.EVC_HQ_HEAD_HEAD : Place := ⟨0x10040080, 0, 0, 31, 0⟩
def F.EVC_HQ_LOST_FOREIGN : Place := ⟨0x1004008C, 0, 0, 31, 16⟩
def F.EVC_HQ_LOST_LOCAL : Place := ⟨0x1004008C, 0, 0, 15, 0⟩
def F.EVC_HQ_TAIL_TAIL : Place := ⟨0x1004007C, 0, 0, 31, 0⟩
def F.EVC_HQ_WB_HI_ADDR : Place := ⟨0x10040088, 0, 0, 31, 0⟩
def F.EVC_HQ_WB_LO_ADDR : Place := ⟨0x10040084, 0, 0, 31, 2⟩
def F.EVC_LOG_CODE_CODE : Place := ⟨0x1004006C, 0, 0, 15, 0⟩
def F.EVC_PEND_PEND : Place := ⟨0x10040010, 0x4, 0, 31, 0⟩
def F.EVC_REJ_CNT_COUNT : Place := ⟨0x10040090, 0, 0, 15, 0⟩
def F.EVC_RSEL_SRC : Place := ⟨0x10040030, 0, 0, 7, 0⟩
def F.EVC_SWTRIG_GO : Place := ⟨0x1004003C, 0, 0, 31, 31⟩
def F.EVC_SWTRIG_IDX : Place := ⟨0x1004003C, 0, 0, 5, 0⟩
def F.EVC_WATCH_CODE : Place := ⟨0x10040100, 0x4, 0, 15, 0⟩
def F.EVC_WATCH_MASK : Place := ⟨0x10040100, 0x4, 0, 31, 16⟩
def F.EVC_XTEST_GO : Place := ⟨0x10040400, 0, 0, 31, 31⟩
def F.EVC_XTEST_SRC : Place := ⟨0x10040400, 0, 0, 7, 0⟩
def F.EVR_CLOSE_MS : Place := ⟨0x10030020, 0, 0, 15, 0⟩
def F.EVR_CTRL_EN : Place := ⟨0x10030000, 0, 0, 1, 1⟩
def F.EVR_CTRL_MIR_EN : Place := ⟨0x10030000, 0, 0, 2, 2⟩
def F.EVR_DROP_CNT_COUNT : Place := ⟨0x10030030, 0, 0, 31, 0⟩
def F.EVR_LOST_HOLD_LOST : Place := ⟨0x10030034, 0, 0, 15, 0⟩
def F.EVR_LOST_MIR_LOST : Place := ⟨0x10030034, 0, 0, 31, 16⟩
def F.EVR_MIR_CNT_COUNT : Place := ⟨0x10030018, 0, 0, 31, 0⟩
def F.EVR_MIR_END_ADDR : Place := ⟨0x10030014, 0, 0, 31, 12⟩
def F.EVR_MIR_POS_ADDR : Place := ⟨0x10030010, 0, 0, 31, 0⟩
def F.EVR_RATE_LIMIT : Place := ⟨0x1003001C, 0, 0, 7, 0⟩
def F.EVR_RATE_OVF_COUNT : Place := ⟨0x10030038, 0, 0, 31, 0⟩
def F.EVR_RATE_WIN_MS : Place := ⟨0x1003001C, 0, 0, 31, 16⟩
def F.EVR_REJ_CNT_COUNT : Place := ⟨0x1003003C, 0, 0, 15, 0⟩
def F.EVR_RSEL_IDX : Place := ⟨0x10030024, 0, 0, 6, 0⟩
def F.EVR_SEQ_SEQ : Place := ⟨0x1003000C, 0, 0, 23, 0⟩
def F.EVR_STAT_FLASH_ERR : Place := ⟨0x10030004, 0, 0, 4, 4⟩
def F.EVR_STAT_HOLD_LOST : Place := ⟨0x10030004, 0, 0, 2, 2⟩
def F.EVR_STAT_MIR_LOST : Place := ⟨0x10030004, 0, 0, 3, 3⟩
def F.EVR_STAT_OPEN : Place := ⟨0x10030004, 0, 0, 1, 1⟩
def F.EVR_WR_WR : Place := ⟨0x10030008, 0, 0, 31, 0⟩
def F.EVR_XCFG_NO_LIMIT : Place := ⟨0x10030400, 0, 0, 1, 1⟩
def F.EVR_XCFG_NO_REPEAT : Place := ⟨0x10030400, 0, 0, 0, 0⟩
def F.FAB_ASYM_ASYM : Place := ⟨0x1018005C, 0x4, 0, 15, 0⟩
def F.FAB_BULK_BASE_HI_ADDR : Place := ⟨0x10180094, 0, 0, 7, 0⟩
def F.FAB_BULK_BASE_LO_ADDR : Place := ⟨0x10180090, 0, 0, 31, 12⟩
def F.FAB_BULK_SIZE_SIZE : Place := ⟨0x10180098, 0, 0, 9, 0⟩
def F.FAB_BULK_STAT_BAD : Place := ⟨0x1018009C, 0, 0, 17, 17⟩
def F.FAB_BULK_STAT_DONE : Place := ⟨0x1018009C, 0, 0, 16, 16⟩
def F.FAB_BULK_STAT_XFER : Place := ⟨0x1018009C, 0, 0, 15, 0⟩
def F.FAB_CTRL_EN : Place := ⟨0x10180000, 0, 0, 1, 1⟩
def F.FAB_E2E_CNT_FAIL : Place := ⟨0x101800A4, 0, 0, 31, 16⟩
def F.FAB_E2E_CNT_RESEND : Place := ⟨0x101800A4, 0, 0, 15, 0⟩
def F.FAB_HOP_DROP_COUNT : Place := ⟨0x101800A0, 0, 0, 31, 0⟩
def F.FAB_INBOX_BASE_HI_ADDR : Place := ⟨0x10180084, 0, 0, 7, 0⟩
def F.FAB_INBOX_BASE_LO_ADDR : Place := ⟨0x10180080, 0, 0, 31, 12⟩
def F.FAB_INBOX_RD_RD : Place := ⟨0x1018008C, 0, 0, 8, 0⟩
def F.FAB_INBOX_WR_WR : Place := ⟨0x10180088, 0, 0, 8, 0⟩
def F.FAB_LP_BEACON_EN : Place := ⟨0x101800B0, 0, 0, 0, 0⟩
def F.FAB_LP_BEACON_TX : Place := ⟨0x101800B0, 0, 0, 6, 4⟩
def F.FAB_LP_RETRAIN_AMT : Place := ⟨0x101800B0, 0, 0, 31, 16⟩
def F.FAB_LP_WAKE_FWD : Place := ⟨0x101800B0, 0, 0, 1, 1⟩
def F.FAB_NODE_NODE_ID : Place := ⟨0x10180004, 0, 0, 9, 0⟩
def F.FAB_NODE_PORT_EN : Place := ⟨0x10180004, 0, 0, 18, 16⟩
def F.FAB_P_CTRL_DOWN : Place := ⟨0x10180010, 0x10, 0, 1, 1⟩
def F.FAB_P_CTRL_RETRAIN : Place := ⟨0x10180010, 0x10, 0, 0, 0⟩
def F.FAB_P_DELAY_DELAY : Place := ⟨0x1018001C, 0x10, 0, 23, 0⟩
def F.FAB_P_ERR_CRC : Place := ⟨0x10180018, 0x10, 0, 15, 0⟩
def F.FAB_P_ERR_REPLAY : Place := ⟨0x10180018, 0x10, 0, 31, 16⟩
def F.FAB_P_STAT_LANES : Place := ⟨0x10180014, 0x10, 0, 5, 4⟩
def F.FAB_P_STAT_PEER : Place := ⟨0x10180014, 0x10, 0, 25, 16⟩
def F.FAB_P_STAT_STATE : Place := ⟨0x10180014, 0x10, 0, 3, 0⟩
def F.FAB_REJ_CNT_COUNT : Place := ⟨0x101800C0, 0, 0, 15, 0⟩
def F.FAB_RING_CLOSED : Place := ⟨0x10180040, 0, 0, 17, 17⟩
def F.FAB_RING_SIZE : Place := ⟨0x10180040, 0, 0, 6, 0⟩
def F.FAB_RING_VALID : Place := ⟨0x10180040, 0, 0, 16, 16⟩
def F.FAB_SEGMAP_REACH : Place := ⟨0x10180044, 0, 0, 15, 0⟩
def F.FAB_STAT_BULK_BAD : Place := ⟨0x10180008, 0, 0, 11, 11⟩
def F.FAB_STAT_DUP_ID : Place := ⟨0x10180008, 0, 0, 8, 8⟩
def F.FAB_STAT_E2E_FAIL : Place := ⟨0x10180008, 0, 0, 10, 10⟩
def F.FAB_STAT_ISOLATED : Place := ⟨0x10180008, 0, 0, 3, 3⟩
def F.FAB_STAT_LOW_LINK : Place := ⟨0x10180008, 0, 0, 4, 4⟩
def F.FAB_STAT_MISWIRE : Place := ⟨0x10180008, 0, 0, 9, 9⟩
def F.FAB_STAT_RUN : Place := ⟨0x10180008, 0, 0, 0, 0⟩
def F.FAB_STAT_WRAP_E : Place := ⟨0x10180008, 0, 0, 1, 1⟩
def F.FAB_STAT_WRAP_W : Place := ⟨0x10180008, 0, 0, 2, 2⟩
def F.FAB_TSYNC_EN : Place := ⟨0x10180050, 0, 0, 16, 16⟩
def F.FAB_TSYNC_OFS_OFS : Place := ⟨0x10180058, 0, 0, 31, 0⟩
def F.FAB_TSYNC_PER : Place := ⟨0x10180050, 0, 0, 15, 8⟩
def F.FAB_TSYNC_PRIO : Place := ⟨0x10180050, 0, 0, 7, 0⟩
def F.FAB_TSYNC_STAT_ESTAB : Place := ⟨0x10180054, 0, 0, 24, 24⟩
def F.FAB_TSYNC_STAT_HOLDOVER : Place := ⟨0x10180054, 0, 0, 26, 26⟩
def F.FAB_TSYNC_STAT_HOPS : Place := ⟨0x10180054, 0, 0, 22, 16⟩
def F.FAB_TSYNC_STAT_LOCKED : Place := ⟨0x10180054, 0, 0, 25, 25⟩
def F.FAB_TSYNC_STAT_MASTER : Place := ⟨0x10180054, 0, 0, 27, 27⟩
def F.FAB_TSYNC_STAT_MASTER_ID : Place := ⟨0x10180054, 0, 0, 9, 0⟩
def F.FAB_TSYNC_STAT_UP_PORT : Place := ⟨0x10180054, 0, 0, 29, 28⟩
def F.FAB_TXQ_BASE_HI_ADDR : Place := ⟨0x10180074, 0, 0, 7, 0⟩
def F.FAB_TXQ_BASE_LO_ADDR : Place := ⟨0x10180070, 0, 0, 31, 12⟩
def F.FAB_TXQ_RD_RD : Place := ⟨0x1018007C, 0, 0, 8, 0⟩
def F.FAB_TXQ_WR_WR : Place := ⟨0x10180078, 0, 0, 8, 0⟩
def F.FAB_WAKE_SRC_PORT : Place := ⟨0x101800B4, 0, 0, 2, 0⟩
def F.FAB_XARB_DATA_W : Place := ⟨0x10180404, 0, 0, 3, 0⟩
def F.FAB_XARB_MGMT_W : Place := ⟨0x10180404, 0, 0, 7, 4⟩
def F.FAB_XCFG_E2E_TO : Place := ⟨0x10180400, 0, 0, 23, 16⟩
def F.FAB_XCFG_TRIES : Place := ⟨0x10180400, 0, 0, 27, 24⟩
def F.FAB_XTSYNC_LOCK_N : Place := ⟨0x10180408, 0, 0, 15, 8⟩
def F.FAB_XTSYNC_LOCK_THR : Place := ⟨0x10180408, 0, 0, 7, 0⟩
def F.FAB_XTSYNC_STEP_THR : Place := ⟨0x10180408, 0, 0, 31, 16⟩
def F.FLW_COLDMAP_LINES : Place := ⟨0x100D0408, 0, 0, 11, 8⟩
def F.FLW_COLDMAP_MAP : Place := ⟨0x100D0408, 0, 0, 7, 0⟩
def F.FLW_COMMIT_GO : Place := ⟨0x100D0404, 0, 0, 0, 0⟩
def F.FLW_CTRL_EN : Place := ⟨0x100D0000, 0, 0, 1, 1⟩
def F.FLW_EFF_HI : Place := ⟨0x100D0090, 0x4, 0, 15, 8⟩
def F.FLW_EFF_LO : Place := ⟨0x100D0090, 0x4, 0, 7, 0⟩
def F.FLW_GAP_GAP : Place := ⟨0x100D00C0, 0, 0, 15, 0⟩
def F.FLW_LOOP_EN : Place := ⟨0x100D0010, 0x4, 0, 31, 31⟩
def F.FLW_LOOP_FILT : Place := ⟨0x100D0010, 0x4, 0, 23, 20⟩
def F.FLW_LOOP_KT : Place := ⟨0x100D0010, 0x4, 0, 19, 12⟩
def F.FLW_LOOP_STEP : Place := ⟨0x100D0010, 0x4, 0, 27, 24⟩
def F.FLW_LOOP_TREF : Place := ⟨0x100D0010, 0x4, 0, 11, 0⟩
def F.FLW_REJ_CNT_COUNT : Place := ⟨0x100D00E4, 0, 0, 15, 0⟩
def F.FLW_SAT_CNT_COUNT : Place := ⟨0x100D00E0, 0, 0, 31, 0⟩
def F.FLW_SCEIL_E_MAX : Place := ⟨0x100D0070, 0x4, 0, 19, 10⟩
def F.FLW_SCEIL_SPAN_MAX : Place := ⟨0x100D0070, 0x4, 0, 9, 0⟩
def F.FLW_SCEIL_W_MIN : Place := ⟨0x100D0070, 0x4, 0, 27, 20⟩
def F.FLW_SHSTAT_PENDING : Place := ⟨0x100D0008, 0, 0, 1, 1⟩
def F.FLW_SHSTAT_SHADOW_TAKEN : Place := ⟨0x100D0008, 0, 0, 0, 0⟩
def F.FLW_SHSTAT_TAKEN : Place := ⟨0x100D0008, 0, 0, 15, 8⟩
def F.FLW_STAT_BOUND_CONFLICT : Place := ⟨0x100D0004, 0, 0, 3, 3⟩
def F.FLW_STAT_BRIDGE : Place := ⟨0x100D0004, 0, 0, 23, 16⟩
def F.FLW_STAT_COLD : Place := ⟨0x100D0004, 0, 0, 31, 24⟩
def F.FLW_STAT_LOOP_SAT : Place := ⟨0x100D0004, 0, 0, 1, 1⟩
def F.FLW_STAT_RUN : Place := ⟨0x100D0004, 0, 0, 0, 0⟩
def F.FLW_STAT_TEMP_STALE : Place := ⟨0x100D0004, 0, 0, 2, 2⟩
def F.FLW_TCEIL_HI : Place := ⟨0x100D0050, 0x4, 0, 15, 8⟩
def F.FLW_TCEIL_LO : Place := ⟨0x100D0050, 0x4, 0, 7, 0⟩
def F.FLW_TRIM_MAX : Place := ⟨0x100D0030, 0x4, 0, 15, 8⟩
def F.FLW_TRIM_MIN : Place := ⟨0x100D0030, 0x4, 0, 7, 0⟩
def F.FLW_TRIM_SAFE : Place := ⟨0x100D0030, 0x4, 0, 23, 16⟩
def F.FLW_TSEL_IC : Place := ⟨0x100D00B0, 0, 0, 2, 0⟩
def F.FLW_TSEL_PORT : Place := ⟨0x100D00B0, 0, 0, 6, 4⟩
def F.FLW_WARM_CFG_CH : Place := ⟨0x100D00C4, 0, 0, 13, 8⟩
def F.FLW_WARM_CFG_IDLE_EN : Place := ⟨0x100D00C4, 0, 0, 0, 0⟩
def F.FLW_WARM_CFG_KEEP : Place := ⟨0x100D00C4, 0, 0, 21, 16⟩
def F.FLW_WARM_CFG_PER : Place := ⟨0x100D00C4, 0, 0, 31, 24⟩
def F.FLW_WARM_REQ_IDLE_AMT : Place := ⟨0x100D00CC, 0, 0, 15, 0⟩
def F.FLW_WARM_REQ_KEEP_AMT : Place := ⟨0x100D00CC, 0, 0, 31, 16⟩
def F.FLW_WARM_STAT_IDLE_ACT : Place := ⟨0x100D00D0, 0, 0, 15, 8⟩
def F.FLW_WARM_STAT_IDLE_GRANT : Place := ⟨0x100D00D0, 0, 0, 23, 16⟩
def F.FLW_WARM_STAT_KEEP_GRANT : Place := ⟨0x100D00D0, 0, 0, 31, 24⟩
def F.FLW_WARM_T_HI : Place := ⟨0x100D00C8, 0, 0, 27, 16⟩
def F.FLW_WARM_T_LO : Place := ⟨0x100D00C8, 0, 0, 11, 0⟩
def F.FLW_XCFG_HOLD : Place := ⟨0x100D0400, 0, 0, 7, 0⟩
def F.HP_BAR_BAR : Place := ⟨0x10100120, 0x10000, 0, 25, 24⟩
def F.HP_BAR_SHARE : Place := ⟨0x10100120, 0x10000, 0, 9, 0⟩
def F.HP_BCERR_CNT_CRC : Place := ⟨0x10100050, 0x10000, 0, 31, 16⟩
def F.HP_BCERR_CNT_FORMAT : Place := ⟨0x10100050, 0x10000, 0, 15, 0⟩
def F.HP_BLANK_CNT_COUNT : Place := ⟨0x10100140, 0x10000, 0, 31, 0⟩
def F.HP_CTRL_AUTO_UP : Place := ⟨0x10100000, 0x10000, 0, 2, 2⟩
def F.HP_CTRL_DOWN : Place := ⟨0x10100000, 0x10000, 0, 3, 3⟩
def F.HP_CTRL_EN : Place := ⟨0x10100000, 0x10000, 0, 1, 1⟩
def F.HP_CTRL_RETRAIN : Place := ⟨0x10100000, 0x10000, 0, 4, 4⟩
def F.HP_CTRL_XPERT_EN : Place := ⟨0x10100000, 0x10000, 0, 0, 0⟩
def F.HP_DSUPP_CNT_COUNT : Place := ⟨0x10100138, 0x10000, 0, 31, 0⟩
def F.HP_DUTY_NMAX : Place := ⟨0x10100104, 0x10000, 0, 22, 16⟩
def F.HP_DUTY_W : Place := ⟨0x10100104, 0x10000, 0, 6, 0⟩
def F.HP_ELIM_CEIL_CEIL : Place := ⟨0x1010011C, 0x10000, 0, 27, 0⟩
def F.HP_ELIM_LIMIT : Place := ⟨0x10100108, 0x10000, 0, 27, 0⟩
def F.HP_ESUPP_CNT_COUNT : Place := ⟨0x1010013C, 0x10000, 0, 31, 0⟩
def F.HP_FTRIM_TAPS : Place := ⟨0x1010001C, 0x10000, 0, 11, 0⟩
def F.HP_GRP_GQ : Place := ⟨0x10100018, 0x10000, 0, 7, 4⟩
def F.HP_GRP_G_BASE : Place := ⟨0x10100018, 0x10000, 0, 1, 0⟩
def F.HP_GRP_G_NOW : Place := ⟨0x10100018, 0x10000, 0, 9, 8⟩
def F.HP_HEAD_ID_MODEL : Place := ⟨0x10100008, 0x10000, 0, 15, 0⟩
def F.HP_HEAD_ID_VENDOR : Place := ⟨0x10100008, 0x10000, 0, 31, 16⟩
def F.HP_HEAD_INFO_CAPS : Place := ⟨0x10100014, 0x10000, 0, 7, 0⟩
def F.HP_HEAD_INFO_HWREV : Place := ⟨0x10100014, 0x10000, 0, 31, 16⟩
def F.HP_HEAD_INFO_RANK : Place := ⟨0x10100014, 0x10000, 0, 15, 12⟩
def F.HP_HEAD_SN_HI_SN_HI : Place := ⟨0x10100010, 0x10000, 0, 31, 0⟩
def F.HP_HEAD_SN_LO_SN_LO : Place := ⟨0x1010000C, 0x10000, 0, 31, 0⟩
def F.HP_HOT_PG_TO : Place := ⟨0x1010002C, 0x10000, 0, 23, 16⟩
def F.HP_HOT_PRES_DB : Place := ⟨0x1010002C, 0x10000, 0, 7, 0⟩
def F.HP_LANEERR_D0 : Place := ⟨0x10100054, 0x10000, 0, 15, 0⟩
def F.HP_LANEERR_D1 : Place := ⟨0x10100054, 0x10000, 0, 31, 16⟩
def F.HP_LATE_CNT_COUNT : Place := ⟨0x10100048, 0x10000, 0, 31, 0⟩
def F.HP_LINES_COUNT : Place := ⟨0x10100040, 0x10000, 0, 31, 0⟩
def F.HP_MEM_SEL_AUTOINC : Place := ⟨0x10100024, 0x10000, 0, 31, 31⟩
def F.HP_MEM_SEL_WORD : Place := ⟨0x10100024, 0x10000, 0, 9, 0⟩
def F.HP_MERGE_CNT_COUNT : Place := ⟨0x1010004C, 0x10000, 0, 31, 0⟩
def F.HP_PCEIL_NMAX_CEIL : Place := ⟨0x10100114, 0x10000, 0, 22, 16⟩
def F.HP_PCEIL_T_TCRIT_CEIL : Place := ⟨0x10100118, 0x10000, 0, 27, 16⟩
def F.HP_PCEIL_T_TLIM_CEIL : Place := ⟨0x10100118, 0x10000, 0, 11, 0⟩
def F.HP_PCEIL_WDOG_CEIL : Place := ⟨0x10100114, 0x10000, 0, 9, 0⟩
def F.HP_PSTAT_BLANK : Place := ⟨0x10100130, 0x10000, 0, 3, 3⟩
def F.HP_PSTAT_CUT : Place := ⟨0x10100130, 0x10000, 0, 6, 6⟩
def F.HP_PSTAT_FILL : Place := ⟨0x10100130, 0x10000, 0, 4, 4⟩
def F.HP_PSTAT_GROUPS : Place := ⟨0x10100130, 0x10000, 0, 8, 8⟩
def F.HP_PSTAT_LOOP_SAT : Place := ⟨0x10100130, 0x10000, 0, 9, 9⟩
def F.HP_PSTAT_TEMP_LOST : Place := ⟨0x10100130, 0x10000, 0, 5, 5⟩
def F.HP_PSTAT_WARN : Place := ⟨0x10100130, 0x10000, 0, 2, 2⟩
def F.HP_PSTAT_WDOG : Place := ⟨0x10100130, 0x10000, 0, 7, 7⟩
def F.HP_REJ_CNT_COUNT : Place := ⟨0x10100058, 0x10000, 0, 15, 0⟩
def F.HP_RESEND_CNT_COUNT : Place := ⟨0x10100044, 0x10000, 0, 31, 0⟩
def F.HP_SPREAD_CNT_COUNT : Place := ⟨0x10100144, 0x10000, 0, 31, 0⟩
def F.HP_STAT_BAD_ANSWER : Place := ⟨0x10100004, 0x10000, 0, 24, 24⟩
def F.HP_STAT_BC_CRC : Place := ⟨0x10100004, 0x10000, 0, 18, 18⟩
def F.HP_STAT_BC_LOCK : Place := ⟨0x10100004, 0x10000, 0, 11, 11⟩
def F.HP_STAT_EN_OUT : Place := ⟨0x10100004, 0x10000, 0, 8, 8⟩
def F.HP_STAT_HEAD_EVT : Place := ⟨0x10100004, 0x10000, 0, 16, 16⟩
def F.HP_STAT_HEAD_TO : Place := ⟨0x10100004, 0x10000, 0, 17, 17⟩
def F.HP_STAT_LANES : Place := ⟨0x10100004, 0x10000, 0, 5, 4⟩
def F.HP_STAT_LANE_LOST : Place := ⟨0x10100004, 0x10000, 0, 20, 20⟩
def F.HP_STAT_PGOOD : Place := ⟨0x10100004, 0x10000, 0, 10, 10⟩
def F.HP_STAT_PRES : Place := ⟨0x10100004, 0x10000, 0, 9, 9⟩
def F.HP_STAT_REC_BAD : Place := ⟨0x10100004, 0x10000, 0, 22, 22⟩
def F.HP_STAT_SEG_LATE : Place := ⟨0x10100004, 0x10000, 0, 19, 19⟩
def F.HP_STAT_STATE : Place := ⟨0x10100004, 0x10000, 0, 3, 0⟩
def F.HP_STAT_TO_RANGE : Place := ⟨0x10100004, 0x10000, 0, 23, 23⟩
def F.HP_STAT_TRAIN_FAIL : Place := ⟨0x10100004, 0x10000, 0, 21, 21⟩
def F.HP_TEMP_ROW : Place := ⟨0x10100134, 0x10000, 0, 14, 12⟩
def F.HP_TEMP_T_H : Place := ⟨0x10100134, 0x10000, 0, 11, 0⟩
def F.HP_TLIM_T_CRIT : Place := ⟨0x1010010C, 0x10000, 0, 27, 16⟩
def F.HP_TLIM_T_LIMIT : Place := ⟨0x1010010C, 0x10000, 0, 11, 0⟩
def F.HP_TWARN_T_HYST : Place := ⟨0x10100110, 0x10000, 0, 27, 16⟩
def F.HP_TWARN_T_WARN : Place := ⟨0x10100110, 0x10000, 0, 11, 0⟩
def F.HP_TXDLY_BC_PH : Place := ⟨0x10100020, 0x10000, 0, 21, 16⟩
def F.HP_TXDLY_D0 : Place := ⟨0x10100020, 0x10000, 0, 5, 0⟩
def F.HP_TXDLY_D1 : Place := ⟨0x10100020, 0x10000, 0, 13, 8⟩
def F.HP_WDOG_LIMIT : Place := ⟨0x10100100, 0x10000, 0, 9, 0⟩
def F.HP_XARG_ARG : Place := ⟨0x10100404, 0x10000, 0, 31, 0⟩
def F.HP_XCMD_GO : Place := ⟨0x10100400, 0x10000, 0, 31, 31⟩
def F.HP_XCMD_OPC : Place := ⟨0x10100400, 0x10000, 0, 7, 0⟩
def F.HP_XCMD_TAG : Place := ⟨0x10100400, 0x10000, 0, 15, 8⟩
def F.HP_XLINK_FORCE : Place := ⟨0x10100410, 0x10000, 0, 9, 8⟩
def F.HP_XLINK_NO_RESEND : Place := ⟨0x10100410, 0x10000, 0, 4, 4⟩
def F.HP_XPROT_NO_FILL : Place := ⟨0x10100420, 0x10000, 0, 0, 0⟩
def F.HP_XPROT_TLOST : Place := ⟨0x10100420, 0x10000, 0, 11, 8⟩
def F.HP_XRSP_ERR : Place := ⟨0x10100408, 0x10000, 0, 30, 30⟩
def F.HST_CQ_BASE_HI_ADDR : Place := ⟨0x101901C4, 0x18, 0, 31, 0⟩
def F.HST_CQ_BASE_LO_ADDR : Place := ⟨0x101901C0, 0x18, 0, 31, 12⟩
def F.HST_CQ_CFG_COAL_N : Place := ⟨0x101901C8, 0x18, 0, 15, 8⟩
def F.HST_CQ_CFG_COAL_US : Place := ⟨0x101901C8, 0x18, 0, 29, 24⟩
def F.HST_CQ_CFG_EN : Place := ⟨0x101901C8, 0x18, 0, 31, 31⟩
def F.HST_CQ_CFG_SIZE_LOG2 : Place := ⟨0x101901C8, 0x18, 0, 3, 0⟩
def F.HST_CQ_CFG_VEC : Place := ⟨0x101901C8, 0x18, 0, 21, 16⟩
def F.HST_CQ_HEAD_HEAD : Place := ⟨0x101901CC, 0x18, 0, 11, 0⟩
def F.HST_CQ_TAIL_P : Place := ⟨0x101901D0, 0x18, 0, 12, 12⟩
def F.HST_CQ_TAIL_TAIL : Place := ⟨0x101901D0, 0x18, 0, 11, 0⟩
def F.HST_LINK_BME : Place := ⟨0x10190004, 0, 0, 9, 9⟩
def F.HST_LINK_DSTATE : Place := ⟨0x10190004, 0, 0, 11, 10⟩
def F.HST_LINK_SPEED : Place := ⟨0x10190004, 0, 0, 3, 0⟩
def F.HST_LINK_UP : Place := ⟨0x10190004, 0, 0, 8, 8⟩
def F.HST_LINK_WIDTH : Place := ⟨0x10190004, 0, 0, 6, 4⟩
def F.HST_LOST_CNT_DISCARD : Place := ⟨0x10190010, 0, 0, 31, 16⟩
def F.HST_LOST_CNT_WLOST : Place := ⟨0x10190010, 0, 0, 15, 0⟩
def F.HST_REC_BASE_HI_ADDR : Place := ⟨0x10190344, 0, 0, 31, 0⟩
def F.HST_REC_BASE_LO_ADDR : Place := ⟨0x10190340, 0, 0, 31, 12⟩
def F.HST_REC_CFG_COAL_N : Place := ⟨0x10190348, 0, 0, 15, 8⟩
def F.HST_REC_CFG_COAL_US : Place := ⟨0x10190348, 0, 0, 29, 24⟩
def F.HST_REC_CFG_EN : Place := ⟨0x10190348, 0, 0, 31, 31⟩
def F.HST_REC_CFG_SIZE_LOG2 : Place := ⟨0x10190348, 0, 0, 3, 0⟩
def F.HST_REC_CFG_VEC : Place := ⟨0x10190348, 0, 0, 21, 16⟩
def F.HST_REC_HEAD_HEAD : Place := ⟨0x10190350, 0, 0, 31, 0⟩
def F.HST_REC_TAIL_TAIL : Place := ⟨0x1019034C, 0, 0, 31, 0⟩
def F.HST_REC_WB_HI_ADDR : Place := ⟨0x10190358, 0, 0, 31, 0⟩
def F.HST_REC_WB_LO_ADDR : Place := ⟨0x10190354, 0, 0, 31, 2⟩
def F.HST_REJ_CNT_COUNT : Place := ⟨0x10190014, 0, 0, 15, 0⟩
def F.HST_SQ_BASE_HI_ADDR : Place := ⟨0x10190044, 0x18, 0, 31, 0⟩
def F.HST_SQ_BASE_LO_ADDR : Place := ⟨0x10190040, 0x18, 0, 31, 12⟩
def F.HST_SQ_CFG_CQ : Place := ⟨0x10190048, 0x18, 0, 19, 16⟩
def F.HST_SQ_CFG_EN : Place := ⟨0x10190048, 0x18, 0, 31, 31⟩
def F.HST_SQ_CFG_PRIO : Place := ⟨0x10190048, 0x18, 0, 14, 12⟩
def F.HST_SQ_CFG_SIZE_LOG2 : Place := ⟨0x10190048, 0x18, 0, 3, 0⟩
def F.HST_SQ_HEAD_ERR : Place := ⟨0x10190050, 0x18, 0, 31, 31⟩
def F.HST_SQ_HEAD_HEAD : Place := ⟨0x10190050, 0x18, 0, 11, 0⟩
def F.HST_SQ_TAIL_TAIL : Place := ⟨0x1019004C, 0x18, 0, 11, 0⟩
def F.HST_SUBSYS_SUBSYS : Place := ⟨0x1019000C, 0, 0, 31, 0⟩
def F.HST_XCFG_FETCH_N : Place := ⟨0x10190400, 0, 0, 4, 0⟩
def F.LDL_BAR_BUD_BUD : Place := ⟨0x10080100, 0x10, 0, 15, 0⟩
def F.LDL_BAR_BUD_FIRE_RES : Place := ⟨0x10080100, 0x10, 0, 31, 16⟩
def F.LDL_BAR_HELD_CLIENTS : Place := ⟨0x10080104, 0x10, 0, 23, 16⟩
def F.LDL_BAR_HELD_HELD : Place := ⟨0x10080104, 0x10, 0, 15, 0⟩
def F.LDL_BAR_STAT_MAX_HELD : Place := ⟨0x10080108, 0x10, 0, 15, 0⟩
def F.LDL_BAR_STAT_REFUSED : Place := ⟨0x10080108, 0x10, 0, 31, 16⟩
def F.LDL_CORE_BUD : Place := ⟨0x10080004, 0, 0, 15, 0⟩
def F.LDL_CORE_HELD_CLIENTS : Place := ⟨0x10080008, 0, 0, 23, 16⟩
def F.LDL_CORE_HELD_HELD : Place := ⟨0x10080008, 0, 0, 15, 0⟩
def F.LDL_CORE_STAT_MAX_HELD : Place := ⟨0x1008000C, 0, 0, 15, 0⟩
def F.LDL_CORE_STAT_REFUSED : Place := ⟨0x1008000C, 0, 0, 31, 16⟩
def F.LDL_EFF_CORE_EFF : Place := ⟨0x10080014, 0, 0, 15, 0⟩
def F.LDL_REJ_CNT_COUNT : Place := ⟨0x10080038, 0, 0, 15, 0⟩
def F.LDL_SW_BIND_GO : Place := ⟨0x1008002C, 0, 0, 31, 31⟩
def F.LDL_SW_BIND_IQ_SLOT : Place := ⟨0x1008002C, 0, 0, 9, 0⟩
def F.LDL_SW_BIND_SLOT : Place := ⟨0x1008002C, 0, 0, 19, 16⟩
def F.LDL_SW_REL_GO : Place := ⟨0x10080028, 0, 0, 31, 31⟩
def F.LDL_SW_REL_SLOT : Place := ⟨0x10080028, 0, 0, 3, 0⟩
def F.LDL_SW_REQ_AMT : Place := ⟨0x10080020, 0, 0, 15, 0⟩
def F.LDL_SW_REQ_GO : Place := ⟨0x10080020, 0, 0, 31, 31⟩
def F.LDL_SW_REQ_RES : Place := ⟨0x10080020, 0, 0, 18, 16⟩
def F.LDL_SW_STAT_BOUND : Place := ⟨0x10080030, 0, 0, 31, 16⟩
def F.LDL_SW_STAT_HELD : Place := ⟨0x10080030, 0, 0, 15, 0⟩
def F.LDL_THROT_BAR_PCT : Place := ⟨0x10080010, 0, 0, 15, 8⟩
def F.LDL_THROT_CORE_PCT : Place := ⟨0x10080010, 0, 0, 7, 0⟩
def F.LDL_THROT_HOT : Place := ⟨0x10080010, 0, 0, 16, 16⟩
def F.LDL_WDRAW_CNT_COUNT : Place := ⟨0x10080034, 0, 0, 31, 0⟩
def F.MBXM_CTRL_FULL : Place := ⟨0x101C0140, 0x48, 0, 8, 8⟩
def F.MBX_MSG_DATA : Place := ⟨0x101C0100, 0x48, 0x4, 31, 0⟩
def F.MBX_REJ_CNT_COUNT : Place := ⟨0x101C0004, 0, 0, 15, 0⟩
def F.MBX_VEC_EN : Place := ⟨0x101C0008, 0, 0, 31, 31⟩
def F.MBX_VEC_VEC : Place := ⟨0x101C0008, 0, 0, 5, 0⟩
def F.MEM_ECC_ADDR_ADDR : Place := ⟨0x10060068, 0, 0, 19, 2⟩
def F.MEM_ECC_CE : Place := ⟨0x10060064, 0, 0, 15, 0⟩
def F.MEM_ECC_UE : Place := ⟨0x10060064, 0, 0, 31, 16⟩
def F.MEM_GROTTO_STAT_CAUSE : Place := ⟨0x10060070, 0, 0, 6, 4⟩
def F.MEM_GROTTO_STAT_WIPES : Place := ⟨0x10060070, 0, 0, 31, 16⟩
def F.MEM_GROTTO_STAT_WIPING : Place := ⟨0x10060070, 0, 0, 0, 0⟩
def F.MEM_GROTTO_WIPE_GO : Place := ⟨0x10060074, 0, 0, 0, 0⟩
def F.MEM_GROTTO_WIPE_KEY : Place := ⟨0x10060074, 0, 0, 31, 16⟩
def F.MEM_OWN_OWNER : Place := ⟨0x10060010, 0x4, 0, 2, 0⟩
def F.MEM_OWN_SHARE_RD : Place := ⟨0x10060010, 0x4, 0, 7, 7⟩
def F.MEM_REJ_CNT_COUNT : Place := ⟨0x1006007C, 0, 0, 15, 0⟩
def F.MEM_RET_MASK : Place := ⟨0x10060050, 0, 0, 15, 0⟩
def F.MEM_RET_STAT_LOST : Place := ⟨0x10060054, 0, 0, 31, 16⟩
def F.MEM_RET_STAT_READY : Place := ⟨0x10060054, 0, 0, 15, 0⟩
def F.MEM_RET_TAKEN_TAKEN : Place := ⟨0x10060058, 0, 0, 15, 0⟩
def F.MEM_STAT_CE : Place := ⟨0x10060004, 0, 0, 0, 0⟩
def F.MEM_STAT_OWN_VIOL : Place := ⟨0x10060004, 0, 0, 3, 3⟩
def F.MEM_STAT_UE : Place := ⟨0x10060004, 0, 0, 1, 1⟩
def F.MEM_STAT_WLOST : Place := ⟨0x10060004, 0, 0, 2, 2⟩
def F.MEM_STEAL_DMA_WAIT : Place := ⟨0x1006006C, 0, 0, 15, 0⟩
def F.MEM_STEAL_HOST_WAIT : Place := ⟨0x1006006C, 0, 0, 31, 16⟩
def F.MEM_WLOST_CNT_COUNT : Place := ⟨0x1006005C, 0, 0, 31, 0⟩
def F.MEM_WLOST_INFO_ADDR : Place := ⟨0x10060060, 0, 0, 19, 2⟩
def F.MEM_WLOST_INFO_LOSER : Place := ⟨0x10060060, 0, 0, 31, 29⟩
def F.MEM_XCFG_WAIT_WARN : Place := ⟨0x10060400, 0, 0, 15, 0⟩
def F.NZH_ARQ_BASE_HI_ADDR : Place := ⟨0x100E0024, 0, 0, 7, 0⟩
def F.NZH_ARQ_BASE_LO_ADDR : Place := ⟨0x100E0020, 0, 0, 31, 12⟩
def F.NZH_ARQ_RD_RD : Place := ⟨0x100E002C, 0, 0, 12, 0⟩
def F.NZH_ARQ_RSV_RELEASE : Place := ⟨0x100E0034, 0, 0, 16, 16⟩
def F.NZH_ARQ_RSV_RSV : Place := ⟨0x100E0034, 0, 0, 12, 0⟩
def F.NZH_ARQ_WR_WR : Place := ⟨0x100E0028, 0, 0, 12, 0⟩
def F.NZH_BAD_CNT_OPEN : Place := ⟨0x100E00B4, 0, 0, 15, 8⟩
def F.NZH_BAD_CNT_SHORT : Place := ⟨0x100E00B4, 0, 0, 7, 0⟩
def F.NZH_BAD_CNT_WEAK : Place := ⟨0x100E00B4, 0, 0, 31, 16⟩
def F.NZH_BC_TO_TO : Place := ⟨0x100E000C, 0, 0, 5, 0⟩
def F.NZH_CFG_AUTO : Place := ⟨0x100E0004, 0, 0, 0, 0⟩
def F.NZH_CFG_BC_LOSS : Place := ⟨0x100E0004, 0, 0, 23, 16⟩
def F.NZH_CFG_CONFIRM : Place := ⟨0x100E0004, 0, 0, 5, 4⟩
def F.NZH_CFG_METHOD : Place := ⟨0x100E0004, 0, 0, 2, 1⟩
def F.NZH_CFG_RECOVER : Place := ⟨0x100E0004, 0, 0, 11, 8⟩
def F.NZH_CTRL_EN : Place := ⟨0x100E0000, 0, 0, 1, 1⟩
def F.NZH_DEFER_OVF : Place := ⟨0x100E00BC, 0, 0, 31, 16⟩
def F.NZH_HOLD_HOLD : Place := ⟨0x100E0008, 0, 0, 10, 0⟩
def F.NZH_ISSUED_COUNT : Place := ⟨0x100E00C4, 0, 0, 31, 0⟩
def F.NZH_MISS_CNT_SIG_MISS : Place := ⟨0x100E00B8, 0, 0, 15, 0⟩
def F.NZH_MISS_CNT_SKIP : Place := ⟨0x100E00B8, 0, 0, 31, 16⟩
def F.NZH_NZ_SEL_AUTOINC : Place := ⟨0x100E00A0, 0, 0, 31, 31⟩
def F.NZH_NZ_SEL_NOZZLE : Place := ⟨0x100E00A0, 0, 0, 12, 0⟩
def F.NZH_NZ_SEL_PORT : Place := ⟨0x100E00A0, 0, 0, 15, 13⟩
def F.NZH_PV_TO_TO : Place := ⟨0x100E0010, 0, 0, 15, 0⟩
def F.NZH_REJECTED_COUNT : Place := ⟨0x100E00C8, 0, 0, 31, 0⟩
def F.NZH_REJ_CNT_COUNT : Place := ⟨0x100E00C0, 0, 0, 15, 0⟩
def F.NZH_REJ_GATE_GATE_OFS : Place := ⟨0x100E0044, 0x8, 0, 31, 0⟩
def F.NZH_REJ_LANE_EN : Place := ⟨0x100E0040, 0x8, 0, 31, 31⟩
def F.NZH_REJ_LANE_OUT : Place := ⟨0x100E0040, 0x8, 0, 26, 24⟩
def F.NZH_REJ_LANE_SPAN : Place := ⟨0x100E0040, 0x8, 0, 30, 30⟩
def F.NZH_REJ_MASK_MASK : Place := ⟨0x100E0014, 0, 0, 17, 0⟩
def F.NZH_SIG_CNT_COUNT : Place := ⟨0x100E00B0, 0, 0, 31, 0⟩
def F.NZH_STAT_AMEND : Place := ⟨0x100E0018, 0, 0, 3, 3⟩
def F.NZH_STAT_BLIND : Place := ⟨0x100E0018, 0, 0, 31, 24⟩
def F.NZH_STAT_DNT_REFUSED : Place := ⟨0x100E0018, 0, 0, 1, 1⟩
def F.NZH_STAT_REJ_FAIL : Place := ⟨0x100E0018, 0, 0, 2, 2⟩
def F.NZH_STAT_RUN : Place := ⟨0x100E0018, 0, 0, 0, 0⟩
def F.NZH_THR_I_OPEN : Place := ⟨0x100E0080, 0x4, 0, 7, 0⟩
def F.NZH_THR_I_SHORT : Place := ⟨0x100E0080, 0x4, 0, 15, 8⟩
def F.NZH_THR_T_WEAK : Place := ⟨0x100E0080, 0x4, 0, 23, 16⟩
def F.NZH_XCFG_DEFER_DIS : Place := ⟨0x100E0400, 0, 0, 15, 8⟩
def F.NZH_XCFG_DEFER_N : Place := ⟨0x100E0400, 0, 0, 19, 16⟩
def F.NZH_XCFG_SENSE_DIS : Place := ⟨0x100E0400, 0, 0, 7, 0⟩
def F.OTP_CMD_OP : Place := ⟨0x10020008, 0, 0, 31, 28⟩
def F.OTP_DIGEST_DIGEST : Place := ⟨0x10020020, 0x4, 0, 31, 0⟩
def F.OTP_FEAT_FUSED : Place := ⟨0x10020070, 0, 0, 13, 8⟩
def F.OTP_FEAT_IN_FORCE : Place := ⟨0x10020070, 0, 0, 5, 0⟩
def F.OTP_PGM_SRC : Place := ⟨0x10020080, 0, 0, 17, 16⟩
def F.OTP_REJ_CNT_COUNT : Place := ⟨0x10020084, 0, 0, 15, 0⟩
def F.OTP_RESULT_CODE : Place := ⟨0x10020018, 0, 0, 7, 0⟩
def F.OTP_RESULT_DONE : Place := ⟨0x10020018, 0, 0, 31, 31⟩
def F.OTP_RGN_DIGEST_OK : Place := ⟨0x10020040, 0x4, 0, 2, 2⟩
def F.OTP_RGN_LOCKED : Place := ⟨0x10020040, 0x4, 0, 1, 1⟩
def F.OTP_RGN_LOCK_WEAK : Place := ⟨0x10020040, 0x4, 0, 4, 4⟩
def F.OTP_RGN_MARG : Place := ⟨0x10020040, 0x4, 0, 31, 16⟩
def F.OTP_RGN_RESTRICT : Place := ⟨0x10020040, 0x4, 0, 3, 3⟩
def F.OTP_SPARE_USED : Place := ⟨0x1002007C, 0, 0, 15, 0⟩
def F.OTP_STAT_BUSY : Place := ⟨0x10020004, 0, 0, 0, 0⟩
def F.OTP_STAT_MARG_ROWS : Place := ⟨0x10020004, 0, 0, 31, 16⟩
def F.OTP_STAT_PUMP_ON : Place := ⟨0x10020004, 0, 0, 3, 3⟩
def F.OTP_STAT_SCAN_DONE : Place := ⟨0x10020004, 0, 0, 1, 1⟩
def F.OTP_STAT_VPP_OK : Place := ⟨0x10020004, 0, 0, 2, 2⟩
def F.OTP_UID_HI_UID_HI : Place := ⟨0x10020078, 0, 0, 31, 0⟩
def F.OTP_UID_LO_UID_LO : Place := ⟨0x10020074, 0, 0, 31, 0⟩
def F.OTP_WEAKMASK_MASK : Place := ⟨0x1002001C, 0, 0, 31, 0⟩
def F.PAD_HOLD_HELD : Place := ⟨0x101D0004, 0, 0, 12, 0⟩
def F.PAD_HOLD_REL_REL : Place := ⟨0x101D0008, 0, 0, 12, 0⟩
def F.PAD_REJ_CNT_COUNT : Place := ⟨0x101D000C, 0, 0, 15, 0⟩
def F.POS_CMP_CFG_EN : Place := ⟨0x10090100, 0x20, 0, 0, 0⟩
def F.POS_CMP_CFG_OWNER : Place := ⟨0x10090100, 0x20, 0, 5, 5⟩
def F.POS_CMP_CFG_POL : Place := ⟨0x10090100, 0x20, 0, 3, 3⟩
def F.POS_CMP_CFG_SRC : Place := ⟨0x10090100, 0x20, 0, 2, 1⟩
def F.POS_CMP_CFG_WIDTH : Place := ⟨0x10090100, 0x20, 0, 31, 16⟩
def F.POS_CMP_ENT_HI_ACTION : Place := ⟨0x10090108, 0x20, 0, 17, 16⟩
def F.POS_CMP_ENT_HI_POS_HI : Place := ⟨0x10090108, 0x20, 0, 15, 0⟩
def F.POS_CMP_FLUSH_FLUSH : Place := ⟨0x10090118, 0x20, 0, 0, 0⟩
def F.POS_CMP_STAT_FULL : Place := ⟨0x1009010C, 0x20, 0, 24, 24⟩
def F.POS_CMP_STAT_LATE_CNT : Place := ⟨0x1009010C, 0x20, 0, 23, 16⟩
def F.POS_CMP_STAT_LEVEL : Place := ⟨0x1009010C, 0x20, 0, 6, 0⟩
def F.POS_CMP_STAT_MISSED_CNT : Place := ⟨0x1009010C, 0x20, 0, 15, 8⟩
def F.POS_CMP_STAT_OUT : Place := ⟨0x1009010C, 0x20, 0, 7, 7⟩
def F.POS_CMP_STAT_OVERLAP : Place := ⟨0x1009010C, 0x20, 0, 25, 25⟩
def F.POS_ENCO_CFG_EN : Place := ⟨0x100900C0, 0, 0, 0, 0⟩
def F.POS_ENCO_CFG_MIN_GAP : Place := ⟨0x100900C0, 0, 0, 15, 8⟩
def F.POS_ENCO_CFG_SRC : Place := ⟨0x100900C0, 0, 0, 2, 1⟩
def F.POS_ENCO_CFG_Z_MODE : Place := ⟨0x100900C0, 0, 0, 4, 3⟩
def F.POS_ENCO_RATIO_M : Place := ⟨0x100900C4, 0, 0, 15, 0⟩
def F.POS_ENCO_RATIO_N : Place := ⟨0x100900C4, 0, 0, 31, 16⟩
def F.POS_ENCO_STAT_ACC : Place := ⟨0x100900CC, 0, 0, 15, 0⟩
def F.POS_ENCO_STAT_BACKLOG : Place := ⟨0x100900CC, 0, 0, 27, 16⟩
def F.POS_ENCO_STAT_OVF : Place := ⟨0x100900CC, 0, 0, 31, 31⟩
def F.POS_ENCO_ZCPR_ZCPR : Place := ⟨0x100900C8, 0, 0, 23, 0⟩
def F.POS_ENC_CFG_DIR_INV : Place := ⟨0x10090010, 0x30, 0, 1, 1⟩
def F.POS_ENC_CFG_EN : Place := ⟨0x10090010, 0x30, 0, 0, 0⟩
def F.POS_ENC_CFG_INDEX_TOL : Place := ⟨0x10090010, 0x30, 0, 23, 16⟩
def F.POS_ENC_CFG_SIEVE_N : Place := ⟨0x10090010, 0x30, 0, 15, 8⟩
def F.POS_ENC_CFG_Z_POL : Place := ⟨0x10090010, 0x30, 0, 3, 3⟩
def F.POS_ENC_CPR_CPR : Place := ⟨0x10090014, 0x30, 0, 23, 0⟩
def F.POS_ENC_IDX_IDX_DELTA : Place := ⟨0x1009002C, 0x30, 0, 15, 0⟩
def F.POS_ENC_IDX_SLIP_CNT : Place := ⟨0x1009002C, 0x30, 0, 31, 16⟩
def F.POS_ENC_POS_HI_POS_HI : Place := ⟨0x1009001C, 0x30, 0, 31, 0⟩
def F.POS_ENC_STAT_DIR : Place := ⟨0x10090028, 0x30, 0, 8, 8⟩
def F.POS_ENC_STAT_ENC_FAULT : Place := ⟨0x10090028, 0x30, 0, 16, 16⟩
def F.POS_ENC_STAT_FC_HALL : Place := ⟨0x10090028, 0x30, 0, 22, 22⟩
def F.POS_ENC_STAT_FC_INDEX : Place := ⟨0x10090028, 0x30, 0, 20, 20⟩
def F.POS_ENC_STAT_FC_WIRE : Place := ⟨0x10090028, 0x30, 0, 21, 21⟩
def F.POS_ENC_STAT_HELD : Place := ⟨0x10090028, 0x30, 0, 9, 9⟩
def F.POS_ENC_STAT_MISMATCH : Place := ⟨0x10090028, 0x30, 0, 13, 12⟩
def F.POS_ENC_STAT_QUAD_ERR : Place := ⟨0x10090028, 0x30, 0, 17, 17⟩
def F.POS_ENC_STAT_REF : Place := ⟨0x10090028, 0x30, 0, 10, 10⟩
def F.POS_ENC_STAT_WIRE : Place := ⟨0x10090028, 0x30, 0, 2, 0⟩
def F.POS_ENC_STAT_WIRE_ACT : Place := ⟨0x10090028, 0x30, 0, 6, 4⟩
def F.POS_ENC_THR_THR0 : Place := ⟨0x10090408, 0, 0, 5, 0⟩
def F.POS_ENC_THR_THR1 : Place := ⟨0x10090408, 0, 0, 13, 8⟩
def F.POS_HALL_CFG_DIR_INV : Place := ⟨0x10090070, 0, 0, 2, 2⟩
def F.POS_HALL_CFG_EN : Place := ⟨0x10090070, 0, 0, 0, 0⟩
def F.POS_HALL_CFG_ENC_SEL : Place := ⟨0x10090070, 0, 0, 1, 1⟩
def F.POS_HALL_CFG_SIEVE_N : Place := ⟨0x10090070, 0, 0, 15, 8⟩
def F.POS_HALL_CPE_CPE : Place := ⟨0x10090074, 0, 0, 31, 0⟩
def F.POS_HALL_MINRATE_MINRATE : Place := ⟨0x10090078, 0, 0, 23, 0⟩
def F.POS_HALL_STAT_DISAGREE : Place := ⟨0x1009007C, 0, 0, 5, 5⟩
def F.POS_HALL_STAT_EDGES : Place := ⟨0x1009007C, 0, 0, 15, 8⟩
def F.POS_HALL_STAT_INVALID : Place := ⟨0x1009007C, 0, 0, 4, 4⟩
def F.POS_HALL_STAT_LAST_ERR : Place := ⟨0x1009007C, 0, 0, 31, 16⟩
def F.POS_HALL_STAT_STATE : Place := ⟨0x1009007C, 0, 0, 2, 0⟩
def F.POS_HALL_TOL_TOL : Place := ⟨0x1009040C, 0, 0, 9, 0⟩
def F.POS_MARK_CFG_EDGE : Place := ⟨0x10090080, 0x20, 0, 2, 1⟩
def F.POS_MARK_CFG_EN : Place := ⟨0x10090080, 0x20, 0, 0, 0⟩
def F.POS_MARK_CFG_ENC_SEL : Place := ⟨0x10090080, 0x20, 0, 4, 4⟩
def F.POS_MARK_CFG_SIEVE_N : Place := ⟨0x10090080, 0x20, 0, 15, 8⟩
def F.POS_MARK_CFG_WIN_EN : Place := ⟨0x10090080, 0x20, 0, 5, 5⟩
def F.POS_MARK_PITCH_PITCH : Place := ⟨0x10090084, 0x20, 0, 23, 0⟩
def F.POS_MARK_STAT_LEVEL : Place := ⟨0x1009009C, 0x20, 0, 4, 0⟩
def F.POS_MARK_STAT_MISS_CNT : Place := ⟨0x1009009C, 0x20, 0, 23, 16⟩
def F.POS_MARK_STAT_OUT_CNT : Place := ⟨0x1009009C, 0x20, 0, 31, 24⟩
def F.POS_MARK_STAT_OVF_CNT : Place := ⟨0x1009009C, 0x20, 0, 15, 8⟩
def F.POS_MARK_TOL_TOL : Place := ⟨0x10090088, 0x20, 0, 23, 0⟩
def F.POS_REJ_CNT_COUNT : Place := ⟨0x10090410, 0, 0, 15, 0⟩
def F.POS_RXDLY_ENC_DLY : Place := ⟨0x10090404, 0, 0, 7, 0⟩
def F.POS_RXDLY_SE_DLY : Place := ⟨0x10090404, 0, 0, 15, 8⟩
def F.POS_XCFG_FIRE_LATE : Place := ⟨0x10090400, 0, 0, 7, 0⟩
def F.POS_XCFG_HYST_DIS : Place := ⟨0x10090400, 0, 0, 9, 8⟩
def F.PWR_AON_CAUSE_ISL : Place := ⟨0x10010030, 0, 0, 11, 8⟩
def F.PWR_CNT_ENTRIES : Place := ⟨0x10010040, 0, 0, 31, 16⟩
def F.PWR_CNT_UNWINDS : Place := ⟨0x10010040, 0, 0, 15, 0⟩
def F.PWR_CTRL_AUTO_IDLE : Place := ⟨0x10010000, 0, 0, 1, 1⟩
def F.PWR_CTRL_AUTO_SLEEP : Place := ⟨0x10010000, 0, 0, 2, 2⟩
def F.PWR_IDLE_IDLE_MS : Place := ⟨0x1001002C, 0, 0, 15, 0⟩
def F.PWR_IDLE_SLEEP_S : Place := ⟨0x1001002C, 0, 0, 31, 16⟩
def F.PWR_ISL_SEL_ISL : Place := ⟨0x10010034, 0, 0, 3, 0⟩
def F.PWR_LAST_REASON : Place := ⟨0x10010014, 0, 0, 31, 24⟩
def F.PWR_LAST_RESULT : Place := ⟨0x10010014, 0, 0, 10, 8⟩
def F.PWR_LAST_TARGET : Place := ⟨0x10010014, 0, 0, 1, 0⟩
def F.PWR_LAST_VOTER : Place := ⟨0x10010014, 0, 0, 20, 16⟩
def F.PWR_PREP_TO : Place := ⟨0x10010010, 0, 0, 15, 0⟩
def F.PWR_REJ_CNT_COUNT : Place := ⟨0x10010044, 0, 0, 15, 0⟩
def F.PWR_REQ_CANCEL : Place := ⟨0x10010008, 0, 0, 2, 2⟩
def F.PWR_REQ_TARGET : Place := ⟨0x10010008, 0, 0, 1, 0⟩
def F.PWR_STAT_PHASE : Place := ⟨0x10010004, 0, 0, 9, 8⟩
def F.PWR_STAT_STATE : Place := ⟨0x10010004, 0, 0, 1, 0⟩
def F.PWR_STAT_TARGET : Place := ⟨0x10010004, 0, 0, 3, 2⟩
def F.PWR_STAT_VOTER : Place := ⟨0x10010004, 0, 0, 14, 10⟩
def F.PWR_VIN_MV : Place := ⟨0x1001003C, 0, 0, 11, 0⟩
def F.PWR_WAKE_CAUSE_FROM : Place := ⟨0x10010020, 0, 0, 11, 10⟩
def F.PWR_WAKE_CAUSE_REPLAY : Place := ⟨0x10010020, 0, 0, 8, 8⟩
def F.PWR_WAKE_CAUSE_SRC : Place := ⟨0x10010020, 0, 0, 7, 0⟩
def F.PWR_WAKE_CAUSE_TIME : Place := ⟨0x10010020, 0, 0, 31, 16⟩
def F.PWR_WAKE_EN_EN : Place := ⟨0x10010018, 0, 0, 7, 0⟩
def F.PWR_WAKE_LATCH_LATCH : Place := ⟨0x1001001C, 0, 0, 7, 0⟩
def F.PWR_WAKE_SW_WAKE : Place := ⟨0x10010028, 0, 0, 0, 0⟩
def F.PWR_WAKE_TMR_TICKS : Place := ⟨0x10010024, 0, 0, 31, 0⟩
def F.SEC_BOOT_ALARMS : Place := ⟨0x101B000C, 0, 0, 31, 24⟩
def F.SEC_BOOT_DDR_NONE : Place := ⟨0x101B000C, 0, 0, 16, 16⟩
def F.SEC_BOOT_IMG_FALLBACK : Place := ⟨0x101B000C, 0, 0, 6, 6⟩
def F.SEC_BOOT_IMG_NONE : Place := ⟨0x101B000C, 0, 0, 7, 7⟩
def F.SEC_BOOT_IMG_SLOT : Place := ⟨0x101B000C, 0, 0, 5, 5⟩
def F.SEC_BOOT_LAST_REASON : Place := ⟨0x101B000C, 0, 0, 15, 8⟩
def F.SEC_BOOT_SF_FALLBACK : Place := ⟨0x101B000C, 0, 0, 3, 3⟩
def F.SEC_BOOT_SF_NONE : Place := ⟨0x101B000C, 0, 0, 4, 4⟩
def F.SEC_BOOT_SF_SLOT : Place := ⟨0x101B000C, 0, 0, 2, 2⟩
def F.SEC_BOOT_TF_FALLBACK : Place := ⟨0x101B000C, 0, 0, 1, 1⟩
def F.SEC_BOOT_TF_SLOT : Place := ⟨0x101B000C, 0, 0, 0, 0⟩
def F.SEC_CTRL_LOCK : Place := ⟨0x101B0000, 0, 0, 1, 1⟩
def F.SEC_DENY_CNT_COUNT : Place := ⟨0x101B0038, 0, 0, 31, 0⟩
def F.SEC_DENY_LO_ADDR : Place := ⟨0x101B0030, 0, 0, 31, 0⟩
def F.SEC_FW_SF_VER : Place := ⟨0x101B0018, 0, 0, 31, 16⟩
def F.SEC_FW_TF_VER : Place := ⟨0x101B0018, 0, 0, 15, 0⟩
def F.SEC_KEYS_PRESENT : Place := ⟨0x101B0010, 0, 0, 7, 0⟩
def F.SEC_KEYS_REVOKED : Place := ⟨0x101B0010, 0, 0, 15, 8⟩
def F.SEC_LC_FUSED : Place := ⟨0x101B0008, 0, 0, 10, 8⟩
def F.SEC_LC_INVALID : Place := ⟨0x101B0008, 0, 0, 15, 15⟩
def F.SEC_LC_IN_FORCE : Place := ⟨0x101B0008, 0, 0, 2, 0⟩
def F.SEC_PHASE_PHASE : Place := ⟨0x101B0004, 0, 0, 1, 0⟩
def F.SEC_REJ_CNT_COUNT : Place := ⟨0x101B0048, 0, 0, 15, 0⟩
def F.SEC_ROLL_IMG_CNT : Place := ⟨0x101B0014, 0, 0, 23, 16⟩
def F.SEC_ROLL_SF_CNT : Place := ⟨0x101B0014, 0, 0, 15, 8⟩
def F.SEC_ROLL_TF_CNT : Place := ⟨0x101B0014, 0, 0, 7, 0⟩
def F.SEC_TMP_ACT_ACT : Place := ⟨0x101B0020, 0, 0, 19, 0⟩
def F.SEC_TMP_CNT_COUNT : Place := ⟨0x101B0028, 0, 0, 31, 0⟩
def F.SEC_TMP_STAT_ALARM : Place := ⟨0x101B0024, 0, 0, 4, 0⟩
def F.SEC_WDOG_CFG_EN : Place := ⟨0x101B0040, 0, 0, 16, 16⟩
def F.SEC_WDOG_CFG_PERIOD : Place := ⟨0x101B0040, 0, 0, 15, 0⟩
def F.SEC_WDOG_KICK_KEY : Place := ⟨0x101B0044, 0, 0, 15, 0⟩
def F.STR_ACT_PRESS_HI_ID_HI : Place := ⟨0x100F0050, 0, 0, 31, 0⟩
def F.STR_ACT_PRESS_LO_ID_LO : Place := ⟨0x100F004C, 0, 0, 31, 0⟩
def F.STR_ACT_SEQ_SEQ : Place := ⟨0x100F0044, 0, 0, 31, 0⟩
def F.STR_APPLIED_HI_LINE_HI : Place := ⟨0x100F0034, 0, 0, 15, 0⟩
def F.STR_APPLIED_LO_LINE_LO : Place := ⟨0x100F0030, 0, 0, 31, 0⟩
def F.STR_APPROVE_OP : Place := ⟨0x100F002C, 0, 0, 1, 0⟩
def F.STR_CMPLINE_HI_LINE_HI : Place := ⟨0x100F0040, 0, 0, 15, 0⟩
def F.STR_CMPLINE_LO_LINE_LO : Place := ⟨0x100F003C, 0, 0, 31, 0⟩
def F.STR_COLD_PORTS : Place := ⟨0x100F0038, 0, 0, 7, 0⟩
def F.STR_CTRL_LOCK : Place := ⟨0x100F0000, 0, 0, 1, 1⟩
def F.STR_LOAD_GO_GO : Place := ⟨0x100F001C, 0, 0, 0, 0⟩
def F.STR_LOAD_HI_ADDR : Place := ⟨0x100F0014, 0, 0, 7, 0⟩
def F.STR_LOAD_LEN_LEN : Place := ⟨0x100F0018, 0, 0, 18, 0⟩
def F.STR_LOAD_LO_ADDR : Place := ⟨0x100F0010, 0, 0, 31, 2⟩
def F.STR_MINSEQ_MINSEQ : Place := ⟨0x100F0054, 0, 0, 31, 0⟩
def F.STR_PEND_SEQ_SEQ : Place := ⟨0x100F0048, 0, 0, 31, 0⟩
def F.STR_REJ_CNT_COUNT : Place := ⟨0x100F0060, 0, 0, 15, 0⟩
def F.STR_RESULT_DONE : Place := ⟨0x100F0020, 0, 0, 31, 31⟩
def F.STR_RESULT_REASON : Place := ⟨0x100F0020, 0, 0, 7, 0⟩
def F.STR_RESULT_SECTION : Place := ⟨0x100F0020, 0, 0, 15, 8⟩
def F.STR_SLOT_BASE_HI_ADDR : Place := ⟨0x100F005C, 0, 0, 7, 0⟩
def F.STR_SLOT_BASE_LO_ADDR : Place := ⟨0x100F0058, 0, 0, 31, 12⟩
def F.STR_STAT_ACTIVE_SLOT : Place := ⟨0x100F0004, 0, 0, 3, 3⟩
def F.STR_STAT_ACTIVE_VALID : Place := ⟨0x100F0004, 0, 0, 1, 1⟩
def F.STR_STAT_CHECKING : Place := ⟨0x100F0004, 0, 0, 4, 4⟩
def F.STR_STAT_PEND_VALID : Place := ⟨0x100F0004, 0, 0, 2, 2⟩
def F.STR_STAT_SW_STATE : Place := ⟨0x100F0004, 0, 0, 7, 5⟩
def F.STR_SW_LINE_HI_LINE_HI : Place := ⟨0x100F0028, 0, 0, 15, 0⟩
def F.STR_SW_LINE_LO_LINE_LO : Place := ⟨0x100F0024, 0, 0, 31, 0⟩
def F.STR_XCFG_GUARD : Place := ⟨0x100F0400, 0, 0, 7, 0⟩
def F.STR_XCFG_LEAD : Place := ⟨0x100F0400, 0, 0, 31, 16⟩
def F.SYS_CLK_STAT_OSC32_OK : Place := ⟨0x10000040, 0, 0, 2, 2⟩
def F.SYS_CTRL_OVR_OVERRUN : Place := ⟨0x10000030, 0, 0, 15, 0⟩
def F.SYS_ID_CL : Place := ⟨0x10000000, 0, 0, 7, 0⟩
def F.SYS_ID_VARIANT : Place := ⟨0x10000000, 0, 0, 14, 12⟩
def F.SYS_ISL_STAT_ISL_UP : Place := ⟨0x10000010, 0, 0, 15, 0⟩
def F.SYS_ISL_STAT_TIME_VALID : Place := ⟨0x10000010, 0, 0, 31, 16⟩
def F.SYS_SUMP_DROP_COUNT : Place := ⟨0x10000034, 0, 0, 31, 0⟩
def F.SYS_TMK_PERIOD_PERIOD : Place := ⟨0x10000400, 0, 0, 15, 0⟩
def F.SYS_TMK_TOL_TOL_OTHER : Place := ⟨0x10000404, 0, 0, 15, 8⟩
def F.SYS_TMK_TOL_TOL_PORT : Place := ⟨0x10000404, 0, 0, 7, 0⟩
def F.THM_BASE_T : Place := ⟨0x10070044, 0, 0, 15, 0⟩
def F.THM_HOTTEST_SRC : Place := ⟨0x10070048, 0, 0, 19, 16⟩
def F.THM_HOTTEST_T : Place := ⟨0x10070048, 0, 0, 15, 0⟩
def F.THM_LIM_HOT_C : Place := ⟨0x1007004C, 0, 0, 15, 8⟩
def F.THM_LIM_HYST : Place := ⟨0x1007004C, 0, 0, 7, 0⟩
def F.THM_MAX_SRC : Place := ⟨0x10070050, 0, 0, 19, 16⟩
def F.THM_MAX_T : Place := ⟨0x10070050, 0, 0, 15, 0⟩
def F.THM_OFS_OFS : Place := ⟨0x10070404, 0x4, 0, 7, 0⟩
def F.THM_REJ_CNT_COUNT : Place := ⟨0x10070058, 0, 0, 15, 0⟩
def F.THM_SENS_DIS : Place := ⟨0x10070010, 0x4, 0, 23, 16⟩
def F.THM_SENS_RANGE : Place := ⟨0x10070010, 0x4, 0, 30, 30⟩
def F.THM_SENS_T : Place := ⟨0x10070010, 0x4, 0, 15, 0⟩
def F.THM_SENS_VALID : Place := ⟨0x10070010, 0x4, 0, 31, 31⟩
def F.THM_STAT_BUILTIN : Place := ⟨0x10070004, 0, 0, 11, 11⟩
def F.THM_STAT_EXCL : Place := ⟨0x10070004, 0, 0, 7, 4⟩
def F.THM_STAT_HOT : Place := ⟨0x10070004, 0, 0, 9, 9⟩
def F.THM_STAT_LAST_SENSOR : Place := ⟨0x10070004, 0, 0, 10, 10⟩
def F.THM_STAT_TRIP_SEEN : Place := ⟨0x10070004, 0, 0, 12, 12⟩
def F.THM_STAT_VALID : Place := ⟨0x10070004, 0, 0, 3, 0⟩
def F.THM_TRIP_COUNT : Place := ⟨0x10070054, 0, 0, 31, 24⟩
def F.THM_TRIP_SRC : Place := ⟨0x10070054, 0, 0, 19, 16⟩
def F.THM_TRIP_T : Place := ⟨0x10070054, 0, 0, 15, 0⟩
def F.THM_XCHK_EXCL_N : Place := ⟨0x10070400, 0, 0, 7, 0⟩
def F.THM_XCHK_TOL : Place := ⟨0x10070400, 0, 0, 15, 8⟩
def F.THM_ZONE_RISE : Place := ⟨0x10070020, 0x4, 0, 31, 16⟩
def F.THM_ZONE_T : Place := ⟨0x10070020, 0x4, 0, 15, 0⟩
def F.TKO_CFG_AUTO_SOLO : Place := ⟨0x101F0048, 0, 0, 1, 1⟩
def F.TKO_CFG_CONFIRM : Place := ⟨0x101F0048, 0, 0, 0, 0⟩
def F.TKO_CNT_RETURNS : Place := ⟨0x101F0068, 0, 0, 31, 16⟩
def F.TKO_CNT_TAKEOVERS : Place := ⟨0x101F0068, 0, 0, 15, 0⟩
def F.TKO_CTRL_EN : Place := ⟨0x101F0000, 0, 0, 1, 1⟩
def F.TKO_CTRL_JOIN : Place := ⟨0x101F0000, 0, 0, 2, 2⟩
def F.TKO_CTRL_XPERT_EN : Place := ⟨0x101F0000, 0, 0, 0, 0⟩
def F.TKO_DECIDE_ACT : Place := ⟨0x101F004C, 0, 0, 1, 0⟩
def F.TKO_HB_CFG_MISS : Place := ⟨0x101F0034, 0, 0, 19, 16⟩
def F.TKO_HB_CFG_PER : Place := ⟨0x101F0034, 0, 0, 9, 0⟩
def F.TKO_HB_STAT_LAST_SEQ : Place := ⟨0x101F0038, 0, 0, 15, 0⟩
def F.TKO_HB_STAT_MISSED : Place := ⟨0x101F0038, 0, 0, 31, 16⟩
def F.TKO_HB_TS_HI_TS_HI : Place := ⟨0x101F0040, 0, 0, 31, 0⟩
def F.TKO_HB_TS_LO_TS_LO : Place := ⟨0x101F003C, 0, 0, 31, 0⟩
def F.TKO_KEY_KEY : Place := ⟨0x101F0030, 0, 0, 31, 0⟩
def F.TKO_LEAD_REFILL : Place := ⟨0x101F0044, 0, 0, 9, 0⟩
def F.TKO_LEAD_RET_LEAD : Place := ⟨0x101F0044, 0, 0, 25, 16⟩
def F.TKO_PAIR_EN : Place := ⟨0x101F0010, 0x4, 0, 31, 31⟩
def F.TKO_PAIR_PPORT : Place := ⟨0x101F0010, 0x4, 0, 2, 0⟩
def F.TKO_PARTNER_EN : Place := ⟨0x101F000C, 0, 0, 31, 31⟩
def F.TKO_PARTNER_NODE : Place := ⟨0x101F000C, 0, 0, 9, 0⟩
def F.TKO_PORTS_HALF : Place := ⟨0x101F0008, 0, 0, 31, 24⟩
def F.TKO_PORTS_LOST : Place := ⟨0x101F0008, 0, 0, 15, 8⟩
def F.TKO_PORTS_PAIR_EN : Place := ⟨0x101F0008, 0, 0, 7, 0⟩
def F.TKO_PORTS_SOLO : Place := ⟨0x101F0008, 0, 0, 23, 16⟩
def F.TKO_REJ_CNT_COUNT : Place := ⟨0x101F006C, 0, 0, 15, 0⟩
def F.TKO_RET_HI_LINE_HI : Place := ⟨0x101F005C, 0, 0, 15, 0⟩
def F.TKO_RET_HI_PORTS : Place := ⟨0x101F005C, 0, 0, 31, 24⟩
def F.TKO_RET_LO_LINE_LO : Place := ⟨0x101F0058, 0, 0, 31, 0⟩
def F.TKO_STAT_ISOLATED : Place := ⟨0x101F0004, 0, 0, 8, 8⟩
def F.TKO_STAT_STATE : Place := ⟨0x101F0004, 0, 0, 2, 0⟩
def F.TKO_STBYMAP_MAP : Place := ⟨0x101F0064, 0, 0, 31, 0⟩
def F.TKO_STBY_AUTO : Place := ⟨0x101F0060, 0, 0, 0, 0⟩
def F.TKO_STBY_ON_HALF : Place := ⟨0x101F0060, 0, 0, 1, 1⟩
def F.TKO_STBY_STBY_LEAD : Place := ⟨0x101F0060, 0, 0, 25, 16⟩
def F.TKO_SW_HI_LINE_HI : Place := ⟨0x101F0054, 0, 0, 15, 0⟩
def F.TKO_SW_HI_PORTS : Place := ⟨0x101F0054, 0, 0, 31, 24⟩
def F.TKO_SW_LO_LINE_LO : Place := ⟨0x101F0050, 0, 0, 31, 0⟩
def F.TKO_XCFG_NO_FENCE : Place := ⟨0x101F0400, 0, 0, 2, 2⟩
def F.TKO_XCFG_NO_TAKEOVER : Place := ⟨0x101F0400, 0, 0, 0, 0⟩
def F.TKO_XCFG_SINGLE_DIR : Place := ⟨0x101F0400, 0, 0, 1, 1⟩
def F.TRK_AMAX_AMAX : Place := ⟨0x100A0408, 0, 0, 31, 0⟩
def F.TRK_BCAST_EN : Place := ⟨0x100A0038, 0, 0, 0, 0⟩
def F.TRK_CLAMP_CNT_COUNT : Place := ⟨0x100A00CC, 0, 0, 31, 0⟩
def F.TRK_COAST_CNT_COUNT : Place := ⟨0x100A00D0, 0, 0, 31, 0⟩
def F.TRK_COAST_MAX_COAST_MAX : Place := ⟨0x100A0414, 0, 0, 15, 0⟩
def F.TRK_CTRL_EN : Place := ⟨0x100A0000, 0, 0, 1, 1⟩
def F.TRK_CTRL_SPRINT : Place := ⟨0x100A0000, 0, 0, 2, 2⟩
def F.TRK_DROP_CNT_COUNT : Place := ⟨0x100A00C8, 0, 0, 31, 0⟩
def F.TRK_FAB_LOFS_HI_LOFS_HI : Place := ⟨0x100A0020, 0, 0, 31, 0⟩
def F.TRK_FAB_LOFS_LO_LOFS_LO : Place := ⟨0x100A001C, 0, 0, 31, 0⟩
def F.TRK_FAB_NODE_FB_NODE : Place := ⟨0x100A0028, 0, 0, 25, 16⟩
def F.TRK_FAB_NODE_PRI_NODE : Place := ⟨0x100A0028, 0, 0, 9, 0⟩
def F.TRK_FAB_TIME_AGE : Place := ⟨0x100A0410, 0, 0, 15, 0⟩
def F.TRK_FAB_TIME_TO : Place := ⟨0x100A0410, 0, 0, 31, 16⟩
def F.TRK_FLT_FLT : Place := ⟨0x100A0040, 0x4, 0, 17, 0⟩
def F.TRK_ICOFS_OFS : Place := ⟨0x100A0060, 0x4, 0, 20, 0⟩
def F.TRK_LEAD_LEAD : Place := ⟨0x100A002C, 0, 0, 2, 0⟩
def F.TRK_LOOP_BW_SEL : Place := ⟨0x100A0034, 0, 0, 1, 0⟩
def F.TRK_PLACE_ERR_CNT : Place := ⟨0x100A041C, 0, 0, 31, 16⟩
def F.TRK_PLACE_ERR_LAST : Place := ⟨0x100A041C, 0, 0, 15, 0⟩
def F.TRK_PLACE_TOL_TOL : Place := ⟨0x100A0418, 0, 0, 7, 0⟩
def F.TRK_RATIO0_HI_INT : Place := ⟨0x100A0008, 0, 0, 31, 0⟩
def F.TRK_RATIO0_LO_FRAC : Place := ⟨0x100A0004, 0, 0, 31, 0⟩
def F.TRK_RATIO1_HI_INT : Place := ⟨0x100A0010, 0, 0, 31, 0⟩
def F.TRK_RATIO1_LO_FRAC : Place := ⟨0x100A000C, 0, 0, 31, 0⟩
def F.TRK_REJ_CNT_COUNT : Place := ⟨0x100A00F0, 0, 0, 15, 0⟩
def F.TRK_RESMAX_RESMAX : Place := ⟨0x100A040C, 0, 0, 15, 0⟩
def F.TRK_ROWOFS_OFS : Place := ⟨0x100A0100, 0x20, 0x4, 20, 0⟩
def F.TRK_SHSTAT_OFS_RANGE : Place := ⟨0x100A00A0, 0, 0, 23, 16⟩
def F.TRK_SHSTAT_PENDING : Place := ⟨0x100A00A0, 0, 0, 1, 1⟩
def F.TRK_SHSTAT_SHADOW_TAKEN : Place := ⟨0x100A00A0, 0, 0, 0, 0⟩
def F.TRK_SPREQ_HOLD : Place := ⟨0x100A00E0, 0, 0, 31, 16⟩
def F.TRK_SPREQ_POL : Place := ⟨0x100A00E0, 0, 0, 1, 1⟩
def F.TRK_SPREQ_STAT_CAUSE : Place := ⟨0x100A00E4, 0, 0, 12, 8⟩
def F.TRK_SPREQ_STAT_OUT : Place := ⟨0x100A00E4, 0, 0, 0, 0⟩
def F.TRK_SPREQ_SW : Place := ⟨0x100A00E0, 0, 0, 0, 0⟩
def F.TRK_SRC_FB : Place := ⟨0x100A0024, 0, 0, 3, 2⟩
def F.TRK_SRC_PRI : Place := ⟨0x100A0024, 0, 0, 1, 0⟩
def F.TRK_SRC_SWITCH : Place := ⟨0x100A0024, 0, 0, 4, 4⟩
def F.TRK_START_HI_START_HI : Place := ⟨0x100A0018, 0, 0, 31, 0⟩
def F.TRK_START_LO_START_LO : Place := ⟨0x100A0014, 0, 0, 31, 0⟩
def F.TRK_STAT_ACTIVE : Place := ⟨0x100A00B0, 0, 0, 9, 8⟩
def F.TRK_STAT_CLAMP : Place := ⟨0x100A00B0, 0, 0, 4, 4⟩
def F.TRK_STAT_COAST : Place := ⟨0x100A00B0, 0, 0, 5, 5⟩
def F.TRK_STAT_JUMP : Place := ⟨0x100A00B0, 0, 0, 2, 2⟩
def F.TRK_STAT_LOOP_SAT : Place := ⟨0x100A00B0, 0, 0, 1, 1⟩
def F.TRK_STAT_NO_SOURCE : Place := ⟨0x100A00B0, 0, 0, 6, 6⟩
def F.TRK_STAT_OVERSPEED : Place := ⟨0x100A00B0, 0, 0, 0, 0⟩
def F.TRK_STAT_RUN : Place := ⟨0x100A00B0, 0, 0, 3, 3⟩
def F.TRK_STAT_UNDERSPEED : Place := ⟨0x100A00B0, 0, 0, 7, 7⟩
def F.TRK_TILEOFS_OFS : Place := ⟨0x100A0080, 0x4, 0, 20, 0⟩
def F.TRK_VMIN_VMIN : Place := ⟨0x100A0030, 0, 0, 23, 0⟩
def F.TRK_WARN_WARN : Place := ⟨0x100A00E8, 0, 0, 9, 0⟩
def F.TRK_XLOOP_W_OMEGA : Place := ⟨0x100A0400, 0, 0, 23, 0⟩
def F.TRK_XLOOP_W_OVR : Place := ⟨0x100A0400, 0, 0, 31, 31⟩
def F.TRK_XLOOP_Z_ZETA : Place := ⟨0x100A0404, 0, 0, 15, 0⟩
def R.CAL_CMD : Place := ⟨0x101A0004, 0, 0, 31, 0⟩
def R.CAL_VDATA : Place := ⟨0x101A0054, 0, 0, 31, 0⟩
def R.CAL_VSEL : Place := ⟨0x101A0050, 0, 0, 31, 0⟩
def R.CAL_VSTAT : Place := ⟨0x101A0058, 0, 0, 31, 0⟩
def R.CMP_ASM_HI : Place := ⟨0x100B006C, 0, 0, 31, 0⟩
def R.CMP_ASM_LO : Place := ⟨0x100B0068, 0, 0, 31, 0⟩
def R.CMP_CTRL : Place := ⟨0x100B0000, 0, 0, 31, 0⟩
def R.CMP_FRONT_HI : Place := ⟨0x100B0064, 0, 0, 31, 0⟩
def R.CMP_FRONT_LO : Place := ⟨0x100B0060, 0, 0, 31, 0⟩
def R.CMP_GLYPH_BASE_HI : Place := ⟨0x100B0034, 0, 0, 31, 0⟩
def R.CMP_GLYPH_BASE_LO : Place := ⟨0x100B0030, 0, 0, 31, 0⟩
def R.CMP_GSET_BASE_HI : Place := ⟨0x100B003C, 0, 0, 31, 0⟩
def R.CMP_GSET_BASE_LO : Place := ⟨0x100B0038, 0, 0, 31, 0⟩
def R.CMP_IQ_BASE_HI : Place := ⟨0x100B0024, 0, 0, 31, 0⟩
def R.CMP_IQ_BASE_LO : Place := ⟨0x100B0020, 0, 0, 31, 0⟩
def R.CMP_IQ_WR : Place := ⟨0x100B0040, 0, 0, 31, 0⟩
def R.CMP_LANE_GEO : Place := ⟨0x100B0100, 0x10, 0, 31, 0⟩
def R.CMP_LANE_SHARE : Place := ⟨0x100B010C, 0x10, 0, 31, 0⟩
def R.CMP_RING_BASE_HI : Place := ⟨0x100B0014, 0, 0, 31, 0⟩
def R.CMP_RING_BASE_LO : Place := ⟨0x100B0010, 0, 0, 31, 0⟩
def R.CMP_RING_CFG : Place := ⟨0x100B0018, 0, 0, 31, 0⟩
def R.CMP_STAT_BASE_HI : Place := ⟨0x100B002C, 0, 0, 31, 0⟩
def R.CMP_STAT_BASE_LO : Place := ⟨0x100B0028, 0, 0, 31, 0⟩
def R.CMP_TP : Place := ⟨0x100B0080, 0x4, 0, 31, 0⟩
def R.CMP_VMAP : Place := ⟨0x100B0200, 0x10, 0x4, 31, 0⟩
def R.CMP_WARN : Place := ⟨0x100B005C, 0, 0, 31, 0⟩
def R.CMP_XCFG : Place := ⟨0x100B0400, 0, 0, 31, 0⟩
def R.COL_DNT_DATA : Place := ⟨0x100C0104, 0, 0, 31, 0⟩
def R.COL_GROW : Place := ⟨0x100C00C4, 0, 0, 31, 0⟩
def R.COL_PORT : Place := ⟨0x100C0010, 0x4, 0, 31, 0⟩
def R.COL_SEED : Place := ⟨0x100C00C0, 0, 0, 31, 0⟩
def R.COL_STBY : Place := ⟨0x100C00D0, 0x4, 0, 31, 0⟩
def R.COL_STBY_CMD : Place := ⟨0x100C0060, 0, 0, 31, 0⟩
def R.COL_STITCH_HI : Place := ⟨0x100C0084, 0x8, 0, 31, 0⟩
def R.COL_STITCH_LO : Place := ⟨0x100C0080, 0x8, 0, 31, 0⟩
def R.COL_SW_HI : Place := ⟨0x100C0054, 0, 0, 31, 0⟩
def R.COL_SW_LO : Place := ⟨0x100C0050, 0, 0, 31, 0⟩
def R.DDR_CFG : Place := ⟨0x101E0004, 0, 0, 31, 0⟩
def R.DDR_CTRL : Place := ⟨0x101E0000, 0, 0, 31, 0⟩
def R.DDR_DEV_CNT : Place := ⟨0x101E0028, 0, 0, 31, 0⟩
def R.DDR_ECC_ADDR_HI : Place := ⟨0x101E0020, 0, 0, 31, 0⟩
def R.DDR_ECC_ADDR_LO : Place := ⟨0x101E001C, 0, 0, 31, 0⟩
def R.DDR_WIN_BASE : Place := ⟨0x101E0100, 0x10, 0, 31, 0⟩
def R.DMA_BUSY : Place := ⟨0x10050004, 0, 0, 31, 0⟩
def R.DMA_CHSEL : Place := ⟨0x10050014, 0, 0, 31, 0⟩
def R.DMA_CH_APPEND_HI : Place := ⟨0x10050118, 0, 0, 31, 0⟩
def R.DMA_CH_CTRL : Place := ⟨0x10050104, 0, 0, 31, 0⟩
def R.DMA_CH_FAULT_LO : Place := ⟨0x1005013C, 0, 0, 31, 0⟩
def R.DMA_CH_SRC_LO : Place := ⟨0x10050124, 0, 0, 31, 0⟩
def R.DMA_HALTED : Place := ⟨0x10050008, 0, 0, 31, 0⟩
def R.EVC_CORE_CLAIM : Place := ⟨0x10040040, 0x4, 0, 31, 0⟩
def R.EVC_HQ_BASE_HI : Place := ⟨0x10040074, 0, 0, 31, 0⟩
def R.EVC_HQ_BASE_LO : Place := ⟨0x10040070, 0, 0, 31, 0⟩
def R.EVC_HQ_CFG : Place := ⟨0x10040078, 0, 0, 31, 0⟩
def R.EVC_HQ_HEAD : Place := ⟨0x10040080, 0, 0, 31, 0⟩
def R.EVC_LOG_CODE : Place := ⟨0x1004006C, 0, 0, 31, 0⟩
def R.EVC_LOG_D0 : Place := ⟨0x10040060, 0, 0, 31, 0⟩
def R.EVC_LOG_D1 : Place := ⟨0x10040064, 0, 0, 31, 0⟩
def R.EVC_LOG_D2 : Place := ⟨0x10040068, 0, 0, 31, 0⟩
def R.EVC_PEND : Place := ⟨0x10040010, 0x4, 0, 31, 0⟩
def R.EVC_RCNT : Place := ⟨0x10040038, 0, 0, 31, 0⟩
def R.EVC_ROUTE : Place := ⟨0x10040034, 0, 0, 31, 0⟩
def R.EVC_RSEL : Place := ⟨0x10040030, 0, 0, 31, 0⟩
def R.EVC_SWTRIG : Place := ⟨0x1004003C, 0, 0, 31, 0⟩
def R.EVC_XTEST : Place := ⟨0x10040400, 0, 0, 31, 0⟩
def R.EVR_CTRL : Place := ⟨0x10030000, 0, 0, 31, 0⟩
def R.EVR_MIR_POS : Place := ⟨0x10030010, 0, 0, 31, 0⟩
def R.EVR_RCODE : Place := ⟨0x10030028, 0, 0, 31, 0⟩
def R.EVR_RDROP : Place := ⟨0x1003002C, 0, 0, 31, 0⟩
def R.EVR_SEQ : Place := ⟨0x1003000C, 0, 0, 31, 0⟩
def R.EVR_WR : Place := ⟨0x10030008, 0, 0, 31, 0⟩
def R.FAB_BULK_BASE_HI : Place := ⟨0x10180094, 0, 0, 31, 0⟩
def R.FAB_BULK_BASE_LO : Place := ⟨0x10180090, 0, 0, 31, 0⟩
def R.FAB_BULK_SIZE : Place := ⟨0x10180098, 0, 0, 31, 0⟩
def R.FAB_CTRL : Place := ⟨0x10180000, 0, 0, 31, 0⟩
def R.FAB_INBOX_BASE_HI : Place := ⟨0x10180084, 0, 0, 31, 0⟩
def R.FAB_INBOX_BASE_LO : Place := ⟨0x10180080, 0, 0, 31, 0⟩
def R.FAB_INBOX_RD : Place := ⟨0x1018008C, 0, 0, 31, 0⟩
def R.FAB_LP : Place := ⟨0x101800B0, 0, 0, 31, 0⟩
def R.FAB_NODE : Place := ⟨0x10180004, 0, 0, 31, 0⟩
def R.FAB_P_CTRL : Place := ⟨0x10180010, 0x10, 0, 31, 0⟩
def R.FAB_TSYNC : Place := ⟨0x10180050, 0, 0, 31, 0⟩
def R.FAB_TXQ_BASE_HI : Place := ⟨0x10180074, 0, 0, 31, 0⟩
def R.FAB_TXQ_BASE_LO : Place := ⟨0x10180070, 0, 0, 31, 0⟩
def R.FAB_TXQ_WR : Place := ⟨0x10180078, 0, 0, 31, 0⟩
def R.FAB_WAKE_SRC : Place := ⟨0x101800B4, 0, 0, 31, 0⟩
def R.FLW_BRIDGE : Place := ⟨0x100D0410, 0x4, 0, 31, 0⟩
def R.FLW_COMMIT : Place := ⟨0x100D0404, 0, 0, 31, 0⟩
def R.FLW_EW_A : Place := ⟨0x100D0100, 0x8, 0, 31, 0⟩
def R.FLW_EW_B : Place := ⟨0x100D0104, 0x8, 0, 31, 0⟩
def R.FLW_LOOP : Place := ⟨0x100D0010, 0x4, 0, 31, 0⟩
def R.FLW_SCEIL : Place := ⟨0x100D0070, 0x4, 0, 31, 0⟩
def R.FLW_SHAPE_A : Place := ⟨0x100D0E00, 0x80, 0x8, 31, 0⟩
def R.FLW_SHAPE_B : Place := ⟨0x100D0E04, 0x80, 0x8, 31, 0⟩
def R.FLW_STAT : Place := ⟨0x100D0004, 0, 0, 31, 0⟩
def R.FLW_TCEIL : Place := ⟨0x100D0050, 0x4, 0, 31, 0⟩
def R.FLW_TDATA : Place := ⟨0x100D00B4, 0, 0, 31, 0⟩
def R.FLW_TRIM : Place := ⟨0x100D0030, 0x4, 0, 31, 0⟩
def R.FLW_WARM_CFG : Place := ⟨0x100D00C4, 0, 0, 31, 0⟩
def R.FLW_WARM_REQ : Place := ⟨0x100D00CC, 0, 0, 31, 0⟩
def R.FLW_WARM_T : Place := ⟨0x100D00C8, 0, 0, 31, 0⟩
def R.HP_BAR : Place := ⟨0x10100120, 0x10000, 0, 31, 0⟩
def R.HP_CTRL : Place := ⟨0x10100000, 0x10000, 0, 31, 0⟩
def R.HP_DUTY : Place := ⟨0x10100104, 0x10000, 0, 31, 0⟩
def R.HP_ELIM : Place := ⟨0x10100108, 0x10000, 0, 31, 0⟩
def R.HP_ELIM_CEIL : Place := ⟨0x1010011C, 0x10000, 0, 31, 0⟩
def R.HP_FTRIM : Place := ⟨0x1010001C, 0x10000, 0, 31, 0⟩
def R.HP_IW_A : Place := ⟨0x10100124, 0x10000, 0, 31, 0⟩
def R.HP_IW_B : Place := ⟨0x10100128, 0x10000, 0, 31, 0⟩
def R.HP_MEM_DATA : Place := ⟨0x10100028, 0x10000, 0, 31, 0⟩
def R.HP_PCEIL : Place := ⟨0x10100114, 0x10000, 0, 31, 0⟩
def R.HP_PCEIL_T : Place := ⟨0x10100118, 0x10000, 0, 31, 0⟩
def R.HP_TLIM : Place := ⟨0x1010010C, 0x10000, 0, 31, 0⟩
def R.HP_TWARN : Place := ⟨0x10100110, 0x10000, 0, 31, 0⟩
def R.HP_TXDLY : Place := ⟨0x10100020, 0x10000, 0, 31, 0⟩
def R.HP_WDOG : Place := ⟨0x10100100, 0x10000, 0, 31, 0⟩
def R.HP_XCMD : Place := ⟨0x10100400, 0x10000, 0, 31, 0⟩
def R.HP_XDATA : Place := ⟨0x1010040C, 0x10000, 0, 31, 0⟩
def R.HP_XLINK : Place := ⟨0x10100410, 0x10000, 0, 31, 0⟩
def R.HP_XRSP : Place := ⟨0x10100408, 0x10000, 0, 31, 0⟩
def R.HST_CQ_BASE_HI : Place := ⟨0x101901C4, 0x18, 0, 31, 0⟩
def R.HST_CQ_BASE_LO : Place := ⟨0x101901C0, 0x18, 0, 31, 0⟩
def R.HST_CQ_CFG : Place := ⟨0x101901C8, 0x18, 0, 31, 0⟩
def R.HST_CQ_HEAD : Place := ⟨0x101901CC, 0x18, 0, 31, 0⟩
def R.HST_REC_BASE_HI : Place := ⟨0x10190344, 0, 0, 31, 0⟩
def R.HST_REC_BASE_LO : Place := ⟨0x10190340, 0, 0, 31, 0⟩
def R.HST_REC_CFG : Place := ⟨0x10190348, 0, 0, 31, 0⟩
def R.HST_REC_HEAD : Place := ⟨0x10190350, 0, 0, 31, 0⟩
def R.HST_SQ_BASE_HI : Place := ⟨0x10190044, 0x18, 0, 31, 0⟩
def R.HST_SQ_BASE_LO : Place := ⟨0x10190040, 0x18, 0, 31, 0⟩
def R.HST_SQ_CFG : Place := ⟨0x10190048, 0x18, 0, 31, 0⟩
def R.HST_SQ_HEAD : Place := ⟨0x10190050, 0x18, 0, 31, 0⟩
def R.HST_SQ_TAIL : Place := ⟨0x1019004C, 0x18, 0, 31, 0⟩
def R.LDL_BAR_BUD : Place := ⟨0x10080100, 0x10, 0, 31, 0⟩
def R.LDL_CORE : Place := ⟨0x10080004, 0, 0, 31, 0⟩
def R.LDL_SW_BIND : Place := ⟨0x1008002C, 0, 0, 31, 0⟩
def R.LDL_SW_REL : Place := ⟨0x10080028, 0, 0, 31, 0⟩
def R.LDL_SW_REQ : Place := ⟨0x10080020, 0, 0, 31, 0⟩
def R.LDL_SW_RESULT : Place := ⟨0x10080024, 0, 0, 31, 0⟩
def R.LDL_THROT : Place := ⟨0x10080010, 0, 0, 31, 0⟩
def R.MBXM_CTRL : Place := ⟨0x101C0140, 0x48, 0, 31, 0⟩
def R.MBX_MSG : Place := ⟨0x101C0100, 0x48, 0x4, 31, 0⟩
def R.MEM_GROTTO_WIPE : Place := ⟨0x10060074, 0, 0, 31, 0⟩
def R.MEM_OWN : Place := ⟨0x10060010, 0x4, 0, 31, 0⟩
def R.MEM_RET : Place := ⟨0x10060050, 0, 0, 31, 0⟩
def R.MEM_RET_TAKEN : Place := ⟨0x10060058, 0, 0, 31, 0⟩
def R.NZH_ARQ_BASE_HI : Place := ⟨0x100E0024, 0, 0, 31, 0⟩
def R.NZH_ARQ_BASE_LO : Place := ⟨0x100E0020, 0, 0, 31, 0⟩
def R.NZH_ARQ_CLAIM : Place := ⟨0x100E0030, 0, 0, 31, 0⟩
def R.NZH_ARQ_RD : Place := ⟨0x100E002C, 0, 0, 31, 0⟩
def R.NZH_ARQ_RSV : Place := ⟨0x100E0034, 0, 0, 31, 0⟩
def R.NZH_DEAD : Place := ⟨0x100E00A8, 0, 0, 31, 0⟩
def R.NZH_NZ_DATA : Place := ⟨0x100E00A4, 0, 0, 31, 0⟩
def R.NZH_REJ_GATE : Place := ⟨0x100E0044, 0x8, 0, 31, 0⟩
def R.NZH_REJ_LANE : Place := ⟨0x100E0040, 0x8, 0, 31, 0⟩
def R.NZH_STAT : Place := ⟨0x100E0018, 0, 0, 31, 0⟩
def R.OTP_CMD : Place := ⟨0x10020008, 0, 0, 31, 0⟩
def R.OTP_DIGEST : Place := ⟨0x10020020, 0x4, 0, 31, 0⟩
def R.OTP_RDATA_N : Place := ⟨0x10020010, 0, 0, 31, 0⟩
def R.OTP_RDATA_T : Place := ⟨0x10020014, 0, 0, 31, 0⟩
def R.OTP_RESULT : Place := ⟨0x10020018, 0, 0, 31, 0⟩
def R.OTP_STAT : Place := ⟨0x10020004, 0, 0, 31, 0⟩
def R.OTP_WDATA : Place := ⟨0x1002000C, 0, 0, 31, 0⟩
def R.PAD_HOLD : Place := ⟨0x101D0004, 0, 0, 31, 0⟩
def R.PAD_HOLD_REL : Place := ⟨0x101D0008, 0, 0, 31, 0⟩
def R.POS_CMP_CFG : Place := ⟨0x10090100, 0x20, 0, 31, 0⟩
def R.POS_CMP_ENT_HI : Place := ⟨0x10090108, 0x20, 0, 31, 0⟩
def R.POS_CMP_ENT_LO : Place := ⟨0x10090104, 0x20, 0, 31, 0⟩
def R.POS_CMP_FLUSH : Place := ⟨0x10090118, 0x20, 0, 31, 0⟩
def R.POS_CMP_NEXT_HI : Place := ⟨0x10090114, 0x20, 0, 31, 0⟩
def R.POS_CMP_NEXT_LO : Place := ⟨0x10090110, 0x20, 0, 31, 0⟩
def R.POS_CMP_STAT : Place := ⟨0x1009010C, 0x20, 0, 31, 0⟩
def R.POS_ENCO_CFG : Place := ⟨0x100900C0, 0, 0, 31, 0⟩
def R.POS_ENCO_COUNT : Place := ⟨0x100900D0, 0, 0, 31, 0⟩
def R.POS_ENCO_RATIO : Place := ⟨0x100900C4, 0, 0, 31, 0⟩
def R.POS_ENCO_STAT : Place := ⟨0x100900CC, 0, 0, 31, 0⟩
def R.POS_ENC_CFG : Place := ⟨0x10090010, 0x30, 0, 31, 0⟩
def R.POS_ENC_CPR : Place := ⟨0x10090014, 0x30, 0, 31, 0⟩
def R.POS_ENC_POS_HI : Place := ⟨0x1009001C, 0x30, 0, 31, 0⟩
def R.POS_ENC_POS_LO : Place := ⟨0x10090018, 0x30, 0, 31, 0⟩
def R.POS_ENC_STAT : Place := ⟨0x10090028, 0x30, 0, 31, 0⟩
def R.POS_ENC_THR : Place := ⟨0x10090408, 0, 0, 31, 0⟩
def R.POS_ENC_TS_HI : Place := ⟨0x10090024, 0x30, 0, 31, 0⟩
def R.POS_ENC_TS_LO : Place := ⟨0x10090020, 0x30, 0, 31, 0⟩
def R.POS_HALL_CFG : Place := ⟨0x10090070, 0, 0, 31, 0⟩
def R.POS_HALL_STAT : Place := ⟨0x1009007C, 0, 0, 31, 0⟩
def R.POS_MARK_CFG : Place := ⟨0x10090080, 0x20, 0, 31, 0⟩
def R.POS_MARK_HEAD : Place := ⟨0x10090098, 0x20, 0, 31, 0⟩
def R.POS_MARK_POS : Place := ⟨0x10090094, 0x20, 0, 31, 0⟩
def R.POS_MARK_STAT : Place := ⟨0x1009009C, 0x20, 0, 31, 0⟩
def R.POS_MARK_TS_HI : Place := ⟨0x10090090, 0x20, 0, 31, 0⟩
def R.POS_MARK_TS_LO : Place := ⟨0x1009008C, 0x20, 0, 31, 0⟩
def R.PWR_AON_CAUSE : Place := ⟨0x10010030, 0, 0, 31, 0⟩
def R.PWR_COMMIT : Place := ⟨0x1001000C, 0, 0, 31, 0⟩
def R.PWR_ISL_CUR : Place := ⟨0x10010038, 0, 0, 31, 0⟩
def R.PWR_REQ : Place := ⟨0x10010008, 0, 0, 31, 0⟩
def R.PWR_STAT : Place := ⟨0x10010004, 0, 0, 31, 0⟩
def R.PWR_WAKE_LATCH : Place := ⟨0x1001001C, 0, 0, 31, 0⟩
def R.PWR_WAKE_SW : Place := ⟨0x10010028, 0, 0, 31, 0⟩
def R.SEC_BOOT : Place := ⟨0x101B000C, 0, 0, 31, 0⟩
def R.SEC_CTRL : Place := ⟨0x101B0000, 0, 0, 31, 0⟩
def R.SEC_DENY_HI : Place := ⟨0x101B0034, 0, 0, 31, 0⟩
def R.SEC_DENY_LO : Place := ⟨0x101B0030, 0, 0, 31, 0⟩
def R.SEC_LC : Place := ⟨0x101B0008, 0, 0, 31, 0⟩
def R.SEC_PHASE : Place := ⟨0x101B0004, 0, 0, 31, 0⟩
def R.SEC_ROLL : Place := ⟨0x101B0014, 0, 0, 31, 0⟩
def R.SEC_WDOG_CFG : Place := ⟨0x101B0040, 0, 0, 31, 0⟩
def R.SEC_WDOG_KICK : Place := ⟨0x101B0044, 0, 0, 31, 0⟩
def R.STR_ACT_SEQ : Place := ⟨0x100F0044, 0, 0, 31, 0⟩
def R.STR_APPLIED_HI : Place := ⟨0x100F0034, 0, 0, 31, 0⟩
def R.STR_APPLIED_LO : Place := ⟨0x100F0030, 0, 0, 31, 0⟩
def R.STR_APPROVE : Place := ⟨0x100F002C, 0, 0, 31, 0⟩
def R.STR_CMPLINE_HI : Place := ⟨0x100F0040, 0, 0, 31, 0⟩
def R.STR_CMPLINE_LO : Place := ⟨0x100F003C, 0, 0, 31, 0⟩
def R.STR_CTRL : Place := ⟨0x100F0000, 0, 0, 31, 0⟩
def R.STR_LOAD_GO : Place := ⟨0x100F001C, 0, 0, 31, 0⟩
def R.STR_LOAD_HI : Place := ⟨0x100F0014, 0, 0, 31, 0⟩
def R.STR_LOAD_LEN : Place := ⟨0x100F0018, 0, 0, 31, 0⟩
def R.STR_LOAD_LO : Place := ⟨0x100F0010, 0, 0, 31, 0⟩
def R.STR_PEND_SEQ : Place := ⟨0x100F0048, 0, 0, 31, 0⟩
def R.STR_RESULT : Place := ⟨0x100F0020, 0, 0, 31, 0⟩
def R.STR_SLOT_BASE_HI : Place := ⟨0x100F005C, 0, 0, 31, 0⟩
def R.STR_SLOT_BASE_LO : Place := ⟨0x100F0058, 0, 0, 31, 0⟩
def R.STR_STAT : Place := ⟨0x100F0004, 0, 0, 31, 0⟩
def R.STR_SW_LINE_HI : Place := ⟨0x100F0028, 0, 0, 31, 0⟩
def R.STR_SW_LINE_LO : Place := ⟨0x100F0024, 0, 0, 31, 0⟩
def R.STR_XCFG : Place := ⟨0x100F0400, 0, 0, 31, 0⟩
def R.SYS_CLK_STAT : Place := ⟨0x10000040, 0, 0, 31, 0⟩
def R.SYS_ID : Place := ⟨0x10000000, 0, 0, 31, 0⟩
def R.SYS_ISL_RST : Place := ⟨0x10000014, 0, 0, 31, 0⟩
def R.SYS_ISL_STAT : Place := ⟨0x10000010, 0, 0, 31, 0⟩
def R.SYS_PTIME_HI : Place := ⟨0x10000024, 0, 0, 31, 0⟩
def R.SYS_PTIME_LO : Place := ⟨0x10000020, 0, 0, 31, 0⟩
def R.SYS_RST_CAUSE : Place := ⟨0x10000018, 0, 0, 31, 0⟩
def R.SYS_SOFT_RST : Place := ⟨0x1000001C, 0, 0, 31, 0⟩
def R.THM_MAX : Place := ⟨0x10070050, 0, 0, 31, 0⟩
def R.THM_OFS : Place := ⟨0x10070404, 0x4, 0, 31, 0⟩
def R.THM_STAT : Place := ⟨0x10070004, 0, 0, 31, 0⟩
def R.THM_TRIP : Place := ⟨0x10070054, 0, 0, 31, 0⟩
def R.TKO_CFG : Place := ⟨0x101F0048, 0, 0, 31, 0⟩
def R.TKO_CTRL : Place := ⟨0x101F0000, 0, 0, 31, 0⟩
def R.TKO_DECIDE : Place := ⟨0x101F004C, 0, 0, 31, 0⟩
def R.TKO_HB_CFG : Place := ⟨0x101F0034, 0, 0, 31, 0⟩
def R.TKO_HB_TS_HI : Place := ⟨0x101F0040, 0, 0, 31, 0⟩
def R.TKO_HB_TS_LO : Place := ⟨0x101F003C, 0, 0, 31, 0⟩
def R.TKO_KEY : Place := ⟨0x101F0030, 0, 0, 31, 0⟩
def R.TKO_LEAD : Place := ⟨0x101F0044, 0, 0, 31, 0⟩
def R.TKO_PAIR : Place := ⟨0x101F0010, 0x4, 0, 31, 0⟩
def R.TKO_PARTNER : Place := ⟨0x101F000C, 0, 0, 31, 0⟩
def R.TKO_PORTS : Place := ⟨0x101F0008, 0, 0, 31, 0⟩
def R.TKO_RET_HI : Place := ⟨0x101F005C, 0, 0, 31, 0⟩
def R.TKO_RET_LO : Place := ⟨0x101F0058, 0, 0, 31, 0⟩
def R.TKO_STBY : Place := ⟨0x101F0060, 0, 0, 31, 0⟩
def R.TKO_STBYMAP : Place := ⟨0x101F0064, 0, 0, 31, 0⟩
def R.TKO_SW_HI : Place := ⟨0x101F0054, 0, 0, 31, 0⟩
def R.TKO_SW_LO : Place := ⟨0x101F0050, 0, 0, 31, 0⟩
def R.TRK_BCAST : Place := ⟨0x100A0038, 0, 0, 31, 0⟩
def R.TRK_CTRL : Place := ⟨0x100A0000, 0, 0, 31, 0⟩
def R.TRK_FAB_LOFS_HI : Place := ⟨0x100A0020, 0, 0, 31, 0⟩
def R.TRK_FAB_LOFS_LO : Place := ⟨0x100A001C, 0, 0, 31, 0⟩
def R.TRK_FAB_NODE : Place := ⟨0x100A0028, 0, 0, 31, 0⟩
def R.TRK_FAB_TIME : Place := ⟨0x100A0410, 0, 0, 31, 0⟩
def R.TRK_FLT : Place := ⟨0x100A0040, 0x4, 0, 31, 0⟩
def R.TRK_ICOFS : Place := ⟨0x100A0060, 0x4, 0, 31, 0⟩
def R.TRK_LINE_HI : Place := ⟨0x100A00C4, 0, 0, 31, 0⟩
def R.TRK_LINE_LO : Place := ⟨0x100A00C0, 0, 0, 31, 0⟩
def R.TRK_POS_HI : Place := ⟨0x100A00B8, 0, 0, 31, 0⟩
def R.TRK_POS_LO : Place := ⟨0x100A00B4, 0, 0, 31, 0⟩
def R.TRK_RATE : Place := ⟨0x100A00BC, 0, 0, 31, 0⟩
def R.TRK_RATIO0_HI : Place := ⟨0x100A0008, 0, 0, 31, 0⟩
def R.TRK_RATIO0_LO : Place := ⟨0x100A0004, 0, 0, 31, 0⟩
def R.TRK_RATIO1_HI : Place := ⟨0x100A0010, 0, 0, 31, 0⟩
def R.TRK_RATIO1_LO : Place := ⟨0x100A000C, 0, 0, 31, 0⟩
def R.TRK_ROWOFS : Place := ⟨0x100A0100, 0x20, 0x4, 31, 0⟩
def R.TRK_SPREQ : Place := ⟨0x100A00E0, 0, 0, 31, 0⟩
def R.TRK_SRC : Place := ⟨0x100A0024, 0, 0, 31, 0⟩
def R.TRK_STAT : Place := ⟨0x100A00B0, 0, 0, 31, 0⟩
def R.TRK_TILEOFS : Place := ⟨0x100A0080, 0x4, 0, 31, 0⟩
def R.TRK_WARN : Place := ⟨0x100A00E8, 0, 0, 31, 0⟩

end Sys2Proof.Machine
end

