-- ==== Sys2Proof/Machine/RegMap.lean ====
section
/-!
DEFINITION. The register map of the LN-8064, transcribed from the register tables of the spec: for every register its
offset, its indices, its reset value and its writable fields with access type (R10) and stated range. One table per block.
-/

namespace Sys2Proof.Machine

/-- A writable field without a stated range. -/
def fd (hi lo : Nat) (a : Access) : FieldDef := ⟨hi, lo, a, 0, 2 ^ (hi + 1 - lo) - 1, false⟩

/-- A writable field with the values it takes; the last argument says whether it is shadowed. -/
def fr (hi lo : Nat) (a : Access) (min max : Nat) (sh : Bool) : FieldDef := ⟨hi, lo, a, min, max, sh⟩

/-- The registers of the SYS block (00_scope.md, 01_architecture.md). -/
def regsSYS : List RegDef := [
  ⟨0x000, 0, 1, 0, 1, 0x80640001, []⟩,
  ⟨0x004, 0, 1, 0, 1, 0x0, [fd 0 0 .rw]⟩,
  ⟨0x010, 0, 1, 0, 1, 0x10003, []⟩,
  ⟨0x014, 0, 1, 0, 1, 0x0, [fd 15 0 .wo]⟩,
  ⟨0x018, 0, 1, 0, 1, 0x0, [fd 6 6 .w1c, fd 5 5 .w1c, fd 4 4 .w1c, fd 3 3 .w1c, fd 2 2 .w1c, fd 1 1 .w1c, fd 0 0 .w1c]⟩,
  ⟨0x01C, 0, 1, 0, 1, 0x0, [fd 31 16 .wo, fd 0 0 .wo]⟩,
  ⟨0x020, 0, 1, 0, 1, 0x0, []⟩,
  ⟨0x024, 0, 1, 0, 1, 0x0, []⟩,
  ⟨0x030, 0, 1, 0, 1, 0x0, [fd 15 0 .w1c]⟩,
  ⟨0x034, 0, 1, 0, 1, 0x0, []⟩,
  ⟨0x040, 0, 1, 0, 1, 0x0, []⟩,
  ⟨0x400, 0, 1, 0, 1, 0x3E8, [fr 15 0 .rwx 250 4000 false]⟩,
  ⟨0x404, 0, 1, 0, 1, 0x102, [fr 7 0 .rwx 1 2 false]⟩
]

/-- The registers of the PWR block (16_power_states.md). -/
def regsPWR : List RegDef := [
  ⟨0x000, 0, 1, 0, 1, 0x0, [fd 2 2 .rw, fd 1 1 .rw, fd 0 0 .rw]⟩,
  ⟨0x004, 0, 1, 0, 1, 0x0, []⟩,
  ⟨0x008, 0, 1, 0, 1, 0x0, [fd 2 2 .wo, fd 1 0 .wo]⟩,
  ⟨0x00C, 0, 1, 0, 1, 0x0, [fd 31 16 .wo, fd 1 0 .wo]⟩,
  ⟨0x010, 0, 1, 0, 1, 0x7D0, [fr 15 0 .rw 100 20000 false]⟩,
  ⟨0x014, 0, 1, 0, 1, 0x0, []⟩,
  ⟨0x018, 0, 1, 0, 1, 0xFE, [fd 7 0 .rw]⟩,
  ⟨0x01C, 0, 1, 0, 1, 0x0, [fd 7 0 .w1c]⟩,
  ⟨0x020, 0, 1, 0, 1, 0x0, []⟩,
  ⟨0x024, 0, 1, 0, 1, 0x0, [fd 31 0 .rw]⟩,
  ⟨0x028, 0, 1, 0, 1, 0x0, [fd 0 0 .wo]⟩,
  ⟨0x02C, 0, 1, 0, 1, 0x2580064, [fr 31 16 .rw 1 65535 false, fr 15 0 .rw 1 65535 false]⟩,
  ⟨0x030, 0, 1, 0, 1, 0x0, [fd 2 2 .w1c, fd 1 1 .w1c, fd 0 0 .w1c]⟩,
  ⟨0x034, 0, 1, 0, 1, 0x0, [fd 3 0 .rw]⟩,
  ⟨0x038, 0, 1, 0, 1, 0x0, []⟩,
  ⟨0x03C, 0, 1, 0, 1, 0x0, []⟩,
  ⟨0x040, 0, 1, 0, 1, 0x0, []⟩,
  ⟨0x044, 0, 1, 0, 1, 0x0, []⟩,
  ⟨0x400, 0, 1, 0, 1, 0xA0654, [fr 23 16 .rwx 1 255 false, fr 11 0 .rwx 1550 1700 false]⟩,
  ⟨0x404, 0, 1, 0, 1, 0x1E, [fr 4 0 .rwx 5 30 false]⟩
]

/-- The registers of the OTP block (18_otp_lifecycle_security.md). -/
def regsOTP : List RegDef := [
  ⟨0x000, 0, 1, 0, 1, 0x0, [fd 0 0 .rw]⟩,
  ⟨0x004, 0, 1, 0, 1, 0x1, []⟩,
  ⟨0x008, 0, 1, 0, 1, 0x0, [fd 31 28 .wo, fd 19 16 .wo, fd 9 0 .wo]⟩,
  ⟨0x00C, 0, 1, 0, 1, 0x0, [fd 31 0 .rw]⟩,
  ⟨0x010, 0, 1, 0, 1, 0x0, []⟩,
  ⟨0x014, 0, 1, 0, 1, 0x0, []⟩,
  ⟨0x018, 0, 1, 0, 1, 0x0, []⟩,
  ⟨0x01C, 0, 1, 0, 1, 0x0, []⟩,
  ⟨0x020, 0x4, 8, 0, 1, 0x0, [fd 31 0 .rw]⟩,
  ⟨0x040, 0x4, 11, 0, 1, 0x0, []⟩,
  ⟨0x070, 0, 1, 0, 1, 0x0, []⟩,
  ⟨0x074, 0, 1, 0, 1, 0x0, []⟩,
  ⟨0x078, 0, 1, 0, 1, 0x0, []⟩,
  ⟨0x07C, 0, 1, 0, 1, 0x0, []⟩,
  ⟨0x080, 0, 1, 0, 1, 0x20A, [fr 17 16 .rw 0 2 false, fd 10 8 .rw, fr 4 0 .rw 5 20 false]⟩,
  ⟨0x084, 0, 1, 0, 1, 0x0, []⟩,
  ⟨0x400, 0, 1, 0, 1, 0x20, [fr 5 0 .rwx 16 63 false]⟩
]

/-- The registers of the EVR block (19_events_and_recorder.md). -/
def regsEVR : List RegDef := [
  ⟨0x000, 0, 1, 0, 1, 0x0, [fd 2 2 .rw, fd 1 1 .rw, fd 0 0 .rw]⟩,
  ⟨0x004, 0, 1, 0, 1, 0x0, [fd 4 4 .w1c, fd 3 3 .w1c, fd 2 2 .w1c]⟩,
  ⟨0x008, 0, 1, 0, 1, 0x0, []⟩,
  ⟨0x00C, 0, 1, 0, 1, 0x0, [fd 23 0 .rw]⟩,
  ⟨0x010, 0, 1, 0, 1, 0x1300000, [fd 31 0 .rw]⟩,
  ⟨0x014, 0, 1, 0, 1, 0x2000000, [fd 31 12 .rw]⟩,
  ⟨0x018, 0, 1, 0, 1, 0x0, []⟩,
  ⟨0x01C, 0, 1, 0, 1, 0x640008, [fr 31 16 .rw 10 1000 false, fr 7 0 .rw 1 255 false]⟩,
  ⟨0x020, 0, 1, 0, 1, 0xA, [fr 15 0 .rw 1 1000 false]⟩,
  ⟨0x024, 0, 1, 0, 1, 0x0, [fd 6 0 .rw]⟩,
  ⟨0x028, 0, 1, 0, 1, 0x0, []⟩,
  ⟨0x02C, 0, 1, 0, 1, 0x0, []⟩,
  ⟨0x030, 0, 1, 0, 1, 0x0, []⟩,
  ⟨0x034, 0, 1, 0, 1, 0x0, []⟩,
  ⟨0x038, 0, 1, 0, 1, 0x0, []⟩,
  ⟨0x03C, 0, 1, 0, 1, 0x0, []⟩,
  ⟨0x400, 0, 1, 0, 1, 0x0, [fd 1 1 .rwx, fd 0 0 .rwx]⟩
]

/-- The registers of the EVC block (19_events_and_recorder.md). -/
def regsEVC : List RegDef := [
  ⟨0x000, 0, 1, 0, 1, 0x0, [fd 0 0 .rw]⟩,
  ⟨0x010, 0x4, 8, 0, 1, 0x0, [fd 31 0 .w1c]⟩,
  ⟨0x030, 0, 1, 0, 1, 0x0, [fd 7 0 .rw]⟩,
  ⟨0x034, 0, 1, 0, 1, 0x0, [fd 31 31 .rw, fd 29 24 .rw, fd 22 20 .rw, fd 3 0 .rw]⟩,
  ⟨0x038, 0, 1, 0, 1, 0x0, []⟩,
  ⟨0x03C, 0, 1, 0, 1, 0x0, [fd 31 31 .wo, fd 5 0 .wo]⟩,
  ⟨0x040, 0x4, 4, 0, 1, 0x100, []⟩,
  ⟨0x050, 0x4, 4, 0, 1, 0x0, [fd 2 0 .rw]⟩,
  ⟨0x060, 0, 1, 0, 1, 0x0, [fd 31 0 .rw]⟩,
  ⟨0x064, 0, 1, 0, 1, 0x0, [fd 31 0 .rw]⟩,
  ⟨0x068, 0, 1, 0, 1, 0x0, [fd 31 0 .rw]⟩,
  ⟨0x06C, 0, 1, 0, 1, 0x0, [fd 15 0 .wo]⟩,
  ⟨0x070, 0, 1, 0, 1, 0x0, [fd 31 12 .rw]⟩,
  ⟨0x074, 0, 1, 0, 1, 0x0, [fd 31 0 .rw]⟩,
  ⟨0x078, 0, 1, 0, 1, 0xA, [fd 31 31 .rw, fd 29 24 .rw, fd 21 16 .rw, fd 15 8 .rw, fr 3 0 .rw 6 16 false]⟩,
  ⟨0x07C, 0, 1, 0, 1, 0x0, []⟩,
  ⟨0x080, 0, 1, 0, 1, 0x0, [fd 31 0 .rw]⟩,
  ⟨0x084, 0, 1, 0, 1, 0x0, [fd 31 2 .rw]⟩,
  ⟨0x088, 0, 1, 0, 1, 0x0, [fd 31 0 .rw]⟩,
  ⟨0x08C, 0, 1, 0, 1, 0x0, []⟩,
  ⟨0x090, 0, 1, 0, 1, 0x0, []⟩,
  ⟨0x100, 0x4, 64, 0, 1, 0x0, [fd 31 16 .rw, fd 15 0 .rw]⟩,
  ⟨0x400, 0, 1, 0, 1, 0x0, [fd 31 31 .wo, fd 7 0 .rwx]⟩
]

/-- The registers of the DMA block (15_dma.md). -/
def regsDMA : List RegDef := [
  ⟨0x000, 0, 1, 0, 1, 0x0, [fd 0 0 .rw]⟩,
  ⟨0x004, 0, 1, 0, 1, 0x0, []⟩,
  ⟨0x008, 0, 1, 0, 1, 0x0, []⟩,
  ⟨0x00C, 0, 1, 0, 1, 0x0, [fd 31 0 .w1c]⟩,
  ⟨0x010, 0, 1, 0, 1, 0x0, [fd 31 16 .rw, fd 15 0 .rw]⟩,
  ⟨0x014, 0, 1, 0, 1, 0x0, [fd 4 0 .rw]⟩,
  ⟨0x018, 0, 1, 0, 1, 0x0, []⟩,
  ⟨0x100, 0, 1, 0, 1, 0x3, [fr 8 8 .rw 0 1 true, fr 5 4 .rw 0 3 true, fr 2 0 .rw 0 7 true]⟩,
  ⟨0x104, 0, 1, 0, 1, 0x0, [fd 2 2 .wo, fd 1 1 .wo, fd 0 0 .wo]⟩,
  ⟨0x108, 0, 1, 0, 1, 0x0, []⟩,
  ⟨0x10C, 0, 1, 0, 1, 0x0, [fd 31 5 .rw]⟩,
  ⟨0x110, 0, 1, 0, 1, 0x0, [fd 7 0 .rw]⟩,
  ⟨0x114, 0, 1, 0, 1, 0x0, [fr 31 5 .rw 0 134217727 true]⟩,
  ⟨0x118, 0, 1, 0, 1, 0x0, [fd 7 0 .rw]⟩,
  ⟨0x11C, 0, 1, 0, 1, 0x0, []⟩,
  ⟨0x120, 0, 1, 0, 1, 0x0, []⟩,
  ⟨0x124, 0, 1, 0, 1, 0x0, []⟩,
  ⟨0x128, 0, 1, 0, 1, 0x0, []⟩,
  ⟨0x12C, 0, 1, 0, 1, 0x0, []⟩,
  ⟨0x130, 0, 1, 0, 1, 0x0, []⟩,
  ⟨0x134, 0, 1, 0, 1, 0x0, []⟩,
  ⟨0x138, 0, 1, 0, 1, 0x0, []⟩,
  ⟨0x13C, 0, 1, 0, 1, 0x0, []⟩,
  ⟨0x140, 0, 1, 0, 1, 0x0, []⟩,
  ⟨0x144, 0, 1, 0, 1, 0x0, []⟩,
  ⟨0x400, 0, 1, 0, 1, 0x10010, [fr 19 16 .rwx 1 15 false, fr 5 0 .rwx 1 32 false]⟩
]

/-- The registers of the MEM block (14_memory.md). -/
def regsMEM : List RegDef := [
  ⟨0x000, 0, 1, 0, 1, 0x0, [fd 0 0 .rw]⟩,
  ⟨0x004, 0, 1, 0, 1, 0x0, [fd 3 3 .w1c, fd 2 2 .w1c, fd 1 1 .w1c, fd 0 0 .w1c]⟩,
  ⟨0x010, 0x4, 16, 0, 1, 0x7, [fd 7 7 .rw, fd 2 0 .rw]⟩,
  ⟨0x050, 0, 1, 0, 1, 0x8000, [fd 15 0 .rw]⟩,
  ⟨0x054, 0, 1, 0, 1, 0xFFFF, [fd 31 16 .w1c]⟩,
  ⟨0x058, 0, 1, 0, 1, 0x0, []⟩,
  ⟨0x05C, 0, 1, 0, 1, 0x0, []⟩,
  ⟨0x060, 0, 1, 0, 1, 0x0, []⟩,
  ⟨0x064, 0, 1, 0, 1, 0x0, []⟩,
  ⟨0x068, 0, 1, 0, 1, 0x0, []⟩,
  ⟨0x06C, 0, 1, 0, 1, 0x0, []⟩,
  ⟨0x070, 0, 1, 0, 1, 0x0, []⟩,
  ⟨0x074, 0, 1, 0, 1, 0x0, [fd 31 16 .wo, fd 0 0 .wo]⟩,
  ⟨0x07C, 0, 1, 0, 1, 0x0, []⟩,
  ⟨0x400, 0, 1, 0, 1, 0x400, [fr 15 0 .rwx 16 65535 false]⟩
]

/-- The registers of the THM block (17_chimney_die_temperature.md). -/
def regsTHM : List RegDef := [
  ⟨0x000, 0, 1, 0, 1, 0x0, [fd 0 0 .rw]⟩,
  ⟨0x004, 0, 1, 0, 1, 0xF, [fd 12 12 .w1c, fd 10 10 .w1c, fd 7 4 .w1c]⟩,
  ⟨0x010, 0x4, 4, 0, 1, 0x0, []⟩,
  ⟨0x020, 0x4, 9, 0, 1, 0x0, []⟩,
  ⟨0x044, 0, 1, 0, 1, 0x0, []⟩,
  ⟨0x048, 0, 1, 0, 1, 0x0, []⟩,
  ⟨0x04C, 0, 1, 0, 1, 0x6E05, [fr 15 8 .rw 90 115 false, fr 7 0 .rw 1 20 false]⟩,
  ⟨0x050, 0, 1, 0, 1, 0x0, []⟩,
  ⟨0x054, 0, 1, 0, 1, 0x0, []⟩,
  ⟨0x058, 0, 1, 0, 1, 0x0, []⟩,
  ⟨0x400, 0, 1, 0, 1, 0x200A, [fr 15 8 .rwx 16 80 false, fr 7 0 .rwx 1 255 false]⟩,
  ⟨0x404, 0x4, 4, 0, 1, 0x0, [fd 7 0 .rwx]⟩
]

/-- The registers of the LDL block (09_head_protection.md, 16_power_states.md). -/
def regsLDL : List RegDef := [
  ⟨0x100, 0x10, 4, 0, 1, 0x0, []⟩,
  ⟨0x104, 0x10, 4, 0, 1, 0x0, []⟩,
  ⟨0x108, 0x10, 4, 0, 1, 0x0, []⟩,
  ⟨0x000, 0, 1, 0, 1, 0x0, [fd 0 0 .rw]⟩,
  ⟨0x004, 0, 1, 0, 1, 0x0, []⟩,
  ⟨0x008, 0, 1, 0, 1, 0x0, []⟩,
  ⟨0x00C, 0, 1, 0, 1, 0x0, []⟩,
  ⟨0x010, 0, 1, 0, 1, 0x4B4B, [fr 15 8 .rw 25 100 false, fr 7 0 .rw 25 100 false]⟩,
  ⟨0x014, 0, 1, 0, 1, 0x0, []⟩,
  ⟨0x020, 0, 1, 0, 1, 0x0, [fd 31 31 .wo, fd 18 16 .wo, fd 15 0 .wo]⟩,
  ⟨0x024, 0, 1, 0, 1, 0x0, []⟩,
  ⟨0x028, 0, 1, 0, 1, 0x0, [fd 31 31 .wo, fd 3 0 .wo]⟩,
  ⟨0x02C, 0, 1, 0, 1, 0x0, [fd 31 31 .wo, fd 19 16 .wo, fd 9 0 .wo]⟩,
  ⟨0x030, 0, 1, 0, 1, 0x0, []⟩,
  ⟨0x034, 0, 1, 0, 1, 0x0, []⟩,
  ⟨0x038, 0, 1, 0, 1, 0x0, []⟩
]

/-- The registers of the POS block (02_position_inputs.md). -/
def regsPOS : List RegDef := [
  ⟨0x000, 0, 1, 0, 1, 0x0, [fd 0 0 .rw]⟩,
  ⟨0x010, 0x30, 2, 0, 1, 0x20804, [fd 23 16 .rw, fr 15 8 .rw 1 255 false, fd 3 3 .rw, fd 2 2 .rw, fd 1 1 .rw, fd 0 0 .rw]⟩,
  ⟨0x014, 0x30, 2, 0, 1, 0x0, [fd 23 0 .rw]⟩,
  ⟨0x018, 0x30, 2, 0, 1, 0x0, []⟩,
  ⟨0x01C, 0x30, 2, 0, 1, 0x0, []⟩,
  ⟨0x020, 0x30, 2, 0, 1, 0x0, []⟩,
  ⟨0x024, 0x30, 2, 0, 1, 0x0, []⟩,
  ⟨0x028, 0x30, 2, 0, 1, 0x0, [fd 17 17 .w1c, fd 16 16 .w1c, fd 2 0 .w1c]⟩,
  ⟨0x02C, 0x30, 2, 0, 1, 0x0, []⟩,
  ⟨0x070, 0, 1, 0, 1, 0x2008, [fr 15 8 .rw 1 255 false, fd 3 3 .rw, fd 2 2 .rw, fd 1 1 .rw, fd 0 0 .rw]⟩,
  ⟨0x074, 0, 1, 0, 1, 0x0, [fd 31 0 .rw]⟩,
  ⟨0x078, 0, 1, 0, 1, 0x3E8, [fd 23 0 .rw]⟩,
  ⟨0x07C, 0, 1, 0, 1, 0x0, [fd 5 5 .w1c, fd 4 4 .w1c]⟩,
  ⟨0x080, 0x20, 2, 0, 1, 0x408, [fr 15 8 .rw 1 255 false, fd 5 5 .rw, fd 4 4 .rw, fd 3 3 .rw, fr 2 1 .rw 0 2 false, fd 0 0 .rw]⟩,
  ⟨0x084, 0x20, 2, 0, 1, 0x0, [fd 23 0 .rw]⟩,
  ⟨0x088, 0x20, 2, 0, 1, 0x0, [fd 23 0 .rw]⟩,
  ⟨0x08C, 0x20, 2, 0, 1, 0x0, []⟩,
  ⟨0x090, 0x20, 2, 0, 1, 0x0, []⟩,
  ⟨0x094, 0x20, 2, 0, 1, 0x0, []⟩,
  ⟨0x098, 0x20, 2, 0, 1, 0x0, []⟩,
  ⟨0x09C, 0x20, 2, 0, 1, 0x0, []⟩,
  ⟨0x0C0, 0, 1, 0, 1, 0xA00, [fr 15 8 .rw 1 255 false, fr 4 3 .rw 0 2 false, fr 2 1 .rw 0 2 false, fd 0 0 .rw]⟩,
  ⟨0x0C4, 0, 1, 0, 1, 0x10001, [fr 31 16 .rw 1 65535 false, fr 15 0 .rw 1 65535 false]⟩,
  ⟨0x0C8, 0, 1, 0, 1, 0x0, [fd 23 0 .rw]⟩,
  ⟨0x0CC, 0, 1, 0, 1, 0x0, [fd 31 31 .w1c]⟩,
  ⟨0x0D0, 0, 1, 0, 1, 0x0, []⟩,
  ⟨0x100, 0x20, 8, 0, 1, 0xA0000, [fr 31 16 .rw 1 65535 false, fd 5 5 .rw, fd 3 3 .rw, fr 2 1 .rw 0 2 false, fd 0 0 .rw]⟩,
  ⟨0x104, 0x20, 8, 0, 1, 0x0, [fd 31 0 .wo]⟩,
  ⟨0x108, 0x20, 8, 0, 1, 0x0, [fd 17 16 .wo, fd 15 0 .wo]⟩,
  ⟨0x10C, 0x20, 8, 0, 1, 0x0, [fd 25 25 .w1c, fd 24 24 .w1c]⟩,
  ⟨0x110, 0x20, 8, 0, 1, 0x0, []⟩,
  ⟨0x114, 0x20, 8, 0, 1, 0x0, []⟩,
  ⟨0x118, 0x20, 8, 0, 1, 0x0, [fd 0 0 .wo]⟩,
  ⟨0x400, 0, 1, 0, 1, 0x0, [fd 9 8 .rwx, fd 7 0 .rwx]⟩,
  ⟨0x404, 0, 1, 0, 1, 0x100C, [fd 15 8 .rwx, fd 7 0 .rwx]⟩,
  ⟨0x408, 0, 1, 0, 1, 0x2020, [fd 13 8 .rwx, fd 5 0 .rwx]⟩,
  ⟨0x40C, 0, 1, 0, 1, 0x64, [fr 9 0 .rwx 10 500 false]⟩,
  ⟨0x410, 0, 1, 0, 1, 0x0, []⟩
]

/-- The registers of the TRK block (03_tracking_line_events.md). -/
def regsTRK : List RegDef := [
  ⟨0x000, 0, 1, 0, 1, 0x0, [fr 2 2 .rw 0 1 true, fd 1 1 .rw, fd 0 0 .rw]⟩,
  ⟨0x004, 0, 1, 0, 1, 0x0, [fr 31 0 .rw 0 4294967295 true]⟩,
  ⟨0x008, 0, 1, 0, 1, 0x1, [fd 31 0 .rw]⟩,
  ⟨0x00C, 0, 1, 0, 1, 0x0, [fr 31 0 .rw 0 4294967295 true]⟩,
  ⟨0x010, 0, 1, 0, 1, 0x1, [fd 31 0 .rw]⟩,
  ⟨0x014, 0, 1, 0, 1, 0x0, [fd 31 0 .rw]⟩,
  ⟨0x018, 0, 1, 0, 1, 0x0, [fd 31 0 .rw]⟩,
  ⟨0x01C, 0, 1, 0, 1, 0x0, [fr 31 0 .rw 0 4294967295 true]⟩,
  ⟨0x020, 0, 1, 0, 1, 0x0, [fd 31 0 .rw]⟩,
  ⟨0x024, 0, 1, 0, 1, 0xC, [fd 4 4 .wo, fd 3 2 .rw, fd 1 0 .rw]⟩,
  ⟨0x028, 0, 1, 0, 1, 0x0, [fd 25 16 .rw, fd 9 0 .rw]⟩,
  ⟨0x02C, 0, 1, 0, 1, 0x2, [fr 2 0 .rw 2 6 true]⟩,
  ⟨0x030, 0, 1, 0, 1, 0xFA0, [fr 23 0 .rw 500 48000 true]⟩,
  ⟨0x034, 0, 1, 0, 1, 0x2, [fr 1 0 .rw 0 3 true]⟩,
  ⟨0x038, 0, 1, 0, 1, 0x0, [fd 0 0 .rw]⟩,
  ⟨0x040, 0x4, 6, 0, 1, 0x0, [fr 17 0 .rw 0 250000 true]⟩,
  ⟨0x060, 0x4, 6, 0, 1, 0x0, [fr 20 0 .rw 0 2097151 true]⟩,
  ⟨0x080, 0x4, 8, 0, 1, 0x0, [fr 20 0 .rw 0 2097151 true]⟩,
  ⟨0x0A0, 0, 1, 0, 1, 0x0, [fd 23 16 .w1c]⟩,
  ⟨0x0B0, 0, 1, 0, 1, 0x0, [fd 2 2 .w1c, fd 1 1 .w1c, fd 0 0 .w1c]⟩,
  ⟨0x0B4, 0, 1, 0, 1, 0x0, []⟩,
  ⟨0x0B8, 0, 1, 0, 1, 0x0, []⟩,
  ⟨0x0BC, 0, 1, 0, 1, 0x0, []⟩,
  ⟨0x0C0, 0, 1, 0, 1, 0x0, []⟩,
  ⟨0x0C4, 0, 1, 0, 1, 0x0, []⟩,
  ⟨0x0C8, 0, 1, 0, 1, 0x0, []⟩,
  ⟨0x0CC, 0, 1, 0, 1, 0x0, []⟩,
  ⟨0x0D0, 0, 1, 0, 1, 0x0, []⟩,
  ⟨0x0E0, 0, 1, 0, 1, 0x641F00, [fd 31 16 .rw, fd 12 12 .rw, fd 11 11 .rw, fd 10 10 .rw, fd 9 9 .rw, fd 8 8 .rw, fd 1 1 .rw, fd 0 0 .rw]⟩,
  ⟨0x0E4, 0, 1, 0, 1, 0x0, []⟩,
  ⟨0x0E8, 0, 1, 0, 1, 0x3D4, [fr 9 0 .rw 500 1000 false]⟩,
  ⟨0x0F0, 0, 1, 0, 1, 0x0, []⟩,
  ⟨0x100, 0x20, 8, 0x4, 6, 0x0, [fr 20 0 .rw 0 2097151 true]⟩,
  ⟨0x400, 0, 1, 0, 1, 0x0, [fd 31 31 .rwx, fd 23 0 .rwx]⟩,
  ⟨0x404, 0, 1, 0, 1, 0x1000, [fd 15 0 .rwx]⟩,
  ⟨0x408, 0, 1, 0, 1, 0x100000, [fd 31 0 .rwx]⟩,
  ⟨0x40C, 0, 1, 0, 1, 0x100, [fd 15 0 .rwx]⟩,
  ⟨0x410, 0, 1, 0, 1, 0x50014, [fr 31 16 .rwx 1 1000 false, fr 15 0 .rwx 1 1000 false]⟩,
  ⟨0x414, 0, 1, 0, 1, 0x3E8, [fr 15 0 .rwx 10 1000 false]⟩,
  ⟨0x418, 0, 1, 0, 1, 0x4, [fd 7 0 .rwx]⟩,
  ⟨0x41C, 0, 1, 0, 1, 0x0, []⟩
]

/-- The registers of the CMP block (04_composition.md). -/
def regsCMP : List RegDef := [
  ⟨0x000, 0, 1, 0, 1, 0x0, [fd 1 1 .rw, fd 0 0 .rw]⟩,
  ⟨0x004, 0, 1, 0, 1, 0x0, [fd 2 2 .w1c, fd 1 1 .w1c]⟩,
  ⟨0x008, 0, 1, 0, 1, 0x0, []⟩,
  ⟨0x010, 0, 1, 0, 1, 0x0, [fd 31 12 .rw]⟩,
  ⟨0x014, 0, 1, 0, 1, 0x10, [fd 7 0 .rw]⟩,
  ⟨0x018, 0, 1, 0, 1, 0x2, [fd 1 0 .rw]⟩,
  ⟨0x020, 0, 1, 0, 1, 0x0, [fd 31 12 .rw]⟩,
  ⟨0x024, 0, 1, 0, 1, 0x10, [fd 7 0 .rw]⟩,
  ⟨0x028, 0, 1, 0, 1, 0x0, [fd 31 12 .rw]⟩,
  ⟨0x02C, 0, 1, 0, 1, 0x10, [fd 7 0 .rw]⟩,
  ⟨0x030, 0, 1, 0, 1, 0x0, [fd 31 12 .rw]⟩,
  ⟨0x034, 0, 1, 0, 1, 0x10, [fd 7 0 .rw]⟩,
  ⟨0x038, 0, 1, 0, 1, 0x0, [fd 31 12 .rw]⟩,
  ⟨0x03C, 0, 1, 0, 1, 0x10, [fd 7 0 .rw]⟩,
  ⟨0x040, 0, 1, 0, 1, 0x0, [fd 10 0 .rw]⟩,
  ⟨0x044, 0, 1, 0, 1, 0x0, []⟩,
  ⟨0x048, 0, 1, 0, 1, 0xBB80, [fr 16 0 .rw 1000 96000 false]⟩,
  ⟨0x04C, 0, 1, 0, 1, 0x384, [fr 9 0 .rw 500 950 false]⟩,
  ⟨0x050, 0, 1, 0, 1, 0x1F4, [fr 9 0 .rw 100 1000 false]⟩,
  ⟨0x054, 0, 1, 0, 1, 0x100, [fr 12 0 .rw 64 4096 false]⟩,
  ⟨0x058, 0, 1, 0, 1, 0x4, [fr 7 0 .rw 1 64 false]⟩,
  ⟨0x05C, 0, 1, 0, 1, 0x40, [fd 12 0 .rw]⟩,
  ⟨0x060, 0, 1, 0, 1, 0x0, []⟩,
  ⟨0x064, 0, 1, 0, 1, 0x0, []⟩,
  ⟨0x068, 0, 1, 0, 1, 0x0, []⟩,
  ⟨0x06C, 0, 1, 0, 1, 0x0, []⟩,
  ⟨0x070, 0, 1, 0, 1, 0x0, []⟩,
  ⟨0x074, 0, 1, 0, 1, 0x0, []⟩,
  ⟨0x078, 0, 1, 0, 1, 0x0, []⟩,
  ⟨0x07C, 0, 1, 0, 1, 0x0, []⟩,
  ⟨0x080, 0x4, 8, 0, 1, 0x0, []⟩,
  ⟨0x100, 0x10, 8, 0, 1, 0x0, [fr 29 16 .rw 0 10240 true, fr 13 0 .rw 0 16383 true]⟩,
  ⟨0x104, 0x10, 8, 0, 1, 0x0, [fr 23 0 .rw 0 16777215 true]⟩,
  ⟨0x108, 0x10, 8, 0, 1, 0x0, [fr 31 8 .rw 0 16777215 true, fr 1 1 .rw 0 1 true, fr 0 0 .rw 0 1 true]⟩,
  ⟨0x10C, 0x10, 8, 0, 1, 0x7D, [fd 9 0 .rw]⟩,
  ⟨0x200, 0x10, 16, 0x4, 4, 0x0, [fr 27 16 .rw 0 4095 true, fr 5 0 .rw 0 63 true]⟩,
  ⟨0x400, 0, 1, 0, 1, 0x20000, [fd 17 16 .rwx, fd 15 0 .rwx]⟩
]

/-- The registers of the COL block (05_colander.md). -/
def regsCOL : List RegDef := [
  ⟨0x000, 0, 1, 0, 1, 0x0, [fd 0 0 .rw]⟩,
  ⟨0x004, 0, 1, 0, 1, 0x0, [fd 2 2 .w1c, fd 1 1 .w1c, fd 0 0 .w1c]⟩,
  ⟨0x010, 0x4, 8, 0, 1, 0x0, []⟩,
  ⟨0x030, 0x4, 8, 0, 1, 0x0, []⟩,
  ⟨0x050, 0, 1, 0, 1, 0x0, []⟩,
  ⟨0x054, 0, 1, 0, 1, 0x0, []⟩,
  ⟨0x058, 0, 1, 0, 1, 0x0, [fd 31 0 .rw]⟩,
  ⟨0x05C, 0, 1, 0, 1, 0x0, [fd 15 0 .rw]⟩,
  ⟨0x060, 0, 1, 0, 1, 0x0, [fd 10 8 .wo, fd 6 4 .wo, fd 1 0 .wo]⟩,
  ⟨0x0D0, 0x4, 8, 0, 1, 0x0, [fd 0 0 .rw]⟩,
  ⟨0x080, 0x8, 8, 0, 1, 0x0, []⟩,
  ⟨0x084, 0x8, 8, 0, 1, 0x0, []⟩,
  ⟨0x0C0, 0, 1, 0, 1, 0x0, []⟩,
  ⟨0x0C4, 0, 1, 0, 1, 0x0, [fr 5 0 .rw 0 63 true]⟩,
  ⟨0x100, 0, 1, 0, 1, 0x0, [fd 31 31 .rw, fd 11 0 .rw]⟩,
  ⟨0x104, 0, 1, 0, 1, 0x0, [fd 31 31 .rw, fd 30 28 .rw, fd 27 25 .rw, fd 24 14 .rw, fd 13 12 .rw, fd 11 10 .rw]⟩,
  ⟨0x108, 0, 1, 0, 1, 0x0, []⟩,
  ⟨0x10C, 0, 1, 0, 1, 0x0, []⟩,
  ⟨0x110, 0, 1, 0, 1, 0x0, []⟩,
  ⟨0x114, 0, 1, 0, 1, 0x0, []⟩,
  ⟨0x400, 0, 1, 0, 1, 0xA8000, [fr 23 16 .rwx 1 255 false, fr 15 8 .rwx 1 255 false, fd 1 1 .rwx, fd 0 0 .rwx]⟩
]

/-- The registers of the FLW block (07_flowstone_energy.md). -/
def regsFLW : List RegDef := [
  ⟨0x000, 0, 1, 0, 1, 0x0, [fd 1 1 .rw, fd 0 0 .rw]⟩,
  ⟨0x004, 0, 1, 0, 1, 0x0, [fd 3 3 .w1c, fd 2 2 .w1c, fd 1 1 .w1c]⟩,
  ⟨0x008, 0, 1, 0, 1, 0x0, []⟩,
  ⟨0x010, 0x4, 6, 0, 1, 0x82300280, [fd 31 31 .rw, fr 27 24 .rw 1 15 false, fr 23 20 .rw 0 8 false, fd 19 12 .rw, fd 11 0 .rw]⟩,
  ⟨0x030, 0x4, 6, 0, 1, 0x28D8, [fd 23 16 .rw, fd 15 8 .rw, fd 7 0 .rw]⟩,
  ⟨0x050, 0x4, 6, 0, 1, 0x0, []⟩,
  ⟨0x070, 0x4, 6, 0, 1, 0x0, []⟩,
  ⟨0x090, 0x4, 6, 0, 1, 0x0, []⟩,
  ⟨0x0B0, 0, 1, 0, 1, 0x0, [fd 6 4 .rw, fr 2 0 .rw 0 5 false]⟩,
  ⟨0x0B4, 0, 1, 0, 1, 0x0, []⟩,
  ⟨0x0C0, 0, 1, 0, 1, 0xC8, [fr 15 0 .rw 20 10000 false]⟩,
  ⟨0x0C4, 0, 1, 0, 1, 0x64003F00, [fr 31 24 .rw 10 255 false, fd 21 16 .rw, fd 13 8 .rw, fd 0 0 .rw]⟩,
  ⟨0x0C8, 0, 1, 0, 1, 0x23001E0, [fd 27 16 .rw, fd 11 0 .rw]⟩,
  ⟨0x0CC, 0, 1, 0, 1, 0x0, [fd 31 16 .rw, fd 15 0 .rw]⟩,
  ⟨0x0D0, 0, 1, 0, 1, 0x0, []⟩,
  ⟨0x0E0, 0, 1, 0, 1, 0x0, []⟩,
  ⟨0x0E4, 0, 1, 0, 1, 0x0, []⟩,
  ⟨0x100, 0x8, 8, 0, 1, 0x80808080, []⟩,
  ⟨0x104, 0x8, 8, 0, 1, 0x8080, []⟩,
  ⟨0x400, 0, 1, 0, 1, 0x10, [fr 7 0 .rwx 1 255 false]⟩,
  ⟨0x404, 0, 1, 0, 1, 0x0, [fd 0 0 .wo]⟩,
  ⟨0x408, 0, 1, 0, 1, 0x4E4, [fr 11 8 .rwx 1 8 false, fd 7 0 .rwx]⟩,
  ⟨0x410, 0x4, 6, 0, 1, 0x0, [fr 5 4 .rwx 0 3 true, fr 3 2 .rwx 0 3 true, fr 1 0 .rwx 0 3 true]⟩,
  ⟨0x800, 0x80, 12, 0x4, 16, 0x0, [fr 31 0 .rwx 0 4294967295 true]⟩,
  ⟨0xE00, 0x80, 6, 0x8, 13, 0x0, [fr 31 24 .rwx 0 255 true, fr 23 16 .rwx 0 255 true, fr 15 8 .rwx 0 255 true, fr 7 0 .rwx 0 255 true]⟩,
  ⟨0xE04, 0x80, 6, 0x8, 13, 0x0, [fr 31 24 .rwx 0 255 true, fr 23 16 .rwx 0 255 true, fr 15 8 .rwx 0 255 true, fr 7 0 .rwx 0 255 true]⟩
]

/-- The registers of the NZH block (06_nozzle_health.md). -/
def regsNZH : List RegDef := [
  ⟨0x000, 0, 1, 0, 1, 0x0, [fd 1 1 .rw, fd 0 0 .rw]⟩,
  ⟨0x004, 0, 1, 0, 1, 0x600311, [fr 23 16 .rw 1 255 false, fd 11 8 .rw, fr 5 4 .rw 1 3 false, fd 2 1 .rw, fd 0 0 .rw]⟩,
  ⟨0x008, 0, 1, 0, 1, 0x1F0, [fd 10 0 .rw]⟩,
  ⟨0x00C, 0, 1, 0, 1, 0x10, [fr 5 0 .rw 1 63 false]⟩,
  ⟨0x010, 0, 1, 0, 1, 0xC8, [fr 15 0 .rw 10 10000 false]⟩,
  ⟨0x014, 0, 1, 0, 1, 0x1BBCF, [fd 17 0 .rw]⟩,
  ⟨0x018, 0, 1, 0, 1, 0x0, [fd 3 3 .w1c, fd 2 2 .w1c, fd 1 1 .w1c]⟩,
  ⟨0x020, 0, 1, 0, 1, 0x0, [fd 31 12 .rw]⟩,
  ⟨0x024, 0, 1, 0, 1, 0x10, [fd 7 0 .rw]⟩,
  ⟨0x028, 0, 1, 0, 1, 0x0, []⟩,
  ⟨0x02C, 0, 1, 0, 1, 0x0, [fd 12 0 .rw]⟩,
  ⟨0x030, 0, 1, 0, 1, 0x0, []⟩,
  ⟨0x034, 0, 1, 0, 1, 0x0, [fd 16 16 .wo]⟩,
  ⟨0x040, 0x8, 8, 0, 1, 0x0, [fd 31 31 .rw, fd 30 30 .rw, fd 26 24 .rw]⟩,
  ⟨0x044, 0x8, 8, 0, 1, 0x0, [fd 31 0 .rw]⟩,
  ⟨0x080, 0x4, 6, 0, 1, 0x64E020, [fd 23 16 .rw, fd 15 8 .rw, fd 7 0 .rw]⟩,
  ⟨0x0A0, 0, 1, 0, 1, 0x0, [fd 31 31 .rw, fd 15 13 .rw, fr 12 0 .rw 0 7679 false]⟩,
  ⟨0x0A4, 0, 1, 0, 1, 0x0, [fd 7 7 .rw, fd 2 0 .rw]⟩,
  ⟨0x0A8, 0, 1, 0, 1, 0x0, []⟩,
  ⟨0x0B0, 0, 1, 0, 1, 0x0, []⟩,
  ⟨0x0B4, 0, 1, 0, 1, 0x0, []⟩,
  ⟨0x0B8, 0, 1, 0, 1, 0x0, []⟩,
  ⟨0x0BC, 0, 1, 0, 1, 0x0, []⟩,
  ⟨0x0C0, 0, 1, 0, 1, 0x0, []⟩,
  ⟨0x0C4, 0, 1, 0, 1, 0x0, []⟩,
  ⟨0x0C8, 0, 1, 0, 1, 0x0, []⟩,
  ⟨0x400, 0, 1, 0, 1, 0x80000, [fr 19 16 .rwx 0 8 false, fd 15 8 .rwx, fd 7 0 .rwx]⟩
]

/-- The registers of the STR block (11_structure_image.md). -/
def regsSTR : List RegDef := [
  ⟨0x000, 0, 1, 0, 1, 0x0, [fd 1 1 .w1s, fd 0 0 .rw]⟩,
  ⟨0x004, 0, 1, 0, 1, 0x0, []⟩,
  ⟨0x010, 0, 1, 0, 1, 0x0, [fd 31 2 .rw]⟩,
  ⟨0x014, 0, 1, 0, 1, 0x0, [fd 7 0 .rw]⟩,
  ⟨0x018, 0, 1, 0, 1, 0x0, [fr 18 0 .rw 192 262144 false]⟩,
  ⟨0x01C, 0, 1, 0, 1, 0x0, [fd 0 0 .wo]⟩,
  ⟨0x020, 0, 1, 0, 1, 0x0, []⟩,
  ⟨0x024, 0, 1, 0, 1, 0x0, [fd 31 0 .rw]⟩,
  ⟨0x028, 0, 1, 0, 1, 0x0, [fd 15 0 .rw]⟩,
  ⟨0x02C, 0, 1, 0, 1, 0x0, [fd 1 0 .wo]⟩,
  ⟨0x030, 0, 1, 0, 1, 0x0, []⟩,
  ⟨0x034, 0, 1, 0, 1, 0x0, []⟩,
  ⟨0x038, 0, 1, 0, 1, 0x0, []⟩,
  ⟨0x03C, 0, 1, 0, 1, 0x0, []⟩,
  ⟨0x040, 0, 1, 0, 1, 0x0, []⟩,
  ⟨0x044, 0, 1, 0, 1, 0x0, []⟩,
  ⟨0x048, 0, 1, 0, 1, 0x0, []⟩,
  ⟨0x04C, 0, 1, 0, 1, 0x0, []⟩,
  ⟨0x050, 0, 1, 0, 1, 0x0, []⟩,
  ⟨0x054, 0, 1, 0, 1, 0x0, [fd 31 0 .rwl]⟩,
  ⟨0x058, 0, 1, 0, 1, 0x0, [fd 31 12 .rwl]⟩,
  ⟨0x05C, 0, 1, 0, 1, 0x10, [fd 7 0 .rwl]⟩,
  ⟨0x060, 0, 1, 0, 1, 0x0, []⟩,
  ⟨0x400, 0, 1, 0, 1, 0x7D00010, [fr 31 16 .rwx 200 10000 false, fr 7 0 .rwx 4 255 false]⟩
]

/-- The registers of each HPk (08_head_link.md, 09_head_protection.md). -/
def regsHP : List RegDef := [
  ⟨0x000, 0, 1, 0, 1, 0x4, [fd 4 4 .wo, fd 3 3 .wo, fd 2 2 .rw, fd 1 1 .rw, fd 0 0 .rw]⟩,
  ⟨0x004, 0, 1, 0, 1, 0x0, [fd 24 24 .w1c, fd 23 23 .w1c, fd 22 22 .w1c, fd 21 21 .w1c, fd 20 20 .w1c, fd 19 19 .w1c, fd 18 18 .w1c, fd 17 17 .w1c, fd 16 16 .w1c]⟩,
  ⟨0x008, 0, 1, 0, 1, 0x0, []⟩,
  ⟨0x00C, 0, 1, 0, 1, 0x0, []⟩,
  ⟨0x010, 0, 1, 0, 1, 0x0, []⟩,
  ⟨0x014, 0, 1, 0, 1, 0x0, []⟩,
  ⟨0x018, 0, 1, 0, 1, 0x40, [fr 7 4 .rw 1 8 false, fr 1 0 .rw 0 2 false]⟩,
  ⟨0x01C, 0, 1, 0, 1, 0x0, [fd 11 0 .rw]⟩,
  ⟨0x020, 0, 1, 0, 1, 0x0, [fd 21 16 .rw, fd 13 8 .rw, fd 5 0 .rw]⟩,
  ⟨0x024, 0, 1, 0, 1, 0x0, [fd 31 31 .rw, fd 9 0 .rw]⟩,
  ⟨0x028, 0, 1, 0, 1, 0x0, []⟩,
  ⟨0x02C, 0, 1, 0, 1, 0x32000A, [fr 23 16 .rw 1 255 false, fr 7 0 .rw 1 255 false]⟩,
  ⟨0x040, 0, 1, 0, 1, 0x0, []⟩,
  ⟨0x044, 0, 1, 0, 1, 0x0, []⟩,
  ⟨0x048, 0, 1, 0, 1, 0x0, []⟩,
  ⟨0x04C, 0, 1, 0, 1, 0x0, []⟩,
  ⟨0x050, 0, 1, 0, 1, 0x0, []⟩,
  ⟨0x054, 0, 1, 0, 1, 0x0, []⟩,
  ⟨0x058, 0, 1, 0, 1, 0x0, []⟩,
  ⟨0x400, 0, 1, 0, 1, 0x0, [fd 31 31 .wo, fd 15 8 .rwx, fd 7 0 .rwx]⟩,
  ⟨0x404, 0, 1, 0, 1, 0x0, [fd 31 0 .rwx]⟩,
  ⟨0x408, 0, 1, 0, 1, 0x0, []⟩,
  ⟨0x40C, 0, 1, 0, 1, 0x0, []⟩,
  ⟨0x410, 0, 1, 0, 1, 0x0, [fr 9 8 .rwx 0 2 false, fd 4 4 .rwx]⟩,
  ⟨0x414, 0, 1, 0, 1, 0x2, [fr 10 8 .rwx 0 2 false, fr 2 0 .rwx 0 4 false]⟩,
  ⟨0x100, 0, 1, 0, 1, 0x12C, [fr 9 0 .rw 50 800 false]⟩,
  ⟨0x104, 0, 1, 0, 1, 0x100010, [fr 22 16 .rw 1 64 false]⟩,
  ⟨0x108, 0, 1, 0, 1, 0xFFFFFFF, [fd 27 0 .rw]⟩,
  ⟨0x10C, 0, 1, 0, 1, 0x4B00410, [fd 27 16 .rw, fd 11 0 .rw]⟩,
  ⟨0x110, 0, 1, 0, 1, 0x500370, [fr 27 16 .rw 16 480 false, fd 11 0 .rw]⟩,
  ⟨0x114, 0, 1, 0, 1, 0x400320, []⟩,
  ⟨0x118, 0, 1, 0, 1, 0x4B00410, []⟩,
  ⟨0x11C, 0, 1, 0, 1, 0xFFFFFFF, []⟩,
  ⟨0x120, 0, 1, 0, 1, 0x0, []⟩,
  ⟨0x124, 0, 1, 0, 1, 0x0, []⟩,
  ⟨0x128, 0, 1, 0, 1, 0x0, []⟩,
  ⟨0x130, 0, 1, 0, 1, 0x0, [fd 9 9 .w1c, fd 8 8 .w1c, fd 7 7 .w1c, fd 6 6 .w1c]⟩,
  ⟨0x134, 0, 1, 0, 1, 0x0, []⟩,
  ⟨0x138, 0, 1, 0, 1, 0x0, []⟩,
  ⟨0x13C, 0, 1, 0, 1, 0x0, []⟩,
  ⟨0x140, 0, 1, 0, 1, 0x0, []⟩,
  ⟨0x144, 0, 1, 0, 1, 0x0, []⟩,
  ⟨0x420, 0, 1, 0, 1, 0x500, [fr 11 8 .rwx 3 15 false, fd 0 0 .rwx]⟩
]

/-- The registers of the FAB block (12_voundyo_fabric.md). -/
def regsFAB : List RegDef := [
  ⟨0x000, 0, 1, 0, 1, 0x0, [fr 3 2 .rw 0 1 false, fd 1 1 .rw, fd 0 0 .rw]⟩,
  ⟨0x004, 0, 1, 0, 1, 0x0, []⟩,
  ⟨0x008, 0, 1, 0, 1, 0x0, [fd 11 11 .w1c, fd 10 10 .w1c, fd 9 9 .w1c, fd 8 8 .w1c]⟩,
  ⟨0x010, 0x10, 3, 0, 1, 0x0, [fd 1 1 .wo, fd 0 0 .wo]⟩,
  ⟨0x014, 0x10, 3, 0, 1, 0x0, []⟩,
  ⟨0x018, 0x10, 3, 0, 1, 0x0, []⟩,
  ⟨0x01C, 0x10, 3, 0, 1, 0x0, []⟩,
  ⟨0x040, 0, 1, 0, 1, 0x0, []⟩,
  ⟨0x044, 0, 1, 0, 1, 0x0, []⟩,
  ⟨0x050, 0, 1, 0, 1, 0x11080, [fd 16 16 .rw, fr 15 8 .rw 4 255 false, fd 7 0 .rw]⟩,
  ⟨0x054, 0, 1, 0, 1, 0x0, []⟩,
  ⟨0x058, 0, 1, 0, 1, 0x0, []⟩,
  ⟨0x05C, 0x4, 3, 0, 1, 0x0, [fd 15 0 .rw]⟩,
  ⟨0x070, 0, 1, 0, 1, 0x0, [fd 31 12 .rw]⟩,
  ⟨0x074, 0, 1, 0, 1, 0x10, [fd 7 0 .rw]⟩,
  ⟨0x078, 0, 1, 0, 1, 0x0, [fd 8 0 .rw]⟩,
  ⟨0x07C, 0, 1, 0, 1, 0x0, []⟩,
  ⟨0x080, 0, 1, 0, 1, 0x0, [fd 31 12 .rw]⟩,
  ⟨0x084, 0, 1, 0, 1, 0x10, [fd 7 0 .rw]⟩,
  ⟨0x088, 0, 1, 0, 1, 0x0, []⟩,
  ⟨0x08C, 0, 1, 0, 1, 0x0, [fd 8 0 .rw]⟩,
  ⟨0x090, 0, 1, 0, 1, 0x0, [fd 31 12 .rw]⟩,
  ⟨0x094, 0, 1, 0, 1, 0x10, [fd 7 0 .rw]⟩,
  ⟨0x098, 0, 1, 0, 1, 0x0, [fd 9 0 .rw]⟩,
  ⟨0x09C, 0, 1, 0, 1, 0x0, []⟩,
  ⟨0x0A0, 0, 1, 0, 1, 0x0, []⟩,
  ⟨0x0A4, 0, 1, 0, 1, 0x0, []⟩,
  ⟨0x0B0, 0, 1, 0, 1, 0x3, [fd 31 16 .rw, fd 6 4 .wo, fd 1 1 .rw, fd 0 0 .rw]⟩,
  ⟨0x0B4, 0, 1, 0, 1, 0x0, [fd 2 0 .w1c]⟩,
  ⟨0x0C0, 0, 1, 0, 1, 0x0, []⟩,
  ⟨0x400, 0, 1, 0, 1, 0x4143200, [fr 27 24 .rwx 1 15 false, fr 23 16 .rwx 1 255 false, fr 15 8 .rwx 10 255 false]⟩,
  ⟨0x404, 0, 1, 0, 1, 0x17, [fr 7 4 .rwx 1 15 false, fr 3 0 .rwx 1 15 false]⟩,
  ⟨0x408, 0, 1, 0, 1, 0x3E81020, [fr 31 16 .rwx 100 65535 false, fr 15 8 .rwx 1 255 false, fr 7 0 .rwx 4 255 false]⟩
]

/-- The registers of the HST block (13_host_interface.md). -/
def regsHST : List RegDef := [
  ⟨0x000, 0, 1, 0, 1, 0x0, [fd 0 0 .rw]⟩,
  ⟨0x004, 0, 1, 0, 1, 0x0, []⟩,
  ⟨0x008, 0, 1, 0, 1, 0x80640000, []⟩,
  ⟨0x00C, 0, 1, 0, 1, 0x0, []⟩,
  ⟨0x010, 0, 1, 0, 1, 0x0, []⟩,
  ⟨0x014, 0, 1, 0, 1, 0x0, []⟩,
  ⟨0x040, 0x18, 16, 0, 1, 0x0, [fd 31 12 .rw]⟩,
  ⟨0x044, 0x18, 16, 0, 1, 0x0, [fd 31 0 .rw]⟩,
  ⟨0x048, 0x18, 16, 0, 1, 0x6, [fd 31 31 .rw, fd 19 16 .rw, fd 14 12 .rw, fr 3 0 .rw 6 12 false]⟩,
  ⟨0x04C, 0x18, 16, 0, 1, 0x0, [fd 11 0 .rw]⟩,
  ⟨0x050, 0x18, 16, 0, 1, 0x0, [fd 31 31 .w1c]⟩,
  ⟨0x1C0, 0x18, 16, 0, 1, 0x0, [fd 31 12 .rw]⟩,
  ⟨0x1C4, 0x18, 16, 0, 1, 0x0, [fd 31 0 .rw]⟩,
  ⟨0x1C8, 0x18, 16, 0, 1, 0x6, [fd 31 31 .rw, fd 29 24 .rw, fd 21 16 .rw, fd 15 8 .rw, fr 3 0 .rw 6 12 false]⟩,
  ⟨0x1CC, 0x18, 16, 0, 1, 0x0, [fd 11 0 .rw]⟩,
  ⟨0x1D0, 0x18, 16, 0, 1, 0x0, []⟩,
  ⟨0x340, 0, 1, 0, 1, 0x0, [fd 31 12 .rw]⟩,
  ⟨0x344, 0, 1, 0, 1, 0x0, [fd 31 0 .rw]⟩,
  ⟨0x348, 0, 1, 0, 1, 0xC, [fd 31 31 .rw, fd 29 24 .rw, fd 21 16 .rw, fd 15 8 .rw, fr 3 0 .rw 6 16 false]⟩,
  ⟨0x34C, 0, 1, 0, 1, 0x0, []⟩,
  ⟨0x350, 0, 1, 0, 1, 0x0, [fd 31 0 .rw]⟩,
  ⟨0x354, 0, 1, 0, 1, 0x0, [fd 31 2 .rw]⟩,
  ⟨0x358, 0, 1, 0, 1, 0x0, [fd 31 0 .rw]⟩,
  ⟨0x400, 0, 1, 0, 1, 0x8, [fr 4 0 .rwx 1 16 false]⟩
]

/-- The registers of the CAL block (20_calibration.md). -/
def regsCAL : List RegDef := [
  ⟨0x000, 0, 1, 0, 1, 0x0, [fd 0 0 .rw]⟩,
  ⟨0x004, 0, 1, 0, 1, 0x0, [fd 31 31 .wo, fd 30 30 .wo, fd 15 8 .wo, fd 7 0 .wo]⟩,
  ⟨0x008, 0, 1, 0, 1, 0x0, []⟩,
  ⟨0x00C, 0, 1, 0, 1, 0x0, []⟩,
  ⟨0x010, 0, 1, 0, 1, 0x0, []⟩,
  ⟨0x014, 0, 1, 0, 1, 0x0, [fd 16 16 .rw, fd 15 0 .rw]⟩,
  ⟨0x018, 0, 1, 0, 1, 0x1388, [fr 15 0 .rw 100 60000 false]⟩,
  ⟨0x01C, 0, 1, 0, 1, 0x0, [fd 15 0 .rw]⟩,
  ⟨0x020, 0, 1, 0, 1, 0x10104040, [fr 31 24 .rw 1 255 false, fr 23 16 .rw 1 255 false, fr 15 8 .rw 1 255 false, fr 7 0 .rw 1 255 false]⟩,
  ⟨0x024, 0, 1, 0, 1, 0x8101002, [fd 31 24 .rw, fd 23 16 .rw, fd 15 8 .rw, fd 7 0 .rw]⟩,
  ⟨0x028, 0, 1, 0, 1, 0x8004004, [fd 31 24 .rw, fd 23 8 .rw, fd 7 0 .rw]⟩,
  ⟨0x02C, 0, 1, 0, 1, 0x3E8, [fd 23 0 .rw]⟩,
  ⟨0x030, 0, 1, 0, 1, 0x0, [fd 31 0 .rw]⟩,
  ⟨0x034, 0, 1, 0, 1, 0x0, [fd 31 0 .rw]⟩,
  ⟨0x038, 0, 1, 0, 1, 0x104000, [fr 23 16 .rw 4 255 false, fr 15 8 .rw 1 255 false, fd 1 1 .rw, fd 0 0 .rw]⟩,
  ⟨0x03C, 0, 1, 0, 1, 0x400020, [fd 31 16 .rw, fr 15 0 .rw 8 65535 false]⟩,
  ⟨0x040, 0, 1, 0, 1, 0x0, [fd 23 0 .rw]⟩,
  ⟨0x050, 0, 1, 0, 1, 0x0, [fd 23 16 .rw, fd 15 8 .rw, fd 7 0 .rw]⟩,
  ⟨0x054, 0, 1, 0, 1, 0x0, [fd 31 0 .rw]⟩,
  ⟨0x058, 0, 1, 0, 1, 0x0, []⟩,
  ⟨0x05C, 0, 1, 0, 1, 0x0, []⟩,
  ⟨0x060, 0, 1, 0, 1, 0x0, []⟩,
  ⟨0x400, 0, 1, 0, 1, 0x0, [fd 0 0 .rwx]⟩
]

/-- The registers of the SEC block (18_otp_lifecycle_security.md). -/
def regsSEC : List RegDef := [
  ⟨0x000, 0, 1, 0, 1, 0x0, [fd 1 1 .w1s, fd 0 0 .rw]⟩,
  ⟨0x004, 0, 1, 0, 1, 0x0, [fd 1 0 .rw]⟩,
  ⟨0x008, 0, 1, 0, 1, 0x0, []⟩,
  ⟨0x00C, 0, 1, 0, 1, 0x0, []⟩,
  ⟨0x010, 0, 1, 0, 1, 0x0, []⟩,
  ⟨0x014, 0, 1, 0, 1, 0x0, []⟩,
  ⟨0x018, 0, 1, 0, 1, 0x0, []⟩,
  ⟨0x020, 0, 1, 0, 1, 0x41111, [fd 19 0 .rwl]⟩,
  ⟨0x024, 0, 1, 0, 1, 0x0, [fd 4 0 .w1c]⟩,
  ⟨0x028, 0, 1, 0, 1, 0x0, []⟩,
  ⟨0x030, 0, 1, 0, 1, 0x0, []⟩,
  ⟨0x034, 0, 1, 0, 1, 0x0, []⟩,
  ⟨0x038, 0, 1, 0, 1, 0x0, []⟩,
  ⟨0x040, 0, 1, 0, 1, 0x103E8, [fd 16 16 .rwl, fr 15 0 .rwl 10 60000 false]⟩,
  ⟨0x044, 0, 1, 0, 1, 0x0, [fd 15 0 .wo]⟩,
  ⟨0x048, 0, 1, 0, 1, 0x0, []⟩,
  ⟨0x400, 0, 1, 0, 1, 0x1914, [fr 15 8 .rwx 10 30 false, fr 7 0 .rwx 10 30 false]⟩
]

/-- The registers of the MBX block (13_host_interface.md). -/
def regsMBX : List RegDef := [
  ⟨0x000, 0, 1, 0, 1, 0x0, [fd 0 0 .rw]⟩,
  ⟨0x004, 0, 1, 0, 1, 0x0, []⟩,
  ⟨0x008, 0, 1, 0, 1, 0x0, [fd 31 31 .rw, fd 5 0 .rw]⟩,
  ⟨0x100, 0x48, 8, 0x4, 16, 0x0, [fd 31 0 .rw]⟩,
  ⟨0x140, 0x48, 8, 0, 1, 0x0, [fd 1 1 .wo, fd 0 0 .wo]⟩
]

/-- The registers of the PAD block (16_power_states.md). -/
def regsPAD : List RegDef := [
  ⟨0x000, 0, 1, 0, 1, 0x0, [fd 0 0 .rw]⟩,
  ⟨0x004, 0, 1, 0, 1, 0x0, []⟩,
  ⟨0x008, 0, 1, 0, 1, 0x0, [fd 12 0 .wo]⟩,
  ⟨0x00C, 0, 1, 0, 1, 0x0, []⟩
]

/-- The registers of the DDR block (14_memory.md). -/
def regsDDR : List RegDef := [
  ⟨0x000, 0, 1, 0, 1, 0x0, [fd 2 2 .w1s, fd 1 1 .rw, fd 0 0 .rw]⟩,
  ⟨0x004, 0, 1, 0, 1, 0x0, [fr 9 8 .rwl 0 2 false, fd 4 4 .rwl, fd 0 0 .rwl]⟩,
  ⟨0x008, 0, 1, 0, 1, 0x0, [fd 2 2 .w1c]⟩,
  ⟨0x010, 0, 1, 0, 1, 0x1001, [fr 15 8 .rw 1 255 false, fd 0 0 .rw]⟩,
  ⟨0x014, 0, 1, 0, 1, 0x0, []⟩,
  ⟨0x018, 0, 1, 0, 1, 0x0, []⟩,
  ⟨0x01C, 0, 1, 0, 1, 0x0, []⟩,
  ⟨0x020, 0, 1, 0, 1, 0x0, []⟩,
  ⟨0x024, 0, 1, 0, 1, 0x0, [fd 5 5 .rw, fr 4 0 .rw 0 17 false]⟩,
  ⟨0x028, 0, 1, 0, 1, 0x0, []⟩,
  ⟨0x030, 0, 1, 0, 1, 0x180001, [fr 23 16 .rw 1 168 false, fd 0 0 .rw]⟩,
  ⟨0x034, 0, 1, 0, 1, 0x0, []⟩,
  ⟨0x038, 0, 1, 0, 1, 0x0, []⟩,
  ⟨0x03C, 0, 1, 0, 1, 0x0, [fd 15 0 .rw]⟩,
  ⟨0x040, 0, 1, 0, 1, 0x0, [fd 0 0 .rw]⟩,
  ⟨0x044, 0, 1, 0, 1, 0x1, [fd 0 0 .rw]⟩,
  ⟨0x048, 0, 1, 0, 1, 0x100000, [fr 22 16 .rw 8 48 false]⟩,
  ⟨0x04C, 0, 1, 0, 1, 0x0, []⟩,
  ⟨0x100, 0x10, 8, 0, 1, 0x0, [fd 27 0 .rwl]⟩,
  ⟨0x104, 0x10, 8, 0, 1, 0x0, [fd 27 0 .rwl]⟩,
  ⟨0x108, 0x10, 8, 0, 1, 0x0, [fd 31 31 .rwl, fd 24 16 .rwl, fd 8 0 .rwl]⟩,
  ⟨0x400, 0, 1, 0, 1, 0x14, [fr 7 0 .rwx 1 255 false]⟩
]

/-- The registers of the TKO block (10_takeover_and_availability.md). -/
def regsTKO : List RegDef := [
  ⟨0x000, 0, 1, 0, 1, 0x0, [fd 2 2 .wo, fd 1 1 .rw, fd 0 0 .rw]⟩,
  ⟨0x004, 0, 1, 0, 1, 0x0, []⟩,
  ⟨0x008, 0, 1, 0, 1, 0x0, []⟩,
  ⟨0x00C, 0, 1, 0, 1, 0x0, []⟩,
  ⟨0x010, 0x4, 8, 0, 1, 0x0, []⟩,
  ⟨0x030, 0, 1, 0, 1, 0x0, []⟩,
  ⟨0x034, 0, 1, 0, 1, 0x30064, []⟩,
  ⟨0x038, 0, 1, 0, 1, 0x0, []⟩,
  ⟨0x03C, 0, 1, 0, 1, 0x0, []⟩,
  ⟨0x040, 0, 1, 0, 1, 0x0, []⟩,
  ⟨0x044, 0, 1, 0, 1, 0x1F400C8, [fr 25 16 .rw 100 1000 false, fr 9 0 .rw 50 1000 false]⟩,
  ⟨0x048, 0, 1, 0, 1, 0x3, [fd 1 1 .rw]⟩,
  ⟨0x04C, 0, 1, 0, 1, 0x0, [fd 1 0 .wo]⟩,
  ⟨0x050, 0, 1, 0, 1, 0x0, []⟩,
  ⟨0x054, 0, 1, 0, 1, 0x0, []⟩,
  ⟨0x058, 0, 1, 0, 1, 0x0, []⟩,
  ⟨0x05C, 0, 1, 0, 1, 0x0, []⟩,
  ⟨0x060, 0, 1, 0, 1, 0x1F40000, [fr 25 16 .rw 100 1000 false, fd 1 1 .rw, fd 0 0 .rw]⟩,
  ⟨0x064, 0, 1, 0, 1, 0x0, []⟩,
  ⟨0x068, 0, 1, 0, 1, 0x0, []⟩,
  ⟨0x06C, 0, 1, 0, 1, 0x0, []⟩,
  ⟨0x400, 0, 1, 0, 1, 0x0, [fd 2 2 .rwx, fd 1 1 .rwx, fd 0 0 .rwx]⟩
]

/-- The register table of a block by its block ID (0x00 to 0x1F, block IDs and bases of R46). -/
def blockRegs (id : Nat) : List RegDef :=
  if id = 0 then regsSYS
  else if id = 1 then regsPWR
  else if id = 2 then regsOTP
  else if id = 3 then regsEVR
  else if id = 4 then regsEVC
  else if id = 5 then regsDMA
  else if id = 6 then regsMEM
  else if id = 7 then regsTHM
  else if id = 8 then regsLDL
  else if id = 9 then regsPOS
  else if id = 10 then regsTRK
  else if id = 11 then regsCMP
  else if id = 12 then regsCOL
  else if id = 13 then regsFLW
  else if id = 14 then regsNZH
  else if id = 15 then regsSTR
  else if id = 24 then regsFAB
  else if id = 25 then regsHST
  else if id = 26 then regsCAL
  else if id = 27 then regsSEC
  else if id = 28 then regsMBX
  else if id = 29 then regsPAD
  else if id = 30 then regsDDR
  else if id = 31 then regsTKO
  else if 16 ≤ id ∧ id ≤ 23 then regsHP
  else []

end Sys2Proof.Machine
end

