-- ==== Sys2Proof/Machine/Sparse.lean ====
section
/-!
DEFINITION. Sparse tables: a list of (key, value) pairs with strictly rising keys and no entry equal to what an unlisted
key reads as. The register file and every memory of the model are such tables.
-/

namespace Sys2Proof.Machine

/-- What key k reads as: its entry, or the given default where the table lists none. -/
def sparseGet {α : Type} (d : α) (k : Nat) : List (Nat × α) → α
  | [] => d
  | (j, v) :: r => if j = k then v else sparseGet d k r

/-- A table without its entries for key k. -/
def sparseDrop {α : Type} (k : Nat) (l : List (Nat × α)) : List (Nat × α) := l.filter (fun e => e.1 != k)

/-- Insert an entry before the first larger key. -/
def sparseIns {α : Type} (k : Nat) (v : α) : List (Nat × α) → List (Nat × α)
  | [] => [(k, v)]
  | (j, w) :: r => if k < j then (k, v) :: (j, w) :: r else (j, w) :: sparseIns k v r

/-- A write: an entry equal to the default of its key is removed, so that equal tables are equal data. -/
def sparsePut {α : Type} [DecidableEq α] (d : α) (k : Nat) (v : α) (l : List (Nat × α)) : List (Nat × α) :=
  if v = d then sparseDrop k l else sparseIns k v (sparseDrop k l)

/-- Every entry of a key that meets p goes back to its default. -/
def sparseClear {α : Type} (p : Nat → Bool) (l : List (Nat × α)) : List (Nat × α) := l.filter (fun e => !p e.1)

/-- The canonical form: keys strictly rising, no entry equal to the default of its key. -/
abbrev SparseWf {α : Type} (d : Nat → α) (l : List (Nat × α)) : Prop :=
  (l.map Prod.fst).Pairwise (· < ·) ∧ ∀ e ∈ l, e.2 ≠ d e.1

end Sys2Proof.Machine
end

