-- ==== Sys2Proof/Machine/StateFab.lean ====
section
/-!
DEFINITION. State of the fabric beside its registers: links, flows, the map, the time exchange.
-/

namespace Sys2Proof.Machine

/-- A fabric port (R417 to R422, R434, R440, R456 to R458). Credits are counted as returned and used; what a link starts with
is Config.fabricCredits. -/
structure FabPort where
  /-- It has been UP or was told to retrain: it trains under a Ladle grant (R421). -/
  retrain : Bool := false
  /-- LSEQ of the next frame sent, frames not yet acknowledged, LSEQ expected next, a NAK sent for it. -/
  txSeq : Nat := 0
  unacked : List (Nat × FabFrame) := []
  rxSeq : Nat := 0
  /-- Frames that wait for a credit or for the link, oldest first. -/
  out : List FabFrame := []
  used : Vector Nat 5 := Vector.replicate 5 0
  back : Vector Nat 5 := Vector.replicate 5 0
  /-- Data frames sent since the last management frame while one waited (R435). -/
  turn : Nat := 0
  /-- When a down lane is next retried (R420). -/
  laneRetry : Option Nat := none
  /-- The peer asked for SLEEP or DEEP (R456, R457), and this node did. -/
  peerAsks : Nat := 0
  weAsk : Nat := 0
  beaconNext : Option Nat := none
  beaconEnd : Nat := 0
  deriving DecidableEq, Repr

/-- A descriptor that FAB is sending (R452): slot, kind, destination, frames not yet acknowledged with their flow sequence
numbers, when they were sent, resends made. -/
structure TxDesc where
  slot : Nat
  kind : Nat
  dest : Nat
  frames : List FabFrame
  sentAt : Nat
  tries : Nat := 0
  deriving DecidableEq, Repr

/-- A node of the map (R426): its TOPO and when it came. -/
structure MapNode where
  topo : Topo
  at' : Nat
  deriving DecidableEq, Repr

/-- FAB and LC's fabric work. -/
structure FabSt where
  ports : Vector FabPort 3 := Vector.replicate 3 {}
  /-- Next SEQ to each destination, and destinations whose next frame carries FLOW_START (R438). -/
  txFlows : List (Nat × Nat) := []
  flowStart : List Nat := []
  /-- SEQ accepted next from each source. -/
  rxFlows : List (Nat × Nat) := []
  /-- Broadcast windows: source and plane, highest SEQ, mask of the 64 below and at it (R432). -/
  bcast : List (Nat × Nat × Nat) := []
  bcastSeq : Vector Nat 3 := Vector.replicate 3 0
  tx : Option TxDesc := none
  /-- An item being assembled in the inbox: its source and the bytes so far (R453). -/
  items : List (Nat × List Nat) := []
  /-- Bulk transfers in progress: source, XFER, bytes received, bad (R454). -/
  bulks : List (Nat × Nat × Nat × Bool) := []
  map : List MapNode := []
  mapChanged : Bool := false
  /-- First direction to each ring position, as LC last wrote it: 1 FE, 2 FW (R431). -/
  dirs : List Nat := []
  topoSeq : Nat := 0
  topoAt : Nat := 0
  topoDue : Bool := false
  topoSent : List Nat := []
  /-- The time exchange in progress: TSEQ, t1 in 1/64 ns (R446); when it began; exchanges in tolerance (R447). -/
  tseq : Nat := 0
  t1 : Option Nat := none
  exchangedAt : Nat := 0
  good : Nat := 0
  /-- CTLE setting and transmit preset of each lane of each port (R683, R687). -/
  ctle : Vector (Vector Nat 2) 3 := Vector.replicate 3 (Vector.replicate 2 0)
  preset : Vector (Vector Nat 2) 3 := Vector.replicate 3 (Vector.replicate 2 0)
  everLocked : Bool := false
  deriving DecidableEq, Repr

end Sys2Proof.Machine
end

