-- ==== Sys2Proof/Machine/StateMem.lean ====
section
/-!
DEFINITION. State of the memories' blocks (MEM, DDR, DMA) beside their registers.
-/

namespace Sys2Proof.Machine

/-- A scratchpad or Grotto access that waits: for its bank to be ready (R506) or for the end of a wipe (R510). -/
structure WaitingAccess where
  init : Initiator
  addr : Nat
  op : MemOp
  deriving DecidableEq, Repr

/-- MEM and DDR beside their registers. -/
structure MemSt where
  waiting : List WaitingAccess := []
  /-- Cause of the wipe in progress (R509). -/
  wipeCause : Nat := 0
  /-- When DDR_CE and each window's DDR_WIN_DENY were last recorded (R515, R524). -/
  ceAt : Option Nat := none
  denyAt : Vector (Option Nat) 8 := Vector.replicate 8 none
  /-- Corrections of each device (key 32 × rank + device), and their counts at the start of the scrub pass (R515, R520). -/
  devCnt : List (Nat × Nat) := []
  devStart : List (Nat × Nat) := []
  /-- The DDR devices have been trained and keep their contents while powered or in self-refresh (R513, R522). -/
  trained : Bool := false
  /-- Refreshes of the DDR devices (R521): counted, and read by nothing. -/
  refreshes : Nat := 0
  /-- When the next scrub burst is due (R519). -/
  scrubAt : Nat := 0
  /-- What DDR training found (R684, R687): read delays, write-leveling delays and read Vrefs of byte lanes 0 to 8, smallest eye. -/
  training : Vector Nat 28 := Vector.replicate 28 0
  deriving DecidableEq, Repr

/-- A grant LDL holds: client (R571), the client's index (port, channel, slot or sweep), resource (0 core, b + 1 bar b),
amount in Ladle current units. -/
structure Grant where
  client : Nat
  idx : Nat
  res : Nat
  amt : Nat
  deriving DecidableEq, Repr

/-- A hardware client's request on its way to LDL or refused; a refused one is asked again at the time given (R571). -/
structure Ask where
  client : Nat
  idx : Nat
  res : Nat
  amt : Nat
  again : Option Nat := none
  deriving DecidableEq, Repr

/-- LDL beside its registers. -/
structure LdlSt where
  /-- Grants held, newest first. -/
  grants : List Grant := []
  asks : List Ask := []
  /-- LDL_SW_RESULT of each initiator (R574). -/
  result : Vector Word 6 := Vector.replicate 6 0
  /-- Bindings: grant slot, item queue slot. -/
  bound : List (Nat × Nat) := []
  refusedAt : Vector (Option Nat) 8 := Vector.replicate 8 none
  /-- Grants withdrawn whose clients have yet to act (R573). -/
  withdrawn : List Grant := []
  deriving DecidableEq, Repr

end Sys2Proof.Machine
end

