-- ==== Sys2Proof/Machine/StateIo.lean ====
section
/-!
DEFINITION. State of the host interface and service firmware, the DMA channels, power, the die model, the fuse controller
and calibration, beside their registers.
-/

namespace Sys2Proof.Machine

/-- A command fetched from a submission ring and not completed (R470, R473): ring, the entry's 64 bytes, the ring's head
after the fetch; for SUBMIT_ITEMS the descriptors admitted so far and the byte offset of the next one. -/
structure HostCmd where
  sq : Nat
  entry : List Nat
  head : Nat
  done : Nat := 0
  ofs : Nat := 0
  deriving DecidableEq, Repr

/-- A completion that waits to be written (R474). -/
structure Completion where
  cq : Nat
  cid : Nat
  sq : Nat
  status : Nat
  r0 : Nat
  r1 : Nat
  head : Nat
  deriving DecidableEq, Repr

/-- HST beside its registers, and the commands that service firmware holds. -/
structure HstSt where
  cmds : List HostCmd := []
  comps : List Completion := []
  /-- The ring served last (R470). -/
  lastSq : Nat := 15
  /-- Completions of each ring, and records, written but not signalled; when the first of them was (R476, R479). -/
  cqUnsig : Vector Nat 16 := Vector.replicate 16 0
  cqFirst : Vector Nat 16 := Vector.replicate 16 0
  recUnsig : Nat := 0
  recFirst : Nat := 0
  /-- The MSI-X message of mailbox 5 is due (R486); MSI-X enabled and masked for the whole function, by configuration. -/
  mbxDue : Bool := false
  msixEn : Bool := false
  msixMask : Bool := false
  /-- Assurance records copied to the record ring, in the count of NZH's queue (R479). -/
  recNext : Nat := 0
  deriving DecidableEq, Repr

/-- What admission knows of a lane's previous admitted item (R177): none since CMP was enabled, an item whose lines it cannot
tell, or its lines. -/
inductive LanePrev where
  | none
  | unknown
  | lines (start stop : Int)
  deriving DecidableEq, Repr

/-- Service firmware and what TC has yet to answer. Commands in progress stay at the head of their ring's commands. -/
structure FwSt where
  /-- Open jobs (R482). -/
  jobs : List Nat := []
  /-- The forwarded TC message that awaits its answer (R484): ring, TAG, when it was sent. -/
  forward : Option (Nat × Nat × Nat) := none
  /-- A heavy item waits for its Ladle grant (R178). -/
  heavy : Bool := false
  /-- The mailboxes whose last write was ignored, as a mask (R493). -/
  mbxRej : Nat := 0
  /-- The ring of the CAL_RUN in progress; the FAB_SENDs in progress: ring and descriptor slot. -/
  calCmd : Option Nat := none
  sends : List (Nat × Nat) := []
  lanePrev : Vector LanePrev 8 := Vector.replicate 8 .none
  /-- TC commands that are answered later: mailbox, TAG, opcode (R487). -/
  tcWait : List (Nat × Nat × Nat) := []
  /-- TC's answers that find the reverse mailbox full: mailbox, TAG, STATUS, result words. -/
  tcOut : List (Nat × Nat × Nat × List Nat) := []
  deriving DecidableEq, Repr

/-- A DMA channel (R530 to R543). State: 0 IDLE, 1 RUN, 2 WAIT_LDL, 3 PAUSING, 4 PAUSED, 5 HALTED. -/
structure DmaCh where
  state : Nat := 0
  err : Nat := 0
  /-- DMA_CH_CFG as written and as last copied; a write or an APPEND that awaits its copy (R539, R540). -/
  cfg : Nat := 3
  cfgForce : Nat := 3
  cfgPend : Bool := false
  late : Bool := false
  next : Nat := 0
  append : Nat := 0
  appWritten : Bool := false
  appPend : Bool := false
  /-- The loaded descriptor: its address and fields, whether the copy descends (R535). -/
  desc : Nat := 0
  loaded : Bool := false
  src : Nat := 0
  dst : Nat := 0
  flags : Nat := 0
  rows : Nat := 0
  len : Nat := 0
  sstride : Int := 0
  dstride : Int := 0
  link : Nat := 0
  down : Bool := false
  /-- Rows finished, and bytes moved of the present row. -/
  rowsDone : Nat := 0
  bytesDone : Nat := 0
  /-- A failed access is repeated at this time, after so many repeats (R542). -/
  again : Option Nat := none
  tries : Nat := 0
  /-- A word that was read and whose write is to be repeated. -/
  hold : Option Nat := none
  faultAddr : Nat := 0
  faultWrite : Bool := false
  aborting : Bool := false
  descs : Nat := 0
  retries : Nat := 0
  retryAt : Option Nat := none
  deriving DecidableEq, Repr

/-- A wake in progress (R562): the stage reached (0 start, 1 regulator, 2 oscillator, 3 memory), when it began, the state
left, the sources, replayed. -/
structure Wake where
  stage : Nat
  start : Nat
  left : Nat
  src : Nat
  replay : Bool
  deriving DecidableEq, Repr

/-- PWR beside its registers. -/
structure PwrSt where
  /-- The cold boot that follows a reset has yet to run. -/
  booting : Bool := true
  /-- Off: no supply but VAON (R547). VAON absent. RESET_L low. -/
  off : Bool := false
  resetLow : Bool := false
  /-- Causes that the next cold boot is for, as SYS_RST_CAUSE bits. -/
  cause : Nat := 0
  prepAt : Nat := 0
  phase2At : Nat := 0
  /-- Voters that answered READY, last first. -/
  ready : List Nat := []
  /-- Last activity (R550), last commit (R561), the timer has expired since. -/
  activeAt : Nat := 0
  commitAt : Nat := 0
  timerDone : Bool := true
  wake : Option Wake := none
  /-- A wake source latched after the commit sample (R559). -/
  replay : Bool := false
  /-- Ports that prepare took to VACANT (R555). -/
  slept : Nat := 0
  /-- The wake sources latched last, and when: a latch in the AON cycle of the clear stays (R553). -/
  latchMask : Nat := 0
  latchAt : Nat := 0
  /-- At an entry: the address of the active image's slot (R742), fabric ports whose peer sleeps (R458), whether service
  firmware ran. -/
  imgAddr : Option Nat := none
  asleep : Nat := 0
  fwWas : Bool := false
  /-- Island currents in mA (R582). -/
  cur : Vector Nat 16 := Vector.replicate 16 0
  deriving DecidableEq, Repr

/-- THM beside its registers (R582 to R591). Temperatures are in 1/16 °C. -/
structure ThmSt where
  rise : Vector Rat 9 := Vector.replicate 9 0
  base : Rat := 0
  dis : Vector Nat 4 := Vector.replicate 4 0
  temp : Vector Int 4 := Vector.replicate 4 0
  /-- Sensors that are valid from the next sample (R586). -/
  readmit : Nat := 0
  /-- The last sample confirmed a trip (R589); a trip is acting; since when every valid sensor reads below 100 °C (R590). -/
  confirmed : Bool := false
  /-- The trip that is to act: its source and temperature. -/
  tripDue : Option (Nat × Int) := none
  tripped : Bool := false
  coolAt : Option Nat := none
  lastRecorded : Bool := false
  deriving DecidableEq, Repr

/-- The OTP command in progress (R598): operation, region, row. -/
structure OtpCmd where
  op : Nat
  region : Nat
  row : Nat
  deriving DecidableEq, Repr

/-- OTP and SEC's watchdog beside their registers. -/
structure OtpSt where
  cmd : Option OtpCmd := none
  /-- A tamper alarm came during the command (R612). -/
  abort : Bool := false
  /-- SECRET reads 0 since an LC_ADVANCE to RMA or SCRAP (R614). -/
  hidden : Bool := false
  kickAt : Nat := 0
  deriving DecidableEq, Repr

/-- CAL beside its registers. -/
structure CalSt where
  startAt : Nat := 0
  /-- The hottest temperature at GO, in 1/16 °C (R686). -/
  hot : Int := 0
  /-- Samples of a SENS_OFS sweep: reference and raw reading (R686). -/
  samples : List (Rat × Int) := []
  /-- The chart's start line, and the errors of the dashes measured, in ticks (R679). -/
  chart : Option Int := none
  dashes : List (Nat × Rat) := []
  /-- Lines issued with DROP, CLAMP or COAST since the chart was placed. -/
  bad : List Int := []
  /-- A lane of the port is off for the sweep (R675). -/
  laneOff : Bool := false
  /-- Encoder threshold targets on their way (R670). -/
  thr : Vector (Option Nat) 2 := Vector.replicate 2 none
  deriving DecidableEq, Repr

end Sys2Proof.Machine
end

