-- ==== Sys2Proof/Machine/StatePipe.lean ====
section
/-!
DEFINITION. State of the PIPE island: item queue and composition, the Colander, Flowstone, nozzle health and the item
accounts, and the line assemblers.
-/

namespace Sys2Proof.Machine

/-- How far an item of the queue has come: it waits for the lane's previous item, it is past its hand-over and waits for
its start line, it is placed, or its composition has ended. -/
inductive ItemStage where
  | queued | waiting | placed | done
  deriving DecidableEq, Repr

/-- An item of the item queue (R142 to R153): the slot that holds its descriptor, its header fields, the composition
settings copied at its hand-over (R181), its start line, its flags (record bits, R236), the CRC of the raster so far
(R166) and the next line to compose. -/
structure Item where
  slot : Nat
  id : Nat := 0
  job : Nat := 0
  lane : Nat := 0
  anchor : Nat := 0
  startField : Nat := 0
  lines : Nat := 0
  stage : ItemStage := .queued
  origin : Nat := 0
  width : Nat := 0
  pitch : Nat := 0
  markOfs : Int := 0
  markSel : Nat := 0
  missPol : Nat := 0
  vmaps : List Nat := []
  start : Int := 0
  flags : Nat := 0
  crc : Nat := 0xFFFFFFFF
  nextLine : Int := 0
  missSeen : Bool := false
  checked : Bool := false
  deriving DecidableEq, Repr

/-- A mark a lane keeps for its MARK items (R145): timestamp in 0.5 ns units and mark input. -/
structure LaneMark where
  ts : Nat
  input : Nat
  deriving DecidableEq, Repr

/-- A PLACE message of the placing partner (R147): the item, its start line, and, once it has placed the item, the lane,
offset, mark input and previous end line with which the node's own candidate is compared. -/
structure PlaceNote where
  id : Nat
  start : Int
  done : Bool := false
  lane : Nat := 0
  ofs : Int := 0
  sel : Nat := 0
  prev : Option Int := none
  deriving DecidableEq, Repr

/-- CMP beside its registers. -/
structure CmpSt where
  /-- The items of the queue in queue order, from the read index on. -/
  items : List Item := []
  /-- The composition frontier W (R170). -/
  w : Int := 0
  /-- Ring tags: key 8192 × tile position + slot, value 1 + web line modulo 2^48 (R169). -/
  tags : List (Nat × Nat) := []
  /-- Per lane: end and start of the previous item placed since EN was set (R143). -/
  laneEnd : Vector (Option Int) 8 := Vector.replicate 8 none
  laneStart : Vector (Option Int) 8 := Vector.replicate 8 none
  /-- Mark records not yet used, per lane, oldest first (R145). -/
  laneMarks : Vector (List LaneMark) 8 := Vector.replicate 8 []
  notes : List PlaceNote := []
  /-- The frontier at the last enabling, and the start line of the first item placed in each lane since (R383). -/
  w0 : Int := 0
  laneFirst : Vector (Option Int) 8 := Vector.replicate 8 none
  /-- The last line assembled had a ring miss (R171). -/
  missRun : Bool := false
  deriving DecidableEq, Repr

/-- Where a redirection of a dead nozzle stands (R206). -/
inductive ReqStage where
  | none | asked | committed
  deriving DecidableEq, Repr

/-- A recipient of a request: its node, the tile position and the column in its numbering, and whether that tile is the
dead nozzle's own (which stops firing the column under HANDOFF). -/
structure Recipient where
  node : Nat
  tp : Nat
  col : Nat
  own : Bool
  deriving DecidableEq, Repr

/-- An entry of the dead-nozzle table (R198): its index, the fields of its word, the exchange of R206 (recipients that have
yet to answer, those that acknowledged, w_a, deadline), the methods that failed (3 HANDOFF, 2 FILL); for FILL and TAKE the
node it acts for and whether the tile gives the column away. -/
structure DntEntry where
  idx : Nat
  port : Nat
  ic : Nat
  col : Nat
  kind : Nat
  method : Nat
  source : Nat
  state : Nat
  stage : ReqStage := .none
  asks : Nat := 0
  wait : List Recipient := []
  acked : List Recipient := []
  wa : Int := 0
  deadline : Nat := 0
  tried : List Nat := []
  owner : Nat := 0
  away : Bool := false
  deriving DecidableEq, Repr

/-- A request that a stitch peer forwarded to its twin partner (R206). -/
structure Relay where
  source : Nat
  tp : Nat
  ic : Nat
  col : Nat
  method : Nat
  ar : Int
  deriving DecidableEq, Repr

/-- A mode notice of TKO (R189): port, lines to fire (3 every line, else the home parity), switch line. -/
structure ModeNotice where
  port : Fin 8
  every : Bool
  line : Int
  deriving DecidableEq, Repr

/-- COL beside its registers. -/
structure ColSt where
  dnt : List DntEntry := []
  /-- Dead nozzles that found no free entry and stay uncompensated (R199, R205): port, ink channel, column. -/
  refused : List (Nat × Nat × Nat) := []
  relays : List Relay := []
  /-- Mode notices on their way from TKO. -/
  notices : List ModeNotice := []
  lostRun : Bool := false
  /-- For each active standby port, the port it replaces. -/
  standsFor : Vector (Option Nat) 8 := Vector.replicate 8 none
  /-- Line from which the present set of lines fired applies, and the set before it, per port (R189, R196). -/
  switchAt : Vector Int 8 := Vector.replicate 8 0
  prevFires : Vector Nat 8 := Vector.replicate 8 0
  /-- COL_STAT.SOLO of each port before that switch (R230, R369). -/
  prevSolo : Vector Bool 8 := Vector.replicate 8 false
  /-- Standby switches still to be applied at their named lines: standby port, target tile position, activate, line. -/
  stby : List (Nat × Nat × Bool × Int) := []
  deriving DecidableEq, Repr

/-- One queued port line (R53): line event number, nozzle words of the six rows (row r holds its channel's 1,280 words),
sensed nozzles
(q of R214), head shape bank. -/
structure PortLine where
  line : Int
  words : List (List Nat)
  sensed : List Nat
  bank : Nat := 0
  deriving DecidableEq, Repr

/-- A line assembler and Flowstone's state of its port: the highest line assembled or passed, the drop codes of the last
four port lines newest first (R249), the firings of the last 64 events (R328), the energy slots (R331), the bridge (R268)
and the cold remap (R266). -/
structure AsmSt where
  top : Int := 0
  hist : List (Int × List (List Nat)) := []
  fired : List (Int × List (List Nat)) := []
  energy : List (Int × Nat) := []
  bridgeTo : Option Int := none
  /-- A switch back to the home parity awaits its conversion: m and the lines discarded (R270). -/
  convert : Option (Int × List Int) := none
  bridgeKept : List (Int × List (List Nat)) := []
  suppRun : Bool := false
  esuppRun : Bool := false
  /-- The set of shapes and classes in force is the shadow set number (R276). -/
  setNo : Nat := 0
  deriving DecidableEq, Repr

/-- One temperature loop (R259): filtered temperature in 1/256 of 1/16 °C (unknown before the first reading), target,
trim, lines without a reading. -/
structure LoopSt where
  tf : Option Rat := none
  tgt : Int := 0
  trim : Int := 0
  sat : Bool := false
  stale : Bool := false
  without : Nat := 0
  /-- A reading has come since the last fired line began. -/
  seen : Bool := true
  deriving DecidableEq, Repr

/-- FLW beside its registers. -/
structure FlwSt where
  loops : Vector (Vector LoopSt 6) 8 := Vector.replicate 8 (Vector.replicate 6 {})
  satAt : Vector (Option Nat) 8 := Vector.replicate 8 none
  coldLeft : Vector Nat 8 := Vector.replicate 8 0
  everFired : Vector Bool 8 := Vector.replicate 8 false
  lastStrobe : Vector Nat 8 := Vector.replicate 8 0
  /-- Ports that have yet to load, and to take, the shadow set (R276). -/
  wantLoad : List Nat := []
  wantTake : List Nat := []
  /-- Sets in force per port: words of the shadowed FLW registers by address (unlisted: the image's, then reset). -/
  sets : Vector (List (Nat × Word)) 8 := Vector.replicate 8 []
  /-- Press times and energies of warming lines sent in the last 1 ms (R335), next warming line time. -/
  warmSent : Vector (List (Nat × Nat)) 8 := Vector.replicate 8 []
  warmNext : Vector Nat 8 := Vector.replicate 8 0
  deriving DecidableEq, Repr

/-- State of one nozzle (R224): key 7680 × port + q. -/
structure NozzleSt where
  state : Nat := 0
  strikes : Nat := 0
  openStrikes : Nat := 0
  exclude : Bool := false
  recover : Nat := 0
  /-- Line of the last PASS, and of the last PASS without NOFIRE (R231). -/
  lastPass : Option Int := none
  lastEject : Option Int := none
  /-- The last signature: TNUC, ISENSE, class, NOFIRE. -/
  tnuc : Nat := 0
  isense : Nat := 0
  last : Nat := 0
  noFire : Bool := false
  deriving DecidableEq, Repr

/-- The account of one item (R229 to R236). -/
structure Account where
  id : Nat
  job : Nat
  lane : Nat
  origin : Nat
  width : Nat
  start : Int
  lines : Nat
  flags : Nat
  crc : Nat
  composed : Bool
  lost : Nat := 0
  degraded : Nat := 0
  suppress : Nat := 0
  partner : Option Nat := none
  sentFlags : Bool := false
  pvDeadline : Option Nat := none
  forceReject : Bool := false
  /-- END_TIME once the issue time has come (R232, R235), and whether the record waits for nothing more (R234). -/
  due : Option Nat := none
  ready : Bool := false
  /-- The events counted as dropped lines for the item: each counts once (R235). -/
  drops : List Int := []
  deriving DecidableEq, Repr

/-- A degraded window (R231): port, nozzle, first event, first event after it once known. -/
structure DegradedWindow where
  port : Nat
  q : Nat
  na : Int
  nc : Option Int
  deriving DecidableEq, Repr

/-- NZH beside its registers. -/
structure NzhSt where
  nozzles : List (Nat × NozzleSt) := []
  deferred : Vector (List Nat) 8 := Vector.replicate 8 []
  without : Vector Nat 8 := Vector.replicate 8 0
  /-- Fired lines whose frame is awaited: line, sensed nozzles, first strobe (R220). -/
  await : Vector (List (Int × List Nat × Nat)) 8 := Vector.replicate 8 []
  dead : List Nat := []
  accounts : List Account := []
  windows : List DegradedWindow := []
  /-- Items whose records have been issued: id, lane columns, web lines (for ITEM_AMEND, R233). -/
  issued : List (Nat × Nat × Nat × Int × Nat) := []
  seq : Nat := 0
  lastPush : Vector (Option Int) 8 := Vector.replicate 8 none
  deriving DecidableEq, Repr

end Sys2Proof.Machine
end

