-- ==== Sys2Proof/Machine/StatePos.lean ====
section
/-!
DEFINITION. State of the POS island: encoder channels, Hall and mark inputs, ENCO, the compare outputs, and the tracking unit.
-/

namespace Sys2Proof.Machine

/-- An encoder channel: accepted levels, applied position (48-bit signed), direction of the last applied count, the held
count (R65), the timestamp of the last applied count in 0.5 ns units and the interval before it, the index reference
(R68), the position from which R70 measures, the mismatch counter. -/
structure EncSt where
  a : Bool := false
  b : Bool := false
  z : Bool := false
  pos : Int := 0
  dir : Option Bool := none
  held : Bool := false
  ts : Nat := 0
  gap : Nat := 0
  ref : Option Int := none
  base : Int := 0
  mismatch : Nat := 0
  deriving DecidableEq, Repr

/-- The Hall inputs: accepted levels W, V, U; the Hall edges of the present window, newest first, as (encoder position,
press time); the direction of the window; the encoder position and time of the last Hall edge (R80). -/
structure HallSt where
  state : Nat := 0
  edges : List (Int × Nat) := []
  dir : Option Bool := none
  last : Option (Int × Nat) := none
  deriving DecidableEq, Repr

/-- A captured mark (R82): timestamp in 0.5 ns units, position, polarity, OUTSIDE flag, mark input. -/
structure MarkRec where
  ts : Nat
  pos : Int
  rising : Bool
  outside : Bool
  input : Nat
  deriving DecidableEq, Repr

/-- A mark input: its reference and its FIFO, oldest first. -/
structure MarkSt where
  ref : Option Int := none
  fifo : List MarkRec := []
  deriving DecidableEq, Repr

/-- ENCO: accumulator, pending steps (signed), output position, when the next step may leave, the spacing of the further
steps, when the last step left, steps since enable (R90), the output state during which ENCO_Z is high, the index point
that passes through, and the last tracked tick taken as an input count. -/
structure EncoSt where
  acc : Nat := 0
  backlog : Int := 0
  count : Int := 0
  due : Nat := 0
  spacing : Nat := 0
  last : Nat := 0
  sinceZ : Int := 0
  zHigh : Bool := false
  index : Bool := false
  tick : Int := 0
  deriving DecidableEq, Repr

/-- The action of a compare entry (R98). -/
inductive CmpAction where
  | pulse | set | clear
  deriving DecidableEq, Repr

/-- A compare output: its list, whether it is active, when a running pulse ends, the source position at the end of the
last POS cycle in which the list was judged (R95), whether the output has been enabled since reset (R102), and the
timestamp of the last reject push (used by NZH). -/
structure CmpOutSt where
  list : List (Int × CmpAction) := []
  active : Bool := false
  pulseEnd : Option Nat := none
  prev : Int := 0
  enabled : Bool := false
  deriving DecidableEq, Repr

/-- The POS block. -/
structure PosSt where
  enc : Vector EncSt 2 := Vector.replicate 2 {}
  hall : HallSt := {}
  mark : Vector MarkSt 2 := Vector.replicate 2 {}
  enco : EncoSt := {}
  out : Vector CmpOutSt 8 := Vector.replicate 8 {}
  /-- Mark records and missing-mark notices on their way to CMP over the control plane (R82, R84). -/
  markWay : List MarkRec := []
  missWay : List (Nat × Int) := []
  deriving DecidableEq, Repr

/-- A line event (R121). TIME is in 1/256 ns, PERIOD in 1/64 ns. -/
structure LineEvent where
  line : Int
  time : Nat
  period : Nat
  bank : Bool
  drop : Bool
  clamp : Bool
  coast : Bool
  deriving DecidableEq, Repr

/-- The offsets and flight times of one offset bank of the ports (R127): total offset O of each row in ticks, and the
flight time of each ink channel in ns. -/
structure OffsetBank where
  ofs : Vector (Vector Int 6) 8 := Vector.replicate 8 (Vector.replicate 6 0)
  flt : Vector Nat 6 := Vector.replicate 6 0
  deriving DecidableEq, Repr

/-- The tracking unit. Sources: 0 ENC0, 1 ENC1, 2 the fabric node of the primary, 3 the fabric node of the fallback. Positions
are in lines, times in ns, velocity in lines per ns. -/
structure TrkSt where
  /-- Line positions of the encoder sources (R106). -/
  pos : Vector Rat 2 := Vector.replicate 2 0
  /-- Offset d of each source and the time of the last measurement that updated it (R114). -/
  d : Vector Rat 4 := Vector.replicate 4 0
  dAt : Vector (Option Rat) 4 := Vector.replicate 4 none
  x : Rat := 0
  v : Rat := 0
  tx : Rat := 0
  /-- Time of the last accepted measurement of the active source, and the newest measurement (R110). -/
  lastMeas : Option Rat := none
  newest : Rat × Rat := (0, 0)
  /-- When coasting began (press-time units). -/
  coastAt : Nat := 0
  /-- Last accepted sample of each fabric node: node, sequence number, timestamp in 0.5 ns units. -/
  fabSeen : List (Nat × Nat × Nat) := []
  /-- For the node of the primary and that of the fallback: when a sample was last accepted; whether the last one had VALID 0
  or the node is lost (R112). -/
  fabAt : Vector Nat 2 := Vector.replicate 2 0
  fabBad : Vector Bool 2 := Vector.replicate 2 false
  /-- The active fabric source is the fallback's node. -/
  fabFb : Bool := false
  bcastSeq : Nat := 0
  lastLine : Int := 0
  issued : Bool := false
  lastFiredE : Option Nat := none
  lastDrop : Bool := false
  clampRun : Bool := false
  bank : Bool := false
  banks : Vector OffsetBank 2 := Vector.replicate 2 {}
  /-- Lines fired without CLAMP or COAST whose placement has not been checked (R132): line and T(n). -/
  checks : List (Int × Rat) := []
  /-- Line events on their way to each port, and the events PIPE holds, newest first. -/
  way : Vector (List LineEvent) 8 := Vector.replicate 8 []
  events : List LineEvent := []
  satAt : Option Nat := none
  /-- When SPEED_REQ may go inactive (R136); whether TRK_CTRL.EN has been set since reset (R137). -/
  spreqHold : Option Nat := none
  enabledOnce : Bool := false
  /-- Causes reported by TKO and by head protection (R136). -/
  tkoCause : Bool := false
  deriving DecidableEq, Repr

end Sys2Proof.Machine
end

