-- ==== Sys2Proof/Machine/StatePort.lean ====
section
/-!
DEFINITION. State of a head port beside its registers.
-/

namespace Sys2Proof.Machine

/-- What a head command is sent for. -/
inductive CmdUse where
  | bringUp | expert | commit | image | timeout
  deriving DecidableEq, Repr

/-- A head command (R298, R299): opcode, argument, data bytes, use. -/
structure HeadCmd where
  opc : Nat
  arg : Nat
  data : List Nat := []
  use : CmdUse
  /-- The tag of an expert command; the port numbers its own. -/
  tag : Option Nat := none
  deriving DecidableEq, Repr

/-- The command that awaits its answer: its tag, when its last block left, whether it has been resent (R298). -/
structure CmdWait where
  cmd : HeadCmd
  tag : Nat
  sentAt : Nat
  resent : Bool := false
  deriving DecidableEq, Repr

/-- A line transfer in progress (R291): the rows still to send in their order, the words of the six rows, G and the trims
taken at its start, the shape bank. -/
structure Transfer where
  line : Int
  ltag : Nat
  rows : List Nat
  words : List (List Nat)
  g : Nat
  trims : List Int
  bank : Nat
  started : Nat
  deriving DecidableEq, Repr

/-- A line in a row of the head: how many groups it fires and how many have been strobed (R297, R304). -/
structure HeldRow where
  line : Int
  ltag : Nat
  groups : Nat
  bank : Nat := 0
  strobed : Nat := 0
  deriving DecidableEq, Repr

/-- A line sent to the head: its tag and the nozzles it senses (R214, R287). -/
structure SentLine where
  line : Int
  ltag : Nat
  sensed : List Nat
  deriving DecidableEq, Repr

/-- A head port. -/
structure PortSt where
  /-- The line queue, in ascending line order (R53). -/
  queue : List PortLine := []
  /-- The highest line whose transfer has started or that the port has passed. -/
  xferTop : Option Int := none
  /-- Line events held, oldest first, and lines above xferTop that will not be fired (DROP, late). -/
  events : List LineEvent := []
  gone : List Int := []
  xfer : Option Transfer := none
  held : Vector (List HeldRow) 6 := Vector.replicate 6 []
  ltag : Nat := 0
  /-- When the link is free for the next segment or command (press-time units); when the last FIRE symbol started (78.125 ps
  taps); the highest line strobed; the lines sent lately, newest first. -/
  busyUntil : Nat := 0
  lastSymbol : Option Int := none
  firedTop : Option Int := none
  sent : List SentLine := []
  /-- Segments and commands sent lately: time, row or 6 for a command (R314). -/
  recent : List (Nat × Nat) := []
  /-- HPk_PRES_L low, since when; whether an insertion or an enable is waiting to bring the head up (R321). -/
  presLow : Bool := false
  presSince : Nat := 0
  arm : Bool := true
  /-- PGOOD did not come: a write of 1 to EN starts another attempt (R289). -/
  rearmAny : Bool := false
  pgoodAt : Nat := 0
  cmdTag : Nat := 0
  /-- When the present bring-up state was entered, when PGOOD rose, attempts at TRAIN. -/
  stateAt : Nat := 0
  tries : Nat := 0
  todo : List HeadCmd := []
  wait : Option CmdWait := none
  record : List Nat := []
  xdata : List Nat := []
  /-- Lanes the head has locked, lanes whose driver is off, the retrain in progress (R315). -/
  locked : Nat := 0
  retraining : Bool := false
  retrainDue : Option Nat := none
  retrainAt : Nat := 0
  restore : Bool := false
  bcGood : Bool := true
  /-- The watchdog limit in force, the limit SPAN_LIM uses, a limit on its way to the head (R343). -/
  wdog : Nat := 0x12C
  span : Nat := 0x12C
  pendLimit : Option Nat := none
  /-- Where that limit stands: 0 its SET_TIMEOUT waits, 1 it is sent, 2 it is answered and waits for a line boundary; the
  last line transferred before it. -/
  pendPhase : Nat := 0
  pendLine : Option Int := none
  wdogHeld : Bool := false
  /-- Blanking: the first blanked line; lines blanked so far; the line from which a partner fills (n_p); whether the partner
  has been asked; the line from which the port fires again (R346 to R349). -/
  blankFrom : Option Int := none
  blanked : Nat := 0
  fillFrom : Option Int := none
  fillAsked : Bool := false
  resumeAt : Option Int := none
  lastFrame : Nat := 0
  /-- Whether the back-channel's last frame was valid (R311). -/
  frameOk : Bool := true
  /-- A bring-up was held back because a pending switch affects the port cold (R409). -/
  coldHold : Bool := false
  deriving DecidableEq, Repr

/-- TKO beside its registers. -/
structure TkoSt where
  /-- Ports held fenced, as a mask (R374, R375). -/
  fenced : Nat := 0
  /-- The applied takeover line and return line (R369, R382); no return line until the return. -/
  swLine : Option Int := none
  retLine : Option Int := none
  /-- SEQ of the next message, messages sent, whether a heartbeat has been accepted (R362), whether one came in this period. -/
  seq : Nat := 0
  sent : Bool := false
  heard : Bool := false
  heardNow : Bool := false
  /-- From the last valid heartbeat: T_SEND in ns, PORT_OK, PORT_SOLO, LAST_FIRED, whether its key matches (R381). -/
  tSend : Nat := 0
  partnerOk : Nat := 0
  partnerSolo : Nat := 0
  partnerFired : Int := 0
  keyOk : Bool := false
  /-- The period that runs, by its number, once a heartbeat has been sent; whether it brought a heartbeat whose key matches;
  the periods in a row that brought only mismatching ones (R360, R381). -/
  period : Option Nat := none
  keyNow : Bool := false
  misRun : Nat := 0
  /-- Decisions that wait for TC: deadline and ports (R366). -/
  decide : List (Nat × List Nat) := []
  /-- The highest line event fired by a pair port (R361). -/
  lastFired : Int := 0
  /-- Per port whose partner side is lost: the highest line of its parity already counted as not fired (R369). -/
  lostLines : Vector (Option Int) 8 := Vector.replicate 8 none
  /-- Per blanked port: when FILL_REQ was sent (R376). -/
  fillAt : Vector (Option Nat) 8 := Vector.replicate 8 none
  /-- The pending pair key and named line of a switch (R414). -/
  pend : Option (Nat × Int) := none
  deriving DecidableEq, Repr

end Sys2Proof.Machine
end

