-- ==== Sys2Proof/Machine/StateSys.lean ====
section
/-!
DEFINITION. State of the islands and their crossings, of the event controller and recorder, and of the structure image.
-/

namespace Sys2Proof.Machine

/-- A crossing FIFO between two islands: its plane, its words (oldest first, with a mark once readable in the destination
island, R28), and the words of producers that wait for space (R22, R29). -/
structure Crossing where
  plane : Plane
  src : Nat
  dst : Nat
  words : List (Nat × Bool)
  waiting : List Nat
  deriving DecidableEq, Repr

/-- An event as the raising block sends it (R637): code, press time in ns, the island's TIME_VALID bit, detail bytes, the
TRUNC mark, the firmware mark, and the local port its detail names, if any (used by fault action VACATE, R396). -/
structure Event where
  code : Nat
  time : Nat
  tv : Bool
  detail : List Nat
  trunc : Bool
  fw : Bool
  port : Option Nat
  deriving DecidableEq, Repr

/-- An entry of EVR's rate table (R652). -/
structure RateEntry where
  code : Nat
  start : Nat
  closed : Bool
  count : Nat
  winDrops : Nat
  drops : Nat
  deriving DecidableEq, Repr

/-- The record that is open (R651): its slot, the event it was written for, and the press time of the last occurrence. -/
structure OpenRecord where
  slot : Nat
  ev : Event
  seq : Nat
  flags : Nat
  rep : Nat
  last : Nat
  deriving DecidableEq, Repr

/-- A source signal on its way to EVC (R638): of an event, with the channel of a DMA event, or
of a mailbox that became full (R639). -/
inductive Signal where
  | event (code first : Nat)
  | mailbox (m : Nat)
  deriving DecidableEq, Repr

/-- EVC and EVR beside their registers. -/
structure EvSt where
  /-- Codes whose source signals are on their way to EVC (R638), oldest first. -/
  sig : List Signal := []
  /-- Records on their way to EVR (R638), oldest first. -/
  recs : List Event := []
  /-- Event codes on their way to the fault manager, with the events. -/
  faultIn : List Event := []
  /-- Events that wait for TC's decision (R26). -/
  tcPend : List Event := []
  /-- The AON hold buffer (R654). -/
  hold : List Event := []
  holdLost : Nat := 0
  openRec : Option OpenRecord := none
  rate : List RateEntry := []
  sumpSeen : Nat := 0
  /-- Route word and raise count of each source (EVC_ROUTE and EVC_RCNT show the selected one). -/
  route : List (Nat × Word) := []
  rcnt : List (Nat × Nat) := []
  /-- Sources whose MSI-X message is due (R643). -/
  msixDue : List Nat := []
  /-- Free-running index of the next record the mirror and the host queue take, and how many records each has lost in the
present run of losses (R661). -/
  mirNext : Nat := 0
  mirRun : Nat := 0
  /-- The mirror stopped on a flash error (R656). -/
  mirStop : Bool := false
  hqNext : Nat := 0
  hqRun : Nat := 0
  /-- Records delivered but not yet signalled, and the press time of the first of them (R659). -/
  hqUnsig : Nat := 0
  hqFirst : Nat := 0
  deriving DecidableEq, Repr

/-- What the active structure image loads beside registers (R393). -/
structure ImgData where
  lrateCeil : Nat := 96000
  layerMax : Nat := 16
  fltCeil : Vector Nat 6 := Vector.replicate 6 250000
  /-- ROW_IC of each port, and the copy that TRK took with its own part (R129, R411). -/
  rowIc : Vector Nat 8 := Vector.replicate 8 0
  trkIc : Vector Nat 8 := Vector.replicate 8 0
  fault : List (Nat × Nat) := []
  routeSeg : List Nat := []
  routeDir : List Nat := []
  thZones : List (Nat × Nat) := []
  thShares : List (List Nat) := []
  thSensors : List Nat := []
  deriving DecidableEq, Repr

/-- STR beside its registers: the check in progress, the switch, and which blocks have yet to answer READY or to apply. -/
structure StrSt where
  checking : Bool := false
  img : ImgData := {}
  /-- Line of the switch in progress (its state is STR_STAT.SW_STATE). -/
  line : Nat := 0
  /-- Press time E(n) of the named line once its event has been issued (R411). -/
  eLine : Option Nat := none
  immediate : Bool := false
  /-- Blocks that have not yet answered READY, and blocks that have not yet applied (block IDs). -/
  wantReady : List Nat := []
  wantApply : List Nat := []
  cold : Nat := 0
  /-- The parsed sections (type, body) of the pending image and of the active one (R393). -/
  pend : List (Nat × List Nat) := []
  pendHead : List Nat := []
  actHead : List Nat := []
  act : List (Nat × List Nat) := []
  /-- The shapes and classes of the pending image while its switch is pending, by register address (R275). -/
  pendSet : Option (List (Nat × Word)) := none
  /-- A port whose head refused, or did not answer, a shape load for the switch (R407). -/
  loadFail : Option Nat := none
  /-- The copy of the image failed: a read error (R400). -/
  copyFail : Bool := false
  deriving DecidableEq, Repr

/-- SEC beside its registers: the signing keys as the fuses give them, F0 to F3 and I0 to I3 (R615), the revoked ones (R616),
the CUST options in force, as row 181 codes them (R603). -/
structure SecSt where
  keys : Vector (Option (Nat × Nat)) 8 := Vector.replicate 8 none
  revoked : Nat := 0
  policy : Nat := 0
  deriving DecidableEq, Repr

/-- The islands and the firmware of the cores beside the SYS registers. -/
structure SysSt where
  crossings : List Crossing := []
  /-- Consecutive in-tolerance markers of each island (R34) and the press time of the last marker. -/
  goodMarkers : Vector Nat 16 := Vector.replicate 16 0
  lastMarker : Nat := 0
  /-- Islands held in reset through SYS_ISL_RST, as a mask, and when the reset began (R56). -/
  inReset : Nat := 0
  /-- Register of the last write and its initiator, for writes in one block-clock cycle (R50). -/
  lastWrite : Option (Nat × Initiator) := none
  /-- Service firmware: its running slot, whether it answers, the FW_RESTART that waits (R45), fault action HOLD_ADMIT. -/
  fwSlot : Nat := 0
  fwUp : Bool := false
  fwDeferred : Bool := false
  /-- Service firmware starts when JOB leaves reset (R44). -/
  fwStarts : Bool := false
  fwVersion : Nat := 0
  holdAdmit : Bool := false
  /-- The image of the slot that is not running is loaded in DDR and its digest is in the Grotto (R45). -/
  fwCopy : Bool := false
  /-- Islands that cleared TIME_VALID without a record, as a mask (R35). -/
  quiet : Nat := 0
  /-- The I²C window (R488, R489). -/
  i2cWindow : Nat := 0
  i2cAddr : Nat := 0x4C
  winErr : Bool := false
  lcUp : Bool := false
  tcUp : Bool := true
  deriving DecidableEq, Repr

end Sys2Proof.Machine
end

