-- ==== Sys2Proof/Machine/State.lean ====
section
/-!
DEFINITION. The state of the LN-8064: the chip (registers and what the blocks hold beside them), the memories, the fuses
and the queue of commands that wait; the reasons a step can stop; the state right after reset.
-/

namespace Sys2Proof.Machine

/-- What the last access on the internal bus was answered with (R8, R46, R49, R50, R51). -/
inductive BusAnswer where
  | none | done | data (w : Word) | busError | completerAbort | unsupported | discarded | wlost | waits
  deriving DecidableEq, Repr

/-- Something the block sends out: a kind and its values. The environment (heads, other nodes, the host, the board) reads
this list; nothing inside the block does. -/
structure Sent where
  kind : String
  args : List Nat
  deriving DecidableEq, Repr

/-- The chip: registers and the state the blocks hold beside them. -/
structure Chip where
  /-- Press time now, in 2^-32 ns: the 64-bit time in ns with its 32-bit fraction. -/
  now : Nat := 0
  /-- Registers that differ from their reset value, by internal address. -/
  regs : List (Nat × Word) := []
  /-- The copies in force of shadowed registers (R24), by internal address. -/
  force : List (Nat × Word) := []
  /-- Captures and write latches: key 8 × address + initiator (one per initiator where the spec keeps one). -/
  latch : List (Nat × Word) := []
  /-- Addresses of shadowed registers written since their last copy (R128). -/
  dirty : List Nat := []
  answer : BusAnswer := .none
  sent : List Sent := []
  sys : SysSt := {}
  ev : EvSt := {}
  str : StrSt := {}
  sec : SecSt := {}
  fab : FabSt := {}
  pos : PosSt := {}
  trk : TrkSt := {}
  cmp : CmpSt := {}
  col : ColSt := {}
  asm : Vector AsmSt 8 := Vector.replicate 8 {}
  flw : FlwSt := {}
  hp : Vector PortSt 8 := Vector.replicate 8 {}
  nzh : NzhSt := {}
  tko : TkoSt := {}
  mem : MemSt := {}
  ldl : LdlSt := {}
  hst : HstSt := {}
  fw : FwSt := {}
  dma : Vector DmaCh 32 := Vector.replicate 32 {}
  pwr : PwrSt := {}
  thm : ThmSt := {}
  otp : OtpSt := {}
  cal : CalSt := {}
  /-- When ACCESS_DENIED was last recorded for each initiator (R631). -/
  deniedAt : Vector (Option Nat) 6 := Vector.replicate 6 none
  deriving DecidableEq, Repr

/-- The memories: the internal address space (scratchpad, Grotto, DDR), the QSPI flash, the host's memory, the fuses. -/
structure Store where
  mem : List Host.Cell := []
  flash : List Host.Cell := []
  host : List Host.Cell := []
  /-- Fuse rows that do not read 0, at normal and at tight margin: rows 0 to 511, and spare e as row 512 + e (R594, R595). -/
  fuseN : List (Nat × Word) := []
  fuseT : List (Nat × Word) := []
  deriving DecidableEq, Repr

/-- Why a step stops with a fault. The model raises none: every command has an effect or is answered. -/
inductive Fault where
  /-- Never raised; the spec gives the block no condition in which it stops. Safe. -/
  | none
  deriving DecidableEq, Repr

/-- Why a command is refused. -/
inductive Refusal where
  /-- Raised by a dispatch arm whose command has no meaning yet. Safe: nothing is claimed of it. -/
  | notModelled (mnemonic : String)
  deriving DecidableEq, Repr

/-- The state of the machine. -/
structure State where
  chip : Chip := {}
  store : Store := {}
  pending : List Instr := []
  deriving DecidableEq, Repr

/-- The machine right after reset: every register at its reset value, AON and TRUST up, memories not written, no
command waiting. -/
def State.reset : State := {}

end Sys2Proof.Machine
end

