-- ==== Sys2Proof/Machine/Ops.lean ====
section
/-!
DEFINITION. The named operations every block uses: press time, reading and writing registers, shadowed copies, captures,
islands, raising an event, sending.
-/

namespace Sys2Proof.Machine

/-- Nanoseconds in press-time units (2^-32 ns). -/
def ns (n : Nat) : Nat := n * 2 ^ 32
def us (n : Nat) : Nat := ns (n * 1000)
def ms (n : Nat) : Nat := ns (n * 1000000)
def sec (n : Nat) : Nat := ns (n * 1000000000)

/-- Something happens at press time t: press time never runs back. -/
def Chip.at (t : Nat) (c : Chip) : Chip := { c with now := max c.now t }

/-- Press time in whole nanoseconds, as registers and records show it. -/
def Chip.nowNs (c : Chip) : Nat := c.now / 2 ^ 32

/-- Press time in ns as a number. -/
def Chip.nowQ (c : Chip) : Rat := (c.now : Rat) / (2 ^ 32 : Nat)

/-! ### Registers -/

/-- The indices that give offset off in a register's family, if any. -/
def RegDef.index (d : RegDef) (off : Nat) : Option (Nat × Nat) :=
  if off < d.off then none
  else
    let r := off - d.off
    let i := if d.s1 = 0 then 0 else r / d.s1
    let q := if d.s1 = 0 then r else r % d.s1
    let (i, j, q) := if d.n1 = 1 then (0, (if d.s2 = 0 then 0 else r / d.s2), (if d.s2 = 0 then r else r % d.s2))
      else (i, (if d.s2 = 0 then 0 else q / d.s2), (if d.s2 = 0 then q else q % d.s2))
    if i < d.n1 ∧ j < d.n2 ∧ q = 0 then some (i, j) else none

/-- The register at an offset of a block's table. -/
def findReg (off : Nat) : List RegDef → Option RegDef
  | [] => none
  | d :: r => if (d.index off).isSome then some d else findReg off r

/-- The block ID of a register address (R46). -/
def blockOf (addr : Nat) : Nat := (addr - 0x10000000) / 0x10000

/-- The register at an internal address. -/
def regAt (addr : Nat) : Option RegDef :=
  if addr < 0x10000000 ∨ 0x10200000 ≤ addr then none else findReg (addr % 0x10000) (blockRegs (blockOf addr))

/-- The reset value of the register at an address; 0 where there is none. -/
def resetWord (addr : Nat) : Word := ((regAt addr).map (fun d => BitVec.ofNat 32 d.reset)).getD 0

/-- The address of an indexed place. -/
def Place.at (p : Place) (i j : Nat) : Nat := p.addr + i * p.s1 + j * p.s2

/-- The stored word of the register at an address. -/
def Chip.word (c : Chip) (addr : Nat) : Word := sparseGet (resetWord addr) addr c.regs

/-- Store a word in the register file. -/
def Chip.setWord (c : Chip) (addr : Nat) (w : Word) : Chip :=
  { c with regs := sparsePut (resetWord addr) addr w c.regs }

/-- The value of a field. -/
def Chip.get (c : Chip) (p : Place) (i : Nat := 0) (j : Nat := 0) : Nat := bitsOf (c.word (p.at i j)).toNat p.hi p.lo

/-- Whether a one-bit field is 1. -/
def Chip.on (c : Chip) (p : Place) (i : Nat := 0) (j : Nat := 0) : Bool := c.get p i j != 0

/-- Give a field a value, leaving the rest of its register. -/
def Chip.set (c : Chip) (p : Place) (v : Nat) (i : Nat := 0) (j : Nat := 0) : Chip :=
  c.setWord (p.at i j) (BitVec.ofNat 32 (withBits (c.word (p.at i j)).toNat p.hi p.lo v))

/-- Add to a counter field that stops at its greatest value. -/
def Chip.addSat (c : Chip) (p : Place) (n : Nat) (i : Nat := 0) (j : Nat := 0) : Chip :=
  c.set p (satNat (p.hi + 1 - p.lo) (c.get p i j + n)) i j

/-- Add to a counter field that wraps. -/
def Chip.addWrap (c : Chip) (p : Place) (n : Nat) (i : Nat := 0) (j : Nat := 0) : Chip := c.set p (c.get p i j + n) i j

/-- Set bits of a field (a sticky mask). -/
def Chip.orBits (c : Chip) (p : Place) (m : Nat) (i : Nat := 0) (j : Nat := 0) : Chip := c.set p (c.get p i j ||| m) i j

/-- The value in force of a shadowed field (R24). -/
def Chip.inForce (c : Chip) (p : Place) (i : Nat := 0) (j : Nat := 0) : Nat :=
  bitsOf (sparseGet (resetWord (p.at i j)) (p.at i j) c.force).toNat p.hi p.lo

/-- Bring the register at an address into force. -/
def Chip.bring (c : Chip) (addr : Nat) : Chip :=
  { c with force := sparsePut (resetWord addr) addr (c.word addr) c.force }

/-- Copy the registers at the given addresses into force, and mark them copied (R24). -/
def Chip.handOver (c : Chip) (addrs : List Nat) : Chip :=
  { addrs.foldl Chip.bring c with dirty := c.dirty.filter (fun a => !addrs.contains a) }

/-- A capture or write latch: one per initiator. -/
def Chip.latched (c : Chip) (addr : Nat) (i : Nat) : Nat := (sparseGet (0 : Word) (8 * addr + i) c.latch).toNat
def Chip.setLatch (c : Chip) (addr : Nat) (i : Nat) (v : Nat) : Chip :=
  { c with latch := sparsePut (0 : Word) (8 * addr + i) (BitVec.ofNat 32 v) c.latch }

/-- Every register, copy in force and latch of a block goes back to reset. -/
def Chip.clearBlock (c : Chip) (id : Nat) : Chip :=
  let lo := 0x10000000 + id * 0x10000
  let inside := fun a => lo ≤ a && a < lo + 0x10000
  { c with
    regs := sparseClear inside c.regs
    force := sparseClear inside c.force
    latch := sparseClear (fun k => inside (k / 8)) c.latch
    dirty := c.dirty.filter (fun a => !inside a) }

/-- The number of an initiator (R50). -/
def initNo : Initiator → Nat
  | .tc => 0 | .jc0 => 1 | .jc1 => 2 | .lc => 3 | .dma => 4 | .host => 5

/-! ### Islands -/

/-- The island of a block (R46), as its bit number. -/
def islandOf (id : Nat) : Nat :=
  if id = 0 ∨ id = 1 ∨ id = 7 ∨ id = 8 ∨ id = 0x1D then 0
  else if id = 2 ∨ id = 3 ∨ id = 4 ∨ id = 0x0F ∨ id = 0x1B then 1
  else if id = 0x1A ∨ id = 0x1C then 2
  else if id = 0x18 ∨ id = 0x1F then 3
  else if id = 5 ∨ id = 6 ∨ id = 0x1E then 4
  else if 0x0B ≤ id ∧ id ≤ 0x0E then 5
  else if id = 9 ∨ id = 0x0A then 6
  else if id = 0x19 then 7
  else id - 8

/-- Whether an island is powered, clocked and out of reset (SYS_ISL_STAT.ISL_UP). -/
def Chip.up (c : Chip) (isl : Nat) : Bool := bitAt (c.get F.SYS_ISL_STAT_ISL_UP) isl
def Chip.setUp (c : Chip) (isl : Nat) (b : Bool) : Chip :=
  c.set F.SYS_ISL_STAT_ISL_UP (putBit (c.get F.SYS_ISL_STAT_ISL_UP) isl b)

/-- Whether an island's press-time copy is valid (SYS_ISL_STAT.TIME_VALID). -/
def Chip.timeValid (c : Chip) (isl : Nat) : Bool := bitAt (c.get F.SYS_ISL_STAT_TIME_VALID) isl
def Chip.setTimeValid (c : Chip) (isl : Nat) (b : Bool) : Chip :=
  c.set F.SYS_ISL_STAT_TIME_VALID (putBit (c.get F.SYS_ISL_STAT_TIME_VALID) isl b)

/-! ### Features (R2 to R7): the fuses decide, OTP_FEAT.IN_FORCE shows the result -/

/-- A feature bit in force, in the order of REQ_FEAT: 0 twin pairs, 1 standby tiles, 2 sprint, 3 sixteen layers, 4 trunk
ports, 5 ports HP4 to HP7. -/
def Chip.feature (c : Chip) (b : Nat) : Bool := bitAt (c.get F.OTP_FEAT_IN_FORCE) b

/-- Whether the variant has port k (R3). -/
def Chip.hasPort (c : Chip) (k : Nat) : Bool := k < 4 || c.feature 5

/-! ### Events and messages -/

/-- Detail bytes (R637): values with their widths in bytes, little-endian, in order, as many whole values as fit in 12
bytes; the flag says whether one was left out. -/
def packDetail : List (Nat × Nat) → List Nat → List Nat × Bool
  | [], acc => (acc, false)
  | (w, v) :: r, acc => if acc.length + w ≤ 12 then packDetail r (acc ++ bytesLE w v) else (acc, true)

/-- Codes of the other blocks whose record's first detail value is a local port: OFS_RANGE, PARITY_SWITCH, PARITY_SKEW, DNT_FULL,
REQ_FAILED, LOOP_SAT, BANK_SWITCH, COMMIT_FAIL, NOZZLE_DEAD, COLD_HOLD, SIDE_LOST. -/
def portFirst : List Nat := [0x0A08, 0x0C01, 0x0C03, 0x0C06, 0x0C07, 0x0D01, 0x0D06, 0x0D0A, 0x0E01, 0x0F08, 0x1F03]

/-- The local port that an event names (R396): that of its block HPk, or the one that its record carries. LDL_WITHDRAW carries the
client first; its ports are head ports for head-link retraining and warming. -/
def eventPort (code : Nat) (d : List Nat) : Option Nat :=
  let p := if code = 0x0801 then (if d.headD 8 = 0 ∨ d.headD 8 = 6 ∨ d.headD 8 = 7 then d.getD 1 8 else 8)
    else if portFirst.contains code then d.headD 8 else 8
  if 0x1000 ≤ code ∧ code < 0x1800 then some (code / 256 - 0x10)
  else if p < 8 then some p
  else none

/-- A block raises an event (R636, R637): the source signal, the record and the report to the fault manager set out. `chan` is the
channel of a DMA event, which chooses its source (R639). -/
def Chip.raiseEvent (c : Chip) (code : Nat) (vals : List (Nat × Nat)) (chan : Nat) : Chip :=
  let d := packDetail vals []
  let e : Event := ⟨code, c.nowNs, c.timeValid (islandOf (code / 256)), d.1, d.2, false, eventPort code d.1⟩
  { c with ev := { c.ev with sig := c.ev.sig ++ [.event code chan], recs := c.ev.recs ++ [e], faultIn := c.ev.faultIn ++ [e] } }

/-- An event of a block with one source. -/
def Chip.emit (c : Chip) (code : Nat) (vals : List (Nat × Nat) := []) : Chip := c.raiseEvent code vals 0

/-- Whether 1 ms has passed since something was last recorded. -/
def Chip.dueAgain (c : Chip) (last : Option Nat) : Bool :=
  match last with
  | none => true
  | some t => decide (t + ms 1 ≤ c.now)

/-- Something leaves the block. -/
def Chip.send (c : Chip) (kind : String) (args : List Nat) : Chip := { c with sent := c.sent ++ [⟨kind, args⟩] }


end Sys2Proof.Machine
end

