-- ==== Sys2Proof/Machine/Access.lean ====
section
/-!
DEFINITION. Refused accesses: bus errors, the reports of R49 and R51, the bytes of the memories.
-/

namespace Sys2Proof.Machine

/-! ### Bytes of the memories -/

/-- Bytes read from a memory at consecutive addresses; an unlisted address reads as d. -/
def bytesAt (d : Byte) (m : List Host.Cell) (a : Nat) : Nat → List Byte
  | 0 => []
  | n + 1 => sparseGet d a m :: bytesAt d m (a + 1) n

/-- Write bytes at consecutive addresses. -/
def putBytes (d : Byte) (m : List Host.Cell) (a : Nat) : List Byte → List Host.Cell
  | [] => m
  | b :: r => putBytes d (sparsePut d a b m) (a + 1) r

/-- What unlisted bytes of internal memory and of host memory read as. DESIGN CHOICE. -/
def memDefault : Byte := 0
/-- What unlisted bytes of the flash read as: an erased flash. PRESUMED. -/
def flashDefault : Byte := 0xFF

def Store.read (m : Store) (a n : Nat) : List Byte := bytesAt memDefault m.mem a n
def Store.write (m : Store) (a : Nat) (l : List Byte) : Store := { m with mem := putBytes memDefault m.mem a l }
def Store.readHost (m : Store) (a n : Nat) : List Byte := bytesAt memDefault m.host a n
def Store.writeHost (m : Store) (a : Nat) (l : List Byte) : Store := { m with host := putBytes memDefault m.host a l }
def Store.readFlash (m : Store) (a n : Nat) : List Byte := bytesAt flashDefault m.flash a n
def Store.writeFlash (m : Store) (a : Nat) (l : List Byte) : Store := { m with flash := putBytes flashDefault m.flash a l }

/-- A span of internal memory goes back to reading as never written. -/
def Store.clear (m : Store) (p : Nat → Bool) : Store := { m with mem := sparseClear p m.mem }

/-- The number that bytes spell, least significant first. -/
def leNat (l : List Byte) : Nat := ofBytesLE (l.map BitVec.toNat)

/-- The k bytes of a number, least significant first. -/
def leBytes (k n : Nat) : List Byte := (bytesLE k n).map (BitVec.ofNat 8)

/-! ### Refusals of the bus -/

/-- SEC captures a refused access (R631). -/
def Chip.capture (c : Chip) (i : Fin 6) (addr : Nat) (write : Bool) : Chip :=
  let c := c.set F.SEC_DENY_LO_ADDR addr
  let c := c.setWord R.SEC_DENY_HI.addr (BitVec.ofNat 32 (bit write * 2048 + i.val * 256 + addr / 2 ^ 32 % 256))
  let c := c.addSat F.SEC_DENY_CNT_COUNT 1
  let due := c.dueAgain c.deniedAt[i]
  if due = true then { c with deniedAt := c.deniedAt.set i (some c.now) }.emit 0x1B01 [(1, i.val), (5, addr)] else c

/-- The number of an initiator as an index. -/
def initFin : Initiator → Fin 6
  | .tc => 0 | .jc0 => 1 | .jc1 => 2 | .lc => 3 | .dma => 4 | .host => 5

/-- The right of an initiator in a block's window (R47): 0 none, 1 read only, 2 read and write. -/
def blockRight (i : Initiator) (id : Nat) : Nat :=
  let r := fun (tc jc lc dma host : Nat) =>
    match i with
    | .tc => tc | .jc0 | .jc1 => jc | .lc => lc | .dma => dma | .host => host
  if id = 2 ∨ id = 0x1B then r 2 1 1 0 1
  else if id = 3 ∨ id = 0x0F then r 2 1 1 1 1
  else if id = 4 ∨ id = 0x1C ∨ id = 0x1A then r 2 2 2 0 2
  else if id = 0 ∨ id = 1 ∨ id = 0x1D ∨ id = 7 ∨ id = 8 then r 2 2 1 0 2
  else if id = 0x18 then r 2 1 2 0 1
  else if id = 0x1F then r 2 1 1 0 1
  else r 2 2 1 2 2

/-- The answer of an access. -/
def Chip.answered (c : Chip) (a : BusAnswer) : Chip := { c with answer := a }

/-- A host posted write is discarded and counted (R49, R51). -/
def Chip.hostDiscard (c : Chip) : Chip := (c.addSat F.HST_LOST_CNT_DISCARD 1).answered .discarded

/-- An access without the right (R49). -/
def Chip.refuse (c : Chip) (i : Initiator) (addr : Nat) (write : Bool) : Chip :=
  let c := c.capture (initFin i) addr write
  if i = .host then (if write then c.hostDiscard else c.answered .completerAbort) else c.answered .busError

/-- An access outside the regions (R46); of the host, to an address that no BAR reaches (R51). -/
def Chip.outside (c : Chip) (i : Initiator) (write : Bool) : Chip :=
  if i = .host then (if write then c.hostDiscard else c.answered .unsupported) else c.answered .busError

/-- Whether an initiator is a processor (R496). -/
def isProcessor : Initiator → Bool
  | .tc | .jc0 | .jc1 | .lc => true
  | .dma | .host => false

end Sys2Proof.Machine
end

