-- ==== Sys2Proof/Machine/Ldl.lean ====
section
/-!
DEFINITION. The Ladle (R570 to R574, R336): core and bar grants, refusals, withdrawal, software grants.
-/

namespace Sys2Proof.Machine

/-- The sum and the number of the grants of a resource. -/
def Chip.ldlSum (c : Chip) (res : Nat) : Nat := ((c.ldl.grants.filter (fun g => g.res == res)).map Grant.amt).sum
def Chip.ldlCount (c : Chip) (res : Nat) : Nat := (c.ldl.grants.filter (fun g => g.res == res)).length

/-- HELD, CLIENTS and MAX_HELD of a resource follow its grants. -/
def Chip.ldlShow (c : Chip) (res : Nat) : Chip :=
  let n := satNat 8 (c.ldlCount res)
  let h := satNat 16 (c.ldlSum res)
  if res = 0 then
    let c := (c.set F.LDL_CORE_HELD_CLIENTS n).set F.LDL_CORE_HELD_HELD h
    c.set F.LDL_CORE_STAT_MAX_HELD (max (c.get F.LDL_CORE_STAT_MAX_HELD) h)
  else
    let c := (c.set F.LDL_BAR_HELD_CLIENTS n (res - 1)).set F.LDL_BAR_HELD_HELD h (res - 1)
    c.set F.LDL_BAR_STAT_MAX_HELD (max (c.get F.LDL_BAR_STAT_MAX_HELD (res - 1)) h) (res - 1)

/-- The limit of a resource in force: CORE_EFF, or what a bar leaves beside its firing reserve, reduced while hot (R336,
R570, R572). -/
def Chip.ldlLimit (c : Chip) (res : Nat) : Nat :=
  if res = 0 then c.get F.LDL_EFF_CORE_EFF
  else
    let room := c.get F.LDL_BAR_BUD_BUD (res - 1) - c.get F.LDL_BAR_BUD_FIRE_RES (res - 1)
    if c.on F.LDL_THROT_HOT then room * c.get F.LDL_THROT_BAR_PCT / 100 else room

/-- Whether a request fits (R336, R570); an amount of 0 always does. -/
def Chip.ldlFits (c : Chip) (res amt : Nat) : Bool := amt == 0 || c.ldlSum res + amt ≤ c.ldlLimit res

/-- A refusal is counted and recorded, at most once per 1 ms per client (R570, R579). -/
def Chip.ldlRefuse (c : Chip) (client : Fin 8) (res amt : Nat) : Chip :=
  let c := if res = 0 then c.addSat F.LDL_CORE_STAT_REFUSED 1 else c.addSat F.LDL_BAR_STAT_REFUSED 1 (res - 1)
  if c.dueAgain c.ldl.refusedAt[client] = true then
    let l := { c.ldl with refusedAt := c.ldl.refusedAt.set client (some c.now) }
    Chip.emit { c with ldl := l } 0x0803 [(1, client.val), (2, amt)]
  else c

/-- A request is decided: the grant is held, or the request is refused at once. -/
def Chip.ldlDecide (c : Chip) (client : Fin 8) (idx res amt : Nat) : Chip × Bool :=
  if c.ldlFits res amt then
    (Chip.ldlShow { c with ldl := { c.ldl with grants := ⟨client, idx, res, amt⟩ :: c.ldl.grants } } res, true)
  else (c.ldlRefuse client res amt, false)

/-- Whether a client holds its grant. -/
def Chip.ldlHolds (c : Chip) (client idx : Nat) : Bool := c.ldl.grants.any (fun g => g.client == client && g.idx == idx)

/-- A client releases its grant and withdraws its request. -/
def Chip.ldlRelease (c : Chip) (client idx : Nat) : Chip :=
  let mine := fun (g : Grant) => g.client == client && g.idx == idx
  let res := (c.ldl.grants.filter mine).map Grant.res
  let l := { c.ldl with
    grants := c.ldl.grants.filter (fun g => !mine g)
    asks := c.ldl.asks.filter (fun a => !(a.client == client && a.idx == idx)) }
  res.foldl Chip.ldlShow { c with ldl := l }

/-- A hardware client asks; the request reaches LDL as a step of its own. -/
def Chip.ldlAsk (c : Chip) (client idx res amt : Nat) : Chip :=
  if c.ldl.asks.any (fun a => a.client == client && a.idx == idx) || c.ldlHolds client idx then c
  else { c with ldl := { c.ldl with asks := c.ldl.asks ++ [⟨client, idx, res, amt, none⟩] } }

/-- LDL decides a client's waiting request; a refused one is asked again after 1 ms (R571). The flag says it was granted. -/
def Chip.ldlServe (c : Chip) (client : Fin 8) (idx : Nat) : Chip × Option Bool :=
  match takeFirst (fun (a : Ask) => a.client == client.val && a.idx == idx && (match a.again with | none => true | some t => decide (t ≤ c.now))) c.ldl.asks with
  | none => (c, none)
  | some (a, rest) =>
    let r := Chip.ldlDecide { c with ldl := { c.ldl with asks := rest } } client idx a.res a.amt
    if r.2 then (r.1, some true)
    else
      let again : Ask := ⟨a.client, a.idx, a.res, a.amt, some (c.now + ms 1)⟩
      ({ r.1 with ldl := { r.1.ldl with asks := r.1.ldl.asks ++ [again] } }, some false)

/-! ### Limits, throttling and withdrawal (R572, R573) -/

/-- Whether a grant may be withdrawn: clients 6 and 7 (R571). -/
def Grant.withdrawable (g : Grant) : Bool := g.client == 6 || g.client == 7

/-- Withdraw grants of a resource, newest first, until HELD is within the limit; n bounds the number. -/
def Chip.ldlWithdraw (res : Nat) : Nat → Chip → Chip
  | 0, c => c
  | n + 1, c =>
    if c.ldlSum res ≤ c.ldlLimit res then c
    else match takeFirst (fun (g : Grant) => g.res == res && g.withdrawable) c.ldl.grants with
      | none => c
      | some (g, rest) =>
        let l := { c.ldl with grants := rest, withdrawn := c.ldl.withdrawn ++ [g] }
        let c := (Chip.emit (Chip.ldlShow { c with ldl := l } res) 0x0801 [(1, g.client), (1, g.idx)]).addSat F.LDL_WDRAW_CNT_COUNT 1
        Chip.ldlWithdraw res n c

/-- Every resource's withdrawable grants are brought within its limit. -/
def Chip.ldlEnforce (c : Chip) : Chip :=
  [0, 1, 2, 3, 4].foldl (fun c r => Chip.ldlWithdraw r c.ldl.grants.length c) c

/-- CORE_EFF follows CORE_BUD and the throttle (R572). -/
def Chip.ldlEff (c : Chip) : Chip :=
  let b := c.get F.LDL_CORE_BUD
  c.set F.LDL_EFF_CORE_EFF (if c.on F.LDL_THROT_HOT then b * c.get F.LDL_THROT_CORE_PCT / 100 else b)

/-- THM reports the die hot or no longer hot (R572). -/
def Chip.ldlHot (c : Chip) (hot : Bool) : Chip :=
  if c.on F.LDL_THROT_HOT = hot then c
  else (((c.set F.LDL_THROT_HOT (bit hot)).ldlEff).emit 0x0802 [(1, bit hot)]).ldlEnforce

/-! ### Software grants (R574) -/

/-- A software request: the result of its initiator. -/
def Chip.swRequest (c : Chip) (i : Fin 6) (res amt : Nat) : Chip :=
  let held := c.get F.LDL_SW_STAT_HELD
  match (List.range 16).find? (fun s => !bitAt held s) with
  | none => { c with ldl := { c.ldl with result := c.ldl.result.set i 0x80000000 } }
  | some s =>
    let r := c.ldlDecide 5 s res amt
    let w := 2 ^ 31 + bit r.2 * 2 ^ 30 + (if r.2 then s else 0)
    let c := { r.1 with ldl := { r.1.ldl with result := r.1.ldl.result.set i (BitVec.ofNat 32 w) } }
    if r.2 then c.set F.LDL_SW_STAT_HELD (putBit held s true) else c

/-- A software grant slot is released. -/
def Chip.swRelease (c : Chip) (s : Nat) : Chip :=
  let c := c.ldlRelease 5 s
  let c := { c with ldl := { c.ldl with bound := c.ldl.bound.filter (fun b => b.1 != s) } }
  (c.set F.LDL_SW_STAT_HELD (putBit (c.get F.LDL_SW_STAT_HELD) s false)).set F.LDL_SW_STAT_BOUND
    (putBit (c.get F.LDL_SW_STAT_BOUND) s false)

/-- A held slot is bound to an item queue slot; a slot not held is ignored and counted. -/
def Chip.swBind (c : Chip) (s q : Nat) : Chip :=
  if bitAt (c.get F.LDL_SW_STAT_HELD) s then
    let l := { c.ldl with bound := (s, q) :: c.ldl.bound.filter (fun b => b.1 != s) }
    Chip.set { c with ldl := l } F.LDL_SW_STAT_BOUND (putBit (c.get F.LDL_SW_STAT_BOUND) s true)
  else c.addSat F.LDL_REJ_CNT_COUNT 1

/-- CMP releases the grants bound to an item queue slot (R178, R574). -/
def Chip.releaseBound (c : Chip) (q : Nat) : Chip :=
  ((c.ldl.bound.filter (fun b => b.2 == q)).map Prod.fst).foldl Chip.swRelease c

end Sys2Proof.Machine
end

