-- ==== Sys2Proof/Machine/Mem.lean ====
section
/-!
DEFINITION. The scratchpad, the Grotto and DDR (R494 to R528): banks, ownership, collisions, wipes, ECC, protection
windows, scrub and training.
-/

namespace Sys2Proof.Machine

/-! ### Scratchpad banks (R494, R502, R503) -/

/-- The bank of a scratchpad address: bits [5:2] of its word address (R494). -/
def bankOf (addr : Nat) : Nat := bitsOf addr 5 2

/-- Whether a bank's owner lets an access through (R502). -/
def Chip.bankAllows (c : Chip) (i : Initiator) (b : Nat) (write : Bool) : Bool :=
  let o := c.get F.MEM_OWN_OWNER b
  o == 7 || o == initNo i || (!write && c.on F.MEM_OWN_SHARE_RD b)

/-- Whether a write to MEM_OWNb takes effect (R503). -/
def Chip.ownerWriteTakes (c : Chip) (i : Initiator) (b : Nat) : Bool :=
  let o := c.get F.MEM_OWN_OWNER b
  i == .tc || o == 7 || o == initNo i

/-- Whether a bank is at full voltage and ready (R506). -/
def Chip.bankReady (c : Chip) (b : Nat) : Bool := bitAt (c.get F.MEM_RET_STAT_READY) b

/-- An access that ownership refuses (R502). -/
def Chip.ownViolation (c : Chip) (i : Initiator) (addr : Nat) (write : Bool) : Chip :=
  let c := (c.set F.MEM_STAT_OWN_VIOL 1).emit 0x0602 [(1, initNo i), (5, addr)]
  if i = .host then c.refuse i addr write else c.answered .busError

/-- The wait of a DMA or host access for an idle cycle (R497). -/
def Chip.stealWait (c : Chip) (i : Initiator) (wait : Nat) : Chip :=
  if isProcessor i then c
  else
    let p := if i = .dma then F.MEM_STEAL_DMA_WAIT else F.MEM_STEAL_HOST_WAIT
    let c := c.set p (max (c.get p) (satNat 16 wait))
    if c.get F.MEM_XCFG_WAIT_WARN ≤ wait then c.emit 0x0606 else c

/-- A correction on a scratchpad read (R499). -/
def Chip.memCe (c : Chip) (addr : Nat) : Chip :=
  ((c.addSat F.MEM_ECC_CE 1).set F.MEM_STAT_CE 1).set F.MEM_ECC_ADDR_ADDR (addr % 0x100000 / 4)

/-- An uncorrectable scratchpad read (R499). -/
def Chip.memUe (c : Chip) (i : Initiator) (addr : Nat) : Chip :=
  let c := ((c.addSat F.MEM_ECC_UE 1).set F.MEM_STAT_UE 1).set F.MEM_ECC_ADDR_ADDR (addr % 0x100000 / 4)
  (c.emit 0x0603).answered (if i = .host then .completerAbort else .busError)

/-! ### Writes that meet in one cycle (R500, R501) -/

/-- Whether two plain writes share a byte of one word. -/
def WordWrite.meets (a b : WordWrite) : Bool :=
  a.kind == .plain && b.kind == .plain && a.addr == b.addr && (a.bytes &&& b.bytes) != 0

/-- Whether a write loses against the other writes of its cycle to its word, by the first matching rule of R500. -/
def WordWrite.loses (a : WordWrite) (others : List WordWrite) : Bool :=
  let same := others.filter (fun b => b.addr == a.addr)
  let plain := (a :: same).filter (fun b => b.kind == .plain)
  let clash := plain.any (fun p => plain.any (fun q => p.init != q.init && p.meets q))
  if clash then plain.any (fun p => initNo p.init < initNo a.init) || a.kind != .plain
  else a.kind != .plain && !plain.isEmpty

/-- The lowest processor number among the losers of the cycle on a word. -/
def lowestLoser (a : WordWrite) (others : List WordWrite) : Nat :=
  let all := a :: others.filter (fun b => b.addr == a.addr)
  ((all.filter (fun b => b.loses (all.filter (fun x => x.init != b.init)))).map (fun b => initNo b.init)).foldl min 7

/-- The bits that alias writes of the cycle clear in the word, beside the write's own (R500). -/
def clearedBits (a : WordWrite) (others : List WordWrite) : Nat :=
  (others.filter (fun b => b.addr == a.addr && b.kind == .clearBits)).foldl (fun m b => m ||| b.data) 0

/-- A loss (R501). -/
def Chip.wlost (c : Chip) (a : WordWrite) (others : List WordWrite) : Chip :=
  let c := (c.addSat F.MEM_WLOST_CNT_COUNT 1).set F.MEM_STAT_WLOST 1
  let c := if lowestLoser a others = initNo a.init then
      (c.set F.MEM_WLOST_INFO_LOSER (initNo a.init)).set F.MEM_WLOST_INFO_ADDR (a.addr % 0x100000 / 4) else c
  (c.emit 0x0601 [(1, initNo a.init), (5, a.addr)]).answered .wlost

/-- The word that a write leaves (R500): the bytes it covers; an alias write sets or clears bits, and a bit that another
alias write of the cycle clears stays clear. -/
def WordWrite.result (a : WordWrite) (others : List WordWrite) (old : Nat) : Nat :=
  match a.kind with
  | .plain => (List.range 4).foldl (fun w k => if bitAt a.bytes k then withBits w (8 * k + 7) (8 * k) (a.data / 2 ^ (8 * k)) else w) old
  | .setBits => (BitVec.ofNat 32 (old ||| a.data) &&& ~~~(BitVec.ofNat 32 (clearedBits a others))).toNat
  | .clearBits => (BitVec.ofNat 32 old &&& ~~~(BitVec.ofNat 32 (a.data ||| clearedBits a others))).toNat

/-! ### Accesses to the scratchpad and the Grotto -/

def inScratch (addr : Nat) : Bool := addr < 0x100000
def inAlias (addr : Nat) : Bool := 0x100000 ≤ addr && addr < 0x300000
def inGrotto (addr : Nat) : Bool := 0x800000 ≤ addr && addr < 0x810000

def MemOp.size : MemOp → Nat
  | .read n => n
  | .write l => l.length
def MemOp.isWrite : MemOp → Bool
  | .read _ => false
  | .write _ => true

/-- Whether size and alignment are ones the scratchpad accepts (R495). -/
def sizeOk (addr n : Nat) : Bool := (n == 1 || n == 2 || n == 4 || n == 8) && addr % n == 0

/-- The words a scratchpad write covers. -/
def wordsOf (i : Initiator) (k : WriteKind) (addr : Nat) (l : List Byte) : List WordWrite :=
  if l.length = 8 then
    [⟨i, k, addr, 15, leNat (l.take 4)⟩, ⟨i, k, addr + 4, 15, leNat (l.drop 4)⟩]
  else
    let o := addr % 4
    [⟨i, k, addr - o, (2 ^ l.length - 1) * 2 ^ o, leNat l * 2 ^ (8 * o)⟩]

/-- Write the words of one access; of two words of one access, both or neither (R495). -/
def writeWords (others : List WordWrite) : List WordWrite → Chip × Store → Chip × Store
  | [], x => x
  | a :: r, (c, m) =>
    writeWords others r (c, m.write a.addr (leBytes 4 (a.result others (leNat (m.read a.addr 4)))))

/-- A word access that its bank serves: reads answer the word's bytes (R499), writes meet the writes of the same cycle. -/
def serveScratch (i : Initiator) (k : WriteKind) (addr : Nat) (op : MemOp) (others : List WordWrite) (ecc : Ecc)
    (x : Chip × Store) : Chip × Store :=
  let c := x.1
  let m := x.2
  match op with
  | .read n =>
    if ecc = .uncorrectable then (c.memUe i addr, m)
    else
      let c := if ecc = .corrected then c.memCe addr else c
      let l := m.read addr n
      let c := c.send "memRead" (l.map BitVec.toNat)
      (c.answered (.data (BitVec.ofNat 32 (leNat l))), m)
  | .write l =>
    let ws := wordsOf i k addr l
    match ws.find? (fun a => a.loses others) with
    | some a => (c.wlost a others, m)
    | none => writeWords others ws (c.answered .done, m)

/-- An access waits (R506, R510). -/
def Chip.memWait (c : Chip) (i : Initiator) (addr : Nat) (op : MemOp) : Chip :=
  { c with mem := { c.mem with waiting := c.mem.waiting ++ [⟨i, addr, op⟩] }, answer := .waits }

/-- The checks of a scratchpad access before its bank (R495, R502, R506, R497). -/
def scratchAccess (i : Initiator) (k : WriteKind) (addr : Nat) (op : MemOp) (others : List WordWrite) (ecc : Ecc) (wait : Nat)
    (x : Chip × Store) : Chip × Store :=
  let c := x.1
  let b := bankOf addr
  let banks := if op.size = 8 then [b, b + 1] else [b]
  if !sizeOk addr op.size || (k != .plain && op.size != 4) then (c.answered .busError, x.2)
  else if !c.up 4 then (c.answered .busError, x.2)
  else if !banks.all (fun b => c.bankAllows i b op.isWrite) then (c.ownViolation i addr op.isWrite, x.2)
  else if !banks.all c.bankReady then
    (c.memWait i addr op, x.2)
  else serveScratch i k addr op others ecc (c.stealWait i wait, x.2)

/-- A Grotto wipe starts, or restarts from word 0 (R509, R510). -/
def Chip.wipeStart (c : Chip) (cause : Nat) : Chip :=
  { c with mem := { c.mem with wipeCause := cause } }.set F.MEM_GROTTO_STAT_WIPING 1

/-- A Grotto access of TC (R508 to R510). -/
def grottoAccess (addr : Nat) (op : MemOp) (ecc : Ecc) (x : Chip × Store) : Chip × Store :=
  let c := x.1
  if !sizeOk addr op.size then (c.answered .busError, x.2)
  else if c.on F.MEM_GROTTO_STAT_WIPING then
    (c.memWait .tc addr op, x.2)
  else match op with
    | .read n =>
      if ecc = .uncorrectable then ((c.wipeStart 3).answered .busError, x.2)
      else
        let l := x.2.read addr n
        ((c.send "memRead" (l.map BitVec.toNat)).answered (.data (BitVec.ofNat 32 (leNat l))), x.2)
    | .write l => (c.answered .done, x.2.write addr l)

/-- An access of an initiator to the scratchpad or the Grotto (R46 to R49, R494 to R502, R508). -/
def memAccess (i : Initiator) (addr : Nat) (op : MemOp) (others : List WordWrite) (ecc : Ecc) (wait : Nat)
    (x : Chip × Store) : Chip × Store :=
  if inScratch addr then scratchAccess i .plain addr op others ecc wait x
  else if inAlias addr then
    match op with
    | .read n => scratchAccess i .setBits (addr % 0x100000) (.read n) others ecc wait x
    | .write l =>
      scratchAccess i (if addr < 0x200000 then .setBits else .clearBits) (addr % 0x100000) (.write l) others ecc wait x
  else if inGrotto addr ∧ i ≠ .host then
    if i = .tc then grottoAccess addr op ecc x else (x.1.refuse i addr op.isWrite, x.2)
  else (x.1.outside i op.isWrite, x.2)

/-- The waiting accesses whose wait has ended, oldest first. -/
def serveWaiting : List WaitingAccess → Chip × Store → Chip × Store
  | [], x => x
  | a :: r, x => serveWaiting r (memAccess a.init a.addr a.op [] .clean 0 x)

/-- Serve the waiting accesses anew. -/
def serveMem (x : Chip × Store) : Chip × Store :=
  serveWaiting x.1.mem.waiting ({ x.1 with mem := { x.1.mem with waiting := [] } }, x.2)

/-- A wipe completes (R510): every word of the Grotto is zero. -/
def wipeDone (x : Chip × Store) : Chip × Store :=
  let c := x.1
  if !c.on F.MEM_GROTTO_STAT_WIPING then x
  else
    let c := (c.set F.MEM_GROTTO_STAT_WIPING 0).addSat F.MEM_GROTTO_STAT_WIPES 1
    let c := (c.set F.MEM_GROTTO_STAT_CAUSE c.mem.wipeCause).emit 0x0605 [(1, c.mem.wipeCause)]
    serveMem (c, x.2.clear inGrotto)

/-! ### Retention (R505 to R507) -/

/-- Whether a scratchpad address lies in one of the banks of a mask. -/
def inBanks (mask addr : Nat) : Bool := inScratch addr && bitAt mask (bankOf addr)

/-- MEM votes in prepare: it takes the mask (R505). -/
def Chip.takeRetention (c : Chip) : Chip := c.set F.MEM_RET_TAKEN_TAKEN (c.get F.MEM_RET_MASK)

/-- Sleep and Deep sleep: the banks not retained are switched off (R505). -/
def Chip.banksDown (c : Chip) : Chip := c.set F.MEM_RET_STAT_READY 0

/-- Wake (R506, R507): banks that were off return cleared, with owner OPEN; every bank is ready. -/
def banksUp (x : Chip × Store) : Chip × Store :=
  let c := x.1
  let lost := 0xFFFF - c.get F.MEM_RET_TAKEN_TAKEN
  let c := c.set F.MEM_RET_STAT_READY 0xFFFF
  if lost = 0 then serveMem (c, x.2)
  else
    let c := (c.orBits F.MEM_RET_STAT_LOST lost).emit 0x0604 [(2, lost)]
    let c := (setBits 16 lost).foldl (fun c b => c.setWord (R.MEM_OWN.at b 0) 7) c
    serveMem (c, x.2.clear (inBanks lost))

/-! ### DDR configuration and service (R512, R513, R521, R522) -/

def ddrBase : Nat := 0x1000000000

/-- Whether a DDR_CFG value stands in the table of configurations (R512): ×4 devices of 16 Gb in two ranks do not. -/
def ddrCfgOk (width ranks density : Nat) : Bool := density < 3 && !(width == 1 && ranks == 1 && density == 2)

/-- The fitted size in GiB (R512). -/
def ddrSize (width ranks density : Nat) : Nat := 4 * 2 ^ density * 2 ^ width * 2 ^ ranks

/-- The DDR service state: trained and serving. -/
def Chip.ddrReady (c : Chip) : Bool := c.on F.DDR_STAT_READY && c.up 4

/-- Whether n bytes from an address lie in the fitted DDR (R46). -/
def Chip.inDdr (c : Chip) (addr n : Nat) : Bool :=
  ddrBase ≤ addr && addr + n ≤ ddrBase + c.get F.DDR_STAT_SIZE * 2 ^ 30

/-- DDR_CTRL.EN written 1 (R513): initialising and training begin; SIZE shows the fitted size. -/
def Chip.ddrEnable (c : Chip) : Chip :=
  c.set F.DDR_STAT_SIZE (ddrSize (c.get F.DDR_CFG_WIDTH) (c.get F.DDR_CFG_RANKS) (c.get F.DDR_CFG_DENSITY))

/-- Training ends (R513). -/
def Chip.ddrTrained (c : Chip) (ok : Bool) : Chip :=
  if !c.on F.DDR_CTRL_EN then c
  else if ok then
    let c := { c with mem := { c.mem with trained := true } }
    (c.set F.DDR_STAT_READY 1).set F.DDR_STAT_TRAIN_FAIL 0
  else ((c.set F.DDR_STAT_READY 0).set F.DDR_STAT_TRAIN_FAIL 1).emit 0x1E06

/-- A refresh of the devices (R521): it keeps their contents and changes no state that an access can see. -/
def Chip.ddrRefresh (c : Chip) : Chip :=
  if c.ddrReady then { c with mem := { c.mem with refreshes := c.mem.refreshes + 1 } } else c

/-- Sleep, or Deep sleep with SR_DEEP at 1: self-refresh. Deep sleep with SR_DEEP at 0: the contents are lost (R522). -/
def ddrSleep (deep : Bool) (x : Chip × Store) : Chip × Store :=
  let c := x.1.set F.DDR_STAT_READY 0
  if deep && !c.on F.DDR_PWR_SR_DEEP then
    ({ c with mem := { c.mem with trained := false } }, x.2.clear (fun a => decide (ddrBase ≤ a)))
  else (c.set F.DDR_STAT_SR (bit c.mem.trained), x.2)

/-- Exit from self-refresh (R522). -/
def Chip.ddrWake (c : Chip) : Chip :=
  if c.on F.DDR_STAT_SR then (c.set F.DDR_STAT_SR 0).set F.DDR_STAT_READY 1 else c

/-! ### DDR windows and errors (R514 to R516, R523, R524) -/

def agentBit : Agent → Nat
  | .tc => 0 | .jc0 => 1 | .jc1 => 2 | .lc => 3 | .dma => 4 | .host => 5 | .str => 6 | .pipe => 7 | .fab => 8

/-- The initiator whose right an agent uses; TRUST and MEM agents have no number of their own. -/
def agentInit : Agent → Option Initiator
  | .tc => some .tc | .jc0 => some .jc0 | .jc1 => some .jc1 | .lc => some .lc | .dma => some .dma | .host => some .host
  | .str | .pipe | .fab => none

def windows : List (Fin 8) := [0, 1, 2, 3, 4, 5, 6, 7]

/-- The window that judges an address: the lowest-numbered enabled window that contains its page (R523). -/
def Chip.windowOf (c : Chip) (addr : Nat) : Option (Fin 8) :=
  windows.find? (fun w => c.on F.DDR_WIN_PERM_EN w && c.get F.DDR_WIN_BASE_PAGE w ≤ addr / 4096 && addr / 4096 ≤ c.get F.DDR_WIN_LIMIT_PAGE w)

/-- The window, if any, that refuses an access of an agent (R523, R524). -/
def Chip.windowRefuses (c : Chip) (a : Agent) (addr : Nat) (write : Bool) : Option (Fin 8) :=
  match c.windowOf addr with
  | none => none
  | some w =>
    if bitAt (c.get (if write then F.DDR_WIN_PERM_WR else F.DDR_WIN_PERM_RD) w) (agentBit a) then none else some w

/-- A window's refusal is recorded (R524). -/
def Chip.windowDeny (c : Chip) (w : Fin 8) (a : Agent) (addr : Nat) (write : Bool) : Chip :=
  let due := c.dueAgain c.mem.denyAt[w]
  let c := if due = true then
      { c with mem := { c.mem with denyAt := c.mem.denyAt.set w (some c.now) } }.emit 0x1E04 [(1, agentBit a), (5, addr)] else c
  match agentInit a with
  | some i => c.refuse i addr write
  | none => (c.addSat F.SEC_DENY_CNT_COUNT 1).emit 0x1B01 [(1, agentBit a), (5, addr)]

/-- Add to the count of a device (R515). -/
def bump (k : Nat) : List (Nat × Nat) → List (Nat × Nat)
  | [] => [(k, 1)]
  | (j, n) :: r => if j = k then (j, satNat 32 (n + 1)) :: r else (j, n) :: bump k r

/-- The count of a device. -/
def countOf (k : Nat) (l : List (Nat × Nat)) : Nat := ((l.find? (fun e => e.1 == k)).map Prod.snd).getD 0

/-- The capture of an error's line and device. -/
def Chip.ddrCapture (c : Chip) (e : DdrError) : Chip :=
  let c := c.set F.DDR_ECC_ADDR_LO_ADDR (e.line / 64)
  c.setWord R.DDR_ECC_ADDR_HI.addr
    (BitVec.ofNat 32 (bit e.fatal * 2 ^ 31 + e.rank % 2 * 2 ^ 30 + e.dev % 32 * 2 ^ 25 + e.line / 2 ^ 32 % 256))

/-- A corrected read (R515). -/
def Chip.ddrCe (c : Chip) (e : DdrError) : Chip :=
  let c := ((c.addSat F.DDR_ECC_CE_COUNT 1).ddrCapture e)
  let c := { c with mem := { c.mem with devCnt := bump (32 * e.rank + e.dev) c.mem.devCnt } }
  let due := c.dueAgain c.mem.ceAt
  if due = true then { c with mem := { c.mem with ceAt := some c.now } }.emit 0x1E01 else c

/-- An uncorrectable read (R516). -/
def Chip.ddrUe (c : Chip) (e : DdrError) : Chip :=
  ((c.addSat F.DDR_ECC_UE_COUNT 1).ddrCapture e).emit 0x1E02 [(5, e.line), (1, e.dev)]

/-- The errors of the step on the lines of n bytes from an address. -/
def errorsOn (errs : List DdrError) (addr n : Nat) : List DdrError :=
  errs.filter (fun e => e.line < addr + n && addr < e.line + 64)

/-- The lines of a read are judged: the chip after it, and whether every line could be delivered. -/
def Chip.ddrJudge (c : Chip) (errs : List DdrError) : Chip × Bool :=
  (errs.foldl (fun c e => if e.fatal then c.ddrUe e else c.ddrCe e) c, errs.all (fun e => !e.fatal))

/-- A hardware agent reads DDR (R516, R523, R524): the bytes, or none when a line is uncorrectable, a window refuses the
read, or DDR does not serve the address. -/
def Chip.agentRead (c : Chip) (m : Store) (a : Agent) (errs : List DdrError) (addr n : Nat) : Chip × Option (List Byte) :=
  if !c.ddrReady || !c.inDdr addr n then (c, none)
  else match c.windowRefuses a addr false with
    | some w => (c.windowDeny w a addr false, none)
    | none =>
      let r := c.ddrJudge (errorsOn errs addr n)
      (r.1, if r.2 then some (m.read addr n) else none)

/-- Whether a write covers whole 64-byte lines. -/
def wholeLines (addr n : Nat) : Bool := addr % 64 == 0 && n % 64 == 0

/-- A hardware agent writes DDR: a refused write is discarded, and so is a write of part of a line whose read fails. The
flag says whether the write completed. -/
def agentWriteOk (a : Agent) (errs : List DdrError) (addr : Nat) (l : List Byte) (x : Chip × Store) : (Chip × Store) × Bool :=
  let c := x.1
  if !c.ddrReady || !c.inDdr addr l.length then (x, false)
  else match c.windowRefuses a addr true with
    | some w => ((c.windowDeny w a addr true, x.2), false)
    | none =>
      if wholeLines addr l.length then ((c, x.2.write addr l), true)
      else
        let r := c.ddrJudge (errorsOn errs addr l.length)
        ((r.1, if r.2 then x.2.write addr l else x.2), r.2)

def agentWrite (a : Agent) (errs : List DdrError) (addr : Nat) (l : List Byte) (x : Chip × Store) : Chip × Store :=
  (agentWriteOk a errs addr l x).1

/-- An access of an initiator to DDR (R46, R49, R51, R513 to R516, R523, R524). -/
def ddrAccess (a : Agent) (addr : Nat) (op : MemOp) (errs : List DdrError) (inFlight : Nat) (x : Chip × Store) : Chip × Store :=
  let c := x.1
  let m := x.2
  let i := (agentInit a).getD .dma
  let c := c.set F.DDR_RD_INUSE (min inFlight 96)
  let c := c.set F.DDR_RD_MAX (max (c.get F.DDR_RD_MAX) (min inFlight 96))
  if !c.ddrReady then ((c.answered (if a = .host then .completerAbort else .busError)), m)
  else if !c.inDdr addr op.size then (c.outside i op.isWrite, m)
  else match c.windowRefuses a addr op.isWrite with
    | some w => (c.windowDeny w a addr op.isWrite, m)
    | none =>
      match op with
      | .read n =>
        let r := c.ddrJudge (errorsOn errs addr n)
        if r.2 then
          let l := m.read addr n
          ((r.1.send "memRead" (l.map BitVec.toNat)).answered (.data (BitVec.ofNat 32 (leNat l))), m)
        else (r.1.answered (if a = .host then .completerAbort else .busError), m)
      | .write l =>
        if wholeLines addr l.length then (c.answered .done, m.write addr l)
        else
          let r := c.ddrJudge (errorsOn errs addr l.length)
          if r.2 then (r.1.answered .done, m.write addr l)
          else if a = .host then (r.1.hostDiscard, m) else (r.1.answered .busError, m)

/-! ### Patrol scrub (R519, R520) -/

/-- Devices whose corrections rose by DEV_THR or more since the pass began. -/
def Chip.suspects (c : Chip) : List Nat :=
  (c.mem.devCnt.filter (fun e => c.get F.DDR_ECC_CFG_DEV_THR ≤ e.2 - countOf e.1 c.mem.devStart)).map Prod.fst

/-- A scrub burst that the Ladle granted (R519, R520): the errors of its lines; the last burst ends the pass. -/
def Chip.scrubBurst (c : Chip) (errs : List DdrError) : Chip :=
  let pos := c.get F.DDR_SCRUB_POS_POS
  let c := (c.ddrJudge (errorsOn errs (ddrBase + 4096 * pos) 4096)).1
  if pos + 1 < c.get F.DDR_STAT_SIZE * 2 ^ 18 then c.set F.DDR_SCRUB_POS_POS (pos + 1)
  else
    let c := ((c.set F.DDR_SCRUB_POS_POS 0).emit 0x1E05).addSat F.DDR_SCRUB_STAT_PASSES 1
    let c := c.suspects.foldl (fun c k => c.emit 0x1E03 [(1, k / 32), (1, k % 32)]) c
    { c with mem := { c.mem with devStart := c.mem.devCnt } }

/-- The Ladle refuses a burst: it is asked for again after 1 ms (R519). -/
def Chip.scrubRefused (c : Chip) : Chip := c.addSat F.DDR_SCRUB_STAT_REFUSED 1

end Sys2Proof.Machine
end

