-- ==== Sys2Proof/Machine/Account.lean ====
section
/-!
DEFINITION. Which items a line event carries, and what a report does to their accounts (R229, R230).
-/

namespace Sys2Proof.Machine

/-- The offset bank in force at TRK (R127). -/
def Chip.bankNow (c : Chip) : OffsetBank := c.trk.banks[(if c.trk.bank then 1 else 0 : Fin 2)]

/-- The whole-line delay L of row r of port k (R129). -/
def Chip.rowDelay (c : Chip) (k : Fin 8) (r : Fin 6) : Int := c.bankNow.ofs[k][r] / 64

/-- The ink channel of row r of port k: the image's ROW_IC map. -/
def Chip.rowChannel (c : Chip) (k : Fin 8) (r : Nat) : Nat := bitsOf c.str.img.rowIc[k] (3 * r + 2) (3 * r)

/-- Whether the structure image enables port k. -/
def Chip.portEnabled (c : Chip) (k : Fin 8) : Bool := c.on F.COL_PORT_EN k && c.hasPort k

/-- The tile position port k drives: an active standby port drives its target (R196). -/
def Chip.portTile (c : Chip) (k : Fin 8) : Nat :=
  match c.col.standsFor[k] with
  | some j => c.get F.COL_PORT_TP j
  | none => c.get F.COL_PORT_TP k

/-- The ports of the device. -/
def allPorts : List (Fin 8) := [0, 1, 2, 3, 4, 5, 6, 7]
def allRows : List (Fin 6) := [0, 1, 2, 3, 4, 5]

/-- Ring depth in lines (CMP_RING_CFG.DEPTH_SEL). -/
def Chip.ringDepth (c : Chip) : Nat := 1024 * 2 ^ c.get F.CMP_RING_CFG_DEPTH_SEL

/-- Whether row offset O cannot fire: negative, or not less than the ring depth in lines (R131). -/
def Chip.offsetBad (c : Chip) (o : Int) : Bool := o < 0 || (c.ringDepth : Int) ≤ o / 64

/-- Whether parity set f (0 none, 1 odd, 2 even, 3 every line) fires line n (R184). -/
def parityFires (f : Nat) (n : Int) : Bool := f = 3 || (f = 1 && n % 2 = 1) || (f = 2 && n % 2 = 0)

/-- The set of lines port k fires (R184): 0 none, 1 odd, 2 even, 3 every line; every line also while it fires events of
the other parity for same-line fills. -/
def Chip.firesNow (c : Chip) (k : Fin 8) : Nat :=
  if c.on F.COL_PSTAT_EXTRA k ∧ c.get F.COL_PSTAT_FIRES k ≠ 0 then 3 else c.get F.COL_PSTAT_FIRES k

/-- The set of lines port k fires at line n: the present set from the line of the last switch on (R184, R189). -/
def Chip.firesAt (c : Chip) (k : Fin 8) (n : Int) : Nat :=
  if c.col.switchAt[k] ≤ n then c.firesNow k else c.col.prevFires[k]

/-- Whether port k fires line n under its mode and the notices applied (R184, R189). -/
def Chip.portFires (c : Chip) (k : Fin 8) (n : Int) : Bool := c.portEnabled k && parityFires (c.firesAt k n) n

/-- Whether an item holds web line w. -/
def Account.holds (a : Account) (w : Int) : Bool := a.start ≤ w && w < a.start + a.lines

/-- Whether event n carries an item for port k (R229). -/
def Chip.carries (c : Chip) (k : Fin 8) (n : Int) (a : Account) : Bool :=
  let org := c.get F.CMP_TP_ORG (c.portTile k)
  a.origin < org + 1280 && org < a.origin + a.width && allRows.any (fun r => a.holds (n - c.rowDelay k r))

/-- Change the accounts that event n carries on one of the ports. -/
def Chip.markCarried (c : Chip) (ports : List (Fin 8)) (n : Int) (f : Account → Account) : Chip :=
  { c with nzh := { c.nzh with accounts := c.nzh.accounts.map (fun a => if ports.any (fun k => c.carries k n a) then f a else a) } }

/-- Set a flag of an account (bit of R236). -/
def Account.flag (b : Nat) (a : Account) : Account := { a with flags := putBit a.flags b true }

/-- Flag bits of R236. -/
def flagSubst : Nat := 5
def flagRingMiss : Nat := 6
def flagForce : Nat := 7
def flagDropped : Nat := 8
def flagDegraded : Nat := 9
def flagCompensated : Nat := 10
def flagDotLost : Nat := 11
def flagSuppress : Nat := 12
def flagBlank : Nat := 13
def flagTakeover : Nat := 14
def flagHalf : Nat := 15
def flagUnsensed : Nat := 17

/-- Event n counts as a dropped line for the items it carries on the ports (R133, R230). -/
def Chip.dropLine (c : Chip) (ports : List (Fin 8)) (n : Int) : Chip :=
  c.markCarried ports n (fun a =>
    { a.flag flagDropped with drops := if a.drops.contains n then a.drops else n :: a.drops })


/-- A port line loses its firing (R36, R40, R54, vacant port): a dropped line on that port. -/
def Chip.portLineLost (c : Chip) (k : Fin 8) (n : Int) : Chip := c.dropLine [k] n

/-- Whether port k senses at all (NZH_CTRL.EN, NZH_XCFG.SENSE_DIS). -/
def Chip.senses (c : Chip) (k : Fin 8) : Bool := c.on F.NZH_CTRL_EN && !bitAt (c.get F.NZH_XCFG_SENSE_DIS) k

/-- The groups a port senses on line n: one while it fires every line, else two (R215). -/
def Chip.groupsPerLine (c : Chip) (k : Fin 8) (n : Int) : Nat := if c.firesAt k n = 3 then 1 else 2

/-- The groups of a line that the port should fire but does not, or whose frame is missing, are skipped (R216, R220). A port
that senses nothing has no group to skip. -/
def Chip.skipGroups (c : Chip) (k : Fin 8) (n : Int) : Chip :=
  if c.senses k then c.addSat F.NZH_MISS_CNT_SKIP (c.groupsPerLine k n) else c

end Sys2Proof.Machine
end

