-- ==== Sys2Proof/Machine/Trk.lean ====
section
/-!
DEFINITION. The tracking unit (R106 to R139, R112 to R117 for its sources): measurements, the α-β loop, line events, the
mode limit and SPEED_REQ.
-/

namespace Sys2Proof.Machine

/-- A 48.16 position word in lines. -/
def lines4816 (hi lo : Nat) : Rat := (signed 64 (hi * 2 ^ 32 + lo) : Rat) / (2 ^ 16 : Nat)

/-- The ratio in force of encoder x, in lines per count (R108). -/
def Chip.ratio (c : Chip) (x : Fin 2) : Rat :=
  if x = 0 then (c.inForce F.TRK_RATIO0_HI_INT : Rat) + (c.inForce F.TRK_RATIO0_LO_FRAC : Rat) / (2 ^ 32 : Nat)
  else (c.inForce F.TRK_RATIO1_HI_INT : Rat) + (c.inForce F.TRK_RATIO1_LO_FRAC : Rat) / (2 ^ 32 : Nat)

/-- TRK_START in lines. -/
def Chip.trkStart (c : Chip) : Rat := lines4816 (c.get F.TRK_START_HI_START_HI) (c.get F.TRK_START_LO_START_LO)

/-- The tracked position at press time t in ns (R118). -/
def Chip.xAt (c : Chip) (t : Rat) : Rat := c.trk.x + c.trk.v * (t - c.trk.tx)

/-- The tracked position in whole ticks now. -/
def Chip.ticks (c : Chip) : Int := (c.xAt c.nowQ * 64).floor

/-- The tracked line rate in lines per second. -/
def Chip.rate (c : Chip) : Rat := c.trk.v * (1000000000 : Nat)

def Chip.active (c : Chip) : Nat := c.get F.TRK_STAT_ACTIVE
def Chip.trkOn (c : Chip) : Bool := c.on F.TRK_CTRL_EN

/-! ### Sources (R111 to R117) -/

/-- The source that a code of TRK_SRC names: 0 ENC0, 1 ENC1, 2 the fabric node of the primary, 3 that of the fallback, 4 none. -/
def sourceOf (code : Nat) (fb : Bool) : Nat := if code = 3 then 4 else if code = 2 ∧ fb = true then 3 else code

/-- The code of a source, as TRK_SRC and TRK_STAT.ACTIVE have it. -/
def sourceCode (src : Nat) : Nat := if src < 3 then src else src - 1

/-- The pair of sources, and the active one. -/
def Chip.priSource (c : Chip) : Nat := sourceOf (c.get F.TRK_SRC_PRI) false
def Chip.fbSource (c : Chip) : Nat := sourceOf (c.get F.TRK_SRC_FB) true
def Chip.activeSource (c : Chip) : Nat := sourceOf c.active c.trk.fabFb

/-- Why a source is in a state of R112's list, as the trigger of SRC_SWITCH: 0 ENC_FAULT, 1 WIRE_FAULT, 2 sample timeout,
3 VALID 0 or node lost. None for a healthy source; a source of none is never healthy. -/
def Chip.sourceState (c : Chip) (src : Nat) : Option Nat :=
  if 4 ≤ src then some 4
  else if 2 ≤ src then
    if c.trk.fabBad[Fin.ofNat 2 (src - 2)] then some 3
    else if c.trk.fabAt[Fin.ofNat 2 (src - 2)] + us (c.get F.TRK_FAB_TIME_TO) ≤ c.now then some 2 else none
  else if c.on F.POS_ENC_STAT_ENC_FAULT src then some 0
  else if c.get F.POS_ENC_STAT_WIRE_ACT src % 4 ≠ 0 then some 1 else none

def Chip.healthy (c : Chip) (src : Nat) : Bool := (c.sourceState src).isNone

/-- The other source of the pair (R112). -/
def Chip.otherSource (c : Chip) : Nat := if c.activeSource = c.priSource then c.fbSource else c.priSource

/-- A source is the active one. -/
def Chip.showActive (c : Chip) (src : Nat) : Chip :=
  { c.set F.TRK_STAT_ACTIVE (sourceCode src) with trk := { c.trk with fabFb := src == 3 } }

/-- A source becomes active (R112, R117): its offset d freezes, the change is recorded. -/
def Chip.makeActive (c : Chip) (src trigger : Nat) : Chip :=
  (c.showActive src).emit 0x0A02 [(1, c.active), (1, sourceCode src), (1, trigger)]

/-- Coasting begins, unless it has begun (R115). -/
def Chip.coast (c : Chip) : Chip :=
  if c.on F.TRK_STAT_COAST then c else { c.set F.TRK_STAT_COAST 1 with trk := { c.trk with coastAt := c.now } }

/-- The offset d of a source is followed afresh from its next measurement (R114). -/
def Chip.followAfresh (c : Chip) (bad : Nat → Bool) : Chip :=
  { c with trk := { c.trk with dAt := Vector.ofFn (fun (i : Fin 4) => if bad i.val then none else c.trk.dAt[i]) } }

/-- TRK abandons the active source (R112, R115, R117). -/
def Chip.abandon (c : Chip) (trigger : Nat) : Chip :=
  let old := c.activeSource
  let other := c.otherSource
  let c := (c.coast).followAfresh (fun i => i == old)
  if c.healthy other then c.makeActive other trigger else c.showActive 4

/-- After something changed: an unhealthy active source is abandoned; with no active source, the first of the pair that is
healthy becomes active, the primary first (R117). -/
def Chip.serveSources (c : Chip) : Chip :=
  if !c.trkOn then c
  else
    let c := c.followAfresh (fun i => !c.healthy i)
    if c.active = 3 then
      if c.healthy c.priSource then c.makeActive c.priSource 4
      else if c.healthy c.fbSource then c.makeActive c.fbSource 4 else c
    else match c.sourceState c.activeSource with
      | some t => c.abandon t
      | none => c

/-- A write of 1 to TRK_SRC.SWITCH (R112, R113). -/
def Chip.srcSwitch (c : Chip) : Chip :=
  if c.trkOn ∧ c.healthy c.otherSource then c.abandon 5 else c.addSat F.TRK_REJ_CNT_COUNT 1

/-- After a change of TRK_SRC: an active fabric node that now serves as the other member of the pair keeps its offset. -/
def Chip.pairChanged (c : Chip) : Chip :=
  if c.trkOn ∧ c.active = 2 ∧ c.activeSource ≠ c.priSource ∧ c.activeSource ≠ c.fbSource ∧ (c.priSource = 2 ∨ c.fbSource = 3) then
    let fb := !c.trk.fabFb
    let a : Fin 4 := if fb then 2 else 3
    let b : Fin 4 := if fb then 3 else 2
    let x : Fin 2 := if fb then 0 else 1
    let y : Fin 2 := if fb then 1 else 0
    { c with trk := { c.trk with
        fabFb := fb, d := c.trk.d.set b c.trk.d[a]
        fabAt := c.trk.fabAt.set y c.trk.fabAt[x], fabBad := c.trk.fabBad.set y c.trk.fabBad[x] } }
  else c

/-! ### The loop (R114, R118 to R120) -/

/-- ω in rad/s and ζ (R119). -/
def Chip.loopGain (c : Chip) : Rat × Rat :=
  if c.on F.TRK_XLOOP_W_OVR then
    ((c.get F.TRK_XLOOP_W_OMEGA : Rat) / (256 : Nat), (c.get F.TRK_XLOOP_Z_ZETA : Rat) / (4096 : Nat))
  else (Config.loopOmega (c.inForce F.TRK_LOOP_BW_SEL), 1)

def absQ (r : Rat) : Rat := if r < 0 then -r else r
def minQ (a b : Rat) : Rat := if a < b then a else b
def maxQ (a b : Rat) : Rat := if a < b then b else a

/-- The loop update of R118 for a measurement (z, tz) of the active source. -/
def Chip.loopUpdate (c : Chip) (z tz : Rat) : Chip :=
  let t := c.trk
  let dt := tz - (t.lastMeas.getD t.tx)
  let xp := t.x + t.v * (tz - t.tx)
  let r := z - xp
  let c := { c with trk := { t with lastMeas := some tz } }
  if (c.get F.TRK_RESMAX_RESMAX : Rat) < absQ r * (64 : Nat) then
    ({ c with trk := { c.trk with x := z, tx := tz } }.set F.TRK_STAT_JUMP 1).emit 0x0A04
      [(4, unsigned 32 (satInt 32 (roundQ (r * (1024 : Nat)))))]
  else
    let w : Rat := c.loopGain.1 / ((1000000000 : Nat) : Rat)
    let a := minQ (2 * c.loopGain.2 * w * dt) (1 / 2)
    let b := minQ (w * dt * (w * dt)) (1 / 4)
    let dv := b * r / dt
    let bound := (c.get F.TRK_AMAX_AMAX : Rat) / (1000000000000000000 : Nat) * dt
    let sat := bound < absQ dv
    let dv := if sat then (if dv < 0 then -bound else bound) else dv
    let c := { c with trk := { c.trk with x := xp + a * r, v := t.v + dv, tx := tz } }
    if sat then
      let c := c.set F.TRK_STAT_LOOP_SAT 1
      match c.trk.satAt with
      | some s => if s + ms 1 ≤ c.now then { c with trk := { c.trk with satAt := some c.now } }.emit 0x0A05 else c
      | none => { c with trk := { c.trk with satAt := some c.now } }.emit 0x0A05
    else c

/-- A measurement of a source (R107, R109, R114 to R118): of the active source it ends coasting and updates the loop; of a
healthy source that is not active it updates that source's offset d. -/
def Chip.measure (c : Chip) (src : Fin 4) (z tz : Rat) : Chip :=
  if c.activeSource = src.val then
    let z' := z - c.trk.d[src]
    let c := { c with trk := { c.trk with newest := (z, tz) } }
    if c.on F.TRK_STAT_NO_SOURCE then
      let c := { c with trk := { c.trk with x := z', tx := tz, lastMeas := some tz } }
      (c.set F.TRK_STAT_NO_SOURCE 0).set F.TRK_STAT_COAST 0
    else (c.set F.TRK_STAT_COAST 0).loopUpdate z' tz
  else if c.healthy src ∧ (src.val = c.priSource ∨ src.val = c.fbSource) then
    let r := z - c.xAt tz
    let d := c.trk.d[src]
    let d' := match c.trk.dAt[src] with
      | none => r
      | some t0 => d + Config.decay ((tz - t0) / (10000000 : Nat)) * (r - d)
    { c with trk := { c.trk with d := c.trk.d.set src d', dAt := c.trk.dAt.set src (some tz) } }
  else c

/-- Applied counts of an encoder, one after another at one timestamp (R106, R107). -/
def Chip.trkCounts (x : Fin 2) (fwd : Bool) (ts : Nat) : Nat → Chip → Chip
  | 0, c => c
  | k + 1, c =>
    let z := c.trk.pos[x] + (if fwd then c.ratio x else -c.ratio x)
    let c := { c with trk := { c.trk with pos := c.trk.pos.set x z } }
    Chip.trkCounts x fwd ts k (c.measure (if x = 0 then 0 else 1) z ((ts : Rat) / (2 : Nat)))

/-- Coasting reached TRK_COAST_MAX (R115). -/
def Chip.noSource (c : Chip) : Chip :=
  if c.trkOn ∧ c.on F.TRK_STAT_COAST ∧ !c.on F.TRK_STAT_NO_SOURCE
      ∧ c.trk.coastAt + us (c.get F.TRK_COAST_MAX_COAST_MAX) ≤ c.now then
    ((c.set F.TRK_STAT_NO_SOURCE 1).set F.TRK_STAT_RUN 0).emit 0x0A03
  else c

/-! ### SPEED_REQ (R134, R136) -/

/-- The mode limit in lines per second (R134). -/
def Chip.fLim (c : Chip) : Nat :=
  min (if c.inForce F.TRK_CTRL_SPRINT = 1 ∧ c.feature 2 then 96000 else 48000) c.str.img.lrateCeil

/-- Causes present, in the bit order of TRK_SPREQ.EN_OVER upward (R136). -/
def Chip.spreqCauses (c : Chip) : Nat :=
  bit (c.on F.TRK_STAT_CLAMP)
  + 2 * bit (c.trkOn && decide ((c.get F.TRK_WARN_WARN * c.fLim : Rat) ≤ c.rate * (1000 : Nat)))
  + 4 * bit c.trk.tkoCause
  + 8 * bit (allPorts.any (fun k => c.on F.HP_PSTAT_BLANK k))
  + 16 * bit (c.on F.TRK_STAT_COAST || c.on F.TRK_STAT_NO_SOURCE)

/-- SPEED_REQ follows its causes while POS is up; it goes inactive only HOLD ms after the last enabled cause (R136). -/
def Chip.serveSpreq (c : Chip) : Chip :=
  let was := c
  let causes := c.spreqCauses
  let c := c.set F.TRK_SPREQ_STAT_CAUSE causes
  let enabled := bitsOf (c.word R.TRK_SPREQ.addr).toNat 12 8
  if !c.up 6 then was
  else if causes &&& enabled ≠ 0 ∨ c.on F.TRK_SPREQ_SW then
    { c.set F.TRK_SPREQ_STAT_OUT 1 with trk := { c.trk with spreqHold := none } }
  else if c.on F.TRK_SPREQ_STAT_OUT ∧ c.trk.spreqHold.isNone then
    { c with trk := { c.trk with spreqHold := some (c.now + ms (c.get F.TRK_SPREQ_HOLD)) } }
  else c

/-- HOLD ms after the last cause cleared (R136). -/
def Chip.spreqHoldEnd (c : Chip) : Chip :=
  match c.trk.spreqHold with
  | some t => if t ≤ c.now then { c.set F.TRK_SPREQ_STAT_OUT 0 with trk := { c.trk with spreqHold := none } } else c
  | none => c

/-- The level of the SPEED_REQ ball (R136, R137). -/
def Chip.spreqBall (c : Chip) : Bool := c.trk.enabledOnce && (c.on F.TRK_SPREQ_STAT_OUT != c.on F.TRK_SPREQ_POL)

/-- What TRK does by itself after any change of its inputs. -/
def Chip.serveTrk (c : Chip) : Chip := c.serveSources.serveSpreq

/-! ### Hand-over (R127, R128) -/

/-- The offsets and flight times in force (R129), under the ink-channel map that TRK took. -/
def Chip.offsetsInForce (c : Chip) : OffsetBank :=
  { ofs := Vector.ofFn (fun k => Vector.ofFn (fun r =>
      signed 21 (c.inForce F.TRK_TILEOFS_OFS k.val) + signed 21 (c.inForce F.TRK_ROWOFS_OFS k.val r.val)
        + signed 21 (c.inForce F.TRK_ICOFS_OFS (bitsOf c.str.img.trkIc[k] (3 * r.val + 2) (3 * r.val)))))
    flt := Vector.ofFn (fun i => c.inForce F.TRK_FLT_FLT i.val) }

/-- OFS_RANGE for every row of port k to which the hand-over brings an offset that cannot fire (R131). -/
def Chip.checkPortOffsets (old : OffsetBank) (c : Chip) (k : Fin 8) : Chip :=
  allRows.foldl (fun c r =>
    if c.bankNow.ofs[k][r] != old.ofs[k][r] && c.offsetBad c.bankNow.ofs[k][r] then
      (c.orBits F.TRK_SHSTAT_OFS_RANGE (2 ^ k.val)).emit 0x0A08 [(1, k.val), (1, r.val)]
    else c) c

/-- The registers of a pair whose low half loads with a write of the high half (R108). -/
def lowHalves : List (Nat × Nat) :=
  [(R.TRK_RATIO0_LO.addr, R.TRK_RATIO0_HI.addr), (R.TRK_RATIO1_LO.addr, R.TRK_RATIO1_HI.addr),
   (R.TRK_FAB_LOFS_LO.addr, R.TRK_FAB_LOFS_HI.addr)]

/-- A low half that waits for a write of its high half. -/
def Chip.lowAlone (c : Chip) (a : Nat) : Bool :=
  match lowHalves.lookup a with
  | some hi => !c.dirty.contains hi
  | none => false

/-- The shadowed writes of TRK that a hand-over takes. -/
def Chip.trkDirty (c : Chip) : List Nat := c.dirty.filter (fun a => decide (blockOf a = 0x0A) && !c.lowAlone a)

/-- The shadowed writes come into force (R127, R128). -/
def Chip.trkCopy (c : Chip) : Chip :=
  let c := c.handOver c.trkDirty
  if c.dirty.any (fun a => decide (blockOf a = 0x0A)) then c else (c.set F.TRK_SHSTAT_SHADOW_TAKEN 1).set F.TRK_SHSTAT_PENDING 0

/-- Offsets and flight times go into the other bank, which the next events name (R127). -/
def Chip.loadBank (c : Chip) : Chip :=
  let old := c.bankNow
  let b := !c.trk.bank
  let c := { c with trk := { c.trk with bank := b, banks := c.trk.banks.set (if b then 1 else 0 : Fin 2) c.offsetsInForce } }
  allPorts.foldl (Chip.checkPortOffsets old) c

/-- TRK's hand-over: the shadowed writes come into force; changed offsets or flight times go into the other bank. -/
def Chip.trkHandOver (c : Chip) : Chip :=
  if c.trkDirty = [] then c
  else
    let c := c.trkCopy
    if c.offsetsInForce = c.bankNow then c else c.loadBank

/-- TRK_CTRL.EN goes from 0 to 1 (R106, R111, R114, R127). -/
def Chip.trkEnabled (c : Chip) : Chip :=
  let c := (c.trkCopy).loadBank
  let s := c.trkStart
  let t := { c.trk with
    pos := Vector.replicate 2 s, d := Vector.replicate 4 0, dAt := Vector.replicate 4 none
    x := s, v := 0, tx := c.nowQ, lastMeas := some c.nowQ, newest := (s, c.nowQ), fabAt := Vector.replicate 2 c.now, fabBad := Vector.replicate 2 false, fabFb := false
    lastLine := s.floor, issued := false, lastFiredE := none, lastDrop := false, clampRun := false, checks := []
    enabledOnce := true }
  let c := { c with trk := t }
  let c := ((c.set F.TRK_STAT_COAST 0).set F.TRK_STAT_NO_SOURCE 0).set F.TRK_STAT_ACTIVE (c.get F.TRK_SRC_PRI)
  c.serveTrk

/-- TRK_CTRL.EN goes to 0: no line is issued or clamped, no source is followed. -/
def Chip.trkDisabled (c : Chip) : Chip :=
  (((((c.set F.TRK_STAT_RUN 0).set F.TRK_STAT_CLAMP 0).set F.TRK_STAT_UNDERSPEED 0).set F.TRK_STAT_COAST 0).set
    F.TRK_STAT_NO_SOURCE 0).serveSpreq

/-! ### Line events (R121 to R126, R130, R133, R135) -/

/-- τ_max: the largest flight time in force, ns (R122). -/
def Chip.tauMax (c : Chip) : Nat := ((List.finRange 6).map (fun i => c.bankNow.flt[i])).foldl max 0

/-- T(n): the predicted time at which the tracked position reaches n, ns (R118). -/
def Chip.timeOf (c : Chip) (n : Int) : Rat := c.trk.tx + ((n : Rat) - c.trk.x) / c.trk.v

/-- The line period in 1/64 ns, halves rounded up, 28 bits (R121). -/
def Chip.period64 (c : Chip) : Nat := ((64 : Nat) / c.trk.v + 1 / 2).floor.toNat % 2 ^ 28

/-- The earliest E(n) that the mode limit allows, ns (R130). -/
def Chip.clampedE (c : Chip) (e : Rat) : Rat :=
  match c.trk.lastFiredE with
  | some l => maxQ e ((l : Rat) / (256 : Nat) + (1000000000 : Nat) / (c.fLim : Rat))
  | none => e

/-- A press time in ns as TIME holds it, in 1/256 ns. -/
def timeField (t : Rat) : Nat :=
  let q := t * (256 : Nat)
  (if Config.eventTimeRoundsUp then q.ceil else q.floor).toNat

/-- Send a line event to the ports and to PIPE (R126). -/
def Chip.publish (c : Chip) (e : LineEvent) : Chip :=
  { c with trk := { c.trk with way := c.trk.way.map (fun l => l ++ [e]), events := (e :: c.trk.events).take 4096 } }

/-- Whether line events may be issued (R115, R124). -/
def Chip.mayIssue (c : Chip) : Bool :=
  c.trkOn && !c.on F.TRK_STAT_NO_SOURCE && 0 < c.trk.v && (c.inForce F.TRK_VMIN_VMIN : Rat) ≤ c.rate

/-- Line event n is issued with DROP (R125). -/
def Chip.issueDrop (c : Chip) (n : Int) (e : Rat) : Chip :=
  let ev : LineEvent := ⟨n, timeField e, c.period64, c.trk.bank, true, false, c.on F.TRK_STAT_COAST⟩
  let c := if c.trk.lastDrop then c else c.emit 0x0A09 [(6, unsigned 48 n), (1, 0)]
  let c := if c.on F.TRK_STAT_COAST then c.addSat F.TRK_COAST_CNT_COUNT 1 else c
  let c := (c.addSat F.TRK_DROP_CNT_COUNT 1).dropLine (allPorts.filter c.portEnabled) n
  ({ c with trk := { c.trk with lastLine := n, issued := true, lastDrop := true } }).publish ev

/-- Line event n is issued to be fired (R121, R130, R133, R135). -/
def Chip.issueFire (c : Chip) (n : Int) (e ecl : Rat) : Chip :=
  let clamp := decide (e < ecl)
  let coast := c.on F.TRK_STAT_COAST
  let ev : LineEvent := ⟨n, timeField ecl, c.period64, c.trk.bank, false, clamp, coast⟩
  let c := if clamp ∧ !c.trk.clampRun then
      (c.set F.TRK_STAT_OVERSPEED 1).emit 0x0A01 [(4, unsigned 32 (satInt 32 (c.rate * (256 : Nat)).floor))] else c
  let c := c.set F.TRK_STAT_CLAMP (bit clamp)
  let c := if clamp then c.addSat F.TRK_CLAMP_CNT_COUNT 1 else c
  let c := if coast then c.addSat F.TRK_COAST_CNT_COUNT 1 else c
  let c := if clamp ∨ coast then c.dropLine (allPorts.filter (fun k => c.portFires k n)) n else c
  let checks := if clamp ∨ coast then c.trk.checks else c.trk.checks ++ [(n, c.timeOf n)]
  ({ c with trk := { c.trk with
      lastLine := n, issued := true, lastDrop := false, clampRun := clamp, lastFiredE := some ev.time, checks := checks } }).publish ev

/-- TRK issues the next line event if it is due (R123 to R125, R127); `pre` is what a structure image brings to the hand-over
of the line (R411). -/
def Chip.trkIssue (pre : Int → Chip → Chip) (c : Chip) : Chip :=
  if !c.mayIssue then
    if c.trkOn ∧ !c.on F.TRK_STAT_NO_SOURCE then
      let c := if c.on F.TRK_STAT_RUN ∧ !c.on F.TRK_STAT_UNDERSPEED then c.emit 0x0A06 else c
      (c.set F.TRK_STAT_UNDERSPEED 1).set F.TRK_STAT_RUN 0
    else c.set F.TRK_STAT_RUN 0
  else
    let c := c.set F.TRK_STAT_UNDERSPEED 0
    let n := c.trk.lastLine + 1
    let lead : Rat := (c.inForce F.TRK_LEAD_LEAD : Rat) * (c.period64 : Rat) / (64 : Nat) + (500 : Nat)
    if c.clampedE (c.timeOf n - (c.tauMax : Rat)) - c.nowQ ≤ lead then
      let c := (pre n c).trkHandOver
      let e := c.timeOf n - (c.tauMax : Rat)
      let ecl := c.clampedE e
      let c := c.set F.TRK_STAT_RUN 1
      let fireAt := maxQ ecl c.nowQ + (c.tauMax : Rat)
      (if (n : Rat) + 1 / 2 ≤ c.xAt fireAt then c.issueDrop n ecl else c.issueFire n e ecl).serveTrk
    else c

/-- The placement check at T(n) (R132). -/
def Chip.placementCheck (c : Chip) (n : Int) : Chip :=
  match takeFirst (fun e => e.1 == n) c.trk.checks with
  | none => c
  | some ((_, t), rest) =>
    let err := (c.xAt t - (n : Rat)) * (64 : Nat)
    let c := { c with trk := { c.trk with checks := rest } }
    let last := satInt 16 (roundQ (err * (16 : Nat)))
    let c := c.set F.TRK_PLACE_ERR_LAST (unsigned 16 last)
    if (c.get F.TRK_PLACE_TOL_TOL : Rat) < absQ err then
      ((c.addSat F.TRK_PLACE_ERR_CNT 1).emit 0x0A07 [(6, unsigned 48 n), (4, unsigned 32 (satInt 32 (roundQ (err * (16 : Nat)))))]).dropLine
        (allPorts.filter (fun k => c.portFires k n)) n
    else c

/-- The position sample of R110 leaves: node, sequence number, VALID, timestamp in 0.5 ns units, position in 48.16 lines. -/
def Chip.broadcast (c : Chip) : Chip :=
  if c.trkOn ∧ c.on F.TRK_BCAST_EN then
    let valid := decide (c.active < 2) && !c.on F.TRK_STAT_COAST
    let m := c.trk.newest
    let c := c.send "posSample" [c.get F.FAB_NODE_NODE_ID, c.trk.bcastSeq, bit valid, (m.2 * (2 : Nat)).floor.toNat,
      unsigned 64 (m.1 * (65536 : Nat)).floor]
    { c with trk := { c.trk with bcastSeq := (c.trk.bcastSeq + 1) % 256 } }
  else c

/-- The members of the pair that node serves as a fabric source: 0 the primary, 1 the fallback (R109). -/
def Chip.fabMembers (c : Chip) (node : Nat) : List (Fin 2) :=
  (if c.get F.TRK_SRC_PRI = 2 ∧ node = c.get F.TRK_FAB_NODE_PRI_NODE then [0] else [])
    ++ (if c.get F.TRK_SRC_FB = 2 ∧ node = c.get F.TRK_FAB_NODE_FB_NODE then [1] else [])

/-- The fabric source of a node is unhealthy: VALID was 0, or the node is lost (R112). -/
def Chip.fabFails (c : Chip) (node : Nat) : Chip :=
  { c with trk := { c.trk with fabBad := (c.fabMembers node).foldl (fun (v : Vector Bool 2) (m : Fin 2) => v.set m true) c.trk.fabBad } }

/-- A fabric position sample arrives (R109, R112). Timestamp in 0.5 ns units, position in 48.16 lines. -/
def Chip.fabSample (c : Chip) (node seq ts : Nat) (pos : Int) (valid : Bool) : Chip :=
  let who := c.fabMembers node
  if !c.trkOn ∨ who = [] then c
  else
    let last := (c.trk.fabSeen.find? (fun e => e.1 == node)).map Prod.snd
    let later := match last with
      | none => true
      | some (s, t) => 1 ≤ (seq + 256 - s % 256) % 256 && (seq + 256 - s % 256) % 256 ≤ 127 && t < ts
    let old := decide (ts * 2 ^ 31 + us (c.get F.TRK_FAB_TIME_AGE) < c.now)
    if !valid then ((c.addSat F.TRK_REJ_CNT_COUNT 1).fabFails node).serveTrk
    else if !later ∨ old then c.addSat F.TRK_REJ_CNT_COUNT 1
    else
      let seen := (node, seq, ts) :: c.trk.fabSeen.filter (fun e => e.1 != node)
      let c := c.followAfresh (fun i => !c.healthy i)
      let c := { c with trk := { c.trk with
        fabSeen := seen, fabAt := who.foldl (fun (v : Vector Nat 2) (m : Fin 2) => v.set m c.now) c.trk.fabAt
        fabBad := who.foldl (fun (v : Vector Bool 2) (m : Fin 2) => v.set m false) c.trk.fabBad } }
      let ofs := lines4816 (c.inForce F.TRK_FAB_LOFS_HI_LOFS_HI) (c.inForce F.TRK_FAB_LOFS_LO_LOFS_LO)
      let z := (pos : Rat) / (65536 : Nat) + ofs
      (who.foldl (fun (c : Chip) (m : Fin 2) => c.measure (if m = 0 then 2 else 3) z ((ts : Rat) / (2 : Nat))) c.serveSources).serveSpreq

end Sys2Proof.Machine
end

