-- ==== Sys2Proof/Machine/Cmp.lean ====
section
/-!
DEFINITION. The item queue, anchoring and placing of items, and the ring bookkeeping of CMP (R140 to R149, R168 to R173,
R181, R743, R745).
-/

namespace Sys2Proof.Machine

/-! ### Lines and the frontier -/

/-- line_at(t) in lines, from the last line event without DROP, CLAMP or COAST (R144); t in ns. -/
def Chip.lineAt (c : Chip) (t : Rat) : Option Rat :=
  match c.trk.events.find? (fun e => !e.drop && !e.clamp && !e.coast) with
  | none => none
  | some e =>
    if e.period = 0 then none
    else some ((e.line : Rat) + (t - (e.time : Rat) / (256 : Nat) - (c.tauMax : Rat)) * (64 : Nat) / (e.period : Rat))

/-- The ports whose COL_PORTk.EN is 1: those of the enabled line assemblers (R743). -/
def Chip.enabledPorts (c : Chip) : List (Fin 8) := allPorts.filter c.portEnabled

/-- The whole-line delays L of the rows of the enabled ports (R129); a standby port counts while it is armed (R195). -/
def Chip.delays (c : Chip) : List Int :=
  ((c.enabledPorts.filter (fun (k : Fin 8) => c.get F.COL_PORT_MODE k != 3 || c.on F.COL_STBY_ARM k)).map (fun k => allRows.map (fun r => c.rowDelay k r))).flatten

def listMax (l : List Int) : Int := match l with | [] => 0 | a :: r => r.foldl max a
def listMin (l : List Int) : Int := match l with | [] => 0 | a :: r => r.foldl min a

/-- L_max and L_min (R170). -/
def Chip.lMax (c : Chip) : Int := listMax c.delays
def Chip.lMin (c : Chip) : Int := listMin c.delays

/-- The highest line TRK has issued, or one less than the smallest integer greater than TRK_START (R169, R743). -/
def Chip.lastIssued (c : Chip) : Int := if c.trk.issued then c.trk.lastLine else c.trkStart.floor

/-- m_a: the highest line that every enabled line assembler has assembled or passed (R170, R743). -/
def Chip.mA (c : Chip) : Int :=
  match c.enabledPorts with
  | [] => c.lastIssued
  | k :: r => (r.map (fun k => c.asm[k].top)).foldl min c.asm[k].top

/-- CMP_LSPAN shows the spans; a change of them, or a write of CMP_RING_CFG, checks the ring depth (R170, R172). -/
def Chip.checkDepth (c : Chip) : Chip :=
  let short := decide ((c.ringDepth : Int) < c.lMax - c.lMin + 256)
  let c := (c.set F.CMP_LSPAN_L_MAX (unsigned 13 c.lMax)).set F.CMP_LSPAN_L_MIN (unsigned 13 c.lMin)
  let c := c.set F.CMP_STAT_DEPTH_SHORT (bit short)
  if short then c.emit 0x0B07 else c

/-- The ring depth check of a hand-over: made when it changes L_max or L_min (R172). -/
def Chip.spanChanged (c : Chip) : Chip :=
  if c.get F.CMP_LSPAN_L_MAX = unsigned 13 c.lMax ∧ c.get F.CMP_LSPAN_L_MIN = unsigned 13 c.lMin then c else c.checkDepth

/-- The frontier margin (R173). -/
def Chip.checkBehind (c : Chip) : Chip :=
  let behind := decide (c.cmp.w ≤ c.mA - c.lMin + (c.get F.CMP_WARN_WARN : Int))
  let was := c.on F.CMP_STAT_BEHIND
  let c := c.set F.CMP_STAT_BEHIND (bit behind)
  if behind && !was then c.emit 0x0B06 else c

/-- The address of a web line's ring slot for a tile position and an ink channel (R168). -/
def Chip.ringAddr (c : Chip) (p ch : Nat) (w : Int) : Nat :=
  c.get F.CMP_RING_BASE_LO_ADDR * 4096 + c.get F.CMP_RING_BASE_HI_ADDR * 2 ^ 32
    + (6 * p + ch) * c.ringDepth * 320 + (w % (c.ringDepth : Int)).toNat * 320

/-- The tag of a ring slot matches web line w (R169, R171). -/
def Chip.tagMatches (c : Chip) (p : Nat) (w : Int) : Bool :=
  sparseGet 0 (8192 * p + (w % (c.ringDepth : Int)).toNat) c.cmp.tags == 1 + unsigned 48 w

/-- Set (or clear) the tag of the slot of web line w. -/
def Chip.setTag (c : Chip) (p : Nat) (w : Int) (ok : Bool) : Chip :=
  let k := 8192 * p + (w % (c.ringDepth : Int)).toNat
  { c with cmp := { c.cmp with tags := sparsePut 0 k (if ok then 1 + unsigned 48 w else 0) c.cmp.tags } }

/-! ### Items -/

def Chip.setItems (c : Chip) (l : List Item) : Chip := { c with cmp := { c.cmp with items := l } }

/-- Change the items that meet p. -/
def Chip.updItems (c : Chip) (p : Item → Bool) (f : Item → Item) : Chip :=
  c.setItems (c.cmp.items.map (fun a => if p a then f a else a))

/-- CMP_IQ_RD advances over the slots whose items are done (R182). -/
def Chip.drainQueue (c : Chip) : Chip :=
  let rest := c.cmp.items.dropWhile (fun a => a.stage == .done)
  let n := c.cmp.items.length - rest.length
  (c.setItems rest).set F.CMP_IQ_RD_RD ((c.get F.CMP_IQ_RD_RD + n) % 2048)

/-- The next item of a lane: the first of its items that is not placed. -/
def Chip.nextOf (c : Chip) (i : Nat) : Option Item :=
  c.cmp.items.find? (fun a => a.lane == i && (a.stage == .queued || a.stage == .waiting))

/-- CMP_STAT.MARK_WAIT: a bit per lane whose next item waits for a mark. -/
def Chip.showMarkWait (c : Chip) : Chip :=
  let m := (List.range 8).foldl (fun m i =>
    match c.nextOf i with
    | some a => if a.stage == .waiting && a.anchor == 2 then m + 2 ^ i else m
    | none => m) 0
  c.set F.CMP_STAT_MARK_WAIT m

/-- Whether every shadowed CMP write has been copied for an item is kept in `dirty` (R181). -/
def Chip.cmpTaken (c : Chip) : Chip :=
  let d := c.dirty.filter (fun a => blockOf a = 0x0B)
  let c := { c with dirty := c.dirty.filter (fun a => blockOf a ≠ 0x0B) }
  let c := d.foldl Chip.bring c
  (c.set F.CMP_SHSTAT_SHADOW_TAKEN 1).set F.CMP_SHSTAT_PENDING 0

/-- The value maps as they stand: word 4 × m + v. -/
def Chip.valueMaps (c : Chip) : List Nat :=
  (List.range 64).map (fun x => (c.word (R.CMP_VMAP.at (x / 4) (x % 4))).toNat)

/-- An item's hand-over: it takes the lane settings and the value maps (R181). -/
def Chip.itemSettings (c : Chip) (a : Item) : Item :=
  { a with
    stage := .waiting
    origin := c.get F.CMP_LANE_GEO_ORIGIN a.lane
    width := c.get F.CMP_LANE_GEO_WIDTH a.lane
    pitch := c.get F.CMP_LANE_PITCH_PITCH a.lane
    markOfs := signed 24 (c.get F.CMP_LANE_MARK_OFS a.lane)
    markSel := c.get F.CMP_LANE_MARK_MARK_SEL a.lane
    missPol := c.get F.CMP_LANE_MARK_MISS_POL a.lane
    vmaps := c.valueMaps }

/-- Hand over the next item of a lane, if it still waits for its hand-over. -/
def Chip.handOverLane (c : Chip) (i : Nat) : Chip :=
  if !c.on F.CMP_CTRL_EN then c
  else match c.nextOf i with
    | none => c
    | some a =>
      if a.stage == .queued then
        ((c.updItems (fun b => b.slot == a.slot) (fun _ => c.itemSettings a)).cmpTaken).showMarkWait
      else c

/-- The account of an item begins when the item is placed or handed to NZH uncomposed (R229, R232). -/
def Chip.openAccount (c : Chip) (a : Item) : Chip :=
  let acc : Account :=
    { id := a.id, job := a.job, lane := a.lane, origin := a.origin, width := a.width, start := a.start, lines := a.lines
      flags := a.flags, crc := 0, composed := false, forceReject := bitAt a.flags flagForce }
  { c with nzh := { c.nzh with accounts := c.nzh.accounts ++ [acc] } }

/-- Change the account of an item. -/
def Chip.updAccount (c : Chip) (id : Nat) (f : Account → Account) : Chip :=
  { c with nzh := { c.nzh with accounts := c.nzh.accounts.map (fun a => if a.id == id then f a else a) } }

/-- An item leaves CMP: its slot is done, and a grant bound to it is released (R178, R574). -/
def Chip.itemDone (c : Chip) (a : Item) : Chip :=
  (((c.updItems (fun b => b.slot == a.slot) (fun b => { b with stage := .done })).releaseBound a.slot).drainQueue).showMarkWait

/-- An item that is not composed goes to NZH with its flag (R148, R153). -/
def Chip.itemNotComposed (c : Chip) (a : Item) (flag : Nat) : Chip :=
  let a := { a with flags := putBit a.flags flag true }
  ((c.addSat F.CMP_NP_CNT_COUNT 1).openAccount a).itemDone a

/-- The start line of a lane's next item is set (R148): below W the item is not composed. -/
def Chip.placeItem (c : Chip) (a : Item) (s : Int) (flags : Nat) : Chip :=
  let a := { a with start := s, nextLine := s, flags := a.flags ||| flags }
  if h : a.lane < 8 then
    if s < c.cmp.w then
      ((c.emit 0x0B01 [(8, a.id), (6, unsigned 48 s)]).itemNotComposed a 0).handOverLane a.lane
    else
      let a := { a with stage := .placed }
      let c := c.updItems (fun b => b.slot == a.slot) (fun _ => a)
      let m := { c.cmp with
        laneEnd := c.cmp.laneEnd.set a.lane (some (s + a.lines))
        laneStart := c.cmp.laneStart.set a.lane (some s)
        laneFirst := if c.cmp.laneFirst[a.lane].isNone then c.cmp.laneFirst.set a.lane (some s) else c.cmp.laneFirst }
      ((Chip.openAccount { c with cmp := m } a).showMarkWait).handOverLane a.lane
  else c

/-! ### Twin placing (R147) -/

/-- Whether the image has a twin section. -/
def Chip.twin (c : Chip) : Bool := c.on F.TKO_PARTNER_EN

/-- Whether TKO reports the partner lost (R358). -/
def Chip.partnerLostNow (c : Chip) : Bool := c.get F.TKO_STAT_STATE == 3

/-- Whether this node places MARK items (R147). -/
def Chip.placesMarks (c : Chip) : Bool :=
  !c.twin || c.partnerLostNow || c.get F.FAB_NODE_NODE_ID < c.get F.TKO_PARTNER_NODE

/-- A mark's candidate start line (R145): floor(line + OFS / 64 + 1/2). -/
def candidate (line : Rat) (ofs : Int) : Int := (line + (ofs : Rat) / (64 : Nat) + 1 / 2).floor

/-- The candidate start line of a timestamp in 0.5 ns units. -/
def Chip.candidateAt (c : Chip) (ts : Nat) (ofs : Int) : Option Int :=
  (c.lineAt ((ts : Rat) / (2 : Nat))).map (fun l => candidate l ofs)

/-- The first usable candidate among a lane's marks of an input: marks before the previous end are discarded and recorded
(R145). The result has the chip, the candidate, and the marks that remain. -/
def Chip.pickMark (c : Chip) (sel : Nat) (ofs : Int) (prev : Option Int) :
    List LaneMark → Chip × Option Int × List LaneMark
  | [] => (c, none, [])
  | m :: r =>
    if m.input ≠ sel then
      let x := Chip.pickMark c sel ofs prev r
      (x.1, x.2.1, m :: x.2.2)
    else match c.candidateAt m.ts ofs with
      | none => (c, none, m :: r)
      | some s =>
        match prev with
        | some e => if s < e then Chip.pickMark (c.emit 0x0B0B) sel ofs prev r else (c, some s, r)
        | none => (c, some s, r)

def Chip.marksOf (c : Chip) (i : Fin 8) : List LaneMark := c.cmp.laneMarks[i]
def Chip.setMarks (c : Chip) (i : Fin 8) (l : List LaneMark) : Chip :=
  { c with cmp := { c.cmp with laneMarks := c.cmp.laneMarks.set i l } }

/-- The own candidate is compared with the start line the partner sent (R147). -/
def Chip.compareNote (c : Chip) (i : Fin 8) (n : PlaceNote) : Chip × Bool :=
  let x := c.pickMark n.sel n.ofs n.prev (c.marksOf i)
  let c := x.1.setMarks i x.2.2
  match x.2.1 with
  | none => (c, false)
  | some s => ((if 1 < (s - n.start).natAbs then c.emit 0x0B0A else c), true)

/-- Compare the placements of a lane that still wait for the own mark, oldest first. -/
def compareNotes (i : Fin 8) : List PlaceNote → Chip → Chip × List PlaceNote
  | [], c => (c, [])
  | n :: r, c =>
    if n.done && n.lane == i.val then
      let x := c.compareNote i n
      if x.2 then compareNotes i r x.1 else (x.1, n :: r)
    else
      let y := compareNotes i r c
      (y.1, n :: y.2)

def Chip.serveNotes (c : Chip) (i : Fin 8) : Chip :=
  let x := compareNotes i c.cmp.notes c
  { x.1 with cmp := { x.1.cmp with notes := x.2 } }

/-- A MARK item that waits is placed from the lane's marks, or, on the partner that does not place, from the message of the
placing partner (R145, R147). -/
def Chip.serveMark (c : Chip) (i : Fin 8) : Chip :=
  match c.nextOf i with
  | none => c
  | some a =>
    if !(a.stage == .waiting && a.anchor == 2 && c.on F.CMP_CTRL_EN) then c
    else if c.placesMarks then
      let x := c.pickMark a.markSel a.markOfs c.cmp.laneEnd[i] (c.marksOf i)
      let c := x.1.setMarks i x.2.2
      match x.2.1 with
      | none => c
      | some s =>
        let c := if c.twin then c.send "place" [a.id, unsigned 48 s] else c
        c.placeItem a s 0
    else match c.cmp.notes.find? (fun n => n.id == a.id && !n.done) with
      | none => c
      | some n =>
        let n' := { n with done := true, lane := i.val, ofs := a.markOfs, sel := a.markSel, prev := c.cmp.laneEnd[i] }
        let c := { c with cmp := { c.cmp with notes := c.cmp.notes.filter (fun m => !(m == n)) ++ [n'] } }
        (c.placeItem a n.start 0).serveNotes i

/-! ### Placing (R143, R148, R149) -/

/-- The smallest start s + j × pitch that is not below W, with j (R149). -/
def rebase (s w : Int) (pitch : Nat) : Int × Nat :=
  if w ≤ s ∨ pitch = 0 then (s, 0)
  else
    let j := ceilDiv (w - s).toNat pitch
    (s + (j * pitch : Nat), j)

/-- ITEM_PLACE: the lane's next item passes its hand-over and its start line is set (R143). -/
def Chip.placeNext (c : Chip) (i : Fin 8) : Chip :=
  if !c.on F.CMP_CTRL_EN then c
  else
    let c := c.handOverLane i
    match c.nextOf i with
    | none => c
    | some a =>
      if a.stage != .waiting then c
      else if a.anchor = 0 then c.placeItem a a.startField 0
      else if a.anchor = 1 then
        match c.cmp.laneStart[i] with
        | none => c.placeItem a a.startField 0
        | some p =>
          let r := rebase (p + a.pitch) c.cmp.w a.pitch
          let c := if r.2 = 0 then c else c.emit 0x0B08 [(1, i.val), (4, r.2)]
          c.placeItem a r.1 0
      else if a.anchor = 2 then c.showMarkWait.serveMark i
      else c.itemNotComposed a 1

/-- The item of a queue slot as CMP reads its header (R142, R150). -/
def Chip.readItem (c : Chip) (m : Store) (errs : List DdrError) (slot : Nat) : Chip × Item :=
  let base := c.get F.CMP_IQ_BASE_LO_ADDR * 4096 + c.get F.CMP_IQ_BASE_HI_ADDR * 2 ^ 32 + 4096 * slot
  let x := c.agentRead m .pipe errs base 32
  let d := (x.2.getD (List.replicate 32 0)).map BitVec.toNat
  (x.1, { slot := slot, id := descId d, job := descJob d, lane := descLane d, anchor := descAnchor d, startField := descStart d
          lines := descLines d, flags := if descForce d then 2 ^ flagForce else 0 })

/-- Items of the slots from the old to the new write index enter the queue (R150, R181). -/
def enqueue (errs : List DdrError) (m : Store) : Nat → Nat → Chip → Chip
  | 0, _, c => c
  | n + 1, wr, c =>
    let x := c.readItem m errs (wr % 1024)
    let c := x.1.setItems (x.1.cmp.items ++ [x.2])
    enqueue errs m n (wr + 1) (c.handOverLane x.2.lane)

/-! ### Marks (R145, R146) -/

/-- A mark record reaches CMP: every lane keeps it until an item uses it; OUTSIDE records are ignored. -/
def Chip.markRecord (c : Chip) (r : MarkRec) : Chip :=
  if r.outside then c
  else
    let c := { c with cmp := { c.cmp with laneMarks := c.cmp.laneMarks.map (fun l => l ++ [⟨r.ts, r.input⟩]) } }
    allPorts.foldl (fun c i => (c.serveNotes i).serveMark i) c

/-- The line position of a mark reference now: the tracked line less the counts run since (R146). -/
def Chip.referenceLine (c : Chip) (y : Nat) (ref : Int) : Option Rat :=
  let x : Fin 2 := if c.on F.POS_MARK_CFG_ENC_SEL y then 1 else 0
  (c.lineAt c.nowQ).map (fun l => l + ((ref - c.pos.enc[x].pos : Int) : Rat) * c.ratio x)

/-- A place before the end of what the lane has placed already. -/
def startsTooEarly (laneEnd : Option Int) (start : Int) : Bool :=
  match laneEnd with
  | some e => decide (start < e)
  | none => false

/-- A missing-mark notice reaches a lane that waits for a mark of the input (R146). -/
def Chip.missingMark (c : Chip) (y : Nat) (ref : Int) (i : Fin 8) : Chip :=
  match c.nextOf i with
  | none => c
  | some a =>
    if a.stage == .waiting && a.anchor == 2 && a.markSel == y && a.missPol == 0 && c.placesMarks && c.on F.CMP_CTRL_EN then
      match c.referenceLine y ref with
      | none => c
      | some l =>
        let s := candidate l a.markOfs
        if startsTooEarly c.cmp.laneEnd[i] s then c.emit 0x0B0B
        else
          let c := if c.twin then c.send "place" [a.id, unsigned 48 s] else c
          (c.emit 0x0B09).placeItem a s (2 ^ flagSubst)
    else c

/-! ### Enable and disable (R169, R745) -/

/-- CMP_CTRL.EN from 0 to 1: tags cleared, W set; an item in composition goes on from W. -/
def Chip.cmpEnabled (c : Chip) : Chip :=
  let w := c.lastIssued + 1
  let items := c.cmp.items.map (fun a =>
    if a.stage == .placed && a.nextLine < w then
      let last := min w (a.start + (a.lines : Int))
      let n := (last - a.nextLine).toNat * 6 * ceilDiv a.width 4
      { a with nextLine := last, crc := (List.replicate n 0).foldl crcByte a.crc, flags := putBit a.flags flagRingMiss true }
    else a)
  let m := { c.cmp with
    items := items, tags := [], w := w, w0 := w, laneEnd := Vector.replicate 8 none, laneStart := Vector.replicate 8 none
    laneFirst := Vector.replicate 8 none }
  let c := Chip.set { c with cmp := m } F.CMP_STAT_RUN 1
  let c := (items.filter (fun a => a.stage == .placed && bitAt a.flags flagRingMiss)).foldl
    (fun c a => c.updAccount a.id (Account.flag flagRingMiss)) c
  let c := (items.filter (fun a => a.stage == .placed && a.start + (a.lines : Int) ≤ a.nextLine)).foldl
    (fun c a => (c.updAccount a.id (fun x => { x with composed := true, crc := a.crc ^^^ 0xFFFFFFFF })).itemDone a) c
  ((List.range 8).foldl Chip.handOverLane c).checkBehind

/-- CMP_CTRL.EN from 1 to 0: placing and composing stop, the queue keeps its contents. -/
def Chip.cmpDisabled (c : Chip) : Chip := c.set F.CMP_STAT_RUN 0

/-- The partner's PLACE message (R147). -/
def Chip.partnerPlace (c : Chip) (id : Nat) (s : Int) : Chip :=
  let c := { c with cmp := { c.cmp with notes := c.cmp.notes ++ [{ id := id, start := s }] } }
  allPorts.foldl Chip.serveMark c

end Sys2Proof.Machine
end

