-- ==== Sys2Proof/Machine/Compose.lean ====
section
/-!
DEFINITION. Composition of a web line (R153 to R170): layers, combining, the raster CRC, the rings.
-/

namespace Sys2Proof.Machine

/-- What a layer gives a dot (R154): nothing, a source value, or the six codes of a direct object. -/
inductive DotSrc where
  | none | value (v : Nat) | codes (q : Nat)
  deriving DecidableEq, Repr

/-- The dots a layer gives one line from a column on. -/
structure Strip where
  x0 : Int
  dots : List DotSrc
  deriving DecidableEq, Repr

/-- What a layer gave a line: the chip after its reads, its strips, whether a read or an entry failed (R167), whether a
glyph is missing (R161). -/
structure Drawn where
  chip : Chip
  strips : List Strip
  fault : Bool
  missing : Bool

/-- LAYER_FAULT is recorded with the layer index and the address (R167). -/
def Chip.layerFault (c : Chip) (k addr : Nat) : Chip :=
  (c.set F.CMP_STAT_LAYER_FAULT 1).emit 0x0B03 [(1, k), (5, addr)]

/-- A read for a layer: a failed one reads as zeros (R167). -/
def Chip.layerRead (c : Chip) (m : Store) (errs : List DdrError) (k addr n : Nat) : Chip × List Nat × Bool :=
  let r := c.agentRead m .pipe errs addr n
  match r.2 with
  | some l => (r.1, l.map BitVec.toNat, false)
  | none => (r.1.layerFault k addr, List.replicate n 0, true)

/-- An address that two registers hold. -/
def Chip.baseAddr (c : Chip) (lo hi : Place) : Nat := c.get lo * 4096 + c.get hi * 2 ^ 32

/-- The source values of a packed row. -/
def rowValues (row : List Nat) (depth w : Nat) : List DotSrc := (List.range w).map (fun i => .value (element row depth i))

/-- The codes of a direct object's line: six planes, IC0 first (R158). -/
def directCodes (planes : List Nat) (stride w : Nat) : List DotSrc :=
  (List.range w).map (fun i =>
    .codes (((List.range 6).map (fun ch => element ((planes.drop (ch * stride)).take stride) 2 i * 4 ^ ch)).sum))

/-- A STATIC layer's line (R158). -/
def Chip.drawStatic (c : Chip) (m : Store) (errs : List DdrError) (k : Nat) (l : Layer) (y : Int) (first : Bool) : Drawn :=
  let at' := c.baseAddr F.CMP_STAT_BASE_LO_ADDR F.CMP_STAT_BASE_HI_ADDR + 16 * l.handle
  let e := c.layerRead m errs k at' 16
  let c := e.1
  if !bitAt (fieldLE e.2.1 5 1) 7 then ⟨(if first && !e.2.2 then c.layerFault k at' else c), [], true, false⟩
  else
    let direct := fieldLE e.2.1 5 1 % 2
    let w := fieldLE e.2.1 6 2
    let h := fieldLE e.2.1 8 3
    let stride := ceilDiv w 256 * 64
    if (l.y : Int) ≤ y ∧ y < l.y + h then
      let n := stride * (if direct = 1 then 6 else 1)
      let r := c.layerRead m errs k (fieldLE e.2.1 0 5 + (y - l.y).toNat * n) n
      ⟨r.1, [⟨l.x, if direct = 1 then directCodes r.2.1 stride w else rowValues r.2.1 2 w⟩], r.2.2, false⟩
    else ⟨c, [], false, false⟩

/-- A cell of a GLYPH layer where the pen put it: its box and the address and depth of its bitmap. -/
structure GlyphCell where
  x0 : Int
  y0 : Int
  w : Nat
  h : Nat
  addr : Nat
  depth : Nat
  deriving DecidableEq, Repr

/-- The cells of a string (R161): the chip after the table reads, the cells, whether a read failed, whether one is missing. -/
def Chip.glyphCells (c : Chip) (m : Store) (errs : List DdrError) (k mapAddr defAdv : Nat) (l : Layer) :
    Int → List Nat → Chip × List GlyphCell × Bool × Bool
  | pen, lo :: hi :: r =>
    let code := lo + 256 * hi
    let e := c.layerRead m errs k (mapAddr + 2 * code) 2
    let cell := fieldLE e.2.1 0 2
    let g := e.1.layerRead m errs k (e.1.baseAddr F.CMP_GLYPH_BASE_LO_ADDR F.CMP_GLYPH_BASE_HI_ADDR + 16 * cell) 16
    let flags := fieldLE g.2.1 5 1
    let bad := e.2.2 || (cell != 0xFFFF && g.2.2)
    if cell = 0xFFFF ∨ !bitAt flags 7 ∨ flags % 4 = 0 ∨ flags % 4 = 3 then
      let x := Chip.glyphCells (if cell = 0xFFFF then e.1 else g.1) m errs k mapAddr defAdv l (pen + defAdv + l.track) r
      (x.1, x.2.1, bad || x.2.2.1, true)
    else
      let w := if fieldLE g.2.1 6 1 = 0 then 256 else fieldLE g.2.1 6 1
      let h := if fieldLE g.2.1 7 1 = 0 then 256 else fieldLE g.2.1 7 1
      let q : GlyphCell := ⟨pen + signed 8 (fieldLE g.2.1 8 1), l.y - signed 16 (fieldLE g.2.1 9 2), w, h, fieldLE g.2.1 0 5, flags % 4⟩
      let x := Chip.glyphCells g.1 m errs k mapAddr defAdv l (pen + fieldLE g.2.1 11 2 + l.track) r
      (x.1, q :: x.2.1, bad || x.2.2.1, x.2.2.2)
  | _, _ => (c, [], false, false)

/-- The rows of the cells on line y. -/
def Chip.cellStrips (c : Chip) (m : Store) (errs : List DdrError) (k : Nat) (y : Int) : List GlyphCell → Chip × List Strip × Bool
  | [] => (c, [], false)
  | g :: r =>
    if g.y0 ≤ y ∧ y < g.y0 + g.h then
      let n := rowBytes g.w g.depth
      let b := c.layerRead m errs k (g.addr + (y - g.y0).toNat * n) n
      let x := Chip.cellStrips b.1 m errs k y r
      (x.1, ⟨g.x0, rowValues b.2.1 g.depth g.w⟩ :: x.2.1, b.2.2 || x.2.2)
    else Chip.cellStrips c m errs k y r

/-- The cells of a GLYPH layer: its set entry, then its string (R159 to R161). The last flag says the set is not VALID. -/
def Chip.glyphLayer (c : Chip) (m : Store) (errs : List DdrError) (k : Nat) (d : List Nat) (l : Layer) (first : Bool) :
    Chip × List GlyphCell × Bool × Bool :=
  let at' := c.baseAddr F.CMP_GSET_BASE_LO_ADDR F.CMP_GSET_BASE_HI_ADDR + 16 * l.gset
  let e := c.layerRead m errs k at' 16
  if !bitAt (fieldLE e.2.1 5 1) 7 then ((if first && !e.2.2 then e.1.layerFault k at' else e.1), [], true, false)
  else
    let x := e.1.glyphCells m errs k (fieldLE e.2.1 0 5) (fieldLE e.2.1 6 2) l l.x ((payloadOf d l).take (2 * l.nchar))
    (x.1, x.2.1, e.2.2 || x.2.2.1, x.2.2.2)

/-- A layer's strips on item line y (R154). -/
def Chip.drawLayer (c : Chip) (m : Store) (errs : List DdrError) (k : Nat) (d : List Nat) (l : Layer) (y : Int) (first : Bool) : Drawn :=
  if l.ty = 0 then c.drawStatic m errs k l y first
  else if l.ty = 1 then
    if (l.y : Int) ≤ y ∧ y < l.y + l.patchH then
      let n := rowBytes l.patchW l.patchD
      ⟨c, [⟨l.x, rowValues (((payloadOf d l).drop ((y - l.y).toNat * n)).take n) l.patchD l.patchW⟩], false, false⟩
    else ⟨c, [], false, false⟩
  else if l.ty = 2 then
    let g := c.glyphLayer m errs k d l first
    let s := g.1.cellStrips m errs k y g.2.1
    ⟨s.1, s.2.1, g.2.2.1 || s.2.2, g.2.2.2⟩
  else
    if (l.y : Int) ≤ y ∧ y < l.y + (l.mh * l.mody : Nat) then
      let p := payloadOf d l
      let dy := (y - l.y).toNat
      ⟨c, [⟨l.x, (List.range (l.mw * l.modx)).map (fun dx => if l.matrixDot p dx dy then .value 1 else .none)⟩], false, false⟩
    else ⟨c, [], false, false⟩

/-! ### Combining (R155 to R157) -/

/-- A column's new codes: six 2-bit drop codes, IC0 lowest; EN selects the channels, q gives their codes. -/
def combine (op en q old : Nat) : Nat :=
  ((List.range 6).map (fun ch =>
    let dOld := old / 4 ^ ch % 4
    let dNew := q / 4 ^ ch % 4
    (if !bitAt en ch then dOld else if op = 0 then dNew else if op = 1 then max dOld dNew else 0) * 4 ^ ch)).sum

/-- The EN bits and codes a dot's source gives through a value map (R155, R156). -/
def dotCodes (vmaps : List Nat) (map : Nat) : DotSrc → Option (Nat × Nat)
  | .none => none
  | .value v =>
    let w := vmaps.getD (4 * map + v) 0
    some (w % 64, w / 65536 % 4096)
  | .codes q => some (vmaps.getD (4 * map + 1) 0 % 64, q)

/-- Apply one strip to the row of the lane's columns, the first of which is column j. -/
def applyStrip (vmaps : List Nat) (map op : Nat) (s : Strip) (j : Nat) : List Nat → List Nat
  | [] => []
  | old :: r =>
    let i := (j : Int) - s.x0
    let new := if i < 0 then old else match dotCodes vmaps map (s.dots.getD i.toNat .none) with
      | none => old
      | some e => combine op e.1 e.2 old
    new :: applyStrip vmaps map op s (j + 1) r

/-- Whether a strip has a drawn dot outside the lane's columns (R157). -/
def Strip.clips (s : Strip) (width : Nat) : Bool :=
  (List.range s.dots.length).any (fun i => s.dots.getD i .none != .none && (s.x0 + i < 0 || (width : Int) ≤ s.x0 + i))

/-- Whether a layer draws a dot outside the item's lines (R157). -/
def Chip.clipsLines (c : Chip) (m : Store) (k : Nat) (d : List Nat) (l : Layer) (lines : Nat) : Bool :=
  if l.ty = 0 then
    let at' := c.baseAddr F.CMP_STAT_BASE_LO_ADDR F.CMP_STAT_BASE_HI_ADDR + 16 * l.handle
    let e := (c.layerRead m [] k at' 16).2.1
    bitAt (fieldLE e 5 1) 7 && lines < l.y + fieldLE e 8 3
  else if l.ty = 1 then lines < l.y + l.patchH
  else if l.ty = 2 then
    (c.glyphLayer m [] k d l false).2.1.any (fun g => g.y0 < 0 || (lines : Int) < g.y0 + g.h)
  else
    let p := payloadOf d l
    (List.range (l.mh * l.mody)).any (fun dy => decide (lines ≤ l.y + dy) && (List.range (l.mw * l.modx)).any (fun dx => l.matrixDot p dx dy))

/-- The row of an item line: the layers from number k on applied in record order, with the flags they raise. -/
def composeRow (m : Store) (errs : List DdrError) (d : List Nat) (a : Item) (y : Int) (first : Bool) :
    Nat → List Layer → Chip × List Nat × Nat → Chip × List Nat × Nat
  | _, [], x => x
  | k, l :: r, (c, row, flags) =>
    let g := c.drawLayer m errs k d l y first
    let row := g.strips.foldl (fun row s => applyStrip a.vmaps l.map l.op s 0 row) row
    let clip := g.strips.any (fun s => s.clips a.width) || (first && c.clipsLines m k d l a.lines)
    let flags := if g.fault then putBit flags 2 true else flags
    let flags := if g.missing then putBit flags 3 true else flags
    let flags := if clip then putBit flags 4 true else flags
    composeRow m errs d a y first (k + 1) r (g.chip, row, flags)

/-! ### The line -/

/-- Columns packed four per byte, column 0 in bits [1:0], for one ink channel (R166, R168). -/
def packRow (ch : Nat) : List Nat → List Nat
  | [] => []
  | a :: b :: e :: f :: r =>
    (a / 4 ^ ch % 4 + b / 4 ^ ch % 4 * 4 + e / 4 ^ ch % 4 * 16 + f / 4 ^ ch % 4 * 64) :: packRow ch r
  | a :: r => [((a :: r).map (fun v => v / 4 ^ ch % 4)).reverse.foldl (fun n v => n * 4 + v) 0]

/-- The bytes of an item line that the raster CRC covers (R166). -/
def crcBytes (row : List Nat) : List Nat := ((List.range 6).map (fun ch => packRow ch row)).flatten

/-- The layer limit of the variant in force (R150). -/
def Chip.layerLimit (c : Chip) : Nat := if c.feature 3 then 16 else 8

/-- The descriptor of a queue slot as CMP reads it. -/
def Chip.readDesc (c : Chip) (m : Store) (errs : List DdrError) (slot : Nat) : Chip × List Nat :=
  let r := c.agentRead m .pipe errs (c.baseAddr F.CMP_IQ_BASE_LO_ADDR F.CMP_IQ_BASE_HI_ADDR + 4096 * slot) 4096
  (r.1, (r.2.getD (List.replicate 4096 0)).map BitVec.toNat)

/-- A lane's row at the frontier: origin and codes of its columns. -/
structure LaneRow where
  origin : Nat
  row : List Nat
  deriving DecidableEq, Repr

/-- A placed item that fails its descriptor check goes to NZH uncomposed (R153). -/
def Chip.dropPlaced (c : Chip) (a : Item) : Chip :=
  ((c.addSat F.CMP_NP_CNT_COUNT 1).updAccount a.id (fun t => { t with flags := putBit t.flags 1 true })).itemDone a

/-- One item's line W: its row, its CRC, its flags; a descriptor that fails its check is not composed (R153, R157, R166). -/
def Chip.composeItem (c : Chip) (m : Store) (errs : List DdrError) (a : Item) : Chip × Option LaneRow :=
  let w := c.cmp.w
  let dr := c.readDesc m errs a.slot
  let c := dr.1
  let d := dr.2
  if !a.checked && !descSound c.layerLimit d then
    ((c.emit 0x0B02 [(8, a.id), (2, a.slot)]).dropPlaced a, none)
  else
    let x := composeRow m errs d a (w - a.start) (!a.checked) 0 (descLayerList d) (c, List.replicate a.width 0, a.flags)
    let c := x.1
    let c := if bitAt x.2.2 3 && !a.missSeen then c.emit 0x0B04 else c
    let crc := if a.nextLine ≤ w then (crcBytes x.2.1).foldl crcByte a.crc else a.crc
    let a' := { a with flags := x.2.2, crc := crc, nextLine := max a.nextLine (w + 1), checked := true, missSeen := bitAt x.2.2 3 }
    let c := c.updItems (fun b => b.slot == a.slot) (fun _ => a')
    let c := c.updAccount a.id (fun t => { t with flags := t.flags ||| a'.flags })
    let c := if w + 1 = a.start + (a.lines : Int) then
        (c.updAccount a.id (fun t => { t with composed := true, crc := crc ^^^ 0xFFFFFFFF })).itemDone a' else c
    (c, some ⟨a.origin, x.2.1⟩)

/-- The rows of the items that cover W, in queue order. -/
def composeItems (m : Store) (errs : List DdrError) : List Item → Chip → Chip × List LaneRow
  | [], c => (c, [])
  | a :: r, c =>
    let x := c.composeItem m errs a
    let y := composeItems m errs r x.1
    (y.1, (match x.2 with | some l => [l] | none => []) ++ y.2)

/-- The codes of a device column (R140, R142): those of the lane row that has it, else 0. -/
def columnCodes (rows : List LaneRow) (col : Nat) : Nat :=
  match rows.find? (fun l => l.origin ≤ col && col < l.origin + l.row.length) with
  | some l => l.row.getD (col - l.origin) 0
  | none => 0

/-- Write the six ink channels of a tile position's line; the tag is set only if every write completed (R168, R169). -/
def writeTile (errs : List DdrError) (rows : List LaneRow) (p : Nat) (x : Chip × Store) : Chip × Store :=
  let w := x.1.cmp.w
  let org := x.1.get F.CMP_TP_ORG p
  let cols := (List.range 1280).map (fun j => columnCodes rows (org + j))
  let r := (List.range 6).foldl (fun (s : (Chip × Store) × Bool) ch =>
    let t := agentWriteOk .pipe errs (s.1.1.ringAddr p ch w) ((packRow ch cols).map (BitVec.ofNat 8)) s.1
    (t.1, s.2 && t.2)) (x, true)
  (r.1.1.setTag p w r.2, r.1.2)

/-- Whether a lane's content at the frontier is decided (R170). -/
def Chip.laneDecided (c : Chip) (i : Nat) : Bool :=
  let w := c.cmp.w
  let items := c.cmp.items.filter (fun a => a.lane == i && a.stage != .done)
  let covers := items.any (fun a => a.stage == .placed && a.start ≤ w && w < a.start + (a.lines : Int))
  if c.get F.CMP_LANE_GEO_WIDTH i = 0 && items.isEmpty then true
  else if covers then true
  else match items.filter (fun a => a.stage != .placed || decide (w < a.start)) with
    | [] => decide (w + c.lMin < c.mA + (c.get F.CMP_IDLE_LEAD_LEAD : Int))
    | a :: _ =>
      if a.stage == .placed then true
      else if a.stage == .waiting && a.anchor == 2 then
        match c.lineAt c.nowQ with
        | none => false
        | some l => decide (w < (l + (a.markOfs : Rat) / (64 : Nat)).floor - (c.get F.CMP_MARK_GUARD_GUARD : Int))
      else false

/-- Whether line W may be composed (R170, R745). -/
def Chip.mayCompose (c : Chip) : Bool :=
  let w := c.cmp.w
  let ahead := c.get F.CMP_XCFG_AHEAD_MAX
  c.on F.CMP_CTRL_EN && c.up 5
    && decide (w - (c.ringDepth : Int) + c.lMax ≤ c.mA)
    && (List.range 8).all c.laneDecided
    && (ahead == 0 || decide (w - c.mA < (ahead : Int)))

/-- COMPOSE_LINE: line W of every enabled tile position. -/
def composeLine (errs : List DdrError) (x : Chip × Store) : Chip × Store :=
  let c := x.1
  if !c.mayCompose then x
  else
    let w := c.cmp.w
    let covering := c.cmp.items.filter (fun a => a.stage == .placed && decide (a.start ≤ w) && decide (w < a.start + (a.lines : Int)))
    let r := composeItems x.2 errs covering c
    let tps := (List.range 8).filter (fun p => r.1.on F.CMP_TP_EN p)
    let y := tps.foldl (fun s p => writeTile errs r.2 p s) (r.1, x.2)
    (Chip.checkBehind { y.1 with cmp := { y.1.cmp with w := w + 1 } }, y.2)

end Sys2Proof.Machine
end

