-- ==== Sys2Proof/Machine/Col.lean ====
section
/-!
DEFINITION. The Colander (R184 to R213): who fires which line, stitching, standby tiles, the dead-nozzle table and the
requests to other ports.
-/

namespace Sys2Proof.Machine

/-! ### Modes and switches (R184, R189 to R191, R744) -/

/-- COL_PORTk.MODE: 0 TWIN, 1 BOTH, 2 ONE, 3 STANDBY. -/
def Chip.portMode (c : Chip) (k : Nat) : Nat := c.get F.COL_PORT_MODE k

/-- The home set of a port: its parity, or every line in mode ONE (R184); an active standby port has that of the port it
replaces (R196). -/
def Chip.homeSet (c : Chip) (k : Fin 8) : Nat :=
  let own := fun (j : Nat) => if c.portMode j = 2 then 3 else if c.portMode j = 3 then 0 else if c.on F.COL_PORT_SIDE j then 2 else 1
  match c.col.standsFor[k] with
  | some j => own j
  | none => own k.val

def Chip.setCol (c : Chip) (s : ColSt) : Chip := { c with col := s }
def Chip.setAsm (c : Chip) (k : Fin 8) (a : AsmSt) : Chip := { c with asm := c.asm.set k a }
def Chip.setHp (c : Chip) (k : Fin 8) (p : PortSt) : Chip := { c with hp := c.hp.set k p }
def Chip.port (c : Chip) (k : Fin 8) : PortSt := c.hp[k]

/-- The line from which a switch named for line n applies (R189). -/
def Chip.switchLine (c : Chip) (k : Fin 8) (n : Int) : Int :=
  match (c.port k).xferTop with
  | none => n
  | some l => if l < n then n else l + 1

/-- The highest line in a port's line queue, or the highest line assembled. -/
def Chip.queueTop (c : Chip) (k : Fin 8) : Int :=
  ((c.port k).queue.map PortLine.line).foldl max (match (c.port k).queue with | [] => c.asm[k].top | q :: _ => q.line)

/-- The drop codes a port line entered the history or the bridge with; nothing where neither holds it. -/
def AsmSt.codesOf (a : AsmSt) (n : Int) : List (List Nat) :=
  match (a.hist ++ a.bridgeKept).find? (fun e => e.1 == n) with
  | some e => e.2
  | none => []

/-- The end of a bridge (R269): the history holds events h, h - 1, h - 2 and h - 3. -/
def AsmSt.endBridge (a : AsmSt) (h : Int) : AsmSt :=
  { a with hist := [h, h - 1, h - 2, h - 3].map (fun n => (n, a.codesOf n)), bridgeTo := none, bridgeKept := [] }

/-- BANK_SWITCH: the port, the bank and the line (R269, R270). -/
def Chip.bankSwitch (c : Chip) (k : Fin 8) (full : Bool) (n : Int) : Chip :=
  c.emit 0x0D06 [(1, k.val), (1, bit full), (6, unsigned 48 n)]

/-- FLW_STAT.BRIDGE of a port. -/
def Chip.showBridge (c : Chip) (k : Fin 8) (b : Bool) : Chip :=
  c.set F.FLW_STAT_BRIDGE (putBit (c.get F.FLW_STAT_BRIDGE) k b)

/-- A running bridge of a port ends at line h (R269). -/
def Chip.closeBridge (c : Chip) (k : Fin 8) (h : Int) : Chip :=
  if c.asm[k].bridgeTo.isSome then ((c.setAsm k (c.asm[k].endBridge h)).showBridge k false).bankSwitch k true h else c

/-- The queue, the bridge and the history conversion at a switch of the lines a port fires from line n (R190, R267 to R270,
R744): to every line, or back to one parity. -/
def Chip.switchQueue (c : Chip) (k : Fin 8) (n : Int) (set : Nat) : Chip :=
  if set = 3 then
    (c.setAsm k { c.asm[k] with bridgeTo := some (c.queueTop k), bridgeKept := [], convert := none }).showBridge k true
  else
    let c := c.closeBridge k (c.queueTop k)
    let p := c.port k
    let a := c.asm[k]
    let keep := p.queue.filter (fun q => q.line < n || parityFires set q.line)
    let lost := (p.queue.filter (fun q => !(q.line < n || parityFires set q.line))).map PortLine.line
    let m := match keep.getLast? with | some q => q.line | none => min a.top (n - 1)
    let c := c.setHp k { p with queue := keep }
    c.setAsm k { a with convert := some (m, lost) }

/-- The set of lines a port fires changes from line n (R189, R744). -/
def Chip.applySet (c : Chip) (k : Fin 8) (n : Int) (set : Nat) : Chip :=
  let before := c.firesNow k
  let s := { c.col with switchAt := c.col.switchAt.set k n, prevFires := c.col.prevFires.set k before, prevSolo := c.col.prevSolo.set k (bitAt (c.get F.COL_STAT_SOLO) k) }
  let c := (c.setCol s).set F.COL_PSTAT_FIRES set k
  let after := c.firesNow k
  if before ≠ 3 ∧ after = 3 then c.switchQueue k n 3
  else if before = 3 ∧ after ≠ 3 then c.switchQueue k n after
  else c

/-- The applied line of the last switch (COL_SW_LO, COL_SW_HI). -/
def Chip.showSwitch (c : Chip) (k : Fin 8) (n : Int) : Chip :=
  let u := unsigned 48 n
  ((c.set F.COL_SW_LO_LINE_LO u).set F.COL_SW_HI_LINE_HI (u / 2 ^ 32)).set F.COL_SW_HI_PORT k

/-- COL_STAT.SOLO of a port. -/
def Chip.setSolo (c : Chip) (k : Fin 8) (b : Bool) : Chip := c.set F.COL_STAT_SOLO (putBit (c.get F.COL_STAT_SOLO) k b)

/-- A mode notice is applied (R189): the chip and the applied line, which TKO is told. -/
def Chip.applyNotice (c : Chip) (k : Fin 8) (every : Bool) (named : Int) : Chip × Int :=
  let n := c.switchLine k named
  let c := (c.applySet k n (if every then 3 else c.homeSet k)).setSolo k every
  (((c.showSwitch k n).emit 0x0C01 [(1, k), (6, unsigned 48 named), (6, unsigned 48 n)]), n)

/-- Every line that a port fires because of a takeover goes back to its home parity where a hand-over raises the mode limit
above 48 kHz (R191). -/
def Chip.soloHalf (c : Chip) (n : Int) : Chip :=
  (allPorts.filter (fun (k : Fin 8) => bitAt (c.get F.COL_STAT_SOLO) k)).foldl (fun c (k : Fin 8) =>
    ((((c.applySet k n (c.homeSet k)).setSolo k false).emit 0x0C02)).set F.TKO_PORTS_HALF
      (putBit (c.get F.TKO_PORTS_HALF) k true)) c

/-- The check of R187 for a pair of BOTH ports at a hand-over of offsets (R188). -/
def Chip.parityCheck (c : Chip) : Chip :=
  allPorts.foldl (fun c (k : Fin 8) =>
    let j := c.get F.COL_PORT_PEER k
    if h : j < 8 then
      if c.portEnabled k && c.portMode k == 1 && k.val < j then
        allRows.foldl (fun c (ic : Fin 6) =>
          let ls := fun (k : Fin 8) => (allRows.filter (fun (r : Fin 6) => c.rowChannel k r == ic.val)).map (fun r => c.rowDelay k r % 2)
          let all := ls k ++ ls ⟨j, h⟩
          if all.any (fun x => all.any (fun y => x != y)) then
            (c.set F.COL_STAT_PARITY_SKEW 1).emit 0x0C03 [(1, k.val), (1, j), (1, ic.val)]
          else c) c
      else c
    else c) c

/-! ### Stitch patterns (R192 to R194) -/

/-- Bit reversal of a 5-bit value (R193). -/
def rev5 (a : Nat) : Nat := ((List.range 5).map (fun i => bit (bitAt a i) * 2 ^ (4 - i))).sum

/-- Whether the left member fires overlap column j of web line w under a pattern (R193). -/
def leftFires (pat j w seed : Nat) : Bool :=
  if pat = 0 then j < 16
  else if pat = 1 then true
  else if pat = 2 then false
  else if pat = 3 then j % 2 = 0
  else if pat = 4 then (j + w) % 2 = 0
  else if pat = 5 then j ≤ rev5 ((w + 7 * j) % 32)
  else if pat = 6 then j < 8 || (j < 24 && 2 * (j - 8) ≤ rev5 ((w + 7 * j) % 32))
  else j ≤ (w * 40503 + j * 32587 + seed) % 65536 / 2048

/-- Whether tile position p overlaps a neighbour at its low columns (it is the right member) or at its high columns. -/
def Chip.overlaps (c : Chip) (p : Nat) (low : Bool) : Bool :=
  let org := c.get F.CMP_TP_ORG p
  (if low then c.on F.COL_STITCH_LO_EN p else c.on F.COL_STITCH_HI_EN p)
    || (List.range 8).any (fun q => q != p && c.on F.CMP_TP_EN q
        && (if low then c.get F.CMP_TP_ORG q + 1248 == org else org + 1248 == c.get F.CMP_TP_ORG q))

/-- The pattern of an overlap: SPLIT where the stitch's EN bit is 0 (R194). -/
def Chip.stitchPat (c : Chip) (p ic : Nat) (low : Bool) : Nat :=
  if low then (if c.on F.COL_STITCH_LO_EN p then bitsOf (c.get F.COL_STITCH_LO_PAT p) (3 * ic + 2) (3 * ic) else 0)
  else (if c.on F.COL_STITCH_HI_EN p then bitsOf (c.get F.COL_STITCH_HI_PAT p) (3 * ic + 2) (3 * ic) else 0)

/-- Whether tile position p fires column j of web line w of an ink channel under its stitch patterns (R193). -/
def Chip.stitchFires (c : Chip) (p ic j : Nat) (w : Int) : Bool :=
  let w16 := unsigned 16 w
  let seed := c.get F.COL_SEED_SEED
  if j < 32 ∧ c.overlaps p true then !leftFires (c.stitchPat p ic true) j w16 seed
  else if 1248 ≤ j ∧ c.overlaps p false then leftFires (c.stitchPat p ic false) (j - 1248) w16 seed
  else true

/-! ### The dead-nozzle table (R198 to R201) -/

/-- The valid entry at an index. -/
def Chip.entryAt (c : Chip) (i : Nat) : Option DntEntry := c.col.dnt.find? (fun e => e.idx == i)

/-- The word of an entry (COL_DNT_DATA). -/
def DntEntry.word (e : DntEntry) : Nat :=
  2 ^ 31 + e.port * 2 ^ 28 + e.ic * 2 ^ 25 + e.col * 2 ^ 14 + e.kind * 2 ^ 12 + e.method * 2 ^ 10 + e.source * 2 ^ 8 + e.state * 2 ^ 5

/-- COL_DNT_CNT, COL_STAT.REQ_WAIT and the EXTRA bits follow the table; a port with a same-line fill in force fires the
other parity's events too, from its lowest port line whose transfer has not started (R202, R249, R744). -/
def Chip.dntShow (c : Chip) : Chip :=
  let d := c.col.dnt
  let c := (c.set F.COL_DNT_CNT_USED d.length).set F.COL_DNT_CNT_REMOTE (d.filter (fun e => e.kind != 0)).length
  let waiting := (List.range 8).filter (fun k => d.any (fun e => e.port == k && e.stage == .asked))
  let c := c.set F.COL_STAT_REQ_WAIT (waiting.map (fun k => 2 ^ k)).sum
  allPorts.foldl (fun c (k : Fin 8) =>
    let want := c.portMode k == 1 && c.fLim ≤ 48000 && d.any (fun e => e.port == k.val && e.kind == 1 && e.state != 5)
    if c.on F.COL_PSTAT_EXTRA k = want then c
    else
      let before := c.firesNow k
      let n := match (c.port k).xferTop with | none => c.lastIssued + 1 | some l => l + 1
      let n := if before = 0 || parityFires before n then n else n + 1
      let s := { c.col with switchAt := c.col.switchAt.set k n, prevFires := c.col.prevFires.set k before, prevSolo := c.col.prevSolo.set k (bitAt (c.get F.COL_STAT_SOLO) k) }
      let c := (c.setCol s).set F.COL_PSTAT_EXTRA (bit want) k
      let after := c.firesNow k
      if before ≠ 3 ∧ after = 3 then c.switchQueue k n 3
      else if before = 3 ∧ after ≠ 3 then c.switchQueue k n after else c) c

def Chip.setDnt (c : Chip) (l : List DntEntry) : Chip := (c.setCol { c.col with dnt := l }).dntShow
def Chip.updEntry (c : Chip) (e : DntEntry) : Chip := c.setDnt (c.col.dnt.map (fun x => if x.idx == e.idx then e else x))

/-- Whether a nozzle of a port is in the dead bitmap. -/
def Chip.isDead (c : Chip) (k ic col : Nat) : Bool :=
  c.col.dnt.any (fun e => e.kind == 0 && e.port == k && e.ic == ic && e.col == col)

/-- The lowest free index of the table. -/
def Chip.freeIndex (c : Chip) : Option Nat := (List.range 4096).find? (fun i => (c.entryAt i).isNone)

/-- Local ports that drive a tile position. -/
def Chip.portsOf (c : Chip) (tp : Nat) : List (Fin 8) :=
  allPorts.filter (fun (k : Fin 8) => c.portEnabled k && (c.portMode k != 3 || c.on F.COL_STBY_ACT k) && c.portTile k == tp)

def Chip.nodeId (c : Chip) : Nat := c.get F.FAB_NODE_NODE_ID

/-! ### Requests (R202, R206, R207) -/

/-- Whether a column lies in a stitch overlap whose other member is driven. -/
def Chip.handoffColumn (c : Chip) (p col : Nat) : Bool :=
  (col < 32 && c.on F.COL_STITCH_LO_EN p) || (1248 ≤ col && c.on F.COL_STITCH_HI_EN p)

/-- Whether FILL is available to an entry (R202). -/
def Chip.fillAvailable (c : Chip) (k : Fin 8) : Bool :=
  !c.on F.COL_XCFG_NO_REMOTE
    && (c.portMode k == 1 || (c.portMode k == 0 && c.get F.TKO_STAT_STATE == 2 && !bitAt (c.get F.TKO_PORTS_LOST) k))

/-- The recipients of a request (R206): for FILL the other side of the tile; for HANDOFF also the other member. -/
def Chip.recipients (c : Chip) (k : Fin 8) (col method : Nat) : List Recipient :=
  let p := c.portTile k
  let me := c.nodeId
  let partner := c.get F.TKO_PARTNER_NODE
  let other := if c.portMode k = 0 then [⟨partner, p, col, true⟩] else if c.portMode k = 1 then [⟨me, p, col, true⟩] else []
  if method = 2 then other
  else
    let low := decide (col < 32)
    let node := if low then c.get F.COL_STITCH_LO_PEER_NODE p else c.get F.COL_STITCH_HI_PEER_NODE p
    let tp := if low then c.get F.COL_STITCH_LO_PEER_TP p else c.get F.COL_STITCH_HI_PEER_TP p
    let j := if low then col + 1248 else col - 1248
    let mine := c.portsOf tp
    let far :=
      if node = me then
        ⟨me, tp, j, false⟩ :: (if mine.any (fun k => c.portMode k == 0) then [(⟨partner, tp, j, false⟩ : Recipient)] else [])
      else if node = partner ∧ c.twin then
        ⟨partner, tp, j, false⟩ :: (if mine.isEmpty then [] else [(⟨me, tp, j, false⟩ : Recipient)])
      else [⟨node, tp, j, false⟩]
    other ++ far

/-- The largest next web line not yet assembled for the ports, plus the margin (a_r of R206). -/
def Chip.answerLine (c : Chip) (ks : List (Fin 8)) (ic : Nat) : Int :=
  let ls := (ks.map (fun k => (allRows.filter (fun (r : Fin 6) => c.rowChannel k r == ic)).map (fun r => c.asm[k].top + 1 - c.rowDelay k r))).flatten
  listMax ls + (c.get F.COL_XCFG_REQ_MARGIN : Int)

/-- A node's answer for its ports that drive a tile position: ACK with a_r, or NACK with a reason (R206). -/
def Chip.answerReq (c : Chip) (ks : List (Fin 8)) (ic col : Nat) : Except Nat Int :=
  if ks.isEmpty then .error 4
  else if ks.any (fun k => c.isDead k ic col) then .error 1
  else if ks.any (fun k => c.get F.COL_PSTAT_FIRES k == 3) then .error 2
  else if c.freeIndex.isNone then .error 3
  else .ok (c.answerLine ks ic)

/-- Recipients install entries of kind FILL or TAKE with SOURCE 3 from web line w_a (R206). -/
def Chip.install (c : Chip) (ks : List (Fin 8)) (ic col method : Nat) (away : Bool) (wa : Int) (owner : Nat) : Chip :=
  ks.foldl (fun c (k : Fin 8) =>
    match c.freeIndex with
    | none => (c.set F.COL_STAT_DNT_FULL 1).emit 0x0C06 [(1, k.val), (1, ic), (2, col)]
    | some i =>
      let next := c.answerLine [k] ic - (c.get F.COL_XCFG_REQ_MARGIN : Int)
      let c := if wa < next then c.emit 0x0C08 else c
      let e : DntEntry :=
        { idx := i, port := k.val, ic := ic, col := col, kind := if method = 2 then 1 else 2, method := 0, source := 3
          state := method, wa := max wa next, owner := owner, away := away }
      c.setDnt (c.col.dnt ++ [e])) c

/-- Recipients remove their entries (R208). -/
def Chip.uninstall (c : Chip) (ks : List (Fin 8)) (ic col method : Nat) : Chip :=
  c.setDnt (c.col.dnt.filter (fun e =>
    !(e.kind == (if method = 2 then 1 else 2) && e.ic == ic && e.col == col && e.source == 3 && ks.any (fun k => k.val == e.port))))

/-- The ports of this node that act on a request of an own entry for one of its tiles: not the dead nozzle's port. -/
def Chip.actors (c : Chip) (e : DntEntry) (tp : Nat) : List (Fin 8) := (c.portsOf tp).filter (fun k => k.val != e.port)

/-- Tell a recipient that a request ends (R206, R208). -/
def Chip.releaseOne (e : DntEntry) (c : Chip) (r : Recipient) : Chip :=
  if r.node = c.nodeId then c.uninstall (c.actors e r.tp) e.ic r.col e.asks
  else c.send "colRelease" [r.node, c.nodeId, r.tp, e.ic, r.col, e.asks]

/-- Every recipient that acknowledged accepts from w_a (R206 step 3). -/
def Chip.commitEntry (c : Chip) (e : DntEntry) : Chip :=
  let c := c.updEntry { e with stage := .committed, state := e.asks }
  e.acked.foldl (fun c r =>
    if r.node = c.nodeId then c.install (c.actors e r.tp) e.ic r.col e.asks r.own e.wa c.nodeId
    else c.send "colCommit" [r.node, c.nodeId, r.tp, e.ic, r.col, e.asks, bit r.own, unsigned 48 e.wa]) c

/-- The next method of an entry that has not failed (R202): 3 HANDOFF, 2 FILL, 1 NEIGHBOUR, 4 REPORT. -/
def Chip.nextMethod (c : Chip) (e : DntEntry) : Nat :=
  if h : e.port < 8 then
    let k : Fin 8 := ⟨e.port, h⟩
    if e.method = 3 then 4
    else if e.method = 0 ∧ !e.tried.contains 3 ∧ !c.on F.COL_XCFG_NO_HANDOFF ∧ c.handoffColumn (c.portTile k) e.col then 3
    else if e.method ≠ 1 ∧ !e.tried.contains 2 ∧ c.fillAvailable k then 2
    else 1
  else 1

/-- An entry takes its method (R202); HANDOFF and FILL start the exchange of R206, with the exchange on this node made at
once. The fuel bounds the fall-backs. -/
def Chip.startMethod : Nat → DntEntry → Chip → Chip
  | 0, e, c => c.updEntry { e with state := 1, stage := .none }
  | f + 1, e, c =>
    let m := c.nextMethod e
    if h : e.port < 8 then
      if m = 1 ∨ m = 4 then c.updEntry { e with state := m, stage := .none, asks := 0, wait := [], acked := [] }
      else
        let all := c.recipients ⟨e.port, h⟩ e.col m
        let mine := all.filter (fun r => r.node == c.nodeId)
        let far := all.filter (fun r => r.node != c.nodeId)
        let answers := mine.map (fun r => c.answerReq (c.actors e r.tp) e.ic r.col)
        let bad := answers.findSome? (fun a => match a with | .error n => some n | .ok _ => none)
        match bad with
        | some n =>
          Chip.startMethod f { e with tried := m :: e.tried } (c.emit 0x0C07 [(1, e.port), (1, e.ic), (2, e.col), (1, n)])
        | none =>
          let wa := listMax (answers.map (fun a => match a with | .ok l => l | .error _ => 0))
          let e' := { e with
            state := 0, stage := .asked, asks := m, wait := far, acked := mine, wa := wa
            deadline := c.now + us (10 * c.get F.COL_XCFG_REQ_TO) }
          let c := c.updEntry e'
          if far.isEmpty then c.commitEntry e'
          else far.foldl (fun c r => c.send "colReq" [r.node, c.nodeId, r.tp, e.ic, r.col, m, bit r.own]) c
    else c

/-- A request fails (R206 step 4). -/
def Chip.failRequest (c : Chip) (e : DntEntry) (reason : Nat) : Chip :=
  let c := e.acked.foldl (Chip.releaseOne e) c
  let c := c.emit 0x0C07 [(1, e.port), (1, e.ic), (2, e.col), (1, reason)]
  Chip.startMethod 3 { e with tried := e.asks :: e.tried, wait := [], acked := [], stage := .none } c

/-- An entry becomes invalid: its requests are released (R208). -/
def Chip.dropEntry (c : Chip) (e : DntEntry) : Chip :=
  let c := if e.kind = 0 ∧ e.stage ≠ .none then e.acked.foldl (Chip.releaseOne e) c else c
  c.setDnt (c.col.dnt.filter (fun x => x.idx != e.idx))

/-- A nozzle is no longer one that the full table refused. -/
def Chip.unrefuse (c : Chip) (k ic col : Nat) : Chip :=
  c.setCol { c.col with refused := c.col.refused.filter (fun x => x != (k, ic, col)) }

/-- An insertion of a dead nozzle (R198, R199): the flag says whether COL accepted it. -/
def Chip.insertDead (c : Chip) (k ic col source method : Nat) : Chip × Bool :=
  if c.isDead k ic col then (c, true)
  else if 5 < ic ∨ 1279 < col then (c.addSat F.COL_REJ_CNT_COUNT 1, false)
  else match c.freeIndex with
    | none =>
      let c := c.unrefuse k ic col
      (((c.setCol { c.col with refused := (k, ic, col) :: c.col.refused }).set F.COL_STAT_DNT_FULL 1).emit 0x0C06
        [(1, k), (1, ic), (2, col)], false)
    | some i =>
      let c := c.unrefuse k ic col
      let e : DntEntry := { idx := i, port := k, ic := ic, col := col, kind := 0, method := method, source := source, state := 0 }
      (Chip.startMethod 3 e (c.setDnt (c.col.dnt ++ [e])), true)

/-- A software write of COL_DNT_DATA (R198, R199). -/
def Chip.dntWrite (c : Chip) (w : Nat) : Chip :=
  let i := c.get F.COL_DNT_IDX_IDX
  let valid := bitAt w 31
  let port := bitsOf w 30 28
  let ic := bitsOf w 27 25
  let col := bitsOf w 24 14
  let kind := bitsOf w 13 12
  let method := bitsOf w 11 10
  let clash := valid && c.col.dnt.any (fun e => e.idx != i && e.kind == 0 && e.port == port && e.ic == ic && e.col == col)
  let c :=
    if kind ≠ 0 ∨ 5 < ic ∨ 1279 < col ∨ clash = true then c.addSat F.COL_REJ_CNT_COUNT 1
    else
      let c := match c.entryAt i with | some e => c.dropEntry e | none => c
      if valid then
        let c := c.unrefuse port ic col
        let e : DntEntry := { idx := i, port := port, ic := ic, col := col, kind := 0, method := method, source := 2, state := 0 }
        Chip.startMethod 3 e (c.setDnt (c.col.dnt ++ [e]))
      else c
  if c.on F.COL_DNT_IDX_AUTOINC then c.addWrap F.COL_DNT_IDX_IDX 1 else c

/-- A read of COL_DNT_DATA: the word, and IDX advances while AUTOINC is 1 (R212). -/
def Chip.dntRead (c : Chip) : Chip × Nat :=
  let w := match c.entryAt (c.get F.COL_DNT_IDX_IDX) with | some e => e.word | none => 0
  (if c.on F.COL_DNT_IDX_AUTOINC then c.addWrap F.COL_DNT_IDX_IDX 1 else c, w)

/-! ### Messages of R206 -/

/-- A REQ reaches this node: it answers, or forwards it to its twin partner and answers for both. -/
def Chip.colReq (c : Chip) (src tp ic col method : Nat) : Chip :=
  let ks := c.portsOf tp
  match c.answerReq ks ic col with
  | .error n => c.send "colNack" [src, c.nodeId, tp, ic, col, method, n]
  | .ok a =>
    let partner := c.get F.TKO_PARTNER_NODE
    if method = 3 ∧ c.twin ∧ src ≠ partner ∧ ks.any (fun k => c.portMode k == 0) then
      (c.setCol { c.col with relays := c.col.relays ++ [⟨src, tp, ic, col, method, a⟩] }).send "colReq"
        [partner, c.nodeId, tp, ic, col, method, 0]
    else c.send "colAck" [src, c.nodeId, tp, ic, col, method, unsigned 48 a]

/-- The entry whose exchange a message of a node answers. -/
def Chip.askedBy (c : Chip) (node tp ic col method : Nat) : Option DntEntry :=
  c.col.dnt.find? (fun e => e.kind == 0 && e.stage == .asked && e.ic == ic && e.asks == method
    && e.wait.any (fun r => r.node == node && r.tp == tp && r.col == col))

/-- The relayed request that an answer of the twin partner concerns. -/
def Chip.relayOf (c : Chip) (tp ic col method : Nat) : Option Relay :=
  c.col.relays.find? (fun r => r.tp == tp && r.ic == ic && r.col == col && r.method == method)

def Chip.dropRelay (c : Chip) (r : Relay) : Chip := c.setCol { c.col with relays := c.col.relays.filter (fun x => !(x == r)) }

/-- An ACK arrives: of all recipients, COMMIT follows; for a relayed request the larger line goes back. -/
def Chip.colAck (c : Chip) (node tp ic col method : Nat) (ar : Int) : Chip :=
  match c.askedBy node tp ic col method with
  | some e =>
    let is := fun (r : Recipient) => r.node == node && r.tp == tp && r.col == col
    let e' := { e with wait := e.wait.filter (fun r => !is r), acked := e.acked ++ e.wait.filter is, wa := max e.wa ar }
    let c := c.updEntry e'
    if e'.wait.isEmpty then c.commitEntry e' else c
  | none =>
    match c.relayOf tp ic col method with
    | some r =>
      if node = c.get F.TKO_PARTNER_NODE then
        (c.dropRelay r).send "colAck" [r.source, c.nodeId, tp, ic, col, method, unsigned 48 (max r.ar ar)]
      else c
    | none => c

/-- A NACK arrives (R206 step 4); a relayed one goes back with the partner's reason. -/
def Chip.colNack (c : Chip) (node tp ic col method reason : Nat) : Chip :=
  match c.askedBy node tp ic col method with
  | some e => c.failRequest e reason
  | none =>
    match c.relayOf tp ic col method with
    | some r =>
      if node = c.get F.TKO_PARTNER_NODE then
        (c.dropRelay r).send "colNack" [r.source, c.nodeId, tp, ic, col, method, reason]
      else c
    | none => c

/-- Whether a message of another node about one of its tiles is relayed to the twin partner (R206). -/
def Chip.relays (c : Chip) (src tp method : Nat) : Bool :=
  method == 3 && c.twin && src != c.get F.TKO_PARTNER_NODE && (c.portsOf tp).any (fun k => c.portMode k == 0)

/-- A COMMIT arrives (R206 step 3). -/
def Chip.colCommit (c : Chip) (src tp ic col method : Nat) (own : Bool) (wa : Int) : Chip :=
  let c := if c.relays src tp method then
      c.send "colCommit" [c.get F.TKO_PARTNER_NODE, c.nodeId, tp, ic, col, method, bit own, unsigned 48 wa] else c
  c.install (c.portsOf tp) ic col method own wa src

/-- A RELEASE arrives (R208). -/
def Chip.colRelease (c : Chip) (src tp ic col method : Nat) : Chip :=
  let c := if c.relays src tp method then c.send "colRelease" [c.get F.TKO_PARTNER_NODE, c.nodeId, tp, ic, col, method] else c
  c.uninstall (c.portsOf tp) ic col method

/-- REQ_TO has passed without every answer (R206 step 4). -/
def Chip.colTimeout (c : Chip) (idx : Nat) : Chip :=
  match c.entryAt idx with
  | some e => if e.stage == .asked && decide (e.deadline ≤ c.now) then c.failRequest e 0 else c
  | none => c

/-- TKO reports the partner, or its side of some ports, lost (R209, R365). -/
def Chip.colPartnerLost (c : Chip) (ports : List Nat) : Chip :=
  let partner := c.get F.TKO_PARTNER_NODE
  let mine := fun (e : DntEntry) => ports.contains e.port
  let c := c.setDnt (c.col.dnt.map (fun e => if e.kind == 1 && e.owner == partner && mine e then { e with state := 5 } else e))
  (c.col.dnt.filter (fun e => e.kind == 0 && e.asks == 2 && e.stage != .none && mine e
      && (e.acked ++ e.wait).any (fun r => r.node == partner))).foldl
    (fun c e => Chip.startMethod 3 { e with tried := 2 :: e.tried, wait := [], acked := [], stage := .none } c) c

/-! ### Standby tiles (R195 to R197, R210) -/

/-- The port of this node that a standby port replaces on a tile position: the one it pairs by side. -/
def Chip.replacedBy (c : Chip) (k : Fin 8) (tp : Nat) : Option (Fin 8) :=
  let cand := allPorts.filter (fun (j : Fin 8) => c.portEnabled j && c.portMode j != 3 && c.portTile j == tp)
  match cand.find? (fun (j : Fin 8) => c.get F.COL_PORT_SIDE j == c.get F.COL_PORT_SIDE k) with
  | some j => some j
  | none => cand.head?

/-- Release the requests made by or for ports, and run R206 afresh for the DEAD entries of others (R210). -/
def Chip.redoRequests (c : Chip) (gone now : List Nat) : Chip :=
  let c := (c.col.dnt.filter (fun e => e.kind == 0 && gone.contains e.port && e.stage != .none)).foldl
    (fun c e => (e.acked.foldl (Chip.releaseOne e) c).updEntry { e with stage := .none, state := 0, wait := [], acked := [], tried := [] }) c
  let c := c.setDnt (c.col.dnt.filter (fun e => !(e.kind != 0 && gone.contains e.port)))
  (c.col.dnt.filter (fun e => e.kind == 0 && now.contains e.port)).foldl
    (fun c e => Chip.startMethod 3 { e with tried := [], stage := .none, wait := [], acked := [] } c) c

/-- Whether COL accepts a standby command (R197). -/
def Chip.stbyAllowed (c : Chip) (k : Fin 8) (tp : Nat) (on : Bool) (line : Int) : Bool :=
  decide (c.asm[k].top < line) && c.on F.COL_STBY_ARM k && c.portMode k == 3 && c.on F.CMP_TP_EN tp && c.feature 1
    && (on || c.on F.COL_STBY_ACT k)

def Chip.stbyRefuse (c : Chip) (k : Fin 8) (tp : Nat) : Chip :=
  (c.addSat F.COL_REJ_CNT_COUNT 1).emit 0x0C05

/-- A standby command is accepted for its named line, or refused and counted (R196, R197). The flag says accepted. -/
def Chip.stbyCommand (c : Chip) (k : Fin 8) (tp : Nat) (on : Bool) (line : Int) : Chip × Bool :=
  if c.stbyAllowed k tp on line then
    (c.setCol { c.col with stby := c.col.stby ++ [(k.val, tp, on, line)] }, true)
  else (c.stbyRefuse k tp, false)

/-- A standby switch is applied from line n (R196): the standby port fires what the replaced port fired, or back. -/
def Chip.stbyApply (c : Chip) (k : Fin 8) (tp : Nat) (on : Bool) (n : Int) : Chip :=
  let c :=
    if on then
      match c.replacedBy k tp with
      | none => c
      | some j =>
        let fires := c.get F.COL_PSTAT_FIRES j
        let c := c.setCol { c.col with standsFor := c.col.standsFor.set k (some j.val) }
        let c := (c.set F.COL_STBY_ACT 1 k).set F.COL_STAT_STBY_ACT (putBit (c.get F.COL_STAT_STBY_ACT) k true)
        let c := (c.applySet j n 0).applySet k n fires
        let c := c.setAsm k { c.asm[k] with hist := [] }
        c.redoRequests [j.val] [k.val]
    else
      match c.col.standsFor[k] with
      | none => c
      | some j =>
        if h : j < 8 then
          let fires := c.get F.COL_PSTAT_FIRES k
          let c := (c.applySet k n 0).applySet ⟨j, h⟩ n fires
          let c := c.setCol { c.col with standsFor := c.col.standsFor.set k none }
          let c := (c.set F.COL_STBY_ACT 0 k).set F.COL_STAT_STBY_ACT (putBit (c.get F.COL_STAT_STBY_ACT) k false)
          c.redoRequests [k.val] [j]
        else c
  (c.showSwitch k n).emit 0x0C04

/-- Standby switches of a port whose named line is the next that one of the ports assembles (R196). -/
def Chip.stbyDue (c : Chip) (n : Int) : Chip :=
  let due := c.col.stby.filter (fun s => decide (s.2.2.2 ≤ n))
  let c := c.setCol { c.col with stby := c.col.stby.filter (fun s => !decide (s.2.2.2 ≤ n)) }
  due.foldl (fun c s => if h : s.1 < 8 then c.stbyApply ⟨s.1, h⟩ s.2.1 s.2.2.1 s.2.2.2 else c) c

end Sys2Proof.Machine
end

