-- ==== Sys2Proof/Machine/Flw.lean ====
section
/-!
DEFINITION. Flowstone (R247 to R278): shapes and their bounds, the temperature loop, classes, energy, warming, the shadow
set.
-/

namespace Sys2Proof.Machine

def Chip.setFlw (c : Chip) (s : FlwSt) : Chip := { c with flw := s }

/-- Whether a port is UP. -/
def Chip.isUp (c : Chip) (k : Fin 8) : Bool := c.get F.HP_STAT_STATE k == 5

/-! ### Sets (R275, R276) -/

/-- Whether an address is that of a shadowed FLW register: bridge classes, class tables, shapes. -/
def isFlwShadow (addr : Nat) : Bool :=
  (0x100D0410 ≤ addr && addr < 0x100D0428) || (0x100D0800 ≤ addr && addr < 0x100D1100)

/-- The shadow set: the shadowed registers as software left them. -/
def Chip.shadowSet (c : Chip) : List (Nat × Word) := c.regs.filter (fun e => isFlwShadow e.1)

/-- A word of the set in force at a port. -/
def Chip.setWordAt (c : Chip) (k : Fin 8) (addr : Nat) : Nat := (sparseGet (0 : Word) addr c.flw.sets[k]).toNat

/-- A port takes a whole set. -/
def Chip.takeSet (c : Chip) (k : Fin 8) (l : List (Nat × Word)) : Chip := c.setFlw { c.flw with sets := c.flw.sets.set k l }

/-! ### Shapes (R254 to R258) -/

/-- The sub-pulses (gap, width) of a shape from its two registers, up to the first of width 0 (R254). -/
def shapePulses (a b : Nat) : List (Nat × Nat) :=
  [(bitsOf a 7 0, bitsOf a 15 8), (bitsOf a 23 16, bitsOf a 31 24), (bitsOf b 7 0, bitsOf b 15 8), (bitsOf b 23 16, bitsOf b 31 24)].takeWhile
    (fun p => p.2 != 0)

def pulseSpan (l : List (Nat × Nat)) : Nat := (l.map (fun p => p.1 + p.2)).sum
def pulseSum (l : List (Nat × Nat)) : Nat := (l.map Prod.snd).sum
def pulseMain (l : List (Nat × Nat)) : Nat := (l.getLast?.map Prod.snd).getD 0

/-- The pulses of shape s of an ink channel in a list of set words. -/
def shapeOf (l : List (Nat × Word)) (ic s : Nat) : List (Nat × Nat) :=
  shapePulses (sparseGet (0 : Word) (R.FLW_SHAPE_A.at ic s) l).toNat (sparseGet (0 : Word) (R.FLW_SHAPE_B.at ic s) l).toNat

/-- The 13 shapes of an ink channel that apply heat. -/
def shapesOf (l : List (Nat × Word)) (ic : Nat) : List (List (Nat × Nat)) :=
  ((List.range 13).map (shapeOf l ic)).filter (fun p => !p.isEmpty)

/-- SPAN_LIM of an ink channel, 10 ns units (R255). -/
def Chip.spanLim (c : Chip) (ic : Nat) : Int :=
  let ports := c.enabledPorts.filter (fun (k : Fin 8) => allRows.any (fun (r : Fin 6) => c.rowChannel k r == ic))
  (ports.map (fun (k : Fin 8) => ((c.port k).span : Int) - 20)).foldl min (c.get F.FLW_SCEIL_SPAN_MAX ic : Int)

/-- The bounds on lo and hi that the shapes give (R255), in steps of 2.5 ns. -/
def Chip.shapeBounds (c : Chip) (ic : Nat) (shapes : List (List (Nat × Nat))) : List Int × List Int :=
  let wmin : Int := c.get F.FLW_SCEIL_W_MIN ic
  let emax : Int := c.get F.FLW_SCEIL_E_MAX ic
  (shapes.map (fun p => 4 * (wmin - (pulseMain p : Int))),
   (shapes.map (fun p => [4 * (c.spanLim ic - (pulseSpan p : Int)), 4 * (emax - (pulseSum p : Int))])).flatten)

/-- The shapes of an ink channel in force at the enabled ports; with none, those of the shadow set. -/
def Chip.shapesInForce (c : Chip) (ic : Nat) : List (List (Nat × Nat)) :=
  match c.enabledPorts with
  | [] => shapesOf c.shadowSet ic
  | ks => (ks.map (fun (k : Fin 8) => shapesOf c.flw.sets[k] ic)).flatten

/-- The computed bounds lo and hi of an ink channel (R255). -/
def Chip.rawBounds (c : Chip) (ic : Nat) : Int × Int :=
  let b := c.shapeBounds ic (c.shapesInForce ic)
  (b.1.foldl max (max (signed 8 (c.get F.FLW_TRIM_MIN ic)) (signed 8 (c.get F.FLW_TCEIL_LO ic))),
   b.2.foldl min (min (signed 8 (c.get F.FLW_TRIM_MAX ic)) (signed 8 (c.get F.FLW_TCEIL_HI ic))))

/-- The effective bounds: hi where they conflict (R258). -/
def Chip.bounds (c : Chip) (ic : Nat) : Int × Int :=
  let b := c.rawBounds ic
  if b.2 < b.1 then (b.2, b.2) else b

/-- FLW_EFFc follows its inputs; a conflict is recorded (R255, R258). -/
def Chip.showBounds (c : Chip) (ic : Nat) : Chip :=
  let b := c.rawBounds ic
  let lo := unsigned 8 (satInt 8 b.1)
  let hi := unsigned 8 (satInt 8 b.2)
  if c.get F.FLW_EFF_LO ic = lo ∧ c.get F.FLW_EFF_HI ic = hi then c
  else
    let c := (c.set F.FLW_EFF_LO lo ic).set F.FLW_EFF_HI hi ic
    if b.2 < b.1 then (c.set F.FLW_STAT_BOUND_CONFLICT 1).emit 0x0D04 else c

/-- Every ink channel's bounds are computed anew. -/
def Chip.flwBounds (c : Chip) : Chip := (List.range 6).foldl Chip.showBounds c

/-- Whether a shape register write is refused (R256): the shape's words as they would be. -/
def Chip.shapeRefused (c : Chip) (ic s a b : Nat) : Bool :=
  let p := shapePulses a b
  let narrow := (p.dropLast).any (fun q => q.2 < c.get F.FLW_SCEIL_W_MIN ic)
  let others := ((List.range 13).filter (fun t => t != s)).map (shapeOf c.shadowSet ic)
  let x := c.shapeBounds ic ((p :: others).filter (fun q => !q.isEmpty))
  narrow || (!x.1.isEmpty && decide (listMin x.2 < listMax x.1))

/-- A write of a shape register into the shadow set (R256): half 0 is the A register, 1 the B register. -/
def Chip.shapeWrite (c : Chip) (ic s half w : Nat) : Chip :=
  let a := if half = 0 then w else (c.word (R.FLW_SHAPE_A.at ic s)).toNat
  let b := if half = 0 then (c.word (R.FLW_SHAPE_B.at ic s)).toNat else w
  if c.on F.FLW_SHSTAT_PENDING then c.addSat F.FLW_REJ_CNT_COUNT 1
  else if c.shapeRefused ic s a b then (c.addSat F.FLW_REJ_CNT_COUNT 1).emit 0x0D05 [(1, ic), (1, s)]
  else (c.setWord ((if half = 0 then R.FLW_SHAPE_A else R.FLW_SHAPE_B).at ic s) (BitVec.ofNat 32 w)).flwBounds

/-- A trim bound held within the ceilings (R257): the value and whether it was held. -/
def holdTrim (lo hi v : Int) : Int × Bool :=
  if hi < v then (hi, true) else if v < lo then (lo, true) else (v, false)

/-- A write of FLW_TRIMc (R257, R43). -/
def Chip.trimWrite (c : Chip) (ic w : Nat) : Chip :=
  let lo := signed 8 (c.get F.FLW_TCEIL_LO ic)
  let hi := signed 8 (c.get F.FLW_TCEIL_HI ic)
  let mn := holdTrim lo hi (signed 8 (bitsOf w 7 0))
  let mx := holdTrim lo hi (signed 8 (bitsOf w 15 8))
  let sf := holdTrim lo hi (signed 8 (bitsOf w 23 16))
  if mx.1 < mn.1 then c.addSat F.FLW_REJ_CNT_COUNT 1
  else
    let c := ((c.set F.FLW_TRIM_MIN (unsigned 8 mn.1) ic).set F.FLW_TRIM_MAX (unsigned 8 mx.1) ic).set F.FLW_TRIM_SAFE (unsigned 8 sf.1) ic
    let c := [mn.2, mx.2, sf.2].foldl (fun c held =>
      if held then (c.set F.FLW_STAT_LOOP_SAT 1).emit 0x0D01 [(1, 0xFF), (1, ic)] else c) c
    c.flwBounds

/-! ### The temperature loop (R259 to R262) -/

def Chip.loop (c : Chip) (k : Fin 8) (ic : Fin 6) : LoopSt := c.flw.loops[k][ic]
def Chip.setLoop (c : Chip) (k : Fin 8) (ic : Fin 6) (l : LoopSt) : Chip :=
  c.setFlw { c.flw with loops := c.flw.loops.set k (c.flw.loops[k].set ic l) }

/-- A loop clamps its target: SAT, counted, recorded at most once per 1 ms for each port (R260). -/
def Chip.loopSat (c : Chip) (k : Fin 8) (ic : Fin 6) : Chip :=
  let c := (c.set F.FLW_STAT_LOOP_SAT 1).addSat F.FLW_SAT_CNT_COUNT 1
  if c.dueAgain c.flw.satAt[k] = true then
    (c.setFlw { c.flw with satAt := c.flw.satAt.set k (some c.now) }).emit 0x0D01 [(1, k), (1, ic)]
  else c

/-- The update of one loop for a reading in 1/16 °C (R259, R262). -/
def Chip.loopReading (c : Chip) (k : Fin 8) (temp : Int) (ic : Fin 6) : Chip :=
  let l := c.loop k ic
  let fresh := l.tf.isNone || l.stale
  let filt := c.get F.FLW_LOOP_FILT ic
  let t0 : Rat := if fresh then (temp : Rat) else l.tf.getD 0
  let tf : Rat := t0 + ((temp : Rat) - t0) / ((2 ^ filt : Nat) : Rat)
  let b := c.bounds ic
  let en := c.on F.FLW_LOOP_EN ic
  let raw := roundQ ((c.get F.FLW_LOOP_KT ic : Rat) * ((signed 12 (c.get F.FLW_LOOP_TREF ic) : Rat) - tf) / (256 : Nat))
  let sat := decide (b.2 < raw) || decide (raw < b.1)
  let tgt := clampInt b.1 b.2 raw
  let step : Int := c.get F.FLW_LOOP_STEP ic
  let trim := if l.trim < tgt then min (l.trim + step) tgt else if tgt < l.trim then max (l.trim - step) tgt else l.trim
  let c := if l.stale then c.emit 0x0D03 else c
  if en then
    let c := c.setLoop k ic { l with tf := some tf, tgt := tgt, trim := clampInt b.1 b.2 trim, sat := sat, stale := false, without := 0, seen := true }
    if sat then c.loopSat k ic else c
  else c.setLoop k ic { l with tf := if fresh then some tf else l.tf, trim := clampInt b.1 b.2 l.trim, stale := false, without := 0, seen := true }

/-- The temperatures of a valid frame, one for each row, go to the loops of the rows' ink channels (R259, R311). -/
def Chip.flwFrame (c : Chip) (k : Fin 8) (temps : List Int) : Chip :=
  allRows.foldl (fun c (r : Fin 6) =>
    let ic := c.rowChannel k r
    if h : ic < 6 then c.loopReading k (temps.getD r 0) ⟨ic, h⟩ else c) c

/-- A line is fired: the line before it has passed, with a valid reading or without one (R262). -/
def Chip.flwNoReading (c : Chip) (k : Fin 8) : Chip :=
  allRows.foldl (fun c (ic : Fin 6) =>
    let l := c.loop k ic
    c.setLoop k ic (if l.seen then { l with seen := false } else { l with without := l.without + 1 })) c

/-- HOLD fired lines without a reading make the reading stale; each further one moves the trim towards SAFE (R262). -/
def Chip.flwStale (c : Chip) (k : Fin 8) : Chip :=
  allRows.foldl (fun c (ic : Fin 6) =>
    let l := c.loop k ic
    let hold := c.get F.FLW_XCFG_HOLD
    if l.without < hold then c
    else
      let first := !l.stale
      let moves := l.without - hold
      let b := c.bounds ic
      let safe := clampInt b.1 b.2 (signed 8 (c.get F.FLW_TRIM_SAFE ic))
      let d : Int := (c.get F.FLW_LOOP_STEP ic * moves : Nat)
      let trim :=
        if !c.on F.FLW_LOOP_EN ic then l.trim
        else clampInt b.1 b.2 (if l.trim < safe then min (l.trim + d) safe else if safe < l.trim then max (l.trim - d) safe else l.trim)
      let c := c.setLoop k ic { l with stale := true, without := hold, trim := trim }
      if first then (c.set F.FLW_STAT_TEMP_STALE 1).emit 0x0D02 else c) c

/-- FLW_TDATA of the selected port and channel. -/
def Chip.tdata (c : Chip) : Nat :=
  let k := c.get F.FLW_TSEL_PORT
  let ic := c.get F.FLW_TSEL_IC
  if h : k < 8 ∧ ic < 6 then
    let l := c.loop ⟨k, h.1⟩ ⟨ic, h.2⟩
    unsigned 12 ((l.tf.getD 0).floor) * 2 ^ 20 + bit l.sat * 2 ^ 17 + bit l.stale * 2 ^ 16 + unsigned 8 l.tgt * 2 ^ 8 + unsigned 8 l.trim
  else 0

/-! ### Words, classes and energy (R247 to R253, R264) -/

/-- The class table entry of a port's set (R251, R253). -/
def Chip.classOf (c : Chip) (k : Fin 8) (ic : Nat) (full : Bool) (idx : Nat) : Nat :=
  let addr := 0x100D0800 + 0x80 * (2 * ic + bit full) + 4 * (idx / 16)
  bitsOf (c.setWordAt k addr) (2 * (idx % 16) + 1) (2 * (idx % 16))

/-- The index of a code with its history c1 to c4, newest first (R251). -/
def classIndex (d : Nat) (hist : List Nat) : Nat :=
  let lc := (hist.find? (fun x => x != 0)).getD 0
  let f := ((List.range 4).map (fun i => bit (hist.getD i 0 != 0) * 2 ^ i)).sum
  64 * d + 16 * lc + f

/-- The class of a code during a bridge (R268). -/
def Chip.bridgeClass (c : Chip) (k : Fin 8) (ic d : Nat) : Nat :=
  bitsOf (c.setWordAt k (R.FLW_BRIDGE.at ic 0)) (2 * (d - 1) + 1) (2 * (d - 1))

/-- The shape a nozzle word selects (R247), if any. -/
def shapeIndex (w : Nat) : Option Nat :=
  let d := w / 4
  if d = 0 then (if w = 1 then some 12 else none) else some (4 * (d - 1) + w % 4)

/-- The energy weight of a port and ink channel. -/
def Chip.energyWeight (c : Chip) (k : Fin 8) (ic : Nat) : Nat :=
  if ic < 4 then bitsOf (c.word (R.FLW_EW_A.at k 0)).toNat (8 * ic + 7) (8 * ic)
  else bitsOf (c.word (R.FLW_EW_B.at k 0)).toNat (8 * (ic - 4) + 7) (8 * (ic - 4))

/-- The energy of a word in energy units (R264). -/
def Chip.wordEnergy (c : Chip) (k : Fin 8) (ic w : Nat) : Nat :=
  match shapeIndex w with
  | none => 0
  | some s =>
    let p := shapeOf c.flw.sets[k] ic s
    if p.isEmpty then 0
    else
      let half : Int := 20 * (pulseSum p : Int) + 5 * (c.bounds ic).2
      ceilDiv (half.toNat * c.energyWeight k ic) 5120

/-! ### Warming (R271 to R274) -/

/-- The filtered temperature of a channel in 1/16 °C is below a threshold; an unknown one is not (R259). -/
def Chip.colder (c : Chip) (k : Fin 8) (ic : Fin 6) (t : Int) : Bool :=
  match (c.loop k ic).tf with
  | none => false
  | some tf => decide (tf < (t : Rat))

def Chip.warmLo (c : Chip) : Int := signed 12 (c.get F.FLW_WARM_T_LO)
def Chip.warmHi (c : Chip) : Int := signed 12 (c.get F.FLW_WARM_T_HI)

/-- The conditions of idle warming but the grant (R271). -/
def Chip.wantsWarming (c : Chip) (k : Fin 8) : Bool :=
  let p := c.port k
  c.on F.FLW_WARM_CFG_IDLE_EN && c.isUp k
    && p.events.all (fun e => match p.xferTop with | some l => e.line ≤ l | none => false) && p.held.toList.all List.isEmpty
    && decide (c.flw.lastStrobe[k] + us (c.get F.FLW_GAP_GAP) ≤ c.now)
    && allRows.any (fun (ic : Fin 6) => bitAt (c.get F.FLW_WARM_CFG_CH) ic && c.colder k ic c.warmLo)

/-- A bit of a port mask. -/
def Chip.setBit (c : Chip) (p : Place) (k : Nat) (b : Bool) : Chip := c.set p (putBit (c.get p) k b)

/-- The bar of a port as a Ladle resource. -/
def Chip.barOf (c : Chip) (k : Fin 8) : Nat := 1 + c.get F.HP_BAR_BAR k

/-- Warming begins: the grant is held (R271, R272). -/
def Chip.warmBegin (c : Chip) (k : Fin 8) : Chip :=
  let c := (c.setBit F.FLW_WARM_STAT_IDLE_GRANT k true).setBit F.FLW_WARM_STAT_IDLE_ACT k true
  (c.setFlw { c.flw with warmNext := c.flw.warmNext.set k (c.now + us (c.get F.FLW_WARM_CFG_PER)) }).emit 0x0D08

/-- Warming ends (R272): cause 0 every channel warm, 1 grant withdrawn, 2 IDLE_EN cleared, 3 a line event, 4 the port left UP. -/
def Chip.warmStop (c : Chip) (k : Fin 8) (cause : Nat) : Chip :=
  let c := c.ldlRelease 6 k
  if bitAt (c.get F.FLW_WARM_STAT_IDLE_ACT) k then
    ((c.setBit F.FLW_WARM_STAT_IDLE_GRANT k false).setBit F.FLW_WARM_STAT_IDLE_ACT k false).emit 0x0D09 [(1, cause)]
  else c

/-- A port asks for idle warming; with the grant it begins (R271). -/
def Chip.warmAsk (c : Chip) (k : Fin 8) : Chip :=
  if c.wantsWarming k && !bitAt (c.get F.FLW_WARM_STAT_IDLE_ACT) k then
    let r := (c.ldlAsk 6 k (c.barOf k) (c.get F.FLW_WARM_REQ_IDLE_AMT)).ldlServe 6 k
    if r.2 = some true then r.1.warmBegin k else r.1
  else c

/-- Warming stops once every channel in CH reads at least HI (R272). -/
def Chip.warmCheck (c : Chip) (k : Fin 8) : Chip :=
  let ch := c.get F.FLW_WARM_CFG_CH
  let warm := allRows.all (fun (ic : Fin 6) => !bitAt ch ic || ((c.loop k ic).tf.isSome && !c.colder k ic c.warmHi))
  if bitAt (c.get F.FLW_WARM_STAT_IDLE_ACT) k && warm then c.warmStop k 0 else c

/-- The keep-warm grant of each port follows KEEP and the port's state (R273). -/
def Chip.keepServe (c : Chip) : Chip :=
  allPorts.foldl (fun c (k : Fin 8) =>
    if c.get F.FLW_WARM_CFG_KEEP ≠ 0 ∧ c.isUp k then c.ldlAsk 7 k (c.barOf k) (c.get F.FLW_WARM_REQ_KEEP_AMT)
    else (c.ldlRelease 7 k).setBit F.FLW_WARM_STAT_KEEP_GRANT k false) c

/-- Clients act on withdrawn grants (R272, R273, R573). -/
def Chip.serveWithdrawn (c : Chip) : Chip :=
  c.ldl.withdrawn.foldl (fun c g =>
    if h : g.idx < 8 then
      if g.client = 6 then c.warmStop ⟨g.idx, h⟩ 1
      else if g.client = 7 then c.setBit F.FLW_WARM_STAT_KEEP_GRANT g.idx false else c
    else c) { c with ldl := { c.ldl with withdrawn := [] } }

/-- The energy of one warming pseudo-line of a port (R271, R335). -/
def Chip.warmEnergy (c : Chip) (k : Fin 8) : Nat :=
  ((allRows.filter (fun (r : Fin 6) => bitAt (c.get F.FLW_WARM_CFG_CH) (c.rowChannel k r))).map
    (fun (r : Fin 6) => 1280 * c.wordEnergy k (c.rowChannel k r) 1)).sum

/-- A warming pseudo-line falls due: it is sent if the energy of the preceding 1 ms and its own stay within LIMIT (R271,
R302, R335). -/
def Chip.warmLine (c : Chip) (k : Fin 8) : Chip :=
  if !bitAt (c.get F.FLW_WARM_STAT_IDLE_ACT) k || decide (c.now < c.flw.warmNext[k]) then c
  else
    let e := c.warmEnergy k
    let lately := c.flw.warmSent[k].filter (fun x => decide (c.now < x.1 + ms 1))
    let c := c.setFlw { c.flw with warmNext := c.flw.warmNext.set k (c.now + us (c.get F.FLW_WARM_CFG_PER)) }
    if (lately.map Prod.snd).sum + e ≤ c.get F.HP_ELIM_LIMIT k then
      let p := c.port k
      let rows := ((allRows.filter (fun (r : Fin 6) => bitAt (c.get F.FLW_WARM_CFG_CH) (c.rowChannel k r))).map (fun (r : Fin 6) => 2 ^ r.val)).sum
      let c := c.setFlw { c.flw with warmSent := c.flw.warmSent.set k (lately ++ [(c.now, e)]) }
      (c.setHp k { p with ltag := (p.ltag + 1) % 4096 }).send "warm" [k, p.ltag, rows, c.get F.HP_GRP_G_BASE k, c.asm[k].setNo]
    else c

/-- The energy of the pseudo-lines of the last 1 ms is charged to the slot of the event before event n (R335). -/
def Chip.warmCharge (c : Chip) (k : Fin 8) (n : Int) : Chip :=
  let lately := c.flw.warmSent[k].filter (fun x => decide (c.now < x.1 + ms 1))
  if c.flw.warmSent[k].isEmpty then c
  else
    let a := c.asm[k]
    let c := c.setFlw { c.flw with warmSent := c.flw.warmSent.set k [] }
    c.setAsm k { a with energy := (n - 1, (lately.map Prod.snd).sum) :: a.energy }

/-! ### Commit of the shadow set (R276) -/

/-- The data of LOAD_SHAPE for a row from a set: 13 shapes of 8 bytes (R299). -/
def shapeBytes (l : List (Nat × Word)) (ic : Nat) : List Nat :=
  ((List.range 13).map (fun s =>
    bytesLE 4 (sparseGet (0 : Word) (R.FLW_SHAPE_A.at ic s) l).toNat ++ bytesLE 4 (sparseGet (0 : Word) (R.FLW_SHAPE_B.at ic s) l).toNat)).flatten

/-- LOAD_SHAPE for every row of a port into a bank of its head. -/
def Chip.shapeCommands (c : Chip) (k : Fin 8) (l : List (Nat × Word)) (bank : Nat) (use : CmdUse) : List HeadCmd :=
  allRows.map (fun (r : Fin 6) =>
    let ic := c.rowChannel k r
    { opc := 4, arg := r + 8 * bank, data := shapeBytes l ic, use := use })

/-- The commit is over: every enabled port has taken the set. -/
def Chip.commitEnd (c : Chip) : Chip :=
  if c.flw.wantTake.isEmpty && c.on F.FLW_SHSTAT_PENDING && c.flw.wantLoad.isEmpty then
    ((c.set F.FLW_SHSTAT_PENDING 0).set F.FLW_SHSTAT_SHADOW_TAKEN 1).flwBounds
  else c

/-- A port takes the shadow set and sets its TAKEN bit. -/
def Chip.commitTake (c : Chip) (k : Fin 8) : Chip :=
  let c := c.takeSet k c.shadowSet
  let c := c.setAsm k { c.asm[k] with setNo := 1 - c.asm[k].setNo }
  let c := c.setFlw { c.flw with wantTake := c.flw.wantTake.filter (fun j => j != k.val) }
  (c.setBit F.FLW_SHSTAT_TAKEN k true).commitEnd

/-- Every enabled port has loaded: those that are not UP take the set at once (R276). -/
def Chip.commitPhase2 (c : Chip) : Chip :=
  if c.flw.wantLoad.isEmpty then
    let c := c.setFlw { c.flw with wantTake := c.enabledPorts.map Fin.val }
    let c := (c.enabledPorts.filter (fun (k : Fin 8) => !c.isUp k)).foldl Chip.commitTake c
    c.commitEnd
  else c

/-- A head has loaded the shadow shapes. -/
def Chip.commitLoaded (c : Chip) (k : Fin 8) : Chip :=
  if c.flw.wantLoad.contains k.val then
    (c.setFlw { c.flw with wantLoad := c.flw.wantLoad.filter (fun j => j != k.val) }).commitPhase2
  else c

/-- A head refuses the shadow shapes: the commit is abandoned (R276). -/
def Chip.commitFail (c : Chip) (k : Fin 8) : Chip :=
  if c.on F.FLW_SHSTAT_PENDING then
    (((c.setFlw { c.flw with wantLoad := [], wantTake := [] }).set F.FLW_SHSTAT_PENDING 0).set F.FLW_SHSTAT_TAKEN 0).emit 0x0D0A [(1, k)]
  else c

/-- A write of GO (R276). -/
def Chip.commitGo (c : Chip) : Chip :=
  if c.on F.FLW_SHSTAT_PENDING then c.addSat F.FLW_REJ_CNT_COUNT 1
  else
    let c := ((c.set F.FLW_SHSTAT_PENDING 1).set F.FLW_SHSTAT_SHADOW_TAKEN 0).set F.FLW_SHSTAT_TAKEN 0
    let up := c.enabledPorts.filter c.isUp
    let c := c.setFlw { c.flw with wantLoad := up.map Fin.val, wantTake := [] }
    let c := up.foldl (fun c (k : Fin 8) =>
      let p := c.port k
      c.setHp k { p with todo := p.todo ++ c.shapeCommands k c.shadowSet (1 - c.asm[k].setNo) .commit }) c
    c.commitPhase2

/-- Entering UP: the loops know no temperature, the histories are clear, the port counts as past the gap (R250, R259, R266). -/
def Chip.flwPortUp (c : Chip) (k : Fin 8) : Chip :=
  let c := c.setFlw { c.flw with
    loops := c.flw.loops.set k (c.flw.loops[k].map (fun l => { l with tf := none }))
    everFired := c.flw.everFired.set k false
    coldLeft := c.flw.coldLeft.set k 0 }
  (c.setAsm k { c.asm[k] with hist := [], bridgeTo := none, bridgeKept := [], convert := none }).keepServe

/-- Leaving UP: warming stops, the keep-warm grant goes back (R272, R273). -/
def Chip.flwPortDown (c : Chip) (k : Fin 8) : Chip := ((c.warmStop k 4).keepServe).commitLoaded k

end Sys2Proof.Machine
end

