-- ==== Sys2Proof/Machine/Asm.lean ====
section
/-!
DEFINITION. The line assemblers (R53, R171, R190, R200 to R211, R214 to R219, R247 to R252, R267 to R273, R328 to R334): a
port line from the rings through the Colander and Flowstone into the line queue.
-/

namespace Sys2Proof.Machine

/-! ### Which line comes next -/

/-- Whether TKO holds a port fenced (R375). -/
def Chip.isFenced (c : Chip) (k : Fin 8) : Bool := bitAt c.tko.fenced k

/-- Whether a port's assembler assembles lines at all (R743). -/
def Chip.assembles (c : Chip) (k : Fin 8) : Bool :=
  c.portEnabled k && c.isUp k && !c.isFenced k && (c.portMode k != 3 || c.on F.COL_STBY_ACT k)

/-- The lowest line from n on that port k fires; the search covers both parities, now and from the line of a switch on. -/
def Chip.firedFrom (c : Chip) (k : Fin 8) (n : Int) : Option Int :=
  let s := max n c.col.switchAt[k]
  [n, n + 1, s, s + 1].find? (fun m => parityFires (c.firesAt k m) m)

/-- The line below the first line that a port can still queue: lines whose transfer has started are past. -/
def Chip.transferred (c : Chip) (k : Fin 8) (n : Int) : Bool :=
  match (c.port k).xferTop with
  | some l => decide (n ≤ l)
  | none => false

/-- The missing lines that a switch to every line inserts, lowest first (R190). -/
def Chip.missingLines (c : Chip) (k : Fin 8) : List Int :=
  match c.asm[k].bridgeTo with
  | none => []
  | some h =>
    let n0 := c.col.switchAt[k]
    ((List.range (h - n0).toNat).map (fun (i : Nat) => n0 + (i : Int))).filter (fun n =>
      c.portFires k n && !c.transferred k n && !(c.port k).queue.any (fun q => q.line == n))

/-- The next line an assembler builds: the lowest missing line, else the next line above the highest. -/
def Chip.nextLine (c : Chip) (k : Fin 8) : Option Int :=
  match c.missingLines k with
  | n :: _ => some n
  | [] => c.firedFrom k (max c.asm[k].top ((c.port k).xferTop.getD c.asm[k].top) + 1)

/-! ### Ring read and Colander (R171, R193, R203 to R207) -/

/-- The codes of the 1,280 columns of a ring line; none on a tag miss or a failed read (R171, R516). -/
def Chip.ringRead (c : Chip) (m : Store) (errs : List DdrError) (p ch : Nat) (w : Int) : Chip × Option (List Nat) :=
  if c.tagMatches p w then
    let r := c.agentRead m .pipe errs (c.ringAddr p ch w) 320
    (r.1, r.2.map (fun l => let row := l.map BitVec.toNat; (List.range 1280).map (element row 2)))
  else (c, none)

/-- What a line's ring reads did: the chip, whether a row missed. -/
structure LineRead where
  chip : Chip
  miss : Bool

/-- A ring miss (R171): counted, and recorded on the first miss after a line without one. -/
def Chip.ringMiss (x : LineRead) (p ch : Nat) (w : Int) : LineRead :=
  let c := (x.chip.addSat F.CMP_MISS_CNT_COUNT 1).set F.CMP_STAT_RING_MISS 1
  ⟨if !x.miss && !c.cmp.missRun then c.emit 0x0B05 else c, true⟩

/-- Whether port k fires column j of web line w of an ink channel: the stitch pattern, or a HANDOFF in force (R193, R207). -/
def Chip.tileFires (c : Chip) (k : Fin 8) (ch j : Nat) (w : Int) : Bool :=
  let at' := c.col.dnt.filter (fun e => e.port == k.val && e.ic == ch && e.col == j && decide (e.wa ≤ w))
  if at'.any (fun e => e.kind == 0 && e.asks == 3 && e.stage == .committed) then false
  else match at'.find? (fun e => e.kind == 2) with
    | some e => !e.away
    | none => c.stitchFires (c.portTile k) ch j w

/-- The codes of a web line that the tile fires (step 3 of R211); j counts the columns. -/
def Chip.stitched (c : Chip) (k : Fin 8) (ch : Nat) (w : Int) (codes : List Nat) : List Nat :=
  codes.zipIdx.map (fun x => if x.1 = 0 ∨ c.tileFires k ch x.2 w then x.1 else 0)

/-- The method by which a dead nozzle's dot of web line w is placed: until w_a, NEIGHBOUR (R206). -/
def DntEntry.methodAt (e : DntEntry) (w : Int) : Nat :=
  if e.state = 4 then 4
  else if e.stage == .committed ∧ e.wa ≤ w then e.asks
  else 1

/-- A row after step 4 of R211: its codes, dead dots compensated and lost. -/
structure DeadRow where
  codes : List Nat
  comp : Nat
  lost : Nat

/-- Dead-nozzle codes become 0 and their neighbours grow (R202, R203, R205); a nozzle that the full table refused loses its
dot (R199). `raw` is the ring line, `row` the stitched row. -/
def Chip.deadRow (c : Chip) (k : Fin 8) (ch : Nat) (w : Int) (raw row : List Nat) : DeadRow :=
  let dead := c.col.dnt.filter (fun e => e.kind == 0 && e.port == k.val && e.ic == ch)
  let refused := (c.col.refused.filter (fun x => x.1 == k.val && x.2.1 == ch && row.getD x.2.2 0 != 0)).length
  if dead.isEmpty then ⟨row, 0, refused⟩
  else
    let p := c.portTile k
    let isDead := fun (j : Nat) => dead.any (fun e => e.col == j)
    let canGrow := fun (j : Nat) => decide (j < 1280) && !isDead j && c.tileFires k ch j w
    let dots := dead.filterMap (fun e =>
      let d := raw.getD e.col 0
      if d = 0 then none
      else
        let m := e.methodAt w
        if m = 3 then (if c.stitchFires p ch e.col w then some (e.col, d, 3) else none)
        else if row.getD e.col 0 = 0 then none else some (e.col, d, m))
    let able := fun (j : Nat) => (0 < j && canGrow (j - 1)) || canGrow (j + 1)
    let lost := dots.filter (fun x => x.2.2 == 4 || (x.2.2 == 1 && !able x.1))
    let grows := dots.filter (fun x => x.2.2 == 1)
    let g := bitOf (c.inForce F.COL_GROW_G) ch
    let codes := row.zipIdx.map (fun x =>
      if isDead x.2 then 0
      else
        let d := ((grows.filter (fun y => y.1 + 1 == x.2 || y.1 == x.2 + 1)).map (fun y => y.2.1)).foldl max 0
        if d = 0 ∨ !canGrow x.2 then x.1 else min 3 (max x.1 d + g))
    ⟨codes, dots.length - lost.length, lost.length + refused⟩
where
  /-- A bit of a mask as 0 or 1. -/
  bitOf (n i : Nat) : Nat := n / 2 ^ i % 2

/-- A filling side adds a dot of code d to its own code n (R204). -/
def fillCode (n d : Nat) : Nat := if d = 0 then n else if n = 0 then d else min 3 (max n d + 1)

/-- The fills of a row, from the web line of the dead dots (R204). -/
def addFills (fills : List DntEntry) (dots : List Nat) (row : List Nat) : List Nat :=
  row.zipIdx.map (fun x => if fills.any (fun e => e.col == x.2) then fillCode x.1 (dots.getD x.2 0) else x.1)

/-- A row of a port line as the Colander delivers it, with the dots compensated and lost. -/
structure ColRow where
  read : LineRead
  codes : List Nat
  comp : Nat
  lost : Nat

/-- Row r of line n through steps 2 to 5 of R211; a row whose offset is out of range fires nothing (R131). `home` says that the port fires the line under its own set of lines; a line
it fires only for same-line fills (R744) carries the fills alone. -/
def colRow (m : Store) (errs : List DdrError) (k : Fin 8) (n : Int) (home : Bool) (x : LineRead) (r : Fin 6) : ColRow :=
  let c := x.chip
  let ch := c.rowChannel k r
  let p := c.portTile k
  let w := n - c.rowDelay k r
  if c.offsetBad c.bankNow.ofs[k][r] then ⟨x, List.replicate 1280 0, 0, 0⟩
  else
  let a := c.ringRead m errs p ch w
  let x : LineRead := ⟨a.1, x.miss⟩
  let x := if a.2.isNone then Chip.ringMiss x p ch w else x
  let raw := a.2.getD (List.replicate 1280 0)
  let c := x.chip
  let row := if home then c.stitched k ch w raw else List.replicate 1280 0
  let dead := c.deadRow k ch w (if home then raw else List.replicate 1280 0) row
  let fills := c.col.dnt.filter (fun e => e.kind == 1 && e.port == k.val && e.ic == ch && e.state != 5)
  let same := c.portMode k == 1 && decide (c.fLim ≤ 48000)
  let fills := fills.filter (fun e => decide (e.wa ≤ (if same then w else w - 1)))
  if fills.isEmpty then ⟨x, dead.codes, dead.comp, dead.lost⟩
  else if same then
    ⟨x, if home then dead.codes else addFills fills (c.stitched k ch w raw) dead.codes, dead.comp, dead.lost⟩
  else
    let b := c.ringRead m errs p ch (w - 1)
    let x : LineRead := ⟨b.1, x.miss⟩
    match b.2 with
    | none => ⟨Chip.ringMiss x p ch (w - 1), dead.codes, dead.comp, dead.lost⟩
    | some l => ⟨x, addFills fills (x.chip.stitched k ch (w - 1) l) dead.codes, dead.comp, dead.lost⟩

/-- The six rows in order: what the reads did, the codes of each row, the dots compensated and lost. -/
def colRows (m : Store) (errs : List DdrError) (k : Fin 8) (n : Int) (home : Bool) :
    List (Fin 6) → LineRead → LineRead × List (List Nat) × Nat × Nat
  | [], x => (x, [], 0, 0)
  | r :: rest, x =>
    let a := colRow m errs k n home x r
    let b := colRows m errs k n home rest a.read
    (b.1, a.codes :: b.2.1, a.comp + b.2.2.1, a.lost + b.2.2.2)

/-- The Colander's reports for a line (R171, R205). -/
def Chip.colReport (c : Chip) (k : Fin 8) (n : Int) (miss : Bool) (comp lost : Nat) : Chip :=
  let c := { c with cmp := { c.cmp with missRun := miss } }
  let c := if miss then (c.dropLine [k] n).markCarried [k] n (Account.flag flagRingMiss) else c
  let c := if comp = 0 then c else (c.addSat F.COL_COMP_CNT_COUNT comp).markCarried [k] n (Account.flag flagCompensated)
  let c :=
    if lost = 0 then c
    else
      let c := c.addSat F.COL_LOST_CNT_COUNT lost
      let c := c.markCarried [k] n (fun a => { a.flag flagDotLost with lost := satNat 16 (a.lost + 1) })
      if c.col.lostRun then c else (c.set F.COL_STAT_DOT_LOST 1).emit 0x0C09
  c.setCol { c.col with lostRun := lost != 0 }

/-! ### Sensing (R214 to R219) -/

/-- The 16 nozzles of a sense group (R214). -/
def groupNozzles (g : Nat) : List Nat := (List.range 16).map (fun i => g + 480 * i)

/-- NZH's state of a nozzle. -/
def Chip.nozzle (c : Chip) (k : Fin 8) (q : Nat) : NozzleSt := sparseGet {} (7680 * k.val + q) c.nzh.nozzles

/-- The nozzles whose scheduled sensing a line is: the group of n, and, while the port fires one parity, that of n - 1
(R214, R215). -/
def Chip.scheduled (c : Chip) (k : Fin 8) (n : Int) : List Nat :=
  if c.senses k then
    (((n % 480).toNat :: (if c.firesAt k n = 3 then [] else [((n - 1) % 480).toNat])).map groupNozzles).flatten
  else []

/-- The sensed nozzles of a line: the groups, then up to DEFER_N deferred nozzles with a drop on the line (R215, R218). The
scheduled ones leave the deferred list. -/
def Chip.planSensing (c : Chip) (k : Fin 8) (n : Int) (hasDrop : Nat → Bool) : Chip × List Nat :=
  let all := c.scheduled k n
  let qs := all.filter (fun q => !(c.nozzle k q).exclude)
  let left := c.nzh.deferred[k].filter (fun q => !all.contains q)
  let more := if c.senses k ∧ !bitAt (c.get F.NZH_XCFG_DEFER_DIS) k then (left.filter (fun q => hasDrop q && !(c.nozzle k q).exclude)).take (c.get F.NZH_XCFG_DEFER_N) else []
  ({ c with nzh := { c.nzh with deferred := c.nzh.deferred.set k left } }, qs ++ more)

/-! ### Flowstone (R247 to R252, R267 to R273, R328 to R334) -/

/-- The codes of a row of a history entry at a column. -/
def codeAt (e : List (List Nat)) (r j : Nat) : Nat := (e.getD r []).getD j 0

/-- A conversion to one parity (R270): m, the discarded lines and the home parity. -/
def AsmSt.toHalf (a : AsmSt) (m : Int) (lost : List Int) (home : Nat) : AsmSt :=
  let known := fun (n : Int) => decide (m - 3 ≤ n) && a.hist.any (fun e => e.1 == n)
  let code := fun (n : Int) (r j : Nat) => if lost.contains n then 0 else codeAt (a.codesOf n) r j
  let h := if parityFires home m then m else m - 1
  let slot := fun (n : Int) =>
    let ns := [n, n - 1].filter known
    if ns.isEmpty then none
    else some ((List.range 6).map (fun r => (List.range 1280).map (fun j => (ns.map (fun x => code x r j)).foldl max 0)))
  let s1 := slot h
  let s2 := match slot (h - 2) with | some s => some s | none => s1
  let old := s2.getD []
  { a with hist := [(h, s1.getD old), (h - 2, old), (h - 4, old), (h - 6, old)], convert := none }

/-- Histories are brought to the present rate before a line is assembled (R269, R270). -/
def Chip.convertHistory (c : Chip) (k : Fin 8) (n : Int) : Chip :=
  match c.asm[k].convert with
  | some (m, lost) => (c.setAsm k (c.asm[k].toHalf m lost (c.firesNow k))).bankSwitch k false n
  | none =>
    match c.asm[k].bridgeTo with
    | some h => if h < n then c.closeBridge k h else c
    | none => c

/-- What decides the words of one row: the port, the channel, the bank, whether the line is inserted during a bridge, the
present history (newest first, this row's codes), the firings of the window and NMAX, keep-warm. -/
structure RowGate where
  row : Nat
  ch : Nat
  full : Bool
  inserted : Bool
  hist : List (List Nat)
  window : List (List Nat)
  nmax : Nat
  keep : Bool
  deriving DecidableEq, Repr

/-- The firings of a column in the window. -/
def RowGate.fired (g : RowGate) (j : Nat) : Nat := (g.window.filter (fun l => l.getD j 0 != 0)).length

/-- Steps 1 to 3 of R248 for one nozzle: its word and whether the duty gate suppressed it. -/
def Chip.wordOf (c : Chip) (k : Fin 8) (g : RowGate) (sensed dead excluded : Bool) (d j : Nat) : Nat × Bool :=
  let hist := g.hist.map (fun l => l.getD j 0)
  if d = 0 ∨ g.nmax ≤ g.fired j then
    let warm := g.keep && !g.inserted && hist.all (fun x => x == 0) && !sensed && !dead && !excluded
    (if warm then 1 else 0, d != 0)
  else
    let cls := if g.inserted then c.bridgeClass k g.ch d else c.classOf k g.ch g.full (classIndex d hist)
    (4 * d + cls, false)

/-- The energies of a line by slice (R332): the sum over the words of the columns with j mod 16 = h. -/
def sliceEnergy (energy : Nat → Nat → Nat) (words : List (List Nat)) (h : Nat) : Nat :=
  ((List.range 6).map (fun r => ((List.range 80).map (fun i => energy r ((words.getD r []).getD (16 * i + h) 0))).sum)).sum

def lineEnergy (energy : Nat → Nat → Nat) (words : List (List Nat)) : Nat :=
  ((List.range 16).map (sliceEnergy energy words)).sum

/-- Remove slices from h down to 0 until the line fits (R333). -/
def dropSlices (energy : Nat → Nat → Nat) (room : Nat) : Nat → List (List Nat) → List (List Nat)
  | 0, words => words
  | h + 1, words =>
    if lineEnergy energy words ≤ room then words
    else dropSlices energy room h (words.map (fun l => l.zipIdx.map (fun x => if x.2 % 16 = h then 0 else x.1)))

/-- The energy gate (R333): keep-warm words go first, then whole slices. -/
def energyGate (energy : Nat → Nat → Nat) (room : Nat) (words : List (List Nat)) : List (List Nat) :=
  if lineEnergy energy words ≤ room then words
  else dropSlices energy room 16 (words.map (fun l => l.map (fun w => if w = 1 then 0 else w)))

/-- How many words of a line fire. -/
def firings (words : List (List Nat)) : Nat := ((words.flatten).filter (fun w => 4 ≤ w)).length

/-- WIN: the events of the energy window (R331). -/
def Chip.energyWindow (c : Chip) : Nat := ceilDiv c.fLim 1000

/-- The room that the energy window leaves line n (R331, R333). -/
def Chip.energyRoom (c : Chip) (k : Fin 8) (n : Int) : Nat :=
  let used := ((c.asm[k].energy.filter (fun e => decide (n - (c.energyWindow : Int) < e.1) && decide (e.1 < n))).map Prod.snd).sum
  c.get F.HP_ELIM_LIMIT k - used

/-- The rows of a line through steps 1 to 3 of R248: words, and how many firings the duty gate suppressed. -/
def Chip.rowWords (c : Chip) (k : Fin 8) (n : Int) (inserted : Bool) (sensed : List Nat) (r : Fin 6) (codes : List Nat) :
    List Nat × Nat :=
  let ch := c.rowChannel k r
  let a := c.asm[k]
  let w : Int := c.get F.HP_DUTY_W k
  let keep := bitAt (c.get F.FLW_WARM_STAT_KEEP_GRANT) k && bitAt (c.get F.FLW_WARM_CFG_KEEP) ch
    && (if h : ch < 6 then c.colder k ⟨ch, h⟩ c.warmHi else false)
  let g : RowGate :=
    { row := r, ch := ch, full := c.firesNow k == 3, inserted := inserted, nmax := c.get F.HP_DUTY_NMAX k, keep := keep
      hist := a.hist.map (fun e => e.2.getD r [])
      window := (a.fired.filter (fun e => decide (n - w < e.1) && decide (e.1 < n))).map (fun e => e.2.getD r []) }
  let x := codes.zipIdx.map (fun y =>
    let q := 1280 * ch + y.2
    c.wordOf k g (sensed.contains q) (c.isDead k ch y.2) (c.nozzle k q).exclude y.1 y.2)
  (x.map Prod.fst, (x.filter (fun y => y.2)).length)

/-- Reports of the duty gate and of the energy gate (R329, R334). -/
def Chip.gateReport (c : Chip) (k : Fin 8) (n : Int) (duty removed : Nat) : Chip :=
  let a := c.asm[k]
  let base := 0x1000 + 0x100 * k.val
  let c := c.setAsm k { a with suppRun := duty != 0, esuppRun := removed != 0 }
  let c := if duty = 0 then c else c.addSat F.HP_DSUPP_CNT_COUNT duty k
  let c := if duty ≠ 0 ∧ !a.suppRun then c.emit (base + 0x0C) else c
  let c := if removed = 0 then c else c.addSat F.HP_ESUPP_CNT_COUNT removed k
  let c := if removed ≠ 0 ∧ !a.esuppRun then c.emit (base + 0x0D) else c
  if duty = 0 ∧ removed = 0 then c
  else c.markCarried [k] n (fun x => { x.flag flagSuppress with suppress := satNat 16 (x.suppress + 1) })

/-- History, firings and energy after a line (R249, R268, R328, R331). -/
def AsmSt.after (a : AsmSt) (n : Int) (inserted : Bool) (words : List (List Nat)) (energy : Nat) : AsmSt :=
  let codes := words.map (fun l => l.map (fun w => w / 4))
  let a := { a with
    top := max a.top n
    fired := ((n, codes) :: a.fired.filter (fun e => decide (n - 64 < e.1))).take 128
    energy := (n, energy) :: a.energy.filter (fun e => decide (n - 96 < e.1)) }
  if inserted then { a with bridgeKept := ((n, codes) :: a.bridgeKept).take 2 }
  else { a with hist := ((n, codes) :: a.hist).take 4 }

/-- Insert a line into a queue in ascending order. -/
def queueLine (l : PortLine) : List PortLine → List PortLine
  | [] => [l]
  | q :: r => if l.line < q.line then l :: q :: r else q :: queueLine l r

/-- The shadowed growth steps come into force at a line boundary (R212). -/
def Chip.takeGrow (c : Chip) : Chip := if c.dirty.contains R.COL_GROW.addr then c.handOver [R.COL_GROW.addr] else c

/-- Close the degraded windows of nozzles that the line was assembled with in the dead bitmap (R231). -/
def Chip.closeWindows (c : Chip) (k : Fin 8) (n : Int) : Chip :=
  { c with nzh := { c.nzh with windows := c.nzh.windows.map (fun w =>
      if w.port == k.val && w.nc.isNone && c.isDead k (w.q / 1280) (w.q % 1280) then { w with nc := some n } else w) } }

/-- Flowstone and the gates on the rows that the Colander delivers, and the line enters the queue. -/
def Chip.finishLine (c : Chip) (k : Fin 8) (n : Int) (inserted : Bool) (rows : List (List Nat)) : Chip :=
  let hasDrop := fun (q : Nat) =>
    allRows.any (fun (r : Fin 6) => c.rowChannel k r == q / 1280 && (rows.getD r []).getD (q % 1280) 0 != 0)
  let s := c.planSensing k n hasDrop
  let c := s.1
  let en := c.on F.FLW_CTRL_EN
  let x := allRows.map (fun (r : Fin 6) => c.rowWords k n inserted s.2 r (rows.getD r []))
  let words := if en then x.map Prod.fst else List.replicate 6 (List.replicate 1280 0)
  let duty := if en then (x.map Prod.snd).sum else 0
  let energy := fun (r w : Nat) => if h : r < 6 then c.wordEnergy k (c.rowChannel k (⟨r, h⟩ : Fin 6)) w else 0
  let out := energyGate energy (c.energyRoom k n) words
  let removed := firings words - firings out
  let c := c.gateReport k n duty removed
  let c := c.setAsm k (c.asm[k].after n inserted out (lineEnergy energy out))
  let p := c.port k
  c.setHp k { p with queue := queueLine { line := n, words := out, sensed := s.2, bank := c.asm[k].setNo } p.queue }

/-- Whether the assembler of port k can start line n: an inserted line always, any other while the queue has room (R53, R190). -/
def Chip.assemblyStarts (c : Chip) (k : Fin 8) (n : Int) : Bool :=
  (match c.asm[k].bridgeTo with | some h => decide (n < h) | none => false) || decide ((c.port k).queue.length < 32)

/-- Line n of port k is assembled. -/
def assembleAt (errs : List DdrError) (k : Fin 8) (n : Int) (x : Chip × Store) : Chip × Store :=
  let c := x.1
  let inserted := match c.asm[k].bridgeTo with | some h => decide (n < h) | none => false
  if !c.assemblyStarts k n then x
  else
    let c := if c.flw.wantTake.contains k.val then c.commitTake k else c
    let c := (c.convertHistory k n).takeGrow
    let home := parityFires (if c.col.switchAt[k] ≤ n then c.get F.COL_PSTAT_FIRES k else c.col.prevFires[k]) n
    let r := colRows x.2 errs k n home allRows ⟨c, false⟩
    let c := r.1.chip.colReport k n r.1.miss r.2.2.1 r.2.2.2
    let c := c.closeWindows k n
    ((c.finishLine k n inserted r.2.1).checkBehind, x.2)

/-- LINE_ASSEMBLE: the assembler of port k builds its next line; standby switches named at or below that line apply
first (R196). -/
def assembleLine (errs : List DdrError) (k : Fin 8) (x : Chip × Store) : Chip × Store :=
  let start := fun (c : Chip) => if c.assembles k then c.nextLine k else none
  match start x.1 with
  | none => x
  | some n =>
    let c := x.1.stbyDue n
    match start c with
    | none => (c, x.2)
    | some m => assembleAt errs k m (c, x.2)

/-- The assemblers that assemble nothing pass line n as TRK issues its event (R743). -/
def Chip.passLines (c : Chip) (n : Int) : Chip :=
  (allPorts.filter (fun (k : Fin 8) => c.portEnabled k && (!c.assembles k || c.firesAt k n == 0))).foldl (fun c (k : Fin 8) =>
    c.setAsm k { c.asm[k] with top := max c.asm[k].top n }) (c.stbyDue n)

end Sys2Proof.Machine
end

