-- ==== Sys2Proof/Machine/Pos.lean ====
section
/-!
DEFINITION. The POS block (R57 to R105): sieve, quadrature counting with hysteresis, index and wire checks, Hall
plausibility, marks, ENCO and the compare outputs.
-/

namespace Sys2Proof.Machine

/-! ### Encoder channels -/

/-- A 48-bit signed position. -/
def pos48 (p : Int) : Int := signed 48 (unsigned 48 p)

/-- The Sieve (R60, R61): a run of samples is accepted only if it held for 2 × SIEVE_N samples. -/
def sieveAccepts (sieveN run : Nat) : Bool := 2 * sieveN ≤ run

/-- The timestamp of an accepted edge in 0.5 ns units: the first sample's press time less the receiver delay (R59). -/
def stamp (t dly : Nat) : Nat := t / 2 ^ 31 - dly

def Chip.enc (c : Chip) (x : Fin 2) : EncSt := c.pos.enc[x]
def Chip.setEnc (c : Chip) (x : Fin 2) (e : EncSt) : Chip := { c with pos := { c.pos with enc := c.pos.enc.set x e } }

/-- ENC_FAULT with cause bits FC_INDEX 1, FC_WIRE 2, FC_HALL 4 (R75): one record carries the causes of one cycle. -/
def Chip.encFault (c : Chip) (x : Fin 2) (causes : Nat) : Chip :=
  let c := c.set F.POS_ENC_STAT_ENC_FAULT 1 x
  let c := if bitAt causes 0 then c.set F.POS_ENC_STAT_FC_INDEX 1 x else c
  let c := if bitAt causes 1 then c.set F.POS_ENC_STAT_FC_WIRE 1 x else c
  let c := if bitAt causes 2 then c.set F.POS_ENC_STAT_FC_HALL 1 x else c
  c.emit 0x0906 [(1, x.val), (1, causes)]

/-- One more index mismatch; the third raises ENC_FAULT with cause INDEX (R71). -/
def Chip.mismatch (c : Chip) (x : Fin 2) : Chip :=
  let m := (c.enc x).mismatch
  let c := c.setEnc x { c.enc x with mismatch := min 3 (m + 1) }
  if m = 2 then c.encFault x 1 else c

/-- Whether the channel's index checks run (R68, R74). -/
def Chip.indexOn (c : Chip) (x : Fin 2) : Bool :=
  c.on F.POS_ENC_CFG_EN x && c.get F.POS_ENC_CPR_CPR x != 0 && !bitAt (c.get F.POS_ENC_STAT_WIRE_ACT x) 2

/-- The missing-index check after the position moved (R70). -/
def Chip.indexMissing (c : Chip) (x : Fin 2) : Chip :=
  let e := c.enc x
  let limit : Int := (3 * c.get F.POS_ENC_CPR_CPR x / 2 : Nat)
  if c.indexOn x ∧ limit ≤ (e.pos - e.base).natAbs then
    ((c.setEnc x { e with base := e.pos }).emit 0x0905).mismatch x
  else c

/-- One count d at timestamp ts, with reversal hysteresis (R63, R65). The second component is how far the applied
position moved. -/
def EncSt.count (e : EncSt) (fwd : Bool) (hystDis : Bool) (ts : Nat) : EncSt × Int :=
  let d : Int := if fwd then 1 else -1
  if e.held then
    if e.dir = some fwd then ({ e with held := false }, 0)
    else ({ e with held := false, pos := pos48 (e.pos + 2 * d), dir := some fwd, gap := ts - e.ts, ts := ts }, 2 * d)
  else if e.dir = some (!fwd) ∧ !hystDis then ({ e with held := true }, 0)
  else ({ e with pos := pos48 (e.pos + d), dir := some fwd, gap := ts - e.ts, ts := ts }, d)

/-! ### Hall plausibility -/

/-- The place of a Hall state in the forward order U, UV, V, VW, W, WU; none for 000 and 111 (R77). -/
def hallIndex (s : Nat) : Option Nat :=
  if s = 1 then some 0 else if s = 3 then some 1 else if s = 2 then some 2 else if s = 6 then some 3
  else if s = 4 then some 4 else if s = 5 then some 5 else none

/-- The encoder that Hall plausibility checks. -/
def Chip.hallEnc (c : Chip) : Fin 2 := if c.on F.POS_HALL_CFG_ENC_SEL then 1 else 0

/-- Whether a move of some counts in some press time is at least POS_HALL_MINRATE (R81). -/
def rateAtLeast (counts : Nat) (dt : Nat) (minRate : Nat) : Bool := minRate * dt ≤ counts * sec 1

/-- Whether the Hall checks are configured to run (R81). -/
def Chip.hallOn (c : Chip) : Bool := c.on F.POS_HALL_CFG_EN && c.get F.POS_HALL_CPE_CPE != 0

/-- The encoder moved with no Hall edge (R80). -/
def Chip.hallStall (c : Chip) (x : Fin 2) : Chip :=
  match c.pos.hall.last with
  | none => c
  | some (p, t) =>
    let moved := ((c.enc x).pos - p).natAbs
    if c.hallOn ∧ c.hallEnc = x ∧ 16 * c.get F.POS_HALL_CPE_CPE ≤ moved * 65536
        ∧ rateAtLeast moved (c.now - t) (c.get F.POS_HALL_MINRATE_MINRATE) then
      ({ c with pos := { c.pos with hall := { c.pos.hall with last := some ((c.enc x).pos, c.now) } } }).encFault x 4
    else c

/-- The plausibility window is empty again (R78). -/
def Chip.hallRestart (c : Chip) (dir : Option Bool) : Chip :=
  let p := (c.enc c.hallEnc).pos
  { c with pos := { c.pos with hall := { c.pos.hall with edges := [(p, c.now)], dir := dir, last := some (p, c.now) } } }

/-- The check at a Hall edge that closes a window of 8 edges (R79). -/
def Chip.hallCheck (c : Chip) (fwd : Bool) : Chip :=
  match c.pos.hall.edges with
  | (p1, t1) :: r =>
    match r.getLast? with
    | some (p0, t0) =>
      let cpe8 : Int := (8 * c.get F.POS_HALL_CPE_CPE : Nat)
      let expect : Int := if fwd then cpe8 else -cpe8
      let diff := (p1 - p0) * 65536 - expect
      let c := c.set F.POS_HALL_STAT_LAST_ERR (unsigned 16 (satInt 16 (if cpe8 = 0 then 0 else diff * 1000 / cpe8)))
      if r.length = 8 ∧ c.hallOn ∧ rateAtLeast (p1 - p0).natAbs (t1 - t0) (c.get F.POS_HALL_MINRATE_MINRATE)
          ∧ (c.get F.POS_HALL_TOL_TOL : Int) * cpe8 < diff.natAbs * 1000 then
        (c.set F.POS_HALL_STAT_DISAGREE 1).encFault c.hallEnc 4
      else c
    | none => c
  | [] => c

/-- An accepted change of the Hall inputs (R77 to R79). -/
def Chip.hallEdge (c : Chip) (s : Nat) : Chip :=
  let old := c.pos.hall
  let c := { c with pos := { c.pos with hall := { old with state := s % 8 } } }
  let invalid := fun (c : Chip) => ((c.set F.POS_HALL_STAT_INVALID 1).emit 0x0907).hallRestart none
  match hallIndex old.state, hallIndex (s % 8) with
  | some i, some j =>
    if (i + 1) % 6 = j ∨ (j + 1) % 6 = i then
      let fwd := ((i + 1) % 6 = j) != c.on F.POS_HALL_CFG_DIR_INV
      if old.dir = some fwd then
        let p := (c.enc c.hallEnc).pos
        let h := { c.pos.hall with edges := ((p, c.now) :: old.edges).take 9, last := some (p, c.now) }
        ({ c with pos := { c.pos with hall := h } }).hallCheck fwd
      else c.hallRestart (some fwd)
    else if i = j then c
    else invalid c
  | none, some _ => c.hallRestart none
  | _, none => invalid c

/-! ### ENCO -/

def Chip.setEnco (c : Chip) (e : EncoSt) : Chip := { c with pos := { c.pos with enco := e } }

/-- Add one pending step: opposite steps cancel, a step beyond 4,095 is discarded and reported (R87, R89). -/
def Chip.encoAdd (c : Chip) (s : Int) : Chip :=
  let e := c.pos.enco
  if (e.backlog + s).natAbs ≤ 4095 then c.setEnco { e with backlog := e.backlog + s }
  else (c.set F.POS_ENCO_STAT_OVF 1).emit 0x090B

/-- Add k pending steps of sign s. -/
def Chip.encoAddN (s : Int) : Nat → Chip → Chip
  | 0, c => c
  | k + 1, c => Chip.encoAddN s k (c.encoAdd s)

/-- One applied input count d of ENCO, at the present press time (R87, R88): the steps it creates become pending; the
first leaves one sample clock later unless steps wait already. -/
def Chip.encoIn (c : Chip) (fwd : Bool) (gap : Nat) : Chip :=
  if !c.on F.POS_ENCO_CFG_EN then c
  else
    let n := c.get F.POS_ENCO_RATIO_N
    let m := c.get F.POS_ENCO_RATIO_M
    let sum : Int := c.pos.enco.acc + (if fwd then (n : Int) else -(n : Int))
    let steps := sum / m
    let e := c.pos.enco
    let minGap := c.get F.POS_ENCO_CFG_MIN_GAP * ns 5
    let first := max (c.now + ns 5) (e.last + minGap)
    let e := { e with
      acc := (sum % m).toNat
      due := if e.backlog = 0 then first else e.due
      spacing := if n = 0 then minGap else max minGap (gap * m / n) }
    Chip.encoAddN (if 0 ≤ steps then 1 else -1) steps.natAbs (c.setEnco e)

/-- ENCO follows k tracked ticks (POS_ENCO_CFG.SRC 2). -/
def Chip.encoTicks (fwd : Bool) (gap : Nat) : Nat → Chip → Chip
  | 0, c => c
  | k + 1, c => Chip.encoTicks fwd gap k (c.encoIn fwd gap)

/-- A pending ENCO step leaves (R88, R90): the output position moves by one; in Z mode 2 ENCO_Z is high for one state at
every ZCPR steps; in Z mode 1 it shows the input's index point for one state. -/
def Chip.encoStep (c : Chip) : Chip :=
  let e := c.pos.enco
  if c.on F.POS_ENCO_CFG_EN ∧ e.backlog ≠ 0 ∧ e.due ≤ c.now then
    let s : Int := if 0 < e.backlog then 1 else -1
    let zmode := c.get F.POS_ENCO_CFG_Z_MODE
    let z := c.get F.POS_ENCO_ZCPR_ZCPR
    let n := e.sinceZ + s
    c.setEnco { e with
      backlog := e.backlog - s
      count := e.count + s
      last := c.now
      due := c.now + e.spacing
      sinceZ := n
      zHigh := if zmode = 2 then z != 0 && n % (z : Int) == 0 else zmode == 1 && e.index
      index := false }
  else c

/-! ### Marks -/

def Chip.setMark (c : Chip) (y : Fin 2) (m : MarkSt) : Chip := { c with pos := { c.pos with mark := c.pos.mark.set y m } }
def Chip.markEnc (c : Chip) (y : Fin 2) : Fin 2 := if c.on F.POS_MARK_CFG_ENC_SEL y then 1 else 0

/-- Store a record in the mark FIFO; a full FIFO discards its oldest entry (R85). -/
def Chip.markPush (c : Chip) (y : Fin 2) (r : MarkRec) : Chip :=
  let m := c.pos.mark[y]
  if m.fifo.length < 16 then c.setMark y { m with fifo := m.fifo ++ [r] }
  else ((c.setMark y { m with fifo := m.fifo.drop 1 ++ [r] }).addSat F.POS_MARK_STAT_OVF_CNT 1 y).emit 0x090A

/-- An accepted mark edge (R82, R83). -/
def Chip.markEdge (c : Chip) (y : Fin 2) (rising : Bool) (ts : Nat) : Chip :=
  let edge := c.get F.POS_MARK_CFG_EDGE y
  if c.on F.POS_MARK_CFG_EN y ∧ (edge = 2 ∨ (edge = 0 ∧ rising) ∨ (edge = 1 ∧ !rising)) then
    let p := (c.enc (c.markEnc y)).pos
    let m := c.pos.mark[y]
    let pitch : Int := c.get F.POS_MARK_PITCH_PITCH y
    let tol : Int := c.get F.POS_MARK_TOL_TOL y
    let inside := match m.ref with
      | none => true
      | some r => r + pitch - tol ≤ p && p < r + pitch + tol
    let windowed := c.on F.POS_MARK_CFG_WIN_EN y
    let outside := windowed && !inside
    let r : MarkRec := ⟨ts, p, rising, outside, y.val⟩
    let c := if outside then (c.addSat F.POS_MARK_STAT_OUT_CNT 1 y).emit 0x0908
      else if windowed then c.setMark y { m with ref := some p } else c
    ({ c with pos := { c.pos with markWay := c.pos.markWay ++ [r] } }).markPush y r
  else c

/-- The position reached the end of the mark window with no accepted mark (R84). -/
def Chip.markMissing (c : Chip) (y : Fin 2) : Chip :=
  let m := c.pos.mark[y]
  match m.ref with
  | none => c
  | some r =>
    let pitch : Int := c.get F.POS_MARK_PITCH_PITCH y
    let tol : Int := c.get F.POS_MARK_TOL_TOL y
    if c.on F.POS_MARK_CFG_EN y ∧ c.on F.POS_MARK_CFG_WIN_EN y ∧ r + pitch + tol ≤ (c.enc (c.markEnc y)).pos then
      let c := (c.setMark y { m with ref := some (r + pitch) }).addSat F.POS_MARK_STAT_MISS_CNT 1 y
      ({ c with pos := { c.pos with missWay := c.pos.missWay ++ [(y.val, r + pitch)] } }).emit 0x0909
    else c

/-! ### Compare outputs -/

def Chip.setOut (c : Chip) (n : Fin 8) (o : CmpOutSt) : Chip := { c with pos := { c.pos with out := c.pos.out.set n o } }

/-- An action drives CMPOn (R98). -/
def Chip.cmpAct (c : Chip) (n : Fin 8) (a : CmpAction) : Chip :=
  let o := c.pos.out[n]
  let c := if o.pulseEnd.isSome ∧ a = .pulse then (c.set F.POS_CMP_STAT_OVERLAP 1 n).emit 0x090F else c
  match a with
  | .pulse => c.setOut n { o with active := true, pulseEnd := some (c.now + us (c.get F.POS_CMP_CFG_WIDTH n)) }
  | .set => c.setOut n { o with active := true }
  | .clear => c.setOut n { o with active := false, pulseEnd := none }

/-- A behind entry (R95): discarded, or fired late where the expert bit asks for it. -/
def Chip.cmpBehind (c : Chip) (n : Fin 8) (a : CmpAction) : Chip :=
  if bitAt (c.get F.POS_XCFG_FIRE_LATE) n then
    ((c.cmpAct n a).addSat F.POS_CMP_STAT_LATE_CNT 1 n).emit 0x090D
  else (c.addSat F.POS_CMP_STAT_MISSED_CNT 1 n).emit 0x090C

/-- The entries that become the head after the first (R95, R96, R97), with the source position p now and prev at the end
of the previous cycle: behind entries go, entries reached in this cycle act, the first entry ahead stays. -/
def Chip.cmpJudge (n : Fin 8) (p prev : Int) : List (Int × CmpAction) → Chip → Chip
  | [], c => c.setOut n { c.pos.out[n] with list := [], prev := p }
  | (e, a) :: r, c =>
    if e ≤ prev then Chip.cmpJudge n p prev r (c.cmpBehind n a)
    else if e ≤ p then Chip.cmpJudge n p prev r (c.cmpAct n a)
    else c.setOut n { c.pos.out[n] with list := (e, a) :: r, prev := p }

/-- The head entry is reached (R93): it acts, then the following entries are judged. -/
def Chip.cmpReached (c : Chip) (n : Fin 8) (p : Int) : Chip :=
  let o := c.pos.out[n]
  match o.list with
  | [] => c
  | (e, a) :: r =>
    if c.on F.POS_CMP_CFG_EN n ∧ e ≤ p ∧ o.prev ≤ p then Chip.cmpJudge n p o.prev r (c.cmpAct n a)
    else c.setOut n { o with prev := p }

/-- A push by NZH or by software (R92); the flag says whether the list took it. -/
def Chip.cmpPush (c : Chip) (n : Fin 8) (e : Int) (action : Nat) (p : Int) : Chip × Bool :=
  let o := c.pos.out[n]
  let a := if action = 0 then CmpAction.pulse else if action = 1 then .set else .clear
  if 64 ≤ o.list.length ∨ action = 3 then
    let c := if 64 ≤ o.list.length then c.set F.POS_CMP_STAT_FULL 1 n else c
    ((c.emit 0x090E).addSat F.POS_REJ_CNT_COUNT 1, false)
  else if o.list = [] ∧ c.on F.POS_CMP_CFG_EN n then
    (Chip.cmpJudge n p p [(pos48 e, a)] c, true)
  else (c.setOut n { o with list := o.list ++ [(pos48 e, a)] }, true)

/-- A running pulse ends after WIDTH µs (R98). -/
def Chip.cmpPulseEnd (c : Chip) (n : Fin 8) : Chip :=
  let o := c.pos.out[n]
  match o.pulseEnd with
  | some t => if t ≤ c.now then c.setOut n { o with active := false, pulseEnd := none } else c
  | none => c

/-- The write of POS_CMPn_CFG.EN (R101, R102). -/
def Chip.cmpEnable (c : Chip) (n : Fin 8) (was : Bool) (p : Int) : Chip :=
  let o := c.pos.out[n]
  let en := c.on F.POS_CMP_CFG_EN n
  if en ∧ !was then Chip.cmpJudge n p p o.list (c.setOut n { o with enabled := true })
  else if !en ∧ was then c.setOut n { o with active := false, pulseEnd := none }
  else c

/-- The level of ball CMPOn (R98, R101, R102). -/
def Chip.cmpBall (c : Chip) (n : Fin 8) : Bool :=
  let o := c.pos.out[n]
  o.enabled && ((o.active && c.on F.POS_CMP_CFG_EN n) != c.on F.POS_CMP_CFG_POL n)

/-! ### Register effects of POS -/

/-- EN of an encoder channel goes from 0 to 1 (R66). -/
def Chip.encEnabled (c : Chip) (x : Fin 2) : Chip :=
  let e := c.enc x
  c.setEnc x { e with pos := 0, dir := none, held := false, ref := none, base := 0, mismatch := 0 }

/-- The index check is enabled by writing CPR non-zero (R68, R70). -/
def Chip.cprWritten (c : Chip) (x : Fin 2) : Chip :=
  if c.get F.POS_ENC_CPR_CPR x = 0 then c else c.setEnc x { c.enc x with ref := none, base := (c.enc x).pos }

/-- A write of 1 to ENC_FAULT (R76): causes and mismatch counter clear; a wire cause still active raises it again. -/
def Chip.encFaultClear (c : Chip) (x : Fin 2) : Chip :=
  let c := c.setEnc x { c.enc x with mismatch := 0 }
  let c := ((c.set F.POS_ENC_STAT_FC_INDEX 0 x).set F.POS_ENC_STAT_FC_WIRE 0 x).set F.POS_ENC_STAT_FC_HALL 0 x
  if c.get F.POS_ENC_STAT_WIRE_ACT x % 4 != 0 ∧ c.on F.POS_ENC_CFG_EN x then c.encFault x 2 else c

/-- Both wires of a pair hold the same level for more than 4 sample clocks (R72 to R74); sig 0 A, 1 B, 2 Z. A disabled channel
raises no fault (R66). -/
def Chip.wireFault (c : Chip) (x : Fin 2) (sig : Fin 3) : Chip :=
  if !c.on F.POS_ENC_CFG_EN x then c
  else
  let c := (c.orBits F.POS_ENC_STAT_WIRE (2 ^ sig.val) x).orBits F.POS_ENC_STAT_WIRE_ACT (2 ^ sig.val) x
  let c := c.emit 0x0901 [(1, x.val), (1, sig.val)]
  if sig.val < 2 then c.encFault x 2 else c

/-- The wires of a pair differ again (R72, R74). -/
def Chip.wireRestored (c : Chip) (x : Fin 2) (sig : Fin 3) : Chip :=
  let c := c.set F.POS_ENC_STAT_WIRE_ACT (putBit (c.get F.POS_ENC_STAT_WIRE_ACT x) sig false) x
  if sig.val = 2 then c.setEnc x { c.enc x with ref := none, mismatch := 0, base := (c.enc x).pos } else c

/-- An accepted Z edge (R67 to R71). -/
def Chip.indexEdge (c : Chip) (x : Fin 2) (level : Bool) : Chip :=
  let e := c.enc x
  if bitAt (c.get F.POS_ENC_STAT_WIRE_ACT x) 2 ∨ e.z = level ∨ !c.on F.POS_ENC_CFG_EN x then c
  else
    let c := c.setEnc x { e with z := level }
    let rising := level != c.on F.POS_ENC_CFG_Z_POL x
    let c := if e.dir = some rising ∧ c.get F.POS_ENCO_CFG_SRC = x.val then c.setEnco { c.pos.enco with index := true } else c
    if e.dir = some rising ∧ c.indexOn x then
      let e := c.enc x
      match e.ref with
      | none => c.setEnc x { e with ref := some e.pos, base := e.pos }
      | some r =>
        let cpr : Int := c.get F.POS_ENC_CPR_CPR x
        let m := (e.pos - r) % cpr
        let delta := if 2 * m ≤ cpr then m else m - cpr
        let c := c.set F.POS_ENC_IDX_IDX_DELTA (unsigned 16 (satInt 16 delta)) x
        if delta = 0 then c.setEnc x { e with base := e.pos, mismatch := 0 }
        else if delta.natAbs ≤ c.get F.POS_ENC_CFG_INDEX_TOL x then
          let p := pos48 (e.pos - delta)
          ((c.setEnc x { e with pos := p, base := p, mismatch := 0 }).addSat F.POS_ENC_IDX_SLIP_CNT 1 x).emit 0x0903 [(3, unsigned 24 delta)]
        else
          ((c.setEnc x { e with base := e.pos }).emit 0x0904 [(3, unsigned 24 delta)]).mismatch x
    else c

/-- An accepted change of A or B (R63, R64): the new accepted levels; a frozen signal keeps its level (R72). The second
component is how far the applied position moved. -/
def Chip.encLevels (c : Chip) (x : Fin 2) (a b : Bool) (ts : Nat) : Chip × Int :=
  let e := c.enc x
  let act := c.get F.POS_ENC_STAT_WIRE_ACT x
  let a := if bitAt act 0 then e.a else a
  let b := if bitAt act 1 then e.b else b
  let e' := { e with a := a, b := b }
  if !c.on F.POS_ENC_CFG_EN x then (c.setEnc x e', 0)
  else if e.a = a ∧ e.b = b then (c, 0)
  else if e.a ≠ a ∧ e.b ≠ b then (((c.setEnc x e').set F.POS_ENC_STAT_QUAD_ERR 1 x).emit 0x0902, 0)
  else
    -- A leads B: going forward A changes while A = B, and B changes while A ≠ B (R63)
    let fwd := ((e.a ≠ a) == (e.a == e.b)) != c.on F.POS_ENC_CFG_DIR_INV x
    let r := e'.count fwd (bitAt (c.get F.POS_XCFG_HYST_DIS) x) ts
    (c.setEnc x r.1, r.2)

/-- What follows inside POS when the applied position moved: the index, Hall and mark checks, and ENCO. -/
def Chip.encMoved (c : Chip) (x : Fin 2) (d : Int) : Chip :=
  if d = 0 then c
  else
    let gap := (c.enc x).gap * 2 ^ 31
    let c := (c.indexMissing x).hallStall x
    let c := if c.markEnc 0 = x then c.markMissing 0 else c
    let c := if c.markEnc 1 = x then c.markMissing 1 else c
    if c.get F.POS_ENCO_CFG_SRC = x.val then Chip.encoTicks (0 < d) gap d.natAbs c else c

end Sys2Proof.Machine
end

