-- ==== Sys2Proof/Machine/Nzh.lean ====
section
/-!
DEFINITION. Nozzle health (R214 to R245): fired lines and their frames, signatures and nozzle states, degraded windows, item
records, the reject output.
-/

namespace Sys2Proof.Machine

def Chip.setNzh (c : Chip) (s : NzhSt) : Chip := { c with nzh := s }

/-- Store a nozzle's state. -/
def Chip.setNozzle (c : Chip) (k : Fin 8) (q : Nat) (s : NozzleSt) : Chip :=
  c.setNzh { c.nzh with nozzles := sparsePut {} (7680 * k.val + q) s c.nzh.nozzles }

/-! ### Fired lines and frames (R215, R216, R220, R230) -/

/-- A port fires a line: its frame is awaited from the first strobe on, and its items take the flags of R230. -/
def Chip.lineFired (c : Chip) (k : Fin 8) (n : Int) (sensed : List Nat) : Chip :=
  let c := if c.on F.NZH_CTRL_EN then
      c.setNzh { c.nzh with await := c.nzh.await.set k (c.nzh.await[k] ++ [(n, sensed, c.now)]) } else c
  let solo := if c.col.switchAt[k] ≤ n then bitAt (c.get F.COL_STAT_SOLO) k else c.col.prevSolo[k]
  let c := if solo then c.markCarried [k] n (Account.flag flagTakeover) else c
  if bitAt (c.get F.NZH_STAT_BLIND) k || bitAt (c.get F.NZH_XCFG_SENSE_DIS) k then
    c.markCarried [k] n (Account.flag flagUnsensed) else c

/-- A fired line stays without a valid frame (R220). -/
def Chip.frameMissing (c : Chip) (k : Fin 8) (m : Int) : Chip :=
  let c := (c.skipGroups k m).addSat F.NZH_MISS_CNT_SIG_MISS 1
  let n := c.nzh.without[k] + 1
  let c := c.setNzh { c.nzh with without := c.nzh.without.set k n }
  if c.get F.NZH_CFG_BC_LOSS ≤ n ∧ !bitAt (c.get F.NZH_STAT_BLIND) k then
    (c.setBit F.NZH_STAT_BLIND k true).emit 0x0E04
  else c

/-- The deadline of a line's frame has passed. -/
def Chip.frameLate (c : Chip) (e : Int × List Nat × Nat) : Bool := decide (e.2.2 + us (c.get F.NZH_BC_TO_TO) < c.now)

/-- NZH_BC_TO passes after fired lines of a port without their frames. -/
def Chip.frameTimeout (c : Chip) (k : Fin 8) : Chip :=
  let late := c.nzh.await[k].filter c.frameLate
  let c := c.setNzh { c.nzh with await := c.nzh.await.set k (c.nzh.await[k].filter (fun e => !c.frameLate e)) }
  late.foldl (fun c e => c.frameMissing k e.1) c

/-! ### Signatures (R221 to R224) -/

/-- The class of a signature: 3 SHORT, 2 OPEN, 1 WEAK, 0 PASS. -/
def Chip.classify (c : Chip) (s : Signature) : Nat :=
  let ch := s.q / 1280
  if c.get F.NZH_THR_I_SHORT ch < s.isense then 3
  else if s.isense < c.get F.NZH_THR_I_OPEN ch then 2
  else if !s.noFire ∧ (c.get F.NZH_THR_T_WEAK ch < s.tnuc ∨ s.tnuc = 255) then 1
  else 0

/-- Each class has its counter (R245). -/
def Chip.countClass (c : Chip) (cls : Nat) : Chip :=
  let c := c.addWrap F.NZH_SIG_CNT_COUNT 1
  if cls = 1 then c.addSat F.NZH_BAD_CNT_WEAK 1
  else if cls = 2 then c.addSat F.NZH_BAD_CNT_OPEN 1
  else if cls = 3 then c.addSat F.NZH_BAD_CNT_SHORT 1 else c

/-- The row delay of an ink channel on a port (R129). -/
def Chip.channelDelay (c : Chip) (k : Fin 8) (ch : Nat) : Int :=
  match allRows.find? (fun (r : Fin 6) => c.rowChannel k r == ch) with
  | some r => c.rowDelay k r
  | none => 0

/-- Whether a degraded window touches an item of given columns and lines (R231). -/
def Chip.windowTouches (c : Chip) (w : DegradedWindow) (origin width : Nat) (start : Int) (lines : Nat) : Bool :=
  if h : w.port < 8 then
    let k : Fin 8 := ⟨w.port, h⟩
    let col := c.get F.CMP_TP_ORG (c.portTile k) + w.q % 1280
    let l := c.channelDelay k (w.q / 1280)
    decide (origin ≤ col) && decide (col < origin + width) && decide (w.na - l < start + lines)
      && (match w.nc with | none => true | some n => decide (w.na < n) && decide (start < n - l))
  else false

/-- A degraded window opens (R231); items whose records were issued are amended (R233). -/
def Chip.openWindow (c : Chip) (k : Fin 8) (q : Nat) (na : Int) : Chip :=
  let w : DegradedWindow := ⟨k.val, q, na, none⟩
  let c := c.setNzh { c.nzh with windows := c.nzh.windows ++ [w] }
  (c.nzh.issued.filter (fun i => c.windowTouches w i.2.1 i.2.2.1 i.2.2.2.1 i.2.2.2.2)).foldl
    (fun c i => (c.set F.NZH_STAT_AMEND 1).emit 0x0E06 [(8, i.1)]) c

/-- The open windows of a nozzle that works again close at the next line to be assembled. -/
def Chip.endWindows (c : Chip) (k : Fin 8) (q : Nat) : Chip :=
  c.setNzh { c.nzh with windows := c.nzh.windows.map (fun w =>
    if w.port == k.val && w.q == q && w.nc.isNone then { w with nc := some (c.asm[k].top + 1) } else w) }

/-- A nozzle becomes DEAD of a class (R225, R231). -/
def Chip.nozzleDead (c : Chip) (k : Fin 8) (q cls : Nat) : Chip :=
  let s := c.nozzle k q
  let ch := q / 1280
  let col := q % 1280
  let entry := 2 ^ 31 + k.val * 2 ^ 28 + ch * 2 ^ 25 + col * 2 ^ 14 + cls * 2 ^ 12
  let c := c.setNzh { c.nzh with dead := c.nzh.dead ++ [entry] }
  let c := c.emit 0x0E01 [(1, k.val), (1, ch), (2, col), (1, cls)]
  let pass := if cls = 1 then s.lastEject else s.lastPass
  let c := c.openWindow k q (match pass with | some n => n + 1 | none => c.trkStart.floor + 1)
  if c.on F.NZH_CFG_AUTO then
    let r := c.insertDead k ch col 1 (c.get F.NZH_CFG_METHOD)
    if r.2 then r.1 else (r.1.set F.NZH_STAT_DNT_REFUSED 1).emit 0x0E09
  else c

/-- A nozzle recovers (R226): NZH's own entry becomes invalid. -/
def Chip.nozzleRecovered (c : Chip) (k : Fin 8) (q : Nat) : Chip :=
  let mine := c.col.dnt.filter (fun e => e.kind == 0 && e.port == k.val && e.ic == q / 1280 && e.col == q % 1280 && e.source == 1)
  let c := (mine.foldl (fun c e => c.dropEntry e) c).unrefuse k.val (q / 1280) (q % 1280)
  (c.endWindows k q).emit 0x0E02

/-- The state update of R224 for a classified signature of line n. -/
def Chip.signatureState (c : Chip) (k : Fin 8) (n : Int) (s : Signature) (cls : Nat) : Chip :=
  let o := c.nozzle k s.q
  let o := { o with
    tnuc := s.tnuc, isense := s.isense, last := cls, noFire := s.noFire
    lastPass := if cls = 0 then some n else o.lastPass
    lastEject := if cls = 0 ∧ !s.noFire then some n else o.lastEject }
  if 2 ≤ o.state then
    let want := c.get F.NZH_CFG_RECOVER
    if o.state = 3 ∧ cls = 0 then
      if want ≠ 0 ∧ want ≤ o.recover + 1 then
        (c.setNozzle k s.q { o with state := 0, strikes := 0, openStrikes := 0, recover := 0 }).nozzleRecovered k s.q
      else c.setNozzle k s.q { o with recover := satNat 4 (o.recover + 1) }
    else c.setNozzle k s.q { o with recover := 0 }
  else if cls = 3 then (c.setNozzle k s.q { o with state := 4, exclude := true }).nozzleDead k s.q 3
  else if cls = 0 then
    let left := if s.noFire then o.strikes - o.openStrikes else 0
    c.setNozzle k s.q { o with strikes := left, openStrikes := 0, state := if left = 0 then 0 else o.state }
  else
    let strikes := o.strikes + 1
    let o' := { o with strikes := strikes, openStrikes := if cls = 2 then o.openStrikes + 1 else o.openStrikes }
    if c.get F.NZH_CFG_CONFIRM ≤ strikes then
      (c.setNozzle k s.q { o' with state := if cls = 2 then 3 else 2 }).nozzleDead k s.q cls
    else
      let c := c.setNozzle k s.q { o' with state := 1 }
      if o.strikes = 0 then c.emit 0x0E03 else c

/-- Whether line n senses nozzle q by its group (R214, R215). -/
def Chip.isScheduled (c : Chip) (k : Fin 8) (n : Int) (q : Nat) : Bool :=
  decide ((q % 480 : Nat) = n % 480) || (c.firesAt k n != 3 && decide ((q % 480 : Nat) = (n - 1) % 480))

/-- The deferred list after a signature (R218). -/
def Chip.deferred (c : Chip) (k : Fin 8) (n : Int) (s : Signature) : Chip :=
  let l := c.nzh.deferred[k]
  let put := fun (l : List Nat) => c.setNzh { c.nzh with deferred := c.nzh.deferred.set k l }
  if !s.noFire then put (l.filter (fun q => q != s.q))
  else if !c.isScheduled k n s.q ∨ l.contains s.q ∨ bitAt (c.get F.NZH_XCFG_DEFER_DIS) k then c
  else if l.length < 64 then put (l ++ [s.q])
  else (c.addSat F.NZH_DEFER_OVF 1).emit 0x0E0A

/-- One signature of the frame of line n (R221 to R224). -/
def Chip.signature (c : Chip) (k : Fin 8) (n : Int) (sensed : List Nat) (s : Signature) : Chip :=
  if sensed.contains s.q then
    let cls := c.classify s
    ((c.countClass cls).signatureState k n s cls).deferred k n s
  else c.addSat F.NZH_MISS_CNT_SIG_MISS 1

/-- The frame of line n arrives with its signatures: in time, it ends blindness and updates the nozzles (R220). -/
def Chip.nzhFrame (c : Chip) (k : Fin 8) (n : Int) (sigs : List Signature) : Chip :=
  let c := c.frameTimeout k
  match takeFirst (fun (e : Int × List Nat × Nat) => e.1 == n) c.nzh.await[k] with
  | none => c
  | some (e, rest) =>
    let c := c.setNzh { c.nzh with await := c.nzh.await.set k rest, without := c.nzh.without.set k 0 }
    let c := if bitAt (c.get F.NZH_STAT_BLIND) k then (c.setBit F.NZH_STAT_BLIND k false).emit 0x0E05 else c
    sigs.foldl (fun c s => c.signature k n e.2.1 s) c

/-! ### Registers of NZH with effects of their own (R225, R227, R239, R243, R245) -/

/-- The word of NZH_NZ_DATA for the selected nozzle. -/
def Chip.nozzleWord (c : Chip) : Nat :=
  let k := c.get F.NZH_NZ_SEL_PORT
  if h : k < 8 then
    let s := c.nozzle ⟨k, h⟩ (c.get F.NZH_NZ_SEL_NOZZLE)
    s.tnuc * 2 ^ 24 + s.isense * 2 ^ 16 + satNat 4 s.recover * 2 ^ 12 + satNat 2 s.strikes * 2 ^ 8 + bit s.exclude * 2 ^ 7
      + bit s.noFire * 2 ^ 6 + s.last * 2 ^ 4 + s.state
  else 0

/-- NOZZLE advances after an access while AUTOINC is 1. -/
def Chip.nozzleNext (c : Chip) : Chip :=
  if c.on F.NZH_NZ_SEL_AUTOINC then c.set F.NZH_NZ_SEL_NOZZLE ((c.get F.NZH_NZ_SEL_NOZZLE + 1) % 7680) else c

/-- A write of NZH_NZ_DATA (R227): only STATE 0 is taken; EXCLUDE is a field of its own. -/
def Chip.nozzleWrite (c : Chip) (w : Nat) : Chip :=
  let k := c.get F.NZH_NZ_SEL_PORT
  let q := c.get F.NZH_NZ_SEL_NOZZLE
  if h : k < 8 then
    let s := c.nozzle ⟨k, h⟩ q
    let clear := w % 8 = 0
    let c := if clear then c.endWindows ⟨k, h⟩ q else c.addSat F.NZH_REJ_CNT_COUNT 1
    let s := if clear then { s with state := 0, strikes := 0, openStrikes := 0, exclude := false } else s
    (c.setNozzle ⟨k, h⟩ q { s with exclude := bitAt w 7 }).nozzleNext
  else c

/-- A read of NZH_DEAD removes the oldest entry (R225). -/
def Chip.deadRead (c : Chip) : Chip × Nat :=
  match c.nzh.dead with
  | [] => (c, 0)
  | e :: r => (c.setNzh { c.nzh with dead := r }, e)

/-- Unread records. -/
def Chip.arqUnread (c : Chip) : Nat := (c.get F.NZH_ARQ_WR_WR + 8192 - c.get F.NZH_ARQ_RD_RD) % 8192

/-- A read of NZH_ARQ_CLAIM (R239). -/
def Chip.arqClaim (c : Chip) : Chip × Nat :=
  if c.get F.NZH_ARQ_RSV_RSV + c.arqUnread < 4096 then (c.addSat F.NZH_ARQ_RSV_RSV 1, 1) else (c, 0)

/-- A write of 1 to NZH_ARQ_RSV.RELEASE (R239). -/
def Chip.arqRelease (c : Chip) : Chip := c.set F.NZH_ARQ_RSV_RSV (c.get F.NZH_ARQ_RSV_RSV - 1)

/-- A write of NZH_ARQ_RD: a value beyond WR is ignored and counted (R245). -/
def Chip.arqRead (c : Chip) (v : Nat) : Chip :=
  if (c.get F.NZH_ARQ_WR_WR + 8192 - v % 8192) % 8192 ≤ c.arqUnread then c.set F.NZH_ARQ_RD_RD v
  else c.addSat F.NZH_REJ_CNT_COUNT 1

/-- Whether the lanes' reject settings are ones R243 allows. -/
def Chip.rejectLanesOk (c : Chip) : Bool :=
  allPorts.all (fun (i : Fin 8) => allPorts.all (fun (j : Fin 8) =>
    i == j || !c.on F.NZH_REJ_LANE_EN i || !c.on F.NZH_REJ_LANE_EN j
      || c.get F.NZH_REJ_LANE_OUT i != c.get F.NZH_REJ_LANE_OUT j
      || (c.get F.NZH_REJ_GATE_GATE_OFS i == c.get F.NZH_REJ_GATE_GATE_OFS j
          && !c.on F.NZH_REJ_LANE_SPAN i && !c.on F.NZH_REJ_LANE_SPAN j)))

/-! ### Records (R232 to R239) -/

/-- The port rows that print an item: their largest and smallest delays (R229, R232). -/
def Chip.itemDelays (c : Chip) (a : Account) : List Int :=
  ((c.enabledPorts.filter (fun (k : Fin 8) =>
      let org := c.get F.CMP_TP_ORG (c.portTile k)
      decide (a.origin < org + 1280) && decide (org < a.origin + a.width))).map
    (fun (k : Fin 8) => allRows.map (fun (r : Fin 6) => c.rowDelay k r))).flatten

/-- n_end: the event that fires the item's last web line on the row with the largest delay (R232). -/
def Chip.itemEnd (c : Chip) (a : Account) : Int := a.start + (a.lines : Int) - 1 + listMax (c.itemDelays a)

/-- E(n) of an event that has been issued, in 1/256 ns. -/
def Chip.eventTime (c : Chip) (n : Int) : Option Nat := (c.trk.events.find? (fun e => e.line == n)).map LineEvent.time

/-- Whether an item was not composed (R148, R153). -/
def Account.uncomposed (a : Account) : Bool := bitAt a.flags 0 || bitAt a.flags 1

/-- END_TIME once the item's issue time has come (R232). -/
def Chip.issueTime (c : Chip) (a : Account) : Option Nat :=
  if a.uncomposed then some c.nowNs
  else
    let n := c.itemEnd a
    match c.eventTime (n + (c.get F.NZH_HOLD_HOLD : Int)), c.eventTime n with
    | some h, some e => if h * 2 ^ 24 ≤ c.now ∧ a.composed then some (e / 256) else none
    | _, _ => none

/-- The degraded windows that touched an item (R231). -/
def Chip.itemWindows (c : Chip) (a : Account) : Nat :=
  (c.nzh.windows.filter (fun w => c.windowTouches w a.origin a.width a.start a.lines)).length

/-- FLAGS of an account (R230, R231). -/
def Chip.itemFlags (c : Chip) (a : Account) : Nat := if c.itemWindows a = 0 then a.flags else putBit a.flags flagDegraded true

/-- Whether an item needs the partner's verdict (R234, R385). -/
def Chip.needsVerdict (c : Chip) (a : Account) : Bool :=
  c.twin && (match c.tko.swLine with
    | none => true
    | some n =>
      let first := a.start + listMin (c.itemDelays a)
      !(decide (n ≤ first) && (match c.tko.retLine with | none => true | some r => decide (c.itemEnd a < r))))

/-- REJECT (R237). -/
def Chip.rejects (c : Chip) (flags partner : Nat) (force : Bool) : Bool :=
  ((flags ||| partner) &&& c.get F.NZH_REJ_MASK_MASK) != 0 || force || bitAt partner flagForce

/-- What the reject push of a record did: the chip, pushed, late, REJ_POS. -/
structure RejPush where
  chip : Chip
  pushed : Bool := false
  late : Bool := false
  pos : Int := 0

/-- The reject entry of a record (R240 to R242). -/
def Chip.rejectPush (c : Chip) (a : Account) : RejPush :=
  if !c.on F.NZH_REJ_LANE_EN a.lane then { chip := c }
  else
    let out := c.get F.NZH_REJ_LANE_OUT a.lane
    if h : out < 8 then
      let o : Fin 8 := ⟨out, h⟩
      let gate := signed 32 (c.get F.NZH_REJ_GATE_GATE_OFS a.lane)
      let e := 64 * (a.start + (a.lines : Int)) + gate
      let s := 64 * a.start + gate
      let span := c.on F.NZH_REJ_LANE_SPAN a.lane
      let fail := fun (c : Chip) => (c.set F.NZH_STAT_REJ_FAIL 1).emit 0x0E07
      if !c.on F.POS_CMP_CFG_OWNER o || c.get F.POS_CMP_CFG_SRC o != 2 then { chip := fail c }
      else
        let late := decide ((if span then s else e) ≤ c.ticks)
        if span then
          let x := c.cmpPush o s 1 c.ticks
          if !x.2 then { chip := fail x.1, late := late }
          else
            let y := x.1.cmpPush o e 2 c.ticks
            if !y.2 then { chip := fail (y.1.setNzh { y.1.nzh with lastPush := y.1.nzh.lastPush.set o (some s) }), late := late }
            else { chip := y.1.setNzh { y.1.nzh with lastPush := y.1.nzh.lastPush.set o (some e) }, pushed := true, late := late, pos := e }
        else if c.nzh.lastPush[o] = some e then { chip := c, pushed := true, pos := e }
        else
          let x := c.cmpPush o e 0 c.ticks
          if !x.2 then { chip := fail x.1, late := late }
          else { chip := x.1.setNzh { x.1.nzh with lastPush := x.1.nzh.lastPush.set o (some e) }, pushed := true, late := late, pos := e }
    else { chip := c }

/-- The 64 bytes of a record (R235). -/
def recordBytes (c : Chip) (a : Account) (reject : Bool) (p : RejPush) (endTime : Nat) : List Nat :=
  let status := bit reject + 2 * bit p.pushed + 4 * bit p.late + 8 * bit a.partner.isSome + 16 * a.lane
  let body := bytesLE 1 1 ++ bytesLE 1 status ++ bytesLE 2 c.nzh.seq ++ bytesLE 8 a.id ++ bytesLE 2 a.job ++ bytesLE 2 c.nodeId
    ++ bytesLE 4 (if a.uncomposed then 0 else a.crc) ++ bytesLE 4 (c.itemFlags a) ++ bytesLE 4 (a.partner.getD 0)
    ++ bytesLE 6 (unsigned 48 a.start) ++ bytesLE 3 a.lines ++ [0] ++ bytesLE 2 (satNat 16 a.drops.length) ++ bytesLE 8 endTime
    ++ bytesLE 6 (unsigned 48 p.pos) ++ bytesLE 2 a.lost ++ bytesLE 2 (satNat 16 (c.itemWindows a)) ++ bytesLE 2 a.suppress
  body ++ bytesLE 4 (crc32 body)

/-- A record is issued into its slot (R235 to R242). -/
def issueRecord (errs : List DdrError) (a : Account) (endTime : Nat) (x : Chip × Store) : Chip × Store :=
  let c := x.1
  let reject := c.rejects (c.itemFlags a) (a.partner.getD 0) a.forceReject
  let p := if reject then c.rejectPush a else { chip := c }
  let rec' := recordBytes p.chip a reject p endTime
  let c := p.chip
  let wr := c.get F.NZH_ARQ_WR_WR
  let at' := c.baseAddr F.NZH_ARQ_BASE_LO_ADDR F.NZH_ARQ_BASE_HI_ADDR + 64 * (wr % 4096)
  let y := agentWrite .pipe errs at' (rec'.map (BitVec.ofNat 8)) (c, x.2)
  let c := y.1.set F.NZH_ARQ_WR_WR ((wr + 1) % 8192)
  let c := c.arqRelease.addSat F.NZH_ISSUED_COUNT 1
  let c := if reject then c.addSat F.NZH_REJECTED_COUNT 1 else c
  let c := c.setNzh { c.nzh with
    seq := (c.nzh.seq + 1) % 65536
    accounts := c.nzh.accounts.filter (fun b => !(b == a))
    issued := ((a.id, a.origin, a.width, a.start, a.lines) :: c.nzh.issued).take 4096 }
  (c, y.2)

/-- Whether account a comes before b in the order of issue (R238). -/
def Account.before (a b : Account) : Bool :=
  match a.due, b.due with
  | some x, some y => x < y || (x == y && a.lane < b.lane)
  | _, _ => false

/-- The first of the due accounts in the order of issue. -/
def firstDue (l : List Account) : Option Account :=
  match l.filter (fun a => a.due.isSome) with
  | [] => none
  | a :: r => some (r.foldl (fun m b => if b.before m then b else m) a)

/-- Issue the records at the head of the order that wait for nothing; the fuel is their number. -/
def drainRecords (errs : List DdrError) : Nat → Chip × Store → Chip × Store
  | 0, x => x
  | f + 1, x =>
    match firstDue x.1.nzh.accounts with
    | none => x
    | some a =>
      if a.ready then
        match a.due with
        | some t => drainRecords errs f (issueRecord errs a t x)
        | none => x
      else x

/-- Change one account. -/
def Chip.setAccount (c : Chip) (a b : Account) : Chip :=
  c.setNzh { c.nzh with accounts := c.nzh.accounts.map (fun y => if y == a then b else y) }

/-- An item's issue time has come: its verdict leaves for the partner (R234). -/
def Chip.accountDue (c : Chip) (a : Account) (endTime : Nat) : Chip :=
  if c.needsVerdict a then
    let c := c.send "verdict" [c.get F.TKO_PARTNER_NODE, a.id, c.itemFlags a]
    c.setAccount a { a with
      due := some endTime, sentFlags := true, ready := a.partner.isSome, pvDeadline := some (c.now + us (c.get F.NZH_PV_TO_TO)) }
  else c.setAccount a { a with due := some endTime, ready := true }

/-- RECORD_ISSUE: every account whose issue time has come is due; the records that wait for nothing are issued. -/
def recordIssue (errs : List DdrError) (x : Chip × Store) : Chip × Store :=
  let c := x.1
  if !c.on F.NZH_CTRL_EN then x
  else
    let c := c.nzh.accounts.foldl (fun c a =>
      if a.due.isSome then c else match c.issueTime a with | some t => c.accountDue a t | none => c) c
    drainRecords errs c.nzh.accounts.length (c, x.2)

/-- The partner's FLAGS for an item arrive (R234): in time, they count. -/
def verdictRx (errs : List DdrError) (id flags : Nat) (x : Chip × Store) : Chip × Store :=
  let c := x.1
  match c.nzh.accounts.find? (fun a => a.id == id && a.partner.isNone && !a.ready) with
  | none => x
  | some a =>
    let late := match a.pvDeadline with | some t => decide (t < c.now) | none => false
    if late then x
    else
      let c := c.setAccount a { a with partner := some flags, ready := a.sentFlags }
      drainRecords errs c.nzh.accounts.length (c, x.2)

/-- NZH_PV_TO passes without the partner's FLAGS (R234). -/
def pvTimeout (errs : List DdrError) (x : Chip × Store) : Chip × Store :=
  let c := x.1
  let late := c.nzh.accounts.filter (fun a => a.sentFlags && !a.ready
    && (match a.pvDeadline with | some t => decide (t ≤ c.now) | none => false))
  let c := late.foldl (fun c a => (c.setAccount a { a with flags := putBit a.flags 16 true, ready := true }).emit 0x0E08 [(8, a.id)]) c
  drainRecords errs c.nzh.accounts.length (c, x.2)

end Sys2Proof.Machine
end

