-- ==== Sys2Proof/Machine/Crypto.lean ====
section
/-!
DEFINITION. SHA-256 and the ECDSA P-256 check that images, packages and fuse regions rest on (R390, R608, R620).
-/

namespace Sys2Proof.Machine

/-! ### SHA-256 -/

def rotr (x n : Nat) : Nat := (x / 2 ^ n + x * 2 ^ (32 - n)) % 2 ^ 32

def shaK1 : List Nat :=
  [0x428a2f98, 0x71374491, 0xb5c0fbcf, 0xe9b5dba5, 0x3956c25b, 0x59f111f1, 0x923f82a4, 0xab1c5ed5,
   0xd807aa98, 0x12835b01, 0x243185be, 0x550c7dc3, 0x72be5d74, 0x80deb1fe, 0x9bdc06a7, 0xc19bf174,
   0xe49b69c1, 0xefbe4786, 0x0fc19dc6, 0x240ca1cc, 0x2de92c6f, 0x4a7484aa, 0x5cb0a9dc, 0x76f988da,
   0x983e5152, 0xa831c66d, 0xb00327c8, 0xbf597fc7, 0xc6e00bf3, 0xd5a79147, 0x06ca6351, 0x14292967]
def shaK2 : List Nat :=
  [0x27b70a85, 0x2e1b2138, 0x4d2c6dfc, 0x53380d13, 0x650a7354, 0x766a0abb, 0x81c2c92e, 0x92722c85,
   0xa2bfe8a1, 0xa81a664b, 0xc24b8b70, 0xc76c51a3, 0xd192e819, 0xd6990624, 0xf40e3585, 0x106aa070,
   0x19a4c116, 0x1e376c08, 0x2748774c, 0x34b0bcb5, 0x391c0cb3, 0x4ed8aa4a, 0x5b9cca4f, 0x682e6ff3,
   0x748f82ee, 0x78a5636f, 0x84c87814, 0x8cc70208, 0x90befffa, 0xa4506ceb, 0xbef9a3f7, 0xc67178f2]
def shaInit : List Nat :=
  [0x6a09e667, 0xbb67ae85, 0x3c6ef372, 0xa54ff53a, 0x510e527f, 0x9b05688c, 0x1f83d9ab, 0x5be0cd19]

/-- The big-endian number of a byte list. -/
def ofBytesBE (l : List Nat) : Nat := l.foldl (fun n b => 256 * n + b) 0

/-- The 64 words of a block's schedule; w holds the words so far, newest first. -/
def shaExtend : Nat → List Nat → List Nat
  | 0, w => w
  | n + 1, w =>
    let x := w.getD 14 0
    let y := w.getD 1 0
    let s0 := rotr x 7 ^^^ rotr x 18 ^^^ x / 8
    let s1 := rotr y 17 ^^^ rotr y 19 ^^^ y / 1024
    shaExtend n (((w.getD 15 0 + s0 + w.getD 6 0 + s1) % 2 ^ 32) :: w)

/-- One round on the eight working words. -/
def shaRound (s : List Nat) (kw : Nat) : List Nat :=
  match s with
  | [a, b, c, d, e, f, g, h] =>
    let s1 := rotr e 6 ^^^ rotr e 11 ^^^ rotr e 25
    let ch := (e &&& f) ^^^ ((2 ^ 32 - 1 - e) &&& g)
    let t1 := h + s1 + ch + kw
    let s0 := rotr a 2 ^^^ rotr a 13 ^^^ rotr a 22
    let mj := (a &&& b) ^^^ (a &&& c) ^^^ (b &&& c)
    [(t1 + s0 + mj) % 2 ^ 32, a, b, c, (d + t1) % 2 ^ 32, e, f, g]
  | _ => s

/-- One 64-byte block. -/
def shaBlock (h : List Nat) (block : List Nat) : List Nat :=
  let w0 := (List.range 16).map (fun i => ofBytesBE ((block.drop (4 * i)).take 4))
  let w := (shaExtend 48 w0.reverse).reverse
  let out := (((shaK1 ++ shaK2).zip w).map (fun x => x.1 + x.2)).foldl shaRound h
  (h.zip out).map (fun x => (x.1 + x.2) % 2 ^ 32)

/-- The blocks of a padded message; the fuel is their number. -/
def shaBlocks : Nat → List Nat → List Nat → List Nat
  | 0, _, h => h
  | n + 1, l, h => shaBlocks n (l.drop 64) (shaBlock h (l.take 64))

/-- The SHA-256 digest of a byte list as eight words. -/
def sha256 (l : List Nat) : List Nat :=
  let zeros := (119 - l.length % 64) % 64
  let bits := 8 * l.length
  let padded := l ++ [0x80] ++ List.replicate zeros 0 ++ (bytesLE 8 bits).reverse
  shaBlocks (padded.length / 64) padded shaInit

/-- The digest as a number, and as its 32 bytes. -/
def sha256Nat (l : List Nat) : Nat := (sha256 l).foldl (fun n w => n * 2 ^ 32 + w) 0
def sha256Bytes (l : List Nat) : List Nat := ((sha256 l).map (fun w => (bytesLE 4 w).reverse)).flatten

/-! ### ECDSA P-256 -/

def p256 : Nat := 0xffffffff00000001000000000000000000000000ffffffffffffffffffffffff
def p256n : Nat := 0xffffffff00000000ffffffffffffffffbce6faada7179e84f3b9cac2fc632551
def p256b : Nat := 0x5ac635d8aa3a93e7b3ebbd55769886bc651d06b0cc53b0f63bce3c3e27d2604b
def p256g : Nat × Nat :=
  (0x6b17d1f2e12c4247f8bce6e563a440f277037d812deb33a0f4a13945d898c296,
   0x4fe342e2fe1a7f9b8ee7eb4a7c0f9e162bce33576b315ececbb6406837bf51f5)

/-- b ^ e modulo m over the low n bits of e. -/
def powMod (m : Nat) : Nat → Nat → Nat → Nat
  | 0, _, _ => 1 % m
  | n + 1, b, e => (if e % 2 = 1 then b else 1) * powMod m n (b * b % m) (e / 2) % m

/-- The inverse modulo a prime. -/
def invMod (m a : Nat) : Nat := powMod m 256 (a % m) (m - 2)

/-- Sum of two points of the curve; none is the point at infinity. -/
def ecAdd : Option (Nat × Nat) → Option (Nat × Nat) → Option (Nat × Nat)
  | none, q => q
  | p, none => p
  | some (x1, y1), some (x2, y2) =>
    if x1 = x2 ∧ (y1 + y2) % p256 = 0 then none
    else
      let s := if x1 = x2 then (3 * x1 * x1 + p256 - 3) * invMod p256 (2 * y1) % p256
        else (y2 + p256 - y1) * invMod p256 (x2 + p256 - x1) % p256
      let x3 := (s * s + 2 * p256 - x1 - x2) % p256
      some (x3, (s * (x1 + p256 - x3) + p256 - y1) % p256)

/-- k times a point over n bits of k. -/
def ecMul : Nat → Nat → Option (Nat × Nat) → Option (Nat × Nat)
  | 0, _, _ => none
  | n + 1, k, p => ecAdd (if k % 2 = 1 then p else none) (ecMul n (k / 2) (ecAdd p p))

/-- Whether (x, y) is a point of the curve (R615). -/
def onCurve (x y : Nat) : Bool :=
  x < p256 && y < p256 && (y * y) % p256 == (x * x * x + (p256 - 3) * x + p256b) % p256

/-- Whether (r, s) signs the digest under a public key. -/
def ecdsaOk (key : Nat × Nat) (digest r s : Nat) : Bool :=
  if r = 0 ∨ s = 0 ∨ p256n ≤ r ∨ p256n ≤ s ∨ !onCurve key.1 key.2 then false
  else
    let w := invMod p256n s
    match ecAdd (ecMul 256 (digest * w % p256n) (some p256g)) (ecMul 256 (r * w % p256n) (some key)) with
    | none => false
    | some (x, _) => x % p256n == r

/-- The signature of R390 over a body: r and s, 32 bytes each, big-endian. -/
def signatureOk (key : Nat × Nat) (body sig : List Nat) : Bool :=
  ecdsaOk key (sha256Nat body) (ofBytesBE (sig.take 32)) (ofBytesBE ((sig.drop 32).take 32))

end Sys2Proof.Machine
end

