-- ==== Sys2Proof/Machine/Ev.lean ====
section
/-!
DEFINITION. The event controller (R636 to R647) and the event recorder (R648 to R664).
-/

namespace Sys2Proof.Machine

def Chip.setEv (c : Chip) (e : EvSt) : Chip := { c with ev := e }

/-! ### Sources (R639, R640, R645) -/

/-- The home source of an event; first is the channel of a DMA event. -/
def homeSource (code first : Nat) : Nat :=
  let b := code / 256 % 32
  let n := code % 256
  if 0x80 ≤ n then 96 + b
  else if b = 5 then first % 32
  else if 0x10 ≤ b ∧ b ≤ 0x17 then (if n ≤ 0x0B then 40 else 48) + (b - 0x10)
  else 64 + b

/-- The sources EV056 to EV063 that an event also raises. -/
def extraSources (code : Nat) : List Nat :=
  (if 0x1F02 ≤ code ∧ code ≤ 0x1F04 then [56] else [])
  ++ (if code = 0x0E01 then [57] else [])
  ++ (if code = 0x0906 then [58] else [])
  ++ (if code = 0x0A02 ∨ code = 0x0A03 then [59] else [])
  ++ (if 0x1000 ≤ code ∧ code < 0x1800 ∧ code % 256 = 0x11 then [60] else [])
  ++ (if code = 0x0001 then [61] else [])
  ++ (if code = 0x0603 ∨ code = 0x1E02 then [62] else [])
  ++ (if code = 0x1B07 then [63] else [])

/-- The watches that match a code (R645). -/
def Chip.watches (c : Chip) (code : Nat) : List Nat :=
  ((List.range 64).filter (fun (w : Nat) =>
    let m := c.get F.EVC_WATCH_MASK w
    m != 0 && code &&& m == c.get F.EVC_WATCH_CODE w &&& m)).map (192 + ·)

/-- A source's route word. -/
def Chip.route (c : Chip) (s : Nat) : Nat := (sparseGet (0 : Word) s c.ev.route).toNat
def routePrio (r : Nat) : Nat := bitsOf r 22 20
def routeVec (r : Nat) : Nat := bitsOf r 29 24

def Chip.isPending (c : Chip) (s : Nat) : Bool := bitAt (c.get F.EVC_PEND_PEND (s / 32)) (s % 32)

/-- A source is raised: pending, counted, and its message falls due where the bit was 0 (R640, R643). -/
def Chip.raiseSource (c : Chip) (s : Nat) : Chip :=
  let new := !c.isPending s
  let c := c.orBits F.EVC_PEND_PEND (2 ^ (s % 32)) (s / 32)
  let n := (sparseGet 0 s c.ev.rcnt + 1) % 2 ^ 32
  let due := if new && bitAt (c.route s) 31 && !c.ev.msixDue.contains s then c.ev.msixDue ++ [s] else c.ev.msixDue
  c.setEv { c.ev with rcnt := sparsePut 0 s n c.ev.rcnt, msixDue := due }

/-- A signal reaches EVC: the sources it raises. One that finds TRUST down is lost (R30). -/
def Chip.takeSignal (c : Chip) (s : Signal) : Chip :=
  if !c.up 1 then c
  else match s with
    | .mailbox m => c.raiseSource (32 + m)
    | .event code first => (homeSource code first :: (extraSources code ++ c.watches code)).foldl Chip.raiseSource c

/-- The oldest source signal reaches EVC (R640). -/
def Chip.serveSignal (c : Chip) : Chip :=
  match c.ev.sig with
  | [] => c
  | s :: r => Chip.takeSignal (c.setEv { c.ev with sig := r }) s

/-- A write of 1 bits to EVC_PENDw. -/
def Chip.clearPend (c : Chip) (w mask : Nat) : Chip :=
  c.set F.EVC_PEND_PEND (c.get F.EVC_PEND_PEND w - (c.get F.EVC_PEND_PEND w &&& mask)) w

/-! ### Claims, triggers, routes, firmware events (R641, R642, R644, R646, R647) -/

/-- The sources that R641 names for core n. -/
def Chip.claimable (c : Chip) (n : Nat) : List Nat :=
  (List.range 256).filter (fun (s : Nat) => c.isPending s && bitAt (c.route s) n && c.get F.EVC_CORE_THR_THR n < routePrio (c.route s))

/-- The interrupt of a core (R641). -/
def Chip.coreIrq (c : Chip) (n : Nat) : Bool := !(c.claimable n).isEmpty

/-- The source a claim returns: the highest priority, then the lowest number. -/
def Chip.claimBest (c : Chip) (n : Nat) : Option Nat :=
  (c.claimable n).foldl (fun (b : Option Nat) (s : Nat) =>
    match b with
    | none => some s
    | some t => if routePrio (c.route t) < routePrio (c.route s) then some s else some t) none

/-- A read of EVC_COREc_CLAIM (R642). -/
def Chip.claim (c : Chip) (n : Nat) : Chip × Nat :=
  match c.claimBest n with
  | none => (c, 0x100)
  | some s => (c.clearPend (s / 32) (2 ^ (s % 32)), routePrio (c.route s) * 65536 + s)

/-- A write of EVC_ROUTE for source s (R644): only TC touches a route that includes TC. -/
def Chip.routeWrite (c : Chip) (i : Initiator) (s w : Nat) : Chip :=
  if i ≠ .tc ∧ (bitAt (c.route s) 0 || bitAt w 0) then c.addSat F.EVC_REJ_CNT_COUNT 1
  else
    let v := w &&& 0xBF70000F
    c.setEv { c.ev with route := sparsePut (0 : Word) s (BitVec.ofNat 32 v) c.ev.route }

/-- A firmware event (R647): its detail is the initiator's latched words. -/
def Chip.firmwareEvent (c : Chip) (i : Initiator) (code : Nat) : Chip :=
  if i ≠ .tc ∧ code % 256 < 0x80 then c.addSat F.EVC_REJ_CNT_COUNT 1
  else
    let d := ([R.EVC_LOG_D0.addr, R.EVC_LOG_D1.addr, R.EVC_LOG_D2.addr].map (fun (a : Nat) => bytesLE 4 (c.latched a (initNo i)))).flatten
    let e : Event := ⟨code, c.nowNs, c.timeValid 1, d, false, true, none⟩
    c.setEv { c.ev with sig := c.ev.sig ++ [.event code 0], recs := c.ev.recs ++ [e], faultIn := c.ev.faultIn ++ [e] }

/-- A hardware code that trusted firmware writes at boot (R638). -/
def Chip.emitFw (c : Chip) (code : Nat) (vals : List (Nat × Nat) := []) : Chip :=
  let d := packDetail vals []
  let e : Event := ⟨code, c.nowNs, c.timeValid 1, d.1, d.2, true, none⟩
  c.setEv { c.ev with sig := c.ev.sig ++ [.event code 0], recs := c.ev.recs ++ [e], faultIn := c.ev.faultIn ++ [e] }

/-! ### Records in the ring (R648, R649) -/

/-- The 32 bytes of a record. -/
def eventBytes (e : Event) (rep seq flags : Nat) : List Nat :=
  let b := bytesLE 2 e.code ++ bytesLE 2 rep ++ bytesLE 3 seq ++ [flags] ++ bytesLE 8 e.time
    ++ (e.detail ++ List.replicate (12 - e.detail.length) 0)
  b ++ bytesLE 4 (crc32 b)

/-- Byte address of word j of slot i of the ring (R649). -/
def ringWord (i j : Nat) : Nat := 64 * (8 * i + j) + 60

/-- Write the words of a record into its slot. -/
def putRing (m : Store) (slot : Nat) (b : List Nat) : Store :=
  (List.range 8).foldl (fun m j => m.write (ringWord slot j) (leBytes 4 (fieldLE b (4 * j) 4))) m

/-- The bytes of a slot. -/
def ringBytes (m : Store) (slot : Nat) : List Nat :=
  ((List.range 8).map (fun (j : Nat) => (m.read (ringWord slot j) 4).map BitVec.toNat)).flatten

/-- FLAGS of a record at its writing. -/
def Chip.recFlags (c : Chip) (e : Event) (opened held : Bool) : Nat :=
  bit e.fw + 2 * bit e.tv + 4 * c.get F.SEC_PHASE_PHASE + 16 * bit e.trunc + 32 * bit opened + 64 * bit held

def Chip.inService (c : Chip) : Bool := c.get F.SEC_PHASE_PHASE == 1

/-- The open record closes (R651). -/
def closeRecord (x : Chip × Store) : Chip × Store :=
  match x.1.ev.openRec with
  | none => x
  | some o =>
    let c := (x.1.setEv { x.1.ev with openRec := none }).set F.EVR_STAT_OPEN 0
    (c, putRing x.2 o.slot (eventBytes o.ev o.rep o.seq (o.flags - 32)))

/-- A record is written (R649, R661): the newest slot, overwriting the oldest; a reader that had not taken that one loses it. -/
def putRecord (e : Event) (held : Bool) (x : Chip × Store) : Chip × Store :=
  let x := closeRecord x
  let c := x.1
  let n := c.get F.EVR_WR_WR
  let seq := c.get F.EVR_SEQ_SEQ
  let opened := c.inService
  let flags := c.recFlags e opened held
  let v := c.ev
  let lostM := c.on F.EVR_CTRL_MIR_EN && v.mirNext + 2048 == n
  let lostH := c.on F.EVC_HQ_CFG_EN && v.hqNext + 2048 == n
  let v := { v with
    openRec := if opened then some ⟨n % 2048, e, seq, flags, 0, c.now⟩ else none
    mirNext := if lostM then v.mirNext + 1 else v.mirNext, mirRun := if lostM then v.mirRun + 1 else v.mirRun
    hqNext := if lostH then v.hqNext + 1 else v.hqNext, hqRun := if lostH then v.hqRun + 1 else v.hqRun }
  let c := c.setEv v
  let c := if lostM then (c.addSat F.EVR_LOST_MIR_LOST 1).set F.EVR_STAT_MIR_LOST 1 else c
  let c := if lostH then c.addSat F.EVC_HQ_LOST_LOCAL 1 else c
  let c := ((c.addWrap F.EVR_WR_WR 1).addWrap F.EVR_SEQ_SEQ 1).set F.EVR_STAT_OPEN (bit opened)
  (c, putRing x.2 (n % 2048) (eventBytes e 0 seq flags))

/-- An event that EVR raises itself: its source and its report, and its record written at once. -/
def evrOwn (code : Nat) (vals : List (Nat × Nat)) (x : Chip × Store) : Chip × Store :=
  let c := x.1
  let d := packDetail vals []
  let e : Event := ⟨code, c.nowNs, c.timeValid 1, d.1, d.2, false, none⟩
  let c := c.setEv { c.ev with sig := c.ev.sig ++ [.event code 0], faultIn := c.ev.faultIn ++ [e] }
  putRecord e false (c, x.2)

/-- EVR_GAP where the Sump has discarded messages since the last record (R655). -/
def gapCheck (x : Chip × Store) : Chip × Store :=
  let n := x.1.get F.SYS_SUMP_DROP_COUNT
  let rise := (n + 2 ^ 32 - x.1.ev.sumpSeen) % 2 ^ 32
  let x := (x.1.setEv { x.1.ev with sumpSeen := n }, x.2)
  if rise = 0 then x else evrOwn 0x0302 [(4, rise)] x

/-- A record is written after the Sump check. -/
def writeRecord (e : Event) (held : Bool) (x : Chip × Store) : Chip × Store := putRecord e held (gapCheck x)

/-! ### Repeats and rate limits (R651 to R653) -/

/-- Whether an event repeats the open record. -/
def Chip.repeats (c : Chip) (e : Event) (held : Bool) : Option OpenRecord :=
  match c.ev.openRec with
  | none => none
  | some o =>
    if c.inService && !c.on F.EVR_XCFG_NO_REPEAT && !held && o.ev.code == e.code && o.ev.detail == e.detail && o.ev.fw == e.fw
        && o.ev.trunc == e.trunc then some o else none

/-- A repeat: REPEAT rises, the CRC is rewritten; the record closes at 65,535. -/
def countRepeat (o : OpenRecord) (x : Chip × Store) : Chip × Store :=
  let o := { o with rep := o.rep + 1, last := x.1.now }
  let x := (x.1.setEv { x.1.ev with openRec := some o }, putRing x.2 o.slot (eventBytes o.ev o.rep o.seq o.flags))
  if o.rep = 65535 then closeRecord x else x

/-- Whether a window has expired (R652). -/
def RateEntry.expired (r : RateEntry) (win t : Nat) : Bool := r.start + win ≤ t

/-- Windows of the entries from position i on close if all or expired; one that had drops writes EVR_DROPPED. -/
def closeWindows (all : Bool) : Nat → Nat → Chip × Store → Chip × Store
  | 0, _, x => x
  | k + 1, i, x =>
    let x := match x.1.ev.rate[i]? with
      | none => x
      | some r =>
        if r.closed || !(all || r.expired (x.1.get F.EVR_RATE_WIN_MS * 1000000) x.1.nowNs) then x
        else
          let c := x.1.setEv { x.1.ev with rate := x.1.ev.rate.set i { r with closed := true, winDrops := 0 } }
          if r.winDrops = 0 then (c, x.2) else evrOwn 0x0301 [(2, r.code), (4, satNat 32 r.winDrops)] (c, x.2)
    closeWindows all k (i + 1) x

/-- Every expired window closes. -/
def rateWindows (x : Chip × Store) : Chip × Store := closeWindows false x.1.ev.rate.length 0 x

/-- The entry of the closed window that closed first. -/
def firstClosed (l : List RateEntry) : Option Nat :=
  ((List.range l.length).foldl (fun (b : Option (Nat × Nat)) (i : Nat) =>
    match l[i]? with
    | some r => if !r.closed then b else (match b with | some y => if r.start < y.2 then some (i, r.start) else b | none => some (i, r.start))
    | none => b) none).map Prod.fst

/-- A record judged by the rate table of its code (R652). -/
def rateRecord (e : Event) (held : Bool) (x : Chip × Store) : Chip × Store :=
  let x := rateWindows x
  let c := x.1
  let fresh : RateEntry := ⟨e.code, e.time, false, 1, 0, 0⟩
  match c.ev.rate.findIdx? (fun (r : RateEntry) => r.code == e.code) with
  | some i =>
    match c.ev.rate[i]? with
    | none => x
    | some r =>
      if r.closed || r.expired (c.get F.EVR_RATE_WIN_MS * 1000000) e.time then
        let x := closeWindows true 1 i x
        writeRecord e held (x.1.setEv { x.1.ev with rate := x.1.ev.rate.set i { fresh with drops := r.drops } }, x.2)
      else if r.count < c.get F.EVR_RATE_LIMIT then
        writeRecord e held (c.setEv { c.ev with rate := c.ev.rate.set i { r with count := r.count + 1 } }, x.2)
      else
        let r := { r with winDrops := r.winDrops + 1, drops := satNat 32 (r.drops + 1) }
        ((c.setEv { c.ev with rate := c.ev.rate.set i r }).addSat F.EVR_DROP_CNT_COUNT 1, x.2)
  | none =>
    if c.ev.rate.length < 128 then writeRecord e held (c.setEv { c.ev with rate := c.ev.rate ++ [fresh] }, x.2)
    else match firstClosed c.ev.rate with
      | some i => writeRecord e held (c.setEv { c.ev with rate := c.ev.rate.set i fresh }, x.2)
      | none => writeRecord e held (c.addSat F.EVR_RATE_OVF_COUNT 1, x.2)

/-- A record at EVR that can write (R649, R651, R652). -/
def takeRecord (e : Event) (held : Bool) (x : Chip × Store) : Chip × Store :=
  match x.1.repeats e held with
  | some o => countRepeat o x
  | none =>
    if x.1.inService || x.1.on F.EVR_XCFG_NO_LIMIT then writeRecord e held x else rateRecord e held x

/-- EVR can write: TRUST up and EVR_CTRL.EN 1 (R654). -/
def Chip.evrWrites (c : Chip) : Bool := c.up 1 && c.on F.EVR_CTRL_EN

/-- A record waits in the AON hold buffer, or is discarded and counted. -/
def Chip.holdRecord (c : Chip) (e : Event) : Chip :=
  if c.ev.hold.length < 16 then c.setEv { c.ev with hold := c.ev.hold ++ [e] }
  else Chip.set (c.addSat F.EVR_LOST_HOLD_LOST 1 |>.setEv { c.ev with holdLost := c.ev.holdLost + 1 }) F.EVR_STAT_HOLD_LOST 1

/-- The held records are written, then HOLD_LOST if records were discarded. -/
def flushHold (x : Chip × Store) : Chip × Store :=
  if !x.1.evrWrites || (x.1.ev.hold.isEmpty && x.1.ev.holdLost == 0) then x
  else
    let l := x.1.ev.hold
    let n := x.1.ev.holdLost
    let x := l.foldl (fun x e => takeRecord e true x) (x.1.setEv { x.1.ev with hold := [], holdLost := 0 }, x.2)
    if n = 0 then x else evrOwn 0x0303 [(4, satNat 32 n)] x

/-- The oldest record on its way reaches EVR (R649, R654). -/
def serveRecord (x : Chip × Store) : Chip × Store :=
  match x.1.ev.recs with
  | [] => x
  | e :: r =>
    let c := x.1.setEv { x.1.ev with recs := r }
    if c.evrWrites then takeRecord e false (flushHold (c, x.2)) else (c.holdRecord e, x.2)

/-- The open record closes after CLOSE.MS without a repeat (R651). -/
def recordClose (x : Chip × Store) : Chip × Store :=
  match x.1.ev.openRec with
  | some o => if o.last + ms (x.1.get F.EVR_CLOSE_MS) ≤ x.1.now then closeRecord x else x
  | none => x

/-- SEC_PHASE changes (R653). -/
def phaseChange (phase : Nat) (x : Chip × Store) : Chip × Store :=
  if x.1.get F.SEC_PHASE_PHASE = phase then x
  else
    let x := closeRecord x
    let x := closeWindows true x.1.ev.rate.length 0 x
    ((x.1.setEv { x.1.ev with rate := [] }).set F.SEC_PHASE_PHASE phase, x.2)

/-! ### The flash mirror and the host queue (R656 to R661) -/

/-- The number of records written and closed. -/
def Chip.closedRecords (c : Chip) : Nat := c.get F.EVR_WR_WR - bit c.ev.openRec.isSome

/-- Where the mirror begins. -/
def mirrorBase : Nat := 0x1300000

/-- One record goes to the mirror: its sector is erased before its first slot is written. -/
def mirrorOne (x : Chip × Store) : Chip × Store :=
  let c := x.1
  let pos := c.get F.EVR_MIR_POS_ADDR
  let m := if pos % 4096 = 0 then x.2.writeFlash pos (List.replicate 4096 0xFF) else x.2
  let m := m.writeFlash pos ((ringBytes m (c.ev.mirNext % 2048)).map (BitVec.ofNat 8))
  let run := c.ev.mirRun
  let c := c.setEv { c.ev with mirNext := c.ev.mirNext + 1, mirRun := 0 }
  let next := pos + 32
  let c := (c.set F.EVR_MIR_POS_ADDR (if c.get F.EVR_MIR_END_ADDR * 4096 ≤ next then mirrorBase else next)).addWrap F.EVR_MIR_CNT_COUNT 1
  if run = 0 then (c, m) else evrOwn 0x0304 [(4, satNat 32 run)] (c, m)

/-- Up to n records of one page. -/
def mirrorRun : Nat → Chip × Store → Chip × Store
  | 0, x => x
  | n + 1, x =>
    if x.1.closedRecords ≤ x.1.ev.mirNext then x
    else
      let x := mirrorOne x
      if x.1.get F.EVR_MIR_POS_ADDR % 256 = 0 then x else mirrorRun n x

/-- A page operation of the mirror; ok says that the flash did it (R656). -/
def mirrorWrite (ok : Bool) (x : Chip × Store) : Chip × Store :=
  let c := x.1
  if !c.evrWrites || !c.on F.EVR_CTRL_MIR_EN || c.ev.mirStop || c.closedRecords ≤ c.ev.mirNext then x
  else if ok then mirrorRun 8 x
  else
    let c := (c.setEv { c.ev with mirStop := true }).set F.EVR_STAT_FLASH_ERR 1
    evrOwn 0x0305 [(5, c.get F.EVR_MIR_POS_ADDR)] (c, x.2)

/-- Whether HST can reach host memory (R467, R468, R643). -/
def Chip.hostReach (c : Chip) : Bool := c.up 7 && c.on F.HST_LINK_UP && c.on F.HST_LINK_BME && c.get F.HST_LINK_DSTATE == 0

/-- The host queue's size and the room in it. -/
def Chip.hqSize (c : Chip) : Nat := 2 ^ c.get F.EVC_HQ_CFG_SIZE_LOG2
def Chip.hqRoom (c : Chip) : Bool :=
  decide ((c.get F.EVC_HQ_TAIL_TAIL + 2 ^ 32 - c.get F.EVC_HQ_HEAD_HEAD) % 2 ^ 32 < c.hqSize)

def Chip.hqBase (c : Chip) : Nat := c.get F.EVC_HQ_BASE_HI_ADDR * 2 ^ 32 + c.get F.EVC_HQ_BASE_LO_ADDR * 4096
def Chip.hqWb (c : Chip) : Nat := c.get F.EVC_HQ_WB_HI_ADDR * 2 ^ 32 + c.get F.EVC_HQ_WB_LO_ADDR * 4

/-- A slot of the host queue is written and TAIL written back (R659). -/
def hqPut (rec : List Nat) (node : Nat) (foreign : Bool) (x : Chip × Store) : Chip × Store :=
  let c := x.1
  let t := c.get F.EVC_HQ_TAIL_TAIL
  let b := (rec.take 32 ++ List.replicate (32 - rec.length) 0) ++ bytesLE 2 (node % 1024) ++ [bit foreign] ++ List.replicate 29 0
  let m := x.2.writeHost (c.hqBase + 64 * (t % c.hqSize)) (b.map (BitVec.ofNat 8))
  let c := c.addWrap F.EVC_HQ_TAIL_TAIL 1
  let c := c.setEv { c.ev with hqUnsig := c.ev.hqUnsig + 1, hqFirst := if c.ev.hqUnsig = 0 then c.now else c.ev.hqFirst }
  (c, m.writeHost c.hqWb (leBytes 4 (c.get F.EVC_HQ_TAIL_TAIL)))

/-- A closed record goes to the host queue (R659, R661). -/
def hqDeliver (node : Nat) (x : Chip × Store) : Chip × Store :=
  let c := x.1
  if !c.evrWrites || !c.on F.EVC_HQ_CFG_EN || !c.hostReach || !c.hqRoom || c.closedRecords ≤ c.ev.hqNext then x
  else
    let run := c.ev.hqRun
    let x := hqPut (ringBytes x.2 (c.ev.hqNext % 2048)) node false
      (c.setEv { c.ev with hqNext := c.ev.hqNext + 1, hqRun := 0 }, x.2)
    if run = 0 then x else evrOwn 0x0401 [(4, satNat 32 run)] x

/-- A fabric EVENT frame (R660). -/
def hqForeign (rec : List Nat) (src : Nat) (x : Chip × Store) : Chip × Store :=
  let c := x.1
  if c.up 1 && c.on F.EVC_HQ_CFG_EN && c.hostReach && c.hqRoom then hqPut rec src true x
  else (c.addSat F.EVC_HQ_LOST_FOREIGN 1, x.2)

/-- The host queue is enabled: it starts from the oldest closed record of the ring (R659). -/
def Chip.hqEnabled (c : Chip) : Chip :=
  let c := (c.set F.EVC_HQ_TAIL_TAIL 0).set F.EVC_HQ_HEAD_HEAD 0
  c.setEv { c.ev with hqNext := c.get F.EVR_WR_WR - 2048, hqRun := 0, hqUnsig := 0 }

/-- A write to EVC_HQ_HEAD; beyond TAIL it is ignored and counted. -/
def Chip.hqHead (c : Chip) (w : Nat) : Chip :=
  let t := c.get F.EVC_HQ_TAIL_TAIL
  let h := c.get F.EVC_HQ_HEAD_HEAD
  if (t + 2 ^ 32 - h) % 2 ^ 32 < (w + 2 ^ 32 - h) % 2 ^ 32 then c.addSat F.EVC_REJ_CNT_COUNT 1
  else c.set F.EVC_HQ_HEAD_HEAD w

/-- EVR_CTRL.MIR_EN goes from 0 to 1. -/
def Chip.mirrorEnabled (c : Chip) : Chip :=
  c.setEv { c.ev with mirStop := false, mirNext := max c.ev.mirNext (c.get F.EVR_WR_WR - 2048), mirRun := 0 }

end Sys2Proof.Machine
end

