-- ==== Sys2Proof/Machine/Otp.lean ====
section
/-!
DEFINITION. The fuse array and its controller (R594 to R614), keys and counters (R615 to R617), the boot scan (R597).
-/

namespace Sys2Proof.Machine

/-! ### Rows, margins, redirection (R594, R595, R610) -/

/-- A physical row at normal and at tight margin; spare e is row 512 + e. -/
def Store.rawN (m : Store) (row : Nat) : Nat := (sparseGet (0 : Word) row m.fuseN).toNat
def Store.rawT (m : Store) (row : Nat) : Nat := (sparseGet (0 : Word) row m.fuseT).toNat

/-- Set bits of a physical row. -/
def Store.burn (m : Store) (row normal tight : Nat) : Store :=
  { m with
    fuseN := sparsePut (0 : Word) row (BitVec.ofNat 32 (m.rawN row ||| normal)) m.fuseN
    fuseT := sparsePut (0 : Word) row (BitVec.ofNat 32 (m.rawT row ||| tight)) m.fuseT }

/-- The bits that at least two of three words have. -/
def majority (a b c : Nat) : Nat := a &&& b ||| a &&& c ||| b &&& c

/-- The REPAIR entry of spare e: its row, where it is valid (R610). -/
def Store.repairEntry (m : Store) (e : Nat) : Option Nat :=
  let f := fun (base : Nat) => bitsOf (m.rawN (base + e / 2)) (16 * (e % 2) + 15) (16 * (e % 2))
  let v := majority (f 488) (f 496) (f 504)
  if bitAt v 15 ∧ v % 512 < 488 then some (v % 512) else none

/-- The physical row that serves a row. -/
def Store.physical (m : Store) (row : Nat) : Nat :=
  if 488 ≤ row then row
  else match (List.range 16).find? (fun (e : Nat) => m.repairEntry e == some row) with
    | some e => 512 + e
    | none => row

def Store.rowN (m : Store) (row : Nat) : Nat := if row = 487 then 0 else m.rawN (m.physical row)
def Store.rowT (m : Store) (row : Nat) : Nat := if row = 487 then 0 else m.rawT (m.physical row)
def Store.marginal (m : Store) (row : Nat) : Bool := m.rowN row != m.rowT row

/-! ### Regions (R594, R599 to R601) -/

/-- A region: its first and last data row, and the first digest row and the lock row of a digest region. -/
def regionRows (n : Nat) : Nat × Nat :=
  match n with
  | 0 => (0, 15) | 1 => (16, 23) | 2 => (24, 31) | 3 => (32, 95) | 4 => (96, 159) | 5 => (160, 163) | 6 => (164, 179)
  | 7 => (180, 207) | 8 => (208, 215) | 9 => (216, 423) | _ => (488, 511)
def regionDigest (n : Nat) : Option (Nat × Nat) :=
  match n with
  | 0 => some (424, 480) | 1 => some (432, 481) | 3 => some (440, 482) | 4 => some (448, 483) | 7 => some (456, 484)
  | 8 => some (464, 485) | 9 => some (472, 486) | _ => none

/-- The region whose data rows hold a row. -/
def regionOf (row : Nat) : Option Nat :=
  (List.range 11).find? (fun (n : Nat) => (regionRows n).1 ≤ row && row ≤ (regionRows n).2)

/-- The data rows of a region. -/
def dataRows (n : Nat) : List Nat := (List.range ((regionRows n).2 + 1 - (regionRows n).1)).map ((regionRows n).1 + ·)

/-- The digest of a region as the eight words of its digest rows (R599). -/
def Store.digest (m : Store) (n : Nat) : List Nat :=
  let h := sha256Bytes ((dataRows n).map (fun (r : Nat) => bytesLE 4 (m.rowN r))).flatten
  (List.range 8).map (fun (i : Nat) => ofBytesLE ((h.drop (4 * i)).take 4))

/-- The words in the digest rows. -/
def Store.storedDigest (m : Store) (base : Nat) : List Nat := (List.range 8).map (fun (i : Nat) => m.rowN (base + i))

def Store.locked (m : Store) (n : Nat) : Bool :=
  match regionDigest n with
  | some (_, l) => m.rowN l != 0
  | none => false
def Store.digestOk (m : Store) (n : Nat) : Bool :=
  match regionDigest n with
  | some (b, _) => m.locked n && m.digest n == m.storedDigest b
  | none => false
def Store.lockWeak (m : Store) (n : Nat) : Bool :=
  match regionDigest n with
  | some (_, l) => m.locked n && onesIn 32 (m.rowT l) < 32
  | none => false
def Store.margRows (m : Store) (n : Nat) : Nat := ((dataRows n).filter m.marginal).length

/-! ### The life cycle (R613) -/

/-- Whether row r of the life cycle is set, clear (none) or undecided. -/
def Store.lcRow (m : Store) (r : Nat) : Option Bool :=
  let n := onesIn 32 (m.rowN r)
  if n = 0 then none else some (decide (24 ≤ n))

/-- The state the rows give: 0 MFG to 4 SCRAP, and whether it cannot be decided (then 2, FIELD). -/
def Store.lcState (m : Store) : Nat × Bool :=
  match [31, 30, 29, 28, 27, 26, 25, 24].find? (fun (r : Nat) => (m.lcRow r).isSome) with
  | none => (0, false)
  | some r => if m.lcRow r = some true ∧ r < 28 then (r - 23, false) else (2, true)

/-- Whether a region is used as fused in a state (R601). -/
def Store.usable (m : Store) (lc n : Nat) : Bool :=
  let ok := m.digestOk n
  if n = 1 then ok && (let v := bitsOf (m.rowN 16) 10 8; 1 ≤ v && v ≤ 3)
  else if n = 3 then ok || (lc == 0 && !m.locked n)
  else if n = 4 then ok || (lc == 1 && !m.locked n)
  else if n = 7 ∨ n = 9 then ok || !m.locked n
  else if n = 0 ∨ n = 8 then ok
  else true

/-! ### Keys and counters (R615 to R617) -/

/-- The key of a slot: F0 to F3 as 0 to 3, I0 to I3 as 4 to 7. -/
def Store.keySlot (m : Store) (lc k : Nat) : Option (Nat × Nat) :=
  let base := if k < 4 then 32 + 16 * k else 96 + 16 * (k - 4)
  let b := ((List.range 16).map (fun (i : Nat) => bytesLE 4 (m.rowN (base + i)))).flatten
  let x := ofBytesBE (b.take 32)
  let y := ofBytesBE (b.drop 32)
  if m.usable lc (if k < 4 then 3 else 4) && b.any (fun (v : Nat) => v != 0) && onCurve x y then some (x, y) else none

/-- The bits that read 1 in rows a to b. -/
def Store.onesInRows (m : Store) (a b : Nat) : Nat := ((List.range (b + 1 - a)).map (fun (i : Nat) => onesIn 32 (m.rowN (a + i)))).sum

def Store.tfCnt (m : Store) : Nat := m.onesInRows 164 167
def Store.sfCnt (m : Store) : Nat := m.onesInRows 168 171
def Store.imgCnt (m : Store) : Nat := min 255 (m.onesInRows 172 179)

/-- SEC reads keys, revocation and counters on demand: what changed is recorded (R616, R617, R635). -/
def Chip.readFuses (c : Chip) (m : Store) : Chip :=
  let old := c.sec.revoked
  let rev := m.rowN 160 % 256
  let roll := c.word R.SEC_ROLL.addr
  let c := { c with sec := { c.sec with revoked := rev } }
  let c := c.set F.SEC_KEYS_REVOKED rev
  let c := (setBits 8 (rev - (rev &&& old))).foldl (fun (c : Chip) (k : Nat) => c.emit 0x1B08 [(1, k)]) c
  let c := ((c.set F.SEC_ROLL_TF_CNT m.tfCnt).set F.SEC_ROLL_SF_CNT m.sfCnt).set F.SEC_ROLL_IMG_CNT m.imgCnt
  let up := fun (c : Chip) (n v w : Nat) => if w < v then c.emit 0x1B09 [(1, n), (1, v)] else c
  up (up (up c 0 m.tfCnt (bitsOf roll.toNat 7 0)) 1 m.sfCnt (bitsOf roll.toNat 15 8)) 2 m.imgCnt (bitsOf roll.toNat 23 16)

/-! ### The boot scan (R597) -/

/-- The state in force at the last boot scan; an undecided life cycle behaves as FIELD (R613). -/
def Chip.lcInForce (c : Chip) : Nat := c.get F.SEC_LC_IN_FORCE

/-- OTP_RGNn of region n, and its failure recorded (R600, R601): 0 unlocked, 1 its digest failed. DESIGN CHOICE: 2 an
unknown variant code. -/
def Chip.scanRegion (m : Store) (lc : Nat) (c : Chip) (n : Nat) : Chip :=
  let c := (c.set F.OTP_RGN_MARG (satNat 16 (m.margRows n)) n).set F.OTP_RGN_LOCKED (bit (m.locked n)) n
  let c := (c.set F.OTP_RGN_DIGEST_OK (bit (m.digestOk n)) n).set F.OTP_RGN_LOCK_WEAK (bit (m.lockWeak n)) n
  let bad := !m.usable lc n
  let c := c.set F.OTP_RGN_RESTRICT (bit bad) n
  if bad then c.emit 0x0202 [(1, n), (1, if !m.locked n then 0 else if !m.digestOk n then 1 else 2)] else c

/-- The features in force (R602): EN with its differing bits at 0, cut by the variant's set. -/
def Store.features (m : Store) : Nat :=
  let en := (m.rowN 16 &&& m.rowT 16) % 64
  match bitsOf (m.rowN 16) 10 8 with
  | 1 => en &&& 0x3F
  | 2 => en &&& 0x37
  | _ => 0

/-- The CUST options in force (R603): restrict bits 0 to 2, enable bit 3. -/
def Store.custOptions (m : Store) (lc : Nat) : Nat :=
  if m.usable lc 7 then ((m.rowN 181 ||| m.rowT 181) % 8) + 8 * bit (bitAt (m.rowN 181) 3 && bitAt (m.rowT 181) 3) else 7

/-- What the scan takes into shadows. -/
def Chip.scanShadows (c : Chip) (m : Store) (lc : Nat) : Chip :=
  let v := m.usable lc 1
  let code := bitsOf (m.rowN 16) 10 8
  let step := if m.usable lc 0 then m.rowN 2 % 16 else 0
  let c := c.setWord R.SYS_ID.addr
    (BitVec.ofNat 32 (0x8064 * 65536 + bit (!v) * 32768 + (if v then code else 3) * 4096 + step * 256 + 1))
  let c := (c.set F.OTP_FEAT_FUSED (m.rowN 16 % 64)).set F.OTP_FEAT_IN_FORCE (if v then m.features else 0)
  let c := (c.set F.OTP_UID_LO_UID_LO (if m.usable lc 0 then m.rowN 0 else 0)).set F.OTP_UID_HI_UID_HI (if m.usable lc 0 then m.rowN 1 else 0)
  let c := c.set F.HST_SUBSYS_SUBSYS (if m.usable lc 7 then m.rowN 180 else 0)
  let keys := Vector.ofFn (fun (k : Fin 8) => m.keySlot lc k.val)
  let c := { c with sec := { c.sec with policy := m.custOptions lc, keys := keys } }
  let c := c.set F.SEC_KEYS_PRESENT ((List.finRange 8).map (fun (k : Fin 8) => if (keys[k]).isSome then 2 ^ k.val else 0)).sum
  if v then c else c.emit 0x0203

/-- The boot scan. -/
def Chip.bootScan (c : Chip) (m : Store) : Chip :=
  let st := m.lcState
  let c := ((c.set F.SEC_LC_IN_FORCE st.1).set F.SEC_LC_FUSED st.1).set F.SEC_LC_INVALID (bit st.2)
  let c := { c with otp := { c.otp with hidden := false } }
  let c := (List.range 11).foldl (Chip.scanRegion m st.1) c
  let c := c.set F.OTP_SPARE_USED ((List.range 16).map (fun (e : Nat) => if (m.repairEntry e).isSome then 2 ^ e else 0)).sum
  let marg := (List.range 512).filter m.marginal
  let c := c.set F.OTP_STAT_MARG_ROWS (satNat 16 marg.length)
  let c := if marg.isEmpty then c else c.emit 0x0201 [(2, marg.length), (2, marg.headD 0)]
  let c := (c.scanShadows m st.1).readFuses m
  (c.set F.OTP_STAT_SCAN_DONE 1).set F.OTP_STAT_BUSY 0

/-! ### Commands (R598, R604 to R614) -/

/-- Result codes of OTP_RESULT. -/
def otpOk : Nat := 0
def otpWeak : Nat := 1
def otpLocked : Nat := 2
def otpState : Nat := 3
def otpMismatch : Nat := 4
def otpConflict : Nat := 5
def otpMarginal : Nat := 6
def otpNoSpare : Nat := 7
def otpBadRow : Nat := 8
def otpVppFail : Nat := 9
def otpRevokeLast : Nat := 0x0A
def otpAborted : Nat := 0x0B
def otpPrecond : Nat := 0x0C

/-- Whether a state lets PROGRAM set bits of a region (R607). -/
def stateAllows (lc n : Nat) : Bool :=
  match n with
  | 0 | 1 | 3 => lc == 0
  | 4 | 8 => lc == 1
  | 7 | 9 => lc == 1 || lc == 2
  | 5 | 6 => lc ≤ 2
  | _ => false

/-- Why PROGRAM may not set bits of a row, by R607. -/
def Chip.programRefusal (c : Chip) (m : Store) (row : Nat) : Option Nat :=
  match regionOf row with
  | none => some otpBadRow
  | some 10 => some otpBadRow
  | some n => if m.locked n then some otpLocked else if !stateAllows c.lcInForce n then some otpState else none

/-- Whether setting revocation bits would leave a class that has a usable key without one (R616). -/
def Chip.revokesLast (c : Chip) (rev : Nat) : Bool :=
  let have' := fun (cls rv : Nat) => (List.range 4).any (fun (i : Nat) =>
    (c.sec.keys.toList.getD (4 * cls + i) none).isSome && !bitAt rv (4 * cls + i))
  [0, 1].any (fun (cls : Nat) => have' cls c.sec.revoked && !have' cls (c.sec.revoked ||| rev))

/-- The programming supply is missing (R606). -/
def Chip.vppMissing (c : Chip) : Bool := c.get F.OTP_PGM_SRC == 1 && !c.on F.OTP_STAT_VPP_OK

/-- A plan of pulses: physical rows and their bits. -/
abbrev PulsePlan := List (Nat × Nat)

/-- The first n bits of a plan, lowest bit of each row first (R604). -/
def PulsePlan.first : Nat → PulsePlan → PulsePlan
  | _, [] => []
  | n, (r, b) :: l =>
    let mine := (setBits 32 b).take n
    (r, (mine.map (2 ^ ·)).sum) :: PulsePlan.first (n - mine.length) l

/-- Burn a plan: the failed bits of each row keep reading 0 as given. -/
def burnPlan (fails : List PulseFail) (m : Store) : PulsePlan → Store
  | [] => m
  | (r, b) :: l =>
    let f := (fails.find? (fun (x : PulseFail) => x.row == r)).getD ⟨r, 0, 0⟩
    burnPlan fails (m.burn r (b - (b &&& f.normal)) (b - (b &&& (f.tight ||| f.normal)))) l

/-- The bits of a plan that fail the tight verify. -/
def weakBits (m : Store) (p : PulsePlan) : Nat × Nat :=
  p.foldl (fun a x => let w := x.2 - (x.2 &&& m.rawT x.1); (a.1 ||| w, a.2 + onesIn 32 w)) (0, 0)

/-- A command ends (R598, R632): its code and DETAIL. -/
def Chip.otpEnd (c : Chip) (k : OtpCmd) (code detail : Nat) : Chip :=
  let c := { c with otp := { c.otp with cmd := none, abort := false } }
  let c := (c.set F.OTP_STAT_BUSY 0).set F.OTP_STAT_PUMP_ON 0
  let c := c.setWord R.OTP_RESULT.addr (BitVec.ofNat 32 (2 ^ 31 + detail % 256 * 256 + code))
  c.emit 0x0204 [(1, k.op), (2, k.row), (1, code)]

/-- A plan is pulsed and verified, and the command ends: aborted after so many bits (R612), OK or WEAK. detail is what an OK
command reports; after is what the command does once its bits are set. -/
def otpPulse (k : OtpCmd) (plan : PulsePlan) (fails : List PulseFail) (pulses detail : Nat) (after : Chip → Chip) (x : Chip × Store) :
    Chip × Store :=
  if x.1.vppMissing then (x.1.otpEnd k otpVppFail 0, x.2)
  else if x.1.otp.abort then
    let m := burnPlan fails x.2 (PulsePlan.first pulses plan)
    ((x.1.otpEnd k otpAborted 0).readFuses m, m)
  else
    let m := burnPlan fails x.2 plan
    let w := weakBits m plan
    let c := (x.1.set F.OTP_WEAKMASK_MASK w.1)
    let c := if w.2 = 0 then (after c).otpEnd k otpOk detail else (after c).otpEnd k otpWeak (min 255 w.2)
    (c.readFuses m, m)

/-- A READ (R598): SECRET and USER on restrictive defaults read 0, and SECRET where its state hides it (R601, R613, R614). -/
def Chip.otpRead (c : Chip) (m : Store) (k : OtpCmd) : Chip :=
  let r := regionOf k.row
  let hide := (r == some 8 && (c.otp.hidden || c.lcInForce == 3 || c.lcInForce == 4 || c.on F.SEC_LC_INVALID || c.on F.OTP_RGN_RESTRICT 8))
    || (r == some 9 && c.on F.OTP_RGN_RESTRICT 9)
  let v := fun (x : Nat) => BitVec.ofNat 32 (if hide then 0 else x)
  ((c.setWord R.OTP_RDATA_N.addr (v (m.rowN k.row))).setWord R.OTP_RDATA_T.addr (v (m.rowT k.row))).otpEnd k otpOk 0

/-- PROGRAM (R604, R607, R616). -/
def otpProgram (k : OtpCmd) (fails : List PulseFail) (pulses : Nat) (x : Chip × Store) : Chip × Store :=
  let c := x.1
  let want := (c.word R.OTP_WDATA.addr).toNat
  let new := want - (want &&& x.2.rowN k.row)
  if new = 0 then (c.otpEnd k otpOk 0, x.2)
  else match c.programRefusal x.2 k.row with
    | some code => (c.otpEnd k code 0, x.2)
    | none =>
      if k.row = 160 ∧ c.revokesLast (new % 256) then (c.otpEnd k otpRevokeLast 0, x.2)
      else otpPulse k [(x.2.physical k.row, new)] fails pulses 0 id x

/-- REINFORCE (R605). -/
def otpReinforce (k : OtpCmd) (fails : List PulseFail) (pulses : Nat) (x : Chip × Store) : Chip × Store :=
  if x.1.lcInForce = 4 then (x.1.otpEnd k otpState 0, x.2)
  else otpPulse k [(x.2.physical k.row, x.2.rowN k.row)] fails pulses 0 id x

/-- The words of OTP_DIGEST. -/
def Chip.suppliedDigest (c : Chip) : List Nat := (List.range 8).map (fun (i : Nat) => c.get F.OTP_DIGEST_DIGEST i)

/-- LOCK (R608); a region without a digest is refused as BAD_ROW. -/
def otpLock (k : OtpCmd) (fails : List PulseFail) (pulses : Nat) (x : Chip × Store) : Chip × Store :=
  let c := x.1
  let m := x.2
  match regionDigest k.region with
  | none => (c.otpEnd k otpBadRow 0, m)
  | some (b, l) =>
    let want := c.suppliedDigest
    let have' := m.storedDigest b
    if !stateAllows c.lcInForce k.region then (c.otpEnd k otpState 0, m)
    else if (dataRows k.region).any m.marginal then (c.otpEnd k otpMarginal 0, m)
    else if m.digest k.region ≠ want then (c.otpEnd k otpMismatch 0, m)
    else if (List.range 8).any (fun (i : Nat) => have'.getD i 0 &&& want.getD i 0 != have'.getD i 0) then (c.otpEnd k otpConflict 0, m)
    else
      let plan := (List.range 8).map (fun (i : Nat) => (m.physical (b + i), want.getD i 0 - have'.getD i 0))
        ++ [(m.physical l, 2 ^ 32 - 1 - m.rowN l)]
      otpPulse k plan fails pulses 0 (fun c => c.emit 0x0205) x

/-- RELOCATE (R611). -/
def otpRelocate (k : OtpCmd) (fails : List PulseFail) (pulses : Nat) (x : Chip × Store) : Chip × Store :=
  let c := x.1
  let m := x.2
  let want := (c.word R.OTP_WDATA.addr).toNat
  if 488 ≤ k.row then (c.otpEnd k otpBadRow 0, m)
  else match (if want = 0 then none else c.programRefusal m k.row) with
    | some code => (c.otpEnd k code 0, m)
    | none =>
      let valid := fun (e : Nat) => bitAt (majority (m.rawN (488 + e / 2) / 2 ^ (16 * (e % 2))) (m.rawN (496 + e / 2) / 2 ^ (16 * (e % 2)))
        (m.rawN (504 + e / 2) / 2 ^ (16 * (e % 2)))) 15
      match (List.range 16).find? (fun (e : Nat) => !valid e && m.rawN (512 + e) == 0) with
      | none => (c.otpEnd k otpNoSpare 0, m)
      | some e =>
        let sh := 2 ^ (16 * (e % 2))
        let copies := [488, 496, 504].map (fun (b : Nat) => (b + e / 2, (2 ^ 15 + k.row) * sh))
        let used := fun (c : Chip) => (c.orBits F.OTP_SPARE_USED (2 ^ e)).emit 0x0206 [(2, k.row), (1, e)]
        otpPulse k ((512 + e, m.rowN k.row ||| want) :: copies) fails pulses e used x

/-- The precondition of a life-cycle transition (R614): none where there is no such transition. -/
def Chip.lcPrecond (c : Chip) (m : Store) (from' to' : Nat) : Option Bool :=
  let key := fun (cls : Nat) => (List.range 4).any (fun (i : Nat) =>
    (m.keySlot from' (4 * cls + i)).isSome && (cls == 0 || !bitAt c.sec.revoked (4 * cls + i)))
  if to' = 0 ∨ 4 < to' then none
  else if to' = from' then some true
  else if to' = 4 then some true
  else if from' = 0 ∧ to' = 1 then some (m.digestOk 0 && m.digestOk 1 && m.digestOk 3 && key 0)
  else if from' = 1 ∧ to' = 2 then some (m.digestOk 4 && m.digestOk 8 && key 1)
  else if from' = 2 ∧ to' = 3 then some true
  else none

/-- LC_ADVANCE (R614). -/
def otpAdvance (k : OtpCmd) (fails : List PulseFail) (pulses : Nat) (x : Chip × Store) : Chip × Store :=
  let c := x.1
  let m := x.2
  let to' := k.row % 8
  let from' := m.lcState.1
  match c.lcPrecond m from' to' with
  | none => (c.otpEnd k otpState 0, m)
  | some false => (c.otpEnd k otpPrecond 0, m)
  | some true =>
    let row := m.physical (23 + to')
    let after := fun (c : Chip) =>
      let c := { c with otp := { c.otp with hidden := c.otp.hidden || to' == 3 || to' == 4 } }
      (c.wipeStart 1).emit 0x0207 [(1, from'), (1, to')]
    let y := otpPulse k [(row, 2 ^ 32 - 1 - m.rawN row)] fails pulses 0 after x
    (y.1.set F.SEC_LC_FUSED y.2.lcState.1, y.2)

/-- A command word is written to OTP_CMD (R598, R632). -/
def Chip.otpStart (c : Chip) (w : Nat) : Chip :=
  let op := bitsOf w 31 28
  let k : OtpCmd := ⟨op, bitsOf w 19 16, bitsOf w 9 0⟩
  if c.on F.OTP_STAT_BUSY ∨ op = 0 ∨ 6 < op ∨ 10 < k.region ∨ 511 < k.row then c.addSat F.OTP_REJ_CNT_COUNT 1
  else
    let c := { c with otp := { c.otp with cmd := some k, abort := false } }
    let pump := op ≠ 1 ∧ (c.get F.OTP_PGM_SRC = 2 ∨ (c.get F.OTP_PGM_SRC = 0 ∧ !c.on F.OTP_STAT_VPP_OK))
    ((c.set F.OTP_STAT_BUSY 1).set F.OTP_RESULT_DONE 0).set F.OTP_STAT_PUMP_ON (if pump then 1 else 0)

/-- The command in progress ends. -/
def otpDone (fails : List PulseFail) (pulses : Nat) (x : Chip × Store) : Chip × Store :=
  match x.1.otp.cmd with
  | none => x
  | some k =>
    match k.op with
    | 1 => (x.1.otpRead x.2 k, x.2)
    | 2 => otpProgram k fails pulses x
    | 3 => otpReinforce k fails pulses x
    | 4 => otpLock k fails pulses x
    | 5 => otpRelocate k fails pulses x
    | _ => otpAdvance k fails pulses x

/-! ### Firmware packages (R620, R621) -/

def pkgType (l : List Nat) : Nat := fieldLE l 4 1
def pkgVersion (l : List Nat) : Nat := fieldLE l 12 2

/-- Whether the header agrees with R620. -/
def pkgHeaderOk (ty : Nat) (l : List Nat) : Bool :=
  let len := fieldLE l 8 4
  let tc := fieldLE l 16 4
  let lc := fieldLE l 20 4
  l.take 4 == [0x4C, 0x4E, 0x46, 0x57] && pkgType l == ty && fieldLE l 7 1 == 0 && fieldLE l 14 2 == 0
    && (l.drop 24).take 36 == List.replicate 36 0 && fieldLE l 60 4 == crc32 (l.take 60) && fieldLE l 5 1 < 4
    && len == l.length && 128 ≤ len
    && (if ty = 1 then 4 ≤ tc && tc ≤ 262144 && 4 ≤ lc && lc ≤ 131072 && len == 128 + tc + lc
        else tc == 0 && lc == 0 && len ≤ 128 + 4 * 1024 * 1024)

/-- The reason for which a package of a type is refused: 0 accepted, 1 READ_ERR, 2 BAD_HEADER, 3 KEY, 4 EPOCH, 5 SIG. -/
def Chip.packageReason (c : Chip) (m : Store) (ty : Nat) (readOk : Bool) (l : List Nat) : Nat :=
  let k := fieldLE l 5 1
  if !readOk then 1
  else if !pkgHeaderOk ty l then 2
  else match c.sec.keys.toList.getD k none with
    | none => 3
    | some key =>
      if bitAt (m.rowN 160) k then 3
      else if fieldLE l 6 1 < (if ty = 1 then m.tfCnt else m.sfCnt) then 4
      else if signatureOk key (l.take (l.length - 64)) (l.drop (l.length - 64)) then 0 else 5

/-- The package in a flash slot: as long as its header says, if that is a package header that fits the slot. -/
def Store.flashPackage (m : Store) (base size : Nat) : List Nat :=
  let h := (m.readFlash base 64).map BitVec.toNat
  let n := fieldLE h 8 4
  if h.take 4 == [0x4C, 0x4E, 0x46, 0x57] && n ≤ size then (m.readFlash base n).map BitVec.toNat else h

/-! ### The boot record (R619) -/

/-- A copy of the boot record: SEQ and the slot byte, where magic and CRC are good. -/
def Store.bootCopy (m : Store) (i : Nat) : Option (Nat × Nat) :=
  let b := (m.readFlash (0x1280000 + 0x8000 * i) 32).map BitVec.toNat
  if b.take 4 == [0x4C, 0x4E, 0x42, 0x52] && fieldLE b 28 4 == crc32 (b.take 28) then some (fieldLE b 4 4, fieldLE b 8 1) else none

/-- The copy taken: its number, SEQ and slots; without one, every slot is A. -/
def Store.bootRecord (m : Store) : Nat × Nat × Nat :=
  match m.bootCopy 0, m.bootCopy 1 with
  | some a, some b => if a.1 < b.1 then (1, b) else (0, a)
  | some a, none => (0, a)
  | none, some b => (1, b)
  | none, none => (1, 0, 0)

/-- TC rewrites the copy it did not take, with SEQ + 1. -/
def Store.nameSlots (m : Store) (slots : Nat) : Store :=
  let r := m.bootRecord
  let b := [0x4C, 0x4E, 0x42, 0x52] ++ bytesLE 4 (r.2.1 + 1) ++ [slots % 8] ++ List.replicate 19 0
  m.writeFlash (0x1280000 + 0x8000 * (1 - r.1)) ((b ++ bytesLE 4 (crc32 b)).map (BitVec.ofNat 8))

end Sys2Proof.Machine
end

