-- ==== Sys2Proof/Machine/Dma.lean ====
section
/-!
DEFINITION. DMA channels (R529 to R546): loading a descriptor, its checks, GO, PAUSE and ABORT, chain ends, APPEND, repeats.
The words themselves move in DmaMove.lean.
-/

namespace Sys2Proof.Machine

def Chip.ch (c : Chip) (n : Fin 32) : DmaCh := c.dma[n]
def Chip.setCh (c : Chip) (n : Fin 32) (d : DmaCh) : Chip := { c with dma := c.dma.set n d }

/-! ### Memory as the engine reaches it (R529) -/

/-- The engine reads a word of the scratchpad, an alias or DDR; none on a bus error. Words of the scratchpad whose check
bits say uncorrectable are given. -/
def Chip.dmaReadMem (c : Chip) (m : Store) (errs : List DdrError) (ues : List Nat) (addr : Nat) : Chip × Option (List Byte) :=
  if inScratch addr || inAlias addr then
    let a := addr % 0x100000
    if !c.bankAllows .dma (bankOf a) false then (c.ownViolation .dma addr false, none)
    else if ues.contains a then (c.memUe .dma a, none)
    else (c, some (m.read a 4))
  else c.agentRead m .dma errs addr 4

/-- The engine writes a word of the scratchpad, an alias or DDR; the flag says whether it was taken. -/
def dmaWriteMem (errs : List DdrError) (addr : Nat) (l : List Byte) (x : Chip × Store) : (Chip × Store) × Bool :=
  if inScratch addr || inAlias addr then
    let a := addr % 0x100000
    let kind := if inScratch addr then WriteKind.plain else if addr < 0x200000 then .setBits else .clearBits
    if !x.1.bankAllows .dma (bankOf a) true then ((x.1.ownViolation .dma addr true, x.2), false)
    else (writeWords [] (wordsOf .dma kind a l) x, true)
  else agentWriteOk .dma errs addr l x

/-! ### Descriptors (R530 to R532, R535) -/

/-- The channel with the fields of a descriptor's 32 bytes. -/
def DmaCh.withDesc (d : DmaCh) (b : List Nat) : DmaCh :=
  let f := fun o n => ofBytesLE ((b.drop o).take n)
  { d with
    src := f 0 5, flags := f 5 1, rows := if f 6 2 = 0 then 65536 else f 6 2, dst := f 8 5, len := f 16 4
    sstride := signed 32 (f 20 4), dstride := signed 32 (f 24 4), link := f 28 4 * 32, loaded := true
    rowsDone := 0, bytesDone := 0, down := false }

def DmaCh.last (d : DmaCh) : Bool := bitAt d.flags 0
def DmaCh.ev (d : DmaCh) : Bool := bitAt d.flags 1
def DmaCh.sfix (d : DmaCh) : Bool := bitAt d.flags 2
def DmaCh.dfix (d : DmaCh) : Bool := bitAt d.flags 3

/-- The lowest and the end address of rows from base with a stride; one word where the address is fixed. DEDUCED: a
negative stride puts the last row lowest. -/
def DmaCh.extent (d : DmaCh) (base : Nat) (stride : Int) (fixed : Bool) : Int × Int :=
  if fixed then ((base : Int), (base : Int) + 4)
  else
    let far : Int := ((d.rows : Nat) - 1 : Int) * stride
    ((base : Int) + min 0 far, (base : Int) + max 0 far + (d.len : Int))

/-- Whether the engine may reach every byte of an extent (R47, R529); block registers only as single words. -/
def Chip.dmaReach (c : Chip) (d : DmaCh) (e : Int × Int) (fixed write : Bool) : Bool :=
  let inside := fun (a b : Nat) => decide ((a : Int) ≤ e.1) && decide (e.2 ≤ (b : Int))
  inside 0 0x100000 || inside 0x100000 0x200000 || inside 0x200000 0x300000
    || (decide (0 ≤ e.1) && c.inDdr e.1.toNat (e.2 - e.1).toNat)
    || (inside 0x10000000 0x10200000 && fixed && d.rows == 1
        && (if write then 2 else 1) ≤ blockRight .dma (blockOf e.1.toNat))

/-- Whether a descriptor breaks R530 or R532. -/
def Chip.descBad (c : Chip) (d : DmaCh) (b : List Nat) : Bool :=
  d.flags / 32 != 0 || (b.drop 13).take 3 != [0, 0, 0] || d.src % 4 != 0 || d.dst % 4 != 0 || d.len % 4 != 0
    || d.len < 4 || 16777212 < d.len || d.sstride % 4 != 0 || d.dstride % 4 != 0
    || !c.dmaReach d (d.extent d.src d.sstride d.sfix) d.sfix false
    || !c.dmaReach d (d.extent d.dst d.dstride d.dfix) d.dfix true

/-- Where an extent lies in the underlying storage (R535). -/
def under (e : Int × Int) : Int × Int :=
  if e.2 ≤ 0x300000 then (let o : Int := (e.1 / 0x100000) * 0x100000; (e.1 - o, e.2 - o)) else e

/-- Whether source and destination overlap, and whether the copy then may descend or ascend (R535): none no overlap. -/
def DmaCh.overlap (d : DmaCh) : Option Bool :=
  let s := under (d.extent d.src d.sstride d.sfix)
  let t := under (d.extent d.dst d.dstride d.dfix)
  if d.sfix || d.dfix || t.2 ≤ s.1 || s.2 ≤ t.1 then none
  else some (decide (d.sstride = d.dstride) && (d.rows == 1 || decide ((d.len : Int) ≤ d.sstride)))

/-- The base address of a descriptor's end on the underlying storage. -/
def underAddr (a : Nat) : Nat := if a < 0x300000 then a % 0x100000 else a

/-! ### States -/

/-- A channel halts (R532, R535, R542). -/
def Chip.dmaHalt (c : Chip) (n : Fin 32) (err : Nat) : Chip :=
  let d := { c.ch n with state := 5, err := err, again := none, hold := none, aborting := false }
  ((c.setCh n d).ldlRelease 3 n.val).raiseEvent 0x0502 [(1, n.val), (1, err), (5, d.faultAddr)] n.val

/-- An access of a channel returned a bus error (R542). -/
def Chip.dmaBusError (c : Chip) (n : Fin 32) (addr : Nat) (write : Bool) : Chip :=
  let d := { c.ch n with faultAddr := addr, faultWrite := write }
  if d.cfgForce % 8 ≤ d.tries then (c.setCh n d).dmaHalt n 1
  else c.setCh n { d with again := some (c.now + us (c.get F.DMA_XCFG_GAP)) }

/-- A loaded descriptor starts, or first asks for a Ladle grant (R543). -/
def Chip.dmaStart (c : Chip) (n : Fin 32) : Chip :=
  let d := c.ch n
  let thr := c.get F.DMA_LDL_THR * 1024
  if bitAt d.flags 4 || (thr != 0 && thr ≤ d.len * d.rows) then
    (c.setCh n { d with state := 2 }).ldlAsk 3 n.val 0 (c.get F.DMA_LDL_AMT)
  else c.setCh n { d with state := 1 }

/-- The checks of a descriptor just read, and its start. -/
def Chip.dmaCheck (c : Chip) (n : Fin 32) (b : List Nat) : Chip :=
  let d := (c.ch n).withDesc b
  let c := c.setCh n { d with again := none, tries := 0 }
  if c.descBad d b then (c.setCh n { c.ch n with loaded := false }).dmaHalt n 2
  else match d.overlap with
    | some false => (c.setCh n { c.ch n with loaded := false }).dmaHalt n 3
    | some true => (c.setCh n { c.ch n with down := decide (underAddr d.src < underAddr d.dst) }).dmaStart n
    | none => c.dmaStart n

/-- The engine reads the descriptor at an address, word by word (R531). -/
def Chip.dmaWords (m : Store) (errs : List DdrError) (ues : List Nat) : Nat → Nat → Chip → Chip × Option (List Byte)
  | _, 0, c => (c, some [])
  | a, k + 1, c =>
    match c.dmaReadMem m errs ues a with
    | (c, none) => (c, none)
    | (c, some l) =>
      match Chip.dmaWords m (errs.filter (fun e => e.line != a / 64 * 64)) ues (a + 4) k c with
      | (c, none) => (c, none)
      | (c, some r) => (c, some (l ++ r))

/-- A channel loads the descriptor at an address (R531, R534); one that lies in neither the scratchpad nor DDR is bad. -/
def Chip.dmaLoad (c : Chip) (m : Store) (errs : List DdrError) (ues : List Nat) (n : Fin 32) (addr : Nat) : Chip :=
  let c := c.setCh n { c.ch n with desc := addr, loaded := false, state := 1, err := 0, hold := none }
  if !(inScratch addr || c.inDdr addr 32) then c.dmaHalt n 2
  else match Chip.dmaWords m errs ues addr 8 c with
    | (c, none) => c.dmaBusError n addr false
    | (c, some l) => c.dmaCheck n (l.map BitVec.toNat)

/-- GO (R534). -/
def Chip.dmaGo (c : Chip) (m : Store) (errs : List DdrError) (ues : List Nat) (n : Fin 32) : Chip :=
  let d := c.ch n
  let fresh := c.setCh n { d with err := 0, tries := 0, again := none }
  match d.state with
  | 0 => fresh.dmaLoad m errs ues n d.next
  | 4 => if d.loaded then fresh.dmaStart n else fresh.dmaLoad m errs ues n d.desc
  | 5 => if d.err = 1 ∧ d.loaded then fresh.dmaStart n else fresh.dmaLoad m errs ues n d.desc
  | _ => c.addSat F.DMA_REJ_CNT_COUNT 1

/-- PAUSE (R536). -/
def Chip.dmaPause (c : Chip) (n : Fin 32) : Chip :=
  let d := c.ch n
  match d.state with
  | 1 => c.setCh n { d with state := 3 }
  | 2 => (c.setCh n { d with state := 4 }).ldlRelease 3 n.val
  | _ => c

/-- ABORT (R537). -/
def Chip.dmaAbort (c : Chip) (n : Fin 32) : Chip :=
  let d := { c.ch n with appPend := false, appWritten := false }
  match d.state with
  | 0 => c.setCh n d
  | 1 | 3 => c.setCh n { d with state := 3, aborting := true }
  | _ => (c.setCh n { d with state := 0, err := 4, again := none, hold := none }).ldlRelease 3 n.val

/-- A pausing channel has drained (R536, R537). -/
def Chip.dmaDrained (c : Chip) (n : Fin 32) : Chip :=
  let d := c.ch n
  if d.state = 3 then
    (c.setCh n { d with
      state := if d.aborting then 0 else 4, err := if d.aborting then 4 else d.err, aborting := false, again := none, hold := none }).ldlRelease 3 n.val
  else c

/-- Whether every word of the loaded descriptor has moved. -/
def DmaCh.done (d : DmaCh) : Bool := d.loaded && d.rows ≤ d.rowsDone

/-- A descriptor ends (R539, R541, R543, R546). A PAUSE or an ABORT that has come acts before the next descriptor's first
read (R538). -/
def Chip.dmaEnd (c : Chip) (m : Store) (errs : List DdrError) (ues : List Nat) (n : Fin 32) : Chip :=
  let d := c.ch n
  let take := d.last && d.appPend
  let ends := d.last && !d.appPend
  let d' := { d with
    cfgForce := d.cfg, cfgPend := false, late := false, descs := (d.descs + 1) % 65536, loaded := false
    appPend := d.appPend && !take, appWritten := d.appWritten && !take
    state := if ends then 0 else 1, aborting := false }
  let c := (c.setCh n d').ldlRelease 3 n.val
  let c := if d.ev || ends then c.orBits F.DMA_DONE_DONE (2 ^ n.val) else c
  let c := if d.ev || (ends && bitAt d.cfg 8) then c.raiseEvent 0x0501 [(1, n.val), (5, d.desc)] n.val else c
  if ends then c
  else
    let c := c.dmaLoad m errs ues n (if take then d.append else d.link)
    if d.aborting then
      let a := c.ch n
      if a.state = 1 ∨ a.state = 2 then (c.setCh n { a with state := 0, err := 4 }).ldlRelease 3 n.val else c
    else if d.state = 3 then
      let a := c.ch n
      if a.state = 1 ∨ a.state = 2 then (c.setCh n { a with state := 4 }).ldlRelease 3 n.val else c
    else c

/-- An APPEND that is pending while the channel is idle starts it (R541). -/
def Chip.dmaAppendIdle (c : Chip) (m : Store) (errs : List DdrError) (ues : List Nat) (n : Fin 32) : Chip :=
  let d := c.ch n
  if d.state = 0 && d.appPend then
    (c.setCh n { d with appPend := false, appWritten := false }).dmaLoad m errs ues n d.append
  else c

/-- The Ladle granted a channel's request (R543). -/
def Chip.dmaGranted (c : Chip) (n : Fin 32) : Chip :=
  let d := c.ch n
  if d.state = 2 then c.setCh n { d with state := 1 } else c

/-! ### The channel window (R533, R545) -/

/-- The working source or destination address. -/
def DmaCh.at' (d : DmaCh) (base : Nat) (stride : Int) (fixed : Bool) : Nat :=
  let row := if d.down then d.rows - 1 - d.rowsDone else d.rowsDone
  let off := if d.down then d.len - 4 - d.bytesDone else d.bytesDone
  if fixed then base else (((base : Int) + (row : Int) * stride + (off : Int)) % (2 ^ 40 : Nat)).toNat

def DmaCh.srcNow (d : DmaCh) : Nat := d.at' d.src d.sstride d.sfix
def DmaCh.dstNow (d : DmaCh) : Nat := d.at' d.dst d.dstride d.dfix
def DmaCh.rowsLeft (d : DmaCh) : Nat := d.rows - d.rowsDone
def DmaCh.rowLeft (d : DmaCh) : Nat := if d.rowsDone < d.rows then d.len - d.bytesDone else 0

/-- DMA_CH_STAT. -/
def DmaCh.stat (d : DmaCh) : Nat :=
  d.state + 16 * bit d.down + 32 * bit d.late + 64 * bit (d.cfgPend || d.appWritten || d.appPend) + 256 * d.err

/-- A register of the channel window. -/
def DmaCh.window (d : DmaCh) (off : Nat) : Nat :=
  match off with
  | 0x100 => d.cfg
  | 0x108 => d.stat
  | 0x10C => d.next % 2 ^ 32
  | 0x110 => d.next / 2 ^ 32
  | 0x114 => d.append % 2 ^ 32
  | 0x118 => d.append / 2 ^ 32
  | 0x11C => d.desc % 2 ^ 32
  | 0x120 => d.desc / 2 ^ 32
  | 0x124 => d.srcNow % 2 ^ 32
  | 0x128 => d.srcNow / 2 ^ 32
  | 0x12C => d.dstNow % 2 ^ 32
  | 0x130 => d.dstNow / 2 ^ 32
  | 0x134 => d.rowsLeft % 65536 * 65536
  | 0x138 => d.rowLeft
  | 0x13C => d.faultAddr % 2 ^ 32
  | 0x140 => bit d.faultWrite * 2 ^ 31 + d.faultAddr / 2 ^ 32
  | 0x144 => d.descs * 65536 + d.retries
  | _ => 0

/-- A write to a register of the channel window; late says that it came in the cycle of a copy (R534, R539 to R541). -/
def Chip.dmaWindowWrite (c : Chip) (m : Store) (errs : List DdrError) (ues : List Nat) (n : Fin 32) (off w : Nat) (late : Bool) : Chip :=
  let d := c.ch n
  let open' := d.state = 0 || d.state = 4 || d.state = 5
  let stay := fun (x : Bool) => late || x
  match off with
  | 0x100 =>
    let v := bitsOf w 8 8 * 256 + bitsOf w 5 4 * 16 + bitsOf w 2 0
    c.setCh n { d with cfg := v, cfgPend := true, late := stay d.late }
  | 0x104 =>
    if bitAt w 2 then c.dmaAbort n else if bitAt w 1 then c.dmaPause n else if bitAt w 0 then c.dmaGo m errs ues n else c
  | 0x10C => if open' then c.setCh n { d with next := d.next / 2 ^ 32 * 2 ^ 32 + w / 32 * 32 } else c.addSat F.DMA_REJ_CNT_COUNT 1
  | 0x110 => if open' then c.setCh n { d with next := w % 256 * 2 ^ 32 + d.next % 2 ^ 32 } else c.addSat F.DMA_REJ_CNT_COUNT 1
  | 0x114 => c.setCh n { d with append := d.append / 2 ^ 32 * 2 ^ 32 + w / 32 * 32, appWritten := true, late := stay d.late }
  | 0x118 =>
    let c := c.setCh n { d with append := w % 256 * 2 ^ 32 + d.append % 2 ^ 32, appWritten := true, appPend := true, late := stay d.late }
    c.dmaAppendIdle m errs ues n
  | _ => c

/-- DMA_BUSY and DMA_HALTED (R545). -/
def Chip.dmaBusy (c : Chip) : Nat :=
  ((List.finRange 32).map (fun (n : Fin 32) => let s := (c.ch n).state; if s = 1 ∨ s = 2 ∨ s = 3 then 2 ^ n.val else 0)).sum
def Chip.dmaHalted (c : Chip) : Nat :=
  ((List.finRange 32).map (fun (n : Fin 32) => if (c.ch n).state = 5 then 2 ^ n.val else 0)).sum

end Sys2Proof.Machine
end

