-- ==== Sys2Proof/Machine/Tko.lean ====
section
/-!
DEFINITION. Twin takeover (R357 to R386): heartbeats, losses, decisions, fencing, thermal fill, standby activation, return.
-/

namespace Sys2Proof.Machine

def Chip.setTko (c : Chip) (s : TkoSt) : Chip := { c with tko := s }

/-! ### Ports and lines -/

/-- Whether port k is a pair port. -/
def Chip.isPair (c : Chip) (k : Fin 8) : Bool := c.on F.TKO_PAIR_EN k
def Chip.pairPorts (c : Chip) : List (Fin 8) := allPorts.filter c.isPair

/-- A list of ports as a mask. -/
def maskOf (l : List (Fin 8)) : Nat := (l.map (fun k => 2 ^ k.val)).sum
def portsIn (m : Nat) : List (Fin 8) := allPorts.filter (fun k => bitAt m k)

/-- PORT_OK of a pair port (R360). -/
def Chip.portOk (c : Chip) (k : Fin 8) : Bool := c.isPair k && c.isUp k && c.timeValid (8 + k.val) && !c.isFenced k

/-- The port of this node whose partner port has a number. -/
def Chip.ofPartner (c : Chip) (p : Nat) : Option (Fin 8) := c.pairPorts.find? (fun k => c.get F.TKO_PAIR_PPORT k == p)

/-- Whether line n belongs to the other side of the tile of port k. -/
def Chip.otherSide (c : Chip) (k : Fin 8) (n : Int) : Bool := !parityFires (c.homeSet k) n

/-- The smallest line from n on that meets p; p holds of one line in two. -/
def lineFrom (n : Int) (p : Int → Bool) : Int := if p n then n else n + 1

/-- The first line above the position predicted for d µs from now (R118, R368). -/
def Chip.lineAfter (c : Chip) (d : Nat) : Int := (c.xAt (c.nowQ + ((d * 1000 : Nat) : Rat))).floor + 1

/-- Whether takeovers are made (R367): an LN-8064-T at a mode limit of at most 48 kHz. -/
def Chip.takesOver (c : Chip) : Bool := c.get F.SYS_ID_VARIANT == 1 && decide (c.fLim ≤ 48000)

def Chip.tkoState (c : Chip) (s : Nat) : Chip := c.set F.TKO_STAT_STATE s

/-! ### Messages (R360, R361) -/

/-- A TKO message: type, header, bytes 8 to 63. -/
def Chip.tkoSend (c : Chip) (ty : Nat) (body : List Nat) : Chip :=
  let seq := c.tko.seq
  let head := [ty, c.get F.TKO_STAT_STATE] ++ bytesLE 2 c.nodeId ++ bytesLE 2 (c.get F.TKO_PARTNER_NODE) ++ bytesLE 2 seq
  let msg := head ++ body ++ List.replicate (56 - body.length) 0
  let c := c.setTko { c.tko with seq := (seq + 1) % 65536, sent := true }
  c.send "tko" ((if c.on F.TKO_XCFG_SINGLE_DIR then 1 else 2) :: msg)

def line48 (n : Int) : List Nat := bytesLE 6 (unsigned 48 n)

/-- A period of PER us has ended: one without a valid heartbeat is counted, and MISS periods in a row with none whose key
matches are a MISMATCH (R381, R386). -/
def Chip.periodOver (c : Chip) : Chip :=
  if !c.tko.heardNow then c.addSat F.TKO_HB_STAT_MISSED 1
  else if c.tko.keyNow then c.setTko { c.tko with misRun := 0 }
  else
    let c := c.setTko { c.tko with misRun := c.tko.misRun + 1 }
    if c.get F.TKO_HB_CFG_MISS ≤ c.tko.misRun ∧ (c.get F.TKO_STAT_STATE = 1 ∨ c.get F.TKO_STAT_STATE = 2) then
      (c.tkoState 6).emit 0x1F0A
    else c

/-- The period that a heartbeat is sent in: the first one sent in a new period ends the period before. -/
def Chip.periodAt (c : Chip) : Chip :=
  let p := c.nowNs / (1000 * max 1 (c.get F.TKO_HB_CFG_PER))
  if c.tko.period = some p then c
  else
    let c := if c.tko.period.isSome then c.periodOver else c
    c.setTko { c.tko with period := some p, heardNow := false, keyNow := false }

/-- HB_SEND: a heartbeat leaves (R360). -/
def Chip.hbSend (c : Chip) : Chip :=
  if !(c.on F.TKO_CTRL_EN && c.twin) then c
  else
    let c := c.periodAt
    let ok := maskOf (c.pairPorts.filter c.portOk)
    let pend := match c.tko.pend with
      | some (key, line) => [1, 0] ++ bytesLE 4 key ++ line48 line
      | none => [0, 0] ++ bytesLE 4 0 ++ line48 0
    c.tkoSend 1 (bytesLE 8 c.nowNs ++ bytesLE 4 (c.get F.TKO_KEY_KEY) ++ bytesLE 2 (c.get F.TKO_HB_STAT_LAST_SEQ) ++ [ok, c.get F.TKO_PORTS_SOLO]
      ++ line48 c.tko.lastFired ++ pend)

/-! ### Notices (R367, R369, R189) -/

/-- TKO sends COL a mode notice. -/
def Chip.notice (c : Chip) (k : Fin 8) (every : Bool) (n : Int) : Chip :=
  c.setCol { c.col with notices := c.col.notices ++ [⟨k, every, n⟩] }

/-- Lines of the lost side of port k up to n that no side fires count as dropped; while HALF is set the items carry
HALF_DENSITY (R369). -/
def Chip.countLost (c : Chip) (k : Fin 8) (n : Int) : Chip :=
  match c.tko.lostLines[k] with
  | none => c
  | some l =>
    let from' := max (l + 1) (n - 4096)
    let lines := ((List.range (n + 1 - from').toNat).map (fun (i : Nat) => from' + (i : Int))).filter (c.otherSide k)
    let half := bitAt (c.get F.TKO_PORTS_HALF) k
    let c := lines.foldl (fun c m =>
      let c := c.dropLine [k] m
      if half then c.markCarried [k] m (Account.flag flagHalf) else c) c
    c.setTko { c.tko with lostLines := c.tko.lostLines.set k (some (max l n)) }

/-- At each line event: the lines of sides that nobody fires (R369). -/
def Chip.tkoLine (c : Chip) (n : Int) : Chip :=
  (allPorts.filter (fun (k : Fin 8) => !bitAt (c.get F.TKO_PORTS_SOLO) k)).foldl (fun c k => c.countLost k n) c

/-- The registers of the last takeover. -/
def Chip.showTakeover (c : Chip) (ports : List (Fin 8)) (n : Int) : Chip :=
  let u := unsigned 48 n
  ((c.set F.TKO_SW_LO_LINE_LO u).set F.TKO_SW_HI_LINE_HI (u / 2 ^ 32)).set F.TKO_SW_HI_PORTS (maskOf ports)

/-- TRK's takeover cause is present while a survivor runs at half density (R136, R365). -/
def Chip.halfCause (c : Chip) : Chip :=
  Chip.serveSpreq { c with trk := { c.trk with tkoCause := c.get F.TKO_PORTS_HALF != 0 } }

/-- Takeover notices to ports from the smallest line of the lost side above x(t + REFILL) (R367, R368): the chip and the line
of the highest port. -/
def Chip.sendTakeover (c : Chip) (ports : List (Fin 8)) : Chip × Int :=
  let base := c.lineAfter (c.get F.TKO_LEAD_REFILL)
  let c := ports.foldl (fun c (k : Fin 8) =>
    ((c.notice k true (lineFrom base (c.otherSide k))).setBit F.TKO_PORTS_SOLO k true).setBit F.TKO_PORTS_HALF k false) c
  let n := match ports.getLast? with | some k => lineFrom base (c.otherSide k) | none => base
  let c := (c.showTakeover ports n).addSat F.TKO_CNT_TAKEOVERS ports.length
  ((c.emit 0x1F04 [(1, maskOf ports), (6, unsigned 48 n)]).halfCause, n)

/-- Ports go on at half density (R367). -/
def Chip.goHalf (c : Chip) (ports : List (Fin 8)) : Chip :=
  let c := ports.foldl (fun c (k : Fin 8) => c.setBit F.TKO_PORTS_HALF k true) c
  let c := (c.emit 0x1F06).halfCause
  ports.foldl (fun c k => c.countLost k c.lastIssued) c

/-- The decision for ports whose other side is lost (R367); ports that already fire every line need no notice. -/
def Chip.decideLoss (c : Chip) (ports : List (Fin 8)) : Chip :=
  let todo := ports.filter (fun (k : Fin 8) => !bitAt (c.get F.TKO_PORTS_SOLO) k)
  if todo.isEmpty then c
  else if c.takesOver then
    if c.on F.TKO_XCFG_NO_TAKEOVER then todo.foldl (fun c k => c.countLost k c.lastIssued) c
    else
      let r := c.sendTakeover todo
      r.1.setTko { r.1.tko with swLine := some r.2, retLine := none }
  else c.goHalf todo

/-- A loss is decided at once, or waits for TC (R366). -/
def Chip.askDecision (c : Chip) (ports : List (Fin 8)) : Chip :=
  if c.on F.TKO_CFG_CONFIRM then
    c.setTko { c.tko with decide := c.tko.decide ++ [(c.now + us 50, ports.map Fin.val)] }
  else c.decideLoss ports

/-- The sides of ports are lost: LOST, COL told, the decision (R363 to R366). -/
def Chip.sidesLost (c : Chip) (ports : List (Fin 8)) : Chip :=
  let c := ports.foldl (fun c (k : Fin 8) =>
    (c.setBit F.TKO_PORTS_LOST k true).setTko { c.tko with lostLines := c.tko.lostLines.set k (some c.tko.partnerFired) }) c
  (c.colPartnerLost (ports.map Fin.val)).askDecision ports

/-- TC's decision, or its deadline: those decisions go on (R366). -/
def Chip.proceed (c : Chip) (due : Nat → Bool) : Chip :=
  let now := c.tko.decide.filter (fun d => due d.1)
  let c := c.setTko { c.tko with decide := c.tko.decide.filter (fun d => !due d.1) }
  now.foldl (fun c d => c.decideLoss (portsIn (d.2.map (fun k => 2 ^ k)).sum)) c

/-- TC vetoes the takeovers that wait (R366). -/
def Chip.veto (c : Chip) : Chip :=
  if c.tko.decide.isEmpty then c
  else
    let ports := portsIn ((c.tko.decide.map (fun d => (d.2.map (fun k => 2 ^ k)).sum)).foldl (fun a b => a ||| b) 0)
    let c := (c.setTko { c.tko with decide := [] }).emit 0x1F05
    ports.foldl (fun c k => c.countLost k c.lastIssued) c

/-- A mode notice reaches COL, which reports the applied line to TKO (R189, R369). -/
def Chip.modeNotice (c : Chip) : Chip :=
  match c.col.notices with
  | [] => c
  | m :: r =>
    let x := (c.setCol { c.col with notices := r }).applyNotice m.port m.every m.line
    let c := x.1
    if m.every then
      let c := c.countLost m.port (x.2 - 1)
      let c := c.setTko { c.tko with lostLines := c.tko.lostLines.set m.port none }
      if bitAt (c.get F.TKO_PORTS_LOST) m.port then c.setTko { c.tko with swLine := some x.2 } else c
    else c

/-! ### Fencing (R373 to R375) -/

/-- The pair ports fire no line from the first line whose transfer has not started (R375, R384). -/
def Chip.stopPairPorts (c : Chip) : Chip :=
  c.pairPorts.foldl (fun c (k : Fin 8) =>
    c.applySet k (match (c.port k).xferTop with | some l => l + 1 | none => c.lastIssued + 1) 0) c

/-- The pair ports are fenced; with NO_FENCE the event is recorded alone. -/
def Chip.fence (c : Chip) : Chip :=
  let c := c.emit 0x1F08
  if c.on F.TKO_XCFG_NO_FENCE then c
  else
    let c := c.stopPairPorts
    c.setTko { c.tko with fenced := maskOf c.pairPorts }

/-- Fencing in its own right (R373, R396): TKO is FENCED while the pair ports fire no line. -/
def Chip.fenceNow (c : Chip) : Chip :=
  if c.get F.TKO_STAT_STATE = 0 ∨ c.on F.TKO_XCFG_NO_FENCE then c.fence else c.fence.tkoState 5

/-- Fencing is lifted: the ports fire their home parity from line n. -/
def Chip.liftFence (c : Chip) (ports : List (Fin 8)) (n : Int) : Chip :=
  let mine := ports.filter (fun (k : Fin 8) => c.isFenced k || c.get F.COL_PSTAT_FIRES k == 0)
  let c := c.setTko { c.tko with fenced := c.tko.fenced - (c.tko.fenced &&& maskOf ports) }
  mine.foldl (fun c (k : Fin 8) => c.applySet k n (c.homeSet k)) c

/-- The fabric reports both segment links down, or no longer (R373). -/
def Chip.isolated (c : Chip) (b : Bool) : Chip :=
  if b && !c.on F.TKO_STAT_ISOLATED then (c.set F.TKO_STAT_ISOLATED 1).emit 0x1F09
  else c.set F.TKO_STAT_ISOLATED (bit b)

/-- TKO starts to listen: no heartbeat sent or heard, no period, no decision. -/
def Chip.tkoFresh (c : Chip) : Chip :=
  c.setTko { c.tko with heard := false, heardNow := false, keyNow := false, sent := false, period := none, misRun := 0, decide := [] }

/-- TKO_CTRL.EN from 0 to 1: heartbeats start and fencing is lifted (R375); EN 0 leaves the pair. -/
def Chip.tkoEnabled (c : Chip) : Chip :=
  let c := (c.liftFence c.pairPorts (c.lastIssued + 1)).tkoFresh
  if c.twin then c.tkoState 1 else c.tkoState 0
def Chip.tkoDisabled (c : Chip) : Chip := (c.setTko { c.tko with decide := [] }).tkoState 0

/-! ### Standby tiles (R377) -/

/-- Whether tile position p is lost: the local port that drives it has left UP, and the partner side is lost. -/
def Chip.tileLost (c : Chip) (p : Nat) : Bool :=
  c.pairPorts.any (fun (k : Fin 8) =>
    c.portEnabled k && c.get F.COL_PORT_TP k == p
      && ((!c.isUp k && (bitAt (c.get F.TKO_PORTS_LOST) k
            || (c.get F.TKO_STAT_STATE == 2 && !bitAt c.tko.partnerOk (c.get F.TKO_PAIR_PPORT k))))
        || (c.on F.TKO_STBY_ON_HALF && bitAt (c.get F.TKO_PORTS_HALF) k && bitAt (c.get F.TKO_PORTS_LOST) k)))

/-- The standby port mapped to a tile position, if armed and not yet active. -/
def Chip.standbyFor (c : Chip) (p : Nat) : Option (Fin 8) :=
  let m := bitsOf (c.get F.TKO_STBYMAP_MAP) (4 * p + 3) (4 * p)
  if h : m % 8 < 8 then
    let k : Fin 8 := ⟨m % 8, h⟩
    if 8 ≤ m ∧ c.on F.COL_STBY_ARM k ∧ !c.on F.COL_STBY_ACT k ∧ !c.col.stby.any (fun s => s.1 == k.val) then some k else none
  else none

/-- A standby activation under R377 on this node. -/
def Chip.stbyStart (c : Chip) (p : Nat) (k : Fin 8) (n : Int) : Chip :=
  (c.stbyCommand k p true n).1.emit 0x1F0B [(1, p), (6, unsigned 48 n)]

/-- TKO activates mapped standby tiles for lost tile positions. -/
def Chip.stbyAuto (c : Chip) : Chip :=
  if !(c.on F.TKO_STBY_AUTO && c.feature 1 && c.nodeId < c.get F.TKO_PARTNER_NODE) then c
  else (List.range 8).foldl (fun c p =>
    if c.tileLost p then
      match c.standbyFor p with
      | none => c
      | some k =>
        let n := c.lineAfter (c.get F.TKO_STBY_STBY_LEAD)
        (c.stbyStart p k n).tkoSend 0x0A ([p, 1] ++ line48 n)
    else c) c

/-- STBY_SW arrives: the same activation for the own standby port. -/
def Chip.stbySwRx (c : Chip) (p op : Nat) (n : Int) : Chip :=
  if op = 1 then match c.standbyFor p with | some k => c.stbyStart p k n | none => c
  else c

/-! ### Heartbeats and losses (R359, R362 to R364, R374, R381) -/

/-- Whether a heartbeat's key matches (R381). -/
def Chip.keyMatches (c : Chip) (h : Heartbeat) : Bool :=
  let key := c.get F.TKO_KEY_KEY
  h.key == key || (match c.tko.pend with
    | some (k, l) => (h.key == k && h.pendLine == l) || (h.pendKey == key && h.pendLine == l)
    | none => false)

/-- The comparison of a heartbeat's key; the first that matches ends a MISMATCH (R381). -/
def Chip.judgeKey (c : Chip) (h : Heartbeat) : Chip :=
  if c.keyMatches h then
    let c := c.setTko { c.tko with keyOk := true, keyNow := true, misRun := 0 }
    if c.get F.TKO_STAT_STATE = 6 then c.tkoState 2 else c
  else c.setTko { c.tko with keyOk := false }

/-- Whether the heartbeat is valid: from the partner, with a later SEQ (R362). -/
def Chip.hbValid (c : Chip) (h : Heartbeat) : Bool :=
  c.on F.TKO_CTRL_EN && c.twin && h.node == c.get F.TKO_PARTNER_NODE
    && (!c.tko.heard || (let d := (h.seq + 65536 - c.get F.TKO_HB_STAT_LAST_SEQ) % 65536; 1 ≤ d && d ≤ 32767))

/-- Whether ECHO_SEQ names a message that this node sent. -/
def Chip.echoes (c : Chip) (e : Nat) : Bool :=
  c.tko.sent && (let d := (c.tko.seq + 65536 - e) % 65536; 1 ≤ d && d ≤ 32768)

/-- HB_RX. -/
def Chip.hbRx (c : Chip) (h : Heartbeat) : Chip :=
  if !c.hbValid h then c
  else
    let c := c.set F.TKO_HB_STAT_LAST_SEQ h.seq
    let c := (c.set F.TKO_HB_TS_LO_TS_LO h.tSend).set F.TKO_HB_TS_HI_TS_HI (h.tSend / 2 ^ 32)
    let c := c.setTko { c.tko with
      heard := true, heardNow := true, tSend := h.tSend, partnerOk := h.ok, partnerSolo := h.solo, partnerFired := h.lastFired }
    let c := c.judgeKey h
    let st := c.get F.TKO_STAT_STATE
    let mine := c.pairPorts.any (fun (k : Fin 8) => bitAt h.solo (c.get F.TKO_PAIR_PPORT k))
    let c :=
      if h.state = 3 ∧ mine then (if st = 4 ∧ (c.tko.fenced = maskOf c.pairPorts ∨ c.on F.TKO_XCFG_NO_FENCE) then c else (c.fence).tkoState 4)
      else if st = 1 ∧ h.state = 3 then (c.stopPairPorts).tkoState 4
      else if st = 1 ∧ c.echoes h.echo then (c.tkoState 2).emit 0x1F01
      else c
    if c.get F.TKO_STAT_STATE = 2 then
      let lost := c.pairPorts.filter (fun (k : Fin 8) =>
        c.portOk k && !bitAt h.ok (c.get F.TKO_PAIR_PPORT k) && !bitAt (c.get F.TKO_PORTS_LOST) k)
      let c := lost.foldl (fun c (k : Fin 8) => (c.emit 0x1F03 [(1, k.val)]).sidesLost [k]) c
      c.stbyAuto
    else c

/-- PARTNER_LOST (R363): the deadline has passed; an isolated node fences instead of deciding (R373). -/
def Chip.partnerLost (c : Chip) : Chip :=
  let st := c.get F.TKO_STAT_STATE
  let dead := ns c.tko.tSend + us (c.get F.TKO_HB_CFG_MISS * c.get F.TKO_HB_CFG_PER)
  if (st = 2 ∨ st = 6) ∧ dead ≤ c.now then
    let c := (c.emit 0x1F02 [(8, c.tko.tSend), (6, unsigned 48 c.tko.partnerFired)]).setTko { c.tko with heard := false }
    if c.on F.TKO_STAT_ISOLATED then
      let c := c.pairPorts.foldl (fun c (k : Fin 8) => c.setBit F.TKO_PORTS_LOST k true) c
      ((c.tkoState 3).colPartnerLost (c.pairPorts.map Fin.val)).fenceNow
    else
      let c := (c.tkoState 3).sidesLost c.pairPorts
      (allPorts.foldl Chip.serveMark c).stbyAuto
  else c

/-! ### Return (R382 to R385) -/

/-- The registers and the record of a return. -/
def Chip.showReturn (c : Chip) (ports : List (Fin 8)) (n : Int) : Chip :=
  let u := unsigned 48 n
  let c := ((c.set F.TKO_RET_LO_LINE_LO u).set F.TKO_RET_HI_LINE_HI (u / 2 ^ 32)).set F.TKO_RET_HI_PORTS (maskOf ports)
  let c := ports.foldl (fun c (k : Fin 8) => c.setBit F.TKO_PORTS_LOST k false) c
  let c := c.setTko { c.tko with retLine := some n }
  (c.addSat F.TKO_CNT_RETURNS 1).emit 0x1F07 [(1, maskOf ports), (6, unsigned 48 n)]

/-- The survivor lets ports go back to their home parity from line n. -/
def Chip.survivorReturn (c : Chip) (ports : List (Fin 8)) (n : Int) : Chip :=
  let c := ports.foldl (fun c (k : Fin 8) =>
    let c := c.countLost k (n - 1)
    let c := c.setTko { c.tko with lostLines := c.tko.lostLines.set k none }
    let c := if bitAt (c.get F.TKO_PORTS_SOLO) k then c.notice k false n else c
    (c.setBit F.TKO_PORTS_SOLO k false).setBit F.TKO_PORTS_HALF k false) c
  let c := (c.showReturn ports n).halfCause
  if c.get F.TKO_STAT_STATE = 3 ∧ c.get F.TKO_PORTS_LOST = 0 then c.tkoState 2 else c

/-- RET_REQ arrives for a port of the partner (R382). -/
def Chip.retReqRx (c : Chip) (port : Nat) (earliest : Int) : Chip :=
  match c.ofPartner port with
  | none => c
  | some k =>
    if bitAt (c.get F.TKO_PORTS_LOST) k then
      let n := lineFrom (max earliest (c.lineAfter (c.get F.TKO_LEAD_RET_LEAD))) (c.otherSide k)
      (c.survivorReturn [k] n).tkoSend 9 ([maskOf [k]] ++ line48 n)
    else c

/-- JOIN arrives (R384). -/
def Chip.joinRx (c : Chip) (w0 : Int) (firsts : List Int) : Chip :=
  if c.get F.TKO_STAT_STATE = 3 then
    let n := max (listMax (w0 :: firsts) + c.lMax) (c.lineAfter (c.get F.TKO_LEAD_RET_LEAD))
    (c.survivorReturn c.pairPorts n).tkoSend 9 ([maskOf c.pairPorts] ++ line48 n)
  else c

/-- RET_LINE arrives for ports in the partner's numbering (R382). -/
def Chip.retLineRx (c : Chip) (mask : Nat) (n : Int) : Chip :=
  let ports := c.pairPorts.filter (fun (k : Fin 8) => bitAt mask (c.get F.TKO_PAIR_PPORT k))
  if ports.isEmpty then c
  else
    let c := (c.liftFence ports n).showReturn ports n
    if c.get F.TKO_STAT_STATE = 4 ∨ c.get F.TKO_STAT_STATE = 5 then c.tkoState 2 else c

/-- Whether JOIN may be sent (R383). -/
def Chip.mayJoin (c : Chip) : Bool :=
  c.tko.keyOk && c.pairPorts.all (fun (k : Fin 8) => c.isUp k && c.timeValid (8 + k.val))
    && c.on F.TRK_STAT_RUN && !c.on F.TRK_STAT_COAST && c.on F.CMP_CTRL_EN

/-- A write of TKO_CTRL.JOIN (R383). -/
def Chip.tkoJoin (c : Chip) : Chip :=
  if c.mayJoin then
    c.tkoSend 7 (line48 c.cmp.w0 ++ [maskOf c.pairPorts, 0]
      ++ (allPorts.map (fun (i : Fin 8) => line48 (c.cmp.laneFirst[i].getD c.cmp.w0))).flatten)
  else (c.addSat F.TKO_REJ_CNT_COUNT 1).emit 0x1F0C

/-- A port has come UP: a lost side asks to return (R382); a BOTH port's peer gives the lines back. -/
def Chip.tkoPortUp (c : Chip) (k : Fin 8) : Chip :=
  if c.isPair k && c.get F.TKO_STAT_STATE == 2 then
    let solo := bitAt c.tko.partnerSolo (c.get F.TKO_PAIR_PPORT k)
    let earliest := match (c.port k).xferTop with | some l => max (l + 1) (c.lastIssued + 1) | none => c.lastIssued + 1
    let c := if solo then c.applySet k earliest 0 else c
    c.tkoSend 8 ([k.val] ++ line48 earliest)
  else if c.portMode k == 1 then
    let j := c.get F.COL_PORT_PEER k
    if h : j < 8 then
      let p : Fin 8 := ⟨j, h⟩
      if bitAt (c.get F.TKO_PORTS_LOST) j then
        let n := lineFrom (max (c.lastIssued + 1) (c.lineAfter (c.get F.TKO_LEAD_RET_LEAD))) (c.otherSide p)
        (c.applySet k n (c.homeSet k)).survivorReturn [p] n
      else c
    else c
  else c

/-- A port has left UP (R372, R377). -/
def Chip.tkoPortDown (c : Chip) (k : Fin 8) : Chip :=
  let c :=
    if c.portMode k == 1 && c.portEnabled k then
      let j := c.get F.COL_PORT_PEER k
      if h : j < 8 then
        let p : Fin 8 := ⟨j, h⟩
        if c.isUp p then (c.setBit F.TKO_PORTS_LOST j true).decideLoss [p] else c
      else c
    else c
  c.stbyAuto

/-! ### The mode limit (R191, R371) -/

/-- A hand-over changed the mode limit: above 48 kHz every solo port goes back to half density; at or below it, ports at half
density take over. -/
def Chip.modeLimitChanged (c : Chip) (before : Nat) (n : Int) : Chip :=
  let after := c.fLim
  if before ≤ 48000 ∧ 48000 < after then
    let solo := portsIn (c.get F.COL_STAT_SOLO)
    if solo.isEmpty then c
    else (solo.foldl (fun c (k : Fin 8) => c.setBit F.TKO_PORTS_SOLO k false) (c.soloHalf n)).goHalf solo
  else if 48000 < before ∧ after ≤ 48000 ∧ c.takesOver ∧ c.on F.TKO_CFG_AUTO_SOLO ∧ c.get F.TKO_PORTS_HALF ≠ 0 then
    c.decideLoss (portsIn (c.get F.TKO_PORTS_HALF))
  else c

/-! ### Thermal fill (R349, R376) -/

/-- Why this node's port refuses to fill: 1 warm, 2 blanking, 3 fires every line, 4 mode or variant. -/
def Chip.fillRefusal (c : Chip) (k : Fin 8) : Option Nat :=
  if !c.takesOver || c.get F.TKO_STAT_STATE == 6 then some 4
  else if signed 12 (c.get F.HP_TWARN_T_WARN k) ≤ signed 12 (c.get F.HP_TEMP_T_H k) then some 1
  else if c.on F.HP_PSTAT_BLANK k then some 2
  else if c.get F.COL_PSTAT_FIRES k = 3 then some 3
  else none

/-- FILL_REFUSED of a blanked port. -/
def Chip.fillRefused (c : Chip) (k : Fin 8) : Chip :=
  (c.setTko { c.tko with fillAt := c.tko.fillAt.set k none }).emit (0x1013 + 0x100 * k.val)

/-- The blanked port's FILL bit and the line from which the other side fires its lines. -/
def Chip.fillBegins (c : Chip) (k : Fin 8) (n : Int) : Chip :=
  let c := c.setTko { c.tko with fillAt := c.tko.fillAt.set k none }
  (c.setHp k { c.port k with fillFrom := some n, resumeAt := none }).set F.HP_PSTAT_FILL 1 k

/-- The earliest line that a blanked port can fire. -/
def Chip.earliestLine (c : Chip) (k : Fin 8) : Int :=
  match (c.port k).xferTop with | some l => l + 1 | none => c.lastIssued + 1

/-- The blanking of a filled port has ended: it asks for the return line. -/
def Chip.fillEnd (c : Chip) (k : Fin 8) : Chip :=
  if c.portMode k == 1 then
    let j := c.get F.COL_PORT_PEER k
    if h : j < 8 then
      let p : Fin 8 := ⟨j, h⟩
      let n := lineFrom (max (c.earliestLine k) (c.lineAfter (c.get F.TKO_LEAD_RET_LEAD))) (c.otherSide p)
      let c := (c.notice p false n).setBit F.TKO_PORTS_SOLO j false
      c.setHp k { c.port k with resumeAt := some n }
    else c
  else c.tkoSend 5 ([k.val] ++ line48 (c.earliestLine k))

/-- A blanking port asks for a fill (R349). -/
def Chip.fillRequest (c : Chip) (k : Fin 8) : Chip :=
  if !c.takesOver || c.on F.HP_XPROT_NO_FILL k then c
  else if c.portMode k == 0 then
    if c.get F.TKO_STAT_STATE = 2 then
      (c.setTko { c.tko with fillAt := c.tko.fillAt.set k (some c.now) }).tkoSend 2 [k.val]
    else c
  else if c.portMode k == 1 then
    let j := c.get F.COL_PORT_PEER k
    if h : j < 8 then
      let p : Fin 8 := ⟨j, h⟩
      match (if c.isUp p then c.fillRefusal p else some 4) with
      | some _ => c.fillRefused k
      | none => let x := c.sendTakeover [p]; x.1.fillBegins k x.2
    else c
  else c

/-- FILL_REQ arrives for the partner's port (R376). -/
def Chip.fillReqRx (c : Chip) (port : Nat) : Chip :=
  match c.ofPartner port with
  | none => c.tkoSend 4 [port, 4]
  | some k =>
    match (if c.isUp k then c.fillRefusal k else some 4) with
    | some r => c.tkoSend 4 [k.val, r]
    | none => let x := c.sendTakeover [k]; x.1.tkoSend 3 ([k.val] ++ line48 x.2)

/-- FILL_ACK arrives: FILL is set; a port whose blanking has ended meanwhile asks for the return at once. -/
def Chip.fillAckRx (c : Chip) (port : Nat) (n : Int) : Chip :=
  match c.ofPartner port with
  | none => c
  | some k =>
    if c.tko.fillAt[k].isNone then c
    else
      let c := c.fillBegins k n
      if c.on F.HP_PSTAT_BLANK k then c else c.fillEnd k

def Chip.fillNakRx (c : Chip) (port : Nat) : Chip :=
  match c.ofPartner port with
  | none => c
  | some k => if c.tko.fillAt[k].isNone then c else c.fillRefused k

/-- No answer to FILL_REQ within 100 µs. -/
def Chip.fillTimeout (c : Chip) (k : Fin 8) : Chip :=
  match c.tko.fillAt[k] with
  | some t => if t + us 100 ≤ c.now then c.fillRefused k else c
  | none => c

/-- FILL_END arrives: the partner names the return line and goes back to its home parity from it. -/
def Chip.fillEndRx (c : Chip) (port : Nat) (earliest : Int) : Chip :=
  match c.ofPartner port with
  | none => c
  | some k =>
    if bitAt (c.get F.TKO_PORTS_SOLO) k then
      let n := lineFrom (max earliest (c.lineAfter (c.get F.TKO_LEAD_RET_LEAD))) (c.otherSide k)
      ((c.notice k false n).setBit F.TKO_PORTS_SOLO k false).tkoSend 6 ([k.val] ++ line48 n)
    else c

/-- FILL_RET arrives: the port fires again from the return line. -/
def Chip.fillRetRx (c : Chip) (port : Nat) (n : Int) : Chip :=
  match c.ofPartner port with
  | none => c
  | some k => if (c.port k).fillFrom.isSome then c.setHp k { c.port k with resumeAt := some n } else c

end Sys2Proof.Machine
end

