-- ==== Sys2Proof/Machine/HpBase.lean ====
section
/-!
DEFINITION. What every part of a head port uses: when rows fall due (R129, R304, R305), entering and leaving the port states
(R280, R288, R289, R320 to R322), commands to the head (R298 to R300) and the order in which a watchdog limit changes (R343).
-/

namespace Sys2Proof.Machine

/-! ### Due times (R129, R304, R305) -/

/-- The delay of row r against E(n), in ns: (τ_max − τ_c) + f × P / 64, with P in 1/64 ns. -/
def Chip.rowLag (c : Chip) (k : Fin 8) (bank : Bool) (period : Nat) (r : Fin 6) : Rat :=
  let b := c.trk.banks[(if bank then 1 else 0 : Fin 2)]
  let top := ((List.finRange 6).map (fun i => b.flt[i])).foldl max 0
  let own := (b.flt.toList).getD (c.rowChannel k r) 0
  let f := b.ofs[k][r] % 64
  ((top : Rat) - (own : Rat)) + (f : Rat) * (period : Rat) / (4096 : Nat)

/-- The due time of row r for the event's line, in ns. -/
def Chip.rowDue (c : Chip) (k : Fin 8) (e : LineEvent) (r : Fin 6) : Rat :=
  (e.time : Rat) / (256 : Nat) + c.rowLag k e.bank e.period r

/-- The rows of port k that fire under the offsets of a bank: not those out of range (R131). -/
def Chip.firingRows (c : Chip) (k : Fin 8) (bank : Bool) : List (Fin 6) :=
  allRows.filter (fun r => !c.offsetBad (c.trk.banks[(if bank then 1 else 0 : Fin 2)]).ofs[k][r])

/-- The due time of the first row of a line, in ns. -/
def Chip.firstDue (c : Chip) (k : Fin 8) (e : LineEvent) : Rat :=
  let dues := (c.firingRows k e.bank).map (fun (r : Fin 6) => c.rowDue k e r)
  dues.foldl minQ (dues.headD (c.rowDue k e 0))

/-- The event of a line that a port holds. -/
def PortSt.eventOf (p : PortSt) (n : Int) : Option LineEvent := p.events.find? (fun e => e.line == n)

/-- The event of a line, or one predicted from the most recent event held (R292). -/
def PortSt.predict (p : PortSt) (n : Int) : Option LineEvent :=
  match p.eventOf n with
  | some e => some e
  | none =>
    match p.events.getLast? with
    | some e => some { e with line := n, time := (((e.time : Int) + (n - e.line) * (e.period : Int) * 4)).toNat }
    | none => none

/-- The strobe time of group g of a row, in ns, trim included (R304, R305). -/
def Chip.strobeAt (c : Chip) (k : Fin 8) (e : LineEvent) (r : Fin 6) (g : Nat) : Rat :=
  c.rowDue k e r + (g * c.get F.HP_GRP_GQ k : Nat) * (e.period : Rat) / (16384 : Nat)
    + (signed 12 (c.inForce F.HP_FTRIM_TAPS k) : Rat) * 5 / (64 : Nat)

/-- The tap of 78.125 ps at which an edge is placed: the nearest, the later one halfway between two (R305). -/
def tapOf (t : Rat) : Int := (t * (64 : Nat) / (5 : Nat) + 1 / 2).floor

/-- Press time now, in taps. -/
def Chip.nowTaps (c : Chip) : Int := (c.nowQ * (64 : Nat) / (5 : Nat)).floor

/-! ### The states of a port (R280) -/

/-- The state of port k: 0 VACANT, 1 POWER, 2 TRAIN, 3 IDENT, 4 LOAD, 5 UP, 6 FAULT. -/
def Chip.portState (c : Chip) (k : Fin 8) : Nat := c.get F.HP_STAT_STATE k

/-- The port enters a state of the bring-up. -/
def Chip.enter (c : Chip) (k : Fin 8) (st : Nat) : Chip :=
  (c.setHp k { c.port k with stateAt := c.now }).set F.HP_STAT_STATE st k

/-- The base of port k's event codes. -/
def hpCode (k : Fin 8) (n : Nat) : Nat := 0x1000 + 0x100 * k.val + n

/-- An event of port k, which names the port (R326, R355, R396). -/
def Chip.hpEvent (c : Chip) (k : Fin 8) (n : Nat) (vals : List (Nat × Nat) := []) : Chip := c.emit (hpCode k n) vals

/-- Reset, a fault or a stop takes the outputs off (R280): supply off, lanes undriven, nothing sent or held on the link. -/
def Chip.outputsOff (c : Chip) (k : Fin 8) : Chip :=
  let p := c.port k
  let p := { p with
    queue := [], xfer := none, held := Vector.replicate 6 [], sent := [], todo := [], wait := none, record := [], recent := []
    locked := 0, retraining := false, retrainDue := none, restore := false, tries := 0
    pendLimit := none, wdog := p.pendLimit.getD p.wdog, span := p.pendLimit.getD p.span
    blankFrom := none, fillFrom := none, fillAsked := false, resumeAt := none, blanked := 0 }
  (((c.setHp k p).set F.HP_STAT_EN_OUT 0 k).set F.HP_STAT_LANES 0 k).set F.HP_STAT_BC_LOCK 0 k

/-- The lines whose events a port holds and has not begun to fire count as dropped lines (R230, R320). -/
def Chip.heldLinesLost (c : Chip) (k : Fin 8) : Chip :=
  let p := c.port k
  let fired := fun (n : Int) => match p.firedTop with | some l => decide (n ≤ l) | none => false
  let lost := p.events.filter (fun e => !fired e.line && !p.gone.contains e.line && c.portFires k e.line && !e.drop)
  let top := match p.events.getLast?, p.xferTop with
    | some e, some l => some (max e.line l)
    | some e, none => some e.line
    | none, l => l
  let c := c.setHp k { p with events := [], gone := [], xferTop := top }
  lost.foldl (fun c e => (c.portLineLost k e.line).skipGroups k e.line) c

/-- Blanking ends as the port leaves UP (R347, R352): cause 1 a supply cut, 2 any other. TKO is not asked to return. -/
def Chip.blankLeaves (c : Chip) (k : Fin 8) (cut : Bool) : Chip :=
  let c := if c.on F.HP_PSTAT_BLANK k then
      (c.set F.HP_PSTAT_BLANK 0 k).hpEvent k 0x10 [(4, (c.port k).blanked), (1, if cut then 1 else 2)] else c
  (((c.set F.HP_PSTAT_FILL 0 k).set F.HP_PSTAT_TEMP_LOST 0 k).set F.HP_PSTAT_WARN 0 k).serveSpreq

/-- A port leaves UP or a bring-up state for VACANT (0) or FAULT (6), without its event (R320, R322). -/
def Chip.portLeaves (c : Chip) (k : Fin 8) (st : Nat) (cut : Bool) : Chip :=
  let up := c.isUp k
  let c := if up then c.blankLeaves k cut else c
  let c := (c.heldLinesLost k).outputsOff k
  let c := (c.ldlRelease 0 k).enter k st
  if up then ((c.flwPortDown k).tkoPortDown k) else c

/-- Causes of PORT_VACANT. DESIGN CHOICE: R326 gives the record no codes. -/
def vacRemoved : Nat := 0
def vacPgood : Nat := 1
def vacLanes : Nat := 2
def vacDown : Nat := 3
def vacEn : Nat := 4
def vacAction : Nat := 5
def vacCut : Nat := 6
def vacSleep : Nat := 7

/-- The port leaves under R320; some causes keep it down until it is armed again (R321). -/
def Chip.portVacant (c : Chip) (k : Fin 8) (cause : Nat) : Chip :=
  let c := if cause = vacPgood ∨ cause = vacDown ∨ cause = vacAction ∨ cause = vacCut then
      c.setHp k { c.port k with arm := false, rearmAny := false } else c
  let st := c.portState k
  if st = 0 ∨ st = 6 then c
  else (c.portLeaves k 0 (cause = vacCut)).hpEvent k 0x02 [(1, cause)]

/-- Causes of PORT_FAULT. DESIGN CHOICE: the spec gives them names, not codes. -/
def faultPgood : Nat := 0
def faultTrain : Nat := 1
def faultRecord : Nat := 2
def faultToRange : Nat := 3
def faultAnswer : Nat := 4
def faultNoAnswer : Nat := 5
def faultGroups : Nat := 6

/-- The port goes to FAULT and records the cause (R289, R298, R322, R340). -/
def Chip.portFault (c : Chip) (k : Fin 8) (cause : Nat) (more : List (Nat × Nat) := []) : Chip :=
  let c :=
    if cause = faultTrain then c.set F.HP_STAT_TRAIN_FAIL 1 k
    else if cause = faultRecord then c.set F.HP_STAT_REC_BAD 1 k
    else if cause = faultToRange then c.set F.HP_STAT_TO_RANGE 1 k
    else if cause = faultAnswer then c.set F.HP_STAT_BAD_ANSWER 1 k
    else if cause = faultGroups then c.set F.HP_PSTAT_GROUPS 1 k else c
  (c.portLeaves k 6 false).hpEvent k 0x03 ((1, cause) :: more)

/-- A port whose conditions hold enters POWER (R288); one whose pads are held, or that prepare has stopped, does not (R554,
R566); one that a pending switch affects cold is held back (R409). -/
def Chip.startUp (c : Chip) (k : Fin 8) : Chip :=
  let p := c.port k
  if c.portState k = 0 ∧ c.on F.HP_CTRL_EN k ∧ c.on F.HP_STAT_PRES k ∧ p.arm ∧ c.up (8 + k) ∧ c.hasPort k
      ∧ !bitAt (c.get F.PAD_HOLD_HELD) k ∧ !c.pwr.ready.contains (9 + k) then
    if bitAt c.str.cold k then (c.setHp k { p with coldHold := true }).emit 0x0F08 [(1, k.val)]
    else ((c.setHp k { p with tries := 0, coldHold := false, pgoodAt := c.now }).set F.HP_STAT_EN_OUT 1 k).enter k 1
  else c

/-- HPk_CTRL.EN goes from 0 to 1, or is written with 1 after a failed attempt (R288, R289, R321, R322). -/
def Chip.portRearm (c : Chip) (k : Fin 8) : Chip :=
  let c := c.setHp k { c.port k with arm := true, rearmAny := false }
  (if c.portState k = 6 then c.enter k 0 else c).startUp k

/-! ### The link -/

/-- Blocks times of n consecutive blocks on the lanes in use, in press-time units (R283). -/
def Chip.blockTime (c : Chip) (k : Fin 8) (n : Nat) : Nat :=
  ns 33 * (if c.get F.HP_STAT_LANES k = 3 then (n + 1) / 2 else n)

/-- Segments and commands of which a block left in the last microsecond (R314). -/
def Chip.sentLately (c : Chip) (p : PortSt) : List (Nat × Nat) := p.recent.filter (fun x => decide (c.now < x.1 + us 1))

/-- Whether the port or its head holds a line that names a shape bank (R300). -/
def PortSt.namesBank (p : PortSt) (b : Nat) : Bool :=
  p.queue.any (fun q => q.bank == b) || (p.xfer.any (fun x => x.bank == b))
    || p.held.toList.any (fun l => l.any (fun h => h.bank == b))

/-- Whether a command may be sent now: a shape only into a bank that no line names (R300); a lower timeout once every line
transferred before the change is fired (R343). -/
def PortSt.mayCommand (p : PortSt) (h : HeadCmd) : Bool :=
  if h.use = .commit ∨ h.use = .image then !p.namesBank (h.arg / 8 % 2)
  else if h.use = .timeout then
    match p.pendLine with
    | some l => p.held.toList.all (fun r => r.all (fun x => l < x.line))
    | none => true
  else true

/-- Send a command's blocks. -/
def Chip.sendCommand (c : Chip) (k : Fin 8) (h : HeadCmd) (tag : Nat) (resent : Bool) : Chip :=
  let blocks := 1 + (h.data.length + 7) / 8 + (if h.data.isEmpty then 0 else 1)
  let last := c.now + c.blockTime k blocks
  let p := c.port k
  let c := c.setHp k { p with
    wait := some { cmd := h, tag := tag, sentAt := last, resent := resent }, busyUntil := last, recent := c.sentLately p ++ [(last, 6)] }
  c.send "headCmd" ([k.val, h.opc, tag, (h.data.length + 7) / 8, h.arg] ++ h.data)

/-- The next command of the port leaves once no transfer is in progress and no answer is awaited (R291, R298). -/
def Chip.hpServe (c : Chip) (k : Fin 8) : Chip :=
  let p := c.port k
  match p.todo with
  | [] => c
  | h :: rest =>
    if p.wait.isNone && p.xfer.isNone && decide (p.busyUntil ≤ c.now) && p.mayCommand h && decide (3 ≤ c.portState k)
        && decide (c.portState k ≤ 5) then
      let tag := h.tag.getD p.cmdTag
      let p := { p with todo := rest, cmdTag := if h.tag.isSome then p.cmdTag else (p.cmdTag + 1) % 256
                        pendPhase := if h.use = .timeout then 1 else p.pendPhase }
      (c.setHp k p).sendCommand k h tag false
    else c

/-- Queue commands and send what may be sent. -/
def Chip.command (c : Chip) (k : Fin 8) (l : List HeadCmd) : Chip :=
  (c.setHp k { c.port k with todo := (c.port k).todo ++ l }).hpServe k

/-! ### The strobe watchdog limit (R341 to R343) -/

/-- A new LIMIT is carried to the head in the order of R343; while the port is not UP it applies at once. -/
def Chip.limitChanges (c : Chip) (k : Fin 8) (v : Nat) : Chip :=
  let p := c.port k
  if !c.isUp k then (c.setHp k { p with wdog := v, span := v, pendLimit := none }).flwBounds
  else if v = p.wdog ∧ v = p.span ∧ p.pendLimit.isNone then c
  else
    let lower := decide (v < p.wdog)
    let p := { p with
      pendLimit := some v, pendPhase := 0, pendLine := if lower then p.xferTop else none
      todo := p.todo.filter (fun h => h.use != .timeout)
      span := if lower then min p.span v else p.span, wdog := if lower then p.wdog else v }
    (c.setHp k p).flwBounds.command k [{ opc := 5, arg := v, use := .timeout }]

/-- At a line boundary an answered limit comes into force everywhere. -/
def Chip.limitBoundary (c : Chip) (k : Fin 8) : Chip :=
  let p := c.port k
  match p.pendLimit with
  | some v => if p.pendPhase = 2 then (c.setHp k { p with wdog := v, span := v, pendLimit := none, pendPhase := 0 }).flwBounds else c
  | none => c

/-- A write of HPk_WDOG.LIMIT: held at its ceiling, refused when the head or a shape in force does not allow it (R43, R343). -/
def Chip.wdogWrite (c : Chip) (k : Fin 8) (v : Nat) : Chip :=
  let ceil := c.get F.HP_PCEIL_WDOG_CEIL k
  let w := min v ceil
  let p := c.port k
  let toMax := ofBytesLE ((p.record.drop 0x3E).take 2)
  let spanBad := allRows.any (fun (r : Fin 6) => (List.range 13).any (fun s =>
    let f := shapeOf c.flw.sets[k] (c.rowChannel k r) s
    !f.isEmpty && decide (w < pulseSpan f + 20)))
  if v < 50 ∨ 800 < v ∨ (c.isUp k && decide (toMax < w)) ∨ spanBad then c.addSat F.HP_REJ_CNT_COUNT 1 k
  else
    let c := if ceil < v then (c.set F.HP_PSTAT_LOOP_SAT 1 k).hpEvent k 0x14 else c
    (c.set F.HP_WDOG_LIMIT w k).limitChanges k w

end Sys2Proof.Machine
end

