-- ==== Sys2Proof/Machine/HpLines.lean ====
section
/-!
DEFINITION. A port line at its port: line events, the line transfer, segments and strobes (R36 to R40, R54, R266, R291 to
R306, R335 to R338, R346 to R350).
-/

namespace Sys2Proof.Machine

/-- SKIP for the rows of the lines of a port that meet p, held by the head or still to be sent (R296). -/
def Chip.skipLines (c : Chip) (k : Fin 8) (p : Int → Bool) : Chip :=
  let q := c.port k
  let here := q.held.toList.any (fun l => l.any (fun h => p h.line)) || q.xfer.any (fun x => p x.line)
  if here then
    let lines := q.sent.filter (fun s => p s.line)
    let c := c.setHp k { q with held := q.held.map (fun l => l.filter (fun h => !p h.line)), xfer := q.xfer.filter (fun x => !p x.line) }
    lines.foldl (fun c s => c.send "skip" [k.val, s.ltag, 63]) c
  else c

/-- A port does not fire a line it should fire: a dropped line for its items, its groups skipped (R36, R40, R54, R216). -/
def Chip.lineNotFired (c : Chip) (k : Fin 8) (n : Int) : Chip := (c.portLineLost k n).skipGroups k n

/-! ### Line events at the port (R39, R40) -/

/-- A line event reaches a port that fires nothing: its line is past. -/
def Chip.eventAtVacant (c : Chip) (k : Fin 8) (e : LineEvent) : Chip :=
  let p := c.port k
  let c := c.setHp k { p with xferTop := some (match p.xferTop with | some l => max l e.line | none => e.line) }
  let due := if c.isFenced k then parityFires (c.homeSet k) e.line && c.get F.TKO_STAT_STATE != 4 else c.portFires k e.line
  if due && c.portEnabled k && !e.drop then c.lineNotFired k e.line else c

/-- A line event that the port takes (R39, R40, R125, R296). -/
def Chip.eventTaken (c : Chip) (k : Fin 8) (e : LineEvent) : Chip :=
  let p := c.port k
  let fires := c.portFires k e.line
  let gone := fun (c : Chip) => ((c.setHp k { p with gone := e.line :: p.gone }).skipLines k (fun n => n == e.line))
  if e.drop then (if fires then (gone c).skipGroups k e.line else c)
  else if c.firstDue k e < c.nowQ then
    if fires then ((gone c).lineNotFired k e.line).hpEvent k 0x08 else c
  else c.setHp k { p with events := ((p.events ++ [e]).reverse.take 64).reverse }

/-- The oldest line event on its way to port k arrives. Warming stops (R272), and what it used is charged (R335). -/
def Chip.eventArrives (c : Chip) (k : Fin 8) : Chip :=
  match c.trk.way[k] with
  | [] => c
  | e :: rest =>
    let c := { c with trk := { c.trk with way := c.trk.way.set k rest } }
    let c := (c.warmStop k 3).warmCharge k e.line
    if c.isUp k && !c.isFenced k then c.eventTaken k e else c.eventAtVacant k e

/-! ### The transfer start (R294) -/

/-- The next port line of the port: the lowest it fires above those whose transfer has started. -/
def Chip.nextTransfer (c : Chip) (k : Fin 8) : Option Int :=
  let p := c.port k
  match p.xferTop with
  | some l => c.firedFrom k (l + 1)
  | none => ((p.events.map LineEvent.line ++ p.gone).filter (c.portFires k)).foldl (fun (a : Option Int) n => some (match a with | some b => min b n | none => n)) none

/-- Whether a port holds, or has seen, the event of a line. -/
def PortSt.knows (p : PortSt) (n : Int) : Bool := (p.eventOf n).isSome || p.gone.contains n

/-- Whether the transfer of port line m may start now: at the due time of the first symbol of the port line before, or, without
the event of that line, once the event of m is held. -/
def Chip.transferDue (c : Chip) (k : Fin 8) (m : Int) : Bool :=
  let p := c.port k
  let before := match p.xferTop with
    | some l => (p.events.filter (fun (e : LineEvent) => decide (e.line ≤ l) && c.portFires k e.line)).getLast?
    | none => none
  match before with
  | some e => if p.xferTop = some e.line then decide (c.firstDue k e ≤ c.nowQ) else p.knows m
  | none => p.knows m

/-- Take line m out of the line queue. -/
def Chip.unqueue (c : Chip) (k : Fin 8) (m : Int) : Chip :=
  let p := c.port k
  c.setHp k { p with queue := p.queue.filter (fun q => m < q.line), xferTop := some m, gone := p.gone.filter (fun n => m < n) }

/-- Whether a line is withheld by thermal blanking, or because the other side still fires for the port (R346, R349). -/
def Chip.withheld (c : Chip) (k : Fin 8) (m : Int) : Bool :=
  let p := c.port k
  let back := match p.resumeAt with | some r => decide (r ≤ m) | none => false
  let blanked := c.on F.HP_PSTAT_BLANK k && (match p.blankFrom with | some b => decide (b ≤ m) | none => true)
  blanked || (p.fillFrom.isSome && !back)

/-- A line is blanked (R346, R350): counted when it has the port's own parity, reported when no side fires it. -/
def Chip.blankLine (c : Chip) (k : Fin 8) (m : Int) : Chip :=
  let p := c.port k
  let own := parityFires (c.homeSet k) m
  let c := if c.on F.HP_PSTAT_BLANK k ∧ own then (c.addSat F.HP_BLANK_CNT_COUNT 1 k).setHp k { p with blanked := p.blanked + 1 } else c
  let c := c.skipGroups k m
  let filled := match p.fillFrom with | some n => decide (n ≤ m) | none => false
  if filled then c else c.markCarried [k] m (Account.flag flagBlank)

/-- The return line of a fill is reached: the port fires again (R349). -/
def Chip.fillOver (c : Chip) (k : Fin 8) (m : Int) : Chip :=
  let p := c.port k
  match p.fillFrom, p.resumeAt with
  | some _, some r => if r ≤ m then (c.setHp k { p with fillFrom := none, resumeAt := none, blankFrom := none }).set F.HP_PSTAT_FILL 0 k else c
  | _, _ => c

/-! ### The group count (R337, R338) -/

/-- The allowance of port k in 0.25 mA (R337). -/
def Chip.allowance (c : Chip) (k : Fin 8) : Nat :=
  let b := c.get F.HP_BAR_BAR k
  (c.get F.LDL_BAR_BUD_BUD b - c.get F.LDL_BAR_HELD_HELD b) * c.get F.HP_BAR_SHARE k / 1000 * 400

/-- The heater current of a nozzle of an ink channel in 0.25 mA. -/
def Chip.heaterCurrent (c : Chip) (k : Fin 8) (ic : Nat) : Nat :=
  let w := if ic < 4 then c.word (R.HP_IW_A.at k.val 0) else c.word (R.HP_IW_B.at k.val 0)
  bitsOf w.toNat (8 * (ic % 4) + 7) (8 * (ic % 4))

/-- How many words of a row in group g of G groups are shaped. -/
def shapedIn (words : List Nat) (groups g : Nat) : Nat := (words.zipIdx.filter (fun x => x.2 % groups == g && (shapeIndex x.1).isSome)).length

/-- The largest group current of a line with G groups (R338). -/
def Chip.groupCurrent (c : Chip) (k : Fin 8) (words : List (List Nat)) (groups : Nat) : Nat :=
  ((List.range groups).map (fun (g : Nat) =>
    (allRows.map (fun (r : Fin 6) => shapedIn (words.getD r []) groups g * c.heaterCurrent k (c.rowChannel k r))).sum)).foldl max 0

/-- The greatest and the least G the port may choose, coded as G_BASE. -/
def Chip.greatestG (c : Chip) (k : Fin 8) : Nat := if bitAt (c.get F.HP_HEAD_INFO_CAPS k) 0 then 2 else 1
def Chip.leastG (c : Chip) (k : Fin 8) : Nat := min (c.get F.HP_GRP_G_BASE k) (c.greatestG k)

/-- The G of a line (R338). -/
def Chip.chooseG (c : Chip) (k : Fin 8) (words : List (List Nat)) : Nat :=
  let fits := [0, 1, 2].filter (fun g => decide (c.leastG k ≤ g) && decide (g ≤ c.greatestG k)
    && decide (c.groupCurrent k words (4 * 2 ^ g) ≤ c.allowance k))
  fits.headD (c.greatestG k)

/-! ### The cold remap (R266) -/

/-- The remap is due: no strobe since bring-up, or the last one GAP µs or more ago. -/
def Chip.coldGap (c : Chip) (k : Fin 8) : Bool := !c.flw.everFired[k] || decide (c.flw.lastStrobe[k] + us (c.get F.FLW_GAP_GAP) ≤ c.now)

/-- The class of a word with d ≠ 0 through MAP. -/
def coldWord (map w : Nat) : Nat := if w / 4 = 0 then w else w / 4 * 4 + bitsOf map (2 * (w % 4) + 1) (2 * (w % 4))

/-- The words of a line as they leave, and the count of lines still to remap. -/
def Chip.coldRemap (c : Chip) (k : Fin 8) (words : List (List Nat)) : Chip × List (List Nat) :=
  let start := c.flw.coldLeft[k] = 0 ∧ c.coldGap k
  let left := if start then c.get F.FLW_COLDMAP_LINES else c.flw.coldLeft[k]
  let c := if start ∧ left ≠ 0 then (c.setBit F.FLW_STAT_COLD k true).emit 0x0D07 else c
  if left = 0 then (c.setBit F.FLW_STAT_COLD k false, words)
  else (c.setFlw { c.flw with coldLeft := c.flw.coldLeft.set k (left - 1) }, words.map (fun l => l.map (coldWord (c.get F.FLW_COLDMAP_MAP))))

/-! ### The transfer -/

/-- The trim of a row at a transfer start: its channel's, within the bounds of that moment (R255, R261, R343). -/
def Chip.rowTrim (c : Chip) (k : Fin 8) (r : Fin 6) : Int :=
  let ic := c.rowChannel k r
  if h : ic < 6 then clampInt (c.bounds ic).1 (c.bounds ic).2 (c.loop k ⟨ic, h⟩).trim else 0

/-- The rows that fire (R131) in the order of their first strobes, ties in row number (R292). -/
def Chip.rowOrder (c : Chip) (k : Fin 8) (m : Int) : List Nat :=
  match (c.port k).predict m with
  | none => (c.firingRows k c.trk.bank).map Fin.val
  | some e =>
    ((c.firingRows k e.bank).mergeSort (fun (a b : Fin 6) => decide (c.rowDue k e a < c.rowDue k e b)
      || (decide (c.rowDue k e a = c.rowDue k e b) && decide (a.val ≤ b.val)))).map Fin.val

/-- Two lanes again, at the start of the next transfer (R315). -/
def Chip.lanesRestored (c : Chip) (k : Fin 8) : Chip :=
  let p := c.port k
  if p.restore then
    let c := c.setHp k { p with restore := false, retrainDue := none }
    if c.get F.HP_XLINK_FORCE k = 0 then ((c.set F.HP_STAT_LANES 3 k).send "align" [k.val, 3, 0]).hpEvent k 0x05 else c
  else c

/-- The transfer of a queued line starts (R287, R291, R292, R338). -/
def Chip.transferLine (c : Chip) (k : Fin 8) (l : PortLine) : Chip :=
  let x := (c.lanesRestored k).coldRemap k l.words
  let c := x.1
  let g := c.chooseG k x.2
  let c := (if c.get F.HP_GRP_G_BASE k < g then c.addSat F.HP_SPREAD_CNT_COUNT 1 k else c).set F.HP_GRP_G_NOW g k
  let p := c.port k
  let t : Transfer := { line := l.line, ltag := p.ltag, rows := c.rowOrder k l.line, words := x.2, g := g
                        trims := allRows.map (fun (r : Fin 6) => c.rowTrim k r), bank := l.bank, started := c.now }
  let c := c.setHp k { p with
    ltag := (p.ltag + 1) % 4096, xfer := some t, sent := (⟨l.line, p.ltag, l.sensed⟩ :: p.sent).take 64 }
  c.send "sns" ([k.val, p.ltag] ++ l.sensed)

/-- The transfer start of the port's next line m. -/
def Chip.transferAt (c : Chip) (k : Fin 8) (m : Int) : Chip :=
  let l := (c.port k).queue.find? (fun q => q.line == m)
  let dropped := (c.port k).gone.contains m
  let c := (((c.unqueue k m).limitBoundary k).fillOver k m)
  if dropped then c
  else if !c.timeValid (8 + k) then c.lineNotFired k m
  else if c.withheld k m then c.blankLine k m
  else match l with
    | none => (c.lineNotFired k m).hpEvent k 0x07
    | some l => c.transferLine k l

/-- Whether the transfer of line m starts now. -/
def Chip.transferStarts (c : Chip) (k : Fin 8) (m : Int) : Bool :=
  c.isUp k && !c.isFenced k && (c.port k).xfer.isNone && c.transferDue k m

/-- The port starts its next line transfer if it is due; a new FIRE trim applies from it (R670). -/
def Chip.transferStart (c : Chip) (k : Fin 8) : Chip :=
  if c.isUp k && !c.isFenced k && (c.port k).xfer.isNone then
    match c.nextTransfer k with
    | some m => if c.transferDue k m then (c.bring (R.HP_FTRIM.at k 0)).transferAt k m else c
    | none => c
  else c

/-! ### Segments (R291 to R295) -/

/-- The nibbles of a row as bytes: column 2i in bits [3:0] of byte i (R291). -/
def nibbleBytes : List Nat → List Nat
  | a :: b :: r => (a + 16 * b) :: nibbleBytes r
  | [a] => [a]
  | [] => []

/-- CRC-16 of R286, one byte. -/
def crc16Byte (crc b : Nat) : Nat :=
  (List.range 8).foldl (fun x _ => if bitAt x 15 then (2 * x % 65536).xor 0x1021 else 2 * x % 65536) (crc.xor (b * 256))
def crc16 (l : List Nat) : Nat := l.foldl crc16Byte 0xFFFF

/-- A transfer is over once every row is sent or skipped. -/
def Chip.transferRest (c : Chip) (k : Fin 8) (t : Transfer) (rest : List Nat) : Chip :=
  let p := c.port k
  if rest = [] then ((c.setHp k { p with xfer := none }).addWrap F.HP_LINES_COUNT 1 k).hpServe k
  else c.setHp k { p with xfer := some { t with rows := rest } }

/-- SKIP for a row in place of its segment (R295). -/
def Chip.segmentLate (c : Chip) (k : Fin 8) (t : Transfer) (r : Nat) : Chip :=
  let c := ((c.addSat F.HP_LATE_CNT_COUNT 1 k).set F.HP_STAT_SEG_LATE 1 k).send "skip" [k.val, t.ltag, 2 ^ r]
  (c.hpEvent k 0x06 [(2, t.ltag), (1, r)]).portLineLost k t.line

/-- The port sends the segment of the next row of its transfer once the row's slot is free, or SKIP when it cannot complete it
before the row's first strobe. -/
def Chip.segmentSend (c : Chip) (k : Fin 8) : Chip :=
  let p := c.port k
  match p.xfer with
  | none => c
  | some t =>
    match t.rows with
    | [] => c.transferRest k t []
    | r :: rest =>
      if h : r < 6 then
        let row : Fin 6 := ⟨r, h⟩
        let dur := c.blockTime k 81
        let late := match p.predict t.line with
          | some e => decide (c.strobeAt k e row 0 < ((max c.now p.busyUntil + dur : Nat) : Rat) / (2 ^ 32 : Nat))
          | none => false
        if late then (c.segmentLate k t r).transferRest k t rest
        else if p.held[row].length < 2 ∧ p.busyUntil ≤ c.now then
          let done := c.now + dur
          let bytes := nibbleBytes (t.words.getD r [])
          let c := c.setHp k { p with
            held := p.held.set row (p.held[row] ++ [{ line := t.line, ltag := t.ltag, groups := 4 * 2 ^ t.g, bank := t.bank }])
            busyUntil := done, recent := c.sentLately p ++ [(done, r)] }
          (c.send "segment" ([k.val, t.ltag, r, t.bank, t.g, unsigned 8 (t.trims.getD r 0), crc16 bytes] ++ bytes)).transferRest k t rest
        else c
      else c.transferRest k t rest

/-! ### Strobes (R303 to R306) -/

/-- The oldest line each row of the head holds, with the tap of its next group: row, slot, tap. -/
def Chip.nextStrobes (c : Chip) (k : Fin 8) : List (Fin 6 × HeldRow × Int) :=
  let p := c.port k
  allRows.filterMap (fun (r : Fin 6) =>
    match p.held[r] with
    | [] => none
    | h :: _ =>
      match p.eventOf h.line with
      | none => none
      | some e => if p.gone.contains h.line then none else some (r, h, tapOf (c.strobeAt k e r h.strobed)))

/-- The first symbol of a line: the line counts as fired (R215, R220, R229, R262, R361). -/
def Chip.lineStarts (c : Chip) (k : Fin 8) (n : Int) : Chip :=
  let p := c.port k
  let new := match p.firedTop with | some l => decide (l < n) | none => true
  if new then
    let sensed := ((p.sent.find? (fun s => s.line == n)).map SentLine.sensed).getD []
    let c := c.setHp k { p with firedTop := some n }
    let c := if (c.isPair k) then c.setTko { c.tko with lastFired := max c.tko.lastFired n } else c
    (c.lineFired k n sensed).flwNoReading k
  else c

/-- A row's strobe: the slot is freed at the line's last group (R297). -/
def PortSt.strobed (p : PortSt) (r : Fin 6) : PortSt :=
  match p.held[r] with
  | [] => p
  | h :: rest => { p with held := p.held.set r (if h.strobed + 1 = h.groups then rest else { h with strobed := h.strobed + 1 } :: rest) }

/-- A FIRE symbol at its edge: its row mask, the strobes merged into it. -/
def Chip.symbol (c : Chip) (k : Fin 8) (edge : Int) (rows : List (Fin 6 × HeldRow × Int)) : Chip :=
  let c := rows.foldl (fun c x => c.lineStarts k x.2.1.line) c
  let p := rows.foldl (fun p x => p.strobed x.1) (c.port k)
  let c := c.setHp k { p with lastSymbol := some edge }
  let c := c.setFlw { c.flw with lastStrobe := c.flw.lastStrobe.set k c.now, everFired := c.flw.everFired.set k true }
  let c := c.addSat F.HP_MERGE_CNT_COUNT (rows.length - 1) k
  (c.send "fire" [k.val, (rows.map (fun x => 2 ^ x.1.val)).sum, edge.toNat]).hpServe k

/-- The next FIRE symbol of the port, once its edge is reached (R304 to R306). A line that no row has begun is not fired while
TIME_VALID is 0 (R36). -/
def Chip.fireStrobe (c : Chip) (k : Fin 8) : Chip :=
  match (c.nextStrobes k) with
  | [] => c
  | x :: rest =>
    let first := rest.foldl (fun m y => min m y.2.2) x.2.2
    let edge := match (c.port k).lastSymbol with | some l => max first (l + 160) | none => first
    if c.nowTaps < edge || !c.isUp k || (c.port k).wdogHeld then c
    else
      let now := (x :: rest).filter (fun y => decide (y.2.2 < edge + 160))
      if c.timeValid (8 + k) then c.symbol k edge now
      else
        let fresh := fun (n : Int) => match (c.port k).firedTop with | some l => decide (l < n) | none => true
        let lost := ((now.map (fun y => y.2.1.line)).filter fresh).eraseDups
        let c := lost.foldl (fun c n => (c.skipLines k (fun m => m == n)).lineNotFired k n) c
        let go := now.filter (fun y => !fresh y.2.1.line)
        if go.isEmpty then c else c.symbol k edge go

end Sys2Proof.Machine
end

