-- ==== Sys2Proof/Machine/HpLink.lean ====
section
/-!
DEFINITION. The head link beside the line path: bring-up, answers, lanes, the head memory record, temperatures, blanking and
the supply cut (R287 to R290, R298 to R300, R308, R311 to R322, R340 to R353).
-/

namespace Sys2Proof.Machine

/-! ### Bring-up (R288, R289) -/

/-- HPk_PRES_L changes level. A head inserted again lets a port in FAULT leave it (R321, R322). -/
def Chip.presChange (c : Chip) (k : Fin 8) (low : Bool) : Chip :=
  let p := c.port k
  if p.presLow = low then c
  else if low then
    let c := c.setHp k { p with presLow := true, presSince := c.now, arm := c.on F.HP_CTRL_AUTO_UP k, rearmAny := false }
    if c.portState k = 6 then c.enter k 0 else c
  else c.setHp k { p with presLow := false, presSince := c.now }

/-- HPk_PRES_L has been low for PRES_DB ms. -/
def Chip.presAccepted (c : Chip) (k : Fin 8) : Chip :=
  let p := c.port k
  if p.presLow ∧ p.presSince + ms (c.get F.HP_HOT_PRES_DB k) ≤ c.now then (c.set F.HP_STAT_PRES 1 k).startUp k else c

/-- HPk_PRES_L has been high for 20 µs (R320). -/
def Chip.headRemoved (c : Chip) (k : Fin 8) : Chip :=
  let p := c.port k
  if !p.presLow ∧ p.presSince + us 20 ≤ c.now then (c.set F.HP_STAT_PRES 0 k).portVacant k vacRemoved else c

/-- HPk_PGOOD goes high. -/
def Chip.pgoodRise (c : Chip) (k : Fin 8) : Chip :=
  let c := c.set F.HP_STAT_PGOOD 1 k
  if c.portState k = 1 then c.setHp k { c.port k with pgoodAt := c.now } else c

/-- HPk_PGOOD has been low for 10 µs (R320). A port in POWER that has not seen it high still waits for it (R288). -/
def Chip.pgoodLost (c : Chip) (k : Fin 8) : Chip :=
  let waits := c.portState k == 1 && !c.on F.HP_STAT_PGOOD k
  let c := c.set F.HP_STAT_PGOOD 0 k
  if waits then c else c.portVacant k vacPgood

/-- HPk_PGOOD has not come within PG_TO ms (R289). -/
def Chip.pgoodTimeout (c : Chip) (k : Fin 8) : Chip :=
  let p := c.port k
  if c.portState k = 1 ∧ !c.on F.HP_STAT_PGOOD k ∧ p.stateAt + ms (c.get F.HP_HOT_PG_TO k) ≤ c.now then
    ((c.setHp k { p with arm := false, rearmAny := true }).portLeaves k 0 false).hpEvent k 0x03 [(1, faultPgood)]
  else c

/-- 1 ms after HPk_PGOOD the lanes start; a watchdog that held FIRE low lets go (R288, R341). -/
def Chip.trainStart (c : Chip) (k : Fin 8) : Chip :=
  let p := c.port k
  if c.portState k = 1 ∧ c.on F.HP_STAT_PGOOD k ∧ p.pgoodAt + ms 1 ≤ c.now then
    (((c.setHp k { p with tries := 1, wdogHeld := false, locked := 0 }).set F.HP_STAT_LANES 3 k).enter k 2)
  else c

/-- IDENT begins with a PING. -/
def Chip.identify (c : Chip) (k : Fin 8) : Chip :=
  let p := c.port k
  let c := c.setHp k { p with record := [], todo := [], wait := none }
  ((c.set F.HP_STAT_LANES p.locked k).enter k 3).command k [{ opc := 1, arg := 0, use := .bringUp }]

/-- Symbol lock and LINK_READY are both there (R288). -/
def Chip.trained (c : Chip) (k : Fin 8) : Chip :=
  if c.portState k = 2 ∧ c.on F.HP_STAT_BC_LOCK k ∧ (c.port k).locked ≠ 0 then c.identify k else c

/-- The port gains symbol lock on HPk_BC. -/
def Chip.symbolLock (c : Chip) (k : Fin 8) : Chip :=
  if c.portState k = 2 then (c.set F.HP_STAT_BC_LOCK 1 k).trained k else c

/-- Symbol lock or LINK_READY has not come within 1.5 ms of the start of TRAIN (R288, R289). -/
def Chip.trainTimeout (c : Chip) (k : Fin 8) : Chip :=
  let p := c.port k
  if c.portState k = 2 ∧ p.stateAt + us 1500 ≤ c.now then
    if p.tries < 3 then
      (c.setHp k { p with tries := p.tries + 1, locked := 0, stateAt := c.now + us 100 }).set F.HP_STAT_BC_LOCK 0 k
    else c.portFault k faultTrain
  else c

/-! ### The record (R316, R318, R319, R340) -/

/-- A little-endian field of the record. -/
def recField (l : List Nat) (off size : Nat) : Nat := ofBytesLE ((l.drop off).take size)

/-- Whether the length field of a record is in range. -/
def recLenOk (n : Nat) : Bool := decide (0x388 ≤ n) && decide (n ≤ 0x1000) && n % 8 == 0

/-- The record is refused (R318). -/
def recBad (l : List Nat) : Bool :=
  let len := recField l 6 2
  !(l.take 4 == [0x4A, 0x58, 0x48, 0x52]) || l.getD 4 0 != 1 || l.getD 5 0 != 6 || !recLenOk len
    || decide (len - 4 < 0x380 + 2 * recField l 0x1E 2) || crc32 (l.take (len - 4)) != recField l (len - 4) 4
    || !bitAt (recField l 0xE 2) 1 || !bitAt (recField l 0xE 2) 2

/-- The commands that ask for the next words of the record. -/
def readNext (len have' : Nat) : HeadCmd :=
  { opc := 3, arg := have' + 4096 * min 16 ((len - have') / 8), use := .bringUp }

/-- The bound of R340 fails for a head without 16 groups. -/
def Chip.groupsBad (c : Chip) (k : Fin 8) : Bool :=
  let b := c.get F.HP_BAR_BAR k
  let sum := ((List.range 6).map (c.heaterCurrent k)).sum
  decide (c.get F.LDL_BAR_BUD_FIRE_RES b * c.get F.HP_BAR_SHARE k / 1000 * 400 < 160 * sum)

/-- The shapes that a bring-up loads into the bank not in use: the shadow set of a commit, the pending image's set, or the
set in force (R275, R276). -/
def Chip.otherSet (c : Chip) (k : Fin 8) : List (Nat × Word) :=
  match c.str.pendSet with
  | some s => s
  | none => if c.on F.FLW_SHSTAT_PENDING then c.shadowSet else c.flw.sets[k]

/-- LOAD: the map, the timeout, the shapes of both banks (R288). -/
def Chip.loadHead (c : Chip) (k : Fin 8) : Chip :=
  let n := c.asm[k].setNo
  (c.enter k 4).command k ([{ opc := 6, arg := c.str.img.rowIc[k], use := .bringUp }, { opc := 5, arg := (c.port k).wdog, use := .bringUp }]
    ++ c.shapeCommands k c.flw.sets[k] n .bringUp ++ c.shapeCommands k (c.otherSet k) (1 - n) .bringUp)

/-- The whole record is there: it is checked (R318, R289, R340). -/
def Chip.recordRead (c : Chip) (k : Fin 8) : Chip :=
  let l := (c.port k).record
  if recBad l then c.portFault k faultRecord
  else if recField l 0x3E 2 < (c.port k).wdog then c.portFault k faultToRange
  else if !bitAt (recField l 0xE 2) 0 ∧ c.groupsBad k then c.portFault k faultGroups
  else c.loadHead k

/-- Words of the record arrive. -/
def Chip.recordWords (c : Chip) (k : Fin 8) (bytes : List Nat) : Chip :=
  let p := c.port k
  let l := p.record ++ bytes
  let c := c.setHp k { p with record := l }
  let len := recField l 6 2
  if !recLenOk len then c.portFault k faultRecord
  else if l.length < len then c.command k [readNext len l.length]
  else c.recordRead k

/-- The energy weight of an ink channel from the record (R264): min(255, round(128 × R_NOM / R_c)). -/
def recWeight (l : List Nat) (row : Nat) : Nat :=
  let sum := ((List.range 16).map (fun h => recField l (0x40 + 32 * row + 2 * h) 2)).sum
  if sum = 0 then 255 else min 255 (roundDiv (((128 * 16 * recField l 0x38 2 : Nat)) : Int) sum).toNat

/-- FLW_EWk_A and FLW_EWk_B from the record; 0 for a channel that no row carries. -/
def Chip.loadWeights (c : Chip) (k : Fin 8) : Chip :=
  let l := (c.port k).record
  let w := fun (ic : Nat) => match allRows.find? (fun (r : Fin 6) => c.rowChannel k r == ic) with
    | some r => recWeight l r
    | none => 0
  (c.setWord (R.FLW_EW_A.at k.val 0) (BitVec.ofNat 32 (w 0 + 0x100 * w 1 + 0x10000 * w 2 + 0x1000000 * w 3))).setWord
    (R.FLW_EW_B.at k.val 0) (BitVec.ofNat 32 (w 4 + 0x100 * w 5))

/-- The factory-dead nozzles go to COL (R198, R319). -/
def Chip.factoryDead (c : Chip) (k : Fin 8) : Chip :=
  let l := (c.port k).record
  (List.range (recField l 0x1E 2)).foldl (fun c i =>
    let d := recField l (0x380 + 2 * i) 2
    (c.insertDead k (c.rowChannel k (bitsOf d 13 11)) (bitsOf d 10 0) 0 0).1) c

/-- A lane is down (R314): sticky bit and event. -/
def Chip.laneLost (c : Chip) (k : Fin 8) (lane : Nat) : Chip :=
  let p := c.port k
  let p := { p with retrainDue := some (p.retrainDue.getD (c.now + ms 100)) }
  ((c.setHp k p).set F.HP_STAT_LANE_LOST 1 k).hpEvent k 0x04

/-- The port enters UP (R319). -/
def Chip.portUp (c : Chip) (k : Fin 8) : Chip :=
  let p := c.port k
  let l := p.record
  let c := (c.set F.HP_HEAD_ID_VENDOR (recField l 8 2) k).set F.HP_HEAD_ID_MODEL (recField l 0xA 2) k
  let c := (c.set F.HP_HEAD_SN_LO_SN_LO (recField l 0x10 4) k).set F.HP_HEAD_SN_HI_SN_HI (recField l 0x14 4) k
  let c := ((c.set F.HP_HEAD_INFO_HWREV (recField l 0xC 2) k).set F.HP_HEAD_INFO_RANK (recField l 0x1C 1) k).set F.HP_HEAD_INFO_CAPS (recField l 0xE 1) k
  let c := c.setHp k { p with lastFrame := c.now, firedTop := none, lastSymbol := none, frameOk := true }
  let c := ((c.factoryDead k).loadWeights k).enter k 5
  let c := ((c.flwPortUp k).tkoPortUp k).hpEvent k 0x01 [(2, recField l 8 2), (2, recField l 0xA 2), (1, c.get F.HP_STAT_LANES k)]
  if p.locked = 3 then c else c.laneLost k (if bitAt p.locked 0 then 1 else 0)

/-! ### Answers (R289, R298 to R300) -/

/-- Remove the queued commands of a use from every port. -/
def Chip.dropCommands (c : Chip) (u : CmdUse) : Chip :=
  { c with hp := c.hp.map (fun p => { p with todo := p.todo.filter (fun h => h.use != u) }) }

/-- The bytes of answer words. -/
def answerBytes (data : List Nat) : List Nat := (data.map (bytesLE 8)).flatten

/-- An answer during IDENT and LOAD. -/
def Chip.bringUpAnswer (c : Chip) (k : Fin 8) (w : CmdWait) (status : Nat) (data : List Nat) : Chip :=
  if status ≠ 0 then
    let c := if w.cmd.opc = 4 ∧ status = 5 then c.hpEvent k 0x0B else c
    c.portFault k faultAnswer [(1, w.cmd.opc), (1, status)]
  else if w.cmd.opc = 1 then
    if data.length = 1 ∧ data.headD 0 % 2 ^ 32 = w.cmd.arg then c.command k [readNext 128 0]
    else c.portFault k faultAnswer [(1, 1), (1, 0)]
  else if w.cmd.opc = 3 then
    if data.length = bitsOf w.cmd.arg 19 12 then c.recordWords k (answerBytes data)
    else c.portFault k faultAnswer [(1, 3), (1, 0)]
  else if (c.port k).todo.isEmpty then c.portUp k else c.hpServe k

/-- A head refuses, or fails, a shape load of a commit or of a switch (R276, R300, R407). -/
def Chip.shapeRefused' (c : Chip) (k : Fin 8) (u : CmdUse) (status : Nat) : Chip :=
  let c := if status = 5 then c.hpEvent k 0x0B else c
  if u = .commit then (c.commitFail k).dropCommands .commit
  else Chip.dropCommands { c with str := { c.str with loadFail := some k.val } } .image

/-- The answer of an expert command (R325). -/
def Chip.expertAnswer (c : Chip) (k : Fin 8) (tag status : Nat) (data : List Nat) : Chip :=
  let c := c.setHp k { c.port k with xdata := answerBytes data }
  c.setWord (R.HP_XRSP.at k.val 0) (BitVec.ofNat 32 (2 ^ 31 + status % 256 * 2 ^ 16 + tag % 256 * 256 + data.length % 256))

/-- What an answer does, by the use of its command. -/
def Chip.answerTo (c : Chip) (k : Fin 8) (w : CmdWait) (tag status : Nat) (data : List Nat) : Chip :=
  match w.cmd.use with
  | .bringUp => c.bringUpAnswer k w status data
  | .expert => c.expertAnswer k tag status data
  | .commit =>
    if status ≠ 0 then c.shapeRefused' k .commit status
    else if (c.port k).todo.any (fun h => h.use == .commit) then c else c.commitLoaded k
  | .image => if status ≠ 0 then c.shapeRefused' k .image status else c
  | .timeout => if status = 0 then c.setHp k { c.port k with pendPhase := 2 } else c

/-- An answer arrives. During IDENT and LOAD, CRC and BUSY make the port send its command once more (R289). -/
def Chip.rspFrame (c : Chip) (k : Fin 8) (status tag : Nat) (data : List Nat) : Chip :=
  let p := c.port k
  match p.wait with
  | none => c
  | some w =>
    if w.tag ≠ tag then c
    else if (status = 3 ∨ status = 4) ∧ !w.resent ∧ (c.portState k = 3 ∨ c.portState k = 4) then
      (c.addSat F.HP_RESEND_CNT_COUNT 1 k).sendCommand k w.cmd w.tag true
    else ((c.setHp k { p with wait := none }).answerTo k w tag status data).hpServe k

/-- 100 µs pass without the answer: the command is sent once more, then the head has failed (R298). -/
def Chip.answerTimeout (c : Chip) (k : Fin 8) : Chip :=
  match (c.port k).wait with
  | none => c
  | some w =>
    if w.sentAt + us 100 ≤ c.now then
      if w.resent then
        let c := if w.cmd.use = .expert then c.set F.HP_XRSP_ERR 1 k else c
        let c := if w.cmd.use = .image then { c with str := { c.str with loadFail := some k.val } } else c
        c.portFault k faultNoAnswer
      else (c.addSat F.HP_RESEND_CNT_COUNT 1 k).sendCommand k w.cmd w.tag true
    else c

/-! ### Blanking and the supply cut (R346 to R353) -/

/-- The highest line whose first symbol lies at or before now. -/
def Chip.inProgress (c : Chip) (k : Fin 8) : Option Int :=
  let p := c.port k
  let started := (p.events.filter (fun (e : LineEvent) => c.portFires k e.line && !p.gone.contains e.line
      && p.held.toList.any (fun l => l.any (fun h => h.line == e.line)) && decide (c.firstDue k e ≤ c.nowQ))).map LineEvent.line
  started.foldl (fun (a : Option Int) n => some (match a with | some b => max b n | none => n)) p.firedTop

/-- The first line the port fires whose first symbol lies after now. -/
def Chip.firstAfterNow (c : Chip) (k : Fin 8) : Int :=
  let p := c.port k
  let next := match c.inProgress k with
    | some l => l + 1
    | none =>
      match (p.held.toList.flatten ++ []).map HeldRow.line with
      | n :: r => r.foldl min n
      | [] => (match p.xferTop with | some l => l + 1 | none => c.lastIssued + 1)
  (c.firedFrom k next).getD next

/-- Blanking starts (R346): lines the head holds are skipped, later ones withheld, the partner is asked to fill (R349). -/
def Chip.blankStart (c : Chip) (k : Fin 8) (th : Int) : Chip :=
  let b := c.firstAfterNow k
  let p := c.port k
  let inHead := (((p.held.toList.flatten.map HeldRow.line) ++ (p.xfer.toList.map Transfer.line)).filter (fun n => decide (b ≤ n))).eraseDups
  let c := (c.setHp k { p with blankFrom := some b, blanked := 0, resumeAt := none }).set F.HP_PSTAT_BLANK 1 k
  let c := c.hpEvent k 0x0F [(2, unsigned 16 th), (6, unsigned 48 b)]
  let c := inHead.foldl (fun c n => c.blankLine k n) (c.skipLines k (fun n => decide (b ≤ n)))
  (c.fillRequest k).serveSpreq

/-- Blanking ends with a clearing frame (R347). -/
def Chip.blankClear (c : Chip) (k : Fin 8) : Chip :=
  let p := c.port k
  let c := (c.set F.HP_PSTAT_BLANK 0 k).hpEvent k 0x10 [(4, p.blanked), (1, 0)]
  let c := c.setHp k { p with blanked := 0, blankFrom := if p.fillFrom.isSome then p.blankFrom else none }
  (if c.on F.HP_PSTAT_FILL k then c.fillEnd k else c).serveSpreq

/-- The head supply is cut (R351): causes 1 T_CRIT, 2 OVERTEMP, 4 watchdog. -/
def Chip.supplyCut (c : Chip) (k : Fin 8) (causes : Nat) : Chip :=
  let c := (c.set F.HP_PSTAT_CUT 1 k).hpEvent k 0x11 [(1, causes)]
  c.portVacant k vacCut

/-- The hottest row of a frame: the first of the greatest. -/
def hottest (temps : List Int) : Int × Nat :=
  (temps.zipIdx.drop 1).foldl (fun m x => if m.1 < x.1 then x else m) (temps.headD 0, 0)

/-- Head protection evaluates a valid frame (R344 to R348, R352). -/
def Chip.tempEval (c : Chip) (k : Fin 8) (temps : List Int) : Chip :=
  let h := hottest temps
  let hyst : Int := c.get F.HP_TWARN_T_HYST k
  let warn := signed 12 (c.get F.HP_TWARN_T_WARN k)
  let lim := signed 12 (c.get F.HP_TLIM_T_LIMIT k)
  let c := (c.set F.HP_TEMP_T_H (unsigned 12 h.1) k).set F.HP_TEMP_ROW h.2 k
  let c := c.set F.HP_PSTAT_TEMP_LOST 0 k
  let c := if warn ≤ h.1 ∧ !c.on F.HP_PSTAT_WARN k then (c.set F.HP_PSTAT_WARN 1 k).hpEvent k 0x0E [(2, unsigned 16 h.1), (1, h.2)]
    else if h.1 < warn - hyst then c.set F.HP_PSTAT_WARN 0 k else c
  if signed 12 (c.get F.HP_TLIM_T_CRIT k) ≤ h.1 then c.supplyCut k 1
  else if c.on F.HP_PSTAT_BLANK k then (if h.1 < lim - hyst then c.blankClear k else c)
  else if lim ≤ h.1 then c.blankStart k h.1
  else c

/-- No valid frame for TLOST × 100 µs (R348). -/
def Chip.tempTimeout (c : Chip) (k : Fin 8) : Chip :=
  if c.isUp k ∧ !c.on F.HP_PSTAT_TEMP_LOST k ∧ (c.port k).lastFrame + us (100 * c.get F.HP_XPROT_TLOST k) ≤ c.now then
    let c := (c.set F.HP_PSTAT_TEMP_LOST 1 k).hpEvent k 0x12
    if c.on F.HP_PSTAT_BLANK k then c else c.blankStart k (signed 12 (c.get F.HP_TEMP_T_H k))
  else c

/-- FIRE has been high for the watchdog's limit (R341): it holds FIRE low and cuts the supply. `high` in 10 ns units. -/
def Chip.wdogAct (c : Chip) (k : Fin 8) (high : Nat) : Chip :=
  if (c.port k).wdog ≤ high then
    let c := (c.setHp k { c.port k with wdogHeld := true }).set F.HP_PSTAT_WDOG 1 k
    if c.on F.HP_STAT_EN_OUT k then c.supplyCut k 4 else c
  else c

/-! ### Back-channel frames (R309, R311) -/

/-- A frame is discarded: counted, recorded at the first after a valid one. -/
def Chip.frameBad (c : Chip) (k : Fin 8) (crc : Bool) : Chip :=
  let c := if crc then c.addSat F.HP_BCERR_CNT_CRC 1 k else c.addSat F.HP_BCERR_CNT_FORMAT 1 k
  let c := c.set F.HP_STAT_BC_CRC 1 k
  if (c.port k).frameOk then (c.setHp k { c.port k with frameOk := false }).hpEvent k 0x09 else c

/-- A frame arrives: nothing is heard before TRAIN; a bad one is discarded; a good one is taken by f. -/
def Chip.frame (c : Chip) (k : Fin 8) (q : FrameCheck) (f : Chip → Chip) : Chip :=
  if c.portState k < 2 ∨ 5 < c.portState k then c
  else match q with
    | .badCrc => c.frameBad k true
    | .badForm => c.frameBad k false
    | .good => f (c.setHp k { c.port k with frameOk := true })

/-- The temperatures of a LINE or IDLE frame while the port is UP: to FLW, then to head protection. -/
def Chip.temperatures (c : Chip) (k : Fin 8) (temps : List Int) : Chip :=
  if c.isUp k then
    let c := c.setHp k { c.port k with lastFrame := c.now }
    let c := if c.up 5 then ((c.flwFrame k temps).warmCheck k).warmAsk k else c
    c.tempEval k temps
  else c

/-- A LINE frame: its signatures go to NZH, its temperatures to FLW and head protection. -/
def Chip.lineFrame (c : Chip) (k : Fin 8) (ltag : Nat) (temps : List Int) (sigs : List Signature) : Chip :=
  let c := match (c.port k).sent.find? (fun s => s.ltag == ltag) with
    | some s => if c.isUp k && c.up 5 then c.nzhFrame k s.line sigs else c
    | none => c
  c.temperatures k temps

/-- An EVT frame (R309, R311, R288, R351). -/
def Chip.evtFrame (c : Chip) (k : Fin 8) (code detail : Nat) : Chip :=
  let c := (c.set F.HP_STAT_HEAD_EVT 1 k).hpEvent k 0x0A [(1, code), (2, detail)]
  if code = 1 then
    if c.portState k = 2 then (c.setHp k { c.port k with locked := detail % 4 }).trained k else c
  else if code = 4 then c.set F.HP_STAT_HEAD_TO 1 k
  else if code = 6 then c.supplyCut k 2
  else c

/-! ### Lanes (R312 to R315) -/

/-- Rows whose segment, sent or resent on one lane, misses its first strobe are skipped (R295, R314). -/
def Chip.resendRow (c : Chip) (k : Fin 8) (r : Nat) (done : Nat) : Chip :=
  if h : r < 6 then
    let row : Fin 6 := ⟨r, h⟩
    let p := c.port k
    match p.held[row].getLast? with
    | some x =>
      let late := match p.predict x.line with
        | some e => decide (c.strobeAt k e row 0 < ((done : Nat) : Rat) / (2 ^ 32 : Nat))
        | none => false
      if late && x.strobed == 0 then
        let t : Transfer := { line := x.line, ltag := x.ltag, rows := [], words := [], g := 0, trims := [], bank := 0, started := 0 }
        (c.setHp k { p with held := p.held.set row p.held[row].dropLast }).segmentLate k t r
      else c
    | none => c
  else c

/-- The port goes on on one lane and resends what left in the last microsecond (R314). -/
def Chip.oneLane (c : Chip) (k : Fin 8) (lanes : Nat) : Chip :=
  let p := c.port k
  let again := c.sentLately p
  let c := (c.set F.HP_STAT_LANES lanes k).send "align" [k.val, lanes, 1]
  if c.on F.HP_XLINK_NO_RESEND k ∨ again.isEmpty then c
  else
    let c := c.addSat F.HP_RESEND_CNT_COUNT again.length k
    let t := c.blockTime k 81
    let x := again.foldl (fun (x : Chip × Nat) a => let done := x.2 + t; (x.1.resendRow k a.2 done, done)) (c, c.now)
    x.1.setHp k { x.1.port k with busyUntil := x.2 }

/-- The head's lane alert (R312, R314, R315). A lane that CAL has taken off for its sweep is not lost (R675). -/
def Chip.laneAlert (c : Chip) (k : Fin 8) (locked : Nat) : Chip :=
  if c.portState k < 3 ∨ 5 < c.portState k then c
  else
    let was := (c.port k).locked
    let c := c.setHp k { c.port k with locked := locked % 4 }
    let swept := c.cal.laneOff && c.get F.CAL_STAT_TARGET == k.val
    let down := fun (c : Chip) (l : Nat) => if bitAt was l ∧ !bitAt locked l ∧ !(swept && !bitAt (c.get F.HP_STAT_LANES k) l) then
        (if l = 0 then c.addSat F.HP_LANEERR_D0 1 k else c.addSat F.HP_LANEERR_D1 1 k).laneLost k l else c
    let c := down (down c 0) 1
    let lanes := c.get F.HP_STAT_LANES k
    let rest := lanes &&& locked
    if rest = lanes then c
    else if rest = 0 then c.portVacant k vacLanes
    else c.oneLane k rest

/-- A port with a down lane asks for a retrain (R315). -/
def Chip.retrainAsk (c : Chip) (k : Fin 8) : Chip :=
  let p := c.port k
  if c.isUp k ∧ c.get F.HP_STAT_LANES k ≠ 3 ∧ !p.retraining ∧ !p.restore then
    (c.setHp k { p with retrainDue := some (c.now + ms 100) }).ldlAsk 0 k.val 0 Config.headRetrainAmount
  else c

/-- Every 100 ms. -/
def Chip.retrainTimer (c : Chip) (k : Fin 8) : Chip :=
  match (c.port k).retrainDue with
  | some t => if t ≤ c.now then c.retrainAsk k else c
  | none => c

/-- The grant is held: IDLE and ALIGN go out on the lane for up to 1 ms. -/
def Chip.retrainBegin (c : Chip) (k : Fin 8) : Chip :=
  if c.isUp k then (c.setHp k { c.port k with retraining := true, retrainAt := c.now }).send "align" [k.val, 3, 0] else c.ldlRelease 0 k.val

/-- The retrain window ends: both lanes locked, or 1 ms over. -/
def Chip.retrainEnd (c : Chip) (k : Fin 8) : Chip :=
  let p := c.port k
  if p.retraining ∧ (p.locked = 3 ∨ p.retrainAt + ms 1 ≤ c.now) then
    (c.setHp k { p with retraining := false, restore := decide (p.locked = 3) }).ldlRelease 0 k.val
  else c

/-- Both lanes are down, or symbol lock has been lost for 100 µs (R315). -/
def Chip.bcLockLost (c : Chip) (k : Fin 8) : Chip :=
  let st := c.portState k
  let c := c.set F.HP_STAT_BC_LOCK 0 k
  if 3 ≤ st ∧ st ≤ 5 then c.portVacant k vacLanes else c

/-! ### Registers of the port with effects of their own (R320 to R322, R325, R353) -/

/-- A write of HPk_CTRL: AUTO_UP, XPERT_EN, EN, DOWN and RETRAIN. -/
def Chip.hpCtrlWrite (c : Chip) (k : Fin 8) (w : Nat) : Chip :=
  let was := c.on F.HP_CTRL_EN k
  let en := bitAt w 1
  let c := ((c.set F.HP_CTRL_AUTO_UP (bit (bitAt w 2)) k).set F.HP_CTRL_EN (bit en) k).set F.HP_CTRL_XPERT_EN (bit (bitAt w 0)) k
  let c := if was ∧ !en then c.portVacant k vacEn
    else if en ∧ (!was ∨ (c.port k).rearmAny) then c.portRearm k else c
  let c := if bitAt w 3 then
      let c := c.portVacant k vacDown
      if c.portState k = 6 then c.enter k 0 else c
    else c
  if bitAt w 4 then c.retrainAsk k else c

/-- A write of HPk_XCMD with GO (R325). -/
def Chip.xcmd (c : Chip) (k : Fin 8) : Chip :=
  let opc := c.get F.HP_XCMD_OPC k
  let p := c.port k
  let busy := p.todo.any (fun h => h.use == .expert) || p.wait.any (fun w => w.cmd.use == .expert)
  if opc < 1 ∨ 3 < opc ∨ !c.isUp k ∨ busy then c.addSat F.HP_REJ_CNT_COUNT 1 k
  else
    let c := (c.setHp k { p with xdata := [] }).setWord (R.HP_XRSP.at k.val 0) 0
    c.command k [{ opc := opc, arg := c.get F.HP_XARG_ARG k, use := .expert, tag := some (c.get F.HP_XCMD_TAG k) }]

/-- The lanes that HPk_XLINK.FORCE leaves in use. -/
def Chip.forceLanes (c : Chip) (k : Fin 8) : Chip :=
  if c.isUp k then
    let f := c.get F.HP_XLINK_FORCE k
    c.set F.HP_STAT_LANES (if f = 0 then (c.port k).locked else f) k
  else c

/-- A read of HPk_XDATA: the next 32-bit word of the answer. -/
def Chip.xdataRead (c : Chip) (k : Fin 8) : Chip × Nat :=
  let p := c.port k
  (c.setHp k { p with xdata := p.xdata.drop 4 }, ofBytesLE (p.xdata.take 4))

/-- A read of HPk_MEM_DATA: a word of the kept record; 0 beyond LEN or while not UP. -/
def Chip.memDataRead (c : Chip) (k : Fin 8) : Chip × Nat :=
  let n := c.get F.HP_MEM_SEL_WORD k
  let v := if c.isUp k then ofBytesLE (((c.port k).record.drop (4 * n)).take 4) else 0
  (if c.on F.HP_MEM_SEL_AUTOINC k then c.addWrap F.HP_MEM_SEL_WORD 1 k else c, v)

/-- A write of HPk_TLIM or HPk_TWARN (R43, R353): ceilings, the order of the thresholds, the hysteresis. -/
def Chip.thresholdWrite (c : Chip) (k : Fin 8) (tlim : Bool) (w : Nat) : Chip :=
  let a := signed 12 (bitsOf w 11 0)
  let b := signed 12 (bitsOf w 27 16)
  if tlim then
    let cl := signed 12 (c.get F.HP_PCEIL_T_TLIM_CEIL k)
    let cc := signed 12 (c.get F.HP_PCEIL_T_TCRIT_CEIL k)
    let lim := min a cl
    let crit := min b cc
    if lim ≤ signed 12 (c.get F.HP_TWARN_T_WARN k) ∨ crit ≤ lim then c.addSat F.HP_REJ_CNT_COUNT 1 k
    else
      let c := (c.set F.HP_TLIM_T_LIMIT (unsigned 12 lim) k).set F.HP_TLIM_T_CRIT (unsigned 12 crit) k
      if cl < a ∨ cc < b then (c.set F.HP_PSTAT_LOOP_SAT 1 k).hpEvent k 0x14 else c
  else
    let hyst := bitsOf w 27 16
    if signed 12 (c.get F.HP_TLIM_T_LIMIT k) ≤ a ∨ hyst < 16 ∨ 480 < hyst then c.addSat F.HP_REJ_CNT_COUNT 1 k
    else (c.set F.HP_TWARN_T_WARN (bitsOf w 11 0) k).set F.HP_TWARN_T_HYST hyst k

end Sys2Proof.Machine
end

