-- ==== Sys2Proof/Machine/StrCheck.lean ====
section
/-!
DEFINITION. The structure image as a container and its checks (R388 to R402): header, sections, the registers each section
loads with the values the checks admit, the reasons of R401.
-/

namespace Sys2Proof.Machine

/-! ### Header and sections (R388, R389) -/

/-- A section as it stands in an image: type, version, flags, body, whether its SCRC holds. -/
structure Section where
  type : Nat
  ver : Nat
  flags : Nat
  body : List Nat
  ok : Bool
  deriving DecidableEq, Repr

/-- The sections that fill a byte list exactly, at most n of them; none where they do not fill it or a BLEN is odd (0x0A). -/
def parseSections : Nat → List Nat → Option (List Section)
  | _, [] => some []
  | 0, _ => none
  | n + 1, l =>
    let blen := fieldLE l 4 4
    if l.length < 12 ∨ blen % 4 ≠ 0 ∨ l.length < 12 + blen then none
    else
      let s : Section := ⟨fieldLE l 0 2, l.getD 2 0, l.getD 3 0, (l.drop 8).take blen, crc32 (l.take (8 + blen)) == fieldLE l (8 + blen) 4⟩
      (parseSections n (l.drop (12 + blen))).map (fun r => s :: r)

/-- Header fields. -/
def hdrLen (l : List Nat) : Nat := fieldLE l 8 4
def hdrNsec (l : List Nat) : Nat := fieldLE l 12 2
def hdrNode (l : List Nat) : Nat := fieldLE l 24 2
def hdrSeq (l : List Nat) : Nat := fieldLE l 28 4
def hdrUid (l : List Nat) : Nat := fieldLE l 32 8
def hdrFeat (l : List Nat) : Nat := fieldLE l 48 4

/-- A body word of a section; 0 where the image has no such section. -/
def secWord (s : List (Nat × List Nat)) (ty off : Nat) : Nat :=
  match s.find? (fun x => x.1 == ty) with
  | some x => fieldLE x.2 off 4
  | none => 0

def hasSection (s : List (Nat × List Nat)) (ty : Nat) : Bool := s.any (fun x => x.1 == ty)

/-! ### Registers that sections load (R393, R394) -/

/-- A field of an image word: bits [hi:lo] and the values it may have. Bits in no field are reserved. -/
structure ImgField where
  hi : Nat
  lo : Nat
  min : Nat := 0
  max : Nat := 2 ^ 32 - 1
  deriving DecidableEq, Repr

/-- A register that a section loads: its address, the byte of the body, its fields. -/
structure ImgLoad where
  addr : Nat
  off : Nat
  fields : List ImgField
  deriving DecidableEq, Repr

/-- A field of any value. -/
def anyOf (hi lo : Nat) : ImgField := { hi := hi, lo := lo }
def within (hi lo mn mx : Nat) : ImgField := { hi := hi, lo := lo, min := mn, max := mx }

def stitchFields : List ImgField := [anyOf 31 0]

/-- The registers of the sections. -/
def sectionLoads (ty : Nat) : List ImgLoad :=
  let r := List.range
  if ty = 1 then [⟨R.FAB_NODE.addr, 0, [anyOf 18 16, anyOf 9 0]⟩]
  else if ty = 3 then (r 8).map (fun k => ⟨R.COL_PORT.at k 0, 8 * k, [anyOf 31 27, within 26 24 0 3, anyOf 22 20]⟩)
  else if ty = 4 then (r 8).map (fun p => ⟨R.CMP_TP.at p 0, 4 * p, [anyOf 31 31, anyOf 13 0]⟩)
  else if ty = 5 then
    (r 8).map (fun p => ⟨R.COL_STITCH_LO.at p 0, 8 * p, stitchFields⟩) ++ (r 8).map (fun p => ⟨R.COL_STITCH_HI.at p 0, 8 * p + 4, stitchFields⟩)
      ++ [⟨R.COL_SEED.addr, 64, [anyOf 15 0]⟩]
  else if ty = 6 then
    (r 8).map (fun k => ⟨R.TRK_TILEOFS.at k 0, 4 * k, [anyOf 20 0]⟩)
      ++ ((r 8).map (fun k => (r 6).map (fun j => (⟨R.TRK_ROWOFS.at k j, 32 + 24 * k + 4 * j, [anyOf 20 0]⟩ : ImgLoad)))).flatten
      ++ (r 6).map (fun i => ⟨R.TRK_ICOFS.at i 0, 224 + 4 * i, [anyOf 20 0]⟩)
      ++ (r 6).map (fun i => ⟨R.TRK_FLT.at i 0, 248 + 4 * i, [within 17 0 0 250000]⟩)
  else if ty = 7 then
    [⟨R.TRK_SRC.addr, 0, [anyOf 3 0]⟩, ⟨R.TRK_FAB_NODE.addr, 4, [anyOf 25 16, anyOf 9 0]⟩, ⟨R.TRK_RATIO0_LO.addr, 8, [anyOf 31 0]⟩,
     ⟨R.TRK_RATIO0_HI.addr, 12, [anyOf 31 0]⟩, ⟨R.TRK_RATIO1_LO.addr, 16, [anyOf 31 0]⟩, ⟨R.TRK_RATIO1_HI.addr, 20, [anyOf 31 0]⟩,
     ⟨R.TRK_FAB_LOFS_LO.addr, 24, [anyOf 31 0]⟩, ⟨R.TRK_FAB_LOFS_HI.addr, 28, [anyOf 31 0]⟩, ⟨R.TRK_BCAST.addr, 32, [anyOf 0 0]⟩]
  else if ty = 8 then
    ((r 6).map (fun i =>
      [(⟨R.FLW_LOOP.at i 0, 252 * i, [anyOf 31 31, within 27 24 1 15, within 23 20 0 8, anyOf 19 0]⟩ : ImgLoad),
       ⟨R.FLW_TRIM.at i 0, 252 * i + 4, [anyOf 23 0]⟩, ⟨R.FLW_TCEIL.at i 0, 252 * i + 8, [anyOf 15 0]⟩,
       ⟨R.FLW_SCEIL.at i 0, 252 * i + 12, [anyOf 27 0]⟩, ⟨R.FLW_BRIDGE.at i 0, 252 * i + 16, [anyOf 5 0]⟩]
      ++ (r 32).map (fun w => (⟨0x100D0800 + 0x100 * i + 0x80 * (w / 16) + 4 * (w % 16), 252 * i + 20 + 4 * w, [anyOf 31 0]⟩ : ImgLoad))
      ++ (r 13).map (fun s => (⟨R.FLW_SHAPE_A.at i s, 252 * i + 148 + 8 * s, [anyOf 31 0]⟩ : ImgLoad))
      ++ (r 13).map (fun s => (⟨R.FLW_SHAPE_B.at i s, 252 * i + 152 + 8 * s, [anyOf 31 0]⟩ : ImgLoad)))).flatten
      ++ [⟨R.FLW_WARM_T.addr, 1512, [anyOf 27 16, anyOf 11 0]⟩]
  else if ty = 9 then
    ((r 8).map (fun k =>
      [(⟨R.HP_PCEIL.at k 0, 32 * k, [anyOf 22 16, anyOf 9 0]⟩ : ImgLoad), ⟨R.HP_PCEIL_T.at k 0, 32 * k + 4, [anyOf 27 16, anyOf 11 0]⟩,
       ⟨R.HP_ELIM_CEIL.at k 0, 32 * k + 8, [anyOf 27 0]⟩, ⟨R.HP_DUTY.at k 0, 32 * k + 12, [within 22 16 1 64, within 6 0 2 64]⟩,
       ⟨R.HP_ELIM.at k 0, 32 * k + 16, [anyOf 27 0]⟩, ⟨R.HP_TLIM.at k 0, 32 * k + 20, [anyOf 27 16, anyOf 11 0]⟩,
       ⟨R.HP_TWARN.at k 0, 32 * k + 24, [within 27 16 16 480, anyOf 11 0]⟩, ⟨R.HP_WDOG.at k 0, 32 * k + 28, [within 9 0 50 800]⟩])).flatten
  else if ty = 10 then
    [⟨R.LDL_CORE.addr, 0, [anyOf 15 0]⟩] ++ (r 4).map (fun b => ⟨R.LDL_BAR_BUD.at b 0, 4 + 4 * b, [anyOf 31 0]⟩)
      ++ ((r 8).map (fun k => [(⟨R.HP_BAR.at k 0, 20 + 12 * k, [anyOf 25 24, anyOf 9 0]⟩ : ImgLoad),
          ⟨R.HP_IW_A.at k 0, 24 + 12 * k, [anyOf 31 0]⟩, ⟨R.HP_IW_B.at k 0, 28 + 12 * k, [anyOf 15 0]⟩])).flatten
  else if ty = 11 then
    [⟨R.TKO_PARTNER.addr, 0, [anyOf 31 31, anyOf 9 0]⟩] ++ (r 8).map (fun k => ⟨R.TKO_PAIR.at k 0, 4 + 4 * k, [anyOf 31 31, anyOf 2 0]⟩)
      ++ [⟨R.TKO_KEY.addr, 36, [anyOf 31 0]⟩, ⟨R.TKO_HB_CFG.addr, 40, [within 19 16 2 15, within 9 0 20 1000]⟩,
          ⟨R.TKO_CFG.addr, 44, [anyOf 1 0]⟩, ⟨R.TKO_STBYMAP.addr, 48, [anyOf 31 0]⟩]
  else []

/-- Whether the pending image loads the register at an address (R410). -/
def loadsRegister (s : List (Nat × List Nat)) (addr : Nat) : Bool :=
  s.any (fun x => (sectionLoads x.1).any (fun l => l.addr == addr))

/-- The words of a section's registers in an image; the reset values where the image lacks the section (R395). -/
def sectionWords (s : List (Nat × List Nat)) (ty : Nat) : List (Nat × Word) :=
  (sectionLoads ty).map (fun l => (l.addr, if hasSection s ty then BitVec.ofNat 32 (secWord s ty l.off) else resetWord l.addr))

/-- A word breaks its fields: a reserved bit set or a value out of range. -/
def wordBad (fields : List ImgField) (w : Nat) : Bool :=
  fields.any (fun f => let v := bitsOf w f.hi f.lo; decide (v < f.min) || decide (f.max < v))
    || (List.range 32).any (fun b => bitAt w b && !fields.any (fun f => decide (f.lo ≤ b) && decide (b ≤ f.hi)))

/-! ### Checks of the sections (R391 to R402) -/

def requiredTypes : List Nat := [1, 2, 3, 4, 6, 8, 9, 10, 14]

/-- The body length of a section type; none where any length is right. -/
def bodySize (ty : Nat) (body : List Nat) : Option Nat :=
  match ty with
  | 1 => some 8 | 2 => some 32 | 3 => some 64 | 4 => some 32 | 5 => some 68 | 6 => some 272 | 7 => some 36 | 8 => some 1516
  | 9 => some 256 | 10 => some 116 | 11 => some 52 | 12 => some 128 | 13 => some 184
  | 14 => some (4 + 4 * (fieldLE body 0 4 % 512))
  | _ => none

def sizeBad (s : Section) : Bool :=
  match bodySize s.type s.body with
  | some n => s.body.length != n
  | none => false

/-- A type with bit 15 clear that this chapter does not define. -/
def unknownType (ty : Nat) : Bool := decide (ty < 0x8000) && !(decide (1 ≤ ty) && decide (ty ≤ 14))

/-- The entries of FAULT: code and actions. -/
def faultEntries (s : List (Nat × List Nat)) : List (Nat × Nat) :=
  (List.range (secWord s 14 0 % 512)).map (fun e => let w := secWord s 14 (4 + 4 * e); (w % 65536, w / 65536 % 256))

/-- Whether a list rises strictly. -/
def rising : List Nat → Bool
  | a :: b :: r => decide (a < b) && rising (b :: r)
  | _ => true

/-- A byte of a section's body. -/
def bodyByte (s : List (Nat × List Nat)) (ty b : Nat) : Nat := bitsOf (secWord s ty (b / 4 * 4)) (8 * (b % 4) + 7) (8 * (b % 4))

/-- FIELD_RANGE of the words of one section that are not laid out as registers (R395, R396, R580). -/
def bodyBad (s : List (Nat × List Nat)) (ty : Nat) : Bool :=
  let w := secWord s ty
  if ty = 1 then w 4 != 0
  else if ty = 2 then
    decide (w 0 < 1000) || decide (96000 < w 0) || decide (w 4 < 1) || decide (16 < w 4)
      || (List.range 6).any (fun i => decide (250000 < w (8 + 4 * i)))
  else if ty = 3 then (List.range 8).any (fun k => decide (2 ^ 18 ≤ w (8 * k + 4)))
  else if ty = 12 then
    (List.range 16).any (fun i => decide (32 ≤ w (4 * i)))
      || (List.range 64).any (fun i => let b := bitsOf (w (64 + i / 4 * 4)) (8 * (i % 4) + 7) (8 * (i % 4)); decide (3 ≤ b))
  else if ty = 13 then
    decide (65536 ≤ w 180) || (List.range 4).any (fun d => decide (8 < bitsOf (w 180) (4 * d + 3) (4 * d)))
      || (List.range 9).any (fun z => w (4 * z) % 65536 == 0 || w (4 * z) / 65536 == 0)
      || (List.range 16).any (fun i => decide (256 < ((List.range 9).map (fun z => bodyByte s 13 (36 + 9 * i + z))).sum))
  else if ty = 14 then
    decide (256 < w 0) || !rising ((faultEntries s).map Prod.fst) || (List.range (w 0 % 512)).any (fun e => decide (2 ^ 24 ≤ w (4 + 4 * e)))
  else false

/-- A protection field of the image beyond the ceiling or floor that the image sets (R401 0x12). -/
def ceilingBad (s : List (Nat × List Nat)) (ty : Nat) : Bool :=
  let w := secWord s ty
  if ty = 6 then (List.range 6).any (fun i => decide (secWord s 2 (8 + 4 * i) < w (248 + 4 * i)))
  else if ty = 8 then (List.range 6).any (fun i =>
    let t := w (252 * i + 4)
    let ce := w (252 * i + 8)
    let lo := signed 8 ce
    let hi := signed 8 (ce / 256)
    [t, t / 256, t / 65536].any (fun v => decide (signed 8 v < lo) || decide (hi < signed 8 v)))
  else if ty = 9 then (List.range 8).any (fun k =>
    let pc := w (32 * k)
    let pt := w (32 * k + 4)
    let tl := w (32 * k + 20)
    decide (pc % 1024 < w (32 * k + 28) % 1024) || decide (bitsOf pc 22 16 < bitsOf (w (32 * k + 12)) 22 16)
      || decide (w (32 * k + 8) % 2 ^ 28 < w (32 * k + 16) % 2 ^ 28)
      || decide (signed 12 pt < signed 12 tl) || decide (signed 12 (pt / 65536) < signed 12 (tl / 65536)))
  else false

/-- FIELD_RANGE of a section. -/
def rangeBad (s : List (Nat × List Nat)) (ty : Nat) : Bool :=
  (sectionLoads ty).any (fun l => wordBad l.fields (secWord s ty l.off)) || bodyBad s ty || ceilingBad s ty

/-- Fields of PORTS. -/
def imgPort (s : List (Nat × List Nat)) (k : Nat) : Nat := secWord s 3 (8 * k)
def imgEn (s : List (Nat × List Nat)) (k : Nat) : Bool := bitAt (imgPort s k) 31
def imgMode (s : List (Nat × List Nat)) (k : Nat) : Nat := bitsOf (imgPort s k) 26 24
def imgTp (s : List (Nat × List Nat)) (k : Nat) : Nat := bitsOf (imgPort s k) 30 28
def imgRow (s : List (Nat × List Nat)) (k r : Nat) : Nat := bitsOf (secWord s 3 (8 * k + 4)) (3 * r + 2) (3 * r)
def imgPeer (s : List (Nat × List Nat)) (k : Nat) : Nat := bitsOf (imgPort s k) 22 20

/-- REQ_FEAT as the sections need it (R392). -/
def sectionFeatures (s : List (Nat × List Nat)) (head : List Nat) : Nat :=
  let ks := List.range 8
  bit (hasSection s 11 && ks.any (fun k => bitAt (secWord s 11 (4 + 4 * k)) 31))
    + 2 * bit (ks.any (fun k => imgEn s k && imgMode s k == 3) || ks.any (fun p => bitAt (secWord s 11 48) (4 * p + 3)))
    + 4 * bit (decide (48000 < secWord s 2 0)) + 8 * bit (decide (8 < secWord s 2 4))
    + 16 * bit (decide (64 ≤ hdrNode head % 1024) || bitAt (secWord s 1 0) 18
        || (List.range 16).any (fun i => let w := secWord s 12 (4 * i); bitAt w 4 && (w % 4 == 3 || w / 4 % 4 == 3)))
    + 32 * bit ((ks.drop 4).any (fun k => imgEn s k || secWord s 10 (20 + 12 * k) % 1024 != 0))

/-- R402. -/
def portMapBad (s : List (Nat × List Nat)) : Bool :=
  let en := (List.range 8).filter (imgEn s)
  en.any (fun k =>
    let p := imgTp s k
    !bitAt (secWord s 4 (4 * p)) 31 || !((List.range 6).all (fun ch => (List.range 6).any (fun r => imgRow s k r == ch)))
      || (imgMode s k == 1 && (let q := imgPeer s k
          !(imgEn s q && imgMode s q == 1 && imgPeer s q == k && imgTp s q == p && bitAt (imgPort s q) 27 != bitAt (imgPort s k) 27)))
      || (imgMode s k != 3 && en.any (fun q => q != k && imgMode s q != 3 && imgTp s q == p && bitAt (imgPort s q) 27 == bitAt (imgPort s k) 27)))

/-- OVERLAP (R192). -/
def overlapBad (s : List (Nat × List Nat)) : Bool :=
  let ps := (List.range 8).filter (fun p => bitAt (secWord s 4 (4 * p)) 31)
  let org := fun p => secWord s 4 (4 * p) % 16384
  ps.any (fun p => decide (16384 < org p + 1280)
    || ps.any (fun q => q != p && decide (org p ≤ org q) && decide (org q < org p + 1280) && org q != org p + 1248))

/-- STITCH_DIFF (R193). -/
def stitchBad (s : List (Nat × List Nat)) : Bool :=
  let ps := List.range 8
  let org := fun p => secWord s 4 (4 * p) % 16384
  ps.any (fun p => ps.any (fun q =>
    let hi := secWord s 5 (8 * p + 4)
    let lo := secWord s 5 (8 * q)
    bitAt (secWord s 4 (4 * p)) 31 && bitAt (secWord s 4 (4 * q)) 31 && org q == org p + 1248 && bitAt hi 31 && bitAt lo 31
      && hi % 2 ^ 18 != lo % 2 ^ 18))

/-- Total offset of row r of port k in ticks (R129). -/
def imgOffset (s : List (Nat × List Nat)) (k r : Nat) : Int :=
  signed 21 (secWord s 6 (4 * k)) + signed 21 (secWord s 6 (32 + 24 * k + 4 * r)) + signed 21 (secWord s 6 (224 + 4 * imgRow s k r))

/-- PARITY (R187). -/
def parityBad (s : List (Nat × List Nat)) : Bool :=
  (List.range 8).any (fun k => imgEn s k && imgMode s k == 1 && (List.range 6).any (fun r => (List.range 6).any (fun q =>
    let j := imgPeer s k
    imgRow s k r == imgRow s j q && (imgOffset s k r / 64 - imgOffset s j q / 64) % 2 != 0)))

/-- BAR_CURRENT (R339). -/
def barBad (s : List (Nat × List Nat)) : Bool :=
  let bar := fun k => bitsOf (secWord s 10 (20 + 12 * k)) 25 24
  let share := fun k => secWord s 10 (20 + 12 * k) % 1024
  let iw := fun k => ((List.range 4).map (fun i => bitsOf (secWord s 10 (24 + 12 * k)) (8 * i + 7) (8 * i))).sum
    + secWord s 10 (28 + 12 * k) % 256 + bitsOf (secWord s 10 (28 + 12 * k)) 15 8
  let fire := fun b => bitsOf (secWord s 10 (4 + 4 * b)) 31 16
  (List.range 8).any (fun k => decide (fire (bar k) * share k / 1000 * 400 < 80 * iw k))
    || (List.range 4).any (fun b => decide (secWord s 10 (4 + 4 * b) % 65536 < fire b)
        || decide (1000 < (((List.range 8).filter (fun k => bar k == b)).map share).sum))

/-- TWIN_RULE (R357). -/
def twinBad (s : List (Nat × List Nat)) : Bool :=
  hasSection s 11 &&
    ((List.range 8).any (fun k => bitAt (secWord s 11 (4 + 4 * k)) 31 && imgMode s k != 0)
      || (bitAt (secWord s 11 0) 31 && secWord s 11 0 % 1024 / 64 != secWord s 1 0 % 1024 / 64)
      || decide (bitsOf (secWord s 11 40) 19 16 * (secWord s 11 40 % 1024) < 250)
      || (List.range 8).any (fun p => let m := bitsOf (secWord s 11 48) (4 * p + 3) (4 * p); decide (8 ≤ m) && imgMode s (m - 8) != 3))

/-- SHAPE (R256, R343). -/
def imgShapeBad (s : List (Nat × List Nat)) : Bool :=
  (List.range 6).any (fun ic =>
    let pulses := ((List.range 13).map (fun i => shapePulses (secWord s 8 (252 * ic + 148 + 8 * i)) (secWord s 8 (252 * ic + 152 + 8 * i)))).filter
      (fun p => !p.isEmpty)
    let ce := secWord s 8 (252 * ic + 12)
    let wmin : Int := bitsOf ce 27 20
    let emax : Int := bitsOf ce 19 10
    let wdogs := ((List.range 8).filter (fun k => imgEn s k && (List.range 6).any (fun r => imgRow s k r == ic))).map
      (fun k => ((secWord s 9 (32 * k + 28) % 1024 : Nat) : Int) - 20)
    let lim := wdogs.foldl min ((ce % 1024 : Nat) : Int)
    let los := pulses.map (fun p => 4 * (wmin - (pulseMain p : Int)))
    let his := (pulses.map (fun p => [4 * (lim - (pulseSpan p : Int)), 4 * (emax - (pulseSum p : Int))])).flatten
    pulses.any (fun p => p.dropLast.any (fun q => decide ((q.2 : Int) < wmin)) || wdogs.any (fun w => decide (w < (pulseSpan p : Int))))
      || (match los, his with
          | a :: ra, b :: rb => decide (rb.foldl min b < ra.foldl max a)
          | _, _ => false))

/-- OFS_RANGE of R401. -/
def imgOffsetBad (s : List (Nat × List Nat)) : Bool :=
  (List.range 8).any (fun k => imgEn s k && (List.range 6).any (fun r => decide (imgOffset s k r < 0)))

/-! ### The check of an image (R401) -/

/-- The first failing reason of a list, with its section index; OK where none fails. -/
def firstFail : List (Bool × Nat × Nat) → Nat × Nat
  | [] => (0, 0)
  | (b, code, i) :: r => if b then (code, i) else firstFail r

/-- The index of the first section that meets p. -/
def indexOf (l : List Section) (p : Section → Bool) : Nat := (l.findIdx? p).getD 0

/-- The first index at which the types stop rising. -/
def orderIndex (l : List Section) : Nat :=
  (((List.range l.length).drop 1).find? (fun i => decide ((l.map Section.type).getD i 0 ≤ (l.map Section.type).getD (i - 1) 0))).getD 0

/-- The reasons that depend on the sections, in the order of R401. -/
def sectionsCheck (feat : Nat) (head : List Nat) (l : List Section) : Nat × Nat :=
  let s := l.map (fun x => (x.type, x.body))
  let at' := fun ty => indexOf l (fun x => x.type == ty)
  let need := sectionFeatures s head
  firstFail
    [(l.any (fun x => !x.ok), 0x0B, indexOf l (fun x => !x.ok)), (!rising (l.map Section.type), 0x0C, orderIndex l),
     (l.any (fun x => unknownType x.type), 0x0D, indexOf l (fun x => unknownType x.type)),
     (l.any (fun x => x.ver != 1 || x.flags != 0), 0x0E, indexOf l (fun x => x.ver != 1 || x.flags != 0)),
     (l.any sizeBad, 0x0F, indexOf l sizeBad), (requiredTypes.any (fun t => !hasSection s t), 0x10, 0),
     (hdrFeat head != need || need &&& feat != need, 0x11, 0),
     (decide (1024 ≤ hdrNode head) || decide (64 < hdrNsec head), 0x12, 0),
     (l.any (fun x => rangeBad s x.type), 0x12, indexOf l (fun x => rangeBad s x.type)),
     (secWord s 1 0 % 1024 != hdrNode head, 0x13, at' 1),
     (decide (48000 < secWord s 2 0) && (List.range 8).any (fun k => imgEn s k && imgMode s k == 2), 0x20, at' 3),
     (portMapBad s, 0x21, at' 3), (overlapBad s, 0x22, at' 4), (stitchBad s, 0x23, at' 5), (parityBad s, 0x24, at' 6),
     (barBad s, 0x25, at' 10), (twinBad s, 0x26, at' 11), (imgShapeBad s, 0x27, at' 8), (imgOffsetBad s, 0x28, at' 6)]

/-- The image key of an image, where it is present and not revoked. -/
def Chip.imageKey (c : Chip) (l : List Nat) : Option (Nat × Nat) :=
  let id := l.getD 14 0
  if h : id < 4 then (if bitAt c.sec.revoked (4 + id) then none else c.sec.keys[4 + id]'(by omega)) else none

/-- Whether the signature of an image verifies (R390). -/
def signatureHolds (key : Nat × Nat) (l : List Nat) : Bool :=
  signatureOk key (l.take (l.length - 64)) (l.drop (l.length - 64))

/-- A reserved byte of the header is not 0. -/
def headReserved (l : List Nat) : Bool := ([7, 15, 26, 27] ++ (List.range 8).map (52 + ·)).any (fun i => l.getD i 0 != 0)

/-- The whole check of a copied image (R401): reason and section index. -/
def Chip.imageCheck (c : Chip) (l : List Nat) : Nat × Nat :=
  let len := hdrLen l
  let head := firstFail
    [(!(l.take 4 == [0x4C, 0x4E, 0x53, 0x49]), 0x01, 0), (fieldLE l 4 2 != 1 || headReserved l, 0x02, 0),
     (decide (len < 192) || decide (262144 < len) || len % 4 != 0 || len != l.length, 0x03, 0),
     (crc32 (l.take 60) != fieldLE l 60 4, 0x04, 0), (decide (c.get F.SYS_ID_CL < l.getD 6 0), 0x05, 0)]
  if head.1 ≠ 0 then head
  else match c.imageKey l with
    | none => (0x06, 0)
    | some key =>
      if !signatureHolds key l then (0x07, 0)
      else
        let uid := c.get F.OTP_UID_HI_UID_HI * 2 ^ 32 + c.get F.OTP_UID_LO_UID_LO
        if (hdrUid l = 0 ∧ bitAt c.sec.policy 0) ∨ (hdrUid l ≠ 0 ∧ hdrUid l ≠ uid) then (0x08, 0)
        else if hdrSeq l < c.get F.STR_MINSEQ_MINSEQ then (0x09, 0)
        else match parseSections (max (hdrNsec l) 1) ((l.drop 64).take (len - 128)) with
          | none => (0x0A, 0)
          | some secs => if secs.length ≠ hdrNsec l then (0x0A, secs.length) else sectionsCheck (c.get F.OTP_FEAT_IN_FORCE) l secs

/-- The sections of a sound image, as STR distributes them. -/
def imageSections (l : List Nat) : List (Nat × List Nat) :=
  ((parseSections (max (hdrNsec l) 1) ((l.drop 64).take (hdrLen l - 128))).getD []).map (fun x => (x.type, x.body))

end Sys2Proof.Machine
end

