-- ==== Sys2Proof/Machine/Str.lean ====
section
/-!
DEFINITION. The structure image in STR: loading, the switch from approval to application, what each application point loads,
reloading after a reset of an island (R400, R403 to R414, R742).
-/

namespace Sys2Proof.Machine

def Chip.setStr (c : Chip) (s : StrSt) : Chip := { c with str := s }

/-- The slots (R403): base of the slot area, 256 KiB each. -/
def Chip.slotAddr (c : Chip) (slot : Nat) : Nat :=
  c.get F.STR_SLOT_BASE_HI_ADDR * 2 ^ 32 + c.get F.STR_SLOT_BASE_LO_ADDR * 4096 + 262144 * slot
def Chip.pendingSlot (c : Chip) : Nat := 1 - c.get F.STR_STAT_ACTIVE_SLOT

/-- The state of the switch: 0 none, 1 prepare, 2 committed. -/
def Chip.switchState (c : Chip) : Nat := c.get F.STR_STAT_SW_STATE

/-! ### Loading (R400, R401) -/

/-- STR_LOAD_GO: the source is copied into the pending slot and the check begins. -/
def Chip.strLoad (errs : List DdrError) (x : Chip × Store) : Chip × Store :=
  let c := x.1
  if c.on F.STR_STAT_CHECKING ∨ c.switchState ≠ 0 then (c.addSat F.STR_REJ_CNT_COUNT 1, x.2)
  else
    let c := ((c.set F.STR_STAT_PEND_VALID 0).set F.STR_STAT_CHECKING 1).set F.STR_RESULT_DONE 0
    let src := c.get F.STR_LOAD_HI_ADDR * 2 ^ 32 + c.get F.STR_LOAD_LO_ADDR * 4
    match c.agentRead x.2 .str errs src (c.get F.STR_LOAD_LEN_LEN) with
    | (c, none) => (c.setStr { c.str with copyFail := true }, x.2)
    | (c, some l) =>
      let w := agentWriteOk .str errs (c.slotAddr c.pendingSlot) l (c, x.2)
      (w.1.1.setStr { w.1.1.str with copyFail := !w.2 }, w.1.2)

/-- The result of a load, an approval or an abort. -/
def Chip.strResult (c : Chip) (reason sectionId : Nat) : Chip := (c.set F.STR_RESULT_REASON reason).set F.STR_RESULT_SECTION sectionId

/-- An image is refused. -/
def Chip.imageRefused (c : Chip) (r : Nat × Nat) : Chip :=
  ((c.strResult r.1 r.2).set F.STR_RESULT_DONE 1).emit 0x0F02 [(1, r.1), (1, r.2)]

/-- The check of the copy in the pending slot is complete. -/
def Chip.imageChecked (c : Chip) (m : Store) (errs : List DdrError) : Chip :=
  if !c.on F.STR_STAT_CHECKING then c
  else
    let c := c.set F.STR_STAT_CHECKING 0
    if c.str.copyFail then c.imageRefused (0x14, 0)
    else match c.agentRead m .str errs (c.slotAddr c.pendingSlot) (c.get F.STR_LOAD_LEN_LEN) with
      | (c, none) => c.imageRefused (0x14, 0)
      | (c, some bytes) =>
        let l := bytes.map BitVec.toNat
        let r := c.imageCheck l
        if r.1 ≠ 0 then c.imageRefused r
        else
          let c := c.setStr { c.str with pend := imageSections l, pendHead := l.take 64 }
          (((((c.strResult 0 0).set F.STR_RESULT_DONE 1).set F.STR_STAT_PEND_VALID 1).set F.STR_PEND_SEQ_SEQ (hdrSeq l)).emit 0x0F01
            [(4, hdrSeq l)])

/-! ### Cold ports (R409) -/

/-- Two images give a word of a section the same value. -/
def sameWord (a b : List (Nat × List Nat)) (ty off : Nat) : Bool := secWord a ty off == secWord b ty off

/-- Whether a switch affects port k cold. -/
def Chip.coldPort (c : Chip) (k : Nat) : Bool :=
  let a := c.str.act
  let b := c.str.pend
  let press := fun (h : List Nat) => fieldLE h 16 8
  let drives := fun (s : List (Nat × List Nat)) (p : Nat) => imgEn s k && imgTp s k == p
  let pair := fun (s : List (Nat × List Nat)) => bitAt (secWord s 11 (4 + 4 * k)) 31
  !sameWord a b 1 0 || press c.str.actHead != press c.str.pendHead || !sameWord a b 3 (8 * k) || !sameWord a b 3 (8 * k + 4)
    || (List.range 8).any (fun p => !sameWord a b 4 (4 * p) && (drives a p || drives b p))
    || (secWord a 11 0 % 1024 != secWord b 11 0 % 1024 && (pair a || pair b)) || !sameWord a b 11 (4 + 4 * k)

/-- The ports affected cold, as a mask. -/
def Chip.coldPorts (c : Chip) : Nat := (((List.range 8).filter c.coldPort).map (2 ^ ·)).sum

/-! ### Approval, prepare, abort (R405 to R407) -/

/-- m_max: the highest line that any block has handed over (R405). -/
def Chip.handedOver (c : Chip) : Int :=
  (allPorts.map (fun (k : Fin 8) => if c.assembles k then c.asm[k].top else c.lastIssued)).foldl max c.lastIssued

/-- The named line of the switch. -/
def Chip.namedLine (c : Chip) : Int := signed 48 (c.get F.STR_SW_LINE_HI_LINE_HI * 2 ^ 32 + c.get F.STR_SW_LINE_LO_LINE_LO)

/-- The blocks beside the ports that take sections and answer READY. -/
def readyBlocks : List Nat := [0x0A, 0x0B, 0x0C, 0x0D, 0x08, 0x07, 0x18, 0x1F]

/-- Ports held back by the switch may come up (R409). -/
def Chip.releaseCold (c : Chip) : Chip :=
  let held := allPorts.filter (fun (k : Fin 8) => (c.port k).coldHold)
  let c := c.setStr { c.str with cold := 0 }
  held.foldl (fun c (k : Fin 8) => (c.setHp k { c.port k with coldHold := false }).startUp k) c

/-- The switch ends without applying (R407); block 0xFF where no one block is named. -/
def Chip.strAbort (c : Chip) (reason block : Nat) : Chip :=
  let c := (c.strResult reason 0).set F.STR_STAT_SW_STATE 0
  let c := c.setStr { c.str with wantReady := [], wantApply := [], pendSet := none, loadFail := none, eLine := none }
  let c := (c.setTko { c.tko with pend := none }).dropCommands .image
  (c.emit 0x0F06 [(1, reason), (1, block)]).releaseCold

/-- The shapes and classes of a set of sections, by register address. -/
def sectionSet (s : List (Nat × List Nat)) : List (Nat × Word) :=
  ((sectionWords s 8).filter (fun x => isFlwShadow x.1 && x.2 != 0)).foldl (fun m x => sparsePut (0 : Word) x.1 x.2 m) []

/-- Whether a block may answer READY: a port that is UP once its head holds the pending shapes (R406). -/
def Chip.mayAnswer (c : Chip) (b : Nat) : Bool :=
  if h : 0x10 ≤ b ∧ b < 0x18 then
    let k : Fin 8 := ⟨b - 0x10, by omega⟩
    let p := c.port k
    !c.isUp k || (!p.todo.any (fun x => x.use == .image) && !p.wait.any (fun w => w.cmd.use == .image))
  else true

/-! ### What an application point loads (R394, R395, R411 to R413) -/

/-- Load words into registers. -/
def Chip.loadWords (c : Chip) (l : List (Nat × Word)) : Chip := l.foldl (fun c x => c.setWord x.1 x.2) c

/-- The words of a section of the pending image. -/
def Chip.pendWords (c : Chip) (ty : Nat) : List (Nat × Word) := sectionWords c.str.pend ty

/-- The word of a body. -/
def Chip.pendWord (c : Chip) (ty off : Nat) : Nat := secWord c.str.pend ty off

/-- TRK's part: ceilings of LIMITS, OFFSETS, POSITION; the hand-over brings them into force (R127). -/
def Chip.applyTrk (c : Chip) : Chip :=
  let w := c.pendWords 6 ++ c.pendWords 7
  let c := c.loadWords w
  let c := { c with dirty := (w.map Prod.fst ++ c.dirty).eraseDups }
  c.setStr { c.str with img := { c.str.img with
    trkIc := Vector.ofFn (fun (k : Fin 8) => c.pendWord 3 (8 * k.val + 4))
    lrateCeil := c.pendWord 2 0, fltCeil := Vector.ofFn (fun (i : Fin 6) => c.pendWord 2 (8 + 4 * i.val)) } }

/-- A changed pair of sources: TRK abandons one that is neither, and makes the new primary active (R412). -/
def Chip.sourcesChanged (c : Chip) : Chip :=
  let c := c.pairChanged
  let a := c.activeSource
  if a = c.priSource ∨ a = c.fbSource ∨ !c.trkOn then c
  else
    let c := (c.coast).followAfresh (fun i => i == a)
    if c.priSource < 4 then c.makeActive c.priSource 5 else c.showActive 4

/-- CMP's part: COMPOSE. The rings of a changed tile position are invalid, and composition goes on from W (R413). -/
def Chip.applyCmp (c : Chip) : Chip :=
  let changed := (List.range 8).filter (fun p => (c.word (R.CMP_TP.at p 0)).toNat != c.pendWord 4 (4 * p))
  let c := c.loadWords (c.pendWords 4)
  if changed.isEmpty then c
  else
    let u := unsigned 48 c.cmp.w
    let c := { c with cmp := { c.cmp with tags := c.cmp.tags.filter (fun t => !changed.contains (t.1 / 8192)) } }
    (c.set F.STR_CMPLINE_LO_LINE_LO u).set F.STR_CMPLINE_HI_LINE_HI (u / 2 ^ 32)

/-- COL's part: PORTS and STITCH. A port whose record changes fires its home set from the line (R184). -/
def Chip.applyCol (c : Chip) (n : Int) : Chip :=
  let changed := allPorts.filter (fun (k : Fin 8) => (c.word (R.COL_PORT.at k.val 0)).toNat != c.pendWord 3 (8 * k.val))
  let c := (c.loadWords (c.pendWords 3)).loadWords (c.pendWords 5)
  let c := c.setStr { c.str with img := { c.str.img with rowIc := Vector.ofFn (fun (k : Fin 8) => c.pendWord 3 (8 * k.val + 4)) } }
  changed.foldl (fun c (k : Fin 8) =>
    let c := { c.set F.COL_PSTAT_FIRES (if c.portEnabled k then c.homeSet k else 0) k with
      col := { c.col with switchAt := c.col.switchAt.set k n, prevFires := c.col.prevFires.set k 0, prevSolo := c.col.prevSolo.set k false, standsFor := c.col.standsFor.set k none } }
    c.setAsm k { c.asm[k] with top := c.lastIssued, bridgeTo := none, convert := none }) c

/-- FLW's part: ENERGY replaces the shadow set, the loops, the trims and the ceilings (R275). -/
def Chip.applyFlw (c : Chip) : Chip := (c.loadWords (c.pendWords 8)).flwBounds

/-- One port's part at assembly: its set of shapes and classes, its duty and energy limits. -/
def Chip.applyAssembly (c : Chip) (k : Fin 8) : Chip :=
  let c := c.takeSet k (sectionSet c.str.pend)
  let c := if c.isUp k then c.setAsm k { c.asm[k] with setNo := 1 - c.asm[k].setNo } else c
  let lo := 0x10100000 + 0x10000 * k.val
  (c.loadWords ((c.pendWords 9).filter (fun x =>
    x.1 == lo + 0x104 || x.1 == lo + 0x108 || x.1 == lo + 0x114 || x.1 == lo + 0x11C))).flwBounds

/-- One port's part at its transfer: thresholds and watchdog (R343). -/
def Chip.applyTransfer (c : Chip) (k : Fin 8) : Chip :=
  let lo := 0x10100000 + 0x10000 * k.val
  let c := c.loadWords ((c.pendWords 9).filter (fun x => x.1 == lo + 0x10C || x.1 == lo + 0x110 || x.1 == lo + 0x118 || x.1 == lo + 0x100))
  c.limitChanges k (c.get F.HP_WDOG_LIMIT k)

/-- The fabric routes of ROUTE; none where the image has no such section. -/
def routeTables (s : List (Nat × List Nat)) : List Nat × List Nat :=
  if hasSection s 12 then
    ((List.range 16).map (fun i => secWord s 12 (4 * i) % 32),
     (List.range 64).map (fun i => bitsOf (secWord s 12 (64 + i / 4 * 4)) (8 * (i % 4) + 1) (8 * (i % 4))))
  else ([], [])

/-- The model of THERMAL: zones, shares, sensors; nothing where the image has no such section. -/
def thermalTables (s : List (Nat × List Nat)) : List (Nat × Nat) × List (List Nat) × List Nat :=
  if hasSection s 13 then
    ((List.range 9).map (fun z => (secWord s 13 (4 * z) % 65536, secWord s 13 (4 * z) / 65536)),
     (List.range 16).map (fun i => (List.range 9).map (fun z => bodyByte s 13 (36 + 9 * i + z))),
     (List.range 4).map (fun d => bitsOf (secWord s 13 180) (4 * d + 3) (4 * d)))
  else ([], [], [])

/-- The part of the blocks that apply at E(n): NODE, POWER, TWIN, ROUTE, THERMAL, FAULT, LAYER_MAX. -/
def Chip.applyAtE (c : Chip) : Chip :=
  let c := (((c.loadWords (c.pendWords 1)).loadWords (c.pendWords 10)).loadWords (c.pendWords 11))
  let rt := routeTables c.str.pend
  let th := thermalTables c.str.pend
  let c := c.setStr { c.str with img := { c.str.img with
    layerMax := c.pendWord 2 4, fault := faultEntries c.str.pend, routeSeg := rt.1, routeDir := rt.2
    thZones := th.1, thShares := th.2.1, thSensors := th.2.2 } }
  let c := if c.on F.TKO_CTRL_EN then
      (if c.twin && c.get F.TKO_STAT_STATE == 0 then c.tkoFresh.tkoState 1 else if !c.twin then c.tkoDisabled else c) else c
  ((c.ldlEff).ldlEnforce).serveWithdrawn

/-! ### Commit and application (R406, R408, R411) -/

/-- The parts still to apply: 0 TRK and CMP, 1 the blocks at E(n), 0x10 + k assembly of port k, 0x20 + k its transfer. -/
def allParts : List Nat := [0, 1] ++ (List.range 8).map (0x10 + ·) ++ (List.range 8).map (0x20 + ·)

/-- Every block has applied: the slots flip (R403, R411). -/
def Chip.switchApplied (c : Chip) : Chip :=
  let s := c.str
  let u := if s.immediate then 0 else unsigned 48 c.namedLine
  let seq := hdrSeq s.pendHead
  let c := ((c.set F.STR_STAT_ACTIVE_SLOT c.pendingSlot).set F.STR_STAT_ACTIVE_VALID 1).set F.STR_STAT_PEND_VALID 0
  let c := (c.set F.STR_STAT_SW_STATE 0).set F.STR_ACT_SEQ_SEQ seq
  let c := (c.set F.STR_ACT_PRESS_LO_ID_LO (fieldLE s.pendHead 16 4)).set F.STR_ACT_PRESS_HI_ID_HI (fieldLE s.pendHead 20 4)
  let c := (c.set F.STR_APPLIED_LO_LINE_LO u).set F.STR_APPLIED_HI_LINE_HI (u / 2 ^ 32)
  let c := c.setStr { c.str with act := s.pend, actHead := s.pendHead, pend := [], pendHead := [], pendSet := none, eLine := none, loadFail := none }
  ((c.setTko { c.tko with pend := none }).emit 0x0F07 [(6, u), (4, seq)]).releaseCold

/-- A part has applied. -/
def Chip.partApplied (c : Chip) (part : Nat) : Chip :=
  let rest := c.str.wantApply.filter (fun x => x != part)
  let c := c.setStr { c.str with wantApply := rest }
  if c.switchState = 2 ∧ rest = [] then c.switchApplied else c

/-- Whether a part of a committed switch is still to apply. -/
def Chip.partDue (c : Chip) (part : Nat) : Bool := c.switchState == 2 && c.str.wantApply.contains part

/-- A port applies at assembly; the first port in effect loads PORTS, STITCH and ENERGY for all. -/
def Chip.applyPortAssembly (c : Chip) (k : Fin 8) (n : Int) : Chip :=
  if c.partDue (0x10 + k.val) then
    let first := (List.range 8).all (fun j => c.str.wantApply.contains (0x10 + j))
    let c := if first then (c.applyCol n).applyFlw else c
    (c.applyAssembly k).partApplied (0x10 + k.val)
  else c

/-- A port applies at a transfer. -/
def Chip.applyPortTransfer (c : Chip) (k : Fin 8) : Chip :=
  if c.partDue (0x20 + k.val) then (c.applyTransfer k).partApplied (0x20 + k.val) else c

/-- TRK and CMP apply at the issue of the named line; TRK's words are loaded before its hand-over. -/
def Chip.applyIssue (n : Int) (c : Chip) : Chip :=
  if c.partDue 0 ∧ c.namedLine ≤ n then (c.applyTrk).applyCmp else c

/-- From the issue of the named line on, the ports that assemble and transfer nothing have reached their point (R411, R743). -/
def Chip.passedParts (c : Chip) : Chip :=
  if c.switchState = 2 ∧ c.str.eLine.isSome ∧ !c.str.wantApply.contains 0 then
    allPorts.foldl (fun c (k : Fin 8) =>
      if c.assembles k && (c.firedFrom k c.namedLine).isSome then c
      else (c.applyPortAssembly k c.namedLine).applyPortTransfer k) c
  else c

/-- After the issue of line n E(n) is known, and the ports that pass it apply. -/
def Chip.afterIssue (c : Chip) (n : Int) (e : Nat) : Chip :=
  if c.partDue 0 ∧ c.namedLine ≤ n then
    let c := c.setStr { c.str with eLine := some e }
    ((c.sourcesChanged).partApplied 0).passedParts
  else c

/-- E(n) is reached (R411). -/
def Chip.applicationPoint (c : Chip) : Chip :=
  match c.str.eLine with
  | some e => if c.partDue 1 && decide ((e : Rat) / (256 : Nat) ≤ c.nowQ) then c.applyAtE.partApplied 1 else c
  | none => c

/-- An immediate switch: everything applies at commit (R408). -/
def Chip.applyAll (c : Chip) : Chip :=
  let c := ((c.applyTrk).trkHandOver).applyCmp.sourcesChanged
  let c := allPorts.foldl (fun c (k : Fin 8) => (c.applyPortAssembly k (c.lastIssued + 1)).applyPortTransfer k) c
  ((c.partApplied 0).applyAtE).partApplied 1

/-- Every block is ready: STR commits (R406, R408). -/
def Chip.strCommit (c : Chip) : Chip :=
  let now := !c.trkOn || !c.trk.issued
  let c := (c.setStr { c.str with wantApply := allParts, immediate := now }).set F.STR_STAT_SW_STATE 2
  let c := c.emit 0x0F05
  if now then c.applyAll else c

/-- STR looks at the answers it has: an abort for a head that refused, READY of ports that have loaded, commit (R406, R407);
after the commit, at the ports that pass the named line. -/
def Chip.strServe (c : Chip) : Chip :=
  if c.switchState ≠ 1 then c.passedParts
  else match c.str.loadFail with
    | some k => c.strAbort 0x49 (0x10 + k)
    | none =>
      let c := c.setStr { c.str with wantReady := c.str.wantReady.filter (fun b => !(decide (0x10 ≤ b) && decide (b < 0x18) && c.mayAnswer b)) }
      if c.str.wantReady = [] then c.strCommit else c

/-- A block answers READY. -/
def Chip.blockReady (c : Chip) (b : Nat) : Chip :=
  if c.switchState = 1 ∧ c.mayAnswer b then (c.setStr { c.str with wantReady := c.str.wantReady.filter (fun x => x != b) }).strServe else c

/-- m_max has come to the guard before every READY (R407). -/
def Chip.strGuard (c : Chip) : Chip :=
  if c.switchState = 1 ∧ (c.namedLine - (c.get F.STR_XCFG_GUARD : Int) ≤ c.handedOver) ∧ c.trkOn ∧ c.trk.issued
  then c.strAbort 0x48 (c.str.wantReady.headD 0xFF) else c

/-- An approval is refused (R405). -/
def Chip.switchRefused (c : Chip) (reason : Nat) : Chip := (c.strResult reason 0).emit 0x0F04 [(1, reason)]

/-- The switch is approved: prepare starts (R406, R409, R414). A Flowstone commit in progress is abandoned. -/
def Chip.switchApproved (c : Chip) : Chip :=
  let cold := c.coldPorts
  let set := sectionSet c.str.pend
  let c := if c.on F.FLW_SHSTAT_PENDING then
      ((c.setFlw { c.flw with wantLoad := [], wantTake := [] }).set F.FLW_SHSTAT_PENDING 0).dropCommands .commit else c
  let c := c.setStr { c.str with
    cold := cold, pendSet := some set, loadFail := none, eLine := none, wantReady := readyBlocks ++ (List.range 8).map (0x10 + ·) }
  let c := (c.set F.STR_STAT_SW_STATE 1).set F.STR_COLD_PORTS cold
  let c := c.setTko { c.tko with pend := if hasSection c.str.pend 11 then some (secWord c.str.pend 11 36, c.namedLine) else none }
  let c := c.emit 0x0F03 [(6, unsigned 48 c.namedLine), (1, cold)]
  let c := (allPorts.filter (fun (k : Fin 8) => c.isUp k)).foldl (fun c (k : Fin 8) =>
    c.command k (c.shapeCommands k set (1 - c.asm[k].setNo) .image)) c
  c.strServe

/-- The reason for which an approval is refused now (R405). -/
def Chip.switchReason (c : Chip) : Option Nat :=
  let soon := c.on F.TRK_STAT_RUN && c.trkOn && c.trk.issued
    && decide (c.namedLine < c.handedOver + ((ceilDiv (c.fLim * c.get F.STR_XCFG_LEAD) 1000000 : Nat) : Int))
  if !c.on F.STR_STAT_PEND_VALID then some 0x40
  else if c.switchState ≠ 0 then some 0x41
  else if soon then some 0x42
  else if allPorts.any (fun (k : Fin 8) => c.coldPort k.val && c.portState k != 0) then some 0x43
  else none

/-- STR_APPROVE (R405, R407). -/
def Chip.strApprove (c : Chip) (op : Nat) : Chip :=
  if op = 1 then
    match c.switchReason with
    | some r => c.switchRefused r
    | none => c.switchApproved
  else if op = 2 ∧ c.switchState = 1 then c.strAbort 0x4A 0xFF
  else c.addSat F.STR_REJ_CNT_COUNT 1

/-! ### After a reset of an island (R742) -/

/-- Every register of an island that the active image loads takes the image's value. -/
def Chip.reloadIsland (c : Chip) (isl : Nat) : Chip :=
  if !c.on F.STR_STAT_ACTIVE_VALID then c
  else
    let w := ((List.range 12).map (sectionWords c.str.act)).flatten.filter (fun x => islandOf (blockOf x.1) == isl)
    let c := c.loadWords w
    let c := if isl = islandOf 0x0A then c.handOver ((w.map Prod.fst).filter (fun a => blockOf a == 0x0A)) else c
    if isl = islandOf 0x0D then
      let set := sectionSet c.str.act
      Chip.flwBounds { c with flw := { c.flw with sets := Vector.replicate 8 set } }
    else c

end Sys2Proof.Machine
end

