-- ==== Sys2Proof/Machine/Fab.lean ====
section
/-!
DEFINITION. The Voundyo fabric (R417 to R464): links, frames, routing and wrap, flows, the map, the election and the time
servo, low-power links and beacons.
-/

namespace Sys2Proof.Machine

def Chip.setFab (c : Chip) (s : FabSt) : Chip := { c with fab := s }
def Chip.fport (c : Chip) (p : Fin 3) : FabPort := c.fab.ports[p]
def Chip.setFport (c : Chip) (p : Fin 3) (x : FabPort) : Chip := c.setFab { c.fab with ports := c.fab.ports.set p x }
def fabPorts : List (Fin 3) := [0, 1, 2]

/-- The state of a port: 0 DOWN, 1 TRAIN, 2 CHECK, 3 UP, 4 LOW, 5 MISWIRE, 6 ASLEEP, 7 OFF. -/
def Chip.fabState (c : Chip) (p : Fin 3) : Nat := c.get F.FAB_P_STAT_STATE p
def Chip.carriesFrames (c : Chip) (p : Fin 3) : Bool := c.fabState p == 3 || c.fabState p == 4

/-! ### Flags that follow the ports (R428, R440, R456) -/

/-- A map change is due, and a TOPO. -/
def Chip.mapDirty (c : Chip) : Chip := c.setFab { c.fab with mapChanged := true, topoDue := true }

/-- RUN, LOW_LINK, ISOLATED, WRAP_E and WRAP_W; TKO hears of ISOLATED; a wrap or an ALT route that takes effect is recorded. -/
def Chip.fabShow (c : Chip) (was : List Bool) : Chip :=
  let dead := fun (p : Fin 3) => c.fabState p == 0 || c.fabState p == 6
  let en := fun (p : Fin 3) => bitAt (c.get F.FAB_NODE_PORT_EN) p
  let c := (c.set F.FAB_STAT_RUN (bit (fabPorts.any c.carriesFrames))).set F.FAB_STAT_LOW_LINK (bit (fabPorts.any (fun (p : Fin 3) => c.fabState p == 4)))
  let iso := dead 0 && dead 1
  let c := ((c.set F.FAB_STAT_ISOLATED (bit iso)).set F.FAB_STAT_WRAP_E (bit (dead 0 && c.carriesFrames 1))).set F.FAB_STAT_WRAP_W
    (bit (dead 1 && c.carriesFrames 0))
  let fell := fabPorts.filter (fun (p : Fin 3) => was.getD p false && !c.carriesFrames p && dead p && en p)
  let c := fell.foldl (fun c (p : Fin 3) => c.emit 0x1806) c
  (if c.on F.FAB_CTRL_EN then c.isolated iso else c).mapDirty

/-- Change a port's state and what follows from it. -/
def Chip.fabEnter (c : Chip) (p : Fin 3) (st : Nat) : Chip :=
  let was := fabPorts.map c.carriesFrames
  (c.set F.FAB_P_STAT_STATE st p).fabShow was

/-! ### Links (R418 to R421) -/

/-- Whether a port may train (R418). -/
def Chip.mayTrain (c : Chip) (p : Fin 3) : Bool :=
  c.on F.STR_STAT_ACTIVE_VALID && bitAt (c.get F.FAB_NODE_PORT_EN) p && c.on F.FAB_CTRL_EN && c.up 3

/-- Training begins: both lanes, LINK_ID out. -/
def Chip.fabTrain (c : Chip) (p : Fin 3) : Chip :=
  let c := c.setFport p { c.fport p with txSeq := 0, rxSeq := 0, used := Vector.replicate 5 0, back := Vector.replicate 5 0, turn := 0 }
  (c.fabEnter p 1).send "linkId" [p.val, c.nodeId, p.val + 1, c.get F.SYS_ID_CL, c.get F.STR_ACT_PRESS_LO_ID_LO]

/-- A port whose conditions hold trains; a retrain asks for its grant first (R421). -/
def Chip.fabPortTrain (c : Chip) (p : Fin 3) : Chip :=
  let st := c.fabState p
  if (st = 0 ∨ st = 6 ∨ st = 7) ∧ c.mayTrain p then
    if (c.fport p).retrain ∧ !c.ldlHolds 1 p then c.ldlAsk 1 p 0 (c.get F.FAB_LP_RETRAIN_AMT) else c.fabTrain p
  else c

/-- The grant of client 1 is held: a DOWN port trains. A lane retry waits for its outcome. -/
def Chip.fabGranted (c : Chip) (p : Fin 3) : Chip :=
  let st := c.fabState p
  if (st = 0 ∨ st = 6 ∨ st = 7) ∧ c.mayTrain p then c.fabTrain p
  else if st = 3 ∨ st = 4 then c else c.ldlRelease 1 p

/-- Whether a peer's LINK_ID holds the link in MISWIRE (R419). -/
def Chip.miswired (c : Chip) (p : Fin 3) (node port cl press : Nat) : Bool :=
  let right := if p = 0 then port == 2 else if p = 1 then port == 1 else port == 3
  let sameSeg := node / 64 == c.nodeId / 64
  !right || (if p = 2 then sameSeg else !sameSeg) || node == c.nodeId || cl != c.get F.SYS_ID_CL || press != c.get F.STR_ACT_PRESS_LO_ID_LO

/-- The peer's LINK_ID arrives over the given lanes. -/
def Chip.linkIdRx (c : Chip) (p : Fin 3) (lanes node port cl press : Nat) : Chip :=
  let st := c.fabState p
  if st = 1 ∨ st = 2 ∨ st = 5 then
    let c := ((c.set F.FAB_P_STAT_PEER node p).set F.FAB_P_STAT_LANES lanes p).ldlRelease 1 p
    if c.miswired p node port cl press then
      ((c.set F.FAB_STAT_MISWIRE 1).fabEnter p 5).emit 0x1804 [(2, node), (1, port), (1, cl), (4, press)]
    else
      let c := c.setFport p { c.fport p with retrain := true, beaconNext := none, peerAsks := 0, weAsk := 0, laneRetry := if lanes = 3 then none else some (c.now + ms 100) }
      (c.fabEnter p 3).emit 0x1801 [(1, p.val), (2, node), (1, lanes)]
  else c

/-! ### Frames (R422 to R425, R429 to R435, R440) -/

/-- The plane of a kind: 0 control, 1 data, 2 management. -/
def framePlane (kind : Nat) : Nat := if kind < 0x10 then 0 else if kind < 0x20 then 1 else 2

/-- Whether a frame's kind, scope and length go together (R424). -/
def frameSound (f : FabFrame) : Bool :=
  let n := f.body.length
  let fits := fun (lo hi : Nat) => decide (lo ≤ n) && decide (n ≤ hi) && n % 4 == 0
  match f.kind with
  | 0x01 => (f.scope == 1 || f.scope == 2) && n == 32
  | 0x02 => f.scope == 0 && n == 64
  | 0x03 => f.scope == 0 && n == 16
  | 0x04 => f.scope == 0 && n == 16
  | 0x05 => f.scope == 0 && n == 16
  | 0x06 => f.scope == 2 && n == 32
  | 0x07 => f.scope == 0 && n == 8
  | 0x08 => f.scope == 3 && n == 24
  | 0x10 => f.scope == 0 && fits 4 1024
  | 0x11 => decide (f.scope ≤ 2) && fits 16 1024
  | 0x20 => f.scope == 0 && fits 4 1024
  | 0x21 => f.scope == 0 && n == 32
  | _ => false

def Chip.hopDrop (c : Chip) : Chip := c.addSat F.FAB_HOP_DROP_COUNT 1

/-- The frame as it is written out for the environment. -/
def FabFrame.words (f : FabFrame) : List Nat :=
  [f.kind, f.scope + 4 * bit f.wrapped + 8 * bit f.flowStart, f.dest, f.src, f.hops, f.frag, f.seq, f.body.length, f.aux, f.cls] ++ f.body

/-- Nodes in this segment as the map shows them, at least this one. -/
def Chip.ringSize (c : Chip) : Nat := max 1 (c.get F.FAB_RING_SIZE)
def Chip.position (c : Chip) : Nat := c.nodeId % 64

/-- The class of a frame on the link it leaves by (R434): class 1 once it crosses the dateline or enters FU. -/
def Chip.classOut (c : Chip) (p : Fin 3) (f : FabFrame) : Nat :=
  let plane := framePlane f.kind
  if plane = 2 then 4
  else
    let cross := p = 2 ∨ (p = 0 ∧ c.position = c.ringSize - 1) ∨ (p = 1 ∧ c.position = 0)
    2 * plane + (if cross ∨ f.cls % 2 = 1 then 1 else 0)

/-- Whether a port has a credit of a class left. -/
def Chip.hasCredit (c : Chip) (p : Fin 3) (cls : Nat) : Bool :=
  if h : cls < 5 then decide ((c.fport p).used[cls] < Config.fabricCredits cls + (c.fport p).back[cls]) else false

/-- A frame leaves on a link: it takes a credit and an LSEQ and is kept until it is acknowledged (R422, R434). -/
def Chip.transmit (c : Chip) (p : Fin 3) (f : FabFrame) : Chip :=
  let x := c.fport p
  let x := { x with
    used := if h : f.cls < 5 then x.used.set f.cls (x.used[f.cls] + 1) else x.used
    txSeq := (x.txSeq + 1) % 256, unacked := x.unacked ++ [(x.txSeq, f)]
    turn := if framePlane f.kind = 2 then 0 else if framePlane f.kind = 1 then x.turn + 1 else x.turn }
  (c.setFport p x).send "frame" ([p.val, (c.fport p).txSeq] ++ f.words)

/-- The next frame a link sends: control first, then data and management by their weights (R435). -/
def Chip.nextOut (c : Chip) (p : Fin 3) : Option (FabFrame × List FabFrame) :=
  let l := (c.fport p).out
  let pick := fun (plane : Nat) => takeFirst (fun (f : FabFrame) => framePlane f.kind == plane && c.hasCredit p f.cls) l
  match pick 0 with
  | some x => some x
  | none =>
    match pick 1, pick 2 with
    | some d, some m => some (if (c.fport p).turn * c.get F.FAB_XARB_MGMT_W < c.get F.FAB_XARB_DATA_W then d else m)
    | some d, none => some d
    | none, m => m

/-- Send what the credits of a port allow; n bounds the number of frames. -/
def Chip.fabServe (p : Fin 3) : Nat → Chip → Chip
  | 0, c => c
  | n + 1, c =>
    if c.carriesFrames p then
      match c.nextOut p with
      | none => c
      | some (f, rest) => Chip.fabServe p n ((c.setFport p { c.fport p with out := rest }).transmit p f)
    else c

/-- A frame is put on the way out of a port. -/
def Chip.outOf (c : Chip) (p : Fin 3) (f : FabFrame) : Chip :=
  let f := { f with cls := c.classOut p f }
  let c := c.setFport p { c.fport p with out := (c.fport p).out ++ [f] }
  Chip.fabServe p ((c.fport p).out.length) c

/-- The direction to a ring position of this segment: as LC last wrote it, else as the image or the shorter way gives (R430,
R431). -/
def Chip.direction (c : Chip) (pos : Nat) : Nat :=
  let d := c.fab.dirs.getD pos (c.str.img.routeDir.getD pos 0)
  if d = 1 ∨ d = 2 then d
  else
    let n := c.ringSize
    if 2 * ((pos + n - c.position) % n) ≤ n then 1 else 2

/-- The egress and the alternative of a segment: 0 own ring, 1 FE, 2 FW, 3 FU; none where the entry is not valid (R429, R430). -/
def Chip.egress (c : Chip) (seg : Nat) : Option (Nat × Nat) :=
  match c.str.img.routeSeg[seg]? with
  | some w => if bitAt w 4 then some (w % 4, w / 4 % 4) else none
  | none =>
    let mine := c.nodeId / 64
    let up := (seg + 16 - mine) % 16
    let riser := fun (pos : Nat) => if c.position = pos then 3 else c.direction pos
    if 2 * up ≤ 16 then some (riser 0, riser 1) else some (riser 1, riser 0)

/-- The port of an egress code toward a destination: 1 FE, 2 FW, 3 FU. -/
def Chip.egressPort (c : Chip) (e dest : Nat) : Option (Fin 3) :=
  let e := if e = 0 then c.direction (dest % 64) else e
  if h : 1 ≤ e ∧ e ≤ 3 then some ⟨e - 1, by omega⟩ else none

def Chip.otherSide' (p : Fin 3) : Fin 3 := if p = 0 then 1 else if p = 1 then 0 else 2

/-- Whether a port is DOWN or ASLEEP for routing. -/
def Chip.closed (c : Chip) (p : Fin 3) : Bool := !c.carriesFrames p

/-- A unicast frame leaves through a segment port, or wraps (R440); a second wrap discards it (R433). -/
def Chip.leaveOrWrap (c : Chip) (p : Fin 3) (f : FabFrame) : Option (Fin 3 × FabFrame) :=
  if !c.closed p then some (p, f)
  else if p = 2 ∨ f.wrapped ∨ c.closed (Chip.otherSide' p) then none
  else some (Chip.otherSide' p, { f with wrapped := true })

/-- The way out of a unicast frame (R425, R429, R433, R440, R441, R443); none where it is discarded. `from'` is the port it came
by; 3 stands for this node. -/
def Chip.routeOf (c : Chip) (from' : Nat) (f : FabFrame) : Option (Fin 3 × FabFrame) :=
  let seg := f.dest / 64
  if f.wrapped ∧ from' = 0 ∧ seg = c.nodeId / 64 then c.leaveOrWrap 1 f
  else if f.wrapped ∧ from' = 1 ∧ seg = c.nodeId / 64 then c.leaveOrWrap 0 f
  else if seg = c.nodeId / 64 then
    match c.egressPort 0 f.dest with
    | some p => c.leaveOrWrap p f
    | none => none
  else if !c.feature 4 then none
  else match c.egress seg with
    | none => none
    | some (e, alt) =>
      match c.egressPort e f.dest with
      | some p =>
        if !c.closed p then some (p, f)
        else match c.egressPort alt f.dest with
          | some q => if c.closed q then none else some (q, f)
          | none => none
      | none => none

/-- A broadcast seen for the first time: its window advances (R432). The key joins source and plane. -/
def Chip.firstSeen (c : Chip) (f : FabFrame) : Option Chip :=
  let key := 4 * f.src + framePlane f.kind
  match c.fab.bcast.find? (fun x => x.1 == key) with
  | none => some (c.setFab { c.fab with bcast := (key, f.seq, 1) :: c.fab.bcast })
  | some (_, top, mask) =>
    let ahead := (f.seq + 65536 - top) % 65536
    let put := fun (top mask : Nat) => c.setFab { c.fab with bcast := (key, top, mask) :: c.fab.bcast.filter (fun x => x.1 != key) }
    if ahead = 0 then none
    else if ahead < 32768 then some (put f.seq ((if ahead < 64 then mask * 2 ^ ahead else 0) % 2 ^ 64 + 1))
    else
      let behind := 65536 - ahead
      if 64 ≤ behind ∨ bitAt mask behind then none else some (put top (mask + 2 ^ behind))

/-- Flood a broadcast out of every UP port but the one it came by; scope 1 never leaves through FU (R425, R432). -/
def Chip.flood (c : Chip) (from' : Nat) (f : FabFrame) : Chip :=
  fabPorts.foldl (fun c (p : Fin 3) =>
    if p.val = from' ∨ !c.carriesFrames p ∨ (p = 2 ∧ (f.scope = 1 ∨ !c.feature 4)) then c else c.outOf p f) c

/-- A frame for this node is handed to the block of its kind. -/
def Chip.deliver (c : Chip) (from' : Nat) (f : FabFrame) : Chip := c.send "deliver" (from' :: f.words)

/-- A frame is routed, flooded, delivered or discarded (R424, R429, R432, R433). -/
def Chip.forward (c : Chip) (from' : Nat) (f : FabFrame) : Chip :=
  if !frameSound f then c.hopDrop
  else
    let f := if from' = 2 ∧ framePlane f.kind < 2 then { f with cls := 2 * framePlane f.kind } else f
    let f := if from' < 3 then { f with hops := f.hops + 1 } else f
    if f.scope = 3 then c.deliver from' f
    else if f.scope ≠ 0 then
      match c.firstSeen f with
      | none => c
      | some c => ((if from' < 3 then c.deliver from' f else c)).flood from' f
    else if f.dest = c.nodeId then c.deliver from' f
    else if 255 ≤ f.hops then c.hopDrop
    else match c.routeOf from' f with
      | some (p, f) => c.outOf p f
      | none => c.hopDrop

/-- The link layer answers a frame: cumulative ACK, or NAK (R422). -/
def Chip.linkAck (c : Chip) (p : Fin 3) (lseq : Nat) (nak : Bool) : Chip := c.send "linkAck" [p.val, lseq, bit nak]

/-- A frame arrives on a port with its LSEQ (R422), or comes from a block of this node (from' = 3). -/
def Chip.frameArrives (c : Chip) (from' lseq : Nat) (crcOk : Bool) (f : FabFrame) : Chip :=
  if h : from' < 3 then
    let p : Fin 3 := ⟨from', h⟩
    let x := c.fport p
    if !c.carriesFrames p then c
    else if !crcOk then (c.addSat F.FAB_P_ERR_CRC 1 p).linkAck p ((x.rxSeq + 255) % 256) true
    else if lseq = x.rxSeq then
      ((c.setFport p { x with rxSeq := (x.rxSeq + 1) % 256 }).linkAck p lseq false).forward from' f
    else if (x.rxSeq + 256 - lseq) % 256 ≤ 128 then c.linkAck p ((x.rxSeq + 255) % 256) false
    else c.linkAck p ((x.rxSeq + 255) % 256) true
  else c.forward 3 f

/-- A link ACK frees frames; a NAK replays the rest (R422). -/
def Chip.linkAckRx (c : Chip) (p : Fin 3) (lseq : Nat) (nak : Bool) : Chip :=
  let x := c.fport p
  let rest := x.unacked.dropWhile (fun u => decide ((lseq + 256 - u.1) % 256 < 128))
  let c := c.setFport p { x with unacked := rest }
  if nak then rest.foldl (fun c u => c.send "frame" ([p.val, u.1] ++ u.2.words)) (c.addSat F.FAB_P_ERR_REPLAY 1 p) else c

/-- A CREDIT block returns credits (R434). -/
def Chip.creditRx (c : Chip) (p : Fin 3) (amounts : List Nat) : Chip :=
  let x := c.fport p
  let c := c.setFport p { x with back := Vector.ofFn (fun (i : Fin 5) => x.back[i] + amounts.getD i 0) }
  Chip.fabServe p (c.fport p).out.length c

/-! ### A port goes down (R421, R440 to R442) -/

/-- Frames that a closed port held: unicast data and management frames go the other way, control frames are discarded. -/
def Chip.rewrap (c : Chip) (p : Fin 3) : Chip :=
  let x := c.fport p
  let all := x.unacked.map Prod.snd ++ x.out
  let c := c.setFport p { x with unacked := [], out := [] }
  (all.filter (fun f => framePlane f.kind != 0 && f.scope == 0)).foldl (fun c f =>
    match c.routeOf 3 f with
    | some (q, f) => c.outOf q f
    | none => c.hopDrop) c

/-- A port is DOWN: cause 0 loss of blocks, 1 RETRAIN, 2 DOWN written, 3 LINK island or fabric off. -/
def Chip.fabDown (c : Chip) (p : Fin 3) (cause : Nat) : Chip :=
  let st := c.fabState p
  if st = 0 ∨ st = 7 then c.setFport p { c.fport p with retrain := true }
  else
    let c := c.setFport p { c.fport p with retrain := true, laneRetry := none }
    let c := ((c.set F.FAB_P_STAT_LANES 0 p).ldlRelease 1 p).fabEnter p 0
    ((c.emit 0x1802 [(1, p.val), (1, cause)])).rewrap p

/-- A write of RETRAIN: an UP port goes DOWN first; a MISWIRE port checks again (R419, R421). -/
def Chip.fabRetrain (c : Chip) (p : Fin 3) : Chip := (c.fabDown p 1).fabPortTrain p

/-- A fabric lane goes down (R420). -/
def Chip.fabLaneLost (c : Chip) (p : Fin 3) (lane : Nat) : Chip :=
  if c.carriesFrames p ∧ bitAt (c.get F.FAB_P_STAT_LANES p) lane then
    let lanes := putBit (c.get F.FAB_P_STAT_LANES p) lane false
    let c := (c.set F.FAB_P_STAT_LANES lanes p).emit 0x1803
    if lanes = 0 then c.fabDown p 0
    else (c.setFport p { c.fport p with laneRetry := some (c.now + ms 100) }).send "fabAlign" [p.val, lanes, 1]
  else c

/-- The retry of a down lane: it asks for its grant; with the grant, the lane is back if it locks (R420). -/
def Chip.fabLaneRetry (c : Chip) (p : Fin 3) (locks : Bool) : Chip :=
  match (c.fport p).laneRetry with
  | none => c
  | some t =>
    if !c.carriesFrames p then c
    else if c.ldlHolds 1 p then
      let c := c.ldlRelease 1 p
      if locks then ((c.setFport p { c.fport p with laneRetry := none }).set F.FAB_P_STAT_LANES 3 p).send "fabAlign" [p.val, 3, 0]
      else c.setFport p { c.fport p with laneRetry := some (c.now + ms 100) }
    else if t ≤ c.now then
      (c.setFport p { c.fport p with laneRetry := some (c.now + ms 100) }).ldlAsk 1 p 0 (c.get F.FAB_LP_RETRAIN_AMT)
    else c

/-! ### Flows and the send queue (R438, R452) -/

def Chip.txSlotAddr (c : Chip) (slot : Nat) : Nat :=
  c.get F.FAB_TXQ_BASE_HI_ADDR * 2 ^ 32 + c.get F.FAB_TXQ_BASE_LO_ADDR * 4096 + 32 * slot

/-- The descriptor at RD ends with a code: STATUS is written, RD advances. -/
def fabEndDesc (errs : List DdrError) (slot code : Nat) (x : Chip × Store) : Chip × Store :=
  let w := (agentWriteOk .fab errs (x.1.txSlotAddr slot + 28) (leBytes 4 (2 ^ 31 + code)) x).1
  (((w.1.setFab { w.1.fab with tx := none })).set F.FAB_TXQ_RD_RD ((w.1.get F.FAB_TXQ_RD_RD + 1) % 512), w.2)

/-- Cut bytes into pieces of at most n. -/
def pieces (n : Nat) : Nat → List Nat → List (List Nat)
  | 0, _ => []
  | k + 1, l => if l = [] then [] else l.take n :: pieces n k (l.drop n)

/-- A send descriptor (R452). -/
structure SendDesc where
  kind : Nat
  scope : Nat
  dest : Nat
  len : Nat
  addr : Nat
  ofs : Nat
  xfer : Nat

def parseSend (l : List Nat) : SendDesc :=
  { kind := l.getD 0 0, scope := l.getD 1 0 % 4, dest := fieldLE l 2 2 % 1024, len := fieldLE l 4 4, addr := fieldLE l 8 5
    ofs := fieldLE l 16 4, xfer := fieldLE l 20 2 }

/-- Whether a descriptor breaks its table. -/
def sendBad (d : SendDesc) (l : List Nat) : Bool :=
  let ok := fun (lo hi : Nat) => decide (lo ≤ d.len) && decide (d.len ≤ hi) && d.len % 4 == 0
  let len := match d.kind with
    | 0x10 => ok 32 4096
    | 0x11 => ok 4 16777216
    | 0x20 => ok 4 1024
    | 0x21 => d.len == 32
    | _ => false
  !len || (d.scope != 0 && (d.kind != 0x11 || d.scope == 3)) || decide (4 ≤ l.getD 1 0) || decide (1024 ≤ fieldLE l 2 2)
    || fieldLE l 13 3 != 0 || fieldLE l 22 6 != 0

/-- The frames of a descriptor, before their sequence numbers (R453, R454). -/
def Chip.sendFrames (c : Chip) (d : SendDesc) (data : List Nat) : List FabFrame :=
  let base : FabFrame := { kind := d.kind, scope := d.scope, wrapped := false, flowStart := false, dest := if d.scope = 0 then d.dest else 0
                           src := c.nodeId, hops := 0, frag := 0, seq := 0, body := data, aux := 0, cls := 0 }
  if d.kind = 0x10 then
    let ps := pieces 1024 5 data
    ps.zipIdx.map (fun x => { base with frag := x.2 + 4 * bit (x.2 + 1 == ps.length), body := x.1 })
  else if d.kind = 0x11 then
    let ps := pieces 1012 17000 data
    let crc := crc32 data
    ps.zipIdx.map (fun x =>
      let last := x.2 + 1 == ps.length
      { base with body := bytesLE 2 d.xfer ++ [bit last, 0] ++ bytesLE 4 (if last then crc else 0) ++ bytesLE 4 d.ofs ++ x.1, aux := d.ofs + 1012 * x.2 })
  else [base]

/-- The sequence number of the next frame of a flow, and the flow advanced. -/
def Chip.nextSeq (c : Chip) (dest : Nat) : Chip × Nat :=
  let n := ((c.fab.txFlows.find? (fun x => x.1 == dest)).map Prod.snd).getD 0
  (c.setFab { c.fab with txFlows := (dest, (n + 1) % 65536) :: c.fab.txFlows.filter (fun x => x.1 != dest) }, n)

/-- Whether the next frame to a destination carries FLOW_START. -/
def Chip.startsFlow (c : Chip) (dest : Nat) : Bool := c.fab.flowStart.contains dest || !c.fab.txFlows.any (fun x => x.1 == dest)

/-- Number the frames of a unicast data descriptor. -/
def Chip.numberFrames : List FabFrame → Chip → Chip × List FabFrame
  | [], c => (c, [])
  | f :: r, c =>
    let start := c.startsFlow f.dest
    let x := c.nextSeq f.dest
    let c := x.1.setFab { x.1.fab with flowStart := x.1.fab.flowStart.filter (fun d => d != f.dest) }
    let y := Chip.numberFrames r c
    (y.1, { f with seq := x.2, flowStart := start } :: y.2)

/-- Send frames of this node. -/
def Chip.sendAll (c : Chip) (l : List FabFrame) : Chip := l.foldl (fun c f => c.forward 3 f) c

/-- Number broadcast frames of a plane. -/
def Chip.numberBroadcast (c : Chip) (plane : Fin 3) (l : List FabFrame) : Chip × List FabFrame :=
  let n := c.fab.bcastSeq[plane]
  (c.setFab { c.fab with bcastSeq := c.fab.bcastSeq.set plane ((n + l.length) % 65536) },
   l.zipIdx.map (fun x => { x.1 with seq := (n + x.2) % 65536 }))

/-- FAB takes the descriptor at RD (R452). Its data lies in DDR or in the scratchpad. -/
def fabTake (errs : List DdrError) (x : Chip × Store) : Chip × Store :=
  let c := x.1
  let rd := c.get F.FAB_TXQ_RD_RD
  if c.fab.tx.isSome ∨ rd = c.get F.FAB_TXQ_WR_WR ∨ !c.up 3 then x
  else
    let slot := rd % 256
    match c.agentRead x.2 .fab errs (c.txSlotAddr slot) 32 with
    | (c, none) => fabEndDesc errs slot 1 (c, x.2)
    | (c, some bytes) =>
      let l := bytes.map BitVec.toNat
      let d := parseSend l
      if sendBad d l then fabEndDesc errs slot 1 (c, x.2)
      else
        let data := if d.addr < 2 ^ 36 then (c, some (x.2.read d.addr d.len)) else c.agentRead x.2 .fab errs d.addr d.len
        match data with
        | (c, none) => fabEndDesc errs slot 1 (c, x.2)
        | (c, some bytes) =>
          let frames := c.sendFrames d (bytes.map BitVec.toNat)
          let noRoute := d.scope == 0 && d.dest != c.nodeId && (match frames.head? with | some f => (c.routeOf 3 f).isNone | none => false)
          if noRoute then fabEndDesc errs slot 2 (c, x.2)
          else if d.scope ≠ 0 then
            let y := c.numberBroadcast 1 frames
            fabEndDesc errs slot 0 (y.1.sendAll y.2, x.2)
          else if d.kind < 0x20 then
            let y := Chip.numberFrames frames c
            let c := y.1.setFab { y.1.fab with tx := some { slot := slot, kind := d.kind, dest := d.dest, frames := y.2, sentAt := y.1.now } }
            (c.sendAll y.2, x.2)
          else fabEndDesc errs slot 0 (c.sendAll frames, x.2)

/-- An end-to-end acknowledgment of a flow (R438): cumulative; FULL makes the sender send again. -/
def e2eAckRx (errs : List DdrError) (src seq : Nat) (full : Bool) (x : Chip × Store) : Chip × Store :=
  let c := x.1
  match c.fab.tx with
  | none => x
  | some t =>
    if t.dest ≠ src then x
    else if full then (((c.setFab { c.fab with tx := some { t with sentAt := c.now } }).addSat F.FAB_E2E_CNT_RESEND 1).sendAll t.frames, x.2)
    else
      let rest := t.frames.filter (fun f => !decide ((seq + 65536 - f.seq) % 65536 < 32768))
      if rest = [] then fabEndDesc errs t.slot 0 x
      else (c.setFab { c.fab with tx := some { t with frames := rest, tries := 0, sentAt := c.now } }, x.2)

/-- E2E_TO passes without an acknowledgment (R438). -/
def e2eTimeout (errs : List DdrError) (x : Chip × Store) : Chip × Store :=
  let c := x.1
  match c.fab.tx with
  | none => x
  | some t =>
    if t.sentAt + us (10 * c.get F.FAB_XCFG_E2E_TO) ≤ c.now then
      if t.tries < c.get F.FAB_XCFG_TRIES then
        (((c.setFab { c.fab with tx := some { t with tries := t.tries + 1, sentAt := c.now } }).addSat F.FAB_E2E_CNT_RESEND 1).sendAll t.frames, x.2)
      else
        let c := ((c.addSat F.FAB_E2E_CNT_FAIL 1).set F.FAB_STAT_E2E_FAIL 1).emit 0x180D [(2, t.dest)]
        fabEndDesc errs t.slot 3 (c.setFab { c.fab with flowStart := t.dest :: c.fab.flowStart }, x.2)
    else x

/-- Whether a data frame is the next of its flow, or starts one (R438); the flow advanced. -/
def Chip.acceptSeq (c : Chip) (src seq : Nat) (start : Bool) : Option Chip :=
  let want := (c.fab.rxFlows.find? (fun x => x.1 == src)).map Prod.snd
  if start || want == some seq then
    some (c.setFab { c.fab with rxFlows := (src, (seq + 1) % 65536) :: c.fab.rxFlows.filter (fun x => x.1 != src) })
  else none

/-- The answer to a data frame. -/
def Chip.e2eAnswer (c : Chip) (dest seq : Nat) (full : Bool) : Chip :=
  c.forward 3 { kind := 7, scope := 0, wrapped := false, flowStart := false, dest := dest, src := c.nodeId, hops := 0, frag := 0, seq := 0
                body := bytesLE 2 seq ++ [bit full, 0, 0, 0, 0, 0], aux := 0, cls := 0 }

/-- The last SEQ accepted of a flow. -/
def Chip.lastSeq (c : Chip) (src : Nat) : Nat :=
  ((((c.fab.rxFlows.find? (fun x => x.1 == src)).map Prod.snd).getD 0) + 65535) % 65536

/-- An ITEM fragment arrives (R453). -/
def itemFragment (errs : List DdrError) (src seq : Nat) (start : Bool) (idx : Nat) (last : Bool) (body : List Nat) (x : Chip × Store) : Chip × Store :=
  let c := x.1
  let wr := c.get F.FAB_INBOX_WR_WR
  let full := (wr + 512 - c.get F.FAB_INBOX_RD_RD) % 512 = 256
  if idx = 0 ∧ full then (c.e2eAnswer src seq true, x.2)
  else match c.acceptSeq src seq start with
    | none => (c.e2eAnswer src (c.lastSeq src) false, x.2)
    | some c =>
      let have' := if idx = 0 then [] else ((c.fab.items.find? (fun i => i.1 == src)).map Prod.snd).getD []
      let data := have' ++ body
      let others := c.fab.items.filter (fun i => i.1 != src)
      let c := c.setFab { c.fab with items := if last then others else (src, data) :: others }
      if last then
        let addr := c.get F.FAB_INBOX_BASE_HI_ADDR * 2 ^ 32 + c.get F.FAB_INBOX_BASE_LO_ADDR * 4096 + 4160 * (wr % 256)
        let head := bytesLE 2 src ++ bytesLE 2 data.length ++ bytesLE 4 0 ++ bytesLE 8 c.nowNs ++ List.replicate 48 0
        let w := (agentWriteOk .fab errs addr ((head ++ data).map (BitVec.ofNat 8)) (c, x.2)).1
        ((w.1.set F.FAB_INBOX_WR_WR ((wr + 1) % 512)).e2eAnswer src seq false, w.2)
      else (c.e2eAnswer src seq false, x.2)

/-- The bulk transfer of a source and XFER: bytes so far, whether it is bad. -/
def Chip.bulkOf (c : Chip) (src xfer : Nat) : Nat × Bool :=
  match c.fab.bulks.find? (fun b => b.1 == src && b.2.1 == xfer) with
  | some b => (b.2.2.1, b.2.2.2)
  | none => (0, false)

/-- A BULK frame is taken: its data is written into the window; at LAST the transfer is checked (R454). -/
def bulkTake (errs : List DdrError) (src aux xfer : Nat) (last : Bool) (tcrc tstart : Nat) (data : List Nat) (x : Chip × Store) : Chip × Store :=
  let c := x.1
  let base := c.get F.FAB_BULK_BASE_HI_ADDR * 2 ^ 32 + c.get F.FAB_BULK_BASE_LO_ADDR * 4096
  let b := c.bulkOf src xfer
  let out := c.get F.FAB_BULK_SIZE_SIZE * 2 ^ 20 < aux + data.length
  let w := if out then x else (agentWriteOk .fab errs (base + aux) (data.map (BitVec.ofNat 8)) x).1
  let got := if out then b.1 else b.1 + data.length
  let bad := b.2 || out
  let others := w.1.fab.bulks.filter (fun z => !(z.1 == src && z.2.1 == xfer))
  if !last then (w.1.setFab { w.1.fab with bulks := (src, xfer, got, bad) :: others }, w.2)
  else
    let c := w.1.setFab { w.1.fab with bulks := others }
    let n := aux + data.length - tstart
    let r := c.agentRead w.2 .fab errs (base + tstart) n
    let crcOk := match r.2 with | some l => crc32 (l.map BitVec.toNat) == tcrc | none => false
    let good := !bad && got == n && crcOk
    let c := ((r.1.set F.FAB_BULK_STAT_XFER xfer).set F.FAB_BULK_STAT_DONE (bit good)).set F.FAB_BULK_STAT_BAD (bit (!good))
    (if good then c else (c.set F.FAB_STAT_BULK_BAD 1).emit 0x180E [(2, xfer), (2, src)], w.2)

/-- A BULK frame arrives; a unicast one runs under R438. -/
def bulkFrame (errs : List DdrError) (unicast : Bool) (src seq : Nat) (start : Bool) (aux xfer : Nat) (last : Bool) (tcrc tstart : Nat)
    (data : List Nat) (x : Chip × Store) : Chip × Store :=
  if unicast then
    match x.1.acceptSeq src seq start with
    | none => (x.1.e2eAnswer src (x.1.lastSeq src) false, x.2)
    | some c =>
      let y := bulkTake errs src aux xfer last tcrc tstart data (c, x.2)
      (y.1.e2eAnswer src seq false, y.2)
  else bulkTake errs src aux xfer last tcrc tstart data x

/-! ### The map, the election, steering (R426 to R428, R431, R444, R445) -/

/-- This node's own TOPO values. -/
def Chip.ownTopo (c : Chip) : Topo :=
  { node := c.nodeId, pstate := c.get F.PWR_STAT_STATE, tseq := c.fab.topoSeq
    states := fabPorts.map (fun (p : Fin 3) => c.fabState p + 16 * c.get F.FAB_P_STAT_LANES p)
    peers := fabPorts.map (fun (p : Fin 3) => c.get F.FAB_P_STAT_PEER p)
    prio := c.get F.FAB_TSYNC_PRIO, estab := c.on F.FAB_TSYNC_STAT_ESTAB, locked := c.on F.FAB_TSYNC_STAT_LOCKED
    master := c.on F.FAB_TSYNC_STAT_MASTER, hops := c.get F.FAB_TSYNC_STAT_HOPS, masterId := c.get F.FAB_TSYNC_STAT_MASTER_ID }

/-- The body of a TOPO frame. -/
def Chip.topoBody (c : Chip) : List Nat :=
  let t := c.ownTopo
  bytesLE 2 t.node ++ [t.pstate, t.tseq] ++ t.states ++ [0] ++ (t.peers.map (bytesLE 2)).flatten
    ++ [t.prio, bit t.estab + 2 * bit t.locked + 4 * bit t.master, t.hops, 0] ++ bytesLE 2 t.masterId
    ++ bytesLE 4 (c.get F.STR_ACT_PRESS_LO_ID_LO) ++ bytesLE 4 (c.get F.STR_ACT_PRESS_HI_ID_HI) ++ [0, 0, 0, 0]

/-- The node floods its TOPO, every 1 ms or after a change (R426). -/
def Chip.topoSend (c : Chip) : Chip :=
  if c.on F.FAB_CTRL_EN && c.up 3 && (c.fab.topoDue || decide (c.fab.topoAt + ms 1 ≤ c.now)) then
    let s := (c.fab.topoSeq + 1) % 256
    let c := c.setFab { c.fab with topoSeq := s, topoAt := c.now, topoDue := false, topoSent := (s :: c.fab.topoSent).take 128 }
    let f : FabFrame := { kind := 6, scope := 2, wrapped := false, flowStart := false, dest := 0, src := c.nodeId, hops := 0, frag := 0, seq := 0
                          body := c.topoBody, aux := 0, cls := 0 }
    let y := c.numberBroadcast 0 [f]
    y.1.sendAll y.2
  else c

/-- Whether rank a is better than rank b (R444). -/
def better (a b : Topo) : Bool :=
  if a.estab != b.estab then a.estab
  else if a.prio ≠ b.prio then decide (a.prio < b.prio) else decide (a.node < b.node)

/-- The TOPO of a node in the map. -/
def Chip.topoOf (c : Chip) (node : Nat) : Option Topo := (c.fab.map.find? (fun m => m.topo.node == node)).map MapNode.topo

/-- The upstream: the neighbour that is locked or master and has the fewest hops, FE before FW before FU (R445). -/
def Chip.upstream (c : Chip) : Option (Fin 3 × Nat) :=
  let cand := fabPorts.filterMap (fun (p : Fin 3) =>
    if c.carriesFrames p then
      match c.topoOf (c.get F.FAB_P_STAT_PEER p) with
      | some t => if t.locked || t.master then some (p, t.hops) else none
      | none => none
    else none)
  match cand with
  | [] => none
  | x :: r => some (r.foldl (fun m y => if y.2 < m.2 then y else m) x)

/-- LC chooses the upstream, or the node goes into holdover (R445). -/
def Chip.chooseUpstream (c : Chip) : Chip :=
  if c.on F.FAB_TSYNC_STAT_MASTER then ((c.set F.FAB_TSYNC_STAT_UP_PORT 0).set F.FAB_TSYNC_STAT_HOPS 0).set F.FAB_TSYNC_STAT_HOLDOVER 0
  else match c.upstream with
    | some (p, h) => ((c.set F.FAB_TSYNC_STAT_UP_PORT (p.val + 1)).set F.FAB_TSYNC_STAT_HOPS (h + 1)).set F.FAB_TSYNC_STAT_HOLDOVER 0
    | none =>
      let c := c.set F.FAB_TSYNC_STAT_UP_PORT 0
      if c.on F.FAB_TSYNC_STAT_HOLDOVER then c else (c.set F.FAB_TSYNC_STAT_HOLDOVER 1).emit 0x180B

/-- The election (R444): the best rank in the map is master. -/
def Chip.elect (c : Chip) : Chip :=
  let best := (c.fab.map.map MapNode.topo).foldl (fun a b => if better b a then b else a) c.ownTopo
  let was := (c.get F.FAB_TSYNC_STAT_MASTER_ID, c.on F.FAB_TSYNC_STAT_MASTER)
  let me := best.node = c.nodeId
  let c := (c.set F.FAB_TSYNC_STAT_MASTER_ID best.node).set F.FAB_TSYNC_STAT_MASTER (bit me)
  let c := if me then c.set F.FAB_TSYNC_STAT_ESTAB 1 else c
  let c := if was = (best.node, decide me) then c else (c.emit 0x1809 [(2, best.node)]).mapDirty
  c.chooseUpstream

/-- FAB_RING and FAB_SEGMAP from the map (R426). -/
def Chip.showMap (c : Chip) : Chip :=
  let mine := c.nodeId / 64
  let nodes := c.ownTopo :: (c.fab.map.map MapNode.topo)
  let here := nodes.filter (fun t => t.node / 64 == mine)
  let open' := fun (s : Nat) => s % 16 == 3 || s % 16 == 4
  let closed := here.all (fun t => open' (t.states.getD 0 0) && open' (t.states.getD 1 0))
  let segs := ((List.range 16).filter (fun s => nodes.any (fun t => t.node / 64 == s))).map (2 ^ ·)
  (((c.set F.FAB_RING_SIZE here.length).set F.FAB_RING_CLOSED (bit closed)).set F.FAB_RING_VALID 1).set F.FAB_SEGMAP_REACH segs.sum

/-- A TOPO frame arrives (R426, R427, R444). -/
def Chip.topoRx (c : Chip) (t : Topo) : Chip :=
  if t.node = c.nodeId then
    if c.fab.topoSent.contains t.tseq then c else (c.set F.FAB_STAT_DUP_ID 1).emit 0x1805
  else
    let was := c.topoOf t.node
    let c := c.setFab { c.fab with map := ⟨t, c.now⟩ :: c.fab.map.filter (fun m => m.topo.node != t.node) }
    let c := if was.map Topo.states = some t.states ∧ was.map Topo.peers = some t.peers then c else c.setFab { c.fab with mapChanged := true }
    c.showMap.elect

/-- Whether node n is lost (R428): no TOPO for 3 ms, or both its segment neighbours show their links to it closed. -/
def Chip.nodeGone (c : Chip) (n : Nat) : Bool :=
  let silent := match c.fab.map.find? (fun m => m.topo.node == n) with
    | some m => decide (m.at' + ms 3 ≤ c.now)
    | none => false
  let nodes := c.ownTopo :: (c.fab.map.map MapNode.topo)
  let shut := fun (s : Nat) => s % 16 == 0 || s % 16 == 6
  let east := nodes.any (fun t => t.peers.getD 0 0 == n && t.node / 64 == n / 64 && t.node != n && shut (t.states.getD 0 0))
  let west := nodes.any (fun t => t.peers.getD 1 0 == n && t.node / 64 == n / 64 && t.node != n && shut (t.states.getD 1 0))
  silent || ((c.topoOf n).isSome && east && west)

/-- LC reports a node lost, to TRK and to TKO (R112, R428). -/
def Chip.nodeLost (c : Chip) (n : Nat) : Chip :=
  if c.nodeGone n then
    let c := c.setFab { c.fab with map := c.fab.map.filter (fun m => m.topo.node != n) }
    let c := (c.emit 0x1808 [(2, n)]).showMap.elect.mapDirty
    if c.fabMembers n = [] then c else (c.fabFails n).serveTrk
  else c

/-- Whether the way of n hops from a position in a direction meets only open links. -/
def Chip.wayOpen (c : Chip) (dir : Nat) : Nat → Nat → Bool
  | 0, _ => true
  | n + 1, pos =>
    let size := c.ringSize
    let node := c.nodeId / 64 * 64 + pos
    let t := if node = c.nodeId then some c.ownTopo else c.topoOf node
    let s := match t with | some t => t.states.getD (dir - 1) 0 % 16 | none => 0
    (s == 3 || s == 4) && c.wayOpen dir n (if dir = 1 then (pos + 1) % size else (pos + size - 1) % size)

/-- LC rewrites the direction table after a map change (R431). -/
def Chip.steer (c : Chip) : Chip :=
  if c.fab.mapChanged && c.sys.lcUp then
    let size := c.ringSize
    let dir := fun (pos : Nat) =>
      let e := (pos + size - c.position) % size
      let w := (c.position + size - pos) % size
      let eOk := c.wayOpen 1 e c.position
      let wOk := c.wayOpen 2 w c.position
      if eOk && (decide (e ≤ w) || !wOk) then 1 else if wOk then 2 else if e ≤ w then 1 else 2
    let c := c.setFab { c.fab with dirs := (List.range 64).map dir, mapChanged := false }
    (c.emit 0x1807).showMap.chooseUpstream
  else c

/-! ### Time synchronisation (R446, R447, R462) -/

/-- Press time now in 1/64 ns. -/
def Chip.now64 (c : Chip) : Nat := c.now / 2 ^ 26

/-- Every PER µs, TREQ goes to the upstream. -/
def Chip.timeExchange (c : Chip) : Chip :=
  let up := c.get F.FAB_TSYNC_STAT_UP_PORT
  if c.on F.FAB_TSYNC_EN ∧ up ≠ 0 ∧ c.fab.exchangedAt + us (c.get F.FAB_TSYNC_PER) ≤ c.now then
    let s := (c.fab.tseq + 1) % 256
    (c.setFab { c.fab with tseq := s, t1 := some c.now64, exchangedAt := c.now }).send "treq" [up - 1, s]
  else c

/-- A TREQ is answered with TRSP and TIME_DATA. -/
def Chip.treqRx (c : Chip) (p : Fin 3) (tseq : Nat) : Chip :=
  if c.carriesFrames p then (c.send "trsp" [p.val, tseq]).send "timeData" [p.val, tseq, c.now64, c.now64] else c

/-- The time keeper steps by θ (R447); the islands find out at the next markers (R35). -/
def Chip.timeStep (c : Chip) (theta : Int) : Chip := { c with now := ((c.now : Int) + theta * (2 ^ 26 : Nat)).toNat }

/-- The exchange is complete: t2 and t3 of the upstream and t4, in 1/64 ns (R446, R447). -/
def Chip.timeDataRx (c : Chip) (tseq t2 t3 t4 : Nat) : Chip :=
  let up := c.get F.FAB_TSYNC_STAT_UP_PORT
  match c.fab.t1 with
  | none => c
  | some t1 =>
    if c.fab.tseq ≠ tseq ∨ up = 0 then c
    else
      let asym := signed 16 (c.get F.FAB_ASYM_ASYM (up - 1))
      let a : Int := t1
      let theta := (((t2 : Int) - a) + ((t3 : Int) - (t4 : Int)) - asym) / 2
      let delay := (((t4 : Int) - a) - ((t3 : Int) - (t2 : Int)) + asym) / 2
      let c := c.setFab { c.fab with t1 := none }
      let c := (c.set F.FAB_TSYNC_OFS_OFS (unsigned 32 theta)).set F.FAB_P_DELAY_DELAY (unsigned 24 delay) (up - 1)
      let big := decide ((64 * c.get F.FAB_XTSYNC_STEP_THR : Nat) < theta.natAbs)
      let ok := decide (theta.natAbs ≤ 16 * c.get F.FAB_XTSYNC_LOCK_THR)
      if c.on F.FAB_TSYNC_STAT_LOCKED then (if big then c.emit 0x180C else c)
      else
        let step := big && !c.fab.everLocked
        let c := if step then c.timeStep theta else c
        let n := if ok then c.fab.good + 1 else 0
        let c := c.setFab { c.fab with good := n }
        if c.get F.FAB_XTSYNC_LOCK_N ≤ n then
          let c := c.setFab { c.fab with everLocked := true }
          (((c.set F.FAB_TSYNC_STAT_LOCKED 1).set F.FAB_TSYNC_STAT_ESTAB 1).emit 0x180A [(4, unsigned 32 theta)]).mapDirty
        else c

/-- TC restarts LC alone (R462). -/
def Chip.lcRestart (c : Chip) : Chip :=
  Chip.set { c with sys := { c.sys with lcUp := true } } F.FAB_TSYNC_STAT_HOLDOVER 1

/-! ### Low-power links and beacons (R442, R456 to R458) -/

/-- The rate of a link follows what both ends ask. -/
def Chip.linkRate (c : Chip) (p : Fin 3) : Chip :=
  let x := c.fport p
  if c.fabState p = 3 ∧ (x.peerAsks = 1 ∨ x.weAsk = 1) then (c.set F.FAB_P_STAT_LANES 1 p).fabEnter p 4
  else if c.fabState p = 4 ∧ x.peerAsks = 0 ∧ x.weAsk = 0 then (c.set F.FAB_P_STAT_LANES 3 p).fabEnter p 3
  else c

/-- An LP block arrives: a request of the peer, or the acknowledgment of this node's. -/
def Chip.lpRx (c : Chip) (p : Fin 3) (req : Nat) (ack : Bool) : Chip :=
  if !c.carriesFrames p then c
  else if ack then c.linkRate p
  else
    let c := (c.setFport p { c.fport p with peerAsks := req }).send "lp" [p.val, req, 1]
    if req = 2 then
      let c := (c.set F.FAB_P_STAT_LANES 0 p).fabEnter p 6
      (c.emit 0x180F).rewrap p
    else c.linkRate p

/-- This node asks its peers for a link state: 0 RUN, 1 SLEEP, 2 DEEP. -/
def Chip.lpAsk (c : Chip) (req : Nat) : Chip :=
  (fabPorts.filter (fun (p : Fin 3) => c.carriesFrames p)).foldl (fun c (p : Fin 3) =>
    (c.setFport p { c.fport p with weAsk := req }).send "lp" [p.val, req, 0]) c

/-- Ports start to beacon. -/
def Chip.beaconStart (c : Chip) (mask : Nat) : Chip :=
  (fabPorts.filter (fun (p : Fin 3) => bitAt mask p)).foldl (fun c (p : Fin 3) =>
    c.setFport p { c.fport p with beaconNext := some c.now, beaconEnd := c.now + ms 10 }) c

/-- A beacon burst leaves, every 100 µs until the link trains or 10 ms pass. -/
def Chip.beaconSend (c : Chip) (p : Fin 3) : Chip :=
  let x := c.fport p
  match x.beaconNext with
  | some t =>
    if c.now < t then c
    else if x.beaconEnd < c.now ∨ c.carriesFrames p then c.setFport p { x with beaconNext := none }
    else (c.setFport p { x with beaconNext := some (c.now + us 100) }).send "beacon" [p.val]
  | none => c

end Sys2Proof.Machine
end

