-- ==== Sys2Proof/Machine/Thm.lean ====
section
/-!
DEFINITION. The die sensors and the Chimney model (R580 to R593): samples, cross-checks, exclusion, HOT, the trip's decision.
-/

namespace Sys2Proof.Machine

def zones : List (Fin 9) := [0, 1, 2, 3, 4, 5, 6, 7, 8]
def sensors : List (Fin 4) := [0, 1, 2, 3]

/-! ### The model in force (R395, built-in model) -/

/-- The built-in shares of an island's current, in 1/256, as (zone, share). -/
def builtInShares (isl : Nat) : List (Nat × Nat) :=
  match isl with
  | 0 => [(3, 256)]
  | 1 => [(3, 256)]
  | 2 => [(4, 256)]
  | 3 => [(5, 256)]
  | 4 => [(1, 128), (2, 128)]
  | 5 => [(4, 128), (5, 128)]
  | 6 => [(3, 256)]
  | 7 => [(0, 256)]
  | 8 => [(6, 256)]
  | 9 => [(6, 256)]
  | 10 | 11 | 12 | 13 => [(7, 256)]
  | 14 | 15 => [(8, 256)]
  | _ => []

/-- Whether no image gives a model. -/
def Chip.builtIn (c : Chip) : Bool := c.str.img.thZones.isEmpty

/-- The share of an island's current that heats a zone, in 1/256. -/
def Chip.share (c : Chip) (isl : Nat) (z : Nat) : Nat :=
  if c.builtIn then (((builtInShares isl).filter (fun e => e.1 == z)).map Prod.snd).sum
  else ((c.str.img.thShares.getD isl []).getD z 0)

/-- R_TH in 0.01 K/W and TAU in 0.1 ms of a zone. -/
def Chip.zoneRC (c : Chip) (z : Nat) : Nat × Nat := if c.builtIn then (250, 150) else c.str.img.thZones.getD z (0, 1)

/-- The zone of a sensor. -/
def Chip.zoneOf (c : Chip) (d : Fin 4) : Fin 9 :=
  Fin.ofNat 9 (if c.builtIn then [0, 2, 8, 6].getD d.val 0 else c.str.img.thSensors.getD d.val 0)

/-! ### One sample (R581 to R585) -/

/-- The power of a zone in W. -/
def Chip.zonePower (c : Chip) (z : Nat) : Rat :=
  ((List.finRange 16).map (fun (i : Fin 16) =>
    ((c.share i.val z : Nat) : Rat) / (256 : Nat) * (((c.pwr.cur[i] : Nat) : Rat) * 3 / (4000 : Nat)))).sum

/-- The rise of every zone after a sample, in 1/16 K (R582); Deep sleep keeps none. -/
def Chip.riseNext (c : Chip) : Vector Rat 9 :=
  if c.get F.PWR_STAT_STATE = 3 then Vector.replicate 9 0
  else Vector.ofFn (fun (z : Fin 9) =>
    let rc := c.zoneRC z.val
    let a : Rat := minQ 1 (1 / ((rc.2 : Nat) : Rat))
    c.thm.rise[z] + a * (((16 * rc.1 : Nat) : Rat) / (100 : Nat) * c.zonePower z.val - c.thm.rise[z]))

def Chip.sensorValid (c : Chip) (d : Fin 4) : Bool := bitAt (c.get F.THM_STAT_VALID) d.val

/-- The valid sensors. -/
def Chip.validSensors (c : Chip) : List (Fin 4) := sensors.filter (fun (d : Fin 4) => c.sensorValid d)

/-- A sensor's reading less its zone's rise. -/
def Chip.ground (c : Chip) (d : Fin 4) : Rat := (c.thm.temp[d] : Rat) - c.thm.rise[c.zoneOf d]

/-- The mean of some sensors' grounds; none where there is no sensor. -/
def Chip.meanGround (c : Chip) (l : List (Fin 4)) : Option Rat :=
  if l.isEmpty then none else some ((l.map c.ground).sum / ((l.length : Nat) : Rat))

/-- The temperature of a zone by the model. -/
def Chip.zoneTemp (c : Chip) (z : Fin 9) : Rat := c.thm.base + c.thm.rise[z]

/-- What the other valid sensors say sensor d should read (R584, R686). -/
def Chip.sensorRef (c : Chip) (d : Fin 4) : Option Rat :=
  (c.meanGround (c.validSensors.filter (fun (e : Fin 4) => e != d))).map (fun b => b + c.thm.rise[c.zoneOf d])

/-- R584: the model disagrees. -/
def Chip.mOff (c : Chip) (d : Fin 4) : Bool :=
  match c.sensorRef d with
  | none => false
  | some r => decide (((4 * c.get F.THM_XCHK_TOL : Nat) : Rat) < absQ ((c.thm.temp[d] : Rat) - r))

/-- R584: every valid neighbour disagrees. -/
def Chip.nOff (c : Chip) (d : Fin 4) : Bool :=
  let near := [Fin.ofNat 4 (d.val + 1), Fin.ofNat 4 (d.val + 3)].filter (fun (e : Fin 4) => c.sensorValid e)
  near.all (fun (e : Fin 4) =>
    decide (((4 * c.get F.THM_XCHK_TOL : Nat) : Rat) < absQ ((c.thm.temp[d] : Rat) - (c.ground e + c.thm.rise[c.zoneOf d]))))

/-- The temperature as a register shows it: signed 1/16 °C in 16 bits. DESIGN CHOICE: rounded to the nearest. -/
def tempBits (q : Rat) : Nat := unsigned 16 (satInt 16 (roundQ q))

/-- A sensor is excluded (R581, R585): cause 0 RANGE, 1 the cross-check. Its model temperature is the one it was judged by in
`judged`, which its own reading does not enter (R584; DEDUCED). -/
def Chip.excludeSensor (judged c : Chip) (d : Fin 4) (cause : Nat) : Chip :=
  let c := c.set F.THM_STAT_VALID (putBit (c.get F.THM_STAT_VALID) d.val false)
  let c := (c.orBits F.THM_STAT_EXCL (2 ^ d.val)).set F.THM_SENS_RANGE (bit (cause == 0)) d
  c.emit 0x0701 [(1, d.val), (1, cause), (2, unsigned 16 c.thm.temp[d]), (2, tempBits ((judged.sensorRef d).getD (judged.zoneTemp (judged.zoneOf d))))]

/-- R584 and R585 for sensor d, judged against the sensors valid before the sample's exclusions. -/
def Chip.crossCheck (before : Chip) (c : Chip) (d : Fin 4) : Chip :=
  if !before.sensorValid d then c
  else if before.mOff d && before.nOff d then
    let n := c.thm.dis[d] + 1
    let c := { c with thm := { c.thm with dis := c.thm.dis.set d n } }
    if n < c.get F.THM_XCHK_EXCL_N || c.thm.tripped then c
    else if (c.validSensors.filter (fun (e : Fin 4) => e != d)).isEmpty then
      let c := c.set F.THM_STAT_LAST_SENSOR 1
      if c.thm.lastRecorded then c else Chip.emit { c with thm := { c.thm with lastRecorded := true } } 0x0706 [(1, d.val)]
    else Chip.excludeSensor before c d 1
  else { c with thm := { c.thm with dis := c.thm.dis.set d 0 } }

/-- The hottest temperature and its source: 0 to 3 sensors, 4 to 12 zones (R583). -/
def Chip.hottest (c : Chip) : Nat × Rat :=
  let all := (c.validSensors.map (fun (d : Fin 4) => (d.val, ((c.thm.temp[d] : Int) : Rat))))
    ++ zones.map (fun (z : Fin 9) => (4 + z.val, c.zoneTemp z))
  all.foldl (fun m e => if m.2 < e.2 then e else m) (all.headD (4, 0))

/-- The sensor or zone that confirms a trip at this sample (R589), with its temperature. -/
def Chip.tripConfirms (c : Chip) : Option (Nat × Int) :=
  let v := c.validSensors
  if v.isEmpty then
    (zones.find? (fun (z : Fin 9) => decide ((2000 : Rat) ≤ c.zoneTemp z))).map (fun (z : Fin 9) => (4 + z.val, roundQ (c.zoneTemp z)))
  else
    (v.find? (fun (d : Fin 4) => decide (2000 ≤ c.thm.temp[d]) && (v.length == 1 || !(c.mOff d && c.nOff d)))).map
      (fun (d : Fin 4) => (d.val, c.thm.temp[d]))

/-- HOT follows the hottest temperature (R587, R588). -/
def Chip.judgeHot (c : Chip) (h : Nat × Rat) : Chip :=
  let up : Rat := ((16 * c.get F.THM_LIM_HOT_C : Nat) : Rat)
  let down : Rat := ((16 * (c.get F.THM_LIM_HOT_C - c.get F.THM_LIM_HYST) : Nat) : Rat)
  if !c.on F.THM_STAT_HOT && decide (up ≤ h.2) then
    (((c.set F.THM_STAT_HOT 1).emit 0x0703 [(3, h.1 * 65536 + tempBits h.2)]).ldlHot true).serveWithdrawn
  else if c.on F.THM_STAT_HOT && decide (h.2 < down) then
    ((c.set F.THM_STAT_HOT 0).emit 0x0704).ldlHot false
  else c

/-- The registers that show the sample. -/
def Chip.showThm (c : Chip) (h : Nat × Rat) : Chip :=
  let c := sensors.foldl (fun (c : Chip) (d : Fin 4) =>
    ((c.set F.THM_SENS_T (unsigned 16 c.thm.temp[d]) d).set F.THM_SENS_DIS (satNat 8 c.thm.dis[d]) d).set F.THM_SENS_VALID (bit (c.sensorValid d)) d) c
  let c := zones.foldl (fun (c : Chip) (z : Fin 9) =>
    (c.set F.THM_ZONE_RISE (tempBits c.thm.rise[z]) z).set F.THM_ZONE_T (tempBits (c.zoneTemp z)) z) c
  let c := ((c.set F.THM_BASE_T (tempBits c.thm.base)).set F.THM_HOTTEST_SRC h.1).set F.THM_HOTTEST_T (tempBits h.2)
  let c := c.set F.THM_STAT_BUILTIN (bit c.builtIn)
  if c.word R.THM_MAX.addr = 0 ∨ signed 16 (c.get F.THM_MAX_T) < signed 16 (tempBits h.2) then
    (c.set F.THM_MAX_SRC h.1).set F.THM_MAX_T (tempBits h.2)
  else c

/-- Whether every valid sensor reads below 100.0 °C (R590). -/
def Chip.allCool (c : Chip) : Bool := c.validSensors.all (fun (d : Fin 4) => decide (c.thm.temp[d] < 1600))

/-- A sample: the raw readings in 1/16 °C, the island currents in mA and VIN_IVR in mV (R581 to R589). -/
def Chip.thmSample (c : Chip) (raw : List Int) (cur : List Nat) (vin : Nat) : Chip :=
  let c := c.set F.PWR_VIN_MV vin
  let c := { c with pwr := { c.pwr with cur := Vector.ofFn (fun (i : Fin 16) => cur.getD i.val 0) } }
  let c := c.set F.THM_STAT_VALID (c.get F.THM_STAT_VALID ||| c.thm.readmit)
  let c := { c with thm := { c.thm with
    readmit := 0
    temp := Vector.ofFn (fun (d : Fin 4) => raw.getD d.val 0 + signed 8 (c.get F.THM_OFS_OFS d.val)) } }
  let out := sensors.filter (fun (d : Fin 4) => c.sensorValid d && (decide (raw.getD d.val 0 < -880) || decide (2400 < raw.getD d.val 0)))
  let inside := { c.set F.THM_STAT_VALID (out.foldl (fun (v : Nat) (d : Fin 4) => putBit v d.val false) (c.get F.THM_STAT_VALID)) with
    thm := { c.thm with rise := c.riseNext } }
  let model := { inside with thm := { inside.thm with base := (inside.meanGround inside.validSensors).getD inside.thm.base } }
  let trip := (model.set F.THM_STAT_VALID (c.get F.THM_STAT_VALID)).tripConfirms
  let c := out.foldl (fun (c : Chip) (d : Fin 4) => Chip.excludeSensor model c d 0) model
  let c := sensors.foldl (fun (c : Chip) (d : Fin 4) => Chip.crossCheck model c d) c
  let h := c.hottest
  let c := (c.showThm h).judgeHot h
  let act := trip.isSome && c.thm.confirmed && !c.thm.tripped
  let cool := if c.thm.tripped && c.allCool then some (c.thm.coolAt.getD c.now) else none
  { c with thm := { c.thm with
    confirmed := trip.isSome, tripDue := if act then trip else c.thm.tripDue, coolAt := cool } }

/-- A write of 1 to bits of THM_STAT.EXCL (R586): the sensors count as valid from the next sample. -/
def Chip.readmitSensors (c : Chip) (mask : Nat) : Chip :=
  (setBits 4 (mask &&& c.get F.THM_STAT_EXCL)).foldl (fun (c : Chip) (d : Nat) =>
    let c := c.set F.THM_STAT_EXCL (putBit (c.get F.THM_STAT_EXCL) d false)
    let c := (c.set F.THM_SENS_RANGE 0 d).set F.THM_SENS_DIS 0 d
    let th := { c.thm with readmit := c.thm.readmit ||| 2 ^ d, dis := c.thm.dis.set (Fin.ofNat 4 d) 0 }
    Chip.emit { c with thm := th } 0x0702) c

end Sys2Proof.Machine
end

