-- ==== Sys2Proof/Machine/Sys.lean ====
section
/-!
DEFINITION. Crossings between islands (R20 to R31), island resets (R30, R37, R56, R742), press-time markers (R33 to R35),
the fault manager (R26, R396).
-/

namespace Sys2Proof.Machine

def Chip.setSys (c : Chip) (s : SysSt) : Chip := { c with sys := s }

/-! ### Crossings (R21 to R31) -/

def planeNo : Plane → Nat
  | .control => 0 | .data => 1 | .management => 2

/-- The depth of a crossing, at least one word. -/
def depthOf (p : Plane) (src dst : Nat) : Nat := max 1 (Config.crossingDepth (planeNo p) src dst)

def Crossing.is (x : Crossing) (p : Plane) (src dst : Nat) : Bool := x.plane == p && x.src == src && x.dst == dst

/-- The crossing of a plane between two islands. -/
def Chip.crossing (c : Chip) (p : Plane) (src dst : Nat) : Crossing :=
  (c.sys.crossings.find? (fun (x : Crossing) => x.is p src dst)).getD ⟨p, src, dst, [], []⟩

/-- Put a crossing's new contents in place; an empty one is not listed. -/
def Chip.setCrossing (c : Chip) (x : Crossing) : Chip :=
  let rest := c.sys.crossings.filter (fun (y : Crossing) => !y.is x.plane x.src x.dst)
  c.setSys { c.sys with crossings := if x.words.isEmpty && x.waiting.isEmpty then rest else x :: rest }

/-- A word is written into a crossing (R22, R23, R28 to R31). cut: a reset empties the crossing in the same cycle. -/
def Chip.crossWrite (c : Chip) (p : Plane) (src dst w : Nat) (cut : Bool) : Chip :=
  if cut || !c.up src then c
  else
    let x := c.crossing p src dst
    if !c.up dst then
      match p with
      | .data => c.setCrossing { x with waiting := x.waiting ++ [w] }
      | .management => c.addWrap F.SYS_SUMP_DROP_COUNT 1
      | .control => c
    else if x.words.length < depthOf p src dst && x.waiting.isEmpty then c.setCrossing { x with words := x.words ++ [(w, false)] }
    else match p with
      | .data => c.setCrossing { x with waiting := x.waiting ++ [w] }
      | .management => (c.setCrossing { x with words := x.words.drop 1 ++ [(w, false)] }).addWrap F.SYS_SUMP_DROP_COUNT 1
      | .control => ((c.setCrossing { x with waiting := x.waiting ++ [w] }).orBits F.SYS_CTRL_OVR_OVERRUN (2 ^ src)).emit 0x0003

/-- Mark the oldest word that is not yet readable. -/
def markReadable : List (Nat × Bool) → List (Nat × Bool)
  | [] => []
  | (w, true) :: r => (w, true) :: markReadable r
  | (w, false) :: r => (w, true) :: r

/-- A word becomes readable in the destination island (R28). -/
def Chip.crossReadable (c : Chip) (p : Plane) (src dst : Nat) : Chip :=
  let x := c.crossing p src dst
  c.setCrossing { x with words := markReadable x.words }

/-- The destination takes the oldest readable word; a producer that waits writes its word into the space (R22, R29). -/
def Chip.crossTake (c : Chip) (p : Plane) (src dst : Nat) : Chip :=
  let x := c.crossing p src dst
  if !c.up dst then c
  else match x.words with
    | (_, true) :: r =>
      match x.waiting with
      | w :: ws => c.setCrossing { x with words := r ++ [(w, false)], waiting := ws }
      | [] => c.setCrossing { x with words := r }
    | _ => match x.words, x.waiting with
      | [], w :: ws => c.setCrossing { x with words := [(w, false)], waiting := ws }
      | _, _ => c

/-- Every crossing into and out of an island is emptied (R30). -/
def Chip.emptyCrossings (c : Chip) (isl : Nat) : Chip :=
  let cut := fun (x : Crossing) =>
    if x.src == isl then { x with words := [], waiting := [] } else if x.dst == isl then { x with words := [] } else x
  let l := (c.sys.crossings.map cut).filter (fun (x : Crossing) => !(x.words.isEmpty && x.waiting.isEmpty))
  c.setSys { c.sys with crossings := l }

/-! ### TIME_VALID (R34, R35) -/

/-- The period of an island's own clock in 78.125 ps taps, times 25 (R34, clocks in Run). -/
def cycleTaps25 (isl : Nat) : Nat :=
  match isl with
  | 0 => 3200 | 1 => 800 | 2 => 320 | 3 => 512 | 4 => 400 | 6 => 1600 | _ => 1280

/-- Whether a marker's correction is within tolerance (R34); PIPE's clock period is 8/3 ns, 34.13 taps. -/
def withinTolerance (c : Chip) (isl : Nat) (taps : Int) : Bool :=
  if 8 ≤ isl then decide (taps.natAbs ≤ c.get F.SYS_TMK_TOL_TOL_PORT)
  else if isl = 5 then decide (taps.natAbs * 75 ≤ c.get F.SYS_TMK_TOL_TOL_OTHER * 2560)
  else decide (taps.natAbs * 25 ≤ c.get F.SYS_TMK_TOL_TOL_OTHER * cycleTaps25 isl)

/-- An island clears its TIME_VALID bit and records it (R35). -/
def Chip.timeLost (c : Chip) (isl cause : Nat) (corr : Int) : Chip :=
  let c := c.setSys { c.sys with goodMarkers := c.sys.goodMarkers.set (Fin.ofNat 16 isl) 0 }
  if c.timeValid isl then (c.setTimeValid isl false).emit 0x0001 [(1, isl), (1, cause), (2, unsigned 16 (satInt 16 corr))] else c

/-- An island sets its TIME_VALID bit again; after a power-state entry it makes no record. -/
def Chip.timeRegained (c : Chip) (isl : Nat) : Chip :=
  if c.timeValid isl then c
  else
    let quiet := bitAt c.sys.quiet isl
    let c := (c.setTimeValid isl true).setSys { c.sys with quiet := putBit c.sys.quiet isl false }
    if quiet then c else c.emit 0x0002 [(1, isl)]

/-- An island corrects its copy at a marker (R34, R35). AON and POS keep their bits. -/
def Chip.markerAt (corr : List (Nat × Int)) (c : Chip) (isl : Nat) : Chip :=
  if isl = 0 ∨ isl = 6 ∨ !c.up isl then c
  else
    let d := ((corr.find? (fun (e : Nat × Int) => e.1 == isl)).map Prod.snd).getD 0
    if withinTolerance c isl d then
      let n := min 2 (c.sys.goodMarkers.toList.getD isl 0 + 1)
      let c := c.setSys { c.sys with goodMarkers := c.sys.goodMarkers.set (Fin.ofNat 16 isl) n }
      if 2 ≤ n then c.timeRegained isl else c
    else c.timeLost isl 0 d

/-- A marker edge arrives in every island, with the corrections measured, in taps (an island not listed measures 0). It is
driven only while POS is up (R37). -/
def Chip.marker (c : Chip) (corr : List (Nat × Int)) : Chip :=
  if !c.up 6 then c
  else (List.range 16).foldl (Chip.markerAt corr) (c.setSys { c.sys with lastMarker := c.now })

/-- No marker within twice the period (R35). -/
def Chip.markerTimeout (c : Chip) (isl : Nat) : Chip :=
  if isl = 0 ∨ isl = 6 ∨ !c.up isl ∨ c.now < c.sys.lastMarker + ns (2 * c.get F.SYS_TMK_PERIOD_PERIOD) then c
  else c.timeLost isl 1 0

/-! ### Island resets (R30, R37, R56, R342) -/

/-- The blocks of an island. -/
def islandBlocks (isl : Nat) : List Nat := (List.range 32).filter (fun (b : Nat) => b != 0 && islandOf b == isl)

/-- What the blocks of an island hold beside their registers goes back to reset. The strobe watchdog of a port runs on (R342). -/
def Chip.clearState (c : Chip) (isl : Nat) : Chip :=
  match isl with
  | 2 => Chip.ldlRelease { c with
      cal := {}, fw := { c.fw with mbxRej := 0, tcOut := [], calCmd := none, forward := none, sends := [], heavy := false }
      sys := { c.sys with fwUp := false } } 4 0
  | 3 =>
    let c := [0, 1, 2].foldl (fun (c : Chip) (p : Nat) => c.ldlRelease 1 p) c
    { c with fab := {}, tko := {}, sys := { c.sys with lcUp := false }, trk := { c.trk with tkoCause := false } }
  | 4 =>
    let c := (List.range 32).foldl (fun (c : Chip) (n : Nat) => c.ldlRelease 3 n) (c.ldlRelease 2 0)
    { c with mem := {}, dma := Vector.replicate 32 {} }
  | 5 =>
    let c := allPorts.foldl (fun (c : Chip) (k : Fin 8) => (c.ldlRelease 6 k.val).ldlRelease 7 k.val) c
    { c with
      cmp := {}, col := {}, flw := {}, nzh := {}, asm := Vector.replicate 8 {}
      pos := { c.pos with markWay := [], missWay := [] }, trk := { c.trk with events := [] } }
  | 6 => { c with pos := {}, trk := {} }
  | 7 => { c with hst := {} }
  | _ => c

/-- The registers of an island's blocks go back to reset; the subsystem IDs are fixed from the fuses (R597). -/
def Chip.clearRegs (c : Chip) (isl : Nat) : Chip :=
  let sub := c.get F.HST_SUBSYS_SUBSYS
  let c := (islandBlocks isl).foldl Chip.clearBlock c
  if isl = 7 then c.set F.HST_SUBSYS_SUBSYS sub else c

/-- A port goes vacant with its island (R56); what the board and the watchdog hold stays. -/
def Chip.portReset (c : Chip) (k : Fin 8) : Chip :=
  let c := if c.portState k = 0 then c else c.portLeaves k 0 false
  let p := c.port k
  c.setHp k { wdog := p.wdog, span := p.span, presLow := p.presLow, presSince := p.presSince, xferTop := p.xferTop }

/-- An island goes down: off, or held in reset. -/
def Chip.islandDown (c : Chip) (isl : Nat) : Chip :=
  let c := if 8 ≤ isl then c.portReset (Fin.ofNat 8 (isl - 8)) else c
  let c := ((c.clearState isl).clearRegs isl).emptyCrossings isl
  let c := if isl = 6 then { c with trk := { c.trk with way := Vector.replicate 8 [] } }
    else if 8 ≤ isl then { c with trk := { c.trk with way := c.trk.way.set (Fin.ofNat 8 (isl - 8)) [] } } else c
  c.setUp isl false

/-- One island is reset through SYS_ISL_RST (R30, R35, R37, R56). -/
def Chip.resetOne (c : Chip) (isl : Nat) : Chip :=
  if !c.up isl then c
  else
    let c := (c.timeLost isl 2 0).islandDown isl
    let c := c.setSys { c.sys with inReset := putBit c.sys.inReset isl true }
    (c.emit 0x0004 [(1, isl)]).serveSpreq

/-- A write to SYS_ISL_RST; bits of AON and TRUST are ignored. -/
def Chip.resetIslands (c : Chip) (mask : Nat) : Chip := (((setBits 16 mask).filter (fun (i : Nat) => decide (2 ≤ i))).foldl Chip.resetOne c)

/-- An island is up again: STR loads the fields of the active image first (R742). POS sets its TIME_VALID bit (R35). -/
def Chip.islandUp (c : Chip) (isl : Nat) : Chip :=
  let c := (c.reloadIsland isl).setUp isl true
  if isl = 6 then (Chip.timeRegained (c.setSys { c.sys with lastMarker := c.now }) 6).serveSpreq else c

/-- An island leaves reset after SYS_ISL_RST. After a reset of POS the node is established but not LOCKED (R37). -/
def Chip.leaveReset (c : Chip) (isl : Nat) : Chip :=
  if !bitAt c.sys.inReset isl then c
  else
    let c := (c.setSys { c.sys with inReset := putBit c.sys.inReset isl false }).islandUp isl
    let c := if isl = 6 then { c.set F.FAB_TSYNC_STAT_LOCKED 0 with fab := { c.fab with good := 0, everLocked := false } } else c
    if isl = 2 && c.sys.fwStarts then c.setSys { c.sys with fwStarts := false, fwUp := true } else c

/-! ### The fault manager (R26, R396) -/

/-- Carry out the actions of a fault entry. -/
def Chip.faultActions (c : Chip) (e : Event) (a : Nat) : Chip :=
  let c := if bitAt a 0 then c.setEv { c.ev with tcPend := c.ev.tcPend ++ [e] } else c
  let c := if bitAt a 1 then (match e.port with | some k => c.portVacant (Fin.ofNat 8 k) vacAction | none => c) else c
  let c := if bitAt a 2 then c.fenceNow else c
  let c := if bitAt a 3 then c.setSys { c.sys with holdAdmit := true } else c
  let c := if bitAt a 4 && c.up 6 then (c.set F.TRK_SPREQ_SW 1).serveSpreq else c
  let s := homeSource e.code (e.detail.headD 0)
  if bitAt a 5 && !c.ev.msixDue.contains s then c.setEv { c.ev with msixDue := c.ev.msixDue ++ [s] } else c

/-- The oldest fault report reaches the fault manager; a code without an entry gets TC only. -/
def Chip.faultReport (c : Chip) : Chip :=
  match c.ev.faultIn with
  | [] => c
  | e :: r =>
    let c := c.setEv { c.ev with faultIn := r }
    if !c.up 1 then c
    else c.faultActions e (((c.str.img.fault.find? (fun (x : Nat × Nat) => x.1 == e.code)).map Prod.snd).getD 1)

/-- TC decides the further action on the oldest event that waits for it. DESIGN CHOICE: the decision names actions of the
same table. -/
def Chip.tcDecision (c : Chip) (a : Nat) : Chip :=
  match c.ev.tcPend with
  | [] => c
  | e :: r => if c.sys.tcUp then Chip.faultActions (c.setEv { c.ev with tcPend := r }) e (a - a % 2) else c

end Sys2Proof.Machine
end

