-- ==== Sys2Proof/Machine/Boot.lean ====
section
/-!
DEFINITION. Device resets (R56, R548, R569, R586, R590, R630, R711), the thermal trip (R590, R591), brown-out (R567 to R569),
the cold boot (R404, R597, R618 to R626, R658), tamper alarms (R627 to R629), trusted firmware's watchdog (R630).
-/

namespace Sys2Proof.Machine

def Chip.setPwr (c : Chip) (p : PwrSt) : Chip := { c with pwr := p }

/-! ### Cold resets -/

/-- LDL without any grant or request. -/
def Chip.ldlEmpty (c : Chip) : Chip :=
  let c := [0, 1, 2, 3, 4].foldl Chip.ldlShow { c with ldl := {} }
  (c.set F.LDL_SW_STAT_HELD 0).set F.LDL_SW_STAT_BOUND 0

/-- What a cold reset leaves of the registers: those of AON where AON is not reset, those of THM where its history stays
(R586), PWR_AON_CAUSE and SYS_RST_CAUSE. -/
def keptAddr (aon thm : Bool) (a : Nat) : Bool :=
  (aon && islandOf (blockOf a) == 0) || (thm && blockOf a == 7) || a == R.PWR_AON_CAUSE.addr || a == R.SYS_RST_CAUSE.addr

/-- The registers and latches that a cold reset leaves. -/
def Chip.keepRegs (c : Chip) (keep : Nat → Bool) : Chip :=
  { c with
    regs := sparseClear (fun (a : Nat) => !keep a) c.regs
    force := sparseClear (fun (a : Nat) => !keep a) c.force
    latch := sparseClear (fun (k : Nat) => !keep (k / 8)) c.latch
    dirty := c.dirty.filter keep }

/-- The device is reset cold: causes for SYS_RST_CAUSE of the boot that follows, whether AON and THM keep what they hold, and
whether AON holds TRUST in reset until the boot. Press time runs on. The memories lose their contents (R508). -/
def coldReset (cause : Nat) (aon thm hold : Bool) (x : Chip × Store) : Chip × Store :=
  let c := x.1
  let fresh : Chip := {
    now := c.now, answer := c.answer, sent := c.sent
    regs := c.regs, force := c.force, latch := c.latch, dirty := c.dirty
    sys := { i2cAddr := c.sys.i2cAddr, tcUp := !hold }
    hp := Vector.ofFn (fun (k : Fin 8) => { presLow := c.hp[k].presLow, presSince := c.hp[k].presSince })
    pwr := { off := c.pwr.off, resetLow := c.pwr.resetLow, cause := c.pwr.cause ||| cause }
    thm := if thm then c.thm else {} }
  let d := (fresh.keepRegs (keptAddr aon thm)).ldlEmpty
  let d := (d.setWord R.PWR_STAT.addr 0).setWord R.PWR_WAKE_LATCH.addr 0
  let d := d.setWord R.PAD_HOLD.addr 0
  let d := d.setWord R.SYS_ISL_STAT.addr (resetWord R.SYS_ISL_STAT.addr)
  (if hold then d.set F.SYS_ISL_STAT_ISL_UP 1 else d, { x.2 with mem := [] })

/-- Causes of SYS_RST_CAUSE, as bits. -/
def causePor : Nat := 1
def causeBrownout : Nat := 2
def causeTrip : Nat := 4
def causeWdog : Nat := 8
def causeSoft : Nat := 16
def causeJtag : Nat := 32
def causePin : Nat := 64

/-- A write to SYS_SOFT_RST (R56). -/
def softReset (w : Word) (x : Chip × Store) : Chip × Store :=
  if w.toNat / 65536 = 0x5A3C ∧ bitAt w.toNat 0 then coldReset causeSoft false true false x else x

/-- RESET_L low for 1 µs: every island but AON is held in reset (R711). -/
def resetAssert (x : Chip × Store) : Chip × Store :=
  let x := (x.1.setPwr { x.1.pwr with resetLow := true }, x.2)
  if x.1.pwr.off then x else coldReset 0 true true true x

/-- VAON rises (R712): AON powers on in reset and samples its I²C address; the device is in Off until its supplies come. -/
def vaonRise (pins : Nat) (x : Chip × Store) : Chip × Store :=
  let c : Chip := { sent := x.1.sent }
  let c := (c.set F.SYS_CLK_STAT_OSC32_OK 1).set F.SYS_ISL_STAT_ISL_UP 1
  ({ c with sys := { i2cAddr := 0x4C + pins % 4, tcUp := false }, pwr := { off := true, cause := causePor } }, { x.2 with mem := [] })

/-- The board removes every supply but VAON with RESET_L low (R548): Off keeps PWR_AON_CAUSE alone. -/
def powerOff (x : Chip × Store) : Chip × Store :=
  if !x.1.pwr.resetLow then x
  else
    let d := coldReset 0 false false true x
    let c := (d.1.setWord R.SYS_RST_CAUSE.addr 0).set F.SYS_CLK_STAT_OSC32_OK 1
    (c.setPwr { off := true, resetLow := true, cause := causePor }, d.2)

/-! ### The thermal trip (R590, R591, R710) -/

/-- The trip acts: every output off, every island but AON held in reset. -/
def hardwareTrip (x : Chip × Store) : Chip × Store :=
  match x.1.thm.tripDue with
  | none => x
  | some (src, temp) =>
    if x.1.pwr.off then x
    else
      let d := coldReset 0 true true true x
      let c := ((d.1.addSat F.THM_TRIP_COUNT 1).set F.THM_TRIP_SRC src).set F.THM_TRIP_T (unsigned 16 temp)
      let c := c.set F.THM_STAT_TRIP_SEEN 1
      (Chip.send { c with thm := { c.thm with tripDue := none, tripped := true, coolAt := none } } "tripL" [0], d.2)

/-- Every valid sensor has read below 100.0 °C for 1 s. -/
def Chip.cooled (c : Chip) : Bool :=
  match c.thm.coolAt with
  | some t => decide (t + ms 1000 ≤ c.now)
  | none => false

/-- AON starts the restart's cold boot: TRIP_L is released (R710). -/
def Chip.tripEnds (c : Chip) : Chip :=
  if c.thm.tripped then
    (Chip.send { c with thm := { c.thm with tripped := false, coolAt := none } } "tripL" [1]).setPwr
      { c.pwr with cause := c.pwr.cause ||| causeTrip }
  else c

/-- The condition of the restart holds, with RESET_L high. -/
def Chip.tripRestart (c : Chip) : Chip := if c.thm.tripped && c.cooled && !c.pwr.resetLow then c.tripEnds else c

/-! ### Brown-out (R567 to R569) -/

/-- A brown-out: causes (0 VIN_LOW, 1 LP_OVER, 2 RAIL) and the island of RAIL. A programming command ends in the same place as
under a tamper alarm (R612). -/
def brownout (causes isl : Nat) (fails : List PulseFail) (pulses : Nat) (x : Chip × Store) : Chip × Store :=
  let c := x.1
  let ok := fun (b : Nat) => bitAt causes b && (b != 0 || !c.pwr.resetLow) && (b != 1 || c.get F.PWR_STAT_STATE == 3)
  let m := ((List.range 3).filter ok).map (2 ^ ·)
  if m.isEmpty || c.pwr.off then x
  else
    let c := c.orBits R.PWR_AON_CAUSE m.sum
    let c := if ok 2 then c.set F.PWR_AON_CAUSE_ISL isl else c
    if c.thm.tripped then (c.setPwr { c.pwr with cause := c.pwr.cause ||| causeBrownout }, x.2)
    else
      let x := if c.otp.cmd.isSome then otpDone fails pulses ({ c with otp := { c.otp with abort := true } }, x.2) else (c, x.2)
      coldReset causeBrownout false false true x

/-! ### The cold boot (R597, R622 to R626) -/

/-- Where a package type's slots lie in the flash (R618). -/
def packageBase (ty slot : Nat) : Nat := if ty = 1 then 0x100000 * slot else 0x200000 + 0x800000 * slot
def packageSize (ty : Nat) : Nat := if ty = 1 then 0x100000 else 0x800000
def imageBase (slot : Nat) : Nat := 0x1200000 + 0x40000 * slot

/-- A slot of a package type is read and checked (R621): its bytes, if it passes. -/
def Chip.trySlot (c : Chip) (m : Store) (ty slot : Nat) (env : BootEnv) : Chip × Option (List Nat) :=
  let l := m.flashPackage (packageBase ty slot) (packageSize ty)
  let r := c.packageReason m ty (!bitAt env.flashFail (2 * (ty - 1) + slot)) l
  if r = 0 then (c, some l) else ((c.set F.SEC_BOOT_LAST_REASON r).emitFw 0x1B03 [(1, ty), (1, slot), (1, r)], none)

/-- The named slot, else the other one where that is allowed: the slot used and its bytes. -/
def Chip.findSlot (c : Chip) (m : Store) (ty slot : Nat) (other : Bool) (env : BootEnv) : Chip × Option (Nat × List Nat) :=
  match c.trySlot m ty slot env with
  | (c, some l) => (c, some (slot, l))
  | (c, none) =>
    if !other then (c, none)
    else match c.trySlot m ty (1 - slot) env with
      | (c, some l) => (c, some (1 - slot, l))
      | (c, none) => (c, none)

/-- The ROM enters RECOVERY (R625): 0 no trusted firmware, 1 FWKEY restrictive, 2 SCRAP, 3 a third alarm. HOST comes up, and
with it, so that the ROM can take mailbox 4 and a package in the scratchpad, JOB and FABRIC; no core of theirs is released. -/
def recovery (cause : Nat) (x : Chip × Store) : Chip × Store :=
  let x := phaseChange 3 x
  let c := (x.1.emitFw 0x1B06 [(1, cause)])
  ([2, 4, 7].foldl (fun (c : Chip) (i : Nat) => if c.up i then c else c.islandUp i) c, x.2)

/-- Islands come out of reset at boot; TIME_VALID follows at the markers. -/
def Chip.bootIsland (c : Chip) (isl : Nat) : Chip := if c.up isl then c else c.islandUp isl

/-- A protection window (R523). -/
def Chip.setWindow (c : Chip) (w base limit rd wr : Nat) : Chip :=
  let c := (c.set F.DDR_WIN_BASE_PAGE (base / 4096) w).set F.DDR_WIN_LIMIT_PAGE (limit / 4096) w
  ((c.set F.DDR_WIN_PERM_RD rd w).set F.DDR_WIN_PERM_WR wr w).set F.DDR_WIN_PERM_EN 1 w

/-- Where trusted firmware puts the image slots, above both copies of service firmware. DESIGN CHOICE. -/
def slotAreaBase : Nat := ddrBase + 0x800000
def spareBase : Nat := ddrBase + 0x400000

/-- Training of DDR at boot: up to three attempts (R513, R622, R623). -/
def Chip.bootDdr (c : Chip) (env : BootEnv) : Chip :=
  let ranks := bitsOf env.ddrCfg 4 4
  let c := ((c.set F.DDR_CFG_WIDTH (bitsOf env.ddrCfg 0 0)).set F.DDR_CFG_RANKS ranks).set F.DDR_CFG_DENSITY (bitsOf env.ddrCfg 9 8)
  let c := (c.set F.DDR_CTRL_EN 1).ddrEnable
  let c := (env.ddrFails.take 3).foldl (fun (c : Chip) (_ : Nat) => c.ddrTrained false) c
  if env.ddrFails.length < 3 then c.ddrTrained true
  else (c.set F.SEC_BOOT_DDR_NONE 1).emitFw 0x1B0A [(1, env.ddrFails.getD 2 0)]

/-- The windows over service firmware and over the image slots (R525, R622). -/
def Chip.bootWindows (c : Chip) : Chip :=
  let c := (c.setWindow 0 ddrBase (slotAreaBase - 1) 0x007 0x001).setWindow 1 slotAreaBase (slotAreaBase + 0x7FFFF) 0x041 0x040
  (c.set F.STR_SLOT_BASE_HI_ADDR (slotAreaBase / 2 ^ 32)).set F.STR_SLOT_BASE_LO_ADDR (slotAreaBase % 2 ^ 32 / 4096)

/-- The image part of a service package. -/
def pkgBody (l : List Nat) : List Byte := ((l.drop 64).take (l.length - 128)).map (BitVec.ofNat 8)

/-- Service firmware is loaded (R622); the other slot's image follows once it is ready (R45). -/
def bootService (slot : Nat) (env : BootEnv) (x : Chip × Store) : Chip × Store :=
  match x.1.findSlot x.2 2 slot true env with
  | (c, none) => ((c.set F.SEC_BOOT_SF_NONE 1).emitFw 0x1B05, x.2)
  | (c, some (s, l)) =>
    let c := ((c.set F.SEC_BOOT_SF_SLOT s).set F.SEC_BOOT_SF_FALLBACK (bit (s != slot))).set F.SEC_FW_SF_VER (pkgVersion l)
    (c.setSys { c.sys with fwSlot := s, fwVersion := pkgVersion l }, x.2.write ddrBase (pkgBody l))

/-- Trusted firmware keeps the image of the slot that is not running in DDR (R45). -/
def loadCopy (env : BootEnv) (x : Chip × Store) : Chip × Store :=
  match x.1.trySlot x.2 2 (1 - x.1.sys.fwSlot) env with
  | (c, some l) => (c.setSys { c.sys with fwCopy := true }, x.2.write spareBase (pkgBody l))
  | (_, none) => (x.1.setSys { x.1.sys with fwCopy := false }, x.2)

/-- A switch that nothing delays: every block answers READY at once. -/
def Chip.switchNow (c : Chip) : Chip :=
  (readyBlocks ++ (List.range 8).map (0x10 + ·)).foldl Chip.blockReady (c.strApprove 1)

/-- Bytes placed in the pending slot are checked and, where they pass, applied with an immediate switch (R404, R408). -/
def placeImage (l : List Byte) (ok : Bool) (x : Chip × Store) : Chip × Store :=
  let c := ((x.1.set F.STR_LOAD_LEN_LEN l.length).set F.STR_STAT_CHECKING 1).set F.STR_RESULT_DONE 0
  let m := x.2.write (c.slotAddr c.pendingSlot) l
  let c := (c.setStr { c.str with copyFail := !ok }).imageChecked m []
  (if c.on F.STR_STAT_PEND_VALID then c.switchNow else c, m)

/-- An image slot of the flash, as long as its header says. -/
def Store.flashImage (m : Store) (slot : Nat) : List Byte :=
  let n := hdrLen ((m.readFlash (imageBase slot) 64).map BitVec.toNat)
  m.readFlash (imageBase slot) (if n ≤ 0x40000 then n else 64)

/-- An image slot is loaded under R400; a failure is recorded. -/
def bootImageSlot (slot : Nat) (env : BootEnv) (x : Chip × Store) : Chip × Store :=
  let x := placeImage (x.2.flashImage slot) (!bitAt env.flashFail (4 + slot)) x
  if x.1.on F.STR_STAT_ACTIVE_VALID then (x.1.set F.SEC_BOOT_IMG_SLOT slot, x.2)
  else (x.1.emitFw 0x1B04 [(1, slot), (1, x.1.get F.STR_RESULT_REASON)], x.2)

/-- The named image slot, else the other one. -/
def bootImage (slot : Nat) (env : BootEnv) (x : Chip × Store) : Chip × Store :=
  let x := bootImageSlot slot env x
  if x.1.on F.STR_STAT_ACTIVE_VALID then x
  else
    let x := bootImageSlot (1 - slot) env x
    if x.1.on F.STR_STAT_ACTIVE_VALID then (x.1.set F.SEC_BOOT_IMG_FALLBACK 1, x.2) else (x.1.set F.SEC_BOOT_IMG_NONE 1, x.2)

/-- The newest good record of the mirror gives EVR_MIR_POS and EVR_SEQ (R658): its slot and SEQ. -/
def Store.newestRecord (m : Store) : Option (Nat × Nat) :=
  let slots := (m.flash.filter (fun (e : Host.Cell) => decide (mirrorBase ≤ e.1) && e.1 % 32 == 0)).map Prod.fst
  let good := slots.filterMap (fun (a : Nat) =>
    let b := (m.readFlash a 32).map BitVec.toNat
    if fieldLE b 28 4 == crc32 (b.take 28) then some (a, fieldLE b 4 3) else none)
  good.foldl (fun (best : Option (Nat × Nat)) (r : Nat × Nat) =>
    match best with
    | none => some r
    | some b => if (r.2 + 2 ^ 24 - b.2) % 2 ^ 24 < 2 ^ 23 then some r else best) none

/-- Trusted firmware sets up the mirror and records why the device booted (R569, R590, R658). -/
def Chip.bootRecords (c : Chip) (m : Store) (cause : Nat) : Chip :=
  let c := match m.newestRecord with
    | some (a, s) => (c.set F.EVR_MIR_POS_ADDR (if c.get F.EVR_MIR_END_ADDR * 4096 ≤ a + 32 then mirrorBase else a + 32)).set F.EVR_SEQ_SEQ (s + 1)
    | none => (c.set F.EVR_MIR_POS_ADDR mirrorBase).set F.EVR_SEQ_SEQ 0
  let c := if cause &&& causeBrownout = 0 then c else c.emitFw 0x0104 [(4, (c.word R.PWR_AON_CAUSE.addr).toNat)]
  if cause &&& causeTrip = 0 then c else c.emitFw 0x0705 [(4, (c.word R.THM_TRIP.addr).toNat)]

/-- Step 9 of R622: MINSEQ, the locks, the processors, the phase. -/
def bootEnd (env : BootEnv) (x : Chip × Store) : Chip × Store :=
  let c := (x.1.readFuses x.2).set F.STR_MINSEQ_MINSEQ (x.2.imgCnt * 2 ^ 24)
  let c := (c.set F.STR_CTRL_LOCK 1).set F.DDR_CTRL_LOCK 1
  let c := c.setSys { c.sys with lcUp := true, fwUp := env.fwReady && !c.on F.SEC_BOOT_SF_NONE }
  if !c.sys.fwUp then (c, x.2)
  else
    let lc := c.lcInForce
    let x := phaseChange (if lc = 0 ∨ lc = 3 then 2 else 1) (loadCopy env (c, x.2))
    (x.1.emitFw 0x1B02 [(4, (x.1.word R.SEC_BOOT.addr).toNat), (4, (x.1.word R.SEC_LC.addr).toNat), (1, x.1.get F.SEC_PHASE_PHASE)], x.2)

/-- Steps 6 to 9, once trusted firmware runs. -/
def bootLoad (slots : Nat) (env : BootEnv) (x : Chip × Store) : Chip × Store :=
  let c := ((List.range 16).foldl Chip.bootIsland x.1).bootDdr env
  if c.on F.SEC_BOOT_DDR_NONE then (c, x.2)
  else bootEnd env (bootImage (bitsOf slots 2 2) env (bootService (bitsOf slots 1 1) env (c.bootWindows, x.2)))

/-- Steps 2 to 9 of the boot. -/
def bootRun (cause : Nat) (env : BootEnv) (x : Chip × Store) : Chip × Store :=
  let x := wipeDone (x.1.wipeStart 4, x.2)
  let r := x.2.bootRecord
  if x.1.lcInForce = 4 then recovery 2 x
  else if x.1.on F.OTP_RGN_RESTRICT 2 then recovery 1 x
  else match x.1.findSlot x.2 1 (bitsOf r.2.2 0 0) (!bitAt x.1.sec.policy 2) env with
    | (c, none) => recovery 0 (c, x.2)
    | (c, some (s, l)) =>
      let c := ((c.set F.SEC_BOOT_TF_SLOT s).set F.SEC_BOOT_TF_FALLBACK (bit (s != bitsOf r.2.2 0 0))).set F.SEC_FW_TF_VER (pkgVersion l)
      bootLoad r.2.2 env ((c.bootRecords x.2 cause), x.2)

/-- RESET_L is high and the supplies are good: what rises, and whether the boot waits for a trip to cool (R591, R710 to R712). -/
def Chip.resetRises (c : Chip) (env : BootEnv) : Chip :=
  if c.pwr.resetLow then
    let c := c.setPwr { c.pwr with resetLow := false, cause := c.pwr.cause ||| causePin }
    c.setSys { c.sys with i2cAddr := 0x4C + env.pins % 4 }
  else c

/-- The cold boot. A device with TEST_EN high stays in reset (R714). After an alarm in START it runs again from step 2 (R629). -/
def coldBoot (env : BootEnv) (x : Chip × Store) : Chip × Store :=
  let c := x.1
  if !c.pwr.booting || (env.testEn && (c.pwr.resetLow || c.pwr.off)) then x
  else
    let c := c.resetRises env
    if c.thm.tripped && !c.cooled then (c, x.2)
    else
      let c := c.tripEnds
      let cause := c.pwr.cause
      let c := (c.orBits R.SYS_RST_CAUSE cause).setPwr { c.pwr with booting := false, off := false, cause := 0, activeAt := c.now }
      let c := (c.setWord R.SYS_CLK_STAT.addr 7).set F.OTP_STAT_VPP_OK (bit env.vpp)
      let c := Chip.setUp (c.setSys { c.sys with tcUp := true, quiet := 0xFFFF }) 1 true
      let c := { c with otp := { c.otp with kickAt := c.now } }
      let c := if c.on F.OTP_STAT_SCAN_DONE then c else c.bootScan x.2
      bootRun cause env (c, x.2)

/-! ### Tamper and the watchdog (R627 to R630) -/

/-- One alarm is counted and recorded with the actions it asks for. -/
def Chip.alarm (acts : Nat → Nat) (c : Chip) (m : Nat) : Chip :=
  ((c.orBits F.SEC_TMP_STAT_ALARM (2 ^ m)).addSat F.SEC_TMP_CNT_COUNT 1).emit 0x1B07 [(1, m), (1, acts m)]

/-- Alarms of one TRUST cycle, as a mask. In START the Grotto is wiped and the boot starts again from step 2; a third alarm
leads to RECOVERY. -/
def tamper (mask : Nat) (x : Chip × Store) : Chip × Store :=
  let c := x.1
  let ms := setBits 5 mask
  if ms.isEmpty || c.pwr.off || !c.up 1 then x
  else
    let phase := c.get F.SEC_PHASE_PHASE
    let acts := fun (m : Nat) => if phase = 1 ∨ phase = 2 then c.get F.SEC_TMP_ACT_ACT / 2 ^ (4 * m) % 8 else if phase = 0 then 1 else 0
    let all := (ms.map acts).foldl (· ||| ·) 0
    let c := ms.foldl (Chip.alarm acts) { c with otp := { c.otp with abort := c.otp.abort || c.otp.cmd.isSome } }
    if phase = 0 then
      let c := (c.addSat F.SEC_BOOT_ALARMS ms.length).wipeStart 2
      if 3 ≤ c.get F.SEC_BOOT_ALARMS then recovery 3 (c.setPwr { c.pwr with booting := false }, x.2)
      else (c.setPwr { c.pwr with booting := true }, x.2)
    else
      let c := if bitAt all 0 then c.wipeStart 2 else c
      let c := if bitAt all 1 then c.send "tcRestart" [] else c
      if bitAt all 2 then coldReset 0 false true false (c, x.2) else (c, x.2)

/-- A write to SEC_WDOG_KICK. -/
def Chip.wdogKick (c : Chip) (key : Nat) : Chip :=
  if key = 0x5A3C then { c with otp := { c.otp with kickAt := c.now } } else c.addSat F.SEC_REJ_CNT_COUNT 1

/-- A period without a kick. -/
def wdogExpiry (x : Chip × Store) : Chip × Store :=
  let c := x.1
  if c.on F.SEC_WDOG_CFG_EN && c.up 1 && c.sys.tcUp && !c.pwr.booting
      && decide (c.otp.kickAt + ms (c.get F.SEC_WDOG_CFG_PERIOD) ≤ c.now) then coldReset causeWdog false true false x
  else x

end Sys2Proof.Machine
end

