-- ==== Sys2Proof/Machine/Pwr.lean ====
section
/-!
DEFINITION. Power states: activity, prepare and its voters, commit, the entry sequence, wake, pad hold (R547 to R566).
-/

namespace Sys2Proof.Machine

def Chip.pwrState (c : Chip) : Nat := c.get F.PWR_STAT_STATE
def Chip.pwrPhase (c : Chip) : Nat := c.get F.PWR_STAT_PHASE

/-- A press time as a number of AON cycles of 10 ns. -/
def aonCycle (t : Nat) : Nat := t / ns 10

/-! ### Voters (R554, R555) -/

/-- The voters of a target in their stopping order. -/
def voterList (target : Nat) : List Nat :=
  if target = 1 then [4, 6, 17] else ((List.range 22).map (· + 1)).filter (fun (v : Nat) => v != 7 || target == 3)

/-- The island of a voter's block. -/
def voterIsland (v : Nat) : Nat :=
  if v = 1 then 7 else if v = 2 ∨ v = 3 then 2 else if v = 4 ∨ v = 5 then 5 else if v = 6 ∨ v = 8 then 6
  else if v = 7 ∨ v = 19 then 3 else if v < 17 then v - 1 else if v = 18 then 0 else if v = 20 then 1 else 4

/-- A port holds a line event it has yet to fire. -/
def PortSt.holdsEvent (p : PortSt) : Bool := !p.events.isEmpty || p.xfer.isSome || p.held.toList.any (fun (l : List HeldRow) => !l.isEmpty)

/-- A fabric port is training or checks its link. -/
def Chip.fabTraining (c : Chip) : Bool := fabPorts.any (fun (p : Fin 3) => c.fabState p == 1 || c.fabState p == 2)

/-- The reason for which a voter refuses; 0 it is ready. A voter whose island is off, or a port the variant lacks, is ready. -/
def Chip.voterReason (c : Chip) (v target : Nat) (flashOk : Bool) : Nat :=
  if !c.up (voterIsland v) || (decide (9 ≤ v) && decide (v ≤ 16) && !c.hasPort (v - 9)) then 0
  else if v = 1 then
    if !c.hst.cmds.isEmpty || !c.hst.comps.isEmpty then 1
    else if target = 3 ∧ ((List.range 16).any (fun (q : Nat) => c.on F.HST_SQ_CFG_EN q || c.on F.HST_CQ_CFG_EN q) || c.on F.HST_REC_CFG_EN) then 2
    else 0
  else if v = 2 then if c.fw.forward.isSome || c.fw.calCmd.isSome then 1 else if c.fw.heavy then 2 else 0
  else if v = 3 then bit (c.on F.CAL_STAT_BUSY)
  else if v = 4 then bit (c.get F.CMP_IQ_WR_WR != c.get F.CMP_IQ_RD_RD || c.on F.CMP_STAT_RUN)
  else if v = 5 then bit (c.on F.NZH_ARQ_RSV_RSV)
  else if v = 6 then bit (c.on F.TRK_STAT_RUN || c.on F.TRK_STAT_COAST)
  else if v = 7 then bit (c.on F.TKO_CTRL_EN)
  else if v = 8 then bit ((List.finRange 8).any (fun (n : Fin 8) => c.pos.out[n].pulseEnd.isSome || (c.pos.out[n].active && c.on F.POS_CMP_CFG_EN n)))
  else if v < 17 then bit (c.port (Fin.ofNat 8 (v - 9))).holdsEvent
  else if v = 17 then bit (c.dma.toList.any (fun (d : DmaCh) => d.state == 1 || d.state == 2 || d.state == 3))
  else if v = 18 then bit (c.ldl.grants.any (fun (g : Grant) => !g.withdrawable))
  else if v = 19 then
    if c.get F.FAB_TXQ_WR_WR ≠ c.get F.FAB_TXQ_RD_RD ∨ c.fab.tx.isSome then 1
    else if (match c.fab.tx with | some d => !d.frames.isEmpty | none => false) then 2
    else if !c.fab.bulks.isEmpty then 3 else if c.fabTraining then 4 else 0
  else if v = 20 then bit (!flashOk)
  else if v = 21 then bit (c.on F.DDR_CTRL_EN && !c.on F.DDR_STAT_READY && !c.on F.DDR_STAT_TRAIN_FAIL && !c.on F.DDR_STAT_SR)
  else 0

/-- Every withdrawable grant is withdrawn, newest first (R573). -/
def Chip.withdrawAll (c : Chip) : Chip :=
  let out := c.ldl.grants.filter Grant.withdrawable
  let l := { c.ldl with grants := c.ldl.grants.filter (fun (g : Grant) => !g.withdrawable), withdrawn := c.ldl.withdrawn ++ out }
  let c := out.foldl (fun (c : Chip) (g : Grant) =>
    ((c.ldlShow g.res).emit 0x0801 [(1, g.client), (1, g.idx)]).addSat F.LDL_WDRAW_CNT_COUNT 1) { c with ldl := l }
  c.serveWithdrawn

/-- A port ends warming, releases its grants and goes VACANT. -/
def Chip.portStops (c : Chip) (k : Fin 8) : Chip :=
  let st := c.portState k
  if st = 0 ∨ st = 6 then c
  else ((c.portVacant k vacSleep).ldlRelease 7 k).setPwr { c.pwr with slept := putBit c.pwr.slept k true }

/-- A voter stops its work. What the others refuse to start while they are stopped stands with their commands. -/
def voterStops (v target : Nat) (x : Chip × Store) : Chip × Store :=
  if !x.1.up (voterIsland v) then x
  else if 9 ≤ v ∧ v ≤ 16 then
    let c := x.1.portStops (Fin.ofNat 8 (v - 9))
    (c.setPwr { c.pwr with slept := c.pwr.slept ||| (if x.1.portState (Fin.ofNat 8 (v - 9)) ≠ 0 ∧ x.1.portState (Fin.ofNat 8 (v - 9)) ≠ 6 then 2 ^ (v - 9) else 0) }, x.2)
  else if v = 18 then (x.1.withdrawAll, x.2)
  else if v = 19 then (x.1.lpAsk (target - 1), x.2)
  else if v = 20 then
    if x.1.evrWrites && x.1.on F.EVR_CTRL_MIR_EN && !x.1.ev.mirStop then
      let y := closeRecord x
      (List.range (y.1.closedRecords - y.1.ev.mirNext)).foldl (fun (y : Chip × Store) (_ : Nat) =>
        if y.1.closedRecords ≤ y.1.ev.mirNext then y else mirrorOne y) y
    else x
  else if v = 22 then (x.1.takeRetention, x.2)
  else x

/-- A voter takes up its work again. -/
def Chip.voterResumes (c : Chip) (v : Nat) : Chip :=
  let c := c.setPwr { c.pwr with ready := c.pwr.ready.filter (fun (x : Nat) => x != v) }
  if 9 ≤ v ∧ v ≤ 16 then
    if bitAt c.pwr.slept (v - 9) then
      (c.setPwr { c.pwr with slept := putBit c.pwr.slept (v - 9) false }).startUp (Fin.ofNat 8 (v - 9))
    else c
  else if v = 19 then c.lpAsk 0
  else c

/-- Results of an entry, as PWR_LAST.RESULT codes them. -/
def pwrRefused : Nat := 1
def pwrTimeout : Nat := 2
def pwrWake : Nat := 3
def pwrCancelled : Nat := 4
def pwrCommitTo : Nat := 5

/-- PWR_LAST. -/
def Chip.pwrLast (c : Chip) (result voter reason target : Nat) : Chip :=
  (((c.set F.PWR_LAST_RESULT result).set F.PWR_LAST_VOTER voter).set F.PWR_LAST_REASON reason).set F.PWR_LAST_TARGET target

/-- The entry in progress ends. -/
def Chip.entryEnds (c : Chip) : Chip :=
  let c := (((c.set F.PWR_STAT_PHASE 0).set F.PWR_STAT_VOTER 0).set F.PWR_STAT_TARGET 0)
  c.setPwr { c.pwr with ready := [], slept := 0, replay := false }

/-- PWR unwinds the entry: the voter being asked resumes, then those that were ready, last first (R555). -/
def Chip.unwind (c : Chip) (result voter reason : Nat) : Chip :=
  let asked := c.get F.PWR_STAT_VOTER
  let target := c.get F.PWR_STAT_TARGET
  let c := ((if asked = 0 then [] else [asked]) ++ c.pwr.ready).foldl Chip.voterResumes c
  let c := (c.entryEnds.pwrLast result voter reason target).addSat F.PWR_CNT_UNWINDS 1
  c.emit 0x0102 [(1, result), (1, voter), (1, reason)]

/-- A voter answers (R554, R556, R557): ready, and the next one is asked; or it refuses. -/
def voterAnswer (flashOk : Bool) (x : Chip × Store) : Chip × Store :=
  let c := x.1
  let v := c.get F.PWR_STAT_VOTER
  let target := c.get F.PWR_STAT_TARGET
  if c.pwrPhase ≠ 1 ∨ v = 0 ∨ aonCycle (c.pwr.prepAt + us (c.get F.PWR_PREP_TO)) < aonCycle c.now then x
  else
    let x := if v = 18 then voterStops v target x else x
    let r := x.1.voterReason v target flashOk
    if r ≠ 0 then (x.1.unwind pwrRefused v r, x.2)
    else
      let x := voterStops v target x
      let c := x.1.setPwr { x.1.pwr with ready := v :: x.1.pwr.ready }
      match (voterList target).filter (fun (w : Nat) => decide (v < w)) with
      | w :: _ => (c.set F.PWR_STAT_VOTER w, x.2)
      | [] => ((((c.set F.PWR_STAT_VOTER 0).set F.PWR_STAT_PHASE 2).setPwr { c.pwr with phase2At := c.now }).send "pwrPhase2" [target], x.2)

/-! ### Wake (R551, R558, R559, R561) -/

/-- Where a source can start a wake: Idle, Sleep, Deep sleep. -/
def wakeFrom (state : Nat) : Nat := if state = 1 then 0xFD else if state = 2 then 0x7F else if state = 3 then 0x3B else 0

/-- A wake to Run begins. A wake from Idle has its last stage alone. -/
def Chip.startWake (c : Chip) (src : Nat) (replay : Bool) : Chip :=
  let st := c.pwrState
  c.setPwr { c.pwr with wake := some ⟨if st = 1 then 4 else 0, c.now, st, src, replay⟩, replay := false }

/-- AON latches a wake source. During the entry sequence a source of the commit's own cycle still unwinds the entry; a later
one is replayed. During prepare it is left to the commit sample. -/
def Chip.latchWake (c : Chip) (src : Nat) : Chip :=
  let st := c.pwrState
  let ph := c.pwrPhase
  if c.pwr.off || c.thm.tripped || (src == 6 && ph == 0 && (st == 0 || st == 3)) || (src == 7 && st != 1) then c
  else
    let same := aonCycle c.pwr.latchAt == aonCycle c.now
    let c := (c.orBits F.PWR_WAKE_LATCH_LATCH (2 ^ src)).setPwr { c.pwr with
      latchMask := (if same then c.pwr.latchMask else 0) ||| 2 ^ src, latchAt := c.now }
    if !bitAt (c.get F.PWR_WAKE_EN_EN) src then c
    else if ph = 3 then
      if aonCycle c.now ≤ aonCycle c.pwr.commitAt then c.unwind pwrWake 0 0 else c.setPwr { c.pwr with replay := true }
    else if ph ≠ 0 then c
    else match c.pwr.wake with
      | some w => c.setPwr { c.pwr with wake := some { w with src := w.src ||| 2 ^ src } }
      | none => if bitAt (wakeFrom st) src then c.startWake (2 ^ src) false else c

/-- Activity (R550): the count of inactivity restarts; in Idle it is a wake (R551). -/
def Chip.activity (c : Chip) : Chip :=
  let c := c.setPwr { c.pwr with activeAt := c.now }
  if c.pwrState = 1 then c.latchWake 7 else c

/-- Activity that lasts: composition, a queued item, a DMA channel at work. -/
def Chip.working (c : Chip) : Bool :=
  c.on F.CMP_STAT_RUN || c.get F.CMP_IQ_WR_WR != c.get F.CMP_IQ_RD_RD
    || c.dma.toList.any (fun (d : DmaCh) => d.state != 0 && d.state != 5)

/-- Lasting activity is noted where it may have begun or ended. -/
def Chip.noteWork (before c : Chip) : Chip := if before.working || c.working then c.activity else c

/-! ### Requests, commit, deadlines (R550, R552, R553, R557) -/

/-- A request for a state. For Run it is a wake of source SW. DESIGN CHOICE. -/
def Chip.pwrRequest (c : Chip) (target : Nat) : Chip :=
  let st := c.pwrState
  if c.pwrPhase ≠ 0 ∨ c.pwr.wake.isSome then c.addSat F.PWR_REJ_CNT_COUNT 1
  else if target = st ∨ (target = 1 ∧ 1 < st) then c.pwrLast 0 0 0 target
  else if target = 0 then c.latchWake 6
  else
    let keep := if aonCycle c.pwr.latchAt = aonCycle c.now then c.pwr.latchMask else 0
    let c := c.set F.PWR_WAKE_LATCH_LATCH keep
    let c := ((c.set F.PWR_STAT_PHASE 1).set F.PWR_STAT_TARGET target).set F.PWR_STAT_VOTER ((voterList target).headD 0)
    c.setPwr { c.pwr with prepAt := c.now, ready := [], slept := 0, replay := false }

/-- A write to PWR_REQ: CANCEL before commit, or a request. -/
def Chip.pwrReqWrite (c : Chip) (w : Nat) : Chip :=
  if bitAt w 2 then
    if c.pwrPhase = 1 ∨ c.pwrPhase = 2 then c.unwind pwrCancelled 0 0 else c.addSat F.PWR_REJ_CNT_COUNT 1
  else c.pwrRequest (w % 4)

/-- A write to PWR_COMMIT, and the commit sample after it. -/
def Chip.pwrCommit (c : Chip) (w : Nat) : Chip :=
  let late := aonCycle (c.pwr.phase2At + us (c.get F.PWR_PREP_TO)) < aonCycle c.now
  if c.pwrPhase ≠ 2 ∨ w / 65536 ≠ 0x5A3C ∨ w % 4 ≠ c.get F.PWR_STAT_TARGET ∨ late then c.addSat F.PWR_REJ_CNT_COUNT 1
  else if c.get F.PWR_WAKE_LATCH_LATCH &&& c.get F.PWR_WAKE_EN_EN ≠ 0 then c.unwind pwrWake 0 0
  else (c.set F.PWR_STAT_PHASE 3).setPwr { c.pwr with commitAt := c.now, timerDone := false }

/-- PWR_PREP.TO passes in prepare. -/
def Chip.prepareTimeout (c : Chip) : Chip :=
  if c.pwrPhase = 1 ∧ c.pwr.prepAt + us (c.get F.PWR_PREP_TO) ≤ c.now then c.unwind pwrTimeout (c.get F.PWR_STAT_VOTER) 0 else c

/-- PWR_PREP.TO passes without a commit. -/
def Chip.commitTimeout (c : Chip) : Chip :=
  if c.pwrPhase = 2 ∧ c.pwr.phase2At + us (c.get F.PWR_PREP_TO) ≤ c.now then c.unwind pwrCommitTo 0 0 else c

/-- Automatic entry from a state, 0 Run or 1 Idle: inactivity has lasted the set time. The count starts again with the request. -/
def Chip.autoEntry (c : Chip) (state : Nat) : Chip :=
  let on := if state = 0 then c.on F.PWR_CTRL_AUTO_IDLE else c.on F.PWR_CTRL_AUTO_SLEEP
  let wait := if state = 0 then ms (c.get F.PWR_IDLE_IDLE_MS) else ms (1000 * c.get F.PWR_IDLE_SLEEP_S)
  if c.pwrState = state ∧ on ∧ !c.working ∧ !c.pwr.booting ∧ c.pwr.activeAt + wait ≤ c.now then
    (c.setPwr { c.pwr with activeAt := c.now }).pwrRequest (state + 1)
  else c

/-- The wake timer: PWR_WAKE_TMR ticks of 32.768 kHz have passed since the last commit. -/
def Chip.wakeTimer (c : Chip) : Chip :=
  let n := c.get F.PWR_WAKE_TMR_TICKS
  if n = 0 ∨ c.pwr.timerDone ∨ c.now * 32768 < c.pwr.commitAt * 32768 + n * ms 1000 then c
  else (c.setPwr { c.pwr with timerDone := true }).latchWake 0

/-! ### The entry sequence (R505, R522, R549, R560, R564, R650) -/

/-- Islands that Sleep switches off. -/
def sleepIslands : List Nat := [2, 5, 6] ++ (List.range 8).map (8 + ·)

/-- An island is switched off in an entry: it clears TIME_VALID without a record (R35). -/
def Chip.powerDown (c : Chip) (isl : Nat) : Chip :=
  if !c.up isl then c
  else
    let c := (c.setTimeValid isl false).islandDown isl
    c.setSys { c.sys with quiet := putBit c.sys.quiet isl true }

/-- What keeps its value through Deep sleep outside AON: EVR's pointers (R650), bank owners and masks (R507), the fuse shadows
(R597), the DDR controller while it keeps its devices (R522), the beacon control and the ports it
serves (R457). -/
def deepKept (ddr : Bool) (a : Nat) : Bool :=
  blockOf a == 2 || blockOf a == 0x1B || a == R.EVR_WR.addr || a == R.EVR_SEQ.addr || a == R.EVR_MIR_POS.addr || a == R.EVR_CTRL.addr
    || (decide (R.MEM_OWN.addr ≤ a) && decide (a < R.MEM_OWN.addr + 64)) || a == R.MEM_RET.addr || a == R.MEM_RET_TAKEN.addr
    || (ddr && blockOf a == 0x1E) || a == R.FAB_LP.addr || a == R.FAB_WAKE_SRC.addr || a == R.FAB_NODE.addr

/-- TRUST goes off in Deep sleep: what EVR keeps in AON stays. -/
def Chip.trustDown (c : Chip) : Chip :=
  let e := c.ev
  Chip.powerDown { c with
    ev := { hold := e.hold, holdLost := e.holdLost, mirNext := e.mirNext, sumpSeen := e.sumpSeen, recs := e.recs }
    str := {}
    sys := { c.sys with tcUp := false } } 1

/-- Every island but AON goes off. -/
def deepDown (x : Chip × Store) : Chip × Store :=
  let x := closeRecord x
  let c := x.1
  let ddr := c.on F.DDR_PWR_SR_DEEP && c.mem.trained
  let kept := c.regs.filter (fun (e : Nat × Word) => deepKept ddr e.1)
  let img := if c.on F.STR_STAT_ACTIVE_VALID then some (c.slotAddr (c.get F.STR_STAT_ACTIVE_SLOT)) else none
  let asleep := ((fabPorts.filter (fun (p : Fin 3) => c.fabState p == 6)).map (fun (p : Fin 3) => 2 ^ p.val)).sum
  let x := ddrSleep true (c.setPwr { c.pwr with imgAddr := img, asleep := asleep }, x.2)
  let trained := x.1.mem.trained
  let c := (((List.range 16).filter (fun (i : Nat) => decide (2 ≤ i))).foldl Chip.powerDown x.1).trustDown
  let c := kept.foldl (fun (c : Chip) (e : Nat × Word) => c.setWord e.1 e.2) { c with mem := { c.mem with trained := trained } }
  ((if ddr then (c.set F.DDR_STAT_READY 0).set F.DDR_STAT_SR 1 else c).orBits F.PAD_HOLD_HELD 0x1FFF, x.2)

/-- The islands of Sleep go off. -/
def sleepDown (x : Chip × Store) : Chip × Store :=
  let x := ddrSleep false x
  ((sleepIslands.foldl Chip.powerDown x.1).orBits F.PAD_HOLD_HELD 0x1FF, x.2)

/-- The entry sequence completes: the new state, its record, and a wake at once where one was latched after the sample. -/
def pwrEnter (x : Chip × Store) : Chip × Store :=
  if x.1.pwrPhase ≠ 3 then x
  else
    let target := x.1.get F.PWR_STAT_TARGET
    let replay := x.1.pwr.replay
    let c := x.1.setPwr { x.1.pwr with fwWas := x.1.sys.fwUp }
    let x := if target = 1 then (c, x.2) else if target = 2 then sleepDown (c.banksDown, x.2) else deepDown (c.banksDown, x.2)
    let c := (x.1.entryEnds.set F.PWR_STAT_STATE target).pwrLast 0 0 0 target
    let c := (c.addSat F.PWR_CNT_ENTRIES 1).emit 0x0101 [(1, target)]
    let c := c.setPwr { c.pwr with activeAt := c.now }
    (if replay then c.startWake (c.get F.PWR_WAKE_LATCH_LATCH &&& c.get F.PWR_WAKE_EN_EN) true else c, x.2)

/-! ### The stages of a wake (R458, R506, R522, R549, R562, R563, R565, R742) -/

/-- The regulator is ready: after Deep sleep LINK is powered and passes the wake on. -/
def Chip.wakeRegulator (c : Chip) (w : Wake) : Chip :=
  if w.left = 3 ∧ c.on F.FAB_LP_WAKE_FWD then c.beaconStart (c.pwr.asleep &&& (7 - (c.get F.FAB_WAKE_SRC_PORT &&& 7))) else c

/-- The memories are ready: banks at full voltage, DDR out of self-refresh or trained afresh. -/
def wakeMemory (w : Wake) (env : BootEnv) (x : Chip × Store) : Chip × Store :=
  let c := if w.left = 3 then x.1.islandUp 4 else x.1
  let c := if c.on F.DDR_STAT_SR then c.ddrWake
    else if w.left = 3 ∧ c.pwr.imgAddr.isSome then c.bootDdr env else c
  banksUp (c, x.2)

/-- After Deep sleep trusted firmware sets its windows and applies the active image again, from its slot while DDR was kept,
else from flash; without DDR it loads service firmware again. -/
def wakeLoad (kept : Bool) (env : BootEnv) (x : Chip × Store) : Chip × Store :=
  if !x.1.on F.DDR_STAT_READY then x
  else
    let slots := x.2.bootRecord.2.2
    let x := (x.1.bootWindows, x.2)
    let x := if kept then x else bootService (bitsOf slots 1 1) env x
    let x := match kept, x.1.pwr.imgAddr with
      | true, some a =>
        let n := hdrLen ((x.2.read a 64).map BitVec.toNat)
        placeImage (x.2.read a (if n ≤ 0x40000 then n else 64)) true x
      | true, none => x
      | false, _ => bootImage (bitsOf slots 2 2) env x
    let c := (x.1.set F.STR_MINSEQ_MINSEQ (x.2.imgCnt * 2 ^ 24)).set F.STR_CTRL_LOCK 1
    (c.set F.DDR_CTRL_LOCK 1, x.2)

/-- An island is up at the end of a wake, with TIME_VALID and without a record. -/
def Chip.wakeIsland (c : Chip) (isl : Nat) : Chip :=
  let c := if c.up isl then c else c.islandUp isl
  (c.setTimeValid isl true).setSys { c.sys with quiet := putBit c.sys.quiet isl false }

/-- The wake completes: STATE Run, its cause and its record. -/
def Chip.wakeEnds (c : Chip) (w : Wake) : Chip :=
  let d := (c.now - w.start) / us 1
  let c := (c.set F.PWR_STAT_STATE 0).setPwr { c.pwr with wake := none, activeAt := c.now }
  let c := ((c.set F.PWR_WAKE_CAUSE_SRC w.src).set F.PWR_WAKE_CAUSE_FROM w.left).set F.PWR_WAKE_CAUSE_REPLAY (bit w.replay)
  let c := (c.set F.PWR_WAKE_CAUSE_TIME (satNat 16 d)).emit 0x0103 [(1, w.src), (1, w.left), (1, bit w.replay), (2, satNat 16 d)]
  let slow := (w.left = 2 ∧ w.start + us 1500 < c.now) ∨ (w.left = 3 ∧ w.start + us 4000 < c.now)
  if slow then c.emit 0x0105 else c

/-- The logic stage ends: islands, firmware, the pads that TC releases. After Deep sleep the node is established, not LOCKED. -/
def wakeLogic (w : Wake) (env : BootEnv) (x : Chip × Store) : Chip × Store :=
  if w.left = 1 then (x.1.wakeEnds w, x.2)
  else
    let kept := w.left = 2 ∨ (x.1.mem.trained ∧ x.1.on F.DDR_PWR_SR_DEEP)
    let c := (List.range 16).foldl Chip.wakeIsland x.1
    let c := c.setSys { c.sys with lastMarker := c.now, tcUp := true, lcUp := true }
    let c := if w.left = 3 then c.set F.FAB_TSYNC_STAT_ESTAB 1 else c
    let c := { c with otp := { c.otp with kickAt := c.now } }
    let x := if w.left = 3 then wakeLoad (decide kept) env (c, x.2) else (c, x.2)
    let c := x.1
    let c := c.setSys { c.sys with fwUp := if decide kept then c.pwr.fwWas else env.fwReady && !c.on F.SEC_BOOT_SF_NONE }
    let c := c.set F.PAD_HOLD_HELD (c.get F.PAD_HOLD_HELD % 512)
    (c.wakeEnds w, x.2)

/-- A stage gives its ready signal: 0 start, 1 regulator, 2 oscillator, 3 memory, 4 logic. -/
def wakeStage (env : BootEnv) (x : Chip × Store) : Chip × Store :=
  match x.1.pwr.wake with
  | none => x
  | some w =>
    let next := fun (x : Chip × Store) => (x.1.setPwr { x.1.pwr with wake := some { w with stage := w.stage + 1 } }, x.2)
    if w.stage = 1 then next (x.1.wakeRegulator w, x.2)
    else if w.stage = 2 then next (x.1.setWord R.SYS_CLK_STAT.addr 7, x.2)
    else if w.stage = 3 then next (wakeMemory w env x)
    else if w.stage = 0 then next x
    else wakeLogic w env x

/-! ### Pad hold (R564 to R566) -/

/-- The island of a pad group. -/
def padIsland (g : Nat) : Nat :=
  if g < 8 then 8 + g else if g = 8 then 6 else if g = 9 then 4 else if g = 10 then 7 else if g = 11 then 1 else 3

/-- A group is released; a port of which pads were held may bring its head up. -/
def Chip.padRelease (c : Chip) (g : Nat) : Chip :=
  if bitAt (c.get F.PAD_HOLD_HELD) g && c.up (padIsland g) then
    let c := c.set F.PAD_HOLD_HELD (putBit (c.get F.PAD_HOLD_HELD) g false)
    if g < 8 then c.startUp (Fin.ofNat 8 g) else c
  else (c.addSat F.PAD_REJ_CNT_COUNT 1).emit 0x1D01 [(1, g)]

/-- A write to PAD_HOLD_REL. -/
def Chip.padReleases (c : Chip) (w : Nat) : Chip := (setBits 13 w).foldl Chip.padRelease c

/-- A beacon is seen (R457): an enabled detector latches a wake and names its port. -/
def Chip.beaconRx (c : Chip) (p : Fin 3) : Chip :=
  if c.on F.FAB_LP_BEACON_EN && bitAt (c.get F.FAB_NODE_PORT_EN) p then
    ((c.orBits F.FAB_WAKE_SRC_PORT (2 ^ p.val)).emit 0x1810 [(1, p.val)]).latchWake 1
  else c

end Sys2Proof.Machine
end

