-- ==== Sys2Proof/Machine/Hst.lean ====
section
/-!
DEFINITION. The host interface: submission and completion rings, the record ring, MSI-X, the PCIe link (R465 to R480), the
mailboxes (R485, R486) and the answers of TC (R487).
-/

namespace Sys2Proof.Machine

def Chip.setHst (c : Chip) (h : HstSt) : Chip := { c with hst := h }
def Chip.setFw (c : Chip) (f : FwSt) : Chip := { c with fw := f }

/-! ### Submission rings (R469, R470, R473, R477) -/

def Chip.sqSize (c : Chip) (q : Nat) : Nat := 2 ^ c.get F.HST_SQ_CFG_SIZE_LOG2 q
def Chip.cqSize (c : Chip) (q : Nat) : Nat := 2 ^ c.get F.HST_CQ_CFG_SIZE_LOG2 q

/-- Host software announces entries. A TAIL not below SIZE, or to a disabled ring, is ignored. A doorbell is activity and a wake. -/
def Chip.sqDoorbell (c : Chip) (q w : Nat) : Chip :=
  let c := (c.activity).latchWake 2
  if c.sqSize q ≤ w ∨ !c.on F.HST_SQ_CFG_EN q then (c.addSat F.HST_REJ_CNT_COUNT 1).emit 0x1904
  else c.set F.HST_SQ_TAIL_TAIL w q

/-- A completion ring is full (R474). -/
def Chip.cqFull (c : Chip) (n : Nat) : Bool := (c.get F.HST_CQ_TAIL_TAIL n + 1) % c.cqSize n == c.get F.HST_CQ_HEAD_HEAD n

/-- Entries of ring q not yet fetched. -/
def Chip.sqPending (c : Chip) (q : Nat) : Nat := (c.get F.HST_SQ_TAIL_TAIL q + c.sqSize q - c.get F.HST_SQ_HEAD_HEAD q) % c.sqSize q

/-- Whether ring q can be served now. -/
def Chip.sqServed (c : Chip) (q : Nat) : Bool :=
  c.on F.HST_SQ_CFG_EN q && !c.on F.HST_SQ_HEAD_ERR q && c.sqPending q != 0 && !c.cqFull (c.get F.HST_SQ_CFG_CQ q)

/-- The ring served next: the highest PRIO, rings of equal PRIO in turn (R470). -/
def Chip.sqNext (c : Chip) : Option Nat :=
  let order := (List.range 16).map (fun (i : Nat) => (c.hst.lastSq + 1 + i) % 16)
  (order.filter c.sqServed).foldl (fun (best : Option Nat) (q : Nat) =>
    match best with
    | none => some q
    | some b => if c.get F.HST_SQ_CFG_PRIO b < c.get F.HST_SQ_CFG_PRIO q then some q else best) none

/-- Fetch up to n entries of ring q; the fetch of entry number bad of the burst fails (R477). -/
def fetchEntries (m : Store) (q : Nat) (bad : Option Nat) : Nat → Nat → Chip → Chip
  | 0, _, c => c
  | n + 1, i, c =>
    if c.sqPending q = 0 then c
    else if bad = some i then (c.set F.HST_SQ_HEAD_ERR 1 q).emit 0x1903 [(1, q)]
    else
      let h := c.get F.HST_SQ_HEAD_HEAD q
      let base := c.get F.HST_SQ_BASE_HI_ADDR q * 2 ^ 32 + c.get F.HST_SQ_BASE_LO_ADDR q * 4096
      let e := (m.readHost (base + 64 * h) 64).map BitVec.toNat
      let next := (h + 1) % c.sqSize q
      let c := (c.set F.HST_SQ_HEAD_HEAD next q).setHst { c.hst with cmds := c.hst.cmds ++ [{ sq := q, entry := e, head := next }] }
      fetchEntries m q bad n (i + 1) c

/-- The oldest command of ring q that is not completed. -/
def Chip.oldest (c : Chip) (q : Nat) : Option HostCmd := c.hst.cmds.find? (fun (h : HostCmd) => h.sq == q)

/-- The oldest command of ring q completes; what follows it waits. -/
def Chip.completeOne (c : Chip) (q status r0 r1 : Nat) : Chip :=
  match takeFirst (fun (h : HostCmd) => h.sq == q) c.hst.cmds with
  | none => c
  | some (h, rest) =>
    c.setHst { c.hst with
      cmds := rest
      comps := c.hst.comps ++ [⟨c.get F.HST_SQ_CFG_CQ q, fieldLE h.entry 2 2, q, status, r0 % 2 ^ 32, r1 % 2 ^ 32, h.head⟩] }

/-- The opcodes of the command set (R481). -/
def hostOpcodes : List Nat := [0x01, 0x02, 0x10, 0x11, 0x12, 0x13, 0x14, 0x20, 0x30, 0x40, 0x50]

/-- Commands of ring q with an opcode that is reserved or not listed complete at once when their turn comes (R481). -/
def skipUnknown (q : Nat) : Nat → Chip → Chip
  | 0, c => c
  | k + 1, c =>
    match c.oldest q with
    | some h => if hostOpcodes.contains (fieldLE h.entry 0 1) then c else skipUnknown q k (c.completeOne q 1 0 0)
    | none => c

/-- The oldest command of ring q completes. -/
def Chip.complete (c : Chip) (q status r0 r1 : Nat) : Chip :=
  skipUnknown q c.hst.cmds.length (c.completeOne q status r0 r1)

/-- HST fetches entries for which service firmware has room. -/
def Chip.sqFetch (c : Chip) (m : Store) (room : Nat) (bad : Option Nat) : Chip :=
  if !c.hostReach || !c.sys.fwUp || c.pwr.ready.contains 1 || room == 0 then c
  else match c.sqNext with
    | none => c
    | some q =>
      let c := fetchEntries m q bad (min room (c.get F.HST_XCFG_FETCH_N)) 0 (c.setHst { c.hst with lastSq := q })
      (skipUnknown q c.hst.cmds.length c).activity

/-- A submission ring is enabled (R490). -/
def Chip.sqEnabled (c : Chip) (q : Nat) : Chip := (c.set F.HST_SQ_HEAD_HEAD 0 q).set F.HST_SQ_TAIL_TAIL 0 q

/-! ### Completions (R471, R474 to R476) -/

/-- A completion ring is enabled: the next entry carries P = 1 (R475). -/
def Chip.cqEnabled (c : Chip) (n : Nat) : Chip :=
  let c := ((c.set F.HST_CQ_HEAD_HEAD 0 n).set F.HST_CQ_TAIL_TAIL 0 n).set F.HST_CQ_TAIL_P 1 n
  c.setHst { c.hst with cqUnsig := c.hst.cqUnsig.set (Fin.ofNat 16 n) 0 }

/-- The bytes of a completion entry. -/
def Completion.bytes (x : Completion) (p : Nat) : List Nat :=
  bytesLE 2 x.cid ++ [x.sq, x.status] ++ bytesLE 4 x.r0 ++ bytesLE 4 x.r1 ++ bytesLE 2 x.head ++ [p, 0]

/-- HST writes the oldest completion of ring n; fail says that host memory refused the write. -/
def cqWrite (n : Nat) (fail : Bool) (x : Chip × Store) : Chip × Store :=
  let c := x.1
  if !c.hostReach || !c.on F.HST_CQ_CFG_EN n || c.cqFull n then x
  else match takeFirst (fun (k : Completion) => k.cq == n) c.hst.comps with
    | none => x
    | some (k, rest) =>
      if fail then (c.emit 0x1906 [(1, n)], x.2)
      else
        let t := c.get F.HST_CQ_TAIL_TAIL n
        let p := c.get F.HST_CQ_TAIL_P n
        let base := c.get F.HST_CQ_BASE_HI_ADDR n * 2 ^ 32 + c.get F.HST_CQ_BASE_LO_ADDR n * 4096
        let m := x.2.writeHost (base + 16 * t) ((k.bytes p).map (BitVec.ofNat 8))
        let next := (t + 1) % c.cqSize n
        let c := (c.set F.HST_CQ_TAIL_TAIL next n).set F.HST_CQ_TAIL_P (if next = 0 then 1 - p else p) n
        let i : Fin 16 := Fin.ofNat 16 n
        (c.setHst { c.hst with
          comps := rest
          cqUnsig := c.hst.cqUnsig.set i (c.hst.cqUnsig[i] + 1)
          cqFirst := if c.hst.cqUnsig[i] = 0 then c.hst.cqFirst.set i c.now else c.hst.cqFirst }, m)

/-- A write to HST_CQc_HEAD: not below SIZE it is ignored and counted. -/
def Chip.cqHead (c : Chip) (n w : Nat) : Chip :=
  let c := c.activity.latchWake 2
  if c.cqSize n ≤ w then c.addSat F.HST_REJ_CNT_COUNT 1 else c.set F.HST_CQ_HEAD_HEAD w n

/-! ### The record ring (R479, R480) -/

/-- The record ring is enabled. It starts at the oldest record not taken. -/
def Chip.recEnabled (c : Chip) : Chip :=
  let c := (c.set F.HST_REC_TAIL_TAIL 0).set F.HST_REC_HEAD_HEAD 0
  c.setHst { c.hst with recNext := c.get F.NZH_ARQ_RD_RD, recUnsig := 0 }

/-- Room in the record ring. -/
def Chip.recRoom (c : Chip) : Bool :=
  decide ((c.get F.HST_REC_TAIL_TAIL + 2 ^ 32 - c.get F.HST_REC_HEAD_HEAD) % 2 ^ 32 < 2 ^ c.get F.HST_REC_CFG_SIZE_LOG2)

/-- Copy up to n records; the count of those copied is kept. -/
def copyRecords (errs : List DdrError) : Nat → Nat → Chip × Store → (Chip × Store) × Nat
  | 0, k, x => (x, k)
  | n + 1, k, x =>
    let c := x.1
    if c.hst.recNext = c.get F.NZH_ARQ_WR_WR ∨ !c.recRoom then (x, k)
    else
      let at' := c.baseAddr F.NZH_ARQ_BASE_LO_ADDR F.NZH_ARQ_BASE_HI_ADDR + 64 * (c.hst.recNext % 4096)
      match c.agentRead x.2 .host errs at' 64 with
      | (c, none) => ((c, x.2), k)
      | (c, some l) =>
        let t := c.get F.HST_REC_TAIL_TAIL
        let base := c.get F.HST_REC_BASE_HI_ADDR * 2 ^ 32 + c.get F.HST_REC_BASE_LO_ADDR * 4096
        let m := x.2.writeHost (base + 64 * (t % 2 ^ c.get F.HST_REC_CFG_SIZE_LOG2)) l
        let c := (c.addWrap F.HST_REC_TAIL_TAIL 1).setHst { c.hst with recNext := (c.hst.recNext + 1) % 8192 }
        copyRecords errs n (k + 1) (c, m)

/-- HST copies a batch of issued records and writes TAIL back. DESIGN CHOICE: a failed write names ring 16. -/
def recCopy (n : Nat) (fail : Bool) (errs : List DdrError) (x : Chip × Store) : Chip × Store :=
  let c := x.1
  if !c.hostReach || !c.on F.HST_REC_CFG_EN || !c.up 5 then x
  else if fail then (c.emit 0x1906 [(1, 16)], x.2)
  else
    let r := copyRecords errs n 0 x
    let c := r.1.1
    if r.2 = 0 then r.1
    else
      let wb := c.get F.HST_REC_WB_HI_ADDR * 2 ^ 32 + c.get F.HST_REC_WB_LO_ADDR * 4
      let h := c.hst
      (c.setHst { h with recUnsig := h.recUnsig + r.2, recFirst := if h.recUnsig = 0 then c.now else h.recFirst },
        r.1.2.writeHost wb (leBytes 4 (c.get F.HST_REC_TAIL_TAIL)))

/-- A write to HST_REC_HEAD frees as many records of NZH (R480); beyond TAIL it is ignored and counted. -/
def Chip.recHead (c : Chip) (w : Nat) : Chip :=
  let c := c.activity.latchWake 2
  let h := c.get F.HST_REC_HEAD_HEAD
  let k := (w + 2 ^ 32 - h) % 2 ^ 32
  if (c.get F.HST_REC_TAIL_TAIL + 2 ^ 32 - h) % 2 ^ 32 < k then c.addSat F.HST_REJ_CNT_COUNT 1
  else
    let c := c.set F.HST_REC_HEAD_HEAD w
    if c.up 5 then c.arqRead ((c.get F.NZH_ARQ_RD_RD + k) % 8192) else c

/-! ### MSI-X (R466, R476, R486, R643, R659) -/

/-- Words of the MSI-X table and of the PBA. -/
def msixTable (v j : Nat) : Nat := 0x10198000 + 16 * v + 4 * j
def msixPba (v : Nat) : Nat := 0x10199000 + 4 * (v / 32)

/-- The coalescing rule of R476: n unsignalled, the first of them since t. -/
def Chip.coalesced (c : Chip) (n t coalN coalUs : Nat) : Bool :=
  decide (0 < n) && (coalN == 0 || decide (coalN ≤ n) || decide (t + us coalUs ≤ c.now))

/-- Whether HST can send MSI-X messages. -/
def Chip.msixReach (c : Chip) : Bool := c.hostReach && c.hst.msixEn

/-- Whether vector v is masked, alone or with the function. -/
def Chip.msixMasked (c : Chip) (v : Nat) : Bool := c.hst.msixMask || bitAt (c.word (msixTable v 3)).toNat 0

/-- The message of vector v: a write of the vector's data to its address; a masked vector is pending instead. -/
def sendVector (v : Nat) (x : Chip × Store) : Chip × Store :=
  let c := x.1
  if c.msixMasked v then
    (c.setWord (msixPba v) (BitVec.ofNat 32 (putBit (c.word (msixPba v)).toNat (v % 32) true)), x.2)
  else
    let a := (c.word (msixTable v 0)).toNat + (c.word (msixTable v 1)).toNat * 2 ^ 32
    (c.send "msix" [v], x.2.writeHost a (leBytes 4 (c.word (msixTable v 2)).toNat))

/-- HST sends what is due. -/
def msixSend (src : MsixSource) (x : Chip × Store) : Chip × Store :=
  let c := x.1
  if !c.msixReach then x
  else match src with
    | .cq n =>
      let i : Fin 16 := Fin.ofNat 16 n
      if c.coalesced c.hst.cqUnsig[i] c.hst.cqFirst[i] (c.get F.HST_CQ_CFG_COAL_N i) (c.get F.HST_CQ_CFG_COAL_US i) then
        sendVector (c.get F.HST_CQ_CFG_VEC i) (c.setHst { c.hst with cqUnsig := c.hst.cqUnsig.set i 0 }, x.2)
      else x
    | .records =>
      if c.coalesced c.hst.recUnsig c.hst.recFirst (c.get F.HST_REC_CFG_COAL_N) (c.get F.HST_REC_CFG_COAL_US) then
        sendVector (c.get F.HST_REC_CFG_VEC) (c.setHst { c.hst with recUnsig := 0 }, x.2)
      else x
    | .mbx => if c.hst.mbxDue then sendVector (c.get F.MBX_VEC_VEC) (c.setHst { c.hst with mbxDue := false }, x.2) else x
    | .event s =>
      if c.ev.msixDue.contains s then
        sendVector (routeVec (c.route s)) (c.setEv { c.ev with msixDue := c.ev.msixDue.filter (fun (y : Nat) => y != s) }, x.2)
      else x
    | .hq =>
      if c.coalesced c.ev.hqUnsig c.ev.hqFirst (c.get F.EVC_HQ_CFG_COAL_N) (c.get F.EVC_HQ_CFG_COAL_US) then
        sendVector (c.get F.EVC_HQ_CFG_VEC) (c.setEv { c.ev with hqUnsig := 0 }, x.2)
      else x
    | .held v =>
      if bitAt (c.word (msixPba v)).toNat (v % 32) && !c.msixMasked v then
        sendVector v (c.setWord (msixPba v) (BitVec.ofNat 32 (putBit (c.word (msixPba v)).toNat (v % 32) false)), x.2)
      else x

/-! ### The link (R467, R468) -/

/-- The link goes down or is hot reset: every ring is disabled, the HOST island is reset. -/
def Chip.linkDown (c : Chip) : Chip :=
  if !c.up 7 then c
  else
    let c := ((c.islandDown 7).islandUp 7).setFw { c.fw with forward := none, calCmd := none, sends := [] }
    let c := if c.up 1 then c.set F.EVC_HQ_CFG_EN 0 else c
    c.emit 0x1901

/-- The link trains. -/
def Chip.linkUp (c : Chip) (speed width : Nat) : Chip :=
  if !c.up 7 ∨ c.on F.HST_LINK_UP then c
  else (((c.set F.HST_LINK_UP 1).set F.HST_LINK_SPEED speed).set F.HST_LINK_WIDTH width).emit 0x1902 [(1, speed), (1, width)]

/-- The host writes configuration space: Bus Master Enable, the D-state, MSI-X Enable and Function Mask. -/
def Chip.configWrite (c : Chip) (bme : Bool) (dstate : Nat) (msixEn msixMask : Bool) : Chip :=
  if !c.up 7 ∨ !c.on F.HST_LINK_UP then c
  else
    let c := (c.set F.HST_LINK_BME (bit bme)).set F.HST_LINK_DSTATE (if dstate = 3 then 3 else 0)
    c.setHst { c.hst with msixEn := msixEn, msixMask := msixMask }

/-! ### Mailboxes (R485, R486, R493) -/

/-- The initiators that may send through mailbox m, and those that receive. -/
def mbxSender (m : Nat) (i : Initiator) : Bool :=
  if m = 0 ∨ m = 6 then i == .jc0 || i == .jc1 else if m = 2 ∨ m = 7 then i == .lc else if m = 4 then i == .host else i == .tc
def mbxReceiver (m : Nat) (i : Initiator) : Bool :=
  if m = 1 ∨ m = 7 then i == .jc0 || i == .jc1 else if m = 3 ∨ m = 6 then i == .lc else if m = 5 then i == .host else i == .tc

/-- A write to a mailbox is ignored. -/
def Chip.mbxRefuse (c : Chip) (m : Nat) (i : Initiator) : Chip :=
  let c := c.addSat F.MBX_REJ_CNT_COUNT 1
  if bitAt c.fw.mbxRej m then c
  else (c.setFw { c.fw with mbxRej := putBit c.fw.mbxRej m true }).emit 0x1C01 [(1, m), (1, initNo i)]

/-- A write to a mailbox is accepted. -/
def Chip.mbxTake (c : Chip) (m : Nat) : Chip := c.setFw { c.fw with mbxRej := putBit c.fw.mbxRej m false }

/-- FULL is set and the receiver notified. -/
def Chip.mbxFull (c : Chip) (m : Nat) : Chip :=
  let c := c.set F.MBXM_CTRL_FULL 1 m
  if m = 5 then (if c.on F.MBX_VEC_EN then c.setHst { c.hst with mbxDue := true } else c)
  else c.setEv { c.ev with sig := c.ev.sig ++ [.mailbox m] }

/-- A write to MBXm_MSGw. -/
def Chip.mbxMsg (c : Chip) (i : Initiator) (m w v : Nat) : Chip :=
  if mbxSender m i ∧ !c.on F.MBXM_CTRL_FULL m then (c.mbxTake m).set F.MBX_MSG_DATA v m w else c.mbxRefuse m i

/-- A write to MBXm_CTRL. -/
def Chip.mbxCtrl (c : Chip) (i : Initiator) (m v : Nat) : Chip :=
  let c := if bitAt v 0 then (if mbxSender m i ∧ !c.on F.MBXM_CTRL_FULL m then (c.mbxTake m).mbxFull m else c.mbxRefuse m i) else c
  if bitAt v 1 then (if mbxReceiver m i then (c.mbxTake m).set F.MBXM_CTRL_FULL 0 m else c.mbxRefuse m i) else c

/-! ### TC's answers (R487) -/

/-- Status codes (R484). -/
def stOk : Nat := 0
def stBadOpcode : Nat := 1
def stBadArg : Nat := 2
def stDmaError : Nat := 3
def stBusy : Nat := 4
def stDenied : Nat := 5
def stAborted : Nat := 6
def stTcTimeout : Nat := 7
def stJobUnknown : Nat := 8
def stRefused : Nat := 9

/-- Service firmware takes the answer to a message it forwarded, and completes the host's command (R481). -/
def Chip.forwardAnswered (c : Chip) (tag status : Nat) (l : List Nat) : Chip :=
  match c.fw.forward with
  | some (q, t, _) =>
    if t = tag ∧ c.sys.fwUp then
      ((c.setFw { c.fw with forward := none }).set F.MBXM_CTRL_FULL 0 1).complete q status (l.getD 0 0) (l.getD 1 0)
    else c
  | none => c

/-- TC writes an answer in the sender's reverse mailbox. -/
def Chip.tcWrite (c : Chip) (m tag status : Nat) (l : List Nat) : Chip :=
  let w := (status + tag * 256 + l.length * 65536) :: l
  let c := (w.zip (List.range 16)).foldl (fun (c : Chip) (e : Nat × Nat) => c.set F.MBX_MSG_DATA e.1 (m + 1) e.2) c
  let c := c.mbxFull (m + 1)
  if m = 0 then c.forwardAnswered tag status l else c

/-- TC answers a message of mailbox m with a status and result words; an answer that finds the reverse mailbox full waits. -/
def Chip.tcAnswer (c : Chip) (m tag status : Nat) (l : List Nat) : Chip :=
  if !c.up 2 then c
  else if c.on F.MBXM_CTRL_FULL (m + 1) then c.setFw { c.fw with tcOut := c.fw.tcOut ++ [(m, tag, status, l)] }
  else c.tcWrite m tag status l

/-- The oldest answer that waits for a mailbox that is free now is written. -/
def Chip.tcFlush (c : Chip) : Chip :=
  match takeFirst (fun (e : Nat × Nat × Nat × List Nat) => !c.on F.MBXM_CTRL_FULL (e.1 + 1)) c.fw.tcOut with
  | none => c
  | some (e, rest) => Chip.tcWrite (c.setFw { c.fw with tcOut := rest }) e.1 e.2.1 e.2.2.1 e.2.2.2

/-- TC runs trusted firmware, or the ROM in RECOVERY, and the mailboxes answer. -/
def Chip.tcRuns (c : Chip) : Bool := c.up 1 && c.up 2 && c.sys.tcUp && !c.pwr.booting && !c.pwr.off

/-- A message to TC with an opcode that is not in its table is answered at once. -/
def Chip.tcUnknown (c : Chip) : Chip :=
  [0, 2, 4].foldl (fun (c : Chip) (m : Nat) =>
    let w := c.get F.MBX_MSG_DATA m 0
    if c.tcRuns && c.on F.MBXM_CTRL_FULL m && (w % 256 == 0 || decide (0x0D < w % 256)) then
      (c.set F.MBXM_CTRL_FULL 0 m).tcAnswer m (bitsOf w 15 8) (if c.get F.SEC_PHASE_PHASE = 3 then stDenied else stBadOpcode) []
    else c) c

/-- TC answers, when something is known, the commands of opcode op that wait for it. -/
def Chip.tcResolve (c : Chip) (op status : Nat) (l : List Nat) : Chip :=
  let due := c.fw.tcWait.filter (fun (e : Nat × Nat × Nat) => e.2.2 == op)
  let c := c.setFw { c.fw with tcWait := c.fw.tcWait.filter (fun (e : Nat × Nat × Nat) => e.2.2 != op) }
  due.foldl (fun (c : Chip) (e : Nat × Nat × Nat) => c.tcAnswer e.1 e.2.1 status l) c

/-- POWER is answered once every voter is ready, or with what ended the request. -/
def Chip.tcPower (c : Chip) : Chip :=
  if c.pwrPhase = 2 then c.tcResolve 6 stOk []
  else if c.pwrPhase = 0 then
    if c.get F.PWR_LAST_RESULT = 0 then c.tcResolve 6 stOk [] else c.tcResolve 6 stRefused [c.get F.PWR_LAST_VOTER, c.get F.PWR_LAST_REASON]
  else c

/-- The commands that wait for the fuse controller are answered with its result. -/
def Chip.tcFuses (c : Chip) : Chip :=
  if c.on F.OTP_STAT_BUSY then c
  else
    let r := (c.word R.OTP_RESULT.addr).toNat
    let st := if c.get F.OTP_RESULT_CODE = 0 then stOk else stRefused
    [7, 8, 9].foldl (fun (c : Chip) (op : Nat) => c.tcResolve op st [r]) c

/-- IMG_LOAD is answered once the check is complete. -/
def Chip.tcImage (c : Chip) : Chip :=
  if c.on F.STR_STAT_CHECKING then c
  else c.tcResolve 1 (if c.get F.STR_RESULT_REASON = 0 then stOk else stRefused) [(c.word R.STR_RESULT.addr).toNat]

/-- What TC did to the JOB island is answered once MBX works again. -/
def Chip.tcJobUp (c : Chip) : Chip := (c.tcResolve 5 stOk []).tcResolve 0x0B stOk []

end Sys2Proof.Machine
end

