-- ==== Sys2Proof/Machine/Cal.lean ====
section
/-!
DEFINITION. Calibration (R665 to R691): runs, preconditions, eyes, the results of each procedure, the window to the values.
-/

namespace Sys2Proof.Machine

def Chip.setCal (c : Chip) (s : CalSt) : Chip := { c with cal := s }

def Chip.calBusy (c : Chip) : Bool := c.on F.CAL_STAT_BUSY
def Chip.calPhase (c : Chip) : Nat := c.get F.CAL_STAT_PHASE
def Chip.calProc (c : Chip) : Nat := c.get F.CAL_STAT_PROC
def Chip.calTarget (c : Chip) : Nat := c.get F.CAL_STAT_TARGET

/-! ### Eyes (R674) -/

/-- Whether setting i passes. -/
def passAt (l : List Bool) (i : Nat) : Bool := l.getD i false

/-- The runs of passing settings as (first, length); of a modular setting they may wrap. -/
def eyeRuns (wrap : Bool) (l : List Bool) : List (Nat × Nat) :=
  let n := l.length
  (List.range n).filterMap (fun (s : Nat) =>
    let before := if s = 0 then (wrap && l.contains false && passAt l (n - 1)) else passAt l (s - 1)
    if passAt l s && !before then
      let room := if wrap then n else n - s
      some (s, ((List.range room).takeWhile (fun (i : Nat) => passAt l ((s + i) % n))).length)
    else none)

/-- Twice the signed distance from a run's centre to setting p, the shorter way round for a modular setting of n values. -/
def eyeDist (wrap : Bool) (n p : Nat) (r : Nat × Nat) : Int :=
  let d : Int := 2 * (p : Int) - (2 * r.1 + r.2 - 1 : Nat)
  if wrap then
    let m := d % (2 * n : Nat)
    if m ≤ (n : Int) then m else m - (2 * n : Nat)
  else d

/-- The widest eye, the nearest to p among the widest: its centre, rounded towards p, and its width. -/
def chooseEye (wrap : Bool) (l : List Bool) (p : Nat) : Option (Nat × Nat) :=
  let n := l.length
  let better := fun (a b : Nat × Nat) => a.2 < b.2 || (a.2 == b.2 && (eyeDist wrap n p b).natAbs < (eyeDist wrap n p a).natAbs)
  match eyeRuns wrap l with
  | [] => none
  | r :: rest =>
    let e := rest.foldl (fun (a b : Nat × Nat) => if better a b then b else a) r
    let twice := 2 * e.1 + e.2 - 1
    let mid := if twice % 2 = 0 then twice / 2 else if 0 < eyeDist wrap n p e then (twice + 1) / 2 else twice / 2
    some (mid % n, e.2)

/-- The integer square root, bit by bit from 2^39. -/
def isqrt (n : Nat) : Nat :=
  (List.range 40).foldl (fun (r i : Nat) => if (r + 2 ^ (39 - i)) ^ 2 ≤ n then r + 2 ^ (39 - i) else r) 0

/-- The square root of a number to the nearest whole number. -/
def sqrtRound (q : Rat) : Nat := (isqrt (4 * q).floor.toNat + 1) / 2

def meanQ (l : List Rat) : Rat := if l.isEmpty then 0 else l.sum / ((l.length : Nat) : Rat)

/-! ### Preconditions (R665) -/

/-- The port of a target. -/
def Chip.calPort (c : Chip) : Fin 8 := Fin.ofNat 8 c.calTarget

/-- A strobe, of a line or of a warming line, in the last 10 ms. -/
def Chip.calStrobe (c : Chip) (k : Fin 8) : Bool :=
  (c.flw.everFired[k] && decide (c.now ≤ c.flw.lastStrobe[k] + ms 10))
    || c.flw.warmSent[k].any (fun (e : Nat × Nat) => decide (c.now ≤ e.1 + ms 10))

/-- Counts of a channel come at CAL_MOTION or faster. -/
def Chip.calMotion (c : Chip) (x : Fin 2) : Bool :=
  let e := c.pos.enc[x]
  let rate := c.get F.CAL_MOTION_RATE
  0 < e.gap && decide (rate * e.gap ≤ 2000000000) && decide (rate * (c.now / 2 ^ 31 - e.ts) ≤ 2000000000)

/-- The failing condition of a list, numbered from 1; 0 where all hold. -/
def firstFalse : List Bool → Nat → Nat
  | [], _ => 0
  | b :: r, n => if b then firstFalse r (n + 1) else n

/-- The number of the precondition of procedure p on target t that fails, 0 where none does. -/
def Chip.calFails (c : Chip) (p t : Nat) : Nat :=
  let k := Fin.ofNat 8 t
  let has := if p ≤ 4 then c.hasPort t else if p = 6 then t < 2 || c.feature 4 else true
  if !has then 1
  else if p = 1 then
    if c.cal.laneOff then (if c.isUp k then firstFalse [true, true, c.on F.HP_STAT_BC_LOCK k] 1
      else if c.on F.HP_STAT_PRES k && c.on F.HP_STAT_PGOOD k then 2 else 1)
    else firstFalse [c.isUp k, c.get F.HP_STAT_LANES k == 3, c.on F.HP_STAT_BC_LOCK k] 1
  else if p = 2 then firstFalse [c.isUp k, c.on F.HP_STAT_BC_LOCK k] 1
  else if p = 3 then firstFalse [c.isUp k, c.calStrobe k || decide (c.now < c.cal.startAt + ms 10)] 1
  else if p = 4 then
    let y := c.get F.CAL_CHART_MARK
    firstFalse [c.isUp k && !c.isFenced k && !c.on F.HP_PSTAT_BLANK k,
      c.on F.TRK_STAT_RUN && !c.on F.TRK_STAT_COAST && !c.on F.TRK_STAT_NO_SOURCE,
      c.on F.POS_MARK_CFG_EN y && !c.on F.POS_MARK_CFG_WIN_EN y
        && !c.cmp.items.any (fun (i : Item) => i.anchor == 2 && c.get F.CMP_LANE_MARK_MARK_SEL i.lane == y && i.stage != .done),
      c.switchState == 0] 1
  else if p = 5 then
    firstFalse [c.on F.POS_ENC_CFG_EN t, c.get F.POS_ENC_STAT_WIRE_ACT t == 0, c.calMotion (Fin.ofNat 2 t)] 1
  else if p = 6 then firstFalse [c.get F.FAB_P_STAT_STATE t == 3 && c.get F.FAB_P_STAT_LANES t == 3] 1
  else if p = 7 then firstFalse [c.on F.DDR_STAT_READY, !c.on F.DDR_STAT_SR] 1
  else
    let d := Fin.ofNat 4 t
    let others := c.validSensors.filter (fun (e : Fin 4) => e != d)
    firstFalse [!c.on F.THM_SENS_RANGE t, c.on F.CAL_ARG_ABS || 2 ≤ others.length,
      (signed 16 (c.get F.THM_HOTTEST_T) - c.cal.hot).natAbs < 16] 1

/-! ### A run's start and end (R666 to R672) -/

/-- The number of targets of a procedure. -/
def calTargets (p : Nat) : Nat := if p = 0 then 0 else if p ≤ 4 then 8 else if p = 5 then 2 else if p = 6 then 3 else if p = 7 then 1 else if p = 8 then 4 else 0

/-- A run ends: its result, the event, the grant and a lane taken off given back. -/
def Chip.calEnd (c : Chip) (code detail figure : Nat) : Chip :=
  let p := c.calProc
  let t := c.calTarget
  let fig := satNat 16 figure
  let off := c.cal.laneOff
  let c := (((c.set F.CAL_RESULT_DONE 1).set F.CAL_RESULT_PROC p).set F.CAL_RESULT_DETAIL detail).set F.CAL_RESULT_CODE code
  let c := ((c.set F.CAL_QUALITY_FIGURE fig).set F.CAL_STAT_BUSY 0).set F.CAL_STAT_PHASE 0
  let c := if code = 0 then c.addSat F.CAL_CNT_APPLIED 1 else c.addSat F.CAL_CNT_NOT_APPLIED 1
  let c := c.setCal { c.cal with samples := [], chart := none, dashes := [], bad := [], laneOff := false }
  let k := Fin.ofNat 8 t
  let c := if off && c.isUp k then c.setHp k { c.port k with restore := true } else c
  (c.ldlRelease 4 0).emit 0x1A01 [(1, p), (1, t), (1, code), (1, detail), (2, fig)]

/-- CAL asks for its grant (R667). -/
def Chip.calAsk (c : Chip) : Chip := c.ldlAsk 4 0 0 (c.get F.CAL_LDL_AMT)

/-- A write of CAL_CMD with GO (R666): CHECK, then WAIT; a procedure that waits for no input asks for its grant at once. -/
def Chip.calGo (c : Chip) (w : Nat) : Chip :=
  let p := bitsOf w 7 0
  let t := bitsOf w 15 8
  if c.calBusy || calTargets p ≤ t || c.pwr.ready.contains 3 then c.addSat F.CAL_REJ_CNT_COUNT 1
  else
    let c := (((c.set F.CAL_STAT_BUSY 1).set F.CAL_STAT_PROC p).set F.CAL_STAT_TARGET t).set F.CAL_STAT_PHASE 1
    let c := c.setCal { c.cal with startAt := c.now, hot := signed 16 (c.get F.THM_HOTTEST_T), samples := [], chart := none, dashes := [], bad := [], laneOff := false }
    let f := c.calFails p t
    if f ≠ 0 then c.calEnd 1 f 0
    else
      let c := c.set F.CAL_STAT_PHASE 2
      if p = 3 ∨ p = 4 then c else c.calAsk

/-- A write of CAL_CMD.ABORT (R672). -/
def Chip.calAbort (c : Chip) : Chip := if c.calBusy && c.calPhase < 4 then c.calEnd 6 0 0 else c

/-- A write of CAL_CMD. With GO and ABORT both set, GO finds the run that ABORT ends still in progress. -/
def Chip.calCmdWrite (c : Chip) (w : Nat) : Chip :=
  let busy := c.calBusy
  let c := if bitAt w 30 then c.calAbort else c
  if bitAt w 31 then (if busy && bitAt w 30 then c.addSat F.CAL_REJ_CNT_COUNT 1 else c.calGo w) else c

/-- CAL_TO.MS have passed since GO. -/
def Chip.calTimeout (c : Chip) : Chip :=
  if c.calBusy && c.calPhase < 4 && decide (c.cal.startAt + ms (c.get F.CAL_TO_MS) ≤ c.now) then c.calEnd 7 0 0 else c

/-- The precondition is tested again (R668). -/
def Chip.calCheck (c : Chip) : Chip :=
  if c.calBusy && c.calPhase < 4 then
    let f := c.calFails c.calProc c.calTarget
    if f ≠ 0 then c.calEnd 1 f 0 else c
  else c

/-- The input of a waiting run is present (R667): the chart item is placed, a strobe has come. -/
def Chip.calInput (c : Chip) : Chip :=
  if !(c.calBusy && c.calPhase == 2) then c
  else if c.calProc = 4 then
    let id := c.get F.CAL_CHART_ID_HI_ID_HI * 2 ^ 32 + c.get F.CAL_CHART_ID_LO_ID_LO
    match c.cmp.items.find? (fun (i : Item) => i.id == id && (i.stage == .placed || i.stage == .done)) with
    | some i => if c.cal.chart.isSome then c else (c.setCal { c.cal with chart := some i.start }).calAsk
    | none => c
  else if c.calProc = 3 then (if c.calStrobe c.calPort then c.calAsk else c)
  else c

/-- The grant is held: the sweep begins. LINK_DESKEW takes a lane off (R675). -/
def Chip.calSweepBegin (c : Chip) : Chip :=
  if c.calBusy && c.calPhase == 2 then
    let c := c.set F.CAL_STAT_PHASE 3
    if c.calProc = 1 then
      ((c.setCal { c.cal with laneOff := true }).set F.HP_STAT_LANES 2 c.calPort).send "align" [c.calPort.val, 2, 1]
    else c
  else c.ldlRelease 4 0

/-! ### Values held and written (R669, R670, R687, R688) -/

/-- The bits of the register at an address that the run may write. -/
def Chip.calHolds (c : Chip) (addr : Nat) : Nat :=
  if !c.calBusy then 0
  else
    let p := c.calProc
    let t := c.calTarget
    if p = 1 ∧ addr = R.HP_TXDLY.at t 0 then 0x3F3F
    else if p = 2 ∧ addr = R.HP_TXDLY.at t 0 then 0x3F0000
    else if p = 3 ∧ addr = R.HP_FTRIM.at t 0 then 0xFFF
    else if p = 4 ∧ (addr = R.TRK_TILEOFS.at t 0 ∨ (List.range 6).any (fun (r : Nat) => addr == R.TRK_ROWOFS.at t r)) then 0x1FFFFF
    else if p = 5 ∧ addr = R.POS_ENC_THR.addr then (if t = 0 then 0x3F else 0x3F00)
    else if p = 8 ∧ addr = R.THM_OFS.at t 0 then 0xFF
    else 0

/-- The registers that the run may write. -/
def Chip.calHeld (c : Chip) : List Nat :=
  let t := c.calTarget
  ([R.HP_TXDLY.at t 0, R.HP_FTRIM.at t 0, R.TRK_TILEOFS.at t 0, R.POS_ENC_THR.addr, R.THM_OFS.at t 0]
    ++ (List.range 6).map (fun (r : Nat) => R.TRK_ROWOFS.at t r)).filter (fun (a : Nat) => c.calHolds a != 0)

/-- After an approval (R669): the run ends where the approved switch loads one of its values. -/
def Chip.calSwitch (c : Chip) : Chip :=
  if c.calBusy && c.switchState != 0 && c.calHeld.any (fun (a : Nat) => loadsRegister c.str.pend a) then c.calEnd 8 0 0 else c

/-- Write a field with a signed or unsigned value; a TRK offset waits for the next hand-over (R127, R128). -/
def Chip.calStore (c : Chip) (p : Place) (i j : Nat) (v : Nat) : Chip :=
  let c := c.set p v i j
  if blockOf (p.at i j) = 0x0A then
    { c with dirty := (p.at i j :: c.dirty).eraseDups }.set F.TRK_SHSTAT_PENDING 1
  else c

/-- A value of the window: what it reads, whether it is read-only, the field that holds it with its indices and width, whether
the field is signed. A value that no register holds has no field. -/
structure CalVal where
  read : Nat
  ro : Bool
  field : Option (Place × Nat × Nat)
  width : Nat
  sgn : Bool
  deriving DecidableEq, Repr

/-- A value held in a register field. -/
def Chip.calField (c : Chip) (p : Place) (i j w : Nat) (sgn : Bool) : CalVal :=
  let v := c.get p i j
  ⟨if sgn then unsigned 32 (signed w v) else v, false, some (p, i, j), w, sgn⟩

/-- The value that a selection names (R687). -/
def Chip.calValue (c : Chip) (p t i : Nat) : Option CalVal :=
  if calTargets p ≤ t ∨ (p ≤ 4 ∧ !c.hasPort t) ∨ (p = 6 ∧ t = 2 ∧ !c.feature 4) then none
  else if p = 1 then
    (if i = 0 then some (c.calField F.HP_TXDLY_D0 t 0 6 false) else if i = 1 then some (c.calField F.HP_TXDLY_D1 t 0 6 false) else none)
  else if p = 2 then (if i = 0 then some (c.calField F.HP_TXDLY_BC_PH t 0 6 false) else none)
  else if p = 3 then (if i = 0 then some (c.calField F.HP_FTRIM_TAPS t 0 12 true) else none)
  else if p = 4 then
    (if i = 0 then some (c.calField F.TRK_TILEOFS_OFS t 0 21 true)
     else if i ≤ 6 then some (c.calField F.TRK_ROWOFS_OFS t (i - 1) 21 true) else none)
  else if p = 5 then
    (if i = 0 then some (c.calField (if t = 0 then F.POS_ENC_THR_THR0 else F.POS_ENC_THR_THR1) 0 0 6 false) else none)
  else if p = 6 then
    let l := Fin.ofNat 2 i
    (if i < 2 then some ⟨c.fab.ctle[Fin.ofNat 3 t][l], false, none, 4, false⟩
     else if i < 4 then some ⟨c.fab.preset[Fin.ofNat 3 t][l], false, none, 3, false⟩ else none)
  else if p = 7 then (if i < 28 then some ⟨c.mem.training[Fin.ofNat 28 i], true, none, 32, false⟩ else none)
  else (if i = 0 then some (c.calField F.THM_OFS_OFS t 0 8 true) else none)

/-- Whether a run holds the selected value. -/
def Chip.calStale (c : Chip) (p t i : Nat) : Bool :=
  c.calBusy && c.calProc == p && c.calTarget == t && (p != 6 || i < 2) && (p != 7 || i < 9)

/-- The selection of an initiator, and CAL_VSTAT and CAL_VDATA as it reads them. -/
def Chip.calSel (c : Chip) (i : Nat) : Nat × Nat × Nat :=
  let w := c.latched R.CAL_VSEL.addr i
  (bitsOf w 23 16, bitsOf w 15 8, bitsOf w 7 0)
def Chip.calVstat (c : Chip) (i : Nat) : Nat :=
  let s := c.calSel i
  match c.calValue s.1 s.2.1 s.2.2 with
  | none => 0
  | some v => 1 + 2 * bit (c.calStale s.1 s.2.1 s.2.2) + 4 * bit v.ro
def Chip.calVdata (c : Chip) (i : Nat) : Nat :=
  let s := c.calSel i
  match c.calValue s.1 s.2.1 s.2.2 with
  | none => 0
  | some v => v.read

/-- Whether a word is in the range of a field. -/
def CalVal.inRange (v : CalVal) (w : Nat) : Bool :=
  if v.sgn then unsigned 32 (signed v.width w) == w else decide (w < 2 ^ v.width)

/-- A write of CAL_VDATA by an initiator (R688). -/
def Chip.calValueWrite (c : Chip) (i w : Nat) : Chip :=
  let s := c.calSel i
  match c.calValue s.1 s.2.1 s.2.2 with
  | none => c.addSat F.CAL_REJ_CNT_COUNT 1
  | some v =>
    if v.ro || c.calStale s.1 s.2.1 s.2.2 || !v.inRange w then c.addSat F.CAL_REJ_CNT_COUNT 1
    else match v.field with
      | some (p, a, b) =>
        if c.switchState != 0 && loadsRegister c.str.pend (p.at a b) then
          (if blockOf (p.at a b) = 0x0A then c.addSat F.TRK_REJ_CNT_COUNT 1 else c.addSat F.CAL_REJ_CNT_COUNT 1)
        else c.calStore p a b w
      | none =>
        let port := Fin.ofNat 3 s.2.1
        let l := Fin.ofNat 2 s.2.2
        if s.2.2 < 2 then { c with fab := { c.fab with ctle := c.fab.ctle.set port (c.fab.ctle[port].set l w) } }
        else { c with fab := { c.fab with preset := c.fab.preset.set port (c.fab.preset[port].set l w) } }

/-! ### Tick trims (R678 to R681) -/

/-- Whole lines of delay of row r of port k: floor(O / 64). -/
def Chip.calDelay (c : Chip) (k : Fin 8) (r : Fin 6) : Int := c.bankNow.ofs[k][r] / 64

/-- The expected line of dash j: the first web line at or after its place that its row prints. -/
def Chip.dashLine (c : Chip) (k : Fin 8) (s : Int) (j : Nat) : Option Int :=
  let r : Fin 6 := Fin.ofNat 6 (j / c.get F.CAL_CHART_REP)
  let a : Int := s + (c.get F.CAL_CHART_GEO_Y + j * c.get F.CAL_CHART_GEO_PITCH : Nat)
  ((List.range 4).map (fun (i : Nat) => a + (i : Int))).find? (fun (w : Int) => c.portFires k (w + c.calDelay k r))

/-- A record of the chart's mark input is read from its FIFO during a TICK_TRIM run (R679). -/
def Chip.calMark (c : Chip) (y : Fin 2) : Chip :=
  if !(c.calBusy && c.calProc == 4 && y.val == c.get F.CAL_CHART_MARK) then c
  else match c.cal.chart, c.pos.mark[y].fifo with
    | some s, r :: rest =>
      let c := { c with pos := { c.pos with mark := c.pos.mark.set y { c.pos.mark[y] with fifo := rest } } }
      if r.rising != c.on F.CAL_CHART_POL then c
      else match c.lineAt ((r.ts : Rat) / (2 : Nat)) with
        | none => c
        | some l =>
          let m : Rat := l - (c.get F.CAL_SENS_OFS_OFS : Rat) / (64 : Nat)
          let near : Rat := (c.get F.CAL_CHART_GEO_PITCH : Rat) / (4 : Nat)
          let k := c.calPort
          let hit := (List.range (6 * c.get F.CAL_CHART_REP)).find? (fun (j : Nat) =>
            !c.cal.dashes.any (fun (d : Nat × Rat) => d.1 == j)
              && (match c.dashLine k s j with | some a => decide (absQ (m - (a : Rat)) ≤ near) | none => false))
          match hit with
          | none => c
          | some j =>
            match c.dashLine k s j with
            | none => c
            | some a => c.setCal { c.cal with dashes := (j, (64 : Nat) * (m - (a : Rat))) :: c.cal.dashes }
    | _, _ => c

/-- A line event that carries DROP, CLAMP or COAST during a TICK_TRIM run (R679). -/
def Chip.calLine (c : Chip) (n : Int) : Chip :=
  match c.trk.events.head? with
  | some e =>
    if c.calBusy && c.calProc == 4 && c.cal.chart.isSome && e.line == n && (e.drop || e.clamp || e.coast) then
      c.setCal { c.cal with bad := n :: c.cal.bad }
    else c
  | none => c

/-- The errors measured of row r; a dash whose line is bad is missing. -/
def Chip.rowErrors (c : Chip) (k : Fin 8) (r : Fin 6) : List Rat :=
  let rep := c.get F.CAL_CHART_REP
  (c.cal.dashes.filter (fun (d : Nat × Rat) => d.1 / rep == r.val
    && (match c.cal.chart.bind (fun (s : Int) => c.dashLine k s d.1) with
        | some a => !c.cal.bad.contains (a + c.calDelay k r)
        | none => false))).map Prod.snd

/-- The square of σ_r over n_r for a row. -/
def spread (l : List Rat) : Rat :=
  let m := meanQ l
  meanQ (l.map (fun (e : Rat) => (e - m) * (e - m))) / ((l.length : Nat) : Rat)

/-- What the offsets of port k become, and O of each row with them. -/
def Chip.tickResult (c : Chip) (k : Fin 8) : Option (Int × List Int × Nat) :=
  let errs := allRows.map (fun (r : Fin 6) => c.rowErrors k r)
  if errs.any (fun (l : List Rat) => decide (c.get F.CAL_CHART_REP < 8 * (c.get F.CAL_CHART_REP - l.length))) then none
  else
    let means := errs.map meanQ
    let ct := roundQ (meanQ means)
    let cr := means.map (fun (m : Rat) => roundQ (m - (ct : Rat)))
    let sq := (errs.zip (means.zip cr)).map (fun x => (x.2.1 - (ct : Rat) - (x.2.2 : Rat)) * (x.2.1 - (ct : Rat) - (x.2.2 : Rat)) + spread x.1)
    some (ct, cr, sqrtRound ((256 : Nat) * meanQ sq))

/-! ### Results (R671 to R686) -/

/-- APPLY: the write set is made unless NO_APPLY is set. -/
def Chip.calApply (c : Chip) (figure : Nat) (f : Chip → Chip) : Chip :=
  let c := c.set F.CAL_STAT_PHASE 4
  (if c.on F.CAL_XCFG_NO_APPLY then c else f c).calEnd 0 0 figure

/-- LINK_DESKEW (R675). -/
def Chip.endDeskew (c : Chip) (pass : List (List Bool)) (locks : List Bool) : Chip :=
  let k := c.calPort
  match chooseEye false ((pass.getD 0 []).take 64) (c.get F.HP_TXDLY_D0 k), chooseEye false ((pass.getD 1 []).take 64) (c.get F.HP_TXDLY_D1 k) with
  | some a, some b =>
    if !(locks.getD 0 false && locks.getD 1 false) then c.calEnd 2 0 0
    else if min a.2 b.2 < c.get F.CAL_LIM0_LINK_MIN then c.calEnd 3 0 (min a.2 b.2)
    else c.calApply (min a.2 b.2) (fun c => (c.calStore F.HP_TXDLY_D0 k 0 a.1).calStore F.HP_TXDLY_D1 k 0 b.1)
  | _, _ => c.calEnd 2 0 0

/-- BC_PHASE (R676). -/
def Chip.endPhase (c : Chip) (pass : List Bool) : Chip :=
  let k := c.calPort
  match chooseEye true (pass.take 64) (c.get F.HP_TXDLY_BC_PH k) with
  | none => c.calEnd 2 0 0
  | some a => if a.2 < c.get F.CAL_LIM0_BC_MIN then c.calEnd 3 0 a.2 else c.calApply a.2 (fun c => c.calStore F.HP_TXDLY_BC_PH k 0 a.1)

/-- FIRE_TRIM (R677): the samples that read high at each step from -32. -/
def Chip.endFire (c : Chip) (high : List Nat) : Chip :=
  let k := c.calPort
  let n := c.get F.CAL_DWELL_STROBES
  let l := high.take 96
  match l.findIdx? (fun (h : Nat) => decide (n ≤ h)) with
  | none => c.calEnd 2 0 0
  | some i =>
    let width := (l.filter (fun (h : Nat) => decide (0 < h) && decide (h < n))).length
    let late := c.get F.CAL_ARG_ARG + recField (c.port k).record 0x3C 2
    let taps := -roundDiv (((i : Int) - 32) * 78125 + (late * 10000 : Nat)) 78125
    if c.get F.CAL_LIM1_EDGE_MAX < width then c.calEnd 3 0 width
    else if taps < -2048 ∨ 2047 < taps then c.calEnd 4 0 width
    else c.calApply width (fun c => c.calStore F.HP_FTRIM_TAPS k 0 (unsigned 12 taps))

/-- TICK_TRIM (R680, R681). -/
def Chip.endTick (c : Chip) : Chip :=
  let k := c.calPort
  match c.tickResult k with
  | none => c.calEnd 2 0 0
  | some (ct, cr, fig) =>
    let tile := signed 21 (c.get F.TRK_TILEOFS_OFS k) - ct
    let rows := allRows.map (fun (r : Fin 6) => signed 21 (c.get F.TRK_ROWOFS_OFS k r) - cr.getD r 0)
    let total := allRows.map (fun (r : Fin 6) =>
      (r, tile + rows.getD r 0 + signed 21 (c.inForce F.TRK_ICOFS_OFS (c.rowChannel k r))))
    let fits := fun (v : Int) => decide (-(2 ^ 20) ≤ v) && decide (v < 2 ^ 20)
    if c.get F.CAL_LIM1_TICK_MAX < fig then c.calEnd 3 0 fig
    else if !(fits tile && rows.all fits) || total.any (fun (x : Fin 6 × Int) => decide (x.2 < 0)) then c.calEnd 4 0 fig
    else if total.any (fun (x : Fin 6 × Int) => (x.2 / 64) % 2 != c.calDelay k x.1 % 2) then c.calEnd 5 0 fig
    else c.calApply fig (fun c =>
      allRows.foldl (fun (c : Chip) (r : Fin 6) => c.calStore F.TRK_ROWOFS_OFS k r (unsigned 21 (rows.getD r 0)))
        (c.calStore F.TRK_TILEOFS_OFS k 0 (unsigned 21 tile)))

/-- ENC_THR (R682): the threshold then moves one code per accepted count. -/
def Chip.endThr (c : Chip) (pass : List Bool) : Chip :=
  let x : Fin 2 := Fin.ofNat 2 c.calTarget
  match chooseEye false (pass.take 64) (c.get (if x = 0 then F.POS_ENC_THR_THR0 else F.POS_ENC_THR_THR1)) with
  | none => c.calEnd 2 0 0
  | some a =>
    if a.2 < c.get F.CAL_LIM0_THR_MIN then c.calEnd 3 0 a.2
    else c.calApply a.2 (fun c => c.setCal { c.cal with thr := c.cal.thr.set x (some a.1) })

/-- One code of a threshold on its way, at an accepted count (R670). -/
def Chip.thrStep (c : Chip) (x : Fin 2) : Chip :=
  match c.cal.thr[x] with
  | none => c
  | some v =>
    let p := if x = 0 then F.POS_ENC_THR_THR0 else F.POS_ENC_THR_THR1
    let n := c.get p
    let m := if n < v then n + 1 else if v < n then n - 1 else n
    (c.set p m).setCal { c.cal with thr := c.cal.thr.set x (if m = v then none else some v) }

/-- The CTLE value of a lane with the widest eye, ties to the lower value. -/
def bestCtle (l : List (List Bool)) : Nat × Nat :=
  ((l.take 16).zipIdx).foldl (fun (m : Nat × Nat) (x : List Bool × Nat) =>
    let w := ((chooseEye false (x.1.take 64) 0).map Prod.snd).getD 0
    if m.2 < w then (x.2, w) else m) (0, 0)

/-- FAB_EQ (R683). -/
def Chip.endEq (c : Chip) (pass : List (List (List Bool))) : Chip :=
  let p : Fin 3 := Fin.ofNat 3 c.calTarget
  let a := bestCtle (pass.getD 0 [])
  let b := bestCtle (pass.getD 1 [])
  let fig := min a.2 b.2
  if fig = 0 then c.calEnd 2 0 0
  else if fig < c.get F.CAL_LIM0_FAB_MIN then c.calEnd 3 0 fig
  else c.calApply fig (fun c => { c with fab := { c.fab with ctle := c.fab.ctle.set p ((c.fab.ctle[p].set 0 a.1).set 1 b.1) } })

/-- DDR_TRACK (R685): each lane's steps from -32. -/
def Chip.endTrack (c : Chip) (pass : List (List Bool)) : Chip :=
  let eyes := (List.finRange 9).map (fun (i : Fin 9) => (i, chooseEye false ((pass.getD i.val []).take 65) 32))
  if eyes.any (fun x => x.2.isNone) then c.calEnd 2 0 0
  else
    let fig := listMin (eyes.filterMap (fun x => x.2.map (fun (e : Nat × Nat) => (e.2 : Int))))
    let centres := eyes.map (fun x => (Fin.castLE (by decide : 9 ≤ 28) x.1, (c.mem.training[Fin.castLE (by decide : 9 ≤ 28) x.1] : Int) + (((x.2.map Prod.fst).getD 32 : Nat) : Int) - 32))
    if fig < 8 then c.calEnd 3 0 fig.toNat
    else if centres.any (fun x => decide (x.2 < 0)) then c.calEnd 4 0 fig.toNat
    else c.calApply fig.toNat (fun c => { c with mem := { c.mem with
      training := centres.foldl (fun (v : Vector Nat 28) (x : Fin 28 × Int) => v.set x.1 x.2.toNat) c.mem.training } })

/-- A sample of a SENS_OFS sweep, taken with each THM sample (R686). -/
def Chip.calSample (c : Chip) (raw : List Int) : Chip :=
  if c.calBusy && c.calProc == 8 && c.calPhase == 3 && decide (c.cal.samples.length < 64) then
    let d : Fin 4 := Fin.ofNat 4 c.calTarget
    let ref := if c.on F.CAL_ARG_ABS then some ((signed 12 (c.get F.CAL_ARG_ARG) : Rat) + c.thm.rise[c.zoneOf d]) else c.sensorRef d
    match ref with
    | none => c
    | some r => c.setCal { c.cal with samples := (r, raw.getD d.val 0) :: c.cal.samples }
  else c

/-- SENS_OFS (R686), once 64 samples are there. -/
def Chip.endSens (c : Chip) : Chip :=
  let l := c.cal.samples
  if l.length < 64 then c
  else
    let ofs := roundQ (meanQ (l.map (fun (x : Rat × Int) => x.1 - (x.2 : Rat))))
    let fig := sqrtRound (meanQ (l.map (fun (x : Rat × Int) => ((x.2 : Rat) + (ofs : Rat) - x.1) * ((x.2 : Rat) + (ofs : Rat) - x.1))))
    if c.get F.CAL_LIM1_SENS_MAX < fig then c.calEnd 3 0 fig
    else if ofs < -128 ∨ 127 < ofs then c.calEnd 4 0 fig
    else c.calApply fig (fun c => c.calStore F.THM_OFS_OFS c.calTarget 0 (unsigned 8 ofs))

/-- The sweep ends (R668, R671, R674): the precondition once more, then the result of the procedure from what was observed. An
observation that does not belong to the procedure ends nothing. -/
def Chip.calSweepEnd (c : Chip) (sweep : CalSweep) : Chip :=
  if !(c.calBusy && c.calPhase == 3) then c
  else
    let p := c.calProc
    let f := c.calFails p c.calTarget
    if f ≠ 0 then c.calEnd 1 f 0
    else match sweep with
      | .lanes pass locks => if p = 1 then c.endDeskew pass locks else c
      | .settings pass => if p = 2 then c.endPhase pass else if p = 5 then c.endThr pass else c
      | .samples high => if p = 3 then c.endFire high else c
      | .eyes pass => if p = 6 then c.endEq pass else c
      | .delays pass => if p = 7 then c.endTrack pass else c
      | .gathered => if p = 4 then c.endTick else if p = 8 then c.endSens else c

end Sys2Proof.Machine
end

