-- ==== Sys2Proof/Machine/Bus.lean ====
section
/-!
DEFINITION. Writes of block registers (R3, R4, R8 to R15, R32, R43, R46 to R51): who may write what, what a field takes, and
what the write of each register sets off.
-/

namespace Sys2Proof.Machine

/-- The bits of a word that a field of a register names. -/
def fld (p : Place) (w : Nat) : Nat := bitsOf w p.hi p.lo

/-- Whether a register is the one, or of the family, that a name gives. -/
def RegDef.is (d : RegDef) (p : Place) : Bool := d.off == p.addr % 0x10000

/-! ### Rejected writes (R13) -/

/-- The rejected-write counter of a block, if it has one. -/
def rejPlace (id : Nat) : Option Place :=
  match id with
  | 1 => some F.PWR_REJ_CNT_COUNT
  | 2 => some F.OTP_REJ_CNT_COUNT
  | 3 => some F.EVR_REJ_CNT_COUNT
  | 4 => some F.EVC_REJ_CNT_COUNT
  | 5 => some F.DMA_REJ_CNT_COUNT
  | 6 => some F.MEM_REJ_CNT_COUNT
  | 7 => some F.THM_REJ_CNT_COUNT
  | 8 => some F.LDL_REJ_CNT_COUNT
  | 9 => some F.POS_REJ_CNT_COUNT
  | 0x0A => some F.TRK_REJ_CNT_COUNT
  | 0x0B => some F.CMP_REJ_CNT_COUNT
  | 0x0C => some F.COL_REJ_CNT_COUNT
  | 0x0D => some F.FLW_REJ_CNT_COUNT
  | 0x0E => some F.NZH_REJ_CNT_COUNT
  | 0x0F => some F.STR_REJ_CNT_COUNT
  | 0x18 => some F.FAB_REJ_CNT_COUNT
  | 0x19 => some F.HST_REJ_CNT_COUNT
  | 0x1A => some F.CAL_REJ_CNT_COUNT
  | 0x1B => some F.SEC_REJ_CNT_COUNT
  | 0x1C => some F.MBX_REJ_CNT_COUNT
  | 0x1D => some F.PAD_REJ_CNT_COUNT
  | 0x1E => some F.DDR_REJ_CNT_COUNT
  | 0x1F => some F.TKO_REJ_CNT_COUNT
  | _ => none

/-- An ignored write is counted in its block. -/
def Chip.reject (c : Chip) (addr : Nat) : Chip :=
  let id := blockOf addr
  if 0x10 ≤ id ∧ id < 0x18 then c.addSat F.HP_REJ_CNT_COUNT 1 (id - 0x10)
  else match rejPlace id with
    | some p => c.addSat p 1
    | none => c

/-! ### What the fields of a register take (R4, R10, R12, R13, R410, R669) -/

/-- CTRL.XPERT_EN of a register's block. -/
def Chip.xpert (c : Chip) (addr : Nat) : Bool := bitAt (c.word (addr / 0x10000 * 0x10000)).toNat 0

/-- The LOCK bit of a register's block. -/
def Chip.lockedBlock (c : Chip) (addr : Nat) : Bool :=
  match blockOf addr with
  | 0x0F => c.on F.STR_CTRL_LOCK
  | 0x1B => c.on F.SEC_CTRL_LOCK
  | 0x1E => c.on F.DDR_CTRL_LOCK
  | _ => false

/-- A pending switch's image loads the register (R410). -/
def Chip.frozen (c : Chip) (addr : Nat) : Bool := c.switchState != 0 && loadsRegister c.str.pend addr

/-- A field that enables a feature the variant lacks (R4). -/
def Chip.featureless (c : Chip) (addr : Nat) (f : FieldDef) : Bool :=
  (addr == R.TRK_CTRL.addr && f.lo == F.TRK_CTRL_SPRINT.lo && !c.feature 2)
    || (addr == R.TKO_STBY.addr && f.lo == F.TKO_STBY_AUTO.lo && !c.feature 1)
    || (R.COL_STBY.addr ≤ addr && addr < R.COL_STBY.addr + 32 && f.lo == F.COL_STBY_ARM.lo && !c.feature 1)

/-- The progress of a write through the fields: the word so far, an ignored field, a shadowed field written. -/
structure FieldWrite where
  word : Nat
  ignored : Bool
  shadow : Bool
  deriving DecidableEq, Repr

/-- One field of a register takes its bits of w (R10). -/
def Chip.storeField (c : Chip) (addr w : Nat) (s : FieldWrite) (f : FieldDef) : FieldWrite :=
  let v := bitsOf w f.hi f.lo
  match f.acc with
  | .wo => s
  | .w1c => { s with word := withBits s.word f.hi f.lo (bitsOf s.word f.hi f.lo - (bitsOf s.word f.hi f.lo &&& v)) }
  | .w1s => { s with word := withBits s.word f.hi f.lo (bitsOf s.word f.hi f.lo ||| v) }
  | a =>
    if c.featureless addr f then s
    else if (a == .rwl && c.lockedBlock addr) || (a == .rwx && !c.xpert addr) || v < f.min || f.max < v
        || bitsOf (c.calHolds addr) f.hi f.lo != 0 || c.frozen addr then { s with ignored := true }
    else { word := withBits s.word f.hi f.lo v, ignored := s.ignored, shadow := s.shadow || f.shadow }

/-- A shadowed field was written: it waits for its next copy (R24, R128, R181). -/
def Chip.shadowWritten (c : Chip) (addr : Nat) : Chip :=
  let id := blockOf addr
  let c := if id = 0x0A ∨ id = 0x0B ∨ id = 0x0C then { c with dirty := (addr :: c.dirty).eraseDups } else c
  if id = 0x0A then (c.set F.TRK_SHSTAT_SHADOW_TAKEN 0).set F.TRK_SHSTAT_PENDING 1
  else if id = 0x0B then (c.set F.CMP_SHSTAT_SHADOW_TAKEN 0).set F.CMP_SHSTAT_PENDING 1
  else c

/-- The write of a register without effects of its own. -/
def Chip.plain (c : Chip) (addr : Nat) (d : RegDef) (w : Nat) : Chip :=
  let s := d.fields.foldl (fun (s : FieldWrite) (f : FieldDef) => c.storeField addr w s f) ⟨(c.word addr).toNat, false, false⟩
  let c := c.setWord addr (BitVec.ofNat 32 s.word)
  let c := if s.shadow then c.shadowWritten addr else c
  if s.ignored then c.reject addr else c

/-- Ignored and counted when b holds, else the plain write. -/
def Chip.plainUnless (c : Chip) (b : Bool) (addr : Nat) (d : RegDef) (w : Nat) : Chip := if b then c.reject addr else c.plain addr d w

/-! ### Registers with effects of their own, block by block -/

/-- The position that a compare output follows (POS_CMPn_CFG.SRC). -/
def Chip.cmpPosition (c : Chip) (n : Fin 8) : Int :=
  match c.get F.POS_CMP_CFG_SRC n with
  | 0 => (c.enc 0).pos
  | 1 => (c.enc 1).pos
  | _ => pos48 c.ticks

def Chip.writePos (i : Initiator) (addr : Nat) (d : RegDef) (n w : Nat) (c : Chip) : Chip :=
  if d.is R.POS_ENC_CFG then
    let was := c.on F.POS_ENC_CFG_EN n
    let c := c.plain addr d w
    if c.on F.POS_ENC_CFG_EN n && !was then c.encEnabled (Fin.ofNat 2 n) else c
  else if d.is R.POS_ENC_CPR then
    let was := c.get F.POS_ENC_CPR_CPR n
    let c := c.plain addr d w
    if was = 0 then c.cprWritten (Fin.ofNat 2 n) else c
  else if d.is R.POS_ENC_STAT then
    let c := c.plain addr d w
    if fld F.POS_ENC_STAT_ENC_FAULT w = 1 then c.encFaultClear (Fin.ofNat 2 n) else c
  else if d.is R.POS_HALL_CFG then (c.plain addr d w).hallRestart none
  else if d.is R.POS_MARK_CFG then
    let en := c.on F.POS_MARK_CFG_EN n
    let win := c.on F.POS_MARK_CFG_WIN_EN n
    let c := c.plain addr d w
    if (c.on F.POS_MARK_CFG_EN n && !en) || (c.on F.POS_MARK_CFG_WIN_EN n && !win) then
      c.setMark (Fin.ofNat 2 n) { c.pos.mark[Fin.ofNat 2 n] with ref := none }
    else c
  else if d.is R.POS_ENCO_CFG then
    let was := c.on F.POS_ENCO_CFG_EN
    let c := c.plain addr d w
    if c.on F.POS_ENCO_CFG_EN && !was then c.setEnco { tick := c.ticks }
    else if was && !c.on F.POS_ENCO_CFG_EN then c.setEnco { c.pos.enco with backlog := 0 }
    else c
  else if d.is R.POS_ENCO_RATIO then
    if fld F.POS_ENCO_RATIO_N w = 0 ∨ fld F.POS_ENCO_RATIO_M w = 0 then c.reject addr
    else (c.plain addr d w).setEnco { c.pos.enco with acc := 0 }
  else if d.is R.POS_CMP_CFG then
    let was := c.on F.POS_CMP_CFG_EN n
    let c := c.plain addr d w
    c.cmpEnable (Fin.ofNat 8 n) was (c.cmpPosition (Fin.ofNat 8 n))
  else if d.is R.POS_CMP_ENT_LO then c.setLatch (R.POS_CMP_ENT_LO.at n 0) (initNo i) w
  else if d.is R.POS_CMP_ENT_HI then
    let e := signed 48 (fld F.POS_CMP_ENT_HI_POS_HI w * 2 ^ 32 + c.latched (R.POS_CMP_ENT_LO.at n 0) (initNo i))
    if c.on F.POS_CMP_CFG_OWNER n then c.reject addr
    else (c.cmpPush (Fin.ofNat 8 n) e (fld F.POS_CMP_ENT_HI_ACTION w) (c.cmpPosition (Fin.ofNat 8 n))).1
  else if d.is R.POS_CMP_FLUSH then
    if fld F.POS_CMP_FLUSH_FLUSH w = 1 then c.setOut (Fin.ofNat 8 n) { c.pos.out[Fin.ofNat 8 n] with list := [] } else c
  else c.plain addr d w

def Chip.writeTrk (addr : Nat) (d : RegDef) (w : Nat) (c : Chip) : Chip :=
  if d.is R.TRK_CTRL then
    let was := c.trkOn
    let limit := c.fLim
    let c := c.plain addr d w
    if c.trkOn && !was then
      let c := c.trkEnabled
      let d := { c with
        asm := c.asm.map (fun (a : AsmSt) => { a with top := c.lastIssued })
        hp := c.hp.map (fun (p : PortSt) => { p with queue := [], xferTop := none, events := [], gone := [] })
        trk := { c.trk with way := Vector.replicate 8 [], events := [] }
        pos := { c.pos with enco := { c.pos.enco with tick := c.ticks } } }
      ((d.parityCheck).spanChanged).modeLimitChanged limit (d.lastIssued + 1)
    else if was && !c.trkOn then c.trkDisabled
    else c
  else if d.is R.TRK_SRC then
    let c := c.plain addr d w
    let c := c.pairChanged
    if fld F.TRK_SRC_SWITCH w = 1 then c.srcSwitch else c.serveTrk
  else if d.is R.TRK_SPREQ || d.is R.TRK_WARN || d.is R.TRK_FAB_TIME then (c.plain addr d w).serveTrk
  else c.plain addr d w

/-- Whether the lanes would overlap or leave the device's columns if lane i had this geometry (R141). -/
def Chip.laneClash (c : Chip) (i origin width : Nat) : Bool :=
  width != 0 && (16384 < origin + width
    || (List.range 8).any (fun (j : Nat) =>
      let o := c.get F.CMP_LANE_GEO_ORIGIN j
      let v := c.get F.CMP_LANE_GEO_WIDTH j
      j != i && v != 0 && origin < o + v && o < origin + width))

/-- The sum of the lane shares if lane i had this share (R176). -/
def Chip.shareSum (c : Chip) (i share : Nat) : Nat :=
  ((List.range 8).map (fun (j : Nat) => if j = i then share else c.get F.CMP_LANE_SHARE_SHARE j)).sum

def writeCmp (addr : Nat) (d : RegDef) (n w : Nat) (errs : List DdrError) (x : Chip × Store) : Chip × Store :=
  let c := x.1
  if d.is R.CMP_CTRL then
    let was := c.on F.CMP_CTRL_EN
    let c := c.plain addr d w
    let now := c.on F.CMP_CTRL_EN
    let c := if now && !was then
        (c.cmpEnabled).setFw { c.fw with lanePrev := Vector.replicate 8 .none }
      else if was && !now then c.cmpDisabled else c
    (if was != now then c.activity else c, x.2)
  else if d.is R.CMP_IQ_WR then
    let old := c.get F.CMP_IQ_WR_WR
    let c := c.plain addr d w
    let k := (c.get F.CMP_IQ_WR_WR + 2048 - old) % 2048
    (if k ≤ 1024 then (enqueue errs x.2 k old c).activity else c, x.2)
  else if d.is R.CMP_RING_BASE_LO || d.is R.CMP_RING_BASE_HI || d.is R.CMP_IQ_BASE_LO || d.is R.CMP_IQ_BASE_HI
      || d.is R.CMP_STAT_BASE_LO || d.is R.CMP_STAT_BASE_HI || d.is R.CMP_GLYPH_BASE_LO || d.is R.CMP_GLYPH_BASE_HI
      || d.is R.CMP_GSET_BASE_LO || d.is R.CMP_GSET_BASE_HI then (c.plainUnless (c.on F.CMP_CTRL_EN) addr d w, x.2)
  else if d.is R.CMP_RING_CFG then
    (if c.on F.CMP_CTRL_EN then c.reject addr else (c.plain addr d w).checkDepth, x.2)
  else if d.is R.CMP_LANE_GEO then
    (c.plainUnless (c.laneClash n (fld F.CMP_LANE_GEO_ORIGIN w) (fld F.CMP_LANE_GEO_WIDTH w)) addr d w, x.2)
  else if d.is R.CMP_LANE_SHARE then
    (c.plainUnless (decide (1000 < c.shareSum n (fld F.CMP_LANE_SHARE_SHARE w))) addr d w, x.2)
  else if d.is R.CMP_WARN then ((c.plain addr d w).checkBehind, x.2)
  else (c.plain addr d w, x.2)

def Chip.writeCol (addr : Nat) (d : RegDef) (w : Nat) (c : Chip) : Chip :=
  if d.is R.COL_STBY_CMD then
    let op := fld F.COL_STBY_CMD_OP w
    let line := signed 48 (c.get F.COL_STBY_LINE_HI_LINE_HI * 2 ^ 32 + c.get F.COL_STBY_LINE_LO_LINE_LO)
    if op = 1 ∨ op = 2 then
      (c.stbyCommand (Fin.ofNat 8 (fld F.COL_STBY_CMD_PORT w)) (fld F.COL_STBY_CMD_TARGET w) (op == 1) line).1
    else c.reject addr
  else if d.is R.COL_DNT_DATA then c.dntWrite w
  else c.plain addr d w

def Chip.writeFlw (addr : Nat) (d : RegDef) (n m w : Nat) (c : Chip) : Chip :=
  if d.is R.FLW_SHAPE_A || d.is R.FLW_SHAPE_B then
    if !c.xpert addr || c.frozen addr then c.reject addr else c.shapeWrite n m (if d.is R.FLW_SHAPE_A then 0 else 1) w
  else if isFlwShadow addr then c.plainUnless (c.on F.FLW_SHSTAT_PENDING) addr d w
  else if d.is R.FLW_TRIM then (if c.frozen addr then c.reject addr else c.trimWrite n w)
  else if d.is R.FLW_COMMIT then (if fld F.FLW_COMMIT_GO w = 1 then c.commitGo else c)
  else if d.is R.FLW_WARM_T then
    c.plainUnless (decide (signed 12 (fld F.FLW_WARM_T_HI w) ≤ signed 12 (fld F.FLW_WARM_T_LO w))) addr d w
  else if d.is R.FLW_WARM_CFG || d.is R.FLW_WARM_REQ then
    let c := c.plain addr d w
    allPorts.foldl (fun (c : Chip) (k : Fin 8) => (c.warmCheck k).warmAsk k) c.keepServe
  else c.plain addr d w

def Chip.writeNzh (addr : Nat) (d : RegDef) (w : Nat) (c : Chip) : Chip :=
  if d.is R.NZH_NZ_DATA then c.nozzleWrite w
  else if d.is R.NZH_ARQ_RD then c.arqRead (fld F.NZH_ARQ_RD_RD w)
  else if d.is R.NZH_ARQ_RSV then (if fld F.NZH_ARQ_RSV_RELEASE w = 1 then c.arqRelease else c)
  else if d.is R.NZH_ARQ_BASE_LO || d.is R.NZH_ARQ_BASE_HI then c.plainUnless (c.on F.NZH_CTRL_EN) addr d w
  else if d.is R.NZH_REJ_LANE || d.is R.NZH_REJ_GATE then
    let t := c.plain addr d w
    if t.rejectLanesOk then t else c.reject addr
  else c.plain addr d w

/-- A protection field held at its ceiling (R43, R329, R331). -/
def Chip.ceilingWrite (c : Chip) (k : Fin 8) (addr : Nat) (p : Place) (min ceil v : Nat) : Chip :=
  if v < min ∨ c.frozen addr then c.reject addr
  else
    let c := c.set p (if ceil < v then ceil else v) k
    if ceil < v then (c.set F.HP_PSTAT_LOOP_SAT 1 k).hpEvent k 0x14 else c

def Chip.writeHp (addr : Nat) (d : RegDef) (w : Nat) (c : Chip) : Chip :=
  let k : Fin 8 := Fin.ofNat 8 (blockOf addr - 0x10)
  if d.is R.HP_CTRL then (c.hpCtrlWrite k w).strServe
  else if d.is R.HP_WDOG then (if c.frozen addr then c.reject addr else c.wdogWrite k (fld F.HP_WDOG_LIMIT w))
  else if d.is R.HP_TLIM || d.is R.HP_TWARN then
    if c.frozen addr then c.reject addr else c.thresholdWrite k (d.is R.HP_TLIM) w
  else if d.is R.HP_DUTY then
    if 64 < fld F.HP_DUTY_NMAX w then c.reject addr
    else c.ceilingWrite k addr F.HP_DUTY_NMAX 1 (c.get F.HP_PCEIL_NMAX_CEIL k) (fld F.HP_DUTY_NMAX w)
  else if d.is R.HP_ELIM then c.ceilingWrite k addr F.HP_ELIM_LIMIT 0 (c.get F.HP_ELIM_CEIL_CEIL k) (fld F.HP_ELIM_LIMIT w)
  else if d.is R.HP_XCMD then
    let was := c.get F.HP_REJ_CNT_COUNT k
    let c := c.plain addr d w
    if fld F.HP_XCMD_GO w = 1 then
      -- one write is counted once, whatever in it is ignored (R13)
      let e := c.xcmd k
      if was + 1 < e.get F.HP_REJ_CNT_COUNT k then e.set F.HP_REJ_CNT_COUNT (was + 1) k else e
    else c
  else if d.is R.HP_XLINK then (c.plain addr d w).forceLanes k
  else c.plain addr d w

def Chip.writeTko (addr : Nat) (d : RegDef) (w : Nat) (c : Chip) : Chip :=
  if d.is R.TKO_CTRL then
    let was := c.on F.TKO_CTRL_EN
    let c := c.plain addr d w
    let c := if c.on F.TKO_CTRL_EN && !was then c.tkoEnabled else if was && !c.on F.TKO_CTRL_EN then c.tkoDisabled else c
    if fld F.TKO_CTRL_JOIN w = 1 then c.tkoJoin else c
  else if d.is R.TKO_DECIDE then
    match fld F.TKO_DECIDE_ACT w with
    | 1 => c.proceed (fun (_ : Nat) => true)
    | 2 => c.veto
    | _ => c.reject addr
  else c.plain addr d w

def Chip.writeFab (addr : Nat) (d : RegDef) (n w : Nat) (c : Chip) : Chip :=
  if d.is R.FAB_CTRL then
    let was := c.on F.FAB_CTRL_EN
    let c := c.plain addr d w
    if was && !c.on F.FAB_CTRL_EN then fabPorts.foldl (fun (c : Chip) (p : Fin 3) => c.fabDown p 3) c else c
  else if d.is R.FAB_P_CTRL then
    let p : Fin 3 := Fin.ofNat 3 n
    let c := if fld F.FAB_P_CTRL_DOWN w = 1 then c.fabDown p 2 else c
    if fld F.FAB_P_CTRL_RETRAIN w = 1 then c.fabRetrain p else c
  else if d.is R.FAB_TSYNC then (c.plain addr d w).setFab { c.fab with topoDue := true }
  else if d.is R.FAB_TXQ_BASE_LO || d.is R.FAB_TXQ_BASE_HI then
    c.plainUnless (c.get F.FAB_TXQ_RD_RD != c.get F.FAB_TXQ_WR_WR) addr d w
  else if d.is R.FAB_INBOX_BASE_LO || d.is R.FAB_INBOX_BASE_HI then c.plainUnless (c.on F.FAB_CTRL_EN) addr d w
  else if d.is R.FAB_INBOX_RD then
    let rd := c.get F.FAB_INBOX_RD_RD
    c.plainUnless (decide ((c.get F.FAB_INBOX_WR_WR + 512 - rd) % 512 < (w % 512 + 512 - rd) % 512)) addr d w
  else if d.is R.FAB_BULK_BASE_LO || d.is R.FAB_BULK_BASE_HI || d.is R.FAB_BULK_SIZE then
    c.plainUnless (!c.fab.bulks.isEmpty) addr d w
  else if d.is R.FAB_LP then (c.plain addr d w).beaconStart (fld F.FAB_LP_BEACON_TX w)
  else c.plain addr d w

def Chip.writeHst (addr : Nat) (d : RegDef) (n w : Nat) (c : Chip) : Chip :=
  if d.is R.HST_SQ_TAIL then (c.sqDoorbell n (fld F.HST_SQ_TAIL_TAIL w)).activity
  else if d.is R.HST_SQ_BASE_LO || d.is R.HST_SQ_BASE_HI then c.plainUnless (c.on F.HST_SQ_CFG_EN n) addr d w
  else if d.is R.HST_SQ_CFG then
    let was := c.on F.HST_SQ_CFG_EN n
    let c := c.plain addr d w
    if c.on F.HST_SQ_CFG_EN n && !was then c.sqEnabled n else c
  else if d.is R.HST_CQ_BASE_LO || d.is R.HST_CQ_BASE_HI then c.plainUnless (c.on F.HST_CQ_CFG_EN n) addr d w
  else if d.is R.HST_CQ_CFG then
    let was := c.on F.HST_CQ_CFG_EN n
    let c := c.plain addr d w
    if c.on F.HST_CQ_CFG_EN n && !was then c.cqEnabled n else c
  else if d.is R.HST_CQ_HEAD then c.cqHead n (fld F.HST_CQ_HEAD_HEAD w)
  else if d.is R.HST_REC_BASE_LO || d.is R.HST_REC_BASE_HI then c.plainUnless (c.on F.HST_REC_CFG_EN) addr d w
  else if d.is R.HST_REC_CFG then
    let was := c.on F.HST_REC_CFG_EN
    let c := c.plain addr d w
    if c.on F.HST_REC_CFG_EN && !was then c.recEnabled else c
  else if d.is R.HST_REC_HEAD then c.recHead w
  else c.plain addr d w

def Chip.writeEvc (i : Initiator) (addr : Nat) (d : RegDef) (n w : Nat) (c : Chip) : Chip :=
  if d.is R.EVC_PEND then c.clearPend n w
  else if d.is R.EVC_RSEL then c.setLatch R.EVC_RSEL.addr (initNo i) (fld F.EVC_RSEL_SRC w)
  else if d.is R.EVC_ROUTE then c.routeWrite i (c.latched R.EVC_RSEL.addr (initNo i)) w
  else if d.is R.EVC_SWTRIG then (if fld F.EVC_SWTRIG_GO w = 1 then c.raiseSource (128 + fld F.EVC_SWTRIG_IDX w) else c)
  else if d.is R.EVC_XTEST then
    let c := c.plain addr d w
    if fld F.EVC_XTEST_GO w = 1 then c.raiseSource (c.get F.EVC_XTEST_SRC) else c
  else if d.is R.EVC_LOG_D0 || d.is R.EVC_LOG_D1 || d.is R.EVC_LOG_D2 then c.setLatch addr (initNo i) w
  else if d.is R.EVC_LOG_CODE then c.firmwareEvent i (fld F.EVC_LOG_CODE_CODE w)
  else if d.is R.EVC_HQ_BASE_LO || d.is R.EVC_HQ_BASE_HI then c.plainUnless (c.on F.EVC_HQ_CFG_EN) addr d w
  else if d.is R.EVC_HQ_CFG then
    let was := c.on F.EVC_HQ_CFG_EN
    let c := c.plain addr d w
    if c.on F.EVC_HQ_CFG_EN && !was then c.hqEnabled else c
  else if d.is R.EVC_HQ_HEAD then c.hqHead w
  else c.plain addr d w

def Chip.writeEvr (addr : Nat) (d : RegDef) (w : Nat) (c : Chip) : Chip :=
  if d.is R.EVR_CTRL then
    let was := c.on F.EVR_CTRL_MIR_EN
    let c := c.plain addr d w
    if c.on F.EVR_CTRL_MIR_EN && !was then c.mirrorEnabled else c
  else if d.is R.EVR_MIR_POS then c.plainUnless (c.on F.EVR_CTRL_MIR_EN || w % 32 != 0) addr d w
  else c.plain addr d w

def Chip.writeLdl (i : Initiator) (addr : Nat) (d : RegDef) (w : Nat) (c : Chip) : Chip :=
  if d.is R.LDL_THROT then ((c.plain addr d w).ldlEff.ldlEnforce).serveWithdrawn
  else if d.is R.LDL_SW_REQ then
    if fld F.LDL_SW_REQ_GO w = 0 then c
    else if 4 < fld F.LDL_SW_REQ_RES w then c.reject addr
    else c.swRequest (initFin i) (fld F.LDL_SW_REQ_RES w) (fld F.LDL_SW_REQ_AMT w)
  else if d.is R.LDL_SW_REL then
    if fld F.LDL_SW_REL_GO w = 0 then c
    else if bitAt (c.get F.LDL_SW_STAT_HELD) (fld F.LDL_SW_REL_SLOT w) then c.swRelease (fld F.LDL_SW_REL_SLOT w) else c.reject addr
  else if d.is R.LDL_SW_BIND then
    if fld F.LDL_SW_BIND_GO w = 0 then c else c.swBind (fld F.LDL_SW_BIND_SLOT w) (fld F.LDL_SW_BIND_IQ_SLOT w)
  else c.plain addr d w

def Chip.writeThm (addr : Nat) (d : RegDef) (w : Nat) (c : Chip) : Chip :=
  if d.is R.THM_STAT then
    let c := (c.readmitSensors (fld F.THM_STAT_EXCL w)).plain addr d w
    if fld F.THM_STAT_LAST_SENSOR w = 1 then { c with thm := { c.thm with lastRecorded := false } } else c
  else c.plain addr d w

def Chip.writeMem (i : Initiator) (addr : Nat) (d : RegDef) (n w : Nat) (c : Chip) : Chip :=
  if d.is R.MEM_OWN then c.plainUnless (!c.ownerWriteTakes i n || fld F.MEM_OWN_OWNER w == 6) addr d w
  else if d.is R.MEM_GROTTO_WIPE then
    if fld F.MEM_GROTTO_WIPE_GO w = 0 then c
    else if fld F.MEM_GROTTO_WIPE_KEY w = 0x5A3C then c.wipeStart 0 else c.reject addr
  else c.plain addr d w

def Chip.writeDdr (addr : Nat) (d : RegDef) (w : Nat) (c : Chip) : Chip :=
  if d.is R.DDR_CTRL then
    let was := c.on F.DDR_CTRL_EN
    let c := c.plain addr d w
    if c.on F.DDR_CTRL_EN && !was then c.ddrEnable
    else if was && !c.on F.DDR_CTRL_EN then c.set F.DDR_STAT_READY 0 else c
  else if d.is R.DDR_CFG then
    c.plainUnless (c.on F.DDR_CTRL_EN
      || !ddrCfgOk (fld F.DDR_CFG_WIDTH w) (fld F.DDR_CFG_RANKS w) (fld F.DDR_CFG_DENSITY w)) addr d w
  else c.plain addr d w

def writePwr (addr : Nat) (d : RegDef) (w : Nat) (c : Chip) : Chip :=
  if d.is R.PWR_REQ then (c.pwrReqWrite w).tcPower
  else if d.is R.PWR_COMMIT then (c.pwrCommit w).tcPower
  else if d.is R.PWR_WAKE_SW then (if fld F.PWR_WAKE_SW_WAKE w = 1 then c.latchWake 6 else c)
  else c.plain addr d w

def writeSec (addr : Nat) (d : RegDef) (w : Nat) (x : Chip × Store) : Chip × Store :=
  let c := x.1
  if d.is R.SEC_PHASE then phaseChange (fld F.SEC_PHASE_PHASE w) x
  else if d.is R.SEC_WDOG_KICK then (c.wdogKick (fld F.SEC_WDOG_KICK_KEY w), x.2)
  else if d.is R.SEC_WDOG_CFG then
    let was := c.on F.SEC_WDOG_CFG_EN
    let c := c.plain addr d w
    (if c.on F.SEC_WDOG_CFG_EN && !was then { c with otp := { c.otp with kickAt := c.now } } else c, x.2)
  else (c.plain addr d w, x.2)

def writeStr (addr : Nat) (d : RegDef) (w : Nat) (errs : List DdrError) (x : Chip × Store) : Chip × Store :=
  let c := x.1
  if d.is R.STR_LOAD_GO then (if fld F.STR_LOAD_GO_GO w = 1 then Chip.strLoad errs x else x)
  else if d.is R.STR_APPROVE then ((c.strApprove (fld F.STR_APPROVE_OP w)).calSwitch, x.2)
  else if d.is R.STR_SLOT_BASE_LO || d.is R.STR_SLOT_BASE_HI then
    (c.plainUnless (c.on F.STR_STAT_CHECKING || c.switchState != 0) addr d w, x.2)
  else (c.plain addr d w, x.2)

/-- A write to the DMA block: the channel window acts on the channel that the initiator selected (R533). -/
def writeDma (i : Initiator) (addr : Nat) (d : RegDef) (w : Nat) (same : Bool) (errs : List DdrError) (ues : List Nat)
    (x : Chip × Store) : Chip × Store :=
  let c := x.1
  let off := addr % 0x10000
  if d.is R.DMA_CHSEL then (c.setLatch R.DMA_CHSEL.addr (initNo i) (fld F.DMA_CHSEL_CH w), x.2)
  else if 0x100 ≤ off ∧ off < 0x400 then
    (c.dmaWindowWrite x.2 errs ues (Fin.ofNat 32 (c.latched R.DMA_CHSEL.addr (initNo i))) off w same, x.2)
  else (c.plain addr d w, x.2)

/-- A write to the OTP block. -/
def Chip.writeOtp (addr : Nat) (d : RegDef) (w : Nat) (c : Chip) : Chip :=
  if d.is R.OTP_CMD then c.otpStart w else c.plain addr d w

def writeSys (addr : Nat) (d : RegDef) (w : Word) (x : Chip × Store) : Chip × Store :=
  if d.is R.SYS_ISL_RST then (x.1.resetIslands (w.toNat % 2 ^ 16), x.2)
  else if d.is R.SYS_SOFT_RST then softReset w x
  else (x.1.plain addr d w.toNat, x.2)

def Chip.writeCal (i : Initiator) (addr : Nat) (d : RegDef) (w : Nat) (c : Chip) : Chip :=
  if d.is R.CAL_CMD then c.calCmdWrite w
  else if d.is R.CAL_VSEL then c.setLatch R.CAL_VSEL.addr (initNo i) w
  else if d.is R.CAL_VDATA then c.calValueWrite (initNo i) w
  else c.plain addr d w

def Chip.writeMbx (i : Initiator) (addr : Nat) (d : RegDef) (n m w : Nat) (c : Chip) : Chip :=
  if d.is R.MBX_MSG then c.mbxMsg i n m w
  else if d.is R.MBXM_CTRL then ((c.mbxCtrl i n w).tcFlush).tcUnknown
  else c.plain addr d w

def Chip.writePad (addr : Nat) (d : RegDef) (w : Nat) (c : Chip) : Chip :=
  if d.is R.PAD_HOLD_REL then c.padReleases (fld F.PAD_HOLD_REL_REL w) else c.plain addr d w

/-- The write of a register: n and m are its indices. -/
def writeReg (i : Initiator) (addr : Nat) (d : RegDef) (n m : Nat) (w : Word) (same : Bool) (errs : List DdrError) (ues : List Nat)
    (x : Chip × Store) : Chip × Store :=
  let v := w.toNat
  let on := fun (f : Chip → Chip) => (f x.1, x.2)
  match blockOf addr with
  | 0x00 => writeSys addr d w x
  | 0x01 => on (writePwr addr d v)
  | 0x02 => on (Chip.writeOtp addr d v)
  | 0x03 => on (Chip.writeEvr addr d v)
  | 0x04 => on (Chip.writeEvc i addr d n v)
  | 0x05 => writeDma i addr d v same errs ues x
  | 0x06 => on (Chip.writeMem i addr d n v)
  | 0x07 => on (Chip.writeThm addr d v)
  | 0x08 => on (Chip.writeLdl i addr d v)
  | 0x09 => on (Chip.writePos i addr d n v)
  | 0x0A => on (Chip.writeTrk addr d v)
  | 0x0B => writeCmp addr d n v errs x
  | 0x0C => on (Chip.writeCol addr d v)
  | 0x0D => on (Chip.writeFlw addr d n m v)
  | 0x0E => on (Chip.writeNzh addr d v)
  | 0x0F => writeStr addr d v errs x
  | 0x18 => on (Chip.writeFab addr d n v)
  | 0x19 => on (Chip.writeHst addr d n v)
  | 0x1A => on (Chip.writeCal i addr d v)
  | 0x1B => writeSec addr d v x
  | 0x1C => on (Chip.writeMbx i addr d n m v)
  | 0x1D => on (Chip.writePad addr d v)
  | 0x1E => on (Chip.writeDdr addr d v)
  | 0x1F => on (Chip.writeTko addr d v)
  | _ => on (Chip.writeHp addr d v)

/-! ### Who may write (R32, R46 to R51) -/

/-- Registers that TC alone writes: R48, R511, R525, R552, and the software wake source. -/
def tcOnly (addr : Nat) : Bool :=
  addr == R.SYS_ISL_RST.addr || addr == R.SYS_SOFT_RST.addr || addr == R.PWR_COMMIT.addr || addr == R.PWR_REQ.addr
    || addr == R.PWR_WAKE_SW.addr || addr == R.MEM_GROTTO_WIPE.addr || addr == R.STR_APPROVE.addr
    || (R.DDR_WIN_BASE.addr ≤ addr && addr < R.DDR_WIN_BASE.addr + 0x80)

/-- A register of a head port that the variant lacks (R3). -/
def Chip.absent (c : Chip) (addr : Nat) : Bool :=
  let id := blockOf addr
  0x10 ≤ id && id < 0x18 && !c.hasPort (id - 0x10)

/-- The MSI-X table (R466). -/
def inMsixTable (addr : Nat) : Bool := 0x10198000 ≤ addr && addr < 0x10198400
def inMsixPba (addr : Nat) : Bool := 0x10199000 ≤ addr && addr < 0x10199008

/-- The register at an address with its indices; none at an unused offset. -/
def regWhere (addr : Nat) : Option (RegDef × Nat × Nat) :=
  match regAt addr with
  | none => none
  | some d => (d.index (addr % 0x10000)).map (fun ij => (d, ij.1, ij.2))

/-- The write loses a collision in one block-clock cycle: the write before it came from a lower initiator in that cycle (R50). -/
def Chip.losesWrite (c : Chip) (i : Initiator) (addr : Nat) (same : Bool) : Bool :=
  same && (match c.sys.lastWrite with
    | some (a, j) => a == addr && decide (initNo j < initNo i)
    | none => false)

/-- The losing write has no effect; the host's is counted and recorded (R50). -/
def Chip.lostWrite (c : Chip) (i : Initiator) (addr : Nat) : Chip :=
  let c := if i = .host then (c.addSat F.HST_LOST_CNT_WLOST 1).emit 0x1905 [(5, addr)] else c
  c.answered .wlost

/-- A 32-bit write of an initiator to a block register. `size` is the size of the access in bytes; `same` says that it falls in the
block-clock cycle of the write before it. -/
def busWrite (i : Initiator) (addr size : Nat) (w : Word) (same : Bool) (errs : List DdrError) (ues : List Nat)
    (x : Chip × Store) : Chip × Store :=
  let c := x.1
  if addr < 0x10000000 ∨ 0x10200000 ≤ addr then (c.outside i true, x.2)
  else if size ≠ 4 ∨ addr % 4 ≠ 0 then (c.answered .busError, x.2)
  else if c.absent addr then (c.answered .done, x.2)
  else if !c.up (islandOf (blockOf addr)) then (c.answered .busError, x.2)
  else if inMsixTable addr || inMsixPba addr then
    if blockRight i 0x19 < 2 then (c.refuse i addr true, x.2)
    else if inMsixTable addr then ((c.setWord addr w).answered .done, x.2) else (c.answered .done, x.2)
  else match regWhere addr with
    | none => (c.answered .busError, x.2)
    | some (d, n, m) =>
      if blockRight i (blockOf addr) < 2 ∨ (tcOnly addr ∧ i ≠ .tc) then (c.refuse i addr true, x.2)
      else if c.losesWrite i addr same then (c.lostWrite i addr, x.2)
      else
        let c := c.setSys { c.sys with lastWrite := some (addr, i) }
        writeReg i addr d n m w same errs ues (c.answered .done, x.2)

end Sys2Proof.Machine
end

