-- ==== Sys2Proof/Machine/BusRead.lean ====
section
/-!
DEFINITION. Reads of block registers (R3, R8 to R10, R32, R46 to R51): the registers whose value the block holds elsewhere, the
reads that capture, remove or advance, and what a read is answered.
-/

namespace Sys2Proof.Machine

/-- The captured value that the register at an address shows; captures are shared by the initiators. -/
def Chip.captured (c : Chip) (addr : Nat) : Nat := c.latched addr 7
def Chip.keep (c : Chip) (addr v : Nat) : Chip := c.setLatch addr 7 v

/-- A read that captures the stored words of other registers. -/
def Chip.keepWords (c : Chip) (addrs : List Nat) : Chip :=
  addrs.foldl (fun (c : Chip) (a : Nat) => c.keep a (c.word a).toNat) c

/-- What a read gives: the chip after it, and the value. -/
abbrev ReadResult := Chip × Nat

def Chip.plainRead (c : Chip) (addr : Nat) : ReadResult := (c, (c.word addr).toNat)

/-- The oldest entry of a mark FIFO. -/
def Chip.oldestMark (c : Chip) (y : Nat) : Option MarkRec := (c.pos.mark[Fin.ofNat 2 y]).fifo.head?

def CmpAction.code : CmpAction → Nat
  | .pulse => 0 | .set => 1 | .clear => 2

/-- A stored word with a field replaced by a live value. -/
def overlay (p : Place) (v w : Nat) : Nat := withBits w p.hi p.lo v

def Chip.readPos (addr : Nat) (d : RegDef) (n : Nat) (c : Chip) : ReadResult :=
  let w := (c.word addr).toNat
  let e := c.enc (Fin.ofNat 2 n)
  let o := c.pos.out[Fin.ofNat 8 n]
  let u := unsigned 48 e.pos
  if d.is R.POS_ENC_POS_LO then
    (((c.keep (R.POS_ENC_POS_HI.at n 0) (unsigned 64 e.pos / 2 ^ 32)).keep (R.POS_ENC_TS_LO.at n 0) (e.ts % 2 ^ 32)).keep
      (R.POS_ENC_TS_HI.at n 0) (e.ts / 2 ^ 32), u % 2 ^ 32)
  else if d.is R.POS_ENC_POS_HI then (c, c.captured addr % 2 ^ (F.POS_ENC_POS_HI_POS_HI.hi + 1))
  else if d.is R.POS_ENC_TS_LO || d.is R.POS_ENC_TS_HI then (c, c.captured addr)
  else if d.is R.POS_ENC_STAT then
    (c, overlay F.POS_ENC_STAT_MISMATCH (min 3 e.mismatch) (overlay F.POS_ENC_STAT_REF (bit e.ref.isSome)
      (overlay F.POS_ENC_STAT_HELD (bit e.held) (overlay F.POS_ENC_STAT_DIR (bit (e.dir == some true)) w))))
  else if d.is R.POS_HALL_STAT then
    (c, overlay F.POS_HALL_STAT_EDGES (c.pos.hall.edges.length - 1) (overlay F.POS_HALL_STAT_STATE c.pos.hall.state w))
  else if d.is R.POS_MARK_TS_LO then (c, ((c.oldestMark n).map (fun (r : MarkRec) => r.ts % 2 ^ 32)).getD 0)
  else if d.is R.POS_MARK_TS_HI then (c, ((c.oldestMark n).map (fun (r : MarkRec) => r.ts / 2 ^ 32)).getD 0)
  else if d.is R.POS_MARK_HEAD then
    (c, ((c.oldestMark n).map (fun (r : MarkRec) => 4 * bit r.rising + 2 * bit r.outside + 1)).getD 0)
  else if d.is R.POS_MARK_POS then
    let m := c.pos.mark[Fin.ofNat 2 n]
    match m.fifo with
    | [] => (c, 0)
    | r :: rest => (c.setMark (Fin.ofNat 2 n) { m with fifo := rest }, unsigned 32 r.pos)
  else if d.is R.POS_MARK_STAT then (c, overlay F.POS_MARK_STAT_LEVEL (c.pos.mark[Fin.ofNat 2 n]).fifo.length w)
  else if d.is R.POS_ENCO_STAT then
    (c, overlay F.POS_ENCO_STAT_BACKLOG c.pos.enco.backlog.natAbs (overlay F.POS_ENCO_STAT_ACC c.pos.enco.acc w))
  else if d.is R.POS_ENCO_COUNT then (c, unsigned 32 c.pos.enco.count)
  else if d.is R.POS_CMP_STAT then
    (c, overlay F.POS_CMP_STAT_OUT (bit o.active) (overlay F.POS_CMP_STAT_LEVEL o.list.length w))
  else if d.is R.POS_CMP_NEXT_LO then (c, (o.list.head?.map (fun (x : Int × CmpAction) => unsigned 32 x.1)).getD 0)
  else if d.is R.POS_CMP_NEXT_HI then
    (c, (o.list.head?.map (fun (x : Int × CmpAction) => 2 ^ 31 + x.2.code * 2 ^ 16 + unsigned 48 x.1 / 2 ^ 32)).getD 0)
  else (c, w)

/-- TRK_POS in 2^-16 lines and TRK_RATE in 1/256 line/s, of the tracked position at the read (R138). -/
def Chip.trkPosition (c : Chip) : Nat := unsigned 64 (c.xAt c.nowQ * (65536 : Nat)).floor
def Chip.trkRate (c : Chip) : Nat := unsigned 32 (c.rate * (256 : Nat)).floor

def Chip.readTrk (addr : Nat) (d : RegDef) (c : Chip) : ReadResult :=
  if d.is R.TRK_POS_LO then
    ((c.keep R.TRK_POS_HI.addr (c.trkPosition / 2 ^ 32)).keep R.TRK_RATE.addr c.trkRate, c.trkPosition % 2 ^ 32)
  else if d.is R.TRK_LINE_LO then
    let u := unsigned 48 c.trk.lastLine
    (c.keep R.TRK_LINE_HI.addr (u / 2 ^ 32), u % 2 ^ 32)
  else if d.is R.TRK_POS_HI || d.is R.TRK_RATE || d.is R.TRK_LINE_HI then (c, c.captured addr)
  else c.plainRead addr

def Chip.readCmp (addr : Nat) (d : RegDef) (c : Chip) : ReadResult :=
  if d.is R.CMP_FRONT_LO then
    let u := unsigned 48 c.cmp.w
    (c.keep R.CMP_FRONT_HI.addr (u / 2 ^ 32), u % 2 ^ 32)
  else if d.is R.CMP_ASM_LO then
    let u := unsigned 48 c.mA
    (c.keep R.CMP_ASM_HI.addr (u / 2 ^ 32), u % 2 ^ 32)
  else if d.is R.CMP_FRONT_HI || d.is R.CMP_ASM_HI then (c, c.captured addr)
  else c.plainRead addr

/-- A register whose low half captures the word of its high half. -/
def Chip.pairRead (c : Chip) (addr : Nat) (d : RegDef) (lo hi : Place) : Option ReadResult :=
  if d.is lo then some (c.keepWords [hi.addr], (c.word addr).toNat)
  else if d.is hi then some (c, c.captured addr)
  else none

def Chip.readCol (addr : Nat) (d : RegDef) (c : Chip) : ReadResult :=
  if d.is R.COL_DNT_DATA then c.dntRead
  else (c.pairRead addr d R.COL_SW_LO R.COL_SW_HI).getD (c.plainRead addr)

def Chip.readFlw (addr : Nat) (d : RegDef) (c : Chip) : ReadResult :=
  if d.is R.FLW_TDATA then (c, c.tdata)
  else if d.is R.FLW_STAT then (c, overlay F.FLW_STAT_RUN (c.get F.FLW_CTRL_EN) (c.word addr).toNat)
  else c.plainRead addr

def Chip.readNzh (addr : Nat) (d : RegDef) (c : Chip) : ReadResult :=
  if d.is R.NZH_NZ_DATA then (c.nozzleNext, c.nozzleWord)
  else if d.is R.NZH_DEAD then c.deadRead
  else if d.is R.NZH_ARQ_CLAIM then c.arqClaim
  else if d.is R.NZH_STAT then (c, overlay F.NZH_STAT_RUN (c.get F.NZH_CTRL_EN) (c.word addr).toNat)
  else c.plainRead addr

def Chip.readHp (addr : Nat) (d : RegDef) (c : Chip) : ReadResult :=
  let k : Fin 8 := Fin.ofNat 8 (blockOf addr - 0x10)
  if d.is R.HP_MEM_DATA then c.memDataRead k
  else if d.is R.HP_XDATA then c.xdataRead k
  else c.plainRead addr

def Chip.readTko (addr : Nat) (d : RegDef) (c : Chip) : ReadResult :=
  if d.is R.TKO_PORTS then (c, overlay F.TKO_PORTS_PAIR_EN (maskOf c.pairPorts) (c.word addr).toNat)
  else match c.pairRead addr d R.TKO_HB_TS_LO R.TKO_HB_TS_HI with
    | some r => r
    | none =>
      match c.pairRead addr d R.TKO_SW_LO R.TKO_SW_HI with
      | some r => r
      | none => (c.pairRead addr d R.TKO_RET_LO R.TKO_RET_HI).getD (c.plainRead addr)

def Chip.readStr (addr : Nat) (d : RegDef) (c : Chip) : ReadResult :=
  match c.pairRead addr d R.STR_APPLIED_LO R.STR_APPLIED_HI with
  | some r => r
  | none => (c.pairRead addr d R.STR_CMPLINE_LO R.STR_CMPLINE_HI).getD (c.plainRead addr)

/-- The DMA block (R533, R545): the window shows the channel that the initiator selected; its captures are the initiator's. -/
def Chip.readDma (i : Initiator) (addr : Nat) (d : RegDef) (c : Chip) : ReadResult :=
  let k := initNo i
  let off := addr % 0x10000
  let ch := c.ch (Fin.ofNat 32 (c.latched R.DMA_CHSEL.addr k))
  let take := fun (offs : List Nat) => offs.foldl (fun (c : Chip) (o : Nat) => c.setLatch (0x10050000 + o) k (ch.window o)) c
  if d.is R.DMA_CHSEL then (c, c.latched R.DMA_CHSEL.addr k)
  else if d.is R.DMA_BUSY then (c, c.dmaBusy)
  else if d.is R.DMA_HALTED then (c, c.dmaHalted)
  else if off = 0x124 then (take [0x128, 0x12C, 0x130, 0x134, 0x138], ch.window off)
  else if off = 0x13C then (take [0x140], ch.window off)
  else if (0x128 ≤ off ∧ off ≤ 0x138) ∨ off = 0x140 then (c, c.latched addr k)
  else if 0x100 ≤ off ∧ off < 0x400 then (c, ch.window off)
  else c.plainRead addr

def Chip.readDdr (addr : Nat) (d : RegDef) (c : Chip) : ReadResult :=
  if d.is R.DDR_DEV_CNT then (c, satNat 32 (countOf (32 * c.get F.DDR_DEV_SEL_RANK + c.get F.DDR_DEV_SEL_DEV) c.mem.devCnt))
  else (c.pairRead addr d R.DDR_ECC_ADDR_LO R.DDR_ECC_ADDR_HI).getD (c.plainRead addr)

def Chip.readEvc (i : Initiator) (addr : Nat) (d : RegDef) (n : Nat) (c : Chip) : ReadResult :=
  let k := initNo i
  let s := c.latched R.EVC_RSEL.addr k
  if d.is R.EVC_RSEL then (c, s)
  else if d.is R.EVC_ROUTE then (c, c.route s)
  else if d.is R.EVC_RCNT then (c, sparseGet 0 s c.ev.rcnt)
  else if d.is R.EVC_CORE_CLAIM then c.claim n
  else if d.is R.EVC_LOG_D0 || d.is R.EVC_LOG_D1 || d.is R.EVC_LOG_D2 then (c, c.latched addr k)
  else c.plainRead addr

def Chip.readEvr (addr : Nat) (d : RegDef) (c : Chip) : ReadResult :=
  let e := c.ev.rate[c.get F.EVR_RSEL_IDX]?
  if d.is R.EVR_RCODE then (c, (e.map (fun (r : RateEntry) => 2 ^ 31 + r.count % 256 * 2 ^ 16 + r.code)).getD 0)
  else if d.is R.EVR_RDROP then (c, (e.map (fun (r : RateEntry) => satNat 32 r.drops)).getD 0)
  else c.plainRead addr

def Chip.readCal (i : Initiator) (addr : Nat) (d : RegDef) (c : Chip) : ReadResult :=
  let k := initNo i
  if d.is R.CAL_VSEL then (c, c.latched R.CAL_VSEL.addr k % 2 ^ 24)
  else if d.is R.CAL_VDATA then (c, c.calVdata k)
  else if d.is R.CAL_VSTAT then (c, c.calVstat k)
  else c.plainRead addr

/-- The read of a register: n is its first index. -/
def Chip.readReg (i : Initiator) (addr : Nat) (d : RegDef) (n : Nat) (c : Chip) : ReadResult :=
  match blockOf addr with
  | 0x00 =>
    if d.is R.SYS_PTIME_LO then (c.keep R.SYS_PTIME_HI.addr (c.nowNs / 2 ^ 32), c.nowNs % 2 ^ 32)
    else if d.is R.SYS_PTIME_HI then (c, c.captured addr) else c.plainRead addr
  | 0x01 => if d.is R.PWR_ISL_CUR then (c, satNat 16 (c.pwr.cur[Fin.ofNat 16 (c.get F.PWR_ISL_SEL_ISL)])) else c.plainRead addr
  | 0x03 => c.readEvr addr d
  | 0x04 => c.readEvc i addr d n
  | 0x05 => c.readDma i addr d
  | 0x08 => if d.is R.LDL_SW_RESULT then (c, (c.ldl.result[initFin i]).toNat) else c.plainRead addr
  | 0x09 => c.readPos addr d n
  | 0x0A => c.readTrk addr d
  | 0x0B => c.readCmp addr d
  | 0x0C => c.readCol addr d
  | 0x0D => c.readFlw addr d
  | 0x0E => c.readNzh addr d
  | 0x0F => c.readStr addr d
  | 0x1A => c.readCal i addr d
  | 0x1B => (c.pairRead addr d R.SEC_DENY_LO R.SEC_DENY_HI).getD (c.plainRead addr)
  | 0x1E => c.readDdr addr d
  | 0x1F => c.readTko addr d
  | 0x10 | 0x11 | 0x12 | 0x13 | 0x14 | 0x15 | 0x16 | 0x17 => c.readHp addr d
  | _ => c.plainRead addr

/-- The answer of a read with its data. -/
def Chip.gives (r : ReadResult) : Chip := r.1.answered (.data (BitVec.ofNat 32 r.2))

/-- A 32-bit read of a block register by an initiator. -/
def Chip.busRead (i : Initiator) (addr size : Nat) (c : Chip) : Chip :=
  if addr < 0x10000000 ∨ 0x10200000 ≤ addr then c.outside i false
  else if size ≠ 4 ∨ addr % 4 ≠ 0 then c.answered .busError
  else if c.absent addr then Chip.gives (c, 0)
  else if !c.up (islandOf (blockOf addr)) then c.answered .busError
  else if inMsixTable addr || inMsixPba addr then
    if blockRight i 0x19 = 0 then c.refuse i addr false else Chip.gives (c.plainRead addr)
  else match regWhere addr with
    | none => c.answered .busError
    | some (d, n, _) => if blockRight i (blockOf addr) = 0 then c.refuse i addr false else Chip.gives (c.readReg i addr d n)

end Sys2Proof.Machine
end

