-- ==== Sys2Proof/Machine/DmaMove.lean ====
section
/-!
DEFINITION. The words that a DMA channel moves (R529, R530, R535), the end of its moves, and repeats after bus errors (R542).
-/

namespace Sys2Proof.Machine

def inBlocks (addr : Nat) : Bool := 0x10000000 ≤ addr && addr < 0x10200000

/-- Whether the engine's access waits for its scratchpad bank (R506). -/
def Chip.dmaWaits (c : Chip) (addr : Nat) : Bool := (inScratch addr || inAlias addr) && !c.bankReady (bankOf (addr % 0x100000))

/-- The engine reads a word; none on a bus error. -/
def dmaReadWord (errs : List DdrError) (ues : List Nat) (addr : Nat) (x : Chip × Store) : (Chip × Store) × Option Nat :=
  if inBlocks addr then
    let c := x.1.busRead .dma addr 4
    match c.answer with
    | .data w => ((c, x.2), some w.toNat)
    | _ => ((c, x.2), none)
  else
    let r := x.1.dmaReadMem x.2 errs ues addr
    ((r.1, x.2), r.2.map leNat)

/-- The engine writes a word; false on a bus error. -/
def dmaWriteWord (errs : List DdrError) (addr v : Nat) (x : Chip × Store) : (Chip × Store) × Bool :=
  if inBlocks addr then
    let x := busWrite .dma addr 4 (BitVec.ofNat 32 v) false [] [] x
    (x, decide (x.1.answer ≠ .busError))
  else dmaWriteMem errs addr (leBytes 4 v) x

/-- The channel is past a word. -/
def DmaCh.advance (d : DmaCh) : DmaCh :=
  if d.bytesDone + 4 < d.len then { d with bytesDone := d.bytesDone + 4, hold := none }
  else { d with bytesDone := 0, rowsDone := d.rowsDone + 1, hold := none }

/-- The access that failed is answered by a repeat or a halt; the word stays the next to move. -/
def dmaFails (n : Fin 32) (addr : Nat) (write : Bool) (v : Option Nat) (x : Chip × Store) : Chip × Store :=
  let c := x.1.setCh n { x.1.ch n with hold := v }
  (c.dmaBusError n addr write, x.2)

/-- The channel moves one word; false if it could not. -/
def dmaWord (errs : List DdrError) (ues : List Nat) (n : Fin 32) (x : Chip × Store) : (Chip × Store) × Bool :=
  let d := x.1.ch n
  if x.1.dmaWaits d.srcNow || x.1.dmaWaits d.dstNow then (x, false)
  else
    let r := match d.hold with
      | some v => (x, some v)
      | none => dmaReadWord errs ues d.srcNow x
    match r.2 with
    | none => (dmaFails n d.srcNow false none r.1, false)
    | some v =>
      let y := dmaWriteWord errs d.dstNow v r.1
      if y.2 then ((y.1.1.setCh n (DmaCh.advance (y.1.1.ch n)), y.1.2), true)
      else (dmaFails n d.dstNow true (some v) y.1, false)

/-- The channel moves up to so many words; it stops at its descriptor's end or at a word it could not move. A DDR line's
error shows once. -/
def dmaMove (ues : List Nat) (n : Fin 32) : Nat → List DdrError → Chip × Store → Chip × Store
  | 0, _, x => x
  | k + 1, errs, x =>
    let d := x.1.ch n
    if d.done then x
    else
      let y := dmaWord errs ues n x
      if y.2 then dmaMove ues n k (errs.filter (fun (e : DdrError) => e.line != d.srcNow / 64 * 64 && e.line != d.dstNow / 64 * 64)) y.1
      else y.1

/-- Words that remain of the loaded descriptor. -/
def DmaCh.wordsLeft (d : DmaCh) : Nat := (d.rows * d.len - (d.rowsDone * d.len + d.bytesDone)) / 4

/-- A channel may move words: its descriptor is loaded, no repeat is awaited, and it runs or drains. -/
def DmaCh.moves (d : DmaCh) : Bool := d.loaded && d.again.isNone && (d.state == 1 || d.state == 3)

/-- The access answered last stays as it was: the engine's own accesses answer no initiator. -/
def keepAnswer (f : Chip × Store → Chip × Store) (x : Chip × Store) : Chip × Store :=
  let y := f x
  (y.1.answered x.1.answer, y.2)

/-- A channel comes to the end of its descriptor: its remaining words move, and the descriptor ends (R539). -/
def dmaDescEnd (n : Fin 32) (errs : List DdrError) (ues : List Nat) (x : Chip × Store) : Chip × Store :=
  if (x.1.ch n).moves then
    let x := dmaMove ues n (x.1.ch n).wordsLeft errs x
    if (x.1.ch n).done then (x.1.dmaEnd x.2 errs ues n, x.2) else x
  else x

/-- A pausing channel writes the words whose reads it had issued, and has drained (R536, R537); it may thereby reach its
descriptor's end (R538). -/
def dmaPaused (n : Fin 32) (words : Nat) (errs : List DdrError) (ues : List Nat) (x : Chip × Store) : Chip × Store :=
  let d := x.1.ch n
  if d.state ≠ 3 ∨ d.hold.isSome then x
  else
    let x := if d.moves then dmaMove ues n words errs x else x
    let e := x.1.ch n
    if e.done then (x.1.dmaEnd x.2 errs ues n, x.2)
    else if e.hold.isSome then x
    else (x.1.dmaDrained n, x.2)

/-- The repeat of a failed access (R542). -/
def dmaRetry (n : Fin 32) (errs : List DdrError) (ues : List Nat) (x : Chip × Store) : Chip × Store :=
  let d := x.1.ch n
  if d.again.isNone ∨ (d.state ≠ 1 ∧ (d.state ≠ 3 ∨ d.hold.isNone)) then x
  else
    let due := x.1.dueAgain d.retryAt
    let c := if due then x.1.raiseEvent 0x0503 [] n.val else x.1
    let c := c.setCh n { d with again := none, tries := d.tries + 1, retryAt := if due then some c.now else d.retryAt }
    let worked := fun (y : Chip × Store) =>
      let e := y.1.ch n
      (y.1.setCh n { e with retries := satNat 16 (e.retries + 1), tries := 0 }, y.2)
    if d.loaded then
      let y := dmaWord errs ues n (c, x.2)
      if y.2 then worked y.1 else y.1
    else
      let c := c.dmaLoad x.2 errs ues n d.desc
      let e := c.ch n
      if e.again.isSome || (e.state == 5 && e.err == 1) then (c, x.2) else worked (c, x.2)

end Sys2Proof.Machine
end

