-- ==== Sys2Proof/Machine/HostCmd.lean ====
section
/-!
DEFINITION. The commands of service firmware (R481 to R484), admission (R52, R176 to R178), and the inbox items it admits (R453).
Service firmware runs on JC0 and JC1; what it asks of the fabric block LC writes for it (R47).
-/

namespace Sys2Proof.Machine

/-- Service firmware answers (R44), and it may admit items (R44, R396, R554). -/
def Chip.fwRuns (c : Chip) : Bool := c.up 2 && c.sys.fwUp
def Chip.admits (c : Chip) : Bool := c.fwRuns && !c.sys.holdAdmit && !c.pwr.ready.contains 2

/-- The oldest command of ring q, if it has a given opcode and firmware runs. -/
def Chip.command' (c : Chip) (q opc : Nat) : Option (List Nat) :=
  match c.oldest q with
  | some h => if c.fwRuns && fieldLE h.entry 0 1 == opc then some h.entry else none
  | none => none

def entryDlen (e : List Nat) : Nat := fieldLE e 4 4
def entryAddr (e : List Nat) : Nat := fieldLE e 8 8

/-- The data of a command, in host memory. -/
def hostData (m : Store) (e : List Nat) : List Nat := (m.readHost (entryAddr e) (entryDlen e)).map BitVec.toNat

/-- Writes of firmware to block registers, as JC0, and as LC on its behalf. -/
def fwWrite (addr w : Nat) (x : Chip × Store) : Chip × Store :=
  keepAnswer (busWrite .jc0 addr 4 (BitVec.ofNat 32 w) false [] []) x
def lcWrite (addr w : Nat) (x : Chip × Store) : Chip × Store :=
  keepAnswer (busWrite .lc addr 4 (BitVec.ofNat 32 w) false [] []) x

/-- Firmware writes bytes to DDR one after the other, until one is refused. -/
def fwStore (errs : List DdrError) : List (Nat × List Nat) → Chip × Store → (Chip × Store) × Bool
  | [], x => (x, true)
  | (a, l) :: r, x =>
    let y := agentWriteOk .jc0 errs a (l.map (BitVec.ofNat 8)) x
    if y.2 then fwStore errs r y.1 else y

/-- The oldest command of ring q completes. -/
def finish (q status r0 r1 : Nat) (x : Chip × Store) : Chip × Store := (x.1.complete q status r0 r1, x.2)

/-! ### IDENTIFY, QUERY, jobs -/

def identify (q : Nat) (x : Chip × Store) : Chip × Store :=
  let c := x.1
  match c.command' q 0x01 with
  | none => x
  | some e =>
    if entryDlen e ≠ 0 then finish q stBadArg 0 0 x
    else finish q stOk (c.word R.SYS_ID.addr).toNat (c.sys.fwVersion % 65536 + 65536 * c.sys.fwSlot) x

/-- Items of a lane that are queued and not yet started. -/
def Chip.notStarted (c : Chip) (lane : Nat) : Nat :=
  (c.cmp.items.filter (fun (a : Item) => a.lane == lane && a.stage != .done && a.nextLine == 0)).length

/-- What QUERY returns for a selection, in one snapshot. -/
def Chip.queryResult (c : Chip) (sel lane : Nat) : Option (Nat × Nat) :=
  let halves := fun (i : Int) => (unsigned 48 i % 2 ^ 32, unsigned 48 i / 2 ^ 32)
  match sel with
  | 0 => some (1024 - (c.get F.CMP_IQ_WR_WR + 2048 - c.get F.CMP_IQ_RD_RD) % 2048, 4096 - (c.get F.NZH_ARQ_RSV_RSV + c.arqUnread))
  | 1 => some (halves c.cmp.w)
  | 2 => some (halves c.trk.lastLine)
  | 3 => some (c.trkRate, (c.word R.TRK_STAT.addr).toNat)
  | 4 => some ((c.word R.STR_ACT_SEQ.addr).toNat, (c.word R.STR_PEND_SEQ.addr).toNat)
  | 5 => if lane < 8 then some (c.notStarted lane, 0) else none
  | _ => none

def query (q : Nat) (x : Chip × Store) : Chip × Store :=
  match x.1.command' q 0x02 with
  | none => x
  | some e =>
    match x.1.queryResult (fieldLE e 16 1) (fieldLE e 17 1) with
    | some r => if entryDlen e = 0 then finish q stOk r.1 r.2 x else finish q stBadArg 0 0 x
    | none => finish q stBadArg 0 0 x

/-- JOB_OPEN waits until every queued item has passed its hand-over, then loads the value maps. -/
def jobOpen (q : Nat) (fail : Bool) (x : Chip × Store) : Chip × Store :=
  match x.1.command' q 0x10 with
  | none => x
  | some e =>
    let job := fieldLE e 16 2
    if entryDlen e ≠ 256 then finish q stBadArg 0 0 x
    else if x.1.cmp.items.any (fun (a : Item) => a.stage == .queued) then x
    else if fail then finish q stDmaError 0 0 x
    else
      let l := hostData x.2 e
      let x := (List.range 64).foldl (fun (x : Chip × Store) (n : Nat) =>
        fwWrite (R.CMP_VMAP.at (n / 4) (n % 4)) (fieldLE l (4 * n) 4) x) x
      let jobs := if x.1.fw.jobs.contains job then x.1.fw.jobs else x.1.fw.jobs ++ [job]
      finish q stOk 0 0 (x.1.setFw { x.1.fw with jobs := jobs }, x.2)

def jobClose (q : Nat) (x : Chip × Store) : Chip × Store :=
  match x.1.command' q 0x11 with
  | none => x
  | some e =>
    if entryDlen e ≠ 0 then finish q stBadArg 0 0 x
    else
      let job := fieldLE e 16 2
      finish q stOk 0 0 (x.1.setFw { x.1.fw with jobs := x.1.fw.jobs.filter (fun (j : Nat) => j != job) }, x.2)

/-! ### Loads (R158 to R160, R483) -/

/-- VALID of an entry is cleared. -/
def invalid (m : Store) (entry : Nat) : Nat × List Nat := (entry + 5, [leNat (m.read (entry + 5) 1) % 128])

/-- A load: VALID of the entries is cleared, the data is copied, the entries are written with VALID. -/
def loadObject (q : Nat) (fail : Bool) (errs : List DdrError) (entries : List Nat) (copies writes : List (Nat × List Nat))
    (x : Chip × Store) : Chip × Store :=
  let y := fwStore errs (entries.map (invalid x.2)) x
  if !y.2 || fail then finish q stDmaError 0 0 y.1
  else
    let z := fwStore errs (copies ++ writes) y.1
    finish q (if z.2 then stOk else stDmaError) 0 0 z.1

def loadStatic (q : Nat) (fail : Bool) (errs : List DdrError) (x : Chip × Store) : Chip × Store :=
  match x.1.command' q 0x12 with
  | none => x
  | some e =>
    let handle := fieldLE e 16 2
    let format := fieldLE e 18 1
    let w := fieldLE e 20 2
    let h := fieldLE e 22 3
    let dst := fieldLE e 32 5
    let size := h * (ceilDiv w 256 * 64) * (if format = 1 then 6 else 1)
    if 4096 ≤ handle ∨ 1 < format ∨ w = 0 ∨ 10240 < w ∨ h = 0 ∨ dst % 64 ≠ 0 ∨ (entryDlen e ≠ 0 ∧ entryDlen e ≠ size) then
      finish q stBadArg 0 0 x
    else
      let at' := x.1.baseAddr F.CMP_STAT_BASE_LO_ADDR F.CMP_STAT_BASE_HI_ADDR + 16 * handle
      let copies := if entryDlen e = 0 then [] else [(dst, hostData x.2 e)]
      loadObject q (fail && entryDlen e != 0) errs [at'] copies
        [(at', bytesLE 5 dst ++ [format + 128] ++ bytesLE 2 w ++ bytesLE 3 h ++ List.replicate 5 0)] x

def loadGset (q : Nat) (fail : Bool) (errs : List DdrError) (x : Chip × Store) : Chip × Store :=
  match x.1.command' q 0x14 with
  | none => x
  | some e =>
    let dst := fieldLE e 32 5
    if dst % 64 ≠ 0 ∨ (entryDlen e ≠ 0 ∧ entryDlen e ≠ 131072) then finish q stBadArg 0 0 x
    else
      let at' := x.1.baseAddr F.CMP_GSET_BASE_LO_ADDR F.CMP_GSET_BASE_HI_ADDR + 16 * fieldLE e 16 1
      let copies := if entryDlen e = 0 then [] else [(dst, hostData x.2 e)]
      loadObject q (fail && entryDlen e != 0) errs [at'] copies
        [(at', bytesLE 5 dst ++ [128] ++ bytesLE 2 (fieldLE e 18 2) ++ List.replicate 8 0)] x

/-- A glyph cell entry of the host with its address set and VALID. -/
def glyphEntry (dst : Nat) (b : List Nat) : List Nat :=
  bytesLE 5 (dst + fieldLE b 0 5) ++ [fieldLE b 5 1 % 128 + 128] ++ (b.drop 6).take 10

def loadGlyphs (q : Nat) (fail : Bool) (errs : List DdrError) (x : Chip × Store) : Chip × Store :=
  match x.1.command' q 0x13 with
  | none => x
  | some e =>
    let first := fieldLE e 16 2
    let n := if fieldLE e 18 2 = 0 then 65536 else fieldLE e 18 2
    let dst := fieldLE e 32 5
    if 65536 < first + n ∨ dst % 4 ≠ 0 ∨ entryDlen e < 16 * n ∨ entryDlen e % 4 ≠ 0 then finish q stBadArg 0 0 x
    else
      let base := x.1.baseAddr F.CMP_GLYPH_BASE_LO_ADDR F.CMP_GLYPH_BASE_HI_ADDR + 16 * first
      let data := hostData x.2 e
      let cells := (List.range n).map (fun (i : Nat) => (base + 16 * i, glyphEntry dst ((data.drop (16 * i)).take 16)))
      loadObject q fail errs (cells.map Prod.fst) [(dst, data.drop (16 * n))] cells x

/-! ### Admission (R176, R177) -/

/-- The boxes of a layer, for its cost (R175). -/
def Chip.layerBoxes (c : Chip) (m : Store) (d : List Nat) (l : Layer) : List Box :=
  if l.ty = 0 then
    let e := (m.read (c.baseAddr F.CMP_STAT_BASE_LO_ADDR F.CMP_STAT_BASE_HI_ADDR + 16 * l.handle) 16).map BitVec.toNat
    [⟨l.x, l.y, fieldLE e 6 2, fieldLE e 8 3, if fieldLE e 5 1 % 2 = 1 then 5 else 1, 0⟩]
  else if l.ty = 1 then [⟨l.x, l.y, l.patchW, l.patchH, 1, 0⟩]
  else if l.ty = 2 then
    (c.glyphLayer m [] 0 d l false).2.1.map (fun (g : GlyphCell) => ⟨g.x0, g.y0, g.w, g.h, 1, 4⟩)
  else [⟨l.x, l.y, l.mw * l.modx, l.mh * l.mody, 2, 0⟩]

/-- The highest line cost of an item, and the budget of its lane (R176). -/
def Chip.itemLoad (c : Chip) (m : Store) (d : List Nat) : Nat :=
  itemCost ((descLayerList d).map (c.layerBoxes m d)) (c.get F.CMP_LANE_GEO_WIDTH (descLane d)) (descLines d)
def Chip.laneBudget (c : Chip) (lane : Nat) : Nat :=
  375000000 * c.get F.CMP_BUDGET_USE_USE * c.get F.CMP_LANE_SHARE_SHARE lane / (1000000 * c.get F.CMP_BUDGET_RATE_RATE)

/-- Whether the objects that a layer names are loaded. -/
def Chip.layerLoaded (c : Chip) (m : Store) (l : Layer) : Bool :=
  let valid := fun (a : Nat) => bitAt (leNat (m.read (a + 5) 1)) 7
  if l.ty = 0 then valid (c.baseAddr F.CMP_STAT_BASE_LO_ADDR F.CMP_STAT_BASE_HI_ADDR + 16 * l.handle)
  else if l.ty = 2 then valid (c.baseAddr F.CMP_GSET_BASE_LO_ADDR F.CMP_GSET_BASE_HI_ADDR + 16 * l.gset)
  else true

/-- The lines of an item where admission can tell them, after the lane's previous admitted item. -/
def Chip.admitLines (c : Chip) (d : List Nat) : LanePrev :=
  let from' := fun (s : Int) => LanePrev.lines s (s + (descLines d : Nat))
  match descAnchor d, c.fw.lanePrev[Fin.ofNat 8 (descLane d)] with
  | 0, _ => from' (descStart d)
  | 1, .none => from' (descStart d)
  | 1, .lines s _ => from' (s + (c.get F.CMP_LANE_PITCH_PITCH (descLane d) : Nat))
  | _, _ => .unknown

/-- Whether an item's start conflicts with its anchor, or lies below the frontier (R177). -/
def Chip.anchorConflict (c : Chip) (d : List Nat) : Bool :=
  (descAnchor d == 0 && match c.fw.lanePrev[Fin.ofNat 8 (descLane d)] with
    | .lines _ e => decide ((descStart d : Int) < e)
    | _ => false)
  || (descAnchor d == 1 && decide (c.get F.CMP_LANE_PITCH_PITCH (descLane d) < descLines d))
def Chip.anchorPast (c : Chip) (d : List Nat) : Bool :=
  (descAnchor d == 0 || (descAnchor d == 1 && c.fw.lanePrev[Fin.ofNat 8 (descLane d)] == .none)) && decide ((descStart d : Int) < c.cmp.w)

/-- The status code of the first check of R177 that fails; 0 admits. -/
def Chip.admission (c : Chip) (m : Store) (d : List Nat) : Nat :=
  let ls := descLayerList d
  if 1024 ≤ (c.get F.CMP_IQ_WR_WR + 2048 - c.get F.CMP_IQ_RD_RD) % 2048 ∨ 4096 ≤ c.get F.NZH_ARQ_RSV_RSV + c.arqUnread then 0x20
  else if descFormat d ≠ 1 ∨ d.length ≠ descLen d ∨ !descLenOk d ∨ !descCrcOk d ∨ descAnchor d = 3 ∨ descLines d = 0
      ∨ !descReservedOk d ∨ descLayers d = 0 then 0x30
  else if c.layerLimit < descLayers d then 0x31
  else if ls.any (fun (l : Layer) => l.op == 3 || !l.payloadOk (descLayers d) (descLen d) || !l.sizeOk || decide (16383 < l.x)) then 0x32
  else if ls.any (fun (l : Layer) => !c.layerLoaded m l) then 0x33
  else if c.get F.CMP_LANE_GEO_WIDTH (descLane d) = 0 then 0x34
  else if c.anchorConflict d then 0x35
  else if c.anchorPast d then 0x36
  else if c.laneBudget (descLane d) < c.itemLoad m d then 0x37
  else 0

/-- What became of an item: admitted, held for its Ladle grant, or refused with a status. -/
inductive Admit where
  | done | holds | refused (status : Nat)
  deriving DecidableEq, Repr

/-- Whether an item is heavy (R178). -/
def Chip.heavyItem (c : Chip) (m : Store) (d : List Nat) : Bool :=
  decide (c.get F.CMP_LDL_THR_THR * c.laneBudget (descLane d) < 1000 * c.itemLoad m d)

/-- An admitted item enters the queue: its record slot is claimed, its descriptor written, a heavy item's grant bound, and
CMP_IQ_WR advanced. -/
def enterQueue (errs : List DdrError) (d : List Nat) (grant : Option Nat) (x : Chip × Store) : (Chip × Store) × Admit :=
  let c := x.1.arqClaim.1
  let wr := c.get F.CMP_IQ_WR_WR
  let base := c.baseAddr F.CMP_IQ_BASE_LO_ADDR F.CMP_IQ_BASE_HI_ADDR
  let y := fwStore errs [(base + 4096 * (wr % 1024), d)] (c, x.2)
  if y.2 then
    let c := match grant with | some s => y.1.1.swBind s (wr % 1024) | none => y.1.1
    let next := c.admitLines d
    let c := c.setFw { c.fw with heavy := false, lanePrev := c.fw.lanePrev.set (Fin.ofNat 8 (descLane d)) next }
    (fwWrite R.CMP_IQ_WR.addr ((wr + 1) % 2048) (c, y.1.2), .done)
  else
    let c := y.1.1.arqRelease
    let c := match grant with | some s => c.swRelease s | none => c
    ((c.setFw { c.fw with heavy := false }, y.1.2), .refused stDmaError)

/-- Service firmware judges an item, asks for a heavy item's grant of amt, and enters it in the queue. -/
def admitItem (errs : List DdrError) (amt : Nat) (d : List Nat) (x : Chip × Store) : (Chip × Store) × Admit :=
  let c := x.1
  let st := c.admission x.2 d
  if st ≠ 0 then (x, .refused st)
  else if c.heavyItem x.2 d then
    let c := c.swRequest 1 0 amt
    let r := (c.ldl.result[(1 : Fin 6)]).toNat
    if bitAt r 30 then enterQueue errs d (some (bitsOf r 3 0)) (c, x.2)
    else ((c.setFw { c.fw with heavy := true }, x.2), .holds)
  else enterQueue errs d none x

/-! ### SUBMIT_ITEMS -/

/-- Whether N descriptors end to end fill the data, as far as their lengths can be read. -/
def submitLenOk (l : List Nat) : Nat → Nat → Bool
  | 0, ofs => ofs == l.length
  | n + 1, ofs => if l.length < ofs + 32 then false else if descLenOk (l.drop ofs) then submitLenOk l n (ofs + descLen (l.drop ofs)) else true

/-- The progress of the oldest command of ring q. -/
def Chip.progress (c : Chip) (q done ofs : Nat) : Chip :=
  match takeFirst (fun (h : HostCmd) => h.sq == q) c.hst.cmds with
  | none => c
  | some (h, rest) => c.setHst { c.hst with cmds := { h with done := done, ofs := ofs } :: rest }

/-- Descriptors are admitted in order; the first refusal ends the command. -/
def submit (q amt : Nat) (errs : List DdrError) (data : List Nat) (total : Nat) : Nat → Nat → Chip × Store → Chip × Store
  | 0, _, x => finish q stOk total 0 x
  | k + 1, ofs, x =>
    let d := (data.drop ofs).take (descLen (data.drop ofs))
    let done := total - (k + 1)
    if !x.1.fw.jobs.contains (descJob d) then finish q stJobUnknown done ofs x
    else
      let y := admitItem errs amt d x
      match y.2 with
      | .done => submit q amt errs data total k (ofs + descLen d) (y.1.1.progress q (done + 1) (ofs + descLen d), y.1.2)
      | .holds => y.1
      | .refused st => finish q st done ofs y.1

def submitItems (q : Nat) (fail : Bool) (amt : Nat) (errs : List DdrError) (x : Chip × Store) : Chip × Store :=
  match x.1.command' q 0x20, x.1.oldest q with
  | some e, some h =>
    if !x.1.admits then x
    else
      let n := fieldLE e 16 1
      let data := hostData x.2 e
      if n = 0 ∨ 64 < n then finish q stBadArg 0 0 x
      else if fail then finish q stDmaError h.done h.ofs x
      else if !submitLenOk data n 0 then finish q stBadArg h.done h.ofs x
      else submit q amt errs data n (n - h.done) h.ofs (x.1.activity, x.2)
  | _, _ => x

/-- An item of the fabric inbox is admitted, or refused with the event ADMIT_REFUSED; one that finds the queue full stays. -/
def inboxAdmit (amt : Nat) (errs : List DdrError) (x : Chip × Store) : Chip × Store :=
  let c := x.1
  let rd := c.get F.FAB_INBOX_RD_RD
  if !c.admits ∨ !c.up 3 ∨ rd = c.get F.FAB_INBOX_WR_WR then x
  else
    let at' := c.get F.FAB_INBOX_BASE_HI_ADDR * 2 ^ 32 + c.get F.FAB_INBOX_BASE_LO_ADDR * 4096 + 4160 * (rd % 256)
    let r := c.agentRead x.2 .jc0 errs at' 4160
    let b := (r.2.getD (List.replicate 4160 0)).map BitVec.toNat
    let d := (b.drop 64).take (fieldLE b 2 2)
    let next := lcWrite R.FAB_INBOX_RD.addr ((rd + 1) % 512)
    let y := admitItem errs amt d (r.1, x.2)
    match y.2 with
    | .done => next y.1
    | .holds => y.1
    | .refused st => if st = 0x20 then y.1 else next (y.1.1.emitFw 0x0B80 [(8, descId d), (1, st)], y.1.2)

/-! ### FAB_SEND, TC_FORWARD, CAL_RUN -/

/-- FAB_SEND: the payload goes to a buffer of firmware, the descriptor to the send queue; it completes with its STATUS CODE. -/
def fabSend (q buf : Nat) (fail : Bool) (errs : List DdrError) (x : Chip × Store) : Chip × Store :=
  match x.1.command' q 0x30 with
  | none => x
  | some e =>
    let c := x.1
    let wr := c.get F.FAB_TXQ_WR_WR
    if c.fw.sends.any (fun (s : Nat × Nat) => s.1 == q) then x
    else if !c.up 3 ∨ 256 ≤ (wr + 512 - c.get F.FAB_TXQ_RD_RD) % 512 then finish q stBusy 0 0 x
    else if fail then finish q stDmaError 0 0 x
    else
      let desc := [fieldLE e 16 1, fieldLE e 17 1] ++ bytesLE 2 (fieldLE e 18 2) ++ bytesLE 4 (entryDlen e) ++ bytesLE 5 buf ++ [0, 0, 0]
        ++ bytesLE 4 (fieldLE e 20 4) ++ bytesLE 2 (fieldLE e 24 2) ++ List.replicate 10 0
      let y := fwStore errs [(buf, hostData x.2 e), (c.txSlotAddr (wr % 256), desc)] x
      if y.2 then
        let c := y.1.1.setFw { y.1.1.fw with sends := y.1.1.fw.sends ++ [(q, wr % 256)] }
        lcWrite R.FAB_TXQ_WR.addr ((wr + 1) % 512) (c, y.1.2)
      else finish q stDmaError 0 0 y.1

/-- The FAB_SENDs whose descriptors have ended complete. -/
def sendsEnd (x : Chip × Store) : Chip × Store :=
  x.1.fw.sends.foldl (fun (x : Chip × Store) (s : Nat × Nat) =>
    let w := leNat (x.2.read (x.1.txSlotAddr s.2 + 28) 4)
    if bitAt w 31 && x.1.fwRuns then
      let c := x.1.setFw { x.1.fw with sends := x.1.fw.sends.filter (fun (t : Nat × Nat) => t != s) }
      finish s.1 (if w % 2 ^ 31 = 0 then stOk else stRefused) (w % 256) 0 (c, x.2)
    else x) x

/-- TC_FORWARD: the message goes out through mailbox 0 once it is free and no other waits for its answer. -/
def tcForward (q : Nat) (x : Chip × Store) : Chip × Store :=
  match x.1.command' q 0x40 with
  | none => x
  | some e =>
    if x.1.fw.forward.isSome ∨ x.1.on F.MBXM_CTRL_FULL 0 then x
    else if entryDlen e ≠ 0 then finish q stBadArg 0 0 x
    else
      let x := (List.range 12).foldl (fun (x : Chip × Store) (w : Nat) => fwWrite (R.MBX_MSG.at 0 w) (fieldLE e (16 + 4 * w) 4) x) x
      fwWrite (R.MBXM_CTRL.at 0 0) 1 (x.1.setFw { x.1.fw with forward := some (q, fieldLE e 17 1, x.1.now) }, x.2)

/-- TC has not answered within 1 s (R484). -/
def Chip.forwardTimeout (c : Chip) : Chip :=
  match c.fw.forward with
  | some (q, _, since) =>
    if c.fwRuns && decide (since + ms 1000 ≤ c.now) then Chip.complete (c.setFw { c.fw with forward := none }) q stTcTimeout 0 0 else c
  | none => c

/-- The CAL_RUN in progress completes with its result. -/
def Chip.calRunEnds (c : Chip) : Chip :=
  match c.fw.calCmd with
  | some q =>
    if c.calBusy || !c.fwRuns then c
    else Chip.complete (c.setFw { c.fw with calCmd := none }) q stOk (c.get F.CAL_RESULT_CODE) (c.get F.CAL_QUALITY_FIGURE)
  | none => c

def calRun (q : Nat) (x : Chip × Store) : Chip × Store :=
  match x.1.command' q 0x50 with
  | none => x
  | some e =>
    let p := fieldLE e 16 1
    let t := fieldLE e 17 1
    if x.1.fw.calCmd = some q then x
    else if entryDlen e ≠ 0 ∨ calTargets p ≤ t then finish q stBadArg 0 0 x
    else if x.1.calBusy ∨ x.1.pwr.ready.contains 3 then finish q stBusy 0 0 x
    else
      let x := fwWrite R.CAL_CMD.addr (2 ^ 31 + t * 256 + p) (x.1.setFw { x.1.fw with calCmd := some q }, x.2)
      (x.1.calRunEnds, x.2)

/-- New firmware completes what was fetched and not completed (R478). -/
def Chip.abortCommands (c : Chip) : Chip :=
  c.hst.cmds.foldl (fun (c : Chip) (h : HostCmd) =>
    c.completeOne h.sq stAborted (if fieldLE h.entry 0 1 = 0x20 then h.done else 0) 0) c

end Sys2Proof.Machine
end

