-- ==== Sys2Proof/Machine/TcCmd.lean ====
section
/-!
DEFINITION. The commands of the trust core (R487, R44, R45, R380, R623, R625), the restarts of service firmware, and the I²C
target (R488, R489).
-/

namespace Sys2Proof.Machine

/-- Writes of TC to block registers. -/
def tcStore (addr w : Nat) (errs : List DdrError) (x : Chip × Store) : Chip × Store :=
  keepAnswer (busWrite .tc addr 4 (BitVec.ofNat 32 w) false errs []) x

/-- The message of mailbox m, if it carries opcode op: its TAG and its argument words. -/
def Chip.tcMessage (c : Chip) (m op : Nat) : Option (Nat × List Nat) :=
  let w := c.get F.MBX_MSG_DATA m 0
  if (m == 0 || m == 2 || m == 4) && c.tcRuns && c.on F.MBXM_CTRL_FULL m && w % 256 == op then
    some (bitsOf w 15 8, (List.range (bitsOf w 19 16)).map (fun (i : Nat) => c.get F.MBX_MSG_DATA m (i + 1)))
  else none

/-- Whether the caller is refused (R487), or the device answers few commands (R623, R625). -/
def Chip.tcDenies (c : Chip) (m op : Nat) (trusted : Bool) : Bool :=
  let stage := op == 4 && trusted
  if c.get F.SEC_PHASE_PHASE = 3 then
    !(m == 4 && (op == 0x0C || (stage && !bitAt c.sec.policy 1 && c.lcInForce != 4)))
  else if c.on F.SEC_BOOT_DDR_NONE then !(m == 4 && op == 0x0C)
  else m != 4 && (stage || op == 7 || op == 8 || op == 9)

/-- A command of TC: it takes the message, refuses it or finds its words wrong, or acts. The action answers. -/
def tcCommand (m op n : Nat) (act : Nat → List Nat → Chip × Store → Chip × Store) (x : Chip × Store) : Chip × Store :=
  match x.1.tcMessage m op with
  | none => x
  | some (tag, a) =>
    let c := x.1.set F.MBXM_CTRL_FULL 0 m
    if c.tcDenies m op (a.getD 0 0 == 1) then (c.tcAnswer m tag stDenied [], x.2)
    else if a.length ≠ n then (c.tcAnswer m tag stBadArg [], x.2)
    else act tag a (c, x.2)

/-- An answer of TC. -/
def answer (m tag status : Nat) (l : List Nat) (x : Chip × Store) : Chip × Store := (x.1.tcAnswer m tag status l, x.2)

/-- A command whose answer waits for what it has started. -/
def Chip.tcLater (c : Chip) (m tag op : Nat) : Chip := c.setFw { c.fw with tcWait := c.fw.tcWait ++ [(m, tag, op)] }

/-! ### Images -/

def imgLoad (m : Nat) (errs : List DdrError) : Chip × Store → Chip × Store :=
  tcCommand m 0x01 3 (fun (tag : Nat) (a : List Nat) (x : Chip × Store) =>
    if x.1.on F.STR_STAT_CHECKING ∨ x.1.switchState ≠ 0 then answer m tag stBusy [] x
    else
      let x := tcStore R.STR_LOAD_LO.addr (a.getD 0 0) [] (x.1.tcLater m tag 1, x.2)
      let x := tcStore R.STR_LOAD_LEN.addr (a.getD 2 0) [] (tcStore R.STR_LOAD_HI.addr (a.getD 1 0) [] x)
      let x := tcStore R.STR_LOAD_GO.addr 1 errs x
      (x.1.tcImage, x.2))

def imgSwitch (m : Nat) : Chip × Store → Chip × Store :=
  tcCommand m 0x02 2 (fun (tag : Nat) (a : List Nat) (x : Chip × Store) =>
    let x := tcStore R.STR_SW_LINE_HI.addr (a.getD 1 0) [] (tcStore R.STR_SW_LINE_LO.addr (a.getD 0 0) [] x)
    let why := x.1.switchReason
    let x := tcStore R.STR_APPROVE.addr 1 [] x
    match why with
    | some r => answer m tag stRefused [r] x
    | none => answer m tag stOk [] x)

def imgCancel (m : Nat) : Chip × Store → Chip × Store :=
  tcCommand m 0x03 0 (fun (tag : Nat) (_ : List Nat) (x : Chip × Store) =>
    let can := x.1.switchState = 1
    let x := tcStore R.STR_APPROVE.addr 2 [] x
    answer m tag (if can then stOk else stRefused) [] x)

/-! ### Firmware -/

/-- Bytes that TC reads at an address of the scratchpad or DDR; none if the read fails. -/
def Chip.tcRead (c : Chip) (m : Store) (errs : List DdrError) (a n : Nat) : Chip × Option (List Byte) :=
  if inScratch a then (c, if a + n ≤ 0x100000 then some (m.read a n) else none)
  else if c.inDdr a n then c.agentRead m .tc errs a n else (c, none)

/-- A flash slot of a package type gets a package. -/
def Store.putPackage (m : Store) (ty slot : Nat) (l : List Byte) : Store := m.writeFlash (packageBase ty slot) l

/-- FW_STAGE: the package is verified (R621) and written to the inactive slot. In RECOVERY the ROM writes it to the slot that
the boot record does not name, names that slot and resets the device. -/
def fwStage (m : Nat) (errs : List DdrError) : Chip × Store → Chip × Store :=
  tcCommand m 0x04 4 (fun (tag : Nat) (a : List Nat) (x : Chip × Store) =>
    let ty := a.getD 0 0 + 1
    let n := a.getD 3 0
    if 2 < ty ∨ n < 64 then answer m tag stBadArg [] x
    else
      -- word 1: 0 service, 1 trusted; TYPE of R620: 1 trusted, 2 service
      let ty := 3 - ty
      if packageSize ty < n then answer m tag stBadArg [] x
      else
        let c := x.1.readFuses x.2
        let r := c.tcRead x.2 errs (a.getD 2 0 % 256 * 2 ^ 32 + a.getD 1 0) n
        let l := (r.2.getD []).map BitVec.toNat
        let why := r.1.packageReason x.2 ty r.2.isSome l
        if why ≠ 0 then answer m tag stRefused [why] (r.1.set F.SEC_BOOT_LAST_REASON why, x.2)
        else
          let bytes := r.2.getD []
          if r.1.get F.SEC_PHASE_PHASE = 3 then
            let slots := x.2.bootRecord.2.2
            let slot := 1 - bitsOf slots 0 0
            let s := (x.2.putPackage ty slot bytes).nameSlots (slots - slots % 2 + slot)
            softReset 0x5A3C0001 (answer m tag stOk [] (r.1, s))
          else if ty = 2 then
            let s := x.2.putPackage 2 (1 - r.1.sys.fwSlot) bytes
            answer m tag stOk [] (r.1.setSys { r.1.sys with fwCopy := true }, s.write spareBase (pkgBody l))
          else answer m tag stOk [] (r.1, x.2.putPackage 1 (1 - r.1.get F.SEC_BOOT_TF_SLOT) bytes))

/-- TC resets JOB and starts the other slot (R44, R45); without a good copy of it nothing starts. -/
def Chip.restartService (c : Chip) (m : Store) : Chip :=
  let s := 1 - c.sys.fwSlot
  let c := c.resetOne 2
  let c := c.setSys { c.sys with fwDeferred := false, fwUp := false }
  if c.sys.fwCopy then
    let v := pkgVersion (m.flashPackage (packageBase 2 s) (packageSize 2))
    (c.setSys { c.sys with fwSlot := s, fwStarts := true, fwVersion := v }).set F.SEC_FW_SF_VER v
  else c

/-- Lines that the item queue and the rings still hold to print: up to the last placed item or the frontier, and the items
not yet placed. -/
def Chip.queuedLines (c : Chip) : Int :=
  let ends := c.cmp.items.filterMap (fun (a : Item) =>
    if a.stage = .placed ∨ a.stage = .done then some (a.start + (a.lines : Int)) else none)
  let later := ((c.cmp.items.filter (fun (a : Item) => a.stage == .queued || a.stage == .waiting)).map Item.lines).sum
  max 0 ((ends.foldl max c.cmp.w) - c.lastIssued) + (later : Int)

/-- Whether a requested restart is deferred (R45). -/
def Chip.restartWaits (c : Chip) : Bool :=
  c.on F.TRK_STAT_RUN && c.cmp.items.any (fun (a : Item) => a.stage != .done)
    && decide (((c.queuedLines : Int) : Rat) * ((1000 : Nat) : Rat) < c.rate)

/-- The slot of service firmware in the boot record. -/
def Store.nameService (m : Store) (slot : Nat) : Store :=
  let s := m.bootRecord.2.2
  m.nameSlots (withBits s 1 1 slot)

/-- A requested restart starts: the slot taken into use is named. -/
def startRequested (x : Chip × Store) : Chip × Store :=
  let c := x.1.restartService x.2
  (c, if c.sys.fwStarts then x.2.nameService c.sys.fwSlot else x.2)

def fwRestart (m : Nat) : Chip × Store → Chip × Store :=
  tcCommand m 0x05 1 (fun (tag : Nat) (a : List Nat) (x : Chip × Store) =>
    let c := x.1
    if a.getD 0 0 = 0 then
      if !c.sys.fwCopy then answer m tag stRefused [] x
      else if c.restartWaits then answer m tag stBusy [] (c.setSys { c.sys with fwDeferred := true }, x.2)
      else startRequested (c.tcLater m tag 5, x.2)
    else if a.getD 0 0 = 1 then
      let slot := 1 - c.get F.SEC_BOOT_TF_SLOT
      let l := x.2.flashPackage (packageBase 1 slot) (packageSize 1)
      let c := c.readFuses x.2
      let why := c.packageReason x.2 1 true l
      if why ≠ 0 then answer m tag stRefused [why] (c.set F.SEC_BOOT_LAST_REASON why, x.2)
      else
        let c := ((c.set F.SEC_BOOT_TF_SLOT slot).set F.SEC_FW_TF_VER (pkgVersion l)).send "tcRestart" []
        answer m tag stOk [] (c, x.2.nameSlots (withBits x.2.bootRecord.2.2 0 0 slot))
    else answer m tag stBadArg [] x)

/-- A deferred restart starts (R45). -/
def deferredStart (x : Chip × Store) : Chip × Store :=
  if x.1.sys.fwDeferred && x.1.sys.tcUp && !x.1.restartWaits then startRequested x else x

/-- TC finds service firmware not answering (R44). -/
def serviceCrash (x : Chip × Store) : Chip × Store :=
  if x.1.sys.fwUp && x.1.sys.tcUp && x.1.up 1 then (x.1.restartService x.2, x.2) else x

/-- JOB has left reset: new firmware completes what was left (R478), TC answers what it did, and firmware that first reports
ready ends the boot (R622). -/
def jobStarts (was : Bool) (x : Chip × Store) : Chip × Store :=
  let c := x.1.tcJobUp
  if was || !c.sys.fwUp then (c, x.2)
  else
    let c := c.abortCommands
    if c.get F.SEC_PHASE_PHASE ≠ 0 then (c, x.2)
    else
      let lc := c.lcInForce
      let x := phaseChange (if lc = 0 ∨ lc = 3 then 2 else 1) (c, x.2)
      (x.1.emitFw 0x1B02 [(4, (x.1.word R.SEC_BOOT.addr).toNat), (4, (x.1.word R.SEC_LC.addr).toNat), (1, x.1.get F.SEC_PHASE_PHASE)], x.2)

/-- ISLAND_LEAVE_RESET. -/
def leaveIsland (isl : Nat) (x : Chip × Store) : Chip × Store :=
  let was := x.1.sys.fwUp
  let c := x.1.leaveReset isl
  if isl = 2 ∧ bitAt x.1.sys.inReset 2 then jobStarts was (c, x.2) else (c, x.2)

/-! ### Power, fuses, TKO, resets, admission -/

def power (m : Nat) : Chip × Store → Chip × Store :=
  tcCommand m 0x06 1 (fun (tag : Nat) (a : List Nat) (x : Chip × Store) =>
    if 3 < a.getD 0 0 then answer m tag stBadArg [] x
    else if x.1.pwrPhase ≠ 0 then answer m tag stBusy [] x
    else tcStore R.PWR_REQ.addr (a.getD 0 0) [] (x.1.tcLater m tag 6, x.2))

/-- A command for the fuse controller, if it is free. -/
def fuseCommand (m op tag w : Nat) (pre : Chip × Store → Chip × Store) (x : Chip × Store) : Chip × Store :=
  if x.1.on F.OTP_STAT_BUSY then answer m tag stBusy [] x
  else tcStore R.OTP_CMD.addr w [] (pre (x.1.tcLater m tag op, x.2))

def otpProgramCmd (m : Nat) : Chip × Store → Chip × Store :=
  tcCommand m 0x07 2 (fun (tag : Nat) (a : List Nat) (x : Chip × Store) =>
    if 511 < a.getD 0 0 then answer m tag stBadArg [] x
    else fuseCommand m 7 tag (2 * 2 ^ 28 + a.getD 0 0) (tcStore R.OTP_WDATA.addr (a.getD 1 0) []) x)

def otpLockCmd (m : Nat) : Chip × Store → Chip × Store :=
  tcCommand m 0x08 9 (fun (tag : Nat) (a : List Nat) (x : Chip × Store) =>
    if 10 < a.getD 0 0 then answer m tag stBadArg [] x
    else fuseCommand m 8 tag (4 * 2 ^ 28 + a.getD 0 0 * 2 ^ 16) (fun (x : Chip × Store) =>
      (List.range 8).foldl (fun (x : Chip × Store) (i : Nat) => tcStore (R.OTP_DIGEST.at i 0) (a.getD (i + 1) 0) [] x) x) x)

def lifeCycle (m : Nat) : Chip × Store → Chip × Store :=
  tcCommand m 0x09 1 (fun (tag : Nat) (a : List Nat) (x : Chip × Store) =>
    if 4 < a.getD 0 0 then answer m tag stBadArg [] x else fuseCommand m 9 tag (6 * 2 ^ 28 + a.getD 0 0) id x)

def tkoSet (m : Nat) : Chip × Store → Chip × Store :=
  tcCommand m 0x0A 3 (fun (tag : Nat) (a : List Nat) (x : Chip × Store) =>
    let w := a.getD 0 0
    let x := tcStore R.TKO_CFG.addr (bitsOf w 2 2 * 2) [] x
    let x := tcStore R.TKO_STBY.addr (a.getD 2 0) [] (tcStore R.TKO_LEAD.addr (a.getD 1 0) [] x)
    let x := tcStore R.TKO_CTRL.addr (bitsOf w 1 1 * 4 + bitsOf w 0 0 * 2 + x.1.get F.TKO_CTRL_XPERT_EN) [] x
    answer m tag stOk [] x)

def islReset (m : Nat) : Chip × Store → Chip × Store :=
  tcCommand m 0x0B 1 (fun (tag : Nat) (a : List Nat) (x : Chip × Store) =>
    let w := a.getD 0 0 % 65536
    if bitAt w 2 then tcStore R.SYS_ISL_RST.addr w [] (x.1.tcLater m tag 0x0B, x.2)
    else answer m tag stOk [] (tcStore R.SYS_ISL_RST.addr w [] x))

def devReset (m : Nat) : Chip × Store → Chip × Store :=
  tcCommand m 0x0C 1 (fun (tag : Nat) (a : List Nat) (x : Chip × Store) =>
    if a.getD 0 0 ≠ 0x5A3C then answer m tag stBadArg [] x else softReset 0x5A3C0001 (answer m tag stOk [] x))

def admitRelease (m : Nat) : Chip × Store → Chip × Store :=
  tcCommand m 0x0D 0 (fun (tag : Nat) (_ : List Nat) (x : Chip × Store) =>
    answer m tag stOk [] (x.1.setSys { x.1.sys with holdAdmit := false }, x.2))

/-! ### The I²C target (R488, R489) -/

/-- A byte of CRC-8 with polynomial 0x07. -/
def crc8Byte (crc b : Nat) : Nat :=
  (List.range 8).foldl (fun (c : Nat) (_ : Nat) => if bitAt c 7 then (2 * c % 256) ^^^ 0x07 else 2 * c % 256) (crc ^^^ b % 256)

/-- The four data bytes and the PEC byte of a read with a command byte. -/
def i2cAnswer (addr cmd w : Nat) : List Nat :=
  let d := bytesLE 4 w
  d ++ [([2 * addr, cmd, 2 * addr + 1] ++ d).foldl crc8Byte 0]

/-- A master addresses the target: it answers in every state but Off, and I²C is a wake source. -/
def Chip.i2cSees (c : Chip) (addr : Nat) : Bool := !c.pwr.off && addr == c.sys.i2cAddr

/-- A read command is answered with a word. -/
def Chip.i2cGives (c : Chip) (cmd w : Nat) : Chip := c.send "i2c" (i2cAnswer c.sys.i2cAddr cmd w)

/-- The hottest valid die sensor in whole degrees. -/
def Chip.hottestSensor (c : Chip) : Int :=
  let t := ((List.finRange 4).filter (fun (i : Fin 4) => bitAt (c.get F.THM_STAT_VALID) i.val)).map (fun (i : Fin 4) => c.thm.temp[i])
  match t with
  | [] => 0
  | a :: r => (r.foldl max a) / 16

/-- The status word of command 0x01. -/
def Chip.i2cStatus (c : Chip) : Nat :=
  c.get F.PWR_STAT_STATE + 8 * c.get F.THM_STAT_TRIP_SEEN + 16 * bit (allPorts.any (fun (k : Fin 8) => c.portState k == 6))
    + 32 * bit c.sys.winErr + 256 * unsigned 8 (satInt 8 c.hottestSensor)

def Chip.i2cReadId (c : Chip) (addr : Nat) : Chip :=
  if c.i2cSees addr then (c.latchWake 3).i2cGives 0x00 (c.word R.SYS_ID.addr).toNat else c
def Chip.i2cReadStatus (c : Chip) (addr : Nat) : Chip :=
  if c.i2cSees addr then
    let c := c.latchWake 3
    let d := c.i2cGives 0x01 c.i2cStatus
    d.setSys { d.sys with winErr := false }
  else c
def Chip.i2cReadCause (c : Chip) (addr : Nat) : Chip :=
  if c.i2cSees addr then (c.latchWake 3).i2cGives 0x02 (c.word R.SYS_RST_CAUSE.addr).toNat else c
def Chip.i2cSetWindow (c : Chip) (addr w : Nat) : Chip :=
  if c.i2cSees addr then
    let c := c.latchWake 3
    c.setSys { c.sys with i2cWindow := w }
  else c
def Chip.i2cWindowRead (c : Chip) (addr : Nat) : Chip :=
  if c.i2cSees addr then
    let c := c.latchWake 3
    let d := c.busRead .host c.sys.i2cWindow 4
    let next := (c.sys.i2cWindow + 4) % 2 ^ 32
    let e := (d.setSys { d.sys with i2cWindow := next }).answered c.answer
    match d.answer with
    | .data w => e.i2cGives 0x09 w.toNat
    | _ => Chip.i2cGives (e.setSys { e.sys with winErr := true }) 0x09 0xFFFFFFFF
  else c

end Sys2Proof.Machine
end

