-- ==== Sys2Proof/Machine/Run.lean ====
section
/-!
DEFINITION. How a command runs: press time moves on to the time of the command, its effect follows, and the machine goes on.
Accesses of software to registers go through the bus.
-/

namespace Sys2Proof.Machine

/-- A command that acts on the chip alone, at press time t. -/
def runChip (t : Nat) (f : Chip → Chip) (s : State) : Host.Outcome State Fault Refusal :=
  .next { s with chip := f (s.chip.at t) }

/-- A command that acts on the chip and the memories, at press time t. -/
def runBoth (t : Nat) (f : Chip × Store → Chip × Store) (s : State) : Host.Outcome State Fault Refusal :=
  .next { s with chip := (f (s.chip.at t, s.store)).1, store := (f (s.chip.at t, s.store)).2 }

/-- An event in an island: one that is off or in reset takes none (R30, R32). -/
def inIsland (isl : Nat) (f : Chip → Chip) (c : Chip) : Chip := if c.up isl then f c else c
def inIslandBoth (isl : Nat) (f : Chip × Store → Chip × Store) (x : Chip × Store) : Chip × Store := if x.1.up isl then f x else x

/-- The island of port k. -/
def portIsland (k : Fin 8) : Nat := 8 + k.val

/-- The blocks whose registers may begin or end lasting activity: CMP and DMA (R550). -/
def worksIn (addr : Nat) : Bool := blockOf addr == 0x0B || blockOf addr == 5

/-- What follows a write of software: lasting activity is noted, and a CAL_RUN of the host that waits completes where the run has
ended (R481, R550). -/
def afterWrite (addr : Nat) (x y : Chip × Store) : Chip × Store :=
  if worksIn addr then (Chip.noteWork x.1 y.1, y.2)
  else if blockOf addr = 0x1A ∨ blockOf addr = 0x0F then (y.1.calRunEnds, y.2)
  else y

/-- Software writes a register by a 32-bit access (R8, R10). -/
def softWrite (i : Initiator) (addr : Nat) (w : Word) (errs : List DdrError) (ues : List Nat) (x : Chip × Store) : Chip × Store :=
  afterWrite addr x (busWrite i addr 4 w false errs ues x)

/-- A register word in which one field has a value and the other bits are given. -/
def withField (p : Place) (v : Nat) (w : Word) : Word := BitVec.ofNat 32 (withBits w.toNat p.hi p.lo v)

/-- A command that is a software write of register p, its indices n and m, at press time t. -/
def runWrite (t : Nat) (i : Initiator) (p : Place) (w : Word) (n m : Nat) (s : State) :
    Host.Outcome State Fault Refusal :=
  runBoth t (softWrite i (p.at n m) w [] []) s

/-- A command that is a software read of register p, its index n, at press time t. -/
def runRead (t : Nat) (i : Initiator) (p : Place) (n : Nat) (s : State) : Host.Outcome State Fault Refusal :=
  runChip t (Chip.busRead i (p.at n 0) 4) s

end Sys2Proof.Machine
end

