-- ==== Sys2Proof/Machine/CalCmds.lean ====
section
/-!
DEFINITION. Commands of calibration. The CAL_RUN of the host that waits for a run completes with it (R481).
-/

namespace Sys2Proof.Machine

/-- A write of CAL_CMD with GO for a procedure; the word gives target and NO_APPLY (R665, R666). -/
def calStart (t : Nat) (i : Initiator) (proc : Nat) (w : Word) (s : State) : Host.Outcome State Fault Refusal :=
  runWrite t i R.CAL_CMD (withField F.CAL_CMD_GO 1 (withField F.CAL_CMD_PROC proc w)) 0 0 s

/-- LINK_DESKEW (R665, R666, R675). -/
def execLinkDeskew (t : Nat) (i : Initiator) (w : Word) (s : State) : Host.Outcome State Fault Refusal := calStart t i 1 w s

/-- BC_PHASE (R665, R666, R676). -/
def execBcPhase (t : Nat) (i : Initiator) (w : Word) (s : State) : Host.Outcome State Fault Refusal := calStart t i 2 w s

/-- FIRE_TRIM (R665, R666, R677). -/
def execFireTrim (t : Nat) (i : Initiator) (w : Word) (s : State) : Host.Outcome State Fault Refusal := calStart t i 3 w s

/-- TICK_TRIM (R665, R666, R679 to R681). -/
def execTickTrim (t : Nat) (i : Initiator) (w : Word) (s : State) : Host.Outcome State Fault Refusal := calStart t i 4 w s

/-- ENC_THR (R665, R666, R682). -/
def execEncThr (t : Nat) (i : Initiator) (w : Word) (s : State) : Host.Outcome State Fault Refusal := calStart t i 5 w s

/-- FAB_EQ (R665, R666, R683). -/
def execFabEq (t : Nat) (i : Initiator) (w : Word) (s : State) : Host.Outcome State Fault Refusal := calStart t i 6 w s

/-- DDR_TRACK (R665, R666, R685). -/
def execDdrTrack (t : Nat) (i : Initiator) (w : Word) (s : State) : Host.Outcome State Fault Refusal := calStart t i 7 w s

/-- SENS_OFS (R665, R666, R686). -/
def execSensOfs (t : Nat) (i : Initiator) (w : Word) (s : State) : Host.Outcome State Fault Refusal := calStart t i 8 w s

/-- An event of CAL, in JOB. -/
def runCal (t : Nat) (f : Chip → Chip) (s : State) : Host.Outcome State Fault Refusal :=
  runChip t (inIsland 2 (fun (c : Chip) => (f c).calRunEnds)) s

/-- CAL_INPUT_PRESENT (R667). -/
def execCalInputPresent (t : Nat) (s : State) : Host.Outcome State Fault Refusal := runCal t Chip.calInput s

/-- CAL_PRECOND_CHECK (R668, R671). -/
def execCalPrecondCheck (t : Nat) (s : State) : Host.Outcome State Fault Refusal := runCal t Chip.calCheck s

/-- CAL_SWEEP_END (R668, R670, R671, R673 to R686). -/
def execCalSweepEnd (t : Nat) (sweep : CalSweep) (s : State) : Host.Outcome State Fault Refusal :=
  runCal t (fun (c : Chip) => c.calSweepEnd sweep) s

/-- CAL_ABORT (R671, R672): a write of CAL_CMD with ABORT alone. -/
def execCalAbort (t : Nat) (i : Initiator) (s : State) : Host.Outcome State Fault Refusal :=
  runWrite t i R.CAL_CMD (withField F.CAL_CMD_ABORT 1 0) 0 0 s

/-- CAL_TIMEOUT (R671, R672). -/
def execCalTimeout (t : Nat) (s : State) : Host.Outcome State Fault Refusal := runCal t Chip.calTimeout s

/-- CAL_VALUE_WRITE (R687, R688): a write of CAL_VDATA. -/
def execCalValueWrite (t : Nat) (i : Initiator) (w : Word) (s : State) : Host.Outcome State Fault Refusal :=
  runWrite t i R.CAL_VDATA w 0 0 s

end Sys2Proof.Machine
end

