-- ==== Sys2Proof/Machine/CmpCmds.lean ====
section
/-!
DEFINITION. Commands of CMP and of the line assemblers: the item queue, placement, composition, assembly of port lines.
-/

namespace Sys2Proof.Machine

/-- ITEM_ENQUEUE (R142, R150, R181): a write of CMP_IQ_WR; `errs` is what DDR delivers as CMP reads the headers. -/
def execItemEnqueue (t : Nat) (i : Initiator) (wr : Nat) (errs : List DdrError) (s : State) : Host.Outcome State Fault Refusal :=
  runBoth t (softWrite i R.CMP_IQ_WR.addr (BitVec.ofNat 32 wr) errs []) s

/-- ITEM_PLACE (R142, R143, R148, R149, R181): the next item of a lane. -/
def execItemPlace (t : Nat) (lane : Fin 8) (s : State) : Host.Outcome State Fault Refusal :=
  runChip t (inIsland 5 (fun (c : Chip) => c.placeNext lane)) s

/-- The oldest mark record on its way reaches CMP; one that finds PIPE down is lost (R30). -/
def Chip.markRecordRx (c : Chip) : Chip :=
  match c.pos.markWay with
  | [] => c
  | r :: rest => inIsland 5 (fun (c : Chip) => c.markRecord r) { c with pos := { c.pos with markWay := rest } }

/-- MARK_RECORD_RX (R144, R145, R147). -/
def execMarkRecordRx (t : Nat) (s : State) : Host.Outcome State Fault Refusal := runChip t Chip.markRecordRx s

/-- The oldest missing-mark notice on its way reaches the lanes; one that finds PIPE down is lost (R30). -/
def Chip.missingNoticeRx (c : Chip) : Chip :=
  match c.pos.missWay with
  | [] => c
  | (y, ref) :: rest =>
    inIsland 5 (fun (c : Chip) => allPorts.foldl (fun (c : Chip) (i : Fin 8) => c.missingMark y ref i) c)
      { c with pos := { c.pos with missWay := rest } }

/-- MARK_MISSING_NOTICE (R84, R146). -/
def execMarkMissingNotice (t : Nat) (s : State) : Host.Outcome State Fault Refusal := runChip t Chip.missingNoticeRx s

/-- PARTNER_PLACEMENT_RX (R147): item identity and start line. -/
def execPartnerPlacementRx (t id : Nat) (start : Int) (s : State) : Host.Outcome State Fault Refusal :=
  runChip t (inIsland 5 (fun (c : Chip) => c.partnerPlace id start)) s

/-- COMPOSE_LINE (R153 to R171, R174, R178): the frontier line of every tile position. -/
def execComposeLine (t : Nat) (errs : List DdrError) (s : State) : Host.Outcome State Fault Refusal :=
  runBoth t (inIslandBoth 5 (fun (x : Chip × Store) =>
    let y := composeLine errs x
    (Chip.noteWork x.1 y.1, y.2))) s

/-- CMP_ENABLE (R169, R745): a write of CMP_CTRL with EN at 1. -/
def execCmpEnable (t : Nat) (i : Initiator) (w : Word) (s : State) : Host.Outcome State Fault Refusal :=
  runWrite t i R.CMP_CTRL (withField F.CMP_CTRL_EN 1 w) 0 0 s

/-- CMP_DISABLE (R745): a write of CMP_CTRL with EN at 0. -/
def execCmpDisable (t : Nat) (i : Initiator) (w : Word) (s : State) : Host.Outcome State Fault Refusal :=
  runWrite t i R.CMP_CTRL (withField F.CMP_CTRL_EN 0 w) 0 0 s

/-- CMP_FRONT_LO_READ (R182). -/
def execCmpFrontLoRead (t : Nat) (i : Initiator) (s : State) : Host.Outcome State Fault Refusal := runRead t i R.CMP_FRONT_LO 0 s

/-- CMP_ASM_LO_READ (R182). -/
def execCmpAsmLoRead (t : Nat) (i : Initiator) (s : State) : Host.Outcome State Fault Refusal := runRead t i R.CMP_ASM_LO 0 s

/-- A line assembler takes its next line. Its port applies a committed image from the named line on (R394, R411), and the guard of
a switch that is not ready is looked at (R407). -/
def lineAssemble (errs : List DdrError) (k : Fin 8) (x : Chip × Store) : Chip × Store :=
  let c := x.1
  let c := match (if c.assembles k then c.nextLine k else none) with
    | some n => if c.namedLine ≤ n ∧ c.assemblyStarts k n then c.applyPortAssembly k c.namedLine else c
    | none => c
  let y := assembleLine errs k (c, x.2)
  (y.1.strGuard, y.2)

/-- LINE_ASSEMBLE (R53, R171, R173, R184, R186, R190, R193 to R196, R203 to R207, R247 to R252, R264 to R270, R327 to R334). -/
def execLineAssemble (t : Nat) (k : Fin 8) (errs : List DdrError) (s : State) : Host.Outcome State Fault Refusal :=
  runBoth t (inIslandBoth 5 (lineAssemble errs k)) s

end Sys2Proof.Machine
end

