-- ==== Sys2Proof/Machine/ColCmds.lean ====
section
/-!
DEFINITION. Commands of COL: mode notices, standby, the dead-nozzle table, redirection requests between nodes.
-/

namespace Sys2Proof.Machine

/-- MODE_NOTICE (R189, R190, R267, R296, R371). -/
def execModeNotice (t : Nat) (s : State) : Host.Outcome State Fault Refusal := runChip t (inIsland 5 Chip.modeNotice) s

/-- STBY_ACTIVATE (R196, R197, R210): a write of COL_STBY_CMD with OP 1. -/
def execStbyActivate (t : Nat) (i : Initiator) (w : Word) (s : State) : Host.Outcome State Fault Refusal :=
  runWrite t i R.COL_STBY_CMD (withField F.COL_STBY_CMD_OP 1 w) 0 0 s

/-- STBY_RELEASE (R196, R197, R210): a write of COL_STBY_CMD with OP 2. -/
def execStbyRelease (t : Nat) (i : Initiator) (w : Word) (s : State) : Host.Outcome State Fault Refusal :=
  runWrite t i R.COL_STBY_CMD (withField F.COL_STBY_CMD_OP 2 w) 0 0 s

/-- DNT_WRITE (R198 to R200, R202, R206, R208): a write of COL_DNT_DATA. -/
def execDntWrite (t : Nat) (i : Initiator) (w : Word) (s : State) : Host.Outcome State Fault Refusal :=
  runWrite t i R.COL_DNT_DATA w 0 0 s

/-- DNT_READ (R212). -/
def execDntRead (t : Nat) (i : Initiator) (s : State) : Host.Outcome State Fault Refusal := runRead t i R.COL_DNT_DATA 0 s

/-- COL_SW_LO_READ (R212). -/
def execColSwLoRead (t : Nat) (i : Initiator) (s : State) : Host.Outcome State Fault Refusal := runRead t i R.COL_SW_LO 0 s

/-- COL_REQ_RX (R206): source node, tile position, ink channel, column, method. -/
def execColReqRx (t src tp ic col method : Nat) (s : State) : Host.Outcome State Fault Refusal :=
  runChip t (inIsland 5 (fun (c : Chip) => c.colReq src tp ic col method)) s

/-- COL_ACK_RX (R206): the answering node and its first line a_r. -/
def execColAckRx (t node tp ic col method : Nat) (ar : Int) (s : State) : Host.Outcome State Fault Refusal :=
  runChip t (inIsland 5 (fun (c : Chip) => c.colAck node tp ic col method ar)) s

/-- COL_NACK_RX (R206). -/
def execColNackRx (t node tp ic col method reason : Nat) (s : State) : Host.Outcome State Fault Refusal :=
  runChip t (inIsland 5 (fun (c : Chip) => c.colNack node tp ic col method reason)) s

/-- COL_COMMIT_RX (R206): `own` says that the requester is the node's own tile. -/
def execColCommitRx (t src tp ic col method : Nat) (own : Bool) (wa : Int) (s : State) : Host.Outcome State Fault Refusal :=
  runChip t (inIsland 5 (fun (c : Chip) => c.colCommit src tp ic col method own wa)) s

/-- COL_RELEASE_RX (R208). -/
def execColReleaseRx (t src tp ic col method : Nat) (s : State) : Host.Outcome State Fault Refusal :=
  runChip t (inIsland 5 (fun (c : Chip) => c.colRelease src tp ic col method)) s

/-- COL_REQ_TIMEOUT (R206): the entry whose request has not been answered. -/
def execColReqTimeout (t idx : Nat) (s : State) : Host.Outcome State Fault Refusal :=
  runChip t (inIsland 5 (fun (c : Chip) => c.colTimeout idx)) s

end Sys2Proof.Machine
end

