-- ==== Sys2Proof/Machine/EvCmds.lean ====
section
/-!
DEFINITION. Commands of the event controller and the event recorder.
-/

namespace Sys2Proof.Machine

/-- EVENT_SOURCE_RAISE (R638 to R641, R643, R645): the oldest source signal reaches EVC. -/
def execEventSourceRaise (t : Nat) (s : State) : Host.Outcome State Fault Refusal := runChip t Chip.serveSignal s

/-- EVENT_CLAIM (R641, R642): a read of EVC_COREc_CLAIM. -/
def execEventClaim (t : Nat) (i : Initiator) (n : Fin 4) (s : State) : Host.Outcome State Fault Refusal :=
  runRead t i R.EVC_CORE_CLAIM n s

/-- SW_TRIGGER (R646): a write of EVC_SWTRIG with GO. -/
def execSwTrigger (t : Nat) (i : Initiator) (w : Word) (s : State) : Host.Outcome State Fault Refusal :=
  runWrite t i R.EVC_SWTRIG (withField F.EVC_SWTRIG_GO 1 w) 0 0 s

/-- XTEST_GO (R662): a write of EVC_XTEST with GO. -/
def execXtestGo (t : Nat) (i : Initiator) (w : Word) (s : State) : Host.Outcome State Fault Refusal :=
  runWrite t i R.EVC_XTEST (withField F.EVC_XTEST_GO 1 w) 0 0 s

/-- FW_EVENT_SUBMIT (R647): a write of EVC_LOG_CODE. -/
def execFwEventSubmit (t : Nat) (i : Initiator) (w : Word) (s : State) : Host.Outcome State Fault Refusal :=
  runWrite t i R.EVC_LOG_CODE w 0 0 s

/-- ROUTE_WRITE (R644): a write of EVC_ROUTE, for the source that the initiator has selected. -/
def execRouteWrite (t : Nat) (i : Initiator) (w : Word) (s : State) : Host.Outcome State Fault Refusal :=
  runWrite t i R.EVC_ROUTE w 0 0 s

/-- EVENT_RECORD (R498, R637, R638, R649, R651, R652, R654, R655, R661): the oldest record on its way reaches EVR. -/
def execEventRecord (t : Nat) (s : State) : Host.Outcome State Fault Refusal := runBoth t serveRecord s

/-- RECORD_CLOSE (R651). -/
def execRecordClose (t : Nat) (s : State) : Host.Outcome State Fault Refusal := runBoth t (inIslandBoth 1 recordClose) s

/-- RATE_WINDOW_CLOSE (R652). -/
def execRateWindowClose (t : Nat) (s : State) : Host.Outcome State Fault Refusal := runBoth t (inIslandBoth 1 rateWindows) s

/-- PHASE_CHANGE (R653): a write of SEC_PHASE. -/
def execPhaseChange (t : Nat) (i : Initiator) (w : Word) (s : State) : Host.Outcome State Fault Refusal :=
  runWrite t i R.SEC_PHASE w 0 0 s

/-- HOLD_FLUSH (R654). -/
def execHoldFlush (t : Nat) (s : State) : Host.Outcome State Fault Refusal := runBoth t flushHold s

/-- MIRROR_WRITE (R656): `ok` says that the flash did it. -/
def execMirrorWrite (t : Nat) (ok : Bool) (s : State) : Host.Outcome State Fault Refusal := runBoth t (inIslandBoth 1 (mirrorWrite ok)) s

/-- HQ_DELIVER (R659, R661). -/
def execHqDeliver (t : Nat) (s : State) : Host.Outcome State Fault Refusal :=
  runBoth t (inIslandBoth 1 (fun (x : Chip × Store) => hqDeliver x.1.nodeId x)) s

/-- HQ_HEAD_WRITE (R659): a write of EVC_HQ_HEAD. -/
def execHqHeadWrite (t : Nat) (i : Initiator) (w : Word) (s : State) : Host.Outcome State Fault Refusal :=
  runWrite t i R.EVC_HQ_HEAD w 0 0 s

/-- FAB_EVENT_RX (R660): the 32 bytes of a record of another node. -/
def execFabEventRx (t : Nat) (record : List Nat) (src : Nat) (s : State) : Host.Outcome State Fault Refusal :=
  runBoth t (inIslandBoth 1 (fun (x : Chip × Store) =>
    let y := hqForeign record src x
    (y.1.activity, y.2))) s

end Sys2Proof.Machine
end

