-- ==== Sys2Proof/Machine/PosCmds.lean ====
section
/-!
DEFINITION. Commands of POS: levels that the Sieve judges, wire faults, ENCO, the compare outputs and their registers.
-/

namespace Sys2Proof.Machine

/-! ### Encoder channels (R59 to R76) -/

/-- ENCO follows the tracked position (POS_ENCO_CFG.SRC 2): every tick passed since the last is an input count. -/
def Chip.encoFollow (c : Chip) : Chip :=
  if c.on F.POS_ENCO_CFG_EN && c.get F.POS_ENCO_CFG_SRC == 2 then
    let d := c.ticks - c.pos.enco.tick
    let gap := if c.trk.v = 0 then 0 else ((2 ^ 26 : Nat) / absQ c.trk.v : Rat).floor.toNat
    Chip.encoTicks (decide (0 < d)) gap d.natAbs (c.setEnco { c.pos.enco with tick := c.ticks })
  else c

/-- The compare outputs that follow a channel take its position before a count as that of the end of the cycle before (R95). -/
def Chip.cmpFollow (c : Chip) (x : Fin 2) (p : Int) : Chip :=
  ([0, 1, 2, 3, 4, 5, 6, 7] : List (Fin 8)).foldl (fun (c : Chip) (n : Fin 8) =>
    if c.get F.POS_CMP_CFG_SRC n.val = x.val then c.setOut n { c.pos.out[n] with prev := p } else c) c

/-- An applied movement d of channel x goes to TRK (R106, R107, R117). -/
def Chip.trkMoved (c : Chip) (x : Fin 2) (d : Int) : Chip :=
  if c.trkOn then (Chip.trkCounts x (decide (0 < d)) (c.enc x).ts d.natAbs c).serveTrk else c

/-- New levels of A and B of channel x, held for `run` samples from press time `first` on (R59, R60). -/
def Chip.encCount (c : Chip) (x : Fin 2) (a b : Bool) (first run : Nat) : Chip :=
  if !sieveAccepts (c.get F.POS_ENC_CFG_SIEVE_N x) run then c
  else
    let old := c.enc x
    let r := c.encLevels x a b (stamp first (c.get F.POS_RXDLY_ENC_DLY))
    let new := r.1.enc x
    let c := if (old.a != new.a) != (old.b != new.b) then r.1.thrStep x else r.1
    if r.2 = 0 then c
    else (((c.cmpFollow x old.pos).encMoved x r.2).trkMoved x r.2).encoFollow

/-- ENC_COUNT (R59, R60, R63 to R65, R70, R80, R84, R87 to R89, R106, R107). -/
def execEncCount (t : Nat) (x : Fin 2) (a b : Bool) (first run : Nat) (s : State) : Host.Outcome State Fault Refusal :=
  runChip t (inIsland 6 (fun (c : Chip) => c.encCount x a b first run)) s

/-- ENC_INDEX_EDGE (R67 to R71): a new level of Z, held for `run` samples. -/
def execEncIndexEdge (t : Nat) (x : Fin 2) (level : Bool) (run : Nat) (s : State) : Host.Outcome State Fault Refusal :=
  runChip t (inIsland 6 (fun (c : Chip) =>
    if sieveAccepts (c.get F.POS_ENC_CFG_SIEVE_N x) run then (c.indexEdge x level).serveTrk else c)) s

/-- WIRE_FAULT (R57, R72 to R75): the wires of a pair (0 A, 1 B, 2 Z) have held one level for more than 4 sample clocks. -/
def execWireFault (t : Nat) (x : Fin 2) (sig : Fin 3) (s : State) : Host.Outcome State Fault Refusal :=
  runChip t (inIsland 6 (fun (c : Chip) => (c.wireFault x sig).serveTrk)) s

/-- WIRE_RESTORED (R72, R74, R117). -/
def execWireRestored (t : Nat) (x : Fin 2) (sig : Fin 3) (s : State) : Host.Outcome State Fault Refusal :=
  runChip t (inIsland 6 (fun (c : Chip) => (c.wireRestored x sig).serveTrk)) s

/-- ENC_ENABLE (R66): a write of POS_ENCx_CFG with EN at 1. -/
def execEncEnable (t : Nat) (i : Initiator) (x : Fin 2) (w : Word) (s : State) : Host.Outcome State Fault Refusal :=
  runWrite t i R.POS_ENC_CFG (withField F.POS_ENC_CFG_EN 1 w) x 0 s

/-- ENC_FAULT_CLEAR (R76): a write of POS_ENCx_STAT with ENC_FAULT at 1. -/
def execEncFaultClear (t : Nat) (i : Initiator) (x : Fin 2) (w : Word) (s : State) : Host.Outcome State Fault Refusal :=
  runWrite t i R.POS_ENC_STAT (withField F.POS_ENC_STAT_ENC_FAULT 1 w) x 0 s

/-- ENC_POS_LO_READ (R104). -/
def execEncPosLoRead (t : Nat) (i : Initiator) (x : Fin 2) (s : State) : Host.Outcome State Fault Refusal :=
  runRead t i R.POS_ENC_POS_LO x s

/-! ### Hall and mark inputs (R77 to R86) -/

/-- HALL_EDGE (R60, R77 to R81): new levels W, V, U, held for `run` samples. -/
def execHallEdge (t levels run : Nat) (s : State) : Host.Outcome State Fault Refusal :=
  runChip t (inIsland 6 (fun (c : Chip) =>
    if sieveAccepts (c.get F.POS_HALL_CFG_SIEVE_N) run then (c.hallEdge levels).serveTrk else c)) s

/-- MARK_EDGE (R59, R60, R82 to R85, R679): a new level of mark input y, held for `run` samples from press time `first` on. -/
def execMarkEdge (t : Nat) (y : Fin 2) (rising : Bool) (first run : Nat) (s : State) : Host.Outcome State Fault Refusal :=
  runChip t (inIsland 6 (fun (c : Chip) =>
    if sieveAccepts (c.get F.POS_MARK_CFG_SIEVE_N y) run then
      (c.markEdge y rising (stamp first (c.get F.POS_RXDLY_SE_DLY))).calMark y
    else c)) s

/-- MARK_POS_READ (R86). -/
def execMarkPosRead (t : Nat) (i : Initiator) (y : Fin 2) (s : State) : Host.Outcome State Fault Refusal :=
  runRead t i R.POS_MARK_POS y s

/-! ### ENCO (R87 to R91) -/

/-- ENCO_STEP (R88, R90). -/
def execEncoStep (t : Nat) (s : State) : Host.Outcome State Fault Refusal :=
  runChip t (inIsland 6 (fun (c : Chip) => c.encoFollow.encoStep)) s

/-- ENCO_RATIO_WRITE (R91). -/
def execEncoRatioWrite (t : Nat) (i : Initiator) (w : Word) (s : State) : Host.Outcome State Fault Refusal :=
  runWrite t i R.POS_ENCO_RATIO w 0 0 s

/-! ### Compare outputs (R92 to R101) -/

/-- CMP_ENTRY_PUSH (R92, R94, R100): a write of POS_CMPn_ENT_HI. -/
def execCmpEntryPush (t : Nat) (i : Initiator) (n : Fin 8) (w : Word) (s : State) : Host.Outcome State Fault Refusal :=
  runWrite t i R.POS_CMP_ENT_HI w n 0 s

/-- The position of output n has come to its head entry (R93, R95 to R98). The tracked position of the cycle before is that of
5 ns ago. -/
def Chip.cmpHead (c : Chip) (n : Fin 8) : Chip :=
  let c := if c.get F.POS_CMP_CFG_SRC n.val < 2 then c
    else c.setOut n { c.pos.out[n] with prev := pos48 (c.xAt (c.nowQ - (5 : Nat)) * (64 : Nat)).floor }
  c.cmpReached n (c.cmpPosition n)

/-- CMP_ENTRY_REACHED (R93, R95 to R98). -/
def execCmpEntryReached (t : Nat) (n : Fin 8) (s : State) : Host.Outcome State Fault Refusal :=
  runChip t (inIsland 6 (fun (c : Chip) => c.cmpHead n)) s

/-- CMP_PULSE_END (R98). -/
def execCmpPulseEnd (t : Nat) (n : Fin 8) (s : State) : Host.Outcome State Fault Refusal :=
  runChip t (inIsland 6 (fun (c : Chip) => c.cmpPulseEnd n)) s

/-- CMP_OUTPUT_ENABLE (R95, R101): a write of POS_CMPn_CFG. -/
def execCmpOutputEnable (t : Nat) (i : Initiator) (n : Fin 8) (w : Word) (s : State) : Host.Outcome State Fault Refusal :=
  runWrite t i R.POS_CMP_CFG w n 0 s

/-- CMP_FLUSH (R101): a write of 1 to POS_CMPn_FLUSH. -/
def execCmpFlush (t : Nat) (i : Initiator) (n : Fin 8) (s : State) : Host.Outcome State Fault Refusal :=
  runWrite t i R.POS_CMP_FLUSH 1 n 0 s

end Sys2Proof.Machine
end

