-- ==== Sys2Proof/Machine/FabCmds.lean ====
section
/-!
DEFINITION. Commands of the fabric: links, frames, topology, end-to-end flows, time synchronisation, low power, LC.
-/

namespace Sys2Proof.Machine

/-- An event of FAB, in LINK. -/
def runFab (t : Nat) (f : Chip → Chip) (s : State) : Host.Outcome State Fault Refusal := runChip t (inIsland 3 f) s

/-- An event of FAB after which the FAB_SENDs whose descriptors have ended complete (R481). -/
def runSends (t : Nat) (f : Chip × Store → Chip × Store) (s : State) : Host.Outcome State Fault Refusal :=
  runBoth t (inIslandBoth 3 (fun (x : Chip × Store) => sendsEnd (f x))) s

/-! ### Links (R418 to R422, R434, R463) -/

/-- FAB_PORT_TRAIN (R418, R421). -/
def execFabPortTrain (t : Nat) (p : Fin 3) (s : State) : Host.Outcome State Fault Refusal :=
  runFab t (fun (c : Chip) => c.fabPortTrain p) s

/-- LINK_ID_RX (R418, R419, R443): lanes locked, and the peer's node, port, class and press. -/
def execLinkIdRx (t : Nat) (p : Fin 3) (lanes node port cl press : Nat) (s : State) : Host.Outcome State Fault Refusal :=
  runFab t (fun (c : Chip) => c.linkIdRx p lanes node port cl press) s

/-- FAB_LANE_LOST (R420). -/
def execFabLaneLost (t : Nat) (p : Fin 3) (lane : Nat) (s : State) : Host.Outcome State Fault Refusal :=
  runFab t (fun (c : Chip) => c.fabLaneLost p lane) s

/-- FAB_LANE_RETRY (R420): `locks` says that the lane locks. -/
def execFabLaneRetry (t : Nat) (p : Fin 3) (locks : Bool) (s : State) : Host.Outcome State Fault Refusal :=
  runFab t (fun (c : Chip) => c.fabLaneRetry p locks) s

/-- FAB_PORT_DOWN (R373, R421, R428, R440, R441, R445): no valid block for LOSS_TO. -/
def execFabPortDown (t : Nat) (p : Fin 3) (s : State) : Host.Outcome State Fault Refusal := runFab t (fun (c : Chip) => c.fabDown p 0) s

/-- FAB_PORT_RETRAIN (R421, R463): a write of FAB_Pp_CTRL with RETRAIN at 1. -/
def execFabPortRetrain (t : Nat) (i : Initiator) (p : Fin 3) (w : Word) (s : State) : Host.Outcome State Fault Refusal :=
  runWrite t i R.FAB_P_CTRL (withField F.FAB_P_CTRL_RETRAIN 1 w) p 0 s

/-- FAB_PORT_DOWN_WRITE (R463): a write of FAB_Pp_CTRL with DOWN at 1. -/
def execFabPortDownWrite (t : Nat) (i : Initiator) (p : Fin 3) (w : Word) (s : State) : Host.Outcome State Fault Refusal :=
  runWrite t i R.FAB_P_CTRL (withField F.FAB_P_CTRL_DOWN 1 w) p 0 s

/-- FAB_ACK_RX (R422): a cumulative link ACK, or a NAK. -/
def execFabAckRx (t : Nat) (p : Fin 3) (lseq : Nat) (nak : Bool) (s : State) : Host.Outcome State Fault Refusal :=
  runFab t (fun (c : Chip) => c.linkAckRx p lseq nak) s

/-- FAB_CREDIT_RX (R434): the credits of each class that come back. -/
def execFabCreditRx (t : Nat) (p : Fin 3) (amounts : List Nat) (s : State) : Host.Outcome State Fault Refusal :=
  runFab t (fun (c : Chip) => c.creditRx p amounts) s

/-! ### Frames (R417, R422 to R425, R429 to R435, R438 to R441, R450) -/

/-- A data or management frame that is for this node. -/
def FabFrame.forNode (f : FabFrame) (node : Nat) : Bool := decide (0x10 ≤ f.kind) && (f.scope != 0 || f.dest == node)

/-- A data or management frame for this node is activity (R550), and in Sleep a wake source (R561). -/
def Chip.frameActivity (c : Chip) (f : FabFrame) : Chip :=
  if f.forNode c.nodeId then (if c.pwrState = 2 then c.activity.latchWake 1 else c.activity) else c

/-- FAB_FRAME_FORWARD (R417, R422 to R425, R429, R430, R432 to R435, R438, R439, R450): a frame arrives on port `source` with its
link sequence number, or comes from a block of this node (source 3). -/
def execFabFrameForward (t source lseq : Nat) (crcOk : Bool) (f : FabFrame) (s : State) : Host.Outcome State Fault Refusal :=
  runFab t (fun (c : Chip) => (c.frameArrives source lseq crcOk f).frameActivity f) s

/-- ITEM_FRAGMENT_RX (R438, R453): source, sequence number, FLOW_START, index, LAST, body. -/
def execItemFragmentRx (t src seq : Nat) (start : Bool) (idx : Nat) (last : Bool) (body : List Nat) (errs : List DdrError) (s : State) :
    Host.Outcome State Fault Refusal :=
  runBoth t (inIslandBoth 3 (fun (x : Chip × Store) =>
    let y := itemFragment errs src seq start idx last body x
    (y.1.activity, y.2))) s

/-- BULK_FRAME_RX (R438, R454). -/
def execBulkFrameRx (t : Nat) (unicast : Bool) (src seq : Nat) (start : Bool) (aux xfer : Nat) (last : Bool) (tcrc tstart : Nat)
    (data : List Nat) (errs : List DdrError) (s : State) : Host.Outcome State Fault Refusal :=
  runBoth t (inIslandBoth 3 (fun (x : Chip × Store) =>
    let y := bulkFrame errs unicast src seq start aux xfer last tcrc tstart data x
    (y.1.activity, y.2))) s

/-- FAB_MBX_RX (R424): the words of a message for this node's cores go over the management crossing to JOB. -/
def execFabMbxRx (t : Nat) (words : List Nat) (s : State) : Host.Outcome State Fault Refusal :=
  runFab t (fun (c : Chip) => (words.foldl (fun (c : Chip) (w : Nat) => c.crossWrite .management 3 2 w false) c).activity) s

/-- FAB_POS_SAMPLE_RX (R109, R112, R114, R116 to R118, R120): node, sequence number, timestamp in 0.5 ns, position in 2^-16
lines, VALID. -/
def execFabPosSampleRx (t node seq ts : Nat) (pos : Int) (valid : Bool) (s : State) : Host.Outcome State Fault Refusal :=
  runChip t (inIsland 6 (fun (c : Chip) => (c.fabSample node seq ts pos valid).encoFollow)) s

/-- FAB_TXQ_DESCRIPTOR (R429, R452 to R454). -/
def execFabTxqDescriptor (t : Nat) (errs : List DdrError) (s : State) : Host.Outcome State Fault Refusal := runSends t (fabTake errs) s

/-- E2E_ACK_RX (R438): the flow's source, the cumulative sequence number, FULL. -/
def execE2eAckRx (t src seq : Nat) (full : Bool) (errs : List DdrError) (s : State) : Host.Outcome State Fault Refusal :=
  runSends t (e2eAckRx errs src seq full) s

/-- E2E_TIMEOUT (R438). -/
def execE2eTimeout (t : Nat) (errs : List DdrError) (s : State) : Host.Outcome State Fault Refusal := runSends t (e2eTimeout errs) s

/-! ### Topology and time (R426 to R431, R444 to R447) -/

/-- TOPO_SEND (R426). -/
def execTopoSend (t : Nat) (s : State) : Host.Outcome State Fault Refusal := runFab t Chip.topoSend s

/-- TOPO_RX (R426, R427, R444, R445). -/
def execTopoRx (t : Nat) (v : Topo) (s : State) : Host.Outcome State Fault Refusal := runFab t (fun (c : Chip) => c.topoRx v) s

/-- NODE_LOST (R112, R428). -/
def execNodeLost (t n : Nat) (s : State) : Host.Outcome State Fault Refusal := runFab t (fun (c : Chip) => c.nodeLost n) s

/-- STEERED (R431, R445). -/
def execSteered (t : Nat) (s : State) : Host.Outcome State Fault Refusal := runFab t Chip.steer s

/-- TIME_EXCHANGE (R446). -/
def execTimeExchange (t : Nat) (s : State) : Host.Outcome State Fault Refusal := runFab t Chip.timeExchange s

/-- TREQ_RX (R446). -/
def execTreqRx (t : Nat) (p : Fin 3) (tseq : Nat) (s : State) : Host.Outcome State Fault Refusal :=
  runFab t (fun (c : Chip) => c.treqRx p tseq) s

/-- TIME_DATA_RX (R446, R447): t2 and t3 of the upstream and the arrival t4 of TRSP, in 1/64 ns. -/
def execTimeDataRx (t tseq t2 t3 t4 : Nat) (s : State) : Host.Outcome State Fault Refusal :=
  runFab t (fun (c : Chip) => c.timeDataRx tseq t2 t3 t4) s

/-! ### Low power, beacons, LC (R442, R456 to R459, R462) -/

/-- A peer's LP block; in Sleep its request for RUN is a wake source (R561). -/
def Chip.lpBlock (c : Chip) (p : Fin 3) (req : Nat) (ack : Bool) : Chip :=
  let d := c.lpRx p req ack
  if c.pwrState = 2 ∧ c.carriesFrames p ∧ !ack ∧ req = 0 then d.latchWake 1 else d

/-- LP_RX (R442, R456). -/
def execLpRx (t : Nat) (p : Fin 3) (req : Nat) (ack : Bool) (s : State) : Host.Outcome State Fault Refusal :=
  runFab t (fun (c : Chip) => c.lpBlock p req ack) s

/-- BEACON_RX (R457, R561). -/
def execBeaconRx (t : Nat) (p : Fin 3) (s : State) : Host.Outcome State Fault Refusal := runChip t (fun (c : Chip) => c.beaconRx p) s

/-- BEACON_SEND (R458). -/
def execBeaconSend (t : Nat) (p : Fin 3) (s : State) : Host.Outcome State Fault Refusal := runFab t (fun (c : Chip) => c.beaconSend p) s

/-- BEACON_TX_WRITE (R458): a write of FAB_LP with BEACON_TX. -/
def execBeaconTxWrite (t : Nat) (i : Initiator) (w : Word) (s : State) : Host.Outcome State Fault Refusal :=
  runWrite t i R.FAB_LP w 0 0 s

/-- LC_RESTART (R462). -/
def execLcRestart (t : Nat) (s : State) : Host.Outcome State Fault Refusal := runFab t Chip.lcRestart s

end Sys2Proof.Machine
end

