-- ==== Sys2Proof/Machine/FlwCmds.lean ====
section
/-!
DEFINITION. Commands of FLW: stale readings, shapes, trims and commits, idle warming.
-/

namespace Sys2Proof.Machine

/-- TEMP_STALE (R262): the port has fired HOLD lines without a reading. -/
def execTempStale (t : Nat) (k : Fin 8) (s : State) : Host.Outcome State Fault Refusal :=
  runChip t (inIsland 5 (fun (c : Chip) => c.flwStale k)) s

/-- SHAPE_WRITE (R255, R256): a write of the shape register of ink channel ic and shape n, first or second half. -/
def execShapeWrite (t : Nat) (i : Initiator) (ic : Fin 6) (n : Nat) (second : Bool) (w : Word) (s : State) :
    Host.Outcome State Fault Refusal :=
  runWrite t i (if second then R.FLW_SHAPE_B else R.FLW_SHAPE_A) w ic n s

/-- TRIM_BOUND_WRITE (R255, R257, R258): a write of FLW_TRIMc. -/
def execTrimBoundWrite (t : Nat) (i : Initiator) (ic : Fin 6) (w : Word) (s : State) : Host.Outcome State Fault Refusal :=
  runWrite t i R.FLW_TRIM w ic 0 s

/-- COMMIT_GO (R276): a write of FLW_COMMIT with GO at 1. -/
def execCommitGo (t : Nat) (i : Initiator) (w : Word) (s : State) : Host.Outcome State Fault Refusal :=
  runWrite t i R.FLW_COMMIT (withField F.FLW_COMMIT_GO 1 w) 0 0 s

/-- IDLE_WARMING_START (R271, R272). -/
def execIdleWarmingStart (t : Nat) (k : Fin 8) (s : State) : Host.Outcome State Fault Refusal :=
  runChip t (inIsland 5 (fun (c : Chip) => c.warmAsk k)) s

/-- WARM_LINE_SEND (R271, R302, R335). -/
def execWarmLineSend (t : Nat) (k : Fin 8) (s : State) : Host.Outcome State Fault Refusal :=
  runChip t (inIsland 5 (fun (c : Chip) => c.warmLine k)) s

end Sys2Proof.Machine
end

