-- ==== Sys2Proof/Machine/HpCmds.lean ====
section
/-!
DEFINITION. Commands of the head ports: line events, transfers, segments, FIRE, back-channel frames, bring-up, lanes, registers.
-/

namespace Sys2Proof.Machine

/-- An event of port k: its island takes it, and STR looks at what the port answers during a switch (R406, R407). -/
def runPort (t : Nat) (k : Fin 8) (f : Chip → Chip) (s : State) : Host.Outcome State Fault Refusal :=
  runChip t (inIsland (portIsland k) (fun (c : Chip) => (f c).strServe)) s

/-! ### Lines (R39, R40, R287 to R308) -/

/-- LINE_EVENT_ARRIVAL (R39, R40, R125, R216, R272, R294, R296, R335). -/
def execLineEventArrival (t : Nat) (k : Fin 8) (s : State) : Host.Outcome State Fault Refusal :=
  runPort t k (fun (c : Chip) => c.eventArrives k) s

/-- The port takes its next transfer; from the named line on it applies a committed image as the transfer starts (R394, R411). -/
def Chip.lineTransfer (c : Chip) (k : Fin 8) : Chip :=
  let c := match c.nextTransfer k with
    | some m => if c.namedLine ≤ m ∧ c.transferStarts k m then c.applyPortTransfer k else c
    | none => c
  c.transferStart k

/-- LINE_TRANSFER_START (R54, R215 to R219, R261, R266, R287, R291 to R294, R327, R337, R338, R343, R346, R350). -/
def execLineTransferStart (t : Nat) (k : Fin 8) (s : State) : Host.Outcome State Fault Refusal :=
  runPort t k (fun (c : Chip) => c.lineTransfer k) s

/-- SEGMENT_SEND (R282 to R286, R291 to R297). -/
def execSegmentSend (t : Nat) (k : Fin 8) (s : State) : Host.Outcome State Fault Refusal :=
  runPort t k (fun (c : Chip) => c.segmentSend k) s

/-- FIRE_STROBE (R36, R38, R215, R217, R229, R293, R297, R301, R303 to R308). -/
def execFireStrobe (t : Nat) (k : Fin 8) (s : State) : Host.Outcome State Fault Refusal :=
  runPort t k (fun (c : Chip) => c.fireStrobe k) s

/-- WDOG_ACT (R341, R342, R351, R719): FIRE has been high for `high` units of 10 ns. The watchdog runs on while its island is
in reset (R342). -/
def execWdogAct (t : Nat) (k : Fin 8) (high : Nat) (s : State) : Host.Outcome State Fault Refusal :=
  runChip t (fun (c : Chip) => (c.wdogAct k high).strServe) s

/-! ### Back-channel frames (R309 to R311, R344 to R352) -/

/-- BC_LINE_FRAME (R221 to R226, R231, R233, R255, R258 to R262, R309 to R311, R344 to R352): the line tag, the row
temperatures in 1/16 °C, the signatures. -/
def execBcLineFrame (t : Nat) (k : Fin 8) (check : FrameCheck) (ltag : Nat) (temps : List Int) (sigs : List Signature) (s : State) :
    Host.Outcome State Fault Refusal :=
  runPort t k (fun (c : Chip) => c.frame k check (fun (c : Chip) => c.lineFrame k ltag temps sigs)) s

/-- BC_IDLE_FRAME (R309 to R311, R344 to R352). -/
def execBcIdleFrame (t : Nat) (k : Fin 8) (check : FrameCheck) (temps : List Int) (s : State) : Host.Outcome State Fault Refusal :=
  runPort t k (fun (c : Chip) => c.frame k check (fun (c : Chip) => c.temperatures k temps)) s

/-- BC_RSP_FRAME (R198, R199, R264, R276, R288, R289, R298 to R300, R311, R316, R318, R319, R340, R343, R406, R407). -/
def execBcRspFrame (t : Nat) (k : Fin 8) (check : FrameCheck) (status tag : Nat) (data : List Nat) (s : State) :
    Host.Outcome State Fault Refusal :=
  runPort t k (fun (c : Chip) => c.frame k check (fun (c : Chip) => c.rspFrame k status tag data)) s

/-- BC_EVT_FRAME (R288, R290, R309, R311, R317, R351). -/
def execBcEvtFrame (t : Nat) (k : Fin 8) (check : FrameCheck) (code detail : Nat) (s : State) : Host.Outcome State Fault Refusal :=
  runPort t k (fun (c : Chip) => c.frame k check (fun (c : Chip) => c.evtFrame k code detail)) s

/-- BC_SYMBOL_LOCK (R288). -/
def execBcSymbolLock (t : Nat) (k : Fin 8) (s : State) : Host.Outcome State Fault Refusal :=
  runPort t k (fun (c : Chip) => c.symbolLock k) s

/-! ### Bring-up and removal (R288, R289, R320 to R322) -/

/-- HPk_PRES_L changes level; AON latches it as a wake source on a port that the variant has. -/
def Chip.headPres (c : Chip) (k : Fin 8) (low : Bool) : Chip :=
  if !c.hasPort k.val || (c.port k).presLow == low then c else (c.presChange k low).latchWake 5

/-- HEAD_PRES_CHANGE (R288, R321, R322, R561, R566). -/
def execHeadPresChange (t : Nat) (k : Fin 8) (low : Bool) (s : State) : Host.Outcome State Fault Refusal :=
  runChip t (fun (c : Chip) => c.headPres k low) s

/-- BRINGUP_START (R280, R288, R409, R566). -/
def execBringupStart (t : Nat) (k : Fin 8) (s : State) : Host.Outcome State Fault Refusal :=
  runPort t k (fun (c : Chip) => if c.hasPort k.val then c.presAccepted k else c) s

/-- PGOOD_RISE (R288). -/
def execPgoodRise (t : Nat) (k : Fin 8) (s : State) : Host.Outcome State Fault Refusal :=
  runPort t k (fun (c : Chip) => c.pgoodRise k) s

/-- PGOOD_TIMEOUT (R289). -/
def execPgoodTimeout (t : Nat) (k : Fin 8) (s : State) : Host.Outcome State Fault Refusal :=
  runPort t k (fun (c : Chip) => c.pgoodTimeout k) s

/-- TRAIN_START (R280, R288). -/
def execTrainStart (t : Nat) (k : Fin 8) (s : State) : Host.Outcome State Fault Refusal :=
  runPort t k (fun (c : Chip) => c.trainStart k) s

/-- TRAIN_TIMEOUT (R288, R289). -/
def execTrainTimeout (t : Nat) (k : Fin 8) (s : State) : Host.Outcome State Fault Refusal :=
  runPort t k (fun (c : Chip) => c.trainTimeout k) s

/-- CMD_ANSWER_TIMEOUT (R289, R298, R320, R322). -/
def execCmdAnswerTimeout (t : Nat) (k : Fin 8) (s : State) : Host.Outcome State Fault Refusal :=
  runPort t k (fun (c : Chip) => c.answerTimeout k) s

/-- HEAD_REMOVED (R320, R347, R372, R377). -/
def execHeadRemoved (t : Nat) (k : Fin 8) (s : State) : Host.Outcome State Fault Refusal :=
  runPort t k (fun (c : Chip) => c.headRemoved k) s

/-- PGOOD_LOST (R320, R347, R372). -/
def execPgoodLost (t : Nat) (k : Fin 8) (s : State) : Host.Outcome State Fault Refusal :=
  runPort t k (fun (c : Chip) => c.pgoodLost k) s

/-- PORT_DOWN_WRITE (R320, R322): a write of HPk_CTRL with DOWN at 1. -/
def execPortDownWrite (t : Nat) (i : Initiator) (k : Fin 8) (w : Word) (s : State) : Host.Outcome State Fault Refusal :=
  runWrite t i R.HP_CTRL (withField F.HP_CTRL_DOWN 1 w) k 0 s

/-- PORT_EN_WRITE (R288, R320 to R322): a write of HPk_CTRL. -/
def execPortEnWrite (t : Nat) (i : Initiator) (k : Fin 8) (w : Word) (s : State) : Host.Outcome State Fault Refusal :=
  runWrite t i R.HP_CTRL w k 0 s

/-! ### Lanes (R312 to R315) -/

/-- LANE_ALERT (R295, R312 to R314): the lanes that the head has locked. -/
def execLaneAlert (t : Nat) (k : Fin 8) (locked : Nat) (s : State) : Host.Outcome State Fault Refusal :=
  runPort t k (fun (c : Chip) => c.laneAlert k locked) s

/-- RETRAIN_WRITE (R315): a write of HPk_CTRL with RETRAIN at 1. -/
def execRetrainWrite (t : Nat) (i : Initiator) (k : Fin 8) (w : Word) (s : State) : Host.Outcome State Fault Refusal :=
  runWrite t i R.HP_CTRL (withField F.HP_CTRL_RETRAIN 1 w) k 0 s

/-- LANE_RETRAIN_TIMER (R315). -/
def execLaneRetrainTimer (t : Nat) (k : Fin 8) (s : State) : Host.Outcome State Fault Refusal :=
  runPort t k (fun (c : Chip) => c.retrainTimer k) s

/-- LANE_RETRAIN_END (R315). -/
def execLaneRetrainEnd (t : Nat) (k : Fin 8) (s : State) : Host.Outcome State Fault Refusal :=
  runPort t k (fun (c : Chip) => c.retrainEnd k) s

/-- BC_LOCK_LOST (R315, R320). -/
def execBcLockLost (t : Nat) (k : Fin 8) (s : State) : Host.Outcome State Fault Refusal :=
  runPort t k (fun (c : Chip) => c.bcLockLost k) s

/-! ### Expert commands and registers (R299, R325, R343, R348, R353) -/

/-- A write of HPk_XCMD with GO and an opcode: HPk_XARG holds the argument. -/
def expertCommand (t : Nat) (i : Initiator) (k : Fin 8) (opc : Nat) (w : Word) (s : State) : Host.Outcome State Fault Refusal :=
  runWrite t i R.HP_XCMD (withField F.HP_XCMD_GO 1 (withField F.HP_XCMD_OPC opc w)) k 0 s

/-- PING (R299, R325). -/
def execPing (t : Nat) (i : Initiator) (k : Fin 8) (w : Word) (s : State) : Host.Outcome State Fault Refusal :=
  expertCommand t i k 1 w s

/-- GET_STATUS (R299, R325). -/
def execGetStatus (t : Nat) (i : Initiator) (k : Fin 8) (w : Word) (s : State) : Host.Outcome State Fault Refusal :=
  expertCommand t i k 2 w s

/-- READ_MEM (R299, R316, R325). -/
def execReadMem (t : Nat) (i : Initiator) (k : Fin 8) (w : Word) (s : State) : Host.Outcome State Fault Refusal :=
  expertCommand t i k 3 w s

/-- XDATA_READ (R325). -/
def execXdataRead (t : Nat) (i : Initiator) (k : Fin 8) (s : State) : Host.Outcome State Fault Refusal := runRead t i R.HP_XDATA k s

/-- MEM_DATA_READ (R325). -/
def execMemDataRead (t : Nat) (i : Initiator) (k : Fin 8) (s : State) : Host.Outcome State Fault Refusal :=
  runRead t i R.HP_MEM_DATA k s

/-- WDOG_LIMIT_WRITE (R43, R255, R308, R342, R343): a write of HPk_WDOG. -/
def execWdogLimitWrite (t : Nat) (i : Initiator) (k : Fin 8) (w : Word) (s : State) : Host.Outcome State Fault Refusal :=
  runWrite t i R.HP_WDOG w k 0 s

/-- TEMP_THRESHOLD_WRITE (R43, R353): a write of HPk_TLIM (`lim`) or HPk_TWARN. -/
def execTempThresholdWrite (t : Nat) (i : Initiator) (k : Fin 8) (lim : Bool) (w : Word) (s : State) :
    Host.Outcome State Fault Refusal :=
  runWrite t i (if lim then R.HP_TLIM else R.HP_TWARN) w k 0 s

/-- HEAD_TEMP_TIMEOUT (R346, R348). -/
def execHeadTempTimeout (t : Nat) (k : Fin 8) (s : State) : Host.Outcome State Fault Refusal :=
  runPort t k (fun (c : Chip) => c.tempTimeout k) s

end Sys2Proof.Machine
end

