-- ==== Sys2Proof/Machine/HstCmds.lean ====
section
/-!
DEFINITION. Commands of the host interface: rings, records, MSI-X, the link, the host's commands, mailboxes, TC's commands, I²C.
-/

namespace Sys2Proof.Machine

/-! ### Rings and messages (R466 to R480, R490) -/

/-- SQ_DOORBELL (R469, R550, R561): a write of HST_SQq_TAIL. -/
def execSqDoorbell (t : Nat) (i : Initiator) (q : Nat) (w : Word) (s : State) : Host.Outcome State Fault Refusal :=
  runWrite t i R.HST_SQ_TAIL w q 0 s

/-- SQ_FETCH (R468, R470, R471, R477): `room` entries fit into service firmware; the fetch number `bad` of the burst fails. -/
def execSqFetch (t room : Nat) (bad : Option Nat) (s : State) : Host.Outcome State Fault Refusal :=
  runBoth t (inIslandBoth 7 (fun (x : Chip × Store) => (x.1.sqFetch x.2 room bad, x.2))) s

/-- SQ_ERR_CLEAR (R477): a write of 1 to HST_SQq_HEAD.ERR. -/
def execSqErrClear (t : Nat) (i : Initiator) (q : Nat) (s : State) : Host.Outcome State Fault Refusal :=
  runWrite t i R.HST_SQ_HEAD (withField F.HST_SQ_HEAD_ERR 1 0) q 0 s

/-- SQ_ENABLE (R490): a write of HST_SQq_CFG with EN at 1. -/
def execSqEnable (t : Nat) (i : Initiator) (q : Nat) (w : Word) (s : State) : Host.Outcome State Fault Refusal :=
  runWrite t i R.HST_SQ_CFG (withField F.HST_SQ_CFG_EN 1 w) q 0 s

/-- CQ_ENABLE (R475): a write of HST_CQc_CFG with EN at 1. -/
def execCqEnable (t : Nat) (i : Initiator) (n : Nat) (w : Word) (s : State) : Host.Outcome State Fault Refusal :=
  runWrite t i R.HST_CQ_CFG (withField F.HST_CQ_CFG_EN 1 w) n 0 s

/-- CQ_WRITE (R471, R474, R475, R491): `fail` says that host memory refuses the write. -/
def execCqWrite (t n : Nat) (fail : Bool) (s : State) : Host.Outcome State Fault Refusal :=
  runBoth t (inIslandBoth 7 (cqWrite n fail)) s

/-- CQ_HEAD_WRITE (R474): a write of HST_CQc_HEAD. -/
def execCqHeadWrite (t : Nat) (i : Initiator) (n : Nat) (w : Word) (s : State) : Host.Outcome State Fault Refusal :=
  runWrite t i R.HST_CQ_HEAD w n 0 s

/-- MSIX_SEND (R476, R643). -/
def execMsixSend (t : Nat) (src : MsixSource) (s : State) : Host.Outcome State Fault Refusal :=
  runBoth t (inIslandBoth 7 (msixSend src)) s

/-- REC_ENABLE (R479): a write of HST_REC_CFG with EN at 1. -/
def execRecEnable (t : Nat) (i : Initiator) (w : Word) (s : State) : Host.Outcome State Fault Refusal :=
  runWrite t i R.HST_REC_CFG (withField F.HST_REC_CFG_EN 1 w) 0 0 s

/-- REC_COPY (R479, R491): up to n records. -/
def execRecCopy (t n : Nat) (fail : Bool) (errs : List DdrError) (s : State) : Host.Outcome State Fault Refusal :=
  runBoth t (inIslandBoth 7 (recCopy n fail errs)) s

/-- REC_HEAD_WRITE (R480): a write of HST_REC_HEAD. -/
def execRecHeadWrite (t : Nat) (i : Initiator) (w : Word) (s : State) : Host.Outcome State Fault Refusal :=
  runWrite t i R.HST_REC_HEAD w 0 0 s

/-- LINK_DOWN (R467, R659, R716). -/
def execLinkDown (t : Nat) (s : State) : Host.Outcome State Fault Refusal := runChip t Chip.linkDown s

/-- LINK_UP (R467, R643). -/
def execLinkUp (t speed width : Nat) (s : State) : Host.Outcome State Fault Refusal :=
  runChip t (fun (c : Chip) => c.linkUp speed width) s

/-- PCIE_CONFIG_WRITE (R468, R643): Bus Master Enable, D-state, MSI-X Enable and Function Mask. -/
def execPcieConfigWrite (t : Nat) (bme : Bool) (dstate : Nat) (msixEn msixMask : Bool) (s : State) : Host.Outcome State Fault Refusal :=
  runChip t (inIsland 7 (fun (c : Chip) => c.configWrite bme dstate msixEn msixMask)) s

/-! ### The host's commands (R481 to R484): the oldest command of ring q, by its opcode. `fail` says that a read of host memory
fails, `errs` is what DDR delivers -/

/-- A command of service firmware: it is activity (R550). -/
def runFirmware (t : Nat) (f : Chip × Store → Chip × Store) (s : State) : Host.Outcome State Fault Refusal :=
  runBoth t (inIslandBoth 2 (fun (x : Chip × Store) =>
    let y := f x
    (y.1.activity, y.2))) s

/-- IDENTIFY (R481). -/
def execIdentify (t q : Nat) (s : State) : Host.Outcome State Fault Refusal := runFirmware t (identify q) s

/-- QUERY (R481). -/
def execQuery (t q : Nat) (s : State) : Host.Outcome State Fault Refusal := runFirmware t (query q) s

/-- JOB_OPEN (R481). -/
def execJobOpen (t q : Nat) (fail : Bool) (s : State) : Host.Outcome State Fault Refusal := runFirmware t (jobOpen q fail) s

/-- JOB_CLOSE (R481). -/
def execJobClose (t q : Nat) (s : State) : Host.Outcome State Fault Refusal := runFirmware t (jobClose q) s

/-- LOAD_STATIC (R481, R483). -/
def execLoadStatic (t q : Nat) (fail : Bool) (errs : List DdrError) (s : State) : Host.Outcome State Fault Refusal :=
  runFirmware t (loadStatic q fail errs) s

/-- LOAD_GLYPHS (R481, R483). -/
def execLoadGlyphs (t q : Nat) (fail : Bool) (errs : List DdrError) (s : State) : Host.Outcome State Fault Refusal :=
  runFirmware t (loadGlyphs q fail errs) s

/-- LOAD_GSET (R481, R483). -/
def execLoadGset (t q : Nat) (fail : Bool) (errs : List DdrError) (s : State) : Host.Outcome State Fault Refusal :=
  runFirmware t (loadGset q fail errs) s

/-- SUBMIT_ITEMS (R52, R175 to R178, R397, R481, R482): `amt` is the grant that firmware asks for a heavy item. -/
def execSubmitItems (t q : Nat) (fail : Bool) (amt : Nat) (errs : List DdrError) (s : State) : Host.Outcome State Fault Refusal :=
  runFirmware t (submitItems q fail amt errs) s

/-- FAB_SEND (R452, R481): `buf` is the buffer that firmware gives the payload. -/
def execFabSend (t q buf : Nat) (fail : Bool) (errs : List DdrError) (s : State) : Host.Outcome State Fault Refusal :=
  runFirmware t (fabSend q buf fail errs) s

/-- TC_FORWARD (R481, R487). -/
def execTcForward (t q : Nat) (s : State) : Host.Outcome State Fault Refusal := runFirmware t (tcForward q) s

/-- TC_FORWARD_TIMEOUT (R484). -/
def execTcForwardTimeout (t : Nat) (s : State) : Host.Outcome State Fault Refusal := runChip t (inIsland 2 Chip.forwardTimeout) s

/-- CAL_RUN (R481, R665, R666). -/
def execCalRun (t q : Nat) (s : State) : Host.Outcome State Fault Refusal := runFirmware t (calRun q) s

/-- INBOX_ADMIT (R52, R175 to R177, R397, R453, R638). -/
def execInboxAdmit (t amt : Nat) (errs : List DdrError) (s : State) : Host.Outcome State Fault Refusal :=
  runFirmware t (inboxAdmit amt errs) s

/-! ### Mailboxes and TC's commands (R485 to R487) -/

/-- MBX_SEND (R485, R486): a write of 1 to MBXm_CTRL.SEND. -/
def execMbxSend (t : Nat) (i : Initiator) (m : Nat) (s : State) : Host.Outcome State Fault Refusal := runWrite t i R.MBXM_CTRL 1 m 0 s

/-- MBX_ACK (R485, R486): a write of 1 to MBXm_CTRL.ACK. -/
def execMbxAck (t : Nat) (i : Initiator) (m : Nat) (s : State) : Host.Outcome State Fault Refusal := runWrite t i R.MBXM_CTRL 2 m 0 s

/-- IMG_LOAD (R400, R487): TC takes the message of mailbox m. -/
def execImgLoad (t m : Nat) (errs : List DdrError) (s : State) : Host.Outcome State Fault Refusal := runBoth t (imgLoad m errs) s

/-- IMG_SWITCH (R405, R487). -/
def execImgSwitch (t m : Nat) (s : State) : Host.Outcome State Fault Refusal :=
  runBoth t (fun (x : Chip × Store) =>
    let y := imgSwitch m x
    (y.1.calRunEnds, y.2)) s

/-- IMG_CANCEL (R407, R487). -/
def execImgCancel (t m : Nat) (s : State) : Host.Outcome State Fault Refusal := runBoth t (imgCancel m) s

/-- FW_STAGE (R45, R380, R487, R617, R621, R625). -/
def execFwStage (t m : Nat) (errs : List DdrError) (s : State) : Host.Outcome State Fault Refusal := runBoth t (fwStage m errs) s

/-- FW_RESTART (R45, R380, R478, R487). -/
def execFwRestart (t m : Nat) (s : State) : Host.Outcome State Fault Refusal := runBoth t (fwRestart m) s

/-- POWER (R487, R552). -/
def execPower (t m : Nat) (s : State) : Host.Outcome State Fault Refusal := runBoth t (power m) s

/-- OTP_PROGRAM (R380, R487). -/
def execOtpProgram (t m : Nat) (s : State) : Host.Outcome State Fault Refusal := runBoth t (otpProgramCmd m) s

/-- OTP_LOCK (R487). -/
def execOtpLock (t m : Nat) (s : State) : Host.Outcome State Fault Refusal := runBoth t (otpLockCmd m) s

/-- LIFE_CYCLE (R487). -/
def execLifeCycle (t m : Nat) (s : State) : Host.Outcome State Fault Refusal := runBoth t (lifeCycle m) s

/-- TKO_SET (R487). -/
def execTkoSet (t m : Nat) (s : State) : Host.Outcome State Fault Refusal := runBoth t (tkoSet m) s

/-- ISL_RESET (R487). -/
def execIslReset (t m : Nat) (s : State) : Host.Outcome State Fault Refusal := runBoth t (islReset m) s

/-- DEV_RESET (R487, R625). -/
def execDevReset (t m : Nat) (s : State) : Host.Outcome State Fault Refusal := runBoth t (devReset m) s

/-- ADMIT_RELEASE (R396, R487). -/
def execAdmitRelease (t m : Nat) (s : State) : Host.Outcome State Fault Refusal := runBoth t (admitRelease m) s

/-! ### I²C (R488, R489) -/

/-- I2C_READ_SYS_ID (R488). -/
def execI2cReadSysId (t addr : Nat) (s : State) : Host.Outcome State Fault Refusal := runChip t (fun (c : Chip) => c.i2cReadId addr) s

/-- I2C_READ_STATUS (R488, R489). -/
def execI2cReadStatus (t addr : Nat) (s : State) : Host.Outcome State Fault Refusal :=
  runChip t (fun (c : Chip) => c.i2cReadStatus addr) s

/-- I2C_READ_RST_CAUSE (R488). -/
def execI2cReadRstCause (t addr : Nat) (s : State) : Host.Outcome State Fault Refusal :=
  runChip t (fun (c : Chip) => c.i2cReadCause addr) s

/-- I2C_SET_WINDOW (R488): the window address w. -/
def execI2cSetWindow (t addr w : Nat) (s : State) : Host.Outcome State Fault Refusal :=
  runChip t (fun (c : Chip) => c.i2cSetWindow addr w) s

/-- I2C_WINDOW_READ (R488, R489). -/
def execI2cWindowRead (t addr : Nat) (s : State) : Host.Outcome State Fault Refusal :=
  runChip t (fun (c : Chip) => c.i2cWindowRead addr) s

end Sys2Proof.Machine
end

