-- ==== Sys2Proof/Machine/LdlCmds.lean ====
section
/-!
DEFINITION. Commands of the Ladle and what its clients do with a grant; patrol scrub bursts.
-/

namespace Sys2Proof.Machine

/-- A scrub burst that the Ladle granted: it runs and gives the grant back (R519). -/
def Chip.scrubGranted (c : Chip) (errs : List DdrError) : Chip := (c.scrubBurst errs).ldlRelease 2 0

/-- What a client does once it holds its grant: 0 head-link retrain, 1 fabric retrain, 2 scrub burst, 3 DMA channel, 4 calibration
sweep, 6 idle warming, 7 keep-warm (R571). -/
def Chip.ladleGranted (c : Chip) (client : Fin 8) (idx : Nat) (errs : List DdrError) : Chip :=
  match client.val with
  | 0 => c.retrainBegin (Fin.ofNat 8 idx)
  | 1 => c.fabGranted (Fin.ofNat 3 idx)
  | 2 => c.scrubGranted errs
  | 3 => c.dmaGranted (Fin.ofNat 32 idx)
  | 4 => c.calSweepBegin.calRunEnds
  | 6 => c.warmBegin (Fin.ofNat 8 idx)
  | 7 => c.setBit F.FLW_WARM_STAT_KEEP_GRANT idx true
  | _ => c

/-- LDL decides the waiting request of a client (R570, R571); a refused scrub burst is counted (R519). -/
def Chip.ladleServe (c : Chip) (client : Fin 8) (idx : Nat) (errs : List DdrError) : Chip :=
  let r := c.ldlServe client idx
  match r.2 with
  | some true => Chip.noteWork c (r.1.ladleGranted client idx errs)
  | some false => if client = 2 then r.1.scrubRefused else r.1
  | none => r.1

/-- LADLE_REQUEST (R336, R543, R570 to R572, R579, R588, R667). -/
def execLadleRequest (t : Nat) (client : Fin 8) (idx : Nat) (errs : List DdrError) (s : State) : Host.Outcome State Fault Refusal :=
  runChip t (fun (c : Chip) => c.ladleServe client idx errs) s

/-- LADLE_RETRY (R519, R543, R571, R667): a refused client asks again, 1 ms later. -/
def execLadleRetry (t : Nat) (client : Fin 8) (idx : Nat) (errs : List DdrError) (s : State) : Host.Outcome State Fault Refusal :=
  runChip t (fun (c : Chip) => c.ladleServe client idx errs) s

/-- Whether what a client's grant is for still goes on. -/
def Chip.ladleInUse (c : Chip) (client : Fin 8) (idx : Nat) : Bool :=
  match client.val with
  | 0 => (c.port (Fin.ofNat 8 idx)).retraining
  | 1 => c.fabState (Fin.ofNat 3 idx) == 1 || c.fabState (Fin.ofNat 3 idx) == 2 || (c.fport (Fin.ofNat 3 idx)).laneRetry.isSome
  | 2 => false
  | 3 => (c.ch (Fin.ofNat 32 idx)).state == 1 || (c.ch (Fin.ofNat 32 idx)).state == 2 || (c.ch (Fin.ofNat 32 idx)).state == 3
  | 4 => c.calBusy
  | 5 => true
  | 6 => bitAt (c.get F.FLW_WARM_STAT_IDLE_ACT) idx
  | _ => c.get F.FLW_WARM_CFG_KEEP != 0 && c.isUp (Fin.ofNat 8 idx)

/-- LADLE_RELEASE (R571): a hardware client gives back a grant whose work is over. Software grants are released by LDL_SW_REL. -/
def execLadleRelease (t : Nat) (client : Fin 8) (idx : Nat) (s : State) : Host.Outcome State Fault Refusal :=
  runChip t (fun (c : Chip) => if c.ladleInUse client idx then c else c.ldlRelease client idx) s

/-- SW_GRANT_REQUEST (R178, R570, R574): a write of LDL_SW_REQ with GO. -/
def execSwGrantRequest (t : Nat) (i : Initiator) (w : Word) (s : State) : Host.Outcome State Fault Refusal :=
  runWrite t i R.LDL_SW_REQ (withField F.LDL_SW_REQ_GO 1 w) 0 0 s

/-- SW_GRANT_RELEASE (R574): a write of LDL_SW_REL with GO. -/
def execSwGrantRelease (t : Nat) (i : Initiator) (w : Word) (s : State) : Host.Outcome State Fault Refusal :=
  runWrite t i R.LDL_SW_REL (withField F.LDL_SW_REL_GO 1 w) 0 0 s

/-- SW_GRANT_BIND (R178, R574): a write of LDL_SW_BIND with GO. -/
def execSwGrantBind (t : Nat) (i : Initiator) (w : Word) (s : State) : Host.Outcome State Fault Refusal :=
  runWrite t i R.LDL_SW_BIND (withField F.LDL_SW_BIND_GO 1 w) 0 0 s

/-- The time between two scrub bursts: a pass of PERIOD hours over the fitted DDR in bursts of 4 KiB (R519). -/
def Chip.scrubGap (c : Chip) : Nat := ns (c.get F.DDR_SCRUB_PERIOD * 3600000000000) / (max 1 (c.get F.DDR_STAT_SIZE) * 2 ^ 18)

/-- A scrub burst falls due: it asks the Ladle, and runs once granted (R519). -/
def Chip.scrubDue (c : Chip) (errs : List DdrError) : Chip :=
  if !c.on F.DDR_SCRUB_EN || !c.ddrReady || decide (c.now < c.mem.scrubAt) then c
  else
    let next := if c.mem.scrubAt + c.scrubGap ≤ c.now then c.now + c.scrubGap else c.mem.scrubAt + c.scrubGap
    (({ c with mem := { c.mem with scrubAt := next } }).ldlAsk 2 0 0 (c.get F.DDR_SCRUB_AMT_AMT)).ladleServe 2 0 errs

/-- SCRUB_BURST (R519, R520). -/
def execScrubBurst (t : Nat) (errs : List DdrError) (s : State) : Host.Outcome State Fault Refusal :=
  runChip t (inIsland 4 (fun (c : Chip) => c.scrubDue errs)) s

end Sys2Proof.Machine
end

