-- ==== Sys2Proof/Machine/MemCmds.lean ====
section
/-!
DEFINITION. Commands of the memories: scratchpad and aliases, bank owners, Grotto, DDR, the DMA engine.
-/

namespace Sys2Proof.Machine

/-! ### Scratchpad and Grotto (R494 to R511) -/

/-- SCRATCHPAD_ACCESS (R46, R47, R49, R495 to R502, R506, R508, R510, R631): an initiator reads or writes the scratchpad, an alias
or the Grotto. `others` are the other writes that reach the bank in the same cycle, `ecc` what the check bits of a read say,
`wait` the cycles that a DMA or host access waits for its bank. -/
def execScratchpadAccess (t : Nat) (i : Initiator) (addr : Nat) (op : MemOp) (others : List WordWrite) (ecc : Ecc) (wait : Nat)
    (s : State) : Host.Outcome State Fault Refusal :=
  runBoth t (inIslandBoth 4 (memAccess i addr op others ecc wait)) s

/-- BIT_SET_ALIAS_WRITE (R500 to R502): a write to the bit-set alias of a scratchpad address. -/
def execBitSetAliasWrite (t : Nat) (i : Initiator) (addr : Fin 0x100000) (l : List Byte) (others : List WordWrite) (ecc : Ecc)
    (wait : Nat) (s : State) : Host.Outcome State Fault Refusal :=
  runBoth t (inIslandBoth 4 (memAccess i (0x100000 + addr.val) (.write l) others ecc wait)) s

/-- BIT_CLEAR_ALIAS_WRITE (R500 to R502). -/
def execBitClearAliasWrite (t : Nat) (i : Initiator) (addr : Fin 0x100000) (l : List Byte) (others : List WordWrite) (ecc : Ecc)
    (wait : Nat) (s : State) : Host.Outcome State Fault Refusal :=
  runBoth t (inIslandBoth 4 (memAccess i (0x200000 + addr.val) (.write l) others ecc wait)) s

/-- BANK_OWNER_WRITE (R503): a write of MEM_OWNb. -/
def execBankOwnerWrite (t : Nat) (i : Initiator) (b : Fin 16) (w : Word) (s : State) : Host.Outcome State Fault Refusal :=
  runWrite t i R.MEM_OWN w b 0 s

/-- GROTTO_WIPE_GO (R509, R511): a write of MEM_GROTTO_WIPE. -/
def execGrottoWipeGo (t : Nat) (i : Initiator) (w : Word) (s : State) : Host.Outcome State Fault Refusal :=
  runWrite t i R.MEM_GROTTO_WIPE w 0 0 s

/-- GROTTO_WIPE (R510). -/
def execGrottoWipe (t : Nat) (s : State) : Host.Outcome State Fault Refusal := runBoth t (inIslandBoth 4 wipeDone) s

/-! ### DDR (R512 to R527) -/

/-- DDR_EN_WRITE (R513, R684): a write of DDR_CTRL with EN at 1. -/
def execDdrEnWrite (t : Nat) (i : Initiator) (w : Word) (s : State) : Host.Outcome State Fault Refusal :=
  runWrite t i R.DDR_CTRL (withField F.DDR_CTRL_EN 1 w) 0 0 s

/-- Training ends with the delays and Vrefs that it found and the eye of every lane in steps: an eye below 8 steps fails
(R513, R684). -/
def Chip.ddrTrainingDone (c : Chip) (values eyes : List Nat) : Chip :=
  let least := eyes.foldl min (eyes.headD 0)
  let c := { c with mem := { c.mem with
    training := Vector.ofFn (fun (i : Fin 28) => if i.val = 27 then least else values.getD i.val 0) } }
  c.ddrTrained (!eyes.isEmpty && decide (8 ≤ least))

/-- DDR_TRAINING_DONE (R513, R684). -/
def execDdrTrainingDone (t : Nat) (values eyes : List Nat) (s : State) : Host.Outcome State Fault Refusal :=
  runChip t (inIsland 4 (fun (c : Chip) => c.ddrTrainingDone values eyes)) s

/-- DDR_ACCESS (R46, R47, R49, R51, R513 to R518, R523, R524, R631): `errs` are the errors that the devices deliver, `inFlight`
the accesses in progress that finish in front of it. -/
def execDdrAccess (t : Nat) (a : Agent) (addr : Nat) (op : MemOp) (errs : List DdrError) (inFlight : Nat) (s : State) :
    Host.Outcome State Fault Refusal :=
  runBoth t (inIslandBoth 4 (ddrAccess a addr op errs inFlight)) s

/-- DDR_ECC_ADDR_LO_READ (R527). -/
def execDdrEccAddrLoRead (t : Nat) (i : Initiator) (s : State) : Host.Outcome State Fault Refusal :=
  runRead t i R.DDR_ECC_ADDR_LO 0 s

/-- DDR_REFRESH (R521). -/
def execDdrRefresh (t : Nat) (s : State) : Host.Outcome State Fault Refusal := runChip t (inIsland 4 Chip.ddrRefresh) s

/-! ### The DMA engine (R528 to R546): software acts on the channel that its DMA_CHSEL selects (R533) -/

/-- DMA_GO (R529, R531, R532, R534, R535, R543): a write of DMA_CH_CTRL with GO alone. -/
def execDmaGo (t : Nat) (i : Initiator) (errs : List DdrError) (ues : List Nat) (s : State) : Host.Outcome State Fault Refusal :=
  runBoth t (softWrite i R.DMA_CH_CTRL.addr 1 errs ues) s

/-- DMA_PAUSE (R536): a write of DMA_CH_CTRL with PAUSE. -/
def execDmaPause (t : Nat) (i : Initiator) (s : State) : Host.Outcome State Fault Refusal :=
  runBoth t (softWrite i R.DMA_CH_CTRL.addr 2 [] []) s

/-- DMA_ABORT (R537): a write of DMA_CH_CTRL with ABORT. -/
def execDmaAbort (t : Nat) (i : Initiator) (s : State) : Host.Outcome State Fault Refusal :=
  runBoth t (softWrite i R.DMA_CH_CTRL.addr 4 [] []) s

/-- DMA_APPEND (R539 to R541): a write of DMA_CH_APPEND_HI; `same` says that it comes in the cycle of a copy. -/
def execDmaAppend (t : Nat) (i : Initiator) (w : Word) (same : Bool) (errs : List DdrError) (ues : List Nat) (s : State) :
    Host.Outcome State Fault Refusal :=
  runBoth t (fun (x : Chip × Store) =>
    afterWrite R.DMA_CH_APPEND_HI.addr x (busWrite i R.DMA_CH_APPEND_HI.addr 4 w same errs ues x)) s

/-- What an engine's step does, with lasting activity noted (R550). -/
def runEngine (t : Nat) (f : Chip × Store → Chip × Store) (s : State) : Host.Outcome State Fault Refusal :=
  runBoth t (inIslandBoth 4 (fun (x : Chip × Store) =>
    let y := f x
    (Chip.noteWork x.1 y.1, y.2))) s

/-- DMA_PAUSED (R536 to R538): the channel had issued the reads of so many words. -/
def execDmaPaused (t : Nat) (n : Fin 32) (words : Nat) (errs : List DdrError) (ues : List Nat) (s : State) :
    Host.Outcome State Fault Refusal :=
  runEngine t (dmaPaused n words errs ues) s

/-- DMA_DESC_END (R529, R531, R532, R535, R538 to R541, R543, R546). -/
def execDmaDescEnd (t : Nat) (n : Fin 32) (errs : List DdrError) (ues : List Nat) (s : State) : Host.Outcome State Fault Refusal :=
  runEngine t (dmaDescEnd n errs ues) s

/-- DMA_RETRY (R542). -/
def execDmaRetry (t : Nat) (n : Fin 32) (errs : List DdrError) (ues : List Nat) (s : State) : Host.Outcome State Fault Refusal :=
  runEngine t (dmaRetry n errs ues) s

/-- DMA_CH_SRC_LO_READ (R545). -/
def execDmaChSrcLoRead (t : Nat) (i : Initiator) (s : State) : Host.Outcome State Fault Refusal := runRead t i R.DMA_CH_SRC_LO 0 s

/-- DMA_CH_FAULT_LO_READ (R545). -/
def execDmaChFaultLoRead (t : Nat) (i : Initiator) (s : State) : Host.Outcome State Fault Refusal :=
  runRead t i R.DMA_CH_FAULT_LO 0 s

end Sys2Proof.Machine
end

