-- ==== Sys2Proof/Machine/NzhCmds.lean ====
section
/-!
DEFINITION. Commands of NZH: frames that do not come, nozzle states, records and verdicts.
-/

namespace Sys2Proof.Machine

/-- BC_FRAME_TIMEOUT (R220). -/
def execBcFrameTimeout (t : Nat) (k : Fin 8) (s : State) : Host.Outcome State Fault Refusal :=
  runChip t (inIsland 5 (fun (c : Chip) => c.frameTimeout k)) s

/-- NOZZLE_STATE_WRITE (R227, R245): a write of NZH_NZ_DATA. -/
def execNozzleStateWrite (t : Nat) (i : Initiator) (w : Word) (s : State) : Host.Outcome State Fault Refusal :=
  runWrite t i R.NZH_NZ_DATA w 0 0 s

/-- NZ_DATA_READ (R245). -/
def execNzDataRead (t : Nat) (i : Initiator) (s : State) : Host.Outcome State Fault Refusal := runRead t i R.NZH_NZ_DATA 0 s

/-- DEAD_FIFO_READ (R225, R245). -/
def execDeadFifoRead (t : Nat) (i : Initiator) (s : State) : Host.Outcome State Fault Refusal := runRead t i R.NZH_DEAD 0 s

/-- RECORD_ISSUE (R232, R234, R235, R237, R238, R240 to R242, R385). -/
def execRecordIssue (t : Nat) (errs : List DdrError) (s : State) : Host.Outcome State Fault Refusal :=
  runBoth t (inIslandBoth 5 (recordIssue errs)) s

/-- VERDICT_RX (R234, R237): the partner's FLAGS of an item. -/
def execVerdictRx (t id flags : Nat) (errs : List DdrError) (s : State) : Host.Outcome State Fault Refusal :=
  runBoth t (inIslandBoth 5 (verdictRx errs id flags)) s

/-- PV_TIMEOUT (R234). -/
def execPvTimeout (t : Nat) (errs : List DdrError) (s : State) : Host.Outcome State Fault Refusal :=
  runBoth t (inIslandBoth 5 (pvTimeout errs)) s

/-- ARQ_CLAIM (R239): a read of NZH_ARQ_CLAIM. -/
def execArqClaim (t : Nat) (i : Initiator) (s : State) : Host.Outcome State Fault Refusal := runRead t i R.NZH_ARQ_CLAIM 0 s

/-- ARQ_RELEASE (R239): a write of 1 to NZH_ARQ_RSV.RELEASE. -/
def execArqRelease (t : Nat) (i : Initiator) (s : State) : Host.Outcome State Fault Refusal :=
  runWrite t i R.NZH_ARQ_RSV (withField F.NZH_ARQ_RSV_RELEASE 1 0) 0 0 s

/-- ARQ_RD_WRITE (R238, R245): a write of NZH_ARQ_RD. -/
def execArqRdWrite (t : Nat) (i : Initiator) (w : Word) (s : State) : Host.Outcome State Fault Refusal :=
  runWrite t i R.NZH_ARQ_RD w 0 0 s

end Sys2Proof.Machine
end

