-- ==== Sys2Proof/Machine/OtpCmds.lean ====
section
/-!
DEFINITION. Commands of the fuse controller and of security: fuse commands, tamper alarms, the watchdog of trusted firmware.
-/

namespace Sys2Proof.Machine

/-- A write of OTP_CMD with an operation; `vpp` is whether VPP_OTP is in range. -/
def fuseWrite (t : Nat) (i : Initiator) (op : Nat) (w : Word) (vpp : Bool) (s : State) : Host.Outcome State Fault Refusal :=
  runBoth t (fun (x : Chip × Store) =>
    softWrite i R.OTP_CMD.addr (withField F.OTP_CMD_OP op w) [] [] (x.1.set F.OTP_STAT_VPP_OK (bit vpp), x.2)) s

/-- OTP_READ (R595, R598, R610, R613). -/
def execOtpRead (t : Nat) (i : Initiator) (w : Word) (vpp : Bool) (s : State) : Host.Outcome State Fault Refusal :=
  fuseWrite t i 1 w vpp s

/-- PROGRAM (R604, R606, R607, R609, R616). -/
def execProgram (t : Nat) (i : Initiator) (w : Word) (vpp : Bool) (s : State) : Host.Outcome State Fault Refusal :=
  fuseWrite t i 2 w vpp s

/-- REINFORCE (R605, R606). -/
def execReinforce (t : Nat) (i : Initiator) (w : Word) (vpp : Bool) (s : State) : Host.Outcome State Fault Refusal :=
  fuseWrite t i 3 w vpp s

/-- LOCK (R599, R606, R608). -/
def execLock (t : Nat) (i : Initiator) (w : Word) (vpp : Bool) (s : State) : Host.Outcome State Fault Refusal :=
  fuseWrite t i 4 w vpp s

/-- RELOCATE (R606, R607, R609, R611). -/
def execRelocate (t : Nat) (i : Initiator) (w : Word) (vpp : Bool) (s : State) : Host.Outcome State Fault Refusal :=
  fuseWrite t i 5 w vpp s

/-- LC_ADVANCE (R606, R614). -/
def execLcAdvance (t : Nat) (i : Initiator) (w : Word) (vpp : Bool) (s : State) : Host.Outcome State Fault Refusal :=
  fuseWrite t i 6 w vpp s

/-- OTP_CMD_DONE (R604, R605, R608, R611, R612, R614, R616, R617, R633): the bits pulsed without success, and how many were pulsed
where the command was aborted; TC's answer may follow. -/
def execOtpCmdDone (t : Nat) (fails : List PulseFail) (pulses : Nat) (s : State) : Host.Outcome State Fault Refusal :=
  runBoth t (inIslandBoth 1 (fun (x : Chip × Store) =>
    let y := otpDone fails pulses x
    (y.1.tcFuses, y.2))) s

/-- TAMPER (R509, R612, R627 to R629): the alarms of one TRUST cycle. -/
def execTamper (t mask : Nat) (s : State) : Host.Outcome State Fault Refusal := runBoth t (tamper mask) s

/-- WDOG_KICK (R630): a write of SEC_WDOG_KICK. -/
def execWdogKick (t : Nat) (i : Initiator) (w : Word) (s : State) : Host.Outcome State Fault Refusal :=
  runWrite t i R.SEC_WDOG_KICK w 0 0 s

/-- TC_WDOG_EXPIRY (R630). -/
def execTcWdogExpiry (t : Nat) (s : State) : Host.Outcome State Fault Refusal := runBoth t wdogExpiry s

/-- SEC_DENY_LO_READ (R634). -/
def execSecDenyLoRead (t : Nat) (i : Initiator) (s : State) : Host.Outcome State Fault Refusal := runRead t i R.SEC_DENY_LO 0 s

end Sys2Proof.Machine
end

