-- ==== Sys2Proof/Machine/PwrCmds.lean ====
section
/-!
DEFINITION. Commands of power states, wakes, brown-out and temperature.
-/

namespace Sys2Proof.Machine

/-- PWR_REQUEST (R552 to R554): a write of PWR_REQ with a target. -/
def execPwrRequest (t : Nat) (i : Initiator) (target : Fin 4) (s : State) : Host.Outcome State Fault Refusal :=
  runWrite t i R.PWR_REQ (withField F.PWR_REQ_TARGET target.val 0) 0 0 s

/-- PWR_CANCEL (R555): a write of PWR_REQ with CANCEL at 1. -/
def execPwrCancel (t : Nat) (i : Initiator) (s : State) : Host.Outcome State Fault Refusal :=
  runWrite t i R.PWR_REQ (withField F.PWR_REQ_CANCEL 1 0) 0 0 s

/-- AUTO_IDLE_ENTRY (R550, R552). -/
def execAutoIdleEntry (t : Nat) (s : State) : Host.Outcome State Fault Refusal := runChip t (fun (c : Chip) => c.autoEntry 0) s

/-- AUTO_SLEEP_ENTRY (R550, R552). -/
def execAutoSleepEntry (t : Nat) (s : State) : Host.Outcome State Fault Refusal := runChip t (fun (c : Chip) => c.autoEntry 1) s

/-- VOTER_ANSWER (R3, R320, R321, R456, R457, R459, R505, R554 to R557, R573, R699): `flashOk` says that the flash mirror is
written out; TC's answer to POWER may follow. -/
def execVoterAnswer (t : Nat) (flashOk : Bool) (s : State) : Host.Outcome State Fault Refusal :=
  runBoth t (fun (x : Chip × Store) =>
    let y := voterAnswer flashOk x
    (y.1.tcPower, y.2)) s

/-- PREPARE_TIMEOUT (R555, R556). -/
def execPrepareTimeout (t : Nat) (s : State) : Host.Outcome State Fault Refusal := runChip t (fun (c : Chip) => c.prepareTimeout.tcPower) s

/-- PWR_COMMIT (R522, R557, R558, R560, R564, R699): a write of PWR_COMMIT. -/
def execPwrCommit (t : Nat) (i : Initiator) (w : Word) (s : State) : Host.Outcome State Fault Refusal :=
  runWrite t i R.PWR_COMMIT w 0 0 s

/-- COMMIT_TIMEOUT (R557). -/
def execCommitTimeout (t : Nat) (s : State) : Host.Outcome State Fault Refusal := runChip t (fun (c : Chip) => c.commitTimeout.tcPower) s

/-- PWR_ENTER (R505, R507, R522, R547, R559, R560, R564, R715). -/
def execPwrEnter (t : Nat) (s : State) : Host.Outcome State Fault Refusal :=
  runBoth t (fun (x : Chip × Store) =>
    let y := pwrEnter x
    (y.1.tcPower, y.2)) s

/-- WAKE_SOURCE_LATCH (R551, R559, R561). -/
def execWakeSourceLatch (t : Nat) (src : Fin 8) (s : State) : Host.Outcome State Fault Refusal :=
  runChip t (fun (c : Chip) => (c.latchWake src.val).tcPower) s

/-- WAKE_TIMER_EXPIRY (R561). -/
def execWakeTimerExpiry (t : Nat) (s : State) : Host.Outcome State Fault Refusal := runChip t (fun (c : Chip) => c.wakeTimer.tcPower) s

/-- WAKE_SW_WRITE (R561): a write of PWR_WAKE_SW with WAKE at 1. -/
def execWakeSwWrite (t : Nat) (i : Initiator) (s : State) : Host.Outcome State Fault Refusal :=
  runWrite t i R.PWR_WAKE_SW (withField F.PWR_WAKE_SW_WAKE 1 0) 0 0 s

/-- WAKE_STAGE_READY (R458, R506, R507, R522, R547, R549, R562, R563, R742): `env` is what the flash and DDR do when a wake from
Deep sleep loads firmware again. -/
def execWakeStageReady (t : Nat) (env : BootEnv) (s : State) : Host.Outcome State Fault Refusal :=
  runBoth t (fun (x : Chip × Store) =>
    let y := wakeStage env x
    (y.1.tcPower, y.2)) s

/-- PAD_RELEASE (R321, R565): a write of PAD_HOLD_REL. -/
def execPadRelease (t : Nat) (i : Initiator) (w : Word) (s : State) : Host.Outcome State Fault Refusal :=
  runWrite t i R.PAD_HOLD_REL w 0 0 s

/-- BROWNOUT (R508, R567 to R569, R612): the causes, the island of a rail, and what a fuse command in progress had done. -/
def execBrownout (t causes isl : Nat) (fails : List PulseFail) (pulses : Nat) (s : State) : Host.Outcome State Fault Refusal :=
  runBoth t (brownout causes isl fails pulses) s

/-- THM_SAMPLE (R572, R573, R581 to R587, R589, R590, R686): the four readings in 1/16 °C, the island currents in mA, VIN_IVR in mV. -/
def execThmSample (t : Nat) (raw : List Int) (cur : List Nat) (vin : Nat) (s : State) : Host.Outcome State Fault Refusal :=
  runChip t (fun (c : Chip) => if c.pwr.off then c else ((c.thmSample raw cur vin).calSample raw).calRunEnds) s

/-- HARDWARE_TRIP (R589 to R591, R710, R715). -/
def execHardwareTrip (t : Nat) (s : State) : Host.Outcome State Fault Refusal := runBoth t hardwareTrip s

/-- TRIP_RESTART (R590, R710). -/
def execTripRestart (t : Nat) (s : State) : Host.Outcome State Fault Refusal := runChip t Chip.tripRestart s

/-- SENSOR_READMIT (R586): a write of 1 bits to THM_STAT.EXCL. -/
def execSensorReadmit (t : Nat) (i : Initiator) (mask : Fin 16) (s : State) : Host.Outcome State Fault Refusal :=
  runWrite t i R.THM_STAT (withField F.THM_STAT_EXCL mask.val 0) 0 0 s

end Sys2Proof.Machine
end

