-- ==== Sys2Proof/Machine/StrCmds.lean ====
section
/-!
DEFINITION. Commands of STR: loads, checks, switches of the structure image.
-/

namespace Sys2Proof.Machine

/-- STR_LOAD (R400): a write of STR_LOAD_GO with GO; `errs` is what DDR delivers as STR copies the source. -/
def execStrLoad (t : Nat) (i : Initiator) (w : Word) (errs : List DdrError) (s : State) : Host.Outcome State Fault Refusal :=
  runBoth t (softWrite i R.STR_LOAD_GO.addr (withField F.STR_LOAD_GO_GO 1 w) errs []) s

/-- IMAGE_CHECK_DONE (R5, R17, R185, R192, R339, R357, R388 to R393, R399 to R402, R580, R603, R616): TC's answer follows. -/
def execImageCheckDone (t : Nat) (errs : List DdrError) (s : State) : Host.Outcome State Fault Refusal :=
  runBoth t (inIslandBoth 1 (fun (x : Chip × Store) => (((x.1.readFuses x.2).imageChecked x.2 errs).tcImage, x.2))) s

/-- STR_APPROVE (R405, R406, R409, R414, R669): a write of STR_APPROVE with OP 1. -/
def execStrApprove (t : Nat) (i : Initiator) (w : Word) (s : State) : Host.Outcome State Fault Refusal :=
  runWrite t i R.STR_APPROVE (withField F.STR_APPROVE_OP 1 w) 0 0 s

/-- STR_CANCEL (R407): a write of STR_APPROVE with OP 2. -/
def execStrCancel (t : Nat) (i : Initiator) (w : Word) (s : State) : Host.Outcome State Fault Refusal :=
  runWrite t i R.STR_APPROVE (withField F.STR_APPROVE_OP 2 w) 0 0 s

/-- BLOCK_READY (R275, R394, R395, R406, R408): the block by its ID. -/
def execBlockReady (t block : Nat) (s : State) : Host.Outcome State Fault Refusal :=
  runChip t (inIsland 1 (fun (c : Chip) => c.blockReady block)) s

/-- APPLICATION_POINT (R25, R394, R395, R403, R411). -/
def execApplicationPoint (t : Nat) (s : State) : Host.Outcome State Fault Refusal :=
  runChip t (inIsland 1 Chip.applicationPoint) s

/-- STR_APPLIED_LO_READ (R415). -/
def execStrAppliedLoRead (t : Nat) (i : Initiator) (s : State) : Host.Outcome State Fault Refusal :=
  runRead t i R.STR_APPLIED_LO 0 s

/-- STR_CMPLINE_LO_READ (R415). -/
def execStrCmplineLoRead (t : Nat) (i : Initiator) (s : State) : Host.Outcome State Fault Refusal :=
  runRead t i R.STR_CMPLINE_LO 0 s

end Sys2Proof.Machine
end

