-- ==== Sys2Proof/Machine/SysCmds.lean ====
section
/-!
DEFINITION. Commands of the register file, the islands and their crossings, the fault manager, resets and boot.
-/

namespace Sys2Proof.Machine

/-- REGISTER_WRITE (R8 to R13, R32, R43, R46 to R51): an initiator writes `size` bytes at an address; `hi` is the second word of
a 64-bit write to the MSI-X table (R466). `same` says that the write falls in the block-clock cycle of the write before it
(R50); `errs` and `ues` are what DDR and the scratchpad deliver where the write makes a block read them. -/
def execRegisterWrite (t : Nat) (i : Initiator) (addr size : Nat) (w hi : Word) (same : Bool) (errs : List DdrError)
    (ues : List Nat) (s : State) : Host.Outcome State Fault Refusal :=
  runBoth t (fun (x : Chip × Store) =>
    if size = 8 ∧ inMsixTable addr ∧ addr % 8 = 0 then
      busWrite i (addr + 4) 4 hi same errs ues (busWrite i addr 4 w same errs ues x)
    else afterWrite addr x (busWrite i addr size w same errs ues x)) s

/-- LOCK_BIT_WRITE (R12): the write of a CTRL register with its LOCK bit at 1; the RWL fields take the word first. -/
def execLockBitWrite (t : Nat) (i : Initiator) (b : Fin 3) (w : Word) (s : State) : Host.Outcome State Fault Refusal :=
  runWrite t i (if b = 0 then R.STR_CTRL else if b = 1 then R.DDR_CTRL else R.SEC_CTRL)
    (if b = 0 then withField F.STR_CTRL_LOCK 1 w else if b = 1 then withField F.DDR_CTRL_LOCK 1 w else withField F.SEC_CTRL_LOCK 1 w)
    0 0 s

/-- CROSSING_WRITE (R22, R23, R28 to R31). -/
def execCrossingWrite (t : Nat) (p : Plane) (src dst w : Nat) (cut : Bool) (s : State) : Host.Outcome State Fault Refusal :=
  runChip t (fun (c : Chip) => c.crossWrite p src dst w cut) s

/-- CROSSING_WORD_READABLE (R28). -/
def execCrossingWordReadable (t : Nat) (p : Plane) (src dst : Nat) (s : State) : Host.Outcome State Fault Refusal :=
  runChip t (fun (c : Chip) => c.crossReadable p src dst) s

/-- CROSSING_SPACE_FREED (R22): the destination takes a word, and a waiting producer writes. -/
def execCrossingSpaceFreed (t : Nat) (p : Plane) (src dst : Nat) (s : State) : Host.Outcome State Fault Refusal :=
  runChip t (fun (c : Chip) => c.crossTake p src dst) s

/-- FAULT_REPORT (R26, R396). -/
def execFaultReport (t : Nat) (s : State) : Host.Outcome State Fault Refusal := runChip t Chip.faultReport s

/-- FAULT_TC_DECISION (R26): TC takes further actions of the FAULT table, as a mask. -/
def execFaultTcDecision (t actions : Nat) (s : State) : Host.Outcome State Fault Refusal :=
  runChip t (fun (c : Chip) => c.tcDecision actions) s

/-- ISLAND_RESET_WRITE (R30, R35, R37, R56). -/
def execIslandResetWrite (t : Nat) (i : Initiator) (mask : Nat) (s : State) : Host.Outcome State Fault Refusal :=
  runWrite t i R.SYS_ISL_RST (BitVec.ofNat 32 (mask % 2 ^ 16)) 0 0 s

/-- ISLAND_LEAVE_RESET (R35, R37, R742). -/
def execIslandLeaveReset (t isl : Nat) (s : State) : Host.Outcome State Fault Refusal := runBoth t (leaveIsland isl) s

/-- SOFT_RESET (R56). -/
def execSoftReset (t : Nat) (i : Initiator) (w : Word) (s : State) : Host.Outcome State Fault Refusal :=
  runWrite t i R.SYS_SOFT_RST w 0 0 s

/-- PTIME_MARKER (R34, R35): the corrections that the islands measure, in taps of 78.125 ps. -/
def execPtimeMarker (t : Nat) (corr : List (Nat × Int)) (s : State) : Host.Outcome State Fault Refusal :=
  runChip t (fun (c : Chip) => c.marker corr) s

/-- MARKER_TIMEOUT (R35). -/
def execMarkerTimeout (t isl : Nat) (s : State) : Host.Outcome State Fault Refusal :=
  runChip t (fun (c : Chip) => c.markerTimeout isl) s

/-- PTIME_LO_READ (R56). -/
def execPtimeLoRead (t : Nat) (i : Initiator) (s : State) : Host.Outcome State Fault Refusal := runRead t i R.SYS_PTIME_LO 0 s

/-- SERVICE_FW_CRASH (R44, R45). -/
def execServiceFwCrash (t : Nat) (s : State) : Host.Outcome State Fault Refusal := runBoth t serviceCrash s

/-- FW_RESTART_DEFERRED_START (R45). -/
def execFwRestartDeferredStart (t : Nat) (s : State) : Host.Outcome State Fault Refusal := runBoth t deferredStart s

/-- RESET_ASSERT (R711). -/
def execResetAssert (t : Nat) (s : State) : Host.Outcome State Fault Refusal := runBoth t resetAssert s

/-- The level of the TRIP_L ball: low from the trip until the restart's cold boot (R710). -/
def Chip.tripBall (c : Chip) : Bool := !c.thm.tripped

/-- What the TAP shifts out for IDCODE (R718): the stepping as SYS_ID has it, the part, the maker, 1. -/
def Chip.idCode (c : Chip) : Word :=
  BitVec.ofNat 32 (bitsOf (c.word R.SYS_ID.addr).toNat 11 8 * 2 ^ 28 + 0x8064 * 2 ^ 12 + 0x2D7 * 2 + 1)

/-- The reset through boundary scan (R56): cold, as SYS_SOFT_RST gives it. In Off and in Deep sleep the TAP is held in reset;
a device that is held in reset already only notes the cause. -/
def scanReset (x : Chip × Store) : Chip × Store :=
  let c := x.1
  if c.pwr.off || c.get F.PWR_STAT_STATE == 3 then x
  else if c.pwr.resetLow || c.thm.tripped then (c.setPwr { c.pwr with cause := c.pwr.cause ||| causeJtag }, x.2)
  else coldReset causeJtag false true false x

/-- BOUNDARY_SCAN_RESET (R56). -/
def execBoundaryScanReset (t : Nat) (s : State) : Host.Outcome State Fault Refusal := runBoth t scanReset s

/-- VAON_RISE (R712): AON powers on with the levels of the I²C address pins. -/
def execVaonRise (t pins : Nat) (s : State) : Host.Outcome State Fault Refusal := runBoth t (vaonRise pins) s

/-- COLD_BOOT (R622). -/
def execColdBoot (t : Nat) (env : BootEnv) (s : State) : Host.Outcome State Fault Refusal := runBoth t (coldBoot env) s

/-- POWER_OFF (R548). -/
def execPowerOff (t : Nat) (s : State) : Host.Outcome State Fault Refusal := runBoth t powerOff s

end Sys2Proof.Machine
end

