-- ==== Sys2Proof/Machine/TkoCmds.lean ====
section
/-!
DEFINITION. Commands of TKO: heartbeats, loss of the partner, decisions, return, fills, standby on the partner.
-/

namespace Sys2Proof.Machine

/-- An event of TKO, in LINK. -/
def runTko (t : Nat) (f : Chip → Chip) (s : State) : Host.Outcome State Fault Refusal := runChip t (inIsland 3 f) s

/-- TKO_ENABLE (R375): a write of TKO_CTRL with EN at 1. -/
def execTkoEnable (t : Nat) (i : Initiator) (w : Word) (s : State) : Host.Outcome State Fault Refusal :=
  runWrite t i R.TKO_CTRL (withField F.TKO_CTRL_EN 1 w) 0 0 s

/-- HB_SEND (R360, R414). -/
def execHbSend (t : Nat) (s : State) : Host.Outcome State Fault Refusal := runTko t Chip.hbSend s

/-- HB_RX (R209, R359, R362, R364 to R368, R374, R375, R377, R381, R399). -/
def execHbRx (t : Nat) (h : Heartbeat) (s : State) : Host.Outcome State Fault Refusal := runTko t (fun (c : Chip) => c.hbRx h) s

/-- PARTNER_LOST (R147, R209, R363, R365 to R368, R373, R375, R377). -/
def execPartnerLost (t : Nat) (s : State) : Host.Outcome State Fault Refusal := runTko t Chip.partnerLost s

/-- TKO_PROCEED (R366 to R368): a write of TKO_DECIDE with ACT 1. -/
def execTkoProceed (t : Nat) (i : Initiator) (w : Word) (s : State) : Host.Outcome State Fault Refusal :=
  runWrite t i R.TKO_DECIDE (withField F.TKO_DECIDE_ACT 1 w) 0 0 s

/-- TKO_VETO (R366): a write of TKO_DECIDE with ACT 2. -/
def execTkoVeto (t : Nat) (i : Initiator) (w : Word) (s : State) : Host.Outcome State Fault Refusal :=
  runWrite t i R.TKO_DECIDE (withField F.TKO_DECIDE_ACT 2 w) 0 0 s

/-- DECISION_TIMEOUT (R366 to R368). -/
def execDecisionTimeout (t : Nat) (s : State) : Host.Outcome State Fault Refusal :=
  runTko t (fun (c : Chip) => c.proceed (fun (deadline : Nat) => decide (deadline ≤ c.now))) s

/-- TKO_JOIN (R383): a write of TKO_CTRL with JOIN at 1. -/
def execTkoJoin (t : Nat) (i : Initiator) (w : Word) (s : State) : Host.Outcome State Fault Refusal :=
  runWrite t i R.TKO_CTRL (withField F.TKO_CTRL_JOIN 1 w) 0 0 s

/-- JOIN_RX (R384): the partner's frontier and first lines. -/
def execJoinRx (t : Nat) (w0 : Int) (firsts : List Int) (s : State) : Host.Outcome State Fault Refusal :=
  runTko t (fun (c : Chip) => c.joinRx w0 firsts) s

/-- RET_REQ_RX (R382). -/
def execRetReqRx (t port : Nat) (earliest : Int) (s : State) : Host.Outcome State Fault Refusal :=
  runTko t (fun (c : Chip) => c.retReqRx port earliest) s

/-- RET_LINE_RX (R382, R384). -/
def execRetLineRx (t mask : Nat) (n : Int) (s : State) : Host.Outcome State Fault Refusal :=
  runTko t (fun (c : Chip) => c.retLineRx mask n) s

/-- FILL_REQ_RX (R349, R376). -/
def execFillReqRx (t port : Nat) (s : State) : Host.Outcome State Fault Refusal := runTko t (fun (c : Chip) => c.fillReqRx port) s

/-- FILL_ACK_RX (R349, R376). -/
def execFillAckRx (t port : Nat) (n : Int) (s : State) : Host.Outcome State Fault Refusal :=
  runTko t (fun (c : Chip) => c.fillAckRx port n) s

/-- FILL_NAK_RX (R349, R376). The reason changes nothing. -/
def execFillNakRx (t port _reason : Nat) (s : State) : Host.Outcome State Fault Refusal :=
  runTko t (fun (c : Chip) => c.fillNakRx port) s

/-- FILL_END_RX (R349, R376). -/
def execFillEndRx (t port : Nat) (earliest : Int) (s : State) : Host.Outcome State Fault Refusal :=
  runTko t (fun (c : Chip) => c.fillEndRx port earliest) s

/-- FILL_RET_RX (R349, R376). -/
def execFillRetRx (t port : Nat) (n : Int) (s : State) : Host.Outcome State Fault Refusal :=
  runTko t (fun (c : Chip) => c.fillRetRx port n) s

/-- FILL_TIMEOUT (R376). -/
def execFillTimeout (t : Nat) (k : Fin 8) (s : State) : Host.Outcome State Fault Refusal :=
  runTko t (fun (c : Chip) => c.fillTimeout k) s

/-- STBY_SW_RX (R377): tile position, operation, line. -/
def execStbySwRx (t p op : Nat) (n : Int) (s : State) : Host.Outcome State Fault Refusal :=
  runTko t (fun (c : Chip) => c.stbySwRx p op n) s

/-- TKO_HB_TS_LO_READ (R386). -/
def execTkoHbTsLoRead (t : Nat) (i : Initiator) (s : State) : Host.Outcome State Fault Refusal := runRead t i R.TKO_HB_TS_LO 0 s

/-- TKO_SW_LO_READ (R386). -/
def execTkoSwLoRead (t : Nat) (i : Initiator) (s : State) : Host.Outcome State Fault Refusal := runRead t i R.TKO_SW_LO 0 s

/-- TKO_RET_LO_READ (R386). -/
def execTkoRetLoRead (t : Nat) (i : Initiator) (s : State) : Host.Outcome State Fault Refusal := runRead t i R.TKO_RET_LO 0 s

end Sys2Proof.Machine
end

