-- ==== Sys2Proof/Machine/TrkCmds.lean ====
section
/-!
DEFINITION. Commands of TRK: line events and what follows from each in the other blocks, position sources, SPEED_REQ.
-/

namespace Sys2Proof.Machine

/-- TRK_ENABLE (R106, R111, R127, R137): a write of TRK_CTRL with EN at 1. -/
def execTrkEnable (t : Nat) (i : Initiator) (w : Word) (s : State) : Host.Outcome State Fault Refusal :=
  runWrite t i R.TRK_CTRL (withField F.TRK_CTRL_EN 1 w) 0 0 s

/-- What follows in the blocks from the issue of line n: parities, ring depth, lines that ports pass, sides that nobody fires,
the mode limit, the parts of a switch that apply here, the guard of a switch that is not ready, activity (R172, R188, R191,
R369, R371, R407, R411, R412, R550, R679). -/
def Chip.lineIssued (was : Chip) (n : Int) (c : Chip) : Chip :=
  let time := ((c.trk.events.head?).map LineEvent.time).getD 0
  let c := if c.trk.bank = was.trk.bank then c else c.parityCheck
  let c := (((c.spanChanged).passLines n).tkoLine n).modeLimitChanged was.fLim n
  (((c.afterIssue n time).calLine n).strGuard).activity

/-- TRK looks at its next line; where it issues it, the blocks hear of it. -/
def Chip.lineEventIssue (c : Chip) : Chip :=
  let d := c.trkIssue Chip.applyIssue
  if d.trk.issued && (!c.trk.issued || d.trk.lastLine != c.trk.lastLine) then Chip.lineIssued c d.trk.lastLine d else d

/-- LINE_EVENT_ISSUE (R119, R121 to R127, R130, R131, R134 to R136, R172, R188, R191). -/
def execLineEventIssue (t : Nat) (s : State) : Host.Outcome State Fault Refusal :=
  runChip t (inIsland 6 Chip.lineEventIssue) s

/-- TRK_SRC_SWITCH (R112, R113): a write of TRK_SRC with SWITCH at 1. -/
def execTrkSrcSwitch (t : Nat) (i : Initiator) (w : Word) (s : State) : Host.Outcome State Fault Refusal :=
  runWrite t i R.TRK_SRC (withField F.TRK_SRC_SWITCH 1 w) 0 0 s

/-- FAB_SAMPLE_TIMEOUT (R112). -/
def execFabSampleTimeout (t : Nat) (s : State) : Host.Outcome State Fault Refusal := runChip t (inIsland 6 Chip.serveTrk) s

/-- NO_SOURCE (R115, R136). -/
def execNoSource (t : Nat) (s : State) : Host.Outcome State Fault Refusal :=
  runChip t (inIsland 6 (fun (c : Chip) => c.noSource.serveSpreq)) s

/-- PLACEMENT_CHECK (R132, R133). -/
def execPlacementCheck (t : Nat) (n : Int) (s : State) : Host.Outcome State Fault Refusal :=
  runChip t (inIsland 6 (fun (c : Chip) => c.placementCheck n)) s

/-- POS_SAMPLE_BROADCAST (R110, R450). -/
def execPosSampleBroadcast (t : Nat) (s : State) : Host.Outcome State Fault Refusal := runChip t (inIsland 6 Chip.broadcast) s

/-- SPEED_REQ_HOLD_END (R136). -/
def execSpeedReqHoldEnd (t : Nat) (s : State) : Host.Outcome State Fault Refusal := runChip t (inIsland 6 Chip.spreqHoldEnd) s

/-- TRK_POS_LO_READ (R138). -/
def execTrkPosLoRead (t : Nat) (i : Initiator) (s : State) : Host.Outcome State Fault Refusal := runRead t i R.TRK_POS_LO 0 s

/-- TRK_LINE_LO_READ (R138). -/
def execTrkLineLoRead (t : Nat) (i : Initiator) (s : State) : Host.Outcome State Fault Refusal := runRead t i R.TRK_LINE_LO 0 s

end Sys2Proof.Machine
end

