-- ==== Sys2Proof/Machine/Dispatch.lean ====
section
/-!
DEFINITION. What each command does: one arm per constructor of Instr, in the order of the table.
-/

namespace Sys2Proof.Machine

def exec (i : Instr) (s : State) : Host.Outcome State Fault Refusal :=
  match i with
  | .registerWrite t ini addr size w hi same errs ues => Sys2Proof.Machine.execRegisterWrite t ini addr size w hi same errs ues s
  | .lockBitWrite t ini b w => Sys2Proof.Machine.execLockBitWrite t ini b w s
  | .crossingWrite t p src dst w cut => Sys2Proof.Machine.execCrossingWrite t p src dst w cut s
  | .crossingWordReadable t p src dst => Sys2Proof.Machine.execCrossingWordReadable t p src dst s
  | .crossingSpaceFreed t p src dst => Sys2Proof.Machine.execCrossingSpaceFreed t p src dst s
  | .faultReport t => Sys2Proof.Machine.execFaultReport t s
  | .faultTcDecision t actions => Sys2Proof.Machine.execFaultTcDecision t actions s
  | .islandResetWrite t ini mask => Sys2Proof.Machine.execIslandResetWrite t ini mask s
  | .islandLeaveReset t isl => Sys2Proof.Machine.execIslandLeaveReset t isl s
  | .softReset t ini w => Sys2Proof.Machine.execSoftReset t ini w s
  | .ptimeMarker t corr => Sys2Proof.Machine.execPtimeMarker t corr s
  | .markerTimeout t isl => Sys2Proof.Machine.execMarkerTimeout t isl s
  | .ptimeLoRead t ini => Sys2Proof.Machine.execPtimeLoRead t ini s
  | .serviceFwCrash t => Sys2Proof.Machine.execServiceFwCrash t s
  | .fwRestartDeferredStart t => Sys2Proof.Machine.execFwRestartDeferredStart t s
  | .encCount t x a b first run => Sys2Proof.Machine.execEncCount t x a b first run s
  | .encIndexEdge t x level run => Sys2Proof.Machine.execEncIndexEdge t x level run s
  | .wireFault t x sig => Sys2Proof.Machine.execWireFault t x sig s
  | .wireRestored t x sig => Sys2Proof.Machine.execWireRestored t x sig s
  | .encEnable t ini x w => Sys2Proof.Machine.execEncEnable t ini x w s
  | .encFaultClear t ini x w => Sys2Proof.Machine.execEncFaultClear t ini x w s
  | .encPosLoRead t ini x => Sys2Proof.Machine.execEncPosLoRead t ini x s
  | .hallEdge t levels run => Sys2Proof.Machine.execHallEdge t levels run s
  | .markEdge t y rising first run => Sys2Proof.Machine.execMarkEdge t y rising first run s
  | .markPosRead t ini y => Sys2Proof.Machine.execMarkPosRead t ini y s
  | .encoStep t => Sys2Proof.Machine.execEncoStep t s
  | .encoRatioWrite t ini w => Sys2Proof.Machine.execEncoRatioWrite t ini w s
  | .cmpEntryPush t ini n w => Sys2Proof.Machine.execCmpEntryPush t ini n w s
  | .cmpEntryReached t n => Sys2Proof.Machine.execCmpEntryReached t n s
  | .cmpPulseEnd t n => Sys2Proof.Machine.execCmpPulseEnd t n s
  | .cmpOutputEnable t ini n w => Sys2Proof.Machine.execCmpOutputEnable t ini n w s
  | .cmpFlush t ini n => Sys2Proof.Machine.execCmpFlush t ini n s
  | .trkEnable t ini w => Sys2Proof.Machine.execTrkEnable t ini w s
  | .lineEventIssue t => Sys2Proof.Machine.execLineEventIssue t s
  | .trkSrcSwitch t ini w => Sys2Proof.Machine.execTrkSrcSwitch t ini w s
  | .fabSampleTimeout t => Sys2Proof.Machine.execFabSampleTimeout t s
  | .noSource t => Sys2Proof.Machine.execNoSource t s
  | .placementCheck t n => Sys2Proof.Machine.execPlacementCheck t n s
  | .posSampleBroadcast t => Sys2Proof.Machine.execPosSampleBroadcast t s
  | .speedReqHoldEnd t => Sys2Proof.Machine.execSpeedReqHoldEnd t s
  | .trkPosLoRead t ini => Sys2Proof.Machine.execTrkPosLoRead t ini s
  | .trkLineLoRead t ini => Sys2Proof.Machine.execTrkLineLoRead t ini s
  | .itemEnqueue t ini wr errs => Sys2Proof.Machine.execItemEnqueue t ini wr errs s
  | .itemPlace t lane => Sys2Proof.Machine.execItemPlace t lane s
  | .markRecordRx t => Sys2Proof.Machine.execMarkRecordRx t s
  | .markMissingNotice t => Sys2Proof.Machine.execMarkMissingNotice t s
  | .partnerPlacementRx t id start => Sys2Proof.Machine.execPartnerPlacementRx t id start s
  | .composeLine t errs => Sys2Proof.Machine.execComposeLine t errs s
  | .cmpEnable t ini w => Sys2Proof.Machine.execCmpEnable t ini w s
  | .cmpDisable t ini w => Sys2Proof.Machine.execCmpDisable t ini w s
  | .cmpFrontLoRead t ini => Sys2Proof.Machine.execCmpFrontLoRead t ini s
  | .cmpAsmLoRead t ini => Sys2Proof.Machine.execCmpAsmLoRead t ini s
  | .lineAssemble t k errs => Sys2Proof.Machine.execLineAssemble t k errs s
  | .modeNotice t => Sys2Proof.Machine.execModeNotice t s
  | .stbyActivate t ini w => Sys2Proof.Machine.execStbyActivate t ini w s
  | .stbyRelease t ini w => Sys2Proof.Machine.execStbyRelease t ini w s
  | .dntWrite t ini w => Sys2Proof.Machine.execDntWrite t ini w s
  | .dntRead t ini => Sys2Proof.Machine.execDntRead t ini s
  | .colSwLoRead t ini => Sys2Proof.Machine.execColSwLoRead t ini s
  | .colReqRx t src tp ic col method => Sys2Proof.Machine.execColReqRx t src tp ic col method s
  | .colAckRx t node tp ic col method ar => Sys2Proof.Machine.execColAckRx t node tp ic col method ar s
  | .colNackRx t node tp ic col method reason => Sys2Proof.Machine.execColNackRx t node tp ic col method reason s
  | .colCommitRx t src tp ic col method own wa => Sys2Proof.Machine.execColCommitRx t src tp ic col method own wa s
  | .colReleaseRx t src tp ic col method => Sys2Proof.Machine.execColReleaseRx t src tp ic col method s
  | .colReqTimeout t idx => Sys2Proof.Machine.execColReqTimeout t idx s
  | .bcLineFrame t k check ltag temps sigs => Sys2Proof.Machine.execBcLineFrame t k check ltag temps sigs s
  | .bcIdleFrame t k check temps => Sys2Proof.Machine.execBcIdleFrame t k check temps s
  | .bcRspFrame t k check status tag data => Sys2Proof.Machine.execBcRspFrame t k check status tag data s
  | .bcEvtFrame t k check code detail => Sys2Proof.Machine.execBcEvtFrame t k check code detail s
  | .bcFrameTimeout t k => Sys2Proof.Machine.execBcFrameTimeout t k s
  | .tempStale t k => Sys2Proof.Machine.execTempStale t k s
  | .nozzleStateWrite t ini w => Sys2Proof.Machine.execNozzleStateWrite t ini w s
  | .nzDataRead t ini => Sys2Proof.Machine.execNzDataRead t ini s
  | .deadFifoRead t ini => Sys2Proof.Machine.execDeadFifoRead t ini s
  | .recordIssue t errs => Sys2Proof.Machine.execRecordIssue t errs s
  | .verdictRx t id flags errs => Sys2Proof.Machine.execVerdictRx t id flags errs s
  | .pvTimeout t errs => Sys2Proof.Machine.execPvTimeout t errs s
  | .arqClaim t ini => Sys2Proof.Machine.execArqClaim t ini s
  | .arqRelease t ini => Sys2Proof.Machine.execArqRelease t ini s
  | .arqRdWrite t ini w => Sys2Proof.Machine.execArqRdWrite t ini w s
  | .shapeWrite t ini ic n second w => Sys2Proof.Machine.execShapeWrite t ini ic n second w s
  | .trimBoundWrite t ini ic w => Sys2Proof.Machine.execTrimBoundWrite t ini ic w s
  | .commitGo t ini w => Sys2Proof.Machine.execCommitGo t ini w s
  | .idleWarmingStart t k => Sys2Proof.Machine.execIdleWarmingStart t k s
  | .warmLineSend t k => Sys2Proof.Machine.execWarmLineSend t k s
  | .lineEventArrival t k => Sys2Proof.Machine.execLineEventArrival t k s
  | .lineTransferStart t k => Sys2Proof.Machine.execLineTransferStart t k s
  | .segmentSend t k => Sys2Proof.Machine.execSegmentSend t k s
  | .fireStrobe t k => Sys2Proof.Machine.execFireStrobe t k s
  | .wdogAct t k high => Sys2Proof.Machine.execWdogAct t k high s
  | .headPresChange t k low => Sys2Proof.Machine.execHeadPresChange t k low s
  | .bringupStart t k => Sys2Proof.Machine.execBringupStart t k s
  | .pgoodRise t k => Sys2Proof.Machine.execPgoodRise t k s
  | .pgoodTimeout t k => Sys2Proof.Machine.execPgoodTimeout t k s
  | .trainStart t k => Sys2Proof.Machine.execTrainStart t k s
  | .trainTimeout t k => Sys2Proof.Machine.execTrainTimeout t k s
  | .cmdAnswerTimeout t k => Sys2Proof.Machine.execCmdAnswerTimeout t k s
  | .headRemoved t k => Sys2Proof.Machine.execHeadRemoved t k s
  | .pgoodLost t k => Sys2Proof.Machine.execPgoodLost t k s
  | .portDownWrite t ini k w => Sys2Proof.Machine.execPortDownWrite t ini k w s
  | .portEnWrite t ini k w => Sys2Proof.Machine.execPortEnWrite t ini k w s
  | .laneAlert t k locked => Sys2Proof.Machine.execLaneAlert t k locked s
  | .retrainWrite t ini k w => Sys2Proof.Machine.execRetrainWrite t ini k w s
  | .laneRetrainTimer t k => Sys2Proof.Machine.execLaneRetrainTimer t k s
  | .laneRetrainEnd t k => Sys2Proof.Machine.execLaneRetrainEnd t k s
  | .bcLockLost t k => Sys2Proof.Machine.execBcLockLost t k s
  | .ping t ini k w => Sys2Proof.Machine.execPing t ini k w s
  | .getStatus t ini k w => Sys2Proof.Machine.execGetStatus t ini k w s
  | .readMem t ini k w => Sys2Proof.Machine.execReadMem t ini k w s
  | .xdataRead t ini k => Sys2Proof.Machine.execXdataRead t ini k s
  | .memDataRead t ini k => Sys2Proof.Machine.execMemDataRead t ini k s
  | .wdogLimitWrite t ini k w => Sys2Proof.Machine.execWdogLimitWrite t ini k w s
  | .tempThresholdWrite t ini k lim w => Sys2Proof.Machine.execTempThresholdWrite t ini k lim w s
  | .headTempTimeout t k => Sys2Proof.Machine.execHeadTempTimeout t k s
  | .ladleRequest t client idx errs => Sys2Proof.Machine.execLadleRequest t client idx errs s
  | .ladleRelease t client idx => Sys2Proof.Machine.execLadleRelease t client idx s
  | .ladleRetry t client idx errs => Sys2Proof.Machine.execLadleRetry t client idx errs s
  | .swGrantRequest t ini w => Sys2Proof.Machine.execSwGrantRequest t ini w s
  | .swGrantRelease t ini w => Sys2Proof.Machine.execSwGrantRelease t ini w s
  | .swGrantBind t ini w => Sys2Proof.Machine.execSwGrantBind t ini w s
  | .tkoEnable t ini w => Sys2Proof.Machine.execTkoEnable t ini w s
  | .hbSend t => Sys2Proof.Machine.execHbSend t s
  | .hbRx t h => Sys2Proof.Machine.execHbRx t h s
  | .partnerLost t => Sys2Proof.Machine.execPartnerLost t s
  | .tkoProceed t ini w => Sys2Proof.Machine.execTkoProceed t ini w s
  | .tkoVeto t ini w => Sys2Proof.Machine.execTkoVeto t ini w s
  | .decisionTimeout t => Sys2Proof.Machine.execDecisionTimeout t s
  | .tkoJoin t ini w => Sys2Proof.Machine.execTkoJoin t ini w s
  | .joinRx t w0 firsts => Sys2Proof.Machine.execJoinRx t w0 firsts s
  | .retReqRx t port earliest => Sys2Proof.Machine.execRetReqRx t port earliest s
  | .retLineRx t mask n => Sys2Proof.Machine.execRetLineRx t mask n s
  | .fillReqRx t port => Sys2Proof.Machine.execFillReqRx t port s
  | .fillAckRx t port n => Sys2Proof.Machine.execFillAckRx t port n s
  | .fillNakRx t port _reason => Sys2Proof.Machine.execFillNakRx t port _reason s
  | .fillEndRx t port earliest => Sys2Proof.Machine.execFillEndRx t port earliest s
  | .fillRetRx t port n => Sys2Proof.Machine.execFillRetRx t port n s
  | .fillTimeout t k => Sys2Proof.Machine.execFillTimeout t k s
  | .stbySwRx t p op n => Sys2Proof.Machine.execStbySwRx t p op n s
  | .strLoad t ini w errs => Sys2Proof.Machine.execStrLoad t ini w errs s
  | .imageCheckDone t errs => Sys2Proof.Machine.execImageCheckDone t errs s
  | .strApprove t ini w => Sys2Proof.Machine.execStrApprove t ini w s
  | .strCancel t ini w => Sys2Proof.Machine.execStrCancel t ini w s
  | .blockReady t block => Sys2Proof.Machine.execBlockReady t block s
  | .strAppliedLoRead t ini => Sys2Proof.Machine.execStrAppliedLoRead t ini s
  | .strCmplineLoRead t ini => Sys2Proof.Machine.execStrCmplineLoRead t ini s
  | .fabPortTrain t p => Sys2Proof.Machine.execFabPortTrain t p s
  | .linkIdRx t p lanes node port cl press => Sys2Proof.Machine.execLinkIdRx t p lanes node port cl press s
  | .fabLaneLost t p lane => Sys2Proof.Machine.execFabLaneLost t p lane s
  | .fabLaneRetry t p locks => Sys2Proof.Machine.execFabLaneRetry t p locks s
  | .fabPortDown t p => Sys2Proof.Machine.execFabPortDown t p s
  | .fabPortRetrain t ini p w => Sys2Proof.Machine.execFabPortRetrain t ini p w s
  | .fabPortDownWrite t ini p w => Sys2Proof.Machine.execFabPortDownWrite t ini p w s
  | .fabAckRx t p lseq nak => Sys2Proof.Machine.execFabAckRx t p lseq nak s
  | .fabFrameForward t source lseq crcOk f => Sys2Proof.Machine.execFabFrameForward t source lseq crcOk f s
  | .topoSend t => Sys2Proof.Machine.execTopoSend t s
  | .topoRx t v => Sys2Proof.Machine.execTopoRx t v s
  | .nodeLost t n => Sys2Proof.Machine.execNodeLost t n s
  | .steered t => Sys2Proof.Machine.execSteered t s
  | .e2eAckRx t src seq full errs => Sys2Proof.Machine.execE2eAckRx t src seq full errs s
  | .e2eTimeout t errs => Sys2Proof.Machine.execE2eTimeout t errs s
  | .itemFragmentRx t src seq start idx last body errs => Sys2Proof.Machine.execItemFragmentRx t src seq start idx last body errs s
  | .bulkFrameRx t unicast src seq start aux xfer last tcrc tstart data errs => Sys2Proof.Machine.execBulkFrameRx t unicast src seq start aux xfer last tcrc tstart data errs s
  | .fabMbxRx t words => Sys2Proof.Machine.execFabMbxRx t words s
  | .fabPosSampleRx t node seq ts pos valid => Sys2Proof.Machine.execFabPosSampleRx t node seq ts pos valid s
  | .fabTxqDescriptor t errs => Sys2Proof.Machine.execFabTxqDescriptor t errs s
  | .timeExchange t => Sys2Proof.Machine.execTimeExchange t s
  | .treqRx t p tseq => Sys2Proof.Machine.execTreqRx t p tseq s
  | .timeDataRx t tseq t2 t3 t4 => Sys2Proof.Machine.execTimeDataRx t tseq t2 t3 t4 s
  | .lpRx t p req ack => Sys2Proof.Machine.execLpRx t p req ack s
  | .beaconRx t p => Sys2Proof.Machine.execBeaconRx t p s
  | .beaconSend t p => Sys2Proof.Machine.execBeaconSend t p s
  | .beaconTxWrite t ini w => Sys2Proof.Machine.execBeaconTxWrite t ini w s
  | .lcRestart t => Sys2Proof.Machine.execLcRestart t s
  | .sqDoorbell t ini q w => Sys2Proof.Machine.execSqDoorbell t ini q w s
  | .sqFetch t room bad => Sys2Proof.Machine.execSqFetch t room bad s
  | .sqErrClear t ini q => Sys2Proof.Machine.execSqErrClear t ini q s
  | .sqEnable t ini q w => Sys2Proof.Machine.execSqEnable t ini q w s
  | .cqEnable t ini n w => Sys2Proof.Machine.execCqEnable t ini n w s
  | .cqWrite t n fail => Sys2Proof.Machine.execCqWrite t n fail s
  | .cqHeadWrite t ini n w => Sys2Proof.Machine.execCqHeadWrite t ini n w s
  | .msixSend t src => Sys2Proof.Machine.execMsixSend t src s
  | .recEnable t ini w => Sys2Proof.Machine.execRecEnable t ini w s
  | .recCopy t n fail errs => Sys2Proof.Machine.execRecCopy t n fail errs s
  | .recHeadWrite t ini w => Sys2Proof.Machine.execRecHeadWrite t ini w s
  | .linkDown t => Sys2Proof.Machine.execLinkDown t s
  | .linkUp t speed width => Sys2Proof.Machine.execLinkUp t speed width s
  | .identify t q => Sys2Proof.Machine.execIdentify t q s
  | .query t q => Sys2Proof.Machine.execQuery t q s
  | .jobOpen t q fail => Sys2Proof.Machine.execJobOpen t q fail s
  | .jobClose t q => Sys2Proof.Machine.execJobClose t q s
  | .loadStatic t q fail errs => Sys2Proof.Machine.execLoadStatic t q fail errs s
  | .loadGlyphs t q fail errs => Sys2Proof.Machine.execLoadGlyphs t q fail errs s
  | .loadGset t q fail errs => Sys2Proof.Machine.execLoadGset t q fail errs s
  | .submitItems t q fail amt errs => Sys2Proof.Machine.execSubmitItems t q fail amt errs s
  | .fabSend t q buf fail errs => Sys2Proof.Machine.execFabSend t q buf fail errs s
  | .tcForward t q => Sys2Proof.Machine.execTcForward t q s
  | .tcForwardTimeout t => Sys2Proof.Machine.execTcForwardTimeout t s
  | .calRun t q => Sys2Proof.Machine.execCalRun t q s
  | .inboxAdmit t amt errs => Sys2Proof.Machine.execInboxAdmit t amt errs s
  | .mbxSend t ini m => Sys2Proof.Machine.execMbxSend t ini m s
  | .mbxAck t ini m => Sys2Proof.Machine.execMbxAck t ini m s
  | .imgLoad t m errs => Sys2Proof.Machine.execImgLoad t m errs s
  | .imgSwitch t m => Sys2Proof.Machine.execImgSwitch t m s
  | .imgCancel t m => Sys2Proof.Machine.execImgCancel t m s
  | .fwStage t m errs => Sys2Proof.Machine.execFwStage t m errs s
  | .fwRestart t m => Sys2Proof.Machine.execFwRestart t m s
  | .power t m => Sys2Proof.Machine.execPower t m s
  | .otpProgram t m => Sys2Proof.Machine.execOtpProgram t m s
  | .otpLock t m => Sys2Proof.Machine.execOtpLock t m s
  | .lifeCycle t m => Sys2Proof.Machine.execLifeCycle t m s
  | .tkoSet t m => Sys2Proof.Machine.execTkoSet t m s
  | .islReset t m => Sys2Proof.Machine.execIslReset t m s
  | .devReset t m => Sys2Proof.Machine.execDevReset t m s
  | .admitRelease t m => Sys2Proof.Machine.execAdmitRelease t m s
  | .i2cReadSysId t addr => Sys2Proof.Machine.execI2cReadSysId t addr s
  | .i2cReadStatus t addr => Sys2Proof.Machine.execI2cReadStatus t addr s
  | .i2cReadRstCause t addr => Sys2Proof.Machine.execI2cReadRstCause t addr s
  | .i2cSetWindow t addr w => Sys2Proof.Machine.execI2cSetWindow t addr w s
  | .i2cWindowRead t addr => Sys2Proof.Machine.execI2cWindowRead t addr s
  | .scratchpadAccess t ini addr op others ecc wait => Sys2Proof.Machine.execScratchpadAccess t ini addr op others ecc wait s
  | .bitSetAliasWrite t ini addr l others ecc wait => Sys2Proof.Machine.execBitSetAliasWrite t ini addr l others ecc wait s
  | .bitClearAliasWrite t ini addr l others ecc wait => Sys2Proof.Machine.execBitClearAliasWrite t ini addr l others ecc wait s
  | .bankOwnerWrite t ini b w => Sys2Proof.Machine.execBankOwnerWrite t ini b w s
  | .grottoWipeGo t ini w => Sys2Proof.Machine.execGrottoWipeGo t ini w s
  | .grottoWipe t => Sys2Proof.Machine.execGrottoWipe t s
  | .ddrEnWrite t ini w => Sys2Proof.Machine.execDdrEnWrite t ini w s
  | .ddrTrainingDone t values eyes => Sys2Proof.Machine.execDdrTrainingDone t values eyes s
  | .ddrAccess t a addr op errs inFlight => Sys2Proof.Machine.execDdrAccess t a addr op errs inFlight s
  | .ddrEccAddrLoRead t ini => Sys2Proof.Machine.execDdrEccAddrLoRead t ini s
  | .scrubBurst t errs => Sys2Proof.Machine.execScrubBurst t errs s
  | .ddrRefresh t => Sys2Proof.Machine.execDdrRefresh t s
  | .dmaGo t ini errs ues => Sys2Proof.Machine.execDmaGo t ini errs ues s
  | .dmaPause t ini => Sys2Proof.Machine.execDmaPause t ini s
  | .dmaPaused t n words errs ues => Sys2Proof.Machine.execDmaPaused t n words errs ues s
  | .dmaAbort t ini => Sys2Proof.Machine.execDmaAbort t ini s
  | .dmaAppend t ini w same errs ues => Sys2Proof.Machine.execDmaAppend t ini w same errs ues s
  | .dmaDescEnd t n errs ues => Sys2Proof.Machine.execDmaDescEnd t n errs ues s
  | .dmaRetry t n errs ues => Sys2Proof.Machine.execDmaRetry t n errs ues s
  | .dmaChSrcLoRead t ini => Sys2Proof.Machine.execDmaChSrcLoRead t ini s
  | .dmaChFaultLoRead t ini => Sys2Proof.Machine.execDmaChFaultLoRead t ini s
  | .pwrRequest t ini target => Sys2Proof.Machine.execPwrRequest t ini target s
  | .pwrCancel t ini => Sys2Proof.Machine.execPwrCancel t ini s
  | .autoIdleEntry t => Sys2Proof.Machine.execAutoIdleEntry t s
  | .autoSleepEntry t => Sys2Proof.Machine.execAutoSleepEntry t s
  | .voterAnswer t flashOk => Sys2Proof.Machine.execVoterAnswer t flashOk s
  | .prepareTimeout t => Sys2Proof.Machine.execPrepareTimeout t s
  | .pwrCommit t ini w => Sys2Proof.Machine.execPwrCommit t ini w s
  | .commitTimeout t => Sys2Proof.Machine.execCommitTimeout t s
  | .pwrEnter t => Sys2Proof.Machine.execPwrEnter t s
  | .wakeSourceLatch t src => Sys2Proof.Machine.execWakeSourceLatch t src s
  | .wakeTimerExpiry t => Sys2Proof.Machine.execWakeTimerExpiry t s
  | .wakeSwWrite t ini => Sys2Proof.Machine.execWakeSwWrite t ini s
  | .wakeStageReady t env => Sys2Proof.Machine.execWakeStageReady t env s
  | .padRelease t ini w => Sys2Proof.Machine.execPadRelease t ini w s
  | .brownout t causes isl fails pulses => Sys2Proof.Machine.execBrownout t causes isl fails pulses s
  | .coldBoot t env => Sys2Proof.Machine.execColdBoot t env s
  | .resetAssert t => Sys2Proof.Machine.execResetAssert t s
  | .thmSample t raw cur vin => Sys2Proof.Machine.execThmSample t raw cur vin s
  | .hardwareTrip t => Sys2Proof.Machine.execHardwareTrip t s
  | .tripRestart t => Sys2Proof.Machine.execTripRestart t s
  | .sensorReadmit t ini mask => Sys2Proof.Machine.execSensorReadmit t ini mask s
  | .otpRead t ini w vpp => Sys2Proof.Machine.execOtpRead t ini w vpp s
  | .program t ini w vpp => Sys2Proof.Machine.execProgram t ini w vpp s
  | .reinforce t ini w vpp => Sys2Proof.Machine.execReinforce t ini w vpp s
  | .lock t ini w vpp => Sys2Proof.Machine.execLock t ini w vpp s
  | .relocate t ini w vpp => Sys2Proof.Machine.execRelocate t ini w vpp s
  | .lcAdvance t ini w vpp => Sys2Proof.Machine.execLcAdvance t ini w vpp s
  | .otpCmdDone t fails pulses => Sys2Proof.Machine.execOtpCmdDone t fails pulses s
  | .tamper t mask => Sys2Proof.Machine.execTamper t mask s
  | .wdogKick t ini w => Sys2Proof.Machine.execWdogKick t ini w s
  | .tcWdogExpiry t => Sys2Proof.Machine.execTcWdogExpiry t s
  | .secDenyLoRead t ini => Sys2Proof.Machine.execSecDenyLoRead t ini s
  | .eventSourceRaise t => Sys2Proof.Machine.execEventSourceRaise t s
  | .eventClaim t ini n => Sys2Proof.Machine.execEventClaim t ini n s
  | .swTrigger t ini w => Sys2Proof.Machine.execSwTrigger t ini w s
  | .xtestGo t ini w => Sys2Proof.Machine.execXtestGo t ini w s
  | .fwEventSubmit t ini w => Sys2Proof.Machine.execFwEventSubmit t ini w s
  | .routeWrite t ini w => Sys2Proof.Machine.execRouteWrite t ini w s
  | .eventRecord t => Sys2Proof.Machine.execEventRecord t s
  | .recordClose t => Sys2Proof.Machine.execRecordClose t s
  | .rateWindowClose t => Sys2Proof.Machine.execRateWindowClose t s
  | .phaseChange t ini w => Sys2Proof.Machine.execPhaseChange t ini w s
  | .holdFlush t => Sys2Proof.Machine.execHoldFlush t s
  | .mirrorWrite t ok => Sys2Proof.Machine.execMirrorWrite t ok s
  | .hqDeliver t => Sys2Proof.Machine.execHqDeliver t s
  | .hqHeadWrite t ini w => Sys2Proof.Machine.execHqHeadWrite t ini w s
  | .fabEventRx t record src => Sys2Proof.Machine.execFabEventRx t record src s
  | .linkDeskew t ini w => Sys2Proof.Machine.execLinkDeskew t ini w s
  | .bcPhase t ini w => Sys2Proof.Machine.execBcPhase t ini w s
  | .fireTrim t ini w => Sys2Proof.Machine.execFireTrim t ini w s
  | .tickTrim t ini w => Sys2Proof.Machine.execTickTrim t ini w s
  | .encThr t ini w => Sys2Proof.Machine.execEncThr t ini w s
  | .fabEq t ini w => Sys2Proof.Machine.execFabEq t ini w s
  | .ddrTrack t ini w => Sys2Proof.Machine.execDdrTrack t ini w s
  | .sensOfs t ini w => Sys2Proof.Machine.execSensOfs t ini w s
  | .calInputPresent t => Sys2Proof.Machine.execCalInputPresent t s
  | .calPrecondCheck t => Sys2Proof.Machine.execCalPrecondCheck t s
  | .calSweepEnd t sweep => Sys2Proof.Machine.execCalSweepEnd t sweep s
  | .calAbort t ini => Sys2Proof.Machine.execCalAbort t ini s
  | .calTimeout t => Sys2Proof.Machine.execCalTimeout t s
  | .calValueWrite t ini w => Sys2Proof.Machine.execCalValueWrite t ini w s
  | .tkoHbTsLoRead t ini => Sys2Proof.Machine.execTkoHbTsLoRead t ini s
  | .tkoSwLoRead t ini => Sys2Proof.Machine.execTkoSwLoRead t ini s
  | .tkoRetLoRead t ini => Sys2Proof.Machine.execTkoRetLoRead t ini s
  | .bcSymbolLock t k => Sys2Proof.Machine.execBcSymbolLock t k s
  | .applicationPoint t => Sys2Proof.Machine.execApplicationPoint t s
  | .pcieConfigWrite t bme dstate msixEn msixMask => Sys2Proof.Machine.execPcieConfigWrite t bme dstate msixEn msixMask s
  | .fabCreditRx t p amounts => Sys2Proof.Machine.execFabCreditRx t p amounts s
  | .boundaryScanReset t => Sys2Proof.Machine.execBoundaryScanReset t s
  | .vaonRise t pins => Sys2Proof.Machine.execVaonRise t pins s
  | .powerOff t => Sys2Proof.Machine.execPowerOff t s

end Sys2Proof.Machine
end

