-- ==== Sys2Proof/Safety.lean ====
section
/-!
DEFINITION. What every step is to keep, in the terms the statements use: the memories and the fuse array stay in their canonical form, and
fuses only ever blow.
-/

namespace Sys2Proof.Machine

/-- A memory whose unlisted bytes read as d is in canonical form: addresses strictly rising, no entry that reads as an unlisted one. -/
abbrev Memory.wf (d : Byte) (m : List Host.Cell) : Prop := SparseWf (fun _ => d) m

/-- Every memory and the fuse array are in canonical form. -/
abbrev Store.wf (m : Store) : Prop :=
  Memory.wf memDefault m.mem ∧ Memory.wf flashDefault m.flash ∧ Memory.wf memDefault m.host ∧
    SparseWf (fun _ => (0 : Word)) m.fuseN ∧ SparseWf (fun _ => (0 : Word)) m.fuseT

/-- The register file and the copies in force are in canonical form. -/
abbrev Chip.regsWf (c : Chip) : Prop := SparseWf resetWord c.regs ∧ SparseWf resetWord c.force

/-- Every fuse bit that reads 1 in the first array reads 1 in the second, at normal and at tight margin (R594, R595, R604). -/
def Store.fusesKept (m m' : Store) : Prop :=
  ∀ row k : Nat, (bitAt (m.rawN row) k = true → bitAt (m'.rawN row) k = true) ∧
    (bitAt (m.rawT row) k = true → bitAt (m'.rawT row) k = true)

/-- The parts of the chip beside its registers. -/
inductive Part where
  | now | force | latch | dirty | answer | sent | sys | ev | str | sec | fab | pos | trk | cmp | col
  | asm | flw | hp | nzh | tko | mem | ldl | hst | fw | dma | pwr | thm | otp | cal | deniedAt
  deriving DecidableEq, Repr

/-- A part of the chip is the same in both. -/
def Part.kept (c d : Chip) : Part → Prop
  | .now => d.now = c.now
  | .force => d.force = c.force
  | .latch => d.latch = c.latch
  | .dirty => d.dirty = c.dirty
  | .answer => d.answer = c.answer
  | .sent => d.sent = c.sent
  | .sys => d.sys = c.sys
  | .ev => d.ev = c.ev
  | .str => d.str = c.str
  | .sec => d.sec = c.sec
  | .fab => d.fab = c.fab
  | .pos => d.pos = c.pos
  | .trk => d.trk = c.trk
  | .cmp => d.cmp = c.cmp
  | .col => d.col = c.col
  | .asm => d.asm = c.asm
  | .flw => d.flw = c.flw
  | .hp => d.hp = c.hp
  | .nzh => d.nzh = c.nzh
  | .tko => d.tko = c.tko
  | .mem => d.mem = c.mem
  | .ldl => d.ldl = c.ldl
  | .hst => d.hst = c.hst
  | .fw => d.fw = c.fw
  | .dma => d.dma = c.dma
  | .pwr => d.pwr = c.pwr
  | .thm => d.thm = c.thm
  | .otp => d.otp = c.otp
  | .cal => d.cal = c.cal
  | .deniedAt => d.deniedAt = c.deniedAt

/-- Nothing of chip c differs in d but the parts and the registers named. -/
def Chip.Only (parts : List Part) (regs : Set Nat) (c d : Chip) : Prop :=
  (∀ p : Part, p ∉ parts → p.kept c d) ∧ ∀ a : Nat, a ∉ regs → d.word a = c.word a

/-- What a command at press time t leaves: the queue, the memories and the fuses, and every part and register of the chip but those
named. Press time is at t or, where it was later already, where it was. -/
def Leaves (t : Nat) (parts : List Part) (regs : Set Nat) (s u : State) : Prop :=
  u.pending = s.pending ∧ u.store = s.store ∧ (s.chip.at t).Only parts regs u.chip

/-- As Leaves, of a command that may write the memories or the fuses. -/
def LeavesChip (t : Nat) (parts : List Part) (regs : Set Nat) (s u : State) : Prop :=
  u.pending = s.pending ∧ (s.chip.at t).Only parts regs u.chip

/-- The events that have been raised between c and d: code and detail values with their widths in bytes, first to last (R636). -/
def Chip.Raised (c d : Chip) (l : List (Nat × List (Nat × Nat))) : Prop :=
  d.ev = (l.foldl (fun (c : Chip) (e : Nat × List (Nat × Nat)) => c.emit e.1 e.2) c).ev

/-- Initiator i may write the register at an address: the port is present, the island is up, i has the right to write in the block's
window, and a register that TC alone writes is written by TC (R3, R32, R46 to R49). -/
abbrev Chip.mayWrite (c : Chip) (i : Initiator) (addr : Nat) : Prop :=
  c.absent addr = false ∧ c.up (islandOf (blockOf addr)) = true ∧ blockRight i (blockOf addr) = 2 ∧ (tcOnly addr = true → i = .tc)

/-- Initiator i may read the register at an address. -/
abbrev Chip.mayRead (c : Chip) (i : Initiator) (addr : Nat) : Prop :=
  c.absent addr = false ∧ c.up (islandOf (blockOf addr)) = true ∧ blockRight i (blockOf addr) ≠ 0

/-- What a software write at press time t leaves: as Leaves, but for the answer of the bus, which is done, and the note of the last
write, by which a collision in the same cycle is found (R50). -/
def WriteLeaves (t : Nat) (i : Initiator) (addr : Nat) (parts : List Part) (regs : Set Nat) (s u : State) : Prop :=
  Leaves t (.answer :: .sys :: parts) regs s u ∧ u.chip.answer = .done ∧
    u.chip.sys = { s.chip.sys with lastWrite := some (addr, i) }

/-- What a software read at press time t leaves: as Leaves, but for the answer of the bus, which is the data. -/
def ReadLeaves (t : Nat) (w : Nat) (parts : List Part) (regs : Set Nat) (s u : State) : Prop :=
  Leaves t (.answer :: parts) regs s u ∧ u.chip.answer = .data (BitVec.ofNat 32 w)

/-- The registers of a block. -/
def blockRegsSet (id : Nat) : Set Nat := { a | 0x10000000 + id * 0x10000 ≤ a ∧ a < 0x10000000 + (id + 1) * 0x10000 }

/-- The bus answered with a word of data. -/
def BusAnswer.isData : BusAnswer → Bool
  | .data _ => true
  | _ => false

/-- The address of an ordinary register, away from the MSI-X table and its pending bits. -/
def ordinary (a : Nat) : Bool :=
  decide (0x10000000 ≤ a) && decide (a < 0x10200000) && decide (a % 4 = 0) && !inMsixTable a && !inMsixPba a

/-- The counter in which a block counts the writes that it ignores (R13). -/
def rejectCounter (a : Nat) : Option (Place × Nat) :=
  if 0x10 ≤ blockOf a ∧ blockOf a < 0x18 then some (F.HP_REJ_CNT_COUNT, blockOf a - 0x10)
  else (rejPlace (blockOf a)).map (fun (p : Place) => (p, 0))

/-- Senders and receivers of the eight mailboxes (R485). -/
def mailboxSenders : List (List Initiator) := [[.jc0, .jc1], [.tc], [.lc], [.tc], [.host], [.tc], [.jc0, .jc1], [.lc]]
def mailboxReceivers : List (List Initiator) := [[.tc], [.jc0, .jc1], [.tc], [.lc], [.tc], [.host], [.lc], [.jc0, .jc1]]

/-- The item that a queue slot's header spells (R142, R150). -/
def headerItem (slot : Nat) (l : List Nat) : Item :=
  { slot := slot, id := descId l, job := descJob l, lane := descLane l, anchor := descAnchor l, startField := descStart l
    lines := descLines l, flags := if descForce l then 2 ^ flagForce else 0 }

/-- HST and firmware after command h, the only one held, has completed with a status and two results (R471, R481). -/
def Chip.completed (c : Chip) (h : HostCmd) (status r0 r1 : Nat) : HstSt :=
  { c.hst with cmds := [], comps := c.hst.comps ++ [⟨c.get F.HST_SQ_CFG_CQ h.sq, fieldLE h.entry 2 2, h.sq, status, r0 % 2 ^ 32, r1 % 2 ^ 32, h.head⟩] }

/-- TC has taken the message of mailbox m and answered it in mailbox m + 1 (R487). -/
def Chip.TcAnswered (d : Chip) (m tag status : Nat) (l : List Nat) : Prop :=
  d.on F.MBXM_CTRL_FULL m = false ∧ d.on F.MBXM_CTRL_FULL (m + 1) = true ∧ d.get F.MBX_MSG_DATA (m + 1) 0 = status + tag * 256 + l.length * 65536 ∧
    ∀ k, k < l.length → d.get F.MBX_MSG_DATA (m + 1) (k + 1) = l.getD k 0

/-- The registers that TC writes where it takes a message of mailbox m and answers it in mailbox m + 1 (R485, R487). -/
def answerRegs (m : Nat) : Set Nat :=
  {F.MBXM_CTRL_FULL.at m 0, F.MBXM_CTRL_FULL.at (m + 1) 0} ∪ { a | ∃ w : Fin 16, a = R.MBX_MSG.at (m + 1) w }

end Sys2Proof.Machine
end

