-- ==== Sys2Proof/Certificates/Slice0/Obligations.lean ====
section
/-!
DEFINITION. The statements for the provers, family by family of the command table. Each clause that speaks of a command says where it
runs to a next state and what that state is; what it does not name is left as it was.
-/

open Sys2Proof Sys2Proof.Machine

/-- Crossings between islands (R22, R23, R28, R29, R31). A word written while there is room goes to the end, not yet readable; the data plane
waits for room; the management plane drops its oldest word and counts it, and so does the sump of an island that is down; the control plane
waits, sets the writer's overrun bit and raises its event. A word becomes readable oldest first. Taking the oldest readable word lets a
waiting producer write into the space. The model's own choices in this: entries 5, 10 of the log. -/
def Obligations.CrossingsCarryWords : Prop :=
  (∀ (t : Nat) (p : Plane) (src dst w : Nat) (s : State), s.chip.up src = true → s.chip.up dst = true →
    (s.chip.crossing p src dst).words.length < depthOf p src dst → (s.chip.crossing p src dst).waiting = [] →
    ∃ u, exec (.crossingWrite t p src dst w false) s = .next u ∧ Leaves t [.sys] ∅ s u ∧
      u.chip.sys = { s.chip.sys with crossings := u.chip.sys.crossings } ∧
      u.chip.crossing p src dst =
        { s.chip.crossing p src dst with words := (s.chip.crossing p src dst).words ++ [(w, false)] } ∧
      ∀ q a b, ¬ (q = p ∧ a = src ∧ b = dst) → u.chip.crossing q a b = s.chip.crossing q a b) ∧
  (∀ (t src dst w : Nat) (s : State), s.chip.up src = true → s.chip.up dst = true →
    depthOf .data src dst ≤ (s.chip.crossing .data src dst).words.length →
    ∃ u, exec (.crossingWrite t .data src dst w false) s = .next u ∧ Leaves t [.sys] ∅ s u ∧
      u.chip.crossing .data src dst =
        { s.chip.crossing .data src dst with waiting := (s.chip.crossing .data src dst).waiting ++ [w] }) ∧
  (∀ (t src dst w : Nat) (s : State), s.chip.up src = true → s.chip.up dst = true →
    depthOf .management src dst ≤ (s.chip.crossing .management src dst).words.length →
    ∃ u, exec (.crossingWrite t .management src dst w false) s = .next u ∧
      Leaves t [.sys] {F.SYS_SUMP_DROP_COUNT.addr} s u ∧
      u.chip.crossing .management src dst =
        { s.chip.crossing .management src dst with words := (s.chip.crossing .management src dst).words.drop 1 ++ [(w, false)] } ∧
      u.chip.get F.SYS_SUMP_DROP_COUNT = (s.chip.get F.SYS_SUMP_DROP_COUNT + 1) % 2 ^ 32) ∧
  (∀ (t src dst w : Nat) (s : State), s.chip.up src = true → s.chip.up dst = true →
    depthOf .control src dst ≤ (s.chip.crossing .control src dst).words.length →
    ∃ u, exec (.crossingWrite t .control src dst w false) s = .next u ∧
      Leaves t [.sys, .ev] {F.SYS_CTRL_OVR_OVERRUN.addr} s u ∧
      u.chip.crossing .control src dst =
        { s.chip.crossing .control src dst with waiting := (s.chip.crossing .control src dst).waiting ++ [w] } ∧
      u.chip.get F.SYS_CTRL_OVR_OVERRUN = (s.chip.get F.SYS_CTRL_OVR_OVERRUN ||| 2 ^ src) % 2 ^ 16 ∧
      (s.chip.at t).Raised u.chip [(0x0003, [])]) ∧
  (∀ (t src dst w : Nat) (p : Plane) (a b : List (Nat × Bool)) (s : State), (s.chip.crossing p src dst).words = a ++ (w, false) :: b → (∀ x ∈ a, x.2 = true) →
    ∃ u, exec (.crossingWordReadable t p src dst) s = .next u ∧ Leaves t [.sys] ∅ s u ∧
      u.chip.crossing p src dst = { s.chip.crossing p src dst with words := a ++ (w, true) :: b } ∧
      ∀ q x y, ¬ (q = p ∧ x = src ∧ y = dst) → u.chip.crossing q x y = s.chip.crossing q x y) ∧
  (∀ (t src dst w v : Nat) (p : Plane) (r : List (Nat × Bool)) (ws : List Nat) (s : State), s.chip.up dst = true → (s.chip.crossing p src dst).words = (w, true) :: r →
    (s.chip.crossing p src dst).waiting = v :: ws →
    ∃ u, exec (.crossingSpaceFreed t p src dst) s = .next u ∧ Leaves t [.sys] ∅ s u ∧
      u.chip.crossing p src dst = { s.chip.crossing p src dst with words := r ++ [(v, false)], waiting := ws }) ∧
  (∀ (t src dst w : Nat) (p : Plane) (r : List (Nat × Bool)) (s : State), s.chip.up dst = true → (s.chip.crossing p src dst).words = (w, true) :: r →
    (s.chip.crossing p src dst).waiting = [] →
    ∃ u, exec (.crossingSpaceFreed t p src dst) s = .next u ∧ Leaves t [.sys] ∅ s u ∧
      u.chip.crossing p src dst = { s.chip.crossing p src dst with words := r })

/-- The fault manager (R26, R396): with TRUST up, the oldest report gets the actions of its code's FAULT entry, TC alone where there is none;
TC's decision gives the oldest event that waits for it further actions. Stated for the actions that act on the fault manager's own state:
bit 0 the event waits for TC, bit 3 admission is held, bit 5 an MSI-X is due for the event's home source. The model's own choices in this:
entry 23 of the log. -/
def Obligations.FaultManagerActs : Prop :=
  (∀ (t a : Nat) (e : Event) (r : List Event) (s : State), s.chip.up 1 = true → s.chip.ev.faultIn = e :: r →
    a = (((s.chip.str.img.fault.find? (fun (x : Nat × Nat) => x.1 == e.code)).map Prod.snd).getD 1) →
    bitAt a 1 = false → bitAt a 2 = false → bitAt a 4 = false →
    ∃ u, exec (.faultReport t) s = .next u ∧ Leaves t [.ev, .sys] ∅ s u ∧
      u.chip.ev.faultIn = r ∧
      u.chip.ev.tcPend = s.chip.ev.tcPend ++ (if bitAt a 0 then [e] else []) ∧
      u.chip.ev.msixDue = s.chip.ev.msixDue ++
        (if bitAt a 5 ∧ homeSource e.code (e.detail.headD 0) ∉ s.chip.ev.msixDue then [homeSource e.code (e.detail.headD 0)] else []) ∧
      u.chip.sys = { s.chip.sys with holdAdmit := s.chip.sys.holdAdmit || bitAt a 3 }) ∧
  (∀ (t a : Nat) (e : Event) (r : List Event) (s : State), s.chip.sys.tcUp = true → s.chip.ev.tcPend = e :: r →
    bitAt a 1 = false → bitAt a 2 = false → bitAt a 4 = false →
    ∃ u, exec (.faultTcDecision t a) s = .next u ∧ Leaves t [.ev, .sys] ∅ s u ∧
      u.chip.ev.tcPend = r ∧ u.chip.ev.faultIn = s.chip.ev.faultIn ∧
      u.chip.ev.msixDue = s.chip.ev.msixDue ++
        (if bitAt a 5 ∧ homeSource e.code (e.detail.headD 0) ∉ s.chip.ev.msixDue then [homeSource e.code (e.detail.headD 0)] else []) ∧
      u.chip.sys = { s.chip.sys with holdAdmit := s.chip.sys.holdAdmit || bitAt a 3 }) ∧
  (∀ (t : Nat) (s : State), s.chip.ev.faultIn = [] → exec (.faultReport t) s = .next { s with chip := s.chip.at t })

/-- Press-time markers (R34, R35). An island that is up, AON and POS apart, and measures a correction out of tolerance clears its TIME_VALID
bit; one within tolerance whose marker before was good sets it. No marker for twice the period clears the bit of every such island. Reading
SYS_PTIME_LO gives the low word of press time in ns and captures the high word (R56). The model's own choices in this: entries 2, 17 of the
log. -/
def Obligations.PressTimeMarkers : Prop :=
  (∀ (t k : Nat) (corr : List (Nat × Int)) (s : State), s.chip.up 6 = true → k < 16 → k ≠ 0 → k ≠ 6 → s.chip.up k = true →
    ∃ u, exec (.ptimeMarker t corr) s = .next u ∧ Leaves t [.sys, .ev] {F.SYS_ISL_STAT_TIME_VALID.addr} s u ∧
      u.chip.sys.lastMarker = u.chip.now ∧
      (withinTolerance s.chip k (((corr.find? (fun (e : Nat × Int) => e.1 == k)).map Prod.snd).getD 0) = false →
        u.chip.timeValid k = false) ∧
      (withinTolerance s.chip k (((corr.find? (fun (e : Nat × Int) => e.1 == k)).map Prod.snd).getD 0) = true →
        u.chip.timeValid k = (s.chip.timeValid k || decide (1 ≤ s.chip.sys.goodMarkers.toList.getD k 0)))) ∧
  (∀ (t k : Nat) (s : State), k < 16 → k ≠ 0 → k ≠ 6 → s.chip.up k = true →
    s.chip.sys.lastMarker + ns (2 * s.chip.get F.SYS_TMK_PERIOD_PERIOD) ≤ max s.chip.now t → s.chip.timeValid k = true →
    ∃ u, exec (.markerTimeout t k) s = .next u ∧ Leaves t [.sys, .ev] {F.SYS_ISL_STAT_TIME_VALID.addr} s u ∧
      u.chip.timeValid k = false ∧ (∀ j, j < 16 → j ≠ k → u.chip.timeValid j = s.chip.timeValid j) ∧
      u.chip.ev.recs = s.chip.ev.recs ++ [⟨0x0001, u.chip.nowNs, s.chip.timeValid 0, [k, 1, 0, 0], false, false, none⟩]) ∧
  (∀ (t : Nat) (i : Initiator) (s : State), s.chip.up 0 = true →
    ∃ u, exec (.ptimeLoRead t i) s = .next u ∧ ReadLeaves t (u.chip.nowNs % 2 ^ 32) [.latch] ∅ s u ∧
      u.chip.captured R.SYS_PTIME_HI.addr = u.chip.nowNs / 2 ^ 32 % 2 ^ 32)

/-- A register write of software (R8 to R13, R32, R46 to R49), for the registers of OTP, THM, EVR and PAD whose write does nothing but fill
their fields, while no calibration run holds a field and no switch is pending. A field that is RW, or RW-X with XPERT_EN set, takes a value
in its range; a value out of range, and an RW-X field while XPERT_EN is 0, is left as it was; a W1C bit written 1 clears; bits outside the
fields stay. Where the initiator has no right the write is refused and captured; where the island is down it is a bus error. The model's own
choices in this: entries 12, 14 of the log. -/
def Obligations.RegisterWriteFillsFields : Prop :=
  (∀ (t : Nat) (i : Initiator) (addr : Nat) (w hi : Word) (errs : List DdrError) (ues : List Nat) (d : RegDef) (n m : Nat) (s : State),
    regWhere addr = some (d, n, m) → s.chip.mayWrite i addr → addr % 4 = 0 → s.chip.switchState = 0 → s.chip.calBusy = false →
    (blockOf addr = 0x02 ∧ d.is R.OTP_CMD = false ∨ blockOf addr = 0x07 ∧ d.is R.THM_STAT = false ∨
      blockOf addr = 0x03 ∧ d.is R.EVR_CTRL = false ∧ d.is R.EVR_MIR_POS = false ∨ blockOf addr = 0x1D ∧ d.is R.PAD_HOLD_REL = false) →
    ∃ u, exec (.registerWrite t i addr 4 w hi false errs ues) s = .next u ∧
      WriteLeaves t i addr [] {a | a = addr ∨ ∃ p, rejPlace (blockOf addr) = some p ∧ a = p.addr} s u ∧
      (∀ f ∈ d.fields,
        (f.acc = .rw ∨ f.acc = .rwx ∧ s.chip.xpert addr = true →
          bitsOf (u.chip.word addr).toNat f.hi f.lo =
            if f.min ≤ bitsOf w.toNat f.hi f.lo ∧ bitsOf w.toNat f.hi f.lo ≤ f.max then bitsOf w.toNat f.hi f.lo
            else bitsOf (s.chip.word addr).toNat f.hi f.lo) ∧
        (f.acc = .rwx ∧ s.chip.xpert addr = false →
          bitsOf (u.chip.word addr).toNat f.hi f.lo = bitsOf (s.chip.word addr).toNat f.hi f.lo) ∧
        (f.acc = .w1c → f.hi = f.lo → bitAt (u.chip.word addr).toNat f.lo = (bitAt (s.chip.word addr).toNat f.lo && !bitAt w.toNat f.lo))) ∧
      (∀ k, k < 32 → (∀ f ∈ d.fields, k < f.lo ∨ f.hi < k) → bitAt (u.chip.word addr).toNat k = bitAt (s.chip.word addr).toNat k)) ∧
  (∀ (t : Nat) (i : Initiator) (addr : Nat) (w hi : Word) (s : State), ordinary addr = true → s.chip.absent addr = false →
    s.chip.up (islandOf (blockOf addr)) = false →
    ∃ u, exec (.registerWrite t i addr 4 w hi false [] []) s = .next u ∧ u.chip.answer = .busError ∧
      u.chip.regs = s.chip.regs ∧ u.store = s.store ∧ u.pending = s.pending) ∧
  (∀ (t : Nat) (i : Initiator) (addr : Nat) (w hi : Word) (s : State), ordinary addr = true → regWhere addr ≠ none →
    s.chip.absent addr = false → s.chip.up (islandOf (blockOf addr)) = true → i ≠ .host →
    blockRight i (blockOf addr) < 2 ∨ (tcOnly addr = true ∧ i ≠ .tc) → worksIn addr = false → blockOf addr ≠ 0x1A → blockOf addr ≠ 0x0F →
    ∃ u, exec (.registerWrite t i addr 4 w hi false [] []) s = .next u ∧ u.chip.answer = .busError ∧
      Leaves t [.answer, .ev, .deniedAt] {F.SEC_DENY_LO_ADDR.addr, R.SEC_DENY_HI.addr, F.SEC_DENY_CNT_COUNT.addr} s u ∧
      (u.chip.word F.SEC_DENY_LO_ADDR.addr).toNat = addr ∧
      u.chip.get F.SEC_DENY_CNT_COUNT = satNat (F.SEC_DENY_CNT_COUNT.hi + 1 - F.SEC_DENY_CNT_COUNT.lo) (s.chip.get F.SEC_DENY_CNT_COUNT + 1))

/-- Locked and expert fields (R12, R13). No control register of STR, SEC and DDR holds an RWL field itself: setting its LOCK bit writes that
register alone, whose other fields take the same word. LOCK then stays 1 under any write, and a write to an RWL field of a locked block, or
to an RWX field while XPERT_EN is 0, is done without a bus error, leaves the field as it is and is counted once. For DDR_CTRL the word keeps
EN as it is. -/
def Obligations.LockedFieldsIgnoreWrites : Prop :=
  (∀ (t : Nat) (i : Initiator) (w : Word) (s : State), s.chip.mayWrite i R.STR_CTRL.addr → s.chip.fw.calCmd = none → s.chip.switchState = 0 → s.chip.calBusy = false →
    ∃ u, exec (.lockBitWrite t i 0 w) s = .next u ∧ WriteLeaves t i R.STR_CTRL.addr [] {R.STR_CTRL.addr} s u ∧
      u.chip.on F.STR_CTRL_LOCK = true ∧ (u.chip.word R.STR_CTRL.addr).toNat % 2 = w.toNat % 2) ∧
  (∀ (t : Nat) (i : Initiator) (w : Word) (s : State), s.chip.mayWrite i R.DDR_CTRL.addr → fld F.DDR_CTRL_EN w.toNat = s.chip.get F.DDR_CTRL_EN → s.chip.switchState = 0 → s.chip.calBusy = false →
    ∃ u, exec (.lockBitWrite t i 1 w) s = .next u ∧ WriteLeaves t i R.DDR_CTRL.addr [] {R.DDR_CTRL.addr} s u ∧
      u.chip.on F.DDR_CTRL_LOCK = true ∧ u.chip.get F.DDR_CTRL_EN = s.chip.get F.DDR_CTRL_EN ∧ (u.chip.word R.DDR_CTRL.addr).toNat % 2 = w.toNat % 2) ∧
  (∀ (t : Nat) (i : Initiator) (w : Word) (s : State), s.chip.mayWrite i R.SEC_CTRL.addr → s.chip.switchState = 0 → s.chip.calBusy = false →
    ∃ u, exec (.lockBitWrite t i 2 w) s = .next u ∧ WriteLeaves t i R.SEC_CTRL.addr [] {R.SEC_CTRL.addr} s u ∧
      u.chip.on F.SEC_CTRL_LOCK = true ∧ (u.chip.word R.SEC_CTRL.addr).toNat % 2 = w.toNat % 2) ∧
  (∀ (t a : Nat) (i : Initiator) (w hi : Word) (s : State), s.chip.mayWrite i a → a = R.STR_CTRL.addr ∨ a = R.SEC_CTRL.addr ∨ a = R.DDR_CTRL.addr → s.chip.lockedBlock a = true →
    ∃ u, exec (.registerWrite t i a 4 w hi false [] []) s = .next u ∧ u.chip.lockedBlock a = true) ∧
  (∀ (t a n m k : Nat) (i : Initiator) (w hi : Word) (d : RegDef) (f : FieldDef) (q : Place) (s : State), s.chip.mayWrite i a → ordinary a = true → regWhere a = some (d, n, m) → f ∈ d.fields →
    f.acc = .rwl ∧ s.chip.lockedBlock a = true ∨ f.acc = .rwx ∧ s.chip.xpert a = false → rejectCounter a = some (q, k) →
    ∃ u, exec (.registerWrite t i a 4 w hi false [] []) s = .next u ∧ u.chip.answer = .done ∧ bitsOf (u.chip.word a).toNat f.hi f.lo = bitsOf (s.chip.word a).toNat f.hi f.lo ∧
      u.chip.get q k = satNat (q.hi + 1 - q.lo) (s.chip.get q k + 1))

/-- Island resets (R30, R35, R37, R56). TC's write of one island's bit takes that island down: it is no longer up, its registers are at their
reset values, no crossing from it holds a word and its press time is not valid, and ISLAND_RESET is recorded. Bits of AON and TRUST do
nothing. When the island leaves reset it is up; with no active image nothing else of its registers moves. The model's own choices in this:
entries 22, 168 of the log. -/
def Obligations.IslandResets : Prop :=
  (∀ (t isl : Nat) (s : State), 2 ≤ isl → isl < 16 → s.chip.up 0 = true → s.chip.up isl = true →
    ∃ u, exec (.islandResetWrite t .tc (2 ^ isl)) s = .next u ∧ u.pending = s.pending ∧ u.store = s.store ∧ u.chip.up isl = false ∧
      bitAt u.chip.sys.inReset isl = true ∧ u.chip.timeValid isl = false ∧
      (∀ a : Nat, 0x10000000 ≤ a ∧ a < 0x10200000 ∧ islandOf (blockOf a) = isl ∧ a ≠ F.HST_SUBSYS_SUBSYS.addr → u.chip.word a = resetWord a) ∧
      (∀ x ∈ u.chip.sys.crossings, x.src = isl → False) ∧
      (∃ e ∈ u.chip.ev.recs, e.code = 0x0004 ∧ e.detail = [isl])) ∧
  (∀ (t mask : Nat) (s : State), mask < 4 → s.chip.up 0 = true →
    ∃ u, exec (.islandResetWrite t .tc mask) s = .next u ∧ WriteLeaves t .tc R.SYS_ISL_RST.addr [] ∅ s u) ∧
  (∀ (t isl : Nat) (s : State), isl < 16 → isl ≠ 2 → isl ≠ 6 → bitAt s.chip.sys.inReset isl = true →
    s.chip.on F.STR_STAT_ACTIVE_VALID = false →
    ∃ u, exec (.islandLeaveReset t isl) s = .next u ∧ Leaves t [.sys] {F.SYS_ISL_STAT_ISL_UP.addr} s u ∧ u.chip.up isl = true ∧
      u.chip.sys = { s.chip.sys with inReset := putBit s.chip.sys.inReset isl false } ∧
      (∀ k, k < 16 → k ≠ isl → u.chip.up k = s.chip.up k))

/-- Device resets (R56, R508, R548, R586, R711, R712). SYS_SOFT_RST written by TC with its key, and the reset through boundary scan, reset every
block but keep THM's history and press time; RESET_L and the trip keep AON as well; the scratchpad, Grotto and DDR lose their contents, and
the fuses, the flash and the host's memory keep theirs. VAON_RISE starts press time again and makes the device wait in Off; taking the
supplies away leaves it in Off. Without the key nothing happens. The cold boot (R591, R622, R625, R714). Nothing happens unless a boot is
due, nor with TEST_EN high under reset; after a trip it waits until the device has cooled. A device in SCRAP, or whose FWKEY region is
restrictive, enters RECOVERY: SYS_RST_CAUSE gains the causes of the reset, the Grotto is wiped, SEC_PHASE is RECOVERY, HOST is up and
RECOVERY is recorded with its cause. The model's own choices in this: entries 20, 21, 27, 28, 146, 150, 151 of the log. -/
def Obligations.ResetsAndBoot : Prop :=
  (∀ (t : Nat) (w : Word) (s : State), w.toNat / 65536 = 0x5A3C → w.toNat % 2 = 1 → s.chip.up 0 = true →
    ∃ u, exec (.softReset t .tc w) s = .next u ∧ u.pending = s.pending ∧ u.store = { s.store with mem := [] } ∧
      u.chip.now = max s.chip.now t ∧
      (∀ a : Nat, 0x10020000 ≤ a ∧ a < 0x10200000 ∧ islandOf (blockOf a) ≠ 0 → u.chip.word a = resetWord a) ∧
      (∀ a : Nat, blockOf a = 7 → u.chip.word a = s.chip.word a) ∧ u.chip.thm = s.chip.thm ∧
      u.chip.get R.SYS_RST_CAUSE = s.chip.get R.SYS_RST_CAUSE ∧ u.chip.pwr.cause = s.chip.pwr.cause ||| 16 ∧
      u.chip.pwr.booting = true ∧ u.chip.up 0 = true ∧ u.chip.up 1 = true ∧ (∀ k, k < 16 → 2 ≤ k → u.chip.up k = false) ∧
      u.chip.pos = {} ∧ u.chip.trk = {} ∧ u.chip.cmp = {} ∧ u.chip.col = {} ∧ u.chip.flw = {} ∧ u.chip.nzh = {} ∧ u.chip.tko = {} ∧
      u.chip.mem = {} ∧ u.chip.hst = {} ∧ u.chip.fw = {} ∧ u.chip.fab = {} ∧ u.chip.str = {} ∧ u.chip.cal = {} ∧ u.chip.otp = {} ∧
      u.chip.ldl = {} ∧ u.chip.dma = Vector.replicate 32 {}) ∧
  (∀ (t : Nat) (w : Word) (s : State), w.toNat / 65536 ≠ 0x5A3C ∨ w.toNat % 2 = 0 → s.chip.up 0 = true →
    ∃ u, exec (.softReset t .tc w) s = .next u ∧ WriteLeaves t .tc R.SYS_SOFT_RST.addr [] ∅ s u) ∧
  (∀ (t : Nat) (s : State), s.chip.pwr.off = false → s.chip.get F.PWR_STAT_STATE ≠ 3 → s.chip.pwr.resetLow = false →
    s.chip.thm.tripped = false →
    ∃ u, exec (.boundaryScanReset t) s = .next u ∧ u.pending = s.pending ∧ u.store = { s.store with mem := [] } ∧
      u.chip.now = max s.chip.now t ∧
      (∀ a : Nat, 0x10020000 ≤ a ∧ a < 0x10200000 ∧ islandOf (blockOf a) ≠ 0 → u.chip.word a = resetWord a) ∧
      u.chip.thm = s.chip.thm ∧ u.chip.pwr.cause = s.chip.pwr.cause ||| 32 ∧ u.chip.pwr.booting = true) ∧
  (∀ (t : Nat) (s : State), s.chip.pwr.off = false →
    ∃ u, exec (.resetAssert t) s = .next u ∧ u.pending = s.pending ∧ u.store = { s.store with mem := [] } ∧
      u.chip.now = max s.chip.now t ∧ u.chip.pwr.resetLow = true ∧ u.chip.pwr.booting = true ∧
      (∀ a : Nat, 0x10020000 ≤ a ∧ a < 0x10200000 ∧ islandOf (blockOf a) ≠ 0 → u.chip.word a = resetWord a) ∧
      (∀ a : Nat, blockOf a = 7 → u.chip.word a = s.chip.word a) ∧ u.chip.thm = s.chip.thm ∧
      u.chip.up 0 = true ∧ (∀ k, k < 16 → 1 ≤ k → u.chip.up k = false)) ∧
  (∀ (t pins : Nat) (s : State),
    ∃ u, exec (.vaonRise t pins) s = .next u ∧ u.pending = s.pending ∧ u.store = { s.store with mem := [] } ∧ u.chip.now = 0 ∧
      u.chip.pwr = { off := true, cause := 1 } ∧ u.chip.sys = { i2cAddr := 0x4C + pins % 4, tcUp := false } ∧
      u.chip.up 0 = true ∧ (∀ k, k < 16 → 1 ≤ k → u.chip.up k = false) ∧
      (∀ a : Nat, a ≠ F.SYS_CLK_STAT_OSC32_OK.addr ∧ a ≠ F.SYS_ISL_STAT_ISL_UP.addr → u.chip.word a = resetWord a)) ∧
  (∀ (t : Nat) (s : State), s.chip.pwr.resetLow = true →
    ∃ u, exec (.powerOff t) s = .next u ∧ u.pending = s.pending ∧ u.store = { s.store with mem := [] } ∧
      u.chip.pwr = { off := true, resetLow := true, cause := 1 } ∧ u.chip.now = max s.chip.now t ∧
      u.chip.word R.PWR_AON_CAUSE.addr = s.chip.word R.PWR_AON_CAUSE.addr ∧
      (∀ a : Nat, 0x10020000 ≤ a ∧ a < 0x10200000 ∧ islandOf (blockOf a) ≠ 0 → u.chip.word a = resetWord a)) ∧
  (∀ (t : Nat) (env : BootEnv) (s : State), s.chip.pwr.booting = false ∨ env.testEn = true ∧ (s.chip.pwr.resetLow || s.chip.pwr.off) = true →
    exec (.coldBoot t env) s = .next { s with chip := s.chip.at t }) ∧
  (∀ (t : Nat) (env : BootEnv) (s : State), s.chip.pwr.booting = true → env.testEn = false → s.chip.pwr.resetLow = false →
    s.chip.thm.tripped = true → s.chip.thm.coolAt = none →
    exec (.coldBoot t env) s = .next { s with chip := s.chip.at t }) ∧
  (∀ (t : Nat) (env : BootEnv) (s : State), s.chip.pwr.booting = true → env.testEn = false → s.chip.pwr.resetLow = false →
    s.chip.thm.tripped = false → s.chip.on F.OTP_STAT_SCAN_DONE = true → s.chip.get F.SEC_LC_IN_FORCE = 4 → s.chip.get F.SEC_PHASE_PHASE = 0 →
    s.chip.on F.STR_STAT_ACTIVE_VALID = false → s.chip.mem.waiting = [] →
    ∃ u, exec (.coldBoot t env) s = .next u ∧ u.pending = s.pending ∧ u.store = { s.store with mem := u.store.mem } ∧
      u.chip.get R.SYS_RST_CAUSE = s.chip.get R.SYS_RST_CAUSE ||| s.chip.pwr.cause ∧ u.chip.pwr.booting = false ∧ u.chip.pwr.cause = 0 ∧
      u.chip.get F.SEC_PHASE_PHASE = 3 ∧ u.chip.up 7 = true ∧ u.chip.up 1 = true ∧
      (∀ a : Nat, inGrotto a = true → sparseGet memDefault a u.store.mem = memDefault) ∧
      (∃ e ∈ u.chip.ev.recs, e.code = 0x1B06 ∧ e.detail = [2]))

/-- Service firmware's restart (R44, R45). A crash, and a deferred request whose lines have run low, take JOB down: firmware no longer runs, and
where a good copy is at hand the other slot starts when JOB leaves reset, SEC_FW naming its version. A request names the slot in the boot
record; a crash does not. The model's own choices in this: entries 143, 144 of the log. -/
def Obligations.ServiceFirmwareRestarts : Prop :=
  (∀ (t : Nat) (s : State), s.chip.sys.fwUp = true → s.chip.sys.tcUp = true → s.chip.up 1 = true → s.chip.up 2 = true →
    ∃ u, exec (.serviceFwCrash t) s = .next u ∧ u.pending = s.pending ∧ u.store = s.store ∧ u.chip.now = max s.chip.now t ∧
      u.chip.up 2 = false ∧ u.chip.sys.fwUp = false ∧ u.chip.sys.fwDeferred = false ∧ bitAt u.chip.sys.inReset 2 = true ∧
      u.chip.sys.fwStarts = (s.chip.sys.fwStarts || s.chip.sys.fwCopy) ∧
      u.chip.sys.fwSlot = (if s.chip.sys.fwCopy then 1 - s.chip.sys.fwSlot else s.chip.sys.fwSlot)) ∧
  (∀ (t : Nat) (s : State), s.chip.sys.fwDeferred = true → s.chip.sys.tcUp = true → s.chip.up 2 = true → s.chip.sys.fwCopy = true →
    s.chip.on F.TRK_STAT_RUN = false →
    ∃ u, exec (.fwRestartDeferredStart t) s = .next u ∧ u.pending = s.pending ∧
      u.store = s.store.nameService (1 - s.chip.sys.fwSlot) ∧ u.chip.up 2 = false ∧ u.chip.sys.fwUp = false ∧
      u.chip.sys.fwDeferred = false ∧ u.chip.sys.fwStarts = true ∧ u.chip.sys.fwSlot = 1 - s.chip.sys.fwSlot) ∧
  (∀ (t : Nat) (s : State), s.chip.sys.fwDeferred = false →
    exec (.fwRestartDeferredStart t) s = .next { s with chip := s.chip.at t })

/-- Encoder channels (R59, R60, R63 to R66, R68, R69, R72 to R76). With the other users of the channel idle (no index, Hall or mark check, no
output follows it, TRK off), an accepted change of one input counts: A leads B going forward; a reversal is held back once and then counts
double, unless the channel keeps the new direction. A change of both inputs counts nothing and is reported. The first index edge in the
direction of travel sets the reference. A wire fault freezes its signal and, on A or B, raises ENC_FAULT; when the wires differ again the
live bit clears, and a restored Z makes the next index the reference. Enabling a channel starts it at position 0; a write of 1 to ENC_FAULT
clears the causes. The model's own choices in this: entry 32 of the log. -/
def Obligations.EncoderChannels : Prop :=
  (∀ (t : Nat) (x : Fin 2) (a b : Bool) (first run : Nat) (fwd : Bool) (s : State), s.chip.up 6 = true →
    2 * s.chip.get F.POS_ENC_CFG_SIEVE_N x ≤ run → s.chip.on F.POS_ENC_CFG_EN x = true → s.chip.get F.POS_ENC_STAT_WIRE_ACT x = 0 →
    ((s.chip.enc x).a ≠ a ∧ (s.chip.enc x).b = b ∨ (s.chip.enc x).a = a ∧ (s.chip.enc x).b ≠ b) →
    s.chip.get F.POS_ENC_CPR_CPR x = 0 → s.chip.hallOn = false → s.chip.on F.POS_MARK_CFG_EN 0 = false → s.chip.on F.POS_MARK_CFG_EN 1 = false →
    s.chip.on F.POS_ENCO_CFG_EN = false → s.chip.trkOn = false → s.chip.cal.thr[x] = none →
    (∀ n : Fin 8, s.chip.get F.POS_CMP_CFG_SRC n ≠ x.val) →
    fwd = ((((s.chip.enc x).a != a) == ((s.chip.enc x).a == (s.chip.enc x).b)) != s.chip.on F.POS_ENC_CFG_DIR_INV x) →
    ∃ u, exec (.encCount t x a b first run) s = .next u ∧ Leaves t [.pos] ∅ s u ∧
      u.chip.pos = { s.chip.pos with enc := u.chip.pos.enc } ∧ (∀ y : Fin 2, y ≠ x → u.chip.enc y = s.chip.enc y) ∧
        (u.chip.enc x).a = a ∧ (u.chip.enc x).b = b ∧
        ((s.chip.enc x).held = false → ((s.chip.enc x).dir ≠ some (!fwd) ∨ bitAt (s.chip.get F.POS_XCFG_HYST_DIS) x = true) →
          (u.chip.enc x).pos = pos48 ((s.chip.enc x).pos + (if fwd then 1 else -1)) ∧ (u.chip.enc x).held = false ∧
            (u.chip.enc x).dir = some fwd ∧ (u.chip.enc x).ts = stamp first (s.chip.get F.POS_RXDLY_ENC_DLY)) ∧
        ((s.chip.enc x).held = false → (s.chip.enc x).dir = some (!fwd) → bitAt (s.chip.get F.POS_XCFG_HYST_DIS) x = false →
          (u.chip.enc x).pos = (s.chip.enc x).pos ∧ (u.chip.enc x).held = true ∧ (u.chip.enc x).dir = some (!fwd)) ∧
        ((s.chip.enc x).held = true → (s.chip.enc x).dir = some fwd →
          (u.chip.enc x).pos = (s.chip.enc x).pos ∧ (u.chip.enc x).held = false) ∧
        ((s.chip.enc x).held = true → (s.chip.enc x).dir = some (!fwd) →
          (u.chip.enc x).pos = pos48 ((s.chip.enc x).pos + 2 * (if fwd then 1 else -1)) ∧ (u.chip.enc x).held = false ∧
            (u.chip.enc x).dir = some fwd)) ∧
  (∀ (t : Nat) (x : Fin 2) (a b : Bool) (first run : Nat) (s : State), s.chip.up 6 = true →
    2 * s.chip.get F.POS_ENC_CFG_SIEVE_N x ≤ run → s.chip.on F.POS_ENC_CFG_EN x = true → s.chip.get F.POS_ENC_STAT_WIRE_ACT x = 0 →
    (s.chip.enc x).a ≠ a → (s.chip.enc x).b ≠ b →
    ∃ u, exec (.encCount t x a b first run) s = .next u ∧ Leaves t [.pos, .ev] {F.POS_ENC_STAT_QUAD_ERR.at x 0} s u ∧
      u.chip.pos = (s.chip.setEnc x { s.chip.enc x with a := a, b := b }).pos ∧
      u.chip.on F.POS_ENC_STAT_QUAD_ERR x = true ∧ (s.chip.at t).Raised u.chip [(0x0902, [])]) ∧
  (∀ (t : Nat) (x : Fin 2) (level : Bool) (run : Nat) (s : State), s.chip.up 6 = true → 2 * s.chip.get F.POS_ENC_CFG_SIEVE_N x ≤ run →
    s.chip.on F.POS_ENC_CFG_EN x = true → s.chip.get F.POS_ENC_CPR_CPR x ≠ 0 → bitAt (s.chip.get F.POS_ENC_STAT_WIRE_ACT x) 2 = false →
    (s.chip.enc x).z ≠ level → (s.chip.enc x).dir = some (level != s.chip.on F.POS_ENC_CFG_Z_POL x) → (s.chip.enc x).ref = none →
    s.chip.get F.POS_ENCO_CFG_SRC ≠ x.val → s.chip.trkOn = false →
    ∃ u, exec (.encIndexEdge t x level run) s = .next u ∧ Leaves t [.pos, .trk] (blockRegsSet 0x0A) s u ∧
      u.chip.pos = (s.chip.setEnc x { s.chip.enc x with z := level, ref := some (s.chip.enc x).pos, base := (s.chip.enc x).pos }).pos) ∧
  (∀ (t : Nat) (x : Fin 2) (sig : Fin 3) (s : State), s.chip.trkOn = false → s.chip.on F.POS_ENC_CFG_EN x = false →
    ∃ u, exec (.wireFault t x sig) s = .next u ∧ Leaves t [.trk] (blockRegsSet 0x0A) s u) ∧
  (∀ (t : Nat) (x : Fin 2) (sig : Fin 3) (s : State), s.chip.up 6 = true → s.chip.trkOn = false → s.chip.on F.POS_ENC_CFG_EN x = true →
    ∃ u, exec (.wireFault t x sig) s = .next u ∧ Leaves t [.ev, .trk] ({F.POS_ENC_STAT_WIRE.at x 0} ∪ blockRegsSet 0x0A) s u ∧
      bitAt (u.chip.get F.POS_ENC_STAT_WIRE x) sig = true ∧ bitAt (u.chip.get F.POS_ENC_STAT_WIRE_ACT x) sig = true ∧
      (sig.val < 2 →
        u.chip.on F.POS_ENC_STAT_ENC_FAULT x = true ∧ u.chip.on F.POS_ENC_STAT_FC_WIRE x = true ∧
        (s.chip.at t).Raised u.chip [(0x0901, [(1, x.val), (1, sig.val)]), (0x0906, [(1, x.val), (1, 2)])]) ∧
      (sig.val = 2 → (s.chip.at t).Raised u.chip [(0x0901, [(1, x.val), (1, sig.val)])])) ∧
  (∀ (t : Nat) (x : Fin 2) (sig : Fin 3) (s : State), s.chip.up 6 = true → s.chip.trkOn = false →
    ∃ u, exec (.wireRestored t x sig) s = .next u ∧ Leaves t [.pos, .trk] ({F.POS_ENC_STAT_WIRE_ACT.at x 0} ∪ blockRegsSet 0x0A) s u ∧
      bitAt (u.chip.get F.POS_ENC_STAT_WIRE_ACT x) sig = false ∧
      (sig.val < 2 → u.chip.pos = s.chip.pos) ∧
      (sig.val = 2 → u.chip.pos = (s.chip.setEnc x { s.chip.enc x with ref := none, mismatch := 0, base := (s.chip.enc x).pos }).pos)) ∧
  (∀ (t : Nat) (i : Initiator) (x : Fin 2) (w : Word) (s : State), s.chip.mayWrite i (R.POS_ENC_CFG.at x 0) →
    s.chip.on F.POS_ENC_CFG_EN x = false → s.chip.switchState = 0 → s.chip.calBusy = false →
    ∃ u, exec (.encEnable t i x w) s = .next u ∧
      WriteLeaves t i (R.POS_ENC_CFG.at x 0) [.pos] {R.POS_ENC_CFG.at x 0, F.POS_REJ_CNT_COUNT.addr} s u ∧
      u.chip.on F.POS_ENC_CFG_EN x = true ∧
      u.chip.pos = (s.chip.setEnc x { s.chip.enc x with pos := 0, dir := none, held := false, ref := none, base := 0, mismatch := 0 }).pos) ∧
  (∀ (t : Nat) (i : Initiator) (x : Fin 2) (w : Word) (s : State), s.chip.mayWrite i (R.POS_ENC_STAT.at x 0) →
    s.chip.get F.POS_ENC_STAT_WIRE_ACT x % 4 = 0 →
    ∃ u, exec (.encFaultClear t i x w) s = .next u ∧ WriteLeaves t i (R.POS_ENC_STAT.at x 0) [.pos] {R.POS_ENC_STAT.at x 0} s u ∧
      u.chip.on F.POS_ENC_STAT_ENC_FAULT x = false ∧ u.chip.on F.POS_ENC_STAT_FC_INDEX x = false ∧
      u.chip.on F.POS_ENC_STAT_FC_WIRE x = false ∧ u.chip.on F.POS_ENC_STAT_FC_HALL x = false ∧
      u.chip.pos = (s.chip.setEnc x { s.chip.enc x with mismatch := 0 }).pos)

/-- Reading a position, Hall and mark inputs (R77, R78, R82, R85, R86, R104). The low word of a position captures its high word and its
timestamp. A Hall edge to the next state goes into the window when its direction is the window's, and starts the window again when it is
not; an invalid state is reported and empties the window. An accepted mark edge becomes a record with its timestamp and position, for CMP
and for the FIFO; reading POS_MARKy_POS takes the oldest record. The model's own choices in this: entries 17, 37 of the log. -/
def Obligations.HallAndMarks : Prop :=
  (∀ (t : Nat) (i : Initiator) (x : Fin 2) (s : State), s.chip.mayRead i (R.POS_ENC_POS_LO.at x 0) →
    ∃ u, exec (.encPosLoRead t i x) s = .next u ∧
      ReadLeaves t (unsigned 48 (s.chip.enc x).pos % 2 ^ 32) [.latch] ∅ s u ∧
      u.chip.captured (R.POS_ENC_TS_LO.at x 0) = (s.chip.enc x).ts % 2 ^ 32 ∧
      u.chip.captured (R.POS_ENC_TS_HI.at x 0) = (s.chip.enc x).ts / 2 ^ 32 % 2 ^ 32 ∧
      u.chip.captured (R.POS_ENC_POS_HI.at x 0) % 2 ^ 16 = unsigned 64 (s.chip.enc x).pos / 2 ^ 32 % 2 ^ 16) ∧
  (∀ (t j run : Nat) (i k : Nat) (s : State), s.chip.up 6 = true → 2 * s.chip.get F.POS_HALL_CFG_SIEVE_N ≤ run → s.chip.trkOn = false →
    hallIndex s.chip.pos.hall.state = some i → hallIndex (j % 8) = some k → k = (i + 1) % 6 →
    s.chip.on F.POS_HALL_CFG_DIR_INV = false → s.chip.pos.hall.dir ≠ some true →
    ∃ u, exec (.hallEdge t j run) s = .next u ∧ Leaves t [.pos, .trk] (blockRegsSet 0x0A) s u ∧
      u.chip.pos = { s.chip.pos with hall := u.chip.pos.hall } ∧ u.chip.pos.hall.state = j % 8 ∧ u.chip.pos.hall.dir = some true ∧
      u.chip.pos.hall.edges = [((s.chip.enc s.chip.hallEnc).pos, u.chip.now)] ∧
      u.chip.pos.hall.last = some ((s.chip.enc s.chip.hallEnc).pos, u.chip.now)) ∧
  (∀ (t j run : Nat) (s : State), s.chip.up 6 = true → 2 * s.chip.get F.POS_HALL_CFG_SIEVE_N ≤ run → s.chip.trkOn = false →
    j % 8 = 0 ∨ j % 8 = 7 →
    ∃ u, exec (.hallEdge t j run) s = .next u ∧ Leaves t [.pos, .trk, .ev] ({F.POS_HALL_STAT_INVALID.addr} ∪ blockRegsSet 0x0A) s u ∧
      u.chip.on F.POS_HALL_STAT_INVALID = true ∧ u.chip.pos.hall.state = j % 8 ∧ u.chip.pos.hall.dir = none ∧
      u.chip.pos.hall.edges = [((s.chip.enc s.chip.hallEnc).pos, u.chip.now)] ∧ (s.chip.at t).Raised u.chip [(0x0907, [])]) ∧
  (∀ (t : Nat) (y : Fin 2) (rising : Bool) (first run : Nat) (r : MarkRec) (s : State), s.chip.up 6 = true → 2 * s.chip.get F.POS_MARK_CFG_SIEVE_N y ≤ run →
    s.chip.on F.POS_MARK_CFG_EN y = true → s.chip.get F.POS_MARK_CFG_EDGE y = 2 → s.chip.on F.POS_MARK_CFG_WIN_EN y = false →
    s.chip.calBusy = false → (s.chip.pos.mark[y]).fifo.length < 16 →
    r = ⟨stamp first (s.chip.get F.POS_RXDLY_SE_DLY), (s.chip.enc (s.chip.markEnc y)).pos, rising, false, y.val⟩ →
    ∃ u, exec (.markEdge t y rising first run) s = .next u ∧ Leaves t [.pos] ∅ s u ∧
      u.chip.pos = { (s.chip.setMark y { s.chip.pos.mark[y] with fifo := (s.chip.pos.mark[y]).fifo ++ [r] }).pos with
          markWay := s.chip.pos.markWay ++ [r] }) ∧
  (∀ (t : Nat) (i : Initiator) (y : Fin 2) (r : MarkRec) (rest : List MarkRec) (s : State), s.chip.mayRead i (R.POS_MARK_POS.at y 0) →
    (s.chip.pos.mark[y]).fifo = r :: rest →
    ∃ u, exec (.markPosRead t i y) s = .next u ∧ ReadLeaves t (unsigned 32 r.pos) [.pos] ∅ s u ∧
      u.chip.pos = (s.chip.setMark y { s.chip.pos.mark[y] with fifo := rest }).pos) ∧
  (∀ (t : Nat) (i : Initiator) (y : Fin 2) (s : State), s.chip.mayRead i (R.POS_MARK_POS.at y 0) → (s.chip.pos.mark[y]).fifo = [] →
    ∃ u, exec (.markPosRead t i y) s = .next u ∧ ReadLeaves t 0 [] ∅ s u)

/-- ENCO and the compare outputs (R88, R90 to R95, R98, R100, R101). A pending step that is due leaves and moves the output position by one. A
ratio with a zero half is ignored and counted; another clears the accumulator. An entry pushed by software goes to the end of the list, or
is judged at once where the list is empty and the output enabled; an output owned by NZH refuses it. An entry that is reached acts and the
list goes on with the next. A pulse ends with its width. Disabling an output makes it inactive; a flush empties its list. The model's own
choices in this: entries 33, 35 of the log. -/
def Obligations.EncoAndCompareOutputs : Prop :=
  (∀ (t : Nat) (s : State), s.chip.up 6 = true → s.chip.on F.POS_ENCO_CFG_EN = true → s.chip.get F.POS_ENCO_CFG_SRC ≠ 2 →
    s.chip.pos.enco.backlog ≠ 0 → s.chip.pos.enco.due ≤ max s.chip.now t → s.chip.get F.POS_ENCO_CFG_Z_MODE = 0 →
    ∃ u, exec (.encoStep t) s = .next u ∧ Leaves t [.pos] ∅ s u ∧ u.chip.pos = { s.chip.pos with enco := u.chip.pos.enco } ∧
      u.chip.pos.enco.count = s.chip.pos.enco.count + (if 0 < s.chip.pos.enco.backlog then 1 else -1) ∧
      u.chip.pos.enco.backlog.natAbs + 1 = s.chip.pos.enco.backlog.natAbs ∧
      u.chip.pos.enco.due = u.chip.now + s.chip.pos.enco.spacing ∧ u.chip.pos.enco.acc = s.chip.pos.enco.acc) ∧
  (∀ (t : Nat) (i : Initiator) (w : Word) (s : State), s.chip.mayWrite i R.POS_ENCO_RATIO.addr → s.chip.switchState = 0 → s.chip.calBusy = false →
    fld F.POS_ENCO_RATIO_N w.toNat ≠ 0 → fld F.POS_ENCO_RATIO_M w.toNat ≠ 0 →
    ∃ u, exec (.encoRatioWrite t i w) s = .next u ∧ WriteLeaves t i R.POS_ENCO_RATIO.addr [.pos] {R.POS_ENCO_RATIO.addr} s u ∧
      u.chip.get F.POS_ENCO_RATIO_N = fld F.POS_ENCO_RATIO_N w.toNat ∧ u.chip.get F.POS_ENCO_RATIO_M = fld F.POS_ENCO_RATIO_M w.toNat ∧
      u.chip.pos = { s.chip.pos with enco := { s.chip.pos.enco with acc := 0 } }) ∧
  (∀ (t : Nat) (i : Initiator) (w : Word) (s : State), s.chip.mayWrite i R.POS_ENCO_RATIO.addr →
    fld F.POS_ENCO_RATIO_N w.toNat = 0 ∨ fld F.POS_ENCO_RATIO_M w.toNat = 0 →
    ∃ u, exec (.encoRatioWrite t i w) s = .next u ∧ WriteLeaves t i R.POS_ENCO_RATIO.addr [] {F.POS_REJ_CNT_COUNT.addr} s u) ∧
  (∀ (t : Nat) (i : Initiator) (n : Fin 8) (w : Word) (e : Int) (s : State), s.chip.mayWrite i (R.POS_CMP_ENT_HI.at n 0) →
    s.chip.on F.POS_CMP_CFG_OWNER n = false → fld F.POS_CMP_ENT_HI_ACTION w.toNat = 0 → (s.chip.pos.out[n]).list.length < 64 →
    (s.chip.pos.out[n]).list ≠ [] →
    e = signed 48 (fld F.POS_CMP_ENT_HI_POS_HI w.toNat * 2 ^ 32 + s.chip.latched (R.POS_CMP_ENT_LO.at n 0) (initNo i)) →
    ∃ u, exec (.cmpEntryPush t i n w) s = .next u ∧ WriteLeaves t i (R.POS_CMP_ENT_HI.at n 0) [.pos] ∅ s u ∧
      u.chip.pos = (s.chip.setOut n { s.chip.pos.out[n] with list := (s.chip.pos.out[n]).list ++ [(e, .pulse)] }).pos) ∧
  (∀ (t : Nat) (i : Initiator) (n : Fin 8) (w : Word) (s : State), s.chip.mayWrite i (R.POS_CMP_ENT_HI.at n 0) →
    s.chip.on F.POS_CMP_CFG_OWNER n = true →
    ∃ u, exec (.cmpEntryPush t i n w) s = .next u ∧ WriteLeaves t i (R.POS_CMP_ENT_HI.at n 0) [] {F.POS_REJ_CNT_COUNT.addr} s u) ∧
  (∀ (t : Nat) (n : Fin 8) (e : Int) (s : State), s.chip.up 6 = true → s.chip.on F.POS_CMP_CFG_EN n = true → s.chip.get F.POS_CMP_CFG_SRC n = 0 →
    (s.chip.pos.out[n]).list = [(e, .set)] → e ≤ (s.chip.enc 0).pos → (s.chip.pos.out[n]).prev ≤ (s.chip.enc 0).pos →
    ∃ u, exec (.cmpEntryReached t n) s = .next u ∧ Leaves t [.pos] ∅ s u ∧
      u.chip.pos = (s.chip.setOut n { s.chip.pos.out[n] with list := [], active := true, prev := (s.chip.enc 0).pos }).pos) ∧
  (∀ (t e : Nat) (n : Fin 8) (s : State), s.chip.up 6 = true → (s.chip.pos.out[n]).pulseEnd = some e → e ≤ max s.chip.now t →
    ∃ u, exec (.cmpPulseEnd t n) s = .next u ∧ Leaves t [.pos] ∅ s u ∧
      u.chip.pos = (s.chip.setOut n { s.chip.pos.out[n] with active := false, pulseEnd := none }).pos) ∧
  (∀ (t : Nat) (i : Initiator) (n : Fin 8) (w : Word) (s : State), s.chip.mayWrite i (R.POS_CMP_CFG.at n 0) → s.chip.switchState = 0 →
    s.chip.calBusy = false → s.chip.on F.POS_CMP_CFG_EN n = true → fld F.POS_CMP_CFG_EN w.toNat = 0 →
    ∃ u, exec (.cmpOutputEnable t i n w) s = .next u ∧
      WriteLeaves t i (R.POS_CMP_CFG.at n 0) [.pos] {R.POS_CMP_CFG.at n 0, F.POS_REJ_CNT_COUNT.addr} s u ∧
      u.chip.on F.POS_CMP_CFG_EN n = false ∧
      u.chip.pos = (s.chip.setOut n { s.chip.pos.out[n] with active := false, pulseEnd := none }).pos) ∧
  (∀ (t : Nat) (i : Initiator) (n : Fin 8) (w : Word) (s : State), s.chip.mayWrite i (R.POS_CMP_CFG.at n 0) → s.chip.switchState = 0 →
    s.chip.calBusy = false → s.chip.on F.POS_CMP_CFG_EN n = false → fld F.POS_CMP_CFG_EN w.toNat = 1 → (s.chip.pos.out[n]).list = [] →
    ∃ u, exec (.cmpOutputEnable t i n w) s = .next u ∧
      WriteLeaves t i (R.POS_CMP_CFG.at n 0) [.pos] {R.POS_CMP_CFG.at n 0, F.POS_REJ_CNT_COUNT.addr} s u ∧
      u.chip.on F.POS_CMP_CFG_EN n = true ∧ (u.chip.pos.out[n]).enabled = true ∧ (u.chip.pos.out[n]).list = []) ∧
  (∀ (t : Nat) (i : Initiator) (n : Fin 8) (s : State), s.chip.mayWrite i (R.POS_CMP_FLUSH.at n 0) →
    ∃ u, exec (.cmpFlush t i n) s = .next u ∧ WriteLeaves t i (R.POS_CMP_FLUSH.at n 0) [.pos] ∅ s u ∧
      u.chip.pos = (s.chip.setOut n { s.chip.pos.out[n] with list := [] }).pos)

/-- Line events (R115, R118, R121, R123 to R126, R130). With no rate above TRK_VMIN nothing is issued: UNDERSPEED is set and RUN clears. A line
whose time lies further ahead than the lead is not issued yet. A line that is due, with the position still below its middle when its strobe
could be placed, is issued to be fired: TIME is its predicted time less the largest flight time, held back to the mode limit and then marked
CLAMP; a line whose middle has been passed is issued with DROP and counted. The model's own choices in this: entries 5, 38, 51, 52 of the
log. -/
def Obligations.LineEventsIssue : Prop :=
  (∀ (t : Nat) (s : State), s.chip.up 6 = true → s.chip.trkOn = true → s.chip.on F.TRK_STAT_NO_SOURCE = false →
    s.chip.rate < (s.chip.inForce F.TRK_VMIN_VMIN : Rat) →
    ∃ u, exec (.lineEventIssue t) s = .next u ∧ Leaves t [.ev] {F.TRK_STAT_RUN.addr} s u ∧
      u.chip.on F.TRK_STAT_UNDERSPEED = true ∧ u.chip.on F.TRK_STAT_RUN = false ∧
      (s.chip.at t).Raised u.chip (if s.chip.on F.TRK_STAT_RUN = true ∧ s.chip.on F.TRK_STAT_UNDERSPEED = false then [(0x0A06, [])] else [])) ∧
  (∀ (t : Nat) (n : Int) (s : State), s.chip.up 6 = true → s.chip.mayIssue = true → n = s.chip.trk.lastLine + 1 →
    (s.chip.inForce F.TRK_LEAD_LEAD : Rat) * (s.chip.period64 : Rat) / (64 : Nat) + (500 : Nat) <
      s.chip.clampedE (s.chip.timeOf n - (s.chip.tauMax : Rat)) - (s.chip.at t).nowQ →
    ∃ u, exec (.lineEventIssue t) s = .next u ∧ Leaves t [] {F.TRK_STAT_RUN.addr} s u ∧ u.chip.on F.TRK_STAT_UNDERSPEED = false) ∧
  (∀ (t : Nat) (n : Int) (e : Rat) (s : State), s.chip.up 6 = true → s.chip.mayIssue = true → n = s.chip.trk.lastLine + 1 →
    s.chip.dirty = [] → s.chip.switchState = 0 → s.chip.partDue 0 = false →
    e = s.chip.timeOf n - (s.chip.tauMax : Rat) →
    s.chip.clampedE e - (s.chip.at t).nowQ ≤ (s.chip.inForce F.TRK_LEAD_LEAD : Rat) * (s.chip.period64 : Rat) / (64 : Nat) + (500 : Nat) →
    s.chip.xAt (maxQ (s.chip.clampedE e) (s.chip.at t).nowQ + (s.chip.tauMax : Rat)) < (n : Rat) + 1 / 2 →
    ∃ u, exec (.lineEventIssue t) s = .next u ∧ u.pending = s.pending ∧ u.store = s.store ∧ u.chip.now = max s.chip.now t ∧
      u.chip.trk.lastLine = n ∧ u.chip.trk.issued = true ∧ u.chip.trk.lastDrop = false ∧
      u.chip.trk.events.head? = some ⟨n, timeField (s.chip.clampedE e), s.chip.period64, s.chip.trk.bank, false,
        decide (e < s.chip.clampedE e), s.chip.on F.TRK_STAT_COAST⟩ ∧
      u.chip.trk.lastFiredE = some (timeField (s.chip.clampedE e)) ∧ u.chip.on F.TRK_STAT_CLAMP = decide (e < s.chip.clampedE e) ∧
      u.chip.on F.TRK_STAT_RUN = true ∧ u.chip.trk.x = s.chip.trk.x ∧ u.chip.trk.v = s.chip.trk.v) ∧
  (∀ (t : Nat) (n : Int) (e : Rat) (s : State), s.chip.up 6 = true → s.chip.mayIssue = true → n = s.chip.trk.lastLine + 1 →
    s.chip.dirty = [] → s.chip.switchState = 0 → s.chip.partDue 0 = false →
    e = s.chip.timeOf n - (s.chip.tauMax : Rat) →
    s.chip.clampedE e - (s.chip.at t).nowQ ≤ (s.chip.inForce F.TRK_LEAD_LEAD : Rat) * (s.chip.period64 : Rat) / (64 : Nat) + (500 : Nat) →
    (n : Rat) + 1 / 2 ≤ s.chip.xAt (maxQ (s.chip.clampedE e) (s.chip.at t).nowQ + (s.chip.tauMax : Rat)) →
    ∃ u, exec (.lineEventIssue t) s = .next u ∧ u.pending = s.pending ∧ u.store = s.store ∧ u.chip.now = max s.chip.now t ∧
      u.chip.trk.lastLine = n ∧ u.chip.trk.lastDrop = true ∧
      (∃ ev : LineEvent, u.chip.trk.events.head? = some ev ∧ ev.line = n ∧ ev.drop = true ∧ ev.clamp = false) ∧
      u.chip.trk.lastFiredE = s.chip.trk.lastFiredE ∧
      u.chip.get F.TRK_DROP_CNT_COUNT = satNat (F.TRK_DROP_CNT_COUNT.hi + 1 - F.TRK_DROP_CNT_COUNT.lo) (s.chip.get F.TRK_DROP_CNT_COUNT + 1))

/-- The tracking unit's other work (R106, R110, R112, R113, R115, R117, R132, R136, R138). Enabling TRK starts the position at TRK_START with no
speed, on the primary source. A switch on request, and a fabric source that times out, leave the active source for the other one, coasting
until its first measurement. Coasting for TRK_COAST_MAX means no source. A line's placement is checked against TRK_PLACE_TOL. The sample
that is broadcast carries the newest measurement. SPEED_REQ ends after its hold. The low words of the registers capture their high words.
The model's own choices in this: entries 17, 38, 39, 41, 42 of the log. -/
def Obligations.TrackingUnit : Prop :=
  (∀ (t : Nat) (i : Initiator) (w : Word) (s : State), s.chip.mayWrite i R.TRK_CTRL.addr → s.chip.trkOn = false → s.chip.switchState = 0 →
    s.chip.calBusy = false → s.chip.healthy (s.chip.get F.TRK_SRC_PRI) = true → s.chip.get F.TRK_SRC_PRI < 2 →
    ∃ u, exec (.trkEnable t i w) s = .next u ∧
      u.pending = s.pending ∧ u.store = s.store ∧ u.chip.now = max s.chip.now t ∧
      (u.chip.fLim ≠ s.chip.fLim ∨ WriteLeaves t i R.TRK_CTRL.addr [.trk, .pos, .asm, .hp, .force, .dirty, .ev]
        (blockRegsSet 0x0A ∪ {F.COL_STAT_PARITY_SKEW.addr, F.CMP_LSPAN_L_MAX.addr, F.CMP_STAT_DEPTH_SHORT.addr}) s u) ∧
      u.chip.trkOn = true ∧ u.chip.trk.x = s.chip.trkStart ∧ u.chip.trk.v = 0 ∧ u.chip.trk.tx = u.chip.nowQ ∧
      u.chip.trk.lastLine = s.chip.trkStart.floor ∧ u.chip.trk.issued = false ∧ u.chip.trk.events = [] ∧ u.chip.trk.enabledOnce = true ∧
      u.chip.active = s.chip.get F.TRK_SRC_PRI ∧ u.chip.on F.TRK_STAT_COAST = false ∧ u.chip.on F.TRK_STAT_NO_SOURCE = false ∧
      (∀ k : Fin 8, (u.chip.port k).queue = [])) ∧
  (∀ (t : Nat) (i : Initiator) (w : Word) (s : State), s.chip.mayWrite i R.TRK_SRC.addr → s.chip.trkOn = true → s.chip.switchState = 0 →
    s.chip.calBusy = false → fld F.TRK_SRC_PRI w.toNat = s.chip.get F.TRK_SRC_PRI → fld F.TRK_SRC_FB w.toNat = s.chip.get F.TRK_SRC_FB →
    s.chip.active < 3 → s.chip.otherSource < 2 → s.chip.healthy s.chip.otherSource = true →
    ∃ u, exec (.trkSrcSwitch t i w) s = .next u ∧ WriteLeaves t i R.TRK_SRC.addr [.trk, .ev] {R.TRK_SRC.addr, F.TRK_STAT_ACTIVE.addr} s u ∧
      u.chip.active = s.chip.otherSource ∧ u.chip.on F.TRK_STAT_COAST = true ∧ u.chip.trk.x = s.chip.trk.x ∧ u.chip.trk.v = s.chip.trk.v ∧
      (s.chip.at t).Raised u.chip [(0x0A02, [(1, s.chip.active), (1, s.chip.otherSource), (1, 5)])]) ∧
  (∀ (t : Nat) (i : Initiator) (w : Word) (s : State), s.chip.mayWrite i R.TRK_SRC.addr → s.chip.trkOn = false → s.chip.switchState = 0 →
    s.chip.calBusy = false →
    ∃ u, exec (.trkSrcSwitch t i w) s = .next u ∧ WriteLeaves t i R.TRK_SRC.addr [] {R.TRK_SRC.addr, F.TRK_REJ_CNT_COUNT.addr} s u) ∧
  (∀ (t : Nat) (m : Fin 2) (s : State), s.chip.up 6 = true → s.chip.trkOn = true → s.chip.activeSource = 2 + m.val → s.chip.trk.fabBad[m] = false →
    s.chip.trk.fabAt[m] + us (s.chip.get F.TRK_FAB_TIME_TO) ≤ max s.chip.now t → s.chip.otherSource < 2 → s.chip.healthy s.chip.otherSource = true →
    ∃ u, exec (.fabSampleTimeout t) s = .next u ∧ Leaves t [.trk, .ev] (blockRegsSet 0x0A) s u ∧
      u.chip.active = s.chip.otherSource ∧ u.chip.on F.TRK_STAT_COAST = true ∧
      (s.chip.at t).Raised u.chip [(0x0A02, [(1, 2), (1, s.chip.otherSource), (1, 2)])]) ∧
  (∀ (t : Nat) (s : State), s.chip.up 6 = true → s.chip.trkOn = true → s.chip.on F.TRK_STAT_COAST = true → s.chip.on F.TRK_STAT_NO_SOURCE = false →
    s.chip.trk.coastAt + us (s.chip.get F.TRK_COAST_MAX_COAST_MAX) ≤ max s.chip.now t →
    ∃ u, exec (.noSource t) s = .next u ∧ Leaves t [.trk, .ev] (blockRegsSet 0x0A) s u ∧
      u.chip.on F.TRK_STAT_NO_SOURCE = true ∧ u.chip.on F.TRK_STAT_RUN = false ∧ (s.chip.at t).Raised u.chip [(0x0A03, [])]) ∧
  (∀ (t : Nat) (n : Int) (tn : Rat) (rest : List (Int × Rat)) (s : State), s.chip.up 6 = true → s.chip.trk.checks = (n, tn) :: rest →
    absQ ((s.chip.xAt tn - (n : Rat)) * (64 : Nat)) ≤ (s.chip.get F.TRK_PLACE_TOL_TOL : Rat) →
    ∃ u, exec (.placementCheck t n) s = .next u ∧ Leaves t [.trk] {F.TRK_PLACE_ERR_LAST.addr} s u ∧
      u.chip.trk = { s.chip.trk with checks := rest } ∧ u.chip.get F.TRK_PLACE_ERR_CNT = s.chip.get F.TRK_PLACE_ERR_CNT ∧
      u.chip.get F.TRK_PLACE_ERR_LAST = unsigned 16 (satInt 16 (roundQ ((s.chip.xAt tn - (n : Rat)) * (64 : Nat) * (16 : Nat))))) ∧
  (∀ (t : Nat) (s : State), s.chip.up 6 = true → s.chip.trkOn = true → s.chip.on F.TRK_BCAST_EN = true →
    ∃ u, exec (.posSampleBroadcast t) s = .next u ∧ Leaves t [.trk, .sent] ∅ s u ∧
      u.chip.trk = { s.chip.trk with bcastSeq := (s.chip.trk.bcastSeq + 1) % 256 } ∧
      u.chip.sent = s.chip.sent ++ [⟨"posSample", [s.chip.get F.FAB_NODE_NODE_ID, s.chip.trk.bcastSeq,
        bit (decide (s.chip.active < 2) && !s.chip.on F.TRK_STAT_COAST), (s.chip.trk.newest.2 * (2 : Nat)).floor.toNat,
        unsigned 64 (s.chip.trk.newest.1 * (65536 : Nat)).floor]⟩]) ∧
  (∀ (t e : Nat) (s : State), s.chip.up 6 = true → s.chip.trk.spreqHold = some e → e ≤ max s.chip.now t →
    ∃ u, exec (.speedReqHoldEnd t) s = .next u ∧ Leaves t [.trk] {F.TRK_SPREQ_STAT_OUT.addr} s u ∧
      u.chip.on F.TRK_SPREQ_STAT_OUT = false ∧ u.chip.trk = { s.chip.trk with spreqHold := none }) ∧
  (∀ (t : Nat) (i : Initiator) (s : State), s.chip.mayRead i R.TRK_POS_LO.addr →
    ∃ u, exec (.trkPosLoRead t i) s = .next u ∧ ReadLeaves t ((s.chip.at t).trkPosition % 2 ^ 32) [.latch] ∅ s u ∧
      u.chip.captured R.TRK_POS_HI.addr = (s.chip.at t).trkPosition / 2 ^ 32 % 2 ^ 32 ∧
      u.chip.captured R.TRK_RATE.addr = s.chip.trkRate % 2 ^ 32) ∧
  (∀ (t : Nat) (i : Initiator) (s : State), s.chip.mayRead i R.TRK_LINE_LO.addr →
    ∃ u, exec (.trkLineLoRead t i) s = .next u ∧ ReadLeaves t (unsigned 48 s.chip.trk.lastLine % 2 ^ 32) [.latch] ∅ s u ∧
      u.chip.captured R.TRK_LINE_HI.addr = unsigned 48 s.chip.trk.lastLine / 2 ^ 32)

/-- The item queue (R142, R143, R148 to R150, R181). Moving CMP_IQ_WR on by one slot makes CMP read that slot's header in DDR: the item enters
the queue with the identity, job, lane, anchor, start field and number of lines that the header spells. With EN set an item of an idle lane
takes the lane's settings at once. A lane's next item with an absolute start is placed on that line if composition has not passed it;
otherwise it is not composed, and NP_CNT and the record say so. The model's own choices in this: entries 55, 58 of the log. -/
def Obligations.ItemsEnterAndArePlaced : Prop :=
  (∀ (t : Nat) (i : Initiator) (addr : Nat) (l : List Nat) (s : State), s.chip.mayWrite i R.CMP_IQ_WR.addr → s.chip.switchState = 0 →
    s.chip.calBusy = false → s.chip.on F.CMP_CTRL_EN = false → s.chip.ddrReady = true →
    (∀ w : Fin 8, s.chip.on F.DDR_WIN_PERM_EN w = false) →
    addr = s.chip.get F.CMP_IQ_BASE_LO_ADDR * 4096 + s.chip.get F.CMP_IQ_BASE_HI_ADDR * 2 ^ 32 +
      4096 * (s.chip.get F.CMP_IQ_WR_WR % 1024) → s.chip.inDdr addr 32 = true → l = (s.store.read addr 32).map BitVec.toNat →
    ∃ u, exec (.itemEnqueue t i ((s.chip.get F.CMP_IQ_WR_WR + 1) % 2048) []) s = .next u ∧
      WriteLeaves t i R.CMP_IQ_WR.addr [.cmp, .pwr] ({R.CMP_IQ_WR.addr} ∪ blockRegsSet 0x01) s u ∧
      u.chip.get F.CMP_IQ_WR_WR = (s.chip.get F.CMP_IQ_WR_WR + 1) % 2048 ∧
      u.chip.cmp = { s.chip.cmp with items := u.chip.cmp.items } ∧
      u.chip.cmp.items = s.chip.cmp.items ++
        [headerItem (s.chip.get F.CMP_IQ_WR_WR % 1024) l]) ∧
  (∀ (t : Nat) (lane : Fin 8) (a : Item) (s : State), s.chip.up 5 = true → s.chip.on F.CMP_CTRL_EN = true → s.chip.cmp.items = [a] →
    a.lane = lane.val → a.stage = .waiting → a.anchor = 0 → s.chip.cmp.w ≤ a.startField →
    ∃ u, exec (.itemPlace t lane) s = .next u ∧ Leaves t [.cmp, .nzh] {F.CMP_STAT_MARK_WAIT.addr} s u ∧
      u.chip.cmp.items = [{ a with stage := .placed, start := a.startField, nextLine := a.startField }] ∧
      u.chip.cmp.laneEnd[lane] = some (a.startField + a.lines : Int) ∧ u.chip.cmp.laneStart[lane] = some (a.startField : Int) ∧
      u.chip.nzh.accounts.length = s.chip.nzh.accounts.length + 1) ∧
  (∀ (t : Nat) (lane : Fin 8) (a : Item) (s : State), s.chip.up 5 = true → s.chip.on F.CMP_CTRL_EN = true → s.chip.cmp.items = [a] →
    a.lane = lane.val → a.stage = .waiting → a.anchor = 0 → (a.startField : Int) < s.chip.cmp.w → s.chip.get F.LDL_SW_STAT_BOUND = 0 →
    ∃ u, exec (.itemPlace t lane) s = .next u ∧
      Leaves t [.cmp, .nzh, .ev, .ldl] ({F.CMP_STAT_MARK_WAIT.addr, F.CMP_NP_CNT_COUNT.addr, F.CMP_IQ_RD_RD.addr} ∪ blockRegsSet 0x08) s u ∧
      u.chip.cmp.items = [] ∧ u.chip.get F.CMP_IQ_RD_RD = (s.chip.get F.CMP_IQ_RD_RD + 1) % 2048 ∧
      u.chip.get F.CMP_NP_CNT_COUNT = satNat (F.CMP_NP_CNT_COUNT.hi + 1 - F.CMP_NP_CNT_COUNT.lo) (s.chip.get F.CMP_NP_CNT_COUNT + 1) ∧
      (s.chip.at t).Raised u.chip [(0x0B01, [(8, a.id), (6, unsigned 48 a.startField)])]) ∧
  (∀ (t : Nat) (lane : Fin 8) (a : Item) (s : State), s.chip.up 5 = true → s.chip.on F.CMP_CTRL_EN = true → s.chip.cmp.items = [a] →
    a.lane = lane.val → a.stage = .waiting → a.anchor = 1 → s.chip.cmp.laneStart[lane] = some (s.chip.cmp.w : Int) →
    ∃ u, exec (.itemPlace t lane) s = .next u ∧ Leaves t [.cmp, .nzh] {F.CMP_STAT_MARK_WAIT.addr} s u ∧
      u.chip.cmp.items = [{ a with stage := .placed, start := s.chip.cmp.w + a.pitch, nextLine := s.chip.cmp.w + a.pitch }])

/-- Marks and twin placing in CMP (R84, R144 to R147). A mark record that is not outside its window reaches every lane and waits there until an
item uses it; an outside one is ignored. A mark item that waits, with line events to measure by, is placed at the mark's line plus its
offset. A missing-mark notice places it at the line where the mark should have been, marked SUBST, where the lane's policy is to substitute.
The partner's PLACE message is kept until the lane's item takes it. The model's own choices in this: entries 53, 54 of the log. -/
def Obligations.MarksPlaceItems : Prop :=
  (∀ (t : Nat) (r : MarkRec) (rest : List MarkRec) (s : State), s.chip.up 5 = true → s.chip.pos.markWay = r :: rest → r.outside = false →
    s.chip.cmp.items = [] → s.chip.cmp.notes = [] →
    ∃ u, exec (.markRecordRx t) s = .next u ∧ Leaves t [.pos, .cmp] ∅ s u ∧ u.chip.pos = { s.chip.pos with markWay := rest } ∧
      u.chip.cmp = { s.chip.cmp with laneMarks := s.chip.cmp.laneMarks.map (fun l => l ++ [⟨r.ts, r.input⟩]) }) ∧
  (∀ (t : Nat) (r : MarkRec) (rest : List MarkRec) (s : State), s.chip.pos.markWay = r :: rest → r.outside = true ∨ s.chip.up 5 = false →
    ∃ u, exec (.markRecordRx t) s = .next u ∧ Leaves t [.pos] ∅ s u ∧ u.chip.pos = { s.chip.pos with markWay := rest }) ∧
  (∀ (t : Nat) (r : MarkRec) (a : Item) (l : Rat) (s : State), s.chip.up 5 = true → s.chip.on F.CMP_CTRL_EN = true → s.chip.pos.markWay = [r] →
    r.outside = false → s.chip.cmp.items = [a] → a.stage = .waiting → a.anchor = 2 → a.lane = 3 → a.markSel = r.input → s.chip.twin = false →
    s.chip.cmp.notes = [] → s.chip.cmp.laneMarks = Vector.replicate 8 [] → s.chip.lineAt ((r.ts : Rat) / (2 : Nat)) = some l →
    s.chip.cmp.laneEnd[3] = none → s.chip.cmp.w ≤ (l + (a.markOfs : Rat) / (64 : Nat) + 1 / 2).floor →
    ∃ u, exec (.markRecordRx t) s = .next u ∧ Leaves t [.pos, .cmp, .nzh] {F.CMP_STAT_MARK_WAIT.addr} s u ∧
      u.chip.cmp.items = [{ a with stage := .placed, start := (l + (a.markOfs : Rat) / (64 : Nat) + 1 / 2).floor, nextLine := (l + (a.markOfs : Rat) / (64 : Nat) + 1 / 2).floor }]) ∧
  (∀ (t y : Nat) (ref : Int) (rest : List (Nat × Int)) (s : State), s.chip.up 5 = true → s.chip.pos.missWay = (y, ref) :: rest →
    s.chip.cmp.items = [] →
    ∃ u, exec (.markMissingNotice t) s = .next u ∧ Leaves t [.pos] ∅ s u ∧ u.chip.pos = { s.chip.pos with missWay := rest }) ∧
  (∀ (t y : Nat) (ref : Int) (a : Item) (l : Rat) (s : State), s.chip.up 5 = true → s.chip.on F.CMP_CTRL_EN = true → s.chip.pos.missWay = [(y, ref)] →
    s.chip.cmp.items = [a] → a.stage = .waiting → a.anchor = 2 → a.lane = 3 → a.markSel = y → a.missPol = 0 → s.chip.twin = false →
    (s.chip.at t).referenceLine y ref = some l → s.chip.cmp.laneEnd[3] = none → s.chip.cmp.w ≤ candidate l a.markOfs →
    ∃ u, exec (.markMissingNotice t) s = .next u ∧ Leaves t [.pos, .cmp, .nzh, .ev] {F.CMP_STAT_MARK_WAIT.addr} s u ∧
      u.chip.cmp.items = [{ a with stage := .placed, start := candidate l a.markOfs, nextLine := candidate l a.markOfs, flags := a.flags ||| 2 ^ flagSubst }] ∧
      (s.chip.at t).Raised u.chip [(0x0B09, [])]) ∧
  (∀ (t id : Nat) (start : Int) (s : State), s.chip.up 5 = true → s.chip.cmp.items = [] →
    ∃ u, exec (.partnerPlacementRx t id start) s = .next u ∧ Leaves t [.cmp] ∅ s u ∧
      u.chip.cmp = { s.chip.cmp with notes := s.chip.cmp.notes ++ [{ id := id, start := start }] })

/-- Composition and assembly (R153, R168 to R171, R173, R182, R184, R186, R743, R745). Enabling CMP puts the frontier on the line after the last
one issued, with every ring tag cleared; disabling it stops it and keeps the queue. A frontier line without content is composed as blank:
the frontier moves on by one, the ring slots of the enabled tile positions hold zeros and their tags match. An assembler that has a line to
build puts it into its port's queue. Reading a low word captures the high word. The model's own choices in this: entries 17, 63 of the log. -/
def Obligations.ComposingAndAssembling : Prop :=
  (∀ (t : Nat) (i : Initiator) (w : Word) (s : State), s.chip.mayWrite i R.CMP_CTRL.addr → s.chip.switchState = 0 → s.chip.calBusy = false →
    s.chip.on F.CMP_CTRL_EN = false → s.chip.cmp.items = [] →
    ∃ u, exec (.cmpEnable t i w) s = .next u ∧ WriteLeaves t i R.CMP_CTRL.addr [.cmp, .fw, .ev, .pwr] (blockRegsSet 0x0B ∪ blockRegsSet 0x01) s u ∧
      u.chip.on F.CMP_CTRL_EN = true ∧ u.chip.on F.CMP_STAT_RUN = true ∧ u.chip.cmp.w = s.chip.lastIssued + 1 ∧ u.chip.cmp.tags = [] ∧
      (∀ j : Fin 8, u.chip.cmp.laneEnd[j] = none)) ∧
  (∀ (t : Nat) (i : Initiator) (w : Word) (s : State), s.chip.mayWrite i R.CMP_CTRL.addr → s.chip.switchState = 0 → s.chip.calBusy = false →
    s.chip.on F.CMP_CTRL_EN = true →
    ∃ u, exec (.cmpDisable t i w) s = .next u ∧ WriteLeaves t i R.CMP_CTRL.addr [.pwr] ({R.CMP_CTRL.addr, F.CMP_STAT_RUN.addr} ∪ blockRegsSet 0x01) s u ∧
      u.chip.on F.CMP_CTRL_EN = false ∧ u.chip.on F.CMP_STAT_RUN = false) ∧
  (∀ (t : Nat) (s : State), s.chip.up 5 = true → s.chip.mayCompose = true →
    (∀ a ∈ s.chip.cmp.items, a.stage ≠ .placed ∨ s.chip.cmp.w < a.start ∨ a.start + (a.lines : Int) ≤ s.chip.cmp.w) →
    (∀ p : Fin 8, s.chip.on F.CMP_TP_EN p = false) →
    ∃ u, exec (.composeLine t []) s = .next u ∧ Leaves t [.cmp, .ev, .pwr] ({F.CMP_STAT_BEHIND.addr} ∪ blockRegsSet 0x01) s u ∧
      u.chip.cmp = { s.chip.cmp with w := s.chip.cmp.w + 1 }) ∧
  (∀ (t : Nat) (s : State), s.chip.up 5 = true → s.chip.mayCompose = true → s.chip.cmp.items = [] → s.chip.ddrReady = true →
    s.chip.on F.CMP_TP_EN 0 = true → (∀ p : Fin 8, p.val ≠ 0 → s.chip.on F.CMP_TP_EN p = false) →
    (∀ ch : Fin 6, s.chip.inDdr (s.chip.ringAddr 0 ch s.chip.cmp.w) 320 = true) → (∀ w : Fin 8, s.chip.on F.DDR_WIN_PERM_EN w = false) →
    ∃ u, exec (.composeLine t []) s = .next u ∧ LeavesChip t [.cmp, .ev, .pwr] ({F.CMP_STAT_BEHIND.addr} ∪ blockRegsSet 0x01) s u ∧
      u.chip.cmp.w = s.chip.cmp.w + 1 ∧ u.chip.tagMatches 0 s.chip.cmp.w = true ∧ u.store = { s.store with mem := u.store.mem } ∧
      (∀ ch : Fin 6, ∀ b ∈ u.store.read (s.chip.ringAddr 0 ch s.chip.cmp.w) 320, b = 0) ∧
      (∀ a : Nat, (∀ ch : Fin 6, a < s.chip.ringAddr 0 ch s.chip.cmp.w ∨ s.chip.ringAddr 0 ch s.chip.cmp.w + 320 ≤ a) → u.store.read a 1 = s.store.read a 1)) ∧
  (∀ (t : Nat) (k : Fin 8) (n : Int) (s : State), s.chip.up 5 = true → s.chip.assembles k = true → s.chip.nextLine k = some n →
    s.chip.switchState = 0 → s.chip.col.stby = [] → (s.chip.port k).queue.length < 32 → s.chip.flw.wantTake = [] →
    ∃ u, exec (.lineAssemble t k []) s = .next u ∧ u.pending = s.pending ∧ u.store = s.store ∧ u.chip.now = max s.chip.now t ∧
      (∃ q ∈ (u.chip.port k).queue, q.line = n) ∧ (u.chip.port k).queue.length = (s.chip.port k).queue.length + 1 ∧ n ≤ u.chip.asm[k].top ∧
      u.chip.trk = s.chip.trk ∧ u.chip.cmp.w = s.chip.cmp.w ∧ u.chip.str = s.chip.str) ∧
  (∀ (t : Nat) (i : Initiator) (s : State), s.chip.mayRead i R.CMP_FRONT_LO.addr →
    ∃ u, exec (.cmpFrontLoRead t i) s = .next u ∧ ReadLeaves t (unsigned 48 s.chip.cmp.w % 2 ^ 32) [.latch] ∅ s u ∧
      u.chip.captured R.CMP_FRONT_HI.addr = unsigned 48 s.chip.cmp.w / 2 ^ 32) ∧
  (∀ (t : Nat) (i : Initiator) (s : State), s.chip.mayRead i R.CMP_ASM_LO.addr →
    ∃ u, exec (.cmpAsmLoRead t i) s = .next u ∧ ReadLeaves t (unsigned 48 s.chip.mA % 2 ^ 32) [.latch] ∅ s u ∧
      u.chip.captured R.CMP_ASM_HI.addr = unsigned 48 s.chip.mA / 2 ^ 32)

/-- Mode notices and standby commands (R189, R196, R197). COL applies a mode notice from the named line, or where the port's transfers have
reached it from the first line whose transfer has not started; COL_SW_LO and COL_SW_HI show port and applied line, PARITY_SWITCH is
recorded, and TKO learns the line of a takeover. A standby command is kept for its named line, or refused, counted and recorded. Reading
COL_SW_LO captures COL_SW_HI. The model's own choices in this: entries 17, 59 of the log. -/
def Obligations.ModesAndStandby : Prop :=
  (∀ (t : Nat) (m : ModeNotice) (r : List ModeNotice) (n : Int) (s : State), s.chip.up 5 = true → s.chip.col.notices = m :: r →
    n = (match (s.chip.port m.port).xferTop with | none => m.line | some l => if l < m.line then m.line else l + 1) →
    m.every = false → s.chip.firesNow m.port ≠ 3 → s.chip.homeSet m.port ≠ 3 → s.chip.on F.COL_PSTAT_EXTRA m.port = false →
    ∃ u, exec (.modeNotice t) s = .next u ∧
      Leaves t [.col, .ev] {F.COL_PSTAT_FIRES.at m.port 0, F.COL_STAT_SOLO.addr, F.COL_SW_LO_LINE_LO.addr, F.COL_SW_HI_PORT.addr} s u ∧
      u.chip.col = { s.chip.col with
        notices := r, switchAt := s.chip.col.switchAt.set m.port n, prevFires := s.chip.col.prevFires.set m.port (s.chip.firesNow m.port), prevSolo := s.chip.col.prevSolo.set m.port (bitAt (s.chip.get F.COL_STAT_SOLO) m.port) } ∧
      u.chip.get F.COL_PSTAT_FIRES m.port = s.chip.homeSet m.port ∧ bitAt (u.chip.get F.COL_STAT_SOLO) m.port = false ∧
      u.chip.get F.COL_SW_LO_LINE_LO = unsigned 48 n % 2 ^ 32 ∧ u.chip.get F.COL_SW_HI_LINE_HI = unsigned 48 n / 2 ^ 32 ∧
      u.chip.get F.COL_SW_HI_PORT = m.port.val ∧
      (s.chip.at t).Raised u.chip [(0x0C01, [(1, m.port.val), (6, unsigned 48 m.line), (6, unsigned 48 n)])]) ∧
  (∀ (t : Nat) (m : ModeNotice) (r : List ModeNotice) (n : Int) (s : State), s.chip.up 5 = true → s.chip.col.notices = m :: r →
    n = (match (s.chip.port m.port).xferTop with | none => m.line | some l => if l < m.line then m.line else l + 1) →
    m.every = true → s.chip.firesNow m.port ≠ 3 → s.chip.on F.COL_PSTAT_EXTRA m.port = false → s.chip.tko.lostLines[m.port] = none →
    bitAt (s.chip.get F.TKO_PORTS_LOST) m.port = true →
    ∃ u, exec (.modeNotice t) s = .next u ∧
      Leaves t [.col, .asm, .tko, .ev] {F.COL_PSTAT_FIRES.at m.port 0, F.COL_STAT_SOLO.addr, F.COL_SW_LO_LINE_LO.addr, F.COL_SW_HI_PORT.addr, F.FLW_STAT_BRIDGE.addr} s u ∧
      u.chip.col.notices = r ∧ u.chip.col.switchAt = s.chip.col.switchAt.set m.port n ∧ u.chip.col.dnt = s.chip.col.dnt ∧
      u.chip.get F.COL_PSTAT_FIRES m.port = 3 ∧ bitAt (u.chip.get F.COL_STAT_SOLO) m.port = true ∧
      u.chip.get F.COL_SW_LO_LINE_LO = unsigned 48 n % 2 ^ 32 ∧ u.chip.get F.COL_SW_HI_LINE_HI = unsigned 48 n / 2 ^ 32 ∧
      bitAt (u.chip.get F.FLW_STAT_BRIDGE) m.port = true ∧ u.chip.asm[m.port].bridgeTo = some (s.chip.queueTop m.port) ∧
      u.chip.tko.swLine = some n ∧
      (s.chip.at t).Raised u.chip [(0x0C01, [(1, m.port.val), (6, unsigned 48 m.line), (6, unsigned 48 n)])]) ∧
  (∀ (t : Nat) (i : Initiator) (w : Word) (k : Fin 8) (tp : Nat) (line : Int) (s : State), s.chip.mayWrite i R.COL_STBY_CMD.addr →
    k.val = fld F.COL_STBY_CMD_PORT w.toNat → tp = fld F.COL_STBY_CMD_TARGET w.toNat →
    line = signed 48 (s.chip.get F.COL_STBY_LINE_HI_LINE_HI * 2 ^ 32 + s.chip.get F.COL_STBY_LINE_LO_LINE_LO) →
    s.chip.asm[k].top < line → s.chip.on F.COL_STBY_ARM k = true → s.chip.portMode k = 3 → s.chip.on F.CMP_TP_EN tp = true →
    s.chip.feature 1 = true →
    ∃ u, exec (.stbyActivate t i w) s = .next u ∧ WriteLeaves t i R.COL_STBY_CMD.addr [.col] ∅ s u ∧
      u.chip.col = { s.chip.col with stby := s.chip.col.stby ++ [(k.val, tp, true, line)] }) ∧
  (∀ (t : Nat) (i : Initiator) (w : Word) (k : Fin 8) (tp : Nat) (line : Int) (s : State), s.chip.mayWrite i R.COL_STBY_CMD.addr →
    k.val = fld F.COL_STBY_CMD_PORT w.toNat → tp = fld F.COL_STBY_CMD_TARGET w.toNat →
    line = signed 48 (s.chip.get F.COL_STBY_LINE_HI_LINE_HI * 2 ^ 32 + s.chip.get F.COL_STBY_LINE_LO_LINE_LO) →
    line ≤ s.chip.asm[k].top ∨ s.chip.on F.COL_STBY_ARM k = false ∨ s.chip.portMode k ≠ 3 ∨ s.chip.on F.CMP_TP_EN tp = false ∨
      s.chip.feature 1 = false →
    ∃ u, exec (.stbyActivate t i w) s = .next u ∧ WriteLeaves t i R.COL_STBY_CMD.addr [.ev] {F.COL_REJ_CNT_COUNT.addr} s u ∧
      u.chip.get F.COL_REJ_CNT_COUNT = satNat (F.COL_REJ_CNT_COUNT.hi + 1 - F.COL_REJ_CNT_COUNT.lo) (s.chip.get F.COL_REJ_CNT_COUNT + 1) ∧
      (s.chip.at t).Raised u.chip [(0x0C05, [])]) ∧
  (∀ (t : Nat) (i : Initiator) (w : Word) (k : Fin 8) (tp : Nat) (line : Int) (s : State), s.chip.mayWrite i R.COL_STBY_CMD.addr →
    k.val = fld F.COL_STBY_CMD_PORT w.toNat → tp = fld F.COL_STBY_CMD_TARGET w.toNat →
    line = signed 48 (s.chip.get F.COL_STBY_LINE_HI_LINE_HI * 2 ^ 32 + s.chip.get F.COL_STBY_LINE_LO_LINE_LO) →
    s.chip.asm[k].top < line → s.chip.on F.COL_STBY_ARM k = true → s.chip.portMode k = 3 → s.chip.on F.CMP_TP_EN tp = true →
    s.chip.feature 1 = true → s.chip.on F.COL_STBY_ACT k = true →
    ∃ u, exec (.stbyRelease t i w) s = .next u ∧ WriteLeaves t i R.COL_STBY_CMD.addr [.col] ∅ s u ∧
      u.chip.col = { s.chip.col with stby := s.chip.col.stby ++ [(k.val, tp, false, line)] }) ∧
  (∀ (t : Nat) (i : Initiator) (s : State), s.chip.mayRead i R.COL_SW_LO.addr →
    ∃ u, exec (.colSwLoRead t i) s = .next u ∧ ReadLeaves t (s.chip.word R.COL_SW_LO.addr).toNat [.latch] ∅ s u ∧
      u.chip.captured R.COL_SW_HI.addr = (s.chip.word R.COL_SW_HI.addr).toNat)

/-- The dead-nozzle table and its exchange (R198, R199, R202, R206, R208, R212), where no enabled port shares a tile in mode BOTH. A software
write of an unused index installs a DEAD entry of source 2 with its forced method; one that names no nozzle, or another kind, is ignored and
counted; one with VALID 0 removes the entry. Reading returns the entry's word. Both advance IDX while AUTOINC is 1. A REQ is answered by ACK
with the largest next line plus the margin, or by NACK with its reason. The last ACK commits; a NACK, and time running out, record
REQ_FAILED and take the next method. COMMIT installs and RELEASE removes the recipient's entry. The model's own choices in this: entries 60,
61 of the log. -/
def Obligations.DeadNozzleTable : Prop :=
  (∀ (t : Nat) (i : Initiator) (w : Word) (m : Nat) (s : State), s.chip.mayWrite i R.COL_DNT_DATA.addr →
    (∀ k : Fin 8, s.chip.portMode k ≠ 1 ∧ s.chip.on F.COL_PSTAT_EXTRA k = false) → bitAt w.toNat 31 = true → bitsOf w.toNat 13 12 = 0 →
    bitsOf w.toNat 27 25 ≤ 5 → bitsOf w.toNat 24 14 ≤ 1279 → m = bitsOf w.toNat 11 10 → m = 1 ∨ m = 3 →
    (∀ e ∈ s.chip.col.dnt, e.idx ≠ s.chip.get F.COL_DNT_IDX_IDX) →
    s.chip.isDead (bitsOf w.toNat 30 28) (bitsOf w.toNat 27 25) (bitsOf w.toNat 24 14) = false →
    ∃ u, exec (.dntWrite t i w) s = .next u ∧
      WriteLeaves t i R.COL_DNT_DATA.addr [.col] {F.COL_DNT_CNT_USED.addr, F.COL_STAT_REQ_WAIT.addr, F.COL_DNT_IDX_IDX.addr} s u ∧
      u.chip.col = { s.chip.col with
        dnt := s.chip.col.dnt ++
        [{ idx := s.chip.get F.COL_DNT_IDX_IDX, port := bitsOf w.toNat 30 28, ic := bitsOf w.toNat 27 25, col := bitsOf w.toNat 24 14, kind := 0,
           method := m, source := 2, state := if m = 3 then 4 else 1 }],
        refused := s.chip.col.refused.filter (fun x => x != (bitsOf w.toNat 30 28, bitsOf w.toNat 27 25, bitsOf w.toNat 24 14)) } ∧
      u.chip.get F.COL_DNT_IDX_IDX = (if s.chip.on F.COL_DNT_IDX_AUTOINC then (s.chip.get F.COL_DNT_IDX_IDX + 1) % 4096 else s.chip.get F.COL_DNT_IDX_IDX)) ∧
  (∀ (t : Nat) (i : Initiator) (w : Word) (s : State), s.chip.mayWrite i R.COL_DNT_DATA.addr →
    bitsOf w.toNat 13 12 ≠ 0 ∨ 5 < bitsOf w.toNat 27 25 ∨ 1279 < bitsOf w.toNat 24 14 →
    ∃ u, exec (.dntWrite t i w) s = .next u ∧ WriteLeaves t i R.COL_DNT_DATA.addr [] {F.COL_REJ_CNT_COUNT.addr, F.COL_DNT_IDX_IDX.addr} s u ∧
      u.chip.get F.COL_REJ_CNT_COUNT = satNat (F.COL_REJ_CNT_COUNT.hi + 1 - F.COL_REJ_CNT_COUNT.lo) (s.chip.get F.COL_REJ_CNT_COUNT + 1) ∧
      u.chip.get F.COL_DNT_IDX_IDX = (if s.chip.on F.COL_DNT_IDX_AUTOINC then (s.chip.get F.COL_DNT_IDX_IDX + 1) % 4096 else s.chip.get F.COL_DNT_IDX_IDX)) ∧
  (∀ (t : Nat) (i : Initiator) (w : Word) (e : DntEntry) (s : State), s.chip.mayWrite i R.COL_DNT_DATA.addr →
    (∀ k : Fin 8, s.chip.portMode k ≠ 1 ∧ s.chip.on F.COL_PSTAT_EXTRA k = false) → bitAt w.toNat 31 = false → bitsOf w.toNat 13 12 = 0 →
    bitsOf w.toNat 27 25 ≤ 5 → bitsOf w.toNat 24 14 ≤ 1279 → s.chip.entryAt (s.chip.get F.COL_DNT_IDX_IDX) = some e → e.stage = .none →
    ∃ u, exec (.dntWrite t i w) s = .next u ∧
      WriteLeaves t i R.COL_DNT_DATA.addr [.col] {F.COL_DNT_CNT_USED.addr, F.COL_STAT_REQ_WAIT.addr, F.COL_DNT_IDX_IDX.addr} s u ∧
      u.chip.col = { s.chip.col with dnt := s.chip.col.dnt.filter (fun x => x.idx != s.chip.get F.COL_DNT_IDX_IDX) }) ∧
  (∀ (t : Nat) (i : Initiator) (s : State), s.chip.mayRead i R.COL_DNT_DATA.addr →
    ∃ u, exec (.dntRead t i) s = .next u ∧
      ReadLeaves t (match s.chip.entryAt (s.chip.get F.COL_DNT_IDX_IDX) with | some e => e.word | none => 0) [] {F.COL_DNT_IDX_IDX.addr} s u ∧
      u.chip.get F.COL_DNT_IDX_IDX = (if s.chip.on F.COL_DNT_IDX_AUTOINC then (s.chip.get F.COL_DNT_IDX_IDX + 1) % 4096 else s.chip.get F.COL_DNT_IDX_IDX)) ∧
  (∀ (t src tp ic col method : Nat) (s : State), s.chip.up 5 = true → s.chip.portsOf tp ≠ [] →
    (∀ k ∈ s.chip.portsOf tp, s.chip.isDead k ic col = false ∧ s.chip.get F.COL_PSTAT_FIRES k ≠ 3) → s.chip.freeIndex ≠ none →
    method ≠ 3 ∨ s.chip.twin = false →
    ∃ u, exec (.colReqRx t src tp ic col method) s = .next u ∧ Leaves t [.sent] ∅ s u ∧
      u.chip.sent = s.chip.sent ++ [⟨"colAck", [src, s.chip.nodeId, tp, ic, col, method, unsigned 48 (s.chip.answerLine (s.chip.portsOf tp) ic)]⟩]) ∧
  (∀ (t src tp ic col method reason : Nat) (s : State), s.chip.up 5 = true →
    reason = 4 ∧ s.chip.portsOf tp = [] ∨
      reason = 1 ∧ (∃ k ∈ s.chip.portsOf tp, s.chip.isDead k ic col = true) ∨
      reason = 2 ∧ (∀ k ∈ s.chip.portsOf tp, s.chip.isDead k ic col = false) ∧ (∃ k ∈ s.chip.portsOf tp, s.chip.get F.COL_PSTAT_FIRES k = 3) →
    ∃ u, exec (.colReqRx t src tp ic col method) s = .next u ∧ Leaves t [.sent] ∅ s u ∧
      u.chip.sent = s.chip.sent ++ [⟨"colNack", [src, s.chip.nodeId, tp, ic, col, method, reason]⟩]) ∧
  (∀ (t node tp ic col method : Nat) (ar : Int) (e : DntEntry) (own : Bool) (s : State), s.chip.up 5 = true →
    (∀ k : Fin 8, s.chip.portMode k ≠ 1 ∧ s.chip.on F.COL_PSTAT_EXTRA k = false) → s.chip.col.dnt = [e] → e.kind = 0 → e.stage = .asked →
    e.ic = ic → e.asks = method → e.wait = [⟨node, tp, col, own⟩] → e.acked = [] → node ≠ s.chip.nodeId →
    ∃ u, exec (.colAckRx t node tp ic col method ar) s = .next u ∧ Leaves t [.col, .sent] {F.COL_DNT_CNT_USED.addr, F.COL_STAT_REQ_WAIT.addr} s u ∧
      u.chip.col = { s.chip.col with dnt := [{ e with stage := .committed, state := method, wait := [], acked := [⟨node, tp, col, own⟩], wa := max e.wa ar }] } ∧
      u.chip.sent = s.chip.sent ++ [⟨"colCommit", [node, s.chip.nodeId, tp, ic, col, method, bit own, unsigned 48 (max e.wa ar)]⟩]) ∧
  (∀ (t node tp col reason : Nat) (e : DntEntry) (own : Bool) (s : State), s.chip.up 5 = true →
    (∀ k : Fin 8, s.chip.portMode k ≠ 1 ∧ s.chip.on F.COL_PSTAT_EXTRA k = false) → s.chip.col.dnt = [e] → e.kind = 0 → e.stage = .asked →
    e.asks = 2 → e.method = 2 → e.wait = [⟨node, tp, col, own⟩] → e.acked = [] → e.port < 8 →
    ∃ u, exec (.colNackRx t node tp e.ic col 2 reason) s = .next u ∧ Leaves t [.col, .ev] {F.COL_DNT_CNT_USED.addr, F.COL_STAT_REQ_WAIT.addr} s u ∧
      u.chip.col = { s.chip.col with dnt := [{ e with state := 1, stage := .none, asks := 0, wait := [], tried := 2 :: e.tried }] } ∧
      (s.chip.at t).Raised u.chip [(0x0C07, [(1, e.port), (1, e.ic), (2, e.col), (1, reason)])]) ∧
  (∀ (t : Nat) (e : DntEntry) (s : State), s.chip.up 5 = true →
    (∀ k : Fin 8, s.chip.portMode k ≠ 1 ∧ s.chip.on F.COL_PSTAT_EXTRA k = false) → s.chip.col.dnt = [e] → e.kind = 0 → e.stage = .asked →
    e.asks = 2 → e.method = 2 → e.acked = [] → e.port < 8 → e.deadline ≤ max s.chip.now t →
    ∃ u, exec (.colReqTimeout t e.idx) s = .next u ∧ Leaves t [.col, .ev] {F.COL_DNT_CNT_USED.addr, F.COL_STAT_REQ_WAIT.addr} s u ∧
      u.chip.col = { s.chip.col with dnt := [{ e with state := 1, stage := .none, asks := 0, wait := [], tried := 2 :: e.tried }] } ∧
      (s.chip.at t).Raised u.chip [(0x0C07, [(1, e.port), (1, e.ic), (2, e.col), (1, 0)])]) ∧
  (∀ (t src tp ic col idx : Nat) (own : Bool) (wa : Int) (k : Fin 8) (s : State), s.chip.up 5 = true →
    (∀ k : Fin 8, s.chip.portMode k ≠ 1 ∧ s.chip.on F.COL_PSTAT_EXTRA k = false) → s.chip.portsOf tp = [k] → s.chip.freeIndex = some idx →
    s.chip.answerLine [k] ic ≤ wa + (s.chip.get F.COL_XCFG_REQ_MARGIN : Int) →
    ∃ u, exec (.colCommitRx t src tp ic col 2 own wa) s = .next u ∧ Leaves t [.col] {F.COL_DNT_CNT_USED.addr, F.COL_STAT_REQ_WAIT.addr} s u ∧
      u.chip.col = { s.chip.col with dnt := s.chip.col.dnt ++
        [{ idx := idx, port := k.val, ic := ic, col := col, kind := 1, method := 0, source := 3, state := 2, wa := wa, owner := src, away := own }] }) ∧
  (∀ (t src tp ic col : Nat) (k : Fin 8) (s : State), s.chip.up 5 = true →
    (∀ k : Fin 8, s.chip.portMode k ≠ 1 ∧ s.chip.on F.COL_PSTAT_EXTRA k = false) → s.chip.portsOf tp = [k] →
    ∃ u, exec (.colReleaseRx t src tp ic col 2) s = .next u ∧ Leaves t [.col] {F.COL_DNT_CNT_USED.addr, F.COL_STAT_REQ_WAIT.addr} s u ∧
      u.chip.col = { s.chip.col with dnt := s.chip.col.dnt.filter (fun e =>
        !(e.kind == 1 && e.ic == ic && e.col == col && e.source == 3 && e.port == k.val)) })

/-- Lines at a head port (R39, R40, R53, R125, R287, R291 to R295, R297, R303 to R306, R341, R351). A line event on its way reaches the port and
is held; one marked DROP is passed over and its groups are skipped. When a transfer is due the port takes the line from its queue under the
next line tag. It sends the segment of the next row into a free slot of the head. At its edge a FIRE symbol strobes the rows, and the port
keeps the edge. A strobe watchdog that finds FIRE high for its limit holds FIRE low and cuts the head supply; below the limit nothing
changes. The model's own choices in this: entries 70, 76, 77 of the log. -/
def Obligations.LinesGoToTheHead : Prop :=
  (∀ (t : Nat) (k : Fin 8) (e : LineEvent) (rest : List LineEvent) (s : State), s.chip.up (8 + k.val) = true → s.chip.trk.way[k] = e :: rest →
    s.chip.isUp k = true → s.chip.isFenced k = false → s.chip.switchState = 0 → s.chip.ldl.grants = [] → s.chip.ldl.asks = [] →
    bitAt (s.chip.get F.FLW_WARM_STAT_IDLE_ACT) k = false → s.chip.flw.warmSent[k] = [] → e.drop = false →
    (s.chip.at t).nowQ ≤ s.chip.firstDue k e → (s.chip.port k).events.length < 64 →
    ∃ u, exec (.lineEventArrival t k) s = .next u ∧ Leaves t [.trk, .hp] ∅ s u ∧
      u.chip.trk = { s.chip.trk with way := s.chip.trk.way.set k rest } ∧
      u.chip.hp = s.chip.hp.set k { s.chip.port k with events := (s.chip.port k).events ++ [e] }) ∧
  (∀ (t : Nat) (k : Fin 8) (e : LineEvent) (rest : List LineEvent) (s : State), s.chip.up (8 + k.val) = true → s.chip.trk.way[k] = e :: rest →
    s.chip.isUp k = true → s.chip.isFenced k = false → s.chip.switchState = 0 → s.chip.ldl.grants = [] → s.chip.ldl.asks = [] →
    bitAt (s.chip.get F.FLW_WARM_STAT_IDLE_ACT) k = false → s.chip.flw.warmSent[k] = [] → e.drop = true → s.chip.portFires k e.line = true →
    (s.chip.port k).xfer = none → (s.chip.port k).held = Vector.replicate 6 [] →
    ∃ u, exec (.lineEventArrival t k) s = .next u ∧ Leaves t [.trk, .hp] {F.NZH_MISS_CNT_SKIP.addr} s u ∧
      u.chip.trk = { s.chip.trk with way := s.chip.trk.way.set k rest } ∧
      u.chip.hp = s.chip.hp.set k { s.chip.port k with gone := e.line :: (s.chip.port k).gone } ∧
      u.chip.get F.NZH_MISS_CNT_SKIP = satNat (F.NZH_MISS_CNT_SKIP.hi + 1 - F.NZH_MISS_CNT_SKIP.lo)
        (s.chip.get F.NZH_MISS_CNT_SKIP + (if s.chip.senses k then s.chip.groupsPerLine k e.line else 0))) ∧
  (∀ (t : Nat) (k : Fin 8) (m : Int) (l : PortLine) (rest : List PortLine) (s : State), s.chip.up (8 + k.val) = true → s.chip.timeValid (8 + k.val) = true →
    s.chip.isUp k = true → s.chip.isFenced k = false → s.chip.switchState = 0 → (s.chip.port k).xfer = none → s.chip.nextTransfer k = some m →
    (s.chip.at t).transferDue k m = true → (s.chip.port k).queue = l :: rest → l.line = m → m ∉ (s.chip.port k).gone →
    (s.chip.port k).pendLimit = none → (s.chip.port k).fillFrom = none → s.chip.on F.HP_PSTAT_BLANK k = false → (s.chip.port k).restore = false →
    s.chip.get F.FLW_COLDMAP_LINES = 0 → s.chip.flw.coldLeft[k] = 0 →
    ∃ u, exec (.lineTransferStart t k) s = .next u ∧
      Leaves t [.force, .hp, .sent] {F.HP_SPREAD_CNT_COUNT.at k 0, F.HP_GRP_G_NOW.at k 0, F.FLW_STAT_COLD.addr} s u ∧
      (∃ x, (u.chip.port k).xfer = some x ∧ x.line = m ∧ x.ltag = (s.chip.port k).ltag ∧ x.words = l.words ∧ x.bank = l.bank) ∧
      (u.chip.port k).ltag = ((s.chip.port k).ltag + 1) % 4096 ∧ (u.chip.port k).xferTop = some m ∧
      (u.chip.port k).queue = rest.filter (fun q => m < q.line) ∧ (∀ j : Fin 8, j ≠ k → u.chip.port j = s.chip.port j) ∧
      u.chip.sent = s.chip.sent ++ [⟨"sns", [k.val, (s.chip.port k).ltag] ++ l.sensed⟩]) ∧
  (∀ (t : Nat) (k : Fin 8) (x : Transfer) (r : Fin 6) (a : Nat) (rest : List Nat) (s : State), s.chip.up (8 + k.val) = true → s.chip.switchState = 0 →
    (s.chip.port k).xfer = some x → x.rows = r.val :: a :: rest → (s.chip.port k).predict x.line = none → ((s.chip.port k).held[r]).length < 2 →
    (s.chip.port k).busyUntil ≤ max s.chip.now t →
    ∃ u, exec (.segmentSend t k) s = .next u ∧ Leaves t [.hp, .sent] ∅ s u ∧
      (u.chip.port k).xfer = some { x with rows := a :: rest } ∧
      (u.chip.port k).held = (s.chip.port k).held.set r ((s.chip.port k).held[r] ++ [{ line := x.line, ltag := x.ltag, groups := 4 * 2 ^ x.g, bank := x.bank }]) ∧
      (u.chip.port k).busyUntil = max s.chip.now t + ns 33 * (if s.chip.get F.HP_STAT_LANES k = 3 then 41 else 81) ∧
      (∀ j : Fin 8, j ≠ k → u.chip.port j = s.chip.port j) ∧
      u.chip.sent = s.chip.sent ++ [⟨"segment", [k.val, x.ltag, r.val, x.bank, x.g, unsigned 8 (x.trims.getD r.val 0),
        crc16 (nibbleBytes (x.words.getD r.val []))] ++ nibbleBytes (x.words.getD r.val [])⟩]) ∧
  (∀ (t : Nat) (k : Fin 8) (r : Fin 6) (h : HeldRow) (more : List HeldRow) (tap : Int) (s : State), s.chip.up (8 + k.val) = true →
    s.chip.timeValid (8 + k.val) = true → s.chip.isUp k = true → s.chip.switchState = 0 → (s.chip.port k).wdogHeld = false →
    s.chip.nextStrobes k = [(r, h, tap)] → (s.chip.port k).held[r] = h :: more → tap ≤ (s.chip.at t).nowTaps → (s.chip.port k).lastSymbol = none →
    (s.chip.port k).firedTop = some h.line → (s.chip.port k).todo = [] →
    ∃ u, exec (.fireStrobe t k) s = .next u ∧ Leaves t [.hp, .flw, .sent] ∅ s u ∧
      (u.chip.port k).lastSymbol = some tap ∧
      (u.chip.port k).held[r] = (if h.strobed + 1 = h.groups then more else { h with strobed := h.strobed + 1 } :: more) ∧
      (∀ j : Fin 8, j ≠ k → u.chip.port j = s.chip.port j) ∧
      u.chip.flw = { s.chip.flw with lastStrobe := s.chip.flw.lastStrobe.set k (max s.chip.now t), everFired := s.chip.flw.everFired.set k true } ∧
      u.chip.sent = s.chip.sent ++ [⟨"fire", [k.val, 2 ^ r.val, tap.toNat]⟩]) ∧
  (∀ (t : Nat) (k : Fin 8) (high : Nat) (s : State), s.chip.switchState = 0 → (s.chip.port k).wdog ≤ high → s.chip.portState k = 2 →
    s.chip.on F.HP_STAT_EN_OUT k = true → (s.chip.port k).events = [] → s.chip.ldl.grants = [] →
    ∃ u, exec (.wdogAct t k high) s = .next u ∧ Leaves t [.hp, .ev, .ldl] {F.HP_PSTAT_WDOG.at k 0, F.HP_STAT_STATE.at k 0} s u ∧
      u.chip.on F.HP_PSTAT_WDOG k = true ∧ u.chip.on F.HP_PSTAT_CUT k = true ∧ u.chip.on F.HP_STAT_EN_OUT k = false ∧
      u.chip.portState k = 0 ∧ (u.chip.port k).wdogHeld = true ∧
      (s.chip.at t).Raised u.chip [(hpCode k 0x11, [(1, 4)]), (hpCode k 0x02, [(1, vacCut)])]) ∧
  (∀ (t : Nat) (k : Fin 8) (high : Nat) (s : State), s.chip.switchState = 0 → high < (s.chip.port k).wdog →
    exec (.wdogAct t k high) s = .next { s with chip := s.chip.at t })

/-- The back channel (R309, R311, R319, R344 to R348, R351). A damaged frame is discarded and counted; the first after a valid one is recorded.
A LINE or IDLE frame of a port that is UP shows the hottest row's temperature and the lowest such row, clears TEMP_LOST, and a reading of
T_WARN or more sets WARN. An answer of an expert command appears in HPk_XRSP; one with another tag is not taken. An EVT frame sets HEAD_EVT
and is recorded, code 4 also sets HEAD_TO. Symbol lock in TRAIN sets BC_LOCK. No valid frame for TLOST times 100 us sets TEMP_LOST and
starts blanking. The model's own choices in this: entries 74, 76 of the log. -/
def Obligations.BackChannel : Prop :=
  (∀ (t : Nat) (k : Fin 8) (ltag : Nat) (temps : List Int) (sigs : List Signature) (s : State), s.chip.up (8 + k.val) = true → s.chip.switchState = 0 →
    2 ≤ s.chip.portState k → s.chip.portState k ≤ 5 → (s.chip.port k).frameOk = true →
    ∃ u, exec (.bcLineFrame t k .badCrc ltag temps sigs) s = .next u ∧ Leaves t [.hp, .ev] {F.HP_BCERR_CNT_CRC.at k 0, F.HP_STAT_BC_CRC.at k 0} s u ∧
      u.chip.get F.HP_BCERR_CNT_CRC k = satNat (F.HP_BCERR_CNT_CRC.hi + 1 - F.HP_BCERR_CNT_CRC.lo) (s.chip.get F.HP_BCERR_CNT_CRC k + 1) ∧
      u.chip.get F.HP_BCERR_CNT_FORMAT k = s.chip.get F.HP_BCERR_CNT_FORMAT k ∧
      u.chip.on F.HP_STAT_BC_CRC k = true ∧ u.chip.hp = s.chip.hp.set k { s.chip.port k with frameOk := false } ∧
      (s.chip.at t).Raised u.chip [(hpCode k 0x09, [])]) ∧
  (∀ (t : Nat) (k : Fin 8) (temps : List Int) (s : State), s.chip.up (8 + k.val) = true → s.chip.switchState = 0 →
    2 ≤ s.chip.portState k → s.chip.portState k ≤ 5 → (s.chip.port k).frameOk = false →
    ∃ u, exec (.bcIdleFrame t k .badForm temps) s = .next u ∧ Leaves t [] {F.HP_BCERR_CNT_FORMAT.at k 0, F.HP_STAT_BC_CRC.at k 0} s u ∧
      u.chip.get F.HP_BCERR_CNT_FORMAT k = satNat (F.HP_BCERR_CNT_FORMAT.hi + 1 - F.HP_BCERR_CNT_FORMAT.lo) (s.chip.get F.HP_BCERR_CNT_FORMAT k + 1) ∧
      u.chip.on F.HP_STAT_BC_CRC k = true) ∧
  (∀ (t : Nat) (k : Fin 8) (ltag : Nat) (temps : List Int) (sigs : List Signature) (s : State), s.chip.up (8 + k.val) = true → s.chip.switchState = 0 →
    s.chip.isUp k = true → temps.length = 6 → (∀ x ∈ temps, -2048 ≤ x ∧ x < signed 12 (s.chip.get F.HP_TLIM_T_LIMIT k) ∧ x < signed 12 (s.chip.get F.HP_TLIM_T_CRIT k)) →
    s.chip.on F.HP_PSTAT_BLANK k = false → (∀ x ∈ (s.chip.port k).sent, x.ltag ≠ ltag) →
    ∃ u, exec (.bcLineFrame t k .good ltag temps sigs) s = .next u ∧
      Leaves t [.hp, .ev, .flw, .ldl] ({F.HP_TEMP_T_H.at k 0, F.HP_PSTAT_WARN.at k 0} ∪ blockRegsSet 0x0D ∪ blockRegsSet 0x08) s u ∧
      u.chip.hp = s.chip.hp.set k { s.chip.port k with frameOk := true, lastFrame := max s.chip.now t } ∧
      (∀ x ∈ temps, x ≤ signed 12 (u.chip.get F.HP_TEMP_T_H k)) ∧ signed 12 (u.chip.get F.HP_TEMP_T_H k) ∈ temps ∧
      temps.getD (u.chip.get F.HP_TEMP_ROW k) 0 = signed 12 (u.chip.get F.HP_TEMP_T_H k) ∧ u.chip.on F.HP_PSTAT_TEMP_LOST k = false ∧
      (signed 12 (s.chip.get F.HP_TWARN_T_WARN k) ≤ signed 12 (u.chip.get F.HP_TEMP_T_H k) → u.chip.on F.HP_PSTAT_WARN k = true)) ∧
  (∀ (t : Nat) (k : Fin 8) (x : Int) (s : State), s.chip.up (8 + k.val) = true → s.chip.switchState = 0 → s.chip.isUp k = true →
    -2048 ≤ x → x < signed 12 (s.chip.get F.HP_TLIM_T_LIMIT k) → x < signed 12 (s.chip.get F.HP_TLIM_T_CRIT k) →
    signed 12 (s.chip.get F.HP_TWARN_T_WARN k) ≤ x → s.chip.on F.HP_PSTAT_WARN k = false → s.chip.on F.HP_PSTAT_BLANK k = false → s.chip.up 5 = false →
    ∃ u, exec (.bcIdleFrame t k .good [x, x, x, x, x, x]) s = .next u ∧ Leaves t [.hp, .ev] {F.HP_TEMP_T_H.at k 0, F.HP_PSTAT_WARN.at k 0} s u ∧
      u.chip.get F.HP_TEMP_ROW k = 0 ∧ signed 12 (u.chip.get F.HP_TEMP_T_H k) = x ∧ u.chip.on F.HP_PSTAT_WARN k = true ∧
      (s.chip.at t).Raised u.chip [(hpCode k 0x0E, [(2, unsigned 16 x), (1, 0)])]) ∧
  (∀ (t : Nat) (k : Fin 8) (status tag : Nat) (data : List Nat) (w : CmdWait) (s : State), s.chip.up (8 + k.val) = true → s.chip.switchState = 0 →
    2 ≤ s.chip.portState k → s.chip.portState k ≤ 5 → (s.chip.port k).wait = some w → w.tag = tag → w.cmd.use = .expert → (s.chip.port k).todo = [] →
    ∃ u, exec (.bcRspFrame t k .good status tag data) s = .next u ∧ Leaves t [.hp] {R.HP_XRSP.at k 0} s u ∧
      u.chip.hp = s.chip.hp.set k { s.chip.port k with frameOk := true, wait := none, xdata := answerBytes data } ∧
      (u.chip.word (R.HP_XRSP.at k 0)).toNat = 2 ^ 31 + status % 256 * 2 ^ 16 + tag % 256 * 256 + data.length % 256) ∧
  (∀ (t : Nat) (k : Fin 8) (status tag : Nat) (data : List Nat) (w : CmdWait) (s : State), s.chip.up (8 + k.val) = true → s.chip.switchState = 0 →
    2 ≤ s.chip.portState k → s.chip.portState k ≤ 5 → (s.chip.port k).wait = some w → w.tag ≠ tag →
    ∃ u, exec (.bcRspFrame t k .good status tag data) s = .next u ∧ Leaves t [.hp] ∅ s u ∧
      u.chip.hp = s.chip.hp.set k { s.chip.port k with frameOk := true }) ∧
  (∀ (t : Nat) (k : Fin 8) (code detail : Nat) (s : State), s.chip.up (8 + k.val) = true → s.chip.switchState = 0 →
    2 ≤ s.chip.portState k → s.chip.portState k ≤ 5 → code ≠ 1 → code ≠ 6 →
    ∃ u, exec (.bcEvtFrame t k .good code detail) s = .next u ∧ Leaves t [.hp, .ev] {F.HP_STAT_HEAD_EVT.at k 0} s u ∧
      u.chip.hp = s.chip.hp.set k { s.chip.port k with frameOk := true } ∧ u.chip.on F.HP_STAT_HEAD_EVT k = true ∧
      u.chip.on F.HP_STAT_HEAD_TO k = (s.chip.on F.HP_STAT_HEAD_TO k || decide (code = 4)) ∧
      (s.chip.at t).Raised u.chip [(hpCode k 0x0A, [(1, code), (2, detail)])]) ∧
  (∀ (t : Nat) (k : Fin 8) (s : State), s.chip.up (8 + k.val) = true → s.chip.switchState = 0 → s.chip.portState k = 2 → (s.chip.port k).locked = 0 →
    ∃ u, exec (.bcSymbolLock t k) s = .next u ∧ Leaves t [] {F.HP_STAT_BC_LOCK.at k 0} s u ∧ u.chip.on F.HP_STAT_BC_LOCK k = true ∧ u.chip.portState k = 2) ∧
  (∀ (t : Nat) (k : Fin 8) (s : State), s.chip.up (8 + k.val) = true → s.chip.switchState = 0 → s.chip.isUp k = true →
    s.chip.on F.HP_PSTAT_TEMP_LOST k = false → (s.chip.port k).lastFrame + us (100 * s.chip.get F.HP_XPROT_TLOST k) ≤ max s.chip.now t →
    s.chip.on F.HP_PSTAT_BLANK k = true →
    ∃ u, exec (.headTempTimeout t k) s = .next u ∧ Leaves t [.ev] {F.HP_PSTAT_TEMP_LOST.at k 0} s u ∧ u.chip.on F.HP_PSTAT_TEMP_LOST k = true ∧
      (s.chip.at t).Raised u.chip [(hpCode k 0x12, [])]) ∧
  (∀ (t : Nat) (k : Fin 8) (s : State), s.chip.up (8 + k.val) = true → s.chip.switchState = 0 → s.chip.isUp k = true →
    s.chip.on F.HP_PSTAT_TEMP_LOST k = false → (s.chip.port k).lastFrame + us (100 * s.chip.get F.HP_XPROT_TLOST k) ≤ max s.chip.now t →
    s.chip.on F.HP_PSTAT_BLANK k = false → (s.chip.port k).xfer = none → (s.chip.port k).held = Vector.replicate 6 [] →
    ∃ u, exec (.headTempTimeout t k) s = .next u ∧
      Leaves t [.hp, .ev, .trk, .tko, .sent] ({F.HP_PSTAT_TEMP_LOST.at k 0} ∪ blockRegsSet 0x0A ∪ blockRegsSet 0x1F) s u ∧
      u.chip.on F.HP_PSTAT_TEMP_LOST k = true ∧ u.chip.on F.HP_PSTAT_BLANK k = true ∧ (u.chip.port k).blankFrom = some ((s.chip.at t).firstAfterNow k))

/-- A head comes up (R280, R288, R289, R298, R320 to R322). The presence line is followed; after PRES_DB ms an enabled and armed port in VACANT
sets PRES, switches the supply on and enters POWER. PGOOD going high is noted; without it for PG_TO ms the attempt ends in VACANT with the
supply off. 1 ms after PGOOD both lanes start and TRAIN begins. A TRAIN that takes longer than 1.5 ms is tried again, after the third time
the port is in FAULT. A command without its answer for 100 us is sent once more, then the head has failed. Writing EN arms a port in VACANT.
The model's own choices in this: entries 73, 74 of the log. -/
def Obligations.PortsComeUp : Prop :=
  (∀ (t : Nat) (k : Fin 8) (s : State), s.chip.hasPort k.val = true → (s.chip.port k).presLow = false → s.chip.portState k ≠ 6 →
    s.chip.pwr.off = true ∨ s.chip.thm.tripped = true →
    ∃ u, exec (.headPresChange t k true) s = .next u ∧ Leaves t [.hp] ∅ s u ∧
      u.chip.hp = s.chip.hp.set k { s.chip.port k with presLow := true, presSince := max s.chip.now t, arm := s.chip.on F.HP_CTRL_AUTO_UP k, rearmAny := false }) ∧
  (∀ (t : Nat) (k : Fin 8) (s : State), s.chip.hasPort k.val = true → (s.chip.port k).presLow = true → s.chip.portState k ≠ 6 →
    s.chip.pwrState = 0 → s.chip.pwrPhase = 0 → s.chip.pwr.off = false → s.chip.thm.tripped = false →
    bitAt (s.chip.get F.PWR_WAKE_EN_EN) 5 = false →
    ∃ u, exec (.headPresChange t k false) s = .next u ∧ Leaves t [.hp, .pwr] {F.PWR_WAKE_LATCH_LATCH.addr} s u ∧
      u.chip.hp = s.chip.hp.set k { s.chip.port k with presLow := false, presSince := max s.chip.now t } ∧
      bitAt (u.chip.get F.PWR_WAKE_LATCH_LATCH) 5 = true) ∧
  (∀ (t : Nat) (k : Fin 8) (low : Bool) (s : State), s.chip.hasPort k.val = false ∨ (s.chip.port k).presLow = low →
    exec (.headPresChange t k low) s = .next { s with chip := s.chip.at t }) ∧
  (∀ (t : Nat) (k : Fin 8) (s : State), s.chip.up (8 + k.val) = true → s.chip.switchState = 0 → s.chip.hasPort k.val = true →
    (s.chip.port k).presLow = true → (s.chip.port k).presSince + ms (s.chip.get F.HP_HOT_PRES_DB k) ≤ max s.chip.now t → s.chip.portState k = 0 →
    s.chip.on F.HP_CTRL_EN k = true → (s.chip.port k).arm = true → bitAt (s.chip.get F.PAD_HOLD_HELD) k = false → (9 + k.val) ∉ s.chip.pwr.ready →
    bitAt s.chip.str.cold k = false →
    ∃ u, exec (.bringupStart t k) s = .next u ∧ Leaves t [.hp] {F.HP_STAT_STATE.at k 0} s u ∧
      u.chip.on F.HP_STAT_PRES k = true ∧ u.chip.on F.HP_STAT_EN_OUT k = true ∧ u.chip.portState k = 1 ∧
      u.chip.hp = s.chip.hp.set k { s.chip.port k with tries := 0, coldHold := false, pgoodAt := max s.chip.now t, stateAt := max s.chip.now t }) ∧
  (∀ (t : Nat) (k : Fin 8) (s : State), s.chip.up (8 + k.val) = true → s.chip.switchState = 0 → s.chip.portState k = 1 →
    ∃ u, exec (.pgoodRise t k) s = .next u ∧ Leaves t [.hp] {F.HP_STAT_PGOOD.at k 0} s u ∧ u.chip.on F.HP_STAT_PGOOD k = true ∧
      u.chip.portState k = 1 ∧ u.chip.hp = s.chip.hp.set k { s.chip.port k with pgoodAt := max s.chip.now t }) ∧
  (∀ (t : Nat) (k : Fin 8) (s : State), s.chip.up (8 + k.val) = true → s.chip.switchState = 0 → s.chip.portState k = 1 →
    s.chip.on F.HP_STAT_PGOOD k = false → (s.chip.port k).stateAt + ms (s.chip.get F.HP_HOT_PG_TO k) ≤ max s.chip.now t →
    (s.chip.port k).events = [] → s.chip.ldl.grants = [] →
    ∃ u, exec (.pgoodTimeout t k) s = .next u ∧ Leaves t [.hp, .ev, .ldl] {F.HP_STAT_STATE.at k 0} s u ∧
      u.chip.portState k = 0 ∧ u.chip.on F.HP_STAT_EN_OUT k = false ∧ (u.chip.port k).arm = false ∧ (u.chip.port k).rearmAny = true ∧
      (s.chip.at t).Raised u.chip [(hpCode k 0x03, [(1, faultPgood)])]) ∧
  (∀ (t : Nat) (k : Fin 8) (s : State), s.chip.up (8 + k.val) = true → s.chip.switchState = 0 → s.chip.portState k = 1 →
    s.chip.on F.HP_STAT_PGOOD k = true → (s.chip.port k).pgoodAt + ms 1 ≤ max s.chip.now t →
    ∃ u, exec (.trainStart t k) s = .next u ∧ Leaves t [.hp] {F.HP_STAT_STATE.at k 0} s u ∧
      u.chip.portState k = 2 ∧ u.chip.get F.HP_STAT_LANES k = 3 ∧
      u.chip.hp = s.chip.hp.set k { s.chip.port k with tries := 1, wdogHeld := false, locked := 0, stateAt := max s.chip.now t }) ∧
  (∀ (t : Nat) (k : Fin 8) (s : State), s.chip.up (8 + k.val) = true → s.chip.switchState = 0 → s.chip.portState k = 2 →
    (s.chip.port k).stateAt + us 1500 ≤ max s.chip.now t → (s.chip.port k).tries < 3 →
    ∃ u, exec (.trainTimeout t k) s = .next u ∧ Leaves t [.hp] {F.HP_STAT_STATE.at k 0} s u ∧ u.chip.portState k = 2 ∧ u.chip.on F.HP_STAT_BC_LOCK k = false ∧
      (u.chip.port k).tries = (s.chip.port k).tries + 1 ∧ (u.chip.port k).stateAt = max s.chip.now t + us 100) ∧
  (∀ (t : Nat) (k : Fin 8) (s : State), s.chip.up (8 + k.val) = true → s.chip.switchState = 0 → s.chip.portState k = 2 →
    (s.chip.port k).stateAt + us 1500 ≤ max s.chip.now t → 3 ≤ (s.chip.port k).tries → (s.chip.port k).events = [] → s.chip.ldl.grants = [] →
    ∃ u, exec (.trainTimeout t k) s = .next u ∧ Leaves t [.hp, .ev, .ldl] {F.HP_STAT_STATE.at k 0} s u ∧
      u.chip.portState k = 6 ∧ u.chip.on F.HP_STAT_TRAIN_FAIL k = true ∧ u.chip.on F.HP_STAT_EN_OUT k = false ∧
      (s.chip.at t).Raised u.chip [(hpCode k 0x03, [(1, faultTrain)])]) ∧
  (∀ (t : Nat) (k : Fin 8) (w : CmdWait) (s : State), s.chip.up (8 + k.val) = true → s.chip.switchState = 0 → (s.chip.port k).wait = some w →
    w.sentAt + us 100 ≤ max s.chip.now t → w.resent = false →
    ∃ u, exec (.cmdAnswerTimeout t k) s = .next u ∧ Leaves t [.hp, .sent] {F.HP_RESEND_CNT_COUNT.at k 0} s u ∧
      u.chip.get F.HP_RESEND_CNT_COUNT k = satNat (F.HP_RESEND_CNT_COUNT.hi + 1 - F.HP_RESEND_CNT_COUNT.lo) (s.chip.get F.HP_RESEND_CNT_COUNT k + 1) ∧
      (∃ w', (u.chip.port k).wait = some w' ∧ w'.cmd = w.cmd ∧ w'.tag = w.tag ∧ w'.resent = true) ∧
      u.chip.sent = s.chip.sent ++ [⟨"headCmd", [k.val, w.cmd.opc, w.tag, (w.cmd.data.length + 7) / 8, w.cmd.arg] ++ w.cmd.data⟩]) ∧
  (∀ (t : Nat) (k : Fin 8) (w : CmdWait) (s : State), s.chip.up (8 + k.val) = true → s.chip.switchState = 0 → (s.chip.port k).wait = some w →
    w.sentAt + us 100 ≤ max s.chip.now t → w.resent = true → w.cmd.use = .expert → s.chip.portState k = 3 → (s.chip.port k).events = [] →
    s.chip.ldl.grants = [] →
    ∃ u, exec (.cmdAnswerTimeout t k) s = .next u ∧ Leaves t [.hp, .ev, .ldl] {F.HP_STAT_STATE.at k 0, R.HP_XRSP.at k 0} s u ∧
      u.chip.portState k = 6 ∧ u.chip.on F.HP_XRSP_ERR k = true ∧ (s.chip.at t).Raised u.chip [(hpCode k 0x03, [(1, faultNoAnswer)])]) ∧
  (∀ (t : Nat) (i : Initiator) (k : Fin 8) (w : Word) (s : State), s.chip.mayWrite i (R.HP_CTRL.at k 0) → s.chip.switchState = 0 →
    s.chip.on F.HP_CTRL_EN k = false → bitAt w.toNat 1 = true → bitAt w.toNat 3 = false → bitAt w.toNat 4 = false → s.chip.portState k = 0 →
    s.chip.on F.HP_STAT_PRES k = false →
    ∃ u, exec (.portEnWrite t i k w) s = .next u ∧ WriteLeaves t i (R.HP_CTRL.at k 0) [.hp] {R.HP_CTRL.at k 0} s u ∧
      u.chip.on F.HP_CTRL_EN k = true ∧ u.chip.on F.HP_CTRL_AUTO_UP k = bitAt w.toNat 2 ∧ u.chip.on F.HP_CTRL_XPERT_EN k = bitAt w.toNat 0 ∧
      u.chip.hp = s.chip.hp.set k { s.chip.port k with arm := true, rearmAny := false })

/-- A head goes down, and lanes (R312 to R315, R320 to R322). HPk_PRES_L high for 20 us, HPk_PGOOD low for 10 us, a write of DOWN and lost
symbol lock take a port that is not yet UP to VACANT with its supply off, and PORT_VACANT names the cause. Of a port with both lanes one
lost lane is noted, and the port goes on on the other. A retrain is asked for, 100 ms after the loss or at a write of RETRAIN, and ends
after 1 ms or with both lanes locked. The model's own choices in this: entries 72, 103 of the log. -/
def Obligations.PortsGoDown : Prop :=
  (∀ (t : Nat) (k : Fin 8) (s : State), s.chip.up (8 + k.val) = true → s.chip.switchState = 0 → (s.chip.port k).presLow = false →
    (s.chip.port k).presSince + us 20 ≤ max s.chip.now t → 1 ≤ s.chip.portState k → s.chip.portState k ≤ 4 → (s.chip.port k).events = [] → s.chip.ldl.grants = [] →
    ∃ u, exec (.headRemoved t k) s = .next u ∧ Leaves t [.hp, .ev, .ldl] {F.HP_STAT_STATE.at k 0} s u ∧
      u.chip.on F.HP_STAT_PRES k = false ∧ u.chip.on F.HP_STAT_EN_OUT k = false ∧ u.chip.get F.HP_STAT_LANES k = 0 ∧ u.chip.portState k = 0 ∧
      (s.chip.at t).Raised u.chip [(hpCode k 0x02, [(1, vacRemoved)])]) ∧
  (∀ (t : Nat) (k : Fin 8) (s : State), s.chip.up (8 + k.val) = true → s.chip.switchState = 0 →
    2 ≤ s.chip.portState k ∨ s.chip.portState k = 1 ∧ s.chip.on F.HP_STAT_PGOOD k = true → s.chip.portState k ≤ 4 →
    (s.chip.port k).events = [] → s.chip.ldl.grants = [] →
    ∃ u, exec (.pgoodLost t k) s = .next u ∧ Leaves t [.hp, .ev, .ldl] {F.HP_STAT_STATE.at k 0} s u ∧
      u.chip.on F.HP_STAT_PGOOD k = false ∧ u.chip.on F.HP_STAT_EN_OUT k = false ∧ u.chip.portState k = 0 ∧ (u.chip.port k).arm = false ∧
      (s.chip.at t).Raised u.chip [(hpCode k 0x02, [(1, vacPgood)])]) ∧
  (∀ (t : Nat) (i : Initiator) (k : Fin 8) (w : Word) (s : State), s.chip.mayWrite i (R.HP_CTRL.at k 0) → s.chip.switchState = 0 →
    bitAt w.toNat 1 = true → s.chip.on F.HP_CTRL_EN k = true → (s.chip.port k).rearmAny = false → bitAt w.toNat 4 = false →
    1 ≤ s.chip.portState k → s.chip.portState k ≤ 4 → (s.chip.port k).events = [] → s.chip.ldl.grants = [] →
    ∃ u, exec (.portDownWrite t i k w) s = .next u ∧ WriteLeaves t i (R.HP_CTRL.at k 0) [.hp, .ev, .ldl] {R.HP_CTRL.at k 0, F.HP_STAT_STATE.at k 0} s u ∧
      u.chip.on F.HP_CTRL_EN k = true ∧ u.chip.on F.HP_STAT_EN_OUT k = false ∧ u.chip.portState k = 0 ∧ (u.chip.port k).arm = false ∧
      (s.chip.at t).Raised u.chip [(hpCode k 0x02, [(1, vacDown)])]) ∧
  (∀ (t : Nat) (k : Fin 8) (s : State), s.chip.up (8 + k.val) = true → s.chip.switchState = 0 →
    3 ≤ s.chip.portState k → s.chip.portState k ≤ 4 → (s.chip.port k).events = [] → s.chip.ldl.grants = [] →
    ∃ u, exec (.bcLockLost t k) s = .next u ∧ Leaves t [.hp, .ev, .ldl] {F.HP_STAT_STATE.at k 0} s u ∧
      u.chip.on F.HP_STAT_BC_LOCK k = false ∧ u.chip.on F.HP_STAT_EN_OUT k = false ∧ u.chip.portState k = 0 ∧
      (s.chip.at t).Raised u.chip [(hpCode k 0x02, [(1, vacLanes)])]) ∧
  (∀ (t : Nat) (k : Fin 8) (s : State), s.chip.up (8 + k.val) = true → s.chip.switchState = 0 → s.chip.isUp k = true →
    (s.chip.port k).locked = 3 → s.chip.get F.HP_STAT_LANES k = 3 → s.chip.cal.laneOff = false → (s.chip.port k).recent = [] →
    ∃ u, exec (.laneAlert t k 1) s = .next u ∧ Leaves t [.hp, .ev, .sent] {F.HP_STAT_STATE.at k 0, F.HP_LANEERR_D1.at k 0} s u ∧
      u.chip.get F.HP_STAT_LANES k = 1 ∧ u.chip.on F.HP_STAT_LANE_LOST k = true ∧ u.chip.portState k = 5 ∧
      u.chip.get F.HP_LANEERR_D1 k = satNat (F.HP_LANEERR_D1.hi + 1 - F.HP_LANEERR_D1.lo) (s.chip.get F.HP_LANEERR_D1 k + 1) ∧
      u.chip.hp = s.chip.hp.set k { s.chip.port k with locked := 1, retrainDue := some ((s.chip.port k).retrainDue.getD (max s.chip.now t + ms 100)) } ∧
      (s.chip.at t).Raised u.chip [(hpCode k 0x04, [])]) ∧
  (∀ (t : Nat) (k : Fin 8) (d : Nat) (s : State), s.chip.up (8 + k.val) = true → s.chip.switchState = 0 → s.chip.isUp k = true →
    (s.chip.port k).retrainDue = some d → d ≤ max s.chip.now t → s.chip.get F.HP_STAT_LANES k ≠ 3 → (s.chip.port k).retraining = false →
    (s.chip.port k).restore = false → s.chip.ldl.asks = [] → s.chip.ldl.grants = [] →
    ∃ u, exec (.laneRetrainTimer t k) s = .next u ∧ Leaves t [.hp, .ldl] ∅ s u ∧
      u.chip.hp = s.chip.hp.set k { s.chip.port k with retrainDue := some (max s.chip.now t + ms 100) } ∧
      u.chip.ldl = { s.chip.ldl with asks := [⟨0, k.val, 0, Config.headRetrainAmount, none⟩] }) ∧
  (∀ (t : Nat) (i : Initiator) (k : Fin 8) (w : Word) (s : State), s.chip.mayWrite i (R.HP_CTRL.at k 0) → s.chip.switchState = 0 →
    bitAt w.toNat 1 = true → bitAt w.toNat 3 = false → s.chip.on F.HP_CTRL_EN k = true → (s.chip.port k).rearmAny = false →
    s.chip.isUp k = true → s.chip.get F.HP_STAT_LANES k ≠ 3 → (s.chip.port k).retraining = false →
    (s.chip.port k).restore = false → s.chip.ldl.asks = [] → s.chip.ldl.grants = [] →
    ∃ u, exec (.retrainWrite t i k w) s = .next u ∧ WriteLeaves t i (R.HP_CTRL.at k 0) [.hp, .ldl] {R.HP_CTRL.at k 0} s u ∧
      u.chip.hp = s.chip.hp.set k { s.chip.port k with retrainDue := some (max s.chip.now t + ms 100) } ∧
      u.chip.ldl = { s.chip.ldl with asks := [⟨0, k.val, 0, Config.headRetrainAmount, none⟩] }) ∧
  (∀ (t : Nat) (k : Fin 8) (s : State), s.chip.up (8 + k.val) = true → s.chip.switchState = 0 → (s.chip.port k).retraining = true →
    (s.chip.port k).locked = 3 ∨ (s.chip.port k).retrainAt + ms 1 ≤ max s.chip.now t → s.chip.ldl.grants = [] →
    ∃ u, exec (.laneRetrainEnd t k) s = .next u ∧ Leaves t [.hp, .ldl] ∅ s u ∧
      u.chip.hp = s.chip.hp.set k { s.chip.port k with retraining := false, restore := decide ((s.chip.port k).locked = 3) })

/-- Expert commands and registers of a port (R43, R299, R325, R341, R343, R353). PING, GET_STATUS and READ_MEM are taken while the port is UP
and no expert command is pending: HPk_XRSP is cleared and the command waits or leaves with the tag that software gave; elsewhere they are
ignored and counted. Each read of HPk_XDATA gives the next word of the answer. HPk_MEM_DATA gives a word of the record, and the selection
advances while AUTOINC is 1. The watchdog's limit and the temperature thresholds are held at their ceilings; values out of order are refused
and counted. The model's own choices in this: entries 74, 79 of the log. -/
def Obligations.PortRegisters : Prop :=
  (∀ (t : Nat) (i : Initiator) (k : Fin 8) (w : Word) (s : State), s.chip.mayWrite i (R.HP_XCMD.at k 0) → s.chip.switchState = 0 → s.chip.calBusy = false →
    s.chip.on F.HP_CTRL_XPERT_EN k = true → s.chip.isUp k = true → (s.chip.port k).todo = [] → (s.chip.port k).wait = none → (s.chip.port k).xfer ≠ none →
    ∃ u, exec (.ping t i k w) s = .next u ∧ WriteLeaves t i (R.HP_XCMD.at k 0) [.hp] {R.HP_XCMD.at k 0, R.HP_XRSP.at k 0} s u ∧
      u.chip.word (R.HP_XRSP.at k 0) = 0 ∧ u.chip.hp = s.chip.hp.set k { s.chip.port k with
        xdata := [], todo := [{ opc := 1, arg := s.chip.get F.HP_XARG_ARG k, use := .expert, tag := some (fld F.HP_XCMD_TAG w.toNat) }] }) ∧
  (∀ (t : Nat) (i : Initiator) (k : Fin 8) (w : Word) (s : State), s.chip.mayWrite i (R.HP_XCMD.at k 0) → s.chip.switchState = 0 → s.chip.calBusy = false →
    s.chip.on F.HP_CTRL_XPERT_EN k = true → s.chip.isUp k = true → (s.chip.port k).todo = [] → (s.chip.port k).wait = none → (s.chip.port k).xfer = none →
    (s.chip.port k).busyUntil ≤ max s.chip.now t →
    ∃ u, exec (.getStatus t i k w) s = .next u ∧ WriteLeaves t i (R.HP_XCMD.at k 0) [.hp, .sent] {R.HP_XCMD.at k 0, R.HP_XRSP.at k 0} s u ∧
      u.chip.word (R.HP_XRSP.at k 0) = 0 ∧ (u.chip.port k).xdata = [] ∧
      (∃ x, (u.chip.port k).wait = some x ∧ x.cmd.opc = 2 ∧ x.cmd.use = .expert ∧ x.tag = fld F.HP_XCMD_TAG w.toNat) ∧
      u.chip.sent = s.chip.sent ++ [⟨"headCmd", [k.val, 2, fld F.HP_XCMD_TAG w.toNat, 0, s.chip.get F.HP_XARG_ARG k]⟩]) ∧
  (∀ (t : Nat) (i : Initiator) (k : Fin 8) (w : Word) (s : State), s.chip.mayWrite i (R.HP_XCMD.at k 0) → s.chip.switchState = 0 → s.chip.calBusy = false →
    s.chip.on F.HP_CTRL_XPERT_EN k = true → s.chip.isUp k = true → (s.chip.port k).todo = [] → (s.chip.port k).wait = none → (s.chip.port k).xfer = none →
    (s.chip.port k).busyUntil ≤ max s.chip.now t →
    ∃ u, exec (.readMem t i k w) s = .next u ∧ WriteLeaves t i (R.HP_XCMD.at k 0) [.hp, .sent] {R.HP_XCMD.at k 0, R.HP_XRSP.at k 0} s u ∧
      u.chip.word (R.HP_XRSP.at k 0) = 0 ∧ (u.chip.port k).xdata = [] ∧
      (∃ x, (u.chip.port k).wait = some x ∧ x.cmd.opc = 3 ∧ x.cmd.use = .expert ∧ x.tag = fld F.HP_XCMD_TAG w.toNat) ∧
      u.chip.sent = s.chip.sent ++ [⟨"headCmd", [k.val, 3, fld F.HP_XCMD_TAG w.toNat, 0, s.chip.get F.HP_XARG_ARG k]⟩]) ∧
  (∀ (t : Nat) (i : Initiator) (k : Fin 8) (w : Word) (s : State), s.chip.mayWrite i (R.HP_XCMD.at k 0) → s.chip.switchState = 0 → s.chip.calBusy = false →
    s.chip.on F.HP_CTRL_XPERT_EN k = true → s.chip.isUp k = false →
    ∃ u, exec (.ping t i k w) s = .next u ∧ WriteLeaves t i (R.HP_XCMD.at k 0) [] {R.HP_XCMD.at k 0, F.HP_REJ_CNT_COUNT.at k 0} s u ∧
      u.chip.get F.HP_REJ_CNT_COUNT k = satNat (F.HP_REJ_CNT_COUNT.hi + 1 - F.HP_REJ_CNT_COUNT.lo) (s.chip.get F.HP_REJ_CNT_COUNT k + 1)) ∧
  (∀ (t : Nat) (i : Initiator) (k : Fin 8) (s : State), s.chip.mayRead i (R.HP_XDATA.at k 0) →
    ∃ u, exec (.xdataRead t i k) s = .next u ∧ ReadLeaves t (ofBytesLE ((s.chip.port k).xdata.take 4)) [.hp] ∅ s u ∧
      u.chip.hp = s.chip.hp.set k { s.chip.port k with xdata := (s.chip.port k).xdata.drop 4 }) ∧
  (∀ (t : Nat) (i : Initiator) (k : Fin 8) (s : State), s.chip.mayRead i (R.HP_MEM_DATA.at k 0) →
    ∃ u, exec (.memDataRead t i k) s = .next u ∧
      ReadLeaves t (if s.chip.isUp k then ofBytesLE (((s.chip.port k).record.drop (4 * s.chip.get F.HP_MEM_SEL_WORD k)).take 4) else 0) []
        {F.HP_MEM_SEL_WORD.at k 0} s u ∧
      u.chip.get F.HP_MEM_SEL_WORD k = (if s.chip.on F.HP_MEM_SEL_AUTOINC k then
        (s.chip.get F.HP_MEM_SEL_WORD k + 1) % 2 ^ (F.HP_MEM_SEL_WORD.hi + 1 - F.HP_MEM_SEL_WORD.lo) else s.chip.get F.HP_MEM_SEL_WORD k)) ∧
  (∀ (t : Nat) (i : Initiator) (k : Fin 8) (w : Word) (v : Nat) (s : State), s.chip.mayWrite i (R.HP_WDOG.at k 0) → s.chip.switchState = 0 →
    s.chip.isUp k = false → v = fld F.HP_WDOG_LIMIT w.toNat → 50 ≤ v → v ≤ 800 → v ≤ s.chip.get F.HP_PCEIL_WDOG_CEIL k → s.chip.flw.sets[k] = [] →
    ∃ u, exec (.wdogLimitWrite t i k w) s = .next u ∧ WriteLeaves t i (R.HP_WDOG.at k 0) [.hp, .flw, .ev] ({R.HP_WDOG.at k 0} ∪ blockRegsSet 0x0D) s u ∧
      u.chip.get F.HP_WDOG_LIMIT k = v ∧ u.chip.hp = s.chip.hp.set k { s.chip.port k with wdog := v, span := v, pendLimit := none }) ∧
  (∀ (t : Nat) (i : Initiator) (k : Fin 8) (w : Word) (s : State), s.chip.mayWrite i (R.HP_WDOG.at k 0) → s.chip.switchState = 0 →
    fld F.HP_WDOG_LIMIT w.toNat < 50 ∨ 800 < fld F.HP_WDOG_LIMIT w.toNat →
    ∃ u, exec (.wdogLimitWrite t i k w) s = .next u ∧ WriteLeaves t i (R.HP_WDOG.at k 0) [] {F.HP_REJ_CNT_COUNT.at k 0} s u ∧
      u.chip.get F.HP_REJ_CNT_COUNT k = satNat (F.HP_REJ_CNT_COUNT.hi + 1 - F.HP_REJ_CNT_COUNT.lo) (s.chip.get F.HP_REJ_CNT_COUNT k + 1)) ∧
  (∀ (t : Nat) (i : Initiator) (k : Fin 8) (w : Word) (a b : Int) (s : State), s.chip.mayWrite i (R.HP_TLIM.at k 0) → s.chip.switchState = 0 →
    a = signed 12 (fld F.HP_TLIM_T_LIMIT w.toNat) → b = signed 12 (fld F.HP_TLIM_T_CRIT w.toNat) →
    a ≤ signed 12 (s.chip.get F.HP_PCEIL_T_TLIM_CEIL k) → b ≤ signed 12 (s.chip.get F.HP_PCEIL_T_TCRIT_CEIL k) →
    signed 12 (s.chip.get F.HP_TWARN_T_WARN k) < a → a < b →
    ∃ u, exec (.tempThresholdWrite t i k true w) s = .next u ∧ WriteLeaves t i (R.HP_TLIM.at k 0) [] {R.HP_TLIM.at k 0} s u ∧
      signed 12 (u.chip.get F.HP_TLIM_T_LIMIT k) = a ∧ signed 12 (u.chip.get F.HP_TLIM_T_CRIT k) = b) ∧
  (∀ (t : Nat) (i : Initiator) (k : Fin 8) (w : Word) (s : State), s.chip.mayWrite i (R.HP_TWARN.at k 0) → s.chip.switchState = 0 →
    signed 12 (s.chip.get F.HP_TLIM_T_LIMIT k) ≤ signed 12 (fld F.HP_TWARN_T_WARN w.toNat) ∨ fld F.HP_TWARN_T_HYST w.toNat < 16 ∨
      480 < fld F.HP_TWARN_T_HYST w.toNat →
    ∃ u, exec (.tempThresholdWrite t i k false w) s = .next u ∧ WriteLeaves t i (R.HP_TWARN.at k 0) [] {F.HP_REJ_CNT_COUNT.at k 0} s u ∧
      u.chip.get F.HP_REJ_CNT_COUNT k = satNat (F.HP_REJ_CNT_COUNT.hi + 1 - F.HP_REJ_CNT_COUNT.lo) (s.chip.get F.HP_REJ_CNT_COUNT k + 1))

/-- Signatures and nozzle states (R220 to R227, R245). An awaited frame that does not come within BC_TO counts its groups and a missing frame.
Software may write STATE 0 and EXCLUDE; another state is not taken and counted. Reading gives the selected nozzle's word, and the dead FIFO
gives its oldest entry once. The model's own choices in this: entry 17 of the log. -/
def Obligations.NozzleHealth : Prop :=
  (∀ (t : Nat) (k : Fin 8) (e : Int × List Nat × Nat) (s : State), s.chip.up 5 = true → s.chip.nzh.await[k] = [e] →
    e.2.2 + us (s.chip.get F.NZH_BC_TO_TO) < max s.chip.now t → s.chip.nzh.without[k] + 1 < s.chip.get F.NZH_CFG_BC_LOSS →
    ∃ u, exec (.bcFrameTimeout t k) s = .next u ∧ Leaves t [.nzh] {F.NZH_MISS_CNT_SKIP.addr} s u ∧
      u.chip.nzh = { s.chip.nzh with await := s.chip.nzh.await.set k [], without := s.chip.nzh.without.set k (s.chip.nzh.without[k] + 1) } ∧
      u.chip.get F.NZH_MISS_CNT_SIG_MISS = satNat (F.NZH_MISS_CNT_SIG_MISS.hi + 1 - F.NZH_MISS_CNT_SIG_MISS.lo) (s.chip.get F.NZH_MISS_CNT_SIG_MISS + 1)) ∧
  (∀ (t : Nat) (k : Fin 8) (s : State), s.chip.nzh.await[k] = [] ∨ s.chip.up 5 = false →
    exec (.bcFrameTimeout t k) s = .next { s with chip := { s.chip.at t with nzh := { s.chip.nzh with await := s.chip.nzh.await.set k s.chip.nzh.await[k] } } }) ∧
  (∀ (t : Nat) (i : Initiator) (w : Word) (k : Fin 8) (q : Nat) (s : State), s.chip.mayWrite i R.NZH_NZ_DATA.addr → w.toNat % 8 = 0 →
    s.chip.get F.NZH_NZ_SEL_PORT = k.val → q = s.chip.get F.NZH_NZ_SEL_NOZZLE →
    ∃ u, exec (.nozzleStateWrite t i w) s = .next u ∧ WriteLeaves t i R.NZH_NZ_DATA.addr [.nzh] {F.NZH_NZ_SEL_NOZZLE.addr} s u ∧
      u.chip.nozzle k q = { s.chip.nozzle k q with state := 0, strikes := 0, openStrikes := 0, exclude := bitAt w.toNat 7 } ∧
      (∀ j : Fin 8, j ≠ k → u.chip.nozzle j q = s.chip.nozzle j q) ∧
      u.chip.get F.NZH_NZ_SEL_NOZZLE = (if s.chip.on F.NZH_NZ_SEL_AUTOINC then (q + 1) % 7680 else q)) ∧
  (∀ (t : Nat) (i : Initiator) (w : Word) (k : Fin 8) (q : Nat) (s : State), s.chip.mayWrite i R.NZH_NZ_DATA.addr → w.toNat % 8 ≠ 0 →
    s.chip.get F.NZH_NZ_SEL_PORT = k.val → q = s.chip.get F.NZH_NZ_SEL_NOZZLE →
    ∃ u, exec (.nozzleStateWrite t i w) s = .next u ∧ WriteLeaves t i R.NZH_NZ_DATA.addr [.nzh] {F.NZH_NZ_SEL_NOZZLE.addr, F.NZH_REJ_CNT_COUNT.addr} s u ∧
      u.chip.nozzle k q = { s.chip.nozzle k q with exclude := bitAt w.toNat 7 } ∧
      u.chip.get F.NZH_REJ_CNT_COUNT = satNat (F.NZH_REJ_CNT_COUNT.hi + 1 - F.NZH_REJ_CNT_COUNT.lo) (s.chip.get F.NZH_REJ_CNT_COUNT + 1)) ∧
  (∀ (t : Nat) (i : Initiator) (k : Fin 8) (x : NozzleSt) (s : State), s.chip.mayRead i R.NZH_NZ_DATA.addr → s.chip.get F.NZH_NZ_SEL_PORT = k.val →
    x = s.chip.nozzle k (s.chip.get F.NZH_NZ_SEL_NOZZLE) →
    ∃ u, exec (.nzDataRead t i) s = .next u ∧
      ReadLeaves t (x.tnuc * 2 ^ 24 + x.isense * 2 ^ 16 + min x.recover 15 * 2 ^ 12 + min x.strikes 3 * 2 ^ 8 + bit x.exclude * 2 ^ 7 + bit x.noFire * 2 ^ 6 + x.last * 2 ^ 4 + x.state)
        [] {F.NZH_NZ_SEL_NOZZLE.addr} s u ∧
      u.chip.get F.NZH_NZ_SEL_NOZZLE = (if s.chip.on F.NZH_NZ_SEL_AUTOINC then (s.chip.get F.NZH_NZ_SEL_NOZZLE + 1) % 7680 else s.chip.get F.NZH_NZ_SEL_NOZZLE)) ∧
  (∀ (t : Nat) (i : Initiator) (s : State), s.chip.mayRead i R.NZH_DEAD.addr →
    ∃ u, exec (.deadFifoRead t i) s = .next u ∧ ReadLeaves t (s.chip.nzh.dead.headD 0) [.nzh] ∅ s u ∧ u.chip.nzh = { s.chip.nzh with dead := s.chip.nzh.dead.tail })

/-- What a signature does to its nozzle (R222, R224, R225, R231, R245): of a LINE frame in time on a port that is UP, whose rows all read x
below every limit. A signature above I_SHORT makes the nozzle dead of a short and excluded, with an entry in the dead FIFO and a record; one
that fails no threshold leaves a good nozzle good, with the line as its last pass; a first one below I_OPEN makes it suspect while CONFIRM
asks for more. The model's own choices in this: entries 25, 64 of the log. -/
def Obligations.SignaturesJudgeNozzles : Prop :=
  (∀ (t : Nat) (k : Fin 8) (n x : Int) (g : Signature) (first : Nat) (s : State), s.chip.up 5 = true → s.chip.up (8 + k.val) = true → s.chip.isUp k = true →
    s.chip.switchState = 0 → s.chip.nzh.await[k] = [(n, [g.q], first)] → max s.chip.now t ≤ first + us (s.chip.get F.NZH_BC_TO_TO) →
    bitAt (s.chip.get F.NZH_STAT_BLIND) k = false → (s.chip.port k).sent = [⟨n, 9, [g.q]⟩] → -2048 ≤ x → s.chip.on F.HP_PSTAT_BLANK k = false →
    x < signed 12 (s.chip.get F.HP_TLIM_T_LIMIT k) → x < signed 12 (s.chip.get F.HP_TLIM_T_CRIT k) →
    s.chip.get F.NZH_THR_I_SHORT (g.q / 1280) < g.isense → (s.chip.nozzle k g.q).state < 2 → s.chip.on F.NZH_CFG_AUTO = false → s.chip.nzh.issued = [] →
    g.noFire = false → s.chip.nzh.deferred[k] = [] →
    ∃ u, exec (.bcLineFrame t k .good 9 [x, x, x, x, x, x] [g]) s = .next u ∧
      Leaves t [.hp, .ev, .flw, .ldl, .nzh] ({F.HP_TEMP_T_H.at k 0, F.HP_PSTAT_WARN.at k 0} ∪ blockRegsSet 0x0D ∪ blockRegsSet 0x0E ∪ blockRegsSet 0x08) s u ∧
      (u.chip.nozzle k g.q).state = 4 ∧ (u.chip.nozzle k g.q).exclude = true ∧ (u.chip.nozzle k g.q).last = 3 ∧
      (u.chip.nozzle k g.q).tnuc = g.tnuc ∧ (u.chip.nozzle k g.q).isense = g.isense ∧
      u.chip.nzh.dead = s.chip.nzh.dead ++ [2 ^ 31 + k.val * 2 ^ 28 + (g.q / 1280) * 2 ^ 25 + (g.q % 1280) * 2 ^ 14 + 3 * 2 ^ 12] ∧
      u.chip.get F.NZH_SIG_CNT_COUNT = (s.chip.get F.NZH_SIG_CNT_COUNT + 1) % 2 ^ 32 ∧
      u.chip.get F.NZH_BAD_CNT_SHORT = satNat (F.NZH_BAD_CNT_SHORT.hi + 1 - F.NZH_BAD_CNT_SHORT.lo) (s.chip.get F.NZH_BAD_CNT_SHORT + 1) ∧
      u.chip.nzh.await[k] = []) ∧
  (∀ (t : Nat) (k : Fin 8) (n x : Int) (g : Signature) (first : Nat) (s : State), s.chip.up 5 = true → s.chip.up (8 + k.val) = true → s.chip.isUp k = true →
    s.chip.switchState = 0 → s.chip.nzh.await[k] = [(n, [g.q], first)] → max s.chip.now t ≤ first + us (s.chip.get F.NZH_BC_TO_TO) →
    bitAt (s.chip.get F.NZH_STAT_BLIND) k = false → (s.chip.port k).sent = [⟨n, 9, [g.q]⟩] → -2048 ≤ x → s.chip.on F.HP_PSTAT_BLANK k = false →
    x < signed 12 (s.chip.get F.HP_TLIM_T_LIMIT k) → x < signed 12 (s.chip.get F.HP_TLIM_T_CRIT k) →
    s.chip.get F.NZH_THR_I_OPEN (g.q / 1280) ≤ g.isense → g.isense ≤ s.chip.get F.NZH_THR_I_SHORT (g.q / 1280) →
    g.tnuc ≤ s.chip.get F.NZH_THR_T_WEAK (g.q / 1280) → g.noFire = false → (s.chip.nozzle k g.q).state < 2 → s.chip.nzh.deferred[k] = [] →
    ∃ u, exec (.bcLineFrame t k .good 9 [x, x, x, x, x, x] [g]) s = .next u ∧
      Leaves t [.hp, .ev, .flw, .ldl, .nzh] ({F.HP_TEMP_T_H.at k 0, F.HP_PSTAT_WARN.at k 0} ∪ blockRegsSet 0x0D ∪ blockRegsSet 0x0E ∪ blockRegsSet 0x08) s u ∧
      (u.chip.nozzle k g.q).state = 0 ∧ (u.chip.nozzle k g.q).strikes = 0 ∧ (u.chip.nozzle k g.q).last = 0 ∧
      (u.chip.nozzle k g.q).lastPass = some n ∧ (u.chip.nozzle k g.q).lastEject = some n ∧ u.chip.nzh.dead = s.chip.nzh.dead ∧
      u.chip.get F.NZH_SIG_CNT_COUNT = (s.chip.get F.NZH_SIG_CNT_COUNT + 1) % 2 ^ 32) ∧
  (∀ (t : Nat) (k : Fin 8) (n x : Int) (g : Signature) (first : Nat) (s : State), s.chip.up 5 = true → s.chip.up (8 + k.val) = true → s.chip.isUp k = true →
    s.chip.switchState = 0 → s.chip.nzh.await[k] = [(n, [g.q], first)] → max s.chip.now t ≤ first + us (s.chip.get F.NZH_BC_TO_TO) →
    bitAt (s.chip.get F.NZH_STAT_BLIND) k = false → (s.chip.port k).sent = [⟨n, 9, [g.q]⟩] → -2048 ≤ x → s.chip.on F.HP_PSTAT_BLANK k = false →
    x < signed 12 (s.chip.get F.HP_TLIM_T_LIMIT k) → x < signed 12 (s.chip.get F.HP_TLIM_T_CRIT k) →
    g.isense ≤ s.chip.get F.NZH_THR_I_SHORT (g.q / 1280) → g.isense < s.chip.get F.NZH_THR_I_OPEN (g.q / 1280) →
    (s.chip.nozzle k g.q).state = 0 → (s.chip.nozzle k g.q).strikes = 0 → 2 ≤ s.chip.get F.NZH_CFG_CONFIRM → g.noFire = false → s.chip.nzh.deferred[k] = [] →
    ∃ u, exec (.bcLineFrame t k .good 9 [x, x, x, x, x, x] [g]) s = .next u ∧
      Leaves t [.hp, .ev, .flw, .ldl, .nzh] ({F.HP_TEMP_T_H.at k 0, F.HP_PSTAT_WARN.at k 0} ∪ blockRegsSet 0x0D ∪ blockRegsSet 0x0E ∪ blockRegsSet 0x08) s u ∧
      (u.chip.nozzle k g.q).state = 1 ∧ (u.chip.nozzle k g.q).strikes = 1 ∧ (u.chip.nozzle k g.q).last = 2 ∧ u.chip.nzh.dead = s.chip.nzh.dead ∧
      u.chip.get F.NZH_BAD_CNT_OPEN = satNat (F.NZH_BAD_CNT_OPEN.hi + 1 - F.NZH_BAD_CNT_OPEN.lo) (s.chip.get F.NZH_BAD_CNT_OPEN + 1))

/-- Item records (R232, R234 to R239, R245). Once an item's issue time has come its record is written to the next slot of the record ring, the
write pointer and the issue count move on and the item is done with. A verdict of the partner releases an item that waits for it; when none
comes in time the item is recorded without it, with its flag and RECORD's event. Claiming reserves a slot while one is free and releasing
gives one back; the read pointer never passes the write pointer. The model's own choices in this: entries 84, 85, 86 of the log. -/
def Obligations.RecordsAreIssued : Prop :=
  (∀ (t : Nat) (a : Account) (e slot : Nat) (s : State), s.chip.up 5 = true → s.chip.on F.NZH_CTRL_EN = true → s.chip.nzh.accounts = [a] → a.due = none →
    (s.chip.at t).issueTime a = some e → s.chip.twin = false → s.chip.rejects (s.chip.itemFlags a) (a.partner.getD 0) a.forceReject = false →
    slot = s.chip.get F.NZH_ARQ_BASE_LO_ADDR * 4096 + s.chip.get F.NZH_ARQ_BASE_HI_ADDR * 2 ^ 32 + 64 * (s.chip.get F.NZH_ARQ_WR_WR % 4096) →
    s.chip.ddrReady = true → s.chip.inDdr slot 64 = true → (∀ w : Fin 8, s.chip.on F.DDR_WIN_PERM_EN w = false) →
    ∃ u, exec (.recordIssue t []) s = .next u ∧ LeavesChip t [.nzh] {F.NZH_ARQ_WR_WR.addr, F.NZH_ARQ_RSV_RSV.addr, F.NZH_ISSUED_COUNT.addr} s u ∧
      u.chip.nzh.accounts = [] ∧ u.chip.nzh.seq = (s.chip.nzh.seq + 1) % 65536 ∧
      u.chip.get F.NZH_ARQ_WR_WR = (s.chip.get F.NZH_ARQ_WR_WR + 1) % 8192 ∧
      u.chip.get F.NZH_ARQ_RSV_RSV = s.chip.get F.NZH_ARQ_RSV_RSV - 1 ∧
      u.store.read slot 64 = (recordBytes s.chip a false { chip := s.chip } e).map (BitVec.ofNat 8) ∧
      (∀ b : Nat, b < slot ∨ slot + 64 ≤ b → u.store.read b 1 = s.store.read b 1) ∧ u.store = { s.store with mem := u.store.mem }) ∧
  (∀ (t : Nat) (s : State), s.chip.up 5 = true → s.chip.on F.NZH_CTRL_EN = false → exec (.recordIssue t []) s = .next { s with chip := s.chip.at t }) ∧
  (∀ (t id flags : Nat) (a : Account) (s : State), s.chip.up 5 = true → s.chip.nzh.accounts = [a] → a.id = id → a.partner = none → a.ready = false →
    a.sentFlags = false → a.pvDeadline = none → a.due = none →
    ∃ u, exec (.verdictRx t id flags []) s = .next u ∧ Leaves t [.nzh] ∅ s u ∧ u.chip.nzh = { s.chip.nzh with accounts := [{ a with partner := some flags }] }) ∧
  (∀ (t d e slot : Nat) (a : Account) (s : State), s.chip.up 5 = true → s.chip.nzh.accounts = [a] → a.ready = false →
    a.sentFlags = true → a.pvDeadline = some d → d ≤ max s.chip.now t → a.due = some e →
    s.chip.rejects (s.chip.itemFlags { a with flags := putBit a.flags 16 true }) (a.partner.getD 0) a.forceReject = false →
    slot = s.chip.get F.NZH_ARQ_BASE_LO_ADDR * 4096 + s.chip.get F.NZH_ARQ_BASE_HI_ADDR * 2 ^ 32 + 64 * (s.chip.get F.NZH_ARQ_WR_WR % 4096) →
    s.chip.ddrReady = true → s.chip.inDdr slot 64 = true → (∀ w : Fin 8, s.chip.on F.DDR_WIN_PERM_EN w = false) →
    ∃ u, exec (.pvTimeout t []) s = .next u ∧ LeavesChip t [.nzh, .ev] {F.NZH_ARQ_WR_WR.addr, F.NZH_ARQ_RSV_RSV.addr, F.NZH_ISSUED_COUNT.addr} s u ∧
      u.chip.nzh.accounts = [] ∧ u.chip.get F.NZH_ARQ_WR_WR = (s.chip.get F.NZH_ARQ_WR_WR + 1) % 8192 ∧
      (s.chip.at t).Raised u.chip [(0x0E08, [(8, a.id)])] ∧ u.store = { s.store with mem := u.store.mem }) ∧
  (∀ (t : Nat) (i : Initiator) (s : State), s.chip.mayRead i R.NZH_ARQ_CLAIM.addr → s.chip.get F.NZH_ARQ_RSV_RSV + s.chip.arqUnread < 4096 →
    ∃ u, exec (.arqClaim t i) s = .next u ∧ ReadLeaves t 1 [] {F.NZH_ARQ_RSV_RSV.addr} s u ∧ u.chip.get F.NZH_ARQ_RSV_RSV = s.chip.get F.NZH_ARQ_RSV_RSV + 1) ∧
  (∀ (t : Nat) (i : Initiator) (s : State), s.chip.mayRead i R.NZH_ARQ_CLAIM.addr → 4096 ≤ s.chip.get F.NZH_ARQ_RSV_RSV + s.chip.arqUnread →
    ∃ u, exec (.arqClaim t i) s = .next u ∧ ReadLeaves t 0 [] ∅ s u) ∧
  (∀ (t : Nat) (i : Initiator) (s : State), s.chip.mayWrite i R.NZH_ARQ_RSV.addr →
    ∃ u, exec (.arqRelease t i) s = .next u ∧ WriteLeaves t i R.NZH_ARQ_RSV.addr [] {F.NZH_ARQ_RSV_RSV.addr} s u ∧
      u.chip.get F.NZH_ARQ_RSV_RSV = s.chip.get F.NZH_ARQ_RSV_RSV - 1) ∧
  (∀ (t : Nat) (i : Initiator) (w : Word) (v : Nat) (s : State), s.chip.mayWrite i R.NZH_ARQ_RD.addr → v = fld F.NZH_ARQ_RD_RD w.toNat →
    ∃ u, exec (.arqRdWrite t i w) s = .next u ∧ WriteLeaves t i R.NZH_ARQ_RD.addr [] {F.NZH_ARQ_RD_RD.addr, F.NZH_REJ_CNT_COUNT.addr} s u ∧
      ((s.chip.get F.NZH_ARQ_WR_WR + 8192 - v) % 8192 ≤ s.chip.arqUnread → u.chip.get F.NZH_ARQ_RD_RD = v ∧ u.chip.get F.NZH_REJ_CNT_COUNT = s.chip.get F.NZH_REJ_CNT_COUNT) ∧
      (s.chip.arqUnread < (s.chip.get F.NZH_ARQ_WR_WR + 8192 - v) % 8192 → u.chip.get F.NZH_ARQ_RD_RD = s.chip.get F.NZH_ARQ_RD_RD ∧
        u.chip.get F.NZH_REJ_CNT_COUNT = satNat (F.NZH_REJ_CNT_COUNT.hi + 1 - F.NZH_REJ_CNT_COUNT.lo) (s.chip.get F.NZH_REJ_CNT_COUNT + 1)))

/-- Flowstone (R255 to R258, R262, R271, R276, R335). HOLD fired lines without a reading make a loop's reading stale and move its trim towards
SAFE. A shape word goes into the shadow set unless a commit is under way or the shape is refused. Trim bounds and SAFE are held within the
image's ceilings; MIN above MAX is refused. A commit with no port enabled takes the set at once; another GO during a commit is refused. A
cold idle port asks for warming, and with the grant it begins. A due pseudo-line within the energy limit is sent; one beyond it is not. The
model's own choices in this: entries 65, 67, 68, 80 of the log. -/
def Obligations.FlowstoneActs : Prop :=
  (∀ (t : Nat) (k : Fin 8) (ic : Fin 6) (s : State), s.chip.up 5 = true → s.chip.get F.FLW_XCFG_HOLD ≤ (s.chip.loop k ic).without → (s.chip.loop k ic).stale = false →
    (∀ j : Fin 6, j ≠ ic → (s.chip.loop k j).without < s.chip.get F.FLW_XCFG_HOLD) → s.chip.on F.FLW_LOOP_EN ic = false →
    ∃ u, exec (.tempStale t k) s = .next u ∧ Leaves t [.flw, .ev] {F.FLW_STAT_TEMP_STALE.addr} s u ∧ u.chip.on F.FLW_STAT_TEMP_STALE = true ∧
      u.chip.loop k ic = { s.chip.loop k ic with stale := true, without := s.chip.get F.FLW_XCFG_HOLD } ∧
      (∀ j : Fin 6, j ≠ ic → u.chip.loop k j = s.chip.loop k j) ∧ (s.chip.at t).Raised u.chip [(0x0D02, [])]) ∧
  (∀ (t : Nat) (i : Initiator) (ic : Fin 6) (n : Nat) (second : Bool) (w : Word) (a : Nat) (s : State), n < 13 →
    a = (if second then R.FLW_SHAPE_B.at ic n else R.FLW_SHAPE_A.at ic n) → s.chip.mayWrite i a → s.chip.switchState = 0 → s.chip.xpert a = true →
    s.chip.on F.FLW_SHSTAT_PENDING = false →
    s.chip.shapeRefused ic n (if second then (s.chip.word (R.FLW_SHAPE_A.at ic n)).toNat else w.toNat) (if second then w.toNat else (s.chip.word (R.FLW_SHAPE_B.at ic n)).toNat) = false →
    ∃ u, exec (.shapeWrite t i ic n second w) s = .next u ∧ WriteLeaves t i a [.ev] ({a, F.FLW_STAT_BOUND_CONFLICT.addr} ∪ {x | ∃ j : Fin 6, x = F.FLW_EFF_LO.at j 0}) s u ∧
      u.chip.word a = w) ∧
  (∀ (t : Nat) (i : Initiator) (ic : Fin 6) (n : Nat) (second : Bool) (w : Word) (a : Nat) (s : State), n < 13 →
    a = (if second then R.FLW_SHAPE_B.at ic n else R.FLW_SHAPE_A.at ic n) → s.chip.mayWrite i a → s.chip.switchState = 0 →
    s.chip.xpert a = false ∨ s.chip.on F.FLW_SHSTAT_PENDING = true →
    ∃ u, exec (.shapeWrite t i ic n second w) s = .next u ∧ WriteLeaves t i a [] {F.FLW_REJ_CNT_COUNT.addr} s u ∧
      u.chip.get F.FLW_REJ_CNT_COUNT = satNat (F.FLW_REJ_CNT_COUNT.hi + 1 - F.FLW_REJ_CNT_COUNT.lo) (s.chip.get F.FLW_REJ_CNT_COUNT + 1)) ∧
  (∀ (t : Nat) (i : Initiator) (ic : Fin 6) (w : Word) (lo hi mn mx sf : Int) (s : State), s.chip.mayWrite i (R.FLW_TRIM.at ic 0) → s.chip.switchState = 0 →
    lo = signed 8 (s.chip.get F.FLW_TCEIL_LO ic) → hi = signed 8 (s.chip.get F.FLW_TCEIL_HI ic) →
    mn = signed 8 (fld F.FLW_TRIM_MIN w.toNat) → mx = signed 8 (fld F.FLW_TRIM_MAX w.toNat) → sf = signed 8 (fld F.FLW_TRIM_SAFE w.toNat) → lo ≤ hi →
    (if hi < mn then hi else if mn < lo then lo else mn) ≤ (if hi < mx then hi else if mx < lo then lo else mx) →
    ∃ u, exec (.trimBoundWrite t i ic w) s = .next u ∧
      WriteLeaves t i (R.FLW_TRIM.at ic 0) [.ev] ({R.FLW_TRIM.at ic 0, F.FLW_STAT_LOOP_SAT.addr} ∪ {x | ∃ j : Fin 6, x = F.FLW_EFF_LO.at j 0}) s u ∧
      signed 8 (u.chip.get F.FLW_TRIM_MIN ic) = (if hi < mn then hi else if mn < lo then lo else mn) ∧
      signed 8 (u.chip.get F.FLW_TRIM_MAX ic) = (if hi < mx then hi else if mx < lo then lo else mx) ∧
      signed 8 (u.chip.get F.FLW_TRIM_SAFE ic) = (if hi < sf then hi else if sf < lo then lo else sf) ∧
      (hi < mn ∨ mn < lo ∨ hi < mx ∨ mx < lo ∨ hi < sf ∨ sf < lo → u.chip.on F.FLW_STAT_LOOP_SAT = true)) ∧
  (∀ (t : Nat) (i : Initiator) (w : Word) (s : State), s.chip.mayWrite i R.FLW_COMMIT.addr → s.chip.on F.FLW_SHSTAT_PENDING = false →
    (∀ k : Fin 8, s.chip.portEnabled k = false) →
    ∃ u, exec (.commitGo t i w) s = .next u ∧
      WriteLeaves t i R.FLW_COMMIT.addr [.flw, .ev] ({F.FLW_SHSTAT_PENDING.addr, F.FLW_STAT_BOUND_CONFLICT.addr} ∪ {x | ∃ j : Fin 6, x = F.FLW_EFF_LO.at j 0}) s u ∧
      u.chip.on F.FLW_SHSTAT_PENDING = false ∧ u.chip.on F.FLW_SHSTAT_SHADOW_TAKEN = true ∧ u.chip.get F.FLW_SHSTAT_TAKEN = 0) ∧
  (∀ (t : Nat) (i : Initiator) (w : Word) (s : State), s.chip.mayWrite i R.FLW_COMMIT.addr → s.chip.on F.FLW_SHSTAT_PENDING = true →
    ∃ u, exec (.commitGo t i w) s = .next u ∧ WriteLeaves t i R.FLW_COMMIT.addr [] {F.FLW_REJ_CNT_COUNT.addr} s u ∧
      u.chip.get F.FLW_REJ_CNT_COUNT = satNat (F.FLW_REJ_CNT_COUNT.hi + 1 - F.FLW_REJ_CNT_COUNT.lo) (s.chip.get F.FLW_REJ_CNT_COUNT + 1)) ∧
  (∀ (t : Nat) (k : Fin 8) (s : State), s.chip.up 5 = true → (s.chip.at t).wantsWarming k = true → bitAt (s.chip.get F.FLW_WARM_STAT_IDLE_ACT) k = false →
    s.chip.ldl.asks = [] → s.chip.ldl.grants = [] → s.chip.get F.FLW_WARM_REQ_IDLE_AMT ≤ s.chip.ldlLimit (s.chip.barOf k) →
    ∃ u, exec (.idleWarmingStart t k) s = .next u ∧ Leaves t [.flw, .ev, .ldl] ({F.FLW_WARM_STAT_IDLE_ACT.addr} ∪ blockRegsSet 0x08) s u ∧
      bitAt (u.chip.get F.FLW_WARM_STAT_IDLE_ACT) k = true ∧ bitAt (u.chip.get F.FLW_WARM_STAT_IDLE_GRANT) k = true ∧
      u.chip.ldl = { s.chip.ldl with grants := [⟨6, k.val, s.chip.barOf k, s.chip.get F.FLW_WARM_REQ_IDLE_AMT⟩] } ∧
      u.chip.flw = { s.chip.flw with warmNext := s.chip.flw.warmNext.set k (max s.chip.now t + us (s.chip.get F.FLW_WARM_CFG_PER)) } ∧
      (s.chip.at t).Raised u.chip [(0x0D08, [])]) ∧
  (∀ (t : Nat) (k : Fin 8) (s : State), s.chip.up 5 = false ∨ bitAt (s.chip.get F.FLW_WARM_STAT_IDLE_ACT) k = true →
    exec (.idleWarmingStart t k) s = .next { s with chip := s.chip.at t }) ∧
  (∀ (t e : Nat) (k : Fin 8) (s : State), s.chip.up 5 = true → bitAt (s.chip.get F.FLW_WARM_STAT_IDLE_ACT) k = true → s.chip.flw.warmNext[k] ≤ max s.chip.now t →
    s.chip.flw.warmSent[k] = [] → e = s.chip.warmEnergy k → e ≤ s.chip.get F.HP_ELIM_LIMIT k →
    ∃ u, exec (.warmLineSend t k) s = .next u ∧ Leaves t [.flw, .hp, .sent] ∅ s u ∧
      u.chip.flw = { s.chip.flw with
        warmNext := s.chip.flw.warmNext.set k (max s.chip.now t + us (s.chip.get F.FLW_WARM_CFG_PER)), warmSent := s.chip.flw.warmSent.set k [(max s.chip.now t, e)] } ∧
      u.chip.hp = s.chip.hp.set k { s.chip.port k with ltag := ((s.chip.port k).ltag + 1) % 4096 } ∧ u.chip.sent.length = s.chip.sent.length + 1) ∧
  (∀ (t e : Nat) (k : Fin 8) (s : State), s.chip.up 5 = true → bitAt (s.chip.get F.FLW_WARM_STAT_IDLE_ACT) k = true → s.chip.flw.warmNext[k] ≤ max s.chip.now t →
    s.chip.flw.warmSent[k] = [] → e = s.chip.warmEnergy k → s.chip.get F.HP_ELIM_LIMIT k < e →
    ∃ u, exec (.warmLineSend t k) s = .next u ∧ Leaves t [.flw] ∅ s u ∧
      u.chip.flw = { s.chip.flw with warmNext := s.chip.flw.warmNext.set k (max s.chip.now t + us (s.chip.get F.FLW_WARM_CFG_PER)) })

/-- The Ladle (R336, R519, R570, R571, R574, R579). A request that fits its resource's limit is granted and held; one that does not is refused,
counted and asked again 1 ms later, not before. A client whose work is over gives its grant back. A software request takes the lowest free
slot and its result is the initiator's own; with no slot free it fails. Releasing and binding act on a held slot; on another they are
ignored and counted. A scrub burst that is due asks the Ladle, moves on by 4 KiB and gives the grant back. The model's own choices in this:
entries 102, 104 of the log. -/
def Obligations.LadleGrants : Prop :=
  (∀ (t idx res amt : Nat) (s : State), idx < 8 → s.chip.ldl.asks = [⟨7, idx, res, amt, none⟩] → s.chip.ldlSum res + amt ≤ s.chip.ldlLimit res → 1 ≤ res → res ≤ 4 →
    ∃ u, exec (.ladleRequest t 7 idx []) s = .next u ∧ Leaves t [.ldl, .pwr] ({F.FLW_WARM_STAT_KEEP_GRANT.addr} ∪ blockRegsSet 0x08 ∪ blockRegsSet 0x01) s u ∧
      u.chip.ldl = { s.chip.ldl with asks := [], grants := ⟨7, idx, res, amt⟩ :: s.chip.ldl.grants } ∧
      bitAt (u.chip.get F.FLW_WARM_STAT_KEEP_GRANT) idx = true ∧
      u.chip.get F.LDL_BAR_HELD_HELD (res - 1) = satNat 16 (s.chip.ldlSum res + amt)) ∧
  (∀ (t idx res amt : Nat) (client : Fin 8) (s : State), s.chip.ldl.asks = [⟨client.val, idx, res, amt, none⟩] → s.chip.ldlLimit res < s.chip.ldlSum res + amt → 0 < amt →
    client ≠ 2 → s.chip.ldl.refusedAt[client] = none → res ≤ 4 →
    ∃ u, exec (.ladleRequest t client idx []) s = .next u ∧ Leaves t [.ldl, .ev] {F.LDL_CORE_STAT_REFUSED.addr, F.LDL_BAR_STAT_REFUSED.at (res - 1) 0} s u ∧
      u.chip.ldl = { s.chip.ldl with
        asks := [⟨client.val, idx, res, amt, some (max s.chip.now t + ms 1)⟩], refusedAt := s.chip.ldl.refusedAt.set client (some (max s.chip.now t)) } ∧
      (res = 0 → u.chip.get F.LDL_CORE_STAT_REFUSED = satNat (F.LDL_CORE_STAT_REFUSED.hi + 1 - F.LDL_CORE_STAT_REFUSED.lo) (s.chip.get F.LDL_CORE_STAT_REFUSED + 1)) ∧
      (s.chip.at t).Raised u.chip [(0x0803, [(1, client.val), (2, amt)])]) ∧
  (∀ (t idx res amt again : Nat) (client : Fin 8) (s : State), s.chip.ldl.asks = [⟨client.val, idx, res, amt, some again⟩] → max s.chip.now t < again →
    exec (.ladleRetry t client idx []) s = .next { s with chip := s.chip.at t }) ∧
  (∀ (t idx res amt again : Nat) (s : State), idx < 8 → s.chip.ldl.asks = [⟨7, idx, res, amt, some again⟩] → again ≤ max s.chip.now t → s.chip.ldlSum res + amt ≤ s.chip.ldlLimit res →
    ∃ u, exec (.ladleRetry t 7 idx []) s = .next u ∧ Leaves t [.ldl, .pwr] ({F.FLW_WARM_STAT_KEEP_GRANT.addr} ∪ blockRegsSet 0x08 ∪ blockRegsSet 0x01) s u ∧
      u.chip.ldl = { s.chip.ldl with asks := [], grants := ⟨7, idx, res, amt⟩ :: s.chip.ldl.grants } ∧ bitAt (u.chip.get F.FLW_WARM_STAT_KEEP_GRANT) idx = true) ∧
  (∀ (t idx : Nat) (client : Fin 8) (s : State), s.chip.ladleInUse client idx = false →
    ∃ u, exec (.ladleRelease t client idx) s = .next u ∧ Leaves t [.ldl] (blockRegsSet 0x08) s u ∧
      u.chip.ldl = { s.chip.ldl with
        grants := s.chip.ldl.grants.filter (fun g => !(g.client == client.val && g.idx == idx)), asks := s.chip.ldl.asks.filter (fun a => !(a.client == client.val && a.idx == idx)) }) ∧
  (∀ (t idx : Nat) (client : Fin 8) (s : State), s.chip.ladleInUse client idx = true →
    exec (.ladleRelease t client idx) s = .next { s with chip := s.chip.at t }) ∧
  (∀ (t res amt : Nat) (i : Initiator) (w : Word) (slot : Fin 16) (s : State), s.chip.mayWrite i R.LDL_SW_REQ.addr → res = fld F.LDL_SW_REQ_RES w.toNat → res ≤ 4 →
    amt = fld F.LDL_SW_REQ_AMT w.toNat → s.chip.ldlSum res + amt ≤ s.chip.ldlLimit res → bitAt (s.chip.get F.LDL_SW_STAT_HELD) slot = false →
    (∀ j : Fin 16, j < slot → bitAt (s.chip.get F.LDL_SW_STAT_HELD) j = true) →
    ∃ u, exec (.swGrantRequest t i w) s = .next u ∧ WriteLeaves t i R.LDL_SW_REQ.addr [.ldl] (blockRegsSet 0x08) s u ∧
      u.chip.ldl = { s.chip.ldl with
        grants := ⟨5, slot.val, res, amt⟩ :: s.chip.ldl.grants, result := s.chip.ldl.result.set (initFin i) (BitVec.ofNat 32 (2 ^ 31 + 2 ^ 30 + slot.val)) } ∧
      u.chip.get F.LDL_SW_STAT_HELD = s.chip.get F.LDL_SW_STAT_HELD + 2 ^ slot.val) ∧
  (∀ (t : Nat) (i : Initiator) (w : Word) (s : State), s.chip.mayWrite i R.LDL_SW_REQ.addr → fld F.LDL_SW_REQ_RES w.toNat ≤ 4 → s.chip.get F.LDL_SW_STAT_HELD = 0xFFFF →
    ∃ u, exec (.swGrantRequest t i w) s = .next u ∧ WriteLeaves t i R.LDL_SW_REQ.addr [.ldl] ∅ s u ∧
      u.chip.ldl = { s.chip.ldl with result := s.chip.ldl.result.set (initFin i) 0x80000000 }) ∧
  (∀ (t slot : Nat) (i : Initiator) (w : Word) (s : State), s.chip.mayWrite i R.LDL_SW_REL.addr → slot = fld F.LDL_SW_REL_SLOT w.toNat →
    bitAt (s.chip.get F.LDL_SW_STAT_HELD) slot = true →
    ∃ u, exec (.swGrantRelease t i w) s = .next u ∧ WriteLeaves t i R.LDL_SW_REL.addr [.ldl] (blockRegsSet 0x08) s u ∧
      u.chip.ldl = { s.chip.ldl with
        grants := s.chip.ldl.grants.filter (fun g => !(g.client == 5 && g.idx == slot)), asks := s.chip.ldl.asks.filter (fun a => !(a.client == 5 && a.idx == slot)),
        bound := s.chip.ldl.bound.filter (fun b => b.1 != slot) } ∧
      bitAt (u.chip.get F.LDL_SW_STAT_HELD) slot = false ∧ bitAt (u.chip.get F.LDL_SW_STAT_BOUND) slot = false) ∧
  (∀ (t slot : Nat) (i : Initiator) (w : Word) (s : State), s.chip.mayWrite i R.LDL_SW_REL.addr → slot = fld F.LDL_SW_REL_SLOT w.toNat →
    bitAt (s.chip.get F.LDL_SW_STAT_HELD) slot = false →
    ∃ u, exec (.swGrantRelease t i w) s = .next u ∧ WriteLeaves t i R.LDL_SW_REL.addr [] {F.LDL_REJ_CNT_COUNT.addr} s u ∧
      u.chip.get F.LDL_REJ_CNT_COUNT = satNat (F.LDL_REJ_CNT_COUNT.hi + 1 - F.LDL_REJ_CNT_COUNT.lo) (s.chip.get F.LDL_REJ_CNT_COUNT + 1)) ∧
  (∀ (t slot q : Nat) (i : Initiator) (w : Word) (s : State), s.chip.mayWrite i R.LDL_SW_BIND.addr → slot = fld F.LDL_SW_BIND_SLOT w.toNat →
    q = fld F.LDL_SW_BIND_IQ_SLOT w.toNat → bitAt (s.chip.get F.LDL_SW_STAT_HELD) slot = true →
    ∃ u, exec (.swGrantBind t i w) s = .next u ∧ WriteLeaves t i R.LDL_SW_BIND.addr [.ldl] {F.LDL_SW_STAT_BOUND.addr} s u ∧
      u.chip.ldl = { s.chip.ldl with bound := (slot, q) :: s.chip.ldl.bound.filter (fun b => b.1 != slot) } ∧ bitAt (u.chip.get F.LDL_SW_STAT_BOUND) slot = true) ∧
  (∀ (t : Nat) (s : State), s.chip.up 4 = true → s.chip.on F.DDR_SCRUB_EN = true → s.chip.ddrReady = true → s.chip.mem.scrubAt ≤ max s.chip.now t →
    s.chip.ldl.asks = [] → s.chip.ldl.grants = [] → s.chip.get F.DDR_SCRUB_AMT_AMT ≤ s.chip.ldlLimit 0 →
    s.chip.get F.DDR_SCRUB_POS_POS + 1 < s.chip.get F.DDR_STAT_SIZE * 2 ^ 18 →
    ∃ u, exec (.scrubBurst t []) s = .next u ∧ Leaves t [.mem, .ldl, .pwr] ({F.DDR_SCRUB_POS_POS.addr} ∪ blockRegsSet 0x08 ∪ blockRegsSet 0x01) s u ∧
      u.chip.get F.DDR_SCRUB_POS_POS = s.chip.get F.DDR_SCRUB_POS_POS + 1 ∧ u.chip.ldl.grants = [] ∧ u.chip.ldl.asks = [] ∧ max s.chip.now t < u.chip.mem.scrubAt) ∧
  (∀ (t : Nat) (s : State), s.chip.up 4 = false ∨ s.chip.on F.DDR_SCRUB_EN = false ∨ s.chip.ddrReady = false ∨ max s.chip.now t < s.chip.mem.scrubAt →
    exec (.scrubBurst t []) s = .next { s with chip := s.chip.at t })

/-- A twin pair watches itself (R359 to R364, R373 to R375, R381, R386). Enabling lifts fencing and starts listening. A heartbeat carries the
sender's state, press time, key and ports; a period without a valid one is counted, and MISS periods in a row that bring only keys that do
not match are a MISMATCH. One that is not the partner's, or not later than the last, changes nothing. The first valid echoed one makes the
pair PAIRED. Silence for MISS periods is a lost partner: the survivor goes to state 3 and its pair ports' other sides are lost; an isolated
node fences. Reading a low word captures its high word. The model's own choices in this: entries 17, 89 of the log. -/
def Obligations.PairWatchesItself : Prop :=
  (∀ (t : Nat) (i : Initiator) (w : Word) (s : State), s.chip.mayWrite i R.TKO_CTRL.addr → s.chip.switchState = 0 → s.chip.calBusy = false →
    s.chip.on F.TKO_CTRL_EN = false → fld F.TKO_CTRL_JOIN w.toNat = 0 → (∀ k : Fin 8, s.chip.on F.TKO_PAIR_EN k = false) →
    ∃ u, exec (.tkoEnable t i w) s = .next u ∧ WriteLeaves t i R.TKO_CTRL.addr [.tko] {R.TKO_CTRL.addr, F.TKO_STAT_STATE.addr} s u ∧
      u.chip.on F.TKO_CTRL_EN = true ∧ u.chip.get F.TKO_STAT_STATE = (if s.chip.twin then 1 else 0) ∧
      u.chip.tko = { s.chip.tko with heard := false, heardNow := false, keyNow := false, sent := false, period := none, misRun := 0, decide := [] }) ∧
  (∀ (t : Nat) (s : State), s.chip.up 3 = true → s.chip.on F.TKO_CTRL_EN = true → s.chip.twin = true → s.chip.tko.pend = none →
    (∀ k : Fin 8, s.chip.on F.TKO_PAIR_EN k = false) →
    s.chip.tko.period = some ((s.chip.at t).nowNs / (1000 * max 1 (s.chip.get F.TKO_HB_CFG_PER))) →
    ∃ u, exec (.hbSend t) s = .next u ∧ Leaves t [.tko, .sent] ∅ s u ∧
      u.chip.tko = { s.chip.tko with seq := (s.chip.tko.seq + 1) % 65536, sent := true } ∧
      u.chip.sent = s.chip.sent ++ [⟨"tko", (if s.chip.on F.TKO_XCFG_SINGLE_DIR then 1 else 2) :: ([1, s.chip.get F.TKO_STAT_STATE] ++ bytesLE 2 s.chip.nodeId ++
        bytesLE 2 (s.chip.get F.TKO_PARTNER_NODE) ++ bytesLE 2 s.chip.tko.seq ++ bytesLE 8 u.chip.nowNs ++ bytesLE 4 (s.chip.get F.TKO_KEY_KEY) ++
        bytesLE 2 (s.chip.get F.TKO_HB_STAT_LAST_SEQ) ++ [0, s.chip.get F.TKO_PORTS_SOLO] ++ bytesLE 6 (unsigned 48 s.chip.tko.lastFired) ++ List.replicate 34 0)⟩]) ∧
  (∀ (t q p : Nat) (s : State), s.chip.up 3 = true → s.chip.on F.TKO_CTRL_EN = true → s.chip.twin = true →
    s.chip.tko.period = some q → p = (s.chip.at t).nowNs / (1000 * max 1 (s.chip.get F.TKO_HB_CFG_PER)) → q ≠ p → s.chip.tko.heardNow = false →
    ∃ u, exec (.hbSend t) s = .next u ∧ Leaves t [.tko, .sent] {F.TKO_HB_STAT_MISSED.addr} s u ∧
      u.chip.tko = { s.chip.tko with period := some p, keyNow := false, seq := (s.chip.tko.seq + 1) % 65536, sent := true } ∧
      u.chip.get F.TKO_HB_STAT_MISSED = satNat (F.TKO_HB_STAT_MISSED.hi + 1 - F.TKO_HB_STAT_MISSED.lo) (s.chip.get F.TKO_HB_STAT_MISSED + 1) ∧
      u.chip.get F.TKO_HB_STAT_LAST_SEQ = s.chip.get F.TKO_HB_STAT_LAST_SEQ ∧ u.chip.sent.length = s.chip.sent.length + 1) ∧
  (∀ (t q p : Nat) (s : State), s.chip.up 3 = true → s.chip.on F.TKO_CTRL_EN = true → s.chip.twin = true →
    s.chip.tko.period = some q → p = (s.chip.at t).nowNs / (1000 * max 1 (s.chip.get F.TKO_HB_CFG_PER)) → q ≠ p → s.chip.tko.heardNow = true →
    s.chip.tko.keyNow = false → s.chip.get F.TKO_HB_CFG_MISS ≤ s.chip.tko.misRun + 1 → s.chip.get F.TKO_STAT_STATE = 1 ∨ s.chip.get F.TKO_STAT_STATE = 2 →
    ∃ u, exec (.hbSend t) s = .next u ∧ Leaves t [.tko, .sent, .ev] {F.TKO_STAT_STATE.addr} s u ∧
      u.chip.tko = { s.chip.tko with period := some p, heardNow := false, misRun := s.chip.tko.misRun + 1, seq := (s.chip.tko.seq + 1) % 65536, sent := true } ∧
      u.chip.get F.TKO_STAT_STATE = 6 ∧ u.chip.on F.TKO_STAT_ISOLATED = s.chip.on F.TKO_STAT_ISOLATED ∧
      u.chip.sent.length = s.chip.sent.length + 1 ∧ (s.chip.at t).Raised u.chip [(0x1F0A, [])]) ∧
  (∀ (t : Nat) (s : State), s.chip.up 3 = false ∨ s.chip.on F.TKO_CTRL_EN = false ∨ s.chip.twin = false →
    exec (.hbSend t) s = .next { s with chip := s.chip.at t }) ∧
  (∀ (t : Nat) (h : Heartbeat) (s : State), s.chip.up 3 = false ∨ s.chip.on F.TKO_CTRL_EN = false ∨ s.chip.twin = false ∨ h.node ≠ s.chip.get F.TKO_PARTNER_NODE ∨
      (s.chip.tko.heard = true ∧ (h.seq + 65536 - s.chip.get F.TKO_HB_STAT_LAST_SEQ) % 65536 = 0) →
    exec (.hbRx t h) s = .next { s with chip := s.chip.at t }) ∧
  (∀ (t : Nat) (h : Heartbeat) (s : State), s.chip.up 3 = true → s.chip.on F.TKO_CTRL_EN = true → s.chip.twin = true → h.node = s.chip.get F.TKO_PARTNER_NODE →
    s.chip.tko.heard = false → h.key = s.chip.get F.TKO_KEY_KEY → h.state ≠ 3 → s.chip.get F.TKO_STAT_STATE = 1 → s.chip.tko.sent = true →
    h.echo = (s.chip.tko.seq + 65535) % 65536 → (∀ k : Fin 8, s.chip.on F.TKO_PAIR_EN k = false) → s.chip.on F.TKO_STBY_AUTO = false → h.seq < 65536 → h.tSend < 2 ^ 64 →
    ∃ u, exec (.hbRx t h) s = .next u ∧
      Leaves t [.tko, .ev] {F.TKO_HB_STAT_LAST_SEQ.addr, F.TKO_HB_TS_LO_TS_LO.addr, F.TKO_HB_TS_HI_TS_HI.addr, F.TKO_STAT_STATE.addr} s u ∧
      u.chip.get F.TKO_HB_STAT_LAST_SEQ = h.seq ∧ u.chip.get F.TKO_HB_TS_LO_TS_LO = h.tSend % 2 ^ 32 ∧ u.chip.get F.TKO_HB_TS_HI_TS_HI = h.tSend / 2 ^ 32 ∧
      u.chip.get F.TKO_STAT_STATE = 2 ∧
      u.chip.tko = { s.chip.tko with
        heard := true, heardNow := true, tSend := h.tSend, partnerOk := h.ok, partnerSolo := h.solo, partnerFired := h.lastFired, keyOk := true, keyNow := true, misRun := 0 } ∧
      (s.chip.at t).Raised u.chip [(0x1F01, [])]) ∧
  (∀ (t : Nat) (s : State), s.chip.up 3 = true → s.chip.get F.TKO_STAT_STATE = 2 ∨ s.chip.get F.TKO_STAT_STATE = 6 →
    ns s.chip.tko.tSend + us (s.chip.get F.TKO_HB_CFG_MISS * s.chip.get F.TKO_HB_CFG_PER) ≤ max s.chip.now t → s.chip.on F.TKO_STAT_ISOLATED = true →
    s.chip.on F.TKO_XCFG_NO_FENCE = true → (∀ k : Fin 8, s.chip.on F.TKO_PAIR_EN k = false) → s.chip.col.dnt = [] →
    (∀ k : Fin 8, s.chip.on F.COL_PSTAT_EXTRA k = false) →
    ∃ u, exec (.partnerLost t) s = .next u ∧ Leaves t [.tko, .ev, .col] ({F.TKO_STAT_STATE.addr} ∪ blockRegsSet 0x0C) s u ∧
      u.chip.get F.TKO_STAT_STATE = 3 ∧ u.chip.tko = { s.chip.tko with heard := false } ∧
      (s.chip.at t).Raised u.chip [(0x1F02, [(8, s.chip.tko.tSend), (6, unsigned 48 s.chip.tko.partnerFired)]), (0x1F08, [])]) ∧
  (∀ (t : Nat) (s : State), s.chip.up 3 = true → s.chip.get F.TKO_STAT_STATE = 2 ∨ s.chip.get F.TKO_STAT_STATE = 6 →
    ns s.chip.tko.tSend + us (s.chip.get F.TKO_HB_CFG_MISS * s.chip.get F.TKO_HB_CFG_PER) ≤ max s.chip.now t → s.chip.on F.TKO_STAT_ISOLATED = false →
    s.chip.on F.TKO_CFG_CONFIRM = true → (∀ k : Fin 8, s.chip.on F.TKO_PAIR_EN k = false) → s.chip.col.dnt = [] →
    (∀ k : Fin 8, s.chip.on F.COL_PSTAT_EXTRA k = false) → s.chip.cmp.items = [] → s.chip.on F.TKO_STBY_AUTO = false →
    ∃ u, exec (.partnerLost t) s = .next u ∧ Leaves t [.tko, .ev, .col] ({F.TKO_STAT_STATE.addr} ∪ blockRegsSet 0x0C) s u ∧
      u.chip.get F.TKO_STAT_STATE = 3 ∧
      u.chip.tko = { s.chip.tko with heard := false, decide := s.chip.tko.decide ++ [(max s.chip.now t + us 50, [])] } ∧
      (s.chip.at t).Raised u.chip [(0x1F02, [(8, s.chip.tko.tSend), (6, unsigned 48 s.chip.tko.partnerFired)])]) ∧
  (∀ (t : Nat) (i : Initiator) (s : State), s.chip.mayRead i R.TKO_HB_TS_LO.addr →
    ∃ u, exec (.tkoHbTsLoRead t i) s = .next u ∧ ReadLeaves t (s.chip.word R.TKO_HB_TS_LO.addr).toNat [.latch] ∅ s u ∧
      u.chip.captured R.TKO_HB_TS_HI.addr = (s.chip.word R.TKO_HB_TS_HI.addr).toNat) ∧
  (∀ (t : Nat) (i : Initiator) (s : State), s.chip.mayRead i R.TKO_SW_LO.addr →
    ∃ u, exec (.tkoSwLoRead t i) s = .next u ∧ ReadLeaves t (s.chip.word R.TKO_SW_LO.addr).toNat [.latch] ∅ s u ∧
      u.chip.captured R.TKO_SW_HI.addr = (s.chip.word R.TKO_SW_HI.addr).toNat) ∧
  (∀ (t : Nat) (i : Initiator) (s : State), s.chip.mayRead i R.TKO_RET_LO.addr →
    ∃ u, exec (.tkoRetLoRead t i) s = .next u ∧ ReadLeaves t (s.chip.word R.TKO_RET_LO.addr).toNat [.latch] ∅ s u ∧
      u.chip.captured R.TKO_RET_HI.addr = (s.chip.word R.TKO_RET_HI.addr).toNat)

/-- Takeover, return, standby and thermal fill (R349, R376, R366 to R369, R377, R382 to R385). A decision that waits for TC goes on when TC says
so or its deadline has passed: on an LN-8064-T within 48 kHz the port gets a takeover notice from the smallest line of the lost side above
x(t + REFILL). A veto drops it and is recorded. JOIN is sent only when the node is ready. A return request and a JOIN set the return line,
clear LOST and are answered; the returning side takes its line. STBY_SW activates the mapped, armed standby port. A request for a port that
fills gets its first line and a takeover notice follows; one that cannot fill gets the refusal's reason. The blanked port notes the first
filled line; a refusal or 100 us of silence is recorded. The end of a fill names the return line to both. The model's own choices in this:
entries 90, 91, 92, 93, 94, 95 of the log. -/
def Obligations.TakeoverReturnAndFill : Prop :=
  (∀ (t d : Nat) (i : Initiator) (w : Word) (k : Fin 8) (n : Int) (s : State), s.chip.mayWrite i R.TKO_DECIDE.addr → s.chip.tko.decide = [(d, [k.val])] → s.chip.takesOver = true →
    s.chip.on F.TKO_XCFG_NO_TAKEOVER = false → bitAt (s.chip.get F.TKO_PORTS_SOLO) k = false →
    n = lineFrom ((s.chip.at t).lineAfter (s.chip.get F.TKO_LEAD_REFILL)) (s.chip.otherSide k) →
    ∃ u, exec (.tkoProceed t i w) s = .next u ∧ WriteLeaves t i R.TKO_DECIDE.addr [.tko, .col, .ev, .trk] (blockRegsSet 0x1F ∪ blockRegsSet 0x0A) s u ∧
      u.chip.col = { s.chip.col with notices := s.chip.col.notices ++ [⟨k, true, n⟩] } ∧
      u.chip.tko = { s.chip.tko with decide := [], swLine := some n, retLine := none } ∧
      bitAt (u.chip.get F.TKO_PORTS_SOLO) k = true ∧ bitAt (u.chip.get F.TKO_PORTS_HALF) k = false ∧
      u.chip.get F.TKO_SW_LO_LINE_LO = unsigned 48 n % 2 ^ 32 ∧ u.chip.get F.TKO_SW_HI_LINE_HI = unsigned 48 n / 2 ^ 32 ∧
      u.chip.get F.TKO_SW_HI_PORTS = 2 ^ k.val ∧
      (s.chip.at t).Raised u.chip [(0x1F04, [(1, 2 ^ k.val), (6, unsigned 48 n)])]) ∧
  (∀ (t d : Nat) (k : Fin 8) (n : Int) (s : State), s.chip.up 3 = true → s.chip.tko.decide = [(d, [k.val])] → d ≤ max s.chip.now t → s.chip.takesOver = true →
    s.chip.on F.TKO_XCFG_NO_TAKEOVER = false → bitAt (s.chip.get F.TKO_PORTS_SOLO) k = false →
    n = lineFrom ((s.chip.at t).lineAfter (s.chip.get F.TKO_LEAD_REFILL)) (s.chip.otherSide k) →
    ∃ u, exec (.decisionTimeout t) s = .next u ∧ Leaves t [.tko, .col, .ev, .trk] (blockRegsSet 0x1F ∪ blockRegsSet 0x0A) s u ∧
      u.chip.col = { s.chip.col with notices := s.chip.col.notices ++ [⟨k, true, n⟩] } ∧
      u.chip.tko = { s.chip.tko with decide := [], swLine := some n, retLine := none } ∧ bitAt (u.chip.get F.TKO_PORTS_SOLO) k = true) ∧
  (∀ (t : Nat) (s : State), s.chip.tko.decide = [] → exec (.decisionTimeout t) s = .next { s with chip := s.chip.at t }) ∧
  (∀ (t d : Nat) (i : Initiator) (w : Word) (k : Fin 8) (s : State), s.chip.mayWrite i R.TKO_DECIDE.addr → s.chip.tko.decide = [(d, [k.val])] → s.chip.tko.lostLines[k] = none →
    ∃ u, exec (.tkoVeto t i w) s = .next u ∧ WriteLeaves t i R.TKO_DECIDE.addr [.tko, .ev] ∅ s u ∧
      u.chip.tko = { s.chip.tko with decide := [] } ∧ (s.chip.at t).Raised u.chip [(0x1F05, [])]) ∧
  (∀ (t : Nat) (i : Initiator) (w : Word) (s : State), s.chip.mayWrite i R.TKO_CTRL.addr → s.chip.switchState = 0 → s.chip.calBusy = false →
    s.chip.on F.TKO_CTRL_EN = true → fld F.TKO_CTRL_EN w.toNat = 1 → s.chip.mayJoin = true →
    ∃ u, exec (.tkoJoin t i w) s = .next u ∧ WriteLeaves t i R.TKO_CTRL.addr [.tko, .sent] {R.TKO_CTRL.addr} s u ∧
      u.chip.tko = { s.chip.tko with seq := (s.chip.tko.seq + 1) % 65536, sent := true } ∧ u.chip.sent.length = s.chip.sent.length + 1) ∧
  (∀ (t : Nat) (i : Initiator) (w : Word) (s : State), s.chip.mayWrite i R.TKO_CTRL.addr → s.chip.switchState = 0 → s.chip.calBusy = false →
    s.chip.on F.TKO_CTRL_EN = true → fld F.TKO_CTRL_EN w.toNat = 1 → s.chip.mayJoin = false →
    ∃ u, exec (.tkoJoin t i w) s = .next u ∧ WriteLeaves t i R.TKO_CTRL.addr [.ev] {R.TKO_CTRL.addr, F.TKO_REJ_CNT_COUNT.addr} s u ∧
      u.chip.get F.TKO_REJ_CNT_COUNT = satNat (F.TKO_REJ_CNT_COUNT.hi + 1 - F.TKO_REJ_CNT_COUNT.lo) (s.chip.get F.TKO_REJ_CNT_COUNT + 1) ∧
      (s.chip.at t).Raised u.chip [(0x1F0C, [])]) ∧
  (∀ (t : Nat) (w0 : Int) (firsts : List Int) (n : Int) (s : State), s.chip.up 3 = true → s.chip.get F.TKO_STAT_STATE = 3 → (∀ k : Fin 8, s.chip.on F.TKO_PAIR_EN k = false) →
    n = max (listMax (w0 :: firsts) + s.chip.lMax) ((s.chip.at t).lineAfter (s.chip.get F.TKO_LEAD_RET_LEAD)) →
    ∃ u, exec (.joinRx t w0 firsts) s = .next u ∧ Leaves t [.tko, .ev, .trk, .sent] (blockRegsSet 0x1F ∪ blockRegsSet 0x0A) s u ∧
      u.chip.get F.TKO_RET_LO_LINE_LO = unsigned 48 n % 2 ^ 32 ∧ u.chip.get F.TKO_RET_HI_LINE_HI = unsigned 48 n / 2 ^ 32 ∧
      u.chip.tko = { s.chip.tko with retLine := some n, seq := (s.chip.tko.seq + 1) % 65536, sent := true } ∧
      u.chip.sent.length = s.chip.sent.length + 1 ∧ (s.chip.at t).Raised u.chip [(0x1F07, [(1, 0), (6, unsigned 48 n)])]) ∧
  (∀ (t : Nat) (w0 : Int) (firsts : List Int) (s : State), s.chip.up 3 = false ∨ s.chip.get F.TKO_STAT_STATE ≠ 3 →
    exec (.joinRx t w0 firsts) s = .next { s with chip := s.chip.at t }) ∧
  (∀ (t port : Nat) (k : Fin 8) (earliest n : Int) (s : State), s.chip.up 3 = true → s.chip.ofPartner port = some k → bitAt (s.chip.get F.TKO_PORTS_LOST) k = true →
    s.chip.tko.lostLines[k] = none → bitAt (s.chip.get F.TKO_PORTS_SOLO) k = true →
    n = lineFrom (max earliest ((s.chip.at t).lineAfter (s.chip.get F.TKO_LEAD_RET_LEAD))) (s.chip.otherSide k) →
    ∃ u, exec (.retReqRx t port earliest) s = .next u ∧ Leaves t [.tko, .ev, .trk, .sent, .col] (blockRegsSet 0x1F ∪ blockRegsSet 0x0A) s u ∧
      u.chip.col = { s.chip.col with notices := s.chip.col.notices ++ [⟨k, false, n⟩] } ∧
      bitAt (u.chip.get F.TKO_PORTS_LOST) k = false ∧ bitAt (u.chip.get F.TKO_PORTS_SOLO) k = false ∧
      u.chip.get F.TKO_RET_LO_LINE_LO = unsigned 48 n % 2 ^ 32 ∧ u.chip.get F.TKO_RET_HI_LINE_HI = unsigned 48 n / 2 ^ 32 ∧ u.chip.get F.TKO_RET_HI_PORTS = 2 ^ k.val ∧
      u.chip.tko.retLine = some n ∧ u.chip.sent.length = s.chip.sent.length + 1) ∧
  (∀ (t port : Nat) (earliest : Int) (s : State), s.chip.ofPartner port = none → exec (.retReqRx t port earliest) s = .next { s with chip := s.chip.at t }) ∧
  (∀ (t mask : Nat) (k : Fin 8) (n : Int) (s : State), s.chip.up 3 = true → s.chip.pairPorts = [k] → bitAt mask (s.chip.get F.TKO_PAIR_PPORT k) = true →
    s.chip.get F.TKO_STAT_STATE = 4 ∨ s.chip.get F.TKO_STAT_STATE = 5 → s.chip.tko.fenced = 0 → s.chip.get F.COL_PSTAT_FIRES k ≠ 0 →
    ∃ u, exec (.retLineRx t mask n) s = .next u ∧ Leaves t [.tko, .ev] (blockRegsSet 0x1F) s u ∧
      u.chip.get F.TKO_STAT_STATE = 2 ∧ u.chip.tko = { s.chip.tko with retLine := some n } ∧
      u.chip.get F.TKO_RET_LO_LINE_LO = unsigned 48 n % 2 ^ 32 ∧ bitAt (u.chip.get F.TKO_PORTS_LOST) k = false ∧
      (s.chip.at t).Raised u.chip [(0x1F07, [(1, 2 ^ k.val), (6, unsigned 48 n)])]) ∧
  (∀ (t p : Nat) (k : Fin 8) (n : Int) (s : State), s.chip.up 3 = true → s.chip.standbyFor p = some k → s.chip.stbyAllowed k p true n = true →
    ∃ u, exec (.stbySwRx t p 1 n) s = .next u ∧ Leaves t [.col, .ev] ∅ s u ∧
      u.chip.col = { s.chip.col with stby := s.chip.col.stby ++ [(k.val, p, true, n)] } ∧ (s.chip.at t).Raised u.chip [(0x1F0B, [(1, p), (6, unsigned 48 n)])]) ∧
  (∀ (t p op : Nat) (n : Int) (s : State), s.chip.up 3 = false ∨ op ≠ 1 ∨ s.chip.standbyFor p = none →
    exec (.stbySwRx t p op n) s = .next { s with chip := s.chip.at t }) ∧
  (∀ (t port reason : Nat) (k : Fin 8) (s : State), s.chip.up 3 = true → s.chip.ofPartner port = some k →
    (s.chip.isUp k = false ∨ s.chip.takesOver = false ∨ s.chip.get F.TKO_STAT_STATE = 6) ∧ reason = 4 ∨
      s.chip.isUp k = true ∧ s.chip.takesOver = true ∧ s.chip.get F.TKO_STAT_STATE ≠ 6 ∧
        signed 12 (s.chip.get F.HP_TWARN_T_WARN k) ≤ signed 12 (s.chip.get F.HP_TEMP_T_H k) ∧ reason = 1 →
    ∃ u, exec (.fillReqRx t port) s = .next u ∧ Leaves t [.tko, .sent] ∅ s u ∧
      u.chip.tko = { s.chip.tko with seq := (s.chip.tko.seq + 1) % 65536, sent := true } ∧
      u.chip.sent = s.chip.sent ++ [⟨"tko", (if s.chip.on F.TKO_XCFG_SINGLE_DIR then 1 else 2) :: ([4, s.chip.get F.TKO_STAT_STATE] ++ bytesLE 2 s.chip.nodeId ++
        bytesLE 2 (s.chip.get F.TKO_PARTNER_NODE) ++ bytesLE 2 s.chip.tko.seq ++ [k.val, reason] ++ List.replicate 54 0)⟩]) ∧
  (∀ (t port : Nat) (k : Fin 8) (n : Int) (s : State), s.chip.up 3 = true → s.chip.ofPartner port = some k → s.chip.isUp k = true → s.chip.fillRefusal k = none →
    n = lineFrom ((s.chip.at t).lineAfter (s.chip.get F.TKO_LEAD_REFILL)) (s.chip.otherSide k) →
    ∃ u, exec (.fillReqRx t port) s = .next u ∧ Leaves t [.tko, .sent, .col, .ev, .trk] (blockRegsSet 0x1F ∪ blockRegsSet 0x0A) s u ∧
      u.chip.col = { s.chip.col with notices := s.chip.col.notices ++ [⟨k, true, n⟩] } ∧ bitAt (u.chip.get F.TKO_PORTS_SOLO) k = true ∧
      u.chip.sent = s.chip.sent ++ [⟨"tko", (if s.chip.on F.TKO_XCFG_SINGLE_DIR then 1 else 2) :: ([3, s.chip.get F.TKO_STAT_STATE] ++ bytesLE 2 s.chip.nodeId ++
        bytesLE 2 (s.chip.get F.TKO_PARTNER_NODE) ++ bytesLE 2 s.chip.tko.seq ++ [k.val] ++ bytesLE 6 (unsigned 48 n) ++ List.replicate 49 0)⟩]) ∧
  (∀ (t port : Nat) (k : Fin 8) (n : Int) (s : State), s.chip.up 3 = true → s.chip.ofPartner port = some k → s.chip.tko.fillAt[k] ≠ none →
    s.chip.on F.HP_PSTAT_BLANK k = true →
    ∃ u, exec (.fillAckRx t port n) s = .next u ∧ Leaves t [.tko, .hp] {F.HP_PSTAT_FILL.at k 0} s u ∧ u.chip.on F.HP_PSTAT_FILL k = true ∧
      u.chip.tko = { s.chip.tko with fillAt := s.chip.tko.fillAt.set k none } ∧ u.chip.hp = s.chip.hp.set k { s.chip.port k with fillFrom := some n, resumeAt := none }) ∧
  (∀ (t port reason : Nat) (k : Fin 8) (s : State), s.chip.up 3 = true → s.chip.ofPartner port = some k → s.chip.tko.fillAt[k] ≠ none →
    ∃ u, exec (.fillNakRx t port reason) s = .next u ∧ Leaves t [.tko, .ev] ∅ s u ∧
      u.chip.tko = { s.chip.tko with fillAt := s.chip.tko.fillAt.set k none } ∧ (s.chip.at t).Raised u.chip [(0x1013 + 0x100 * k.val, [])]) ∧
  (∀ (t since : Nat) (k : Fin 8) (s : State), s.chip.up 3 = true → s.chip.tko.fillAt[k] = some since → since + us 100 ≤ max s.chip.now t →
    ∃ u, exec (.fillTimeout t k) s = .next u ∧ Leaves t [.tko, .ev] ∅ s u ∧
      u.chip.tko = { s.chip.tko with fillAt := s.chip.tko.fillAt.set k none } ∧ (s.chip.at t).Raised u.chip [(0x1013 + 0x100 * k.val, [])]) ∧
  (∀ (t : Nat) (k : Fin 8) (s : State), s.chip.tko.fillAt[k] = none → exec (.fillTimeout t k) s = .next { s with chip := s.chip.at t }) ∧
  (∀ (t port : Nat) (k : Fin 8) (earliest n : Int) (s : State), s.chip.up 3 = true → s.chip.ofPartner port = some k → bitAt (s.chip.get F.TKO_PORTS_SOLO) k = true →
    n = lineFrom (max earliest ((s.chip.at t).lineAfter (s.chip.get F.TKO_LEAD_RET_LEAD))) (s.chip.otherSide k) →
    ∃ u, exec (.fillEndRx t port earliest) s = .next u ∧ Leaves t [.tko, .sent, .col] {F.TKO_PORTS_SOLO.addr} s u ∧
      u.chip.col = { s.chip.col with notices := s.chip.col.notices ++ [⟨k, false, n⟩] } ∧ bitAt (u.chip.get F.TKO_PORTS_SOLO) k = false ∧
      u.chip.sent = s.chip.sent ++ [⟨"tko", (if s.chip.on F.TKO_XCFG_SINGLE_DIR then 1 else 2) :: ([6, s.chip.get F.TKO_STAT_STATE] ++ bytesLE 2 s.chip.nodeId ++
        bytesLE 2 (s.chip.get F.TKO_PARTNER_NODE) ++ bytesLE 2 s.chip.tko.seq ++ [k.val] ++ bytesLE 6 (unsigned 48 n) ++ List.replicate 49 0)⟩]) ∧
  (∀ (t port : Nat) (k : Fin 8) (n : Int) (s : State), s.chip.up 3 = true → s.chip.ofPartner port = some k → (s.chip.port k).fillFrom ≠ none →
    ∃ u, exec (.fillRetRx t port n) s = .next u ∧ Leaves t [.hp] ∅ s u ∧ u.chip.hp = s.chip.hp.set k { s.chip.port k with resumeAt := some n }) ∧
  (∀ (t port : Nat) (k : Fin 8) (n : Int) (s : State), s.chip.ofPartner port = some k → (s.chip.port k).fillFrom = none →
    exec (.fillRetRx t port n) s = .next { s with chip := s.chip.at t })

/-- Loading a structure image (R400, R401, R415). STR_LOAD_GO copies the source into the pending slot, clears the result and starts the check;
while a check or a switch is under way it is ignored and counted. When the check is complete its reason and section stand in STR_RESULT; an
image that fails nothing becomes the pending one, with its sequence number, and either way an event says so. A copy that failed is refused
for it. The model's own choices in this: entries 82, 83 of the log. -/
def Obligations.ImageLoads : Prop :=
  (∀ (t : Nat) (i : Initiator) (w : Word) (src dst len : Nat) (s : State), s.chip.mayWrite i R.STR_LOAD_GO.addr → s.chip.on F.STR_STAT_CHECKING = false →
    s.chip.switchState = 0 → s.chip.fw.calCmd = none → src = s.chip.get F.STR_LOAD_HI_ADDR * 2 ^ 32 + s.chip.get F.STR_LOAD_LO_ADDR * 4 →
    dst = s.chip.get F.STR_SLOT_BASE_HI_ADDR * 2 ^ 32 + s.chip.get F.STR_SLOT_BASE_LO_ADDR * 4096 + 262144 * (1 - s.chip.get F.STR_STAT_ACTIVE_SLOT) →
    len = s.chip.get F.STR_LOAD_LEN_LEN → len % 64 = 0 → s.chip.ddrReady = true → s.chip.inDdr src len = true → s.chip.inDdr dst len = true →
    (∀ w : Fin 8, s.chip.on F.DDR_WIN_PERM_EN w = false) →
    ∃ u, exec (.strLoad t i w []) s = .next u ∧ LeavesChip t [.answer, .sys, .str] {F.STR_STAT_CHECKING.addr, F.STR_RESULT_DONE.addr} s u ∧
      u.chip.answer = .done ∧ u.chip.on F.STR_STAT_CHECKING = true ∧ u.chip.on F.STR_STAT_PEND_VALID = false ∧ u.chip.on F.STR_RESULT_DONE = false ∧
      u.chip.str = { s.chip.str with copyFail := false } ∧ u.store = { s.store with mem := u.store.mem } ∧ u.store.read dst len = s.store.read src len ∧
      (∀ b : Nat, b < dst ∨ dst + len ≤ b → u.store.read b 1 = s.store.read b 1)) ∧
  (∀ (t : Nat) (i : Initiator) (w : Word) (s : State), s.chip.mayWrite i R.STR_LOAD_GO.addr → s.chip.fw.calCmd = none →
    s.chip.on F.STR_STAT_CHECKING = true ∨ s.chip.switchState ≠ 0 →
    ∃ u, exec (.strLoad t i w []) s = .next u ∧ WriteLeaves t i R.STR_LOAD_GO.addr [] {F.STR_REJ_CNT_COUNT.addr} s u ∧
      u.chip.get F.STR_REJ_CNT_COUNT = satNat (F.STR_REJ_CNT_COUNT.hi + 1 - F.STR_REJ_CNT_COUNT.lo) (s.chip.get F.STR_REJ_CNT_COUNT + 1)) ∧
  (∀ (t dst len : Nat) (l : List Nat) (r : Nat × Nat) (s : State), s.chip.up 1 = true → s.chip.on F.STR_STAT_CHECKING = true → s.chip.str.copyFail = false →
    s.chip.fw.tcWait = [] →
    dst = s.chip.get F.STR_SLOT_BASE_HI_ADDR * 2 ^ 32 + s.chip.get F.STR_SLOT_BASE_LO_ADDR * 4096 + 262144 * (1 - s.chip.get F.STR_STAT_ACTIVE_SLOT) →
    len = s.chip.get F.STR_LOAD_LEN_LEN → s.chip.ddrReady = true → s.chip.inDdr dst len = true → (∀ w : Fin 8, s.chip.on F.DDR_WIN_PERM_EN w = false) →
    l = (s.store.read dst len).map BitVec.toNat → r = ((s.chip.at t).readFuses s.store).imageCheck l →
    ∃ u, exec (.imageCheckDone t []) s = .next u ∧ Leaves t [.str, .sec, .ev] (blockRegsSet 0x0F ∪ blockRegsSet 0x1B) s u ∧
      u.chip.on F.STR_STAT_CHECKING = false ∧ u.chip.on F.STR_RESULT_DONE = true ∧
      (r.1 = 0 → u.chip.get F.STR_RESULT_REASON = 0 ∧ u.chip.on F.STR_STAT_PEND_VALID = true ∧ u.chip.get F.STR_PEND_SEQ_SEQ = hdrSeq l % 2 ^ 32 ∧
        u.chip.str = { s.chip.str with pend := imageSections l, pendHead := l.take 64 }) ∧
      (r.1 ≠ 0 → u.chip.get F.STR_RESULT_REASON = r.1 % 2 ^ (F.STR_RESULT_REASON.hi + 1 - F.STR_RESULT_REASON.lo) ∧
        u.chip.get F.STR_RESULT_SECTION = r.2 % 2 ^ (F.STR_RESULT_SECTION.hi + 1 - F.STR_RESULT_SECTION.lo) ∧ u.chip.str = s.chip.str ∧
        u.chip.on F.STR_STAT_PEND_VALID = s.chip.on F.STR_STAT_PEND_VALID ∧ ((s.chip.at t).readFuses s.store).Raised u.chip [(0x0F02, [(1, r.1), (1, r.2)])])) ∧
  (∀ (t : Nat) (s : State), s.chip.up 1 = true → s.chip.on F.STR_STAT_CHECKING = true → s.chip.str.copyFail = true → s.chip.fw.tcWait = [] →
    ∃ u, exec (.imageCheckDone t []) s = .next u ∧ Leaves t [.sec, .ev] (blockRegsSet 0x0F ∪ blockRegsSet 0x1B) s u ∧
      u.chip.on F.STR_STAT_CHECKING = false ∧ u.chip.on F.STR_RESULT_DONE = true ∧ u.chip.get F.STR_RESULT_REASON = 0x14)

/-- Switching the structure image (R405 to R408, R411, R415). An approval without a valid pending image, or during a switch, is refused with its
reason; an accepted one enters prepare and asks every block. Cancelling in prepare ends the switch; elsewhere it is ignored and counted. The
last READY commits. At E(n) the last part applies: the slots flip, the sequence number is the new image's and STR_APPLIED shows the line.
Reading a low word captures the high one. The model's own choices in this: entries 17, 80, 81 of the log. -/
def Obligations.ImageSwitches : Prop :=
  (∀ (t r : Nat) (w : Word) (s : State), s.chip.mayWrite .tc R.STR_APPROVE.addr → s.chip.fw.calCmd = none → s.chip.calBusy = false →
    r = 0x40 ∧ s.chip.on F.STR_STAT_PEND_VALID = false ∨ r = 0x41 ∧ s.chip.on F.STR_STAT_PEND_VALID = true ∧ s.chip.switchState ≠ 0 →
    ∃ u, exec (.strApprove t .tc w) s = .next u ∧ WriteLeaves t .tc R.STR_APPROVE.addr [.ev] {F.STR_RESULT_REASON.addr} s u ∧
      u.chip.get F.STR_RESULT_REASON = r ∧ u.chip.get F.STR_RESULT_SECTION = 0 ∧ (s.chip.at t).Raised u.chip [(0x0F04, [(1, r)])]) ∧
  (∀ (t : Nat) (w : Word) (s : State), s.chip.mayWrite .tc R.STR_APPROVE.addr → s.chip.fw.calCmd = none → s.chip.calBusy = false →
    s.chip.on F.STR_STAT_PEND_VALID = true → s.chip.switchState = 0 → s.chip.on F.TRK_STAT_RUN = false → (∀ k : Fin 8, s.chip.portState k = 0) →
    s.chip.on F.FLW_SHSTAT_PENDING = false →
    ∃ u, exec (.strApprove t .tc w) s = .next u ∧ WriteLeaves t .tc R.STR_APPROVE.addr [.str, .tko, .ev] {F.STR_STAT_SW_STATE.addr, F.STR_COLD_PORTS.addr} s u ∧
      u.chip.switchState = 1 ∧ u.chip.get F.STR_COLD_PORTS = s.chip.coldPorts ∧
      u.chip.str = { s.chip.str with
        cold := s.chip.coldPorts, pendSet := some (sectionSet s.chip.str.pend), loadFail := none, eLine := none, wantReady := readyBlocks } ∧
      (s.chip.at t).Raised u.chip [(0x0F03, [(6, unsigned 48 s.chip.namedLine), (1, s.chip.coldPorts)])]) ∧
  (∀ (t : Nat) (w : Word) (s : State), s.chip.mayWrite .tc R.STR_APPROVE.addr → s.chip.fw.calCmd = none → s.chip.calBusy = false →
    s.chip.switchState = 1 → (∀ k : Fin 8, (s.chip.port k).coldHold = false) →
    ∃ u, exec (.strCancel t .tc w) s = .next u ∧ WriteLeaves t .tc R.STR_APPROVE.addr [.str, .tko, .ev, .hp] {F.STR_STAT_SW_STATE.addr, F.STR_RESULT_REASON.addr} s u ∧
      u.chip.switchState = 0 ∧ u.chip.get F.STR_RESULT_REASON = 0x4A ∧ u.chip.on F.STR_STAT_PEND_VALID = s.chip.on F.STR_STAT_PEND_VALID ∧
      u.chip.str = { s.chip.str with wantReady := [], wantApply := [], pendSet := none, loadFail := none, eLine := none, cold := 0 } ∧
      (s.chip.at t).Raised u.chip [(0x0F06, [(1, 0x4A), (1, 0xFF)])]) ∧
  (∀ (t : Nat) (w : Word) (s : State), s.chip.mayWrite .tc R.STR_APPROVE.addr → s.chip.fw.calCmd = none → s.chip.calBusy = false → s.chip.switchState ≠ 1 →
    ∃ u, exec (.strCancel t .tc w) s = .next u ∧ WriteLeaves t .tc R.STR_APPROVE.addr [] {F.STR_REJ_CNT_COUNT.addr} s u ∧
      u.chip.get F.STR_REJ_CNT_COUNT = satNat (F.STR_REJ_CNT_COUNT.hi + 1 - F.STR_REJ_CNT_COUNT.lo) (s.chip.get F.STR_REJ_CNT_COUNT + 1)) ∧
  (∀ (t b : Nat) (s : State), s.chip.up 1 = true → s.chip.switchState = 1 → s.chip.str.wantReady = [b] → s.chip.mayAnswer b = true → s.chip.str.loadFail = none →
    s.chip.trkOn = true → s.chip.trk.issued = true →
    ∃ u, exec (.blockReady t b) s = .next u ∧ Leaves t [.str, .ev] {F.STR_STAT_SW_STATE.addr} s u ∧ u.chip.switchState = 2 ∧
      u.chip.str = { s.chip.str with wantReady := [], wantApply := allParts, immediate := false } ∧ (s.chip.at t).Raised u.chip [(0x0F05, [])]) ∧
  (∀ (t b : Nat) (s : State), s.chip.up 1 = false ∨ s.chip.switchState ≠ 1 → exec (.blockReady t b) s = .next { s with chip := s.chip.at t }) ∧
  (∀ (t e n : Nat) (s : State), s.chip.up 1 = true → s.chip.switchState = 2 → s.chip.str.wantApply = [1] → s.chip.str.eLine = some e →
    (e : Rat) / (256 : Nat) ≤ (s.chip.at t).nowQ → (∀ k : Fin 8, (s.chip.port k).coldHold = false) →
    n = (if s.chip.str.immediate then 0 else unsigned 48 s.chip.namedLine) →
    ∃ u, exec (.applicationPoint t) s = .next u ∧
      Leaves t [.str, .tko, .ev, .ldl, .flw] (blockRegsSet 0x0F ∪ blockRegsSet 0x08 ∪ blockRegsSet 0x1F ∪ blockRegsSet 0x0D ∪ {F.FAB_NODE_NODE_ID.addr} ∪ {a | 0x10100000 ≤ a ∧ a < 0x10180000}) s u ∧
      u.chip.switchState = 0 ∧ u.chip.get F.STR_STAT_ACTIVE_SLOT = 1 - s.chip.get F.STR_STAT_ACTIVE_SLOT ∧ u.chip.on F.STR_STAT_ACTIVE_VALID = true ∧
      u.chip.on F.STR_STAT_PEND_VALID = false ∧ u.chip.get F.STR_ACT_SEQ_SEQ = hdrSeq s.chip.str.pendHead % 2 ^ 32 ∧
      u.chip.get F.STR_APPLIED_LO_LINE_LO = n % 2 ^ 32 ∧ u.chip.get F.STR_APPLIED_HI_LINE_HI = n / 2 ^ 32 ∧
      u.chip.str.act = s.chip.str.pend ∧ u.chip.str.pend = [] ∧ u.chip.str.wantApply = []) ∧
  (∀ (t : Nat) (s : State), s.chip.up 1 = false ∨ s.chip.str.eLine = none → exec (.applicationPoint t) s = .next { s with chip := s.chip.at t }) ∧
  (∀ (t : Nat) (i : Initiator) (s : State), s.chip.mayRead i R.STR_APPLIED_LO.addr →
    ∃ u, exec (.strAppliedLoRead t i) s = .next u ∧ ReadLeaves t (s.chip.word R.STR_APPLIED_LO.addr).toNat [.latch] ∅ s u ∧
      u.chip.captured R.STR_APPLIED_HI.addr = (s.chip.word R.STR_APPLIED_HI.addr).toNat) ∧
  (∀ (t : Nat) (i : Initiator) (s : State), s.chip.mayRead i R.STR_CMPLINE_LO.addr →
    ∃ u, exec (.strCmplineLoRead t i) s = .next u ∧ ReadLeaves t (s.chip.word R.STR_CMPLINE_LO.addr).toNat [.latch] ∅ s u ∧
      u.chip.captured R.STR_CMPLINE_HI.addr = (s.chip.word R.STR_CMPLINE_HI.addr).toNat)

/-- Fabric links (R417 to R422, R434, R440 to R442, R456 to R458, R463, R561). A port whose conditions hold trains; a LINK_ID that fits brings
it UP, one that does not holds it in MISWIRE. A lost lane leaves the other in use and is retried; loss of blocks, RETRAIN and DOWN take the
port DOWN. A link acknowledgment frees frames, a NAK replays them, credits come back. A peer's request for a low-power state is noted and
acknowledged. Beacons are heard while enabled, and leave every 100 us for 10 ms. The model's own choices in this: entries 5, 98, 100 of the
log. -/
def Obligations.FabricLinks : Prop :=
  (∀ (t : Nat) (p : Fin 3) (s : State), s.chip.up 3 = true → s.chip.fabState p = 0 ∨ s.chip.fabState p = 6 ∨ s.chip.fabState p = 7 →
    s.chip.on F.STR_STAT_ACTIVE_VALID = true → bitAt (s.chip.get F.FAB_NODE_PORT_EN) p = true → s.chip.on F.FAB_CTRL_EN = true → (s.chip.fport p).retrain = false →
    ∃ u, exec (.fabPortTrain t p) s = .next u ∧ Leaves t [.fab, .ev, .sent] (blockRegsSet 0x18 ∪ {F.TKO_STAT_ISOLATED.addr}) s u ∧
      u.chip.fabState p = 1 ∧ (∀ q : Fin 3, q ≠ p → u.chip.fabState q = s.chip.fabState q) ∧
      u.chip.fport p = { s.chip.fport p with txSeq := 0, rxSeq := 0, used := Vector.replicate 5 0, back := Vector.replicate 5 0, turn := 0 } ∧
      u.chip.sent = s.chip.sent ++ [⟨"linkId", [p.val, s.chip.nodeId, p.val + 1, s.chip.get F.SYS_ID_CL, s.chip.get F.STR_ACT_PRESS_LO_ID_LO]⟩]) ∧
  (∀ (t : Nat) (p : Fin 3) (s : State), s.chip.up 3 = false ∨ s.chip.mayTrain p = false → exec (.fabPortTrain t p) s = .next { s with chip := s.chip.at t }) ∧
  (∀ (t : Nat) (p : Fin 3) (lanes node port cl press : Nat) (s : State), s.chip.up 3 = true → s.chip.fabState p = 1 ∨ s.chip.fabState p = 2 ∨ s.chip.fabState p = 5 →
    lanes < 4 → node < 1024 → s.chip.miswired p node port cl press = false → s.chip.ldl.grants = [] →
    ∃ u, exec (.linkIdRx t p lanes node port cl press) s = .next u ∧ Leaves t [.fab, .ev, .ldl] (blockRegsSet 0x18 ∪ {F.TKO_STAT_ISOLATED.addr}) s u ∧
      u.chip.fabState p = 3 ∧ u.chip.get F.FAB_P_STAT_PEER p = node ∧ u.chip.get F.FAB_P_STAT_LANES p = lanes ∧ (u.chip.fport p).retrain = true ∧
      (lanes = 3 → (u.chip.fport p).laneRetry = none)) ∧
  (∀ (t : Nat) (p : Fin 3) (lanes node port cl press : Nat) (s : State), s.chip.up 3 = true → s.chip.fabState p = 1 ∨ s.chip.fabState p = 2 ∨ s.chip.fabState p = 5 →
    lanes < 4 → node < 1024 → node = s.chip.nodeId ∨ cl ≠ s.chip.get F.SYS_ID_CL ∨ press ≠ s.chip.get F.STR_ACT_PRESS_LO_ID_LO → s.chip.ldl.grants = [] →
    ∃ u, exec (.linkIdRx t p lanes node port cl press) s = .next u ∧ Leaves t [.fab, .ev, .ldl] (blockRegsSet 0x18 ∪ {F.TKO_STAT_ISOLATED.addr}) s u ∧
      u.chip.fabState p = 5 ∧ u.chip.on F.FAB_STAT_MISWIRE = true ∧ u.chip.fport p = s.chip.fport p) ∧
  (∀ (t : Nat) (p : Fin 3) (lane : Fin 2) (s : State), s.chip.up 3 = true → s.chip.fabState p = 3 → s.chip.get F.FAB_P_STAT_LANES p = 3 →
    ∃ u, exec (.fabLaneLost t p lane) s = .next u ∧ Leaves t [.fab, .ev, .sent] {F.FAB_P_STAT_LANES.at p 0} s u ∧
      u.chip.get F.FAB_P_STAT_LANES p = 3 - 2 ^ lane.val ∧ u.chip.fabState p = 3 ∧ u.chip.fport p = { s.chip.fport p with laneRetry := some (max s.chip.now t + ms 100) } ∧
      u.chip.sent = s.chip.sent ++ [⟨"fabAlign", [p.val, 3 - 2 ^ lane.val, 1]⟩] ∧ (s.chip.at t).Raised u.chip [(0x1803, [])]) ∧
  (∀ (t d : Nat) (p : Fin 3) (s : State), s.chip.up 3 = true → s.chip.fabState p = 3 → (s.chip.fport p).laneRetry = some d → s.chip.ldl.grants = [⟨1, p.val, 0, 0⟩] →
    s.chip.ldl.asks = [] →
    ∃ u, exec (.fabLaneRetry t p true) s = .next u ∧ Leaves t [.fab, .ldl, .sent] ({F.FAB_P_STAT_LANES.at p 0} ∪ blockRegsSet 0x08) s u ∧
      u.chip.get F.FAB_P_STAT_LANES p = 3 ∧ (u.chip.fport p).laneRetry = none ∧ u.chip.ldl.grants = [] ∧
      u.chip.sent = s.chip.sent ++ [⟨"fabAlign", [p.val, 3, 0]⟩]) ∧
  (∀ (t d : Nat) (p : Fin 3) (locks : Bool) (s : State), s.chip.up 3 = true → s.chip.fabState p = 3 → (s.chip.fport p).laneRetry = some d → d ≤ max s.chip.now t →
    s.chip.ldl.grants = [] → s.chip.ldl.asks = [] →
    ∃ u, exec (.fabLaneRetry t p locks) s = .next u ∧ Leaves t [.fab, .ldl] ∅ s u ∧ u.chip.fport p = { s.chip.fport p with laneRetry := some (max s.chip.now t + ms 100) } ∧
      u.chip.ldl = { s.chip.ldl with asks := [⟨1, p.val, 0, s.chip.get F.FAB_LP_RETRAIN_AMT, none⟩] }) ∧
  (∀ (t : Nat) (p : Fin 3) (s : State), s.chip.up 3 = true → s.chip.fabState p = 3 → (s.chip.fport p).unacked = [] → (s.chip.fport p).out = [] → s.chip.ldl.grants = [] →
    ∃ u, exec (.fabPortDown t p) s = .next u ∧ Leaves t [.fab, .ev, .ldl] (blockRegsSet 0x18 ∪ {F.TKO_STAT_ISOLATED.addr}) s u ∧
      u.chip.fabState p = 0 ∧ u.chip.get F.FAB_P_STAT_LANES p = 0 ∧ u.chip.fport p = { s.chip.fport p with retrain := true, laneRetry := none }) ∧
  (∀ (t : Nat) (i : Initiator) (p : Fin 3) (w : Word) (s : State), s.chip.mayWrite i (R.FAB_P_CTRL.at p 0) → fld F.FAB_P_CTRL_RETRAIN w.toNat = 0 → s.chip.fabState p = 3 →
    (s.chip.fport p).unacked = [] → (s.chip.fport p).out = [] → s.chip.ldl.grants = [] →
    ∃ u, exec (.fabPortDownWrite t i p w) s = .next u ∧ WriteLeaves t i (R.FAB_P_CTRL.at p 0) [.fab, .ev, .ldl] (blockRegsSet 0x18 ∪ {F.TKO_STAT_ISOLATED.addr}) s u ∧
      u.chip.fabState p = 0 ∧ u.chip.get F.FAB_P_STAT_LANES p = 0 ∧ (u.chip.fport p).retrain = true) ∧
  (∀ (t : Nat) (i : Initiator) (p : Fin 3) (w : Word) (s : State), s.chip.mayWrite i (R.FAB_P_CTRL.at p 0) → fld F.FAB_P_CTRL_DOWN w.toNat = 0 → s.chip.fabState p = 3 →
    (s.chip.fport p).unacked = [] → (s.chip.fport p).out = [] → s.chip.ldl.grants = [] → s.chip.ldl.asks = [] → s.chip.mayTrain p = true →
    ∃ u, exec (.fabPortRetrain t i p w) s = .next u ∧ WriteLeaves t i (R.FAB_P_CTRL.at p 0) [.fab, .ev, .ldl] (blockRegsSet 0x18 ∪ {F.TKO_STAT_ISOLATED.addr}) s u ∧
      u.chip.fabState p = 0 ∧ u.chip.get F.FAB_P_STAT_LANES p = 0 ∧ u.chip.ldl = { s.chip.ldl with asks := [⟨1, p.val, 0, s.chip.get F.FAB_LP_RETRAIN_AMT, none⟩] }) ∧
  (∀ (t lseq : Nat) (p : Fin 3) (s : State), s.chip.up 3 = true →
    ∃ u, exec (.fabAckRx t p lseq false) s = .next u ∧ Leaves t [.fab] ∅ s u ∧
      u.chip.fport p = { s.chip.fport p with unacked := (s.chip.fport p).unacked.dropWhile (fun x => decide ((lseq + 256 - x.1) % 256 < 128)) } ∧
      (∀ q : Fin 3, q ≠ p → u.chip.fport q = s.chip.fport q)) ∧
  (∀ (t lseq n : Nat) (p : Fin 3) (f : FabFrame) (s : State), s.chip.up 3 = true → (s.chip.fport p).unacked = [(n, f)] → 128 ≤ (lseq + 256 - n) % 256 →
    ∃ u, exec (.fabAckRx t p lseq true) s = .next u ∧ Leaves t [.fab, .sent] {F.FAB_P_ERR_REPLAY.at p 0} s u ∧ u.chip.fab = s.chip.fab ∧
      u.chip.get F.FAB_P_ERR_REPLAY p = satNat (F.FAB_P_ERR_REPLAY.hi + 1 - F.FAB_P_ERR_REPLAY.lo) (s.chip.get F.FAB_P_ERR_REPLAY p + 1) ∧
      u.chip.sent = s.chip.sent ++ [⟨"frame", [p.val, n] ++ f.words⟩]) ∧
  (∀ (t : Nat) (p : Fin 3) (amounts : List Nat) (s : State), s.chip.up 3 = true → (s.chip.fport p).out = [] →
    ∃ u, exec (.fabCreditRx t p amounts) s = .next u ∧ Leaves t [.fab] ∅ s u ∧
      u.chip.fport p = { s.chip.fport p with back := Vector.ofFn (fun (i : Fin 5) => (s.chip.fport p).back[i] + amounts.getD i 0) }) ∧
  (∀ (t : Nat) (p : Fin 3) (s : State), s.chip.up 3 = true → s.chip.fabState p = 3 → s.chip.pwrState ≠ 2 →
    ∃ u, exec (.lpRx t p 1 false) s = .next u ∧ Leaves t [.fab, .ev, .sent] (blockRegsSet 0x18 ∪ {F.TKO_STAT_ISOLATED.addr}) s u ∧
      u.chip.fabState p = 4 ∧ u.chip.get F.FAB_P_STAT_LANES p = 1 ∧ (u.chip.fport p).peerAsks = 1 ∧ u.chip.sent = s.chip.sent ++ [⟨"lp", [p.val, 1, 1]⟩]) ∧
  (∀ (t : Nat) (p : Fin 3) (req : Nat) (ack : Bool) (s : State), s.chip.up 3 = false ∨ s.chip.carriesFrames p = false →
    exec (.lpRx t p req ack) s = .next { s with chip := s.chip.at t }) ∧
  (∀ (t : Nat) (p : Fin 3) (s : State), s.chip.on F.FAB_LP_BEACON_EN = true → bitAt (s.chip.get F.FAB_NODE_PORT_EN) p = true → s.chip.pwr.off = true ∨ s.chip.thm.tripped = true →
    ∃ u, exec (.beaconRx t p) s = .next u ∧ Leaves t [.ev] {F.FAB_WAKE_SRC_PORT.addr} s u ∧
      bitAt (u.chip.get F.FAB_WAKE_SRC_PORT) p = true ∧ (s.chip.at t).Raised u.chip [(0x1810, [(1, p.val)])]) ∧
  (∀ (t : Nat) (p : Fin 3) (s : State), s.chip.on F.FAB_LP_BEACON_EN = false ∨ bitAt (s.chip.get F.FAB_NODE_PORT_EN) p = false →
    exec (.beaconRx t p) s = .next { s with chip := s.chip.at t }) ∧
  (∀ (t d : Nat) (p : Fin 3) (s : State), s.chip.up 3 = true → (s.chip.fport p).beaconNext = some d → d ≤ max s.chip.now t →
    max s.chip.now t ≤ (s.chip.fport p).beaconEnd → s.chip.carriesFrames p = false →
    ∃ u, exec (.beaconSend t p) s = .next u ∧ Leaves t [.fab, .sent] ∅ s u ∧ u.chip.fport p = { s.chip.fport p with beaconNext := some (max s.chip.now t + us 100) } ∧
      u.chip.sent = s.chip.sent ++ [⟨"beacon", [p.val]⟩]) ∧
  (∀ (t : Nat) (i : Initiator) (w : Word) (s : State), s.chip.mayWrite i R.FAB_LP.addr → s.chip.switchState = 0 → s.chip.calBusy = false →
    ∃ u, exec (.beaconTxWrite t i w) s = .next u ∧ WriteLeaves t i R.FAB_LP.addr [.fab] {R.FAB_LP.addr, F.FAB_REJ_CNT_COUNT.addr} s u ∧
      (∀ p : Fin 3, u.chip.fport p = if bitAt (fld F.FAB_LP_BEACON_TX w.toNat) p
        then { s.chip.fport p with beaconNext := some (max s.chip.now t), beaconEnd := max s.chip.now t + ms 10 } else s.chip.fport p))

/-- Frames, flows and the send queue (R422 to R425, R429, R432, R434, R438, R450, R452 to R454). A frame in sequence is acknowledged and goes
where it is addressed; a damaged one is counted and answered by NAK, an unsound one is dropped and counted. The words of a mailbox message
cross to JOB. Item fragments and bulk data in sequence are taken, acknowledged, and written; an item out of sequence is answered by the last
number taken. A bad send descriptor ends with code 1; a management message leaves and ends with code 0. The last acknowledgment ends a data
descriptor; after TRIES resends without one it ends with code 3. The model's own choices in this: entries 26, 96, 97 of the log. -/
def Obligations.FabricFrames : Prop :=
  (∀ (t lseq : Nat) (p : Fin 3) (f : FabFrame) (s : State), s.chip.up 3 = true → p ≠ 2 → s.chip.fabState p = 3 → lseq = (s.chip.fport p).rxSeq → frameSound f = true → f.scope = 0 →
    f.dest = s.chip.nodeId → f.kind < 0x10 →
    ∃ u, exec (.fabFrameForward t p.val lseq true f) s = .next u ∧ Leaves t [.fab, .sent] ∅ s u ∧
      u.chip.fport p = { s.chip.fport p with rxSeq := (lseq + 1) % 256 } ∧
      u.chip.sent = s.chip.sent ++ [⟨"linkAck", [p.val, lseq, 0]⟩, ⟨"deliver", p.val :: FabFrame.words { f with hops := f.hops + 1 }⟩]) ∧
  (∀ (t lseq : Nat) (p : Fin 3) (f : FabFrame) (s : State), s.chip.up 3 = true → s.chip.fabState p = 3 → f.kind < 0x10 →
    ∃ u, exec (.fabFrameForward t p.val lseq false f) s = .next u ∧ Leaves t [.sent] {F.FAB_P_ERR_CRC.at p 0} s u ∧
      u.chip.get F.FAB_P_ERR_CRC p = satNat (F.FAB_P_ERR_CRC.hi + 1 - F.FAB_P_ERR_CRC.lo) (s.chip.get F.FAB_P_ERR_CRC p + 1) ∧
      u.chip.sent = s.chip.sent ++ [⟨"linkAck", [p.val, ((s.chip.fport p).rxSeq + 255) % 256, 1]⟩]) ∧
  (∀ (t lseq : Nat) (f : FabFrame) (s : State), s.chip.up 3 = true → frameSound f = false → f.kind < 0x10 →
    ∃ u, exec (.fabFrameForward t 3 lseq true f) s = .next u ∧ Leaves t [] {F.FAB_HOP_DROP_COUNT.addr} s u ∧
      u.chip.get F.FAB_HOP_DROP_COUNT = satNat (F.FAB_HOP_DROP_COUNT.hi + 1 - F.FAB_HOP_DROP_COUNT.lo) (s.chip.get F.FAB_HOP_DROP_COUNT + 1)) ∧
  (∀ (t lseq : Nat) (p : Fin 3) (f g : FabFrame) (s : State), s.chip.up 3 = true → frameSound f = true → f.scope = 0 → f.kind < 0x10 → f.dest ≠ s.chip.nodeId → f.hops < 255 →
    s.chip.routeOf 3 f = some (p, g) → g.kind = f.kind → s.chip.carriesFrames p = true → (s.chip.fport p).out = [] →
    s.chip.hasCredit p (s.chip.classOut p g) = true →
    ∃ u, exec (.fabFrameForward t 3 lseq true f) s = .next u ∧ Leaves t [.fab, .sent] ∅ s u ∧
      (u.chip.fport p).txSeq = ((s.chip.fport p).txSeq + 1) % 256 ∧ (u.chip.fport p).out = [] ∧
      (u.chip.fport p).unacked = (s.chip.fport p).unacked ++ [((s.chip.fport p).txSeq, { g with cls := s.chip.classOut p g })] ∧
      u.chip.sent = s.chip.sent ++ [⟨"frame", [p.val, (s.chip.fport p).txSeq] ++ FabFrame.words { g with cls := s.chip.classOut p g }⟩]) ∧
  (∀ (t : Nat) (words : List Nat) (s : State), s.chip.up 3 = true → s.chip.up 2 = false → s.chip.pwrState ≠ 1 →
    ∃ u, exec (.fabMbxRx t words) s = .next u ∧ Leaves t [.pwr] {F.SYS_SUMP_DROP_COUNT.addr} s u ∧
      u.chip.get F.SYS_SUMP_DROP_COUNT = (s.chip.get F.SYS_SUMP_DROP_COUNT + words.length) % 2 ^ 32) ∧
  (∀ (t w : Nat) (s : State), s.chip.up 3 = true → s.chip.up 2 = true → s.chip.pwrState ≠ 1 → (s.chip.crossing .management 3 2).words.length < depthOf .management 3 2 →
    (s.chip.crossing .management 3 2).waiting = [] →
    ∃ u, exec (.fabMbxRx t [w]) s = .next u ∧ Leaves t [.sys, .pwr] ∅ s u ∧
      u.chip.crossing .management 3 2 = { s.chip.crossing .management 3 2 with words := (s.chip.crossing .management 3 2).words ++ [(w, false)] }) ∧
  (∀ (t src seq addr : Nat) (body : List Nat) (s : State), s.chip.up 3 = true → s.chip.pwrState ≠ 1 → src ≠ s.chip.nodeId → seq < 65536 →
    (s.chip.get F.FAB_INBOX_WR_WR + 512 - s.chip.get F.FAB_INBOX_RD_RD) % 512 ≠ 256 → s.chip.ddrReady = true → (∀ w : Fin 8, s.chip.on F.DDR_WIN_PERM_EN w = false) →
    addr = s.chip.get F.FAB_INBOX_BASE_HI_ADDR * 2 ^ 32 + s.chip.get F.FAB_INBOX_BASE_LO_ADDR * 4096 + 4160 * (s.chip.get F.FAB_INBOX_WR_WR % 256) →
    s.chip.inDdr addr (64 + body.length) = true → s.chip.fab.items = [] → (∀ p : Fin 3, s.chip.carriesFrames p = false) → (∀ b ∈ body, b < 256) →
    ∃ u, exec (.itemFragmentRx t src seq true 0 true body []) s = .next u ∧ LeavesChip t [.fab, .pwr, .mem, .ev] (blockRegsSet 0x18 ∪ blockRegsSet 0x1E) s u ∧
      u.chip.get F.FAB_INBOX_WR_WR = (s.chip.get F.FAB_INBOX_WR_WR + 1) % 512 ∧ u.store = { s.store with mem := u.store.mem } ∧
      u.store.read (addr + 64) body.length = body.map (BitVec.ofNat 8) ∧ u.store.read addr 2 = leBytes 2 src ∧ u.store.read (addr + 2) 2 = leBytes 2 body.length ∧
      u.chip.lastSeq src = seq) ∧
  (∀ (t src seq : Nat) (body : List Nat) (idx : Nat) (last : Bool) (s : State), s.chip.up 3 = true → s.chip.pwrState ≠ 1 → src ≠ s.chip.nodeId → 0 < idx →
    s.chip.fab.rxFlows = [] → (∀ p : Fin 3, s.chip.carriesFrames p = false) →
    ∃ u, exec (.itemFragmentRx t src seq false idx last body []) s = .next u ∧ Leaves t [.pwr] {F.FAB_HOP_DROP_COUNT.addr} s u) ∧
  (∀ (t src xfer aux base : Nat) (data : List Nat) (s : State), s.chip.up 3 = true → s.chip.pwrState ≠ 1 → s.chip.fab.bulks = [] →
    base = s.chip.get F.FAB_BULK_BASE_HI_ADDR * 2 ^ 32 + s.chip.get F.FAB_BULK_BASE_LO_ADDR * 4096 → aux + data.length ≤ s.chip.get F.FAB_BULK_SIZE_SIZE * 2 ^ 20 →
    s.chip.ddrReady = true → (∀ w : Fin 8, s.chip.on F.DDR_WIN_PERM_EN w = false) → s.chip.inDdr (base + aux) data.length = true →
    ∃ u, exec (.bulkFrameRx t false src 0 false aux xfer false 0 0 data []) s = .next u ∧ LeavesChip t [.fab, .pwr, .mem, .ev] (blockRegsSet 0x1E) s u ∧
      u.chip.fab = { s.chip.fab with bulks := [(src, xfer, data.length, false)] } ∧ u.store = { s.store with mem := u.store.mem } ∧
      u.store.read (base + aux) data.length = data.map (BitVec.ofNat 8)) ∧
  (∀ (t slot : Nat) (l : List Nat) (s : State), s.chip.up 3 = true → s.chip.fab.tx = none → s.chip.get F.FAB_TXQ_RD_RD ≠ s.chip.get F.FAB_TXQ_WR_WR → s.chip.ddrReady = true →
    (∀ w : Fin 8, s.chip.on F.DDR_WIN_PERM_EN w = false) → s.chip.fw.sends = [] →
    slot = s.chip.get F.FAB_TXQ_BASE_HI_ADDR * 2 ^ 32 + s.chip.get F.FAB_TXQ_BASE_LO_ADDR * 4096 + 32 * (s.chip.get F.FAB_TXQ_RD_RD % 256) → s.chip.inDdr slot 32 = true →
    l = (s.store.read slot 32).map BitVec.toNat → sendBad (parseSend l) l = true →
    ∃ u, exec (.fabTxqDescriptor t []) s = .next u ∧ LeavesChip t [.fab, .mem, .ev] (blockRegsSet 0x18 ∪ blockRegsSet 0x1E) s u ∧
      u.chip.get F.FAB_TXQ_RD_RD = (s.chip.get F.FAB_TXQ_RD_RD + 1) % 512 ∧ u.store.read (slot + 28) 4 = leBytes 4 (2 ^ 31 + 1) ∧
      u.store.read slot 28 = s.store.read slot 28 ∧ u.store = { s.store with mem := u.store.mem }) ∧
  (∀ (t slot : Nat) (l : List Nat) (s : State), s.chip.up 3 = true → s.chip.fab.tx = none → s.chip.get F.FAB_TXQ_RD_RD ≠ s.chip.get F.FAB_TXQ_WR_WR → s.chip.ddrReady = true →
    (∀ w : Fin 8, s.chip.on F.DDR_WIN_PERM_EN w = false) → s.chip.fw.sends = [] →
    slot = s.chip.get F.FAB_TXQ_BASE_HI_ADDR * 2 ^ 32 + s.chip.get F.FAB_TXQ_BASE_LO_ADDR * 4096 + 32 * (s.chip.get F.FAB_TXQ_RD_RD % 256) → s.chip.inDdr slot 32 = true →
    l = (s.store.read slot 32).map BitVec.toNat → sendBad (parseSend l) l = false → (parseSend l).kind = 0x20 → (parseSend l).dest = s.chip.nodeId →
    (parseSend l).addr < 2 ^ 36 →
    ∃ u, exec (.fabTxqDescriptor t []) s = .next u ∧ LeavesChip t [.fab, .mem, .ev, .sent] (blockRegsSet 0x18 ∪ blockRegsSet 0x1E) s u ∧
      u.chip.get F.FAB_TXQ_RD_RD = (s.chip.get F.FAB_TXQ_RD_RD + 1) % 512 ∧ u.store.read (slot + 28) 4 = leBytes 4 (2 ^ 31) ∧
      u.chip.sent.length = s.chip.sent.length + 1 ∧ u.store = { s.store with mem := u.store.mem }) ∧
  (∀ (t : Nat) (s : State), s.chip.up 3 = true → s.chip.fw.sends = [] → s.chip.get F.FAB_TXQ_RD_RD = s.chip.get F.FAB_TXQ_WR_WR →
    exec (.fabTxqDescriptor t []) s = .next { s with chip := s.chip.at t }) ∧
  (∀ (t seq slot : Nat) (x : TxDesc) (f : FabFrame) (s : State), s.chip.up 3 = true → s.chip.fab.tx = some x → x.frames = [f] → f.seq = seq → seq < 65536 → s.chip.fw.sends = [] →
    s.chip.ddrReady = true → (∀ w : Fin 8, s.chip.on F.DDR_WIN_PERM_EN w = false) →
    slot = s.chip.get F.FAB_TXQ_BASE_HI_ADDR * 2 ^ 32 + s.chip.get F.FAB_TXQ_BASE_LO_ADDR * 4096 + 32 * x.slot → s.chip.inDdr slot 32 = true →
    ∃ u, exec (.e2eAckRx t x.dest seq false []) s = .next u ∧ LeavesChip t [.fab, .mem, .ev] (blockRegsSet 0x18 ∪ blockRegsSet 0x1E) s u ∧
      u.chip.fab.tx = none ∧ u.chip.get F.FAB_TXQ_RD_RD = (s.chip.get F.FAB_TXQ_RD_RD + 1) % 512 ∧ u.store.read (slot + 28) 4 = leBytes 4 (2 ^ 31)) ∧
  (∀ (t seq : Nat) (x : TxDesc) (f g : FabFrame) (s : State), s.chip.up 3 = true → s.chip.fab.tx = some x → x.frames = [f, g] → f.seq = seq → g.seq = (seq + 1) % 65536 → seq < 65536 → s.chip.fw.sends = [] →
    ∃ u, exec (.e2eAckRx t x.dest seq false []) s = .next u ∧ Leaves t [.fab] ∅ s u ∧
      u.chip.fab = { s.chip.fab with tx := some { x with frames := [g], tries := 0, sentAt := max s.chip.now t } }) ∧
  (∀ (t slot : Nat) (x : TxDesc) (s : State), s.chip.up 3 = true → s.chip.fab.tx = some x → x.sentAt + us (10 * s.chip.get F.FAB_XCFG_E2E_TO) ≤ max s.chip.now t →
    s.chip.get F.FAB_XCFG_TRIES ≤ x.tries → s.chip.fw.sends = [] → s.chip.ddrReady = true → (∀ w : Fin 8, s.chip.on F.DDR_WIN_PERM_EN w = false) →
    slot = s.chip.get F.FAB_TXQ_BASE_HI_ADDR * 2 ^ 32 + s.chip.get F.FAB_TXQ_BASE_LO_ADDR * 4096 + 32 * x.slot → s.chip.inDdr slot 32 = true →
    ∃ u, exec (.e2eTimeout t []) s = .next u ∧ LeavesChip t [.fab, .mem, .ev] (blockRegsSet 0x18 ∪ blockRegsSet 0x1E) s u ∧
      u.chip.fab = { s.chip.fab with tx := none, flowStart := x.dest :: s.chip.fab.flowStart } ∧ u.chip.on F.FAB_STAT_E2E_FAIL = true ∧
      u.store.read (slot + 28) 4 = leBytes 4 (2 ^ 31 + 3)) ∧
  (∀ (t : Nat) (x : TxDesc) (s : State), s.chip.up 3 = true → s.chip.fab.tx = some x → max s.chip.now t < x.sentAt + us (10 * s.chip.get F.FAB_XCFG_E2E_TO) → s.chip.fw.sends = [] →
    exec (.e2eTimeout t []) s = .next { s with chip := s.chip.at t })

/-- Event sources (R639, R640, R642, R645, R647, R662). A signal raises its home source, its extra sources and the watches that match; one that
finds TRUST down is lost. A claim answers the source of the highest priority, among equals the lowest number, and clears it; with none
claimable it answers 0x100. A test raises its source. A firmware event below 0x80 is submitted by TC alone. The model's own choices in this:
entries 16, 25 of the log. -/
def Obligations.EventSources : Prop :=
  (∀ (t code first : Nat) (r : List Signal) (l : List Nat) (s : State), s.chip.up 1 = true → s.chip.ev.sig = .event code first :: r → 
    l = homeSource code first :: (extraSources code ++ s.chip.watches code) →
    ∃ u, exec (.eventSourceRaise t) s = .next u ∧ Leaves t [.ev] {a | ∃ w : Fin 8, a = F.EVC_PEND_PEND.at w 0} s u ∧
      (∀ x : Fin 256, u.chip.isPending x = (s.chip.isPending x || l.contains x.val)) ∧
      u.chip.ev = { s.chip.ev with sig := r, rcnt := u.chip.ev.rcnt, msixDue := u.chip.ev.msixDue } ∧
      (∀ x : Fin 256, x.val ∈ l → sparseGet 0 x.val u.chip.ev.rcnt = (sparseGet 0 x.val s.chip.ev.rcnt + l.count x.val) % 2 ^ 32) ∧
      (∀ x : Fin 256, x.val ∉ l → sparseGet 0 x.val u.chip.ev.rcnt = sparseGet 0 x.val s.chip.ev.rcnt) ∧
      (∀ x : Fin 256, x.val ∈ l → s.chip.isPending x = false → bitAt (s.chip.route x) 31 = true → x.val ∈ u.chip.ev.msixDue)) ∧
  (∀ (t : Nat) (m : Fin 8) (r : List Signal) (s : State), s.chip.up 1 = true → s.chip.ev.sig = .mailbox m :: r →
    ∃ u, exec (.eventSourceRaise t) s = .next u ∧ Leaves t [.ev] {F.EVC_PEND_PEND.at 1 0} s u ∧
      (∀ x : Fin 256, u.chip.isPending x = (s.chip.isPending x || x.val == 32 + m.val)) ∧ u.chip.ev.sig = r) ∧
  (∀ (t : Nat) (x : Signal) (r : List Signal) (s : State), s.chip.up 1 = false → s.chip.ev.sig = x :: r →
    ∃ u, exec (.eventSourceRaise t) s = .next u ∧ Leaves t [.ev] ∅ s u ∧ u.chip.ev = { s.chip.ev with sig := r }) ∧
  (∀ (t : Nat) (i : Initiator) (n : Fin 4) (x : Fin 256) (s : State), s.chip.mayRead i (R.EVC_CORE_CLAIM.at n 0) → x.val ∈ s.chip.claimable n →
    (∀ y ∈ s.chip.claimable n, routePrio (s.chip.route y) < routePrio (s.chip.route x) ∨ routePrio (s.chip.route y) = routePrio (s.chip.route x) ∧ x.val ≤ y) →
    ∃ u, exec (.eventClaim t i n) s = .next u ∧ ReadLeaves t (routePrio (s.chip.route x) * 65536 + x.val) [] {F.EVC_PEND_PEND.at (x.val / 32) 0} s u ∧
      (∀ y : Fin 256, u.chip.isPending y = (s.chip.isPending y && y != x))) ∧
  (∀ (t : Nat) (i : Initiator) (n : Fin 4) (s : State), s.chip.mayRead i (R.EVC_CORE_CLAIM.at n 0) → s.chip.claimable n = [] →
    ∃ u, exec (.eventClaim t i n) s = .next u ∧ ReadLeaves t 0x100 [] ∅ s u) ∧
  (∀ (t k : Nat) (i : Initiator) (w : Word) (s : State), s.chip.mayWrite i R.EVC_XTEST.addr → s.chip.xpert R.EVC_XTEST.addr = true → k = fld F.EVC_XTEST_SRC w.toNat →
    ∃ u, exec (.xtestGo t i w) s = .next u ∧ WriteLeaves t i R.EVC_XTEST.addr [.ev] {R.EVC_XTEST.addr, F.EVC_PEND_PEND.at (k / 32) 0} s u ∧
      (∀ x : Fin 256, u.chip.isPending x = (s.chip.isPending x || x.val == k))) ∧
  (∀ (t k : Nat) (i : Initiator) (w : Word) (s : State), s.chip.mayWrite i R.EVC_XTEST.addr → s.chip.xpert R.EVC_XTEST.addr = false → k = s.chip.get F.EVC_XTEST_SRC →
    ∃ u, exec (.xtestGo t i w) s = .next u ∧ WriteLeaves t i R.EVC_XTEST.addr [.ev] {F.EVC_REJ_CNT_COUNT.addr, F.EVC_PEND_PEND.at (k / 32) 0} s u ∧
      (∀ x : Fin 256, u.chip.isPending x = (s.chip.isPending x || x.val == k))) ∧
  (∀ (t code : Nat) (i : Initiator) (w : Word) (e : Event) (s : State), s.chip.mayWrite i R.EVC_LOG_CODE.addr → code = fld F.EVC_LOG_CODE_CODE w.toNat →
    i = .tc ∨ 0x80 ≤ code % 256 → 
    e = { code := code, time := (s.chip.at t).nowNs, tv := s.chip.timeValid 1, detail := bytesLE 4 (s.chip.latched R.EVC_LOG_D0.addr (initNo i)) ++
      bytesLE 4 (s.chip.latched R.EVC_LOG_D1.addr (initNo i)) ++ bytesLE 4 (s.chip.latched R.EVC_LOG_D2.addr (initNo i)), trunc := false, fw := true, port := none } →
    ∃ u, exec (.fwEventSubmit t i w) s = .next u ∧ WriteLeaves t i R.EVC_LOG_CODE.addr [.ev] ∅ s u ∧
      u.chip.ev = { s.chip.ev with sig := s.chip.ev.sig ++ [.event code 0], recs := s.chip.ev.recs ++ [e], faultIn := s.chip.ev.faultIn ++ [e] }) ∧
  (∀ (t : Nat) (i : Initiator) (w : Word) (s : State), s.chip.mayWrite i R.EVC_LOG_CODE.addr → fld F.EVC_LOG_CODE_CODE w.toNat % 256 < 0x80 → i ≠ .tc →
    ∃ u, exec (.fwEventSubmit t i w) s = .next u ∧ WriteLeaves t i R.EVC_LOG_CODE.addr [] {F.EVC_REJ_CNT_COUNT.addr} s u ∧
      u.chip.get F.EVC_REJ_CNT_COUNT = satNat (F.EVC_REJ_CNT_COUNT.hi + 1 - F.EVC_REJ_CNT_COUNT.lo) (s.chip.get F.EVC_REJ_CNT_COUNT + 1))

/-- Software triggers and routes (R644, R646). A write of GO with IDX i sets the pending bit of source 128 + i and of no other. A route that
includes TC, before the write or after it, is written by TC alone; a write by any other initiator leaves it as it is and is counted in
EVC_REJ_CNT. Every other route is written by whoever may write the block, and no second route changes. -/
def Obligations.TriggersAndRoutes : Prop :=
  (∀ (t k : Nat) (i : Initiator) (w : Word) (s : State), s.chip.mayWrite i R.EVC_SWTRIG.addr → k = fld F.EVC_SWTRIG_IDX w.toNat →
    ∃ u, exec (.swTrigger t i w) s = .next u ∧ WriteLeaves t i R.EVC_SWTRIG.addr [.ev] {F.EVC_PEND_PEND.at ((128 + k) / 32) 0} s u ∧
      (∀ x : Fin 256, u.chip.isPending x = (s.chip.isPending x || x.val == 128 + k)) ∧
      sparseGet 0 (128 + k) u.chip.ev.rcnt = (sparseGet 0 (128 + k) s.chip.ev.rcnt + 1) % 2 ^ 32) ∧
  (∀ (t x : Nat) (i : Initiator) (w : Word) (s : State), s.chip.mayWrite i R.EVC_ROUTE.addr → x = s.chip.latched R.EVC_RSEL.addr (initNo i) →
    i = .tc ∨ bitAt (s.chip.route x) 0 = false ∧ bitAt w.toNat 0 = false →
    ∃ u, exec (.routeWrite t i w) s = .next u ∧ WriteLeaves t i R.EVC_ROUTE.addr [.ev] ∅ s u ∧ u.chip.route x = w.toNat &&& 0xBF70000F ∧
      (∀ y : Fin 256, y.val ≠ x → u.chip.route y = s.chip.route y) ∧ u.chip.ev = { s.chip.ev with route := u.chip.ev.route }) ∧
  (∀ (t x : Nat) (i : Initiator) (w : Word) (s : State), s.chip.mayWrite i R.EVC_ROUTE.addr → x = s.chip.latched R.EVC_RSEL.addr (initNo i) →
    i ≠ .tc → bitAt (s.chip.route x) 0 = true ∨ bitAt w.toNat 0 = true →
    ∃ u, exec (.routeWrite t i w) s = .next u ∧ WriteLeaves t i R.EVC_ROUTE.addr [] {F.EVC_REJ_CNT_COUNT.addr} s u ∧
      u.chip.get F.EVC_REJ_CNT_COUNT = satNat (F.EVC_REJ_CNT_COUNT.hi + 1 - F.EVC_REJ_CNT_COUNT.lo) (s.chip.get F.EVC_REJ_CNT_COUNT + 1))

/-- Event records (R649, R651 to R654, R656, R659, R660). While EVR can write, a record goes to the next slot of the ring with its sequence
number and flags; a repeat counts in the open record; a code at its limit is dropped and counted. While EVR cannot, the hold buffer takes
the record, and it is written when EVR can. The open record closes; windows close; a change of SEC_PHASE closes both. A page of the mirror
is written at the mirror's place; a flash error stops it. Records go to the host queue, and TAIL is written back. The model's own choices in
this: entries 25, 117 of the log. -/
def Obligations.EventRecords : Prop :=
  (∀ (t n : Nat) (e : Event) (r : List Event) (s : State), s.chip.evrWrites = true → s.chip.ev.recs = e :: r → s.chip.ev.hold = [] → s.chip.ev.holdLost = 0 → s.chip.ev.openRec = none →
    s.chip.inService = true → s.chip.ev.sumpSeen = s.chip.get F.SYS_SUMP_DROP_COUNT → s.chip.on F.EVR_CTRL_MIR_EN = false → s.chip.on F.EVC_HQ_CFG_EN = false →
    e.detail.length ≤ 12 → (∀ b ∈ e.detail, b < 256) → n = s.chip.get F.EVR_WR_WR →
    ∃ u, exec (.eventRecord t) s = .next u ∧ LeavesChip t [.ev] (blockRegsSet 0x03) s u ∧ u.store = { s.store with mem := u.store.mem } ∧
      ringBytes u.store (n % 2048) = eventBytes e 0 (s.chip.get F.EVR_SEQ_SEQ) (s.chip.recFlags e true false) ∧ u.chip.get F.EVR_WR_WR = (n + 1) % 2 ^ 32 ∧
      u.chip.get F.EVR_SEQ_SEQ = (s.chip.get F.EVR_SEQ_SEQ + 1) % 2 ^ 24 ∧ u.chip.on F.EVR_STAT_OPEN = true ∧
      u.chip.ev = { s.chip.ev with recs := r, openRec := some ⟨n % 2048, e, s.chip.get F.EVR_SEQ_SEQ, s.chip.recFlags e true false, 0, max s.chip.now t⟩ }) ∧
  (∀ (t : Nat) (e : Event) (r : List Event) (o : OpenRecord) (s : State), s.chip.evrWrites = true → s.chip.ev.recs = e :: r → s.chip.ev.hold = [] → s.chip.ev.holdLost = 0 →
    s.chip.ev.openRec = some o → s.chip.inService = true → s.chip.on F.EVR_XCFG_NO_REPEAT = false → e.code = o.ev.code → e.detail = o.ev.detail → e.fw = o.ev.fw → e.trunc = o.ev.trunc →
    o.rep < 65534 → o.ev.detail.length ≤ 12 → (∀ b ∈ o.ev.detail, b < 256) → o.flags < 256 →
    ∃ u, exec (.eventRecord t) s = .next u ∧ LeavesChip t [.ev] ∅ s u ∧ u.store = { s.store with mem := u.store.mem } ∧
      ringBytes u.store o.slot = eventBytes o.ev (o.rep + 1) o.seq o.flags ∧
      u.chip.ev = { s.chip.ev with recs := r, openRec := some { o with rep := o.rep + 1, last := max s.chip.now t } }) ∧
  (∀ (t : Nat) (e : Event) (r : List Event) (x : RateEntry) (s : State), s.chip.evrWrites = true → s.chip.ev.recs = e :: r → s.chip.ev.hold = [] → s.chip.ev.holdLost = 0 →
    s.chip.ev.openRec = none → s.chip.inService = false → s.chip.on F.EVR_XCFG_NO_LIMIT = false → s.chip.ev.rate = [x] → x.code = e.code → x.closed = false →
    (s.chip.at t).nowNs < x.start + s.chip.get F.EVR_RATE_WIN_MS * 1000000 → e.time < x.start + s.chip.get F.EVR_RATE_WIN_MS * 1000000 → s.chip.get F.EVR_RATE_LIMIT ≤ x.count →
    ∃ u, exec (.eventRecord t) s = .next u ∧ Leaves t [.ev] {F.EVR_DROP_CNT_COUNT.addr} s u ∧
      u.chip.get F.EVR_DROP_CNT_COUNT = satNat (F.EVR_DROP_CNT_COUNT.hi + 1 - F.EVR_DROP_CNT_COUNT.lo) (s.chip.get F.EVR_DROP_CNT_COUNT + 1) ∧
      u.chip.ev = { s.chip.ev with recs := r, rate := [{ x with winDrops := x.winDrops + 1, drops := satNat 32 (x.drops + 1) }] }) ∧
  (∀ (t : Nat) (e : Event) (r : List Event) (s : State), s.chip.evrWrites = false → s.chip.ev.recs = e :: r → s.chip.ev.hold.length < 16 →
    ∃ u, exec (.eventRecord t) s = .next u ∧ Leaves t [.ev] ∅ s u ∧ u.chip.ev = { s.chip.ev with recs := r, hold := s.chip.ev.hold ++ [e] }) ∧
  (∀ (t : Nat) (o : OpenRecord) (s : State), s.chip.up 1 = true → s.chip.ev.openRec = some o → o.last + ms (s.chip.get F.EVR_CLOSE_MS) ≤ max s.chip.now t →
    o.ev.detail.length ≤ 12 → (∀ b ∈ o.ev.detail, b < 256) → o.flags < 256 →
    ∃ u, exec (.recordClose t) s = .next u ∧ LeavesChip t [.ev] {F.EVR_STAT_OPEN.addr} s u ∧ u.store = { s.store with mem := u.store.mem } ∧
      ringBytes u.store o.slot = eventBytes o.ev o.rep o.seq (o.flags - 32) ∧ u.chip.on F.EVR_STAT_OPEN = false ∧ u.chip.ev = { s.chip.ev with openRec := none }) ∧
  (∀ (t : Nat) (x : RateEntry) (s : State), s.chip.up 1 = true → s.chip.ev.rate = [x] → x.closed = false → x.start + s.chip.get F.EVR_RATE_WIN_MS * 1000000 ≤ (s.chip.at t).nowNs →
    x.winDrops = 0 →
    ∃ u, exec (.rateWindowClose t) s = .next u ∧ Leaves t [.ev] ∅ s u ∧ u.chip.ev = { s.chip.ev with rate := [{ x with closed := true }] }) ∧
  (∀ (t n : Nat) (x : RateEntry) (s : State), s.chip.up 1 = true → s.chip.ev.rate = [x] → x.closed = false → x.start + s.chip.get F.EVR_RATE_WIN_MS * 1000000 ≤ (s.chip.at t).nowNs →
    0 < x.winDrops → s.chip.ev.openRec = none → s.chip.on F.EVR_CTRL_MIR_EN = false → s.chip.on F.EVC_HQ_CFG_EN = false → n = s.chip.get F.EVR_WR_WR →
    ∃ u, exec (.rateWindowClose t) s = .next u ∧ LeavesChip t [.ev] (blockRegsSet 0x03) s u ∧ u.chip.ev.rate = [{ x with closed := true, winDrops := 0 }] ∧
      u.chip.get F.EVR_WR_WR = (n + 1) % 2 ^ 32 ∧ (ringBytes u.store (n % 2048)).take 2 = [0x01, 0x03] ∧ ((ringBytes u.store (n % 2048)).drop 16).take 6 = bytesLE 2 x.code ++ bytesLE 4 (satNat 32 x.winDrops)) ∧
  (∀ (t : Nat) (i : Initiator) (w : Word) (s : State), s.chip.mayWrite i R.SEC_PHASE.addr → fld F.SEC_PHASE_PHASE w.toNat ≠ s.chip.get F.SEC_PHASE_PHASE → s.chip.ev.openRec = none →
    (∀ x ∈ s.chip.ev.rate, x.winDrops = 0) →
    ∃ u, exec (.phaseChange t i w) s = .next u ∧ WriteLeaves t i R.SEC_PHASE.addr [.ev] {F.SEC_PHASE_PHASE.addr, F.EVR_STAT_OPEN.addr} s u ∧
      u.chip.get F.SEC_PHASE_PHASE = fld F.SEC_PHASE_PHASE w.toNat ∧ u.chip.ev = { s.chip.ev with rate := [] }) ∧
  (∀ (t n : Nat) (e : Event) (s : State), s.chip.evrWrites = true → s.chip.ev.hold = [e] → s.chip.ev.holdLost = 0 → s.chip.ev.openRec = none →
    s.chip.inService = true → s.chip.ev.sumpSeen = s.chip.get F.SYS_SUMP_DROP_COUNT → s.chip.on F.EVR_CTRL_MIR_EN = false → s.chip.on F.EVC_HQ_CFG_EN = false →
    e.detail.length ≤ 12 → (∀ b ∈ e.detail, b < 256) → n = s.chip.get F.EVR_WR_WR →
    ∃ u, exec (.holdFlush t) s = .next u ∧ LeavesChip t [.ev] (blockRegsSet 0x03) s u ∧ u.chip.ev.hold = [] ∧ u.chip.get F.EVR_WR_WR = (n + 1) % 2 ^ 32 ∧
      ringBytes u.store (n % 2048) = eventBytes e 0 (s.chip.get F.EVR_SEQ_SEQ) (s.chip.recFlags e true true)) ∧
  (∀ (t a : Nat) (s : State), s.chip.evrWrites = true → s.chip.on F.EVR_CTRL_MIR_EN = true → s.chip.ev.mirStop = false → s.chip.closedRecords = s.chip.ev.mirNext + 1 → s.chip.ev.mirRun = 0 →
    a = s.chip.get F.EVR_MIR_POS_ADDR → a % 4096 ≠ 0 → a + 32 < s.chip.get F.EVR_MIR_END_ADDR * 4096 →
    ∃ u, exec (.mirrorWrite t true) s = .next u ∧ LeavesChip t [.ev] {F.EVR_MIR_POS_ADDR.addr, F.EVR_MIR_CNT_COUNT.addr} s u ∧
      u.store = s.store.writeFlash a ((ringBytes s.store (s.chip.ev.mirNext % 2048)).map (BitVec.ofNat 8)) ∧ u.chip.get F.EVR_MIR_POS_ADDR = a + 32 ∧
      u.chip.ev = { s.chip.ev with mirNext := s.chip.ev.mirNext + 1 }) ∧
  (∀ (t : Nat) (s : State), s.chip.evrWrites = true → s.chip.on F.EVR_CTRL_MIR_EN = true → s.chip.ev.mirStop = false → s.chip.ev.mirNext < s.chip.closedRecords → s.chip.ev.openRec = none →
    ∃ u, exec (.mirrorWrite t false) s = .next u ∧ LeavesChip t [.ev] (blockRegsSet 0x03 ∪ {F.EVC_HQ_LOST_LOCAL.addr}) s u ∧ u.chip.on F.EVR_STAT_FLASH_ERR = true ∧ u.chip.ev.mirStop = true ∧
      u.store = { s.store with mem := u.store.mem }) ∧
  (∀ (t n : Nat) (s : State), s.chip.evrWrites = true → s.chip.on F.EVC_HQ_CFG_EN = true → s.chip.hostReach = true → s.chip.hqRoom = true → s.chip.ev.hqNext < s.chip.closedRecords →
    s.chip.ev.hqRun = 0 → n = s.chip.get F.EVC_HQ_TAIL_TAIL →
    ∃ u, exec (.hqDeliver t) s = .next u ∧ LeavesChip t [.ev] {F.EVC_HQ_TAIL_TAIL.addr} s u ∧ u.chip.get F.EVC_HQ_TAIL_TAIL = (n + 1) % 2 ^ 32 ∧
      u.store = (s.store.writeHost (s.chip.hqBase + 64 * (n % s.chip.hqSize)) (((ringBytes s.store (s.chip.ev.hqNext % 2048)) ++ bytesLE 2 s.chip.nodeId ++ List.replicate 30 0).map (BitVec.ofNat 8))).writeHost
        s.chip.hqWb (leBytes 4 ((n + 1) % 2 ^ 32)) ∧ u.chip.ev.hqNext = s.chip.ev.hqNext + 1 ∧ u.chip.ev.hqUnsig = s.chip.ev.hqUnsig + 1) ∧
  (∀ (t n k : Nat) (i : Initiator) (w : Word) (s : State), s.chip.mayWrite i R.EVC_HQ_HEAD.addr → n = (s.chip.get F.EVC_HQ_TAIL_TAIL + 2 ^ 32 - s.chip.get F.EVC_HQ_HEAD_HEAD) % 2 ^ 32 →
    k = (w.toNat + 2 ^ 32 - s.chip.get F.EVC_HQ_HEAD_HEAD) % 2 ^ 32 →
    ∃ u, exec (.hqHeadWrite t i w) s = .next u ∧ WriteLeaves t i R.EVC_HQ_HEAD.addr [] {F.EVC_HQ_HEAD_HEAD.addr, F.EVC_REJ_CNT_COUNT.addr} s u ∧
      u.chip.get F.EVC_HQ_HEAD_HEAD = (if k ≤ n then w.toNat else s.chip.get F.EVC_HQ_HEAD_HEAD) ∧
      u.chip.get F.EVC_REJ_CNT_COUNT = (if k ≤ n then s.chip.get F.EVC_REJ_CNT_COUNT else satNat (F.EVC_REJ_CNT_COUNT.hi + 1 - F.EVC_REJ_CNT_COUNT.lo) (s.chip.get F.EVC_REJ_CNT_COUNT + 1))) ∧
  (∀ (t n src : Nat) (l : List Nat) (s : State), s.chip.up 1 = true → s.chip.on F.EVC_HQ_CFG_EN = true → s.chip.hostReach = true → s.chip.hqRoom = true → s.chip.pwrState ≠ 1 → l.length = 32 → src < 1024 →
    n = s.chip.get F.EVC_HQ_TAIL_TAIL →
    ∃ u, exec (.fabEventRx t l src) s = .next u ∧ LeavesChip t [.ev, .pwr] {F.EVC_HQ_TAIL_TAIL.addr} s u ∧ u.chip.get F.EVC_HQ_TAIL_TAIL = (n + 1) % 2 ^ 32 ∧
      u.store = (s.store.writeHost (s.chip.hqBase + 64 * (n % s.chip.hqSize)) ((l ++ bytesLE 2 src ++ [1] ++ List.replicate 29 0).map (BitVec.ofNat 8))).writeHost
        s.chip.hqWb (leBytes 4 ((n + 1) % 2 ^ 32))) ∧
  (∀ (t src : Nat) (l : List Nat) (s : State), s.chip.up 1 = true → s.chip.on F.EVC_HQ_CFG_EN = false ∨ s.chip.hostReach = false ∨ s.chip.hqRoom = false → s.chip.pwrState ≠ 1 →
    ∃ u, exec (.fabEventRx t l src) s = .next u ∧ Leaves t [.pwr] {F.EVC_HQ_LOST_FOREIGN.addr} s u ∧
      u.chip.get F.EVC_HQ_LOST_FOREIGN = satNat (F.EVC_HQ_LOST_FOREIGN.hi + 1 - F.EVC_HQ_LOST_FOREIGN.lo) (s.chip.get F.EVC_HQ_LOST_FOREIGN + 1))

/-- The fuse controller takes a command (R598, R606, R632). A word with an operation, a region and a row of the maps starts it while no other
runs: BUSY rises, DONE falls, and the charge pump runs where PGM.SRC asks for it. While one runs, a word is ignored and counted. The model's
own choices in this: entry 122 of the log. -/
def Obligations.FuseCommandStarts : Prop :=
  (∀ (t : Nat) (i : Initiator) (w : Word) (vpp : Bool) (s : State), s.chip.mayWrite i R.OTP_CMD.addr → s.chip.on F.OTP_STAT_BUSY = false → bitsOf w.toNat 19 16 ≤ 10 →
    bitsOf w.toNat 9 0 ≤ 511 →
    ∃ u, exec (.otpRead t i w vpp) s = .next u ∧ WriteLeaves t i R.OTP_CMD.addr [.otp] {F.OTP_STAT_BUSY.addr, F.OTP_RESULT_DONE.addr} s u ∧
      u.chip.on F.OTP_STAT_BUSY = true ∧ u.chip.on F.OTP_RESULT_DONE = false ∧ u.chip.on F.OTP_STAT_VPP_OK = vpp ∧
      u.chip.otp = { s.chip.otp with cmd := some ⟨1, bitsOf w.toNat 19 16, bitsOf w.toNat 9 0⟩, abort := false } ∧
      u.chip.on F.OTP_STAT_PUMP_ON = false) ∧
  (∀ (t : Nat) (i : Initiator) (w : Word) (vpp : Bool) (s : State), s.chip.mayWrite i R.OTP_CMD.addr → s.chip.on F.OTP_STAT_BUSY = false → bitsOf w.toNat 19 16 ≤ 10 →
    bitsOf w.toNat 9 0 ≤ 511 →
    ∃ u, exec (.program t i w vpp) s = .next u ∧ WriteLeaves t i R.OTP_CMD.addr [.otp] {F.OTP_STAT_BUSY.addr, F.OTP_RESULT_DONE.addr} s u ∧
      u.chip.on F.OTP_STAT_BUSY = true ∧ u.chip.on F.OTP_RESULT_DONE = false ∧ u.chip.on F.OTP_STAT_VPP_OK = vpp ∧
      u.chip.otp = { s.chip.otp with cmd := some ⟨2, bitsOf w.toNat 19 16, bitsOf w.toNat 9 0⟩, abort := false } ∧
      u.chip.on F.OTP_STAT_PUMP_ON = (s.chip.get F.OTP_PGM_SRC == 2 || s.chip.get F.OTP_PGM_SRC == 0 && !vpp)) ∧
  (∀ (t : Nat) (i : Initiator) (w : Word) (vpp : Bool) (s : State), s.chip.mayWrite i R.OTP_CMD.addr → s.chip.on F.OTP_STAT_BUSY = false → bitsOf w.toNat 19 16 ≤ 10 →
    bitsOf w.toNat 9 0 ≤ 511 →
    ∃ u, exec (.reinforce t i w vpp) s = .next u ∧ WriteLeaves t i R.OTP_CMD.addr [.otp] {F.OTP_STAT_BUSY.addr, F.OTP_RESULT_DONE.addr} s u ∧
      u.chip.on F.OTP_STAT_BUSY = true ∧ u.chip.on F.OTP_RESULT_DONE = false ∧ u.chip.on F.OTP_STAT_VPP_OK = vpp ∧
      u.chip.otp = { s.chip.otp with cmd := some ⟨3, bitsOf w.toNat 19 16, bitsOf w.toNat 9 0⟩, abort := false } ∧
      u.chip.on F.OTP_STAT_PUMP_ON = (s.chip.get F.OTP_PGM_SRC == 2 || s.chip.get F.OTP_PGM_SRC == 0 && !vpp)) ∧
  (∀ (t : Nat) (i : Initiator) (w : Word) (vpp : Bool) (s : State), s.chip.mayWrite i R.OTP_CMD.addr → s.chip.on F.OTP_STAT_BUSY = false → bitsOf w.toNat 19 16 ≤ 10 →
    bitsOf w.toNat 9 0 ≤ 511 →
    ∃ u, exec (.lock t i w vpp) s = .next u ∧ WriteLeaves t i R.OTP_CMD.addr [.otp] {F.OTP_STAT_BUSY.addr, F.OTP_RESULT_DONE.addr} s u ∧
      u.chip.on F.OTP_STAT_BUSY = true ∧ u.chip.on F.OTP_RESULT_DONE = false ∧ u.chip.on F.OTP_STAT_VPP_OK = vpp ∧
      u.chip.otp = { s.chip.otp with cmd := some ⟨4, bitsOf w.toNat 19 16, bitsOf w.toNat 9 0⟩, abort := false } ∧
      u.chip.on F.OTP_STAT_PUMP_ON = (s.chip.get F.OTP_PGM_SRC == 2 || s.chip.get F.OTP_PGM_SRC == 0 && !vpp)) ∧
  (∀ (t : Nat) (i : Initiator) (w : Word) (vpp : Bool) (s : State), s.chip.mayWrite i R.OTP_CMD.addr → s.chip.on F.OTP_STAT_BUSY = false → bitsOf w.toNat 19 16 ≤ 10 →
    bitsOf w.toNat 9 0 ≤ 511 →
    ∃ u, exec (.relocate t i w vpp) s = .next u ∧ WriteLeaves t i R.OTP_CMD.addr [.otp] {F.OTP_STAT_BUSY.addr, F.OTP_RESULT_DONE.addr} s u ∧
      u.chip.on F.OTP_STAT_BUSY = true ∧ u.chip.on F.OTP_RESULT_DONE = false ∧ u.chip.on F.OTP_STAT_VPP_OK = vpp ∧
      u.chip.otp = { s.chip.otp with cmd := some ⟨5, bitsOf w.toNat 19 16, bitsOf w.toNat 9 0⟩, abort := false } ∧
      u.chip.on F.OTP_STAT_PUMP_ON = (s.chip.get F.OTP_PGM_SRC == 2 || s.chip.get F.OTP_PGM_SRC == 0 && !vpp)) ∧
  (∀ (t : Nat) (i : Initiator) (w : Word) (vpp : Bool) (s : State), s.chip.mayWrite i R.OTP_CMD.addr → s.chip.on F.OTP_STAT_BUSY = false → bitsOf w.toNat 19 16 ≤ 10 →
    bitsOf w.toNat 9 0 ≤ 511 →
    ∃ u, exec (.lcAdvance t i w vpp) s = .next u ∧ WriteLeaves t i R.OTP_CMD.addr [.otp] {F.OTP_STAT_BUSY.addr, F.OTP_RESULT_DONE.addr} s u ∧
      u.chip.on F.OTP_STAT_BUSY = true ∧ u.chip.on F.OTP_RESULT_DONE = false ∧ u.chip.on F.OTP_STAT_VPP_OK = vpp ∧
      u.chip.otp = { s.chip.otp with cmd := some ⟨6, bitsOf w.toNat 19 16, bitsOf w.toNat 9 0⟩, abort := false } ∧
      u.chip.on F.OTP_STAT_PUMP_ON = (s.chip.get F.OTP_PGM_SRC == 2 || s.chip.get F.OTP_PGM_SRC == 0 && !vpp)) ∧
  (∀ (t : Nat) (i : Initiator) (w : Word) (vpp : Bool) (s : State), s.chip.mayWrite i R.OTP_CMD.addr → s.chip.on F.OTP_STAT_BUSY = true →
    ∃ u, exec (.program t i w vpp) s = .next u ∧ WriteLeaves t i R.OTP_CMD.addr [] {F.OTP_STAT_VPP_OK.addr, F.OTP_REJ_CNT_COUNT.addr} s u ∧
      u.chip.get F.OTP_REJ_CNT_COUNT = satNat (F.OTP_REJ_CNT_COUNT.hi + 1 - F.OTP_REJ_CNT_COUNT.lo) (s.chip.get F.OTP_REJ_CNT_COUNT + 1))

/-- What a fuse command does (R598, R599, R604 to R608, R611 to R614, R616). READ gives both margins. PROGRAM and REINFORCE pulse their bits in
the row that serves; what R607 refuses and what is missing burns nothing and ends with its code. LOCK takes a digest that agrees with the
data rows, and sets the lock row. RELOCATE maps a row to the first free spare. LC_ADVANCE sets the row of the state, hides SECRET where it
must, and starts a wipe of the Grotto. An abort leaves the first bits pulsed. With no command nothing ends. The model's own choices in this:
entries 121, 122 of the log. -/
def Obligations.FuseCommandEnds : Prop :=
  (∀ (t : Nat) (k : OtpCmd) (s : State), s.chip.up 1 = true → s.chip.otp.cmd = some k → s.chip.fw.tcWait = [] → k.op = 1 → regionOf k.row ≠ some 8 → regionOf k.row ≠ some 9 →
    ∃ u, exec (.otpCmdDone t [] 0) s = .next u ∧ Leaves t [.otp, .ev] {R.OTP_RESULT.addr, F.OTP_STAT_BUSY.addr, R.OTP_RDATA_N.addr, R.OTP_RDATA_T.addr} s u ∧
      u.chip.get R.OTP_RDATA_N = s.store.rowN k.row ∧ u.chip.get R.OTP_RDATA_T = s.store.rowT k.row ∧ u.chip.word R.OTP_RESULT.addr = BitVec.ofNat 32 (2 ^ 31 + 0 * 256 + 0) ∧
      u.chip.on F.OTP_STAT_BUSY = false ∧ u.chip.otp.cmd = none ∧ (s.chip.at t).Raised u.chip [(0x0204, [(1, 1), (2, k.row), (1, 0)])]) ∧
  (∀ (t new : Nat) (k : OtpCmd) (s : State), s.chip.up 1 = true → s.chip.otp.cmd = some k → s.chip.fw.tcWait = [] → k.op = 2 → s.chip.otp.abort = false → s.chip.vppMissing = false →
    new = (s.chip.word R.OTP_WDATA.addr).toNat - ((s.chip.word R.OTP_WDATA.addr).toNat &&& s.store.rowN k.row) → new ≠ 0 → s.chip.programRefusal s.store k.row = none → k.row ≠ 160 →
    ∃ u, exec (.otpCmdDone t [] 0) s = .next u ∧ LeavesChip t [.otp, .ev, .sec] {R.OTP_RESULT.addr, F.OTP_STAT_BUSY.addr, F.OTP_WEAKMASK_MASK.addr, F.SEC_KEYS_REVOKED.addr, R.SEC_ROLL.addr} s u ∧ u.store = s.store.burn (s.store.physical k.row) new new ∧
      u.chip.word R.OTP_RESULT.addr = BitVec.ofNat 32 (2 ^ 31 + 0 * 256 + 0) ∧ u.chip.get F.OTP_WEAKMASK_MASK = 0 ∧ u.chip.on F.OTP_STAT_BUSY = false ∧ u.chip.otp.cmd = none) ∧
  (∀ (t code : Nat) (k : OtpCmd) (fails : List PulseFail) (pulses : Nat) (s : State), s.chip.up 1 = true → s.chip.otp.cmd = some k → s.chip.fw.tcWait = [] → k.op = 2 →
    (s.chip.word R.OTP_WDATA.addr).toNat - ((s.chip.word R.OTP_WDATA.addr).toNat &&& s.store.rowN k.row) ≠ 0 → s.chip.programRefusal s.store k.row = some code →
    ∃ u, exec (.otpCmdDone t fails pulses) s = .next u ∧ Leaves t [.otp, .ev] {R.OTP_RESULT.addr, F.OTP_STAT_BUSY.addr} s u ∧ u.chip.word R.OTP_RESULT.addr = BitVec.ofNat 32 (2 ^ 31 + 0 * 256 + code) ∧
      (s.chip.at t).Raised u.chip [(0x0204, [(1, 2), (2, k.row), (1, code)])]) ∧
  (∀ (t : Nat) (k : OtpCmd) (fails : List PulseFail) (pulses : Nat) (s : State), s.chip.up 1 = true → s.chip.otp.cmd = some k → s.chip.fw.tcWait = [] → k.op = 2 → (s.chip.word R.OTP_WDATA.addr).toNat &&& s.store.rowN k.row = (s.chip.word R.OTP_WDATA.addr).toNat →
    ∃ u, exec (.otpCmdDone t fails pulses) s = .next u ∧ Leaves t [.otp, .ev] {R.OTP_RESULT.addr, F.OTP_STAT_BUSY.addr} s u ∧ u.chip.word R.OTP_RESULT.addr = BitVec.ofNat 32 (2 ^ 31 + 0 * 256 + 0)) ∧
  (∀ (t : Nat) (k : OtpCmd) (s : State), s.chip.up 1 = true → s.chip.otp.cmd = some k → s.chip.fw.tcWait = [] → k.op = 3 → s.chip.otp.abort = false → s.chip.vppMissing = false → s.chip.lcInForce ≠ 4 →
    ∃ u, exec (.otpCmdDone t [] 0) s = .next u ∧ LeavesChip t [.otp, .ev, .sec] {R.OTP_RESULT.addr, F.OTP_STAT_BUSY.addr, F.OTP_WEAKMASK_MASK.addr, F.SEC_KEYS_REVOKED.addr, R.SEC_ROLL.addr} s u ∧ u.store = s.store.burn (s.store.physical k.row) (s.store.rowN k.row) (s.store.rowN k.row) ∧
      u.chip.word R.OTP_RESULT.addr = BitVec.ofNat 32 (2 ^ 31 + 0 * 256 + 0)) ∧
  (∀ (t b l : Nat) (k : OtpCmd) (s : State), s.chip.up 1 = true → s.chip.otp.cmd = some k → s.chip.fw.tcWait = [] → k.op = 4 → s.chip.otp.abort = false → s.chip.vppMissing = false → regionDigest k.region = some (b, l) →
    stateAllows s.chip.lcInForce k.region = true → (∀ r ∈ dataRows k.region, s.store.marginal r = false) → s.store.digest k.region = s.chip.suppliedDigest →
    (∀ j : Fin 8, s.store.rowN (b + j) = 0) →
    ∃ u, exec (.otpCmdDone t [] 0) s = .next u ∧ LeavesChip t [.otp, .ev, .sec] {R.OTP_RESULT.addr, F.OTP_STAT_BUSY.addr, F.OTP_WEAKMASK_MASK.addr, F.SEC_KEYS_REVOKED.addr, R.SEC_ROLL.addr} s u ∧
      (∀ j : Fin 8, u.store.rawN (s.store.physical (b + j)) = s.chip.get F.OTP_DIGEST_DIGEST j) ∧ u.store.rawN (s.store.physical l) = 2 ^ 32 - 1 ∧
      u.store.rawT (s.store.physical l) = 2 ^ 32 - 1 ∧ u.chip.word R.OTP_RESULT.addr = BitVec.ofNat 32 (2 ^ 31 + 0 * 256 + 0)) ∧
  (∀ (t b l : Nat) (k : OtpCmd) (fails : List PulseFail) (pulses : Nat) (s : State), s.chip.up 1 = true → s.chip.otp.cmd = some k → s.chip.fw.tcWait = [] → k.op = 4 → regionDigest k.region = some (b, l) →
    stateAllows s.chip.lcInForce k.region = true → (∀ r ∈ dataRows k.region, s.store.marginal r = false) → s.store.digest k.region ≠ s.chip.suppliedDigest →
    ∃ u, exec (.otpCmdDone t fails pulses) s = .next u ∧ Leaves t [.otp, .ev] {R.OTP_RESULT.addr, F.OTP_STAT_BUSY.addr} s u ∧ u.chip.word R.OTP_RESULT.addr = BitVec.ofNat 32 (2 ^ 31 + 0 * 256 + otpMismatch)) ∧
  (∀ (t : Nat) (k : OtpCmd) (s : State), s.chip.up 1 = true → s.chip.otp.cmd = some k → s.chip.fw.tcWait = [] → k.op = 5 → s.chip.otp.abort = false → s.chip.vppMissing = false → k.row < 487 →
    (s.chip.word R.OTP_WDATA.addr).toNat ≠ 0 → s.chip.programRefusal s.store k.row = none → (∀ e : Fin 8, s.store.rawN (488 + e) = 0 ∧ s.store.rawN (496 + e) = 0 ∧ s.store.rawN (504 + e) = 0) →
    s.store.rawN 512 = 0 →
    ∃ u, exec (.otpCmdDone t [] 0) s = .next u ∧ LeavesChip t [.otp, .ev, .sec] ({R.OTP_RESULT.addr, F.OTP_STAT_BUSY.addr, F.OTP_WEAKMASK_MASK.addr, F.SEC_KEYS_REVOKED.addr, R.SEC_ROLL.addr} ∪ {F.OTP_SPARE_USED.addr}) s u ∧ u.store.physical k.row = 512 ∧
      u.store.rowN k.row = s.store.rowN k.row ||| (s.chip.word R.OTP_WDATA.addr).toNat ∧ bitAt (u.chip.get F.OTP_SPARE_USED) 0 = true ∧ u.chip.word R.OTP_RESULT.addr = BitVec.ofNat 32 (2 ^ 31 + 0 * 256 + 0)) ∧
  (∀ (t tgt : Nat) (k : OtpCmd) (s : State), s.chip.up 1 = true → s.chip.otp.cmd = some k → s.chip.fw.tcWait = [] → k.op = 6 → s.chip.otp.abort = false → s.chip.vppMissing = false → tgt = k.row % 8 →
    s.chip.lcPrecond s.store s.store.lcState.1 tgt = some true →
    ∃ u, exec (.otpCmdDone t [] 0) s = .next u ∧ LeavesChip t [.otp, .ev, .sec, .mem] ({R.OTP_RESULT.addr, F.OTP_STAT_BUSY.addr, F.OTP_WEAKMASK_MASK.addr, F.SEC_KEYS_REVOKED.addr, R.SEC_ROLL.addr} ∪ {F.SEC_LC_FUSED.addr, F.MEM_GROTTO_STAT_WIPING.addr}) s u ∧
      u.store.rawN (s.store.physical (23 + tgt)) = 2 ^ 32 - 1 ∧ u.chip.get F.SEC_LC_FUSED = u.store.lcState.1 ∧ u.chip.on F.MEM_GROTTO_STAT_WIPING = true ∧ u.chip.mem.wipeCause = 1 ∧
      u.chip.otp.hidden = (s.chip.otp.hidden || tgt == 3 || tgt == 4) ∧ u.chip.word R.OTP_RESULT.addr = BitVec.ofNat 32 (2 ^ 31 + 0 * 256 + 0)) ∧
  (∀ (t : Nat) (k : OtpCmd) (fails : List PulseFail) (pulses : Nat) (s : State), s.chip.up 1 = true → s.chip.otp.cmd = some k → s.chip.fw.tcWait = [] → k.op = 6 →
    s.chip.lcPrecond s.store s.store.lcState.1 (k.row % 8) ≠ some true →
    ∃ u, exec (.otpCmdDone t fails pulses) s = .next u ∧ Leaves t [.otp, .ev] {R.OTP_RESULT.addr, F.OTP_STAT_BUSY.addr} s u ∧
      u.chip.word R.OTP_RESULT.addr = BitVec.ofNat 32 (2 ^ 31 + 0 * 256 + (if s.chip.lcPrecond s.store s.store.lcState.1 (k.row % 8) = none then otpState else otpPrecond))) ∧
  (∀ (t : Nat) (k : OtpCmd) (fails : List PulseFail) (pulses : Nat) (s : State), s.chip.up 1 = true → s.chip.otp.cmd = some k → s.chip.fw.tcWait = [] → k.op = 3 → s.chip.vppMissing = true → s.chip.lcInForce ≠ 4 →
    ∃ u, exec (.otpCmdDone t fails pulses) s = .next u ∧ Leaves t [.otp, .ev] {R.OTP_RESULT.addr, F.OTP_STAT_BUSY.addr} s u ∧ u.chip.word R.OTP_RESULT.addr = BitVec.ofNat 32 (2 ^ 31 + 0 * 256 + otpVppFail)) ∧
  (∀ (t pulses : Nat) (k : OtpCmd) (s : State), s.chip.up 1 = true → s.chip.otp.cmd = some k → s.chip.fw.tcWait = [] → k.op = 3 → s.chip.otp.abort = true → s.chip.vppMissing = false → s.chip.lcInForce ≠ 4 →
    ∃ u, exec (.otpCmdDone t [] pulses) s = .next u ∧ LeavesChip t [.otp, .ev, .sec] {R.OTP_RESULT.addr, F.OTP_STAT_BUSY.addr, F.OTP_WEAKMASK_MASK.addr, F.SEC_KEYS_REVOKED.addr, R.SEC_ROLL.addr} s u ∧ u.store = burnPlan [] s.store (PulsePlan.first pulses [(s.store.physical k.row, s.store.rowN k.row)]) ∧
      u.chip.word R.OTP_RESULT.addr = BitVec.ofNat 32 (2 ^ 31 + 0 * 256 + otpAborted) ∧ u.chip.otp.abort = false) ∧
  (∀ (t : Nat) (fails : List PulseFail) (pulses : Nat) (s : State), s.chip.otp.cmd = none → s.chip.fw.tcWait = [] →
    exec (.otpCmdDone t fails pulses) s = .next { s with chip := s.chip.at t })

/-- Alarms, the watchdog and the denial record (R627 to R630, R634). In SERVICE an alarm is counted and recorded and does what its action bits
say; in START the Grotto is wiped and the boot runs again. The right key restarts the watchdog's period, a wrong one is counted; a period
without a kick resets the device. A read of SEC_DENY_LO latches the other word. The model's own choices in this: entries 17, 126, 145, 160
of the log. -/
def Obligations.SecurityActs : Prop :=
  (∀ (t : Nat) (m : Fin 5) (s : State), s.chip.pwr.off = false → s.chip.up 1 = true → s.chip.get F.SEC_PHASE_PHASE = 1 → bitAt (s.chip.get F.SEC_TMP_ACT_ACT) (4 * m.val + 2) = false →
    ∃ u, exec (.tamper t (2 ^ m.val)) s = .next u ∧ Leaves t [.otp, .ev, .mem, .sent] {F.SEC_TMP_STAT_ALARM.addr, F.SEC_TMP_CNT_COUNT.addr, F.MEM_GROTTO_STAT_WIPING.addr} s u ∧ bitAt (u.chip.get F.SEC_TMP_STAT_ALARM) m = true ∧
      u.chip.get F.SEC_TMP_CNT_COUNT = satNat (F.SEC_TMP_CNT_COUNT.hi + 1 - F.SEC_TMP_CNT_COUNT.lo) (s.chip.get F.SEC_TMP_CNT_COUNT + 1) ∧
      u.chip.on F.MEM_GROTTO_STAT_WIPING = (s.chip.on F.MEM_GROTTO_STAT_WIPING || bitAt (s.chip.get F.SEC_TMP_ACT_ACT) (4 * m.val)) ∧
      u.chip.sent = (if bitAt (s.chip.get F.SEC_TMP_ACT_ACT) (4 * m.val + 1) = true then s.chip.sent ++ [⟨"tcRestart", []⟩] else s.chip.sent) ∧
      u.chip.otp = { s.chip.otp with abort := s.chip.otp.abort || s.chip.otp.cmd.isSome } ∧
      (s.chip.at t).Raised u.chip [(0x1B07, [(1, m.val), (1, s.chip.get F.SEC_TMP_ACT_ACT / 2 ^ (4 * m.val) % 8)])]) ∧
  (∀ (t : Nat) (m : Fin 5) (s : State), s.chip.pwr.off = false → s.chip.up 1 = true → s.chip.get F.SEC_PHASE_PHASE = 1 → bitAt (s.chip.get F.SEC_TMP_ACT_ACT) (4 * m.val + 2) = true →
    ∃ u, exec (.tamper t (2 ^ m.val)) s = .next u ∧ u.pending = s.pending ∧ u.store = { s.store with mem := [] } ∧ u.chip.pwr.booting = true ∧ u.chip.otp = {} ∧
      (∀ a : Nat, 0x10020000 ≤ a ∧ a < 0x10200000 ∧ islandOf (blockOf a) ≠ 0 → u.chip.word a = resetWord a)) ∧
  (∀ (t : Nat) (m : Fin 5) (s : State), s.chip.pwr.off = false → s.chip.up 1 = true → s.chip.get F.SEC_PHASE_PHASE = 0 → s.chip.get F.SEC_BOOT_ALARMS < 2 →
    ∃ u, exec (.tamper t (2 ^ m.val)) s = .next u ∧ Leaves t [.otp, .ev, .mem, .pwr] {F.SEC_TMP_STAT_ALARM.addr, F.SEC_TMP_CNT_COUNT.addr, F.MEM_GROTTO_STAT_WIPING.addr, F.SEC_BOOT_ALARMS.addr} s u ∧
      u.chip.get F.SEC_BOOT_ALARMS = s.chip.get F.SEC_BOOT_ALARMS + 1 ∧ u.chip.on F.MEM_GROTTO_STAT_WIPING = true ∧ u.chip.pwr = { s.chip.pwr with booting := true }) ∧
  (∀ (t mask : Nat) (s : State), s.chip.pwr.off = true ∨ s.chip.up 1 = false → exec (.tamper t mask) s = .next { s with chip := s.chip.at t }) ∧
  (∀ (t : Nat) (i : Initiator) (w : Word) (s : State), s.chip.mayWrite i R.SEC_WDOG_KICK.addr → fld F.SEC_WDOG_KICK_KEY w.toNat = 0x5A3C →
    ∃ u, exec (.wdogKick t i w) s = .next u ∧ WriteLeaves t i R.SEC_WDOG_KICK.addr [.otp] ∅ s u ∧ u.chip.otp = { s.chip.otp with kickAt := max s.chip.now t }) ∧
  (∀ (t : Nat) (i : Initiator) (w : Word) (s : State), s.chip.mayWrite i R.SEC_WDOG_KICK.addr → fld F.SEC_WDOG_KICK_KEY w.toNat ≠ 0x5A3C →
    ∃ u, exec (.wdogKick t i w) s = .next u ∧ WriteLeaves t i R.SEC_WDOG_KICK.addr [] {F.SEC_REJ_CNT_COUNT.addr} s u ∧
      u.chip.get F.SEC_REJ_CNT_COUNT = satNat (F.SEC_REJ_CNT_COUNT.hi + 1 - F.SEC_REJ_CNT_COUNT.lo) (s.chip.get F.SEC_REJ_CNT_COUNT + 1)) ∧
  (∀ (t : Nat) (s : State), s.chip.on F.SEC_WDOG_CFG_EN = true → s.chip.up 1 = true → s.chip.sys.tcUp = true → s.chip.pwr.booting = false →
    s.chip.otp.kickAt + ms (s.chip.get F.SEC_WDOG_CFG_PERIOD) ≤ max s.chip.now t →
    ∃ u, exec (.tcWdogExpiry t) s = .next u ∧ u.pending = s.pending ∧ u.store = { s.store with mem := [] } ∧ u.chip.pwr.cause = s.chip.pwr.cause ||| 8 ∧ u.chip.pwr.booting = true ∧
      u.chip.otp = {} ∧ (∀ a : Nat, 0x10020000 ≤ a ∧ a < 0x10200000 ∧ islandOf (blockOf a) ≠ 0 → u.chip.word a = resetWord a)) ∧
  (∀ (t : Nat) (s : State), s.chip.on F.SEC_WDOG_CFG_EN = false ∨ max s.chip.now t < s.chip.otp.kickAt + ms (s.chip.get F.SEC_WDOG_CFG_PERIOD) →
    exec (.tcWdogExpiry t) s = .next { s with chip := s.chip.at t }) ∧
  (∀ (t : Nat) (i : Initiator) (s : State), s.chip.mayRead i R.SEC_DENY_LO.addr →
    ∃ u, exec (.secDenyLoRead t i) s = .next u ∧ ReadLeaves t (s.chip.get F.SEC_DENY_LO_ADDR) [.latch] ∅ s u ∧ u.chip.captured R.SEC_DENY_HI.addr = s.chip.get R.SEC_DENY_HI)

/-- Entering a power state (R505, R550, R552 to R557, R559, R560, R564). A request in Run or above begins prepare and asks the first voter; the
state the device is in, or Idle from deeper, completes at once; one during an entry or a wake is counted. A voter that is ready is followed
by the next; the last one leads to phase 2. A refusal, a passed deadline, a CANCEL or a late commit unwinds the entry and is recorded. A
good commit begins the sequence; its end is the new state, its islands off. The model's own choices in this: entries 154, 156, 157 of the
log. -/
def Obligations.EnteringPowerStates : Prop :=
  (∀ (t : Nat) (i : Initiator) (target : Fin 4) (s : State), s.chip.mayWrite i R.PWR_REQ.addr → s.chip.fw.tcWait = [] → s.chip.pwrPhase = 0 → s.chip.pwr.wake = none →
    target.val ≠ s.chip.pwrState → target ≠ 0 → (target = 1 → s.chip.pwrState ≤ 1) → aonCycle s.chip.pwr.latchAt ≠ aonCycle (max s.chip.now t) →
    ∃ u, exec (.pwrRequest t i target) s = .next u ∧ WriteLeaves t i R.PWR_REQ.addr [.pwr] {F.PWR_STAT_PHASE.addr, F.PWR_WAKE_LATCH_LATCH.addr} s u ∧
      u.chip.pwrPhase = 1 ∧ u.chip.get F.PWR_STAT_TARGET = target ∧ u.chip.get F.PWR_STAT_VOTER = (voterList target).headD 0 ∧ u.chip.pwrState = s.chip.pwrState ∧
      u.chip.get F.PWR_WAKE_LATCH_LATCH = 0 ∧ u.chip.pwr = { s.chip.pwr with prepAt := max s.chip.now t, ready := [], slept := 0, replay := false }) ∧
  (∀ (t : Nat) (i : Initiator) (target : Fin 4) (s : State), s.chip.mayWrite i R.PWR_REQ.addr → s.chip.fw.tcWait = [] → s.chip.pwrPhase = 0 → s.chip.pwr.wake = none →
    target.val = s.chip.pwrState ∨ target = 1 ∧ 1 < s.chip.pwrState →
    ∃ u, exec (.pwrRequest t i target) s = .next u ∧ WriteLeaves t i R.PWR_REQ.addr [] {F.PWR_LAST_RESULT.addr} s u ∧ u.chip.get F.PWR_LAST_RESULT = 0 ∧
      u.chip.get F.PWR_LAST_TARGET = target) ∧
  (∀ (t : Nat) (i : Initiator) (target : Fin 4) (s : State), s.chip.mayWrite i R.PWR_REQ.addr → s.chip.fw.tcWait = [] → s.chip.pwrPhase ≠ 0 ∨ s.chip.pwr.wake.isSome = true →
    ∃ u, exec (.pwrRequest t i target) s = .next u ∧ WriteLeaves t i R.PWR_REQ.addr [] {F.PWR_REJ_CNT_COUNT.addr} s u ∧
      u.chip.get F.PWR_REJ_CNT_COUNT = satNat (F.PWR_REJ_CNT_COUNT.hi + 1 - F.PWR_REJ_CNT_COUNT.lo) (s.chip.get F.PWR_REJ_CNT_COUNT + 1)) ∧
  (∀ (t : Nat) (i : Initiator) (s : State), s.chip.mayWrite i R.PWR_REQ.addr → s.chip.fw.tcWait = [] → s.chip.pwrPhase = 1 ∨ s.chip.pwrPhase = 2 → s.chip.get F.PWR_STAT_VOTER = 0 →
    s.chip.pwr.ready = [] →
    ∃ u, exec (.pwrCancel t i) s = .next u ∧ WriteLeaves t i R.PWR_REQ.addr [.pwr, .ev] {F.PWR_STAT_PHASE.addr, F.PWR_LAST_RESULT.addr, F.PWR_CNT_UNWINDS.addr} s u ∧
      u.chip.pwrPhase = 0 ∧ u.chip.get F.PWR_LAST_RESULT = 4 ∧ u.chip.get F.PWR_LAST_TARGET = s.chip.get F.PWR_STAT_TARGET ∧
      (s.chip.at t).Raised u.chip [(0x0102, [(1, 4), (1, 0), (1, 0)])]) ∧
  (∀ (t : Nat) (i : Initiator) (s : State), s.chip.mayWrite i R.PWR_REQ.addr → s.chip.fw.tcWait = [] → s.chip.pwrPhase ≠ 1 → s.chip.pwrPhase ≠ 2 →
    ∃ u, exec (.pwrCancel t i) s = .next u ∧ WriteLeaves t i R.PWR_REQ.addr [] {F.PWR_REJ_CNT_COUNT.addr} s u ∧
      u.chip.get F.PWR_REJ_CNT_COUNT = satNat (F.PWR_REJ_CNT_COUNT.hi + 1 - F.PWR_REJ_CNT_COUNT.lo) (s.chip.get F.PWR_REJ_CNT_COUNT + 1)) ∧
  (∀ (t : Nat) (s : State), s.chip.fw.tcWait = [] → s.chip.pwrState = 0 → s.chip.on F.PWR_CTRL_AUTO_IDLE = true → s.chip.working = false → s.chip.pwr.booting = false →
    s.chip.pwr.activeAt + ms (s.chip.get F.PWR_IDLE_IDLE_MS) ≤ max s.chip.now t → s.chip.pwrPhase = 0 → s.chip.pwr.wake = none →
    ∃ u, exec (.autoIdleEntry t) s = .next u ∧ Leaves t [.pwr] {F.PWR_STAT_PHASE.addr, F.PWR_WAKE_LATCH_LATCH.addr} s u ∧ u.chip.pwrPhase = 1 ∧
      u.chip.get F.PWR_STAT_TARGET = 1 ∧ u.chip.get F.PWR_STAT_VOTER = 4) ∧
  (∀ (t : Nat) (s : State), s.chip.pwrState ≠ 0 ∨ s.chip.on F.PWR_CTRL_AUTO_IDLE = false ∨ s.chip.working = true ∨ max s.chip.now t < s.chip.pwr.activeAt + ms (s.chip.get F.PWR_IDLE_IDLE_MS) →
    exec (.autoIdleEntry t) s = .next { s with chip := s.chip.at t }) ∧
  (∀ (t : Nat) (s : State), s.chip.fw.tcWait = [] → s.chip.pwrState = 1 → s.chip.on F.PWR_CTRL_AUTO_SLEEP = true → s.chip.working = false → s.chip.pwr.booting = false →
    s.chip.pwr.activeAt + ms (1000 * s.chip.get F.PWR_IDLE_SLEEP_S) ≤ max s.chip.now t → s.chip.pwrPhase = 0 → s.chip.pwr.wake = none →
    ∃ u, exec (.autoSleepEntry t) s = .next u ∧ Leaves t [.pwr] {F.PWR_STAT_PHASE.addr, F.PWR_WAKE_LATCH_LATCH.addr} s u ∧ u.chip.pwrPhase = 1 ∧
      u.chip.get F.PWR_STAT_TARGET = 2 ∧ u.chip.get F.PWR_STAT_VOTER = 1) ∧
  (∀ (t v n : Nat) (r : List Nat) (ok : Bool) (s : State), s.chip.fw.tcWait = [] → s.chip.pwrPhase = 1 → v = s.chip.get F.PWR_STAT_VOTER → v ≠ 0 → v < 9 ∨ v = 17 ∨ v = 21 →
    aonCycle (max s.chip.now t) ≤ aonCycle (s.chip.pwr.prepAt + us (s.chip.get F.PWR_PREP_TO)) → s.chip.voterReason v (s.chip.get F.PWR_STAT_TARGET) ok = 0 →
    (voterList (s.chip.get F.PWR_STAT_TARGET)).filter (fun w => decide (v < w)) = n :: r → n < 32 →
    ∃ u, exec (.voterAnswer t ok) s = .next u ∧ Leaves t [.pwr] {F.PWR_STAT_PHASE.addr} s u ∧ u.chip.get F.PWR_STAT_VOTER = n ∧ u.chip.pwrPhase = 1 ∧
      u.chip.pwr = { s.chip.pwr with ready := v :: s.chip.pwr.ready }) ∧
  (∀ (t v : Nat) (ok : Bool) (s : State), s.chip.fw.tcWait = [] → s.chip.pwrPhase = 1 → v = s.chip.get F.PWR_STAT_VOTER → v = 17 ∨ v = 21 →
    aonCycle (max s.chip.now t) ≤ aonCycle (s.chip.pwr.prepAt + us (s.chip.get F.PWR_PREP_TO)) → s.chip.voterReason v (s.chip.get F.PWR_STAT_TARGET) ok = 0 →
    (voterList (s.chip.get F.PWR_STAT_TARGET)).filter (fun w => decide (v < w)) = [] →
    ∃ u, exec (.voterAnswer t ok) s = .next u ∧ Leaves t [.pwr, .sent] {F.PWR_STAT_PHASE.addr} s u ∧ u.chip.get F.PWR_STAT_VOTER = 0 ∧ u.chip.pwrPhase = 2 ∧
      u.chip.pwr = { s.chip.pwr with ready := v :: s.chip.pwr.ready, phase2At := max s.chip.now t } ∧
      u.chip.sent = s.chip.sent ++ [⟨"pwrPhase2", [s.chip.get F.PWR_STAT_TARGET]⟩]) ∧
  (∀ (t v r : Nat) (ok : Bool) (s : State), s.chip.fw.tcWait = [] → s.chip.pwrPhase = 1 → v = s.chip.get F.PWR_STAT_VOTER → v ≠ 0 → v < 9 ∨ v = 17 ∨ v = 21 →
    aonCycle (max s.chip.now t) ≤ aonCycle (s.chip.pwr.prepAt + us (s.chip.get F.PWR_PREP_TO)) → r = s.chip.voterReason v (s.chip.get F.PWR_STAT_TARGET) ok → r ≠ 0 →
    s.chip.pwr.ready = [] →
    ∃ u, exec (.voterAnswer t ok) s = .next u ∧ Leaves t [.pwr, .ev] {F.PWR_STAT_PHASE.addr, F.PWR_LAST_RESULT.addr, F.PWR_CNT_UNWINDS.addr} s u ∧ u.chip.pwrPhase = 0 ∧
      u.chip.get F.PWR_LAST_RESULT = 1 ∧ u.chip.get F.PWR_LAST_VOTER = v ∧ u.chip.get F.PWR_LAST_REASON = r ∧
      u.chip.get F.PWR_CNT_UNWINDS = satNat (F.PWR_CNT_UNWINDS.hi + 1 - F.PWR_CNT_UNWINDS.lo) (s.chip.get F.PWR_CNT_UNWINDS + 1) ∧
      (s.chip.at t).Raised u.chip [(0x0102, [(1, 1), (1, v), (1, r)])]) ∧
  (∀ (t v : Nat) (s : State), s.chip.fw.tcWait = [] → s.chip.pwrPhase = 1 → v = s.chip.get F.PWR_STAT_VOTER → v < 9 ∨ v = 17 ∨ v = 21 →
    s.chip.pwr.prepAt + us (s.chip.get F.PWR_PREP_TO) ≤ max s.chip.now t → s.chip.pwr.ready = [] →
    ∃ u, exec (.prepareTimeout t) s = .next u ∧ Leaves t [.pwr, .ev] {F.PWR_STAT_PHASE.addr, F.PWR_LAST_RESULT.addr, F.PWR_CNT_UNWINDS.addr} s u ∧ u.chip.pwrPhase = 0 ∧
      u.chip.get F.PWR_LAST_RESULT = 2 ∧ u.chip.get F.PWR_LAST_VOTER = v ∧ (s.chip.at t).Raised u.chip [(0x0102, [(1, 2), (1, v), (1, 0)])]) ∧
  (∀ (t : Nat) (i : Initiator) (w : Word) (s : State), s.chip.mayWrite i R.PWR_COMMIT.addr → s.chip.fw.tcWait = [] → s.chip.pwrPhase = 2 → w.toNat / 65536 = 0x5A3C →
    w.toNat % 4 = s.chip.get F.PWR_STAT_TARGET → aonCycle (max s.chip.now t) ≤ aonCycle (s.chip.pwr.phase2At + us (s.chip.get F.PWR_PREP_TO)) →
    s.chip.get F.PWR_WAKE_LATCH_LATCH &&& s.chip.get F.PWR_WAKE_EN_EN = 0 →
    ∃ u, exec (.pwrCommit t i w) s = .next u ∧ WriteLeaves t i R.PWR_COMMIT.addr [.pwr] {F.PWR_STAT_PHASE.addr} s u ∧ u.chip.pwrPhase = 3 ∧
      u.chip.pwr = { s.chip.pwr with commitAt := max s.chip.now t, timerDone := false }) ∧
  (∀ (t : Nat) (i : Initiator) (w : Word) (s : State), s.chip.mayWrite i R.PWR_COMMIT.addr → s.chip.fw.tcWait = [] → s.chip.pwrPhase ≠ 2 ∨ w.toNat / 65536 ≠ 0x5A3C ∨
      w.toNat % 4 ≠ s.chip.get F.PWR_STAT_TARGET →
    ∃ u, exec (.pwrCommit t i w) s = .next u ∧ WriteLeaves t i R.PWR_COMMIT.addr [] {F.PWR_REJ_CNT_COUNT.addr} s u ∧
      u.chip.get F.PWR_REJ_CNT_COUNT = satNat (F.PWR_REJ_CNT_COUNT.hi + 1 - F.PWR_REJ_CNT_COUNT.lo) (s.chip.get F.PWR_REJ_CNT_COUNT + 1)) ∧
  (∀ (t : Nat) (s : State), s.chip.fw.tcWait = [] → s.chip.pwrPhase = 2 → s.chip.get F.PWR_STAT_VOTER = 0 → s.chip.pwr.phase2At + us (s.chip.get F.PWR_PREP_TO) ≤ max s.chip.now t →
    s.chip.pwr.ready = [] →
    ∃ u, exec (.commitTimeout t) s = .next u ∧ Leaves t [.pwr, .ev] {F.PWR_STAT_PHASE.addr, F.PWR_LAST_RESULT.addr, F.PWR_CNT_UNWINDS.addr} s u ∧ u.chip.pwrPhase = 0 ∧
      u.chip.get F.PWR_LAST_RESULT = 5 ∧ (s.chip.at t).Raised u.chip [(0x0102, [(1, 5), (1, 0), (1, 0)])]) ∧
  (∀ (t : Nat) (s : State), s.chip.fw.tcWait = [] → s.chip.pwrPhase = 3 → s.chip.get F.PWR_STAT_TARGET = 1 → s.chip.pwr.replay = false →
    ∃ u, exec (.pwrEnter t) s = .next u ∧ Leaves t [.pwr, .ev] {F.PWR_STAT_PHASE.addr, F.PWR_LAST_RESULT.addr, F.PWR_CNT_ENTRIES.addr} s u ∧ u.chip.pwrState = 1 ∧
      u.chip.pwrPhase = 0 ∧ u.chip.get F.PWR_LAST_RESULT = 0 ∧
      u.chip.get F.PWR_CNT_ENTRIES = satNat (F.PWR_CNT_ENTRIES.hi + 1 - F.PWR_CNT_ENTRIES.lo) (s.chip.get F.PWR_CNT_ENTRIES + 1) ∧
      (s.chip.at t).Raised u.chip [(0x0101, [(1, 1)])]) ∧
  (∀ (t : Nat) (s : State), s.chip.fw.tcWait = [] → s.chip.pwrPhase = 3 → s.chip.get F.PWR_STAT_TARGET = 2 → s.chip.pwr.replay = false →
    ∃ u, exec (.pwrEnter t) s = .next u ∧ u.pending = s.pending ∧ u.store = s.store ∧ u.chip.pwrState = 2 ∧ u.chip.pwrPhase = 0 ∧ u.chip.get F.MEM_RET_STAT_READY = 0 ∧
      (∀ k, k < 16 → k ∈ [2, 5, 6, 8, 9, 10, 11, 12, 13, 14, 15] → u.chip.up k = false) ∧ (∀ k, k < 16 → k ∉ [2, 5, 6, 8, 9, 10, 11, 12, 13, 14, 15] → u.chip.up k = s.chip.up k) ∧
      (∀ g, g < 9 → bitAt (u.chip.get F.PAD_HOLD_HELD) g = true) ∧ u.chip.on F.DDR_STAT_READY = false ∧ u.chip.on F.DDR_STAT_SR = s.chip.mem.trained) ∧
  (∀ (t : Nat) (s : State), s.chip.fw.tcWait = [] → s.chip.pwrPhase = 3 → s.chip.get F.PWR_STAT_TARGET = 3 → s.chip.pwr.replay = false →
    ∃ u, exec (.pwrEnter t) s = .next u ∧ u.pending = s.pending ∧ u.chip.pwrState = 3 ∧ u.chip.pwrPhase = 0 ∧ u.chip.up 0 = s.chip.up 0 ∧ (∀ k, k < 16 → 1 ≤ k → u.chip.up k = false) ∧
      (∀ g, g < 13 → bitAt (u.chip.get F.PAD_HOLD_HELD) g = true) ∧ u.chip.get F.EVR_WR_WR = s.chip.get F.EVR_WR_WR ∧
      u.chip.get F.MEM_RET_TAKEN_TAKEN = s.chip.get F.MEM_RET_TAKEN_TAKEN ∧ u.chip.get F.OTP_FEAT_IN_FORCE = s.chip.get F.OTP_FEAT_IN_FORCE ∧ u.chip.ev.hold = s.chip.ev.hold ∧
      u.chip.mem.trained = (s.chip.mem.trained && s.chip.on F.DDR_PWR_SR_DEEP))

/-- Waking up (R551, R559, R561 to R563, R565 to R568). A source that is enabled and may wake begins a wake; one that is not enabled is latched
only; one after the commit's cycle is replayed. The wake timer counts from the last commit. A wake goes through its stages; from Idle its
only stage ends it, with cause and record. Released pads are free; a release that may not be is counted and recorded. A brown-out sets its
cause and resets the device, fuses and flash apart. The model's own choices in this: entries 20, 156, 158, 159 of the log. -/
def Obligations.WakingUp : Prop :=
  (∀ (t : Nat) (src : Fin 8) (s : State), s.chip.fw.tcWait = [] → s.chip.pwr.off = false → s.chip.thm.tripped = false → s.chip.pwrPhase = 0 → s.chip.pwrState ≠ 0 →
    bitAt (wakeFrom s.chip.pwrState) src = true → bitAt (s.chip.get F.PWR_WAKE_EN_EN) src = true → s.chip.pwr.wake = none →
    ∃ u, exec (.wakeSourceLatch t src) s = .next u ∧ Leaves t [.pwr] {F.PWR_WAKE_LATCH_LATCH.addr} s u ∧ bitAt (u.chip.get F.PWR_WAKE_LATCH_LATCH) src = true ∧
      u.chip.pwr.wake = some ⟨if s.chip.pwrState = 1 then 4 else 0, max s.chip.now t, s.chip.pwrState, 2 ^ src.val, false⟩) ∧
  (∀ (t : Nat) (src : Fin 8) (s : State), s.chip.fw.tcWait = [] → s.chip.pwr.off = false → s.chip.thm.tripped = false → src < 6 → bitAt (s.chip.get F.PWR_WAKE_EN_EN) src = false →
    ∃ u, exec (.wakeSourceLatch t src) s = .next u ∧ Leaves t [.pwr] {F.PWR_WAKE_LATCH_LATCH.addr} s u ∧ bitAt (u.chip.get F.PWR_WAKE_LATCH_LATCH) src = true ∧
      u.chip.pwr.wake = s.chip.pwr.wake ∧ u.chip.pwr.replay = s.chip.pwr.replay) ∧
  (∀ (t : Nat) (src : Fin 8) (s : State), s.chip.fw.tcWait = [] → s.chip.pwr.off = false → s.chip.thm.tripped = false → src < 6 → bitAt (s.chip.get F.PWR_WAKE_EN_EN) src = true →
    s.chip.pwrPhase = 3 → aonCycle s.chip.pwr.commitAt < aonCycle (max s.chip.now t) →
    ∃ u, exec (.wakeSourceLatch t src) s = .next u ∧ Leaves t [.pwr] {F.PWR_WAKE_LATCH_LATCH.addr} s u ∧ u.chip.pwr.replay = true ∧ u.chip.pwr.wake = s.chip.pwr.wake) ∧
  (∀ (t : Nat) (src : Fin 8) (s : State), s.chip.fw.tcWait = [] → s.chip.pwr.off = true ∨ s.chip.thm.tripped = true →
    exec (.wakeSourceLatch t src) s = .next { s with chip := s.chip.at t }) ∧
  (∀ (t : Nat) (s : State), s.chip.fw.tcWait = [] → s.chip.pwr.off = false → s.chip.thm.tripped = false → s.chip.pwrPhase = 0 → s.chip.pwrState = 2 ∨ s.chip.pwrState = 3 →
    bitAt (s.chip.get F.PWR_WAKE_EN_EN) 0 = true → s.chip.pwr.wake = none → s.chip.get F.PWR_WAKE_TMR_TICKS ≠ 0 → s.chip.pwr.timerDone = false →
    s.chip.pwr.commitAt * 32768 + s.chip.get F.PWR_WAKE_TMR_TICKS * ms 1000 ≤ max s.chip.now t * 32768 →
    ∃ u, exec (.wakeTimerExpiry t) s = .next u ∧ Leaves t [.pwr] {F.PWR_WAKE_LATCH_LATCH.addr} s u ∧ u.chip.pwr.timerDone = true ∧
      u.chip.pwr.wake = some ⟨0, max s.chip.now t, s.chip.pwrState, 1, false⟩) ∧
  (∀ (t : Nat) (s : State), s.chip.fw.tcWait = [] → s.chip.get F.PWR_WAKE_TMR_TICKS = 0 ∨ s.chip.pwr.timerDone = true → exec (.wakeTimerExpiry t) s = .next { s with chip := s.chip.at t }) ∧
  (∀ (t : Nat) (i : Initiator) (s : State), s.chip.mayWrite i R.PWR_WAKE_SW.addr → s.chip.pwr.off = false → s.chip.thm.tripped = false → s.chip.pwrPhase = 0 → s.chip.pwrState = 1 ∨ s.chip.pwrState = 2 →
    bitAt (s.chip.get F.PWR_WAKE_EN_EN) 6 = true → s.chip.pwr.wake = none →
    ∃ u, exec (.wakeSwWrite t i) s = .next u ∧ WriteLeaves t i R.PWR_WAKE_SW.addr [.pwr] {F.PWR_WAKE_LATCH_LATCH.addr} s u ∧ bitAt (u.chip.get F.PWR_WAKE_LATCH_LATCH) 6 = true ∧
      u.chip.pwr.wake = some ⟨if s.chip.pwrState = 1 then 4 else 0, max s.chip.now t, s.chip.pwrState, 64, false⟩) ∧
  (∀ (t : Nat) (env : BootEnv) (w : Wake) (s : State), s.chip.fw.tcWait = [] → s.chip.pwr.wake = some w → w.stage = 0 →
    ∃ u, exec (.wakeStageReady t env) s = .next u ∧ Leaves t [.pwr] ∅ s u ∧ u.chip.pwr = { s.chip.pwr with wake := some { w with stage := 1 } }) ∧
  (∀ (t : Nat) (env : BootEnv) (w : Wake) (s : State), s.chip.fw.tcWait = [] → s.chip.pwr.wake = some w → w.stage = 2 →
    ∃ u, exec (.wakeStageReady t env) s = .next u ∧ Leaves t [.pwr] {R.SYS_CLK_STAT.addr} s u ∧ u.chip.get R.SYS_CLK_STAT = 7 ∧
      u.chip.pwr = { s.chip.pwr with wake := some { w with stage := 3 } }) ∧
  (∀ (t : Nat) (env : BootEnv) (w : Wake) (s : State), s.chip.fw.tcWait = [] → s.chip.pwr.wake = some w → w.stage = 4 → w.left = 1 → w.src < 256 →
    ∃ u, exec (.wakeStageReady t env) s = .next u ∧ Leaves t [.pwr, .ev] {F.PWR_STAT_STATE.addr, F.PWR_WAKE_CAUSE_SRC.addr} s u ∧ u.chip.pwrState = 0 ∧
      u.chip.get F.PWR_WAKE_CAUSE_SRC = w.src ∧ u.chip.get F.PWR_WAKE_CAUSE_FROM = 1 ∧ u.chip.get F.PWR_WAKE_CAUSE_TIME = satNat 16 ((max s.chip.now t - w.start) / us 1) ∧
      u.chip.pwr = { s.chip.pwr with wake := none, activeAt := max s.chip.now t } ∧
      (s.chip.at t).Raised u.chip [(0x0103, [(1, w.src), (1, 1), (1, bit w.replay), (2, satNat 16 ((max s.chip.now t - w.start) / us 1))])]) ∧
  (∀ (t : Nat) (env : BootEnv) (w : Wake) (s : State), s.chip.fw.tcWait = [] → s.chip.pwr.wake = some w → w.stage = 4 → w.left = 2 →
    ∃ u, exec (.wakeStageReady t env) s = .next u ∧ u.pending = s.pending ∧ u.store = s.store ∧ u.chip.pwrState = 0 ∧ u.chip.pwr.wake = none ∧ (∀ k, k < 16 → u.chip.up k = true) ∧
      (∀ k, k < 16 → u.chip.timeValid k = true) ∧ u.chip.sys.fwUp = s.chip.pwr.fwWas ∧ u.chip.get F.PWR_WAKE_CAUSE_FROM = 2) ∧
  (∀ (t : Nat) (env : BootEnv) (s : State), s.chip.fw.tcWait = [] → s.chip.pwr.wake = none → exec (.wakeStageReady t env) s = .next { s with chip := s.chip.at t }) ∧
  (∀ (t : Nat) (i : Initiator) (w : Word) (s : State), s.chip.mayWrite i R.PAD_HOLD_REL.addr → w.toNat % 2 ^ 13 = 2 ^ 8 → bitAt (s.chip.get F.PAD_HOLD_HELD) 8 = true → s.chip.up 6 = true →
    ∃ u, exec (.padRelease t i w) s = .next u ∧ WriteLeaves t i R.PAD_HOLD_REL.addr [] {F.PAD_HOLD_HELD.addr} s u ∧
      u.chip.get F.PAD_HOLD_HELD = putBit (s.chip.get F.PAD_HOLD_HELD) 8 false) ∧
  (∀ (t : Nat) (i : Initiator) (g : Fin 13) (w : Word) (s : State), s.chip.mayWrite i R.PAD_HOLD_REL.addr → w.toNat % 2 ^ 13 = 2 ^ g.val →
    bitAt (s.chip.get F.PAD_HOLD_HELD) g = false ∨ s.chip.up (padIsland g) = false →
    ∃ u, exec (.padRelease t i w) s = .next u ∧ WriteLeaves t i R.PAD_HOLD_REL.addr [.ev] {F.PAD_REJ_CNT_COUNT.addr} s u ∧
      u.chip.get F.PAD_REJ_CNT_COUNT = satNat (F.PAD_REJ_CNT_COUNT.hi + 1 - F.PAD_REJ_CNT_COUNT.lo) (s.chip.get F.PAD_REJ_CNT_COUNT + 1) ∧
      (s.chip.at t).Raised u.chip [(0x1D01, [(1, g.val)])]) ∧
  (∀ (t isl : Nat) (fails : List PulseFail) (pulses : Nat) (s : State), s.chip.pwr.off = false → s.chip.pwr.resetLow = false → s.chip.thm.tripped = false → s.chip.otp.cmd = none →
    ∃ u, exec (.brownout t 1 isl fails pulses) s = .next u ∧ u.pending = s.pending ∧ u.store = { s.store with mem := [] } ∧ u.chip.now = max s.chip.now t ∧
      u.chip.pwr.cause = s.chip.pwr.cause ||| 2 ∧ u.chip.pwr.booting = true ∧ bitAt (u.chip.get R.PWR_AON_CAUSE) 0 = true ∧
      (∀ k, k < 16 → 1 ≤ k → u.chip.up k = false) ∧ (∀ a : Nat, 0x10020000 ≤ a ∧ a < 0x10200000 ∧ islandOf (blockOf a) ≠ 0 → u.chip.word a = resetWord a)) ∧
  (∀ (t causes isl : Nat) (fails : List PulseFail) (pulses : Nat) (s : State), s.chip.pwr.off = true → exec (.brownout t causes isl fails pulses) s = .next { s with chip := s.chip.at t })

/-- The die's temperature (R581 to R583, R586, R589 to R591). A sample takes the corrected readings, the rises of the zones and the ground they
share; a reading outside its range excludes its sensor. Off takes none. A trip that is due resets the device, pulls TRIP_L and shows its
source; the device restarts when it has cooled. A sensor is admitted again. The model's own choices in this: entries 20, 112, 113, 114, 115,
116 of the log. -/
def Obligations.DieTemperature : Prop :=
  (∀ (t vin : Nat) (r0 r1 r2 r3 : Int) (cur : List Nat) (m : Chip) (s : State), s.chip.pwr.off = false → s.chip.calBusy = false → s.chip.fw.calCmd = none → vin < 4096 → s.chip.thm.readmit = 0 →
    m = { s.chip.at t with pwr := { s.chip.pwr with cur := Vector.ofFn (fun (i : Fin 16) => cur.getD i.val 0) } } →
    -880 ≤ r0 ∧ r0 ≤ 2400 → -880 ≤ r1 ∧ r1 ≤ 2400 → -880 ≤ r2 ∧ r2 ≤ 2400 → -880 ≤ r3 ∧ r3 ≤ 2400 → s.chip.ldl.grants = [] → s.chip.ldl.asks = [] →
    ∃ u, exec (.thmSample t [r0, r1, r2, r3] cur vin) s = .next u ∧ Leaves t [.thm, .pwr, .ev, .ldl] (blockRegsSet 0x07 ∪ blockRegsSet 0x08 ∪ {F.PWR_VIN_MV.addr}) s u ∧
      u.chip.get F.PWR_VIN_MV = vin ∧ u.chip.pwr = m.pwr ∧ u.chip.thm.rise = m.riseNext ∧ u.chip.thm.readmit = 0 ∧
      (∀ d : Fin 4, u.chip.thm.temp[d] = [r0, r1, r2, r3].getD d.val 0 + signed 8 (s.chip.get F.THM_OFS_OFS d)) ∧
      u.chip.thm.base = ({ m with thm := { s.chip.thm with temp := u.chip.thm.temp, rise := u.chip.thm.rise } }.meanGround s.chip.validSensors).getD s.chip.thm.base ∧
      (∀ d : Fin 4, u.chip.get F.THM_SENS_T d = unsigned 16 u.chip.thm.temp[d]) ∧ (∀ z : Fin 9, u.chip.get F.THM_ZONE_T z = tempBits (u.chip.thm.base + u.chip.thm.rise[z]))) ∧
  (∀ (t vin : Nat) (d : Fin 4) (raw : List Int) (cur : List Nat) (s : State), s.chip.pwr.off = false → raw.getD d.val 0 < -880 ∨ 2400 < raw.getD d.val 0 → s.chip.sensorValid d = true →
    ∃ u, exec (.thmSample t raw cur vin) s = .next u ∧ u.pending = s.pending ∧ u.store = s.store ∧ u.chip.sensorValid d = false ∧ bitAt (u.chip.get F.THM_STAT_EXCL) d = true ∧
      u.chip.on F.THM_SENS_RANGE d = true) ∧
  (∀ (t vin : Nat) (raw : List Int) (cur : List Nat) (s : State), s.chip.pwr.off = true → exec (.thmSample t raw cur vin) s = .next { s with chip := s.chip.at t }) ∧
  (∀ (t src : Nat) (temp : Int) (s : State), s.chip.pwr.off = false → s.chip.thm.tripDue = some (src, temp) → src < 16 →
    ∃ u, exec (.hardwareTrip t) s = .next u ∧ u.pending = s.pending ∧ u.store = { s.store with mem := [] } ∧ u.chip.get F.THM_TRIP_SRC = src ∧
      u.chip.get F.THM_TRIP_T = unsigned 16 temp ∧ u.chip.get F.THM_TRIP_COUNT = satNat (F.THM_TRIP_COUNT.hi + 1 - F.THM_TRIP_COUNT.lo) (s.chip.get F.THM_TRIP_COUNT + 1) ∧
      u.chip.on F.THM_STAT_TRIP_SEEN = true ∧ u.chip.thm = { s.chip.thm with tripDue := none, tripped := true, coolAt := none } ∧
      u.chip.sent = s.chip.sent ++ [⟨"tripL", [0]⟩] ∧ (∀ k, k < 16 → 1 ≤ k → u.chip.up k = false) ∧ u.chip.pwr.booting = true) ∧
  (∀ (t : Nat) (s : State), s.chip.thm.tripDue = none → exec (.hardwareTrip t) s = .next { s with chip := s.chip.at t }) ∧
  (∀ (t a : Nat) (s : State), s.chip.thm.tripped = true → s.chip.pwr.resetLow = false → s.chip.thm.coolAt = some a → a + ms 1000 ≤ max s.chip.now t →
    ∃ u, exec (.tripRestart t) s = .next u ∧ Leaves t [.thm, .pwr, .sent] ∅ s u ∧ u.chip.thm = { s.chip.thm with tripped := false, coolAt := none } ∧
      u.chip.pwr = { s.chip.pwr with cause := s.chip.pwr.cause ||| 4 } ∧ u.chip.sent = s.chip.sent ++ [⟨"tripL", [1]⟩]) ∧
  (∀ (t : Nat) (s : State), s.chip.thm.tripped = false ∨ s.chip.thm.coolAt = none → exec (.tripRestart t) s = .next { s with chip := s.chip.at t }) ∧
  (∀ (t : Nat) (i : Initiator) (d : Fin 4) (mask : Fin 16) (s : State), s.chip.mayWrite i R.THM_STAT.addr → mask.val = 2 ^ d.val → bitAt (s.chip.get F.THM_STAT_EXCL) d = true →
    ∃ u, exec (.sensorReadmit t i mask) s = .next u ∧ WriteLeaves t i R.THM_STAT.addr [.thm, .ev] {F.THM_STAT_EXCL.addr, F.THM_SENS_RANGE.at d 0} s u ∧
      bitAt (u.chip.get F.THM_STAT_EXCL) d = false ∧ u.chip.on F.THM_SENS_RANGE d = false ∧ u.chip.get F.THM_SENS_DIS d = 0 ∧
      u.chip.thm = { s.chip.thm with readmit := s.chip.thm.readmit ||| 2 ^ d.val, dis := s.chip.thm.dis.set d 0 } ∧ (s.chip.at t).Raised u.chip [(0x0702, [])])

/-- Scratchpad and Grotto (R495, R499 to R503, R506, R508 to R511). A served read answers the bytes, a served write stores them alone; a set or
clear alias changes the bits of its word that are 1. Ownership refuses with its violation recorded; a bank that is not ready makes the
access wait; a write that loses its cycle stores nothing and is counted. An owner is changed by TC, the owner, or anyone of an open bank.
The right key starts a wipe; its end leaves the Grotto zero. The model's own choices in this: entry 29 of the log. -/
def Obligations.ScratchpadActs : Prop :=
  (∀ (t addr n : Nat) (i : Initiator) (others : List WordWrite) (s : State), s.chip.up 4 = true → isProcessor i = true → addr + n ≤ 0x100000 → n = 1 ∨ n = 2 ∨ n = 4 → addr % n = 0 →
    s.chip.bankAllows i (bankOf addr) false = true → s.chip.bankReady (bankOf addr) = true →
    ∃ u, exec (.scratchpadAccess t i addr (.read n) others .clean 0) s = .next u ∧ Leaves t [.answer, .sent] ∅ s u ∧
      u.chip.answer = .data (BitVec.ofNat 32 (leNat (s.store.read addr n))) ∧ u.chip.sent = s.chip.sent ++ [⟨"memRead", (s.store.read addr n).map BitVec.toNat⟩]) ∧
  (∀ (t addr : Nat) (i : Initiator) (l : List Byte) (s : State), s.chip.up 4 = true → isProcessor i = true → addr + l.length ≤ 0x100000 → l.length = 1 ∨ l.length = 2 ∨ l.length = 4 →
    addr % l.length = 0 → s.chip.bankAllows i (bankOf addr) true = true → s.chip.bankReady (bankOf addr) = true →
    ∃ u, exec (.scratchpadAccess t i addr (.write l) [] .clean 0) s = .next u ∧ LeavesChip t [.answer] ∅ s u ∧ u.chip.answer = .done ∧ u.store = { s.store with mem := u.store.mem } ∧
      u.store.read addr l.length = l ∧ (∀ a : Nat, a < addr ∨ addr + l.length ≤ a → u.store.read a 1 = s.store.read a 1)) ∧
  (∀ (t : Nat) (i : Initiator) (addr : Fin 0x100000) (l : List Byte) (wait : Nat) (s : State), s.chip.up 4 = true → isProcessor i = true → addr.val % 4 = 0 → l.length = 4 →
    s.chip.bankAllows i (bankOf addr.val) true = true → s.chip.bankReady (bankOf addr.val) = true →
    ∃ u, exec (.bitSetAliasWrite t i addr l [] .clean wait) s = .next u ∧ LeavesChip t [.answer] ∅ s u ∧ u.chip.answer = .done ∧ u.store = { s.store with mem := u.store.mem } ∧
      leNat (u.store.read addr.val 4) = leNat (s.store.read addr.val 4) ||| leNat l ∧ (∀ a : Nat, a < addr.val ∨ addr.val + 4 ≤ a → u.store.read a 1 = s.store.read a 1)) ∧
  (∀ (t : Nat) (i : Initiator) (addr : Fin 0x100000) (l : List Byte) (wait : Nat) (s : State), s.chip.up 4 = true → isProcessor i = true → addr.val % 4 = 0 → l.length = 4 →
    s.chip.bankAllows i (bankOf addr.val) true = true → s.chip.bankReady (bankOf addr.val) = true →
    ∃ u, exec (.bitClearAliasWrite t i addr l [] .clean wait) s = .next u ∧ LeavesChip t [.answer] ∅ s u ∧ u.chip.answer = .done ∧ u.store = { s.store with mem := u.store.mem } ∧
      (∀ b, b < 32 → bitAt (leNat (u.store.read addr.val 4)) b = (bitAt (leNat (s.store.read addr.val 4)) b && !bitAt (leNat l) b)) ∧
      (∀ a : Nat, a < addr.val ∨ addr.val + 4 ≤ a → u.store.read a 1 = s.store.read a 1)) ∧
  (∀ (t addr n : Nat) (i : Initiator) (others : List WordWrite) (wait : Nat) (s : State), s.chip.up 4 = true → isProcessor i = true → addr < 0x100000 → n = 1 ∨ n = 2 ∨ n = 4 → addr % n = 0 →
    s.chip.bankAllows i (bankOf addr) false = false →
    ∃ u, exec (.scratchpadAccess t i addr (.read n) others .clean wait) s = .next u ∧ Leaves t [.answer, .ev] {F.MEM_STAT_OWN_VIOL.addr} s u ∧ u.chip.answer = .busError ∧
      u.chip.on F.MEM_STAT_OWN_VIOL = true ∧ (s.chip.at t).Raised u.chip [(0x0602, [(1, initNo i), (5, addr)])]) ∧
  (∀ (t addr n : Nat) (i : Initiator) (others : List WordWrite) (wait : Nat) (s : State), s.chip.up 4 = true → isProcessor i = true → addr < 0x100000 → n = 1 ∨ n = 2 ∨ n = 4 → addr % n = 0 →
    s.chip.bankAllows i (bankOf addr) false = true → s.chip.bankReady (bankOf addr) = false →
    ∃ u, exec (.scratchpadAccess t i addr (.read n) others .clean wait) s = .next u ∧ Leaves t [.answer, .mem] ∅ s u ∧ u.chip.answer = .waits ∧
      u.chip.mem = { s.chip.mem with waiting := s.chip.mem.waiting ++ [⟨i, addr, .read n⟩] }) ∧
  (∀ (t addr : Nat) (i : Initiator) (l m : List Byte) (s : State), s.chip.up 4 = true → isProcessor i = true → i ≠ .tc → l.length = 4 → m.length = 4 → addr % 4 = 0 → addr < 0x100000 →
    s.chip.bankAllows i (bankOf addr) true = true → s.chip.bankReady (bankOf addr) = true →
    ∃ u, exec (.scratchpadAccess t i addr (.write l) [⟨.tc, .plain, addr, 15, leNat m⟩] .clean 0) s = .next u ∧
      Leaves t [.answer, .ev] {F.MEM_WLOST_CNT_COUNT.addr, F.MEM_STAT_WLOST.addr, F.MEM_WLOST_INFO_LOSER.addr} s u ∧ u.chip.answer = .wlost ∧
      u.chip.get F.MEM_WLOST_CNT_COUNT = satNat (F.MEM_WLOST_CNT_COUNT.hi + 1 - F.MEM_WLOST_CNT_COUNT.lo) (s.chip.get F.MEM_WLOST_CNT_COUNT + 1) ∧
      u.chip.get F.MEM_WLOST_INFO_LOSER = initNo i ∧ u.chip.get F.MEM_WLOST_INFO_ADDR = addr / 4 ∧ (s.chip.at t).Raised u.chip [(0x0601, [(1, initNo i), (5, addr)])]) ∧
  (∀ (t : Nat) (i : Initiator) (b : Fin 16) (w : Word) (s : State), s.chip.mayWrite i (R.MEM_OWN.at b 0) → s.chip.ownerWriteTakes i b = true → fld F.MEM_OWN_OWNER w.toNat ≠ 6 → s.chip.switchState = 0 → s.chip.calBusy = false →
    ∃ u, exec (.bankOwnerWrite t i b w) s = .next u ∧ WriteLeaves t i (R.MEM_OWN.at b 0) [] {R.MEM_OWN.at b 0} s u ∧ u.chip.get F.MEM_OWN_OWNER b = fld F.MEM_OWN_OWNER w.toNat ∧
      u.chip.get F.MEM_OWN_SHARE_RD b = fld F.MEM_OWN_SHARE_RD w.toNat) ∧
  (∀ (t : Nat) (i : Initiator) (b : Fin 16) (w : Word) (s : State), s.chip.mayWrite i (R.MEM_OWN.at b 0) → s.chip.ownerWriteTakes i b = false ∨ fld F.MEM_OWN_OWNER w.toNat = 6 →
    ∃ u, exec (.bankOwnerWrite t i b w) s = .next u ∧ WriteLeaves t i (R.MEM_OWN.at b 0) [] {F.MEM_REJ_CNT_COUNT.addr} s u ∧
      u.chip.get F.MEM_REJ_CNT_COUNT = satNat (F.MEM_REJ_CNT_COUNT.hi + 1 - F.MEM_REJ_CNT_COUNT.lo) (s.chip.get F.MEM_REJ_CNT_COUNT + 1)) ∧
  (∀ (t : Nat) (w : Word) (s : State), s.chip.mayWrite .tc R.MEM_GROTTO_WIPE.addr → fld F.MEM_GROTTO_WIPE_GO w.toNat = 1 → fld F.MEM_GROTTO_WIPE_KEY w.toNat = 0x5A3C →
    ∃ u, exec (.grottoWipeGo t .tc w) s = .next u ∧ WriteLeaves t .tc R.MEM_GROTTO_WIPE.addr [.mem] {F.MEM_GROTTO_STAT_WIPING.addr} s u ∧ u.chip.on F.MEM_GROTTO_STAT_WIPING = true ∧
      u.chip.mem = { s.chip.mem with wipeCause := 0 }) ∧
  (∀ (t : Nat) (w : Word) (s : State), s.chip.mayWrite .tc R.MEM_GROTTO_WIPE.addr → fld F.MEM_GROTTO_WIPE_GO w.toNat = 1 → fld F.MEM_GROTTO_WIPE_KEY w.toNat ≠ 0x5A3C →
    ∃ u, exec (.grottoWipeGo t .tc w) s = .next u ∧ WriteLeaves t .tc R.MEM_GROTTO_WIPE.addr [] {F.MEM_REJ_CNT_COUNT.addr} s u) ∧
  (∀ (t : Nat) (s : State), s.chip.up 4 = true → s.chip.on F.MEM_GROTTO_STAT_WIPING = true → s.chip.mem.waiting = [] → s.chip.mem.wipeCause < 8 →
    ∃ u, exec (.grottoWipe t) s = .next u ∧ LeavesChip t [.ev] {F.MEM_GROTTO_STAT_WIPING.addr} s u ∧ u.store = s.store.clear inGrotto ∧ u.chip.on F.MEM_GROTTO_STAT_WIPING = false ∧
      u.chip.get F.MEM_GROTTO_STAT_CAUSE = s.chip.mem.wipeCause ∧
      (∀ a : Nat, u.store.read a 1 = if inGrotto a = true then [0] else s.store.read a 1) ∧ (s.chip.at t).Raised u.chip [(0x0605, [(1, s.chip.mem.wipeCause)])])

/-- DDR (R513 to R517, R521, R523, R524, R527). EN begins training, and SIZE shows what is fitted; the end of training makes DDR ready, or fails
it. A served access reads or stores its bytes; an uncorrectable line is an error and stores nothing of a part line; before READY every
access is a bus error; the window of lowest number that holds the page judges, and its refusal is recorded. A read of the error address
latches its other word. A refresh changes no memory. The model's own choices in this: entries 17, 105 of the log. -/
def Obligations.DdrActs : Prop :=
  (∀ (t : Nat) (i : Initiator) (w : Word) (s : State), s.chip.mayWrite i R.DDR_CTRL.addr → s.chip.on F.DDR_CTRL_EN = false → s.chip.on F.DDR_CTRL_LOCK = false → s.chip.switchState = 0 →
    s.chip.calBusy = false →
    ∃ u, exec (.ddrEnWrite t i w) s = .next u ∧ WriteLeaves t i R.DDR_CTRL.addr [] {R.DDR_CTRL.addr, F.DDR_STAT_SIZE.addr} s u ∧ u.chip.on F.DDR_CTRL_EN = true ∧
      u.chip.get F.DDR_STAT_SIZE = ddrSize (s.chip.get F.DDR_CFG_WIDTH) (s.chip.get F.DDR_CFG_RANKS) (s.chip.get F.DDR_CFG_DENSITY) % 2 ^ (F.DDR_STAT_SIZE.hi + 1 - F.DDR_STAT_SIZE.lo)) ∧
  (∀ (t : Nat) (values eyes : List Nat) (s : State), s.chip.up 4 = true → s.chip.on F.DDR_CTRL_EN = true → eyes ≠ [] → (∀ e ∈ eyes, 8 ≤ e) →
    ∃ u, exec (.ddrTrainingDone t values eyes) s = .next u ∧ Leaves t [.mem] {F.DDR_STAT_READY.addr} s u ∧ u.chip.on F.DDR_STAT_READY = true ∧ u.chip.on F.DDR_STAT_TRAIN_FAIL = false ∧
      u.chip.mem = { s.chip.mem with trained := true, training := u.chip.mem.training } ∧ (∀ k : Fin 27, u.chip.mem.training[k] = values.getD k.val 0) ∧
      (u.chip.mem.training[27] ∈ eyes ∧ ∀ e ∈ eyes, u.chip.mem.training[27] ≤ e)) ∧
  (∀ (t e : Nat) (values eyes : List Nat) (s : State), s.chip.up 4 = true → s.chip.on F.DDR_CTRL_EN = true → e ∈ eyes → e < 8 →
    ∃ u, exec (.ddrTrainingDone t values eyes) s = .next u ∧ Leaves t [.mem, .ev] {F.DDR_STAT_READY.addr} s u ∧ u.chip.on F.DDR_STAT_READY = false ∧ u.chip.on F.DDR_STAT_TRAIN_FAIL = true ∧
      u.chip.mem.trained = s.chip.mem.trained ∧ (s.chip.at t).Raised u.chip [(0x1E06, [])]) ∧
  (∀ (t addr n inFlight : Nat) (a : Agent) (s : State), s.chip.ddrReady = true → s.chip.inDdr addr n = true → s.chip.windowRefuses a addr false = none →
    ∃ u, exec (.ddrAccess t a addr (.read n) [] inFlight) s = .next u ∧ Leaves t [.answer, .sent] {F.DDR_RD_INUSE.addr} s u ∧
      u.chip.answer = .data (BitVec.ofNat 32 (leNat (s.store.read addr n))) ∧ u.chip.sent = s.chip.sent ++ [⟨"memRead", (s.store.read addr n).map BitVec.toNat⟩] ∧
      u.chip.get F.DDR_RD_INUSE = min inFlight 96) ∧
  (∀ (t addr inFlight : Nat) (a : Agent) (l : List Byte) (s : State), s.chip.ddrReady = true → s.chip.inDdr addr l.length = true → s.chip.windowRefuses a addr true = none →
    ∃ u, exec (.ddrAccess t a addr (.write l) [] inFlight) s = .next u ∧ LeavesChip t [.answer] {F.DDR_RD_INUSE.addr} s u ∧ u.chip.answer = .done ∧ u.store = s.store.write addr l) ∧
  (∀ (t addr n inFlight : Nat) (a : Agent) (e : DdrError) (s : State), s.chip.ddrReady = true → s.chip.inDdr addr n = true → s.chip.windowRefuses a addr false = none → e.fatal = true →
    addr < e.line + 64 → e.line < addr + n →
    ∃ u, exec (.ddrAccess t a addr (.read n) [e] inFlight) s = .next u ∧ Leaves t [.answer, .ev] {F.DDR_RD_INUSE.addr, F.DDR_ECC_UE_COUNT.addr, F.DDR_ECC_ADDR_LO_ADDR.addr, R.DDR_ECC_ADDR_HI.addr} s u ∧
      u.chip.answer = (if a = .host then .completerAbort else .busError) ∧ u.chip.get F.DDR_ECC_ADDR_LO_ADDR = e.line / 64 % 2 ^ 26 ∧
      u.chip.get F.DDR_ECC_UE_COUNT = satNat (F.DDR_ECC_UE_COUNT.hi + 1 - F.DDR_ECC_UE_COUNT.lo) (s.chip.get F.DDR_ECC_UE_COUNT + 1) ∧
      (s.chip.at t).Raised u.chip [(0x1E02, [(5, e.line), (1, e.dev)])]) ∧
  (∀ (t addr inFlight : Nat) (a : Agent) (op : MemOp) (errs : List DdrError) (s : State), s.chip.up 4 = true → s.chip.on F.DDR_STAT_READY = false →
    ∃ u, exec (.ddrAccess t a addr op errs inFlight) s = .next u ∧ Leaves t [.answer] {F.DDR_RD_INUSE.addr} s u ∧ u.chip.answer = (if a = .host then .completerAbort else .busError)) ∧
  (∀ (t addr inFlight : Nat) (w : Fin 8) (op : MemOp) (errs : List DdrError) (s : State), s.chip.ddrReady = true → s.chip.inDdr addr op.size = true → s.chip.windowRefuses .pipe addr op.isWrite = some w →
    s.chip.mem.denyAt[w] = none →
    ∃ u, exec (.ddrAccess t .pipe addr op errs inFlight) s = .next u ∧ Leaves t [.mem, .ev] {F.DDR_RD_INUSE.addr, F.SEC_DENY_CNT_COUNT.addr} s u ∧
      u.chip.get F.SEC_DENY_CNT_COUNT = satNat (F.SEC_DENY_CNT_COUNT.hi + 1 - F.SEC_DENY_CNT_COUNT.lo) (s.chip.get F.SEC_DENY_CNT_COUNT + 1) ∧
      u.chip.mem = { s.chip.mem with denyAt := s.chip.mem.denyAt.set w (some (max s.chip.now t)) } ∧
      (s.chip.at t).Raised u.chip [(0x1E04, [(1, agentBit .pipe), (5, addr)]), (0x1B01, [(1, agentBit .pipe), (5, addr)])]) ∧
  (∀ (t : Nat) (i : Initiator) (s : State), s.chip.mayRead i R.DDR_ECC_ADDR_LO.addr →
    ∃ u, exec (.ddrEccAddrLoRead t i) s = .next u ∧ ReadLeaves t (s.chip.get R.DDR_ECC_ADDR_LO) [.latch] ∅ s u ∧ u.chip.captured R.DDR_ECC_ADDR_HI.addr = s.chip.get R.DDR_ECC_ADDR_HI) ∧
  (∀ (t : Nat) (s : State), s.chip.ddrReady = true →
    ∃ u, exec (.ddrRefresh t) s = .next u ∧ Leaves t [.mem] ∅ s u ∧ u.chip.mem = { s.chip.mem with refreshes := s.chip.mem.refreshes + 1 })

/-- DMA (R529 to R532, R534, R536, R537, R539 to R543, R545). GO on an idle channel loads the descriptor at NEXT and starts it, or halts on one
that breaks the rules; on a running one it is counted. PAUSE drains and then pauses; ABORT ends the channel or lets it drain first. An
appended address is kept until the chain's end, and starts an idle channel. A descriptor moves every word from source to destination and
nothing else; a chain that ends sets DONE and goes idle. A failed access is repeated; a read of the working addresses latches the others.
The model's own choices in this: entries 107, 108, 109, 110, 111 of the log. -/
def Obligations.DmaActs : Prop :=
  (∀ (t : Nat) (i : Initiator) (n : Fin 32) (d : DmaCh) (b : List Nat) (s : State), s.chip.mayWrite i R.DMA_CH_CTRL.addr → s.chip.pwrState ≠ 1 → n = Fin.ofNat 32 (s.chip.latched R.DMA_CHSEL.addr (initNo i)) →
    d = s.chip.ch n → d.state = 0 → d.next % 32 = 0 → d.next < 0x100000 → (∀ k : Fin 16, s.chip.bankAllows .dma k false = true) → b = (s.store.read d.next 32).map BitVec.toNat →
    s.chip.descBad (d.withDesc b) b = false → (d.withDesc b).overlap = none → (d.withDesc b).flags < 16 → s.chip.get F.DMA_LDL_THR = 0 →
    ∃ u, exec (.dmaGo t i [] []) s = .next u ∧ WriteLeaves t i R.DMA_CH_CTRL.addr [.dma, .pwr] ∅ s u ∧
      u.chip.dma = s.chip.dma.set n { d.withDesc b with desc := d.next, state := 1, err := 0, tries := 0, again := none, hold := none }) ∧
  (∀ (t : Nat) (i : Initiator) (n : Fin 32) (d : DmaCh) (b : List Nat) (s : State), s.chip.mayWrite i R.DMA_CH_CTRL.addr → s.chip.pwrState ≠ 1 → n = Fin.ofNat 32 (s.chip.latched R.DMA_CHSEL.addr (initNo i)) →
    d = s.chip.ch n → d.state = 0 → d.next % 32 = 0 → d.next < 0x100000 → (∀ k : Fin 16, s.chip.bankAllows .dma k false = true) → b = (s.store.read d.next 32).map BitVec.toNat →
    s.chip.descBad (d.withDesc b) b = true → s.chip.ldl.grants = [] → s.chip.ldl.asks = [] →
    ∃ u, exec (.dmaGo t i [] []) s = .next u ∧ WriteLeaves t i R.DMA_CH_CTRL.addr [.dma, .pwr, .ev] ∅ s u ∧ (u.chip.ch n).state = 5 ∧ (u.chip.ch n).err = 2 ∧ (u.chip.ch n).loaded = false ∧
      (∀ k : Fin 32, k ≠ n → u.chip.ch k = s.chip.ch k) ∧ u.chip.ev = ((s.chip.at t).raiseEvent 0x0502 [(1, n.val), (1, 2), (5, d.faultAddr)] n.val).ev) ∧
  (∀ (t : Nat) (i : Initiator) (n : Fin 32) (errs : List DdrError) (ues : List Nat) (s : State), s.chip.mayWrite i R.DMA_CH_CTRL.addr → s.chip.pwrState ≠ 1 →
    n = Fin.ofNat 32 (s.chip.latched R.DMA_CHSEL.addr (initNo i)) → (s.chip.ch n).state = 1 ∨ (s.chip.ch n).state = 2 ∨ (s.chip.ch n).state = 3 →
    ∃ u, exec (.dmaGo t i errs ues) s = .next u ∧ WriteLeaves t i R.DMA_CH_CTRL.addr [.pwr] {F.DMA_REJ_CNT_COUNT.addr} s u ∧
      u.chip.get F.DMA_REJ_CNT_COUNT = satNat (F.DMA_REJ_CNT_COUNT.hi + 1 - F.DMA_REJ_CNT_COUNT.lo) (s.chip.get F.DMA_REJ_CNT_COUNT + 1)) ∧
  (∀ (t : Nat) (i : Initiator) (n : Fin 32) (s : State), s.chip.mayWrite i R.DMA_CH_CTRL.addr → s.chip.pwrState ≠ 1 → n = Fin.ofNat 32 (s.chip.latched R.DMA_CHSEL.addr (initNo i)) →
    (s.chip.ch n).state = 1 →
    ∃ u, exec (.dmaPause t i) s = .next u ∧ WriteLeaves t i R.DMA_CH_CTRL.addr [.dma, .pwr] ∅ s u ∧ u.chip.dma = s.chip.dma.set n { s.chip.ch n with state := 3 }) ∧
  (∀ (t : Nat) (i : Initiator) (n : Fin 32) (s : State), s.chip.mayWrite i R.DMA_CH_CTRL.addr → s.chip.pwrState ≠ 1 → n = Fin.ofNat 32 (s.chip.latched R.DMA_CHSEL.addr (initNo i)) →
    (s.chip.ch n).state = 1 ∨ (s.chip.ch n).state = 3 →
    ∃ u, exec (.dmaAbort t i) s = .next u ∧ WriteLeaves t i R.DMA_CH_CTRL.addr [.dma, .pwr] ∅ s u ∧
      u.chip.dma = s.chip.dma.set n { s.chip.ch n with state := 3, aborting := true, appPend := false, appWritten := false }) ∧
  (∀ (t : Nat) (i : Initiator) (n : Fin 32) (s : State), s.chip.mayWrite i R.DMA_CH_CTRL.addr → s.chip.pwrState ≠ 1 → n = Fin.ofNat 32 (s.chip.latched R.DMA_CHSEL.addr (initNo i)) →
    (s.chip.ch n).state = 4 ∨ (s.chip.ch n).state = 5 → s.chip.ldl.grants = [] → s.chip.ldl.asks = [] →
    ∃ u, exec (.dmaAbort t i) s = .next u ∧ WriteLeaves t i R.DMA_CH_CTRL.addr [.dma, .pwr] ∅ s u ∧
      u.chip.dma = s.chip.dma.set n { s.chip.ch n with state := 0, err := 4, again := none, hold := none, appPend := false, appWritten := false }) ∧
  (∀ (t : Nat) (i : Initiator) (n : Fin 32) (w : Word) (late : Bool) (errs : List DdrError) (ues : List Nat) (s : State), s.chip.mayWrite i R.DMA_CH_APPEND_HI.addr → s.chip.pwrState ≠ 1 →
    n = Fin.ofNat 32 (s.chip.latched R.DMA_CHSEL.addr (initNo i)) → (s.chip.ch n).state ≠ 0 → s.chip.sys.lastWrite = none →
    ∃ u, exec (.dmaAppend t i w late errs ues) s = .next u ∧ WriteLeaves t i R.DMA_CH_APPEND_HI.addr [.dma, .pwr] ∅ s u ∧
      u.chip.dma = s.chip.dma.set n { s.chip.ch n with append := w.toNat % 256 * 2 ^ 32 + (s.chip.ch n).append % 2 ^ 32, appWritten := true, appPend := true, late := late || (s.chip.ch n).late }) ∧
  (∀ (t : Nat) (n : Fin 32) (errs : List DdrError) (ues : List Nat) (s : State), s.chip.up 4 = true → s.chip.pwrState ≠ 1 → (s.chip.ch n).state = 3 → (s.chip.ch n).hold = none → (s.chip.ch n).aborting = false →
    (s.chip.ch n).loaded = true → (s.chip.ch n).rowsDone < (s.chip.ch n).rows → s.chip.ldl.grants = [] → s.chip.ldl.asks = [] →
    ∃ u, exec (.dmaPaused t n 0 errs ues) s = .next u ∧ Leaves t [.dma, .pwr, .answer] ∅ s u ∧ u.chip.dma = s.chip.dma.set n { s.chip.ch n with state := 4, again := none }) ∧
  (∀ (t : Nat) (n : Fin 32) (d : DmaCh) (s : State), s.chip.up 4 = true → s.chip.pwrState ≠ 1 → d = s.chip.ch n → d.state = 1 → d.loaded = true → d.again = none → d.hold = none → d.down = false →
    d.rows = 1 → d.rowsDone = 0 → d.bytesDone = 0 → d.len % 4 = 0 → 4 ≤ d.len → d.src % 4 = 0 → d.dst % 4 = 0 → d.src + d.len ≤ 0x100000 → d.dst + d.len ≤ 0x100000 →
    d.src + d.len ≤ d.dst ∨ d.dst + d.len ≤ d.src → d.flags = 1 → d.appPend = false → d.aborting = false → d.cfg < 256 → (∀ k : Fin 16, s.chip.bankAllows .dma k true = true ∧ s.chip.bankAllows .dma k false = true) →
    (∀ k : Fin 16, s.chip.bankReady k = true) → s.chip.ldl.grants = [] → s.chip.ldl.asks = [] →
    ∃ u, exec (.dmaDescEnd t n [] []) s = .next u ∧ LeavesChip t [.dma, .pwr, .answer] {F.DMA_DONE_DONE.addr} s u ∧ u.store = { s.store with mem := u.store.mem } ∧
      u.store.read d.dst d.len = s.store.read d.src d.len ∧ (∀ a : Nat, a < d.dst ∨ d.dst + d.len ≤ a → u.store.read a 1 = s.store.read a 1) ∧ (u.chip.ch n).state = 0 ∧ (u.chip.ch n).loaded = false ∧
      (u.chip.ch n).descs = (d.descs + 1) % 65536 ∧ (∀ k : Fin 32, k ≠ n → u.chip.ch k = s.chip.ch k) ∧ bitAt (u.chip.get F.DMA_DONE_DONE) n = true) ∧
  (∀ (t : Nat) (n : Fin 32) (d : DmaCh) (s : State), s.chip.up 4 = true → s.chip.pwrState ≠ 1 → d = s.chip.ch n → d.state = 1 → d.loaded = true → d.again.isSome = true → d.hold = none → d.down = false →
    d.rows = 1 → d.rowsDone = 0 → d.bytesDone = 0 → d.len = 4 → d.src % 4 = 0 → d.dst % 4 = 0 → d.src + 4 ≤ 0x100000 → d.dst + 4 ≤ 0x100000 → d.flags < 4 →
    d.retryAt = some (max s.chip.now t) → (∀ k : Fin 16, s.chip.bankAllows .dma k true = true ∧ s.chip.bankAllows .dma k false = true) → (∀ k : Fin 16, s.chip.bankReady k = true) →
    ∃ u, exec (.dmaRetry t n [] []) s = .next u ∧ LeavesChip t [.dma, .pwr, .answer] ∅ s u ∧ u.store.read d.dst 4 = s.store.read d.src 4 ∧
      u.chip.dma = s.chip.dma.set n { d with again := none, tries := 0, retries := satNat 16 (d.retries + 1), rowsDone := 1 }) ∧
  (∀ (t : Nat) (i : Initiator) (n : Fin 32) (s : State), s.chip.mayRead i R.DMA_CH_SRC_LO.addr → n = Fin.ofNat 32 (s.chip.latched R.DMA_CHSEL.addr (initNo i)) →
    ∃ u, exec (.dmaChSrcLoRead t i) s = .next u ∧ ReadLeaves t ((s.chip.ch n).srcNow % 2 ^ 32) [.latch] ∅ s u ∧ u.chip.latched 0x10050128 (initNo i) = (s.chip.ch n).srcNow / 2 ^ 32 % 2 ^ 32 ∧
      u.chip.latched 0x1005012C (initNo i) = (s.chip.ch n).dstNow % 2 ^ 32 ∧ u.chip.latched 0x10050134 (initNo i) = (s.chip.ch n).rowsLeft % 65536 * 65536 ∧
      u.chip.latched 0x10050138 (initNo i) = (s.chip.ch n).rowLeft % 2 ^ 32) ∧
  (∀ (t : Nat) (i : Initiator) (n : Fin 32) (s : State), s.chip.mayRead i R.DMA_CH_FAULT_LO.addr → n = Fin.ofNat 32 (s.chip.latched R.DMA_CHSEL.addr (initNo i)) →
    ∃ u, exec (.dmaChFaultLoRead t i) s = .next u ∧ ReadLeaves t ((s.chip.ch n).faultAddr % 2 ^ 32) [.latch] ∅ s u ∧
      u.chip.latched 0x10050140 (initNo i) = (bit (s.chip.ch n).faultWrite * 2 ^ 31 + (s.chip.ch n).faultAddr / 2 ^ 32) % 2 ^ 32)

/-- Rings and messages of the host (R467 to R471, R473 to R477, R479, R480, R490, R643). A doorbell moves TAIL of an enabled ring and is a wake
source; one out of range is ignored, counted and recorded. HST fetches the ring served next and hands its entry to firmware; a failed fetch
stops the ring until ERR is cleared. A completion goes to its ring with its phase, which turns over at the end. Records are copied and freed
with HEAD. A message that is due goes to its vector's address, or is held while masked. LINK_DOWN resets the HOST island. The model's own
choices in this: entries 136, 137, 138, 139 of the log. -/
def Obligations.HostRings : Prop :=
  (∀ (t : Nat) (i : Initiator) (q : Fin 16) (w : Word) (s : State), s.chip.mayWrite i (R.HST_SQ_TAIL.at q 0) → s.chip.pwrState = 0 → s.chip.pwrPhase = 0 → s.chip.pwr.off = false →
    s.chip.thm.tripped = false → s.chip.on F.HST_SQ_CFG_EN q = true → fld F.HST_SQ_TAIL_TAIL w.toNat < s.chip.sqSize q → s.chip.pwr.wake = none →
    ∃ u, exec (.sqDoorbell t i q w) s = .next u ∧ WriteLeaves t i (R.HST_SQ_TAIL.at q 0) [.pwr] {R.HST_SQ_TAIL.at q 0, F.PWR_WAKE_LATCH_LATCH.addr} s u ∧
      u.chip.get F.HST_SQ_TAIL_TAIL q = fld F.HST_SQ_TAIL_TAIL w.toNat ∧ u.chip.pwr.activeAt = max s.chip.now t ∧ bitAt (u.chip.get F.PWR_WAKE_LATCH_LATCH) 2 = true) ∧
  (∀ (t : Nat) (i : Initiator) (q : Fin 16) (w : Word) (s : State), s.chip.mayWrite i (R.HST_SQ_TAIL.at q 0) → s.chip.pwrState = 0 → s.chip.pwrPhase = 0 →
    s.chip.on F.HST_SQ_CFG_EN q = false ∨ s.chip.sqSize q ≤ fld F.HST_SQ_TAIL_TAIL w.toNat → s.chip.pwr.wake = none →
    ∃ u, exec (.sqDoorbell t i q w) s = .next u ∧ WriteLeaves t i (R.HST_SQ_TAIL.at q 0) [.pwr, .ev] {F.HST_REJ_CNT_COUNT.addr, F.PWR_WAKE_LATCH_LATCH.addr} s u ∧
      u.chip.get F.HST_REJ_CNT_COUNT = satNat (F.HST_REJ_CNT_COUNT.hi + 1 - F.HST_REJ_CNT_COUNT.lo) (s.chip.get F.HST_REJ_CNT_COUNT + 1) ∧ (s.chip.at t).Raised u.chip [(0x1904, [])]) ∧
  (∀ (t h n : Nat) (q : Fin 16) (e : List Nat) (s : State), s.chip.hostReach = true → s.chip.sys.fwUp = true → s.chip.pwr.ready = [] → s.chip.sqNext = some q.val → s.chip.pwrState ≠ 1 →
    s.chip.get F.HST_XCFG_FETCH_N ≠ 0 → h = s.chip.get F.HST_SQ_HEAD_HEAD q → n = (h + 1) % s.chip.sqSize q →
    e = (s.store.readHost (s.chip.get F.HST_SQ_BASE_HI_ADDR q * 2 ^ 32 + s.chip.get F.HST_SQ_BASE_LO_ADDR q * 4096 + 64 * h) 64).map BitVec.toNat → fieldLE e 0 1 ∈ hostOpcodes → s.chip.hst.cmds = [] → n < 4096 →
    ∃ u, exec (.sqFetch t 1 none) s = .next u ∧ Leaves t [.hst, .pwr] {R.HST_SQ_HEAD.at q 0} s u ∧ u.chip.get F.HST_SQ_HEAD_HEAD q = n ∧
      u.chip.hst = { s.chip.hst with lastSq := q.val, cmds := [{ sq := q.val, entry := e, head := n }] }) ∧
  (∀ (t : Nat) (q : Fin 16) (s : State), s.chip.hostReach = true → s.chip.sys.fwUp = true → s.chip.pwr.ready = [] → s.chip.sqNext = some q.val → s.chip.pwrState ≠ 1 →
    s.chip.get F.HST_XCFG_FETCH_N ≠ 0 → s.chip.hst.cmds = [] →
    ∃ u, exec (.sqFetch t 1 (some 0)) s = .next u ∧ Leaves t [.hst, .pwr, .ev] {R.HST_SQ_HEAD.at q 0} s u ∧ u.chip.on F.HST_SQ_HEAD_ERR q = true ∧
      u.chip.get F.HST_SQ_HEAD_HEAD q = s.chip.get F.HST_SQ_HEAD_HEAD q ∧ u.chip.hst = { s.chip.hst with lastSq := q.val } ∧ (s.chip.at t).Raised u.chip [(0x1903, [(1, q.val)])]) ∧
  (∀ (t : Nat) (i : Initiator) (q : Fin 16) (s : State), s.chip.mayWrite i (R.HST_SQ_HEAD.at q 0) →
    ∃ u, exec (.sqErrClear t i q) s = .next u ∧ WriteLeaves t i (R.HST_SQ_HEAD.at q 0) [] {R.HST_SQ_HEAD.at q 0} s u ∧ u.chip.on F.HST_SQ_HEAD_ERR q = false ∧
      u.chip.get F.HST_SQ_HEAD_HEAD q = s.chip.get F.HST_SQ_HEAD_HEAD q) ∧
  (∀ (t : Nat) (i : Initiator) (q : Fin 16) (w : Word) (s : State), s.chip.mayWrite i (R.HST_SQ_CFG.at q 0) → s.chip.on F.HST_SQ_CFG_EN q = false → s.chip.switchState = 0 → s.chip.calBusy = false →
    ∃ u, exec (.sqEnable t i q w) s = .next u ∧ WriteLeaves t i (R.HST_SQ_CFG.at q 0) [] {R.HST_SQ_CFG.at q 0, R.HST_SQ_HEAD.at q 0, R.HST_SQ_TAIL.at q 0, F.HST_REJ_CNT_COUNT.addr} s u ∧
      u.chip.on F.HST_SQ_CFG_EN q = true ∧ u.chip.get F.HST_SQ_HEAD_HEAD q = 0 ∧ u.chip.get F.HST_SQ_TAIL_TAIL q = 0) ∧
  (∀ (t : Nat) (i : Initiator) (n : Fin 16) (w : Word) (s : State), s.chip.mayWrite i (R.HST_CQ_CFG.at n 0) → s.chip.on F.HST_CQ_CFG_EN n = false → s.chip.switchState = 0 → s.chip.calBusy = false →
    ∃ u, exec (.cqEnable t i n w) s = .next u ∧ WriteLeaves t i (R.HST_CQ_CFG.at n 0) [.hst] {R.HST_CQ_CFG.at n 0, R.HST_CQ_HEAD.at n 0, F.HST_CQ_TAIL_TAIL.at n 0, F.HST_REJ_CNT_COUNT.addr} s u ∧
      u.chip.on F.HST_CQ_CFG_EN n = true ∧ u.chip.get F.HST_CQ_HEAD_HEAD n = 0 ∧ u.chip.get F.HST_CQ_TAIL_TAIL n = 0 ∧ u.chip.get F.HST_CQ_TAIL_P n = 1 ∧
      u.chip.hst = { s.chip.hst with cqUnsig := s.chip.hst.cqUnsig.set n 0 }) ∧
  (∀ (t a : Nat) (n : Fin 16) (k : Completion) (r : List Completion) (s : State), s.chip.hostReach = true → s.chip.on F.HST_CQ_CFG_EN n = true → s.chip.cqFull n = false → s.chip.hst.comps = k :: r →
    k.cq = n.val → a = s.chip.get F.HST_CQ_TAIL_TAIL n → (a + 1) % s.chip.cqSize n < 4096 →
    ∃ u, exec (.cqWrite t n.val false) s = .next u ∧ LeavesChip t [.hst] {F.HST_CQ_TAIL_TAIL.at n 0} s u ∧ u.chip.get F.HST_CQ_TAIL_TAIL n = (a + 1) % s.chip.cqSize n ∧
      u.chip.get F.HST_CQ_TAIL_P n = (if (a + 1) % s.chip.cqSize n = 0 then 1 - s.chip.get F.HST_CQ_TAIL_P n else s.chip.get F.HST_CQ_TAIL_P n) ∧
      u.store = s.store.writeHost (s.chip.get F.HST_CQ_BASE_HI_ADDR n * 2 ^ 32 + s.chip.get F.HST_CQ_BASE_LO_ADDR n * 4096 + 16 * a) ((k.bytes (s.chip.get F.HST_CQ_TAIL_P n)).map (BitVec.ofNat 8)) ∧
      u.chip.hst.comps = r ∧ u.chip.hst.cqUnsig = s.chip.hst.cqUnsig.set n (s.chip.hst.cqUnsig[n] + 1)) ∧
  (∀ (t : Nat) (n : Fin 16) (k : Completion) (r : List Completion) (s : State), s.chip.hostReach = true → s.chip.on F.HST_CQ_CFG_EN n = true → s.chip.cqFull n = false → s.chip.hst.comps = k :: r →
    k.cq = n.val →
    ∃ u, exec (.cqWrite t n.val true) s = .next u ∧ Leaves t [.ev] ∅ s u ∧ (s.chip.at t).Raised u.chip [(0x1906, [(1, n.val)])]) ∧
  (∀ (t n : Nat) (fail : Bool) (s : State), s.chip.hostReach = false ∨ s.chip.on F.HST_CQ_CFG_EN n = false ∨ s.chip.cqFull n = true → exec (.cqWrite t n fail) s = .next { s with chip := s.chip.at t }) ∧
  (∀ (t : Nat) (i : Initiator) (n : Fin 16) (w : Word) (s : State), s.chip.mayWrite i (R.HST_CQ_HEAD.at n 0) → s.chip.pwrState = 0 → s.chip.pwrPhase = 0 → s.chip.pwr.wake = none →
    fld F.HST_CQ_HEAD_HEAD w.toNat < s.chip.cqSize n →
    ∃ u, exec (.cqHeadWrite t i n w) s = .next u ∧ WriteLeaves t i (R.HST_CQ_HEAD.at n 0) [.pwr] {R.HST_CQ_HEAD.at n 0, F.PWR_WAKE_LATCH_LATCH.addr} s u ∧
      u.chip.get F.HST_CQ_HEAD_HEAD n = fld F.HST_CQ_HEAD_HEAD w.toNat) ∧
  (∀ (t v a : Nat) (s : State), s.chip.msixReach = true → s.chip.hst.mbxDue = true → v = s.chip.get F.MBX_VEC_VEC → s.chip.msixMasked v = false →
    a = (s.chip.word (msixTable v 0)).toNat + (s.chip.word (msixTable v 1)).toNat * 2 ^ 32 →
    ∃ u, exec (.msixSend t .mbx) s = .next u ∧ LeavesChip t [.hst, .sent] ∅ s u ∧ u.store = s.store.writeHost a (leBytes 4 (s.chip.word (msixTable v 2)).toNat) ∧
      u.chip.hst = { s.chip.hst with mbxDue := false } ∧ u.chip.sent = s.chip.sent ++ [⟨"msix", [v]⟩]) ∧
  (∀ (t v : Nat) (n : Fin 16) (s : State), s.chip.msixReach = true → v = s.chip.get F.HST_CQ_CFG_VEC n → s.chip.msixMasked v = true →
    (s.chip.at t).coalesced s.chip.hst.cqUnsig[n] s.chip.hst.cqFirst[n] (s.chip.get F.HST_CQ_CFG_COAL_N n) (s.chip.get F.HST_CQ_CFG_COAL_US n) = true →
    ∃ u, exec (.msixSend t (.cq n.val)) s = .next u ∧ Leaves t [.hst] {msixPba v} s u ∧ bitAt (u.chip.word (msixPba v)).toNat (v % 32) = true ∧
      u.chip.hst = { s.chip.hst with cqUnsig := s.chip.hst.cqUnsig.set n 0 }) ∧
  (∀ (t : Nat) (x : MsixSource) (s : State), s.chip.msixReach = false → exec (.msixSend t x) s = .next { s with chip := s.chip.at t }) ∧
  (∀ (t : Nat) (i : Initiator) (w : Word) (s : State), s.chip.mayWrite i R.HST_REC_CFG.addr → s.chip.on F.HST_REC_CFG_EN = false → s.chip.switchState = 0 → s.chip.calBusy = false →
    ∃ u, exec (.recEnable t i w) s = .next u ∧ WriteLeaves t i R.HST_REC_CFG.addr [.hst] {R.HST_REC_CFG.addr, F.HST_REC_TAIL_TAIL.addr, F.HST_REC_HEAD_HEAD.addr, F.HST_REJ_CNT_COUNT.addr} s u ∧
      u.chip.on F.HST_REC_CFG_EN = true ∧ u.chip.get F.HST_REC_TAIL_TAIL = 0 ∧ u.chip.get F.HST_REC_HEAD_HEAD = 0 ∧
      u.chip.hst = { s.chip.hst with recNext := s.chip.get F.NZH_ARQ_RD_RD, recUnsig := 0 }) ∧
  (∀ (t a n : Nat) (s : State), s.chip.hostReach = true → s.chip.on F.HST_REC_CFG_EN = true → s.chip.up 5 = true → s.chip.hst.recNext ≠ s.chip.get F.NZH_ARQ_WR_WR → s.chip.recRoom = true →
    a = s.chip.baseAddr F.NZH_ARQ_BASE_LO_ADDR F.NZH_ARQ_BASE_HI_ADDR + 64 * (s.chip.hst.recNext % 4096) → s.chip.ddrReady = true → s.chip.inDdr a 64 = true → s.chip.windowRefuses .host a false = none →
    n = s.chip.get F.HST_REC_TAIL_TAIL →
    ∃ u, exec (.recCopy t 1 false []) s = .next u ∧ LeavesChip t [.hst] {F.HST_REC_TAIL_TAIL.addr} s u ∧ u.chip.get F.HST_REC_TAIL_TAIL = (n + 1) % 2 ^ 32 ∧
      u.store = (s.store.writeHost (s.chip.get F.HST_REC_BASE_HI_ADDR * 2 ^ 32 + s.chip.get F.HST_REC_BASE_LO_ADDR * 4096 + 64 * (n % 2 ^ s.chip.get F.HST_REC_CFG_SIZE_LOG2)) (s.store.read a 64)).writeHost
        (s.chip.get F.HST_REC_WB_HI_ADDR * 2 ^ 32 + s.chip.get F.HST_REC_WB_LO_ADDR * 4) (leBytes 4 ((n + 1) % 2 ^ 32)) ∧
      u.chip.hst.recNext = (s.chip.hst.recNext + 1) % 8192 ∧ u.chip.hst.recUnsig = s.chip.hst.recUnsig + 1) ∧
  (∀ (t k : Nat) (i : Initiator) (w : Word) (s : State), s.chip.mayWrite i R.HST_REC_HEAD.addr → s.chip.pwrState = 0 → s.chip.pwrPhase = 0 → s.chip.pwr.wake = none → s.chip.up 5 = false →
    k = (w.toNat + 2 ^ 32 - s.chip.get F.HST_REC_HEAD_HEAD) % 2 ^ 32 → k ≤ (s.chip.get F.HST_REC_TAIL_TAIL + 2 ^ 32 - s.chip.get F.HST_REC_HEAD_HEAD) % 2 ^ 32 →
    ∃ u, exec (.recHeadWrite t i w) s = .next u ∧ WriteLeaves t i R.HST_REC_HEAD.addr [.pwr] {F.HST_REC_HEAD_HEAD.addr, F.PWR_WAKE_LATCH_LATCH.addr} s u ∧ u.chip.get F.HST_REC_HEAD_HEAD = w.toNat) ∧
  (∀ (t : Nat) (s : State), s.chip.up 7 = true →
    ∃ u, exec (.linkDown t) s = .next u ∧ u.pending = s.pending ∧ u.store = s.store ∧ (∀ q : Fin 16, u.chip.on F.HST_SQ_CFG_EN q = false ∧ u.chip.on F.HST_CQ_CFG_EN q = false) ∧
      u.chip.on F.HST_REC_CFG_EN = false ∧ u.chip.on F.HST_LINK_UP = false ∧ u.chip.hst = {} ∧ u.chip.up 7 = true ∧ (s.chip.up 1 = true → u.chip.on F.EVC_HQ_CFG_EN = false)) ∧
  (∀ (t : Nat) (s : State), s.chip.up 7 = false → exec (.linkDown t) s = .next { s with chip := s.chip.at t }) ∧
  (∀ (t speed width : Nat) (s : State), s.chip.up 7 = true → s.chip.on F.HST_LINK_UP = false → speed < 16 → width < 8 →
    ∃ u, exec (.linkUp t speed width) s = .next u ∧ Leaves t [.ev] {F.HST_LINK_UP.addr} s u ∧ u.chip.on F.HST_LINK_UP = true ∧ u.chip.get F.HST_LINK_SPEED = speed ∧
      u.chip.get F.HST_LINK_WIDTH = width ∧ (s.chip.at t).Raised u.chip [(0x1902, [(1, speed), (1, width)])]) ∧
  (∀ (t dstate : Nat) (bme en mask : Bool) (s : State), s.chip.up 7 = true → s.chip.on F.HST_LINK_UP = true →
    ∃ u, exec (.pcieConfigWrite t bme dstate en mask) s = .next u ∧ Leaves t [.hst] {F.HST_LINK_BME.addr} s u ∧ u.chip.on F.HST_LINK_BME = bme ∧
      u.chip.get F.HST_LINK_DSTATE = (if dstate = 3 then 3 else 0) ∧ u.chip.hst = { s.chip.hst with msixEn := en, msixMask := mask }) ∧
  (∀ (t dstate : Nat) (bme en mask : Bool) (s : State), s.chip.up 7 = false ∨ s.chip.on F.HST_LINK_UP = false →
    exec (.pcieConfigWrite t bme dstate en mask) s = .next { s with chip := s.chip.at t })

/-- Commands of the host, by service firmware (R481 to R483). IDENTIFY and QUERY answer what they name. JOB_OPEN waits for the queued items,
then loads the value maps and opens the job; JOB_CLOSE closes it. A load writes its table entry with VALID, and nothing else where it
carries no data; wrong arguments complete BAD_ARG. The model's own choices in this: entries 133, 134, 135 of the log. -/
def Obligations.HostCommands : Prop :=
  (∀ (t q : Nat) (h : HostCmd) (s : State), s.chip.fwRuns = true → s.chip.pwrState ≠ 1 → s.chip.hst.cmds = [h] → h.sq = q → fieldLE h.entry 0 1 = 0x01 → entryDlen h.entry = 0 →
    ∃ u, exec (.identify t q) s = .next u ∧ Leaves t [.hst, .pwr] ∅ s u ∧ u.chip.hst = s.chip.completed h 0 (s.chip.get R.SYS_ID) (s.chip.sys.fwVersion % 65536 + 65536 * s.chip.sys.fwSlot)) ∧
  (∀ (t q : Nat) (h : HostCmd) (s : State), s.chip.fwRuns = true → s.chip.pwrState ≠ 1 → s.chip.hst.cmds = [h] → h.sq = q → fieldLE h.entry 0 1 = 0x01 → entryDlen h.entry ≠ 0 →
    ∃ u, exec (.identify t q) s = .next u ∧ Leaves t [.hst, .pwr] ∅ s u ∧ u.chip.hst = s.chip.completed h 2 0 0) ∧
  (∀ (t q : Nat) (h : HostCmd) (s : State), s.chip.fwRuns = true → s.chip.pwrState ≠ 1 → s.chip.hst.cmds = [h] → h.sq = q → fieldLE h.entry 0 1 = 0x02 → entryDlen h.entry = 0 → fieldLE h.entry 16 1 = 4 →
    ∃ u, exec (.query t q) s = .next u ∧ Leaves t [.hst, .pwr] ∅ s u ∧ u.chip.hst = s.chip.completed h 0 (s.chip.get R.STR_ACT_SEQ) (s.chip.get R.STR_PEND_SEQ)) ∧
  (∀ (t q : Nat) (h : HostCmd) (s : State), s.chip.fwRuns = true → s.chip.pwrState ≠ 1 → s.chip.hst.cmds = [h] → h.sq = q → fieldLE h.entry 0 1 = 0x02 → entryDlen h.entry = 0 → fieldLE h.entry 16 1 = 0 → s.chip.get F.CMP_IQ_WR_WR = s.chip.get F.CMP_IQ_RD_RD →
    ∃ u, exec (.query t q) s = .next u ∧ Leaves t [.hst, .pwr] ∅ s u ∧ u.chip.hst = s.chip.completed h 0 1024 (4096 - (s.chip.get F.NZH_ARQ_RSV_RSV + s.chip.arqUnread))) ∧
  (∀ (t q job : Nat) (h : HostCmd) (l : List Nat) (s : State), s.chip.fwRuns = true → s.chip.pwrState ≠ 1 → s.chip.hst.cmds = [h] → h.sq = q → fieldLE h.entry 0 1 = 0x10 → job = fieldLE h.entry 16 2 → entryDlen h.entry = 256 →
    (∀ a ∈ s.chip.cmp.items, a.stage ≠ .queued) → job ∉ s.chip.fw.jobs → l = hostData s.store h.entry → s.chip.up 5 = true → s.chip.switchState = 0 → s.chip.calBusy = false →
    ∃ u, exec (.jobOpen t q false) s = .next u ∧ Leaves t [.hst, .pwr, .fw, .sys, .dirty] ({a | ∃ n : Fin 64, a = R.CMP_VMAP.at (n / 4) (n % 4)} ∪ {F.CMP_SHSTAT_PENDING.addr, F.CMP_REJ_CNT_COUNT.addr}) s u ∧
      u.chip.fw = { s.chip.fw with jobs := s.chip.fw.jobs ++ [job] } ∧ u.chip.hst = s.chip.completed h 0 0 0 ∧
      (∀ n : Fin 64, u.chip.get F.CMP_VMAP_EN (n / 4) (n % 4) = fieldLE l (4 * n.val) 4 % 2 ^ 6 ∧ u.chip.get F.CMP_VMAP_CODES (n / 4) (n % 4) = fieldLE l (4 * n.val) 4 / 2 ^ 16 % 2 ^ 12)) ∧
  (∀ (t q : Nat) (fail : Bool) (a : Item) (h : HostCmd) (s : State), s.chip.fwRuns = true → s.chip.pwrState ≠ 1 → s.chip.hst.cmds = [h] → h.sq = q → fieldLE h.entry 0 1 = 0x10 → entryDlen h.entry = 256 → a ∈ s.chip.cmp.items → a.stage = .queued →
    ∃ u, exec (.jobOpen t q fail) s = .next u ∧ Leaves t [.pwr] ∅ s u) ∧
  (∀ (t q : Nat) (h : HostCmd) (s : State), s.chip.fwRuns = true → s.chip.pwrState ≠ 1 → s.chip.hst.cmds = [h] → h.sq = q → fieldLE h.entry 0 1 = 0x11 → entryDlen h.entry = 0 →
    ∃ u, exec (.jobClose t q) s = .next u ∧ Leaves t [.hst, .pwr, .fw] ∅ s u ∧ u.chip.hst = s.chip.completed h 0 0 0 ∧
      u.chip.fw = { s.chip.fw with jobs := s.chip.fw.jobs.filter (fun j => j != fieldLE h.entry 16 2) }) ∧
  (∀ (t q a : Nat) (h : HostCmd) (s : State), s.chip.fwRuns = true → s.chip.pwrState ≠ 1 → s.chip.hst.cmds = [h] → h.sq = q → fieldLE h.entry 0 1 = 0x12 → entryDlen h.entry = 0 → fieldLE h.entry 16 2 < 4096 → fieldLE h.entry 18 1 ≤ 1 → 1 ≤ fieldLE h.entry 20 2 → fieldLE h.entry 20 2 ≤ 10240 →
    fieldLE h.entry 22 3 ≠ 0 → fieldLE h.entry 32 5 % 64 = 0 → s.chip.ddrReady = true → (∀ w : Fin 8, s.chip.on F.DDR_WIN_PERM_EN w = false) → a = s.chip.baseAddr F.CMP_STAT_BASE_LO_ADDR F.CMP_STAT_BASE_HI_ADDR + 16 * fieldLE h.entry 16 2 → s.chip.inDdr a 16 = true →
    ∃ u, exec (.loadStatic t q false []) s = .next u ∧ LeavesChip t [.hst, .pwr] ∅ s u ∧ u.chip.hst = s.chip.completed h 0 0 0 ∧ u.store = { s.store with mem := u.store.mem } ∧
      (u.store.read a 16).map BitVec.toNat = bytesLE 5 (fieldLE h.entry 32 5) ++ [fieldLE h.entry 18 1 + 128] ++ bytesLE 2 (fieldLE h.entry 20 2) ++ bytesLE 3 (fieldLE h.entry 22 3) ++ List.replicate 5 0 ∧
      (∀ b : Nat, b < a ∨ a + 16 ≤ b → u.store.read b 1 = s.store.read b 1)) ∧
  (∀ (t q : Nat) (fail : Bool) (errs : List DdrError) (h : HostCmd) (s : State), s.chip.fwRuns = true → s.chip.pwrState ≠ 1 → s.chip.hst.cmds = [h] → h.sq = q → fieldLE h.entry 0 1 = 0x12 → 4096 ≤ fieldLE h.entry 16 2 ∨ 1 < fieldLE h.entry 18 1 ∨ fieldLE h.entry 20 2 = 0 ∨ 10240 < fieldLE h.entry 20 2 ∨
      fieldLE h.entry 22 3 = 0 ∨ fieldLE h.entry 32 5 % 64 ≠ 0 →
    ∃ u, exec (.loadStatic t q fail errs) s = .next u ∧ Leaves t [.hst, .pwr] ∅ s u ∧ u.chip.hst = s.chip.completed h 2 0 0) ∧
  (∀ (t q a dst : Nat) (h : HostCmd) (b : List Nat) (s : State), s.chip.fwRuns = true → s.chip.pwrState ≠ 1 → s.chip.hst.cmds = [h] → h.sq = q → fieldLE h.entry 0 1 = 0x13 → entryDlen h.entry = 16 → fieldLE h.entry 18 2 = 1 → dst = fieldLE h.entry 32 5 → dst % 4 = 0 →
    s.chip.ddrReady = true → (∀ w : Fin 8, s.chip.on F.DDR_WIN_PERM_EN w = false) → a = s.chip.baseAddr F.CMP_GLYPH_BASE_LO_ADDR F.CMP_GLYPH_BASE_HI_ADDR + 16 * fieldLE h.entry 16 2 → s.chip.inDdr a 16 = true → s.chip.inDdr dst 0 = true → b = hostData s.store h.entry →
    ∃ u, exec (.loadGlyphs t q false []) s = .next u ∧ LeavesChip t [.hst, .pwr] ∅ s u ∧ u.chip.hst = s.chip.completed h 0 0 0 ∧ u.store = { s.store with mem := u.store.mem } ∧
      (u.store.read a 16).map BitVec.toNat = bytesLE 5 (dst + fieldLE b 0 5) ++ [fieldLE b 5 1 % 128 + 128] ++ (b.drop 6).take 10 ∧
      (∀ x : Nat, x < a ∨ a + 16 ≤ x → u.store.read x 1 = s.store.read x 1)) ∧
  (∀ (t q a : Nat) (h : HostCmd) (s : State), s.chip.fwRuns = true → s.chip.pwrState ≠ 1 → s.chip.hst.cmds = [h] → h.sq = q → fieldLE h.entry 0 1 = 0x14 → entryDlen h.entry = 0 → fieldLE h.entry 32 5 % 64 = 0 → s.chip.ddrReady = true → (∀ w : Fin 8, s.chip.on F.DDR_WIN_PERM_EN w = false) → 
    a = s.chip.baseAddr F.CMP_GSET_BASE_LO_ADDR F.CMP_GSET_BASE_HI_ADDR + 16 * fieldLE h.entry 16 1 → s.chip.inDdr a 16 = true →
    ∃ u, exec (.loadGset t q false []) s = .next u ∧ LeavesChip t [.hst, .pwr] ∅ s u ∧ u.chip.hst = s.chip.completed h 0 0 0 ∧ u.store = { s.store with mem := u.store.mem } ∧
      (u.store.read a 16).map BitVec.toNat = bytesLE 5 (fieldLE h.entry 32 5) ++ [128] ++ bytesLE 2 (fieldLE h.entry 18 2) ++ List.replicate 8 0 ∧
      (∀ b : Nat, b < a ∨ a + 16 ≤ b → u.store.read b 1 = s.store.read b 1))

/-- Items, messages and calibrations that the host asks for (R176 to R178, R452, R453, R481, R484, R487). An admitted item's descriptor stands
in its slot of the queue, which goes on by one with a record slot claimed; a refused one completes with its status. An item of the inbox is
admitted or refused, and the inbox goes on. FAB_SEND puts payload and descriptor into place; TC_FORWARD sends its message through mailbox 0,
and times out after 1 s; CAL_RUN starts its procedure. The model's own choices in this: entries 127, 128, 129, 130, 131, 132 of the log. -/
def Obligations.HostSubmits : Prop :=
  (∀ (t q amt a : Nat) (h : HostCmd) (d : List Nat) (s : State), s.chip.fwRuns = true → s.chip.pwrState ≠ 1 → s.chip.hst.cmds = [h] → h.sq = q → fieldLE h.entry 0 1 = 0x20 → s.chip.admits = true → fieldLE h.entry 16 1 = 1 → d = hostData s.store h.entry → submitLenOk d 1 0 = true → h.done = 0 → h.ofs = 0 →
    descJob d ∈ s.chip.fw.jobs → s.chip.admission s.store d = 0 → s.chip.heavyItem s.store d = false → s.chip.ddrReady = true → (∀ w : Fin 8, s.chip.on F.DDR_WIN_PERM_EN w = false) → s.chip.up 5 = true → s.chip.switchState = 0 → s.chip.calBusy = false →
    a = s.chip.baseAddr F.CMP_IQ_BASE_LO_ADDR F.CMP_IQ_BASE_HI_ADDR + 4096 * (s.chip.get F.CMP_IQ_WR_WR % 1024) → s.chip.inDdr a 4096 = true →
    ∃ u, exec (.submitItems t q false amt []) s = .next u ∧ LeavesChip t [.hst, .pwr, .fw, .sys, .cmp, .dirty, .force] {F.CMP_IQ_WR_WR.addr, F.NZH_ARQ_RSV_RSV.addr, F.CMP_SHSTAT_PENDING.addr, F.CMP_STAT_MARK_WAIT.addr} s u ∧ u.chip.hst = s.chip.completed h 0 1 0 ∧
      u.store = s.store.write a (d.map (BitVec.ofNat 8)) ∧ u.chip.get F.CMP_IQ_WR_WR = (s.chip.get F.CMP_IQ_WR_WR + 1) % 2048 ∧ u.chip.get F.NZH_ARQ_RSV_RSV = s.chip.get F.NZH_ARQ_RSV_RSV + 1 ∧
      u.chip.cmp.items.length = s.chip.cmp.items.length + 1 ∧ u.chip.fw.jobs = s.chip.fw.jobs) ∧
  (∀ (t q amt : Nat) (h : HostCmd) (d : List Nat) (s : State), s.chip.fwRuns = true → s.chip.pwrState ≠ 1 → s.chip.hst.cmds = [h] → h.sq = q → fieldLE h.entry 0 1 = 0x20 → s.chip.admits = true → fieldLE h.entry 16 1 = 1 → d = hostData s.store h.entry → submitLenOk d 1 0 = true → h.done = 0 → h.ofs = 0 →
    descJob d ∉ s.chip.fw.jobs →
    ∃ u, exec (.submitItems t q false amt []) s = .next u ∧ Leaves t [.hst, .pwr] ∅ s u ∧ u.chip.hst = s.chip.completed h 8 0 0) ∧
  (∀ (t q amt st : Nat) (h : HostCmd) (d : List Nat) (s : State), s.chip.fwRuns = true → s.chip.pwrState ≠ 1 → s.chip.hst.cmds = [h] → h.sq = q → fieldLE h.entry 0 1 = 0x20 → s.chip.admits = true → fieldLE h.entry 16 1 = 1 → d = hostData s.store h.entry → submitLenOk d 1 0 = true → h.done = 0 → h.ofs = 0 →
    descJob d ∈ s.chip.fw.jobs → st = s.chip.admission s.store d → st ≠ 0 →
    ∃ u, exec (.submitItems t q false amt []) s = .next u ∧ Leaves t [.hst, .pwr] ∅ s u ∧ u.chip.hst = s.chip.completed h st 0 0) ∧
  (∀ (t amt a e : Nat) (b d : List Nat) (s : State), s.chip.admits = true → s.chip.up 3 = true → s.chip.pwrState ≠ 1 → s.chip.get F.FAB_INBOX_RD_RD ≠ s.chip.get F.FAB_INBOX_WR_WR →
    e = s.chip.get F.FAB_INBOX_BASE_HI_ADDR * 2 ^ 32 + s.chip.get F.FAB_INBOX_BASE_LO_ADDR * 4096 + 4160 * (s.chip.get F.FAB_INBOX_RD_RD % 256) → s.chip.ddrReady = true → (∀ w : Fin 8, s.chip.on F.DDR_WIN_PERM_EN w = false) → s.chip.inDdr e 4160 = true →
    b = (s.store.read e 4160).map BitVec.toNat → d = (b.drop 64).take (fieldLE b 2 2) → s.chip.admission s.store d = 0 → s.chip.heavyItem s.store d = false → s.chip.up 5 = true → s.chip.switchState = 0 → s.chip.calBusy = false →
    a = s.chip.baseAddr F.CMP_IQ_BASE_LO_ADDR F.CMP_IQ_BASE_HI_ADDR + 4096 * (s.chip.get F.CMP_IQ_WR_WR % 1024) → s.chip.inDdr a 4096 = true → s.chip.ldl.grants = [] → s.chip.fab.items = [] →
    ∃ u, exec (.inboxAdmit t amt []) s = .next u ∧ LeavesChip t [.pwr, .fw, .sys, .cmp, .fab, .ev, .dirty, .force] {F.CMP_IQ_WR_WR.addr, F.NZH_ARQ_RSV_RSV.addr, F.FAB_INBOX_RD_RD.addr, F.CMP_SHSTAT_PENDING.addr, F.CMP_STAT_MARK_WAIT.addr} s u ∧
      u.store = s.store.write a (d.map (BitVec.ofNat 8)) ∧ u.chip.get F.CMP_IQ_WR_WR = (s.chip.get F.CMP_IQ_WR_WR + 1) % 2048 ∧ u.chip.get F.NZH_ARQ_RSV_RSV = s.chip.get F.NZH_ARQ_RSV_RSV + 1 ∧
      u.chip.get F.FAB_INBOX_RD_RD = (s.chip.get F.FAB_INBOX_RD_RD + 1) % 512) ∧
  (∀ (t amt e st : Nat) (b d : List Nat) (s : State), s.chip.admits = true → s.chip.up 3 = true → s.chip.pwrState ≠ 1 → s.chip.get F.FAB_INBOX_RD_RD ≠ s.chip.get F.FAB_INBOX_WR_WR →
    e = s.chip.get F.FAB_INBOX_BASE_HI_ADDR * 2 ^ 32 + s.chip.get F.FAB_INBOX_BASE_LO_ADDR * 4096 + 4160 * (s.chip.get F.FAB_INBOX_RD_RD % 256) → s.chip.ddrReady = true → (∀ w : Fin 8, s.chip.on F.DDR_WIN_PERM_EN w = false) → s.chip.inDdr e 4160 = true →
    b = (s.store.read e 4160).map BitVec.toNat → d = (b.drop 64).take (fieldLE b 2 2) → st = s.chip.admission s.store d → st ≠ 0 → st ≠ 0x20 → s.chip.switchState = 0 → s.chip.calBusy = false → s.chip.fab.items = [] →
    ∃ u, exec (.inboxAdmit t amt []) s = .next u ∧ Leaves t [.pwr, .sys, .fab, .ev] {F.FAB_INBOX_RD_RD.addr} s u ∧ u.chip.get F.FAB_INBOX_RD_RD = (s.chip.get F.FAB_INBOX_RD_RD + 1) % 512) ∧
  (∀ (t amt : Nat) (errs : List DdrError) (s : State), s.chip.pwrState ≠ 1 → s.chip.admits = false ∨ s.chip.get F.FAB_INBOX_RD_RD = s.chip.get F.FAB_INBOX_WR_WR →
    ∃ u, exec (.inboxAdmit t amt errs) s = .next u ∧ Leaves t [.pwr] ∅ s u) ∧
  (∀ (t q buf a n : Nat) (h : HostCmd) (l : List Nat) (s : State), s.chip.fwRuns = true → s.chip.pwrState ≠ 1 → s.chip.hst.cmds = [h] → h.sq = q → fieldLE h.entry 0 1 = 0x30 → s.chip.fw.sends = [] → s.chip.up 3 = true → n = s.chip.get F.FAB_TXQ_WR_WR → (n + 512 - s.chip.get F.FAB_TXQ_RD_RD) % 512 < 256 →
    l = hostData s.store h.entry → s.chip.ddrReady = true → (∀ w : Fin 8, s.chip.on F.DDR_WIN_PERM_EN w = false) → s.chip.inDdr buf l.length = true → a = s.chip.txSlotAddr (n % 256) → s.chip.inDdr a 32 = true → s.chip.switchState = 0 → s.chip.calBusy = false →
    ∃ u, exec (.fabSend t q buf false []) s = .next u ∧ LeavesChip t [.pwr, .fw, .sys] {F.FAB_TXQ_WR_WR.addr} s u ∧ u.chip.get F.FAB_TXQ_WR_WR = (n + 1) % 512 ∧
      u.chip.fw = { s.chip.fw with sends := [(q, n % 256)] } ∧
      u.store = (s.store.write buf (l.map (BitVec.ofNat 8))).write a (([fieldLE h.entry 16 1, fieldLE h.entry 17 1] ++ bytesLE 2 (fieldLE h.entry 18 2) ++ bytesLE 4 (entryDlen h.entry) ++ bytesLE 5 buf ++ [0, 0, 0] ++
        bytesLE 4 (fieldLE h.entry 20 4) ++ bytesLE 2 (fieldLE h.entry 24 2) ++ List.replicate 10 0).map (BitVec.ofNat 8))) ∧
  (∀ (t q : Nat) (h : HostCmd) (s : State), s.chip.fwRuns = true → s.chip.pwrState ≠ 1 → s.chip.hst.cmds = [h] → h.sq = q → fieldLE h.entry 0 1 = 0x40 → s.chip.fw.forward = none → s.chip.on F.MBXM_CTRL_FULL 0 = false → entryDlen h.entry = 0 → 1 ≤ fieldLE h.entry 16 1 → fieldLE h.entry 16 1 ≤ 13 → s.chip.fw.tcOut = [] →
    s.chip.on F.MBXM_CTRL_FULL 2 = false → s.chip.on F.MBXM_CTRL_FULL 4 = false → s.chip.switchState = 0 → s.chip.calBusy = false →
    ∃ u, exec (.tcForward t q) s = .next u ∧ Leaves t [.pwr, .fw, .sys, .ev] ({F.MBXM_CTRL_FULL.at 0 0} ∪ {a | ∃ w : Fin 12, a = R.MBX_MSG.at 0 w}) s u ∧ u.chip.on F.MBXM_CTRL_FULL 0 = true ∧
      (∀ w : Fin 12, u.chip.get R.MBX_MSG 0 w = fieldLE h.entry (16 + 4 * w.val) 4) ∧ u.chip.fw.forward = some (q, fieldLE h.entry 17 1, max s.chip.now t) ∧ u.chip.ev = { s.chip.ev with sig := s.chip.ev.sig ++ [.mailbox 0] }) ∧
  (∀ (t q tag since : Nat) (h : HostCmd) (s : State), s.chip.fwRuns = true → s.chip.hst.cmds = [h] → h.sq = q → s.chip.fw.forward = some (q, tag, since) → since + ms 1000 ≤ max s.chip.now t →
    ∃ u, exec (.tcForwardTimeout t) s = .next u ∧ Leaves t [.hst, .fw] ∅ s u ∧ u.chip.hst = s.chip.completed h 7 0 0 ∧ u.chip.fw = { s.chip.fw with forward := none }) ∧
  (∀ (t : Nat) (s : State), s.chip.fw.forward = none → exec (.tcForwardTimeout t) s = .next { s with chip := s.chip.at t }) ∧
  (∀ (t q p tgt : Nat) (h : HostCmd) (s : State), s.chip.fwRuns = true → s.chip.pwrState ≠ 1 → s.chip.hst.cmds = [h] → h.sq = q → fieldLE h.entry 0 1 = 0x50 → s.chip.fw.calCmd = none → entryDlen h.entry = 0 → p = fieldLE h.entry 16 1 → tgt = fieldLE h.entry 17 1 → tgt < calTargets p → s.chip.calBusy = false → s.chip.pwr.ready = [] →
    s.chip.calFails p tgt = 0 → p = 3 ∨ p = 4 →
    ∃ u, exec (.calRun t q) s = .next u ∧ Leaves t [.pwr, .fw, .sys, .cal] {F.CAL_STAT_BUSY.addr} s u ∧ u.chip.calBusy = true ∧ u.chip.calProc = p ∧ u.chip.calTarget = tgt ∧ u.chip.calPhase = 2 ∧
      u.chip.fw = { s.chip.fw with calCmd := some q } ∧ u.chip.hst = s.chip.hst) ∧
  (∀ (t q : Nat) (h : HostCmd) (s : State), s.chip.fwRuns = true → s.chip.pwrState ≠ 1 → s.chip.hst.cmds = [h] → h.sq = q → fieldLE h.entry 0 1 = 0x50 → s.chip.fw.calCmd = none → entryDlen h.entry = 0 → fieldLE h.entry 17 1 < calTargets (fieldLE h.entry 16 1) → s.chip.calBusy = true →
    ∃ u, exec (.calRun t q) s = .next u ∧ Leaves t [.pwr, .hst] ∅ s u ∧ u.chip.hst = s.chip.completed h 4 0 0)

/-- Mailbox traffic (R485). Of each of the eight mailboxes only the sender writes the message and SEND, and only the receiver writes ACK. A
message word and SEND are taken while FULL is 0: SEND sets FULL and signals the receiver, by its event source or, for mailbox 5, by its
vector where that is enabled; ACK clears FULL. Any other write has no effect, is done without a bus error and is counted; the first of a run
of them is recorded. -/
def Obligations.MailboxesHaveOneSender : Prop :=
  (∀ (t : Nat) (i : Initiator) (m : Fin 8) (s : State), s.chip.mayWrite i (R.MBXM_CTRL.at m 0) → i ∈ mailboxSenders.getD m.val [] → s.chip.on F.MBXM_CTRL_FULL m = false → m ≠ 5 → s.chip.fw.tcOut = [] → (∀ k : Fin 3, 1 ≤ s.chip.get F.MBX_MSG_DATA (2 * k.val) 0 % 256 ∧ s.chip.get F.MBX_MSG_DATA (2 * k.val) 0 % 256 ≤ 13) → 
    ∃ u, exec (.mbxSend t i m) s = .next u ∧ WriteLeaves t i (R.MBXM_CTRL.at m 0) [.fw, .ev] {R.MBXM_CTRL.at m 0} s u ∧ u.chip.on F.MBXM_CTRL_FULL m = true ∧
      u.chip.fw = { s.chip.fw with mbxRej := putBit s.chip.fw.mbxRej m false } ∧ u.chip.ev = { s.chip.ev with sig := s.chip.ev.sig ++ [.mailbox m] }) ∧
  (∀ (t : Nat) (s : State), s.chip.mayWrite .tc (R.MBXM_CTRL.at 5 0) → s.chip.on F.MBXM_CTRL_FULL 5 = false → s.chip.fw.tcOut = [] → (∀ k : Fin 3, 1 ≤ s.chip.get F.MBX_MSG_DATA (2 * k.val) 0 % 256 ∧ s.chip.get F.MBX_MSG_DATA (2 * k.val) 0 % 256 ≤ 13) → 
    ∃ u, exec (.mbxSend t .tc 5) s = .next u ∧ WriteLeaves t .tc (R.MBXM_CTRL.at 5 0) [.fw, .hst] {R.MBXM_CTRL.at 5 0} s u ∧ u.chip.on F.MBXM_CTRL_FULL 5 = true ∧
      u.chip.hst = { s.chip.hst with mbxDue := s.chip.hst.mbxDue || s.chip.on F.MBX_VEC_EN }) ∧
  (∀ (t : Nat) (i : Initiator) (m : Fin 8) (k : Fin 16) (w hi : Word) (s : State), s.chip.mayWrite i (R.MBX_MSG.at m k) → i ∈ mailboxSenders.getD m.val [] → s.chip.on F.MBXM_CTRL_FULL m = false →
    ∃ u, exec (.registerWrite t i (R.MBX_MSG.at m k) 4 w hi false [] []) s = .next u ∧ WriteLeaves t i (R.MBX_MSG.at m k) [.fw] {R.MBX_MSG.at m k} s u ∧ u.chip.get R.MBX_MSG m k = w.toNat ∧
      u.chip.fw = { s.chip.fw with mbxRej := putBit s.chip.fw.mbxRej m false }) ∧
  (∀ (t : Nat) (i : Initiator) (m : Fin 8) (s : State), s.chip.mayWrite i (R.MBXM_CTRL.at m 0) → i ∈ mailboxReceivers.getD m.val [] → s.chip.fw.tcOut = [] → (∀ k : Fin 3, 1 ≤ s.chip.get F.MBX_MSG_DATA (2 * k.val) 0 % 256 ∧ s.chip.get F.MBX_MSG_DATA (2 * k.val) 0 % 256 ≤ 13) → 
    ∃ u, exec (.mbxAck t i m) s = .next u ∧ WriteLeaves t i (R.MBXM_CTRL.at m 0) [.fw] {R.MBXM_CTRL.at m 0} s u ∧ u.chip.on F.MBXM_CTRL_FULL m = false ∧ u.chip.fw = { s.chip.fw with mbxRej := putBit s.chip.fw.mbxRej m false }) ∧
  (∀ (t : Nat) (i : Initiator) (m : Fin 8) (s : State), s.chip.mayWrite i (R.MBXM_CTRL.at m 0) → i ∉ mailboxSenders.getD m.val [] ∨ s.chip.on F.MBXM_CTRL_FULL m = true → bitAt s.chip.fw.mbxRej m = true → s.chip.fw.tcOut = [] → (∀ k : Fin 3, 1 ≤ s.chip.get F.MBX_MSG_DATA (2 * k.val) 0 % 256 ∧ s.chip.get F.MBX_MSG_DATA (2 * k.val) 0 % 256 ≤ 13) →
    ∃ u, exec (.mbxSend t i m) s = .next u ∧ WriteLeaves t i (R.MBXM_CTRL.at m 0) [] {F.MBX_REJ_CNT_COUNT.addr} s u ∧ u.chip.get F.MBX_REJ_CNT_COUNT = satNat (F.MBX_REJ_CNT_COUNT.hi + 1 - F.MBX_REJ_CNT_COUNT.lo) (s.chip.get F.MBX_REJ_CNT_COUNT + 1)) ∧
  (∀ (t : Nat) (i : Initiator) (m : Fin 8) (s : State), s.chip.mayWrite i (R.MBXM_CTRL.at m 0) → i ∉ mailboxSenders.getD m.val [] ∨ s.chip.on F.MBXM_CTRL_FULL m = true → bitAt s.chip.fw.mbxRej m = false → s.chip.fw.tcOut = [] → (∀ k : Fin 3, 1 ≤ s.chip.get F.MBX_MSG_DATA (2 * k.val) 0 % 256 ∧ s.chip.get F.MBX_MSG_DATA (2 * k.val) 0 % 256 ≤ 13) →
    ∃ u, exec (.mbxSend t i m) s = .next u ∧ WriteLeaves t i (R.MBXM_CTRL.at m 0) [.fw, .ev] {F.MBX_REJ_CNT_COUNT.addr} s u ∧ u.chip.get F.MBX_REJ_CNT_COUNT = satNat (F.MBX_REJ_CNT_COUNT.hi + 1 - F.MBX_REJ_CNT_COUNT.lo) (s.chip.get F.MBX_REJ_CNT_COUNT + 1) ∧ u.chip.fw = { s.chip.fw with mbxRej := putBit s.chip.fw.mbxRej m true } ∧ (s.chip.at t).Raised u.chip [(0x1C01, [(1, m), (1, initNo i)])]) ∧
  (∀ (t : Nat) (i : Initiator) (m : Fin 8) (s : State), s.chip.mayWrite i (R.MBXM_CTRL.at m 0) → i ∉ mailboxReceivers.getD m.val [] → bitAt s.chip.fw.mbxRej m = true → s.chip.fw.tcOut = [] → (∀ k : Fin 3, 1 ≤ s.chip.get F.MBX_MSG_DATA (2 * k.val) 0 % 256 ∧ s.chip.get F.MBX_MSG_DATA (2 * k.val) 0 % 256 ≤ 13) →
    ∃ u, exec (.mbxAck t i m) s = .next u ∧ WriteLeaves t i (R.MBXM_CTRL.at m 0) [] {F.MBX_REJ_CNT_COUNT.addr} s u ∧ u.chip.get F.MBX_REJ_CNT_COUNT = satNat (F.MBX_REJ_CNT_COUNT.hi + 1 - F.MBX_REJ_CNT_COUNT.lo) (s.chip.get F.MBX_REJ_CNT_COUNT + 1)) ∧
  (∀ (t : Nat) (i : Initiator) (m : Fin 8) (s : State), s.chip.mayWrite i (R.MBXM_CTRL.at m 0) → i ∉ mailboxReceivers.getD m.val [] → bitAt s.chip.fw.mbxRej m = false → s.chip.fw.tcOut = [] → (∀ k : Fin 3, 1 ≤ s.chip.get F.MBX_MSG_DATA (2 * k.val) 0 % 256 ∧ s.chip.get F.MBX_MSG_DATA (2 * k.val) 0 % 256 ≤ 13) →
    ∃ u, exec (.mbxAck t i m) s = .next u ∧ WriteLeaves t i (R.MBXM_CTRL.at m 0) [.fw, .ev] {F.MBX_REJ_CNT_COUNT.addr} s u ∧ u.chip.get F.MBX_REJ_CNT_COUNT = satNat (F.MBX_REJ_CNT_COUNT.hi + 1 - F.MBX_REJ_CNT_COUNT.lo) (s.chip.get F.MBX_REJ_CNT_COUNT + 1) ∧ u.chip.fw = { s.chip.fw with mbxRej := putBit s.chip.fw.mbxRej m true } ∧ (s.chip.at t).Raised u.chip [(0x1C01, [(1, m), (1, initNo i)])]) ∧
  (∀ (t : Nat) (i : Initiator) (m : Fin 8) (k : Fin 16) (w hi : Word) (s : State), s.chip.mayWrite i (R.MBX_MSG.at m k) → i ∉ mailboxSenders.getD m.val [] ∨ s.chip.on F.MBXM_CTRL_FULL m = true → bitAt s.chip.fw.mbxRej m = true → 
    ∃ u, exec (.registerWrite t i (R.MBX_MSG.at m k) 4 w hi false [] []) s = .next u ∧ WriteLeaves t i (R.MBX_MSG.at m k) [] {F.MBX_REJ_CNT_COUNT.addr} s u ∧ u.chip.get F.MBX_REJ_CNT_COUNT = satNat (F.MBX_REJ_CNT_COUNT.hi + 1 - F.MBX_REJ_CNT_COUNT.lo) (s.chip.get F.MBX_REJ_CNT_COUNT + 1)) ∧
  (∀ (t : Nat) (i : Initiator) (m : Fin 8) (k : Fin 16) (w hi : Word) (s : State), s.chip.mayWrite i (R.MBX_MSG.at m k) → i ∉ mailboxSenders.getD m.val [] ∨ s.chip.on F.MBXM_CTRL_FULL m = true → bitAt s.chip.fw.mbxRej m = false → 
    ∃ u, exec (.registerWrite t i (R.MBX_MSG.at m k) 4 w hi false [] []) s = .next u ∧ WriteLeaves t i (R.MBX_MSG.at m k) [.fw, .ev] {F.MBX_REJ_CNT_COUNT.addr} s u ∧ u.chip.get F.MBX_REJ_CNT_COUNT = satNat (F.MBX_REJ_CNT_COUNT.hi + 1 - F.MBX_REJ_CNT_COUNT.lo) (s.chip.get F.MBX_REJ_CNT_COUNT + 1) ∧ u.chip.fw = { s.chip.fw with mbxRej := putBit s.chip.fw.mbxRej m true } ∧ (s.chip.at t).Raised u.chip [(0x1C01, [(1, m), (1, initNo i)])])

/-- The commands of TC that load images and firmware (R45, R400, R405, R407, R487, R621). TC takes a message, acts on it and answers in the
reverse mailbox: IMG_LOAD copies an image and has it checked, IMG_SWITCH approves and IMG_CANCEL cancels its switch, FW_STAGE puts a
verified package into the slot not in use, FW_RESTART restarts service firmware from its other slot, at once or when the lines run low. The
model's own choices in this: entries 140, 141, 142, 143, 144, 145 of the log. -/
def Obligations.TrustLoadsImages : Prop :=
  (∀ (t m tag a0 a1 a2 src dst len : Nat) (s : State), s.chip.tcMessage m 1 = some (tag, [a0, a1, a2]) → s.chip.tcDenies m 1 (a0 == 1) = false → s.chip.on F.MBXM_CTRL_FULL (m + 1) = false → s.chip.fw.forward = none → s.chip.on F.STR_STAT_CHECKING = false → s.chip.switchState = 0 → src = fld F.STR_LOAD_HI_ADDR a1 * 2 ^ 32 + fld F.STR_LOAD_LO_ADDR a0 * 4 → dst = s.chip.get F.STR_SLOT_BASE_HI_ADDR * 2 ^ 32 + s.chip.get F.STR_SLOT_BASE_LO_ADDR * 4096 + 262144 * (1 - s.chip.get F.STR_STAT_ACTIVE_SLOT) → len = fld F.STR_LOAD_LEN_LEN a2 → 192 ≤ len → len ≤ 262144 → len % 64 = 0 → s.chip.calBusy = false → s.chip.ddrReady = true → (∀ w : Fin 8, s.chip.on F.DDR_WIN_PERM_EN w = false) → s.chip.inDdr src len = true → s.chip.inDdr dst len = true →
    ∃ u, exec (.imgLoad t m []) s = .next u ∧ LeavesChip t [.fw, .sys, .str] ({F.MBXM_CTRL_FULL.at m 0} ∪ {F.STR_LOAD_LO_ADDR.addr, F.STR_LOAD_HI_ADDR.addr, F.STR_LOAD_LEN_LEN.addr, F.STR_STAT_CHECKING.addr, F.STR_RESULT_DONE.addr}) s u ∧
      u.chip.on F.MBXM_CTRL_FULL m = false ∧ u.chip.on F.STR_STAT_CHECKING = true ∧ u.chip.on F.STR_RESULT_DONE = false ∧ u.chip.fw = { s.chip.fw with tcWait := s.chip.fw.tcWait ++ [(m, tag, 1)] } ∧
      u.store = { s.store with mem := u.store.mem } ∧ u.store.read dst len = s.store.read src len ∧ (∀ b : Nat, b < dst ∨ dst + len ≤ b → u.store.read b 1 = s.store.read b 1)) ∧
  (∀ (t m tag a0 a1 a2 : Nat) (s : State), s.chip.tcMessage m 1 = some (tag, [a0, a1, a2]) → s.chip.tcDenies m 1 (a0 == 1) = false → s.chip.on F.MBXM_CTRL_FULL (m + 1) = false → s.chip.fw.forward = none → s.chip.on F.STR_STAT_CHECKING = true ∨ s.chip.switchState ≠ 0 →
    ∃ u, exec (.imgLoad t m []) s = .next u ∧ Leaves t [.ev, .hst] (answerRegs m) s u ∧ u.chip.TcAnswered m tag 4 []) ∧
  (∀ (t m tag a0 a1 : Nat) (s : State), s.chip.tcMessage m 2 = some (tag, [a0, a1]) → s.chip.tcDenies m 2 (a0 == 1) = false → s.chip.on F.MBXM_CTRL_FULL (m + 1) = false → s.chip.fw.forward = none → s.chip.calBusy = false → s.chip.fw.calCmd = none → s.chip.on F.STR_STAT_PEND_VALID = true → s.chip.switchState = 0 → s.chip.on F.TRK_STAT_RUN = false → (∀ k : Fin 8, s.chip.portState k = 0) →
    s.chip.on F.FLW_SHSTAT_PENDING = false →
    ∃ u, exec (.imgSwitch t m) s = .next u ∧ Leaves t [.ev, .hst, .sys, .str, .tko] (answerRegs m ∪ {F.STR_SW_LINE_LO_LINE_LO.addr, F.STR_SW_LINE_HI_LINE_HI.addr, F.STR_STAT_SW_STATE.addr, F.STR_COLD_PORTS.addr}) s u ∧
      u.chip.TcAnswered m tag 0 [] ∧ u.chip.switchState = 1 ∧ u.chip.get F.STR_SW_LINE_LO_LINE_LO = a0 ∧ u.chip.get F.STR_SW_LINE_HI_LINE_HI = fld F.STR_SW_LINE_HI_LINE_HI a1 ∧ u.chip.str.wantReady = readyBlocks) ∧
  (∀ (t m tag a0 a1 r : Nat) (s : State), s.chip.tcMessage m 2 = some (tag, [a0, a1]) → s.chip.tcDenies m 2 (a0 == 1) = false → s.chip.on F.MBXM_CTRL_FULL (m + 1) = false → s.chip.fw.forward = none → s.chip.calBusy = false → s.chip.fw.calCmd = none → r = 0x40 ∧ s.chip.on F.STR_STAT_PEND_VALID = false ∨ r = 0x41 ∧ s.chip.on F.STR_STAT_PEND_VALID = true ∧ s.chip.switchState ≠ 0 →
    ∃ u, exec (.imgSwitch t m) s = .next u ∧ Leaves t [.ev, .hst, .sys] (answerRegs m ∪ {F.STR_SW_LINE_LO_LINE_LO.addr, F.STR_SW_LINE_HI_LINE_HI.addr, F.STR_RESULT_REASON.addr}) s u ∧ u.chip.TcAnswered m tag 9 [r] ∧ u.chip.switchState = s.chip.switchState) ∧
  (∀ (t m tag : Nat) (s : State), s.chip.tcMessage m 3 = some (tag, []) → s.chip.tcDenies m 3 (false) = false → s.chip.on F.MBXM_CTRL_FULL (m + 1) = false → s.chip.fw.forward = none → s.chip.calBusy = false → s.chip.switchState = 1 → (∀ k : Fin 8, (s.chip.port k).coldHold = false) →
    ∃ u, exec (.imgCancel t m) s = .next u ∧ Leaves t [.ev, .hst, .sys, .str, .tko, .hp] (answerRegs m ∪ {F.STR_STAT_SW_STATE.addr, F.STR_RESULT_REASON.addr}) s u ∧ u.chip.TcAnswered m tag 0 [] ∧ u.chip.switchState = 0 ∧
      u.chip.on F.STR_STAT_PEND_VALID = s.chip.on F.STR_STAT_PEND_VALID) ∧
  (∀ (t m tag : Nat) (s : State), s.chip.tcMessage m 3 = some (tag, []) → s.chip.tcDenies m 3 (false) = false → s.chip.on F.MBXM_CTRL_FULL (m + 1) = false → s.chip.fw.forward = none → s.chip.calBusy = false → s.chip.switchState ≠ 1 →
    ∃ u, exec (.imgCancel t m) s = .next u ∧ Leaves t [.ev, .hst, .sys] (answerRegs m ∪ {F.STR_REJ_CNT_COUNT.addr}) s u ∧ u.chip.TcAnswered m tag 9 [] ∧ u.chip.switchState = s.chip.switchState) ∧
  (∀ (t m tag a1 a2 a3 : Nat) (b : List Byte) (s : State), s.chip.tcMessage m 4 = some (tag, [0, a1, a2, a3]) → s.chip.tcDenies m 4 (false) = false → s.chip.on F.MBXM_CTRL_FULL (m + 1) = false → s.chip.fw.forward = none → b = s.store.read (a2 % 256 * 2 ^ 32 + a1) a3 → 64 ≤ a3 → s.chip.get F.SEC_PHASE_PHASE ≠ 3 → inScratch (a2 % 256 * 2 ^ 32 + a1) = true → a2 % 256 * 2 ^ 32 + a1 + a3 ≤ 0x100000 → a3 ≤ packageSize 2 → ((s.chip.at t).readFuses s.store).packageReason s.store 2 true (b.map BitVec.toNat) = 0 →
    ∃ u, exec (.fwStage t m []) s = .next u ∧ LeavesChip t [.ev, .hst, .sec, .sys] (answerRegs m ∪ blockRegsSet 0x1B) s u ∧ u.chip.TcAnswered m tag 0 [] ∧
      u.store = { s.store.writeFlash (packageBase 2 (1 - s.chip.sys.fwSlot)) b with mem := u.store.mem } ∧ u.store.mem = (s.store.write spareBase (pkgBody (b.map BitVec.toNat))).mem ∧ u.chip.sys = { s.chip.sys with fwCopy := true }) ∧
  (∀ (t m tag a1 a2 a3 : Nat) (b : List Byte) (s : State), s.chip.tcMessage m 4 = some (tag, [1, a1, a2, a3]) → s.chip.tcDenies m 4 (true) = false → s.chip.on F.MBXM_CTRL_FULL (m + 1) = false → s.chip.fw.forward = none → b = s.store.read (a2 % 256 * 2 ^ 32 + a1) a3 → 64 ≤ a3 → s.chip.get F.SEC_PHASE_PHASE ≠ 3 → inScratch (a2 % 256 * 2 ^ 32 + a1) = true → a2 % 256 * 2 ^ 32 + a1 + a3 ≤ 0x100000 → a3 ≤ packageSize 1 → ((s.chip.at t).readFuses s.store).packageReason s.store 1 true (b.map BitVec.toNat) = 0 →
    ∃ u, exec (.fwStage t m []) s = .next u ∧ LeavesChip t [.ev, .hst, .sec] (answerRegs m ∪ blockRegsSet 0x1B) s u ∧ u.chip.TcAnswered m tag 0 [] ∧
      u.store = s.store.writeFlash (packageBase 1 (1 - s.chip.get F.SEC_BOOT_TF_SLOT)) b) ∧
  (∀ (t m tag a0 a1 a2 a3 r : Nat) (b : List Byte) (s : State), s.chip.tcMessage m 4 = some (tag, [a0, a1, a2, a3]) → s.chip.tcDenies m 4 (a0 == 1) = false → s.chip.on F.MBXM_CTRL_FULL (m + 1) = false → s.chip.fw.forward = none → b = s.store.read (a2 % 256 * 2 ^ 32 + a1) a3 → 64 ≤ a3 → s.chip.get F.SEC_PHASE_PHASE ≠ 3 → inScratch (a2 % 256 * 2 ^ 32 + a1) = true → a2 % 256 * 2 ^ 32 + a1 + a3 ≤ 0x100000 → a0 ≤ 1 → a3 ≤ packageSize (2 - a0) → r = ((s.chip.at t).readFuses s.store).packageReason s.store (2 - a0) true (b.map BitVec.toNat) → r ≠ 0 →
    ∃ u, exec (.fwStage t m []) s = .next u ∧ Leaves t [.ev, .hst, .sec] (answerRegs m ∪ blockRegsSet 0x1B) s u ∧ u.chip.TcAnswered m tag 9 [r] ∧ u.chip.get F.SEC_BOOT_LAST_REASON = r % 2 ^ (F.SEC_BOOT_LAST_REASON.hi + 1 - F.SEC_BOOT_LAST_REASON.lo)) ∧
  (∀ (t m tag : Nat) (s : State), s.chip.tcMessage m 5 = some (tag, [0]) → s.chip.tcDenies m 5 (false) = false → s.chip.on F.MBXM_CTRL_FULL (m + 1) = false → s.chip.fw.forward = none → s.chip.sys.fwCopy = true → s.chip.on F.TRK_STAT_RUN = false →
    ∃ u, exec (.fwRestart t m) s = .next u ∧ u.pending = s.pending ∧ u.store = s.store.nameService (1 - s.chip.sys.fwSlot) ∧ u.chip.up 2 = false ∧ u.chip.sys.fwUp = false ∧ u.chip.sys.fwStarts = true ∧
      u.chip.sys.fwSlot = 1 - s.chip.sys.fwSlot ∧ u.chip.fw.tcWait = s.chip.fw.tcWait ++ [(m, tag, 5)]) ∧
  (∀ (t m tag : Nat) (s : State), s.chip.tcMessage m 5 = some (tag, [0]) → s.chip.tcDenies m 5 (false) = false → s.chip.on F.MBXM_CTRL_FULL (m + 1) = false → s.chip.fw.forward = none → s.chip.sys.fwCopy = false →
    ∃ u, exec (.fwRestart t m) s = .next u ∧ Leaves t [.ev, .hst] (answerRegs m) s u ∧ u.chip.TcAnswered m tag 9 []) ∧
  (∀ (t m tag : Nat) (s : State), s.chip.tcMessage m 5 = some (tag, [0]) → s.chip.tcDenies m 5 (false) = false → s.chip.on F.MBXM_CTRL_FULL (m + 1) = false → s.chip.fw.forward = none → s.chip.sys.fwCopy = true → s.chip.restartWaits = true →
    ∃ u, exec (.fwRestart t m) s = .next u ∧ Leaves t [.ev, .hst, .sys] (answerRegs m) s u ∧ u.chip.TcAnswered m tag 4 [] ∧ u.chip.sys = { s.chip.sys with fwDeferred := true })

/-- The further commands of TC (R380, R396, R487, R552, R606). POWER requests a power state; OTP_PROGRAM, OTP_LOCK and LIFE_CYCLE start a
command of the fuse controller with their arguments in its registers; TKO_SET sets what TKO may do; ISL_RESET resets islands; DEV_RESET,
with its key, resets the device; ADMIT_RELEASE lets items in again. A busy controller answers BUSY, wrong arguments BAD_ARG and a caller
without the right DENIED. The answer to a message that firmware forwarded completes the host's command. The model's own choices in this:
entries 140, 141, 142, 148 of the log. -/
def Obligations.TrustCommands : Prop :=
  (∀ (t m tag v : Nat) (s : State), s.chip.tcMessage m 6 = some (tag, [v]) → s.chip.tcDenies m 6 (v == 1) = false → s.chip.on F.MBXM_CTRL_FULL (m + 1) = false → s.chip.fw.forward = none → v ≤ 3 → v ≠ 0 → (v = 1 → s.chip.pwrState ≤ 1) → v ≠ s.chip.pwrState → s.chip.pwrPhase = 0 → s.chip.pwr.wake = none → s.chip.up 0 = true → aonCycle s.chip.pwr.latchAt ≠ aonCycle (max s.chip.now t) →
    ∃ u, exec (.power t m) s = .next u ∧ Leaves t [.fw, .sys, .pwr] ({F.MBXM_CTRL_FULL.at m 0} ∪ {F.PWR_STAT_PHASE.addr, F.PWR_WAKE_LATCH_LATCH.addr}) s u ∧ u.chip.on F.MBXM_CTRL_FULL m = false ∧ u.chip.pwrPhase = 1 ∧
      u.chip.get F.PWR_STAT_TARGET = v ∧ u.chip.get F.PWR_STAT_VOTER = (voterList v).headD 0 ∧ u.chip.fw = { s.chip.fw with tcWait := s.chip.fw.tcWait ++ [(m, tag, 6)] }) ∧
  (∀ (t m tag v : Nat) (s : State), s.chip.tcMessage m 6 = some (tag, [v]) → s.chip.tcDenies m 6 (v == 1) = false → s.chip.on F.MBXM_CTRL_FULL (m + 1) = false → s.chip.fw.forward = none → v ≤ 3 → s.chip.pwrPhase ≠ 0 →
    ∃ u, exec (.power t m) s = .next u ∧ Leaves t [.ev, .hst] (answerRegs m) s u ∧ u.chip.TcAnswered m tag 4 []) ∧
  (∀ (t m tag v : Nat) (s : State), s.chip.tcMessage m 6 = some (tag, [v]) → s.chip.tcDenies m 6 (v == 1) = false → s.chip.on F.MBXM_CTRL_FULL (m + 1) = false → s.chip.fw.forward = none → 3 < v →
    ∃ u, exec (.power t m) s = .next u ∧ Leaves t [.ev, .hst] (answerRegs m) s u ∧ u.chip.TcAnswered m tag 2 []) ∧
  (∀ (t m tag row w : Nat) (s : State), s.chip.tcMessage m 7 = some (tag, [row, w]) → s.chip.tcDenies m 7 (row == 1) = false → s.chip.on F.MBXM_CTRL_FULL (m + 1) = false → s.chip.fw.forward = none → row ≤ 511 → w < 2 ^ 32 → s.chip.on F.OTP_STAT_BUSY = false →
    ∃ u, exec (.otpProgram t m) s = .next u ∧ Leaves t [.fw, .sys, .otp] ({F.MBXM_CTRL_FULL.at m 0} ∪ {R.OTP_WDATA.addr, F.OTP_STAT_BUSY.addr, F.OTP_RESULT_DONE.addr}) s u ∧ u.chip.on F.MBXM_CTRL_FULL m = false ∧ u.chip.on F.OTP_STAT_BUSY = true ∧
      u.chip.get R.OTP_WDATA = w ∧ u.chip.otp = { s.chip.otp with cmd := some ⟨2, 0, row⟩, abort := false } ∧ u.chip.on F.OTP_STAT_PUMP_ON = (s.chip.get F.OTP_PGM_SRC == 2 || s.chip.get F.OTP_PGM_SRC == 0 && !s.chip.on F.OTP_STAT_VPP_OK) ∧ u.chip.fw = { s.chip.fw with tcWait := s.chip.fw.tcWait ++ [(m, tag, 7)] }) ∧
  (∀ (t m tag row w : Nat) (s : State), s.chip.tcMessage m 7 = some (tag, [row, w]) → s.chip.tcDenies m 7 (row == 1) = false → s.chip.on F.MBXM_CTRL_FULL (m + 1) = false → s.chip.fw.forward = none → row ≤ 511 → s.chip.on F.OTP_STAT_BUSY = true →
    ∃ u, exec (.otpProgram t m) s = .next u ∧ Leaves t [.ev, .hst] (answerRegs m) s u ∧ u.chip.TcAnswered m tag 4 []) ∧
  (∀ (t m tag r d0 d1 d2 d3 d4 d5 d6 d7 : Nat) (s : State), s.chip.tcMessage m 8 = some (tag, [r, d0, d1, d2, d3, d4, d5, d6, d7]) → s.chip.tcDenies m 8 (r == 1) = false → s.chip.on F.MBXM_CTRL_FULL (m + 1) = false → s.chip.fw.forward = none → r ≤ 10 → (∀ x ∈ [d0, d1, d2, d3, d4, d5, d6, d7], x < 2 ^ 32) → s.chip.on F.OTP_STAT_BUSY = false →
    ∃ u, exec (.otpLock t m) s = .next u ∧ Leaves t [.fw, .sys, .otp] ({F.MBXM_CTRL_FULL.at m 0} ∪ {F.OTP_STAT_BUSY.addr, F.OTP_RESULT_DONE.addr} ∪ {a | ∃ w : Fin 8, a = R.OTP_DIGEST.at w 0}) s u ∧ u.chip.on F.MBXM_CTRL_FULL m = false ∧
      u.chip.on F.OTP_STAT_BUSY = true ∧ (List.finRange 8).map (fun (w : Fin 8) => u.chip.get R.OTP_DIGEST w) = [d0, d1, d2, d3, d4, d5, d6, d7] ∧ u.chip.otp = { s.chip.otp with cmd := some ⟨4, r, 0⟩, abort := false } ∧
      u.chip.on F.OTP_STAT_PUMP_ON = (s.chip.get F.OTP_PGM_SRC == 2 || s.chip.get F.OTP_PGM_SRC == 0 && !s.chip.on F.OTP_STAT_VPP_OK) ∧ u.chip.fw = { s.chip.fw with tcWait := s.chip.fw.tcWait ++ [(m, tag, 8)] }) ∧
  (∀ (t m tag v : Nat) (s : State), s.chip.tcMessage m 9 = some (tag, [v]) → s.chip.tcDenies m 9 (v == 1) = false → s.chip.on F.MBXM_CTRL_FULL (m + 1) = false → s.chip.fw.forward = none → v ≤ 4 → s.chip.on F.OTP_STAT_BUSY = false →
    ∃ u, exec (.lifeCycle t m) s = .next u ∧ Leaves t [.fw, .sys, .otp] ({F.MBXM_CTRL_FULL.at m 0} ∪ {F.OTP_STAT_BUSY.addr, F.OTP_RESULT_DONE.addr}) s u ∧ u.chip.on F.MBXM_CTRL_FULL m = false ∧ u.chip.on F.OTP_STAT_BUSY = true ∧
      u.chip.otp = { s.chip.otp with cmd := some ⟨6, 0, v⟩, abort := false } ∧ u.chip.on F.OTP_STAT_PUMP_ON = (s.chip.get F.OTP_PGM_SRC == 2 || s.chip.get F.OTP_PGM_SRC == 0 && !s.chip.on F.OTP_STAT_VPP_OK) ∧ u.chip.fw = { s.chip.fw with tcWait := s.chip.fw.tcWait ++ [(m, tag, 9)] }) ∧
  (∀ (t m tag a0 a1 a2 : Nat) (s : State), s.chip.tcMessage m 10 = some (tag, [a0, a1, a2]) → s.chip.tcDenies m 10 (a0 == 1) = false → s.chip.on F.MBXM_CTRL_FULL (m + 1) = false → s.chip.fw.forward = none → s.chip.switchState = 0 → s.chip.calBusy = false → s.chip.up 3 = true → a0 / 2 % 2 = 0 → a0 % 2 = s.chip.get F.TKO_CTRL_EN → 100 ≤ fld F.TKO_LEAD_RET_LEAD a1 → fld F.TKO_LEAD_RET_LEAD a1 ≤ 1000 → 50 ≤ fld F.TKO_LEAD_REFILL a1 → fld F.TKO_LEAD_REFILL a1 ≤ 1000 →
    100 ≤ fld F.TKO_STBY_STBY_LEAD a2 → fld F.TKO_STBY_STBY_LEAD a2 ≤ 1000 →
    ∃ u, exec (.tkoSet t m) s = .next u ∧ Leaves t [.ev, .hst, .sys] (answerRegs m ∪ {R.TKO_CFG.addr, R.TKO_LEAD.addr, R.TKO_STBY.addr}) s u ∧ u.chip.TcAnswered m tag 0 [] ∧ u.chip.get F.TKO_CFG_AUTO_SOLO = a0 / 4 % 2 ∧
      u.chip.get F.TKO_CFG_CONFIRM = s.chip.get F.TKO_CFG_CONFIRM ∧ u.chip.get F.TKO_LEAD_RET_LEAD = fld F.TKO_LEAD_RET_LEAD a1 ∧ u.chip.get F.TKO_LEAD_REFILL = fld F.TKO_LEAD_REFILL a1 ∧
      u.chip.get F.TKO_STBY_STBY_LEAD = fld F.TKO_STBY_STBY_LEAD a2 ∧ u.chip.get F.TKO_STBY_ON_HALF = fld F.TKO_STBY_ON_HALF a2) ∧
  (∀ (t m tag a0 a1 a2 : Nat) (s : State), s.chip.tcMessage m 10 = some (tag, [a0, a1, a2]) → s.chip.tcDenies m 10 (a0 == 1) = false → s.chip.on F.MBXM_CTRL_FULL (m + 1) = false → s.chip.fw.forward = none → s.chip.switchState = 0 → s.chip.calBusy = false → s.chip.up 3 = true → a0 / 2 % 2 = 0 → a0 % 2 = 0 → s.chip.on F.TKO_CTRL_EN = true →
    ∃ u, exec (.tkoSet t m) s = .next u ∧ u.pending = s.pending ∧ u.store = s.store ∧ u.chip.TcAnswered m tag 0 [] ∧ u.chip.on F.TKO_CTRL_EN = false ∧ u.chip.get F.TKO_STAT_STATE = 0 ∧ u.chip.tko.decide = []) ∧
  (∀ (t m tag w isl : Nat) (s : State), s.chip.tcMessage m 11 = some (tag, [w]) → s.chip.tcDenies m 11 (w == 1) = false → s.chip.on F.MBXM_CTRL_FULL (m + 1) = false → s.chip.fw.forward = none → isl < 16 → 3 ≤ isl → w % 65536 = 2 ^ isl → s.chip.up 0 = true → s.chip.up isl = true →
    ∃ u, exec (.islReset t m) s = .next u ∧ u.pending = s.pending ∧ u.store = s.store ∧ u.chip.TcAnswered m tag 0 [] ∧ u.chip.up isl = false ∧ bitAt u.chip.sys.inReset isl = true ∧
      (∀ a : Nat, 0x10000000 ≤ a ∧ a < 0x10200000 ∧ islandOf (blockOf a) = isl ∧ a ≠ F.HST_SUBSYS_SUBSYS.addr → u.chip.word a = resetWord a)) ∧
  (∀ (t m tag w : Nat) (s : State), s.chip.tcMessage m 11 = some (tag, [w]) → s.chip.tcDenies m 11 (w == 1) = false → s.chip.on F.MBXM_CTRL_FULL (m + 1) = false → s.chip.fw.forward = none → w % 65536 = 4 → s.chip.up 0 = true →
    ∃ u, exec (.islReset t m) s = .next u ∧ u.pending = s.pending ∧ u.store = s.store ∧ u.chip.up 2 = false ∧ bitAt u.chip.sys.inReset 2 = true ∧ u.chip.fw.tcWait = s.chip.fw.tcWait ++ [(m, tag, 11)]) ∧
  (∀ (t m tag : Nat) (s : State), s.chip.tcMessage m 12 = some (tag, [0x5A3C]) → s.chip.tcDenies m 12 (false) = false → s.chip.on F.MBXM_CTRL_FULL (m + 1) = false → s.chip.fw.forward = none → 
    ∃ u, exec (.devReset t m) s = .next u ∧ u.pending = s.pending ∧ u.store = { s.store with mem := [] } ∧ u.chip.now = max s.chip.now t ∧ u.chip.thm = s.chip.thm ∧ u.chip.pwr.booting = true ∧
      u.chip.pwr.cause = s.chip.pwr.cause ||| 16 ∧ (∀ k, k < 16 → 2 ≤ k → u.chip.up k = false) ∧ (∀ a : Nat, 0x10020000 ≤ a ∧ a < 0x10200000 ∧ islandOf (blockOf a) ≠ 0 → u.chip.word a = resetWord a)) ∧
  (∀ (t m tag v : Nat) (s : State), s.chip.tcMessage m 12 = some (tag, [v]) → s.chip.tcDenies m 12 (v == 1) = false → s.chip.on F.MBXM_CTRL_FULL (m + 1) = false → s.chip.fw.forward = none → v ≠ 0x5A3C →
    ∃ u, exec (.devReset t m) s = .next u ∧ Leaves t [.ev, .hst] (answerRegs m) s u ∧ u.chip.TcAnswered m tag 2 []) ∧
  (∀ (t m tag : Nat) (s : State), s.chip.tcMessage m 13 = some (tag, []) → s.chip.tcDenies m 13 (false) = false → s.chip.on F.MBXM_CTRL_FULL (m + 1) = false → s.chip.fw.forward = none → 
    ∃ u, exec (.admitRelease t m) s = .next u ∧ Leaves t [.ev, .hst, .sys] (answerRegs m) s u ∧ u.chip.TcAnswered m tag 0 [] ∧ u.chip.sys = { s.chip.sys with holdAdmit := false } ∧
      u.chip.ev = (if m = 4 then s.chip.ev else { s.chip.ev with sig := s.chip.ev.sig ++ [.mailbox (m + 1)] })) ∧
  (∀ (t tag q since : Nat) (h : HostCmd) (s : State), s.chip.tcMessage 0 13 = some (tag, []) → s.chip.tcDenies 0 13 false = false → s.chip.on F.MBXM_CTRL_FULL 1 = false → s.chip.fw.forward = some (q, tag, since) → s.chip.sys.fwUp = true →
    s.chip.hst.cmds = [h] → h.sq = q →
    ∃ u, exec (.admitRelease t 0) s = .next u ∧ Leaves t [.ev, .hst, .sys, .fw] (answerRegs 0) s u ∧ u.chip.hst = s.chip.completed h 0 0 0 ∧ u.chip.fw = { s.chip.fw with forward := none } ∧
      u.chip.on F.MBXM_CTRL_FULL 1 = false) ∧
  (∀ (t m tag : Nat) (a : List Nat) (s : State), s.chip.tcMessage m 7 = some (tag, a) → s.chip.on F.MBXM_CTRL_FULL (m + 1) = false → s.chip.fw.forward = none → s.chip.get F.SEC_PHASE_PHASE ≠ 3 → m ≠ 4 → 
    ∃ u, exec (.otpProgram t m) s = .next u ∧ Leaves t [.ev] (answerRegs m) s u ∧ u.chip.TcAnswered m tag 5 []) ∧
  (∀ (t m tag : Nat) (a : List Nat) (s : State), s.chip.tcMessage m 3 = some (tag, a) → s.chip.tcDenies m 3 (a.getD 0 0 == 1) = false → s.chip.on F.MBXM_CTRL_FULL (m + 1) = false → s.chip.fw.forward = none → a.length ≠ 0 →
    ∃ u, exec (.imgCancel t m) s = .next u ∧ Leaves t [.ev, .hst] (answerRegs m) s u ∧ u.chip.TcAnswered m tag 2 [])

/-- The I²C target (R488, R489). Addressed in any state but Off it latches its wake source and answers: SYS_ID, the status word, which clears
the window's error, the reset causes, and the word at the window, which then goes on by four; it takes a new window address. Every answer is
four bytes with a PEC. Another address, or Off, moves nothing. The model's own choices in this: entry 147 of the log. -/
def Obligations.I2cTarget : Prop :=
  (∀ (t addr : Nat) (s : State), s.chip.i2cSees addr = true → s.chip.thm.tripped = false → bitAt (s.chip.get F.PWR_WAKE_EN_EN) 3 = false → 
    ∃ u, exec (.i2cReadSysId t addr) s = .next u ∧ Leaves t [.pwr, .sent] {F.PWR_WAKE_LATCH_LATCH.addr} s u ∧ bitAt (u.chip.get F.PWR_WAKE_LATCH_LATCH) 3 = true ∧ u.chip.sent = s.chip.sent ++ [⟨"i2c", i2cAnswer s.chip.sys.i2cAddr 0 (s.chip.get R.SYS_ID)⟩]) ∧
  (∀ (t addr : Nat) (s : State), s.chip.i2cSees addr = true → s.chip.thm.tripped = false → bitAt (s.chip.get F.PWR_WAKE_EN_EN) 3 = false → 
    ∃ u, exec (.i2cReadRstCause t addr) s = .next u ∧ Leaves t [.pwr, .sent] {F.PWR_WAKE_LATCH_LATCH.addr} s u ∧ bitAt (u.chip.get F.PWR_WAKE_LATCH_LATCH) 3 = true ∧ u.chip.sent = s.chip.sent ++ [⟨"i2c", i2cAnswer s.chip.sys.i2cAddr 2 (s.chip.get R.SYS_RST_CAUSE)⟩]) ∧
  (∀ (t addr : Nat) (s : State), s.chip.i2cSees addr = true → s.chip.thm.tripped = false → bitAt (s.chip.get F.PWR_WAKE_EN_EN) 3 = false → 
    ∃ u, exec (.i2cReadStatus t addr) s = .next u ∧ Leaves t [.pwr, .sent, .sys] {F.PWR_WAKE_LATCH_LATCH.addr} s u ∧ bitAt (u.chip.get F.PWR_WAKE_LATCH_LATCH) 3 = true ∧ u.chip.sent = s.chip.sent ++ [⟨"i2c", i2cAnswer s.chip.sys.i2cAddr 1 s.chip.i2cStatus⟩] ∧
      u.chip.sys = { s.chip.sys with winErr := false }) ∧
  (∀ (t addr w : Nat) (s : State), s.chip.i2cSees addr = true → s.chip.thm.tripped = false → bitAt (s.chip.get F.PWR_WAKE_EN_EN) 3 = false → 
    ∃ u, exec (.i2cSetWindow t addr w) s = .next u ∧ Leaves t [.pwr, .sys] {F.PWR_WAKE_LATCH_LATCH.addr} s u ∧ bitAt (u.chip.get F.PWR_WAKE_LATCH_LATCH) 3 = true ∧ u.chip.sys = { s.chip.sys with i2cWindow := w }) ∧
  (∀ (t addr a : Nat) (w : Word) (c : Chip) (s : State), s.chip.i2cSees addr = true → s.chip.thm.tripped = false → bitAt (s.chip.get F.PWR_WAKE_EN_EN) 3 = false → a = s.chip.sys.i2cWindow → c = (s.chip.at t).latchWake 3 → (c.busRead .host a 4).answer = .data w →
    ∃ u, exec (.i2cWindowRead t addr) s = .next u ∧ u.pending = s.pending ∧ u.store = s.store ∧ bitAt (u.chip.get F.PWR_WAKE_LATCH_LATCH) 3 = true ∧ (∀ x : Nat, u.chip.word x = (c.busRead .host a 4).word x) ∧ u.chip.latch = (c.busRead .host a 4).latch ∧ u.chip.answer = s.chip.answer ∧
      u.chip.sent = s.chip.sent ++ [⟨"i2c", i2cAnswer s.chip.sys.i2cAddr 9 w.toNat⟩] ∧ u.chip.sys = { s.chip.sys with i2cWindow := (a + 4) % 2 ^ 32 }) ∧
  (∀ (t addr a : Nat) (c : Chip) (s : State), s.chip.i2cSees addr = true → s.chip.thm.tripped = false → bitAt (s.chip.get F.PWR_WAKE_EN_EN) 3 = false → a = s.chip.sys.i2cWindow → c = (s.chip.at t).latchWake 3 → (c.busRead .host a 4).answer.isData = false →
    ∃ u, exec (.i2cWindowRead t addr) s = .next u ∧ u.pending = s.pending ∧ u.store = s.store ∧ bitAt (u.chip.get F.PWR_WAKE_LATCH_LATCH) 3 = true ∧ (∀ x : Nat, u.chip.word x = (c.busRead .host a 4).word x) ∧ u.chip.answer = s.chip.answer ∧
      u.chip.sent = s.chip.sent ++ [⟨"i2c", i2cAnswer s.chip.sys.i2cAddr 9 0xFFFFFFFF⟩] ∧ u.chip.sys = { s.chip.sys with i2cWindow := (a + 4) % 2 ^ 32, winErr := true }) ∧
  (∀ (t addr : Nat) (s : State), s.chip.pwr.off = true ∨ addr ≠ s.chip.sys.i2cAddr →
    exec (.i2cReadSysId t addr) s = .next { s with chip := s.chip.at t }) ∧
  (∀ (t addr : Nat) (s : State), s.chip.pwr.off = true ∨ addr ≠ s.chip.sys.i2cAddr →
    exec (.i2cReadStatus t addr) s = .next { s with chip := s.chip.at t }) ∧
  (∀ (t addr : Nat) (s : State), s.chip.pwr.off = true ∨ addr ≠ s.chip.sys.i2cAddr →
    exec (.i2cReadRstCause t addr) s = .next { s with chip := s.chip.at t }) ∧
  (∀ (t addr : Nat) (s : State), s.chip.pwr.off = true ∨ addr ≠ s.chip.sys.i2cAddr →
    exec (.i2cWindowRead t addr) s = .next { s with chip := s.chip.at t }) ∧
  (∀ (t addr w : Nat) (s : State), s.chip.pwr.off = true ∨ addr ≠ s.chip.sys.i2cAddr →
    exec (.i2cSetWindow t addr w) s = .next { s with chip := s.chip.at t })

/-- The map, steering and time of the fabric (R109, R112, R426 to R428, R431, R444 to R447, R462). The node floods its TOPO when it is due. Its
own node number in another's TOPO raises DUP_ID; any other TOPO enters the map, from which FAB_RING and FAB_SEGMAP follow, and the node of
best rank is master. A node silent for 3 ms leaves the map. Steering takes the one open way round the ring. A position sample is taken in
order and in time, else counted. A time exchange sends TREQ upstream; its answer gives offset and delay, a first large offset steps the time
keeper, and enough small ones lock it. The model's own choices in this: entries 96, 99 of the log. -/
def Obligations.FabricMapAndTime : Prop :=
  (∀ (t : Nat) (s : State), s.chip.up 3 = true → s.chip.on F.FAB_CTRL_EN = true → s.chip.fab.topoDue = true ∨ s.chip.fab.topoAt + ms 1 ≤ max s.chip.now t →
    ∃ u, exec (.topoSend t) s = .next u ∧ Leaves t [.fab, .sent, .ldl, .ev] (blockRegsSet 0x18) s u ∧ u.chip.fab.topoSeq = (s.chip.fab.topoSeq + 1) % 256 ∧ u.chip.fab.topoAt = max s.chip.now t ∧ u.chip.fab.topoDue = false ∧
      u.chip.fab.topoSent = ((s.chip.fab.topoSeq + 1) % 256 :: s.chip.fab.topoSent).take 128 ∧ u.chip.fab.bcastSeq[0] = (s.chip.fab.bcastSeq[0] + 1) % 65536 ∧ u.chip.fab.map = s.chip.fab.map) ∧
  (∀ (t : Nat) (s : State), s.chip.on F.FAB_CTRL_EN = false ∨ s.chip.fab.topoDue = false ∧ max s.chip.now t < s.chip.fab.topoAt + ms 1 →
    exec (.topoSend t) s = .next { s with chip := s.chip.at t }) ∧
  (∀ (t : Nat) (v : Topo) (s : State), s.chip.up 3 = true → v.node = s.chip.nodeId → v.tseq ∉ s.chip.fab.topoSent →
    ∃ u, exec (.topoRx t v) s = .next u ∧ Leaves t [.ev] {F.FAB_STAT_DUP_ID.addr} s u ∧ u.chip.on F.FAB_STAT_DUP_ID = true ∧ (s.chip.at t).Raised u.chip [(0x1805, [])]) ∧
  (∀ (t : Nat) (v : Topo) (s : State), v.node = s.chip.nodeId → v.tseq ∈ s.chip.fab.topoSent →
    exec (.topoRx t v) s = .next { s with chip := s.chip.at t }) ∧
  (∀ (t : Nat) (v : Topo) (s : State), s.chip.up 3 = true → v.node ≠ s.chip.nodeId →
    ∃ u, exec (.topoRx t v) s = .next u ∧ Leaves t [.fab, .ev] {F.FAB_RING_SIZE.addr, F.FAB_SEGMAP_REACH.addr, F.FAB_TSYNC_STAT_MASTER.addr} s u ∧ u.chip.fab.map = ⟨v, max s.chip.now t⟩ :: s.chip.fab.map.filter (fun m => m.topo.node != v.node) ∧ u.chip.on F.FAB_RING_VALID = true ∧
      (∀ w : Nat, bitAt (u.chip.get F.FAB_SEGMAP_REACH) w = (decide (w < 16) && (decide (s.chip.nodeId / 64 = w) || u.chip.fab.map.any (fun m => m.topo.node / 64 == w))))) ∧
  (∀ (t : Nat) (v : Topo) (s : State), s.chip.up 3 = true → v.node < 65536 → v.node ≠ s.chip.nodeId → (∀ m ∈ s.chip.fab.map, m.topo.node = v.node) → better v s.chip.ownTopo = true →
    ∃ u, exec (.topoRx t v) s = .next u ∧ u.chip.get F.FAB_TSYNC_STAT_MASTER_ID = v.node % 2 ^ (F.FAB_TSYNC_STAT_MASTER_ID.hi + 1 - F.FAB_TSYNC_STAT_MASTER_ID.lo) ∧ u.chip.on F.FAB_TSYNC_STAT_MASTER = false) ∧
  (∀ (t : Nat) (v : Topo) (s : State), s.chip.up 3 = true → v.node ≠ s.chip.nodeId → (∀ m ∈ s.chip.fab.map, m.topo.node = v.node) → better v s.chip.ownTopo = false →
    ∃ u, exec (.topoRx t v) s = .next u ∧ u.chip.get F.FAB_TSYNC_STAT_MASTER_ID = s.chip.nodeId ∧ u.chip.on F.FAB_TSYNC_STAT_MASTER = true ∧ u.chip.on F.FAB_TSYNC_STAT_ESTAB = true ∧
      u.chip.get F.FAB_TSYNC_STAT_HOPS = 0 ∧ u.chip.get F.FAB_TSYNC_STAT_UP_PORT = 0) ∧
  (∀ (t n : Nat) (s : State), s.chip.up 3 = true → (∃ m ∈ s.chip.fab.map, m.topo.node = n) → (∀ m ∈ s.chip.fab.map, m.topo.node = n → m.at' + ms 3 ≤ max s.chip.now t) → s.chip.get F.TRK_SRC_PRI ≠ 2 → s.chip.get F.TRK_SRC_FB ≠ 2 →
    ∃ u, exec (.nodeLost t n) s = .next u ∧ Leaves t [.fab, .ev] {F.FAB_RING_SIZE.addr, F.FAB_SEGMAP_REACH.addr, F.FAB_TSYNC_STAT_MASTER.addr} s u ∧ u.chip.fab.map = s.chip.fab.map.filter (fun m => m.topo.node != n) ∧ u.chip.fab.mapChanged = true ∧ u.chip.fab.topoDue = true ∧
      (∃ e ∈ u.chip.ev.recs, e.code = 0x1808)) ∧
  (∀ (t n : Nat) (s : State), (∀ m ∈ s.chip.fab.map, m.topo.node ≠ n) →
    exec (.nodeLost t n) s = .next { s with chip := s.chip.at t }) ∧
  (∀ (t : Nat) (s : State), s.chip.up 3 = true → s.chip.fab.mapChanged = true → s.chip.sys.lcUp = true →
    ∃ u, exec (.steered t) s = .next u ∧ Leaves t [.fab, .ev] {F.FAB_RING_SIZE.addr, F.FAB_SEGMAP_REACH.addr, F.FAB_TSYNC_STAT_MASTER.addr} s u ∧ u.chip.fab.mapChanged = false ∧ u.chip.fab.dirs.length = 64 ∧
      (∀ p, p < 64 → s.chip.wayOpen 1 ((p + s.chip.ringSize - s.chip.position) % s.chip.ringSize) s.chip.position = true → s.chip.wayOpen 2 ((s.chip.position + s.chip.ringSize - p) % s.chip.ringSize) s.chip.position = false → u.chip.fab.dirs.getD p 0 = 1) ∧
      (∀ p, p < 64 → s.chip.wayOpen 1 ((p + s.chip.ringSize - s.chip.position) % s.chip.ringSize) s.chip.position = false → s.chip.wayOpen 2 ((s.chip.position + s.chip.ringSize - p) % s.chip.ringSize) s.chip.position = true → u.chip.fab.dirs.getD p 0 = 2)) ∧
  (∀ (t : Nat) (s : State), s.chip.fab.mapChanged = false ∨ s.chip.sys.lcUp = false →
    exec (.steered t) s = .next { s with chip := s.chip.at t }) ∧
  (∀ (t node seq ts : Nat) (p : Int) (valid : Bool) (s : State), s.chip.on F.POS_ENCO_CFG_EN = false ∨ s.chip.get F.POS_ENCO_CFG_SRC ≠ 2 → ¬ (s.chip.get F.TRK_SRC_PRI = 2 ∧ node = s.chip.get F.TRK_FAB_NODE_PRI_NODE ∨ s.chip.get F.TRK_SRC_FB = 2 ∧ node = s.chip.get F.TRK_FAB_NODE_FB_NODE) →
    exec (.fabPosSampleRx t node seq ts p valid) s = .next { s with chip := s.chip.at t }) ∧
  (∀ (t node seq ts s0 t0 : Nat) (p : Int) (s : State), s.chip.up 6 = true → s.chip.trkOn = true → s.chip.on F.POS_ENCO_CFG_EN = false ∨ s.chip.get F.POS_ENCO_CFG_SRC ≠ 2 → s.chip.get F.TRK_SRC_PRI = 2 ∧ node = s.chip.get F.TRK_FAB_NODE_PRI_NODE ∨ s.chip.get F.TRK_SRC_FB = 2 ∧ node = s.chip.get F.TRK_FAB_NODE_FB_NODE → s.chip.trk.fabSeen = [(node, s0, t0)] → (seq + 256 - s0 % 256) % 256 = 0 ∨ 127 < (seq + 256 - s0 % 256) % 256 ∨ ts ≤ t0 ∨ ts * 2 ^ 31 + us (s.chip.get F.TRK_FAB_TIME_AGE) < max s.chip.now t →
    ∃ u, exec (.fabPosSampleRx t node seq ts p true) s = .next u ∧ Leaves t [] {F.TRK_REJ_CNT_COUNT.addr} s u ∧ u.chip.get F.TRK_REJ_CNT_COUNT = satNat (F.TRK_REJ_CNT_COUNT.hi + 1 - F.TRK_REJ_CNT_COUNT.lo) (s.chip.get F.TRK_REJ_CNT_COUNT + 1)) ∧
  (∀ (t node seq ts : Nat) (p : Int) (s : State), s.chip.up 6 = true → s.chip.trkOn = true → s.chip.on F.POS_ENCO_CFG_EN = false ∨ s.chip.get F.POS_ENCO_CFG_SRC ≠ 2 → s.chip.get F.TRK_SRC_PRI = 2 ∧ node = s.chip.get F.TRK_FAB_NODE_PRI_NODE ∨ s.chip.get F.TRK_SRC_FB = 2 ∧ node = s.chip.get F.TRK_FAB_NODE_FB_NODE → s.chip.trk.fabSeen = [] → max s.chip.now t ≤ ts * 2 ^ 31 + us (s.chip.get F.TRK_FAB_TIME_AGE) →
    ∃ u, exec (.fabPosSampleRx t node seq ts p true) s = .next u ∧ u.pending = s.pending ∧ u.store = s.store ∧ u.chip.now = max s.chip.now t ∧ u.chip.trk.fabSeen = [(node, seq, ts)] ∧
      (∀ m : Fin 2, m ∈ s.chip.fabMembers node → u.chip.trk.fabAt[m] = max s.chip.now t ∧ u.chip.trk.fabBad[m] = false) ∧ u.chip.pos = s.chip.pos ∧ u.chip.fab = s.chip.fab ∧ u.chip.cmp.items = s.chip.cmp.items) ∧
  (∀ (t : Nat) (s : State), s.chip.up 3 = true → s.chip.on F.FAB_TSYNC_EN = true → s.chip.get F.FAB_TSYNC_STAT_UP_PORT ≠ 0 → s.chip.fab.exchangedAt + us (s.chip.get F.FAB_TSYNC_PER) ≤ max s.chip.now t →
    ∃ u, exec (.timeExchange t) s = .next u ∧ Leaves t [.fab, .sent] ∅ s u ∧ u.chip.sent = s.chip.sent ++ [⟨"treq", [s.chip.get F.FAB_TSYNC_STAT_UP_PORT - 1, (s.chip.fab.tseq + 1) % 256]⟩] ∧
      u.chip.fab = { s.chip.fab with tseq := (s.chip.fab.tseq + 1) % 256, t1 := some (max s.chip.now t / 2 ^ 26), exchangedAt := max s.chip.now t }) ∧
  (∀ (t : Nat) (s : State), s.chip.on F.FAB_TSYNC_EN = false ∨ s.chip.get F.FAB_TSYNC_STAT_UP_PORT = 0 ∨ max s.chip.now t < s.chip.fab.exchangedAt + us (s.chip.get F.FAB_TSYNC_PER) →
    exec (.timeExchange t) s = .next { s with chip := s.chip.at t }) ∧
  (∀ (t tseq : Nat) (p : Fin 3) (s : State), s.chip.up 3 = true → s.chip.carriesFrames p = true →
    ∃ u, exec (.treqRx t p tseq) s = .next u ∧ Leaves t [.sent] ∅ s u ∧ u.chip.sent = s.chip.sent ++ [⟨"trsp", [p.val, tseq]⟩, ⟨"timeData", [p.val, tseq, max s.chip.now t / 2 ^ 26, max s.chip.now t / 2 ^ 26]⟩]) ∧
  (∀ (t tseq : Nat) (p : Fin 3) (s : State), s.chip.carriesFrames p = false →
    exec (.treqRx t p tseq) s = .next { s with chip := s.chip.at t }) ∧
  (∀ (t tseq t1 t2 t3 t4 : Nat) (p : Fin 3) (theta : Int) (s : State), s.chip.up 3 = true → s.chip.fab.t1 = some t1 → s.chip.fab.tseq = tseq → s.chip.get F.FAB_TSYNC_STAT_UP_PORT = p.val + 1 → theta = (((t2 : Int) - t1) + ((t3 : Int) - t4) - signed 16 (s.chip.get F.FAB_ASYM_ASYM p)) / 2 → s.chip.on F.FAB_TSYNC_STAT_LOCKED = true → theta.natAbs ≤ 64 * s.chip.get F.FAB_XTSYNC_STEP_THR →
    ∃ u, exec (.timeDataRx t tseq t2 t3 t4) s = .next u ∧ Leaves t [.fab] {F.FAB_TSYNC_OFS_OFS.addr, F.FAB_P_DELAY_DELAY.at p 0} s u ∧ u.chip.fab = { s.chip.fab with t1 := none } ∧ u.chip.get F.FAB_TSYNC_OFS_OFS = unsigned 32 theta ∧ u.chip.get F.FAB_P_DELAY_DELAY p = unsigned 24 ((((t4 : Int) - t1) - ((t3 : Int) - t2) + signed 16 (s.chip.get F.FAB_ASYM_ASYM p)) / 2)) ∧
  (∀ (t tseq t1 t2 t3 t4 : Nat) (p : Fin 3) (theta : Int) (s : State), s.chip.up 3 = true → s.chip.fab.t1 = some t1 → s.chip.fab.tseq = tseq → s.chip.get F.FAB_TSYNC_STAT_UP_PORT = p.val + 1 → theta = (((t2 : Int) - t1) + ((t3 : Int) - t4) - signed 16 (s.chip.get F.FAB_ASYM_ASYM p)) / 2 → s.chip.on F.FAB_TSYNC_STAT_LOCKED = true → 64 * s.chip.get F.FAB_XTSYNC_STEP_THR < theta.natAbs →
    ∃ u, exec (.timeDataRx t tseq t2 t3 t4) s = .next u ∧ Leaves t [.fab, .ev] {F.FAB_TSYNC_OFS_OFS.addr, F.FAB_P_DELAY_DELAY.at p 0} s u ∧ u.chip.fab = { s.chip.fab with t1 := none } ∧ u.chip.get F.FAB_TSYNC_OFS_OFS = unsigned 32 theta ∧ u.chip.get F.FAB_P_DELAY_DELAY p = unsigned 24 ((((t4 : Int) - t1) - ((t3 : Int) - t2) + signed 16 (s.chip.get F.FAB_ASYM_ASYM p)) / 2) ∧
      (s.chip.at t).Raised u.chip [(0x180C, [])]) ∧
  (∀ (t tseq t1 t2 t3 t4 : Nat) (p : Fin 3) (theta : Int) (s : State), s.chip.up 3 = true → s.chip.fab.t1 = some t1 → s.chip.fab.tseq = tseq → s.chip.get F.FAB_TSYNC_STAT_UP_PORT = p.val + 1 → theta = (((t2 : Int) - t1) + ((t3 : Int) - t4) - signed 16 (s.chip.get F.FAB_ASYM_ASYM p)) / 2 → s.chip.on F.FAB_TSYNC_STAT_LOCKED = false → s.chip.fab.everLocked = false → 64 * s.chip.get F.FAB_XTSYNC_STEP_THR < theta.natAbs → 16 * s.chip.get F.FAB_XTSYNC_LOCK_THR < theta.natAbs → s.chip.get F.FAB_XTSYNC_LOCK_N ≠ 0 →
    ∃ u, exec (.timeDataRx t tseq t2 t3 t4) s = .next u ∧ Leaves t [.fab, .now] {F.FAB_TSYNC_OFS_OFS.addr, F.FAB_P_DELAY_DELAY.at p 0} s u ∧ u.chip.fab = { s.chip.fab with t1 := none, good := 0 } ∧ u.chip.get F.FAB_TSYNC_OFS_OFS = unsigned 32 theta ∧ u.chip.get F.FAB_P_DELAY_DELAY p = unsigned 24 ((((t4 : Int) - t1) - ((t3 : Int) - t2) + signed 16 (s.chip.get F.FAB_ASYM_ASYM p)) / 2) ∧
      u.chip.now = ((max s.chip.now t : Int) + theta * 2 ^ 26).toNat) ∧
  (∀ (t tseq t1 t2 t3 t4 : Nat) (p : Fin 3) (theta : Int) (s : State), s.chip.up 3 = true → s.chip.fab.t1 = some t1 → s.chip.fab.tseq = tseq → s.chip.get F.FAB_TSYNC_STAT_UP_PORT = p.val + 1 → theta = (((t2 : Int) - t1) + ((t3 : Int) - t4) - signed 16 (s.chip.get F.FAB_ASYM_ASYM p)) / 2 → s.chip.on F.FAB_TSYNC_STAT_LOCKED = false → theta.natAbs ≤ 16 * s.chip.get F.FAB_XTSYNC_LOCK_THR → theta.natAbs ≤ 64 * s.chip.get F.FAB_XTSYNC_STEP_THR → s.chip.get F.FAB_XTSYNC_LOCK_N ≤ s.chip.fab.good + 1 →
    ∃ u, exec (.timeDataRx t tseq t2 t3 t4) s = .next u ∧ Leaves t [.fab, .ev] {F.FAB_TSYNC_OFS_OFS.addr, F.FAB_P_DELAY_DELAY.at p 0, F.FAB_TSYNC_STAT_LOCKED.addr} s u ∧ u.chip.get F.FAB_TSYNC_OFS_OFS = unsigned 32 theta ∧ u.chip.get F.FAB_P_DELAY_DELAY p = unsigned 24 ((((t4 : Int) - t1) - ((t3 : Int) - t2) + signed 16 (s.chip.get F.FAB_ASYM_ASYM p)) / 2) ∧ u.chip.on F.FAB_TSYNC_STAT_LOCKED = true ∧
      u.chip.on F.FAB_TSYNC_STAT_ESTAB = true ∧ u.chip.fab = { s.chip.fab with t1 := none, good := s.chip.fab.good + 1, everLocked := true, mapChanged := true, topoDue := true } ∧ (s.chip.at t).Raised u.chip [(0x180A, [(4, unsigned 32 theta)])]) ∧
  (∀ (t tseq t2 t3 t4 : Nat) (s : State), s.chip.fab.t1 = none ∨ s.chip.fab.tseq ≠ tseq →
    exec (.timeDataRx t tseq t2 t3 t4) s = .next { s with chip := s.chip.at t }) ∧
  (∀ (t : Nat) (s : State), s.chip.up 3 = true →
    ∃ u, exec (.lcRestart t) s = .next u ∧ Leaves t [.sys] {F.FAB_TSYNC_STAT_HOLDOVER.addr} s u ∧ u.chip.sys = { s.chip.sys with lcUp := true } ∧ u.chip.on F.FAB_TSYNC_STAT_HOLDOVER = true)

/-- A calibration run starts (R665 to R668). With its preconditions met a procedure waits, and those that wait for no input ask for their Ladle
grant at once; FIRE_TRIM and TICK_TRIM ask once a strobe or the chart has come. A run is busy with its procedure and target; a second GO, or
one for a target that the procedure does not have, is counted. A condition that fails, at the start or later, ends the run with PRECONDITION
and its number. The model's own choices in this: entries 161, 163 of the log. -/
def Obligations.CalibrationStarts : Prop :=
  (∀ (t : Nat) (i : Initiator) (w : Word) (k : Fin 8) (s : State), s.chip.mayWrite i R.CAL_CMD.addr → s.chip.fw.calCmd = none → s.chip.calBusy = false → 3 ∉ s.chip.pwr.ready → bitAt w.toNat 30 = false → bitsOf w.toNat 15 8 = k → s.chip.ldl.asks = [] → s.chip.ldl.grants = [] → s.chip.hasPort k = true → s.chip.isUp k = true → s.chip.get F.HP_STAT_LANES k = 3 → s.chip.on F.HP_STAT_BC_LOCK k = true →
    ∃ u, exec (.linkDeskew t i w) s = .next u ∧ WriteLeaves t i R.CAL_CMD.addr [.cal, .ldl] {F.CAL_STAT_BUSY.addr} s u ∧ u.chip.calBusy = true ∧ u.chip.calProc = 1 ∧ u.chip.calTarget = k ∧ u.chip.calPhase = 2 ∧
      u.chip.cal = { s.chip.cal with startAt := max s.chip.now t, hot := signed 16 (s.chip.get F.THM_HOTTEST_T), samples := [], chart := none, dashes := [], bad := [], laneOff := false } ∧
      u.chip.ldl = { s.chip.ldl with asks := [⟨4, 0, 0, s.chip.get F.CAL_LDL_AMT, none⟩] }) ∧
  (∀ (t : Nat) (i : Initiator) (w : Word) (k : Fin 8) (s : State), s.chip.mayWrite i R.CAL_CMD.addr → s.chip.fw.calCmd = none → s.chip.calBusy = false → 3 ∉ s.chip.pwr.ready → bitAt w.toNat 30 = false → bitsOf w.toNat 15 8 = k → s.chip.ldl.asks = [] → s.chip.ldl.grants = [] → s.chip.hasPort k = true → s.chip.isUp k = true → s.chip.on F.HP_STAT_BC_LOCK k = true →
    ∃ u, exec (.bcPhase t i w) s = .next u ∧ WriteLeaves t i R.CAL_CMD.addr [.cal, .ldl] {F.CAL_STAT_BUSY.addr} s u ∧ u.chip.calBusy = true ∧ u.chip.calProc = 2 ∧ u.chip.calTarget = k ∧ u.chip.calPhase = 2 ∧
      u.chip.cal = { s.chip.cal with startAt := max s.chip.now t, hot := signed 16 (s.chip.get F.THM_HOTTEST_T), samples := [], chart := none, dashes := [], bad := [], laneOff := false } ∧
      u.chip.ldl = { s.chip.ldl with asks := [⟨4, 0, 0, s.chip.get F.CAL_LDL_AMT, none⟩] }) ∧
  (∀ (t : Nat) (i : Initiator) (w : Word) (k : Fin 8) (s : State), s.chip.mayWrite i R.CAL_CMD.addr → s.chip.fw.calCmd = none → s.chip.calBusy = false → 3 ∉ s.chip.pwr.ready → bitAt w.toNat 30 = false → bitsOf w.toNat 15 8 = k → s.chip.hasPort k = true → s.chip.isUp k = true →
    ∃ u, exec (.fireTrim t i w) s = .next u ∧ WriteLeaves t i R.CAL_CMD.addr [.cal] {F.CAL_STAT_BUSY.addr} s u ∧ u.chip.calBusy = true ∧ u.chip.calProc = 3 ∧ u.chip.calTarget = k ∧ u.chip.calPhase = 2 ∧
      u.chip.cal = { s.chip.cal with startAt := max s.chip.now t, hot := signed 16 (s.chip.get F.THM_HOTTEST_T), samples := [], chart := none, dashes := [], bad := [], laneOff := false }) ∧
  (∀ (t : Nat) (i : Initiator) (w : Word) (k : Fin 8) (s : State), s.chip.mayWrite i R.CAL_CMD.addr → s.chip.fw.calCmd = none → s.chip.calBusy = false → 3 ∉ s.chip.pwr.ready → bitAt w.toNat 30 = false → bitsOf w.toNat 15 8 = k → s.chip.hasPort k = true → s.chip.isUp k = true → s.chip.isFenced k = false → s.chip.on F.HP_PSTAT_BLANK k = false → s.chip.on F.TRK_STAT_RUN = true → s.chip.on F.TRK_STAT_COAST = false → s.chip.on F.TRK_STAT_NO_SOURCE = false →
    s.chip.on F.POS_MARK_CFG_EN (s.chip.get F.CAL_CHART_MARK) = true → s.chip.on F.POS_MARK_CFG_WIN_EN (s.chip.get F.CAL_CHART_MARK) = false → (∀ a ∈ s.chip.cmp.items, a.anchor = 2 → s.chip.get F.CMP_LANE_MARK_MARK_SEL a.lane = s.chip.get F.CAL_CHART_MARK → a.stage = .done) → s.chip.switchState = 0 →
    ∃ u, exec (.tickTrim t i w) s = .next u ∧ WriteLeaves t i R.CAL_CMD.addr [.cal] {F.CAL_STAT_BUSY.addr} s u ∧ u.chip.calBusy = true ∧ u.chip.calProc = 4 ∧ u.chip.calTarget = k ∧ u.chip.calPhase = 2 ∧
      u.chip.cal = { s.chip.cal with startAt := max s.chip.now t, hot := signed 16 (s.chip.get F.THM_HOTTEST_T), samples := [], chart := none, dashes := [], bad := [], laneOff := false }) ∧
  (∀ (t : Nat) (i : Initiator) (w : Word) (k : Fin 2) (s : State), s.chip.mayWrite i R.CAL_CMD.addr → s.chip.fw.calCmd = none → s.chip.calBusy = false → 3 ∉ s.chip.pwr.ready → bitAt w.toNat 30 = false → bitsOf w.toNat 15 8 = k → s.chip.ldl.asks = [] → s.chip.ldl.grants = [] → s.chip.on F.POS_ENC_CFG_EN k = true → s.chip.get F.POS_ENC_STAT_WIRE_ACT k = 0 → (s.chip.at t).calMotion k = true →
    ∃ u, exec (.encThr t i w) s = .next u ∧ WriteLeaves t i R.CAL_CMD.addr [.cal, .ldl] {F.CAL_STAT_BUSY.addr} s u ∧ u.chip.calBusy = true ∧ u.chip.calProc = 5 ∧ u.chip.calTarget = k ∧ u.chip.calPhase = 2 ∧
      u.chip.cal = { s.chip.cal with startAt := max s.chip.now t, hot := signed 16 (s.chip.get F.THM_HOTTEST_T), samples := [], chart := none, dashes := [], bad := [], laneOff := false } ∧
      u.chip.ldl = { s.chip.ldl with asks := [⟨4, 0, 0, s.chip.get F.CAL_LDL_AMT, none⟩] }) ∧
  (∀ (t : Nat) (i : Initiator) (w : Word) (k : Fin 3) (s : State), s.chip.mayWrite i R.CAL_CMD.addr → s.chip.fw.calCmd = none → s.chip.calBusy = false → 3 ∉ s.chip.pwr.ready → bitAt w.toNat 30 = false → bitsOf w.toNat 15 8 = k → s.chip.ldl.asks = [] → s.chip.ldl.grants = [] → k < 2 ∨ s.chip.feature 4 = true → s.chip.get F.FAB_P_STAT_STATE k = 3 → s.chip.get F.FAB_P_STAT_LANES k = 3 →
    ∃ u, exec (.fabEq t i w) s = .next u ∧ WriteLeaves t i R.CAL_CMD.addr [.cal, .ldl] {F.CAL_STAT_BUSY.addr} s u ∧ u.chip.calBusy = true ∧ u.chip.calProc = 6 ∧ u.chip.calTarget = k ∧ u.chip.calPhase = 2 ∧
      u.chip.cal = { s.chip.cal with startAt := max s.chip.now t, hot := signed 16 (s.chip.get F.THM_HOTTEST_T), samples := [], chart := none, dashes := [], bad := [], laneOff := false } ∧
      u.chip.ldl = { s.chip.ldl with asks := [⟨4, 0, 0, s.chip.get F.CAL_LDL_AMT, none⟩] }) ∧
  (∀ (t : Nat) (i : Initiator) (w : Word) (k : Fin 1) (s : State), s.chip.mayWrite i R.CAL_CMD.addr → s.chip.fw.calCmd = none → s.chip.calBusy = false → 3 ∉ s.chip.pwr.ready → bitAt w.toNat 30 = false → bitsOf w.toNat 15 8 = k → s.chip.ldl.asks = [] → s.chip.ldl.grants = [] → s.chip.on F.DDR_STAT_READY = true → s.chip.on F.DDR_STAT_SR = false →
    ∃ u, exec (.ddrTrack t i w) s = .next u ∧ WriteLeaves t i R.CAL_CMD.addr [.cal, .ldl] {F.CAL_STAT_BUSY.addr} s u ∧ u.chip.calBusy = true ∧ u.chip.calProc = 7 ∧ u.chip.calTarget = k ∧ u.chip.calPhase = 2 ∧
      u.chip.cal = { s.chip.cal with startAt := max s.chip.now t, hot := signed 16 (s.chip.get F.THM_HOTTEST_T), samples := [], chart := none, dashes := [], bad := [], laneOff := false } ∧
      u.chip.ldl = { s.chip.ldl with asks := [⟨4, 0, 0, s.chip.get F.CAL_LDL_AMT, none⟩] }) ∧
  (∀ (t : Nat) (i : Initiator) (w : Word) (k : Fin 4) (s : State), s.chip.mayWrite i R.CAL_CMD.addr → s.chip.fw.calCmd = none → s.chip.calBusy = false → 3 ∉ s.chip.pwr.ready → bitAt w.toNat 30 = false → bitsOf w.toNat 15 8 = k → s.chip.ldl.asks = [] → s.chip.ldl.grants = [] → s.chip.on F.THM_SENS_RANGE k = false → s.chip.on F.CAL_ARG_ABS = true ∨ 2 ≤ (s.chip.validSensors.filter (fun (e : Fin 4) => e != k)).length →
    ∃ u, exec (.sensOfs t i w) s = .next u ∧ WriteLeaves t i R.CAL_CMD.addr [.cal, .ldl] {F.CAL_STAT_BUSY.addr} s u ∧ u.chip.calBusy = true ∧ u.chip.calProc = 8 ∧ u.chip.calTarget = k ∧ u.chip.calPhase = 2 ∧
      u.chip.cal = { s.chip.cal with startAt := max s.chip.now t, hot := signed 16 (s.chip.get F.THM_HOTTEST_T), samples := [], chart := none, dashes := [], bad := [], laneOff := false } ∧
      u.chip.ldl = { s.chip.ldl with asks := [⟨4, 0, 0, s.chip.get F.CAL_LDL_AMT, none⟩] }) ∧
  (∀ (t : Nat) (i : Initiator) (w : Word) (s : State), s.chip.mayWrite i R.CAL_CMD.addr → s.chip.fw.calCmd = none → bitAt w.toNat 30 = false → s.chip.calBusy = true ∨ 8 ≤ bitsOf w.toNat 15 8 ∨ 3 ∈ s.chip.pwr.ready →
    ∃ u, exec (.linkDeskew t i w) s = .next u ∧ WriteLeaves t i R.CAL_CMD.addr [] {F.CAL_REJ_CNT_COUNT.addr} s u ∧ u.chip.get F.CAL_REJ_CNT_COUNT = satNat (F.CAL_REJ_CNT_COUNT.hi + 1 - F.CAL_REJ_CNT_COUNT.lo) (s.chip.get F.CAL_REJ_CNT_COUNT + 1)) ∧
  (∀ (t : Nat) (i : Initiator) (w : Word) (k : Fin 8) (s : State), s.chip.mayWrite i R.CAL_CMD.addr → s.chip.fw.calCmd = none → s.chip.calBusy = false → 3 ∉ s.chip.pwr.ready → bitAt w.toNat 30 = false → bitsOf w.toNat 15 8 = k → s.chip.hasPort k = false ∨ s.chip.isUp k = false →
    ∃ u, exec (.bcPhase t i w) s = .next u ∧ WriteLeaves t i R.CAL_CMD.addr [.cal, .ldl, .ev] ({F.CAL_RESULT_CODE.addr, F.CAL_QUALITY_FIGURE.addr, F.CAL_STAT_BUSY.addr, F.CAL_CNT_APPLIED.addr} ∪ blockRegsSet 0x08) s u ∧ u.chip.calBusy = false ∧ u.chip.calPhase = 0 ∧ u.chip.on F.CAL_RESULT_DONE = true ∧ u.chip.get F.CAL_RESULT_PROC = 2 ∧ u.chip.get F.CAL_RESULT_CODE = 1 ∧ u.chip.get F.CAL_RESULT_DETAIL = 1 ∧
      u.chip.get F.CAL_QUALITY_FIGURE = 0 ∧ u.chip.ldlHolds 4 0 = false ∧ (∀ g ∈ s.chip.ldl.grants, g.client ≠ 4 → g ∈ u.chip.ldl.grants) ∧ (s.chip.at t).Raised u.chip [(0x1A01, [(1, 2), (1, k.val), (1, 1), (1, 1), (2, 0)])]) ∧
  (∀ (t : Nat) (s : State), s.chip.up 2 = true → s.chip.fw.calCmd = none → s.chip.calBusy = true → s.chip.calPhase = 2 → s.chip.calProc = 3 → (s.chip.at t).calStrobe s.chip.calPort = true → s.chip.ldl.asks = [] → s.chip.ldl.grants = [] →
    ∃ u, exec (.calInputPresent t) s = .next u ∧ Leaves t [.ldl] ∅ s u ∧ u.chip.ldl = { s.chip.ldl with asks := [⟨4, 0, 0, s.chip.get F.CAL_LDL_AMT, none⟩] }) ∧
  (∀ (t : Nat) (a : Item) (s : State), s.chip.up 2 = true → s.chip.fw.calCmd = none → s.chip.calBusy = true → s.chip.calPhase = 2 → s.chip.calProc = 4 → s.chip.cal.chart = none → s.chip.cmp.items = [a] → a.id = s.chip.get F.CAL_CHART_ID_HI_ID_HI * 2 ^ 32 + s.chip.get F.CAL_CHART_ID_LO_ID_LO → a.stage = .placed ∨ a.stage = .done → s.chip.ldl.asks = [] → s.chip.ldl.grants = [] →
    ∃ u, exec (.calInputPresent t) s = .next u ∧ Leaves t [.cal, .ldl] ∅ s u ∧ u.chip.cal = { s.chip.cal with chart := some a.start } ∧ u.chip.ldl = { s.chip.ldl with asks := [⟨4, 0, 0, s.chip.get F.CAL_LDL_AMT, none⟩] }) ∧
  (∀ (t : Nat) (s : State), s.chip.fw.calCmd = none → s.chip.calBusy = false ∨ s.chip.calPhase ≠ 2 →
    exec (.calInputPresent t) s = .next { s with chip := s.chip.at t }) ∧
  (∀ (t f : Nat) (s : State), s.chip.up 2 = true → s.chip.fw.calCmd = none → s.chip.calBusy = true → s.chip.cal.laneOff = false → s.chip.calPhase < 4 → f = (s.chip.at t).calFails s.chip.calProc s.chip.calTarget → f ≠ 0 →
    ∃ u, exec (.calPrecondCheck t) s = .next u ∧ Leaves t [.cal, .ldl, .ev] ({F.CAL_RESULT_CODE.addr, F.CAL_QUALITY_FIGURE.addr, F.CAL_STAT_BUSY.addr, F.CAL_CNT_APPLIED.addr} ∪ blockRegsSet 0x08) s u ∧ u.chip.calBusy = false ∧ u.chip.calPhase = 0 ∧ u.chip.on F.CAL_RESULT_DONE = true ∧ u.chip.get F.CAL_RESULT_PROC = s.chip.calProc ∧ u.chip.get F.CAL_RESULT_CODE = 1 ∧ u.chip.get F.CAL_RESULT_DETAIL = f ∧
      u.chip.get F.CAL_QUALITY_FIGURE = 0 ∧ u.chip.ldlHolds 4 0 = false ∧ (∀ g ∈ s.chip.ldl.grants, g.client ≠ 4 → g ∈ u.chip.ldl.grants) ∧ (s.chip.at t).Raised u.chip [(0x1A01, [(1, s.chip.calProc), (1, s.chip.calTarget), (1, 1), (1, f), (2, 0)])]) ∧
  (∀ (t : Nat) (s : State), s.chip.up 2 = true → s.chip.fw.calCmd = none → s.chip.calBusy = true → (s.chip.at t).calFails s.chip.calProc s.chip.calTarget = 0 →
    exec (.calPrecondCheck t) s = .next { s with chip := s.chip.at t })

/-- A calibration run ends (R668, R671 to R677, R680 to R683, R685 to R688). Every end says its result, figure and event and gives the grant
back. A good result takes its values into use unless NO_APPLY is set; one below its limit, none at all, an abort or a timeout changes
nothing. A write through the window sets the value selected by its initiator; one that does not fit is ignored and counted. The model's own
choices in this: entries 162, 164, 165, 166, 167 of the log. -/
def Obligations.CalibrationEnds : Prop :=
  (∀ (t : Nat) (pass : List Bool) (e : Nat × Nat) (s : State), s.chip.up 2 = true → s.chip.fw.calCmd = none → s.chip.calBusy = true → s.chip.calPhase = 3 → (s.chip.at t).calFails s.chip.calProc s.chip.calTarget = 0 → s.chip.cal.laneOff = false → s.chip.on F.CAL_XCFG_NO_APPLY = false → s.chip.calProc = 2 → chooseEye true (pass.take 64) (s.chip.get F.HP_TXDLY_BC_PH s.chip.calPort) = some e → s.chip.get F.CAL_LIM0_BC_MIN ≤ e.2 →
    ∃ u, exec (.calSweepEnd t (.settings pass)) s = .next u ∧ Leaves t [.cal, .ldl, .ev] ({F.CAL_RESULT_CODE.addr, F.CAL_QUALITY_FIGURE.addr, F.CAL_STAT_BUSY.addr, F.CAL_CNT_APPLIED.addr} ∪ blockRegsSet 0x08 ∪ {F.HP_TXDLY_BC_PH.at s.chip.calPort 0}) s u ∧ u.chip.calBusy = false ∧ u.chip.calPhase = 0 ∧ u.chip.on F.CAL_RESULT_DONE = true ∧ u.chip.get F.CAL_RESULT_PROC = s.chip.calProc ∧ u.chip.get F.CAL_RESULT_CODE = 0 ∧ u.chip.get F.CAL_RESULT_DETAIL = 0 ∧
      u.chip.get F.CAL_QUALITY_FIGURE = e.2 ∧ u.chip.ldlHolds 4 0 = false ∧ (∀ g ∈ s.chip.ldl.grants, g.client ≠ 4 → g ∈ u.chip.ldl.grants) ∧ (s.chip.at t).Raised u.chip [(0x1A01, [(1, s.chip.calProc), (1, s.chip.calTarget), (1, 0), (1, 0), (2, e.2)])]
      ∧ u.chip.get F.HP_TXDLY_BC_PH s.chip.calPort = e.1 ∧ u.chip.get F.HP_TXDLY_D0 s.chip.calPort = s.chip.get F.HP_TXDLY_D0 s.chip.calPort) ∧
  (∀ (t : Nat) (pass : List Bool) (e : Nat × Nat) (s : State), s.chip.up 2 = true → s.chip.fw.calCmd = none → s.chip.calBusy = true → s.chip.calPhase = 3 → (s.chip.at t).calFails s.chip.calProc s.chip.calTarget = 0 → s.chip.cal.laneOff = false → s.chip.on F.CAL_XCFG_NO_APPLY = true → s.chip.calProc = 2 → chooseEye true (pass.take 64) (s.chip.get F.HP_TXDLY_BC_PH s.chip.calPort) = some e → s.chip.get F.CAL_LIM0_BC_MIN ≤ e.2 →
    ∃ u, exec (.calSweepEnd t (.settings pass)) s = .next u ∧ Leaves t [.cal, .ldl, .ev] ({F.CAL_RESULT_CODE.addr, F.CAL_QUALITY_FIGURE.addr, F.CAL_STAT_BUSY.addr, F.CAL_CNT_APPLIED.addr} ∪ blockRegsSet 0x08) s u ∧ u.chip.calBusy = false ∧ u.chip.calPhase = 0 ∧ u.chip.on F.CAL_RESULT_DONE = true ∧ u.chip.get F.CAL_RESULT_PROC = s.chip.calProc ∧ u.chip.get F.CAL_RESULT_CODE = 0 ∧ u.chip.get F.CAL_RESULT_DETAIL = 0 ∧
      u.chip.get F.CAL_QUALITY_FIGURE = e.2 ∧ u.chip.ldlHolds 4 0 = false ∧ (∀ g ∈ s.chip.ldl.grants, g.client ≠ 4 → g ∈ u.chip.ldl.grants) ∧ (s.chip.at t).Raised u.chip [(0x1A01, [(1, s.chip.calProc), (1, s.chip.calTarget), (1, 0), (1, 0), (2, e.2)])]) ∧
  (∀ (t : Nat) (pass : List Bool) (e : Nat × Nat) (s : State), s.chip.up 2 = true → s.chip.fw.calCmd = none → s.chip.calBusy = true → s.chip.calPhase = 3 → (s.chip.at t).calFails s.chip.calProc s.chip.calTarget = 0 → s.chip.cal.laneOff = false → s.chip.calProc = 2 → chooseEye true (pass.take 64) (s.chip.get F.HP_TXDLY_BC_PH s.chip.calPort) = some e → e.2 < s.chip.get F.CAL_LIM0_BC_MIN →
    ∃ u, exec (.calSweepEnd t (.settings pass)) s = .next u ∧ Leaves t [.cal, .ldl, .ev] ({F.CAL_RESULT_CODE.addr, F.CAL_QUALITY_FIGURE.addr, F.CAL_STAT_BUSY.addr, F.CAL_CNT_APPLIED.addr} ∪ blockRegsSet 0x08) s u ∧ u.chip.calBusy = false ∧ u.chip.calPhase = 0 ∧ u.chip.on F.CAL_RESULT_DONE = true ∧ u.chip.get F.CAL_RESULT_PROC = s.chip.calProc ∧ u.chip.get F.CAL_RESULT_CODE = 3 ∧ u.chip.get F.CAL_RESULT_DETAIL = 0 ∧
      u.chip.get F.CAL_QUALITY_FIGURE = e.2 ∧ u.chip.ldlHolds 4 0 = false ∧ (∀ g ∈ s.chip.ldl.grants, g.client ≠ 4 → g ∈ u.chip.ldl.grants) ∧ (s.chip.at t).Raised u.chip [(0x1A01, [(1, s.chip.calProc), (1, s.chip.calTarget), (1, 3), (1, 0), (2, e.2)])]) ∧
  (∀ (t : Nat) (pass : List Bool) (s : State), s.chip.up 2 = true → s.chip.fw.calCmd = none → s.chip.calBusy = true → s.chip.calPhase = 3 → (s.chip.at t).calFails s.chip.calProc s.chip.calTarget = 0 → s.chip.cal.laneOff = false → s.chip.calProc = 2 → chooseEye true (pass.take 64) (s.chip.get F.HP_TXDLY_BC_PH s.chip.calPort) = none →
    ∃ u, exec (.calSweepEnd t (.settings pass)) s = .next u ∧ Leaves t [.cal, .ldl, .ev] ({F.CAL_RESULT_CODE.addr, F.CAL_QUALITY_FIGURE.addr, F.CAL_STAT_BUSY.addr, F.CAL_CNT_APPLIED.addr} ∪ blockRegsSet 0x08) s u ∧ u.chip.calBusy = false ∧ u.chip.calPhase = 0 ∧ u.chip.on F.CAL_RESULT_DONE = true ∧ u.chip.get F.CAL_RESULT_PROC = s.chip.calProc ∧ u.chip.get F.CAL_RESULT_CODE = 2 ∧ u.chip.get F.CAL_RESULT_DETAIL = 0 ∧
      u.chip.get F.CAL_QUALITY_FIGURE = 0 ∧ u.chip.ldlHolds 4 0 = false ∧ (∀ g ∈ s.chip.ldl.grants, g.client ≠ 4 → g ∈ u.chip.ldl.grants) ∧ (s.chip.at t).Raised u.chip [(0x1A01, [(1, s.chip.calProc), (1, s.chip.calTarget), (1, 2), (1, 0), (2, 0)])]) ∧
  (∀ (t : Nat) (pass : List (List Bool)) (locks : List Bool) (a b : Nat × Nat) (s : State), s.chip.up 2 = true → s.chip.fw.calCmd = none → s.chip.calBusy = true → s.chip.calPhase = 3 → (s.chip.at t).calFails s.chip.calProc s.chip.calTarget = 0 → s.chip.on F.CAL_XCFG_NO_APPLY = false → s.chip.cal.laneOff = true → s.chip.calProc = 1 → chooseEye false ((pass.getD 0 []).take 64) (s.chip.get F.HP_TXDLY_D0 s.chip.calPort) = some a →
    chooseEye false ((pass.getD 1 []).take 64) (s.chip.get F.HP_TXDLY_D1 s.chip.calPort) = some b → locks.getD 0 false = true → locks.getD 1 false = true → s.chip.get F.CAL_LIM0_LINK_MIN ≤ min a.2 b.2 →
    ∃ u, exec (.calSweepEnd t (.lanes pass locks)) s = .next u ∧ Leaves t [.cal, .ldl, .ev, .hp] ({F.CAL_RESULT_CODE.addr, F.CAL_QUALITY_FIGURE.addr, F.CAL_STAT_BUSY.addr, F.CAL_CNT_APPLIED.addr} ∪ blockRegsSet 0x08 ∪ {F.HP_TXDLY_BC_PH.at s.chip.calPort 0}) s u ∧ u.chip.calBusy = false ∧ u.chip.calPhase = 0 ∧ u.chip.on F.CAL_RESULT_DONE = true ∧ u.chip.get F.CAL_RESULT_PROC = s.chip.calProc ∧ u.chip.get F.CAL_RESULT_CODE = 0 ∧ u.chip.get F.CAL_RESULT_DETAIL = 0 ∧
      u.chip.get F.CAL_QUALITY_FIGURE = (min a.2 b.2) ∧ u.chip.ldlHolds 4 0 = false ∧ (∀ g ∈ s.chip.ldl.grants, g.client ≠ 4 → g ∈ u.chip.ldl.grants) ∧ (s.chip.at t).Raised u.chip [(0x1A01, [(1, s.chip.calProc), (1, s.chip.calTarget), (1, 0), (1, 0), (2, (min a.2 b.2))])]
      ∧ u.chip.get F.HP_TXDLY_D0 s.chip.calPort = a.1 ∧ u.chip.get F.HP_TXDLY_D1 s.chip.calPort = b.1 ∧ u.chip.cal.laneOff = false ∧ (s.chip.isUp s.chip.calPort = true → (u.chip.port s.chip.calPort).restore = true)) ∧
  (∀ (t n f j late : Nat) (high : List Nat) (taps : Int) (s : State), s.chip.up 2 = true → s.chip.fw.calCmd = none → s.chip.calBusy = true → s.chip.calPhase = 3 → (s.chip.at t).calFails s.chip.calProc s.chip.calTarget = 0 → s.chip.cal.laneOff = false → s.chip.on F.CAL_XCFG_NO_APPLY = false → s.chip.calProc = 3 → n = s.chip.get F.CAL_DWELL_STROBES → (high.take 96).findIdx? (fun h => decide (n ≤ h)) = some j → f = ((high.take 96).filter (fun h => decide (0 < h) && decide (h < n))).length →
    late = s.chip.get F.CAL_ARG_ARG + recField (s.chip.port s.chip.calPort).record 0x3C 2 → taps = -roundDiv (((j : Int) - 32) * 78125 + (late * 10000 : Nat)) 78125 → -2048 ≤ taps → taps ≤ 2047 → f ≤ s.chip.get F.CAL_LIM1_EDGE_MAX →
    ∃ u, exec (.calSweepEnd t (.samples high)) s = .next u ∧ Leaves t [.cal, .ldl, .ev] ({F.CAL_RESULT_CODE.addr, F.CAL_QUALITY_FIGURE.addr, F.CAL_STAT_BUSY.addr, F.CAL_CNT_APPLIED.addr} ∪ blockRegsSet 0x08 ∪ {F.HP_FTRIM_TAPS.at s.chip.calPort 0}) s u ∧ u.chip.calBusy = false ∧ u.chip.calPhase = 0 ∧ u.chip.on F.CAL_RESULT_DONE = true ∧ u.chip.get F.CAL_RESULT_PROC = s.chip.calProc ∧ u.chip.get F.CAL_RESULT_CODE = 0 ∧ u.chip.get F.CAL_RESULT_DETAIL = 0 ∧
      u.chip.get F.CAL_QUALITY_FIGURE = f ∧ u.chip.ldlHolds 4 0 = false ∧ (∀ g ∈ s.chip.ldl.grants, g.client ≠ 4 → g ∈ u.chip.ldl.grants) ∧ (s.chip.at t).Raised u.chip [(0x1A01, [(1, s.chip.calProc), (1, s.chip.calTarget), (1, 0), (1, 0), (2, f)])]
      ∧ u.chip.get F.HP_FTRIM_TAPS s.chip.calPort = unsigned 12 taps) ∧
  (∀ (t : Nat) (ct : Int) (cr : List Int) (f : Nat) (s : State), s.chip.up 2 = true → s.chip.fw.calCmd = none → s.chip.calBusy = true → s.chip.calPhase = 3 → (s.chip.at t).calFails s.chip.calProc s.chip.calTarget = 0 → s.chip.cal.laneOff = false → s.chip.calProc = 4 → (s.chip.at t).tickResult s.chip.calPort = some (ct, cr, f) → s.chip.get F.CAL_LIM1_TICK_MAX < f → f < 65536 →
    ∃ u, exec (.calSweepEnd t (.gathered)) s = .next u ∧ Leaves t [.cal, .ldl, .ev] ({F.CAL_RESULT_CODE.addr, F.CAL_QUALITY_FIGURE.addr, F.CAL_STAT_BUSY.addr, F.CAL_CNT_APPLIED.addr} ∪ blockRegsSet 0x08) s u ∧ u.chip.calBusy = false ∧ u.chip.calPhase = 0 ∧ u.chip.on F.CAL_RESULT_DONE = true ∧ u.chip.get F.CAL_RESULT_PROC = s.chip.calProc ∧ u.chip.get F.CAL_RESULT_CODE = 3 ∧ u.chip.get F.CAL_RESULT_DETAIL = 0 ∧
      u.chip.get F.CAL_QUALITY_FIGURE = f ∧ u.chip.ldlHolds 4 0 = false ∧ (∀ g ∈ s.chip.ldl.grants, g.client ≠ 4 → g ∈ u.chip.ldl.grants) ∧ (s.chip.at t).Raised u.chip [(0x1A01, [(1, s.chip.calProc), (1, s.chip.calTarget), (1, 3), (1, 0), (2, f)])]) ∧
  (∀ (t f : Nat) (ct tile : Int) (cr : List Int) (k : Fin 8) (s : State), s.chip.up 2 = true → s.chip.fw.calCmd = none → s.chip.calBusy = true → s.chip.calPhase = 3 → (s.chip.at t).calFails s.chip.calProc s.chip.calTarget = 0 → s.chip.cal.laneOff = false → s.chip.on F.CAL_XCFG_NO_APPLY = false → s.chip.calProc = 4 → k = s.chip.calPort → (s.chip.at t).tickResult k = some (ct, cr, f) → f ≤ s.chip.get F.CAL_LIM1_TICK_MAX → f < 65536 → tile = signed 21 (s.chip.get F.TRK_TILEOFS_OFS k) - ct → -(2 ^ 20) ≤ tile → tile < 2 ^ 20 →
    (∀ r : Fin 6, -(2 ^ 20) ≤ signed 21 (s.chip.get F.TRK_ROWOFS_OFS k r) - cr.getD r 0 ∧ signed 21 (s.chip.get F.TRK_ROWOFS_OFS k r) - cr.getD r 0 < 2 ^ 20) →
    (∀ r : Fin 6, 0 ≤ tile + (signed 21 (s.chip.get F.TRK_ROWOFS_OFS k r) - cr.getD r 0) + signed 21 (s.chip.inForce F.TRK_ICOFS_OFS (s.chip.rowChannel k r)) ∧
      ((tile + (signed 21 (s.chip.get F.TRK_ROWOFS_OFS k r) - cr.getD r 0) + signed 21 (s.chip.inForce F.TRK_ICOFS_OFS (s.chip.rowChannel k r))) / 64) % 2 = s.chip.calDelay k r % 2) →
    ∃ u, exec (.calSweepEnd t (.gathered)) s = .next u ∧ Leaves t [.cal, .ldl, .ev, .dirty] ({F.CAL_RESULT_CODE.addr, F.CAL_QUALITY_FIGURE.addr, F.CAL_STAT_BUSY.addr, F.CAL_CNT_APPLIED.addr} ∪ blockRegsSet 0x08 ∪ {F.TRK_SHSTAT_PENDING.addr, F.TRK_TILEOFS_OFS.at k 0} ∪ {a | ∃ r : Fin 6, a = F.TRK_ROWOFS_OFS.at k r}) s u ∧ u.chip.calBusy = false ∧ u.chip.calPhase = 0 ∧ u.chip.on F.CAL_RESULT_DONE = true ∧ u.chip.get F.CAL_RESULT_PROC = s.chip.calProc ∧ u.chip.get F.CAL_RESULT_CODE = 0 ∧ u.chip.get F.CAL_RESULT_DETAIL = 0 ∧
      u.chip.get F.CAL_QUALITY_FIGURE = f ∧ u.chip.ldlHolds 4 0 = false ∧ (∀ g ∈ s.chip.ldl.grants, g.client ≠ 4 → g ∈ u.chip.ldl.grants) ∧ (s.chip.at t).Raised u.chip [(0x1A01, [(1, s.chip.calProc), (1, s.chip.calTarget), (1, 0), (1, 0), (2, f)])]
      ∧ u.chip.get F.TRK_TILEOFS_OFS k = unsigned 21 tile ∧ (∀ r : Fin 6, u.chip.get F.TRK_ROWOFS_OFS k r = unsigned 21 (signed 21 (s.chip.get F.TRK_ROWOFS_OFS k r) - cr.getD r 0)) ∧ u.chip.on F.TRK_SHSTAT_PENDING = true) ∧
  (∀ (t : Nat) (s : State), s.chip.up 2 = true → s.chip.fw.calCmd = none → s.chip.calBusy = true → s.chip.calPhase = 3 → (s.chip.at t).calFails s.chip.calProc s.chip.calTarget = 0 → s.chip.cal.laneOff = false → s.chip.calProc = 4 → (s.chip.at t).tickResult s.chip.calPort = none →
    ∃ u, exec (.calSweepEnd t (.gathered)) s = .next u ∧ Leaves t [.cal, .ldl, .ev] ({F.CAL_RESULT_CODE.addr, F.CAL_QUALITY_FIGURE.addr, F.CAL_STAT_BUSY.addr, F.CAL_CNT_APPLIED.addr} ∪ blockRegsSet 0x08) s u ∧ u.chip.calBusy = false ∧ u.chip.calPhase = 0 ∧ u.chip.on F.CAL_RESULT_DONE = true ∧ u.chip.get F.CAL_RESULT_PROC = s.chip.calProc ∧ u.chip.get F.CAL_RESULT_CODE = 2 ∧ u.chip.get F.CAL_RESULT_DETAIL = 0 ∧
      u.chip.get F.CAL_QUALITY_FIGURE = 0 ∧ u.chip.ldlHolds 4 0 = false ∧ (∀ g ∈ s.chip.ldl.grants, g.client ≠ 4 → g ∈ u.chip.ldl.grants) ∧ (s.chip.at t).Raised u.chip [(0x1A01, [(1, s.chip.calProc), (1, s.chip.calTarget), (1, 2), (1, 0), (2, 0)])]) ∧
  (∀ (t : Nat) (pass : List Bool) (e : Nat × Nat) (s : State), s.chip.up 2 = true → s.chip.fw.calCmd = none → s.chip.calBusy = true → s.chip.calPhase = 3 → (s.chip.at t).calFails s.chip.calProc s.chip.calTarget = 0 → s.chip.cal.laneOff = false → s.chip.on F.CAL_XCFG_NO_APPLY = false → s.chip.calProc = 5 → s.chip.calTarget = 1 → chooseEye false (pass.take 64) (s.chip.get F.POS_ENC_THR_THR1) = some e → s.chip.get F.CAL_LIM0_THR_MIN ≤ e.2 →
    ∃ u, exec (.calSweepEnd t (.settings pass)) s = .next u ∧ Leaves t [.cal, .ldl, .ev] ({F.CAL_RESULT_CODE.addr, F.CAL_QUALITY_FIGURE.addr, F.CAL_STAT_BUSY.addr, F.CAL_CNT_APPLIED.addr} ∪ blockRegsSet 0x08) s u ∧ u.chip.calBusy = false ∧ u.chip.calPhase = 0 ∧ u.chip.on F.CAL_RESULT_DONE = true ∧ u.chip.get F.CAL_RESULT_PROC = s.chip.calProc ∧ u.chip.get F.CAL_RESULT_CODE = 0 ∧ u.chip.get F.CAL_RESULT_DETAIL = 0 ∧
      u.chip.get F.CAL_QUALITY_FIGURE = e.2 ∧ u.chip.ldlHolds 4 0 = false ∧ (∀ g ∈ s.chip.ldl.grants, g.client ≠ 4 → g ∈ u.chip.ldl.grants) ∧ (s.chip.at t).Raised u.chip [(0x1A01, [(1, s.chip.calProc), (1, s.chip.calTarget), (1, 0), (1, 0), (2, e.2)])] ∧ u.chip.cal.thr = s.chip.cal.thr.set 1 (some e.1)) ∧
  (∀ (t : Nat) (pass : List (List (List Bool))) (p : Fin 3) (a b : Nat × Nat) (s : State), s.chip.up 2 = true → s.chip.fw.calCmd = none → s.chip.calBusy = true → s.chip.calPhase = 3 → (s.chip.at t).calFails s.chip.calProc s.chip.calTarget = 0 → s.chip.cal.laneOff = false → s.chip.on F.CAL_XCFG_NO_APPLY = false → s.chip.calProc = 6 → s.chip.calTarget = p → a = bestCtle (pass.getD 0 []) → b = bestCtle (pass.getD 1 []) → min a.2 b.2 ≠ 0 → s.chip.get F.CAL_LIM0_FAB_MIN ≤ min a.2 b.2 →
    ∃ u, exec (.calSweepEnd t (.eyes pass)) s = .next u ∧ Leaves t [.cal, .ldl, .ev, .fab] ({F.CAL_RESULT_CODE.addr, F.CAL_QUALITY_FIGURE.addr, F.CAL_STAT_BUSY.addr, F.CAL_CNT_APPLIED.addr} ∪ blockRegsSet 0x08) s u ∧ u.chip.calBusy = false ∧ u.chip.calPhase = 0 ∧ u.chip.on F.CAL_RESULT_DONE = true ∧ u.chip.get F.CAL_RESULT_PROC = s.chip.calProc ∧ u.chip.get F.CAL_RESULT_CODE = 0 ∧ u.chip.get F.CAL_RESULT_DETAIL = 0 ∧
      u.chip.get F.CAL_QUALITY_FIGURE = (min a.2 b.2) ∧ u.chip.ldlHolds 4 0 = false ∧ (∀ g ∈ s.chip.ldl.grants, g.client ≠ 4 → g ∈ u.chip.ldl.grants) ∧ (s.chip.at t).Raised u.chip [(0x1A01, [(1, s.chip.calProc), (1, s.chip.calTarget), (1, 0), (1, 0), (2, (min a.2 b.2))])]
      ∧ u.chip.fab = { s.chip.fab with ctle := s.chip.fab.ctle.set p ((s.chip.fab.ctle[p].set 0 a.1).set 1 b.1) }) ∧
  (∀ (t : Nat) (pass : List (List Bool)) (s : State), s.chip.up 2 = true → s.chip.fw.calCmd = none → s.chip.calBusy = true → s.chip.calPhase = 3 → (s.chip.at t).calFails s.chip.calProc s.chip.calTarget = 0 → s.chip.cal.laneOff = false → s.chip.calProc = 7 → (∃ i ∈ List.range 9, chooseEye false ((pass.getD i []).take 65) 32 = none) →
    ∃ u, exec (.calSweepEnd t (.delays pass)) s = .next u ∧ Leaves t [.cal, .ldl, .ev] ({F.CAL_RESULT_CODE.addr, F.CAL_QUALITY_FIGURE.addr, F.CAL_STAT_BUSY.addr, F.CAL_CNT_APPLIED.addr} ∪ blockRegsSet 0x08) s u ∧ u.chip.calBusy = false ∧ u.chip.calPhase = 0 ∧ u.chip.on F.CAL_RESULT_DONE = true ∧ u.chip.get F.CAL_RESULT_PROC = s.chip.calProc ∧ u.chip.get F.CAL_RESULT_CODE = 2 ∧ u.chip.get F.CAL_RESULT_DETAIL = 0 ∧
      u.chip.get F.CAL_QUALITY_FIGURE = 0 ∧ u.chip.ldlHolds 4 0 = false ∧ (∀ g ∈ s.chip.ldl.grants, g.client ≠ 4 → g ∈ u.chip.ldl.grants) ∧ (s.chip.at t).Raised u.chip [(0x1A01, [(1, s.chip.calProc), (1, s.chip.calTarget), (1, 2), (1, 0), (2, 0)])]) ∧
  (∀ (t w lo : Nat) (pass : List (List Bool)) (s : State), s.chip.up 2 = true → s.chip.fw.calCmd = none → s.chip.calBusy = true → s.chip.calPhase = 3 → (s.chip.at t).calFails s.chip.calProc s.chip.calTarget = 0 → s.chip.cal.laneOff = false → s.chip.on F.CAL_XCFG_NO_APPLY = false → s.chip.calProc = 7 → (∀ i ∈ List.range 9, chooseEye false ((pass.getD i []).take 65) 32 = some (lo, w)) → 8 ≤ w → w < 65536 → (∀ i : Fin 9, 32 ≤ s.chip.mem.training[i.val]'(by omega) + lo) →
    ∃ u, exec (.calSweepEnd t (.delays pass)) s = .next u ∧ Leaves t [.cal, .ldl, .ev, .mem] ({F.CAL_RESULT_CODE.addr, F.CAL_QUALITY_FIGURE.addr, F.CAL_STAT_BUSY.addr, F.CAL_CNT_APPLIED.addr} ∪ blockRegsSet 0x08) s u ∧ u.chip.calBusy = false ∧ u.chip.calPhase = 0 ∧ u.chip.on F.CAL_RESULT_DONE = true ∧ u.chip.get F.CAL_RESULT_PROC = s.chip.calProc ∧ u.chip.get F.CAL_RESULT_CODE = 0 ∧ u.chip.get F.CAL_RESULT_DETAIL = 0 ∧
      u.chip.get F.CAL_QUALITY_FIGURE = w ∧ u.chip.ldlHolds 4 0 = false ∧ (∀ g ∈ s.chip.ldl.grants, g.client ≠ 4 → g ∈ u.chip.ldl.grants) ∧ (s.chip.at t).Raised u.chip [(0x1A01, [(1, s.chip.calProc), (1, s.chip.calTarget), (1, 0), (1, 0), (2, w)])]
      ∧ (List.finRange 28).map (fun (n : Fin 28) => u.chip.mem.training[n]) = (List.finRange 28).map (fun (n : Fin 28) => if n.val < 9 then s.chip.mem.training[n] + lo - 32 else s.chip.mem.training[n])) ∧
  (∀ (t f : Nat) (ofs : Int) (s : State), s.chip.up 2 = true → s.chip.fw.calCmd = none → s.chip.calBusy = true → s.chip.calPhase = 3 → (s.chip.at t).calFails s.chip.calProc s.chip.calTarget = 0 → s.chip.cal.laneOff = false → s.chip.on F.CAL_XCFG_NO_APPLY = false → s.chip.calProc = 8 → s.chip.cal.samples.length = 64 → ofs = roundQ (meanQ (s.chip.cal.samples.map (fun x => x.1 - (x.2 : Rat)))) → -128 ≤ ofs → ofs ≤ 127 →
    f = sqrtRound (meanQ (s.chip.cal.samples.map (fun x => ((x.2 : Rat) + (ofs : Rat) - x.1) * ((x.2 : Rat) + (ofs : Rat) - x.1)))) → f ≤ s.chip.get F.CAL_LIM1_SENS_MAX →
    ∃ u, exec (.calSweepEnd t (.gathered)) s = .next u ∧ Leaves t [.cal, .ldl, .ev] ({F.CAL_RESULT_CODE.addr, F.CAL_QUALITY_FIGURE.addr, F.CAL_STAT_BUSY.addr, F.CAL_CNT_APPLIED.addr} ∪ blockRegsSet 0x08 ∪ {F.THM_OFS_OFS.at s.chip.calTarget 0}) s u ∧ u.chip.calBusy = false ∧ u.chip.calPhase = 0 ∧ u.chip.on F.CAL_RESULT_DONE = true ∧ u.chip.get F.CAL_RESULT_PROC = s.chip.calProc ∧ u.chip.get F.CAL_RESULT_CODE = 0 ∧ u.chip.get F.CAL_RESULT_DETAIL = 0 ∧
      u.chip.get F.CAL_QUALITY_FIGURE = f ∧ u.chip.ldlHolds 4 0 = false ∧ (∀ g ∈ s.chip.ldl.grants, g.client ≠ 4 → g ∈ u.chip.ldl.grants) ∧ (s.chip.at t).Raised u.chip [(0x1A01, [(1, s.chip.calProc), (1, s.chip.calTarget), (1, 0), (1, 0), (2, f)])]
      ∧ u.chip.get F.THM_OFS_OFS s.chip.calTarget = unsigned 8 ofs) ∧
  (∀ (t : Nat) (sweep : CalSweep) (s : State), s.chip.fw.calCmd = none → s.chip.calBusy = false ∨ s.chip.calPhase ≠ 3 →
    exec (.calSweepEnd t sweep) s = .next { s with chip := s.chip.at t }) ∧
  (∀ (t : Nat) (i : Initiator) (s : State), s.chip.mayWrite i R.CAL_CMD.addr → s.chip.fw.calCmd = none → s.chip.calBusy = true → s.chip.cal.laneOff = false → s.chip.calPhase < 4 →
    ∃ u, exec (.calAbort t i) s = .next u ∧ WriteLeaves t i R.CAL_CMD.addr [.cal, .ldl, .ev] ({F.CAL_RESULT_CODE.addr, F.CAL_QUALITY_FIGURE.addr, F.CAL_STAT_BUSY.addr, F.CAL_CNT_APPLIED.addr} ∪ blockRegsSet 0x08) s u ∧ u.chip.calBusy = false ∧ u.chip.calPhase = 0 ∧ u.chip.on F.CAL_RESULT_DONE = true ∧ u.chip.get F.CAL_RESULT_PROC = s.chip.calProc ∧ u.chip.get F.CAL_RESULT_CODE = 6 ∧ u.chip.get F.CAL_RESULT_DETAIL = 0 ∧
      u.chip.get F.CAL_QUALITY_FIGURE = 0 ∧ u.chip.ldlHolds 4 0 = false ∧ (∀ g ∈ s.chip.ldl.grants, g.client ≠ 4 → g ∈ u.chip.ldl.grants) ∧ (s.chip.at t).Raised u.chip [(0x1A01, [(1, s.chip.calProc), (1, s.chip.calTarget), (1, 6), (1, 0), (2, 0)])]) ∧
  (∀ (t : Nat) (i : Initiator) (s : State), s.chip.mayWrite i R.CAL_CMD.addr → s.chip.fw.calCmd = none → s.chip.calBusy = false ∨ 4 ≤ s.chip.calPhase →
    ∃ u, exec (.calAbort t i) s = .next u ∧ WriteLeaves t i R.CAL_CMD.addr [] ∅ s u) ∧
  (∀ (t : Nat) (s : State), s.chip.up 2 = true → s.chip.fw.calCmd = none → s.chip.calBusy = true → s.chip.cal.laneOff = false → s.chip.calPhase < 4 → s.chip.cal.startAt + ms (s.chip.get F.CAL_TO_MS) ≤ max s.chip.now t →
    ∃ u, exec (.calTimeout t) s = .next u ∧ Leaves t [.cal, .ldl, .ev] ({F.CAL_RESULT_CODE.addr, F.CAL_QUALITY_FIGURE.addr, F.CAL_STAT_BUSY.addr, F.CAL_CNT_APPLIED.addr} ∪ blockRegsSet 0x08) s u ∧ u.chip.calBusy = false ∧ u.chip.calPhase = 0 ∧ u.chip.on F.CAL_RESULT_DONE = true ∧ u.chip.get F.CAL_RESULT_PROC = s.chip.calProc ∧ u.chip.get F.CAL_RESULT_CODE = 7 ∧ u.chip.get F.CAL_RESULT_DETAIL = 0 ∧
      u.chip.get F.CAL_QUALITY_FIGURE = 0 ∧ u.chip.ldlHolds 4 0 = false ∧ (∀ g ∈ s.chip.ldl.grants, g.client ≠ 4 → g ∈ u.chip.ldl.grants) ∧ (s.chip.at t).Raised u.chip [(0x1A01, [(1, s.chip.calProc), (1, s.chip.calTarget), (1, 7), (1, 0), (2, 0)])]) ∧
  (∀ (t : Nat) (s : State), s.chip.fw.calCmd = none → s.chip.calBusy = false ∨ max s.chip.now t < s.chip.cal.startAt + ms (s.chip.get F.CAL_TO_MS) →
    exec (.calTimeout t) s = .next { s with chip := s.chip.at t }) ∧
  (∀ (t p g n a b : Nat) (i : Initiator) (w : Word) (v : CalVal) (q : Place) (s : State), s.chip.mayWrite i R.CAL_VDATA.addr → s.chip.fw.calCmd = none → s.chip.calSel (initNo i) = (p, g, n) → s.chip.calValue p g n = some v → v.ro = false → s.chip.calStale p g n = false → v.inRange w.toNat = true → v.field = some (q, a, b) → s.chip.switchState = 0 → p ≠ 4 →
    ∃ u, exec (.calValueWrite t i w) s = .next u ∧ WriteLeaves t i R.CAL_VDATA.addr [] {q.at a b} s u ∧ u.chip.get q a b = w.toNat % 2 ^ v.width) ∧
  (∀ (t g n a b : Nat) (i : Initiator) (w : Word) (v : CalVal) (q : Place) (s : State), s.chip.mayWrite i R.CAL_VDATA.addr → s.chip.fw.calCmd = none → s.chip.calSel (initNo i) = (4, g, n) → s.chip.calValue 4 g n = some v → s.chip.calStale 4 g n = false → v.inRange w.toNat = true → v.field = some (q, a, b) → s.chip.switchState = 0 →
    ∃ u, exec (.calValueWrite t i w) s = .next u ∧ WriteLeaves t i R.CAL_VDATA.addr [.dirty] {q.at a b, F.TRK_SHSTAT_PENDING.addr} s u ∧ u.chip.get q a b = w.toNat % 2 ^ v.width ∧ u.chip.on F.TRK_SHSTAT_PENDING = true) ∧
  (∀ (t g : Nat) (i : Initiator) (w : Word) (n : Fin 2) (k : Fin 3) (s : State), s.chip.mayWrite i R.CAL_VDATA.addr → s.chip.fw.calCmd = none → s.chip.calSel (initNo i) = (6, g, n.val) → g = k → k < 2 ∨ s.chip.feature 4 = true → s.chip.calStale 6 g n = false → w.toNat < 16 →
    ∃ u, exec (.calValueWrite t i w) s = .next u ∧ WriteLeaves t i R.CAL_VDATA.addr [.fab] ∅ s u ∧ u.chip.fab = { s.chip.fab with ctle := s.chip.fab.ctle.set k (s.chip.fab.ctle[k].set n w.toNat) }) ∧
  (∀ (t p g n : Nat) (i : Initiator) (w : Word) (s : State), s.chip.mayWrite i R.CAL_VDATA.addr → s.chip.fw.calCmd = none → s.chip.calSel (initNo i) = (p, g, n) → s.chip.calValue p g n = none ∨ s.chip.calStale p g n = true ∨ (∀ v, s.chip.calValue p g n = some v → v.ro = true ∨ v.inRange w.toNat = false) →
    ∃ u, exec (.calValueWrite t i w) s = .next u ∧ WriteLeaves t i R.CAL_VDATA.addr [] {F.CAL_REJ_CNT_COUNT.addr} s u ∧ u.chip.get F.CAL_REJ_CNT_COUNT = satNat (F.CAL_REJ_CNT_COUNT.hi + 1 - F.CAL_REJ_CNT_COUNT.lo) (s.chip.get F.CAL_REJ_CNT_COUNT + 1))

/-- Steps run the queue: a step takes the command at the front and answers what it does with the rest of the queue; with no command waiting
nothing happens (the model's choice, entry 3 of the log). No command stops the block, and none but the one that runs leaves the queue. -/
def Obligations.StepsRunTheQueue : Prop :=
  (∀ (c : Instr) (rest : List Instr) (s : State), s.pending = c :: rest → step s = exec c { s with pending := rest }) ∧
  (∀ (s : State), s.pending = [] → step s = .next s) ∧
  (∀ (s : State), ∃ u, step s = .next u ∧ u.pending = s.pending.tail)

/-- What reset leaves (R9, R30, and the reset columns of the register maps). No command waits. AON and TRUST are up, every other island is down
and no island's press time is valid; every register reads its reset value, of which some are written out from the maps; the register file
and the memories are in their canonical form, with nothing listed. The model's own choices in this: entries 6, 8, 9, 138 of the log. -/
def Obligations.ResetLeavesTheMapsValues : Prop :=
  State.reset.pending = [] ∧ State.reset.chip.up 0 = true ∧ State.reset.chip.up 1 = true ∧
  (∀ k, k < 16 → 2 ≤ k → State.reset.chip.up k = false) ∧ (∀ k, k < 16 → State.reset.chip.timeValid k = false) ∧
  (∀ (a : Nat), State.reset.chip.word a = resetWord a) ∧
  (∀ (k : Fin 8), State.reset.chip.get R.CMP_LANE_SHARE k = 0x7D ∧ State.reset.chip.get R.HP_CTRL k = 4) ∧
  State.reset.chip.get R.TKO_LEAD = 0x01F400C8 ∧ State.reset.chip.get R.TKO_STBY = 0x01F40000 ∧ State.reset.chip.get R.THM_STAT = 0xF ∧
  State.reset.chip.get R.OTP_STAT = 1 ∧ State.reset.chip.get R.STR_STAT = 0 ∧ State.reset.chip.get R.EVC_HQ_CFG = 0xA ∧
  State.reset.chip.get R.SEC_WDOG_CFG = 0x000103E8 ∧ State.reset.chip.get R.CMP_XCFG = 0x00020000 ∧
  State.reset.chip.regsWf ∧ State.reset.store.wf ∧ State.reset.store.mem = [] ∧ State.reset.store.fuseN = []

/-- The memories keep their form: from any state in which the scratchpad, Grotto and DDR, the flash, the host's memory and the fuse arrays are
in canonical form, a step leads to one in which they are again. -/
def Obligations.MemoriesStayCanonical : Prop :=
  ∀ (s u : State), s.store.wf → step s = .next u → u.store.wf

/-- Fuses only blow (R594, R595, R604, R605, R614): whatever command runs, a fuse bit that reads 1 at normal margin before the step reads 1 at
normal margin after it, and one that reads 1 at tight margin reads 1 at tight margin. -/
def Obligations.FusesOnlyBlow : Prop :=
  ∀ (s u : State), step s = .next u → s.store.fusesKept u.store
end

