-- ==== Sys2Proof/Laws/Sparse.lean ====
section
/-!
SUPPORT. Sparse tables: reading after a write, and that every operation keeps the canonical form.
-/

namespace Sys2Proof.Machine

variable {α : Type}

theorem sparseGet_drop_same (d : α) (k : Nat) (l : List (Nat × α)) : sparseGet d k (sparseDrop k l) = d := by
  induction l with
  | nil => rfl
  | cons e r ih =>
    by_cases h : e.1 = k <;> simp_all [sparseDrop, sparseGet]

theorem sparseGet_drop_other (d : α) {k j : Nat} (h : j ≠ k) (l : List (Nat × α)) :
    sparseGet d j (sparseDrop k l) = sparseGet d j l := by
  induction l with
  | nil => rfl
  | cons e r ih =>
    by_cases hk : e.1 = k
    · have : e.1 ≠ j := fun hj => h (hj.symm.trans hk)
      simp_all [sparseDrop, sparseGet]
    · by_cases hj : e.1 = j <;> simp_all [sparseDrop, sparseGet]

theorem sparseGet_ins_other (d v : α) {k j : Nat} (h : j ≠ k) (l : List (Nat × α)) :
    sparseGet d j (sparseIns k v l) = sparseGet d j l := by
  induction l with
  | nil => simp [sparseIns, sparseGet, Ne.symm h]
  | cons e r ih =>
    unfold sparseIns
    split
    · simp [sparseGet, Ne.symm h]
    · simp [sparseGet, ih]

theorem sparseGet_ins_same (d v : α) (k : Nat) (l : List (Nat × α)) (h : ∀ e ∈ l, e.1 ≠ k) :
    sparseGet d k (sparseIns k v l) = v := by
  induction l with
  | nil => simp [sparseIns, sparseGet]
  | cons e r ih =>
    unfold sparseIns
    split
    · simp [sparseGet]
    · have h1 := h e (by simp)
      have h2 := ih (fun x hx => h x (by simp [hx]))
      simp [sparseGet, h1, h2]

theorem mem_sparseDrop {k : Nat} {l : List (Nat × α)} {e : Nat × α} : e ∈ sparseDrop k l ↔ e ∈ l ∧ e.1 ≠ k := by
  simp [sparseDrop]

/-- A key reads as what was last written to it. -/
@[simp] theorem sparseGet_put_same [DecidableEq α] (d : α) (k : Nat) (v : α) (l : List (Nat × α)) :
    sparseGet d k (sparsePut d k v l) = v := by
  unfold sparsePut
  split
  · simp_all [sparseGet_drop_same]
  · exact sparseGet_ins_same d v k _ (fun e he => (mem_sparseDrop.mp he).2)

/-- A write leaves every other key alone. -/
theorem sparseGet_put_other [DecidableEq α] (d d' v : α) {k j : Nat} (h : j ≠ k) (l : List (Nat × α)) :
    sparseGet d j (sparsePut d' k v l) = sparseGet d j l := by
  unfold sparsePut
  split
  · exact sparseGet_drop_other d h l
  · rw [sparseGet_ins_other d v h, sparseGet_drop_other d h]

/-- Keys that a clear names read as their default, the others as before. -/
theorem sparseGet_clear (d : α) (p : Nat → Bool) (k : Nat) (l : List (Nat × α)) :
    sparseGet d k (sparseClear p l) = if p k then d else sparseGet d k l := by
  induction l with
  | nil => simp [sparseClear, sparseGet]
  | cons e r ih =>
    by_cases hp : p e.1 <;> by_cases hk : e.1 = k <;> simp_all [sparseClear, sparseGet]

/-! ### The canonical form -/

theorem SparseWf_nil (d : Nat → α) : SparseWf d [] := by simp [SparseWf]

theorem SparseWf_filter {d : Nat → α} {l : List (Nat × α)} (p : Nat × α → Bool) (h : SparseWf d l) : SparseWf d (l.filter p) :=
  ⟨h.1.sublist (List.filter_sublist.map _), fun e he => h.2 e (List.mem_filter.mp he).1⟩

theorem SparseWf_drop {d : Nat → α} {l : List (Nat × α)} (k : Nat) (h : SparseWf d l) : SparseWf d (sparseDrop k l) :=
  SparseWf_filter _ h

theorem SparseWf_clear {d : Nat → α} {l : List (Nat × α)} (p : Nat → Bool) (h : SparseWf d l) : SparseWf d (sparseClear p l) :=
  SparseWf_filter _ h

theorem mem_sparseIns {k : Nat} {v : α} {l : List (Nat × α)} {e : Nat × α} : e ∈ sparseIns k v l ↔ e = (k, v) ∨ e ∈ l := by
  induction l with
  | nil => simp [sparseIns]
  | cons x r ih =>
    unfold sparseIns
    split
    · simp
    · simp only [List.mem_cons, ih]; tauto

theorem SparseWf_ins {d : Nat → α} {l : List (Nat × α)} (k : Nat) (v : α) (hv : v ≠ d k) (hk : ∀ e ∈ l, e.1 ≠ k)
    (h : SparseWf d l) : SparseWf d (sparseIns k v l) := by
  refine ⟨?_, fun e he => ?_⟩
  · induction l with
    | nil => simp [sparseIns]
    | cons x r ih =>
      obtain ⟨hx, hr⟩ := h
      simp only [List.map_cons, List.pairwise_cons] at hx
      unfold sparseIns
      split
      · rename_i hlt
        simp only [List.map_cons, List.pairwise_cons]
        refine ⟨fun a ha => ?_, hx⟩
        rcases List.mem_cons.mp ha with rfl | ha
        · exact hlt
        · exact lt_trans hlt (hx.1 a ha)
      · rename_i hge
        have hxk := hk x (by simp)
        simp only [List.map_cons, List.pairwise_cons]
        refine ⟨fun a ha => ?_, ih (fun e he => hk e (by simp [he])) ⟨hx.2, fun e he => hr e (by simp [he])⟩⟩
        obtain ⟨e, he, rfl⟩ := List.mem_map.mp ha
        rcases mem_sparseIns.mp he with rfl | he
        · exact lt_of_le_of_ne (not_lt.mp hge) hxk
        · exact hx.1 _ (List.mem_map_of_mem he)
  · rcases mem_sparseIns.mp he with rfl | he
    · exact hv
    · exact h.2 e he

/-- A write keeps the canonical form. -/
theorem SparseWf_put [DecidableEq α] {d : Nat → α} {l : List (Nat × α)} (k : Nat) (v : α) (h : SparseWf d l) :
    SparseWf d (sparsePut (d k) k v l) := by
  unfold sparsePut
  split
  · exact SparseWf_drop k h
  · rename_i hv
    exact SparseWf_ins k v hv (fun e he => (mem_sparseDrop.mp he).2) (SparseWf_drop k h)

end Sys2Proof.Machine
end

