-- ==== Sys2Proof/Laws/Regs.lean ====
section
/-!
SUPPORT. Registers and fields: what a read gives after a write, to the same field, to another field of the register and to another
register; and that a register operation leaves the rest of the chip alone.
-/

namespace Sys2Proof.Machine

/-! ### Bit fields -/

theorem bitsOf_lt (n hi lo : Nat) : bitsOf n hi lo < 2 ^ (hi + 1 - lo) := Nat.mod_lt _ (Nat.two_pow_pos _)

/-- The word with a field replaced, as the parts above, in and below the field. -/
theorem withBits_eq (n v : Nat) {hi lo : Nat} (h : lo ≤ hi + 1) :
    withBits n hi lo v = n / 2 ^ (hi + 1) * 2 ^ (hi + 1) + v % 2 ^ (hi + 1 - lo) * 2 ^ lo + n % 2 ^ lo := by
  have e : 2 ^ (hi + 1) = 2 ^ lo * 2 ^ (hi + 1 - lo) := by rw [← pow_add]; congr 1; omega
  have h1 := Nat.div_add_mod n (2 ^ lo)
  have h2 := Nat.div_add_mod (n / 2 ^ lo) (2 ^ (hi + 1 - lo))
  rw [Nat.div_div_eq_div_mul, ← e] at h2
  have h3 : n = n / 2 ^ (hi + 1) * 2 ^ (hi + 1) + n / 2 ^ lo % 2 ^ (hi + 1 - lo) * 2 ^ lo + n % 2 ^ lo := by
    calc n = 2 ^ lo * (n / 2 ^ lo) + n % 2 ^ lo := h1.symm
      _ = 2 ^ lo * (2 ^ (hi + 1 - lo) * (n / 2 ^ (hi + 1)) + n / 2 ^ lo % 2 ^ (hi + 1 - lo)) + n % 2 ^ lo := by rw [h2]
      _ = _ := by rw [e]; ring
  unfold withBits bitsOf
  omega

/-- A field reads as what was put into it. -/
theorem bitsOf_withBits_same (n v : Nat) {hi lo : Nat} (h : lo ≤ hi + 1) :
    bitsOf (withBits n hi lo v) hi lo = v % 2 ^ (hi + 1 - lo) := by
  have e : 2 ^ (hi + 1) = 2 ^ (hi + 1 - lo) * 2 ^ lo := by rw [← pow_add]; congr 1; omega
  rw [withBits_eq n v h, bitsOf, e, ← mul_assoc, ← add_mul, Nat.add_comm, Nat.add_mul_div_right _ _ (Nat.two_pow_pos _),
    Nat.div_eq_of_lt (Nat.mod_lt _ (Nat.two_pow_pos _)), Nat.zero_add, Nat.add_comm, Nat.add_mul_mod_self_right, Nat.mod_mod]

theorem bitsOf_testBit (n hi lo k : Nat) : (bitsOf n hi lo).testBit k = (decide (k < hi + 1 - lo) && n.testBit (lo + k)) := by
  unfold bitsOf
  rw [Nat.testBit_mod_two_pow, Nat.testBit_div_two_pow, Nat.add_comm k lo]

theorem withBits_testBit (n v : Nat) {hi lo : Nat} (h : lo ≤ hi + 1) (k : Nat) :
    (withBits n hi lo v).testBit k = if lo ≤ k ∧ k ≤ hi then v.testBit (k - lo) else n.testBit k := by
  have e : 2 ^ (hi + 1) = 2 ^ lo * 2 ^ (hi + 1 - lo) := by rw [← pow_add]; congr 1; omega
  have hv := Nat.mod_lt v (Nat.two_pow_pos (hi + 1 - lo))
  have hn := Nat.mod_lt n (Nat.two_pow_pos lo)
  have hlow : v % 2 ^ (hi + 1 - lo) * 2 ^ lo + n % 2 ^ lo < 2 ^ (hi + 1) := by
    have hm := Nat.mul_le_mul_right (2 ^ lo) (Nat.succ_le_of_lt hv)
    rw [Nat.succ_mul] at hm
    rw [e, Nat.mul_comm (2 ^ lo) (2 ^ (hi + 1 - lo))]
    omega
  have hw : withBits n hi lo v = 2 ^ (hi + 1) * (n / 2 ^ (hi + 1)) + (2 ^ lo * (v % 2 ^ (hi + 1 - lo)) + n % 2 ^ lo) := by
    rw [withBits_eq n v h]; ring
  rw [hw, Nat.testBit_two_pow_mul_add _ (by rw [Nat.mul_comm]; exact hlow)]
  by_cases hk : k < hi + 1
  · rw [if_pos hk, Nat.testBit_two_pow_mul_add _ hn]
    by_cases hl : k < lo
    · rw [if_pos hl, if_neg (by omega), Nat.testBit_mod_two_pow]; simp [hl]
    · rw [if_neg hl, if_pos (by omega), Nat.testBit_mod_two_pow]; simp; omega
  · rw [if_neg hk, if_neg (by omega), Nat.testBit_div_two_pow]; congr 1; omega

/-- A field reads as before where another field was put. -/
theorem bitsOf_withBits_other (n v : Nat) {hi lo hi' lo' : Nat} (h : lo ≤ hi + 1) (hd : hi < lo' ∨ hi' < lo) :
    bitsOf (withBits n hi lo v) hi' lo' = bitsOf n hi' lo' := by
  apply Nat.eq_of_testBit_eq
  intro k
  rw [bitsOf_testBit, bitsOf_testBit, withBits_testBit n v h]
  by_cases hk : k < hi' + 1 - lo'
  · rw [if_neg (by omega)]
  · simp [hk]

/-- A word stays within its width. -/
theorem withBits_lt (n v : Nat) {hi lo w : Nat} (h : lo ≤ hi + 1) (hw : hi < w) (hn : n < 2 ^ w) : withBits n hi lo v < 2 ^ w := by
  apply Nat.lt_pow_two_of_testBit
  intro k hk
  rw [withBits_testBit n v h, if_neg (by omega)]
  exact Nat.testBit_lt_two_pow (lt_of_lt_of_le hn (Nat.pow_le_pow_right (by norm_num) hk))

/-! ### The register file -/

@[simp] theorem Chip.word_setWord_same (c : Chip) (a : Nat) (w : Word) : (c.setWord a w).word a = w := by
  simp [Chip.word, Chip.setWord]

theorem Chip.word_setWord_other (c : Chip) {a b : Nat} (h : b ≠ a) (w : Word) : (c.setWord a w).word b = c.word b := by
  simp [Chip.word, Chip.setWord, sparseGet_put_other _ _ _ h]

theorem Chip.word_setWord (c : Chip) (a b : Nat) (w : Word) : (c.setWord a w).word b = if b = a then w else c.word b := by
  by_cases h : b = a
  · subst h; simp
  · simp [Chip.word_setWord_other c h, h]

theorem Chip.word_set_other (c : Chip) (p : Place) (v i j : Nat) {b : Nat} (h : b ≠ p.at i j) : (c.set p v i j).word b = c.word b :=
  Chip.word_setWord_other c h _

/-- The word of a register with a field set, as a number. -/
theorem Chip.word_set_same (c : Chip) (p : Place) (v i j : Nat) (h : p.lo ≤ p.hi + 1) (hw : p.hi < 32) :
    ((c.set p v i j).word (p.at i j)).toNat = withBits (c.word (p.at i j)).toNat p.hi p.lo v := by
  unfold Chip.set
  rw [Chip.word_setWord_same, BitVec.toNat_ofNat, Nat.mod_eq_of_lt (withBits_lt _ _ h hw (BitVec.isLt _))]

/-- A field reads as what was put into it. -/
theorem Chip.get_set_same (c : Chip) (p : Place) (v i j : Nat) (h : p.lo ≤ p.hi + 1) (hw : p.hi < 32) :
    (c.set p v i j).get p i j = v % 2 ^ (p.hi + 1 - p.lo) := by
  unfold Chip.get
  rw [Chip.word_set_same c p v i j h hw, bitsOf_withBits_same _ _ h]

/-- A field of another register reads as before. -/
theorem Chip.get_set_other (c : Chip) (p q : Place) (v i j k l : Nat) (h : q.at k l ≠ p.at i j) :
    (c.set p v i j).get q k l = c.get q k l := by
  unfold Chip.get
  rw [Chip.word_set_other c p v i j h]

/-- Another field of the same register reads as before. -/
theorem Chip.get_set_beside (c : Chip) (p q : Place) (v i j k l : Nat) (ha : q.at k l = p.at i j) (h : p.lo ≤ p.hi + 1)
    (hw : p.hi < 32) (hd : p.hi < q.lo ∨ q.hi < p.lo) : (c.set p v i j).get q k l = c.get q k l := by
  unfold Chip.get
  rw [ha, Chip.word_set_same c p v i j h hw, bitsOf_withBits_other _ _ h hd]

theorem Chip.get_lt (c : Chip) (p : Place) (i j : Nat) : c.get p i j < 2 ^ (p.hi + 1 - p.lo) := bitsOf_lt _ _ _

theorem Chip.word_mk_other (c d : Chip) (h : d.regs = c.regs) (a : Nat) : d.word a = c.word a := by simp [Chip.word, h]

/-! ### Single bits, islands and time copies -/

theorem bitAt_eq_testBit (n k : Nat) : bitAt n k = n.testBit k := by
  rw [Nat.testBit_eq_decide_div_mod_eq]
  rfl

theorem testBit_putBit (n k j : Nat) (b : Bool) : (putBit n k b).testBit j = if j = k then b else n.testBit j := by
  unfold putBit
  rw [withBits_testBit _ _ (by omega)]
  by_cases h : j = k
  · subst h; cases b <;> simp
  · rw [if_neg (by omega), if_neg h]

theorem bitAt_putBit (n k j : Nat) (b : Bool) : bitAt (putBit n k b) j = if j = k then b else bitAt n j := by
  simp only [bitAt_eq_testBit, testBit_putBit]

theorem bitAt_mod (n w k : Nat) (h : k < w) : bitAt (n % 2 ^ w) k = bitAt n k := by
  simp [bitAt_eq_testBit, Nat.testBit_mod_two_pow, h]

theorem Chip.timeValid_setTimeValid (c : Chip) (k j : Nat) (b : Bool) (hj : j < 16) :
    (c.setTimeValid k b).timeValid j = if j = k then b else c.timeValid j := by
  unfold Chip.timeValid Chip.setTimeValid
  rw [Chip.get_set_same _ _ _ _ _ (by decide) (by decide), bitAt_mod _ _ _ (by simpa [F.SYS_ISL_STAT_TIME_VALID] using hj), bitAt_putBit]

theorem Chip.up_setTimeValid (c : Chip) (k j : Nat) (b : Bool) : (c.setTimeValid k b).up j = c.up j := by
  unfold Chip.up Chip.setTimeValid
  rw [Chip.get_set_beside _ _ _ _ _ _ _ _ (by decide) (by decide) (by decide) (by decide)]

theorem Chip.up_setUp (c : Chip) (k j : Nat) (b : Bool) (hj : j < 16) : (c.setUp k b).up j = if j = k then b else c.up j := by
  unfold Chip.up Chip.setUp
  rw [Chip.get_set_same _ _ _ _ _ (by decide) (by decide), bitAt_mod _ _ _ (by simpa [F.SYS_ISL_STAT_ISL_UP] using hj), bitAt_putBit]

theorem Chip.timeValid_setUp (c : Chip) (k j : Nat) (b : Bool) : (c.setUp k b).timeValid j = c.timeValid j := by
  unfold Chip.timeValid Chip.setUp
  rw [Chip.get_set_beside _ _ _ _ _ _ _ _ (by decide) (by decide) (by decide) (by decide)]

end Sys2Proof.Machine
end

