-- ==== Sys2Proof/Laws/State.lean ====
section
/-!
SUPPORT. What each update of the chip leaves alone, field by field; and that registers read as before where none is written.
-/

namespace Sys2Proof.Machine

variable (c : Chip)

/-- at leaves every part but now alone. -/
@[simp] theorem Chip.at_leaves (t : Nat) :
    (Chip.at t c).regs = c.regs ∧ (Chip.at t c).force = c.force ∧ (Chip.at t c).latch = c.latch ∧ (Chip.at t c).dirty = c.dirty ∧
    (Chip.at t c).answer = c.answer ∧ (Chip.at t c).sent = c.sent ∧ (Chip.at t c).sys = c.sys ∧ (Chip.at t c).ev = c.ev ∧
    (Chip.at t c).str = c.str ∧ (Chip.at t c).sec = c.sec ∧ (Chip.at t c).fab = c.fab ∧ (Chip.at t c).pos = c.pos ∧
    (Chip.at t c).trk = c.trk ∧ (Chip.at t c).cmp = c.cmp ∧ (Chip.at t c).col = c.col ∧ (Chip.at t c).asm = c.asm ∧
    (Chip.at t c).flw = c.flw ∧ (Chip.at t c).hp = c.hp ∧ (Chip.at t c).nzh = c.nzh ∧ (Chip.at t c).tko = c.tko ∧
    (Chip.at t c).mem = c.mem ∧ (Chip.at t c).ldl = c.ldl ∧ (Chip.at t c).hst = c.hst ∧ (Chip.at t c).fw = c.fw ∧
    (Chip.at t c).dma = c.dma ∧ (Chip.at t c).pwr = c.pwr ∧ (Chip.at t c).thm = c.thm ∧ (Chip.at t c).otp = c.otp ∧
    (Chip.at t c).cal = c.cal ∧ (Chip.at t c).deniedAt = c.deniedAt :=
  ⟨rfl, rfl, rfl, rfl, rfl, rfl, rfl, rfl, rfl, rfl, rfl, rfl, rfl, rfl, rfl, rfl, rfl, rfl, rfl, rfl, rfl, rfl, rfl, rfl, rfl, rfl, rfl, rfl, rfl, rfl⟩

@[simp] theorem Chip.at_word (t : Nat) (y : Nat) : (Chip.at t c).word y = c.word y := rfl

@[simp] theorem Chip.at_get (t : Nat) (q : Place) (y z : Nat) : (Chip.at t c).get q y z = c.get q y z := rfl

@[simp] theorem Chip.at_on (t : Nat) (q : Place) (y z : Nat) : (Chip.at t c).on q y z = c.on q y z := rfl

@[simp] theorem Chip.at_up (t : Nat) (y : Nat) : (Chip.at t c).up y = c.up y := rfl

/-- setWord leaves every part but regs alone. -/
@[simp] theorem Chip.setWord_leaves (a : Nat) (w : Word) :
    (c.setWord a w).now = c.now ∧ (c.setWord a w).force = c.force ∧ (c.setWord a w).latch = c.latch ∧
    (c.setWord a w).dirty = c.dirty ∧ (c.setWord a w).answer = c.answer ∧ (c.setWord a w).sent = c.sent ∧
    (c.setWord a w).sys = c.sys ∧ (c.setWord a w).ev = c.ev ∧ (c.setWord a w).str = c.str ∧ (c.setWord a w).sec = c.sec ∧
    (c.setWord a w).fab = c.fab ∧ (c.setWord a w).pos = c.pos ∧ (c.setWord a w).trk = c.trk ∧ (c.setWord a w).cmp = c.cmp ∧
    (c.setWord a w).col = c.col ∧ (c.setWord a w).asm = c.asm ∧ (c.setWord a w).flw = c.flw ∧ (c.setWord a w).hp = c.hp ∧
    (c.setWord a w).nzh = c.nzh ∧ (c.setWord a w).tko = c.tko ∧ (c.setWord a w).mem = c.mem ∧ (c.setWord a w).ldl = c.ldl ∧
    (c.setWord a w).hst = c.hst ∧ (c.setWord a w).fw = c.fw ∧ (c.setWord a w).dma = c.dma ∧ (c.setWord a w).pwr = c.pwr ∧
    (c.setWord a w).thm = c.thm ∧ (c.setWord a w).otp = c.otp ∧ (c.setWord a w).cal = c.cal ∧
    (c.setWord a w).deniedAt = c.deniedAt :=
  ⟨rfl, rfl, rfl, rfl, rfl, rfl, rfl, rfl, rfl, rfl, rfl, rfl, rfl, rfl, rfl, rfl, rfl, rfl, rfl, rfl, rfl, rfl, rfl, rfl, rfl, rfl, rfl, rfl, rfl, rfl⟩

/-- set leaves every part but regs alone. -/
@[simp] theorem Chip.set_leaves (p : Place) (v i j : Nat) :
    (c.set p v i j).now = c.now ∧ (c.set p v i j).force = c.force ∧ (c.set p v i j).latch = c.latch ∧
    (c.set p v i j).dirty = c.dirty ∧ (c.set p v i j).answer = c.answer ∧ (c.set p v i j).sent = c.sent ∧
    (c.set p v i j).sys = c.sys ∧ (c.set p v i j).ev = c.ev ∧ (c.set p v i j).str = c.str ∧ (c.set p v i j).sec = c.sec ∧
    (c.set p v i j).fab = c.fab ∧ (c.set p v i j).pos = c.pos ∧ (c.set p v i j).trk = c.trk ∧ (c.set p v i j).cmp = c.cmp ∧
    (c.set p v i j).col = c.col ∧ (c.set p v i j).asm = c.asm ∧ (c.set p v i j).flw = c.flw ∧ (c.set p v i j).hp = c.hp ∧
    (c.set p v i j).nzh = c.nzh ∧ (c.set p v i j).tko = c.tko ∧ (c.set p v i j).mem = c.mem ∧ (c.set p v i j).ldl = c.ldl ∧
    (c.set p v i j).hst = c.hst ∧ (c.set p v i j).fw = c.fw ∧ (c.set p v i j).dma = c.dma ∧ (c.set p v i j).pwr = c.pwr ∧
    (c.set p v i j).thm = c.thm ∧ (c.set p v i j).otp = c.otp ∧ (c.set p v i j).cal = c.cal ∧
    (c.set p v i j).deniedAt = c.deniedAt :=
  ⟨rfl, rfl, rfl, rfl, rfl, rfl, rfl, rfl, rfl, rfl, rfl, rfl, rfl, rfl, rfl, rfl, rfl, rfl, rfl, rfl, rfl, rfl, rfl, rfl, rfl, rfl, rfl, rfl, rfl, rfl⟩

/-- addSat leaves every part but regs alone. -/
@[simp] theorem Chip.addSat_leaves (p : Place) (v i j : Nat) :
    (c.addSat p v i j).now = c.now ∧ (c.addSat p v i j).force = c.force ∧ (c.addSat p v i j).latch = c.latch ∧
    (c.addSat p v i j).dirty = c.dirty ∧ (c.addSat p v i j).answer = c.answer ∧ (c.addSat p v i j).sent = c.sent ∧
    (c.addSat p v i j).sys = c.sys ∧ (c.addSat p v i j).ev = c.ev ∧ (c.addSat p v i j).str = c.str ∧
    (c.addSat p v i j).sec = c.sec ∧ (c.addSat p v i j).fab = c.fab ∧ (c.addSat p v i j).pos = c.pos ∧
    (c.addSat p v i j).trk = c.trk ∧ (c.addSat p v i j).cmp = c.cmp ∧ (c.addSat p v i j).col = c.col ∧
    (c.addSat p v i j).asm = c.asm ∧ (c.addSat p v i j).flw = c.flw ∧ (c.addSat p v i j).hp = c.hp ∧
    (c.addSat p v i j).nzh = c.nzh ∧ (c.addSat p v i j).tko = c.tko ∧ (c.addSat p v i j).mem = c.mem ∧
    (c.addSat p v i j).ldl = c.ldl ∧ (c.addSat p v i j).hst = c.hst ∧ (c.addSat p v i j).fw = c.fw ∧
    (c.addSat p v i j).dma = c.dma ∧ (c.addSat p v i j).pwr = c.pwr ∧ (c.addSat p v i j).thm = c.thm ∧
    (c.addSat p v i j).otp = c.otp ∧ (c.addSat p v i j).cal = c.cal ∧ (c.addSat p v i j).deniedAt = c.deniedAt :=
  ⟨rfl, rfl, rfl, rfl, rfl, rfl, rfl, rfl, rfl, rfl, rfl, rfl, rfl, rfl, rfl, rfl, rfl, rfl, rfl, rfl, rfl, rfl, rfl, rfl, rfl, rfl, rfl, rfl, rfl, rfl⟩

/-- addWrap leaves every part but regs alone. -/
@[simp] theorem Chip.addWrap_leaves (p : Place) (v i j : Nat) :
    (c.addWrap p v i j).now = c.now ∧ (c.addWrap p v i j).force = c.force ∧ (c.addWrap p v i j).latch = c.latch ∧
    (c.addWrap p v i j).dirty = c.dirty ∧ (c.addWrap p v i j).answer = c.answer ∧ (c.addWrap p v i j).sent = c.sent ∧
    (c.addWrap p v i j).sys = c.sys ∧ (c.addWrap p v i j).ev = c.ev ∧ (c.addWrap p v i j).str = c.str ∧
    (c.addWrap p v i j).sec = c.sec ∧ (c.addWrap p v i j).fab = c.fab ∧ (c.addWrap p v i j).pos = c.pos ∧
    (c.addWrap p v i j).trk = c.trk ∧ (c.addWrap p v i j).cmp = c.cmp ∧ (c.addWrap p v i j).col = c.col ∧
    (c.addWrap p v i j).asm = c.asm ∧ (c.addWrap p v i j).flw = c.flw ∧ (c.addWrap p v i j).hp = c.hp ∧
    (c.addWrap p v i j).nzh = c.nzh ∧ (c.addWrap p v i j).tko = c.tko ∧ (c.addWrap p v i j).mem = c.mem ∧
    (c.addWrap p v i j).ldl = c.ldl ∧ (c.addWrap p v i j).hst = c.hst ∧ (c.addWrap p v i j).fw = c.fw ∧
    (c.addWrap p v i j).dma = c.dma ∧ (c.addWrap p v i j).pwr = c.pwr ∧ (c.addWrap p v i j).thm = c.thm ∧
    (c.addWrap p v i j).otp = c.otp ∧ (c.addWrap p v i j).cal = c.cal ∧ (c.addWrap p v i j).deniedAt = c.deniedAt :=
  ⟨rfl, rfl, rfl, rfl, rfl, rfl, rfl, rfl, rfl, rfl, rfl, rfl, rfl, rfl, rfl, rfl, rfl, rfl, rfl, rfl, rfl, rfl, rfl, rfl, rfl, rfl, rfl, rfl, rfl, rfl⟩

/-- orBits leaves every part but regs alone. -/
@[simp] theorem Chip.orBits_leaves (p : Place) (v i j : Nat) :
    (c.orBits p v i j).now = c.now ∧ (c.orBits p v i j).force = c.force ∧ (c.orBits p v i j).latch = c.latch ∧
    (c.orBits p v i j).dirty = c.dirty ∧ (c.orBits p v i j).answer = c.answer ∧ (c.orBits p v i j).sent = c.sent ∧
    (c.orBits p v i j).sys = c.sys ∧ (c.orBits p v i j).ev = c.ev ∧ (c.orBits p v i j).str = c.str ∧
    (c.orBits p v i j).sec = c.sec ∧ (c.orBits p v i j).fab = c.fab ∧ (c.orBits p v i j).pos = c.pos ∧
    (c.orBits p v i j).trk = c.trk ∧ (c.orBits p v i j).cmp = c.cmp ∧ (c.orBits p v i j).col = c.col ∧
    (c.orBits p v i j).asm = c.asm ∧ (c.orBits p v i j).flw = c.flw ∧ (c.orBits p v i j).hp = c.hp ∧
    (c.orBits p v i j).nzh = c.nzh ∧ (c.orBits p v i j).tko = c.tko ∧ (c.orBits p v i j).mem = c.mem ∧
    (c.orBits p v i j).ldl = c.ldl ∧ (c.orBits p v i j).hst = c.hst ∧ (c.orBits p v i j).fw = c.fw ∧
    (c.orBits p v i j).dma = c.dma ∧ (c.orBits p v i j).pwr = c.pwr ∧ (c.orBits p v i j).thm = c.thm ∧
    (c.orBits p v i j).otp = c.otp ∧ (c.orBits p v i j).cal = c.cal ∧ (c.orBits p v i j).deniedAt = c.deniedAt :=
  ⟨rfl, rfl, rfl, rfl, rfl, rfl, rfl, rfl, rfl, rfl, rfl, rfl, rfl, rfl, rfl, rfl, rfl, rfl, rfl, rfl, rfl, rfl, rfl, rfl, rfl, rfl, rfl, rfl, rfl, rfl⟩

/-- setLatch leaves every part but latch alone. -/
@[simp] theorem Chip.setLatch_leaves (a i v : Nat) :
    (c.setLatch a i v).now = c.now ∧ (c.setLatch a i v).regs = c.regs ∧ (c.setLatch a i v).force = c.force ∧
    (c.setLatch a i v).dirty = c.dirty ∧ (c.setLatch a i v).answer = c.answer ∧ (c.setLatch a i v).sent = c.sent ∧
    (c.setLatch a i v).sys = c.sys ∧ (c.setLatch a i v).ev = c.ev ∧ (c.setLatch a i v).str = c.str ∧
    (c.setLatch a i v).sec = c.sec ∧ (c.setLatch a i v).fab = c.fab ∧ (c.setLatch a i v).pos = c.pos ∧
    (c.setLatch a i v).trk = c.trk ∧ (c.setLatch a i v).cmp = c.cmp ∧ (c.setLatch a i v).col = c.col ∧
    (c.setLatch a i v).asm = c.asm ∧ (c.setLatch a i v).flw = c.flw ∧ (c.setLatch a i v).hp = c.hp ∧
    (c.setLatch a i v).nzh = c.nzh ∧ (c.setLatch a i v).tko = c.tko ∧ (c.setLatch a i v).mem = c.mem ∧
    (c.setLatch a i v).ldl = c.ldl ∧ (c.setLatch a i v).hst = c.hst ∧ (c.setLatch a i v).fw = c.fw ∧
    (c.setLatch a i v).dma = c.dma ∧ (c.setLatch a i v).pwr = c.pwr ∧ (c.setLatch a i v).thm = c.thm ∧
    (c.setLatch a i v).otp = c.otp ∧ (c.setLatch a i v).cal = c.cal ∧ (c.setLatch a i v).deniedAt = c.deniedAt :=
  ⟨rfl, rfl, rfl, rfl, rfl, rfl, rfl, rfl, rfl, rfl, rfl, rfl, rfl, rfl, rfl, rfl, rfl, rfl, rfl, rfl, rfl, rfl, rfl, rfl, rfl, rfl, rfl, rfl, rfl, rfl⟩

@[simp] theorem Chip.setLatch_word (a i v : Nat) (y : Nat) : (c.setLatch a i v).word y = c.word y := rfl

@[simp] theorem Chip.setLatch_get (a i v : Nat) (q : Place) (y z : Nat) : (c.setLatch a i v).get q y z = c.get q y z := rfl

@[simp] theorem Chip.setLatch_on (a i v : Nat) (q : Place) (y z : Nat) : (c.setLatch a i v).on q y z = c.on q y z := rfl

@[simp] theorem Chip.setLatch_up (a i v : Nat) (y : Nat) : (c.setLatch a i v).up y = c.up y := rfl

/-- bring leaves every part but force alone. -/
@[simp] theorem Chip.bring_leaves (a : Nat) :
    (c.bring a).now = c.now ∧ (c.bring a).regs = c.regs ∧ (c.bring a).latch = c.latch ∧ (c.bring a).dirty = c.dirty ∧
    (c.bring a).answer = c.answer ∧ (c.bring a).sent = c.sent ∧ (c.bring a).sys = c.sys ∧ (c.bring a).ev = c.ev ∧
    (c.bring a).str = c.str ∧ (c.bring a).sec = c.sec ∧ (c.bring a).fab = c.fab ∧ (c.bring a).pos = c.pos ∧
    (c.bring a).trk = c.trk ∧ (c.bring a).cmp = c.cmp ∧ (c.bring a).col = c.col ∧ (c.bring a).asm = c.asm ∧
    (c.bring a).flw = c.flw ∧ (c.bring a).hp = c.hp ∧ (c.bring a).nzh = c.nzh ∧ (c.bring a).tko = c.tko ∧
    (c.bring a).mem = c.mem ∧ (c.bring a).ldl = c.ldl ∧ (c.bring a).hst = c.hst ∧ (c.bring a).fw = c.fw ∧
    (c.bring a).dma = c.dma ∧ (c.bring a).pwr = c.pwr ∧ (c.bring a).thm = c.thm ∧ (c.bring a).otp = c.otp ∧
    (c.bring a).cal = c.cal ∧ (c.bring a).deniedAt = c.deniedAt :=
  ⟨rfl, rfl, rfl, rfl, rfl, rfl, rfl, rfl, rfl, rfl, rfl, rfl, rfl, rfl, rfl, rfl, rfl, rfl, rfl, rfl, rfl, rfl, rfl, rfl, rfl, rfl, rfl, rfl, rfl, rfl⟩

@[simp] theorem Chip.bring_word (a : Nat) (y : Nat) : (c.bring a).word y = c.word y := rfl

@[simp] theorem Chip.bring_get (a : Nat) (q : Place) (y z : Nat) : (c.bring a).get q y z = c.get q y z := rfl

@[simp] theorem Chip.bring_on (a : Nat) (q : Place) (y z : Nat) : (c.bring a).on q y z = c.on q y z := rfl

@[simp] theorem Chip.bring_up (a : Nat) (y : Nat) : (c.bring a).up y = c.up y := rfl

/-- send leaves every part but sent alone. -/
@[simp] theorem Chip.send_leaves (k : String) (l : List Nat) :
    (c.send k l).now = c.now ∧ (c.send k l).regs = c.regs ∧ (c.send k l).force = c.force ∧ (c.send k l).latch = c.latch ∧
    (c.send k l).dirty = c.dirty ∧ (c.send k l).answer = c.answer ∧ (c.send k l).sys = c.sys ∧ (c.send k l).ev = c.ev ∧
    (c.send k l).str = c.str ∧ (c.send k l).sec = c.sec ∧ (c.send k l).fab = c.fab ∧ (c.send k l).pos = c.pos ∧
    (c.send k l).trk = c.trk ∧ (c.send k l).cmp = c.cmp ∧ (c.send k l).col = c.col ∧ (c.send k l).asm = c.asm ∧
    (c.send k l).flw = c.flw ∧ (c.send k l).hp = c.hp ∧ (c.send k l).nzh = c.nzh ∧ (c.send k l).tko = c.tko ∧
    (c.send k l).mem = c.mem ∧ (c.send k l).ldl = c.ldl ∧ (c.send k l).hst = c.hst ∧ (c.send k l).fw = c.fw ∧
    (c.send k l).dma = c.dma ∧ (c.send k l).pwr = c.pwr ∧ (c.send k l).thm = c.thm ∧ (c.send k l).otp = c.otp ∧
    (c.send k l).cal = c.cal ∧ (c.send k l).deniedAt = c.deniedAt :=
  ⟨rfl, rfl, rfl, rfl, rfl, rfl, rfl, rfl, rfl, rfl, rfl, rfl, rfl, rfl, rfl, rfl, rfl, rfl, rfl, rfl, rfl, rfl, rfl, rfl, rfl, rfl, rfl, rfl, rfl, rfl⟩

@[simp] theorem Chip.send_word (k : String) (l : List Nat) (y : Nat) : (c.send k l).word y = c.word y := rfl

@[simp] theorem Chip.send_get (k : String) (l : List Nat) (q : Place) (y z : Nat) : (c.send k l).get q y z = c.get q y z := rfl

@[simp] theorem Chip.send_on (k : String) (l : List Nat) (q : Place) (y z : Nat) : (c.send k l).on q y z = c.on q y z := rfl

@[simp] theorem Chip.send_up (k : String) (l : List Nat) (y : Nat) : (c.send k l).up y = c.up y := rfl

/-- raiseEvent leaves every part but ev alone. -/
@[simp] theorem Chip.raiseEvent_leaves (e : Nat) (l : List (Nat × Nat)) (n : Nat) :
    (c.raiseEvent e l n).now = c.now ∧ (c.raiseEvent e l n).regs = c.regs ∧ (c.raiseEvent e l n).force = c.force ∧
    (c.raiseEvent e l n).latch = c.latch ∧ (c.raiseEvent e l n).dirty = c.dirty ∧ (c.raiseEvent e l n).answer = c.answer ∧
    (c.raiseEvent e l n).sent = c.sent ∧ (c.raiseEvent e l n).sys = c.sys ∧ (c.raiseEvent e l n).str = c.str ∧
    (c.raiseEvent e l n).sec = c.sec ∧ (c.raiseEvent e l n).fab = c.fab ∧ (c.raiseEvent e l n).pos = c.pos ∧
    (c.raiseEvent e l n).trk = c.trk ∧ (c.raiseEvent e l n).cmp = c.cmp ∧ (c.raiseEvent e l n).col = c.col ∧
    (c.raiseEvent e l n).asm = c.asm ∧ (c.raiseEvent e l n).flw = c.flw ∧ (c.raiseEvent e l n).hp = c.hp ∧
    (c.raiseEvent e l n).nzh = c.nzh ∧ (c.raiseEvent e l n).tko = c.tko ∧ (c.raiseEvent e l n).mem = c.mem ∧
    (c.raiseEvent e l n).ldl = c.ldl ∧ (c.raiseEvent e l n).hst = c.hst ∧ (c.raiseEvent e l n).fw = c.fw ∧
    (c.raiseEvent e l n).dma = c.dma ∧ (c.raiseEvent e l n).pwr = c.pwr ∧ (c.raiseEvent e l n).thm = c.thm ∧
    (c.raiseEvent e l n).otp = c.otp ∧ (c.raiseEvent e l n).cal = c.cal ∧ (c.raiseEvent e l n).deniedAt = c.deniedAt :=
  ⟨rfl, rfl, rfl, rfl, rfl, rfl, rfl, rfl, rfl, rfl, rfl, rfl, rfl, rfl, rfl, rfl, rfl, rfl, rfl, rfl, rfl, rfl, rfl, rfl, rfl, rfl, rfl, rfl, rfl, rfl⟩

@[simp] theorem Chip.raiseEvent_word (e : Nat) (l : List (Nat × Nat)) (n : Nat) (y : Nat) : (c.raiseEvent e l n).word y = c.word y := rfl

@[simp] theorem Chip.raiseEvent_get (e : Nat) (l : List (Nat × Nat)) (n : Nat) (q : Place) (y z : Nat) : (c.raiseEvent e l n).get q y z = c.get q y z := rfl

@[simp] theorem Chip.raiseEvent_on (e : Nat) (l : List (Nat × Nat)) (n : Nat) (q : Place) (y z : Nat) : (c.raiseEvent e l n).on q y z = c.on q y z := rfl

@[simp] theorem Chip.raiseEvent_up (e : Nat) (l : List (Nat × Nat)) (n : Nat) (y : Nat) : (c.raiseEvent e l n).up y = c.up y := rfl

/-- emit leaves every part but ev alone. -/
@[simp] theorem Chip.emit_leaves (e : Nat) (l : List (Nat × Nat)) :
    (c.emit e l).now = c.now ∧ (c.emit e l).regs = c.regs ∧ (c.emit e l).force = c.force ∧ (c.emit e l).latch = c.latch ∧
    (c.emit e l).dirty = c.dirty ∧ (c.emit e l).answer = c.answer ∧ (c.emit e l).sent = c.sent ∧ (c.emit e l).sys = c.sys ∧
    (c.emit e l).str = c.str ∧ (c.emit e l).sec = c.sec ∧ (c.emit e l).fab = c.fab ∧ (c.emit e l).pos = c.pos ∧
    (c.emit e l).trk = c.trk ∧ (c.emit e l).cmp = c.cmp ∧ (c.emit e l).col = c.col ∧ (c.emit e l).asm = c.asm ∧
    (c.emit e l).flw = c.flw ∧ (c.emit e l).hp = c.hp ∧ (c.emit e l).nzh = c.nzh ∧ (c.emit e l).tko = c.tko ∧
    (c.emit e l).mem = c.mem ∧ (c.emit e l).ldl = c.ldl ∧ (c.emit e l).hst = c.hst ∧ (c.emit e l).fw = c.fw ∧
    (c.emit e l).dma = c.dma ∧ (c.emit e l).pwr = c.pwr ∧ (c.emit e l).thm = c.thm ∧ (c.emit e l).otp = c.otp ∧
    (c.emit e l).cal = c.cal ∧ (c.emit e l).deniedAt = c.deniedAt :=
  ⟨rfl, rfl, rfl, rfl, rfl, rfl, rfl, rfl, rfl, rfl, rfl, rfl, rfl, rfl, rfl, rfl, rfl, rfl, rfl, rfl, rfl, rfl, rfl, rfl, rfl, rfl, rfl, rfl, rfl, rfl⟩

@[simp] theorem Chip.emit_word (e : Nat) (l : List (Nat × Nat)) (y : Nat) : (c.emit e l).word y = c.word y := rfl

@[simp] theorem Chip.emit_get (e : Nat) (l : List (Nat × Nat)) (q : Place) (y z : Nat) : (c.emit e l).get q y z = c.get q y z := rfl

@[simp] theorem Chip.emit_on (e : Nat) (l : List (Nat × Nat)) (q : Place) (y z : Nat) : (c.emit e l).on q y z = c.on q y z := rfl

@[simp] theorem Chip.emit_up (e : Nat) (l : List (Nat × Nat)) (y : Nat) : (c.emit e l).up y = c.up y := rfl

/-- answered leaves every part but answer alone. -/
@[simp] theorem Chip.answered_leaves (a : BusAnswer) :
    (c.answered a).now = c.now ∧ (c.answered a).regs = c.regs ∧ (c.answered a).force = c.force ∧ (c.answered a).latch = c.latch ∧
    (c.answered a).dirty = c.dirty ∧ (c.answered a).sent = c.sent ∧ (c.answered a).sys = c.sys ∧ (c.answered a).ev = c.ev ∧
    (c.answered a).str = c.str ∧ (c.answered a).sec = c.sec ∧ (c.answered a).fab = c.fab ∧ (c.answered a).pos = c.pos ∧
    (c.answered a).trk = c.trk ∧ (c.answered a).cmp = c.cmp ∧ (c.answered a).col = c.col ∧ (c.answered a).asm = c.asm ∧
    (c.answered a).flw = c.flw ∧ (c.answered a).hp = c.hp ∧ (c.answered a).nzh = c.nzh ∧ (c.answered a).tko = c.tko ∧
    (c.answered a).mem = c.mem ∧ (c.answered a).ldl = c.ldl ∧ (c.answered a).hst = c.hst ∧ (c.answered a).fw = c.fw ∧
    (c.answered a).dma = c.dma ∧ (c.answered a).pwr = c.pwr ∧ (c.answered a).thm = c.thm ∧ (c.answered a).otp = c.otp ∧
    (c.answered a).cal = c.cal ∧ (c.answered a).deniedAt = c.deniedAt :=
  ⟨rfl, rfl, rfl, rfl, rfl, rfl, rfl, rfl, rfl, rfl, rfl, rfl, rfl, rfl, rfl, rfl, rfl, rfl, rfl, rfl, rfl, rfl, rfl, rfl, rfl, rfl, rfl, rfl, rfl, rfl⟩

@[simp] theorem Chip.answered_word (a : BusAnswer) (y : Nat) : (c.answered a).word y = c.word y := rfl

@[simp] theorem Chip.answered_get (a : BusAnswer) (q : Place) (y z : Nat) : (c.answered a).get q y z = c.get q y z := rfl

@[simp] theorem Chip.answered_on (a : BusAnswer) (q : Place) (y z : Nat) : (c.answered a).on q y z = c.on q y z := rfl

@[simp] theorem Chip.answered_up (a : BusAnswer) (y : Nat) : (c.answered a).up y = c.up y := rfl

/-- setUp leaves every part but regs alone. -/
@[simp] theorem Chip.setUp_leaves (k : Nat) (b : Bool) :
    (c.setUp k b).now = c.now ∧ (c.setUp k b).force = c.force ∧ (c.setUp k b).latch = c.latch ∧ (c.setUp k b).dirty = c.dirty ∧
    (c.setUp k b).answer = c.answer ∧ (c.setUp k b).sent = c.sent ∧ (c.setUp k b).sys = c.sys ∧ (c.setUp k b).ev = c.ev ∧
    (c.setUp k b).str = c.str ∧ (c.setUp k b).sec = c.sec ∧ (c.setUp k b).fab = c.fab ∧ (c.setUp k b).pos = c.pos ∧
    (c.setUp k b).trk = c.trk ∧ (c.setUp k b).cmp = c.cmp ∧ (c.setUp k b).col = c.col ∧ (c.setUp k b).asm = c.asm ∧
    (c.setUp k b).flw = c.flw ∧ (c.setUp k b).hp = c.hp ∧ (c.setUp k b).nzh = c.nzh ∧ (c.setUp k b).tko = c.tko ∧
    (c.setUp k b).mem = c.mem ∧ (c.setUp k b).ldl = c.ldl ∧ (c.setUp k b).hst = c.hst ∧ (c.setUp k b).fw = c.fw ∧
    (c.setUp k b).dma = c.dma ∧ (c.setUp k b).pwr = c.pwr ∧ (c.setUp k b).thm = c.thm ∧ (c.setUp k b).otp = c.otp ∧
    (c.setUp k b).cal = c.cal ∧ (c.setUp k b).deniedAt = c.deniedAt :=
  ⟨rfl, rfl, rfl, rfl, rfl, rfl, rfl, rfl, rfl, rfl, rfl, rfl, rfl, rfl, rfl, rfl, rfl, rfl, rfl, rfl, rfl, rfl, rfl, rfl, rfl, rfl, rfl, rfl, rfl, rfl⟩

/-- setTimeValid leaves every part but regs alone. -/
@[simp] theorem Chip.setTimeValid_leaves (k : Nat) (b : Bool) :
    (c.setTimeValid k b).now = c.now ∧ (c.setTimeValid k b).force = c.force ∧ (c.setTimeValid k b).latch = c.latch ∧
    (c.setTimeValid k b).dirty = c.dirty ∧ (c.setTimeValid k b).answer = c.answer ∧ (c.setTimeValid k b).sent = c.sent ∧
    (c.setTimeValid k b).sys = c.sys ∧ (c.setTimeValid k b).ev = c.ev ∧ (c.setTimeValid k b).str = c.str ∧
    (c.setTimeValid k b).sec = c.sec ∧ (c.setTimeValid k b).fab = c.fab ∧ (c.setTimeValid k b).pos = c.pos ∧
    (c.setTimeValid k b).trk = c.trk ∧ (c.setTimeValid k b).cmp = c.cmp ∧ (c.setTimeValid k b).col = c.col ∧
    (c.setTimeValid k b).asm = c.asm ∧ (c.setTimeValid k b).flw = c.flw ∧ (c.setTimeValid k b).hp = c.hp ∧
    (c.setTimeValid k b).nzh = c.nzh ∧ (c.setTimeValid k b).tko = c.tko ∧ (c.setTimeValid k b).mem = c.mem ∧
    (c.setTimeValid k b).ldl = c.ldl ∧ (c.setTimeValid k b).hst = c.hst ∧ (c.setTimeValid k b).fw = c.fw ∧
    (c.setTimeValid k b).dma = c.dma ∧ (c.setTimeValid k b).pwr = c.pwr ∧ (c.setTimeValid k b).thm = c.thm ∧
    (c.setTimeValid k b).otp = c.otp ∧ (c.setTimeValid k b).cal = c.cal ∧ (c.setTimeValid k b).deniedAt = c.deniedAt :=
  ⟨rfl, rfl, rfl, rfl, rfl, rfl, rfl, rfl, rfl, rfl, rfl, rfl, rfl, rfl, rfl, rfl, rfl, rfl, rfl, rfl, rfl, rfl, rfl, rfl, rfl, rfl, rfl, rfl, rfl, rfl⟩

/-- setSys leaves every part but sys alone. -/
@[simp] theorem Chip.setSys_leaves (x : SysSt) :
    (c.setSys x).now = c.now ∧ (c.setSys x).regs = c.regs ∧ (c.setSys x).force = c.force ∧ (c.setSys x).latch = c.latch ∧
    (c.setSys x).dirty = c.dirty ∧ (c.setSys x).answer = c.answer ∧ (c.setSys x).sent = c.sent ∧ (c.setSys x).ev = c.ev ∧
    (c.setSys x).str = c.str ∧ (c.setSys x).sec = c.sec ∧ (c.setSys x).fab = c.fab ∧ (c.setSys x).pos = c.pos ∧
    (c.setSys x).trk = c.trk ∧ (c.setSys x).cmp = c.cmp ∧ (c.setSys x).col = c.col ∧ (c.setSys x).asm = c.asm ∧
    (c.setSys x).flw = c.flw ∧ (c.setSys x).hp = c.hp ∧ (c.setSys x).nzh = c.nzh ∧ (c.setSys x).tko = c.tko ∧
    (c.setSys x).mem = c.mem ∧ (c.setSys x).ldl = c.ldl ∧ (c.setSys x).hst = c.hst ∧ (c.setSys x).fw = c.fw ∧
    (c.setSys x).dma = c.dma ∧ (c.setSys x).pwr = c.pwr ∧ (c.setSys x).thm = c.thm ∧ (c.setSys x).otp = c.otp ∧
    (c.setSys x).cal = c.cal ∧ (c.setSys x).deniedAt = c.deniedAt :=
  ⟨rfl, rfl, rfl, rfl, rfl, rfl, rfl, rfl, rfl, rfl, rfl, rfl, rfl, rfl, rfl, rfl, rfl, rfl, rfl, rfl, rfl, rfl, rfl, rfl, rfl, rfl, rfl, rfl, rfl, rfl⟩

@[simp] theorem Chip.setSys_word (x : SysSt) (y : Nat) : (c.setSys x).word y = c.word y := rfl

@[simp] theorem Chip.setSys_get (x : SysSt) (q : Place) (y z : Nat) : (c.setSys x).get q y z = c.get q y z := rfl

@[simp] theorem Chip.setSys_on (x : SysSt) (q : Place) (y z : Nat) : (c.setSys x).on q y z = c.on q y z := rfl

@[simp] theorem Chip.setSys_up (x : SysSt) (y : Nat) : (c.setSys x).up y = c.up y := rfl

/-- setEv leaves every part but ev alone. -/
@[simp] theorem Chip.setEv_leaves (x : EvSt) :
    (c.setEv x).now = c.now ∧ (c.setEv x).regs = c.regs ∧ (c.setEv x).force = c.force ∧ (c.setEv x).latch = c.latch ∧
    (c.setEv x).dirty = c.dirty ∧ (c.setEv x).answer = c.answer ∧ (c.setEv x).sent = c.sent ∧ (c.setEv x).sys = c.sys ∧
    (c.setEv x).str = c.str ∧ (c.setEv x).sec = c.sec ∧ (c.setEv x).fab = c.fab ∧ (c.setEv x).pos = c.pos ∧
    (c.setEv x).trk = c.trk ∧ (c.setEv x).cmp = c.cmp ∧ (c.setEv x).col = c.col ∧ (c.setEv x).asm = c.asm ∧
    (c.setEv x).flw = c.flw ∧ (c.setEv x).hp = c.hp ∧ (c.setEv x).nzh = c.nzh ∧ (c.setEv x).tko = c.tko ∧
    (c.setEv x).mem = c.mem ∧ (c.setEv x).ldl = c.ldl ∧ (c.setEv x).hst = c.hst ∧ (c.setEv x).fw = c.fw ∧
    (c.setEv x).dma = c.dma ∧ (c.setEv x).pwr = c.pwr ∧ (c.setEv x).thm = c.thm ∧ (c.setEv x).otp = c.otp ∧
    (c.setEv x).cal = c.cal ∧ (c.setEv x).deniedAt = c.deniedAt :=
  ⟨rfl, rfl, rfl, rfl, rfl, rfl, rfl, rfl, rfl, rfl, rfl, rfl, rfl, rfl, rfl, rfl, rfl, rfl, rfl, rfl, rfl, rfl, rfl, rfl, rfl, rfl, rfl, rfl, rfl, rfl⟩

@[simp] theorem Chip.setEv_word (x : EvSt) (y : Nat) : (c.setEv x).word y = c.word y := rfl

@[simp] theorem Chip.setEv_get (x : EvSt) (q : Place) (y z : Nat) : (c.setEv x).get q y z = c.get q y z := rfl

@[simp] theorem Chip.setEv_on (x : EvSt) (q : Place) (y z : Nat) : (c.setEv x).on q y z = c.on q y z := rfl

@[simp] theorem Chip.setEv_up (x : EvSt) (y : Nat) : (c.setEv x).up y = c.up y := rfl

/-- setStr leaves every part but str alone. -/
@[simp] theorem Chip.setStr_leaves (x : StrSt) :
    (c.setStr x).now = c.now ∧ (c.setStr x).regs = c.regs ∧ (c.setStr x).force = c.force ∧ (c.setStr x).latch = c.latch ∧
    (c.setStr x).dirty = c.dirty ∧ (c.setStr x).answer = c.answer ∧ (c.setStr x).sent = c.sent ∧ (c.setStr x).sys = c.sys ∧
    (c.setStr x).ev = c.ev ∧ (c.setStr x).sec = c.sec ∧ (c.setStr x).fab = c.fab ∧ (c.setStr x).pos = c.pos ∧
    (c.setStr x).trk = c.trk ∧ (c.setStr x).cmp = c.cmp ∧ (c.setStr x).col = c.col ∧ (c.setStr x).asm = c.asm ∧
    (c.setStr x).flw = c.flw ∧ (c.setStr x).hp = c.hp ∧ (c.setStr x).nzh = c.nzh ∧ (c.setStr x).tko = c.tko ∧
    (c.setStr x).mem = c.mem ∧ (c.setStr x).ldl = c.ldl ∧ (c.setStr x).hst = c.hst ∧ (c.setStr x).fw = c.fw ∧
    (c.setStr x).dma = c.dma ∧ (c.setStr x).pwr = c.pwr ∧ (c.setStr x).thm = c.thm ∧ (c.setStr x).otp = c.otp ∧
    (c.setStr x).cal = c.cal ∧ (c.setStr x).deniedAt = c.deniedAt :=
  ⟨rfl, rfl, rfl, rfl, rfl, rfl, rfl, rfl, rfl, rfl, rfl, rfl, rfl, rfl, rfl, rfl, rfl, rfl, rfl, rfl, rfl, rfl, rfl, rfl, rfl, rfl, rfl, rfl, rfl, rfl⟩

@[simp] theorem Chip.setStr_word (x : StrSt) (y : Nat) : (c.setStr x).word y = c.word y := rfl

@[simp] theorem Chip.setStr_get (x : StrSt) (q : Place) (y z : Nat) : (c.setStr x).get q y z = c.get q y z := rfl

@[simp] theorem Chip.setStr_on (x : StrSt) (q : Place) (y z : Nat) : (c.setStr x).on q y z = c.on q y z := rfl

@[simp] theorem Chip.setStr_up (x : StrSt) (y : Nat) : (c.setStr x).up y = c.up y := rfl

/-- setFab leaves every part but fab alone. -/
@[simp] theorem Chip.setFab_leaves (x : FabSt) :
    (c.setFab x).now = c.now ∧ (c.setFab x).regs = c.regs ∧ (c.setFab x).force = c.force ∧ (c.setFab x).latch = c.latch ∧
    (c.setFab x).dirty = c.dirty ∧ (c.setFab x).answer = c.answer ∧ (c.setFab x).sent = c.sent ∧ (c.setFab x).sys = c.sys ∧
    (c.setFab x).ev = c.ev ∧ (c.setFab x).str = c.str ∧ (c.setFab x).sec = c.sec ∧ (c.setFab x).pos = c.pos ∧
    (c.setFab x).trk = c.trk ∧ (c.setFab x).cmp = c.cmp ∧ (c.setFab x).col = c.col ∧ (c.setFab x).asm = c.asm ∧
    (c.setFab x).flw = c.flw ∧ (c.setFab x).hp = c.hp ∧ (c.setFab x).nzh = c.nzh ∧ (c.setFab x).tko = c.tko ∧
    (c.setFab x).mem = c.mem ∧ (c.setFab x).ldl = c.ldl ∧ (c.setFab x).hst = c.hst ∧ (c.setFab x).fw = c.fw ∧
    (c.setFab x).dma = c.dma ∧ (c.setFab x).pwr = c.pwr ∧ (c.setFab x).thm = c.thm ∧ (c.setFab x).otp = c.otp ∧
    (c.setFab x).cal = c.cal ∧ (c.setFab x).deniedAt = c.deniedAt :=
  ⟨rfl, rfl, rfl, rfl, rfl, rfl, rfl, rfl, rfl, rfl, rfl, rfl, rfl, rfl, rfl, rfl, rfl, rfl, rfl, rfl, rfl, rfl, rfl, rfl, rfl, rfl, rfl, rfl, rfl, rfl⟩

@[simp] theorem Chip.setFab_word (x : FabSt) (y : Nat) : (c.setFab x).word y = c.word y := rfl

@[simp] theorem Chip.setFab_get (x : FabSt) (q : Place) (y z : Nat) : (c.setFab x).get q y z = c.get q y z := rfl

@[simp] theorem Chip.setFab_on (x : FabSt) (q : Place) (y z : Nat) : (c.setFab x).on q y z = c.on q y z := rfl

@[simp] theorem Chip.setFab_up (x : FabSt) (y : Nat) : (c.setFab x).up y = c.up y := rfl

/-- setFport leaves every part but fab alone. -/
@[simp] theorem Chip.setFport_leaves (p : Fin 3) (x : FabPort) :
    (c.setFport p x).now = c.now ∧ (c.setFport p x).regs = c.regs ∧ (c.setFport p x).force = c.force ∧
    (c.setFport p x).latch = c.latch ∧ (c.setFport p x).dirty = c.dirty ∧ (c.setFport p x).answer = c.answer ∧
    (c.setFport p x).sent = c.sent ∧ (c.setFport p x).sys = c.sys ∧ (c.setFport p x).ev = c.ev ∧ (c.setFport p x).str = c.str ∧
    (c.setFport p x).sec = c.sec ∧ (c.setFport p x).pos = c.pos ∧ (c.setFport p x).trk = c.trk ∧ (c.setFport p x).cmp = c.cmp ∧
    (c.setFport p x).col = c.col ∧ (c.setFport p x).asm = c.asm ∧ (c.setFport p x).flw = c.flw ∧ (c.setFport p x).hp = c.hp ∧
    (c.setFport p x).nzh = c.nzh ∧ (c.setFport p x).tko = c.tko ∧ (c.setFport p x).mem = c.mem ∧ (c.setFport p x).ldl = c.ldl ∧
    (c.setFport p x).hst = c.hst ∧ (c.setFport p x).fw = c.fw ∧ (c.setFport p x).dma = c.dma ∧ (c.setFport p x).pwr = c.pwr ∧
    (c.setFport p x).thm = c.thm ∧ (c.setFport p x).otp = c.otp ∧ (c.setFport p x).cal = c.cal ∧
    (c.setFport p x).deniedAt = c.deniedAt :=
  ⟨rfl, rfl, rfl, rfl, rfl, rfl, rfl, rfl, rfl, rfl, rfl, rfl, rfl, rfl, rfl, rfl, rfl, rfl, rfl, rfl, rfl, rfl, rfl, rfl, rfl, rfl, rfl, rfl, rfl, rfl⟩

@[simp] theorem Chip.setFport_word (p : Fin 3) (x : FabPort) (y : Nat) : (c.setFport p x).word y = c.word y := rfl

@[simp] theorem Chip.setFport_get (p : Fin 3) (x : FabPort) (q : Place) (y z : Nat) : (c.setFport p x).get q y z = c.get q y z := rfl

@[simp] theorem Chip.setFport_on (p : Fin 3) (x : FabPort) (q : Place) (y z : Nat) : (c.setFport p x).on q y z = c.on q y z := rfl

@[simp] theorem Chip.setFport_up (p : Fin 3) (x : FabPort) (y : Nat) : (c.setFport p x).up y = c.up y := rfl

/-- setEnc leaves every part but pos alone. -/
@[simp] theorem Chip.setEnc_leaves (n : Fin 2) (x : EncSt) :
    (c.setEnc n x).now = c.now ∧ (c.setEnc n x).regs = c.regs ∧ (c.setEnc n x).force = c.force ∧ (c.setEnc n x).latch = c.latch ∧
    (c.setEnc n x).dirty = c.dirty ∧ (c.setEnc n x).answer = c.answer ∧ (c.setEnc n x).sent = c.sent ∧
    (c.setEnc n x).sys = c.sys ∧ (c.setEnc n x).ev = c.ev ∧ (c.setEnc n x).str = c.str ∧ (c.setEnc n x).sec = c.sec ∧
    (c.setEnc n x).fab = c.fab ∧ (c.setEnc n x).trk = c.trk ∧ (c.setEnc n x).cmp = c.cmp ∧ (c.setEnc n x).col = c.col ∧
    (c.setEnc n x).asm = c.asm ∧ (c.setEnc n x).flw = c.flw ∧ (c.setEnc n x).hp = c.hp ∧ (c.setEnc n x).nzh = c.nzh ∧
    (c.setEnc n x).tko = c.tko ∧ (c.setEnc n x).mem = c.mem ∧ (c.setEnc n x).ldl = c.ldl ∧ (c.setEnc n x).hst = c.hst ∧
    (c.setEnc n x).fw = c.fw ∧ (c.setEnc n x).dma = c.dma ∧ (c.setEnc n x).pwr = c.pwr ∧ (c.setEnc n x).thm = c.thm ∧
    (c.setEnc n x).otp = c.otp ∧ (c.setEnc n x).cal = c.cal ∧ (c.setEnc n x).deniedAt = c.deniedAt :=
  ⟨rfl, rfl, rfl, rfl, rfl, rfl, rfl, rfl, rfl, rfl, rfl, rfl, rfl, rfl, rfl, rfl, rfl, rfl, rfl, rfl, rfl, rfl, rfl, rfl, rfl, rfl, rfl, rfl, rfl, rfl⟩

@[simp] theorem Chip.setEnc_word (n : Fin 2) (x : EncSt) (y : Nat) : (c.setEnc n x).word y = c.word y := rfl

@[simp] theorem Chip.setEnc_get (n : Fin 2) (x : EncSt) (q : Place) (y z : Nat) : (c.setEnc n x).get q y z = c.get q y z := rfl

@[simp] theorem Chip.setEnc_on (n : Fin 2) (x : EncSt) (q : Place) (y z : Nat) : (c.setEnc n x).on q y z = c.on q y z := rfl

@[simp] theorem Chip.setEnc_up (n : Fin 2) (x : EncSt) (y : Nat) : (c.setEnc n x).up y = c.up y := rfl

/-- setEnco leaves every part but pos alone. -/
@[simp] theorem Chip.setEnco_leaves (x : EncoSt) :
    (c.setEnco x).now = c.now ∧ (c.setEnco x).regs = c.regs ∧ (c.setEnco x).force = c.force ∧ (c.setEnco x).latch = c.latch ∧
    (c.setEnco x).dirty = c.dirty ∧ (c.setEnco x).answer = c.answer ∧ (c.setEnco x).sent = c.sent ∧ (c.setEnco x).sys = c.sys ∧
    (c.setEnco x).ev = c.ev ∧ (c.setEnco x).str = c.str ∧ (c.setEnco x).sec = c.sec ∧ (c.setEnco x).fab = c.fab ∧
    (c.setEnco x).trk = c.trk ∧ (c.setEnco x).cmp = c.cmp ∧ (c.setEnco x).col = c.col ∧ (c.setEnco x).asm = c.asm ∧
    (c.setEnco x).flw = c.flw ∧ (c.setEnco x).hp = c.hp ∧ (c.setEnco x).nzh = c.nzh ∧ (c.setEnco x).tko = c.tko ∧
    (c.setEnco x).mem = c.mem ∧ (c.setEnco x).ldl = c.ldl ∧ (c.setEnco x).hst = c.hst ∧ (c.setEnco x).fw = c.fw ∧
    (c.setEnco x).dma = c.dma ∧ (c.setEnco x).pwr = c.pwr ∧ (c.setEnco x).thm = c.thm ∧ (c.setEnco x).otp = c.otp ∧
    (c.setEnco x).cal = c.cal ∧ (c.setEnco x).deniedAt = c.deniedAt :=
  ⟨rfl, rfl, rfl, rfl, rfl, rfl, rfl, rfl, rfl, rfl, rfl, rfl, rfl, rfl, rfl, rfl, rfl, rfl, rfl, rfl, rfl, rfl, rfl, rfl, rfl, rfl, rfl, rfl, rfl, rfl⟩

@[simp] theorem Chip.setEnco_word (x : EncoSt) (y : Nat) : (c.setEnco x).word y = c.word y := rfl

@[simp] theorem Chip.setEnco_get (x : EncoSt) (q : Place) (y z : Nat) : (c.setEnco x).get q y z = c.get q y z := rfl

@[simp] theorem Chip.setEnco_on (x : EncoSt) (q : Place) (y z : Nat) : (c.setEnco x).on q y z = c.on q y z := rfl

@[simp] theorem Chip.setEnco_up (x : EncoSt) (y : Nat) : (c.setEnco x).up y = c.up y := rfl

/-- setMark leaves every part but pos alone. -/
@[simp] theorem Chip.setMark_leaves (n : Fin 2) (x : MarkSt) :
    (c.setMark n x).now = c.now ∧ (c.setMark n x).regs = c.regs ∧ (c.setMark n x).force = c.force ∧
    (c.setMark n x).latch = c.latch ∧ (c.setMark n x).dirty = c.dirty ∧ (c.setMark n x).answer = c.answer ∧
    (c.setMark n x).sent = c.sent ∧ (c.setMark n x).sys = c.sys ∧ (c.setMark n x).ev = c.ev ∧ (c.setMark n x).str = c.str ∧
    (c.setMark n x).sec = c.sec ∧ (c.setMark n x).fab = c.fab ∧ (c.setMark n x).trk = c.trk ∧ (c.setMark n x).cmp = c.cmp ∧
    (c.setMark n x).col = c.col ∧ (c.setMark n x).asm = c.asm ∧ (c.setMark n x).flw = c.flw ∧ (c.setMark n x).hp = c.hp ∧
    (c.setMark n x).nzh = c.nzh ∧ (c.setMark n x).tko = c.tko ∧ (c.setMark n x).mem = c.mem ∧ (c.setMark n x).ldl = c.ldl ∧
    (c.setMark n x).hst = c.hst ∧ (c.setMark n x).fw = c.fw ∧ (c.setMark n x).dma = c.dma ∧ (c.setMark n x).pwr = c.pwr ∧
    (c.setMark n x).thm = c.thm ∧ (c.setMark n x).otp = c.otp ∧ (c.setMark n x).cal = c.cal ∧
    (c.setMark n x).deniedAt = c.deniedAt :=
  ⟨rfl, rfl, rfl, rfl, rfl, rfl, rfl, rfl, rfl, rfl, rfl, rfl, rfl, rfl, rfl, rfl, rfl, rfl, rfl, rfl, rfl, rfl, rfl, rfl, rfl, rfl, rfl, rfl, rfl, rfl⟩

@[simp] theorem Chip.setMark_word (n : Fin 2) (x : MarkSt) (y : Nat) : (c.setMark n x).word y = c.word y := rfl

@[simp] theorem Chip.setMark_get (n : Fin 2) (x : MarkSt) (q : Place) (y z : Nat) : (c.setMark n x).get q y z = c.get q y z := rfl

@[simp] theorem Chip.setMark_on (n : Fin 2) (x : MarkSt) (q : Place) (y z : Nat) : (c.setMark n x).on q y z = c.on q y z := rfl

@[simp] theorem Chip.setMark_up (n : Fin 2) (x : MarkSt) (y : Nat) : (c.setMark n x).up y = c.up y := rfl

/-- setOut leaves every part but pos alone. -/
@[simp] theorem Chip.setOut_leaves (n : Fin 8) (x : CmpOutSt) :
    (c.setOut n x).now = c.now ∧ (c.setOut n x).regs = c.regs ∧ (c.setOut n x).force = c.force ∧ (c.setOut n x).latch = c.latch ∧
    (c.setOut n x).dirty = c.dirty ∧ (c.setOut n x).answer = c.answer ∧ (c.setOut n x).sent = c.sent ∧
    (c.setOut n x).sys = c.sys ∧ (c.setOut n x).ev = c.ev ∧ (c.setOut n x).str = c.str ∧ (c.setOut n x).sec = c.sec ∧
    (c.setOut n x).fab = c.fab ∧ (c.setOut n x).trk = c.trk ∧ (c.setOut n x).cmp = c.cmp ∧ (c.setOut n x).col = c.col ∧
    (c.setOut n x).asm = c.asm ∧ (c.setOut n x).flw = c.flw ∧ (c.setOut n x).hp = c.hp ∧ (c.setOut n x).nzh = c.nzh ∧
    (c.setOut n x).tko = c.tko ∧ (c.setOut n x).mem = c.mem ∧ (c.setOut n x).ldl = c.ldl ∧ (c.setOut n x).hst = c.hst ∧
    (c.setOut n x).fw = c.fw ∧ (c.setOut n x).dma = c.dma ∧ (c.setOut n x).pwr = c.pwr ∧ (c.setOut n x).thm = c.thm ∧
    (c.setOut n x).otp = c.otp ∧ (c.setOut n x).cal = c.cal ∧ (c.setOut n x).deniedAt = c.deniedAt :=
  ⟨rfl, rfl, rfl, rfl, rfl, rfl, rfl, rfl, rfl, rfl, rfl, rfl, rfl, rfl, rfl, rfl, rfl, rfl, rfl, rfl, rfl, rfl, rfl, rfl, rfl, rfl, rfl, rfl, rfl, rfl⟩

@[simp] theorem Chip.setOut_word (n : Fin 8) (x : CmpOutSt) (y : Nat) : (c.setOut n x).word y = c.word y := rfl

@[simp] theorem Chip.setOut_get (n : Fin 8) (x : CmpOutSt) (q : Place) (y z : Nat) : (c.setOut n x).get q y z = c.get q y z := rfl

@[simp] theorem Chip.setOut_on (n : Fin 8) (x : CmpOutSt) (q : Place) (y z : Nat) : (c.setOut n x).on q y z = c.on q y z := rfl

@[simp] theorem Chip.setOut_up (n : Fin 8) (x : CmpOutSt) (y : Nat) : (c.setOut n x).up y = c.up y := rfl

/-- setItems leaves every part but cmp alone. -/
@[simp] theorem Chip.setItems_leaves (l : List Item) :
    (c.setItems l).now = c.now ∧ (c.setItems l).regs = c.regs ∧ (c.setItems l).force = c.force ∧ (c.setItems l).latch = c.latch ∧
    (c.setItems l).dirty = c.dirty ∧ (c.setItems l).answer = c.answer ∧ (c.setItems l).sent = c.sent ∧
    (c.setItems l).sys = c.sys ∧ (c.setItems l).ev = c.ev ∧ (c.setItems l).str = c.str ∧ (c.setItems l).sec = c.sec ∧
    (c.setItems l).fab = c.fab ∧ (c.setItems l).pos = c.pos ∧ (c.setItems l).trk = c.trk ∧ (c.setItems l).col = c.col ∧
    (c.setItems l).asm = c.asm ∧ (c.setItems l).flw = c.flw ∧ (c.setItems l).hp = c.hp ∧ (c.setItems l).nzh = c.nzh ∧
    (c.setItems l).tko = c.tko ∧ (c.setItems l).mem = c.mem ∧ (c.setItems l).ldl = c.ldl ∧ (c.setItems l).hst = c.hst ∧
    (c.setItems l).fw = c.fw ∧ (c.setItems l).dma = c.dma ∧ (c.setItems l).pwr = c.pwr ∧ (c.setItems l).thm = c.thm ∧
    (c.setItems l).otp = c.otp ∧ (c.setItems l).cal = c.cal ∧ (c.setItems l).deniedAt = c.deniedAt :=
  ⟨rfl, rfl, rfl, rfl, rfl, rfl, rfl, rfl, rfl, rfl, rfl, rfl, rfl, rfl, rfl, rfl, rfl, rfl, rfl, rfl, rfl, rfl, rfl, rfl, rfl, rfl, rfl, rfl, rfl, rfl⟩

@[simp] theorem Chip.setItems_word (l : List Item) (y : Nat) : (c.setItems l).word y = c.word y := rfl

@[simp] theorem Chip.setItems_get (l : List Item) (q : Place) (y z : Nat) : (c.setItems l).get q y z = c.get q y z := rfl

@[simp] theorem Chip.setItems_on (l : List Item) (q : Place) (y z : Nat) : (c.setItems l).on q y z = c.on q y z := rfl

@[simp] theorem Chip.setItems_up (l : List Item) (y : Nat) : (c.setItems l).up y = c.up y := rfl

/-- setCol leaves every part but col alone. -/
@[simp] theorem Chip.setCol_leaves (x : ColSt) :
    (c.setCol x).now = c.now ∧ (c.setCol x).regs = c.regs ∧ (c.setCol x).force = c.force ∧ (c.setCol x).latch = c.latch ∧
    (c.setCol x).dirty = c.dirty ∧ (c.setCol x).answer = c.answer ∧ (c.setCol x).sent = c.sent ∧ (c.setCol x).sys = c.sys ∧
    (c.setCol x).ev = c.ev ∧ (c.setCol x).str = c.str ∧ (c.setCol x).sec = c.sec ∧ (c.setCol x).fab = c.fab ∧
    (c.setCol x).pos = c.pos ∧ (c.setCol x).trk = c.trk ∧ (c.setCol x).cmp = c.cmp ∧ (c.setCol x).asm = c.asm ∧
    (c.setCol x).flw = c.flw ∧ (c.setCol x).hp = c.hp ∧ (c.setCol x).nzh = c.nzh ∧ (c.setCol x).tko = c.tko ∧
    (c.setCol x).mem = c.mem ∧ (c.setCol x).ldl = c.ldl ∧ (c.setCol x).hst = c.hst ∧ (c.setCol x).fw = c.fw ∧
    (c.setCol x).dma = c.dma ∧ (c.setCol x).pwr = c.pwr ∧ (c.setCol x).thm = c.thm ∧ (c.setCol x).otp = c.otp ∧
    (c.setCol x).cal = c.cal ∧ (c.setCol x).deniedAt = c.deniedAt :=
  ⟨rfl, rfl, rfl, rfl, rfl, rfl, rfl, rfl, rfl, rfl, rfl, rfl, rfl, rfl, rfl, rfl, rfl, rfl, rfl, rfl, rfl, rfl, rfl, rfl, rfl, rfl, rfl, rfl, rfl, rfl⟩

@[simp] theorem Chip.setCol_word (x : ColSt) (y : Nat) : (c.setCol x).word y = c.word y := rfl

@[simp] theorem Chip.setCol_get (x : ColSt) (q : Place) (y z : Nat) : (c.setCol x).get q y z = c.get q y z := rfl

@[simp] theorem Chip.setCol_on (x : ColSt) (q : Place) (y z : Nat) : (c.setCol x).on q y z = c.on q y z := rfl

@[simp] theorem Chip.setCol_up (x : ColSt) (y : Nat) : (c.setCol x).up y = c.up y := rfl

/-- setAsm leaves every part but asm alone. -/
@[simp] theorem Chip.setAsm_leaves (k : Fin 8) (x : AsmSt) :
    (c.setAsm k x).now = c.now ∧ (c.setAsm k x).regs = c.regs ∧ (c.setAsm k x).force = c.force ∧ (c.setAsm k x).latch = c.latch ∧
    (c.setAsm k x).dirty = c.dirty ∧ (c.setAsm k x).answer = c.answer ∧ (c.setAsm k x).sent = c.sent ∧
    (c.setAsm k x).sys = c.sys ∧ (c.setAsm k x).ev = c.ev ∧ (c.setAsm k x).str = c.str ∧ (c.setAsm k x).sec = c.sec ∧
    (c.setAsm k x).fab = c.fab ∧ (c.setAsm k x).pos = c.pos ∧ (c.setAsm k x).trk = c.trk ∧ (c.setAsm k x).cmp = c.cmp ∧
    (c.setAsm k x).col = c.col ∧ (c.setAsm k x).flw = c.flw ∧ (c.setAsm k x).hp = c.hp ∧ (c.setAsm k x).nzh = c.nzh ∧
    (c.setAsm k x).tko = c.tko ∧ (c.setAsm k x).mem = c.mem ∧ (c.setAsm k x).ldl = c.ldl ∧ (c.setAsm k x).hst = c.hst ∧
    (c.setAsm k x).fw = c.fw ∧ (c.setAsm k x).dma = c.dma ∧ (c.setAsm k x).pwr = c.pwr ∧ (c.setAsm k x).thm = c.thm ∧
    (c.setAsm k x).otp = c.otp ∧ (c.setAsm k x).cal = c.cal ∧ (c.setAsm k x).deniedAt = c.deniedAt :=
  ⟨rfl, rfl, rfl, rfl, rfl, rfl, rfl, rfl, rfl, rfl, rfl, rfl, rfl, rfl, rfl, rfl, rfl, rfl, rfl, rfl, rfl, rfl, rfl, rfl, rfl, rfl, rfl, rfl, rfl, rfl⟩

@[simp] theorem Chip.setAsm_word (k : Fin 8) (x : AsmSt) (y : Nat) : (c.setAsm k x).word y = c.word y := rfl

@[simp] theorem Chip.setAsm_get (k : Fin 8) (x : AsmSt) (q : Place) (y z : Nat) : (c.setAsm k x).get q y z = c.get q y z := rfl

@[simp] theorem Chip.setAsm_on (k : Fin 8) (x : AsmSt) (q : Place) (y z : Nat) : (c.setAsm k x).on q y z = c.on q y z := rfl

@[simp] theorem Chip.setAsm_up (k : Fin 8) (x : AsmSt) (y : Nat) : (c.setAsm k x).up y = c.up y := rfl

/-- setHp leaves every part but hp alone. -/
@[simp] theorem Chip.setHp_leaves (k : Fin 8) (x : PortSt) :
    (c.setHp k x).now = c.now ∧ (c.setHp k x).regs = c.regs ∧ (c.setHp k x).force = c.force ∧ (c.setHp k x).latch = c.latch ∧
    (c.setHp k x).dirty = c.dirty ∧ (c.setHp k x).answer = c.answer ∧ (c.setHp k x).sent = c.sent ∧ (c.setHp k x).sys = c.sys ∧
    (c.setHp k x).ev = c.ev ∧ (c.setHp k x).str = c.str ∧ (c.setHp k x).sec = c.sec ∧ (c.setHp k x).fab = c.fab ∧
    (c.setHp k x).pos = c.pos ∧ (c.setHp k x).trk = c.trk ∧ (c.setHp k x).cmp = c.cmp ∧ (c.setHp k x).col = c.col ∧
    (c.setHp k x).asm = c.asm ∧ (c.setHp k x).flw = c.flw ∧ (c.setHp k x).nzh = c.nzh ∧ (c.setHp k x).tko = c.tko ∧
    (c.setHp k x).mem = c.mem ∧ (c.setHp k x).ldl = c.ldl ∧ (c.setHp k x).hst = c.hst ∧ (c.setHp k x).fw = c.fw ∧
    (c.setHp k x).dma = c.dma ∧ (c.setHp k x).pwr = c.pwr ∧ (c.setHp k x).thm = c.thm ∧ (c.setHp k x).otp = c.otp ∧
    (c.setHp k x).cal = c.cal ∧ (c.setHp k x).deniedAt = c.deniedAt :=
  ⟨rfl, rfl, rfl, rfl, rfl, rfl, rfl, rfl, rfl, rfl, rfl, rfl, rfl, rfl, rfl, rfl, rfl, rfl, rfl, rfl, rfl, rfl, rfl, rfl, rfl, rfl, rfl, rfl, rfl, rfl⟩

@[simp] theorem Chip.setHp_word (k : Fin 8) (x : PortSt) (y : Nat) : (c.setHp k x).word y = c.word y := rfl

@[simp] theorem Chip.setHp_get (k : Fin 8) (x : PortSt) (q : Place) (y z : Nat) : (c.setHp k x).get q y z = c.get q y z := rfl

@[simp] theorem Chip.setHp_on (k : Fin 8) (x : PortSt) (q : Place) (y z : Nat) : (c.setHp k x).on q y z = c.on q y z := rfl

@[simp] theorem Chip.setHp_up (k : Fin 8) (x : PortSt) (y : Nat) : (c.setHp k x).up y = c.up y := rfl

/-- setFlw leaves every part but flw alone. -/
@[simp] theorem Chip.setFlw_leaves (x : FlwSt) :
    (c.setFlw x).now = c.now ∧ (c.setFlw x).regs = c.regs ∧ (c.setFlw x).force = c.force ∧ (c.setFlw x).latch = c.latch ∧
    (c.setFlw x).dirty = c.dirty ∧ (c.setFlw x).answer = c.answer ∧ (c.setFlw x).sent = c.sent ∧ (c.setFlw x).sys = c.sys ∧
    (c.setFlw x).ev = c.ev ∧ (c.setFlw x).str = c.str ∧ (c.setFlw x).sec = c.sec ∧ (c.setFlw x).fab = c.fab ∧
    (c.setFlw x).pos = c.pos ∧ (c.setFlw x).trk = c.trk ∧ (c.setFlw x).cmp = c.cmp ∧ (c.setFlw x).col = c.col ∧
    (c.setFlw x).asm = c.asm ∧ (c.setFlw x).hp = c.hp ∧ (c.setFlw x).nzh = c.nzh ∧ (c.setFlw x).tko = c.tko ∧
    (c.setFlw x).mem = c.mem ∧ (c.setFlw x).ldl = c.ldl ∧ (c.setFlw x).hst = c.hst ∧ (c.setFlw x).fw = c.fw ∧
    (c.setFlw x).dma = c.dma ∧ (c.setFlw x).pwr = c.pwr ∧ (c.setFlw x).thm = c.thm ∧ (c.setFlw x).otp = c.otp ∧
    (c.setFlw x).cal = c.cal ∧ (c.setFlw x).deniedAt = c.deniedAt :=
  ⟨rfl, rfl, rfl, rfl, rfl, rfl, rfl, rfl, rfl, rfl, rfl, rfl, rfl, rfl, rfl, rfl, rfl, rfl, rfl, rfl, rfl, rfl, rfl, rfl, rfl, rfl, rfl, rfl, rfl, rfl⟩

@[simp] theorem Chip.setFlw_word (x : FlwSt) (y : Nat) : (c.setFlw x).word y = c.word y := rfl

@[simp] theorem Chip.setFlw_get (x : FlwSt) (q : Place) (y z : Nat) : (c.setFlw x).get q y z = c.get q y z := rfl

@[simp] theorem Chip.setFlw_on (x : FlwSt) (q : Place) (y z : Nat) : (c.setFlw x).on q y z = c.on q y z := rfl

@[simp] theorem Chip.setFlw_up (x : FlwSt) (y : Nat) : (c.setFlw x).up y = c.up y := rfl

/-- setNzh leaves every part but nzh alone. -/
@[simp] theorem Chip.setNzh_leaves (x : NzhSt) :
    (c.setNzh x).now = c.now ∧ (c.setNzh x).regs = c.regs ∧ (c.setNzh x).force = c.force ∧ (c.setNzh x).latch = c.latch ∧
    (c.setNzh x).dirty = c.dirty ∧ (c.setNzh x).answer = c.answer ∧ (c.setNzh x).sent = c.sent ∧ (c.setNzh x).sys = c.sys ∧
    (c.setNzh x).ev = c.ev ∧ (c.setNzh x).str = c.str ∧ (c.setNzh x).sec = c.sec ∧ (c.setNzh x).fab = c.fab ∧
    (c.setNzh x).pos = c.pos ∧ (c.setNzh x).trk = c.trk ∧ (c.setNzh x).cmp = c.cmp ∧ (c.setNzh x).col = c.col ∧
    (c.setNzh x).asm = c.asm ∧ (c.setNzh x).flw = c.flw ∧ (c.setNzh x).hp = c.hp ∧ (c.setNzh x).tko = c.tko ∧
    (c.setNzh x).mem = c.mem ∧ (c.setNzh x).ldl = c.ldl ∧ (c.setNzh x).hst = c.hst ∧ (c.setNzh x).fw = c.fw ∧
    (c.setNzh x).dma = c.dma ∧ (c.setNzh x).pwr = c.pwr ∧ (c.setNzh x).thm = c.thm ∧ (c.setNzh x).otp = c.otp ∧
    (c.setNzh x).cal = c.cal ∧ (c.setNzh x).deniedAt = c.deniedAt :=
  ⟨rfl, rfl, rfl, rfl, rfl, rfl, rfl, rfl, rfl, rfl, rfl, rfl, rfl, rfl, rfl, rfl, rfl, rfl, rfl, rfl, rfl, rfl, rfl, rfl, rfl, rfl, rfl, rfl, rfl, rfl⟩

@[simp] theorem Chip.setNzh_word (x : NzhSt) (y : Nat) : (c.setNzh x).word y = c.word y := rfl

@[simp] theorem Chip.setNzh_get (x : NzhSt) (q : Place) (y z : Nat) : (c.setNzh x).get q y z = c.get q y z := rfl

@[simp] theorem Chip.setNzh_on (x : NzhSt) (q : Place) (y z : Nat) : (c.setNzh x).on q y z = c.on q y z := rfl

@[simp] theorem Chip.setNzh_up (x : NzhSt) (y : Nat) : (c.setNzh x).up y = c.up y := rfl

/-- setTko leaves every part but tko alone. -/
@[simp] theorem Chip.setTko_leaves (x : TkoSt) :
    (c.setTko x).now = c.now ∧ (c.setTko x).regs = c.regs ∧ (c.setTko x).force = c.force ∧ (c.setTko x).latch = c.latch ∧
    (c.setTko x).dirty = c.dirty ∧ (c.setTko x).answer = c.answer ∧ (c.setTko x).sent = c.sent ∧ (c.setTko x).sys = c.sys ∧
    (c.setTko x).ev = c.ev ∧ (c.setTko x).str = c.str ∧ (c.setTko x).sec = c.sec ∧ (c.setTko x).fab = c.fab ∧
    (c.setTko x).pos = c.pos ∧ (c.setTko x).trk = c.trk ∧ (c.setTko x).cmp = c.cmp ∧ (c.setTko x).col = c.col ∧
    (c.setTko x).asm = c.asm ∧ (c.setTko x).flw = c.flw ∧ (c.setTko x).hp = c.hp ∧ (c.setTko x).nzh = c.nzh ∧
    (c.setTko x).mem = c.mem ∧ (c.setTko x).ldl = c.ldl ∧ (c.setTko x).hst = c.hst ∧ (c.setTko x).fw = c.fw ∧
    (c.setTko x).dma = c.dma ∧ (c.setTko x).pwr = c.pwr ∧ (c.setTko x).thm = c.thm ∧ (c.setTko x).otp = c.otp ∧
    (c.setTko x).cal = c.cal ∧ (c.setTko x).deniedAt = c.deniedAt :=
  ⟨rfl, rfl, rfl, rfl, rfl, rfl, rfl, rfl, rfl, rfl, rfl, rfl, rfl, rfl, rfl, rfl, rfl, rfl, rfl, rfl, rfl, rfl, rfl, rfl, rfl, rfl, rfl, rfl, rfl, rfl⟩

@[simp] theorem Chip.setTko_word (x : TkoSt) (y : Nat) : (c.setTko x).word y = c.word y := rfl

@[simp] theorem Chip.setTko_get (x : TkoSt) (q : Place) (y z : Nat) : (c.setTko x).get q y z = c.get q y z := rfl

@[simp] theorem Chip.setTko_on (x : TkoSt) (q : Place) (y z : Nat) : (c.setTko x).on q y z = c.on q y z := rfl

@[simp] theorem Chip.setTko_up (x : TkoSt) (y : Nat) : (c.setTko x).up y = c.up y := rfl

/-- setHst leaves every part but hst alone. -/
@[simp] theorem Chip.setHst_leaves (x : HstSt) :
    (c.setHst x).now = c.now ∧ (c.setHst x).regs = c.regs ∧ (c.setHst x).force = c.force ∧ (c.setHst x).latch = c.latch ∧
    (c.setHst x).dirty = c.dirty ∧ (c.setHst x).answer = c.answer ∧ (c.setHst x).sent = c.sent ∧ (c.setHst x).sys = c.sys ∧
    (c.setHst x).ev = c.ev ∧ (c.setHst x).str = c.str ∧ (c.setHst x).sec = c.sec ∧ (c.setHst x).fab = c.fab ∧
    (c.setHst x).pos = c.pos ∧ (c.setHst x).trk = c.trk ∧ (c.setHst x).cmp = c.cmp ∧ (c.setHst x).col = c.col ∧
    (c.setHst x).asm = c.asm ∧ (c.setHst x).flw = c.flw ∧ (c.setHst x).hp = c.hp ∧ (c.setHst x).nzh = c.nzh ∧
    (c.setHst x).tko = c.tko ∧ (c.setHst x).mem = c.mem ∧ (c.setHst x).ldl = c.ldl ∧ (c.setHst x).fw = c.fw ∧
    (c.setHst x).dma = c.dma ∧ (c.setHst x).pwr = c.pwr ∧ (c.setHst x).thm = c.thm ∧ (c.setHst x).otp = c.otp ∧
    (c.setHst x).cal = c.cal ∧ (c.setHst x).deniedAt = c.deniedAt :=
  ⟨rfl, rfl, rfl, rfl, rfl, rfl, rfl, rfl, rfl, rfl, rfl, rfl, rfl, rfl, rfl, rfl, rfl, rfl, rfl, rfl, rfl, rfl, rfl, rfl, rfl, rfl, rfl, rfl, rfl, rfl⟩

@[simp] theorem Chip.setHst_word (x : HstSt) (y : Nat) : (c.setHst x).word y = c.word y := rfl

@[simp] theorem Chip.setHst_get (x : HstSt) (q : Place) (y z : Nat) : (c.setHst x).get q y z = c.get q y z := rfl

@[simp] theorem Chip.setHst_on (x : HstSt) (q : Place) (y z : Nat) : (c.setHst x).on q y z = c.on q y z := rfl

@[simp] theorem Chip.setHst_up (x : HstSt) (y : Nat) : (c.setHst x).up y = c.up y := rfl

/-- setFw leaves every part but fw alone. -/
@[simp] theorem Chip.setFw_leaves (x : FwSt) :
    (c.setFw x).now = c.now ∧ (c.setFw x).regs = c.regs ∧ (c.setFw x).force = c.force ∧ (c.setFw x).latch = c.latch ∧
    (c.setFw x).dirty = c.dirty ∧ (c.setFw x).answer = c.answer ∧ (c.setFw x).sent = c.sent ∧ (c.setFw x).sys = c.sys ∧
    (c.setFw x).ev = c.ev ∧ (c.setFw x).str = c.str ∧ (c.setFw x).sec = c.sec ∧ (c.setFw x).fab = c.fab ∧
    (c.setFw x).pos = c.pos ∧ (c.setFw x).trk = c.trk ∧ (c.setFw x).cmp = c.cmp ∧ (c.setFw x).col = c.col ∧
    (c.setFw x).asm = c.asm ∧ (c.setFw x).flw = c.flw ∧ (c.setFw x).hp = c.hp ∧ (c.setFw x).nzh = c.nzh ∧
    (c.setFw x).tko = c.tko ∧ (c.setFw x).mem = c.mem ∧ (c.setFw x).ldl = c.ldl ∧ (c.setFw x).hst = c.hst ∧
    (c.setFw x).dma = c.dma ∧ (c.setFw x).pwr = c.pwr ∧ (c.setFw x).thm = c.thm ∧ (c.setFw x).otp = c.otp ∧
    (c.setFw x).cal = c.cal ∧ (c.setFw x).deniedAt = c.deniedAt :=
  ⟨rfl, rfl, rfl, rfl, rfl, rfl, rfl, rfl, rfl, rfl, rfl, rfl, rfl, rfl, rfl, rfl, rfl, rfl, rfl, rfl, rfl, rfl, rfl, rfl, rfl, rfl, rfl, rfl, rfl, rfl⟩

@[simp] theorem Chip.setFw_word (x : FwSt) (y : Nat) : (c.setFw x).word y = c.word y := rfl

@[simp] theorem Chip.setFw_get (x : FwSt) (q : Place) (y z : Nat) : (c.setFw x).get q y z = c.get q y z := rfl

@[simp] theorem Chip.setFw_on (x : FwSt) (q : Place) (y z : Nat) : (c.setFw x).on q y z = c.on q y z := rfl

@[simp] theorem Chip.setFw_up (x : FwSt) (y : Nat) : (c.setFw x).up y = c.up y := rfl

/-- setCal leaves every part but cal alone. -/
@[simp] theorem Chip.setCal_leaves (x : CalSt) :
    (c.setCal x).now = c.now ∧ (c.setCal x).regs = c.regs ∧ (c.setCal x).force = c.force ∧ (c.setCal x).latch = c.latch ∧
    (c.setCal x).dirty = c.dirty ∧ (c.setCal x).answer = c.answer ∧ (c.setCal x).sent = c.sent ∧ (c.setCal x).sys = c.sys ∧
    (c.setCal x).ev = c.ev ∧ (c.setCal x).str = c.str ∧ (c.setCal x).sec = c.sec ∧ (c.setCal x).fab = c.fab ∧
    (c.setCal x).pos = c.pos ∧ (c.setCal x).trk = c.trk ∧ (c.setCal x).cmp = c.cmp ∧ (c.setCal x).col = c.col ∧
    (c.setCal x).asm = c.asm ∧ (c.setCal x).flw = c.flw ∧ (c.setCal x).hp = c.hp ∧ (c.setCal x).nzh = c.nzh ∧
    (c.setCal x).tko = c.tko ∧ (c.setCal x).mem = c.mem ∧ (c.setCal x).ldl = c.ldl ∧ (c.setCal x).hst = c.hst ∧
    (c.setCal x).fw = c.fw ∧ (c.setCal x).dma = c.dma ∧ (c.setCal x).pwr = c.pwr ∧ (c.setCal x).thm = c.thm ∧
    (c.setCal x).otp = c.otp ∧ (c.setCal x).deniedAt = c.deniedAt :=
  ⟨rfl, rfl, rfl, rfl, rfl, rfl, rfl, rfl, rfl, rfl, rfl, rfl, rfl, rfl, rfl, rfl, rfl, rfl, rfl, rfl, rfl, rfl, rfl, rfl, rfl, rfl, rfl, rfl, rfl, rfl⟩

@[simp] theorem Chip.setCal_word (x : CalSt) (y : Nat) : (c.setCal x).word y = c.word y := rfl

@[simp] theorem Chip.setCal_get (x : CalSt) (q : Place) (y z : Nat) : (c.setCal x).get q y z = c.get q y z := rfl

@[simp] theorem Chip.setCal_on (x : CalSt) (q : Place) (y z : Nat) : (c.setCal x).on q y z = c.on q y z := rfl

@[simp] theorem Chip.setCal_up (x : CalSt) (y : Nat) : (c.setCal x).up y = c.up y := rfl

/-- setPwr leaves every part but pwr alone. -/
@[simp] theorem Chip.setPwr_leaves (x : PwrSt) :
    (c.setPwr x).now = c.now ∧ (c.setPwr x).regs = c.regs ∧ (c.setPwr x).force = c.force ∧ (c.setPwr x).latch = c.latch ∧
    (c.setPwr x).dirty = c.dirty ∧ (c.setPwr x).answer = c.answer ∧ (c.setPwr x).sent = c.sent ∧ (c.setPwr x).sys = c.sys ∧
    (c.setPwr x).ev = c.ev ∧ (c.setPwr x).str = c.str ∧ (c.setPwr x).sec = c.sec ∧ (c.setPwr x).fab = c.fab ∧
    (c.setPwr x).pos = c.pos ∧ (c.setPwr x).trk = c.trk ∧ (c.setPwr x).cmp = c.cmp ∧ (c.setPwr x).col = c.col ∧
    (c.setPwr x).asm = c.asm ∧ (c.setPwr x).flw = c.flw ∧ (c.setPwr x).hp = c.hp ∧ (c.setPwr x).nzh = c.nzh ∧
    (c.setPwr x).tko = c.tko ∧ (c.setPwr x).mem = c.mem ∧ (c.setPwr x).ldl = c.ldl ∧ (c.setPwr x).hst = c.hst ∧
    (c.setPwr x).fw = c.fw ∧ (c.setPwr x).dma = c.dma ∧ (c.setPwr x).thm = c.thm ∧ (c.setPwr x).otp = c.otp ∧
    (c.setPwr x).cal = c.cal ∧ (c.setPwr x).deniedAt = c.deniedAt :=
  ⟨rfl, rfl, rfl, rfl, rfl, rfl, rfl, rfl, rfl, rfl, rfl, rfl, rfl, rfl, rfl, rfl, rfl, rfl, rfl, rfl, rfl, rfl, rfl, rfl, rfl, rfl, rfl, rfl, rfl, rfl⟩

@[simp] theorem Chip.setPwr_word (x : PwrSt) (y : Nat) : (c.setPwr x).word y = c.word y := rfl

@[simp] theorem Chip.setPwr_get (x : PwrSt) (q : Place) (y z : Nat) : (c.setPwr x).get q y z = c.get q y z := rfl

@[simp] theorem Chip.setPwr_on (x : PwrSt) (q : Place) (y z : Nat) : (c.setPwr x).on q y z = c.on q y z := rfl

@[simp] theorem Chip.setPwr_up (x : PwrSt) (y : Nat) : (c.setPwr x).up y = c.up y := rfl

/-- setCh leaves every part but dma alone. -/
@[simp] theorem Chip.setCh_leaves (n : Fin 32) (x : DmaCh) :
    (c.setCh n x).now = c.now ∧ (c.setCh n x).regs = c.regs ∧ (c.setCh n x).force = c.force ∧ (c.setCh n x).latch = c.latch ∧
    (c.setCh n x).dirty = c.dirty ∧ (c.setCh n x).answer = c.answer ∧ (c.setCh n x).sent = c.sent ∧ (c.setCh n x).sys = c.sys ∧
    (c.setCh n x).ev = c.ev ∧ (c.setCh n x).str = c.str ∧ (c.setCh n x).sec = c.sec ∧ (c.setCh n x).fab = c.fab ∧
    (c.setCh n x).pos = c.pos ∧ (c.setCh n x).trk = c.trk ∧ (c.setCh n x).cmp = c.cmp ∧ (c.setCh n x).col = c.col ∧
    (c.setCh n x).asm = c.asm ∧ (c.setCh n x).flw = c.flw ∧ (c.setCh n x).hp = c.hp ∧ (c.setCh n x).nzh = c.nzh ∧
    (c.setCh n x).tko = c.tko ∧ (c.setCh n x).mem = c.mem ∧ (c.setCh n x).ldl = c.ldl ∧ (c.setCh n x).hst = c.hst ∧
    (c.setCh n x).fw = c.fw ∧ (c.setCh n x).pwr = c.pwr ∧ (c.setCh n x).thm = c.thm ∧ (c.setCh n x).otp = c.otp ∧
    (c.setCh n x).cal = c.cal ∧ (c.setCh n x).deniedAt = c.deniedAt :=
  ⟨rfl, rfl, rfl, rfl, rfl, rfl, rfl, rfl, rfl, rfl, rfl, rfl, rfl, rfl, rfl, rfl, rfl, rfl, rfl, rfl, rfl, rfl, rfl, rfl, rfl, rfl, rfl, rfl, rfl, rfl⟩

@[simp] theorem Chip.setCh_word (n : Fin 32) (x : DmaCh) (y : Nat) : (c.setCh n x).word y = c.word y := rfl

@[simp] theorem Chip.setCh_get (n : Fin 32) (x : DmaCh) (q : Place) (y z : Nat) : (c.setCh n x).get q y z = c.get q y z := rfl

@[simp] theorem Chip.setCh_on (n : Fin 32) (x : DmaCh) (q : Place) (y z : Nat) : (c.setCh n x).on q y z = c.on q y z := rfl

@[simp] theorem Chip.setCh_up (n : Fin 32) (x : DmaCh) (y : Nat) : (c.setCh n x).up y = c.up y := rfl

@[simp] theorem Chip.setSys_sys (x : SysSt) : (c.setSys x).sys = x := rfl
@[simp] theorem Chip.setEv_ev (x : EvSt) : (c.setEv x).ev = x := rfl
@[simp] theorem Chip.setStr_str (x : StrSt) : (c.setStr x).str = x := rfl
@[simp] theorem Chip.setFab_fab (x : FabSt) : (c.setFab x).fab = x := rfl
@[simp] theorem Chip.setCol_col (x : ColSt) : (c.setCol x).col = x := rfl
@[simp] theorem Chip.setFlw_flw (x : FlwSt) : (c.setFlw x).flw = x := rfl
@[simp] theorem Chip.setNzh_nzh (x : NzhSt) : (c.setNzh x).nzh = x := rfl
@[simp] theorem Chip.setTko_tko (x : TkoSt) : (c.setTko x).tko = x := rfl
@[simp] theorem Chip.setHst_hst (x : HstSt) : (c.setHst x).hst = x := rfl
@[simp] theorem Chip.setFw_fw (x : FwSt) : (c.setFw x).fw = x := rfl
@[simp] theorem Chip.setCal_cal (x : CalSt) : (c.setCal x).cal = x := rfl
@[simp] theorem Chip.setPwr_pwr (x : PwrSt) : (c.setPwr x).pwr = x := rfl

@[simp] theorem Chip.at_now (t : Nat) : (Chip.at t c).now = max c.now t := rfl
@[simp] theorem Chip.answered_answer (a : BusAnswer) : (c.answered a).answer = a := rfl
@[simp] theorem Chip.send_sent (k : String) (l : List Nat) : (c.send k l).sent = c.sent ++ [⟨k, l⟩] := rfl
@[simp] theorem Chip.setHp_hp (k : Fin 8) (x : PortSt) : (c.setHp k x).hp = c.hp.set k x := rfl
@[simp] theorem Chip.setCh_dma (n : Fin 32) (x : DmaCh) : (c.setCh n x).dma = c.dma.set n x := rfl
@[simp] theorem Chip.setAsm_asm (k : Fin 8) (x : AsmSt) : (c.setAsm k x).asm = c.asm.set k x := rfl

end Sys2Proof.Machine
end

