-- ==== Sys2Proof/Laws/Bus.lean ====
section
/-!
SUPPORT. Accesses of software that the bus takes: what they come to, once the right and the island are settled.
-/

namespace Sys2Proof.Machine

variable {c : Chip} {m : Store} {i : Initiator} {a n k : Nat} {d : RegDef} {w : Word} {errs : List DdrError} {ues : List Nat}

/-- A write that the bus takes. -/
theorem busWrite_taken (h : c.mayWrite i a) (ho : ordinary a = true) (hr : regWhere a = some (d, n, k)) :
    busWrite i a 4 w false errs ues (c, m) =
      writeReg i a d n k w false errs ues ((c.setSys { c.sys with lastWrite := some (a, i) }).answered .done, m) := by
  obtain ⟨h1, h2, h3, h4⟩ := h
  simp only [ordinary, Bool.and_eq_true, decide_eq_true_eq, Bool.not_eq_true'] at ho
  obtain ⟨⟨⟨⟨o1, o2⟩, o3⟩, o4⟩, o5⟩ := ho
  have q1 : ¬ (a < 0x10000000 ∨ 0x10200000 ≤ a) := by omega
  have q2 : ¬ ((4 : Nat) ≠ 4 ∨ a % 4 ≠ 0) := by omega
  have q3 : ¬ (blockRight i (blockOf a) < 2 ∨ (tcOnly a = true ∧ i ≠ .tc)) := by
    rintro (h | ⟨h, h'⟩)
    · omega
    · exact h' (h4 h)
  simp only [busWrite, if_neg q1, if_neg q2, h1, h2, o4, o5, hr, if_neg q3, Chip.losesWrite, Bool.false_and, Bool.or_false,
    Bool.false_eq_true, Bool.not_true, if_false]

/-- A read that the bus takes. -/
theorem busRead_taken (h : c.mayRead i a) (ho : ordinary a = true) (hr : regWhere a = some (d, n, k)) :
    c.busRead i a 4 = Chip.gives (c.readReg i a d n) := by
  obtain ⟨h1, h2, h3⟩ := h
  simp only [ordinary, Bool.and_eq_true, decide_eq_true_eq, Bool.not_eq_true'] at ho
  obtain ⟨⟨⟨⟨o1, o2⟩, o3⟩, o4⟩, o5⟩ := ho
  have q1 : ¬ (a < 0x10000000 ∨ 0x10200000 ≤ a) := by omega
  have q2 : ¬ ((4 : Nat) ≠ 4 ∨ a % 4 ≠ 0) := by omega
  simp only [Chip.busRead, if_neg q1, if_neg q2, h1, h2, o4, o5, hr, if_neg h3, Bool.or_false, Bool.false_eq_true, Bool.not_true,
    if_false]

/-- A software write that is taken, outside CMP, DMA, CAL and STR, where more may follow. -/
theorem softWrite_taken (h : c.mayWrite i a) (ho : ordinary a = true) (hr : regWhere a = some (d, n, k)) (hw : worksIn a = false)
    (hb : ¬ (blockOf a = 0x1A ∨ blockOf a = 0x0F)) :
    softWrite i a w errs ues (c, m) =
      writeReg i a d n k w false errs ues ((c.setSys { c.sys with lastWrite := some (a, i) }).answered .done, m) := by
  rw [softWrite, busWrite_taken h ho hr, afterWrite]
  simp only [hw, Bool.false_eq_true, if_false, if_neg hb]

/-- What a write that is taken finds: press time at the command, the write noted, the bus answered. -/
def Chip.wrote (c : Chip) (t : Nat) (i : Initiator) (a : Nat) : Chip :=
  ((c.at t).setSys { c.sys with lastWrite := some (a, i) }).answered .done

@[simp] theorem Chip.wrote_word (c : Chip) (t : Nat) (i : Initiator) (a b : Nat) : (c.wrote t i a).word b = c.word b := rfl
@[simp] theorem Chip.wrote_get (c : Chip) (t : Nat) (i : Initiator) (a : Nat) (q : Place) (x y : Nat) :
    (c.wrote t i a).get q x y = c.get q x y := rfl
@[simp] theorem Chip.wrote_on (c : Chip) (t : Nat) (i : Initiator) (a : Nat) (q : Place) (x y : Nat) :
    (c.wrote t i a).on q x y = c.on q x y := rfl
@[simp] theorem Chip.wrote_up (c : Chip) (t : Nat) (i : Initiator) (a x : Nat) : (c.wrote t i a).up x = c.up x := rfl

/-- What follows a write outside CMP and DMA, with no CAL_RUN of the host waiting: nothing. -/
theorem afterWrite_plain {x y : Chip × Store} (hw : worksIn a = false)
    (hb : (blockOf a = 0x1A ∨ blockOf a = 0x0F) → y.1.fw.calCmd = none) : afterWrite a x y = y := by
  unfold afterWrite
  simp only [hw, Bool.false_eq_true, if_false]
  split
  · rename_i h
    simp [Chip.calRunEnds, hb h]
  · rfl

/-- A software write that is taken: the meaning of the register's write, on the chip that the write finds. -/
theorem runWrite_taken {t j l : Nat} {p : Place} {s : State} (h : s.chip.mayWrite i (p.at j l)) (ho : ordinary (p.at j l) = true)
    (hr : regWhere (p.at j l) = some (d, n, k)) (hw : worksIn (p.at j l) = false)
    (hb : (blockOf (p.at j l) = 0x1A ∨ blockOf (p.at j l) = 0x0F) →
      (writeReg i (p.at j l) d n k w false [] [] (s.chip.wrote t i (p.at j l), s.store)).1.fw.calCmd = none) :
    runWrite t i p w j l s = .next { s with
      chip := (writeReg i (p.at j l) d n k w false [] [] (s.chip.wrote t i (p.at j l), s.store)).1
      store := (writeReg i (p.at j l) d n k w false [] [] (s.chip.wrote t i (p.at j l), s.store)).2 } := by
  have h' : (s.chip.at t).mayWrite i (p.at j l) := h
  unfold runWrite runBoth softWrite
  have e : afterWrite (p.at j l) (s.chip.at t, s.store)
      (writeReg i (p.at j l) d n k w false [] [] (s.chip.wrote t i (p.at j l), s.store)) =
      writeReg i (p.at j l) d n k w false [] [] (s.chip.wrote t i (p.at j l), s.store) := afterWrite_plain hw hb
  rw [busWrite_taken h' ho hr]
  exact congrArg (fun (y : Chip × Store) => (Host.Outcome.next { s with chip := y.1, store := y.2 } : Host.Outcome State Fault Refusal)) e

end Sys2Proof.Machine
end

