-- ==== Sys2Proof/Laws/Run.lean ====
section
/-!
SUPPORT. The shared ways a command runs: that each answers a next state, which one, and that the queue stays.
-/

namespace Sys2Proof.Machine

variable {t : Nat} {s u : State} {i : Initiator} {p : Place} {w : Word} {n m isl : Nat}

/-- A command that acts on the chip alone answers the state with that chip, and no other. -/
theorem runChip_iff {f : Chip → Chip} : runChip t f s = .next u ↔ u = { s with chip := f (s.chip.at t) } := by
  unfold runChip
  constructor
  · intro h; cases h; rfl
  · rintro rfl; rfl

/-- A command that acts on the chip and the memories answers the state with both, and no other. -/
theorem runBoth_iff {f : Chip × Store → Chip × Store} :
    runBoth t f s = .next u ↔ u = { s with chip := (f (s.chip.at t, s.store)).1, store := (f (s.chip.at t, s.store)).2 } := by
  unfold runBoth
  constructor
  · intro h; cases h; rfl
  · rintro rfl; rfl

/-- A command on the chip alone leaves the queue and the memories. -/
theorem runChip_keeps {f : Chip → Chip} (h : runChip t f s = .next u) : u.pending = s.pending ∧ u.store = s.store := by
  rw [runChip_iff] at h; subst h; exact ⟨rfl, rfl⟩

/-- A command on the chip and the memories leaves the queue. -/
theorem runBoth_keeps {f : Chip × Store → Chip × Store} (h : runBoth t f s = .next u) : u.pending = s.pending := by
  rw [runBoth_iff] at h; subst h; rfl

/-- A command that keeps what holds of the memories keeps it over the step. -/
theorem runBoth_store {P : Store → Prop} {f : Chip × Store → Chip × Store} (hf : ∀ x, P x.2 → P (f x).2) (hs : P s.store)
    (h : runBoth t f s = .next u) : P u.store := by
  rw [runBoth_iff] at h; subst h; exact hf _ hs

/-- A software write leaves the queue. -/
theorem runWrite_keeps (h : runWrite t i p w n m s = .next u) : u.pending = s.pending := runBoth_keeps h

/-- A software read leaves the queue and the memories. -/
theorem runRead_keeps (h : runRead t i p n s = .next u) : u.pending = s.pending ∧ u.store = s.store := runChip_keeps h

theorem inIsland_up {f : Chip → Chip} {c : Chip} (h : c.up isl = true) : inIsland isl f c = f c := if_pos h
theorem inIsland_down {f : Chip → Chip} {c : Chip} (h : c.up isl = false) : inIsland isl f c = c := by simp [inIsland, h]

theorem inIslandBoth_up {f : Chip × Store → Chip × Store} {x : Chip × Store} (h : x.1.up isl = true) : inIslandBoth isl f x = f x :=
  if_pos h
theorem inIslandBoth_down {f : Chip × Store → Chip × Store} {x : Chip × Store} (h : x.1.up isl = false) :
    inIslandBoth isl f x = x := by simp [inIslandBoth, h]

/-- What an event of an island keeps of the memories, up or down. -/
theorem inIslandBoth_store {P : Store → Prop} {f : Chip × Store → Chip × Store} {x : Chip × Store} (hf : P x.2 → P (f x).2)
    (hx : P x.2) : P (inIslandBoth isl f x).2 := by
  unfold inIslandBoth
  split
  · exact hf hx
  · exact hx

/-- What follows a software write leaves the memories as the write left them. -/
theorem afterWrite_store (addr : Nat) (x y : Chip × Store) : (afterWrite addr x y).2 = y.2 := by
  unfold afterWrite
  split
  · rfl
  · split <;> rfl

end Sys2Proof.Machine
end

