-- ==== Sys2Proof/Laws/Store.lean ====
section
/-!
SUPPORT. The memories and the fuse array: reading after a write, and that every operation on them keeps the canonical form and every
blown fuse.
-/

namespace Sys2Proof.Machine

/-! ### Bytes -/

theorem bytesAt_length (d : Byte) (m : List Host.Cell) (a n : Nat) : (bytesAt d m a n).length = n := by
  induction n generalizing a with
  | zero => rfl
  | succ n ih => simp [bytesAt, ih]

/-- A byte outside a write reads as before. -/
theorem putBytes_outside (d : Byte) (l : List Byte) (m : List Host.Cell) {a b : Nat} (h : b < a ∨ a + l.length ≤ b) :
    sparseGet d b (putBytes d m a l) = sparseGet d b m := by
  induction l generalizing a m with
  | nil => rfl
  | cons x r ih =>
    rw [List.length_cons] at h
    have hb : b ≠ a := by omega
    rw [putBytes, ih _ (by omega), sparseGet_put_other _ _ _ hb]

/-- A span reads as the bytes last written to it. -/
theorem bytesAt_putBytes (d : Byte) (l : List Byte) (m : List Host.Cell) (a : Nat) : bytesAt d (putBytes d m a l) a l.length = l := by
  induction l generalizing a m with
  | nil => rfl
  | cons x r ih =>
    simp only [List.length_cons, bytesAt, putBytes]
    rw [ih, putBytes_outside _ _ _ (Or.inl (Nat.lt_succ_self a)), sparseGet_put_same]

/-- A write keeps the canonical form. -/
theorem putBytes_wf {d : Byte} {m : List Host.Cell} (a : Nat) (l : List Byte) (h : Memory.wf d m) : Memory.wf d (putBytes d m a l) := by
  induction l generalizing a m with
  | nil => exact h
  | cons x r ih => exact ih _ (SparseWf_put a x h)

/-! ### The operations on the store keep its canonical form -/

theorem Store.wf_write {m : Store} (a : Nat) (l : List Byte) (h : m.wf) : (m.write a l).wf :=
  ⟨putBytes_wf a l h.1, h.2⟩

theorem Store.wf_writeFlash {m : Store} (a : Nat) (l : List Byte) (h : m.wf) : (m.writeFlash a l).wf :=
  ⟨h.1, putBytes_wf a l h.2.1, h.2.2⟩

theorem Store.wf_writeHost {m : Store} (a : Nat) (l : List Byte) (h : m.wf) : (m.writeHost a l).wf :=
  ⟨h.1, h.2.1, putBytes_wf a l h.2.2.1, h.2.2.2⟩

theorem Store.wf_clear {m : Store} (p : Nat → Bool) (h : m.wf) : (m.clear p).wf :=
  ⟨SparseWf_clear p h.1, h.2⟩

theorem Store.wf_burn {m : Store} (row normal tight : Nat) (h : m.wf) : (m.burn row normal tight).wf :=
  ⟨h.1, h.2.1, h.2.2.1, SparseWf_put row _ h.2.2.2.1, SparseWf_put row _ h.2.2.2.2⟩

/-! ### The fuses -/

theorem Store.fusesKept_refl (m : Store) : m.fusesKept m := fun _ _ => ⟨id, id⟩

theorem Store.fusesKept_trans {m m' m'' : Store} (h : m.fusesKept m') (h' : m'.fusesKept m'') : m.fusesKept m'' :=
  fun row k => ⟨fun q => (h' row k).1 ((h row k).1 q), fun q => (h' row k).2 ((h row k).2 q)⟩

/-- Stores with the same fuses. -/
theorem Store.fusesKept_of_eq {m m' : Store} (hn : m'.fuseN = m.fuseN) (ht : m'.fuseT = m.fuseT) : m.fusesKept m' := by
  intro row k
  simp [Store.rawN, Store.rawT, hn, ht]

theorem Store.fusesKept_write (m : Store) (a : Nat) (l : List Byte) : m.fusesKept (m.write a l) := Store.fusesKept_of_eq rfl rfl
theorem Store.fusesKept_writeFlash (m : Store) (a : Nat) (l : List Byte) : m.fusesKept (m.writeFlash a l) :=
  Store.fusesKept_of_eq rfl rfl
theorem Store.fusesKept_writeHost (m : Store) (a : Nat) (l : List Byte) : m.fusesKept (m.writeHost a l) :=
  Store.fusesKept_of_eq rfl rfl
theorem Store.fusesKept_clear (m : Store) (p : Nat → Bool) : m.fusesKept (m.clear p) := Store.fusesKept_of_eq rfl rfl

/-- The row of a word with bits added keeps the bits it had, as far as the word reaches. -/
theorem bitAt_or_word {w : Word} (b k : Nat) (h : bitAt w.toNat k = true) : bitAt (BitVec.ofNat 32 (w.toNat ||| b)).toNat k = true := by
  rw [bitAt_eq_testBit] at h ⊢
  simp [h]

/-- Burning adds ones and takes none (R594). -/
theorem Store.fusesKept_burn (m : Store) (row normal tight : Nat) : m.fusesKept (m.burn row normal tight) := by
  intro r k
  by_cases h : r = row
  · subst h
    simp only [Store.rawN, Store.rawT, Store.burn, sparseGet_put_same]
    exact ⟨bitAt_or_word _ k, bitAt_or_word _ k⟩
  · simp [Store.rawN, Store.rawT, Store.burn, sparseGet_put_other _ _ _ h]

end Sys2Proof.Machine
end

