-- ==== Sys2Proof/WellFormed.lean ====
section
/-!
DEFINITION. Well-formed commands: every operand lies in the range that the spec gives the thing it stands for (ports, islands, nodes,
rings, mailboxes, columns, frame fields). The meanings are total and do not assume it.
-/

namespace Sys2Proof

open Machine

/-- A DDR error names a 64-byte line, a rank (0 or 1) and a device (R512, R514 to R516). -/
def Machine.DdrError.wf (e : DdrError) : Bool := decide (e.line % 64 = 0) && decide (e.rank < 2) && decide (e.dev < 18)

/-- An access moves at least one byte and at most a burst of 64 (R8, R497, R512). -/
def Machine.MemOp.wf : MemOp → Bool
  | .read n => decide (1 ≤ n) && decide (n ≤ 64)
  | .write l => decide (1 ≤ l.length) && decide (l.length ≤ 64)

/-- The 16 islands (R30). -/
def okIsland (isl : Nat) : Bool := decide (isl < 16)

/-- A crossing joins two different islands (R20). -/
def okPair (src dst : Nat) : Bool := okIsland src && okIsland dst && decide (src ≠ dst)

/-- Node identities have 10 bits (R463). -/
def okNode (n : Nat) : Bool := decide (n < 1024)

/-- The eight head ports. -/
def okPort (k : Nat) : Bool := decide (k < 8)

/-- Item identities have 64 bits (R141). -/
def okItem (id : Nat) : Bool := decide (id < 2 ^ 64)

/-- A tile position, ink channel, column and method of an exchange about a dead nozzle (R206). -/
def okColumn (tp ic col method : Nat) : Bool := decide (tp < 8) && decide (ic < 6) && decide (col < 1280) && decide (method < 8)

/-- The data words of a response (R309). -/
def okWords (l : List Nat) : Bool := decide (l.length ≤ 16) && l.all (fun w => decide (w < 2 ^ 64))

/-- A frame's header fields (R423): the source is one of the press's nodes, the class one of five. -/
def Machine.FabFrame.wf (f : FabFrame) : Bool :=
  decide (f.kind < 256) && decide (f.scope < 4) && okNode f.dest && okNode f.src && decide (f.hops < 256) && decide (f.frag < 8) && decide (f.seq < 2 ^ 16) &&
    decide (f.aux < 2 ^ 32) && decide (f.cls < 5) && decide (f.body.length ≤ 1024) && decide (f.body.length % 4 = 0) && f.body.all (fun b => decide (b < 256))

/-- A heartbeat's fields (R361). -/
def Machine.Heartbeat.wf (h : Heartbeat) : Bool := okNode h.node && decide (h.ok < 256) && decide (h.solo < 256)

/-- The levels of the two address pins, and the flash slots, six in all. -/
def Machine.BootEnv.wf (e : BootEnv) : Bool := decide (e.pins < 4) && decide (e.flashFail < 64)

/-- A command whose operands are in range. -/
def Instr.wellFormed : Instr → Bool
  | .registerWrite _ _ _ size _ _ _ errs _ => (size == 1 || size == 2 || size == 4 || size == 8 || size == 16) && errs.all DdrError.wf
  | .lockBitWrite _ _ _ _ => true
  | .crossingWrite _ _ src dst w _ => okPair src dst && decide (w < 2 ^ 32)
  | .crossingWordReadable _ _ src dst => okPair src dst
  | .crossingSpaceFreed _ _ src dst => okPair src dst
  | .faultReport _ => true
  | .faultTcDecision _ actions => decide (actions < 2 ^ 32)
  | .islandResetWrite _ _ mask => decide (mask < 2 ^ 16)
  | .islandLeaveReset _ isl => okIsland isl
  | .softReset _ _ _ => true
  | .ptimeMarker _ corr => corr.all (fun e => okIsland e.1)
  | .markerTimeout _ isl => okIsland isl
  | .ptimeLoRead _ _ => true
  | .serviceFwCrash _ => true
  | .fwRestartDeferredStart _ => true
  | .encCount _ _ _ _ _ _ => true
  | .encIndexEdge _ _ _ _ => true
  | .wireFault _ _ _ => true
  | .wireRestored _ _ _ => true
  | .encEnable _ _ _ _ => true
  | .encFaultClear _ _ _ _ => true
  | .encPosLoRead _ _ _ => true
  | .hallEdge _ levels _ => decide (levels < 8)
  | .markEdge _ _ _ _ _ => true
  | .markPosRead _ _ _ => true
  | .encoStep _ => true
  | .encoRatioWrite _ _ _ => true
  | .cmpEntryPush _ _ _ _ => true
  | .cmpEntryReached _ _ => true
  | .cmpPulseEnd _ _ => true
  | .cmpOutputEnable _ _ _ _ => true
  | .cmpFlush _ _ _ => true
  | .trkEnable _ _ _ => true
  | .lineEventIssue _ => true
  | .trkSrcSwitch _ _ _ => true
  | .fabSampleTimeout _ => true
  | .noSource _ => true
  | .placementCheck _ _ => true
  | .posSampleBroadcast _ => true
  | .speedReqHoldEnd _ => true
  | .trkPosLoRead _ _ => true
  | .trkLineLoRead _ _ => true
  | .itemEnqueue _ _ wr errs => decide (wr < 2048) && errs.all DdrError.wf
  | .itemPlace _ _ => true
  | .markRecordRx _ => true
  | .markMissingNotice _ => true
  | .partnerPlacementRx _ id _ => okItem id
  | .composeLine _ errs => errs.all DdrError.wf
  | .cmpEnable _ _ _ => true
  | .cmpDisable _ _ _ => true
  | .cmpFrontLoRead _ _ => true
  | .cmpAsmLoRead _ _ => true
  | .lineAssemble _ _ errs => errs.all DdrError.wf
  | .modeNotice _ => true
  | .stbyActivate _ _ _ => true
  | .stbyRelease _ _ _ => true
  | .dntWrite _ _ _ => true
  | .dntRead _ _ => true
  | .colSwLoRead _ _ => true
  | .colReqRx _ src tp ic col method => okNode src && okColumn tp ic col method
  | .colAckRx _ node tp ic col method _ => okNode node && okColumn tp ic col method
  | .colNackRx _ node tp ic col method reason => okNode node && okColumn tp ic col method && decide (1 ≤ reason ∧ reason ≤ 4)
  | .colCommitRx _ src tp ic col method _ _ => okNode src && okColumn tp ic col method
  | .colReleaseRx _ src tp ic col method => okNode src && okColumn tp ic col method
  | .colReqTimeout _ _ => true
  | .bcLineFrame _ _ _ ltag temps sigs => decide (ltag < 4096) && temps.all (fun x => decide (-32768 ≤ x ∧ x < 32768)) && decide (sigs.length ≤ 40)
  | .bcIdleFrame _ _ _ _ => true
  | .bcRspFrame _ _ _ status tag data => decide (status < 256) && decide (tag < 256) && okWords data
  | .bcEvtFrame _ _ _ code detail => decide (code < 256) && decide (detail < 2 ^ 16)
  | .bcFrameTimeout _ _ => true
  | .tempStale _ _ => true
  | .nozzleStateWrite _ _ _ => true
  | .nzDataRead _ _ => true
  | .deadFifoRead _ _ => true
  | .recordIssue _ errs => errs.all DdrError.wf
  | .verdictRx _ id flags errs => okItem id && decide (flags < 2 ^ 16) && errs.all DdrError.wf
  | .pvTimeout _ errs => errs.all DdrError.wf
  | .arqClaim _ _ => true
  | .arqRelease _ _ => true
  | .arqRdWrite _ _ _ => true
  | .shapeWrite _ _ _ n _ _ => decide (n < 8)
  | .trimBoundWrite _ _ _ _ => true
  | .commitGo _ _ _ => true
  | .idleWarmingStart _ _ => true
  | .warmLineSend _ _ => true
  | .lineEventArrival _ _ => true
  | .lineTransferStart _ _ => true
  | .segmentSend _ _ => true
  | .fireStrobe _ _ => true
  | .wdogAct _ _ _ => true
  | .headPresChange _ _ _ => true
  | .bringupStart _ _ => true
  | .pgoodRise _ _ => true
  | .pgoodTimeout _ _ => true
  | .trainStart _ _ => true
  | .trainTimeout _ _ => true
  | .cmdAnswerTimeout _ _ => true
  | .headRemoved _ _ => true
  | .pgoodLost _ _ => true
  | .portDownWrite _ _ _ _ => true
  | .portEnWrite _ _ _ _ => true
  | .laneAlert _ _ locked => decide (locked < 16)
  | .retrainWrite _ _ _ _ => true
  | .laneRetrainTimer _ _ => true
  | .laneRetrainEnd _ _ => true
  | .bcLockLost _ _ => true
  | .ping _ _ _ _ => true
  | .getStatus _ _ _ _ => true
  | .readMem _ _ _ _ => true
  | .xdataRead _ _ _ => true
  | .memDataRead _ _ _ => true
  | .wdogLimitWrite _ _ _ _ => true
  | .tempThresholdWrite _ _ _ _ _ => true
  | .headTempTimeout _ _ => true
  | .ladleRequest _ _ _ errs => errs.all DdrError.wf
  | .ladleRelease _ _ _ => true
  | .ladleRetry _ _ _ errs => errs.all DdrError.wf
  | .swGrantRequest _ _ _ => true
  | .swGrantRelease _ _ _ => true
  | .swGrantBind _ _ _ => true
  | .tkoEnable _ _ _ => true
  | .hbSend _ => true
  | .hbRx _ h => h.wf
  | .partnerLost _ => true
  | .tkoProceed _ _ _ => true
  | .tkoVeto _ _ _ => true
  | .decisionTimeout _ => true
  | .tkoJoin _ _ _ => true
  | .joinRx _ _ firsts => firsts.length == 8
  | .retReqRx _ port _ => okPort port
  | .retLineRx _ mask _ => decide (mask < 256)
  | .fillReqRx _ port => okPort port
  | .fillAckRx _ port _ => okPort port
  | .fillNakRx _ port reason => okPort port && decide (1 ≤ reason ∧ reason ≤ 4)
  | .fillEndRx _ port _ => okPort port
  | .fillRetRx _ port _ => okPort port
  | .fillTimeout _ _ => true
  | .stbySwRx _ p op _ => okPort p && (op == 1 || op == 2)
  | .strLoad _ _ _ errs => errs.all DdrError.wf
  | .imageCheckDone _ errs => errs.all DdrError.wf
  | .strApprove _ _ _ => true
  | .strCancel _ _ _ => true
  | .blockReady _ block => decide (block < 32)
  | .strAppliedLoRead _ _ => true
  | .strCmplineLoRead _ _ => true
  | .fabPortTrain _ _ => true
  | .linkIdRx _ _ lanes node port _ _ => decide (lanes < 16) && okNode node && decide (port < 3)
  | .fabLaneLost _ _ lane => decide (lane < 4)
  | .fabLaneRetry _ _ _ => true
  | .fabPortDown _ _ => true
  | .fabPortRetrain _ _ _ _ => true
  | .fabPortDownWrite _ _ _ _ => true
  | .fabAckRx _ _ lseq _ => decide (lseq < 2 ^ 16)
  | .fabFrameForward _ source _ _ f => decide (source < 4) && f.wf
  | .topoSend _ => true
  | .topoRx _ v => okNode v.node
  | .nodeLost _ n => okNode n
  | .steered _ => true
  | .e2eAckRx _ src _ _ errs => okNode src && errs.all DdrError.wf
  | .e2eTimeout _ errs => errs.all DdrError.wf
  | .itemFragmentRx _ src _ _ _ _ _ errs => okNode src && errs.all DdrError.wf
  | .bulkFrameRx _ _ src _ _ _ _ _ _ _ _ errs => okNode src && errs.all DdrError.wf
  | .fabMbxRx _ words => words.all (fun w => decide (w < 2 ^ 32))
  | .fabPosSampleRx _ node _ _ _ _ => okNode node
  | .fabTxqDescriptor _ errs => errs.all DdrError.wf
  | .timeExchange _ => true
  | .treqRx _ _ _ => true
  | .timeDataRx _ _ _ _ _ => true
  | .lpRx _ _ req _ => decide (req < 4)
  | .beaconRx _ _ => true
  | .beaconSend _ _ => true
  | .beaconTxWrite _ _ _ => true
  | .lcRestart _ => true
  | .sqDoorbell _ _ q _ => decide (q < 16)
  | .sqFetch _ _ _ => true
  | .sqErrClear _ _ q => decide (q < 16)
  | .sqEnable _ _ q _ => decide (q < 16)
  | .cqEnable _ _ n _ => decide (n < 16)
  | .cqWrite _ n _ => decide (n < 16)
  | .cqHeadWrite _ _ n _ => decide (n < 16)
  | .msixSend _ _ => true
  | .recEnable _ _ _ => true
  | .recCopy _ _ _ errs => errs.all DdrError.wf
  | .recHeadWrite _ _ _ => true
  | .linkDown _ => true
  | .linkUp _ speed width => decide (1 ≤ speed ∧ speed ≤ 4) && decide (1 ≤ width)
  | .identify _ q => decide (q < 16)
  | .query _ q => decide (q < 16)
  | .jobOpen _ q _ => decide (q < 16)
  | .jobClose _ q => decide (q < 16)
  | .loadStatic _ q _ errs => decide (q < 16) && errs.all DdrError.wf
  | .loadGlyphs _ q _ errs => decide (q < 16) && errs.all DdrError.wf
  | .loadGset _ q _ errs => decide (q < 16) && errs.all DdrError.wf
  | .submitItems _ q _ _ errs => decide (q < 16) && errs.all DdrError.wf
  | .fabSend _ q _ _ errs => decide (q < 16) && errs.all DdrError.wf
  | .tcForward _ q => decide (q < 16)
  | .tcForwardTimeout _ => true
  | .calRun _ q => decide (q < 16)
  | .inboxAdmit _ _ errs => errs.all DdrError.wf
  | .mbxSend _ _ m => decide (m < 8)
  | .mbxAck _ _ m => decide (m < 8)
  | .imgLoad _ m errs => decide (m < 8) && errs.all DdrError.wf
  | .imgSwitch _ m => decide (m < 8)
  | .imgCancel _ m => decide (m < 8)
  | .fwStage _ m errs => decide (m < 8) && errs.all DdrError.wf
  | .fwRestart _ m => decide (m < 8)
  | .power _ m => decide (m < 8)
  | .otpProgram _ m => decide (m < 8)
  | .otpLock _ m => decide (m < 8)
  | .lifeCycle _ m => decide (m < 8)
  | .tkoSet _ m => decide (m < 8)
  | .islReset _ m => decide (m < 8)
  | .devReset _ m => decide (m < 8)
  | .admitRelease _ m => decide (m < 8)
  | .i2cReadSysId _ addr => decide (addr < 128)
  | .i2cReadStatus _ addr => decide (addr < 128)
  | .i2cReadRstCause _ addr => decide (addr < 128)
  | .i2cSetWindow _ addr w => decide (addr < 128) && decide (w < 2 ^ 32)
  | .i2cWindowRead _ addr => decide (addr < 128)
  | .scratchpadAccess _ _ _ op _ _ _ => op.wf
  | .bitSetAliasWrite _ _ _ l _ _ _ => (MemOp.write l).wf
  | .bitClearAliasWrite _ _ _ l _ _ _ => (MemOp.write l).wf
  | .bankOwnerWrite _ _ _ _ => true
  | .grottoWipeGo _ _ _ => true
  | .grottoWipe _ => true
  | .ddrEnWrite _ _ _ => true
  | .ddrTrainingDone _ _ _ => true
  | .ddrAccess _ _ _ op errs _ => op.wf && errs.all DdrError.wf
  | .ddrEccAddrLoRead _ _ => true
  | .scrubBurst _ errs => errs.all DdrError.wf
  | .ddrRefresh _ => true
  | .dmaGo _ _ errs _ => errs.all DdrError.wf
  | .dmaPause _ _ => true
  | .dmaPaused _ _ _ errs _ => errs.all DdrError.wf
  | .dmaAbort _ _ => true
  | .dmaAppend _ _ _ _ errs _ => errs.all DdrError.wf
  | .dmaDescEnd _ _ errs _ => errs.all DdrError.wf
  | .dmaRetry _ _ errs _ => errs.all DdrError.wf
  | .dmaChSrcLoRead _ _ => true
  | .dmaChFaultLoRead _ _ => true
  | .pwrRequest _ _ _ => true
  | .pwrCancel _ _ => true
  | .autoIdleEntry _ => true
  | .autoSleepEntry _ => true
  | .voterAnswer _ _ => true
  | .prepareTimeout _ => true
  | .pwrCommit _ _ _ => true
  | .commitTimeout _ => true
  | .pwrEnter _ => true
  | .wakeSourceLatch _ _ => true
  | .wakeTimerExpiry _ => true
  | .wakeSwWrite _ _ => true
  | .wakeStageReady _ env => env.wf
  | .padRelease _ _ _ => true
  | .brownout _ _ isl _ _ => okIsland isl
  | .coldBoot _ env => env.wf
  | .resetAssert _ => true
  | .thmSample _ raw _ _ => raw.length == 4
  | .hardwareTrip _ => true
  | .tripRestart _ => true
  | .sensorReadmit _ _ _ => true
  | .otpRead _ _ _ _ => true
  | .program _ _ _ _ => true
  | .reinforce _ _ _ _ => true
  | .lock _ _ _ _ => true
  | .relocate _ _ _ _ => true
  | .lcAdvance _ _ _ _ => true
  | .otpCmdDone _ _ _ => true
  | .tamper _ mask => decide (mask < 2 ^ 32)
  | .wdogKick _ _ _ => true
  | .tcWdogExpiry _ => true
  | .secDenyLoRead _ _ => true
  | .eventSourceRaise _ => true
  | .eventClaim _ _ _ => true
  | .swTrigger _ _ _ => true
  | .xtestGo _ _ _ => true
  | .fwEventSubmit _ _ _ => true
  | .routeWrite _ _ _ => true
  | .eventRecord _ => true
  | .recordClose _ => true
  | .rateWindowClose _ => true
  | .phaseChange _ _ _ => true
  | .holdFlush _ => true
  | .mirrorWrite _ _ => true
  | .hqDeliver _ => true
  | .hqHeadWrite _ _ _ => true
  | .fabEventRx _ record src => record.length == 32 && okNode src && record.all (fun b => decide (b < 256))
  | .linkDeskew _ _ _ => true
  | .bcPhase _ _ _ => true
  | .fireTrim _ _ _ => true
  | .tickTrim _ _ _ => true
  | .encThr _ _ _ => true
  | .fabEq _ _ _ => true
  | .ddrTrack _ _ _ => true
  | .sensOfs _ _ _ => true
  | .calInputPresent _ => true
  | .calPrecondCheck _ => true
  | .calSweepEnd _ _ => true
  | .calAbort _ _ => true
  | .calTimeout _ => true
  | .calValueWrite _ _ _ => true
  | .tkoHbTsLoRead _ _ => true
  | .tkoSwLoRead _ _ => true
  | .tkoRetLoRead _ _ => true
  | .bcSymbolLock _ _ => true
  | .applicationPoint _ => true
  | .pcieConfigWrite _ _ dstate _ _ => decide (dstate < 4)
  | .fabCreditRx _ _ amounts => amounts.length == 5
  | .boundaryScanReset _ => true
  | .vaonRise _ pins => decide (pins < 4)
  | .powerOff _ => true

end Sys2Proof
end

