-- ==== Sys2Proof/Tests/Slice0.lean ====
section
/-!
SUPPORT. Tests: ill-formed commands are refused; the worked examples of the spec; and for every clause of every statement a state and
operands that meet its hypotheses. The expected values of the examples are the spec's.
-/

set_option linter.unusedVariables false
set_option Elab.async false

namespace Sys2Proof.Machine
/-- The state with a field given a value. -/
def State.put (s : State) (p : Place) (v : Nat) (i : Nat := 0) (j : Nat := 0) : State := { s with chip := s.chip.set p v i j }
/-- The state with a chip made from its own. -/
def State.on (s : State) (f : Chip → Chip) : State := { s with chip := f s.chip }
def State.inForce (s : State) (p : Place) (i : Nat := 0) (j : Nat := 0) : State := { s with chip := s.chip.bring (p.at i j) }
end Sys2Proof.Machine

namespace Sys2Proof.Tests

open Sys2Proof Sys2Proof.Machine

/-- All islands up and their press time valid, every feature of the chip in force. -/
def base : State := { chip := (({} : Chip).set F.SYS_ISL_STAT_ISL_UP 0xFFFF).set F.SYS_ISL_STAT_TIME_VALID 0xFFFF |>.set F.OTP_FEAT_IN_FORCE 0x3F }

/-! ### Well-formed commands -/

/-- Ill-formed commands, one for each check, are refused (1). -/
theorem test_wellFormed_refuses_1 :
    (Instr.registerWrite 0 .tc 0 3 0 0 false [] []).wellFormed = false ∧
    (Instr.registerWrite 0 .tc 0 4 0 0 false [⟨1, false, 0, 0⟩] []).wellFormed = false ∧
    (Instr.crossingWrite 0 .data 3 3 0 false).wellFormed = false ∧
    (Instr.crossingWrite 0 .data 0 1 (2 ^ 32) false).wellFormed = false ∧
    (Instr.crossingWordReadable 0 .data 3 3).wellFormed = false ∧
    (Instr.crossingSpaceFreed 0 .data 3 3).wellFormed = false ∧
    (Instr.faultTcDecision 0 (2 ^ 32)).wellFormed = false ∧
    (Instr.islandResetWrite 0 .tc (2 ^ 16)).wellFormed = false ∧
    (Instr.islandLeaveReset 0 16).wellFormed = false ∧
    (Instr.ptimeMarker 0 [(16, 0)]).wellFormed = false ∧
    (Instr.markerTimeout 0 16).wellFormed = false ∧
    (Instr.hallEdge 0 8 0).wellFormed = false ∧
    (Instr.itemEnqueue 0 .tc 2048 []).wellFormed = false ∧
    (Instr.itemEnqueue 0 .tc 0 [⟨1, false, 0, 0⟩]).wellFormed = false ∧
    (Instr.partnerPlacementRx 0 (2 ^ 64) 0).wellFormed = false ∧
    (Instr.composeLine 0 [⟨1, false, 0, 0⟩]).wellFormed = false ∧
    (Instr.lineAssemble 0 0 [⟨1, false, 0, 0⟩]).wellFormed = false ∧
    (Instr.colReqRx 0 1024 0 0 0 0).wellFormed = false ∧
    (Instr.colReqRx 0 0 8 0 0 0).wellFormed = false ∧
    (Instr.colReqRx 0 0 0 6 0 0).wellFormed = false ∧
    (Instr.colReqRx 0 0 0 0 1280 0).wellFormed = false ∧
    (Instr.colReqRx 0 0 0 0 0 8).wellFormed = false ∧
    (Instr.colAckRx 0 1024 0 0 0 0 0).wellFormed = false ∧
    (Instr.colAckRx 0 0 8 0 0 0 0).wellFormed = false ∧
    (Instr.colAckRx 0 0 0 6 0 0 0).wellFormed = false ∧
    (Instr.colAckRx 0 0 0 0 1280 0 0).wellFormed = false ∧
    (Instr.colAckRx 0 0 0 0 0 8 0).wellFormed = false ∧
    (Instr.colNackRx 0 1024 0 0 0 0 1).wellFormed = false ∧
    (Instr.colNackRx 0 0 8 0 0 0 1).wellFormed = false ∧
    (Instr.colNackRx 0 0 0 6 0 0 1).wellFormed = false ∧
    (Instr.colNackRx 0 0 0 0 1280 0 1).wellFormed = false ∧
    (Instr.colNackRx 0 0 0 0 0 8 1).wellFormed = false ∧
    (Instr.colNackRx 0 0 0 0 0 0 0).wellFormed = false ∧
    (Instr.colCommitRx 0 1024 0 0 0 0 false 0).wellFormed = false ∧
    (Instr.colCommitRx 0 0 8 0 0 0 false 0).wellFormed = false ∧
    (Instr.colCommitRx 0 0 0 6 0 0 false 0).wellFormed = false ∧
    (Instr.colCommitRx 0 0 0 0 1280 0 false 0).wellFormed = false ∧
    (Instr.colCommitRx 0 0 0 0 0 8 false 0).wellFormed = false ∧
    (Instr.colReleaseRx 0 1024 0 0 0 0).wellFormed = false ∧
    (Instr.colReleaseRx 0 0 8 0 0 0).wellFormed = false := by decide +kernel

/-- Ill-formed commands, one for each check, are refused (2). -/
theorem test_wellFormed_refuses_2 :
    (Instr.colReleaseRx 0 0 0 6 0 0).wellFormed = false ∧
    (Instr.colReleaseRx 0 0 0 0 1280 0).wellFormed = false ∧
    (Instr.colReleaseRx 0 0 0 0 0 8).wellFormed = false ∧
    (Instr.bcLineFrame 0 0 .good 4096 [] []).wellFormed = false ∧
    (Instr.bcLineFrame 0 0 .good 0 [32768] []).wellFormed = false ∧
    (Instr.bcLineFrame 0 0 .good 0 [] (List.replicate 41 ⟨0, false, 0, 0⟩)).wellFormed = false ∧
    (Instr.bcRspFrame 0 0 .good 256 0 []).wellFormed = false ∧
    (Instr.bcRspFrame 0 0 .good 0 256 []).wellFormed = false ∧
    (Instr.bcRspFrame 0 0 .good 0 0 [2 ^ 64]).wellFormed = false ∧
    (Instr.bcEvtFrame 0 0 .good 256 0).wellFormed = false ∧
    (Instr.bcEvtFrame 0 0 .good 0 (2 ^ 16)).wellFormed = false ∧
    (Instr.recordIssue 0 [⟨1, false, 0, 0⟩]).wellFormed = false ∧
    (Instr.verdictRx 0 (2 ^ 64) 0 []).wellFormed = false ∧
    (Instr.verdictRx 0 0 (2 ^ 16) []).wellFormed = false ∧
    (Instr.verdictRx 0 0 0 [⟨1, false, 0, 0⟩]).wellFormed = false ∧
    (Instr.pvTimeout 0 [⟨1, false, 0, 0⟩]).wellFormed = false ∧
    (Instr.shapeWrite 0 .tc 0 8 false 0).wellFormed = false ∧
    (Instr.laneAlert 0 0 16).wellFormed = false ∧
    (Instr.ladleRequest 0 0 0 [⟨1, false, 0, 0⟩]).wellFormed = false ∧
    (Instr.ladleRetry 0 0 0 [⟨1, false, 0, 0⟩]).wellFormed = false ∧
    (Instr.hbRx 0 ⟨1024, 0, 0, 0, 0, 0, 0, 0, 0, false, 0, 0⟩).wellFormed = false ∧
    (Instr.hbRx 0 ⟨0, 0, 0, 0, 0, 0, 256, 0, 0, false, 0, 0⟩).wellFormed = false ∧
    (Instr.joinRx 0 0 []).wellFormed = false ∧
    (Instr.retReqRx 0 8 0).wellFormed = false ∧
    (Instr.retLineRx 0 256 0).wellFormed = false ∧
    (Instr.fillReqRx 0 8).wellFormed = false ∧
    (Instr.fillAckRx 0 8 0).wellFormed = false ∧
    (Instr.fillNakRx 0 8 1).wellFormed = false ∧
    (Instr.fillNakRx 0 0 0).wellFormed = false ∧
    (Instr.fillEndRx 0 8 0).wellFormed = false ∧
    (Instr.fillRetRx 0 8 0).wellFormed = false ∧
    (Instr.stbySwRx 0 8 1 0).wellFormed = false ∧
    (Instr.stbySwRx 0 0 3 0).wellFormed = false ∧
    (Instr.strLoad 0 .tc 0 [⟨1, false, 0, 0⟩]).wellFormed = false ∧
    (Instr.imageCheckDone 0 [⟨1, false, 0, 0⟩]).wellFormed = false ∧
    (Instr.blockReady 0 32).wellFormed = false ∧
    (Instr.linkIdRx 0 0 16 0 0 0 0).wellFormed = false ∧
    (Instr.linkIdRx 0 0 0 1024 0 0 0).wellFormed = false ∧
    (Instr.linkIdRx 0 0 0 0 3 0 0).wellFormed = false ∧
    (Instr.fabLaneLost 0 0 4).wellFormed = false := by decide +kernel

/-- Ill-formed commands, one for each check, are refused (3). -/
theorem test_wellFormed_refuses_3 :
    (Instr.fabAckRx 0 0 (2 ^ 16) false).wellFormed = false ∧
    (Instr.fabFrameForward 0 4 0 false ⟨1, 0, false, false, 0, 0, 0, 0, 0, [], 0, 0⟩).wellFormed = false ∧
    (Instr.fabFrameForward 0 0 0 false ⟨256, 0, false, false, 0, 0, 0, 0, 0, [], 0, 0⟩).wellFormed = false ∧
    (Instr.fabFrameForward 0 0 0 false ⟨1, 0, false, false, 0, 0, 0, 0, 0, [], 0, 5⟩).wellFormed = false ∧
    (Instr.fabFrameForward 0 0 0 false ⟨1, 0, false, false, 0, 0, 0, 0, 0, [0], 0, 0⟩).wellFormed = false ∧
    (Instr.topoRx 0 ⟨1024, 0, 0, [], [], 0, false, false, false, 0, 0⟩).wellFormed = false ∧
    (Instr.nodeLost 0 1024).wellFormed = false ∧
    (Instr.e2eAckRx 0 1024 0 false []).wellFormed = false ∧
    (Instr.e2eAckRx 0 0 0 false [⟨1, false, 0, 0⟩]).wellFormed = false ∧
    (Instr.e2eTimeout 0 [⟨1, false, 0, 0⟩]).wellFormed = false ∧
    (Instr.itemFragmentRx 0 1024 0 false 0 false [] []).wellFormed = false ∧
    (Instr.itemFragmentRx 0 0 0 false 0 false [] [⟨1, false, 0, 0⟩]).wellFormed = false ∧
    (Instr.bulkFrameRx 0 false 1024 0 false 0 0 false 0 0 [] []).wellFormed = false ∧
    (Instr.bulkFrameRx 0 false 0 0 false 0 0 false 0 0 [] [⟨1, false, 0, 0⟩]).wellFormed = false ∧
    (Instr.fabMbxRx 0 [2 ^ 32]).wellFormed = false ∧
    (Instr.fabPosSampleRx 0 1024 0 0 0 false).wellFormed = false ∧
    (Instr.fabTxqDescriptor 0 [⟨1, false, 0, 0⟩]).wellFormed = false ∧
    (Instr.lpRx 0 0 4 false).wellFormed = false ∧
    (Instr.sqDoorbell 0 .tc 16 0).wellFormed = false ∧
    (Instr.sqErrClear 0 .tc 16).wellFormed = false ∧
    (Instr.sqEnable 0 .tc 16 0).wellFormed = false ∧
    (Instr.cqEnable 0 .tc 16 0).wellFormed = false ∧
    (Instr.cqWrite 0 16 false).wellFormed = false ∧
    (Instr.cqHeadWrite 0 .tc 16 0).wellFormed = false ∧
    (Instr.recCopy 0 0 false [⟨1, false, 0, 0⟩]).wellFormed = false ∧
    (Instr.linkUp 0 0 1).wellFormed = false ∧
    (Instr.linkUp 0 1 0).wellFormed = false ∧
    (Instr.identify 0 16).wellFormed = false ∧
    (Instr.query 0 16).wellFormed = false ∧
    (Instr.jobOpen 0 16 false).wellFormed = false ∧
    (Instr.jobClose 0 16).wellFormed = false ∧
    (Instr.loadStatic 0 16 false []).wellFormed = false ∧
    (Instr.loadStatic 0 0 false [⟨1, false, 0, 0⟩]).wellFormed = false ∧
    (Instr.loadGlyphs 0 16 false []).wellFormed = false ∧
    (Instr.loadGlyphs 0 0 false [⟨1, false, 0, 0⟩]).wellFormed = false ∧
    (Instr.loadGset 0 16 false []).wellFormed = false ∧
    (Instr.loadGset 0 0 false [⟨1, false, 0, 0⟩]).wellFormed = false ∧
    (Instr.submitItems 0 16 false 0 []).wellFormed = false ∧
    (Instr.submitItems 0 0 false 0 [⟨1, false, 0, 0⟩]).wellFormed = false ∧
    (Instr.fabSend 0 16 0 false []).wellFormed = false := by decide +kernel

/-- Ill-formed commands, one for each check, are refused (4). -/
theorem test_wellFormed_refuses_4 :
    (Instr.fabSend 0 0 0 false [⟨1, false, 0, 0⟩]).wellFormed = false ∧
    (Instr.tcForward 0 16).wellFormed = false ∧
    (Instr.calRun 0 16).wellFormed = false ∧
    (Instr.inboxAdmit 0 0 [⟨1, false, 0, 0⟩]).wellFormed = false ∧
    (Instr.mbxSend 0 .tc 8).wellFormed = false ∧
    (Instr.mbxAck 0 .tc 8).wellFormed = false ∧
    (Instr.imgLoad 0 8 []).wellFormed = false ∧
    (Instr.imgLoad 0 0 [⟨1, false, 0, 0⟩]).wellFormed = false ∧
    (Instr.imgSwitch 0 8).wellFormed = false ∧
    (Instr.imgCancel 0 8).wellFormed = false ∧
    (Instr.fwStage 0 8 []).wellFormed = false ∧
    (Instr.fwStage 0 0 [⟨1, false, 0, 0⟩]).wellFormed = false ∧
    (Instr.fwRestart 0 8).wellFormed = false ∧
    (Instr.power 0 8).wellFormed = false ∧
    (Instr.otpProgram 0 8).wellFormed = false ∧
    (Instr.otpLock 0 8).wellFormed = false ∧
    (Instr.lifeCycle 0 8).wellFormed = false ∧
    (Instr.tkoSet 0 8).wellFormed = false ∧
    (Instr.islReset 0 8).wellFormed = false ∧
    (Instr.devReset 0 8).wellFormed = false ∧
    (Instr.admitRelease 0 8).wellFormed = false ∧
    (Instr.i2cReadSysId 0 128).wellFormed = false ∧
    (Instr.i2cReadStatus 0 128).wellFormed = false ∧
    (Instr.i2cReadRstCause 0 128).wellFormed = false ∧
    (Instr.i2cSetWindow 0 128 0).wellFormed = false ∧
    (Instr.i2cSetWindow 0 0 (2 ^ 32)).wellFormed = false ∧
    (Instr.i2cWindowRead 0 128).wellFormed = false ∧
    (Instr.scratchpadAccess 0 .tc 0 (.read 0) [] .clean 0).wellFormed = false ∧
    (Instr.scratchpadAccess 0 .tc 0 (.write []) [] .clean 0).wellFormed = false ∧
    (Instr.bitSetAliasWrite 0 .tc 0 [] [] .clean 0).wellFormed = false ∧
    (Instr.bitClearAliasWrite 0 .tc 0 [] [] .clean 0).wellFormed = false ∧
    (Instr.ddrAccess 0 .tc 0 (.read 0) [] 0).wellFormed = false ∧
    (Instr.ddrAccess 0 .tc 0 (.write []) [] 0).wellFormed = false ∧
    (Instr.ddrAccess 0 .tc 0 (.read 4) [⟨1, false, 0, 0⟩] 0).wellFormed = false ∧
    (Instr.scrubBurst 0 [⟨1, false, 0, 0⟩]).wellFormed = false ∧
    (Instr.dmaGo 0 .tc [⟨1, false, 0, 0⟩] []).wellFormed = false ∧
    (Instr.dmaPaused 0 0 0 [⟨1, false, 0, 0⟩] []).wellFormed = false ∧
    (Instr.dmaAppend 0 .tc 0 false [⟨1, false, 0, 0⟩] []).wellFormed = false ∧
    (Instr.dmaDescEnd 0 0 [⟨1, false, 0, 0⟩] []).wellFormed = false ∧
    (Instr.dmaRetry 0 0 [⟨1, false, 0, 0⟩] []).wellFormed = false := by decide +kernel

/-- Ill-formed commands, one for each check, are refused (5). -/
theorem test_wellFormed_refuses_5 :
    (Instr.wakeStageReady 0 ⟨4, false, false, 0, 0, [], false⟩).wellFormed = false ∧
    (Instr.wakeStageReady 0 ⟨0, false, false, 64, 0, [], false⟩).wellFormed = false ∧
    (Instr.brownout 0 0 16 [] 0).wellFormed = false ∧
    (Instr.coldBoot 0 ⟨4, false, false, 0, 0, [], false⟩).wellFormed = false ∧
    (Instr.coldBoot 0 ⟨0, false, false, 64, 0, [], false⟩).wellFormed = false ∧
    (Instr.thmSample 0 [] [] 0).wellFormed = false ∧
    (Instr.tamper 0 (2 ^ 32)).wellFormed = false ∧
    (Instr.fabEventRx 0 [] 0).wellFormed = false ∧
    (Instr.fabEventRx 0 (List.replicate 32 0) 1024).wellFormed = false ∧
    (Instr.fabEventRx 0 (List.replicate 32 256) 0).wellFormed = false ∧
    (Instr.pcieConfigWrite 0 false 4 false false).wellFormed = false ∧
    (Instr.fabCreditRx 0 0 []).wellFormed = false ∧
    (Instr.vaonRise 0 4).wellFormed = false := by decide +kernel

/-- The same commands with operands in range are well-formed (1). -/
theorem test_wellFormed_takes_1 :
    (Instr.registerWrite 0 .tc 0 4 0 0 false [] []).wellFormed = true ∧
    (Instr.crossingWrite 0 .data 0 1 0 false).wellFormed = true ∧
    (Instr.crossingWordReadable 0 .data 0 1).wellFormed = true ∧
    (Instr.crossingSpaceFreed 0 .data 0 1).wellFormed = true ∧
    (Instr.faultTcDecision 0 0).wellFormed = true ∧
    (Instr.islandResetWrite 0 .tc 0).wellFormed = true ∧
    (Instr.islandLeaveReset 0 0).wellFormed = true ∧
    (Instr.ptimeMarker 0 []).wellFormed = true ∧
    (Instr.markerTimeout 0 0).wellFormed = true ∧
    (Instr.hallEdge 0 0 0).wellFormed = true ∧
    (Instr.itemEnqueue 0 .tc 0 []).wellFormed = true ∧
    (Instr.partnerPlacementRx 0 0 0).wellFormed = true ∧
    (Instr.composeLine 0 []).wellFormed = true ∧
    (Instr.lineAssemble 0 0 []).wellFormed = true ∧
    (Instr.colReqRx 0 0 0 0 0 0).wellFormed = true ∧
    (Instr.colAckRx 0 0 0 0 0 0 0).wellFormed = true ∧
    (Instr.colNackRx 0 0 0 0 0 0 1).wellFormed = true ∧
    (Instr.colCommitRx 0 0 0 0 0 0 false 0).wellFormed = true ∧
    (Instr.colReleaseRx 0 0 0 0 0 0).wellFormed = true ∧
    (Instr.bcLineFrame 0 0 .good 0 [] []).wellFormed = true ∧
    (Instr.bcRspFrame 0 0 .good 0 0 []).wellFormed = true ∧
    (Instr.bcEvtFrame 0 0 .good 0 0).wellFormed = true ∧
    (Instr.recordIssue 0 []).wellFormed = true ∧
    (Instr.verdictRx 0 0 0 []).wellFormed = true ∧
    (Instr.pvTimeout 0 []).wellFormed = true ∧
    (Instr.shapeWrite 0 .tc 0 0 false 0).wellFormed = true ∧
    (Instr.laneAlert 0 0 0).wellFormed = true ∧
    (Instr.ladleRequest 0 0 0 []).wellFormed = true ∧
    (Instr.ladleRetry 0 0 0 []).wellFormed = true ∧
    (Instr.hbRx 0 ⟨0, 0, 0, 0, 0, 0, 0, 0, 0, false, 0, 0⟩).wellFormed = true ∧
    (Instr.joinRx 0 0 [0, 0, 0, 0, 0, 0, 0, 0]).wellFormed = true ∧
    (Instr.retReqRx 0 0 0).wellFormed = true ∧
    (Instr.retLineRx 0 0 0).wellFormed = true ∧
    (Instr.fillReqRx 0 0).wellFormed = true ∧
    (Instr.fillAckRx 0 0 0).wellFormed = true ∧
    (Instr.fillNakRx 0 0 1).wellFormed = true ∧
    (Instr.fillEndRx 0 0 0).wellFormed = true ∧
    (Instr.fillRetRx 0 0 0).wellFormed = true ∧
    (Instr.stbySwRx 0 0 1 0).wellFormed = true ∧
    (Instr.strLoad 0 .tc 0 []).wellFormed = true := by decide +kernel

/-- The same commands with operands in range are well-formed (2). -/
theorem test_wellFormed_takes_2 :
    (Instr.imageCheckDone 0 []).wellFormed = true ∧
    (Instr.blockReady 0 0).wellFormed = true ∧
    (Instr.linkIdRx 0 0 0 0 0 0 0).wellFormed = true ∧
    (Instr.fabLaneLost 0 0 0).wellFormed = true ∧
    (Instr.fabAckRx 0 0 0 false).wellFormed = true ∧
    (Instr.fabFrameForward 0 0 0 false ⟨1, 0, false, false, 0, 0, 0, 0, 0, [], 0, 0⟩).wellFormed = true ∧
    (Instr.topoRx 0 ⟨0, 0, 0, [], [], 0, false, false, false, 0, 0⟩).wellFormed = true ∧
    (Instr.nodeLost 0 0).wellFormed = true ∧
    (Instr.e2eAckRx 0 0 0 false []).wellFormed = true ∧
    (Instr.e2eTimeout 0 []).wellFormed = true ∧
    (Instr.itemFragmentRx 0 0 0 false 0 false [] []).wellFormed = true ∧
    (Instr.bulkFrameRx 0 false 0 0 false 0 0 false 0 0 [] []).wellFormed = true ∧
    (Instr.fabMbxRx 0 []).wellFormed = true ∧
    (Instr.fabPosSampleRx 0 0 0 0 0 false).wellFormed = true ∧
    (Instr.fabTxqDescriptor 0 []).wellFormed = true ∧
    (Instr.lpRx 0 0 0 false).wellFormed = true ∧
    (Instr.sqDoorbell 0 .tc 0 0).wellFormed = true ∧
    (Instr.sqErrClear 0 .tc 0).wellFormed = true ∧
    (Instr.sqEnable 0 .tc 0 0).wellFormed = true ∧
    (Instr.cqEnable 0 .tc 0 0).wellFormed = true ∧
    (Instr.cqWrite 0 0 false).wellFormed = true ∧
    (Instr.cqHeadWrite 0 .tc 0 0).wellFormed = true ∧
    (Instr.recCopy 0 0 false []).wellFormed = true ∧
    (Instr.linkUp 0 1 1).wellFormed = true ∧
    (Instr.identify 0 0).wellFormed = true ∧
    (Instr.query 0 0).wellFormed = true ∧
    (Instr.jobOpen 0 0 false).wellFormed = true ∧
    (Instr.jobClose 0 0).wellFormed = true ∧
    (Instr.loadStatic 0 0 false []).wellFormed = true ∧
    (Instr.loadGlyphs 0 0 false []).wellFormed = true ∧
    (Instr.loadGset 0 0 false []).wellFormed = true ∧
    (Instr.submitItems 0 0 false 0 []).wellFormed = true ∧
    (Instr.fabSend 0 0 0 false []).wellFormed = true ∧
    (Instr.tcForward 0 0).wellFormed = true ∧
    (Instr.calRun 0 0).wellFormed = true ∧
    (Instr.inboxAdmit 0 0 []).wellFormed = true ∧
    (Instr.mbxSend 0 .tc 0).wellFormed = true ∧
    (Instr.mbxAck 0 .tc 0).wellFormed = true ∧
    (Instr.imgLoad 0 0 []).wellFormed = true ∧
    (Instr.imgSwitch 0 0).wellFormed = true := by decide +kernel

/-- The same commands with operands in range are well-formed (3). -/
theorem test_wellFormed_takes_3 :
    (Instr.imgCancel 0 0).wellFormed = true ∧
    (Instr.fwStage 0 0 []).wellFormed = true ∧
    (Instr.fwRestart 0 0).wellFormed = true ∧
    (Instr.power 0 0).wellFormed = true ∧
    (Instr.otpProgram 0 0).wellFormed = true ∧
    (Instr.otpLock 0 0).wellFormed = true ∧
    (Instr.lifeCycle 0 0).wellFormed = true ∧
    (Instr.tkoSet 0 0).wellFormed = true ∧
    (Instr.islReset 0 0).wellFormed = true ∧
    (Instr.devReset 0 0).wellFormed = true ∧
    (Instr.admitRelease 0 0).wellFormed = true ∧
    (Instr.i2cReadSysId 0 0).wellFormed = true ∧
    (Instr.i2cReadStatus 0 0).wellFormed = true ∧
    (Instr.i2cReadRstCause 0 0).wellFormed = true ∧
    (Instr.i2cSetWindow 0 0 0).wellFormed = true ∧
    (Instr.i2cWindowRead 0 0).wellFormed = true ∧
    (Instr.scratchpadAccess 0 .tc 0 (.read 4) [] .clean 0).wellFormed = true ∧
    (Instr.bitSetAliasWrite 0 .tc 0 [0, 0, 0, 0] [] .clean 0).wellFormed = true ∧
    (Instr.bitClearAliasWrite 0 .tc 0 [0, 0, 0, 0] [] .clean 0).wellFormed = true ∧
    (Instr.ddrAccess 0 .tc 0 (.read 4) [] 0).wellFormed = true ∧
    (Instr.scrubBurst 0 []).wellFormed = true ∧
    (Instr.dmaGo 0 .tc [] []).wellFormed = true ∧
    (Instr.dmaPaused 0 0 0 [] []).wellFormed = true ∧
    (Instr.dmaAppend 0 .tc 0 false [] []).wellFormed = true ∧
    (Instr.dmaDescEnd 0 0 [] []).wellFormed = true ∧
    (Instr.dmaRetry 0 0 [] []).wellFormed = true ∧
    (Instr.wakeStageReady 0 ⟨0, false, false, 0, 0, [], false⟩).wellFormed = true ∧
    (Instr.brownout 0 0 0 [] 0).wellFormed = true ∧
    (Instr.coldBoot 0 ⟨0, false, false, 0, 0, [], false⟩).wellFormed = true ∧
    (Instr.thmSample 0 [0, 0, 0, 0] [] 0).wellFormed = true ∧
    (Instr.tamper 0 0).wellFormed = true ∧
    (Instr.fabEventRx 0 (List.replicate 32 0) 0).wellFormed = true ∧
    (Instr.pcieConfigWrite 0 false 0 false false).wellFormed = true ∧
    (Instr.fabCreditRx 0 0 [0, 0, 0, 0, 0]).wellFormed = true ∧
    (Instr.vaonRise 0 0).wellFormed = true := by decide +kernel

/-! ### Worked examples of the spec -/

/-- R168: the ring line of web line 1,000,123. -/
theorem test_ring_address :
    (((base.put F.CMP_RING_BASE_LO_ADDR 0x40000).put F.CMP_RING_BASE_HI_ADDR 0x10).put F.CMP_RING_CFG_DEPTH_SEL 2).chip.ringAddr 2 3 1000123 = 0x10412F69C0 := by
  decide +kernel

/-- R166: the check value of the raster CRC. -/
theorem test_crc32_check : crc32 [0x31, 0x32, 0x33, 0x34, 0x35, 0x36, 0x37, 0x38, 0x39] = 0xCBF43926 := by decide +kernel

/-- R286: the check value of CRC16. -/
theorem test_crc16_check : crc16 [0x31, 0x32, 0x33, 0x34, 0x35, 0x36, 0x37, 0x38, 0x39] = 0x29B1 := by decide +kernel

/-- Four processors on two words, cycle c: JC1's plain write applies, the alias writes of LC and TC lose. -/
theorem test_four_processors :
    (match Sys2Proof.Machine.execScratchpadAccess 5 .jc1 0x42A48 (.write [0xFF, 0, 0, 0])
        [⟨.lc, .setBits, 0x42A48, 15, 0xF00⟩, ⟨.tc, .clearBits, 0x42A48, 15, 1⟩] .clean 0
        { base with store := base.store.write 0x42A48 [1, 0, 0x34, 0x12] } with
      | .next u => decide (u.store.read 0x42A48 4 = [0xFF, 0, 0, 0])
      | _ => false) = true ∧
    bankOf 0x42A48 = 2 ∧ bankOf 0x42A4C = 3 ∧
    WordWrite.loses ⟨.lc, .setBits, 0x42A48, 15, 0xF00⟩ [⟨.jc1, .plain, 0x42A48, 15, 0xFF⟩, ⟨.tc, .clearBits, 0x42A48, 15, 1⟩] = true ∧
    WordWrite.result ⟨.tc, .clearBits, 0x42A48, 15, 1⟩ [⟨.lc, .setBits, 0x42A48, 15, 0xF00⟩]
      (WordWrite.result ⟨.lc, .setBits, 0x42A48, 15, 0xF00⟩ [⟨.tc, .clearBits, 0x42A48, 15, 1⟩] 0xFF) = 0xFFE := by
  decide +kernel

/-- A paused overlapping move: the extents of the descriptor, and that the copy descends. -/
theorem test_dma_extents :
    DmaCh.extent { src := 0x10000, dst := 0x10040, rows := 4, len := 0x100, sstride := 0x200, dstride := 0x200 } 0x10000 0x200 false = (0x10000, 0x10700) ∧
    DmaCh.extent { src := 0x10000, dst := 0x10040, rows := 4, len := 0x100, sstride := 0x200, dstride := 0x200 } 0x10040 0x200 false = (0x10040, 0x10740) ∧
    DmaCh.overlap { src := 0x10000, dst := 0x10040, rows := 4, len := 0x100, sstride := 0x200, dstride := 0x200 } = some true := by
  decide +kernel

/-- A flickering wire: the source that WIRE_FAULT raises, and bytes 0 to 7 of its record. -/
theorem test_event_record :
    homeSource 0x0901 0 = 73 ∧ extraSources 0x0901 = [] ∧
    fieldLE (eventBytes ⟨0x0901, 0, true, [0, 1], false, false, none⟩ 0x1D 0x4A21 0x06) 0 4 = 0x001D0901 ∧
    fieldLE (eventBytes ⟨0x0901, 0, true, [0, 1], false, false, none⟩ 0x1D 0x4A21 0x06) 4 4 = 0x06004A21 := by
  decide +kernel

/-- A batch with a refusal, step 2: TAIL of ring 1 with 64 slots goes on from 62 to (63 + 1) mod 64. -/
theorem test_doorbell_wraps :
    (match Sys2Proof.Machine.execSqDoorbell 5 .host 1 0
        ((((base.put F.HST_SQ_CFG_EN 1 1).put F.HST_SQ_CFG_SIZE_LOG2 6 1).put F.HST_SQ_TAIL_TAIL 62 1).put F.HST_SQ_HEAD_HEAD 62 1) with
      | .next u => decide (u.chip.get F.HST_SQ_TAIL_TAIL 1 = 0 ∧ u.chip.sqPending 1 = 2 ∧ u.chip.get F.HST_REJ_CNT_COUNT = 0)
      | _ => false) = true := by
  decide +kernel

/-- R718: IDCODE on stepping A1; SYS_ID is that of the worked reading of R18. -/
theorem test_idcode : (base.chip.setWord R.SYS_ID.addr 0x80642101).idCode = 0x180645AF := by decide +kernel

/-- Steps take the queue first in, first out, and an empty queue stays as it is. -/
theorem test_queue_order :
    (match step { base with pending := [.recordClose 5, .recordClose 9] } with
      | .next u => decide (u.pending = [.recordClose 9] ∧ u.chip.now = 5)
      | _ => false) = true ∧
    (match step State.reset with
      | .next u => decide (u = State.reset)
      | _ => false) = true := by
  decide +kernel

/-- No word spells a command, so nothing is placed in front of the queue. -/
theorem test_no_word_decodes : decodeTableWord 32 0xFFFFFFFF = none ∧ State.reset.withFetchWord 32 0xFFFFFFFF = State.reset :=
  ⟨rfl, rfl⟩

/-- The queue runs a command from a state that is in canonical form. -/
theorem witness_StepsRunTheQueue :
    (∃ (c : Instr) (rest : List Instr) (s : State), s.pending = c :: rest) ∧ (∃ s : State, s.pending = []) :=
  ⟨⟨.recordClose 5, [], { base with pending := [.recordClose 5] }, rfl⟩, ⟨State.reset, rfl⟩⟩

/-- A step that programs no fuse, from a state whose memory is not empty. -/
theorem witness_MemoriesStayCanonical : ∃ (s u : State), s.store.wf ∧ s.store.mem ≠ [] ∧ step s = .next u :=
  ⟨{ base with store := base.store.write 8 [1], pending := [.recordClose 5] },
    { base with chip := base.chip.at 5, store := base.store.write 8 [1] }, by decide +kernel, by decide +kernel, by rfl⟩

/-- A step from a state with a blown fuse. -/
theorem witness_FusesOnlyBlow : ∃ (s u : State), bitAt (s.store.rawN 3) 0 = true ∧ step s = .next u :=
  ⟨{ base with store := { base.store with fuseN := [(3, 1)] }, pending := [.recordClose 5] },
    { base with chip := base.chip.at 5, store := { base.store with fuseN := [(3, 1)] } }, by decide +kernel, by rfl⟩

/-! ### Witnesses of the statements' hypotheses -/

namespace FamA

def xs (l : List (Nat × Bool)) (p : Plane) : State := base.on (fun c => c.setCrossing ⟨p, 2, 5, l, []⟩)
theorem xs_words (l : List (Nat × Bool)) (p : Plane) : ((xs l p).chip.crossing p 2 5).words = l := by
  cases p <;> cases l <;> simp [xs, State.on, Chip.crossing, Chip.setCrossing, Crossing.is, base, Chip.setSys, Chip.set, Chip.setWord]
def rd (a : Nat) : RegDef := match regWhere a with | some x => x.1 | none => ⟨0, 0, 0, 0, 0, 0, []⟩

theorem witness_CrossingsCarryWords :
    (∃ (t : Nat) (p : Plane) (src dst w : Nat) (s : State), s.chip.up src = true ∧ s.chip.up dst = true ∧ (s.chip.crossing p src dst).words.length < depthOf p src dst ∧ (s.chip.crossing p src dst).waiting = []) ∧
    (∃ (t src dst w : Nat) (s : State), s.chip.up src = true ∧ s.chip.up dst = true ∧ depthOf .data src dst ≤ (s.chip.crossing .data src dst).words.length) ∧
    (∃ (t src dst w : Nat) (s : State), s.chip.up src = true ∧ s.chip.up dst = true ∧ depthOf .management src dst ≤ (s.chip.crossing .management src dst).words.length) ∧
    (∃ (t src dst w : Nat) (s : State), s.chip.up src = true ∧ s.chip.up dst = true ∧ depthOf .control src dst ≤ (s.chip.crossing .control src dst).words.length) ∧
    (∃ (t src dst w : Nat) (p : Plane) (a b : List (Nat × Bool)) (s : State), (s.chip.crossing p src dst).words = a ++ (w, false) :: b ∧ (∀ x ∈ a, x.2 = true)) ∧
    (∃ (t src dst w v : Nat) (p : Plane) (r : List (Nat × Bool)) (ws : List Nat) (s : State), s.chip.up dst = true ∧ (s.chip.crossing p src dst).words = (w, true) :: r ∧ (s.chip.crossing p src dst).waiting = v :: ws) ∧
    (∃ (t src dst w : Nat) (p : Plane) (r : List (Nat × Bool)) (s : State), s.chip.up dst = true ∧ (s.chip.crossing p src dst).words = (w, true) :: r ∧ (s.chip.crossing p src dst).waiting = []) :=
  ⟨⟨5, (.data : Plane), 2, 5, 7, base, ⟨by decide +kernel, by decide +kernel, by show 0 < max 1 _; omega, by decide +kernel⟩⟩,
   ⟨5, 2, 5, 7, xs (List.replicate (depthOf .data 2 5) (9, true)) .data, ⟨by decide +kernel, by decide +kernel, by rw [xs_words]; simp⟩⟩,
   ⟨5, 2, 5, 7, xs (List.replicate (depthOf .management 2 5) (9, true)) .management, ⟨by decide +kernel, by decide +kernel, by rw [xs_words]; simp⟩⟩,
   ⟨5, 2, 5, 7, xs (List.replicate (depthOf .control 2 5) (9, true)) .control, ⟨by decide +kernel, by decide +kernel, by rw [xs_words]; simp⟩⟩,
   ⟨5, 2, 5, 7, (.data : Plane), ([(1, true)] : List (Nat × Bool)), ([(3, false)] : List (Nat × Bool)), base.on (fun c => c.setCrossing ⟨.data, 2, 5, [(1, true), (7, false), (3, false)], []⟩), by decide +kernel⟩,
   ⟨5, 2, 5, 1, 9, (.data : Plane), ([(7, false)] : List (Nat × Bool)), ([4] : List Nat), base.on (fun c => c.setCrossing ⟨.data, 2, 5, [(1, true), (7, false)], [9, 4]⟩), by decide +kernel⟩,
   ⟨5, 2, 5, 1, (.data : Plane), ([] : List (Nat × Bool)), base.on (fun c => c.setCrossing ⟨.data, 2, 5, [(1, true)], []⟩), by decide +kernel⟩⟩

theorem witness_FaultManagerActs :
    (∃ (t a : Nat) (e : Event) (r : List Event) (s : State), s.chip.up 1 = true ∧ s.chip.ev.faultIn = e :: r ∧ a = (((s.chip.str.img.fault.find? (fun (x : Nat × Nat) => x.1 == e.code)).map Prod.snd).getD 1) ∧ bitAt a 1 = false ∧ bitAt a 2 = false ∧ bitAt a 4 = false) ∧
    (∃ (t a : Nat) (e : Event) (r : List Event) (s : State), s.chip.sys.tcUp = true ∧ s.chip.ev.tcPend = e :: r ∧ bitAt a 1 = false ∧ bitAt a 2 = false ∧ bitAt a 4 = false) ∧
    (∃ (t : Nat) (s : State), s.chip.ev.faultIn = []) :=
  ⟨⟨5, 1, (⟨0x1234, 0, true, [1], false, false, none⟩ : Event), ([] : List Event), base.on (fun c => c.setEv { c.ev with faultIn := [⟨0x1234, 0, true, [1], false, false, none⟩] }), by decide +kernel⟩,
   ⟨5, 0x29, (⟨0x1234, 0, true, [1], false, false, none⟩ : Event), ([] : List Event), base.on (fun c => c.setEv { c.ev with tcPend := [⟨0x1234, 0, true, [1], false, false, none⟩] }), by decide +kernel⟩,
   ⟨5, base, by decide +kernel⟩⟩

theorem witness_PressTimeMarkers :
    (∃ (t k : Nat) (corr : List (Nat × Int)) (s : State), s.chip.up 6 = true ∧ k < 16 ∧ k ≠ 0 ∧ k ≠ 6 ∧ s.chip.up k = true) ∧
    (∃ (t k : Nat) (s : State), k < 16 ∧ k ≠ 0 ∧ k ≠ 6 ∧ s.chip.up k = true ∧ s.chip.sys.lastMarker + ns (2 * s.chip.get F.SYS_TMK_PERIOD_PERIOD) ≤ max s.chip.now t ∧ s.chip.timeValid k = true) ∧
    (∃ (t : Nat) (i : Initiator) (s : State), s.chip.up 0 = true) :=
  ⟨⟨5, 3, ([(3, 4000)] : List (Nat × Int)), base, by decide +kernel⟩,
   ⟨ns 100000000, 9, base, by decide +kernel⟩,
   ⟨ns 100000000000, (.host : Initiator), base, by decide +kernel⟩⟩

theorem witness_RegisterWriteFillsFields :
    (∃ (t : Nat) (i : Initiator) (addr : Nat) (w hi : Word) (errs : List DdrError) (ues : List Nat) (d : RegDef) (n m : Nat) (s : State), regWhere addr = some (d, n, m) ∧ s.chip.mayWrite i addr ∧ addr % 4 = 0 ∧ s.chip.switchState = 0 ∧ s.chip.calBusy = false ∧ ((blockOf addr = 0x02 ∧ d.is R.OTP_CMD = false ∨ blockOf addr = 0x07 ∧ d.is R.THM_STAT = false ∨ blockOf addr = 0x03 ∧ d.is R.EVR_CTRL = false ∧ d.is R.EVR_MIR_POS = false ∨ blockOf addr = 0x1D ∧ d.is R.PAD_HOLD_REL = false))) ∧
    (∃ (t : Nat) (i : Initiator) (addr : Nat) (w hi : Word) (s : State), ordinary addr = true ∧ s.chip.absent addr = false ∧ s.chip.up (islandOf (blockOf addr)) = false) ∧
    (∃ (t : Nat) (i : Initiator) (addr : Nat) (w hi : Word) (s : State), ordinary addr = true ∧ regWhere addr ≠ none ∧ s.chip.absent addr = false ∧ s.chip.up (islandOf (blockOf addr)) = true ∧ i ≠ .host ∧ (blockRight i (blockOf addr) < 2 ∨ (tcOnly addr = true ∧ i ≠ .tc)) ∧ worksIn addr = false ∧ blockOf addr ≠ 0x1A ∧ blockOf addr ≠ 0x0F) :=
  ⟨⟨5, (.tc : Initiator), 0x1007004C, (0x460A : Word), (0 : Word), ([] : List DdrError), ([] : List Nat), (rd 0x1007004C : RegDef), 0, 0, base, by decide +kernel⟩,
   ⟨5, (.tc : Initiator), 0x10070008, (0x1234 : Word), (0 : Word), State.reset.put F.SYS_ISL_STAT_ISL_UP 2, by decide +kernel⟩,
   ⟨5, (.lc : Initiator), 0x10070000, (0x1234 : Word), (0 : Word), base, by decide +kernel⟩⟩

theorem witness_LockedFieldsIgnoreWrites :
    (∃ (t : Nat) (i : Initiator) (w : Word) (s : State), s.chip.mayWrite i R.STR_CTRL.addr ∧ s.chip.fw.calCmd = none ∧ s.chip.switchState = 0 ∧ s.chip.calBusy = false) ∧
    (∃ (t : Nat) (i : Initiator) (w : Word) (s : State), s.chip.mayWrite i R.DDR_CTRL.addr ∧ fld F.DDR_CTRL_EN w.toNat = s.chip.get F.DDR_CTRL_EN ∧ s.chip.switchState = 0 ∧ s.chip.calBusy = false) ∧
    (∃ (t : Nat) (i : Initiator) (w : Word) (s : State), s.chip.mayWrite i R.SEC_CTRL.addr ∧ s.chip.switchState = 0 ∧ s.chip.calBusy = false) ∧
    (∃ (t a : Nat) (i : Initiator) (w hi : Word) (s : State), s.chip.mayWrite i a ∧ (a = R.STR_CTRL.addr ∨ a = R.SEC_CTRL.addr ∨ a = R.DDR_CTRL.addr) ∧ s.chip.lockedBlock a = true) ∧
    (∃ (t a n m k : Nat) (i : Initiator) (w hi : Word) (d : RegDef) (f : FieldDef) (q : Place) (s : State), s.chip.mayWrite i a ∧ ordinary a = true ∧ regWhere a = some (d, n, m) ∧ f ∈ d.fields ∧ (f.acc = .rwl ∧ s.chip.lockedBlock a = true ∨ f.acc = .rwx ∧ s.chip.xpert a = false) ∧ rejectCounter a = some (q, k)) :=
  ⟨⟨5, (.tc : Initiator), (1 : Word), base, by decide +kernel⟩,
   ⟨5, (.tc : Initiator), (1 : Word), base, by decide +kernel⟩,
   ⟨5, (.tc : Initiator), (1 : Word), base, by decide +kernel⟩,
   ⟨5, R.SEC_CTRL.addr, (.tc : Initiator), (0 : Word), (0 : Word), base.put F.SEC_CTRL_LOCK 1, by decide +kernel⟩,
   ⟨5, R.STR_XCFG.addr, 0, 0, 0, (.tc : Initiator), (0x01000008 : Word), (0 : Word), (rd R.STR_XCFG.addr : RegDef), (((rd R.STR_XCFG.addr).fields.getD 0 (fd 0 0 .rw)) : FieldDef), (F.STR_REJ_CNT_COUNT : Place), base, by decide +kernel⟩⟩

end FamA

namespace FamB

theorem witness_IslandResets :
    (∃ (t isl : Nat) (s : State), 2 ≤ isl ∧ isl < 16 ∧ s.chip.up 0 = true ∧ s.chip.up isl = true) ∧
    (∃ (t mask : Nat) (s : State), mask < 4 ∧ s.chip.up 0 = true) ∧
    (∃ (t isl : Nat) (s : State), isl < 16 ∧ isl ≠ 2 ∧ isl ≠ 6 ∧ bitAt s.chip.sys.inReset isl = true ∧ s.chip.on F.STR_STAT_ACTIVE_VALID = false) :=
  ⟨⟨5, 5, (base.put F.CMP_WARN_WARN 3).on (fun c => c.setCrossing ⟨.data, 5, 9, [(1,true)], []⟩), by decide +kernel⟩,
   ⟨5, 3, base, by decide +kernel⟩,
   ⟨5, 5, (base.on (fun c => c.setUp 5 false)).on (fun c => c.setSys { c.sys with inReset := 32 }), by decide +kernel⟩⟩

theorem witness_ResetsAndBoot :
    (∃ (t : Nat) (w : Word) (s : State), w.toNat / 65536 = 0x5A3C ∧ w.toNat % 2 = 1 ∧ s.chip.up 0 = true) ∧
    (∃ (t : Nat) (w : Word) (s : State), (w.toNat / 65536 ≠ 0x5A3C ∨ w.toNat % 2 = 0) ∧ s.chip.up 0 = true) ∧
    (∃ (t : Nat) (s : State), s.chip.pwr.off = false ∧ s.chip.get F.PWR_STAT_STATE ≠ 3 ∧ s.chip.pwr.resetLow = false ∧ s.chip.thm.tripped = false) ∧
    (∃ (t : Nat) (s : State), s.chip.pwr.off = false) ∧
    (∃ (t : Nat) (s : State), s.chip.pwr.resetLow = true) ∧
    (∃ (t : Nat) (env : BootEnv) (s : State), (s.chip.pwr.booting = false ∨ env.testEn = true ∧ (s.chip.pwr.resetLow || s.chip.pwr.off) = true)) ∧
    (∃ (t : Nat) (env : BootEnv) (s : State), s.chip.pwr.booting = true ∧ env.testEn = false ∧ s.chip.pwr.resetLow = false ∧ s.chip.thm.tripped = true ∧ s.chip.thm.coolAt = none) ∧
    (∃ (t : Nat) (env : BootEnv) (s : State), s.chip.pwr.booting = true ∧ env.testEn = false ∧ s.chip.pwr.resetLow = false ∧ s.chip.thm.tripped = false ∧ s.chip.on F.OTP_STAT_SCAN_DONE = true ∧ s.chip.get F.SEC_LC_IN_FORCE = 4 ∧ s.chip.get F.SEC_PHASE_PHASE = 0 ∧ s.chip.on F.STR_STAT_ACTIVE_VALID = false ∧ s.chip.mem.waiting = []) :=
  ⟨⟨5, (0x5A3C0001 : Word), ((base.put F.CMP_WARN_WARN 3).put F.PWR_STAT_STATE 1).put F.THM_TRIP_COUNT 2, by decide +kernel⟩,
   ⟨5, (0x5A3C0000 : Word), base, by decide +kernel⟩,
   ⟨5, base.put F.CMP_WARN_WARN 3, by decide +kernel⟩,
   ⟨5, (base.put F.CMP_WARN_WARN 3).put F.THM_TRIP_COUNT 2, by decide +kernel⟩,
   ⟨5, (base.put F.CMP_WARN_WARN 3).on (fun c => c.setPwr { c.pwr with resetLow := true }), by decide +kernel⟩,
   ⟨5, (⟨0, false, false, 0, 0, [], false⟩ : BootEnv), base.on (fun c => c.setPwr { c.pwr with booting := false }), by decide +kernel⟩,
   ⟨5, (⟨0, false, false, 0, 0, [], false⟩ : BootEnv), base.on (fun c => { c with thm := { c.thm with tripped := true } }), by decide +kernel⟩,
   ⟨5, (⟨0, false, false, 0, 0, [], false⟩ : BootEnv), ({ (State.reset.put F.SEC_LC_IN_FORCE 4).put F.OTP_STAT_SCAN_DONE 1 with store := { mem := [(0x800010, 7)] } } : State).on (fun c => c.setPwr { c.pwr with cause := 16 }), by decide +kernel⟩⟩

theorem witness_ServiceFirmwareRestarts :
    (∃ (t : Nat) (s : State), s.chip.sys.fwUp = true ∧ s.chip.sys.tcUp = true ∧ s.chip.up 1 = true ∧ s.chip.up 2 = true) ∧
    (∃ (t : Nat) (s : State), s.chip.sys.fwDeferred = true ∧ s.chip.sys.tcUp = true ∧ s.chip.up 2 = true ∧ s.chip.sys.fwCopy = true ∧ s.chip.on F.TRK_STAT_RUN = false) ∧
    (∃ (t : Nat) (s : State), s.chip.sys.fwDeferred = false) :=
  ⟨⟨5, base.on (fun c => c.setSys { c.sys with fwUp := true, fwCopy := true, tcUp := true }), by decide +kernel⟩,
   ⟨5, base.on (fun c => c.setSys { c.sys with fwDeferred := true, fwCopy := true, tcUp := true }), by decide +kernel⟩,
   ⟨5, base, by decide +kernel⟩⟩

end FamB

namespace FamC

def encOn : State := (base.put F.POS_ENC_CFG_EN 1 1)
def srcs (s : State) : State := (List.range 8).foldl (fun s n => s.put F.POS_CMP_CFG_SRC 2 n) s
def held (d : Bool) : State := (srcs encOn).on (fun c => c.setEnc 1 { c.enc 1 with held := true, dir := some d, pos := 5 })
def moving (d : Bool) : State := (srcs encOn).on (fun c => c.setEnc 1 { c.enc 1 with dir := some d, pos := 5 })

theorem witness_EncoderChannels :
    (∃ (t : Nat) (x : Fin 2) (a b : Bool) (first run : Nat) (fwd : Bool) (s : State), s.chip.up 6 = true ∧ 2 * s.chip.get F.POS_ENC_CFG_SIEVE_N x ≤ run ∧ s.chip.on F.POS_ENC_CFG_EN x = true ∧ s.chip.get F.POS_ENC_STAT_WIRE_ACT x = 0 ∧ (((s.chip.enc x).a ≠ a ∧ (s.chip.enc x).b = b ∨ (s.chip.enc x).a = a ∧ (s.chip.enc x).b ≠ b)) ∧ s.chip.get F.POS_ENC_CPR_CPR x = 0 ∧ s.chip.hallOn = false ∧ s.chip.on F.POS_MARK_CFG_EN 0 = false ∧ s.chip.on F.POS_MARK_CFG_EN 1 = false ∧ s.chip.on F.POS_ENCO_CFG_EN = false ∧ s.chip.trkOn = false ∧ s.chip.cal.thr[x] = none ∧ (∀ n : Fin 8, s.chip.get F.POS_CMP_CFG_SRC n ≠ x.val) ∧ fwd = ((((s.chip.enc x).a != a) == ((s.chip.enc x).a == (s.chip.enc x).b)) != s.chip.on F.POS_ENC_CFG_DIR_INV x)) ∧
    (∃ (t : Nat) (x : Fin 2) (a b : Bool) (first run : Nat) (s : State), s.chip.up 6 = true ∧ 2 * s.chip.get F.POS_ENC_CFG_SIEVE_N x ≤ run ∧ s.chip.on F.POS_ENC_CFG_EN x = true ∧ s.chip.get F.POS_ENC_STAT_WIRE_ACT x = 0 ∧ (s.chip.enc x).a ≠ a ∧ (s.chip.enc x).b ≠ b) ∧
    (∃ (t : Nat) (x : Fin 2) (level : Bool) (run : Nat) (s : State), s.chip.up 6 = true ∧ 2 * s.chip.get F.POS_ENC_CFG_SIEVE_N x ≤ run ∧ s.chip.on F.POS_ENC_CFG_EN x = true ∧ s.chip.get F.POS_ENC_CPR_CPR x ≠ 0 ∧ bitAt (s.chip.get F.POS_ENC_STAT_WIRE_ACT x) 2 = false ∧ (s.chip.enc x).z ≠ level ∧ (s.chip.enc x).dir = some (level != s.chip.on F.POS_ENC_CFG_Z_POL x) ∧ (s.chip.enc x).ref = none ∧ s.chip.get F.POS_ENCO_CFG_SRC ≠ x.val ∧ s.chip.trkOn = false) ∧
    (∃ (t : Nat) (x : Fin 2) (sig : Fin 3) (s : State), s.chip.trkOn = false ∧ s.chip.on F.POS_ENC_CFG_EN x = false) ∧
    (∃ (t : Nat) (x : Fin 2) (sig : Fin 3) (s : State), s.chip.up 6 = true ∧ s.chip.trkOn = false ∧ s.chip.on F.POS_ENC_CFG_EN x = true) ∧
    (∃ (t : Nat) (x : Fin 2) (sig : Fin 3) (s : State), s.chip.up 6 = true ∧ s.chip.trkOn = false) ∧
    (∃ (t : Nat) (i : Initiator) (x : Fin 2) (w : Word) (s : State), s.chip.mayWrite i (R.POS_ENC_CFG.at x 0) ∧ s.chip.on F.POS_ENC_CFG_EN x = false ∧ s.chip.switchState = 0 ∧ s.chip.calBusy = false) ∧
    (∃ (t : Nat) (i : Initiator) (x : Fin 2) (w : Word) (s : State), s.chip.mayWrite i (R.POS_ENC_STAT.at x 0) ∧ s.chip.get F.POS_ENC_STAT_WIRE_ACT x % 4 = 0) :=
  ⟨⟨ns 9, (1 : Fin 2), (true : Bool), (false : Bool), ns 7, 100000, (true : Bool), srcs encOn, by decide +kernel⟩,
   ⟨ns 9, (1 : Fin 2), (true : Bool), (true : Bool), ns 7, 100000, encOn, by decide +kernel⟩,
   ⟨ns 9, (1 : Fin 2), (true : Bool), 100000, (encOn.put F.POS_ENC_CPR_CPR 1000 1).on (fun c => c.setEnc 1 { c.enc 1 with dir := some true, pos := 77 }), by decide +kernel⟩,
   ⟨ns 9, (0 : Fin 2), (0 : Fin 3), encOn, by decide +kernel⟩,
   ⟨ns 9, (1 : Fin 2), (1 : Fin 3), encOn, by decide +kernel⟩,
   ⟨ns 9, (1 : Fin 2), (2 : Fin 3), encOn.put F.POS_ENC_STAT_WIRE_ACT 7 1, by decide +kernel⟩,
   ⟨ns 9, (.jc0 : Initiator), (1 : Fin 2), (0 : Word), base.on (fun c => c.setEnc 1 { c.enc 1 with dir := some true, pos := 77 }), by decide +kernel⟩,
   ⟨ns 9, (.jc0 : Initiator), (1 : Fin 2), (0 : Word), (encOn.put F.POS_ENC_STAT_ENC_FAULT 1 1).put F.POS_ENC_STAT_FC_WIRE 1 1, by decide +kernel⟩⟩

theorem witness_HallAndMarks :
    (∃ (t : Nat) (i : Initiator) (x : Fin 2) (s : State), s.chip.mayRead i (R.POS_ENC_POS_LO.at x 0)) ∧
    (∃ (t j run : Nat) (i k : Nat) (s : State), s.chip.up 6 = true ∧ 2 * s.chip.get F.POS_HALL_CFG_SIEVE_N ≤ run ∧ s.chip.trkOn = false ∧ hallIndex s.chip.pos.hall.state = some i ∧ hallIndex (j % 8) = some k ∧ k = (i + 1) % 6 ∧ s.chip.on F.POS_HALL_CFG_DIR_INV = false ∧ s.chip.pos.hall.dir ≠ some true) ∧
    (∃ (t j run : Nat) (s : State), s.chip.up 6 = true ∧ 2 * s.chip.get F.POS_HALL_CFG_SIEVE_N ≤ run ∧ s.chip.trkOn = false ∧ (j % 8 = 0 ∨ j % 8 = 7)) ∧
    (∃ (t : Nat) (y : Fin 2) (rising : Bool) (first run : Nat) (r : MarkRec) (s : State), s.chip.up 6 = true ∧ 2 * s.chip.get F.POS_MARK_CFG_SIEVE_N y ≤ run ∧ s.chip.on F.POS_MARK_CFG_EN y = true ∧ s.chip.get F.POS_MARK_CFG_EDGE y = 2 ∧ s.chip.on F.POS_MARK_CFG_WIN_EN y = false ∧ s.chip.calBusy = false ∧ (s.chip.pos.mark[y]).fifo.length < 16 ∧ r = ⟨stamp first (s.chip.get F.POS_RXDLY_SE_DLY), (s.chip.enc (s.chip.markEnc y)).pos, rising, false, y.val⟩) ∧
    (∃ (t : Nat) (i : Initiator) (y : Fin 2) (r : MarkRec) (rest : List MarkRec) (s : State), s.chip.mayRead i (R.POS_MARK_POS.at y 0) ∧ (s.chip.pos.mark[y]).fifo = r :: rest) ∧
    (∃ (t : Nat) (i : Initiator) (y : Fin 2) (s : State), s.chip.mayRead i (R.POS_MARK_POS.at y 0) ∧ (s.chip.pos.mark[y]).fifo = []) :=
  ⟨⟨ns 9, (.host : Initiator), (1 : Fin 2), encOn.on (fun c => c.setEnc 1 { c.enc 1 with ts := 2^33+5, pos := -77 }), by decide +kernel⟩,
   ⟨ns 9, 3, 100000, 0, 1, base.on (fun c => { c with pos := { c.pos with hall := { c.pos.hall with state := 1 } } }), by decide +kernel⟩,
   ⟨ns 9, 7, 100000, base.on (fun c => { c with pos := { c.pos with hall := { c.pos.hall with state := 1 } } }), by decide +kernel⟩,
   ⟨ns 90000, (1 : Fin 2), (true : Bool), ns 89000, 100000, (⟨stamp (ns 89000) (base.chip.get F.POS_RXDLY_SE_DLY), 0, true, false, 1⟩ : MarkRec), (base.put F.POS_MARK_CFG_EN 1 1).put F.POS_MARK_CFG_EDGE 2 1, by decide +kernel⟩,
   ⟨ns 90000, (.dma : Initiator), (1 : Fin 2), (⟨5, -3, true, false, 1⟩ : MarkRec), ([] : List MarkRec), base.on (fun c => c.setMark 1 { c.pos.mark[1] with fifo := [⟨5, -3, true, false, 1⟩] }), by decide +kernel⟩,
   ⟨ns 90000, (.dma : Initiator), (1 : Fin 2), base, by decide +kernel⟩⟩

theorem witness_EncoAndCompareOutputs :
    (∃ (t : Nat) (s : State), s.chip.up 6 = true ∧ s.chip.on F.POS_ENCO_CFG_EN = true ∧ s.chip.get F.POS_ENCO_CFG_SRC ≠ 2 ∧ s.chip.pos.enco.backlog ≠ 0 ∧ s.chip.pos.enco.due ≤ max s.chip.now t ∧ s.chip.get F.POS_ENCO_CFG_Z_MODE = 0) ∧
    (∃ (t : Nat) (i : Initiator) (w : Word) (s : State), s.chip.mayWrite i R.POS_ENCO_RATIO.addr ∧ s.chip.switchState = 0 ∧ s.chip.calBusy = false ∧ fld F.POS_ENCO_RATIO_N w.toNat ≠ 0 ∧ fld F.POS_ENCO_RATIO_M w.toNat ≠ 0) ∧
    (∃ (t : Nat) (i : Initiator) (w : Word) (s : State), s.chip.mayWrite i R.POS_ENCO_RATIO.addr ∧ (fld F.POS_ENCO_RATIO_N w.toNat = 0 ∨ fld F.POS_ENCO_RATIO_M w.toNat = 0)) ∧
    (∃ (t : Nat) (i : Initiator) (n : Fin 8) (w : Word) (e : Int) (s : State), s.chip.mayWrite i (R.POS_CMP_ENT_HI.at n 0) ∧ s.chip.on F.POS_CMP_CFG_OWNER n = false ∧ fld F.POS_CMP_ENT_HI_ACTION w.toNat = 0 ∧ (s.chip.pos.out[n]).list.length < 64 ∧ (s.chip.pos.out[n]).list ≠ [] ∧ e = signed 48 (fld F.POS_CMP_ENT_HI_POS_HI w.toNat * 2 ^ 32 + s.chip.latched (R.POS_CMP_ENT_LO.at n 0) (initNo i))) ∧
    (∃ (t : Nat) (i : Initiator) (n : Fin 8) (w : Word) (s : State), s.chip.mayWrite i (R.POS_CMP_ENT_HI.at n 0) ∧ s.chip.on F.POS_CMP_CFG_OWNER n = true) ∧
    (∃ (t : Nat) (n : Fin 8) (e : Int) (s : State), s.chip.up 6 = true ∧ s.chip.on F.POS_CMP_CFG_EN n = true ∧ s.chip.get F.POS_CMP_CFG_SRC n = 0 ∧ (s.chip.pos.out[n]).list = [(e, .set)] ∧ e ≤ (s.chip.enc 0).pos ∧ (s.chip.pos.out[n]).prev ≤ (s.chip.enc 0).pos) ∧
    (∃ (t e : Nat) (n : Fin 8) (s : State), s.chip.up 6 = true ∧ (s.chip.pos.out[n]).pulseEnd = some e ∧ e ≤ max s.chip.now t) ∧
    (∃ (t : Nat) (i : Initiator) (n : Fin 8) (w : Word) (s : State), s.chip.mayWrite i (R.POS_CMP_CFG.at n 0) ∧ s.chip.switchState = 0 ∧ s.chip.calBusy = false ∧ s.chip.on F.POS_CMP_CFG_EN n = true ∧ fld F.POS_CMP_CFG_EN w.toNat = 0) ∧
    (∃ (t : Nat) (i : Initiator) (n : Fin 8) (w : Word) (s : State), s.chip.mayWrite i (R.POS_CMP_CFG.at n 0) ∧ s.chip.switchState = 0 ∧ s.chip.calBusy = false ∧ s.chip.on F.POS_CMP_CFG_EN n = false ∧ fld F.POS_CMP_CFG_EN w.toNat = 1 ∧ (s.chip.pos.out[n]).list = []) ∧
    (∃ (t : Nat) (i : Initiator) (n : Fin 8) (s : State), s.chip.mayWrite i (R.POS_CMP_FLUSH.at n 0)) :=
  ⟨⟨ns 9, (base.put F.POS_ENCO_CFG_EN 1).on (fun c => c.setEnco { c.pos.enco with backlog := -2, due := ns 3, spacing := 7 }), by decide +kernel⟩,
   ⟨ns 9, (.host : Initiator), (0x00030002 : Word), base, by decide +kernel⟩,
   ⟨ns 9, (.host : Initiator), (0x00030000 : Word), base, by decide +kernel⟩,
   ⟨ns 9, (.host : Initiator), (3 : Fin 8), (0xFFFF : Word), (-2^32 : Int), base.on (fun c => c.setOut 3 { c.pos.out[3] with list := [(9, .set)] }), by decide +kernel⟩,
   ⟨ns 9, (.host : Initiator), (3 : Fin 8), (0xFFFF : Word), base.put F.POS_CMP_CFG_OWNER 1 3, by decide +kernel⟩,
   ⟨ns 9, (3 : Fin 8), (0 : Int), (base.put F.POS_CMP_CFG_EN 1 3).on (fun c => c.setOut 3 { c.pos.out[3] with list := [(0, .set)], prev := -1 }), by decide +kernel⟩,
   ⟨ns 9, ns 5, (3 : Fin 8), base.on (fun c => c.setOut 3 { c.pos.out[3] with active := true, pulseEnd := some (ns 5) }), by decide +kernel⟩,
   ⟨ns 9, (.jc1 : Initiator), (3 : Fin 8), (0 : Word), base.put F.POS_CMP_CFG_EN 1 3, by decide +kernel⟩,
   ⟨ns 9, (.jc1 : Initiator), (3 : Fin 8), (1 : Word), base, by decide +kernel⟩,
   ⟨ns 9, (.jc1 : Initiator), (3 : Fin 8), base.on (fun c => c.setOut 3 { c.pos.out[3] with list := [(9, .set)] }), by decide +kernel⟩⟩

end FamC

namespace FamD

def trk (s : State) : State := (s.put F.TRK_CTRL_EN 1).put F.TRK_STAT_ACTIVE 0
def runs (v : Rat) : State := ((((trk base).put F.TRK_VMIN_VMIN 1).inForce F.TRK_VMIN_VMIN).on (fun c => { c with trk := { c.trk with v := v, lastLine := 41, x := 40, tx := 0 } }))

theorem witness_LineEventsIssue :
    (∃ (t : Nat) (s : State), s.chip.up 6 = true ∧ s.chip.trkOn = true ∧ s.chip.on F.TRK_STAT_NO_SOURCE = false ∧ s.chip.rate < (s.chip.inForce F.TRK_VMIN_VMIN : Rat)) ∧
    (∃ (t : Nat) (n : Int) (s : State), s.chip.up 6 = true ∧ s.chip.mayIssue = true ∧ n = s.chip.trk.lastLine + 1 ∧ (s.chip.inForce F.TRK_LEAD_LEAD : Rat) * (s.chip.period64 : Rat) / (64 : Nat) + (500 : Nat) < s.chip.clampedE (s.chip.timeOf n - (s.chip.tauMax : Rat)) - (s.chip.at t).nowQ) ∧
    (∃ (t : Nat) (n : Int) (e : Rat) (s : State), s.chip.up 6 = true ∧ s.chip.mayIssue = true ∧ n = s.chip.trk.lastLine + 1 ∧ s.chip.dirty = [] ∧ s.chip.switchState = 0 ∧ s.chip.partDue 0 = false ∧ e = s.chip.timeOf n - (s.chip.tauMax : Rat) ∧ s.chip.clampedE e - (s.chip.at t).nowQ ≤ (s.chip.inForce F.TRK_LEAD_LEAD : Rat) * (s.chip.period64 : Rat) / (64 : Nat) + (500 : Nat) ∧ s.chip.xAt (maxQ (s.chip.clampedE e) (s.chip.at t).nowQ + (s.chip.tauMax : Rat)) < (n : Rat) + 1 / 2) ∧
    (∃ (t : Nat) (n : Int) (e : Rat) (s : State), s.chip.up 6 = true ∧ s.chip.mayIssue = true ∧ n = s.chip.trk.lastLine + 1 ∧ s.chip.dirty = [] ∧ s.chip.switchState = 0 ∧ s.chip.partDue 0 = false ∧ e = s.chip.timeOf n - (s.chip.tauMax : Rat) ∧ s.chip.clampedE e - (s.chip.at t).nowQ ≤ (s.chip.inForce F.TRK_LEAD_LEAD : Rat) * (s.chip.period64 : Rat) / (64 : Nat) + (500 : Nat) ∧ (n : Rat) + 1 / 2 ≤ s.chip.xAt (maxQ (s.chip.clampedE e) (s.chip.at t).nowQ + (s.chip.tauMax : Rat))) :=
  ⟨⟨ns 5, (runs 0).put F.TRK_STAT_RUN 1, by decide +kernel⟩,
   ⟨ns 5, (661 : Int), (runs (1/1000000)).on (fun c => { c with trk := { c.trk with lastLine := 660 } }), by decide +kernel⟩,
   ⟨ns 1999000, (42 : Int), ((2000000 - (base.chip.tauMax : Rat)) : Rat), runs (1/1000000), by decide +kernel⟩,
   ⟨ns 2600000, (42 : Int), ((2000000 - (base.chip.tauMax : Rat)) : Rat), runs (1/1000000), by decide +kernel⟩⟩

theorem witness_TrackingUnit :
    (∃ (t : Nat) (i : Initiator) (w : Word) (s : State), s.chip.mayWrite i R.TRK_CTRL.addr ∧ s.chip.trkOn = false ∧ s.chip.switchState = 0 ∧ s.chip.calBusy = false ∧ s.chip.healthy (s.chip.get F.TRK_SRC_PRI) = true ∧ s.chip.get F.TRK_SRC_PRI < 2) ∧
    (∃ (t : Nat) (i : Initiator) (w : Word) (s : State), s.chip.mayWrite i R.TRK_SRC.addr ∧ s.chip.trkOn = true ∧ s.chip.switchState = 0 ∧ s.chip.calBusy = false ∧ fld F.TRK_SRC_PRI w.toNat = s.chip.get F.TRK_SRC_PRI ∧ fld F.TRK_SRC_FB w.toNat = s.chip.get F.TRK_SRC_FB ∧ s.chip.active < 3 ∧ s.chip.otherSource < 2 ∧ s.chip.healthy s.chip.otherSource = true) ∧
    (∃ (t : Nat) (i : Initiator) (w : Word) (s : State), s.chip.mayWrite i R.TRK_SRC.addr ∧ s.chip.trkOn = false ∧ s.chip.switchState = 0 ∧ s.chip.calBusy = false) ∧
    (∃ (t : Nat) (m : Fin 2) (s : State), s.chip.up 6 = true ∧ s.chip.trkOn = true ∧ s.chip.activeSource = 2 + m.val ∧ s.chip.trk.fabBad[m] = false ∧ s.chip.trk.fabAt[m] + us (s.chip.get F.TRK_FAB_TIME_TO) ≤ max s.chip.now t ∧ s.chip.otherSource < 2 ∧ s.chip.healthy s.chip.otherSource = true) ∧
    (∃ (t : Nat) (s : State), s.chip.up 6 = true ∧ s.chip.trkOn = true ∧ s.chip.on F.TRK_STAT_COAST = true ∧ s.chip.on F.TRK_STAT_NO_SOURCE = false ∧ s.chip.trk.coastAt + us (s.chip.get F.TRK_COAST_MAX_COAST_MAX) ≤ max s.chip.now t) ∧
    (∃ (t : Nat) (n : Int) (tn : Rat) (rest : List (Int × Rat)) (s : State), s.chip.up 6 = true ∧ s.chip.trk.checks = (n, tn) :: rest ∧ absQ ((s.chip.xAt tn - (n : Rat)) * (64 : Nat)) ≤ (s.chip.get F.TRK_PLACE_TOL_TOL : Rat)) ∧
    (∃ (t : Nat) (s : State), s.chip.up 6 = true ∧ s.chip.trkOn = true ∧ s.chip.on F.TRK_BCAST_EN = true) ∧
    (∃ (t e : Nat) (s : State), s.chip.up 6 = true ∧ s.chip.trk.spreqHold = some e ∧ e ≤ max s.chip.now t) ∧
    (∃ (t : Nat) (i : Initiator) (s : State), s.chip.mayRead i R.TRK_POS_LO.addr) ∧
    (∃ (t : Nat) (i : Initiator) (s : State), s.chip.mayRead i R.TRK_LINE_LO.addr) :=
  ⟨⟨ns 5, (.tc : Initiator), (0 : Word), base.put F.TRK_START_LO_START_LO 0x78000, by decide +kernel⟩,
   ⟨ns 5, (.jc0 : Initiator), (((runs 0).put F.TRK_SRC_FB 1).chip.word R.TRK_SRC.addr : Word), ((runs 0).put F.TRK_SRC_FB 1), by decide +kernel⟩,
   ⟨ns 5, (.jc0 : Initiator), (0 : Word), base, by decide +kernel⟩,
   ⟨ns 500000000, (0 : Fin 2), (((runs 0).put F.TRK_SRC_PRI 2).put F.TRK_SRC_FB 1).put F.TRK_STAT_ACTIVE 2, by decide +kernel⟩,
   ⟨ns 500000000, (runs 0).put F.TRK_STAT_COAST 1, by decide +kernel⟩,
   ⟨ns 500000000, (40 : Int), (0 : Rat), ([] : List (Int × Rat)), (runs 0).on (fun c => { c with trk := { c.trk with checks := [(40, 0)] } }), by decide +kernel⟩,
   ⟨ns 5, (runs 0).put F.TRK_BCAST_EN 1, by decide +kernel⟩,
   ⟨ns 5, ns 3, (runs 0).on (fun c => { c with trk := { c.trk with spreqHold := some (ns 3) } }), by decide +kernel⟩,
   ⟨ns 5, (.host : Initiator), runs (1/1000000), by decide +kernel⟩,
   ⟨ns 5, (.host : Initiator), runs (1/1000000), by decide +kernel⟩⟩

end FamD

namespace FamE

def ddr : State := ((base.put F.DDR_STAT_READY 1).put F.DDR_STAT_SIZE 4).put F.CMP_IQ_BASE_HI_ADDR 0x10
def hdr : List Byte := (leBytes 8 0x1122334455667788) ++ leBytes 24 0x0005000000030000
def inMem (s : State) : State := { s with store := s.store.write 0x1000000000 hdr }
def it (a : Nat) (sf : Nat) : Item := { slot := 0, id := 5, lane := 3, anchor := a, startField := sf, lines := 10, stage := .waiting, pitch := 4, width := 8, markSel := 1 }
def en (l : List Item) (w : Int) : State := (base.put F.CMP_CTRL_EN 1).on (fun c => { c with cmp := { c.cmp with items := l, w := w } })
def lined (s : State) : State := s.on (fun c => { c with trk := { c.trk with events := [⟨100, 0, 64, false, false, false, false⟩] } })
def compo : State := (List.range 8).foldl (fun s k => s.put F.CMP_LANE_GEO_WIDTH 0 k) (en [] 5)
def asm : State := (((base.put F.COL_PORT_EN 1 2).put F.HP_STAT_STATE 5 2).put F.TRK_CTRL_EN 1).put F.COL_PSTAT_FIRES 3 2

theorem witness_ItemsEnterAndArePlaced :
    (∃ (t : Nat) (i : Initiator) (addr : Nat) (l : List Nat) (s : State), s.chip.mayWrite i R.CMP_IQ_WR.addr ∧ s.chip.switchState = 0 ∧ s.chip.calBusy = false ∧ s.chip.on F.CMP_CTRL_EN = false ∧ s.chip.ddrReady = true ∧ (∀ w : Fin 8, s.chip.on F.DDR_WIN_PERM_EN w = false) ∧ addr = s.chip.get F.CMP_IQ_BASE_LO_ADDR * 4096 + s.chip.get F.CMP_IQ_BASE_HI_ADDR * 2 ^ 32 + 4096 * (s.chip.get F.CMP_IQ_WR_WR % 1024) ∧ s.chip.inDdr addr 32 = true ∧ l = (s.store.read addr 32).map BitVec.toNat) ∧
    (∃ (t : Nat) (lane : Fin 8) (a : Item) (s : State), s.chip.up 5 = true ∧ s.chip.on F.CMP_CTRL_EN = true ∧ s.chip.cmp.items = [a] ∧ a.lane = lane.val ∧ a.stage = .waiting ∧ a.anchor = 0 ∧ s.chip.cmp.w ≤ a.startField) ∧
    (∃ (t : Nat) (lane : Fin 8) (a : Item) (s : State), s.chip.up 5 = true ∧ s.chip.on F.CMP_CTRL_EN = true ∧ s.chip.cmp.items = [a] ∧ a.lane = lane.val ∧ a.stage = .waiting ∧ a.anchor = 0 ∧ (a.startField : Int) < s.chip.cmp.w ∧ s.chip.get F.LDL_SW_STAT_BOUND = 0) ∧
    (∃ (t : Nat) (lane : Fin 8) (a : Item) (s : State), s.chip.up 5 = true ∧ s.chip.on F.CMP_CTRL_EN = true ∧ s.chip.cmp.items = [a] ∧ a.lane = lane.val ∧ a.stage = .waiting ∧ a.anchor = 1 ∧ s.chip.cmp.laneStart[lane] = some (s.chip.cmp.w : Int)) :=
  ⟨⟨5, (.jc0 : Initiator), 0x1000000000, (hdr.map BitVec.toNat : List Nat), inMem ddr, by decide +kernel⟩,
   ⟨5, (3 : Fin 8), (it 0 50 : Item), en [it 0 50] 3, by decide +kernel⟩,
   ⟨5, (3 : Fin 8), (it 0 50 : Item), en [it 0 50] 53, by decide +kernel⟩,
   ⟨5, (3 : Fin 8), (it 1 50 : Item), (en [it 1 50] 53).on (fun c => { c with cmp := { c.cmp with laneStart := c.cmp.laneStart.set 3 (some 53) } }), by decide +kernel⟩⟩

theorem witness_MarksPlaceItems :
    (∃ (t : Nat) (r : MarkRec) (rest : List MarkRec) (s : State), s.chip.up 5 = true ∧ s.chip.pos.markWay = r :: rest ∧ r.outside = false ∧ s.chip.cmp.items = [] ∧ s.chip.cmp.notes = []) ∧
    (∃ (t : Nat) (r : MarkRec) (rest : List MarkRec) (s : State), s.chip.pos.markWay = r :: rest ∧ (r.outside = true ∨ s.chip.up 5 = false)) ∧
    (∃ (t : Nat) (r : MarkRec) (a : Item) (l : Rat) (s : State), s.chip.up 5 = true ∧ s.chip.on F.CMP_CTRL_EN = true ∧ s.chip.pos.markWay = [r] ∧ r.outside = false ∧ s.chip.cmp.items = [a] ∧ a.stage = .waiting ∧ a.anchor = 2 ∧ a.lane = 3 ∧ a.markSel = r.input ∧ s.chip.twin = false ∧ s.chip.cmp.notes = [] ∧ s.chip.cmp.laneMarks = Vector.replicate 8 [] ∧ s.chip.lineAt ((r.ts : Rat) / (2 : Nat)) = some l ∧ s.chip.cmp.laneEnd[3] = none ∧ s.chip.cmp.w ≤ (l + (a.markOfs : Rat) / (64 : Nat) + 1 / 2).floor) ∧
    (∃ (t y : Nat) (ref : Int) (rest : List (Nat × Int)) (s : State), s.chip.up 5 = true ∧ s.chip.pos.missWay = (y, ref) :: rest ∧ s.chip.cmp.items = []) ∧
    (∃ (t y : Nat) (ref : Int) (a : Item) (l : Rat) (s : State), s.chip.up 5 = true ∧ s.chip.on F.CMP_CTRL_EN = true ∧ s.chip.pos.missWay = [(y, ref)] ∧ s.chip.cmp.items = [a] ∧ a.stage = .waiting ∧ a.anchor = 2 ∧ a.lane = 3 ∧ a.markSel = y ∧ a.missPol = 0 ∧ s.chip.twin = false ∧ (s.chip.at t).referenceLine y ref = some l ∧ s.chip.cmp.laneEnd[3] = none ∧ s.chip.cmp.w ≤ candidate l a.markOfs) ∧
    (∃ (t id : Nat) (start : Int) (s : State), s.chip.up 5 = true ∧ s.chip.cmp.items = []) :=
  ⟨⟨5, (⟨7, 1, true, false, 1⟩ : MarkRec), ([] : List MarkRec), base.on (fun c => { c with pos := { c.pos with markWay := [⟨7, 1, true, false, 1⟩] } }), by decide +kernel⟩,
   ⟨5, (⟨7, 1, true, true, 1⟩ : MarkRec), ([] : List MarkRec), base.on (fun c => { c with pos := { c.pos with markWay := [⟨7, 1, true, true, 1⟩] } }), by decide +kernel⟩,
   ⟨5, (⟨700, 1, true, false, 1⟩ : MarkRec), (it 2 0 : Item), (((((lined (en [] 0)).chip.lineAt 350).getD 0)) : Rat), (lined (en [it 2 0] 3)).on (fun c => { c with pos := { c.pos with markWay := [⟨700, 1, true, false, 1⟩] } }), by decide +kernel⟩,
   ⟨5, 1, (4 : Int), ([] : List (Nat × Int)), base.on (fun c => { c with pos := { c.pos with missWay := [(1,4)] } }), by decide +kernel⟩,
   ⟨ns 350, 1, (4 : Int), (it 2 0 : Item), (((((lined (en [] 0)).chip.at (ns 350)).referenceLine 1 4).getD 0) : Rat), (lined (en [it 2 0] 3)).on (fun c => { c with pos := { c.pos with missWay := [(1,4)] } }), by decide +kernel⟩,
   ⟨5, 7, (99 : Int), base, by decide +kernel⟩⟩

theorem witness_ComposingAndAssembling :
    (∃ (t : Nat) (i : Initiator) (w : Word) (s : State), s.chip.mayWrite i R.CMP_CTRL.addr ∧ s.chip.switchState = 0 ∧ s.chip.calBusy = false ∧ s.chip.on F.CMP_CTRL_EN = false ∧ s.chip.cmp.items = []) ∧
    (∃ (t : Nat) (i : Initiator) (w : Word) (s : State), s.chip.mayWrite i R.CMP_CTRL.addr ∧ s.chip.switchState = 0 ∧ s.chip.calBusy = false ∧ s.chip.on F.CMP_CTRL_EN = true) ∧
    (∃ (t : Nat) (s : State), s.chip.up 5 = true ∧ s.chip.mayCompose = true ∧ ((∀ a ∈ s.chip.cmp.items, a.stage ≠ .placed ∨ s.chip.cmp.w < a.start ∨ a.start + (a.lines : Int) ≤ s.chip.cmp.w)) ∧ (∀ p : Fin 8, s.chip.on F.CMP_TP_EN p = false)) ∧
    (∃ (t : Nat) (s : State), s.chip.up 5 = true ∧ s.chip.mayCompose = true ∧ s.chip.cmp.items = [] ∧ s.chip.ddrReady = true ∧ s.chip.on F.CMP_TP_EN 0 = true ∧ ((∀ p : Fin 8, p.val ≠ 0 → s.chip.on F.CMP_TP_EN p = false)) ∧ (∀ ch : Fin 6, s.chip.inDdr (s.chip.ringAddr 0 ch s.chip.cmp.w) 320 = true) ∧ (∀ w : Fin 8, s.chip.on F.DDR_WIN_PERM_EN w = false)) ∧
    (∃ (t : Nat) (k : Fin 8) (n : Int) (s : State), s.chip.up 5 = true ∧ s.chip.assembles k = true ∧ s.chip.nextLine k = some n ∧ s.chip.switchState = 0 ∧ s.chip.col.stby = [] ∧ (s.chip.port k).queue.length < 32 ∧ s.chip.flw.wantTake = []) ∧
    (∃ (t : Nat) (i : Initiator) (s : State), s.chip.mayRead i R.CMP_FRONT_LO.addr) ∧
    (∃ (t : Nat) (i : Initiator) (s : State), s.chip.mayRead i R.CMP_ASM_LO.addr) :=
  ⟨⟨5, (.jc0 : Initiator), (0 : Word), base, by decide +kernel⟩,
   ⟨5, (.jc0 : Initiator), (0 : Word), en [it 0 50] 3, by decide +kernel⟩,
   ⟨5, compo, by decide +kernel⟩,
   ⟨5, (((compo.put F.CMP_TP_EN 1).put F.DDR_STAT_READY 1).put F.DDR_STAT_SIZE 4).put F.CMP_RING_BASE_HI_ADDR 0x10, by decide +kernel⟩,
   ⟨5, (2 : Fin 8), (((asm.chip.nextLine 2).getD 0) : Int), asm, by decide +kernel⟩,
   ⟨5, (.host : Initiator), compo, by decide +kernel⟩,
   ⟨5, (.host : Initiator), compo, by decide +kernel⟩⟩

end FamE

namespace FamF

def notice (m : ModeNotice) : State := base.on (fun c => { c with col := { c.col with notices := [m] } })
def stbyOk : State := (((base.put F.COL_STBY_ARM 1 2).put F.COL_PORT_MODE 3 2).put F.CMP_TP_EN 1 1).put F.COL_STBY_LINE_LO_LINE_LO 50
def stbyW : Word := BitVec.ofNat 32 (withBits (withBits 0 F.COL_STBY_CMD_PORT.hi F.COL_STBY_CMD_PORT.lo 2) F.COL_STBY_CMD_TARGET.hi F.COL_STBY_CMD_TARGET.lo 1)
def dead (m : Nat) : DntEntry := { idx := 4, port := 2, ic := 1, col := 600, kind := 0, method := m, source := 2, state := 0 }
def asked : DntEntry := { dead 2 with stage := .asked, asks := 2, wait := [⟨9, 1, 600, true⟩], deadline := 4 }
def dnt (l : List DntEntry) (s : State) : State := s.on (fun c => { c with col := { c.col with dnt := l } })
def tile : State := (base.put F.COL_PORT_EN 1 2).put F.COL_PORT_TP 1 2

theorem witness_ModesAndStandby :
    (∃ (t : Nat) (m : ModeNotice) (r : List ModeNotice) (n : Int) (s : State), s.chip.up 5 = true ∧ s.chip.col.notices = m :: r ∧ n = (match (s.chip.port m.port).xferTop with | none => m.line | some l => if l < m.line then m.line else l + 1) ∧ m.every = false ∧ s.chip.firesNow m.port ≠ 3 ∧ s.chip.homeSet m.port ≠ 3 ∧ s.chip.on F.COL_PSTAT_EXTRA m.port = false) ∧
    (∃ (t : Nat) (m : ModeNotice) (r : List ModeNotice) (n : Int) (s : State), s.chip.up 5 = true ∧ s.chip.col.notices = m :: r ∧ n = (match (s.chip.port m.port).xferTop with | none => m.line | some l => if l < m.line then m.line else l + 1) ∧ m.every = true ∧ s.chip.firesNow m.port ≠ 3 ∧ s.chip.on F.COL_PSTAT_EXTRA m.port = false ∧ s.chip.tko.lostLines[m.port] = none ∧ bitAt (s.chip.get F.TKO_PORTS_LOST) m.port = true) ∧
    (∃ (t : Nat) (i : Initiator) (w : Word) (k : Fin 8) (tp : Nat) (line : Int) (s : State), s.chip.mayWrite i R.COL_STBY_CMD.addr ∧ k.val = fld F.COL_STBY_CMD_PORT w.toNat ∧ tp = fld F.COL_STBY_CMD_TARGET w.toNat ∧ line = signed 48 (s.chip.get F.COL_STBY_LINE_HI_LINE_HI * 2 ^ 32 + s.chip.get F.COL_STBY_LINE_LO_LINE_LO) ∧ s.chip.asm[k].top < line ∧ s.chip.on F.COL_STBY_ARM k = true ∧ s.chip.portMode k = 3 ∧ s.chip.on F.CMP_TP_EN tp = true ∧ s.chip.feature 1 = true) ∧
    (∃ (t : Nat) (i : Initiator) (w : Word) (k : Fin 8) (tp : Nat) (line : Int) (s : State), s.chip.mayWrite i R.COL_STBY_CMD.addr ∧ k.val = fld F.COL_STBY_CMD_PORT w.toNat ∧ tp = fld F.COL_STBY_CMD_TARGET w.toNat ∧ line = signed 48 (s.chip.get F.COL_STBY_LINE_HI_LINE_HI * 2 ^ 32 + s.chip.get F.COL_STBY_LINE_LO_LINE_LO) ∧ (line ≤ s.chip.asm[k].top ∨ s.chip.on F.COL_STBY_ARM k = false ∨ s.chip.portMode k ≠ 3 ∨ s.chip.on F.CMP_TP_EN tp = false ∨ s.chip.feature 1 = false)) ∧
    (∃ (t : Nat) (i : Initiator) (w : Word) (k : Fin 8) (tp : Nat) (line : Int) (s : State), s.chip.mayWrite i R.COL_STBY_CMD.addr ∧ k.val = fld F.COL_STBY_CMD_PORT w.toNat ∧ tp = fld F.COL_STBY_CMD_TARGET w.toNat ∧ line = signed 48 (s.chip.get F.COL_STBY_LINE_HI_LINE_HI * 2 ^ 32 + s.chip.get F.COL_STBY_LINE_LO_LINE_LO) ∧ s.chip.asm[k].top < line ∧ s.chip.on F.COL_STBY_ARM k = true ∧ s.chip.portMode k = 3 ∧ s.chip.on F.CMP_TP_EN tp = true ∧ s.chip.feature 1 = true ∧ s.chip.on F.COL_STBY_ACT k = true) ∧
    (∃ (t : Nat) (i : Initiator) (s : State), s.chip.mayRead i R.COL_SW_LO.addr) :=
  ⟨⟨5, (⟨2, false, 40⟩ : ModeNotice), ([] : List ModeNotice), (40 : Int), notice ⟨2, false, 40⟩, by decide +kernel⟩,
   ⟨5, (⟨2, true, 40⟩ : ModeNotice), ([] : List ModeNotice), (40 : Int), (notice ⟨2, true, 40⟩).put F.TKO_PORTS_LOST 4, by decide +kernel⟩,
   ⟨5, (.jc0 : Initiator), (stbyW : Word), (2 : Fin 8), 1, (50 : Int), stbyOk, by decide +kernel⟩,
   ⟨5, (.jc0 : Initiator), (stbyW : Word), (2 : Fin 8), 1, (0 : Int), stbyOk.put F.COL_STBY_LINE_LO_LINE_LO 0, by decide +kernel⟩,
   ⟨5, (.jc0 : Initiator), (stbyW : Word), (2 : Fin 8), 1, (50 : Int), stbyOk.put F.COL_STBY_ACT 1 2, by decide +kernel⟩,
   ⟨5, (.jc0 : Initiator), base, by decide +kernel⟩⟩

theorem witness_DeadNozzleTable :
    (∃ (t : Nat) (i : Initiator) (w : Word) (m : Nat) (s : State), s.chip.mayWrite i R.COL_DNT_DATA.addr ∧ ((∀ k : Fin 8, s.chip.portMode k ≠ 1 ∧ s.chip.on F.COL_PSTAT_EXTRA k = false)) ∧ bitAt w.toNat 31 = true ∧ bitsOf w.toNat 13 12 = 0 ∧ bitsOf w.toNat 27 25 ≤ 5 ∧ bitsOf w.toNat 24 14 ≤ 1279 ∧ m = bitsOf w.toNat 11 10 ∧ (m = 1 ∨ m = 3) ∧ (∀ e ∈ s.chip.col.dnt, e.idx ≠ s.chip.get F.COL_DNT_IDX_IDX) ∧ s.chip.isDead (bitsOf w.toNat 30 28) (bitsOf w.toNat 27 25) (bitsOf w.toNat 24 14) = false) ∧
    (∃ (t : Nat) (i : Initiator) (w : Word) (s : State), s.chip.mayWrite i R.COL_DNT_DATA.addr ∧ (bitsOf w.toNat 13 12 ≠ 0 ∨ 5 < bitsOf w.toNat 27 25 ∨ 1279 < bitsOf w.toNat 24 14)) ∧
    (∃ (t : Nat) (i : Initiator) (w : Word) (e : DntEntry) (s : State), s.chip.mayWrite i R.COL_DNT_DATA.addr ∧ ((∀ k : Fin 8, s.chip.portMode k ≠ 1 ∧ s.chip.on F.COL_PSTAT_EXTRA k = false)) ∧ bitAt w.toNat 31 = false ∧ bitsOf w.toNat 13 12 = 0 ∧ bitsOf w.toNat 27 25 ≤ 5 ∧ bitsOf w.toNat 24 14 ≤ 1279 ∧ s.chip.entryAt (s.chip.get F.COL_DNT_IDX_IDX) = some e ∧ e.stage = .none) ∧
    (∃ (t : Nat) (i : Initiator) (s : State), s.chip.mayRead i R.COL_DNT_DATA.addr) ∧
    (∃ (t src tp ic col method : Nat) (s : State), s.chip.up 5 = true ∧ s.chip.portsOf tp ≠ [] ∧ ((∀ k ∈ s.chip.portsOf tp, s.chip.isDead k ic col = false ∧ s.chip.get F.COL_PSTAT_FIRES k ≠ 3)) ∧ s.chip.freeIndex ≠ none ∧ (method ≠ 3 ∨ s.chip.twin = false)) ∧
    (∃ (t src tp ic col method reason : Nat) (s : State), s.chip.up 5 = true ∧ (reason = 4 ∧ s.chip.portsOf tp = [] ∨ reason = 1 ∧ (∃ k ∈ s.chip.portsOf tp, s.chip.isDead k ic col = true) ∨ reason = 2 ∧ (∀ k ∈ s.chip.portsOf tp, s.chip.isDead k ic col = false) ∧ (∃ k ∈ s.chip.portsOf tp, s.chip.get F.COL_PSTAT_FIRES k = 3))) ∧
    (∃ (t node tp ic col method : Nat) (ar : Int) (e : DntEntry) (own : Bool) (s : State), s.chip.up 5 = true ∧ ((∀ k : Fin 8, s.chip.portMode k ≠ 1 ∧ s.chip.on F.COL_PSTAT_EXTRA k = false)) ∧ s.chip.col.dnt = [e] ∧ e.kind = 0 ∧ e.stage = .asked ∧ e.ic = ic ∧ e.asks = method ∧ e.wait = [⟨node, tp, col, own⟩] ∧ e.acked = [] ∧ node ≠ s.chip.nodeId) ∧
    (∃ (t node tp col reason : Nat) (e : DntEntry) (own : Bool) (s : State), s.chip.up 5 = true ∧ ((∀ k : Fin 8, s.chip.portMode k ≠ 1 ∧ s.chip.on F.COL_PSTAT_EXTRA k = false)) ∧ s.chip.col.dnt = [e] ∧ e.kind = 0 ∧ e.stage = .asked ∧ e.asks = 2 ∧ e.method = 2 ∧ e.wait = [⟨node, tp, col, own⟩] ∧ e.acked = [] ∧ e.port < 8) ∧
    (∃ (t : Nat) (e : DntEntry) (s : State), s.chip.up 5 = true ∧ ((∀ k : Fin 8, s.chip.portMode k ≠ 1 ∧ s.chip.on F.COL_PSTAT_EXTRA k = false)) ∧ s.chip.col.dnt = [e] ∧ e.kind = 0 ∧ e.stage = .asked ∧ e.asks = 2 ∧ e.method = 2 ∧ e.acked = [] ∧ e.port < 8 ∧ e.deadline ≤ max s.chip.now t) ∧
    (∃ (t src tp ic col idx : Nat) (own : Bool) (wa : Int) (k : Fin 8) (s : State), s.chip.up 5 = true ∧ ((∀ k : Fin 8, s.chip.portMode k ≠ 1 ∧ s.chip.on F.COL_PSTAT_EXTRA k = false)) ∧ s.chip.portsOf tp = [k] ∧ s.chip.freeIndex = some idx ∧ s.chip.answerLine [k] ic ≤ wa + (s.chip.get F.COL_XCFG_REQ_MARGIN : Int)) ∧
    (∃ (t src tp ic col : Nat) (k : Fin 8) (s : State), s.chip.up 5 = true ∧ ((∀ k : Fin 8, s.chip.portMode k ≠ 1 ∧ s.chip.on F.COL_PSTAT_EXTRA k = false)) ∧ s.chip.portsOf tp = [k]) :=
  ⟨⟨5, (.jc0 : Initiator), (0x80000400 : Word), 1, base, by decide +kernel⟩,
   ⟨5, (.jc0 : Initiator), (0x80001000 : Word), base, by decide +kernel⟩,
   ⟨5, (.jc0 : Initiator), (0 : Word), (dead 1 : DntEntry), (dnt [dead 1] base).put F.COL_DNT_IDX_IDX 4, by decide +kernel⟩,
   ⟨5, (.jc0 : Initiator), (dnt [dead 1] base).put F.COL_DNT_IDX_IDX 4, by decide +kernel⟩,
   ⟨5, 9, 1, 1, 7, 2, tile, by decide +kernel⟩,
   ⟨5, 9, 3, 1, 7, 2, 4, tile, by decide +kernel⟩,
   ⟨5, 9, 1, 1, 600, 2, (70 : Int), (asked : DntEntry), (true : Bool), dnt [asked] base, by decide +kernel⟩,
   ⟨5, 9, 1, 600, 2, (asked : DntEntry), (true : Bool), dnt [asked] base, by decide +kernel⟩,
   ⟨5, (asked : DntEntry), dnt [asked] base, by decide +kernel⟩,
   ⟨5, 9, 1, 1, 600, 0, (true : Bool), (100000 : Int), (2 : Fin 8), tile, by decide +kernel⟩,
   ⟨5, 9, 1, 1, 600, (2 : Fin 8), dnt [{ dead 0 with kind := 1, source := 3 }] tile, by decide +kernel⟩⟩

end FamF

namespace FamG

def up2 : State := base.put F.HP_STAT_STATE 5 2
def ev1 (d : Bool) : LineEvent := ⟨7, 25600, 64, false, d, false, false⟩
def way (d : Bool) (s : State) : State := s.on (fun c => { c with trk := { c.trk with way := c.trk.way.set 2 [ev1 d] } })
def hp (f : PortSt → PortSt) (s : State) : State := s.on (fun c => { c with hp := c.hp.set 2 (f c.hp[2]) })
def firing : State := (up2.put F.COL_PORT_EN 1 2).put F.COL_PSTAT_FIRES 3 2
def ln : PortLine := { line := 7, words := [[], [], [], [], [], []], sensed := [3] }
def xf : Transfer := { line := 7, ltag := 0, rows := [0, 1, 2], words := [[1, 2]], g := 0, trims := [], bank := 0, started := 0 }
def row : HeldRow := { line := 7, ltag := 0, groups := 4 }
def ready : State := hp (fun p => { p with queue := [ln], events := [ev1 false] }) firing
def strobes : State := hp (fun p => { p with held := p.held.set 0 [row], events := [ev1 false], firedTop := some 7 }) firing
def waiting : State := hp (fun p => { p with wait := some { cmd := { opc := 1, arg := 0, use := .expert }, tag := 5, sentAt := 0 } }) up2
def warm : State := { (((up2.put F.HP_TLIM_T_LIMIT 0x500 2).put F.HP_TLIM_T_CRIT 0x600 2).put F.HP_TWARN_T_WARN 0x400 2).put F.SYS_ISL_STAT_ISL_UP 0xFFDF with pending := [] }

theorem witness_LinesGoToTheHead :
    (∃ (t : Nat) (k : Fin 8) (e : LineEvent) (rest : List LineEvent) (s : State), s.chip.up (8 + k.val) = true ∧ s.chip.trk.way[k] = e :: rest ∧ s.chip.isUp k = true ∧ s.chip.isFenced k = false ∧ s.chip.switchState = 0 ∧ s.chip.ldl.grants = [] ∧ s.chip.ldl.asks = [] ∧ bitAt (s.chip.get F.FLW_WARM_STAT_IDLE_ACT) k = false ∧ s.chip.flw.warmSent[k] = [] ∧ e.drop = false ∧ (s.chip.at t).nowQ ≤ s.chip.firstDue k e ∧ (s.chip.port k).events.length < 64) ∧
    (∃ (t : Nat) (k : Fin 8) (e : LineEvent) (rest : List LineEvent) (s : State), s.chip.up (8 + k.val) = true ∧ s.chip.trk.way[k] = e :: rest ∧ s.chip.isUp k = true ∧ s.chip.isFenced k = false ∧ s.chip.switchState = 0 ∧ s.chip.ldl.grants = [] ∧ s.chip.ldl.asks = [] ∧ bitAt (s.chip.get F.FLW_WARM_STAT_IDLE_ACT) k = false ∧ s.chip.flw.warmSent[k] = [] ∧ e.drop = true ∧ s.chip.portFires k e.line = true ∧ (s.chip.port k).xfer = none ∧ (s.chip.port k).held = Vector.replicate 6 []) ∧
    (∃ (t : Nat) (k : Fin 8) (m : Int) (l : PortLine) (rest : List PortLine) (s : State), s.chip.up (8 + k.val) = true ∧ s.chip.timeValid (8 + k.val) = true ∧ s.chip.isUp k = true ∧ s.chip.isFenced k = false ∧ s.chip.switchState = 0 ∧ (s.chip.port k).xfer = none ∧ s.chip.nextTransfer k = some m ∧ (s.chip.at t).transferDue k m = true ∧ (s.chip.port k).queue = l :: rest ∧ l.line = m ∧ m ∉ (s.chip.port k).gone ∧ (s.chip.port k).pendLimit = none ∧ (s.chip.port k).fillFrom = none ∧ s.chip.on F.HP_PSTAT_BLANK k = false ∧ (s.chip.port k).restore = false ∧ s.chip.get F.FLW_COLDMAP_LINES = 0 ∧ s.chip.flw.coldLeft[k] = 0) ∧
    (∃ (t : Nat) (k : Fin 8) (x : Transfer) (r : Fin 6) (a : Nat) (rest : List Nat) (s : State), s.chip.up (8 + k.val) = true ∧ s.chip.switchState = 0 ∧ (s.chip.port k).xfer = some x ∧ x.rows = r.val :: a :: rest ∧ (s.chip.port k).predict x.line = none ∧ ((s.chip.port k).held[r]).length < 2 ∧ (s.chip.port k).busyUntil ≤ max s.chip.now t) ∧
    (∃ (t : Nat) (k : Fin 8) (r : Fin 6) (h : HeldRow) (more : List HeldRow) (tap : Int) (s : State), s.chip.up (8 + k.val) = true ∧ s.chip.timeValid (8 + k.val) = true ∧ s.chip.isUp k = true ∧ s.chip.switchState = 0 ∧ (s.chip.port k).wdogHeld = false ∧ s.chip.nextStrobes k = [(r, h, tap)] ∧ (s.chip.port k).held[r] = h :: more ∧ tap ≤ (s.chip.at t).nowTaps ∧ (s.chip.port k).lastSymbol = none ∧ (s.chip.port k).firedTop = some h.line ∧ (s.chip.port k).todo = []) ∧
    (∃ (t : Nat) (k : Fin 8) (high : Nat) (s : State), s.chip.switchState = 0 ∧ (s.chip.port k).wdog ≤ high ∧ s.chip.portState k = 2 ∧ s.chip.on F.HP_STAT_EN_OUT k = true ∧ (s.chip.port k).events = [] ∧ s.chip.ldl.grants = []) ∧
    (∃ (t : Nat) (k : Fin 8) (high : Nat) (s : State), s.chip.switchState = 0 ∧ high < (s.chip.port k).wdog) :=
  ⟨⟨5, (2 : Fin 8), (ev1 false : LineEvent), ([] : List LineEvent), way false up2, by decide +kernel⟩,
   ⟨5, (2 : Fin 8), (ev1 true : LineEvent), ([] : List LineEvent), (way true firing).put F.NZH_CTRL_EN 1, by decide +kernel⟩,
   ⟨5, (2 : Fin 8), (7 : Int), (ln : PortLine), ([] : List PortLine), ready.put F.FLW_COLDMAP_LINES 0, by decide +kernel⟩,
   ⟨5, (2 : Fin 8), (xf : Transfer), (0 : Fin 6), 1, ([2] : List Nat), hp (fun p => { p with xfer := some xf }) up2, by decide +kernel⟩,
   ⟨ns 2000, (2 : Fin 8), (0 : Fin 6), (row : HeldRow), ([] : List HeldRow), (((strobes.chip.nextStrobes 2).head?.map (fun x => x.2.2)).getD 0 : Int), strobes, by decide +kernel⟩,
   ⟨5, (2 : Fin 8), 400, (base.put F.HP_STAT_STATE 2 2).put F.HP_STAT_EN_OUT 1 2, by decide +kernel⟩,
   ⟨5, (2 : Fin 8), 40, base, by decide +kernel⟩⟩

theorem witness_BackChannel :
    (∃ (t : Nat) (k : Fin 8) (ltag : Nat) (temps : List Int) (sigs : List Signature) (s : State), s.chip.up (8 + k.val) = true ∧ s.chip.switchState = 0 ∧ 2 ≤ s.chip.portState k ∧ s.chip.portState k ≤ 5 ∧ (s.chip.port k).frameOk = true) ∧
    (∃ (t : Nat) (k : Fin 8) (temps : List Int) (s : State), s.chip.up (8 + k.val) = true ∧ s.chip.switchState = 0 ∧ 2 ≤ s.chip.portState k ∧ s.chip.portState k ≤ 5 ∧ (s.chip.port k).frameOk = false) ∧
    (∃ (t : Nat) (k : Fin 8) (ltag : Nat) (temps : List Int) (sigs : List Signature) (s : State), s.chip.up (8 + k.val) = true ∧ s.chip.switchState = 0 ∧ s.chip.isUp k = true ∧ temps.length = 6 ∧ ((∀ x ∈ temps, -2048 ≤ x ∧ x < signed 12 (s.chip.get F.HP_TLIM_T_LIMIT k) ∧ x < signed 12 (s.chip.get F.HP_TLIM_T_CRIT k))) ∧ s.chip.on F.HP_PSTAT_BLANK k = false ∧ (∀ x ∈ (s.chip.port k).sent, x.ltag ≠ ltag)) ∧
    (∃ (t : Nat) (k : Fin 8) (x : Int) (s : State), s.chip.up (8 + k.val) = true ∧ s.chip.switchState = 0 ∧ s.chip.isUp k = true ∧ -2048 ≤ x ∧ x < signed 12 (s.chip.get F.HP_TLIM_T_LIMIT k) ∧ x < signed 12 (s.chip.get F.HP_TLIM_T_CRIT k) ∧ signed 12 (s.chip.get F.HP_TWARN_T_WARN k) ≤ x ∧ s.chip.on F.HP_PSTAT_WARN k = false ∧ s.chip.on F.HP_PSTAT_BLANK k = false ∧ s.chip.up 5 = false) ∧
    (∃ (t : Nat) (k : Fin 8) (status tag : Nat) (data : List Nat) (w : CmdWait) (s : State), s.chip.up (8 + k.val) = true ∧ s.chip.switchState = 0 ∧ 2 ≤ s.chip.portState k ∧ s.chip.portState k ≤ 5 ∧ (s.chip.port k).wait = some w ∧ w.tag = tag ∧ w.cmd.use = .expert ∧ (s.chip.port k).todo = []) ∧
    (∃ (t : Nat) (k : Fin 8) (status tag : Nat) (data : List Nat) (w : CmdWait) (s : State), s.chip.up (8 + k.val) = true ∧ s.chip.switchState = 0 ∧ 2 ≤ s.chip.portState k ∧ s.chip.portState k ≤ 5 ∧ (s.chip.port k).wait = some w ∧ w.tag ≠ tag) ∧
    (∃ (t : Nat) (k : Fin 8) (code detail : Nat) (s : State), s.chip.up (8 + k.val) = true ∧ s.chip.switchState = 0 ∧ 2 ≤ s.chip.portState k ∧ s.chip.portState k ≤ 5 ∧ code ≠ 1 ∧ code ≠ 6) ∧
    (∃ (t : Nat) (k : Fin 8) (s : State), s.chip.up (8 + k.val) = true ∧ s.chip.switchState = 0 ∧ s.chip.portState k = 2 ∧ (s.chip.port k).locked = 0) ∧
    (∃ (t : Nat) (k : Fin 8) (s : State), s.chip.up (8 + k.val) = true ∧ s.chip.switchState = 0 ∧ s.chip.isUp k = true ∧ s.chip.on F.HP_PSTAT_TEMP_LOST k = false ∧ (s.chip.port k).lastFrame + us (100 * s.chip.get F.HP_XPROT_TLOST k) ≤ max s.chip.now t ∧ s.chip.on F.HP_PSTAT_BLANK k = true) ∧
    (∃ (t : Nat) (k : Fin 8) (s : State), s.chip.up (8 + k.val) = true ∧ s.chip.switchState = 0 ∧ s.chip.isUp k = true ∧ s.chip.on F.HP_PSTAT_TEMP_LOST k = false ∧ (s.chip.port k).lastFrame + us (100 * s.chip.get F.HP_XPROT_TLOST k) ≤ max s.chip.now t ∧ s.chip.on F.HP_PSTAT_BLANK k = false ∧ (s.chip.port k).xfer = none ∧ (s.chip.port k).held = Vector.replicate 6 []) :=
  ⟨⟨5, (2 : Fin 8), 0, ([] : List Int), ([] : List Signature), up2, by decide +kernel⟩,
   ⟨5, (2 : Fin 8), ([] : List Int), hp (fun p => { p with frameOk := false }) up2, by decide +kernel⟩,
   ⟨5, (2 : Fin 8), 0, ([1,5,3,5,2,0x410] : List Int), ([] : List Signature), warm, by decide +kernel⟩,
   ⟨5, (2 : Fin 8), (0x410 : Int), warm, by decide +kernel⟩,
   ⟨5, (2 : Fin 8), 0, 5, ([77] : List Nat), ({ cmd := { opc := 1, arg := 0, use := .expert }, tag := 5, sentAt := 0 } : CmdWait), waiting, by decide +kernel⟩,
   ⟨5, (2 : Fin 8), 0, 6, ([77] : List Nat), ({ cmd := { opc := 1, arg := 0, use := .expert }, tag := 5, sentAt := 0 } : CmdWait), waiting, by decide +kernel⟩,
   ⟨5, (2 : Fin 8), 4, 9, up2, by decide +kernel⟩,
   ⟨5, (2 : Fin 8), base.put F.HP_STAT_STATE 2 2, by decide +kernel⟩,
   ⟨us 100000, (2 : Fin 8), up2.put F.HP_PSTAT_BLANK 1 2, by decide +kernel⟩,
   ⟨us 100000, (2 : Fin 8), up2, by decide +kernel⟩⟩

end FamG

namespace FamH

def st (n : Nat) : State := base.put F.HP_STAT_STATE n 2
def hp (f : PortSt → PortSt) (s : State) : State := s.on (fun c => { c with hp := c.hp.set 2 (f c.hp[2]) })
def low (s : State) : State := hp (fun p => { p with presLow := true }) s
def off (s : State) : State := s.on (fun c => { c with pwr := { c.pwr with off := true } })
def wt (b : Bool) : CmdWait := { cmd := { opc := 1, arg := 0, use := .expert }, tag := 5, sentAt := 0, resent := b }
def xp : State := ((st 5).put F.HP_CTRL_XPERT_EN 1 2).put F.HP_XARG_ARG 77 2
def xf : Transfer := { line := 7, ltag := 0, rows := [0, 1, 2], words := [[1, 2]], g := 0, trims := [], bank := 0, started := 0 }
def lanes : State := hp (fun p => { p with locked := 3 }) ((st 5).put F.HP_STAT_LANES 3 2)
def one : State := hp (fun p => { p with locked := 1, retrainDue := some 5 }) ((st 5).put F.HP_STAT_LANES 1 2)

theorem witness_PortsComeUp :
    (∃ (t : Nat) (k : Fin 8) (s : State), s.chip.hasPort k.val = true ∧ (s.chip.port k).presLow = false ∧ s.chip.portState k ≠ 6 ∧ (s.chip.pwr.off = true ∨ s.chip.thm.tripped = true)) ∧
    (∃ (t : Nat) (k : Fin 8) (s : State), s.chip.hasPort k.val = true ∧ (s.chip.port k).presLow = true ∧ s.chip.portState k ≠ 6 ∧ s.chip.pwrState = 0 ∧ s.chip.pwrPhase = 0 ∧ s.chip.pwr.off = false ∧ s.chip.thm.tripped = false ∧ bitAt (s.chip.get F.PWR_WAKE_EN_EN) 5 = false) ∧
    (∃ (t : Nat) (k : Fin 8) (low : Bool) (s : State), (s.chip.hasPort k.val = false ∨ (s.chip.port k).presLow = low)) ∧
    (∃ (t : Nat) (k : Fin 8) (s : State), s.chip.up (8 + k.val) = true ∧ s.chip.switchState = 0 ∧ s.chip.hasPort k.val = true ∧ (s.chip.port k).presLow = true ∧ (s.chip.port k).presSince + ms (s.chip.get F.HP_HOT_PRES_DB k) ≤ max s.chip.now t ∧ s.chip.portState k = 0 ∧ s.chip.on F.HP_CTRL_EN k = true ∧ (s.chip.port k).arm = true ∧ bitAt (s.chip.get F.PAD_HOLD_HELD) k = false ∧ (9 + k.val) ∉ s.chip.pwr.ready ∧ bitAt s.chip.str.cold k = false) ∧
    (∃ (t : Nat) (k : Fin 8) (s : State), s.chip.up (8 + k.val) = true ∧ s.chip.switchState = 0 ∧ s.chip.portState k = 1) ∧
    (∃ (t : Nat) (k : Fin 8) (s : State), s.chip.up (8 + k.val) = true ∧ s.chip.switchState = 0 ∧ s.chip.portState k = 1 ∧ s.chip.on F.HP_STAT_PGOOD k = false ∧ (s.chip.port k).stateAt + ms (s.chip.get F.HP_HOT_PG_TO k) ≤ max s.chip.now t ∧ (s.chip.port k).events = [] ∧ s.chip.ldl.grants = []) ∧
    (∃ (t : Nat) (k : Fin 8) (s : State), s.chip.up (8 + k.val) = true ∧ s.chip.switchState = 0 ∧ s.chip.portState k = 1 ∧ s.chip.on F.HP_STAT_PGOOD k = true ∧ (s.chip.port k).pgoodAt + ms 1 ≤ max s.chip.now t) ∧
    (∃ (t : Nat) (k : Fin 8) (s : State), s.chip.up (8 + k.val) = true ∧ s.chip.switchState = 0 ∧ s.chip.portState k = 2 ∧ (s.chip.port k).stateAt + us 1500 ≤ max s.chip.now t ∧ (s.chip.port k).tries < 3) ∧
    (∃ (t : Nat) (k : Fin 8) (s : State), s.chip.up (8 + k.val) = true ∧ s.chip.switchState = 0 ∧ s.chip.portState k = 2 ∧ (s.chip.port k).stateAt + us 1500 ≤ max s.chip.now t ∧ 3 ≤ (s.chip.port k).tries ∧ (s.chip.port k).events = [] ∧ s.chip.ldl.grants = []) ∧
    (∃ (t : Nat) (k : Fin 8) (w : CmdWait) (s : State), s.chip.up (8 + k.val) = true ∧ s.chip.switchState = 0 ∧ (s.chip.port k).wait = some w ∧ w.sentAt + us 100 ≤ max s.chip.now t ∧ w.resent = false) ∧
    (∃ (t : Nat) (k : Fin 8) (w : CmdWait) (s : State), s.chip.up (8 + k.val) = true ∧ s.chip.switchState = 0 ∧ (s.chip.port k).wait = some w ∧ w.sentAt + us 100 ≤ max s.chip.now t ∧ w.resent = true ∧ w.cmd.use = .expert ∧ s.chip.portState k = 3 ∧ (s.chip.port k).events = [] ∧ s.chip.ldl.grants = []) ∧
    (∃ (t : Nat) (i : Initiator) (k : Fin 8) (w : Word) (s : State), s.chip.mayWrite i (R.HP_CTRL.at k 0) ∧ s.chip.switchState = 0 ∧ s.chip.on F.HP_CTRL_EN k = false ∧ bitAt w.toNat 1 = true ∧ bitAt w.toNat 3 = false ∧ bitAt w.toNat 4 = false ∧ s.chip.portState k = 0 ∧ s.chip.on F.HP_STAT_PRES k = false) :=
  ⟨⟨5, (2 : Fin 8), off base, by decide +kernel⟩,
   ⟨5, (2 : Fin 8), (low base).put F.PWR_WAKE_EN_EN 0, by decide +kernel⟩,
   ⟨5, (2 : Fin 8), (true : Bool), low base, by decide +kernel⟩,
   ⟨ms 1000, (2 : Fin 8), (low base).put F.HP_CTRL_EN 1 2, by decide +kernel⟩,
   ⟨5, (2 : Fin 8), st 1, by decide +kernel⟩,
   ⟨ms 1000, (2 : Fin 8), st 1, by decide +kernel⟩,
   ⟨ms 1000, (2 : Fin 8), (st 1).put F.HP_STAT_PGOOD 1 2, by decide +kernel⟩,
   ⟨us 1500, (2 : Fin 8), hp (fun p => { p with tries := 1 }) (st 2), by decide +kernel⟩,
   ⟨us 1500, (2 : Fin 8), hp (fun p => { p with tries := 3 }) (st 2), by decide +kernel⟩,
   ⟨us 100, (2 : Fin 8), (wt false : CmdWait), hp (fun p => { p with wait := some (wt false) }) (st 5), by decide +kernel⟩,
   ⟨us 100, (2 : Fin 8), (wt true : CmdWait), hp (fun p => { p with wait := some (wt true) }) (st 3), by decide +kernel⟩,
   ⟨5, (.jc0 : Initiator), (2 : Fin 8), (2 : Word), base.put F.HP_CTRL_EN 0 2, by decide +kernel⟩⟩

theorem witness_PortsGoDown :
    (∃ (t : Nat) (k : Fin 8) (s : State), s.chip.up (8 + k.val) = true ∧ s.chip.switchState = 0 ∧ (s.chip.port k).presLow = false ∧ (s.chip.port k).presSince + us 20 ≤ max s.chip.now t ∧ 1 ≤ s.chip.portState k ∧ s.chip.portState k ≤ 4 ∧ (s.chip.port k).events = [] ∧ s.chip.ldl.grants = []) ∧
    (∃ (t : Nat) (k : Fin 8) (s : State), s.chip.up (8 + k.val) = true ∧ s.chip.switchState = 0 ∧ (2 ≤ s.chip.portState k ∨ s.chip.portState k = 1 ∧ s.chip.on F.HP_STAT_PGOOD k = true) ∧ s.chip.portState k ≤ 4 ∧ (s.chip.port k).events = [] ∧ s.chip.ldl.grants = []) ∧
    (∃ (t : Nat) (i : Initiator) (k : Fin 8) (w : Word) (s : State), s.chip.mayWrite i (R.HP_CTRL.at k 0) ∧ s.chip.switchState = 0 ∧ bitAt w.toNat 1 = true ∧ s.chip.on F.HP_CTRL_EN k = true ∧ (s.chip.port k).rearmAny = false ∧ bitAt w.toNat 4 = false ∧ 1 ≤ s.chip.portState k ∧ s.chip.portState k ≤ 4 ∧ (s.chip.port k).events = [] ∧ s.chip.ldl.grants = []) ∧
    (∃ (t : Nat) (k : Fin 8) (s : State), s.chip.up (8 + k.val) = true ∧ s.chip.switchState = 0 ∧ 3 ≤ s.chip.portState k ∧ s.chip.portState k ≤ 4 ∧ (s.chip.port k).events = [] ∧ s.chip.ldl.grants = []) ∧
    (∃ (t : Nat) (k : Fin 8) (s : State), s.chip.up (8 + k.val) = true ∧ s.chip.switchState = 0 ∧ s.chip.isUp k = true ∧ (s.chip.port k).locked = 3 ∧ s.chip.get F.HP_STAT_LANES k = 3 ∧ s.chip.cal.laneOff = false ∧ (s.chip.port k).recent = []) ∧
    (∃ (t : Nat) (k : Fin 8) (d : Nat) (s : State), s.chip.up (8 + k.val) = true ∧ s.chip.switchState = 0 ∧ s.chip.isUp k = true ∧ (s.chip.port k).retrainDue = some d ∧ d ≤ max s.chip.now t ∧ s.chip.get F.HP_STAT_LANES k ≠ 3 ∧ (s.chip.port k).retraining = false ∧ (s.chip.port k).restore = false ∧ s.chip.ldl.asks = [] ∧ s.chip.ldl.grants = []) ∧
    (∃ (t : Nat) (i : Initiator) (k : Fin 8) (w : Word) (s : State), s.chip.mayWrite i (R.HP_CTRL.at k 0) ∧ s.chip.switchState = 0 ∧ bitAt w.toNat 1 = true ∧ bitAt w.toNat 3 = false ∧ s.chip.on F.HP_CTRL_EN k = true ∧ (s.chip.port k).rearmAny = false ∧ s.chip.isUp k = true ∧ s.chip.get F.HP_STAT_LANES k ≠ 3 ∧ (s.chip.port k).retraining = false ∧ (s.chip.port k).restore = false ∧ s.chip.ldl.asks = [] ∧ s.chip.ldl.grants = []) ∧
    (∃ (t : Nat) (k : Fin 8) (s : State), s.chip.up (8 + k.val) = true ∧ s.chip.switchState = 0 ∧ (s.chip.port k).retraining = true ∧ ((s.chip.port k).locked = 3 ∨ (s.chip.port k).retrainAt + ms 1 ≤ max s.chip.now t) ∧ s.chip.ldl.grants = []) :=
  ⟨⟨us 20, (2 : Fin 8), st 3, by decide +kernel⟩,
   ⟨us 20, (2 : Fin 8), st 3, by decide +kernel⟩,
   ⟨5, (.jc0 : Initiator), (2 : Fin 8), (2 : Word), (st 3).put F.HP_CTRL_EN 1 2, by decide +kernel⟩,
   ⟨5, (2 : Fin 8), st 3, by decide +kernel⟩,
   ⟨5, (2 : Fin 8), lanes, by decide +kernel⟩,
   ⟨5, (2 : Fin 8), 5, one, by decide +kernel⟩,
   ⟨5, (.jc0 : Initiator), (2 : Fin 8), (2 : Word), one.put F.HP_CTRL_EN 1 2, by decide +kernel⟩,
   ⟨ms 1, (2 : Fin 8), hp (fun p => { p with retraining := true }) (st 5), by decide +kernel⟩⟩

theorem witness_PortRegisters :
    (∃ (t : Nat) (i : Initiator) (k : Fin 8) (w : Word) (s : State), s.chip.mayWrite i (R.HP_XCMD.at k 0) ∧ s.chip.switchState = 0 ∧ s.chip.calBusy = false ∧ s.chip.on F.HP_CTRL_XPERT_EN k = true ∧ s.chip.isUp k = true ∧ (s.chip.port k).todo = [] ∧ (s.chip.port k).wait = none ∧ (s.chip.port k).xfer ≠ none) ∧
    (∃ (t : Nat) (i : Initiator) (k : Fin 8) (w : Word) (s : State), s.chip.mayWrite i (R.HP_XCMD.at k 0) ∧ s.chip.switchState = 0 ∧ s.chip.calBusy = false ∧ s.chip.on F.HP_CTRL_XPERT_EN k = true ∧ s.chip.isUp k = true ∧ (s.chip.port k).todo = [] ∧ (s.chip.port k).wait = none ∧ (s.chip.port k).xfer = none ∧ (s.chip.port k).busyUntil ≤ max s.chip.now t) ∧
    (∃ (t : Nat) (i : Initiator) (k : Fin 8) (w : Word) (s : State), s.chip.mayWrite i (R.HP_XCMD.at k 0) ∧ s.chip.switchState = 0 ∧ s.chip.calBusy = false ∧ s.chip.on F.HP_CTRL_XPERT_EN k = true ∧ s.chip.isUp k = true ∧ (s.chip.port k).todo = [] ∧ (s.chip.port k).wait = none ∧ (s.chip.port k).xfer = none ∧ (s.chip.port k).busyUntil ≤ max s.chip.now t) ∧
    (∃ (t : Nat) (i : Initiator) (k : Fin 8) (w : Word) (s : State), s.chip.mayWrite i (R.HP_XCMD.at k 0) ∧ s.chip.switchState = 0 ∧ s.chip.calBusy = false ∧ s.chip.on F.HP_CTRL_XPERT_EN k = true ∧ s.chip.isUp k = false) ∧
    (∃ (t : Nat) (i : Initiator) (k : Fin 8) (s : State), s.chip.mayRead i (R.HP_XDATA.at k 0)) ∧
    (∃ (t : Nat) (i : Initiator) (k : Fin 8) (s : State), s.chip.mayRead i (R.HP_MEM_DATA.at k 0)) ∧
    (∃ (t : Nat) (i : Initiator) (k : Fin 8) (w : Word) (v : Nat) (s : State), s.chip.mayWrite i (R.HP_WDOG.at k 0) ∧ s.chip.switchState = 0 ∧ s.chip.isUp k = false ∧ v = fld F.HP_WDOG_LIMIT w.toNat ∧ 50 ≤ v ∧ v ≤ 800 ∧ v ≤ s.chip.get F.HP_PCEIL_WDOG_CEIL k ∧ s.chip.flw.sets[k] = []) ∧
    (∃ (t : Nat) (i : Initiator) (k : Fin 8) (w : Word) (s : State), s.chip.mayWrite i (R.HP_WDOG.at k 0) ∧ s.chip.switchState = 0 ∧ (fld F.HP_WDOG_LIMIT w.toNat < 50 ∨ 800 < fld F.HP_WDOG_LIMIT w.toNat)) ∧
    (∃ (t : Nat) (i : Initiator) (k : Fin 8) (w : Word) (a b : Int) (s : State), s.chip.mayWrite i (R.HP_TLIM.at k 0) ∧ s.chip.switchState = 0 ∧ a = signed 12 (fld F.HP_TLIM_T_LIMIT w.toNat) ∧ b = signed 12 (fld F.HP_TLIM_T_CRIT w.toNat) ∧ a ≤ signed 12 (s.chip.get F.HP_PCEIL_T_TLIM_CEIL k) ∧ b ≤ signed 12 (s.chip.get F.HP_PCEIL_T_TCRIT_CEIL k) ∧ signed 12 (s.chip.get F.HP_TWARN_T_WARN k) < a ∧ a < b) ∧
    (∃ (t : Nat) (i : Initiator) (k : Fin 8) (w : Word) (s : State), s.chip.mayWrite i (R.HP_TWARN.at k 0) ∧ s.chip.switchState = 0 ∧ (signed 12 (s.chip.get F.HP_TLIM_T_LIMIT k) ≤ signed 12 (fld F.HP_TWARN_T_WARN w.toNat) ∨ fld F.HP_TWARN_T_HYST w.toNat < 16 ∨ 480 < fld F.HP_TWARN_T_HYST w.toNat)) :=
  ⟨⟨5, (.jc0 : Initiator), (2 : Fin 8), (0x1200 : Word), hp (fun p => { p with xfer := some xf }) xp, by decide +kernel⟩,
   ⟨5, (.jc0 : Initiator), (2 : Fin 8), (0x1200 : Word), xp, by decide +kernel⟩,
   ⟨5, (.jc0 : Initiator), (2 : Fin 8), (0x1200 : Word), xp, by decide +kernel⟩,
   ⟨5, (.jc0 : Initiator), (2 : Fin 8), (0 : Word), base.put F.HP_CTRL_XPERT_EN 1 2, by decide +kernel⟩,
   ⟨5, (.jc0 : Initiator), (2 : Fin 8), hp (fun p => { p with xdata := [1,2,3,4,5] }) base, by decide +kernel⟩,
   ⟨5, (.jc0 : Initiator), (2 : Fin 8), hp (fun p => { p with record := [1,2,3,4,5,6,7,8] }) (((st 5).put F.HP_MEM_SEL_WORD 1 2).put F.HP_MEM_SEL_AUTOINC 1 2), by decide +kernel⟩,
   ⟨5, (.jc0 : Initiator), (2 : Fin 8), (0x64 : Word), 100, base, by decide +kernel⟩,
   ⟨5, (.jc0 : Initiator), (2 : Fin 8), (3 : Word), base, by decide +kernel⟩,
   ⟨5, (.jc0 : Initiator), (2 : Fin 8), (0x03000200 : Word), (0x200 : Int), (0x300 : Int), ((base.put F.HP_PCEIL_T_TLIM_CEIL 0x400 2).put F.HP_PCEIL_T_TCRIT_CEIL 0x500 2).put F.HP_TWARN_T_WARN 0x100 2, by decide +kernel⟩,
   ⟨5, (.jc0 : Initiator), (2 : Fin 8), (0x00000FF0 : Word), base, by decide +kernel⟩⟩

end FamH

namespace FamI

def nz (f : NzhSt → NzhSt) (s : State) : State := s.on (fun c => { c with nzh := f c.nzh })
def acc : Account := { id := 5, job := 1, lane := 2, origin := 0, width := 8, start := 10, lines := 4, flags := 1, crc := 0, composed := true }
def ddr : State := ((((base.put F.DDR_STAT_READY 1).put F.NZH_REJ_MASK_MASK 0).put F.DDR_STAT_SIZE 4).put F.NZH_ARQ_BASE_HI_ADDR 0x10).put F.NZH_CTRL_EN 1
def hp (f : PortSt → PortSt) (s : State) : State := s.on (fun c => { c with hp := c.hp.set 2 (f c.hp[2]) })
def sig (q i t : Nat) : Signature := { q := q, isense := i, tnuc := t, noFire := false }
def frame : State := hp (fun p => { p with sent := [⟨7, 9, [3]⟩] }) (nz (fun z => { z with await := z.await.set 2 [(7, [3], 5)] }) (((((base.put F.HP_STAT_STATE 5 2).put F.HP_TLIM_T_LIMIT 0x500 2).put F.HP_TLIM_T_CRIT 0x600 2).put F.HP_TWARN_T_WARN 0x400 2).put F.NZH_CFG_AUTO 0))

theorem witness_NozzleHealth :
    (∃ (t : Nat) (k : Fin 8) (e : Int × List Nat × Nat) (s : State), s.chip.up 5 = true ∧ s.chip.nzh.await[k] = [e] ∧ e.2.2 + us (s.chip.get F.NZH_BC_TO_TO) < max s.chip.now t ∧ s.chip.nzh.without[k] + 1 < s.chip.get F.NZH_CFG_BC_LOSS) ∧
    (∃ (t : Nat) (k : Fin 8) (s : State), (s.chip.nzh.await[k] = [] ∨ s.chip.up 5 = false)) ∧
    (∃ (t : Nat) (i : Initiator) (w : Word) (k : Fin 8) (q : Nat) (s : State), s.chip.mayWrite i R.NZH_NZ_DATA.addr ∧ w.toNat % 8 = 0 ∧ s.chip.get F.NZH_NZ_SEL_PORT = k.val ∧ q = s.chip.get F.NZH_NZ_SEL_NOZZLE) ∧
    (∃ (t : Nat) (i : Initiator) (w : Word) (k : Fin 8) (q : Nat) (s : State), s.chip.mayWrite i R.NZH_NZ_DATA.addr ∧ w.toNat % 8 ≠ 0 ∧ s.chip.get F.NZH_NZ_SEL_PORT = k.val ∧ q = s.chip.get F.NZH_NZ_SEL_NOZZLE) ∧
    (∃ (t : Nat) (i : Initiator) (k : Fin 8) (x : NozzleSt) (s : State), s.chip.mayRead i R.NZH_NZ_DATA.addr ∧ s.chip.get F.NZH_NZ_SEL_PORT = k.val ∧ x = s.chip.nozzle k (s.chip.get F.NZH_NZ_SEL_NOZZLE)) ∧
    (∃ (t : Nat) (i : Initiator) (s : State), s.chip.mayRead i R.NZH_DEAD.addr) :=
  ⟨⟨us 100000, (2 : Fin 8), ((7, [3], 5) : Int × List Nat × Nat), nz (fun z => { z with await := z.await.set 2 [(7, [3], 5)] }) (base.put F.NZH_CFG_BC_LOSS 16), by decide +kernel⟩,
   ⟨5, (2 : Fin 8), base, by decide +kernel⟩,
   ⟨5, (.jc0 : Initiator), (0x80 : Word), (2 : Fin 8), 9, (base.put F.NZH_NZ_SEL_PORT 2).put F.NZH_NZ_SEL_NOZZLE 9, by decide +kernel⟩,
   ⟨5, (.jc0 : Initiator), (0x83 : Word), (2 : Fin 8), 9, (base.put F.NZH_NZ_SEL_PORT 2).put F.NZH_NZ_SEL_NOZZLE 9, by decide +kernel⟩,
   ⟨5, (.jc0 : Initiator), (2 : Fin 8), (base.chip.nozzle 2 9 : NozzleSt), (base.put F.NZH_NZ_SEL_PORT 2).put F.NZH_NZ_SEL_NOZZLE 9, by decide +kernel⟩,
   ⟨5, (.jc0 : Initiator), nz (fun z => { z with dead := [7, 8] }) base, by decide +kernel⟩⟩

theorem witness_SignaturesJudgeNozzles :
    (∃ (t : Nat) (k : Fin 8) (n x : Int) (g : Signature) (first : Nat) (s : State), s.chip.up 5 = true ∧ s.chip.up (8 + k.val) = true ∧ s.chip.isUp k = true ∧ s.chip.switchState = 0 ∧ s.chip.nzh.await[k] = [(n, [g.q], first)] ∧ max s.chip.now t ≤ first + us (s.chip.get F.NZH_BC_TO_TO) ∧ bitAt (s.chip.get F.NZH_STAT_BLIND) k = false ∧ (s.chip.port k).sent = [⟨n, 9, [g.q]⟩] ∧ -2048 ≤ x ∧ s.chip.on F.HP_PSTAT_BLANK k = false ∧ x < signed 12 (s.chip.get F.HP_TLIM_T_LIMIT k) ∧ x < signed 12 (s.chip.get F.HP_TLIM_T_CRIT k) ∧ s.chip.get F.NZH_THR_I_SHORT (g.q / 1280) < g.isense ∧ (s.chip.nozzle k g.q).state < 2 ∧ s.chip.on F.NZH_CFG_AUTO = false ∧ s.chip.nzh.issued = [] ∧ g.noFire = false ∧ s.chip.nzh.deferred[k] = []) ∧
    (∃ (t : Nat) (k : Fin 8) (n x : Int) (g : Signature) (first : Nat) (s : State), s.chip.up 5 = true ∧ s.chip.up (8 + k.val) = true ∧ s.chip.isUp k = true ∧ s.chip.switchState = 0 ∧ s.chip.nzh.await[k] = [(n, [g.q], first)] ∧ max s.chip.now t ≤ first + us (s.chip.get F.NZH_BC_TO_TO) ∧ bitAt (s.chip.get F.NZH_STAT_BLIND) k = false ∧ (s.chip.port k).sent = [⟨n, 9, [g.q]⟩] ∧ -2048 ≤ x ∧ s.chip.on F.HP_PSTAT_BLANK k = false ∧ x < signed 12 (s.chip.get F.HP_TLIM_T_LIMIT k) ∧ x < signed 12 (s.chip.get F.HP_TLIM_T_CRIT k) ∧ s.chip.get F.NZH_THR_I_OPEN (g.q / 1280) ≤ g.isense ∧ g.isense ≤ s.chip.get F.NZH_THR_I_SHORT (g.q / 1280) ∧ g.tnuc ≤ s.chip.get F.NZH_THR_T_WEAK (g.q / 1280) ∧ g.noFire = false ∧ (s.chip.nozzle k g.q).state < 2 ∧ s.chip.nzh.deferred[k] = []) ∧
    (∃ (t : Nat) (k : Fin 8) (n x : Int) (g : Signature) (first : Nat) (s : State), s.chip.up 5 = true ∧ s.chip.up (8 + k.val) = true ∧ s.chip.isUp k = true ∧ s.chip.switchState = 0 ∧ s.chip.nzh.await[k] = [(n, [g.q], first)] ∧ max s.chip.now t ≤ first + us (s.chip.get F.NZH_BC_TO_TO) ∧ bitAt (s.chip.get F.NZH_STAT_BLIND) k = false ∧ (s.chip.port k).sent = [⟨n, 9, [g.q]⟩] ∧ -2048 ≤ x ∧ s.chip.on F.HP_PSTAT_BLANK k = false ∧ x < signed 12 (s.chip.get F.HP_TLIM_T_LIMIT k) ∧ x < signed 12 (s.chip.get F.HP_TLIM_T_CRIT k) ∧ g.isense ≤ s.chip.get F.NZH_THR_I_SHORT (g.q / 1280) ∧ g.isense < s.chip.get F.NZH_THR_I_OPEN (g.q / 1280) ∧ (s.chip.nozzle k g.q).state = 0 ∧ (s.chip.nozzle k g.q).strikes = 0 ∧ 2 ≤ s.chip.get F.NZH_CFG_CONFIRM ∧ g.noFire = false ∧ s.chip.nzh.deferred[k] = []) :=
  ⟨⟨5, (2 : Fin 8), (7 : Int), (0x20 : Int), (sig 3 255 9 : Signature), 5, (frame.put F.NZH_THR_I_SHORT 200 0), by decide +kernel⟩,
   ⟨5, (2 : Fin 8), (7 : Int), (0x20 : Int), (sig 3 100 9 : Signature), 5, (((frame.put F.NZH_THR_I_SHORT 200 0).put F.NZH_THR_I_OPEN 50 0).put F.NZH_THR_T_WEAK 30 0), by decide +kernel⟩,
   ⟨5, (2 : Fin 8), (7 : Int), (0x20 : Int), (sig 3 40 9 : Signature), 5, ((((frame.put F.NZH_THR_I_SHORT 200 0).put F.NZH_THR_I_OPEN 50 0).put F.NZH_THR_T_WEAK 3 0).put F.NZH_CFG_CONFIRM 3), by decide +kernel⟩⟩

theorem witness_RecordsAreIssued :
    (∃ (t : Nat) (a : Account) (e slot : Nat) (s : State), s.chip.up 5 = true ∧ s.chip.on F.NZH_CTRL_EN = true ∧ s.chip.nzh.accounts = [a] ∧ a.due = none ∧ (s.chip.at t).issueTime a = some e ∧ s.chip.twin = false ∧ s.chip.rejects (s.chip.itemFlags a) (a.partner.getD 0) a.forceReject = false ∧ slot = s.chip.get F.NZH_ARQ_BASE_LO_ADDR * 4096 + s.chip.get F.NZH_ARQ_BASE_HI_ADDR * 2 ^ 32 + 64 * (s.chip.get F.NZH_ARQ_WR_WR % 4096) ∧ s.chip.ddrReady = true ∧ s.chip.inDdr slot 64 = true ∧ (∀ w : Fin 8, s.chip.on F.DDR_WIN_PERM_EN w = false)) ∧
    (∃ (t : Nat) (s : State), s.chip.up 5 = true ∧ s.chip.on F.NZH_CTRL_EN = false) ∧
    (∃ (t id flags : Nat) (a : Account) (s : State), s.chip.up 5 = true ∧ s.chip.nzh.accounts = [a] ∧ a.id = id ∧ a.partner = none ∧ a.ready = false ∧ a.sentFlags = false ∧ a.pvDeadline = none ∧ a.due = none) ∧
    (∃ (t d e slot : Nat) (a : Account) (s : State), s.chip.up 5 = true ∧ s.chip.nzh.accounts = [a] ∧ a.ready = false ∧ a.sentFlags = true ∧ a.pvDeadline = some d ∧ d ≤ max s.chip.now t ∧ a.due = some e ∧ s.chip.rejects (s.chip.itemFlags { a with flags := putBit a.flags 16 true }) (a.partner.getD 0) a.forceReject = false ∧ slot = s.chip.get F.NZH_ARQ_BASE_LO_ADDR * 4096 + s.chip.get F.NZH_ARQ_BASE_HI_ADDR * 2 ^ 32 + 64 * (s.chip.get F.NZH_ARQ_WR_WR % 4096) ∧ s.chip.ddrReady = true ∧ s.chip.inDdr slot 64 = true ∧ (∀ w : Fin 8, s.chip.on F.DDR_WIN_PERM_EN w = false)) ∧
    (∃ (t : Nat) (i : Initiator) (s : State), s.chip.mayRead i R.NZH_ARQ_CLAIM.addr ∧ s.chip.get F.NZH_ARQ_RSV_RSV + s.chip.arqUnread < 4096) ∧
    (∃ (t : Nat) (i : Initiator) (s : State), s.chip.mayRead i R.NZH_ARQ_CLAIM.addr ∧ 4096 ≤ s.chip.get F.NZH_ARQ_RSV_RSV + s.chip.arqUnread) ∧
    (∃ (t : Nat) (i : Initiator) (s : State), s.chip.mayWrite i R.NZH_ARQ_RSV.addr) ∧
    (∃ (t : Nat) (i : Initiator) (w : Word) (v : Nat) (s : State), s.chip.mayWrite i R.NZH_ARQ_RD.addr ∧ v = fld F.NZH_ARQ_RD_RD w.toNat) :=
  ⟨⟨5, (acc : Account), (ddr.chip.at 5).nowNs, 0x1000000000, nz (fun z => { z with accounts := [acc] }) ddr, by decide +kernel⟩,
   ⟨5, base, by decide +kernel⟩,
   ⟨5, 5, 3, (acc : Account), nz (fun z => { z with accounts := [acc] }) ddr, by decide +kernel⟩,
   ⟨5, 4, 9, 0x1000000000, ({ acc with sentFlags := true, pvDeadline := some 4, due := some 9 } : Account), nz (fun z => { z with accounts := [{ acc with sentFlags := true, pvDeadline := some 4, due := some 9 }] }) ddr, by decide +kernel⟩,
   ⟨5, (.host : Initiator), base, by decide +kernel⟩,
   ⟨5, (.host : Initiator), base.put F.NZH_ARQ_RSV_RSV 4096, by decide +kernel⟩,
   ⟨5, (.jc0 : Initiator), base.put F.NZH_ARQ_RSV_RSV 3, by decide +kernel⟩,
   ⟨5, (.jc0 : Initiator), (3 : Word), 3, base.put F.NZH_ARQ_WR_WR 5, by decide +kernel⟩⟩

end FamI

namespace FamJ

def flw (f : FlwSt → FlwSt) (s : State) : State := s.on (fun c => { c with flw := f c.flw })
def ldl (f : LdlSt → LdlSt) (s : State) : State := s.on (fun c => { c with ldl := f c.ldl })
def xpert : State := base.on (fun c => c.setWord 0x100D0000 1)
def stale : State := flw (fun z => { z with loops := z.loops.set 2 (z.loops[2].set 1 { z.loops[2][1] with without := 9 }) }) ((base.put F.FLW_XCFG_HOLD 4).put F.FLW_LOOP_EN 0 1)
def cold : State := flw (fun z => { z with loops := z.loops.set 2 (z.loops[2].set 1 { z.loops[2][1] with tf := some 100 }) }) (((((base.put F.HP_STAT_STATE 5 2).put F.FLW_WARM_CFG_IDLE_EN 1).put F.FLW_WARM_CFG_CH 2).put F.FLW_WARM_T_LO 200).put F.LDL_BAR_BUD_BUD 50 0)
def warming : State := base.put F.FLW_WARM_STAT_IDLE_ACT 4
def bars : State := (base.put F.LDL_BAR_BUD_BUD 50 0).put F.LDL_CORE_BUD 50
def core : State := base.put F.LDL_EFF_CORE_EFF 50
def hot : State := flw (fun z => { z with sets := z.sets.set 2 [(R.FLW_SHAPE_A.at 0 12, 0x3205)] }) ((((warming.put F.FLW_WARM_CFG_CH 1).put F.HP_ELIM_LIMIT 0 2).on (fun c => c.setWord (R.FLW_EW_A.at 2 0) 0xFF)))

theorem witness_FlowstoneActs :
    (∃ (t : Nat) (k : Fin 8) (ic : Fin 6) (s : State), s.chip.up 5 = true ∧ s.chip.get F.FLW_XCFG_HOLD ≤ (s.chip.loop k ic).without ∧ (s.chip.loop k ic).stale = false ∧ ((∀ j : Fin 6, j ≠ ic → (s.chip.loop k j).without < s.chip.get F.FLW_XCFG_HOLD)) ∧ s.chip.on F.FLW_LOOP_EN ic = false) ∧
    (∃ (t : Nat) (i : Initiator) (ic : Fin 6) (n : Nat) (second : Bool) (w : Word) (a : Nat) (s : State), n < 13 ∧ a = (if second then R.FLW_SHAPE_B.at ic n else R.FLW_SHAPE_A.at ic n) ∧ s.chip.mayWrite i a ∧ s.chip.switchState = 0 ∧ s.chip.xpert a = true ∧ s.chip.on F.FLW_SHSTAT_PENDING = false ∧ s.chip.shapeRefused ic n (if second then (s.chip.word (R.FLW_SHAPE_A.at ic n)).toNat else w.toNat) (if second then w.toNat else (s.chip.word (R.FLW_SHAPE_B.at ic n)).toNat) = false) ∧
    (∃ (t : Nat) (i : Initiator) (ic : Fin 6) (n : Nat) (second : Bool) (w : Word) (a : Nat) (s : State), n < 13 ∧ a = (if second then R.FLW_SHAPE_B.at ic n else R.FLW_SHAPE_A.at ic n) ∧ s.chip.mayWrite i a ∧ s.chip.switchState = 0 ∧ (s.chip.xpert a = false ∨ s.chip.on F.FLW_SHSTAT_PENDING = true)) ∧
    (∃ (t : Nat) (i : Initiator) (ic : Fin 6) (w : Word) (lo hi mn mx sf : Int) (s : State), s.chip.mayWrite i (R.FLW_TRIM.at ic 0) ∧ s.chip.switchState = 0 ∧ lo = signed 8 (s.chip.get F.FLW_TCEIL_LO ic) ∧ hi = signed 8 (s.chip.get F.FLW_TCEIL_HI ic) ∧ mn = signed 8 (fld F.FLW_TRIM_MIN w.toNat) ∧ mx = signed 8 (fld F.FLW_TRIM_MAX w.toNat) ∧ sf = signed 8 (fld F.FLW_TRIM_SAFE w.toNat) ∧ lo ≤ hi ∧ (if hi < mn then hi else if mn < lo then lo else mn) ≤ (if hi < mx then hi else if mx < lo then lo else mx)) ∧
    (∃ (t : Nat) (i : Initiator) (w : Word) (s : State), s.chip.mayWrite i R.FLW_COMMIT.addr ∧ s.chip.on F.FLW_SHSTAT_PENDING = false ∧ (∀ k : Fin 8, s.chip.portEnabled k = false)) ∧
    (∃ (t : Nat) (i : Initiator) (w : Word) (s : State), s.chip.mayWrite i R.FLW_COMMIT.addr ∧ s.chip.on F.FLW_SHSTAT_PENDING = true) ∧
    (∃ (t : Nat) (k : Fin 8) (s : State), s.chip.up 5 = true ∧ (s.chip.at t).wantsWarming k = true ∧ bitAt (s.chip.get F.FLW_WARM_STAT_IDLE_ACT) k = false ∧ s.chip.ldl.asks = [] ∧ s.chip.ldl.grants = [] ∧ s.chip.get F.FLW_WARM_REQ_IDLE_AMT ≤ s.chip.ldlLimit (s.chip.barOf k)) ∧
    (∃ (t : Nat) (k : Fin 8) (s : State), (s.chip.up 5 = false ∨ bitAt (s.chip.get F.FLW_WARM_STAT_IDLE_ACT) k = true)) ∧
    (∃ (t e : Nat) (k : Fin 8) (s : State), s.chip.up 5 = true ∧ bitAt (s.chip.get F.FLW_WARM_STAT_IDLE_ACT) k = true ∧ s.chip.flw.warmNext[k] ≤ max s.chip.now t ∧ s.chip.flw.warmSent[k] = [] ∧ e = s.chip.warmEnergy k ∧ e ≤ s.chip.get F.HP_ELIM_LIMIT k) ∧
    (∃ (t e : Nat) (k : Fin 8) (s : State), s.chip.up 5 = true ∧ bitAt (s.chip.get F.FLW_WARM_STAT_IDLE_ACT) k = true ∧ s.chip.flw.warmNext[k] ≤ max s.chip.now t ∧ s.chip.flw.warmSent[k] = [] ∧ e = s.chip.warmEnergy k ∧ s.chip.get F.HP_ELIM_LIMIT k < e) :=
  ⟨⟨5, (2 : Fin 8), (1 : Fin 6), stale, by decide +kernel⟩,
   ⟨5, (.jc0 : Initiator), (1 : Fin 6), 3, (false : Bool), (0x3205 : Word), R.FLW_SHAPE_A.at 1 3, (xpert.put F.FLW_SCEIL_SPAN_MAX 300 1).put F.FLW_SCEIL_E_MAX 300 1, by decide +kernel⟩,
   ⟨5, (.jc0 : Initiator), (1 : Fin 6), 3, (false : Bool), (0x3205 : Word), R.FLW_SHAPE_A.at 1 3, base, by decide +kernel⟩,
   ⟨5, (.jc0 : Initiator), (1 : Fin 6), (0x5040F0 : Word), (-8 : Int), (8 : Int), (-16 : Int), (0x40 : Int), (0x50 : Int), (base.put F.FLW_TCEIL_LO 0xF8 1).put F.FLW_TCEIL_HI 8 1, by decide +kernel⟩,
   ⟨5, (.jc0 : Initiator), (0 : Word), base, by decide +kernel⟩,
   ⟨5, (.jc0 : Initiator), (0 : Word), base.put F.FLW_SHSTAT_PENDING 1, by decide +kernel⟩,
   ⟨us 100000, (2 : Fin 8), cold, by decide +kernel⟩,
   ⟨5, (2 : Fin 8), warming, by decide +kernel⟩,
   ⟨5, 0, (2 : Fin 8), warming, by decide +kernel⟩,
   ⟨5, hot.chip.warmEnergy 2, (2 : Fin 8), hot, by decide +kernel⟩⟩

theorem witness_LadleGrants :
    (∃ (t idx res amt : Nat) (s : State), idx < 8 ∧ s.chip.ldl.asks = [⟨7, idx, res, amt, none⟩] ∧ s.chip.ldlSum res + amt ≤ s.chip.ldlLimit res ∧ 1 ≤ res ∧ res ≤ 4) ∧
    (∃ (t idx res amt : Nat) (client : Fin 8) (s : State), s.chip.ldl.asks = [⟨client.val, idx, res, amt, none⟩] ∧ s.chip.ldlLimit res < s.chip.ldlSum res + amt ∧ 0 < amt ∧ client ≠ 2 ∧ s.chip.ldl.refusedAt[client] = none ∧ res ≤ 4) ∧
    (∃ (t idx res amt again : Nat) (client : Fin 8) (s : State), s.chip.ldl.asks = [⟨client.val, idx, res, amt, some again⟩] ∧ max s.chip.now t < again) ∧
    (∃ (t idx res amt again : Nat) (s : State), idx < 8 ∧ s.chip.ldl.asks = [⟨7, idx, res, amt, some again⟩] ∧ again ≤ max s.chip.now t ∧ s.chip.ldlSum res + amt ≤ s.chip.ldlLimit res) ∧
    (∃ (t idx : Nat) (client : Fin 8) (s : State), s.chip.ladleInUse client idx = false) ∧
    (∃ (t idx : Nat) (client : Fin 8) (s : State), s.chip.ladleInUse client idx = true) ∧
    (∃ (t res amt : Nat) (i : Initiator) (w : Word) (slot : Fin 16) (s : State), s.chip.mayWrite i R.LDL_SW_REQ.addr ∧ res = fld F.LDL_SW_REQ_RES w.toNat ∧ res ≤ 4 ∧ amt = fld F.LDL_SW_REQ_AMT w.toNat ∧ s.chip.ldlSum res + amt ≤ s.chip.ldlLimit res ∧ bitAt (s.chip.get F.LDL_SW_STAT_HELD) slot = false ∧ ((∀ j : Fin 16, j < slot → bitAt (s.chip.get F.LDL_SW_STAT_HELD) j = true))) ∧
    (∃ (t : Nat) (i : Initiator) (w : Word) (s : State), s.chip.mayWrite i R.LDL_SW_REQ.addr ∧ fld F.LDL_SW_REQ_RES w.toNat ≤ 4 ∧ s.chip.get F.LDL_SW_STAT_HELD = 0xFFFF) ∧
    (∃ (t slot : Nat) (i : Initiator) (w : Word) (s : State), s.chip.mayWrite i R.LDL_SW_REL.addr ∧ slot = fld F.LDL_SW_REL_SLOT w.toNat ∧ bitAt (s.chip.get F.LDL_SW_STAT_HELD) slot = true) ∧
    (∃ (t slot : Nat) (i : Initiator) (w : Word) (s : State), s.chip.mayWrite i R.LDL_SW_REL.addr ∧ slot = fld F.LDL_SW_REL_SLOT w.toNat ∧ bitAt (s.chip.get F.LDL_SW_STAT_HELD) slot = false) ∧
    (∃ (t slot q : Nat) (i : Initiator) (w : Word) (s : State), s.chip.mayWrite i R.LDL_SW_BIND.addr ∧ slot = fld F.LDL_SW_BIND_SLOT w.toNat ∧ q = fld F.LDL_SW_BIND_IQ_SLOT w.toNat ∧ bitAt (s.chip.get F.LDL_SW_STAT_HELD) slot = true) ∧
    (∃ (t : Nat) (s : State), s.chip.up 4 = true ∧ s.chip.on F.DDR_SCRUB_EN = true ∧ s.chip.ddrReady = true ∧ s.chip.mem.scrubAt ≤ max s.chip.now t ∧ s.chip.ldl.asks = [] ∧ s.chip.ldl.grants = [] ∧ s.chip.get F.DDR_SCRUB_AMT_AMT ≤ s.chip.ldlLimit 0 ∧ s.chip.get F.DDR_SCRUB_POS_POS + 1 < s.chip.get F.DDR_STAT_SIZE * 2 ^ 18) ∧
    (∃ (t : Nat) (s : State), (s.chip.up 4 = false ∨ s.chip.on F.DDR_SCRUB_EN = false ∨ s.chip.ddrReady = false ∨ max s.chip.now t < s.chip.mem.scrubAt)) :=
  ⟨⟨5, 2, 1, 20, ldl (fun l => { l with asks := [⟨7, 2, 1, 20, none⟩] }) bars, by decide +kernel⟩,
   ⟨5, 2, 1, 90, (7 : Fin 8), ldl (fun l => { l with asks := [⟨7, 2, 1, 90, none⟩] }) bars, by decide +kernel⟩,
   ⟨5, 2, 1, 90, 9, (7 : Fin 8), ldl (fun l => { l with asks := [⟨7, 2, 1, 90, some 9⟩] }) bars, by decide +kernel⟩,
   ⟨9, 2, 1, 20, 9, ldl (fun l => { l with asks := [⟨7, 2, 1, 20, some 9⟩] }) bars, by decide +kernel⟩,
   ⟨9, 0, (2 : Fin 8), ldl (fun l => { l with grants := [⟨2, 0, 0, 20⟩] }) core, by decide +kernel⟩,
   ⟨9, 0, (5 : Fin 8), core, by decide +kernel⟩,
   ⟨5, 0, 7, (.jc1 : Initiator), (BitVec.ofNat 32 (withBits 0 F.LDL_SW_REQ_AMT.hi F.LDL_SW_REQ_AMT.lo 7) : Word), (1 : Fin 16), core.put F.LDL_SW_STAT_HELD 1, by decide +kernel⟩,
   ⟨5, (.jc1 : Initiator), (0 : Word), core.put F.LDL_SW_STAT_HELD 0xFFFF, by decide +kernel⟩,
   ⟨5, 0, (.jc1 : Initiator), (0 : Word), (ldl (fun l => { l with grants := [⟨5, 0, 0, 7⟩], bound := [(0, 3)] }) core).put F.LDL_SW_STAT_HELD 1, by decide +kernel⟩,
   ⟨5, 0, (.jc1 : Initiator), (0 : Word), core, by decide +kernel⟩,
   ⟨5, 0, 0, (.jc1 : Initiator), (0 : Word), core.put F.LDL_SW_STAT_HELD 1, by decide +kernel⟩,
   ⟨5, ((core.put F.DDR_SCRUB_EN 1).put F.DDR_STAT_READY 1).put F.DDR_STAT_SIZE 4, by decide +kernel⟩,
   ⟨5, core, by decide +kernel⟩⟩

end FamJ

namespace FamK

def ctl : Word := BitVec.ofNat 32 (withBits 0 F.TKO_CTRL_EN.hi F.TKO_CTRL_EN.lo 1)
def tk (f : TkoSt → TkoSt) (s : State) : State := s.on (fun c => { c with tko := f c.tko })
def twin : State := ((((List.range 8).foldl (fun s k => s.put F.TKO_PAIR_EN 0 k) base).put F.TKO_PARTNER_EN 1).put F.TKO_PARTNER_NODE 9).put F.TKO_CTRL_EN 1
def pair : State := (twin.put F.TKO_PAIR_EN 1 2).put F.TKO_PAIR_PPORT 5 2
def pairT : State := (pair.put F.SYS_ID_VARIANT 1).put F.TKO_CFG_AUTO_SOLO 1
def beat : Heartbeat := { node := 9, seq := 44, state := 1, tSend := 99, key := 0, echo := 65535, ok := 0, solo := 0, lastFired := 7, pendValid := false, pendKey := 0, pendLine := 0 }
def hpk (f : PortSt → PortSt) (s : State) : State := s.on (fun c => { c with hp := c.hp.set 2 (f c.hp[2]) })
def lostS : State := ((twin.put F.TKO_STAT_STATE 2).put F.TKO_STAT_ISOLATED 1).put F.TKO_XCFG_NO_FENCE 1
def waitD : State := tk (fun z => { z with decide := [(4, [2])] }) pairT
def solo : State := (pairT.put F.TKO_PORTS_LOST 4).put F.TKO_PORTS_SOLO 4
def asked : State := tk (fun z => { z with fillAt := z.fillAt.set 2 (some 3) }) pairT
def upT : State := (pairT.put F.HP_STAT_STATE 5 2).put F.HP_TWARN_T_WARN 0x100 2
def stb : State := ((((base.put F.TKO_STBYMAP_MAP 0xA00).put F.COL_STBY_ARM 1 2).put F.COL_PORT_MODE 3 2).put F.CMP_TP_EN 1 2)
def joinable : State := (((tk (fun z => { z with keyOk := true }) twin).put F.TRK_STAT_RUN 1).put F.CMP_CTRL_EN 1).put F.TKO_CTRL_EN 1

theorem witness_PairWatchesItself :
    (∃ (t : Nat) (i : Initiator) (w : Word) (s : State), s.chip.mayWrite i R.TKO_CTRL.addr ∧ s.chip.switchState = 0 ∧ s.chip.calBusy = false ∧ s.chip.on F.TKO_CTRL_EN = false ∧ fld F.TKO_CTRL_JOIN w.toNat = 0 ∧ (∀ k : Fin 8, s.chip.on F.TKO_PAIR_EN k = false)) ∧
    (∃ (t : Nat) (s : State), s.chip.up 3 = true ∧ s.chip.on F.TKO_CTRL_EN = true ∧ s.chip.twin = true ∧ s.chip.tko.pend = none ∧ (∀ k : Fin 8, s.chip.on F.TKO_PAIR_EN k = false) ∧ s.chip.tko.period = some ((s.chip.at t).nowNs / (1000 * max 1 (s.chip.get F.TKO_HB_CFG_PER)))) ∧
    (∃ (t q p : Nat) (s : State), s.chip.up 3 = true ∧ s.chip.on F.TKO_CTRL_EN = true ∧ s.chip.twin = true ∧ s.chip.tko.period = some q ∧ p = (s.chip.at t).nowNs / (1000 * max 1 (s.chip.get F.TKO_HB_CFG_PER)) ∧ q ≠ p ∧ s.chip.tko.heardNow = false) ∧
    (∃ (t q p : Nat) (s : State), s.chip.up 3 = true ∧ s.chip.on F.TKO_CTRL_EN = true ∧ s.chip.twin = true ∧ s.chip.tko.period = some q ∧ p = (s.chip.at t).nowNs / (1000 * max 1 (s.chip.get F.TKO_HB_CFG_PER)) ∧ q ≠ p ∧ s.chip.tko.heardNow = true ∧ s.chip.tko.keyNow = false ∧ s.chip.get F.TKO_HB_CFG_MISS ≤ s.chip.tko.misRun + 1 ∧ (s.chip.get F.TKO_STAT_STATE = 1 ∨ s.chip.get F.TKO_STAT_STATE = 2)) ∧
    (∃ (t : Nat) (s : State), (s.chip.up 3 = false ∨ s.chip.on F.TKO_CTRL_EN = false ∨ s.chip.twin = false)) ∧
    (∃ (t : Nat) (h : Heartbeat) (s : State), (s.chip.up 3 = false ∨ s.chip.on F.TKO_CTRL_EN = false ∨ s.chip.twin = false ∨ h.node ≠ s.chip.get F.TKO_PARTNER_NODE ∨ (s.chip.tko.heard = true ∧ (h.seq + 65536 - s.chip.get F.TKO_HB_STAT_LAST_SEQ) % 65536 = 0))) ∧
    (∃ (t : Nat) (h : Heartbeat) (s : State), s.chip.up 3 = true ∧ s.chip.on F.TKO_CTRL_EN = true ∧ s.chip.twin = true ∧ h.node = s.chip.get F.TKO_PARTNER_NODE ∧ s.chip.tko.heard = false ∧ h.key = s.chip.get F.TKO_KEY_KEY ∧ h.state ≠ 3 ∧ s.chip.get F.TKO_STAT_STATE = 1 ∧ s.chip.tko.sent = true ∧ h.echo = (s.chip.tko.seq + 65535) % 65536 ∧ (∀ k : Fin 8, s.chip.on F.TKO_PAIR_EN k = false) ∧ s.chip.on F.TKO_STBY_AUTO = false ∧ h.seq < 65536 ∧ h.tSend < 2 ^ 64) ∧
    (∃ (t : Nat) (s : State), s.chip.up 3 = true ∧ (s.chip.get F.TKO_STAT_STATE = 2 ∨ s.chip.get F.TKO_STAT_STATE = 6) ∧ ns s.chip.tko.tSend + us (s.chip.get F.TKO_HB_CFG_MISS * s.chip.get F.TKO_HB_CFG_PER) ≤ max s.chip.now t ∧ s.chip.on F.TKO_STAT_ISOLATED = true ∧ s.chip.on F.TKO_XCFG_NO_FENCE = true ∧ (∀ k : Fin 8, s.chip.on F.TKO_PAIR_EN k = false) ∧ s.chip.col.dnt = [] ∧ (∀ k : Fin 8, s.chip.on F.COL_PSTAT_EXTRA k = false)) ∧
    (∃ (t : Nat) (s : State), s.chip.up 3 = true ∧ (s.chip.get F.TKO_STAT_STATE = 2 ∨ s.chip.get F.TKO_STAT_STATE = 6) ∧ ns s.chip.tko.tSend + us (s.chip.get F.TKO_HB_CFG_MISS * s.chip.get F.TKO_HB_CFG_PER) ≤ max s.chip.now t ∧ s.chip.on F.TKO_STAT_ISOLATED = false ∧ s.chip.on F.TKO_CFG_CONFIRM = true ∧ (∀ k : Fin 8, s.chip.on F.TKO_PAIR_EN k = false) ∧ s.chip.col.dnt = [] ∧ (∀ k : Fin 8, s.chip.on F.COL_PSTAT_EXTRA k = false) ∧ s.chip.cmp.items = [] ∧ s.chip.on F.TKO_STBY_AUTO = false) ∧
    (∃ (t : Nat) (i : Initiator) (s : State), s.chip.mayRead i R.TKO_HB_TS_LO.addr) ∧
    (∃ (t : Nat) (i : Initiator) (s : State), s.chip.mayRead i R.TKO_SW_LO.addr) ∧
    (∃ (t : Nat) (i : Initiator) (s : State), s.chip.mayRead i R.TKO_RET_LO.addr) :=
  ⟨⟨5, (.tc : Initiator), (1 : Word), twin.put F.TKO_CTRL_EN 0, by decide +kernel⟩,
   ⟨5, tk (fun z => { z with period := some ((twin.chip.at 5).nowNs / 100000) }) (twin.put F.TKO_HB_CFG_PER 100), by decide +kernel⟩,
   ⟨us 250, 0, ((twin.chip.at (us 250)).nowNs / 100000), tk (fun z => { z with period := some 0 }) (twin.put F.TKO_HB_CFG_PER 100), by decide +kernel⟩,
   ⟨us 250, 0, ((twin.chip.at (us 250)).nowNs / 100000), tk (fun z => { z with period := some 0, heardNow := true, misRun := 2 }) (((twin.put F.TKO_HB_CFG_PER 100).put F.TKO_HB_CFG_MISS 3).put F.TKO_STAT_STATE 2), by decide +kernel⟩,
   ⟨5, base, by decide +kernel⟩,
   ⟨5, ({ beat with node := 4 } : Heartbeat), twin, by decide +kernel⟩,
   ⟨5, (beat : Heartbeat), tk (fun z => { z with sent := true }) (twin.put F.TKO_STAT_STATE 1), by decide +kernel⟩,
   ⟨us 100000, lostS, by decide +kernel⟩,
   ⟨us 100000, (lostS.put F.TKO_STAT_ISOLATED 0).put F.TKO_CFG_CONFIRM 1, by decide +kernel⟩,
   ⟨5, (.tc : Initiator), base, by decide +kernel⟩,
   ⟨5, (.tc : Initiator), base, by decide +kernel⟩,
   ⟨5, (.tc : Initiator), base, by decide +kernel⟩⟩

theorem witness_TakeoverReturnAndFill :
    (∃ (t d : Nat) (i : Initiator) (w : Word) (k : Fin 8) (n : Int) (s : State), s.chip.mayWrite i R.TKO_DECIDE.addr ∧ s.chip.tko.decide = [(d, [k.val])] ∧ s.chip.takesOver = true ∧ s.chip.on F.TKO_XCFG_NO_TAKEOVER = false ∧ bitAt (s.chip.get F.TKO_PORTS_SOLO) k = false ∧ n = lineFrom ((s.chip.at t).lineAfter (s.chip.get F.TKO_LEAD_REFILL)) (s.chip.otherSide k)) ∧
    (∃ (t d : Nat) (k : Fin 8) (n : Int) (s : State), s.chip.up 3 = true ∧ s.chip.tko.decide = [(d, [k.val])] ∧ d ≤ max s.chip.now t ∧ s.chip.takesOver = true ∧ s.chip.on F.TKO_XCFG_NO_TAKEOVER = false ∧ bitAt (s.chip.get F.TKO_PORTS_SOLO) k = false ∧ n = lineFrom ((s.chip.at t).lineAfter (s.chip.get F.TKO_LEAD_REFILL)) (s.chip.otherSide k)) ∧
    (∃ (t : Nat) (s : State), s.chip.tko.decide = []) ∧
    (∃ (t d : Nat) (i : Initiator) (w : Word) (k : Fin 8) (s : State), s.chip.mayWrite i R.TKO_DECIDE.addr ∧ s.chip.tko.decide = [(d, [k.val])] ∧ s.chip.tko.lostLines[k] = none) ∧
    (∃ (t : Nat) (i : Initiator) (w : Word) (s : State), s.chip.mayWrite i R.TKO_CTRL.addr ∧ s.chip.switchState = 0 ∧ s.chip.calBusy = false ∧ s.chip.on F.TKO_CTRL_EN = true ∧ fld F.TKO_CTRL_EN w.toNat = 1 ∧ s.chip.mayJoin = true) ∧
    (∃ (t : Nat) (i : Initiator) (w : Word) (s : State), s.chip.mayWrite i R.TKO_CTRL.addr ∧ s.chip.switchState = 0 ∧ s.chip.calBusy = false ∧ s.chip.on F.TKO_CTRL_EN = true ∧ fld F.TKO_CTRL_EN w.toNat = 1 ∧ s.chip.mayJoin = false) ∧
    (∃ (t : Nat) (w0 : Int) (firsts : List Int) (n : Int) (s : State), s.chip.up 3 = true ∧ s.chip.get F.TKO_STAT_STATE = 3 ∧ (∀ k : Fin 8, s.chip.on F.TKO_PAIR_EN k = false) ∧ n = max (listMax (w0 :: firsts) + s.chip.lMax) ((s.chip.at t).lineAfter (s.chip.get F.TKO_LEAD_RET_LEAD))) ∧
    (∃ (t : Nat) (w0 : Int) (firsts : List Int) (s : State), (s.chip.up 3 = false ∨ s.chip.get F.TKO_STAT_STATE ≠ 3)) ∧
    (∃ (t port : Nat) (k : Fin 8) (earliest n : Int) (s : State), s.chip.up 3 = true ∧ s.chip.ofPartner port = some k ∧ bitAt (s.chip.get F.TKO_PORTS_LOST) k = true ∧ s.chip.tko.lostLines[k] = none ∧ bitAt (s.chip.get F.TKO_PORTS_SOLO) k = true ∧ n = lineFrom (max earliest ((s.chip.at t).lineAfter (s.chip.get F.TKO_LEAD_RET_LEAD))) (s.chip.otherSide k)) ∧
    (∃ (t port : Nat) (earliest : Int) (s : State), s.chip.ofPartner port = none) ∧
    (∃ (t mask : Nat) (k : Fin 8) (n : Int) (s : State), s.chip.up 3 = true ∧ s.chip.pairPorts = [k] ∧ bitAt mask (s.chip.get F.TKO_PAIR_PPORT k) = true ∧ (s.chip.get F.TKO_STAT_STATE = 4 ∨ s.chip.get F.TKO_STAT_STATE = 5) ∧ s.chip.tko.fenced = 0 ∧ s.chip.get F.COL_PSTAT_FIRES k ≠ 0) ∧
    (∃ (t p : Nat) (k : Fin 8) (n : Int) (s : State), s.chip.up 3 = true ∧ s.chip.standbyFor p = some k ∧ s.chip.stbyAllowed k p true n = true) ∧
    (∃ (t p op : Nat) (n : Int) (s : State), (s.chip.up 3 = false ∨ op ≠ 1 ∨ s.chip.standbyFor p = none)) ∧
    (∃ (t port reason : Nat) (k : Fin 8) (s : State), s.chip.up 3 = true ∧ s.chip.ofPartner port = some k ∧ ((s.chip.isUp k = false ∨ s.chip.takesOver = false ∨ s.chip.get F.TKO_STAT_STATE = 6) ∧ reason = 4 ∨ s.chip.isUp k = true ∧ s.chip.takesOver = true ∧ s.chip.get F.TKO_STAT_STATE ≠ 6 ∧ signed 12 (s.chip.get F.HP_TWARN_T_WARN k) ≤ signed 12 (s.chip.get F.HP_TEMP_T_H k) ∧ reason = 1)) ∧
    (∃ (t port : Nat) (k : Fin 8) (n : Int) (s : State), s.chip.up 3 = true ∧ s.chip.ofPartner port = some k ∧ s.chip.isUp k = true ∧ s.chip.fillRefusal k = none ∧ n = lineFrom ((s.chip.at t).lineAfter (s.chip.get F.TKO_LEAD_REFILL)) (s.chip.otherSide k)) ∧
    (∃ (t port : Nat) (k : Fin 8) (n : Int) (s : State), s.chip.up 3 = true ∧ s.chip.ofPartner port = some k ∧ s.chip.tko.fillAt[k] ≠ none ∧ s.chip.on F.HP_PSTAT_BLANK k = true) ∧
    (∃ (t port reason : Nat) (k : Fin 8) (s : State), s.chip.up 3 = true ∧ s.chip.ofPartner port = some k ∧ s.chip.tko.fillAt[k] ≠ none) ∧
    (∃ (t since : Nat) (k : Fin 8) (s : State), s.chip.up 3 = true ∧ s.chip.tko.fillAt[k] = some since ∧ since + us 100 ≤ max s.chip.now t) ∧
    (∃ (t : Nat) (k : Fin 8) (s : State), s.chip.tko.fillAt[k] = none) ∧
    (∃ (t port : Nat) (k : Fin 8) (earliest n : Int) (s : State), s.chip.up 3 = true ∧ s.chip.ofPartner port = some k ∧ bitAt (s.chip.get F.TKO_PORTS_SOLO) k = true ∧ n = lineFrom (max earliest ((s.chip.at t).lineAfter (s.chip.get F.TKO_LEAD_RET_LEAD))) (s.chip.otherSide k)) ∧
    (∃ (t port : Nat) (k : Fin 8) (n : Int) (s : State), s.chip.up 3 = true ∧ s.chip.ofPartner port = some k ∧ (s.chip.port k).fillFrom ≠ none) ∧
    (∃ (t port : Nat) (k : Fin 8) (n : Int) (s : State), s.chip.ofPartner port = some k ∧ (s.chip.port k).fillFrom = none) :=
  ⟨⟨5, 4, (.tc : Initiator), (0 : Word), (2 : Fin 8), (lineFrom ((waitD.chip.at 5).lineAfter (waitD.chip.get F.TKO_LEAD_REFILL)) (waitD.chip.otherSide 2) : Int), waitD, by decide +kernel⟩,
   ⟨5, 4, (2 : Fin 8), (lineFrom ((waitD.chip.at 5).lineAfter (waitD.chip.get F.TKO_LEAD_REFILL)) (waitD.chip.otherSide 2) : Int), waitD, by decide +kernel⟩,
   ⟨5, base, by decide +kernel⟩,
   ⟨5, 4, (.tc : Initiator), (0 : Word), (2 : Fin 8), waitD, by decide +kernel⟩,
   ⟨5, (.tc : Initiator), (ctl : Word), joinable, by decide +kernel⟩,
   ⟨5, (.tc : Initiator), (ctl : Word), twin, by decide +kernel⟩,
   ⟨5, (500 : Int), ([600] : List Int), (600 : Int), twin.put F.TKO_STAT_STATE 3, by decide +kernel⟩,
   ⟨5, (500 : Int), ([600] : List Int), twin, by decide +kernel⟩,
   ⟨5, 5, (2 : Fin 8), (500 : Int), (if solo.chip.otherSide 2 500 then 500 else 501 : Int), solo, by decide +kernel⟩,
   ⟨5, 6, (500 : Int), solo, by decide +kernel⟩,
   ⟨5, 32, (2 : Fin 8), (500 : Int), (pairT.put F.TKO_STAT_STATE 4).put F.COL_PSTAT_FIRES 1 2, by decide +kernel⟩,
   ⟨5, 2, (2 : Fin 8), (500 : Int), stb, by decide +kernel⟩,
   ⟨5, 2, 2, (500 : Int), stb, by decide +kernel⟩,
   ⟨5, 5, 4, (2 : Fin 8), pairT, by decide +kernel⟩,
   ⟨5, 5, (2 : Fin 8), (lineFrom ((upT.chip.at 5).lineAfter (upT.chip.get F.TKO_LEAD_REFILL)) (upT.chip.otherSide 2) : Int), upT, by decide +kernel⟩,
   ⟨5, 5, (2 : Fin 8), (70 : Int), asked.put F.HP_PSTAT_BLANK 1 2, by decide +kernel⟩,
   ⟨5, 5, 1, (2 : Fin 8), asked, by decide +kernel⟩,
   ⟨us 200, 3, (2 : Fin 8), asked, by decide +kernel⟩,
   ⟨us 200, (2 : Fin 8), pairT, by decide +kernel⟩,
   ⟨5, 5, (2 : Fin 8), (500 : Int), (if solo.chip.otherSide 2 500 then 500 else 501 : Int), solo, by decide +kernel⟩,
   ⟨5, 5, (2 : Fin 8), (70 : Int), hpk (fun p => { p with fillFrom := some 4 }) pairT, by decide +kernel⟩,
   ⟨5, 5, (2 : Fin 8), (70 : Int), pairT, by decide +kernel⟩⟩

end FamK

namespace FamL

def str (f : StrSt → StrSt) (s : State) : State := s.on (fun c => { c with str := f c.str })
def ddr : State := ((((base.put F.DDR_STAT_READY 1).put F.DDR_STAT_SIZE 4).put F.STR_LOAD_HI_ADDR 0x10).put F.STR_SLOT_BASE_HI_ADDR 0x10).put F.STR_SLOT_BASE_LO_ADDR 0x100
def src : State := { ddr.put F.STR_LOAD_LEN_LEN 128 with store := ddr.store.write 0x1000000000 [1, 2, 3] }
def chk : State := src.put F.STR_STAT_CHECKING 1
def pendV : State := base.put F.STR_STAT_PEND_VALID 1
def prep : State := pendV.put F.STR_STAT_SW_STATE 1
def com : State := str (fun z => { z with wantApply := [1], eLine := some 5 }) (pendV.put F.STR_STAT_SW_STATE 2)
def trk : State := ((prep.put F.TRK_CTRL_EN 1).put F.TRK_STAT_RUN 1).on (fun c => { c with trk := { c.trk with issued := true } })

theorem witness_ImageLoads :
    (∃ (t : Nat) (i : Initiator) (w : Word) (src dst len : Nat) (s : State), s.chip.mayWrite i R.STR_LOAD_GO.addr ∧ s.chip.on F.STR_STAT_CHECKING = false ∧ s.chip.switchState = 0 ∧ s.chip.fw.calCmd = none ∧ src = s.chip.get F.STR_LOAD_HI_ADDR * 2 ^ 32 + s.chip.get F.STR_LOAD_LO_ADDR * 4 ∧ dst = s.chip.get F.STR_SLOT_BASE_HI_ADDR * 2 ^ 32 + s.chip.get F.STR_SLOT_BASE_LO_ADDR * 4096 + 262144 * (1 - s.chip.get F.STR_STAT_ACTIVE_SLOT) ∧ len = s.chip.get F.STR_LOAD_LEN_LEN ∧ len % 64 = 0 ∧ s.chip.ddrReady = true ∧ s.chip.inDdr src len = true ∧ s.chip.inDdr dst len = true ∧ (∀ w : Fin 8, s.chip.on F.DDR_WIN_PERM_EN w = false)) ∧
    (∃ (t : Nat) (i : Initiator) (w : Word) (s : State), s.chip.mayWrite i R.STR_LOAD_GO.addr ∧ s.chip.fw.calCmd = none ∧ (s.chip.on F.STR_STAT_CHECKING = true ∨ s.chip.switchState ≠ 0)) ∧
    (∃ (t dst len : Nat) (l : List Nat) (r : Nat × Nat) (s : State), s.chip.up 1 = true ∧ s.chip.on F.STR_STAT_CHECKING = true ∧ s.chip.str.copyFail = false ∧ s.chip.fw.tcWait = [] ∧ dst = s.chip.get F.STR_SLOT_BASE_HI_ADDR * 2 ^ 32 + s.chip.get F.STR_SLOT_BASE_LO_ADDR * 4096 + 262144 * (1 - s.chip.get F.STR_STAT_ACTIVE_SLOT) ∧ len = s.chip.get F.STR_LOAD_LEN_LEN ∧ s.chip.ddrReady = true ∧ s.chip.inDdr dst len = true ∧ (∀ w : Fin 8, s.chip.on F.DDR_WIN_PERM_EN w = false) ∧ l = (s.store.read dst len).map BitVec.toNat ∧ r = ((s.chip.at t).readFuses s.store).imageCheck l) ∧
    (∃ (t : Nat) (s : State), s.chip.up 1 = true ∧ s.chip.on F.STR_STAT_CHECKING = true ∧ s.chip.str.copyFail = true ∧ s.chip.fw.tcWait = []) :=
  ⟨⟨5, (.tc : Initiator), (0 : Word), 0x1000000000, 0x1000140000, 128, src, by decide +kernel⟩,
   ⟨5, (.tc : Initiator), (0 : Word), base.put F.STR_STAT_CHECKING 1, by decide +kernel⟩,
   ⟨5, 0x1000140000, 128, ((chk.store.read 0x1000140000 128).map BitVec.toNat : List Nat), (((chk.chip.at 5).readFuses chk.store).imageCheck ((chk.store.read 0x1000140000 128).map BitVec.toNat) : Nat × Nat), chk, by decide +kernel⟩,
   ⟨5, str (fun z => { z with copyFail := true }) chk, by decide +kernel⟩⟩

theorem witness_ImageSwitches :
    (∃ (t r : Nat) (w : Word) (s : State), s.chip.mayWrite .tc R.STR_APPROVE.addr ∧ s.chip.fw.calCmd = none ∧ s.chip.calBusy = false ∧ (r = 0x40 ∧ s.chip.on F.STR_STAT_PEND_VALID = false ∨ r = 0x41 ∧ s.chip.on F.STR_STAT_PEND_VALID = true ∧ s.chip.switchState ≠ 0)) ∧
    (∃ (t : Nat) (w : Word) (s : State), s.chip.mayWrite .tc R.STR_APPROVE.addr ∧ s.chip.fw.calCmd = none ∧ s.chip.calBusy = false ∧ s.chip.on F.STR_STAT_PEND_VALID = true ∧ s.chip.switchState = 0 ∧ s.chip.on F.TRK_STAT_RUN = false ∧ (∀ k : Fin 8, s.chip.portState k = 0) ∧ s.chip.on F.FLW_SHSTAT_PENDING = false) ∧
    (∃ (t : Nat) (w : Word) (s : State), s.chip.mayWrite .tc R.STR_APPROVE.addr ∧ s.chip.fw.calCmd = none ∧ s.chip.calBusy = false ∧ s.chip.switchState = 1 ∧ (∀ k : Fin 8, (s.chip.port k).coldHold = false)) ∧
    (∃ (t : Nat) (w : Word) (s : State), s.chip.mayWrite .tc R.STR_APPROVE.addr ∧ s.chip.fw.calCmd = none ∧ s.chip.calBusy = false ∧ s.chip.switchState ≠ 1) ∧
    (∃ (t b : Nat) (s : State), s.chip.up 1 = true ∧ s.chip.switchState = 1 ∧ s.chip.str.wantReady = [b] ∧ s.chip.mayAnswer b = true ∧ s.chip.str.loadFail = none ∧ s.chip.trkOn = true ∧ s.chip.trk.issued = true) ∧
    (∃ (t b : Nat) (s : State), (s.chip.up 1 = false ∨ s.chip.switchState ≠ 1)) ∧
    (∃ (t e n : Nat) (s : State), s.chip.up 1 = true ∧ s.chip.switchState = 2 ∧ s.chip.str.wantApply = [1] ∧ s.chip.str.eLine = some e ∧ (e : Rat) / (256 : Nat) ≤ (s.chip.at t).nowQ ∧ (∀ k : Fin 8, (s.chip.port k).coldHold = false) ∧ n = (if s.chip.str.immediate then 0 else unsigned 48 s.chip.namedLine)) ∧
    (∃ (t : Nat) (s : State), (s.chip.up 1 = false ∨ s.chip.str.eLine = none)) ∧
    (∃ (t : Nat) (i : Initiator) (s : State), s.chip.mayRead i R.STR_APPLIED_LO.addr) ∧
    (∃ (t : Nat) (i : Initiator) (s : State), s.chip.mayRead i R.STR_CMPLINE_LO.addr) :=
  ⟨⟨5, 0x40, (0 : Word), base, by decide +kernel⟩,
   ⟨5, (0 : Word), pendV, by decide +kernel⟩,
   ⟨5, (0 : Word), prep, by decide +kernel⟩,
   ⟨5, (0 : Word), base, by decide +kernel⟩,
   ⟨5, 0x0A, str (fun z => { z with wantReady := [0x0A] }) trk, by decide +kernel⟩,
   ⟨5, 0x0A, base, by decide +kernel⟩,
   ⟨ns 5, 5, 0, com, by decide +kernel⟩,
   ⟨5, base, by decide +kernel⟩,
   ⟨5, (.tc : Initiator), base, by decide +kernel⟩,
   ⟨5, (.tc : Initiator), base, by decide +kernel⟩⟩

end FamL

namespace FamM

def fb (f : FabSt → FabSt) (s : State) : State := s.on (fun c => { c with fab := f c.fab })
def ports : State := (((base.put F.FAB_CTRL_EN 1).put F.FAB_NODE_PORT_EN 7).put F.STR_STAT_ACTIVE_VALID 1).put F.FAB_NODE_NODE_ID 3
def upF : State := (ports.put F.FAB_P_STAT_STATE 3 0).put F.FAB_P_STAT_LANES 3 0
def pf (f : FabPort → FabPort) (s : State) : State := fb (fun z => { z with ports := z.ports.set 0 (f z.ports[0]) }) s
def ldlG (l : List Grant) (s : State) : State := s.on (fun c => { c with ldl := { c.ldl with grants := l } })
def frm (k d : Nat) : FabFrame := { kind := k, scope := 0, wrapped := false, flowStart := false, dest := d, src := 9, hops := 0, frag := 0, seq := 5, body := List.replicate 16 7, aux := 0, cls := 0 }
def ddrF : State := (((((base.put F.DDR_STAT_READY 1).put F.DDR_STAT_SIZE 4).put F.FAB_INBOX_BASE_HI_ADDR 0x10).put F.FAB_BULK_BASE_HI_ADDR 0x10).put F.FAB_TXQ_BASE_HI_ADDR 0x10).put F.FAB_NODE_NODE_ID 3
def txq (d : List Nat) : State := { ddrF.put F.FAB_TXQ_WR_WR 1 with store := ddrF.store.write 0x1000000000 (d.map (BitVec.ofNat 8)) }
def good : List Nat := [0x20, 0, 3, 0, 8, 0, 0, 0, 0, 1, 0, 0, 0, 0, 0, 0] ++ List.replicate 16 0
def tx1 : TxDesc := { slot := 0, kind := 0x10, dest := 9, frames := [frm 0x10 9], sentAt := 0 }
def tx2 : TxDesc := { tx1 with frames := [frm 0x10 9, { frm 0x10 9 with seq := 6 }] }
def txs (x : TxDesc) : State := fb (fun z => { z with tx := some x }) (ddrF.put F.FAB_TXQ_WR_WR 1)

theorem witness_FabricLinks :
    (∃ (t : Nat) (p : Fin 3) (s : State), s.chip.up 3 = true ∧ (s.chip.fabState p = 0 ∨ s.chip.fabState p = 6 ∨ s.chip.fabState p = 7) ∧ s.chip.on F.STR_STAT_ACTIVE_VALID = true ∧ bitAt (s.chip.get F.FAB_NODE_PORT_EN) p = true ∧ s.chip.on F.FAB_CTRL_EN = true ∧ (s.chip.fport p).retrain = false) ∧
    (∃ (t : Nat) (p : Fin 3) (s : State), (s.chip.up 3 = false ∨ s.chip.mayTrain p = false)) ∧
    (∃ (t : Nat) (p : Fin 3) (lanes node port cl press : Nat) (s : State), s.chip.up 3 = true ∧ (s.chip.fabState p = 1 ∨ s.chip.fabState p = 2 ∨ s.chip.fabState p = 5) ∧ lanes < 4 ∧ node < 1024 ∧ s.chip.miswired p node port cl press = false ∧ s.chip.ldl.grants = []) ∧
    (∃ (t : Nat) (p : Fin 3) (lanes node port cl press : Nat) (s : State), s.chip.up 3 = true ∧ (s.chip.fabState p = 1 ∨ s.chip.fabState p = 2 ∨ s.chip.fabState p = 5) ∧ lanes < 4 ∧ node < 1024 ∧ (node = s.chip.nodeId ∨ cl ≠ s.chip.get F.SYS_ID_CL ∨ press ≠ s.chip.get F.STR_ACT_PRESS_LO_ID_LO) ∧ s.chip.ldl.grants = []) ∧
    (∃ (t : Nat) (p : Fin 3) (lane : Fin 2) (s : State), s.chip.up 3 = true ∧ s.chip.fabState p = 3 ∧ s.chip.get F.FAB_P_STAT_LANES p = 3) ∧
    (∃ (t d : Nat) (p : Fin 3) (s : State), s.chip.up 3 = true ∧ s.chip.fabState p = 3 ∧ (s.chip.fport p).laneRetry = some d ∧ s.chip.ldl.grants = [⟨1, p.val, 0, 0⟩] ∧ s.chip.ldl.asks = []) ∧
    (∃ (t d : Nat) (p : Fin 3) (locks : Bool) (s : State), s.chip.up 3 = true ∧ s.chip.fabState p = 3 ∧ (s.chip.fport p).laneRetry = some d ∧ d ≤ max s.chip.now t ∧ s.chip.ldl.grants = [] ∧ s.chip.ldl.asks = []) ∧
    (∃ (t : Nat) (p : Fin 3) (s : State), s.chip.up 3 = true ∧ s.chip.fabState p = 3 ∧ (s.chip.fport p).unacked = [] ∧ (s.chip.fport p).out = [] ∧ s.chip.ldl.grants = []) ∧
    (∃ (t : Nat) (i : Initiator) (p : Fin 3) (w : Word) (s : State), s.chip.mayWrite i (R.FAB_P_CTRL.at p 0) ∧ fld F.FAB_P_CTRL_RETRAIN w.toNat = 0 ∧ s.chip.fabState p = 3 ∧ (s.chip.fport p).unacked = [] ∧ (s.chip.fport p).out = [] ∧ s.chip.ldl.grants = []) ∧
    (∃ (t : Nat) (i : Initiator) (p : Fin 3) (w : Word) (s : State), s.chip.mayWrite i (R.FAB_P_CTRL.at p 0) ∧ fld F.FAB_P_CTRL_DOWN w.toNat = 0 ∧ s.chip.fabState p = 3 ∧ (s.chip.fport p).unacked = [] ∧ (s.chip.fport p).out = [] ∧ s.chip.ldl.grants = [] ∧ s.chip.ldl.asks = [] ∧ s.chip.mayTrain p = true) ∧
    (∃ (t lseq : Nat) (p : Fin 3) (s : State), s.chip.up 3 = true) ∧
    (∃ (t lseq n : Nat) (p : Fin 3) (f : FabFrame) (s : State), s.chip.up 3 = true ∧ (s.chip.fport p).unacked = [(n, f)] ∧ 128 ≤ (lseq + 256 - n) % 256) ∧
    (∃ (t : Nat) (p : Fin 3) (amounts : List Nat) (s : State), s.chip.up 3 = true ∧ (s.chip.fport p).out = []) ∧
    (∃ (t : Nat) (p : Fin 3) (s : State), s.chip.up 3 = true ∧ s.chip.fabState p = 3 ∧ s.chip.pwrState ≠ 2) ∧
    (∃ (t : Nat) (p : Fin 3) (req : Nat) (ack : Bool) (s : State), (s.chip.up 3 = false ∨ s.chip.carriesFrames p = false)) ∧
    (∃ (t : Nat) (p : Fin 3) (s : State), s.chip.on F.FAB_LP_BEACON_EN = true ∧ bitAt (s.chip.get F.FAB_NODE_PORT_EN) p = true ∧ (s.chip.pwr.off = true ∨ s.chip.thm.tripped = true)) ∧
    (∃ (t : Nat) (p : Fin 3) (s : State), (s.chip.on F.FAB_LP_BEACON_EN = false ∨ bitAt (s.chip.get F.FAB_NODE_PORT_EN) p = false)) ∧
    (∃ (t d : Nat) (p : Fin 3) (s : State), s.chip.up 3 = true ∧ (s.chip.fport p).beaconNext = some d ∧ d ≤ max s.chip.now t ∧ max s.chip.now t ≤ (s.chip.fport p).beaconEnd ∧ s.chip.carriesFrames p = false) ∧
    (∃ (t : Nat) (i : Initiator) (w : Word) (s : State), s.chip.mayWrite i R.FAB_LP.addr ∧ s.chip.switchState = 0 ∧ s.chip.calBusy = false) :=
  ⟨⟨5, (0 : Fin 3), ports, by decide +kernel⟩,
   ⟨5, (0 : Fin 3), base, by decide +kernel⟩,
   ⟨5, (0 : Fin 3), 3, 4, 2, ports.chip.get F.SYS_ID_CL, 0, ports.put F.FAB_P_STAT_STATE 1 0, by decide +kernel⟩,
   ⟨5, (0 : Fin 3), 3, 3, 2, ports.chip.get F.SYS_ID_CL, 0, ports.put F.FAB_P_STAT_STATE 1 0, by decide +kernel⟩,
   ⟨5, (0 : Fin 3), (1 : Fin 2), upF, by decide +kernel⟩,
   ⟨5, 4, (0 : Fin 3), ldlG [⟨1, 0, 0, 0⟩] (pf (fun x => { x with laneRetry := some 4 }) upF), by decide +kernel⟩,
   ⟨5, 4, (0 : Fin 3), (true : Bool), (pf (fun x => { x with laneRetry := some 4 }) upF), by decide +kernel⟩,
   ⟨5, (0 : Fin 3), upF, by decide +kernel⟩,
   ⟨5, (.tc : Initiator), (0 : Fin 3), (0 : Word), upF, by decide +kernel⟩,
   ⟨5, (.tc : Initiator), (0 : Fin 3), (0 : Word), upF, by decide +kernel⟩,
   ⟨5, 1, (0 : Fin 3), pf (fun x => { x with unacked := [(0, frm 1 3), (2, frm 1 3)] }) upF, by decide +kernel⟩,
   ⟨5, 1, 2, (0 : Fin 3), (frm 1 3 : FabFrame), pf (fun x => { x with unacked := [(2, frm 1 3)] }) upF, by decide +kernel⟩,
   ⟨5, (0 : Fin 3), ([1,2] : List Nat), upF, by decide +kernel⟩,
   ⟨5, (0 : Fin 3), upF, by decide +kernel⟩,
   ⟨5, (0 : Fin 3), 1, (false : Bool), base, by decide +kernel⟩,
   ⟨5, (0 : Fin 3), (ports.put F.FAB_LP_BEACON_EN 1).on (fun c => { c with pwr := { c.pwr with off := true } }), by decide +kernel⟩,
   ⟨5, (0 : Fin 3), base.put F.FAB_LP_BEACON_EN 0, by decide +kernel⟩,
   ⟨5, 4, (0 : Fin 3), pf (fun x => { x with beaconNext := some 4, beaconEnd := 10 }) ports, by decide +kernel⟩,
   ⟨5, (.tc : Initiator), (BitVec.ofNat 32 (withBits 0 F.FAB_LP_BEACON_TX.hi F.FAB_LP_BEACON_TX.lo 3) : Word), base, by decide +kernel⟩⟩

theorem witness_FabricFrames :
    (∃ (t lseq : Nat) (p : Fin 3) (f : FabFrame) (s : State), s.chip.up 3 = true ∧ p ≠ 2 ∧ s.chip.fabState p = 3 ∧ lseq = (s.chip.fport p).rxSeq ∧ frameSound f = true ∧ f.scope = 0 ∧ f.dest = s.chip.nodeId ∧ f.kind < 0x10) ∧
    (∃ (t lseq : Nat) (p : Fin 3) (f : FabFrame) (s : State), s.chip.up 3 = true ∧ s.chip.fabState p = 3 ∧ f.kind < 0x10) ∧
    (∃ (t lseq : Nat) (f : FabFrame) (s : State), s.chip.up 3 = true ∧ frameSound f = false ∧ f.kind < 0x10) ∧
    (∃ (t lseq : Nat) (p : Fin 3) (f g : FabFrame) (s : State), s.chip.up 3 = true ∧ frameSound f = true ∧ f.scope = 0 ∧ f.kind < 0x10 ∧ f.dest ≠ s.chip.nodeId ∧ f.hops < 255 ∧ s.chip.routeOf 3 f = some (p, g) ∧ g.kind = f.kind ∧ s.chip.carriesFrames p = true ∧ (s.chip.fport p).out = [] ∧ s.chip.hasCredit p (s.chip.classOut p g) = true) ∧
    (∃ (t : Nat) (words : List Nat) (s : State), s.chip.up 3 = true ∧ s.chip.up 2 = false ∧ s.chip.pwrState ≠ 1) ∧
    (∃ (t w : Nat) (s : State), s.chip.up 3 = true ∧ s.chip.up 2 = true ∧ s.chip.pwrState ≠ 1 ∧ (s.chip.crossing .management 3 2).words.length < depthOf .management 3 2 ∧ (s.chip.crossing .management 3 2).waiting = []) ∧
    (∃ (t src seq addr : Nat) (body : List Nat) (s : State), s.chip.up 3 = true ∧ s.chip.pwrState ≠ 1 ∧ src ≠ s.chip.nodeId ∧ seq < 65536 ∧ (s.chip.get F.FAB_INBOX_WR_WR + 512 - s.chip.get F.FAB_INBOX_RD_RD) % 512 ≠ 256 ∧ s.chip.ddrReady = true ∧ (∀ w : Fin 8, s.chip.on F.DDR_WIN_PERM_EN w = false) ∧ addr = s.chip.get F.FAB_INBOX_BASE_HI_ADDR * 2 ^ 32 + s.chip.get F.FAB_INBOX_BASE_LO_ADDR * 4096 + 4160 * (s.chip.get F.FAB_INBOX_WR_WR % 256) ∧ s.chip.inDdr addr (64 + body.length) = true ∧ s.chip.fab.items = [] ∧ (∀ p : Fin 3, s.chip.carriesFrames p = false) ∧ (∀ b ∈ body, b < 256)) ∧
    (∃ (t src seq : Nat) (body : List Nat) (idx : Nat) (last : Bool) (s : State), s.chip.up 3 = true ∧ s.chip.pwrState ≠ 1 ∧ src ≠ s.chip.nodeId ∧ 0 < idx ∧ s.chip.fab.rxFlows = [] ∧ (∀ p : Fin 3, s.chip.carriesFrames p = false)) ∧
    (∃ (t src xfer aux base : Nat) (data : List Nat) (s : State), s.chip.up 3 = true ∧ s.chip.pwrState ≠ 1 ∧ s.chip.fab.bulks = [] ∧ base = s.chip.get F.FAB_BULK_BASE_HI_ADDR * 2 ^ 32 + s.chip.get F.FAB_BULK_BASE_LO_ADDR * 4096 ∧ aux + data.length ≤ s.chip.get F.FAB_BULK_SIZE_SIZE * 2 ^ 20 ∧ s.chip.ddrReady = true ∧ (∀ w : Fin 8, s.chip.on F.DDR_WIN_PERM_EN w = false) ∧ s.chip.inDdr (base + aux) data.length = true) ∧
    (∃ (t slot : Nat) (l : List Nat) (s : State), s.chip.up 3 = true ∧ s.chip.fab.tx = none ∧ s.chip.get F.FAB_TXQ_RD_RD ≠ s.chip.get F.FAB_TXQ_WR_WR ∧ s.chip.ddrReady = true ∧ (∀ w : Fin 8, s.chip.on F.DDR_WIN_PERM_EN w = false) ∧ s.chip.fw.sends = [] ∧ slot = s.chip.get F.FAB_TXQ_BASE_HI_ADDR * 2 ^ 32 + s.chip.get F.FAB_TXQ_BASE_LO_ADDR * 4096 + 32 * (s.chip.get F.FAB_TXQ_RD_RD % 256) ∧ s.chip.inDdr slot 32 = true ∧ l = (s.store.read slot 32).map BitVec.toNat ∧ sendBad (parseSend l) l = true) ∧
    (∃ (t slot : Nat) (l : List Nat) (s : State), s.chip.up 3 = true ∧ s.chip.fab.tx = none ∧ s.chip.get F.FAB_TXQ_RD_RD ≠ s.chip.get F.FAB_TXQ_WR_WR ∧ s.chip.ddrReady = true ∧ (∀ w : Fin 8, s.chip.on F.DDR_WIN_PERM_EN w = false) ∧ s.chip.fw.sends = [] ∧ slot = s.chip.get F.FAB_TXQ_BASE_HI_ADDR * 2 ^ 32 + s.chip.get F.FAB_TXQ_BASE_LO_ADDR * 4096 + 32 * (s.chip.get F.FAB_TXQ_RD_RD % 256) ∧ s.chip.inDdr slot 32 = true ∧ l = (s.store.read slot 32).map BitVec.toNat ∧ sendBad (parseSend l) l = false ∧ (parseSend l).kind = 0x20 ∧ (parseSend l).dest = s.chip.nodeId ∧ (parseSend l).addr < 2 ^ 36) ∧
    (∃ (t : Nat) (s : State), s.chip.up 3 = true ∧ s.chip.fw.sends = [] ∧ s.chip.get F.FAB_TXQ_RD_RD = s.chip.get F.FAB_TXQ_WR_WR) ∧
    (∃ (t seq slot : Nat) (x : TxDesc) (f : FabFrame) (s : State), s.chip.up 3 = true ∧ s.chip.fab.tx = some x ∧ x.frames = [f] ∧ f.seq = seq ∧ seq < 65536 ∧ s.chip.fw.sends = [] ∧ s.chip.ddrReady = true ∧ (∀ w : Fin 8, s.chip.on F.DDR_WIN_PERM_EN w = false) ∧ slot = s.chip.get F.FAB_TXQ_BASE_HI_ADDR * 2 ^ 32 + s.chip.get F.FAB_TXQ_BASE_LO_ADDR * 4096 + 32 * x.slot ∧ s.chip.inDdr slot 32 = true) ∧
    (∃ (t seq : Nat) (x : TxDesc) (f g : FabFrame) (s : State), s.chip.up 3 = true ∧ s.chip.fab.tx = some x ∧ x.frames = [f, g] ∧ f.seq = seq ∧ g.seq = (seq + 1) % 65536 ∧ seq < 65536 ∧ s.chip.fw.sends = []) ∧
    (∃ (t slot : Nat) (x : TxDesc) (s : State), s.chip.up 3 = true ∧ s.chip.fab.tx = some x ∧ x.sentAt + us (10 * s.chip.get F.FAB_XCFG_E2E_TO) ≤ max s.chip.now t ∧ s.chip.get F.FAB_XCFG_TRIES ≤ x.tries ∧ s.chip.fw.sends = [] ∧ s.chip.ddrReady = true ∧ (∀ w : Fin 8, s.chip.on F.DDR_WIN_PERM_EN w = false) ∧ slot = s.chip.get F.FAB_TXQ_BASE_HI_ADDR * 2 ^ 32 + s.chip.get F.FAB_TXQ_BASE_LO_ADDR * 4096 + 32 * x.slot ∧ s.chip.inDdr slot 32 = true) ∧
    (∃ (t : Nat) (x : TxDesc) (s : State), s.chip.up 3 = true ∧ s.chip.fab.tx = some x ∧ max s.chip.now t < x.sentAt + us (10 * s.chip.get F.FAB_XCFG_E2E_TO) ∧ s.chip.fw.sends = []) :=
  ⟨⟨5, 0, (0 : Fin 3), (frm 3 3 : FabFrame), upF, by decide +kernel⟩,
   ⟨5, 0, (0 : Fin 3), (frm 3 3 : FabFrame), upF, by decide +kernel⟩,
   ⟨5, 0, (frm 9 3 : FabFrame), upF, by decide +kernel⟩,
   ⟨5, 0, (0 : Fin 3), (frm 3 4 : FabFrame), (frm 3 4 : FabFrame), pf (fun x => { x with back := Vector.replicate 5 1 }) (upF.put F.FAB_RING_SIZE 8), by decide +kernel⟩,
   ⟨5, ([1,2] : List Nat), base.put F.SYS_ISL_STAT_ISL_UP 0xFFFB, by decide +kernel⟩,
   ⟨5, 7, base, ⟨by decide +kernel, by decide +kernel, by decide +kernel, by show 0 < max 1 _; omega, by decide +kernel⟩⟩,
   ⟨5, 9, 5, 0x1000000000, ([1,2,3,4] : List Nat), ddrF, by decide +kernel⟩,
   ⟨5, 9, 5, ([1,2,3,4] : List Nat), 1, (true : Bool), ddrF, by decide +kernel⟩,
   ⟨5, 9, 1, 64, 0x1000000000, ([1,2,3,4] : List Nat), ddrF.put F.FAB_BULK_SIZE_SIZE 1, by decide +kernel⟩,
   ⟨5, 0x1000000000, ((List.replicate 32 0) : List Nat), txq [], by decide +kernel⟩,
   ⟨5, 0x1000000000, (good : List Nat), txq good, by decide +kernel⟩,
   ⟨5, ddrF, by decide +kernel⟩,
   ⟨5, 5, 0x1000000000, (tx1 : TxDesc), (frm 0x10 9 : FabFrame), txs tx1, by decide +kernel⟩,
   ⟨5, 5, (tx2 : TxDesc), (frm 0x10 9 : FabFrame), ({ frm 0x10 9 with seq := 6 } : FabFrame), txs tx2, by decide +kernel⟩,
   ⟨us 100000000, 0x1000000000, ({ tx1 with tries := 9 } : TxDesc), (txs { tx1 with tries := 9 }).put F.FAB_XCFG_TRIES 3, by decide +kernel⟩,
   ⟨5, (tx1 : TxDesc), (txs tx1).put F.FAB_XCFG_E2E_TO 9, by decide +kernel⟩⟩

end FamM

namespace FamN

def ev (f : EvSt → EvSt) (s : State) : State := s.on (fun c => { c with ev := f c.ev })
def e1 : Event := ⟨0x0A05, 12345, true, [1,2,3,4], false, false, none⟩
def wr : State := (base.put F.EVR_CTRL_EN 1).put F.SEC_PHASE_PHASE 1
def o1 : OpenRecord := ⟨3, e1, 7, 32 + 4 + 2, 1, 0⟩
def r1 : RateEntry := ⟨0x0A05, 0, false, 60, 0, 0⟩
def hqS : State := (((((wr.put F.EVC_HQ_CFG_EN 1).put F.EVC_HQ_CFG_SIZE_LOG2 8).put F.HST_LINK_UP 1).put F.HST_LINK_BME 1).put F.EVC_HQ_BASE_LO_ADDR 4).put F.EVR_WR_WR 3

theorem witness_EventSources :
    (∃ (t code first : Nat) (r : List Signal) (l : List Nat) (s : State), s.chip.up 1 = true ∧ s.chip.ev.sig = .event code first :: r ∧ l = homeSource code first :: (extraSources code ++ s.chip.watches code)) ∧
    (∃ (t : Nat) (m : Fin 8) (r : List Signal) (s : State), s.chip.up 1 = true ∧ s.chip.ev.sig = .mailbox m :: r) ∧
    (∃ (t : Nat) (x : Signal) (r : List Signal) (s : State), s.chip.up 1 = false ∧ s.chip.ev.sig = x :: r) ∧
    (∃ (t : Nat) (i : Initiator) (n : Fin 4) (x : Fin 256) (s : State), s.chip.mayRead i (R.EVC_CORE_CLAIM.at n 0) ∧ x.val ∈ s.chip.claimable n ∧ ((∀ y ∈ s.chip.claimable n, routePrio (s.chip.route y) < routePrio (s.chip.route x) ∨ routePrio (s.chip.route y) = routePrio (s.chip.route x) ∧ x.val ≤ y))) ∧
    (∃ (t : Nat) (i : Initiator) (n : Fin 4) (s : State), s.chip.mayRead i (R.EVC_CORE_CLAIM.at n 0) ∧ s.chip.claimable n = []) ∧
    (∃ (t k : Nat) (i : Initiator) (w : Word) (s : State), s.chip.mayWrite i R.EVC_XTEST.addr ∧ s.chip.xpert R.EVC_XTEST.addr = true ∧ k = fld F.EVC_XTEST_SRC w.toNat) ∧
    (∃ (t k : Nat) (i : Initiator) (w : Word) (s : State), s.chip.mayWrite i R.EVC_XTEST.addr ∧ s.chip.xpert R.EVC_XTEST.addr = false ∧ k = s.chip.get F.EVC_XTEST_SRC) ∧
    (∃ (t code : Nat) (i : Initiator) (w : Word) (e : Event) (s : State), s.chip.mayWrite i R.EVC_LOG_CODE.addr ∧ code = fld F.EVC_LOG_CODE_CODE w.toNat ∧ (i = .tc ∨ 0x80 ≤ code % 256) ∧ e = { code := code, time := (s.chip.at t).nowNs, tv := s.chip.timeValid 1, detail := bytesLE 4 (s.chip.latched R.EVC_LOG_D0.addr (initNo i)) ++ bytesLE 4 (s.chip.latched R.EVC_LOG_D1.addr (initNo i)) ++ bytesLE 4 (s.chip.latched R.EVC_LOG_D2.addr (initNo i)), trunc := false, fw := true, port := none }) ∧
    (∃ (t : Nat) (i : Initiator) (w : Word) (s : State), s.chip.mayWrite i R.EVC_LOG_CODE.addr ∧ fld F.EVC_LOG_CODE_CODE w.toNat % 256 < 0x80 ∧ i ≠ .tc) :=
  ⟨⟨5, 0x1F02, 0, ([] : List Signal), ([95, 56, 192] : List Nat), ev (fun x => { x with sig := [.event 0x1F02 0] , route := [(56, 0x80000000)] }) ((base.put F.EVC_WATCH_MASK 0x1FFF 0).put F.EVC_WATCH_CODE 0x1F02 0), by decide +kernel⟩,
   ⟨5, (7 : Fin 8), ([.mailbox 1] : List Signal), ev (fun x => { x with sig := [.mailbox 7, .mailbox 1] }) base, by decide +kernel⟩,
   ⟨5, (.mailbox 7 : Signal), ([.mailbox 1] : List Signal), ev (fun x => { x with sig := [.mailbox 7, .mailbox 1] }) (base.put F.SYS_ISL_STAT_ISL_UP 0xFFFD), by decide +kernel⟩,
   ⟨5, (.jc0 : Initiator), (1 : Fin 4), (40 : Fin 256), ev (fun x => { x with route := [(40, 0x00300002), (44, 0x00300002), (45, 0x00200002)] }) (base.put F.EVC_PEND_PEND 0x3100 1), by decide +kernel⟩,
   ⟨5, (.jc0 : Initiator), (1 : Fin 4), base, by decide +kernel⟩,
   ⟨5, 255, (.tc : Initiator), (BitVec.ofNat 32 (withBits 0 F.EVC_XTEST_SRC.hi F.EVC_XTEST_SRC.lo 255) : Word), base.put (⟨0x10040000, 0, 0, 0, 0⟩ : Place) 1, by decide +kernel⟩,
   ⟨5, 7, (.tc : Initiator), (255 : Word), base.put F.EVC_XTEST_SRC 7, by decide +kernel⟩,
   ⟨5, 0x0A85, (.jc1 : Initiator), (0x0A85 : Word), ({ code := 0x0A85, time := 0, tv := true, detail := List.replicate 12 0, trunc := false, fw := true, port := none } : Event), base, by decide +kernel⟩,
   ⟨5, (.jc1 : Initiator), (0x0A05 : Word), base, by decide +kernel⟩⟩

theorem witness_TriggersAndRoutes :
    (∃ (t k : Nat) (i : Initiator) (w : Word) (s : State), s.chip.mayWrite i R.EVC_SWTRIG.addr ∧ k = fld F.EVC_SWTRIG_IDX w.toNat) ∧
    (∃ (t x : Nat) (i : Initiator) (w : Word) (s : State), s.chip.mayWrite i R.EVC_ROUTE.addr ∧ x = s.chip.latched R.EVC_RSEL.addr (initNo i) ∧ (i = .tc ∨ bitAt (s.chip.route x) 0 = false ∧ bitAt w.toNat 0 = false)) ∧
    (∃ (t x : Nat) (i : Initiator) (w : Word) (s : State), s.chip.mayWrite i R.EVC_ROUTE.addr ∧ x = s.chip.latched R.EVC_RSEL.addr (initNo i) ∧ i ≠ .tc ∧ (bitAt (s.chip.route x) 0 = true ∨ bitAt w.toNat 0 = true)) :=
  ⟨⟨5, 63, (.tc : Initiator), (63 : Word), base, by decide +kernel⟩,
   ⟨5, 0, (.jc0 : Initiator), (0xFFFFFFFE : Word), base, by decide +kernel⟩,
   ⟨5, 0, (.host : Initiator), (0xFFFFFFFF : Word), base, by decide +kernel⟩⟩

theorem witness_EventRecords :
    (∃ (t n : Nat) (e : Event) (r : List Event) (s : State), s.chip.evrWrites = true ∧ s.chip.ev.recs = e :: r ∧ s.chip.ev.hold = [] ∧ s.chip.ev.holdLost = 0 ∧ s.chip.ev.openRec = none ∧ s.chip.inService = true ∧ s.chip.ev.sumpSeen = s.chip.get F.SYS_SUMP_DROP_COUNT ∧ s.chip.on F.EVR_CTRL_MIR_EN = false ∧ s.chip.on F.EVC_HQ_CFG_EN = false ∧ e.detail.length ≤ 12 ∧ (∀ b ∈ e.detail, b < 256) ∧ n = s.chip.get F.EVR_WR_WR) ∧
    (∃ (t : Nat) (e : Event) (r : List Event) (o : OpenRecord) (s : State), s.chip.evrWrites = true ∧ s.chip.ev.recs = e :: r ∧ s.chip.ev.hold = [] ∧ s.chip.ev.holdLost = 0 ∧ s.chip.ev.openRec = some o ∧ s.chip.inService = true ∧ s.chip.on F.EVR_XCFG_NO_REPEAT = false ∧ e.code = o.ev.code ∧ e.detail = o.ev.detail ∧ e.fw = o.ev.fw ∧ e.trunc = o.ev.trunc ∧ o.rep < 65534 ∧ o.ev.detail.length ≤ 12 ∧ (∀ b ∈ o.ev.detail, b < 256) ∧ o.flags < 256) ∧
    (∃ (t : Nat) (e : Event) (r : List Event) (x : RateEntry) (s : State), s.chip.evrWrites = true ∧ s.chip.ev.recs = e :: r ∧ s.chip.ev.hold = [] ∧ s.chip.ev.holdLost = 0 ∧ s.chip.ev.openRec = none ∧ s.chip.inService = false ∧ s.chip.on F.EVR_XCFG_NO_LIMIT = false ∧ s.chip.ev.rate = [x] ∧ x.code = e.code ∧ x.closed = false ∧ (s.chip.at t).nowNs < x.start + s.chip.get F.EVR_RATE_WIN_MS * 1000000 ∧ e.time < x.start + s.chip.get F.EVR_RATE_WIN_MS * 1000000 ∧ s.chip.get F.EVR_RATE_LIMIT ≤ x.count) ∧
    (∃ (t : Nat) (e : Event) (r : List Event) (s : State), s.chip.evrWrites = false ∧ s.chip.ev.recs = e :: r ∧ s.chip.ev.hold.length < 16) ∧
    (∃ (t : Nat) (o : OpenRecord) (s : State), s.chip.up 1 = true ∧ s.chip.ev.openRec = some o ∧ o.last + ms (s.chip.get F.EVR_CLOSE_MS) ≤ max s.chip.now t ∧ o.ev.detail.length ≤ 12 ∧ (∀ b ∈ o.ev.detail, b < 256) ∧ o.flags < 256) ∧
    (∃ (t : Nat) (x : RateEntry) (s : State), s.chip.up 1 = true ∧ s.chip.ev.rate = [x] ∧ x.closed = false ∧ x.start + s.chip.get F.EVR_RATE_WIN_MS * 1000000 ≤ (s.chip.at t).nowNs ∧ x.winDrops = 0) ∧
    (∃ (t n : Nat) (x : RateEntry) (s : State), s.chip.up 1 = true ∧ s.chip.ev.rate = [x] ∧ x.closed = false ∧ x.start + s.chip.get F.EVR_RATE_WIN_MS * 1000000 ≤ (s.chip.at t).nowNs ∧ 0 < x.winDrops ∧ s.chip.ev.openRec = none ∧ s.chip.on F.EVR_CTRL_MIR_EN = false ∧ s.chip.on F.EVC_HQ_CFG_EN = false ∧ n = s.chip.get F.EVR_WR_WR) ∧
    (∃ (t : Nat) (i : Initiator) (w : Word) (s : State), s.chip.mayWrite i R.SEC_PHASE.addr ∧ fld F.SEC_PHASE_PHASE w.toNat ≠ s.chip.get F.SEC_PHASE_PHASE ∧ s.chip.ev.openRec = none ∧ (∀ x ∈ s.chip.ev.rate, x.winDrops = 0)) ∧
    (∃ (t n : Nat) (e : Event) (s : State), s.chip.evrWrites = true ∧ s.chip.ev.hold = [e] ∧ s.chip.ev.holdLost = 0 ∧ s.chip.ev.openRec = none ∧ s.chip.inService = true ∧ s.chip.ev.sumpSeen = s.chip.get F.SYS_SUMP_DROP_COUNT ∧ s.chip.on F.EVR_CTRL_MIR_EN = false ∧ s.chip.on F.EVC_HQ_CFG_EN = false ∧ e.detail.length ≤ 12 ∧ (∀ b ∈ e.detail, b < 256) ∧ n = s.chip.get F.EVR_WR_WR) ∧
    (∃ (t a : Nat) (s : State), s.chip.evrWrites = true ∧ s.chip.on F.EVR_CTRL_MIR_EN = true ∧ s.chip.ev.mirStop = false ∧ s.chip.closedRecords = s.chip.ev.mirNext + 1 ∧ s.chip.ev.mirRun = 0 ∧ a = s.chip.get F.EVR_MIR_POS_ADDR ∧ a % 4096 ≠ 0 ∧ a + 32 < s.chip.get F.EVR_MIR_END_ADDR * 4096) ∧
    (∃ (t : Nat) (s : State), s.chip.evrWrites = true ∧ s.chip.on F.EVR_CTRL_MIR_EN = true ∧ s.chip.ev.mirStop = false ∧ s.chip.ev.mirNext < s.chip.closedRecords ∧ s.chip.ev.openRec = none) ∧
    (∃ (t n : Nat) (s : State), s.chip.evrWrites = true ∧ s.chip.on F.EVC_HQ_CFG_EN = true ∧ s.chip.hostReach = true ∧ s.chip.hqRoom = true ∧ s.chip.ev.hqNext < s.chip.closedRecords ∧ s.chip.ev.hqRun = 0 ∧ n = s.chip.get F.EVC_HQ_TAIL_TAIL) ∧
    (∃ (t n k : Nat) (i : Initiator) (w : Word) (s : State), s.chip.mayWrite i R.EVC_HQ_HEAD.addr ∧ n = (s.chip.get F.EVC_HQ_TAIL_TAIL + 2 ^ 32 - s.chip.get F.EVC_HQ_HEAD_HEAD) % 2 ^ 32 ∧ k = (w.toNat + 2 ^ 32 - s.chip.get F.EVC_HQ_HEAD_HEAD) % 2 ^ 32) ∧
    (∃ (t n src : Nat) (l : List Nat) (s : State), s.chip.up 1 = true ∧ s.chip.on F.EVC_HQ_CFG_EN = true ∧ s.chip.hostReach = true ∧ s.chip.hqRoom = true ∧ s.chip.pwrState ≠ 1 ∧ l.length = 32 ∧ src < 1024 ∧ n = s.chip.get F.EVC_HQ_TAIL_TAIL) ∧
    (∃ (t src : Nat) (l : List Nat) (s : State), s.chip.up 1 = true ∧ (s.chip.on F.EVC_HQ_CFG_EN = false ∨ s.chip.hostReach = false ∨ s.chip.hqRoom = false) ∧ s.chip.pwrState ≠ 1) :=
  ⟨⟨5, 2047, (e1 : Event), ([] : List Event), ev (fun x => { x with recs := [e1] }) (wr.put F.EVR_WR_WR 2047), by decide +kernel⟩,
   ⟨5, (e1 : Event), ([] : List Event), (o1 : OpenRecord), ev (fun x => { x with recs := [e1], openRec := some o1 }) wr, by decide +kernel⟩,
   ⟨5, (e1 : Event), ([] : List Event), (r1 : RateEntry), ev (fun x => { x with recs := [e1], rate := [r1] }) (((wr.put F.SEC_PHASE_PHASE 0).put F.EVR_RATE_LIMIT 60).put F.EVR_RATE_WIN_MS 1000), by decide +kernel⟩,
   ⟨5, (e1 : Event), ([] : List Event), ev (fun x => { x with recs := [e1] }) base, by decide +kernel⟩,
   ⟨ms 1000, (o1 : OpenRecord), ev (fun x => { x with openRec := some o1 }) wr, by decide +kernel⟩,
   ⟨ms 5000, (r1 : RateEntry), ev (fun x => { x with rate := [r1] }) (wr.put F.EVR_RATE_WIN_MS 1000), by decide +kernel⟩,
   ⟨ms 5000, 0, ({ r1 with winDrops := 5 } : RateEntry), ev (fun x => { x with rate := [{ r1 with winDrops := 5 }] }) (wr.put F.EVR_RATE_WIN_MS 1000), by decide +kernel⟩,
   ⟨5, (.tc : Initiator), (2 : Word), ev (fun x => { x with rate := [r1, r1] }) wr, by decide +kernel⟩,
   ⟨5, 0, (e1 : Event), ev (fun x => { x with hold := [e1] }) wr, by decide +kernel⟩,
   ⟨5, 0x1300020, (((wr.put F.EVR_CTRL_MIR_EN 1).put F.EVR_MIR_POS_ADDR 0x1300020).put F.EVR_MIR_END_ADDR 0x1310).put F.EVR_WR_WR 1, by decide +kernel⟩,
   ⟨5, ((wr.put F.EVR_CTRL_MIR_EN 1).put F.EVR_MIR_POS_ADDR 0x1300020).put F.EVR_WR_WR 1, by decide +kernel⟩,
   ⟨5, 0, hqS, by decide +kernel⟩,
   ⟨5, 5, 3, (.host : Initiator), (3 : Word), hqS.put F.EVC_HQ_TAIL_TAIL 5, by decide +kernel⟩,
   ⟨5, 0, 9, (List.replicate 32 7 : List Nat), hqS, by decide +kernel⟩,
   ⟨5, 9, ([] : List Nat), wr, by decide +kernel⟩⟩

end FamN

namespace FamO

def idle : State := base.put F.OTP_STAT_BUSY 0
def cm (o r w : Nat) (s : State) : State := (s.put F.OTP_STAT_BUSY 1).on (fun c => { c with otp := { c.otp with cmd := some ⟨o, r, w⟩ } })
def bn (r n t : Nat) (s : State) : State := { s with store := s.store.burn r n t }
def wd (n : Nat) (s : State) : State := s.on (fun c => c.setWord R.OTP_WDATA.addr (BitVec.ofNat 32 n))
def mfg : State := base.put F.SEC_LC_IN_FORCE 1
def dig (n : Nat) (s : State) : State := (List.range 8).foldl (fun s j => s.put F.OTP_DIGEST_DIGEST ((s.store.digest n).getD j 0) j) s
def svc : State := base.put F.SEC_PHASE_PHASE 1

theorem witness_FuseCommandStarts :
    (∃ (t : Nat) (i : Initiator) (w : Word) (vpp : Bool) (s : State), s.chip.mayWrite i R.OTP_CMD.addr ∧ s.chip.on F.OTP_STAT_BUSY = false ∧ bitsOf w.toNat 19 16 ≤ 10 ∧ bitsOf w.toNat 9 0 ≤ 511) ∧
    (∃ (t : Nat) (i : Initiator) (w : Word) (vpp : Bool) (s : State), s.chip.mayWrite i R.OTP_CMD.addr ∧ s.chip.on F.OTP_STAT_BUSY = false ∧ bitsOf w.toNat 19 16 ≤ 10 ∧ bitsOf w.toNat 9 0 ≤ 511) ∧
    (∃ (t : Nat) (i : Initiator) (w : Word) (vpp : Bool) (s : State), s.chip.mayWrite i R.OTP_CMD.addr ∧ s.chip.on F.OTP_STAT_BUSY = false ∧ bitsOf w.toNat 19 16 ≤ 10 ∧ bitsOf w.toNat 9 0 ≤ 511) ∧
    (∃ (t : Nat) (i : Initiator) (w : Word) (vpp : Bool) (s : State), s.chip.mayWrite i R.OTP_CMD.addr ∧ s.chip.on F.OTP_STAT_BUSY = false ∧ bitsOf w.toNat 19 16 ≤ 10 ∧ bitsOf w.toNat 9 0 ≤ 511) ∧
    (∃ (t : Nat) (i : Initiator) (w : Word) (vpp : Bool) (s : State), s.chip.mayWrite i R.OTP_CMD.addr ∧ s.chip.on F.OTP_STAT_BUSY = false ∧ bitsOf w.toNat 19 16 ≤ 10 ∧ bitsOf w.toNat 9 0 ≤ 511) ∧
    (∃ (t : Nat) (i : Initiator) (w : Word) (vpp : Bool) (s : State), s.chip.mayWrite i R.OTP_CMD.addr ∧ s.chip.on F.OTP_STAT_BUSY = false ∧ bitsOf w.toNat 19 16 ≤ 10 ∧ bitsOf w.toNat 9 0 ≤ 511) ∧
    (∃ (t : Nat) (i : Initiator) (w : Word) (vpp : Bool) (s : State), s.chip.mayWrite i R.OTP_CMD.addr ∧ s.chip.on F.OTP_STAT_BUSY = true) :=
  ⟨⟨5, (.tc : Initiator), (0x10000 : Word), (true : Bool), idle, by decide +kernel⟩,
   ⟨5, (.tc : Initiator), (0xA01FF : Word), (false : Bool), idle, by decide +kernel⟩,
   ⟨5, (.tc : Initiator), (0x10000 : Word), (false : Bool), idle.put F.OTP_PGM_SRC 2, by decide +kernel⟩,
   ⟨5, (.tc : Initiator), (0x10000 : Word), (true : Bool), idle, by decide +kernel⟩,
   ⟨5, (.tc : Initiator), (0x10000 : Word), (true : Bool), idle, by decide +kernel⟩,
   ⟨5, (.tc : Initiator), (3 : Word), (true : Bool), idle, by decide +kernel⟩,
   ⟨5, (.tc : Initiator), (0x10000 : Word), (true : Bool), idle.put F.OTP_STAT_BUSY 1, by decide +kernel⟩⟩

theorem witness_FuseCommandEnds :
    (∃ (t : Nat) (k : OtpCmd) (s : State), s.chip.up 1 = true ∧ s.chip.otp.cmd = some k ∧ s.chip.fw.tcWait = [] ∧ k.op = 1 ∧ regionOf k.row ≠ some 8 ∧ regionOf k.row ≠ some 9) ∧
    (∃ (t new : Nat) (k : OtpCmd) (s : State), s.chip.up 1 = true ∧ s.chip.otp.cmd = some k ∧ s.chip.fw.tcWait = [] ∧ k.op = 2 ∧ s.chip.otp.abort = false ∧ s.chip.vppMissing = false ∧ new = (s.chip.word R.OTP_WDATA.addr).toNat - ((s.chip.word R.OTP_WDATA.addr).toNat &&& s.store.rowN k.row) ∧ new ≠ 0 ∧ s.chip.programRefusal s.store k.row = none ∧ k.row ≠ 160) ∧
    (∃ (t code : Nat) (k : OtpCmd) (fails : List PulseFail) (pulses : Nat) (s : State), s.chip.up 1 = true ∧ s.chip.otp.cmd = some k ∧ s.chip.fw.tcWait = [] ∧ k.op = 2 ∧ (s.chip.word R.OTP_WDATA.addr).toNat - ((s.chip.word R.OTP_WDATA.addr).toNat &&& s.store.rowN k.row) ≠ 0 ∧ s.chip.programRefusal s.store k.row = some code) ∧
    (∃ (t : Nat) (k : OtpCmd) (fails : List PulseFail) (pulses : Nat) (s : State), s.chip.up 1 = true ∧ s.chip.otp.cmd = some k ∧ s.chip.fw.tcWait = [] ∧ k.op = 2 ∧ (s.chip.word R.OTP_WDATA.addr).toNat &&& s.store.rowN k.row = (s.chip.word R.OTP_WDATA.addr).toNat) ∧
    (∃ (t : Nat) (k : OtpCmd) (s : State), s.chip.up 1 = true ∧ s.chip.otp.cmd = some k ∧ s.chip.fw.tcWait = [] ∧ k.op = 3 ∧ s.chip.otp.abort = false ∧ s.chip.vppMissing = false ∧ s.chip.lcInForce ≠ 4) ∧
    (∃ (t b l : Nat) (k : OtpCmd) (s : State), s.chip.up 1 = true ∧ s.chip.otp.cmd = some k ∧ s.chip.fw.tcWait = [] ∧ k.op = 4 ∧ s.chip.otp.abort = false ∧ s.chip.vppMissing = false ∧ regionDigest k.region = some (b, l) ∧ stateAllows s.chip.lcInForce k.region = true ∧ (∀ r ∈ dataRows k.region, s.store.marginal r = false) ∧ s.store.digest k.region = s.chip.suppliedDigest ∧ (∀ j : Fin 8, s.store.rowN (b + j) = 0)) ∧
    (∃ (t b l : Nat) (k : OtpCmd) (fails : List PulseFail) (pulses : Nat) (s : State), s.chip.up 1 = true ∧ s.chip.otp.cmd = some k ∧ s.chip.fw.tcWait = [] ∧ k.op = 4 ∧ regionDigest k.region = some (b, l) ∧ stateAllows s.chip.lcInForce k.region = true ∧ (∀ r ∈ dataRows k.region, s.store.marginal r = false) ∧ s.store.digest k.region ≠ s.chip.suppliedDigest) ∧
    (∃ (t : Nat) (k : OtpCmd) (s : State), s.chip.up 1 = true ∧ s.chip.otp.cmd = some k ∧ s.chip.fw.tcWait = [] ∧ k.op = 5 ∧ s.chip.otp.abort = false ∧ s.chip.vppMissing = false ∧ k.row < 487 ∧ (s.chip.word R.OTP_WDATA.addr).toNat ≠ 0 ∧ s.chip.programRefusal s.store k.row = none ∧ ((∀ e : Fin 8, s.store.rawN (488 + e) = 0 ∧ s.store.rawN (496 + e) = 0 ∧ s.store.rawN (504 + e) = 0)) ∧ s.store.rawN 512 = 0) ∧
    (∃ (t tgt : Nat) (k : OtpCmd) (s : State), s.chip.up 1 = true ∧ s.chip.otp.cmd = some k ∧ s.chip.fw.tcWait = [] ∧ k.op = 6 ∧ s.chip.otp.abort = false ∧ s.chip.vppMissing = false ∧ tgt = k.row % 8 ∧ s.chip.lcPrecond s.store s.store.lcState.1 tgt = some true) ∧
    (∃ (t : Nat) (k : OtpCmd) (fails : List PulseFail) (pulses : Nat) (s : State), s.chip.up 1 = true ∧ s.chip.otp.cmd = some k ∧ s.chip.fw.tcWait = [] ∧ k.op = 6 ∧ s.chip.lcPrecond s.store s.store.lcState.1 (k.row % 8) ≠ some true) ∧
    (∃ (t : Nat) (k : OtpCmd) (fails : List PulseFail) (pulses : Nat) (s : State), s.chip.up 1 = true ∧ s.chip.otp.cmd = some k ∧ s.chip.fw.tcWait = [] ∧ k.op = 3 ∧ s.chip.vppMissing = true ∧ s.chip.lcInForce ≠ 4) ∧
    (∃ (t pulses : Nat) (k : OtpCmd) (s : State), s.chip.up 1 = true ∧ s.chip.otp.cmd = some k ∧ s.chip.fw.tcWait = [] ∧ k.op = 3 ∧ s.chip.otp.abort = true ∧ s.chip.vppMissing = false ∧ s.chip.lcInForce ≠ 4) ∧
    (∃ (t : Nat) (fails : List PulseFail) (pulses : Nat) (s : State), s.chip.otp.cmd = none ∧ s.chip.fw.tcWait = []) :=
  ⟨⟨5, (⟨1, 0, 3⟩ : OtpCmd), bn 3 7 5 (cm 1 0 3 base), by decide +kernel⟩,
   ⟨5, 0xFE, (⟨2, 9, 216⟩ : OtpCmd), wd 0xFF (bn 216 1 1 (cm 2 9 216 mfg)), by decide +kernel⟩,
   ⟨5, otpState, (⟨2, 0, 3⟩ : OtpCmd), ([] : List PulseFail), 0, wd 0xFF (cm 2 0 3 mfg), by decide +kernel⟩,
   ⟨5, (⟨2, 0, 3⟩ : OtpCmd), ([] : List PulseFail), 0, wd 7 (bn 3 7 7 (cm 2 0 3 mfg)), by decide +kernel⟩,
   ⟨5, (⟨3, 0, 3⟩ : OtpCmd), bn 3 7 5 (cm 3 0 3 mfg), by decide +kernel⟩,
   ⟨5, 464, 485, (⟨4, 8, 0⟩ : OtpCmd), dig 8 (cm 4 8 0 mfg), by decide +kernel⟩,
   ⟨5, 464, 485, (⟨4, 8, 0⟩ : OtpCmd), ([] : List PulseFail), 0, cm 4 8 0 mfg, by decide +kernel⟩,
   ⟨5, (⟨5, 9, 216⟩ : OtpCmd), wd 0xFF (bn 216 0x100 0x100 (cm 5 9 216 mfg)), by decide +kernel⟩,
   ⟨5, 4, (⟨6, 0, 4⟩ : OtpCmd), cm 6 0 4 mfg, by decide +kernel⟩,
   ⟨5, (⟨6, 0, 7⟩ : OtpCmd), ([] : List PulseFail), 0, cm 6 0 7 mfg, by decide +kernel⟩,
   ⟨5, (⟨3, 0, 3⟩ : OtpCmd), ([] : List PulseFail), 0, bn 3 7 5 (cm 3 0 3 (mfg.put F.OTP_PGM_SRC 1)), by decide +kernel⟩,
   ⟨5, 2, (⟨3, 0, 3⟩ : OtpCmd), (bn 3 7 0 (cm 3 0 3 mfg)).on (fun c => { c with otp := { c.otp with abort := true } }), by decide +kernel⟩,
   ⟨5, ([] : List PulseFail), 0, base, by decide +kernel⟩⟩

theorem witness_SecurityActs :
    (∃ (t : Nat) (m : Fin 5) (s : State), s.chip.pwr.off = false ∧ s.chip.up 1 = true ∧ s.chip.get F.SEC_PHASE_PHASE = 1 ∧ bitAt (s.chip.get F.SEC_TMP_ACT_ACT) (4 * m.val + 2) = false) ∧
    (∃ (t : Nat) (m : Fin 5) (s : State), s.chip.pwr.off = false ∧ s.chip.up 1 = true ∧ s.chip.get F.SEC_PHASE_PHASE = 1 ∧ bitAt (s.chip.get F.SEC_TMP_ACT_ACT) (4 * m.val + 2) = true) ∧
    (∃ (t : Nat) (m : Fin 5) (s : State), s.chip.pwr.off = false ∧ s.chip.up 1 = true ∧ s.chip.get F.SEC_PHASE_PHASE = 0 ∧ s.chip.get F.SEC_BOOT_ALARMS < 2) ∧
    (∃ (t mask : Nat) (s : State), (s.chip.pwr.off = true ∨ s.chip.up 1 = false)) ∧
    (∃ (t : Nat) (i : Initiator) (w : Word) (s : State), s.chip.mayWrite i R.SEC_WDOG_KICK.addr ∧ fld F.SEC_WDOG_KICK_KEY w.toNat = 0x5A3C) ∧
    (∃ (t : Nat) (i : Initiator) (w : Word) (s : State), s.chip.mayWrite i R.SEC_WDOG_KICK.addr ∧ fld F.SEC_WDOG_KICK_KEY w.toNat ≠ 0x5A3C) ∧
    (∃ (t : Nat) (s : State), s.chip.on F.SEC_WDOG_CFG_EN = true ∧ s.chip.up 1 = true ∧ s.chip.sys.tcUp = true ∧ s.chip.pwr.booting = false ∧ s.chip.otp.kickAt + ms (s.chip.get F.SEC_WDOG_CFG_PERIOD) ≤ max s.chip.now t) ∧
    (∃ (t : Nat) (s : State), (s.chip.on F.SEC_WDOG_CFG_EN = false ∨ max s.chip.now t < s.chip.otp.kickAt + ms (s.chip.get F.SEC_WDOG_CFG_PERIOD))) ∧
    (∃ (t : Nat) (i : Initiator) (s : State), s.chip.mayRead i R.SEC_DENY_LO.addr) :=
  ⟨⟨5, (1 : Fin 5), svc.put F.SEC_TMP_ACT_ACT 0x30, by decide +kernel⟩,
   ⟨5, (1 : Fin 5), (svc.put F.SEC_TMP_ACT_ACT 0x40).put F.CMP_WARN_WARN 3, by decide +kernel⟩,
   ⟨5, (1 : Fin 5), base.put F.SEC_PHASE_PHASE 0, by decide +kernel⟩,
   ⟨5, 1, base.put F.SYS_ISL_STAT_ISL_UP 0xFFFD, by decide +kernel⟩,
   ⟨5, (.tc : Initiator), (0x5A3C : Word), base, by decide +kernel⟩,
   ⟨5, (.tc : Initiator), (0x5A3D : Word), base, by decide +kernel⟩,
   ⟨ms 100000, (((base.put F.SEC_WDOG_CFG_EN 1).put F.SEC_WDOG_CFG_PERIOD 10).put F.CMP_WARN_WARN 3).on (fun c => c.setPwr { c.pwr with booting := false }), by decide +kernel⟩,
   ⟨5, base.put F.SEC_WDOG_CFG_EN 0, by decide +kernel⟩,
   ⟨5, (.tc : Initiator), base.put R.SEC_DENY_HI 9, by decide +kernel⟩⟩

end FamO

namespace FamP

def bt : State := base.on (fun c => c.setPwr { c.pwr with booting := false })
def ph (p tg v : Nat) (s : State) : State := ((s.put F.PWR_STAT_PHASE p).put F.PWR_STAT_TARGET tg).put F.PWR_STAT_VOTER v
def pw (f : PwrSt → PwrSt) (s : State) : State := s.on (fun c => c.setPwr (f c.pwr))
def env0 : BootEnv := ⟨0, false, false, 0, 0, [], true⟩
def th (f : ThmSt → ThmSt) (s : State) : State := s.on (fun c => { c with thm := f c.thm })

theorem witness_EnteringPowerStates :
    (∃ (t : Nat) (i : Initiator) (target : Fin 4) (s : State), s.chip.mayWrite i R.PWR_REQ.addr ∧ s.chip.fw.tcWait = [] ∧ s.chip.pwrPhase = 0 ∧ s.chip.pwr.wake = none ∧ target.val ≠ s.chip.pwrState ∧ target ≠ 0 ∧ ((target = 1 → s.chip.pwrState ≤ 1)) ∧ aonCycle s.chip.pwr.latchAt ≠ aonCycle (max s.chip.now t)) ∧
    (∃ (t : Nat) (i : Initiator) (target : Fin 4) (s : State), s.chip.mayWrite i R.PWR_REQ.addr ∧ s.chip.fw.tcWait = [] ∧ s.chip.pwrPhase = 0 ∧ s.chip.pwr.wake = none ∧ (target.val = s.chip.pwrState ∨ target = 1 ∧ 1 < s.chip.pwrState)) ∧
    (∃ (t : Nat) (i : Initiator) (target : Fin 4) (s : State), s.chip.mayWrite i R.PWR_REQ.addr ∧ s.chip.fw.tcWait = [] ∧ (s.chip.pwrPhase ≠ 0 ∨ s.chip.pwr.wake.isSome = true)) ∧
    (∃ (t : Nat) (i : Initiator) (s : State), s.chip.mayWrite i R.PWR_REQ.addr ∧ s.chip.fw.tcWait = [] ∧ (s.chip.pwrPhase = 1 ∨ s.chip.pwrPhase = 2) ∧ s.chip.get F.PWR_STAT_VOTER = 0 ∧ s.chip.pwr.ready = []) ∧
    (∃ (t : Nat) (i : Initiator) (s : State), s.chip.mayWrite i R.PWR_REQ.addr ∧ s.chip.fw.tcWait = [] ∧ s.chip.pwrPhase ≠ 1 ∧ s.chip.pwrPhase ≠ 2) ∧
    (∃ (t : Nat) (s : State), s.chip.fw.tcWait = [] ∧ s.chip.pwrState = 0 ∧ s.chip.on F.PWR_CTRL_AUTO_IDLE = true ∧ s.chip.working = false ∧ s.chip.pwr.booting = false ∧ s.chip.pwr.activeAt + ms (s.chip.get F.PWR_IDLE_IDLE_MS) ≤ max s.chip.now t ∧ s.chip.pwrPhase = 0 ∧ s.chip.pwr.wake = none) ∧
    (∃ (t : Nat) (s : State), (s.chip.pwrState ≠ 0 ∨ s.chip.on F.PWR_CTRL_AUTO_IDLE = false ∨ s.chip.working = true ∨ max s.chip.now t < s.chip.pwr.activeAt + ms (s.chip.get F.PWR_IDLE_IDLE_MS))) ∧
    (∃ (t : Nat) (s : State), s.chip.fw.tcWait = [] ∧ s.chip.pwrState = 1 ∧ s.chip.on F.PWR_CTRL_AUTO_SLEEP = true ∧ s.chip.working = false ∧ s.chip.pwr.booting = false ∧ s.chip.pwr.activeAt + ms (1000 * s.chip.get F.PWR_IDLE_SLEEP_S) ≤ max s.chip.now t ∧ s.chip.pwrPhase = 0 ∧ s.chip.pwr.wake = none) ∧
    (∃ (t v n : Nat) (r : List Nat) (ok : Bool) (s : State), s.chip.fw.tcWait = [] ∧ s.chip.pwrPhase = 1 ∧ v = s.chip.get F.PWR_STAT_VOTER ∧ v ≠ 0 ∧ (v < 9 ∨ v = 17 ∨ v = 21) ∧ aonCycle (max s.chip.now t) ≤ aonCycle (s.chip.pwr.prepAt + us (s.chip.get F.PWR_PREP_TO)) ∧ s.chip.voterReason v (s.chip.get F.PWR_STAT_TARGET) ok = 0 ∧ (voterList (s.chip.get F.PWR_STAT_TARGET)).filter (fun w => decide (v < w)) = n :: r ∧ n < 32) ∧
    (∃ (t v : Nat) (ok : Bool) (s : State), s.chip.fw.tcWait = [] ∧ s.chip.pwrPhase = 1 ∧ v = s.chip.get F.PWR_STAT_VOTER ∧ (v = 17 ∨ v = 21) ∧ aonCycle (max s.chip.now t) ≤ aonCycle (s.chip.pwr.prepAt + us (s.chip.get F.PWR_PREP_TO)) ∧ s.chip.voterReason v (s.chip.get F.PWR_STAT_TARGET) ok = 0 ∧ (voterList (s.chip.get F.PWR_STAT_TARGET)).filter (fun w => decide (v < w)) = []) ∧
    (∃ (t v r : Nat) (ok : Bool) (s : State), s.chip.fw.tcWait = [] ∧ s.chip.pwrPhase = 1 ∧ v = s.chip.get F.PWR_STAT_VOTER ∧ v ≠ 0 ∧ (v < 9 ∨ v = 17 ∨ v = 21) ∧ aonCycle (max s.chip.now t) ≤ aonCycle (s.chip.pwr.prepAt + us (s.chip.get F.PWR_PREP_TO)) ∧ r = s.chip.voterReason v (s.chip.get F.PWR_STAT_TARGET) ok ∧ r ≠ 0 ∧ s.chip.pwr.ready = []) ∧
    (∃ (t v : Nat) (s : State), s.chip.fw.tcWait = [] ∧ s.chip.pwrPhase = 1 ∧ v = s.chip.get F.PWR_STAT_VOTER ∧ (v < 9 ∨ v = 17 ∨ v = 21) ∧ s.chip.pwr.prepAt + us (s.chip.get F.PWR_PREP_TO) ≤ max s.chip.now t ∧ s.chip.pwr.ready = []) ∧
    (∃ (t : Nat) (i : Initiator) (w : Word) (s : State), s.chip.mayWrite i R.PWR_COMMIT.addr ∧ s.chip.fw.tcWait = [] ∧ s.chip.pwrPhase = 2 ∧ w.toNat / 65536 = 0x5A3C ∧ w.toNat % 4 = s.chip.get F.PWR_STAT_TARGET ∧ aonCycle (max s.chip.now t) ≤ aonCycle (s.chip.pwr.phase2At + us (s.chip.get F.PWR_PREP_TO)) ∧ s.chip.get F.PWR_WAKE_LATCH_LATCH &&& s.chip.get F.PWR_WAKE_EN_EN = 0) ∧
    (∃ (t : Nat) (i : Initiator) (w : Word) (s : State), s.chip.mayWrite i R.PWR_COMMIT.addr ∧ s.chip.fw.tcWait = [] ∧ (s.chip.pwrPhase ≠ 2 ∨ w.toNat / 65536 ≠ 0x5A3C ∨ w.toNat % 4 ≠ s.chip.get F.PWR_STAT_TARGET)) ∧
    (∃ (t : Nat) (s : State), s.chip.fw.tcWait = [] ∧ s.chip.pwrPhase = 2 ∧ s.chip.get F.PWR_STAT_VOTER = 0 ∧ s.chip.pwr.phase2At + us (s.chip.get F.PWR_PREP_TO) ≤ max s.chip.now t ∧ s.chip.pwr.ready = []) ∧
    (∃ (t : Nat) (s : State), s.chip.fw.tcWait = [] ∧ s.chip.pwrPhase = 3 ∧ s.chip.get F.PWR_STAT_TARGET = 1 ∧ s.chip.pwr.replay = false) ∧
    (∃ (t : Nat) (s : State), s.chip.fw.tcWait = [] ∧ s.chip.pwrPhase = 3 ∧ s.chip.get F.PWR_STAT_TARGET = 2 ∧ s.chip.pwr.replay = false) ∧
    (∃ (t : Nat) (s : State), s.chip.fw.tcWait = [] ∧ s.chip.pwrPhase = 3 ∧ s.chip.get F.PWR_STAT_TARGET = 3 ∧ s.chip.pwr.replay = false) :=
  ⟨⟨us 5, (.tc : Initiator), (2 : Fin 4), bt, by decide +kernel⟩,
   ⟨5, (.tc : Initiator), (1 : Fin 4), bt.put F.PWR_STAT_STATE 2, by decide +kernel⟩,
   ⟨5, (.tc : Initiator), (1 : Fin 4), ph 1 2 4 bt, by decide +kernel⟩,
   ⟨5, (.tc : Initiator), ph 2 2 0 bt, by decide +kernel⟩,
   ⟨5, (.tc : Initiator), bt, by decide +kernel⟩,
   ⟨ms 100000, (bt.put F.PWR_CTRL_AUTO_IDLE 1).put F.PWR_IDLE_IDLE_MS 1000, by decide +kernel⟩,
   ⟨5, bt, by decide +kernel⟩,
   ⟨ms 100000, ((bt.put F.PWR_CTRL_AUTO_SLEEP 1).put F.PWR_IDLE_SLEEP_S 1).put F.PWR_STAT_STATE 1, by decide +kernel⟩,
   ⟨5, 6, 17, ([] : List Nat), (true : Bool), (ph 1 1 6 bt).put F.PWR_PREP_TO 100, by decide +kernel⟩,
   ⟨5, 17, (true : Bool), (ph 1 1 17 bt).put F.PWR_PREP_TO 100, by decide +kernel⟩,
   ⟨5, 6, 1, (true : Bool), ((ph 1 1 6 bt).put F.PWR_PREP_TO 100).put F.TRK_STAT_RUN 1, by decide +kernel⟩,
   ⟨ms 100, 6, (ph 1 1 6 bt).put F.PWR_PREP_TO 100, by decide +kernel⟩,
   ⟨5, (.tc : Initiator), (0x5A3C0002 : Word), (ph 2 2 0 bt).put F.PWR_PREP_TO 100, by decide +kernel⟩,
   ⟨5, (.tc : Initiator), (0x5A3C0001 : Word), (ph 2 2 0 bt).put F.PWR_PREP_TO 100, by decide +kernel⟩,
   ⟨ms 100, (ph 2 2 0 bt).put F.PWR_PREP_TO 100, by decide +kernel⟩,
   ⟨5, ph 3 1 0 bt, by decide +kernel⟩,
   ⟨5, ph 3 2 0 bt, by decide +kernel⟩,
   ⟨5, (ph 3 3 0 bt).put F.EVR_WR_WR 5, by decide +kernel⟩⟩

theorem witness_WakingUp :
    (∃ (t : Nat) (src : Fin 8) (s : State), s.chip.fw.tcWait = [] ∧ s.chip.pwr.off = false ∧ s.chip.thm.tripped = false ∧ s.chip.pwrPhase = 0 ∧ s.chip.pwrState ≠ 0 ∧ bitAt (wakeFrom s.chip.pwrState) src = true ∧ bitAt (s.chip.get F.PWR_WAKE_EN_EN) src = true ∧ s.chip.pwr.wake = none) ∧
    (∃ (t : Nat) (src : Fin 8) (s : State), s.chip.fw.tcWait = [] ∧ s.chip.pwr.off = false ∧ s.chip.thm.tripped = false ∧ src < 6 ∧ bitAt (s.chip.get F.PWR_WAKE_EN_EN) src = false) ∧
    (∃ (t : Nat) (src : Fin 8) (s : State), s.chip.fw.tcWait = [] ∧ s.chip.pwr.off = false ∧ s.chip.thm.tripped = false ∧ src < 6 ∧ bitAt (s.chip.get F.PWR_WAKE_EN_EN) src = true ∧ s.chip.pwrPhase = 3 ∧ aonCycle s.chip.pwr.commitAt < aonCycle (max s.chip.now t)) ∧
    (∃ (t : Nat) (src : Fin 8) (s : State), s.chip.fw.tcWait = [] ∧ (s.chip.pwr.off = true ∨ s.chip.thm.tripped = true)) ∧
    (∃ (t : Nat) (s : State), s.chip.fw.tcWait = [] ∧ s.chip.pwr.off = false ∧ s.chip.thm.tripped = false ∧ s.chip.pwrPhase = 0 ∧ (s.chip.pwrState = 2 ∨ s.chip.pwrState = 3) ∧ bitAt (s.chip.get F.PWR_WAKE_EN_EN) 0 = true ∧ s.chip.pwr.wake = none ∧ s.chip.get F.PWR_WAKE_TMR_TICKS ≠ 0 ∧ s.chip.pwr.timerDone = false ∧ s.chip.pwr.commitAt * 32768 + s.chip.get F.PWR_WAKE_TMR_TICKS * ms 1000 ≤ max s.chip.now t * 32768) ∧
    (∃ (t : Nat) (s : State), s.chip.fw.tcWait = [] ∧ (s.chip.get F.PWR_WAKE_TMR_TICKS = 0 ∨ s.chip.pwr.timerDone = true)) ∧
    (∃ (t : Nat) (i : Initiator) (s : State), s.chip.mayWrite i R.PWR_WAKE_SW.addr ∧ s.chip.pwr.off = false ∧ s.chip.thm.tripped = false ∧ s.chip.pwrPhase = 0 ∧ (s.chip.pwrState = 1 ∨ s.chip.pwrState = 2) ∧ bitAt (s.chip.get F.PWR_WAKE_EN_EN) 6 = true ∧ s.chip.pwr.wake = none) ∧
    (∃ (t : Nat) (env : BootEnv) (w : Wake) (s : State), s.chip.fw.tcWait = [] ∧ s.chip.pwr.wake = some w ∧ w.stage = 0) ∧
    (∃ (t : Nat) (env : BootEnv) (w : Wake) (s : State), s.chip.fw.tcWait = [] ∧ s.chip.pwr.wake = some w ∧ w.stage = 2) ∧
    (∃ (t : Nat) (env : BootEnv) (w : Wake) (s : State), s.chip.fw.tcWait = [] ∧ s.chip.pwr.wake = some w ∧ w.stage = 4 ∧ w.left = 1 ∧ w.src < 256) ∧
    (∃ (t : Nat) (env : BootEnv) (w : Wake) (s : State), s.chip.fw.tcWait = [] ∧ s.chip.pwr.wake = some w ∧ w.stage = 4 ∧ w.left = 2) ∧
    (∃ (t : Nat) (env : BootEnv) (s : State), s.chip.fw.tcWait = [] ∧ s.chip.pwr.wake = none) ∧
    (∃ (t : Nat) (i : Initiator) (w : Word) (s : State), s.chip.mayWrite i R.PAD_HOLD_REL.addr ∧ w.toNat % 2 ^ 13 = 2 ^ 8 ∧ bitAt (s.chip.get F.PAD_HOLD_HELD) 8 = true ∧ s.chip.up 6 = true) ∧
    (∃ (t : Nat) (i : Initiator) (g : Fin 13) (w : Word) (s : State), s.chip.mayWrite i R.PAD_HOLD_REL.addr ∧ w.toNat % 2 ^ 13 = 2 ^ g.val ∧ (bitAt (s.chip.get F.PAD_HOLD_HELD) g = false ∨ s.chip.up (padIsland g) = false)) ∧
    (∃ (t isl : Nat) (fails : List PulseFail) (pulses : Nat) (s : State), s.chip.pwr.off = false ∧ s.chip.pwr.resetLow = false ∧ s.chip.thm.tripped = false ∧ s.chip.otp.cmd = none) ∧
    (∃ (t causes isl : Nat) (fails : List PulseFail) (pulses : Nat) (s : State), s.chip.pwr.off = true) :=
  ⟨⟨5, (0 : Fin 8), (bt.put F.PWR_WAKE_EN_EN 0xFF).put F.PWR_STAT_STATE 3, by decide +kernel⟩,
   ⟨5, (3 : Fin 8), (bt.put F.PWR_WAKE_EN_EN 0).put F.PWR_STAT_STATE 3, by decide +kernel⟩,
   ⟨us 5, (0 : Fin 8), ph 3 2 0 (bt.put F.PWR_WAKE_EN_EN 0xFF), by decide +kernel⟩,
   ⟨5, (0 : Fin 8), pw (fun p => { p with off := true }) bt, by decide +kernel⟩,
   ⟨ms 3000, pw (fun p => { p with timerDone := false }) (((bt.put F.PWR_WAKE_EN_EN 0xFF).put F.PWR_STAT_STATE 3).put F.PWR_WAKE_TMR_TICKS 32768), by decide +kernel⟩,
   ⟨5, bt, by decide +kernel⟩,
   ⟨5, (.tc : Initiator), (bt.put F.PWR_WAKE_EN_EN 0xFF).put F.PWR_STAT_STATE 1, by decide +kernel⟩,
   ⟨5, (env0 : BootEnv), (⟨0, 1, 2, 1, false⟩ : Wake), pw (fun p => { p with wake := some ⟨0, 1, 2, 1, false⟩ }) bt, by decide +kernel⟩,
   ⟨5, (env0 : BootEnv), (⟨2, 1, 2, 1, false⟩ : Wake), pw (fun p => { p with wake := some ⟨2, 1, 2, 1, false⟩ }) bt, by decide +kernel⟩,
   ⟨5, (env0 : BootEnv), (⟨4, 1, 1, 128, true⟩ : Wake), pw (fun p => { p with wake := some ⟨4, 1, 1, 128, true⟩ }) (bt.put F.PWR_STAT_STATE 1), by decide +kernel⟩,
   ⟨5, (env0 : BootEnv), (⟨4, 1, 2, 1, true⟩ : Wake), pw (fun p => { p with wake := some ⟨4, 1, 2, 1, true⟩ }) ((bt.put F.PWR_STAT_STATE 2).put F.SYS_ISL_STAT_ISL_UP 0x9B), by decide +kernel⟩,
   ⟨5, (env0 : BootEnv), bt, by decide +kernel⟩,
   ⟨5, (.tc : Initiator), (0x100 : Word), bt.put F.PAD_HOLD_HELD 0x1FFF, by decide +kernel⟩,
   ⟨5, (.tc : Initiator), (12 : Fin 13), (0x1000 : Word), bt.put F.PAD_HOLD_HELD 0, by decide +kernel⟩,
   ⟨5, 3, ([] : List PulseFail), 0, bt.put F.CMP_WARN_WARN 3, by decide +kernel⟩,
   ⟨5, 3, 3, ([] : List PulseFail), 0, pw (fun p => { p with off := true }) bt, by decide +kernel⟩⟩

theorem witness_DieTemperature :
    (∃ (t vin : Nat) (r0 r1 r2 r3 : Int) (cur : List Nat) (m : Chip) (s : State), s.chip.pwr.off = false ∧ s.chip.calBusy = false ∧ s.chip.fw.calCmd = none ∧ vin < 4096 ∧ s.chip.thm.readmit = 0 ∧ m = { s.chip.at t with pwr := { s.chip.pwr with cur := Vector.ofFn (fun (i : Fin 16) => cur.getD i.val 0) } } ∧ (-880 ≤ r0 ∧ r0 ≤ 2400) ∧ (-880 ≤ r1 ∧ r1 ≤ 2400) ∧ (-880 ≤ r2 ∧ r2 ≤ 2400) ∧ (-880 ≤ r3 ∧ r3 ≤ 2400) ∧ s.chip.ldl.grants = [] ∧ s.chip.ldl.asks = []) ∧
    (∃ (t vin : Nat) (d : Fin 4) (raw : List Int) (cur : List Nat) (s : State), s.chip.pwr.off = false ∧ (raw.getD d.val 0 < -880 ∨ 2400 < raw.getD d.val 0) ∧ s.chip.sensorValid d = true) ∧
    (∃ (t vin : Nat) (raw : List Int) (cur : List Nat) (s : State), s.chip.pwr.off = true) ∧
    (∃ (t src : Nat) (temp : Int) (s : State), s.chip.pwr.off = false ∧ s.chip.thm.tripDue = some (src, temp) ∧ src < 16) ∧
    (∃ (t : Nat) (s : State), s.chip.thm.tripDue = none) ∧
    (∃ (t a : Nat) (s : State), s.chip.thm.tripped = true ∧ s.chip.pwr.resetLow = false ∧ s.chip.thm.coolAt = some a ∧ a + ms 1000 ≤ max s.chip.now t) ∧
    (∃ (t : Nat) (s : State), (s.chip.thm.tripped = false ∨ s.chip.thm.coolAt = none)) ∧
    (∃ (t : Nat) (i : Initiator) (d : Fin 4) (mask : Fin 16) (s : State), s.chip.mayWrite i R.THM_STAT.addr ∧ mask.val = 2 ^ d.val ∧ bitAt (s.chip.get F.THM_STAT_EXCL) d = true) :=
  ⟨⟨5, 1200, (-880 : Int), (2400 : Int), (500 : Int), (600 : Int), ([1000, 2000] : List Nat), ({ bt.chip.at 5 with pwr := { bt.chip.pwr with cur := Vector.ofFn (fun (i : Fin 16) => [1000, 2000].getD i.val 0) } } : Chip), bt, by decide +kernel⟩,
   ⟨5, 12000, (3 : Fin 4), ([500, 500, 500, 2401] : List Int), ([] : List Nat), bt.put F.THM_STAT_VALID 15, by decide +kernel⟩,
   ⟨5, 12000, ([500, 500, 500, 2401] : List Int), ([] : List Nat), pw (fun p => { p with off := true }) bt, by decide +kernel⟩,
   ⟨5, 3, (2100 : Int), th (fun h => { h with tripDue := some (3, 2100) }) bt, by decide +kernel⟩,
   ⟨5, bt, by decide +kernel⟩,
   ⟨ms 1001, 5, th (fun h => { h with tripped := true, coolAt := some 5 }) bt, by decide +kernel⟩,
   ⟨5, bt, by decide +kernel⟩,
   ⟨5, (.tc : Initiator), (2 : Fin 4), (4 : Fin 16), bt.put F.THM_STAT_EXCL 4, by decide +kernel⟩⟩

end FamP

namespace FamQ

def opn : State := (List.range 16).foldl (fun s b => s.put F.MEM_OWN_OWNER 7 b) (base.put F.MEM_RET_STAT_READY 0xFFFF)
def mm (a : Nat) (l : List Byte) (s : State) : State := { s with store := s.store.write a l }
def dd : State := ((base.put F.DDR_CTRL_EN 1).put F.DDR_STAT_READY 1).put F.DDR_STAT_SIZE 4
def win : State := (((dd.put F.DDR_WIN_PERM_EN 1 2).put F.DDR_WIN_BASE_PAGE (0x1000000000 / 4096) 2).put F.DDR_WIN_LIMIT_PAGE (0x1000000000 / 4096 + 1) 2)
def ch3 (f : DmaCh → DmaCh) (s : State) : State := s.on (fun c => c.setCh 3 (f (c.ch 3)))
def sel3 (s : State) : State := s.on (fun c => (c.setLatch R.DMA_CHSEL.addr 0 3).setLatch R.DMA_CHSEL.addr 1 3)
def dsc : List Byte := [0, 1, 0, 0, 0, 1, 1, 0, 0, 2, 0, 0, 0, 0, 0, 0, 8, 0, 0, 0, 0, 0, 0, 0, 0, 0, 0, 0, 0, 0, 0, 0]
def run3 : State := ch3 (fun d => { d with state := 1, loaded := true, rows := 1, len := 8, src := 0x100, dst := 0x200, flags := 1 }) (mm 0x100 [1,2,3,4,5,6,7,8] (sel3 opn))

theorem witness_ScratchpadActs :
    (∃ (t addr n : Nat) (i : Initiator) (others : List WordWrite) (s : State), s.chip.up 4 = true ∧ isProcessor i = true ∧ addr + n ≤ 0x100000 ∧ (n = 1 ∨ n = 2 ∨ n = 4) ∧ addr % n = 0 ∧ s.chip.bankAllows i (bankOf addr) false = true ∧ s.chip.bankReady (bankOf addr) = true) ∧
    (∃ (t addr : Nat) (i : Initiator) (l : List Byte) (s : State), s.chip.up 4 = true ∧ isProcessor i = true ∧ addr + l.length ≤ 0x100000 ∧ (l.length = 1 ∨ l.length = 2 ∨ l.length = 4) ∧ addr % l.length = 0 ∧ s.chip.bankAllows i (bankOf addr) true = true ∧ s.chip.bankReady (bankOf addr) = true) ∧
    (∃ (t : Nat) (i : Initiator) (addr : Fin 0x100000) (l : List Byte) (wait : Nat) (s : State), s.chip.up 4 = true ∧ isProcessor i = true ∧ addr.val % 4 = 0 ∧ l.length = 4 ∧ s.chip.bankAllows i (bankOf addr.val) true = true ∧ s.chip.bankReady (bankOf addr.val) = true) ∧
    (∃ (t : Nat) (i : Initiator) (addr : Fin 0x100000) (l : List Byte) (wait : Nat) (s : State), s.chip.up 4 = true ∧ isProcessor i = true ∧ addr.val % 4 = 0 ∧ l.length = 4 ∧ s.chip.bankAllows i (bankOf addr.val) true = true ∧ s.chip.bankReady (bankOf addr.val) = true) ∧
    (∃ (t addr n : Nat) (i : Initiator) (others : List WordWrite) (wait : Nat) (s : State), s.chip.up 4 = true ∧ isProcessor i = true ∧ addr < 0x100000 ∧ (n = 1 ∨ n = 2 ∨ n = 4) ∧ addr % n = 0 ∧ s.chip.bankAllows i (bankOf addr) false = false) ∧
    (∃ (t addr n : Nat) (i : Initiator) (others : List WordWrite) (wait : Nat) (s : State), s.chip.up 4 = true ∧ isProcessor i = true ∧ addr < 0x100000 ∧ (n = 1 ∨ n = 2 ∨ n = 4) ∧ addr % n = 0 ∧ s.chip.bankAllows i (bankOf addr) false = true ∧ s.chip.bankReady (bankOf addr) = false) ∧
    (∃ (t addr : Nat) (i : Initiator) (l m : List Byte) (s : State), s.chip.up 4 = true ∧ isProcessor i = true ∧ i ≠ .tc ∧ l.length = 4 ∧ m.length = 4 ∧ addr % 4 = 0 ∧ addr < 0x100000 ∧ s.chip.bankAllows i (bankOf addr) true = true ∧ s.chip.bankReady (bankOf addr) = true) ∧
    (∃ (t : Nat) (i : Initiator) (b : Fin 16) (w : Word) (s : State), s.chip.mayWrite i (R.MEM_OWN.at b 0) ∧ s.chip.ownerWriteTakes i b = true ∧ fld F.MEM_OWN_OWNER w.toNat ≠ 6 ∧ s.chip.switchState = 0 ∧ s.chip.calBusy = false) ∧
    (∃ (t : Nat) (i : Initiator) (b : Fin 16) (w : Word) (s : State), s.chip.mayWrite i (R.MEM_OWN.at b 0) ∧ (s.chip.ownerWriteTakes i b = false ∨ fld F.MEM_OWN_OWNER w.toNat = 6)) ∧
    (∃ (t : Nat) (w : Word) (s : State), s.chip.mayWrite .tc R.MEM_GROTTO_WIPE.addr ∧ fld F.MEM_GROTTO_WIPE_GO w.toNat = 1 ∧ fld F.MEM_GROTTO_WIPE_KEY w.toNat = 0x5A3C) ∧
    (∃ (t : Nat) (w : Word) (s : State), s.chip.mayWrite .tc R.MEM_GROTTO_WIPE.addr ∧ fld F.MEM_GROTTO_WIPE_GO w.toNat = 1 ∧ fld F.MEM_GROTTO_WIPE_KEY w.toNat ≠ 0x5A3C) ∧
    (∃ (t : Nat) (s : State), s.chip.up 4 = true ∧ s.chip.on F.MEM_GROTTO_STAT_WIPING = true ∧ s.chip.mem.waiting = [] ∧ s.chip.mem.wipeCause < 8) :=
  ⟨⟨5, 0xFFFFC, 4, (.jc0 : Initiator), ([] : List WordWrite), mm 0xFFFFC [1,2,3,4] opn, by decide +kernel⟩,
   ⟨5, 0x102, (.tc : Initiator), ([9,8] : List Byte), mm 0x100 [1,2,3,4] opn, by decide +kernel⟩,
   ⟨5, (.tc : Initiator), (0x100 : Fin 0x100000), ([9,8,1,2] : List Byte), 0, mm 0x100 [1,2,3,4] opn, by decide +kernel⟩,
   ⟨5, (.tc : Initiator), (0x100 : Fin 0x100000), ([9,8,1,2] : List Byte), 0, mm 0x100 [1,2,3,4] opn, by decide +kernel⟩,
   ⟨5, 0x100, 4, (.jc0 : Initiator), ([] : List WordWrite), 0, opn.put F.MEM_OWN_OWNER 3 0, by decide +kernel⟩,
   ⟨5, 0x100, 4, (.jc0 : Initiator), ([] : List WordWrite), 0, opn.put F.MEM_RET_STAT_READY 0xFFFE, by decide +kernel⟩,
   ⟨5, 0x100, (.jc0 : Initiator), ([9,8,1,2] : List Byte), ([1,1,1,1] : List Byte), opn, by decide +kernel⟩,
   ⟨5, (.jc0 : Initiator), (15 : Fin 16), (3 : Word), opn, by decide +kernel⟩,
   ⟨5, (.jc0 : Initiator), (15 : Fin 16), (6 : Word), opn, by decide +kernel⟩,
   ⟨5, (BitVec.ofNat 32 (withBits (withBits 0 F.MEM_GROTTO_WIPE_GO.hi F.MEM_GROTTO_WIPE_GO.lo 1) F.MEM_GROTTO_WIPE_KEY.hi F.MEM_GROTTO_WIPE_KEY.lo 0x5A3C) : Word), opn, by decide +kernel⟩,
   ⟨5, (BitVec.ofNat 32 (withBits 0 F.MEM_GROTTO_WIPE_GO.hi F.MEM_GROTTO_WIPE_GO.lo 1) : Word), opn, by decide +kernel⟩,
   ⟨5, (mm 0x80FFFE [1,2,3,4] opn).put F.MEM_GROTTO_STAT_WIPING 1, by decide +kernel⟩⟩

theorem witness_DdrActs :
    (∃ (t : Nat) (i : Initiator) (w : Word) (s : State), s.chip.mayWrite i R.DDR_CTRL.addr ∧ s.chip.on F.DDR_CTRL_EN = false ∧ s.chip.on F.DDR_CTRL_LOCK = false ∧ s.chip.switchState = 0 ∧ s.chip.calBusy = false) ∧
    (∃ (t : Nat) (values eyes : List Nat) (s : State), s.chip.up 4 = true ∧ s.chip.on F.DDR_CTRL_EN = true ∧ eyes ≠ [] ∧ (∀ e ∈ eyes, 8 ≤ e)) ∧
    (∃ (t e : Nat) (values eyes : List Nat) (s : State), s.chip.up 4 = true ∧ s.chip.on F.DDR_CTRL_EN = true ∧ e ∈ eyes ∧ e < 8) ∧
    (∃ (t addr n inFlight : Nat) (a : Agent) (s : State), s.chip.ddrReady = true ∧ s.chip.inDdr addr n = true ∧ s.chip.windowRefuses a addr false = none) ∧
    (∃ (t addr inFlight : Nat) (a : Agent) (l : List Byte) (s : State), s.chip.ddrReady = true ∧ s.chip.inDdr addr l.length = true ∧ s.chip.windowRefuses a addr true = none) ∧
    (∃ (t addr n inFlight : Nat) (a : Agent) (e : DdrError) (s : State), s.chip.ddrReady = true ∧ s.chip.inDdr addr n = true ∧ s.chip.windowRefuses a addr false = none ∧ e.fatal = true ∧ addr < e.line + 64 ∧ e.line < addr + n) ∧
    (∃ (t addr inFlight : Nat) (a : Agent) (op : MemOp) (errs : List DdrError) (s : State), s.chip.up 4 = true ∧ s.chip.on F.DDR_STAT_READY = false) ∧
    (∃ (t addr inFlight : Nat) (w : Fin 8) (op : MemOp) (errs : List DdrError) (s : State), s.chip.ddrReady = true ∧ s.chip.inDdr addr op.size = true ∧ s.chip.windowRefuses .pipe addr op.isWrite = some w ∧ s.chip.mem.denyAt[w] = none) ∧
    (∃ (t : Nat) (i : Initiator) (s : State), s.chip.mayRead i R.DDR_ECC_ADDR_LO.addr) ∧
    (∃ (t : Nat) (s : State), s.chip.ddrReady = true) :=
  ⟨⟨5, (.tc : Initiator), (0 : Word), base.put F.DDR_CTRL_EN 0, by decide +kernel⟩,
   ⟨5, ([1,2,3] : List Nat), ([9,8] : List Nat), base.put F.DDR_CTRL_EN 1, by decide +kernel⟩,
   ⟨5, 7, ([1,2,3] : List Nat), ([9,7] : List Nat), base.put F.DDR_CTRL_EN 1, by decide +kernel⟩,
   ⟨5, 0x1000000010, 4, 97, (.host : Agent), mm 0x1000000010 [1,2,3,4] dd, by decide +kernel⟩,
   ⟨5, 0x1000000010, 9, (.tc : Agent), ([1,2] : List Byte), mm 0x1000000010 [1,2,3,4] dd, by decide +kernel⟩,
   ⟨5, 0x1000000010, 4, 97, (.host : Agent), (⟨0x1000000000, true, 0, 3⟩ : DdrError), dd, by decide +kernel⟩,
   ⟨5, 0x1000000010, 97, (.jc0 : Agent), (.read 4 : MemOp), ([] : List DdrError), base, by decide +kernel⟩,
   ⟨5, 0x1000000010, 97, (2 : Fin 8), (.read 4 : MemOp), ([] : List DdrError), win, by decide +kernel⟩,
   ⟨5, (.tc : Initiator), base.put R.DDR_ECC_ADDR_HI 9, by decide +kernel⟩,
   ⟨5, dd, by decide +kernel⟩⟩

theorem witness_DmaActs :
    (∃ (t : Nat) (i : Initiator) (n : Fin 32) (d : DmaCh) (b : List Nat) (s : State), s.chip.mayWrite i R.DMA_CH_CTRL.addr ∧ s.chip.pwrState ≠ 1 ∧ n = Fin.ofNat 32 (s.chip.latched R.DMA_CHSEL.addr (initNo i)) ∧ d = s.chip.ch n ∧ d.state = 0 ∧ d.next % 32 = 0 ∧ d.next < 0x100000 ∧ (∀ k : Fin 16, s.chip.bankAllows .dma k false = true) ∧ b = (s.store.read d.next 32).map BitVec.toNat ∧ s.chip.descBad (d.withDesc b) b = false ∧ (d.withDesc b).overlap = none ∧ (d.withDesc b).flags < 16 ∧ s.chip.get F.DMA_LDL_THR = 0) ∧
    (∃ (t : Nat) (i : Initiator) (n : Fin 32) (d : DmaCh) (b : List Nat) (s : State), s.chip.mayWrite i R.DMA_CH_CTRL.addr ∧ s.chip.pwrState ≠ 1 ∧ n = Fin.ofNat 32 (s.chip.latched R.DMA_CHSEL.addr (initNo i)) ∧ d = s.chip.ch n ∧ d.state = 0 ∧ d.next % 32 = 0 ∧ d.next < 0x100000 ∧ (∀ k : Fin 16, s.chip.bankAllows .dma k false = true) ∧ b = (s.store.read d.next 32).map BitVec.toNat ∧ s.chip.descBad (d.withDesc b) b = true ∧ s.chip.ldl.grants = [] ∧ s.chip.ldl.asks = []) ∧
    (∃ (t : Nat) (i : Initiator) (n : Fin 32) (errs : List DdrError) (ues : List Nat) (s : State), s.chip.mayWrite i R.DMA_CH_CTRL.addr ∧ s.chip.pwrState ≠ 1 ∧ n = Fin.ofNat 32 (s.chip.latched R.DMA_CHSEL.addr (initNo i)) ∧ ((s.chip.ch n).state = 1 ∨ (s.chip.ch n).state = 2 ∨ (s.chip.ch n).state = 3)) ∧
    (∃ (t : Nat) (i : Initiator) (n : Fin 32) (s : State), s.chip.mayWrite i R.DMA_CH_CTRL.addr ∧ s.chip.pwrState ≠ 1 ∧ n = Fin.ofNat 32 (s.chip.latched R.DMA_CHSEL.addr (initNo i)) ∧ (s.chip.ch n).state = 1) ∧
    (∃ (t : Nat) (i : Initiator) (n : Fin 32) (s : State), s.chip.mayWrite i R.DMA_CH_CTRL.addr ∧ s.chip.pwrState ≠ 1 ∧ n = Fin.ofNat 32 (s.chip.latched R.DMA_CHSEL.addr (initNo i)) ∧ ((s.chip.ch n).state = 1 ∨ (s.chip.ch n).state = 3)) ∧
    (∃ (t : Nat) (i : Initiator) (n : Fin 32) (s : State), s.chip.mayWrite i R.DMA_CH_CTRL.addr ∧ s.chip.pwrState ≠ 1 ∧ n = Fin.ofNat 32 (s.chip.latched R.DMA_CHSEL.addr (initNo i)) ∧ ((s.chip.ch n).state = 4 ∨ (s.chip.ch n).state = 5) ∧ s.chip.ldl.grants = [] ∧ s.chip.ldl.asks = []) ∧
    (∃ (t : Nat) (i : Initiator) (n : Fin 32) (w : Word) (late : Bool) (errs : List DdrError) (ues : List Nat) (s : State), s.chip.mayWrite i R.DMA_CH_APPEND_HI.addr ∧ s.chip.pwrState ≠ 1 ∧ n = Fin.ofNat 32 (s.chip.latched R.DMA_CHSEL.addr (initNo i)) ∧ (s.chip.ch n).state ≠ 0 ∧ s.chip.sys.lastWrite = none) ∧
    (∃ (t : Nat) (n : Fin 32) (errs : List DdrError) (ues : List Nat) (s : State), s.chip.up 4 = true ∧ s.chip.pwrState ≠ 1 ∧ (s.chip.ch n).state = 3 ∧ (s.chip.ch n).hold = none ∧ (s.chip.ch n).aborting = false ∧ (s.chip.ch n).loaded = true ∧ (s.chip.ch n).rowsDone < (s.chip.ch n).rows ∧ s.chip.ldl.grants = [] ∧ s.chip.ldl.asks = []) ∧
    (∃ (t : Nat) (n : Fin 32) (d : DmaCh) (s : State), s.chip.up 4 = true ∧ s.chip.pwrState ≠ 1 ∧ d = s.chip.ch n ∧ d.state = 1 ∧ d.loaded = true ∧ d.again = none ∧ d.hold = none ∧ d.down = false ∧ d.rows = 1 ∧ d.rowsDone = 0 ∧ d.bytesDone = 0 ∧ d.len % 4 = 0 ∧ 4 ≤ d.len ∧ d.src % 4 = 0 ∧ d.dst % 4 = 0 ∧ d.src + d.len ≤ 0x100000 ∧ d.dst + d.len ≤ 0x100000 ∧ (d.src + d.len ≤ d.dst ∨ d.dst + d.len ≤ d.src) ∧ d.flags = 1 ∧ d.appPend = false ∧ d.aborting = false ∧ d.cfg < 256 ∧ ((∀ k : Fin 16, s.chip.bankAllows .dma k true = true ∧ s.chip.bankAllows .dma k false = true)) ∧ (∀ k : Fin 16, s.chip.bankReady k = true) ∧ s.chip.ldl.grants = [] ∧ s.chip.ldl.asks = []) ∧
    (∃ (t : Nat) (n : Fin 32) (d : DmaCh) (s : State), s.chip.up 4 = true ∧ s.chip.pwrState ≠ 1 ∧ d = s.chip.ch n ∧ d.state = 1 ∧ d.loaded = true ∧ d.again.isSome = true ∧ d.hold = none ∧ d.down = false ∧ d.rows = 1 ∧ d.rowsDone = 0 ∧ d.bytesDone = 0 ∧ d.len = 4 ∧ d.src % 4 = 0 ∧ d.dst % 4 = 0 ∧ d.src + 4 ≤ 0x100000 ∧ d.dst + 4 ≤ 0x100000 ∧ d.flags < 4 ∧ d.retryAt = some (max s.chip.now t) ∧ ((∀ k : Fin 16, s.chip.bankAllows .dma k true = true ∧ s.chip.bankAllows .dma k false = true)) ∧ (∀ k : Fin 16, s.chip.bankReady k = true)) ∧
    (∃ (t : Nat) (i : Initiator) (n : Fin 32) (s : State), s.chip.mayRead i R.DMA_CH_SRC_LO.addr ∧ n = Fin.ofNat 32 (s.chip.latched R.DMA_CHSEL.addr (initNo i))) ∧
    (∃ (t : Nat) (i : Initiator) (n : Fin 32) (s : State), s.chip.mayRead i R.DMA_CH_FAULT_LO.addr ∧ n = Fin.ofNat 32 (s.chip.latched R.DMA_CHSEL.addr (initNo i))) :=
  ⟨⟨5, (.tc : Initiator), (3 : Fin 32), (((ch3 (fun d => { d with next := 0x40 }) (mm 0x40 dsc (sel3 opn))).chip.ch 3) : DmaCh), (dsc.map BitVec.toNat : List Nat), ch3 (fun d => { d with next := 0x40 }) (mm 0x40 dsc (sel3 opn)), by decide +kernel⟩,
   ⟨5, (.tc : Initiator), (3 : Fin 32), (((ch3 (fun d => { d with next := 0x40 }) (sel3 opn)).chip.ch 3) : DmaCh), (List.replicate 32 0 : List Nat), ch3 (fun d => { d with next := 0x40 }) (sel3 opn), by decide +kernel⟩,
   ⟨5, (.tc : Initiator), (3 : Fin 32), ([] : List DdrError), ([] : List Nat), run3, by decide +kernel⟩,
   ⟨5, (.tc : Initiator), (3 : Fin 32), run3, by decide +kernel⟩,
   ⟨5, (.tc : Initiator), (3 : Fin 32), run3, by decide +kernel⟩,
   ⟨5, (.tc : Initiator), (3 : Fin 32), ch3 (fun d => { d with state := 5 }) run3, by decide +kernel⟩,
   ⟨5, (.tc : Initiator), (3 : Fin 32), (9 : Word), (true : Bool), ([] : List DdrError), ([] : List Nat), run3, by decide +kernel⟩,
   ⟨5, (3 : Fin 32), ([] : List DdrError), ([] : List Nat), ch3 (fun d => { d with state := 3 }) run3, by decide +kernel⟩,
   ⟨5, (3 : Fin 32), (((run3).chip.ch 3) : DmaCh), run3, by decide +kernel⟩,
   ⟨5, (3 : Fin 32), (((ch3 (fun d => { d with again := some 3, len := 4, retryAt := some 5 }) run3).chip.ch 3) : DmaCh), ch3 (fun d => { d with again := some 3, len := 4, retryAt := some 5 }) run3, by decide +kernel⟩,
   ⟨5, (.tc : Initiator), (3 : Fin 32), run3, by decide +kernel⟩,
   ⟨5, (.tc : Initiator), (3 : Fin 32), ch3 (fun d => { d with faultAddr := 0x1234567890, faultWrite := true }) run3, by decide +kernel⟩⟩

end FamQ

namespace FamR

def lk : State := ((((base.put F.HST_LINK_UP 1).put F.HST_LINK_BME 1).put F.HST_SQ_CFG_EN 1 3).put F.HST_SQ_CFG_SIZE_LOG2 4 3).put F.HST_SQ_TAIL_TAIL 2 3
def fwS (s : State) : State := (s.on (fun c => c.setSys { c.sys with fwUp := true })).put F.HST_XCFG_FETCH_N 8
def hs (f : HstSt → HstSt) (s : State) : State := s.on (fun c => c.setHst (f c.hst))
def cqS : State := ((lk.put F.HST_CQ_CFG_EN 1 3).put F.HST_CQ_CFG_SIZE_LOG2 4 3).put F.HST_CQ_TAIL_TAIL 15 3
def k1 : Completion := ⟨3, 0x1234, 3, 0, 5, 6, 1⟩
def rec' : State := (((((cqS.put F.HST_REC_CFG_EN 1).put F.HST_REC_CFG_SIZE_LOG2 8).put F.NZH_ARQ_WR_WR 1).put F.NZH_ARQ_BASE_HI_ADDR 0x10).put F.DDR_STAT_READY 1).put F.DDR_STAT_SIZE 4
def eh : List Byte := [1, 0, 5, 0]

theorem witness_HostRings :
    (∃ (t : Nat) (i : Initiator) (q : Fin 16) (w : Word) (s : State), s.chip.mayWrite i (R.HST_SQ_TAIL.at q 0) ∧ s.chip.pwrState = 0 ∧ s.chip.pwrPhase = 0 ∧ s.chip.pwr.off = false ∧ s.chip.thm.tripped = false ∧ s.chip.on F.HST_SQ_CFG_EN q = true ∧ fld F.HST_SQ_TAIL_TAIL w.toNat < s.chip.sqSize q ∧ s.chip.pwr.wake = none) ∧
    (∃ (t : Nat) (i : Initiator) (q : Fin 16) (w : Word) (s : State), s.chip.mayWrite i (R.HST_SQ_TAIL.at q 0) ∧ s.chip.pwrState = 0 ∧ s.chip.pwrPhase = 0 ∧ (s.chip.on F.HST_SQ_CFG_EN q = false ∨ s.chip.sqSize q ≤ fld F.HST_SQ_TAIL_TAIL w.toNat) ∧ s.chip.pwr.wake = none) ∧
    (∃ (t h n : Nat) (q : Fin 16) (e : List Nat) (s : State), s.chip.hostReach = true ∧ s.chip.sys.fwUp = true ∧ s.chip.pwr.ready = [] ∧ s.chip.sqNext = some q.val ∧ s.chip.pwrState ≠ 1 ∧ s.chip.get F.HST_XCFG_FETCH_N ≠ 0 ∧ h = s.chip.get F.HST_SQ_HEAD_HEAD q ∧ n = (h + 1) % s.chip.sqSize q ∧ e = (s.store.readHost (s.chip.get F.HST_SQ_BASE_HI_ADDR q * 2 ^ 32 + s.chip.get F.HST_SQ_BASE_LO_ADDR q * 4096 + 64 * h) 64).map BitVec.toNat ∧ fieldLE e 0 1 ∈ hostOpcodes ∧ s.chip.hst.cmds = [] ∧ n < 4096) ∧
    (∃ (t : Nat) (q : Fin 16) (s : State), s.chip.hostReach = true ∧ s.chip.sys.fwUp = true ∧ s.chip.pwr.ready = [] ∧ s.chip.sqNext = some q.val ∧ s.chip.pwrState ≠ 1 ∧ s.chip.get F.HST_XCFG_FETCH_N ≠ 0 ∧ s.chip.hst.cmds = []) ∧
    (∃ (t : Nat) (i : Initiator) (q : Fin 16) (s : State), s.chip.mayWrite i (R.HST_SQ_HEAD.at q 0)) ∧
    (∃ (t : Nat) (i : Initiator) (q : Fin 16) (w : Word) (s : State), s.chip.mayWrite i (R.HST_SQ_CFG.at q 0) ∧ s.chip.on F.HST_SQ_CFG_EN q = false ∧ s.chip.switchState = 0 ∧ s.chip.calBusy = false) ∧
    (∃ (t : Nat) (i : Initiator) (n : Fin 16) (w : Word) (s : State), s.chip.mayWrite i (R.HST_CQ_CFG.at n 0) ∧ s.chip.on F.HST_CQ_CFG_EN n = false ∧ s.chip.switchState = 0 ∧ s.chip.calBusy = false) ∧
    (∃ (t a : Nat) (n : Fin 16) (k : Completion) (r : List Completion) (s : State), s.chip.hostReach = true ∧ s.chip.on F.HST_CQ_CFG_EN n = true ∧ s.chip.cqFull n = false ∧ s.chip.hst.comps = k :: r ∧ k.cq = n.val ∧ a = s.chip.get F.HST_CQ_TAIL_TAIL n ∧ (a + 1) % s.chip.cqSize n < 4096) ∧
    (∃ (t : Nat) (n : Fin 16) (k : Completion) (r : List Completion) (s : State), s.chip.hostReach = true ∧ s.chip.on F.HST_CQ_CFG_EN n = true ∧ s.chip.cqFull n = false ∧ s.chip.hst.comps = k :: r ∧ k.cq = n.val) ∧
    (∃ (t n : Nat) (fail : Bool) (s : State), (s.chip.hostReach = false ∨ s.chip.on F.HST_CQ_CFG_EN n = false ∨ s.chip.cqFull n = true)) ∧
    (∃ (t : Nat) (i : Initiator) (n : Fin 16) (w : Word) (s : State), s.chip.mayWrite i (R.HST_CQ_HEAD.at n 0) ∧ s.chip.pwrState = 0 ∧ s.chip.pwrPhase = 0 ∧ s.chip.pwr.wake = none ∧ fld F.HST_CQ_HEAD_HEAD w.toNat < s.chip.cqSize n) ∧
    (∃ (t v a : Nat) (s : State), s.chip.msixReach = true ∧ s.chip.hst.mbxDue = true ∧ v = s.chip.get F.MBX_VEC_VEC ∧ s.chip.msixMasked v = false ∧ a = (s.chip.word (msixTable v 0)).toNat + (s.chip.word (msixTable v 1)).toNat * 2 ^ 32) ∧
    (∃ (t v : Nat) (n : Fin 16) (s : State), s.chip.msixReach = true ∧ v = s.chip.get F.HST_CQ_CFG_VEC n ∧ s.chip.msixMasked v = true ∧ (s.chip.at t).coalesced s.chip.hst.cqUnsig[n] s.chip.hst.cqFirst[n] (s.chip.get F.HST_CQ_CFG_COAL_N n) (s.chip.get F.HST_CQ_CFG_COAL_US n) = true) ∧
    (∃ (t : Nat) (x : MsixSource) (s : State), s.chip.msixReach = false) ∧
    (∃ (t : Nat) (i : Initiator) (w : Word) (s : State), s.chip.mayWrite i R.HST_REC_CFG.addr ∧ s.chip.on F.HST_REC_CFG_EN = false ∧ s.chip.switchState = 0 ∧ s.chip.calBusy = false) ∧
    (∃ (t a n : Nat) (s : State), s.chip.hostReach = true ∧ s.chip.on F.HST_REC_CFG_EN = true ∧ s.chip.up 5 = true ∧ s.chip.hst.recNext ≠ s.chip.get F.NZH_ARQ_WR_WR ∧ s.chip.recRoom = true ∧ a = s.chip.baseAddr F.NZH_ARQ_BASE_LO_ADDR F.NZH_ARQ_BASE_HI_ADDR + 64 * (s.chip.hst.recNext % 4096) ∧ s.chip.ddrReady = true ∧ s.chip.inDdr a 64 = true ∧ s.chip.windowRefuses .host a false = none ∧ n = s.chip.get F.HST_REC_TAIL_TAIL) ∧
    (∃ (t k : Nat) (i : Initiator) (w : Word) (s : State), s.chip.mayWrite i R.HST_REC_HEAD.addr ∧ s.chip.pwrState = 0 ∧ s.chip.pwrPhase = 0 ∧ s.chip.pwr.wake = none ∧ s.chip.up 5 = false ∧ k = (w.toNat + 2 ^ 32 - s.chip.get F.HST_REC_HEAD_HEAD) % 2 ^ 32 ∧ k ≤ (s.chip.get F.HST_REC_TAIL_TAIL + 2 ^ 32 - s.chip.get F.HST_REC_HEAD_HEAD) % 2 ^ 32) ∧
    (∃ (t : Nat) (s : State), s.chip.up 7 = true) ∧
    (∃ (t : Nat) (s : State), s.chip.up 7 = false) ∧
    (∃ (t speed width : Nat) (s : State), s.chip.up 7 = true ∧ s.chip.on F.HST_LINK_UP = false ∧ speed < 16 ∧ width < 8) ∧
    (∃ (t dstate : Nat) (bme en mask : Bool) (s : State), s.chip.up 7 = true ∧ s.chip.on F.HST_LINK_UP = true) ∧
    (∃ (t dstate : Nat) (bme en mask : Bool) (s : State), (s.chip.up 7 = false ∨ s.chip.on F.HST_LINK_UP = false)) :=
  ⟨⟨5, (.host : Initiator), (3 : Fin 16), (15 : Word), lk, by decide +kernel⟩,
   ⟨5, (.host : Initiator), (3 : Fin 16), (16 : Word), lk, by decide +kernel⟩,
   ⟨5, 15, 0, (3 : Fin 16), ([1, 0, 5, 0] ++ List.replicate 60 0 : List Nat), fwS ({ lk.put F.HST_SQ_HEAD_HEAD 15 3 with store := lk.store.writeHost 960 eh } : State), by decide +kernel⟩,
   ⟨5, (3 : Fin 16), fwS lk, by decide +kernel⟩,
   ⟨5, (.host : Initiator), (3 : Fin 16), lk.put F.HST_SQ_HEAD_ERR 1 3, by decide +kernel⟩,
   ⟨5, (.host : Initiator), (5 : Fin 16), (4 : Word), lk, by decide +kernel⟩,
   ⟨5, (.host : Initiator), (5 : Fin 16), (4 : Word), lk, by decide +kernel⟩,
   ⟨5, 15, (3 : Fin 16), (k1 : Completion), ([] : List Completion), hs (fun h => { h with comps := [k1] }) (cqS.put F.HST_CQ_HEAD_HEAD 5 3), by decide +kernel⟩,
   ⟨5, (3 : Fin 16), (k1 : Completion), ([] : List Completion), hs (fun h => { h with comps := [k1] }) (cqS.put F.HST_CQ_HEAD_HEAD 5 3), by decide +kernel⟩,
   ⟨5, 3, (true : Bool), base, by decide +kernel⟩,
   ⟨5, (.host : Initiator), (3 : Fin 16), (9 : Word), cqS, by decide +kernel⟩,
   ⟨5, 0, 0, (hs (fun h => { h with mbxDue := true, msixEn := true }) lk).on (fun c => c.setWord (msixTable 0 3) 0), by decide +kernel⟩,
   ⟨5, 0, (3 : Fin 16), hs (fun h => { h with msixEn := true, msixMask := true, cqUnsig := h.cqUnsig.set 3 1 }) cqS, by decide +kernel⟩,
   ⟨5, (.mbx : MsixSource), base, by decide +kernel⟩,
   ⟨5, (.host : Initiator), (8 : Word), lk, by decide +kernel⟩,
   ⟨5, 0x1000000000, 0, rec', by decide +kernel⟩,
   ⟨5, 1, (.host : Initiator), (1 : Word), (rec'.put F.HST_REC_TAIL_TAIL 2).put F.SYS_ISL_STAT_ISL_UP 0xFFDF, by decide +kernel⟩,
   ⟨5, rec', by decide +kernel⟩,
   ⟨5, base.put F.SYS_ISL_STAT_ISL_UP 0xFF7F, by decide +kernel⟩,
   ⟨5, 4, 4, base, by decide +kernel⟩,
   ⟨5, 3, (true : Bool), (true : Bool), (false : Bool), lk, by decide +kernel⟩,
   ⟨5, 3, (true : Bool), (true : Bool), (false : Bool), base, by decide +kernel⟩⟩

end FamR

namespace FamS

def fwS (s : State) : State := s.on (fun c => c.setSys { c.sys with fwUp := true, fwVersion := 0x123, fwSlot := 1 })
def ent (l : List Nat) : List Nat := l ++ List.replicate (64 - l.length) 0
def hc (e : List Nat) : HostCmd := { sq := 3, entry := ent e, head := 5 }
def cm (e : List Nat) (s : State) : State := (fwS s).on (fun c => c.setHst { c.hst with cmds := [hc e] })
def dd : State := (((base.put F.DDR_STAT_READY 1).put F.DDR_STAT_SIZE 4).put F.CMP_STAT_BASE_HI_ADDR 0x10).put F.CMP_GLYPH_BASE_HI_ADDR 0x10 |>.put F.CMP_GSET_BASE_HI_ADDR 0x10
def hostm (a : Nat) (l : List Nat) (s : State) : State := { s with store := s.store.writeHost a (l.map (BitVec.ofNat 8)) }
def dsc : List Nat := [1, 1, 52, 0, 136, 119, 102, 85, 68, 51, 34, 17, 7, 0, 3, 0, 50, 0, 0, 0, 0, 0, 0, 0, 10, 0, 0, 0, 82, 142, 188, 107, 1, 0, 0, 0, 0, 0, 0, 0, 48, 0, 1, 0, 1, 0, 1, 0, 1, 0, 0, 0]
def jb (s : State) : State := s.on (fun c => c.setFw { c.fw with jobs := [7] })
def adm : State := ((((jb (dd.put F.CMP_IQ_BASE_HI_ADDR 0x10)).put F.CMP_BUDGET_USE_USE 80).put F.CMP_LANE_SHARE_SHARE 100 3).put F.CMP_BUDGET_RATE_RATE 1000).put F.CMP_LANE_GEO_WIDTH 8 3 |>.put F.CMP_LDL_THR_THR 100
def sub : List Nat := [0x20, 0, 0, 0, 52, 0, 0, 0, 0, 0, 0, 0, 0, 0, 0, 0, 1]
def inb (l : List Nat) (s : State) : State := { (s.put F.FAB_INBOX_WR_WR 1).put F.FAB_INBOX_BASE_HI_ADDR 0x10 |>.put F.FAB_INBOX_BASE_LO_ADDR 0x1000 with store := s.store.write 0x1001000000 (([9, 0, 52, 0] ++ List.replicate 60 0 ++ l).map (BitVec.ofNat 8)) }
def fs : List Nat := [0x30, 0, 0, 0, 4, 0, 0, 0, 0, 0, 0, 0, 0, 0, 0, 0, 0x20, 1, 9, 0, 1, 0, 0, 0, 2, 0]
def firing (s : State) : State := s.put F.HP_STAT_STATE 5 2

theorem witness_HostCommands :
    (∃ (t q : Nat) (h : HostCmd) (s : State), s.chip.fwRuns = true ∧ s.chip.pwrState ≠ 1 ∧ s.chip.hst.cmds = [h] ∧ h.sq = q ∧ fieldLE h.entry 0 1 = 0x01 ∧ entryDlen h.entry = 0) ∧
    (∃ (t q : Nat) (h : HostCmd) (s : State), s.chip.fwRuns = true ∧ s.chip.pwrState ≠ 1 ∧ s.chip.hst.cmds = [h] ∧ h.sq = q ∧ fieldLE h.entry 0 1 = 0x01 ∧ entryDlen h.entry ≠ 0) ∧
    (∃ (t q : Nat) (h : HostCmd) (s : State), s.chip.fwRuns = true ∧ s.chip.pwrState ≠ 1 ∧ s.chip.hst.cmds = [h] ∧ h.sq = q ∧ fieldLE h.entry 0 1 = 0x02 ∧ entryDlen h.entry = 0 ∧ fieldLE h.entry 16 1 = 4) ∧
    (∃ (t q : Nat) (h : HostCmd) (s : State), s.chip.fwRuns = true ∧ s.chip.pwrState ≠ 1 ∧ s.chip.hst.cmds = [h] ∧ h.sq = q ∧ fieldLE h.entry 0 1 = 0x02 ∧ entryDlen h.entry = 0 ∧ fieldLE h.entry 16 1 = 0 ∧ s.chip.get F.CMP_IQ_WR_WR = s.chip.get F.CMP_IQ_RD_RD) ∧
    (∃ (t q job : Nat) (h : HostCmd) (l : List Nat) (s : State), s.chip.fwRuns = true ∧ s.chip.pwrState ≠ 1 ∧ s.chip.hst.cmds = [h] ∧ h.sq = q ∧ fieldLE h.entry 0 1 = 0x10 ∧ job = fieldLE h.entry 16 2 ∧ entryDlen h.entry = 256 ∧ (∀ a ∈ s.chip.cmp.items, a.stage ≠ .queued) ∧ job ∉ s.chip.fw.jobs ∧ l = hostData s.store h.entry ∧ s.chip.up 5 = true ∧ s.chip.switchState = 0 ∧ s.chip.calBusy = false) ∧
    (∃ (t q : Nat) (fail : Bool) (a : Item) (h : HostCmd) (s : State), s.chip.fwRuns = true ∧ s.chip.pwrState ≠ 1 ∧ s.chip.hst.cmds = [h] ∧ h.sq = q ∧ fieldLE h.entry 0 1 = 0x10 ∧ entryDlen h.entry = 256 ∧ a ∈ s.chip.cmp.items ∧ a.stage = .queued) ∧
    (∃ (t q : Nat) (h : HostCmd) (s : State), s.chip.fwRuns = true ∧ s.chip.pwrState ≠ 1 ∧ s.chip.hst.cmds = [h] ∧ h.sq = q ∧ fieldLE h.entry 0 1 = 0x11 ∧ entryDlen h.entry = 0) ∧
    (∃ (t q a : Nat) (h : HostCmd) (s : State), s.chip.fwRuns = true ∧ s.chip.pwrState ≠ 1 ∧ s.chip.hst.cmds = [h] ∧ h.sq = q ∧ fieldLE h.entry 0 1 = 0x12 ∧ entryDlen h.entry = 0 ∧ fieldLE h.entry 16 2 < 4096 ∧ fieldLE h.entry 18 1 ≤ 1 ∧ 1 ≤ fieldLE h.entry 20 2 ∧ fieldLE h.entry 20 2 ≤ 10240 ∧ fieldLE h.entry 22 3 ≠ 0 ∧ fieldLE h.entry 32 5 % 64 = 0 ∧ s.chip.ddrReady = true ∧ (∀ w : Fin 8, s.chip.on F.DDR_WIN_PERM_EN w = false) ∧ a = s.chip.baseAddr F.CMP_STAT_BASE_LO_ADDR F.CMP_STAT_BASE_HI_ADDR + 16 * fieldLE h.entry 16 2 ∧ s.chip.inDdr a 16 = true) ∧
    (∃ (t q : Nat) (fail : Bool) (errs : List DdrError) (h : HostCmd) (s : State), s.chip.fwRuns = true ∧ s.chip.pwrState ≠ 1 ∧ s.chip.hst.cmds = [h] ∧ h.sq = q ∧ fieldLE h.entry 0 1 = 0x12 ∧ (4096 ≤ fieldLE h.entry 16 2 ∨ 1 < fieldLE h.entry 18 1 ∨ fieldLE h.entry 20 2 = 0 ∨ 10240 < fieldLE h.entry 20 2 ∨ fieldLE h.entry 22 3 = 0 ∨ fieldLE h.entry 32 5 % 64 ≠ 0)) ∧
    (∃ (t q a dst : Nat) (h : HostCmd) (b : List Nat) (s : State), s.chip.fwRuns = true ∧ s.chip.pwrState ≠ 1 ∧ s.chip.hst.cmds = [h] ∧ h.sq = q ∧ fieldLE h.entry 0 1 = 0x13 ∧ entryDlen h.entry = 16 ∧ fieldLE h.entry 18 2 = 1 ∧ dst = fieldLE h.entry 32 5 ∧ dst % 4 = 0 ∧ s.chip.ddrReady = true ∧ (∀ w : Fin 8, s.chip.on F.DDR_WIN_PERM_EN w = false) ∧ a = s.chip.baseAddr F.CMP_GLYPH_BASE_LO_ADDR F.CMP_GLYPH_BASE_HI_ADDR + 16 * fieldLE h.entry 16 2 ∧ s.chip.inDdr a 16 = true ∧ s.chip.inDdr dst 0 = true ∧ b = hostData s.store h.entry) ∧
    (∃ (t q a : Nat) (h : HostCmd) (s : State), s.chip.fwRuns = true ∧ s.chip.pwrState ≠ 1 ∧ s.chip.hst.cmds = [h] ∧ h.sq = q ∧ fieldLE h.entry 0 1 = 0x14 ∧ entryDlen h.entry = 0 ∧ fieldLE h.entry 32 5 % 64 = 0 ∧ s.chip.ddrReady = true ∧ (∀ w : Fin 8, s.chip.on F.DDR_WIN_PERM_EN w = false) ∧ a = s.chip.baseAddr F.CMP_GSET_BASE_LO_ADDR F.CMP_GSET_BASE_HI_ADDR + 16 * fieldLE h.entry 16 1 ∧ s.chip.inDdr a 16 = true) :=
  ⟨⟨5, 3, (hc [1] : HostCmd), cm [1] base, by decide +kernel⟩,
   ⟨5, 3, (hc [1, 0, 0, 0, 1] : HostCmd), cm [1, 0, 0, 0, 1] base, by decide +kernel⟩,
   ⟨5, 3, (hc (2 :: List.replicate 15 0 ++ [4]) : HostCmd), cm (2 :: List.replicate 15 0 ++ [4]) base, by decide +kernel⟩,
   ⟨5, 3, (hc [2] : HostCmd), cm [2] base, by decide +kernel⟩,
   ⟨5, 3, 9, (hc [0x10, 0, 0, 0, 0, 1, 0, 0, 0, 0, 0, 0, 0, 0, 0, 0, 9] : HostCmd), (hostData (hostm 4 [1,2,3,4,0,0,0,1] (cm [0x10, 0, 0, 0, 0, 1, 0, 0, 0, 0, 0, 0, 0, 0, 0, 0, 9] base)).store (hc [0x10, 0, 0, 0, 0, 1, 0, 0, 0, 0, 0, 0, 0, 0, 0, 0, 9]).entry : List Nat), hostm 4 [1,2,3,4,0,0,0,1] (cm [0x10, 0, 0, 0, 0, 1, 0, 0, 0, 0, 0, 0, 0, 0, 0, 0, 9] base), by decide +kernel⟩,
   ⟨5, 3, (false : Bool), ({ slot := 0, id := 5, lane := 3, anchor := 0, startField := 0, lines := 10 } : Item), (hc [0x10, 0, 0, 0, 0, 1] : HostCmd), (cm [0x10, 0, 0, 0, 0, 1] base).on (fun c => { c with cmp := { c.cmp with items := [{ slot := 0, id := 5, lane := 3, anchor := 0, startField := 0, lines := 10 }] } }), by decide +kernel⟩,
   ⟨5, 3, (hc [0x11, 0, 0, 0, 0, 0, 0, 0, 0, 0, 0, 0, 0, 0, 0, 0, 7] : HostCmd), jb (cm [0x11, 0, 0, 0, 0, 0, 0, 0, 0, 0, 0, 0, 0, 0, 0, 0, 7] base), by decide +kernel⟩,
   ⟨5, 3, 0x1000000020, (hc [0x12, 0, 0, 0, 0, 0, 0, 0, 0, 0, 0, 0, 0, 0, 0, 0, 2, 0, 1, 0, 5, 0, 6, 0, 0, 0, 0, 0, 0, 0, 0, 0, 0x40, 0, 1] : HostCmd), cm [0x12, 0, 0, 0, 0, 0, 0, 0, 0, 0, 0, 0, 0, 0, 0, 0, 2, 0, 1, 0, 5, 0, 6, 0, 0, 0, 0, 0, 0, 0, 0, 0, 0x40, 0, 1] dd, by decide +kernel⟩,
   ⟨5, 3, (false : Bool), ([] : List DdrError), (hc [0x12] : HostCmd), cm [0x12] dd, by decide +kernel⟩,
   ⟨5, 3, 0x1000000020, 0x1000000100, (hc [0x13, 0, 0, 0, 16, 0, 0, 0, 0, 0, 0, 0, 0, 0, 0, 0, 2, 0, 1, 0, 0, 0, 0, 0, 0, 0, 0, 0, 0, 0, 0, 0, 0, 1, 0, 0, 0x10] : HostCmd), (hostData (hostm 0 [1,2,3,4,5,6,7,8,9,10,11,12,13,14,15,16] (cm [0x13, 0, 0, 0, 16, 0, 0, 0, 0, 0, 0, 0, 0, 0, 0, 0, 2, 0, 1, 0, 0, 0, 0, 0, 0, 0, 0, 0, 0, 0, 0, 0, 0, 1, 0, 0, 0x10] dd)).store (hc [0x13, 0, 0, 0, 16, 0, 0, 0, 0, 0, 0, 0, 0, 0, 0, 0, 2, 0, 1, 0, 0, 0, 0, 0, 0, 0, 0, 0, 0, 0, 0, 0, 0, 1, 0, 0, 0x10]).entry : List Nat), hostm 0 [1,2,3,4,5,6,7,8,9,10,11,12,13,14,15,16] (cm [0x13, 0, 0, 0, 16, 0, 0, 0, 0, 0, 0, 0, 0, 0, 0, 0, 2, 0, 1, 0, 0, 0, 0, 0, 0, 0, 0, 0, 0, 0, 0, 0, 0, 1, 0, 0, 0x10] dd), by decide +kernel⟩,
   ⟨5, 3, 0x1000000020, (hc [0x14, 0, 0, 0, 0, 0, 0, 0, 0, 0, 0, 0, 0, 0, 0, 0, 2, 0, 1, 1, 0, 0, 0, 0, 0, 0, 0, 0, 0, 0, 0, 0, 0x40, 1, 0, 0, 0x10] : HostCmd), cm [0x14, 0, 0, 0, 0, 0, 0, 0, 0, 0, 0, 0, 0, 0, 0, 0, 2, 0, 1, 1, 0, 0, 0, 0, 0, 0, 0, 0, 0, 0, 0, 0, 0x40, 1, 0, 0, 0x10] dd, by decide +kernel⟩⟩

theorem witness_HostSubmits :
    (∃ (t q amt a : Nat) (h : HostCmd) (d : List Nat) (s : State), s.chip.fwRuns = true ∧ s.chip.pwrState ≠ 1 ∧ s.chip.hst.cmds = [h] ∧ h.sq = q ∧ fieldLE h.entry 0 1 = 0x20 ∧ s.chip.admits = true ∧ fieldLE h.entry 16 1 = 1 ∧ d = hostData s.store h.entry ∧ submitLenOk d 1 0 = true ∧ h.done = 0 ∧ h.ofs = 0 ∧ descJob d ∈ s.chip.fw.jobs ∧ s.chip.admission s.store d = 0 ∧ s.chip.heavyItem s.store d = false ∧ s.chip.ddrReady = true ∧ (∀ w : Fin 8, s.chip.on F.DDR_WIN_PERM_EN w = false) ∧ s.chip.up 5 = true ∧ s.chip.switchState = 0 ∧ s.chip.calBusy = false ∧ a = s.chip.baseAddr F.CMP_IQ_BASE_LO_ADDR F.CMP_IQ_BASE_HI_ADDR + 4096 * (s.chip.get F.CMP_IQ_WR_WR % 1024) ∧ s.chip.inDdr a 4096 = true) ∧
    (∃ (t q amt : Nat) (h : HostCmd) (d : List Nat) (s : State), s.chip.fwRuns = true ∧ s.chip.pwrState ≠ 1 ∧ s.chip.hst.cmds = [h] ∧ h.sq = q ∧ fieldLE h.entry 0 1 = 0x20 ∧ s.chip.admits = true ∧ fieldLE h.entry 16 1 = 1 ∧ d = hostData s.store h.entry ∧ submitLenOk d 1 0 = true ∧ h.done = 0 ∧ h.ofs = 0 ∧ descJob d ∉ s.chip.fw.jobs) ∧
    (∃ (t q amt st : Nat) (h : HostCmd) (d : List Nat) (s : State), s.chip.fwRuns = true ∧ s.chip.pwrState ≠ 1 ∧ s.chip.hst.cmds = [h] ∧ h.sq = q ∧ fieldLE h.entry 0 1 = 0x20 ∧ s.chip.admits = true ∧ fieldLE h.entry 16 1 = 1 ∧ d = hostData s.store h.entry ∧ submitLenOk d 1 0 = true ∧ h.done = 0 ∧ h.ofs = 0 ∧ descJob d ∈ s.chip.fw.jobs ∧ st = s.chip.admission s.store d ∧ st ≠ 0) ∧
    (∃ (t amt a e : Nat) (b d : List Nat) (s : State), s.chip.admits = true ∧ s.chip.up 3 = true ∧ s.chip.pwrState ≠ 1 ∧ s.chip.get F.FAB_INBOX_RD_RD ≠ s.chip.get F.FAB_INBOX_WR_WR ∧ e = s.chip.get F.FAB_INBOX_BASE_HI_ADDR * 2 ^ 32 + s.chip.get F.FAB_INBOX_BASE_LO_ADDR * 4096 + 4160 * (s.chip.get F.FAB_INBOX_RD_RD % 256) ∧ s.chip.ddrReady = true ∧ (∀ w : Fin 8, s.chip.on F.DDR_WIN_PERM_EN w = false) ∧ s.chip.inDdr e 4160 = true ∧ b = (s.store.read e 4160).map BitVec.toNat ∧ d = (b.drop 64).take (fieldLE b 2 2) ∧ s.chip.admission s.store d = 0 ∧ s.chip.heavyItem s.store d = false ∧ s.chip.up 5 = true ∧ s.chip.switchState = 0 ∧ s.chip.calBusy = false ∧ a = s.chip.baseAddr F.CMP_IQ_BASE_LO_ADDR F.CMP_IQ_BASE_HI_ADDR + 4096 * (s.chip.get F.CMP_IQ_WR_WR % 1024) ∧ s.chip.inDdr a 4096 = true ∧ s.chip.ldl.grants = [] ∧ s.chip.fab.items = []) ∧
    (∃ (t amt e st : Nat) (b d : List Nat) (s : State), s.chip.admits = true ∧ s.chip.up 3 = true ∧ s.chip.pwrState ≠ 1 ∧ s.chip.get F.FAB_INBOX_RD_RD ≠ s.chip.get F.FAB_INBOX_WR_WR ∧ e = s.chip.get F.FAB_INBOX_BASE_HI_ADDR * 2 ^ 32 + s.chip.get F.FAB_INBOX_BASE_LO_ADDR * 4096 + 4160 * (s.chip.get F.FAB_INBOX_RD_RD % 256) ∧ s.chip.ddrReady = true ∧ (∀ w : Fin 8, s.chip.on F.DDR_WIN_PERM_EN w = false) ∧ s.chip.inDdr e 4160 = true ∧ b = (s.store.read e 4160).map BitVec.toNat ∧ d = (b.drop 64).take (fieldLE b 2 2) ∧ st = s.chip.admission s.store d ∧ st ≠ 0 ∧ st ≠ 0x20 ∧ s.chip.switchState = 0 ∧ s.chip.calBusy = false ∧ s.chip.fab.items = []) ∧
    (∃ (t amt : Nat) (errs : List DdrError) (s : State), s.chip.pwrState ≠ 1 ∧ (s.chip.admits = false ∨ s.chip.get F.FAB_INBOX_RD_RD = s.chip.get F.FAB_INBOX_WR_WR)) ∧
    (∃ (t q buf a n : Nat) (h : HostCmd) (l : List Nat) (s : State), s.chip.fwRuns = true ∧ s.chip.pwrState ≠ 1 ∧ s.chip.hst.cmds = [h] ∧ h.sq = q ∧ fieldLE h.entry 0 1 = 0x30 ∧ s.chip.fw.sends = [] ∧ s.chip.up 3 = true ∧ n = s.chip.get F.FAB_TXQ_WR_WR ∧ (n + 512 - s.chip.get F.FAB_TXQ_RD_RD) % 512 < 256 ∧ l = hostData s.store h.entry ∧ s.chip.ddrReady = true ∧ (∀ w : Fin 8, s.chip.on F.DDR_WIN_PERM_EN w = false) ∧ s.chip.inDdr buf l.length = true ∧ a = s.chip.txSlotAddr (n % 256) ∧ s.chip.inDdr a 32 = true ∧ s.chip.switchState = 0 ∧ s.chip.calBusy = false) ∧
    (∃ (t q : Nat) (h : HostCmd) (s : State), s.chip.fwRuns = true ∧ s.chip.pwrState ≠ 1 ∧ s.chip.hst.cmds = [h] ∧ h.sq = q ∧ fieldLE h.entry 0 1 = 0x40 ∧ s.chip.fw.forward = none ∧ s.chip.on F.MBXM_CTRL_FULL 0 = false ∧ entryDlen h.entry = 0 ∧ 1 ≤ fieldLE h.entry 16 1 ∧ fieldLE h.entry 16 1 ≤ 13 ∧ s.chip.fw.tcOut = [] ∧ s.chip.on F.MBXM_CTRL_FULL 2 = false ∧ s.chip.on F.MBXM_CTRL_FULL 4 = false ∧ s.chip.switchState = 0 ∧ s.chip.calBusy = false) ∧
    (∃ (t q tag since : Nat) (h : HostCmd) (s : State), s.chip.fwRuns = true ∧ s.chip.hst.cmds = [h] ∧ h.sq = q ∧ s.chip.fw.forward = some (q, tag, since) ∧ since + ms 1000 ≤ max s.chip.now t) ∧
    (∃ (t : Nat) (s : State), s.chip.fw.forward = none) ∧
    (∃ (t q p tgt : Nat) (h : HostCmd) (s : State), s.chip.fwRuns = true ∧ s.chip.pwrState ≠ 1 ∧ s.chip.hst.cmds = [h] ∧ h.sq = q ∧ fieldLE h.entry 0 1 = 0x50 ∧ s.chip.fw.calCmd = none ∧ entryDlen h.entry = 0 ∧ p = fieldLE h.entry 16 1 ∧ tgt = fieldLE h.entry 17 1 ∧ tgt < calTargets p ∧ s.chip.calBusy = false ∧ s.chip.pwr.ready = [] ∧ s.chip.calFails p tgt = 0 ∧ (p = 3 ∨ p = 4)) ∧
    (∃ (t q : Nat) (h : HostCmd) (s : State), s.chip.fwRuns = true ∧ s.chip.pwrState ≠ 1 ∧ s.chip.hst.cmds = [h] ∧ h.sq = q ∧ fieldLE h.entry 0 1 = 0x50 ∧ s.chip.fw.calCmd = none ∧ entryDlen h.entry = 0 ∧ fieldLE h.entry 17 1 < calTargets (fieldLE h.entry 16 1) ∧ s.chip.calBusy = true) :=
  ⟨⟨5, 3, 0, 0x1000000000, (hc sub : HostCmd), (dsc : List Nat), hostm 0 dsc (cm sub adm), by decide +kernel⟩,
   ⟨5, 3, 0, (hc sub : HostCmd), (dsc : List Nat), (hostm 0 dsc (cm sub adm)).on (fun c => c.setFw { c.fw with jobs := [] }), by decide +kernel⟩,
   ⟨5, 3, 0, 0x34, (hc sub : HostCmd), (dsc : List Nat), (hostm 0 dsc (cm sub adm)).put F.CMP_LANE_GEO_WIDTH 0 3, by decide +kernel⟩,
   ⟨5, 0, 0x1000000000, 0x1001000000, (((inb dsc (fwS adm)).store.read 0x1001000000 4160).map BitVec.toNat : List Nat), (dsc : List Nat), inb dsc (fwS adm), ⟨by decide +kernel, by decide +kernel, by decide +kernel, by decide +kernel, by decide +kernel, by decide +kernel, by decide +kernel, by decide +kernel, rfl, by decide +kernel, by decide +kernel, by decide +kernel, by decide +kernel, by decide +kernel, by decide +kernel, by decide +kernel, by decide +kernel, by decide +kernel, by decide +kernel⟩⟩,
   ⟨5, 0, 0x1001000000, 0x34, ((((inb dsc (fwS adm)).put F.CMP_LANE_GEO_WIDTH 0 3).store.read 0x1001000000 4160).map BitVec.toNat : List Nat), (dsc : List Nat), (inb dsc (fwS adm)).put F.CMP_LANE_GEO_WIDTH 0 3, ⟨by decide +kernel, by decide +kernel, by decide +kernel, by decide +kernel, by decide +kernel, by decide +kernel, by decide +kernel, by decide +kernel, rfl, by decide +kernel, by decide +kernel, by decide +kernel, by decide +kernel, by decide +kernel, by decide +kernel, by decide +kernel⟩⟩,
   ⟨5, 0, ([] : List DdrError), base, by decide +kernel⟩,
   ⟨5, 3, 0x1000001000, (hostm 0 [1,2,3,4] (cm fs (dd.put F.FAB_TXQ_BASE_HI_ADDR 0x10))).chip.txSlotAddr 0, 0, (hc fs : HostCmd), ([1,2,3,4] : List Nat), hostm 0 [1,2,3,4] (cm fs (dd.put F.FAB_TXQ_BASE_HI_ADDR 0x10)), by decide +kernel⟩,
   ⟨5, 3, (hc (0x40 :: List.replicate 15 0 ++ [13, 9, 0, 0, 1, 2, 3, 4]) : HostCmd), cm (0x40 :: List.replicate 15 0 ++ [13, 9, 0, 0, 1, 2, 3, 4]) base, by decide +kernel⟩,
   ⟨ms 1000, 3, 9, 0, (hc [0x40] : HostCmd), (cm [0x40] base).on (fun c => c.setFw { c.fw with forward := some (3, 9, 0) }), by decide +kernel⟩,
   ⟨5, base, by decide +kernel⟩,
   ⟨5, 3, 3, 2, (hc (0x50 :: List.replicate 15 0 ++ [3, 2]) : HostCmd), firing (cm (0x50 :: List.replicate 15 0 ++ [3, 2]) base), by decide +kernel⟩,
   ⟨5, 3, (hc (0x50 :: List.replicate 15 0 ++ [4, 2]) : HostCmd), cm (0x50 :: List.replicate 15 0 ++ [4, 2]) (base.put F.CAL_STAT_BUSY 1), by decide +kernel⟩⟩

end FamS

namespace FamT

def tb : State := (base.put F.OTP_STAT_BUSY 0).on (fun c => (c.setPwr { c.pwr with booting := false }).setSys { c.sys with tcUp := true, fwUp := true })
def kn (s : State) : State := ((s.put F.MBX_MSG_DATA 1 0 0).put F.MBX_MSG_DATA 1 2 0).put F.MBX_MSG_DATA 1 4 0
def msg (m : Nat) (l : List Nat) (s : State) : State := (l.zipIdx).foldl (fun (s : State) (e : Nat × Nat) => s.put F.MBX_MSG_DATA e.1 m e.2) (s.put F.MBXM_CTRL_FULL 1 m)
def call (op tag m : Nat) (a : List Nat) (s : State) : State := msg m ((op + 256 * tag + 65536 * a.length) :: a) s
def dd : State := (tb.put F.DDR_STAT_READY 1).put F.DDR_STAT_SIZE 4
def bytesAt (a : Nat) (l : List Nat) (s : State) : State := { s with store := s.store.write a (l.map (BitVec.ofNat 8)) }
def keyed (k : Nat × Nat) (s : State) : State := s.on (fun c => { c with sec := { c.sec with keys := c.sec.keys.set 0 (some k) } })
def armed (s : State) : State := ((s.put F.STR_SLOT_BASE_HI_ADDR 0x10).put F.STR_SLOT_BASE_LO_ADDR 0x1000)
def i2 (s : State) : State := (s.put F.PWR_WAKE_EN_EN 0).on (fun c => c.setSys { c.sys with i2cAddr := 0x4C, i2cWindow := R.SYS_ID.addr })
def run2 (s : State) : State := s.put F.TRK_STAT_RUN 1
def pkg2 : List Nat := [76, 78, 70, 87, 2, 0, 0, 0, 128, 0, 0, 0, 1, 0, 0, 0, 0, 0, 0, 0, 0, 0, 0, 0, 0, 0, 0, 0, 0, 0, 0, 0, 0, 0, 0, 0, 0, 0, 0, 0, 0, 0, 0, 0, 0, 0, 0, 0, 0, 0, 0, 0, 0, 0, 0, 0, 0, 0, 0, 0, 15, 151, 234, 167, 231, 163, 233, 250, 14, 34, 162, 62, 52, 140, 139, 189, 119, 85, 31, 133, 1, 133, 79, 87, 191, 159, 145, 18, 139, 238, 117, 167, 151, 119, 240, 141, 231, 163, 233, 250, 14, 34, 162, 62, 52, 140, 139, 189, 119, 85, 31, 133, 1, 133, 79, 87, 191, 159, 145, 18, 139, 238, 117, 167, 151, 119, 240, 141]
def key2 : Nat × Nat := (33073616107243313597984079752042692022010751246741264709156344108413078645025, 63385602428539901471593671663577786737286550074920274319475833260001684623319)
def pkg1 : List Nat := [76, 78, 70, 87, 1, 0, 0, 0, 136, 0, 0, 0, 1, 0, 0, 0, 4, 0, 0, 0, 4, 0, 0, 0, 0, 0, 0, 0, 0, 0, 0, 0, 0, 0, 0, 0, 0, 0, 0, 0, 0, 0, 0, 0, 0, 0, 0, 0, 0, 0, 0, 0, 0, 0, 0, 0, 0, 0, 0, 0, 203, 237, 241, 1, 1, 2, 3, 4, 5, 6, 7, 8, 88, 131, 7, 4, 52, 190, 36, 75, 185, 16, 24, 214, 98, 128, 227, 186, 146, 19, 101, 155, 108, 0, 84, 234, 192, 86, 126, 232, 203, 2, 244, 162, 88, 131, 7, 4, 52, 190, 36, 75, 185, 16, 24, 214, 98, 128, 227, 186, 146, 19, 101, 155, 108, 0, 84, 234, 192, 86, 126, 232, 203, 2, 244, 162]
def key1 : Nat × Nat := (16578547879536453817475536760345302829318091097133787306548305822066298522407, 51721325079490878594108672911166021687473861326373511822644769975038987341446)

theorem witness_MailboxesHaveOneSender :
    (∃ (t : Nat) (i : Initiator) (m : Fin 8) (s : State), s.chip.mayWrite i (R.MBXM_CTRL.at m 0) ∧ i ∈ mailboxSenders.getD m.val [] ∧ s.chip.on F.MBXM_CTRL_FULL m = false ∧ m ≠ 5 ∧ s.chip.fw.tcOut = [] ∧ ((∀ k : Fin 3, 1 ≤ s.chip.get F.MBX_MSG_DATA (2 * k.val) 0 % 256 ∧ s.chip.get F.MBX_MSG_DATA (2 * k.val) 0 % 256 ≤ 13))) ∧
    (∃ (t : Nat) (s : State), s.chip.mayWrite .tc (R.MBXM_CTRL.at 5 0) ∧ s.chip.on F.MBXM_CTRL_FULL 5 = false ∧ s.chip.fw.tcOut = [] ∧ ((∀ k : Fin 3, 1 ≤ s.chip.get F.MBX_MSG_DATA (2 * k.val) 0 % 256 ∧ s.chip.get F.MBX_MSG_DATA (2 * k.val) 0 % 256 ≤ 13))) ∧
    (∃ (t : Nat) (i : Initiator) (m : Fin 8) (k : Fin 16) (w hi : Word) (s : State), s.chip.mayWrite i (R.MBX_MSG.at m k) ∧ i ∈ mailboxSenders.getD m.val [] ∧ s.chip.on F.MBXM_CTRL_FULL m = false) ∧
    (∃ (t : Nat) (i : Initiator) (m : Fin 8) (s : State), s.chip.mayWrite i (R.MBXM_CTRL.at m 0) ∧ i ∈ mailboxReceivers.getD m.val [] ∧ s.chip.fw.tcOut = [] ∧ ((∀ k : Fin 3, 1 ≤ s.chip.get F.MBX_MSG_DATA (2 * k.val) 0 % 256 ∧ s.chip.get F.MBX_MSG_DATA (2 * k.val) 0 % 256 ≤ 13))) ∧
    (∃ (t : Nat) (i : Initiator) (m : Fin 8) (s : State), s.chip.mayWrite i (R.MBXM_CTRL.at m 0) ∧ (i ∉ mailboxSenders.getD m.val [] ∨ s.chip.on F.MBXM_CTRL_FULL m = true) ∧ bitAt s.chip.fw.mbxRej m = true ∧ s.chip.fw.tcOut = [] ∧ ((∀ k : Fin 3, 1 ≤ s.chip.get F.MBX_MSG_DATA (2 * k.val) 0 % 256 ∧ s.chip.get F.MBX_MSG_DATA (2 * k.val) 0 % 256 ≤ 13))) ∧
    (∃ (t : Nat) (i : Initiator) (m : Fin 8) (s : State), s.chip.mayWrite i (R.MBXM_CTRL.at m 0) ∧ (i ∉ mailboxSenders.getD m.val [] ∨ s.chip.on F.MBXM_CTRL_FULL m = true) ∧ bitAt s.chip.fw.mbxRej m = false ∧ s.chip.fw.tcOut = [] ∧ ((∀ k : Fin 3, 1 ≤ s.chip.get F.MBX_MSG_DATA (2 * k.val) 0 % 256 ∧ s.chip.get F.MBX_MSG_DATA (2 * k.val) 0 % 256 ≤ 13))) ∧
    (∃ (t : Nat) (i : Initiator) (m : Fin 8) (s : State), s.chip.mayWrite i (R.MBXM_CTRL.at m 0) ∧ i ∉ mailboxReceivers.getD m.val [] ∧ bitAt s.chip.fw.mbxRej m = true ∧ s.chip.fw.tcOut = [] ∧ ((∀ k : Fin 3, 1 ≤ s.chip.get F.MBX_MSG_DATA (2 * k.val) 0 % 256 ∧ s.chip.get F.MBX_MSG_DATA (2 * k.val) 0 % 256 ≤ 13))) ∧
    (∃ (t : Nat) (i : Initiator) (m : Fin 8) (s : State), s.chip.mayWrite i (R.MBXM_CTRL.at m 0) ∧ i ∉ mailboxReceivers.getD m.val [] ∧ bitAt s.chip.fw.mbxRej m = false ∧ s.chip.fw.tcOut = [] ∧ ((∀ k : Fin 3, 1 ≤ s.chip.get F.MBX_MSG_DATA (2 * k.val) 0 % 256 ∧ s.chip.get F.MBX_MSG_DATA (2 * k.val) 0 % 256 ≤ 13))) ∧
    (∃ (t : Nat) (i : Initiator) (m : Fin 8) (k : Fin 16) (w hi : Word) (s : State), s.chip.mayWrite i (R.MBX_MSG.at m k) ∧ (i ∉ mailboxSenders.getD m.val [] ∨ s.chip.on F.MBXM_CTRL_FULL m = true) ∧ bitAt s.chip.fw.mbxRej m = true) ∧
    (∃ (t : Nat) (i : Initiator) (m : Fin 8) (k : Fin 16) (w hi : Word) (s : State), s.chip.mayWrite i (R.MBX_MSG.at m k) ∧ (i ∉ mailboxSenders.getD m.val [] ∨ s.chip.on F.MBXM_CTRL_FULL m = true) ∧ bitAt s.chip.fw.mbxRej m = false) :=
  ⟨⟨5, (.jc0 : Initiator), (0 : Fin 8), kn tb, by decide +kernel⟩,
   ⟨5, kn tb, by decide +kernel⟩,
   ⟨5, (.jc1 : Initiator), (6 : Fin 8), (15 : Fin 16), (0x12345678 : Word), (0 : Word), tb, by decide +kernel⟩,
   ⟨5, (.lc : Initiator), (6 : Fin 8), (kn tb).put F.MBXM_CTRL_FULL 1 6, by decide +kernel⟩,
   ⟨5, (.tc : Initiator), (0 : Fin 8), (kn tb).on (fun c => c.setFw { c.fw with mbxRej := 1 }), by decide +kernel⟩,
   ⟨5, (.jc0 : Initiator), (0 : Fin 8), (kn tb).put F.MBXM_CTRL_FULL 1 0, by decide +kernel⟩,
   ⟨5, (.host : Initiator), (0 : Fin 8), (kn tb).on (fun c => c.setFw { c.fw with mbxRej := 1 }), by decide +kernel⟩,
   ⟨5, (.tc : Initiator), (7 : Fin 8), kn tb, by decide +kernel⟩,
   ⟨5, (.tc : Initiator), (0 : Fin 8), (3 : Fin 16), (5 : Word), (0 : Word), tb.on (fun c => c.setFw { c.fw with mbxRej := 1 }), by decide +kernel⟩,
   ⟨5, (.jc0 : Initiator), (0 : Fin 8), (3 : Fin 16), (5 : Word), (0 : Word), tb.put F.MBXM_CTRL_FULL 1 0, by decide +kernel⟩⟩

theorem witness_TrustLoadsImages :
    (∃ (t m tag a0 a1 a2 src dst len : Nat) (s : State), s.chip.tcMessage m 1 = some (tag, [a0, a1, a2]) ∧ s.chip.tcDenies m 1 (a0 == 1) = false ∧ s.chip.on F.MBXM_CTRL_FULL (m + 1) = false ∧ s.chip.fw.forward = none ∧ s.chip.on F.STR_STAT_CHECKING = false ∧ s.chip.switchState = 0 ∧ src = fld F.STR_LOAD_HI_ADDR a1 * 2 ^ 32 + fld F.STR_LOAD_LO_ADDR a0 * 4 ∧ dst = s.chip.get F.STR_SLOT_BASE_HI_ADDR * 2 ^ 32 + s.chip.get F.STR_SLOT_BASE_LO_ADDR * 4096 + 262144 * (1 - s.chip.get F.STR_STAT_ACTIVE_SLOT) ∧ len = fld F.STR_LOAD_LEN_LEN a2 ∧ 192 ≤ len ∧ len ≤ 262144 ∧ len % 64 = 0 ∧ s.chip.calBusy = false ∧ s.chip.ddrReady = true ∧ (∀ w : Fin 8, s.chip.on F.DDR_WIN_PERM_EN w = false) ∧ s.chip.inDdr src len = true ∧ s.chip.inDdr dst len = true) ∧
    (∃ (t m tag a0 a1 a2 : Nat) (s : State), s.chip.tcMessage m 1 = some (tag, [a0, a1, a2]) ∧ s.chip.tcDenies m 1 (a0 == 1) = false ∧ s.chip.on F.MBXM_CTRL_FULL (m + 1) = false ∧ s.chip.fw.forward = none ∧ (s.chip.on F.STR_STAT_CHECKING = true ∨ s.chip.switchState ≠ 0)) ∧
    (∃ (t m tag a0 a1 : Nat) (s : State), s.chip.tcMessage m 2 = some (tag, [a0, a1]) ∧ s.chip.tcDenies m 2 (a0 == 1) = false ∧ s.chip.on F.MBXM_CTRL_FULL (m + 1) = false ∧ s.chip.fw.forward = none ∧ s.chip.calBusy = false ∧ s.chip.fw.calCmd = none ∧ s.chip.on F.STR_STAT_PEND_VALID = true ∧ s.chip.switchState = 0 ∧ s.chip.on F.TRK_STAT_RUN = false ∧ (∀ k : Fin 8, s.chip.portState k = 0) ∧ s.chip.on F.FLW_SHSTAT_PENDING = false) ∧
    (∃ (t m tag a0 a1 r : Nat) (s : State), s.chip.tcMessage m 2 = some (tag, [a0, a1]) ∧ s.chip.tcDenies m 2 (a0 == 1) = false ∧ s.chip.on F.MBXM_CTRL_FULL (m + 1) = false ∧ s.chip.fw.forward = none ∧ s.chip.calBusy = false ∧ s.chip.fw.calCmd = none ∧ (r = 0x40 ∧ s.chip.on F.STR_STAT_PEND_VALID = false ∨ r = 0x41 ∧ s.chip.on F.STR_STAT_PEND_VALID = true ∧ s.chip.switchState ≠ 0)) ∧
    (∃ (t m tag : Nat) (s : State), s.chip.tcMessage m 3 = some (tag, []) ∧ s.chip.tcDenies m 3 (false) = false ∧ s.chip.on F.MBXM_CTRL_FULL (m + 1) = false ∧ s.chip.fw.forward = none ∧ s.chip.calBusy = false ∧ s.chip.switchState = 1 ∧ (∀ k : Fin 8, (s.chip.port k).coldHold = false)) ∧
    (∃ (t m tag : Nat) (s : State), s.chip.tcMessage m 3 = some (tag, []) ∧ s.chip.tcDenies m 3 (false) = false ∧ s.chip.on F.MBXM_CTRL_FULL (m + 1) = false ∧ s.chip.fw.forward = none ∧ s.chip.calBusy = false ∧ s.chip.switchState ≠ 1) ∧
    (∃ (t m tag a1 a2 a3 : Nat) (b : List Byte) (s : State), s.chip.tcMessage m 4 = some (tag, [0, a1, a2, a3]) ∧ s.chip.tcDenies m 4 (false) = false ∧ s.chip.on F.MBXM_CTRL_FULL (m + 1) = false ∧ s.chip.fw.forward = none ∧ b = s.store.read (a2 % 256 * 2 ^ 32 + a1) a3 ∧ 64 ≤ a3 ∧ s.chip.get F.SEC_PHASE_PHASE ≠ 3 ∧ inScratch (a2 % 256 * 2 ^ 32 + a1) = true ∧ a2 % 256 * 2 ^ 32 + a1 + a3 ≤ 0x100000 ∧ a3 ≤ packageSize 2 ∧ ((s.chip.at t).readFuses s.store).packageReason s.store 2 true (b.map BitVec.toNat) = 0) ∧
    (∃ (t m tag a1 a2 a3 : Nat) (b : List Byte) (s : State), s.chip.tcMessage m 4 = some (tag, [1, a1, a2, a3]) ∧ s.chip.tcDenies m 4 (true) = false ∧ s.chip.on F.MBXM_CTRL_FULL (m + 1) = false ∧ s.chip.fw.forward = none ∧ b = s.store.read (a2 % 256 * 2 ^ 32 + a1) a3 ∧ 64 ≤ a3 ∧ s.chip.get F.SEC_PHASE_PHASE ≠ 3 ∧ inScratch (a2 % 256 * 2 ^ 32 + a1) = true ∧ a2 % 256 * 2 ^ 32 + a1 + a3 ≤ 0x100000 ∧ a3 ≤ packageSize 1 ∧ ((s.chip.at t).readFuses s.store).packageReason s.store 1 true (b.map BitVec.toNat) = 0) ∧
    (∃ (t m tag a0 a1 a2 a3 r : Nat) (b : List Byte) (s : State), s.chip.tcMessage m 4 = some (tag, [a0, a1, a2, a3]) ∧ s.chip.tcDenies m 4 (a0 == 1) = false ∧ s.chip.on F.MBXM_CTRL_FULL (m + 1) = false ∧ s.chip.fw.forward = none ∧ b = s.store.read (a2 % 256 * 2 ^ 32 + a1) a3 ∧ 64 ≤ a3 ∧ s.chip.get F.SEC_PHASE_PHASE ≠ 3 ∧ inScratch (a2 % 256 * 2 ^ 32 + a1) = true ∧ a2 % 256 * 2 ^ 32 + a1 + a3 ≤ 0x100000 ∧ a0 ≤ 1 ∧ a3 ≤ packageSize (2 - a0) ∧ r = ((s.chip.at t).readFuses s.store).packageReason s.store (2 - a0) true (b.map BitVec.toNat) ∧ r ≠ 0) ∧
    (∃ (t m tag : Nat) (s : State), s.chip.tcMessage m 5 = some (tag, [0]) ∧ s.chip.tcDenies m 5 (false) = false ∧ s.chip.on F.MBXM_CTRL_FULL (m + 1) = false ∧ s.chip.fw.forward = none ∧ s.chip.sys.fwCopy = true ∧ s.chip.on F.TRK_STAT_RUN = false) ∧
    (∃ (t m tag : Nat) (s : State), s.chip.tcMessage m 5 = some (tag, [0]) ∧ s.chip.tcDenies m 5 (false) = false ∧ s.chip.on F.MBXM_CTRL_FULL (m + 1) = false ∧ s.chip.fw.forward = none ∧ s.chip.sys.fwCopy = false) ∧
    (∃ (t m tag : Nat) (s : State), s.chip.tcMessage m 5 = some (tag, [0]) ∧ s.chip.tcDenies m 5 (false) = false ∧ s.chip.on F.MBXM_CTRL_FULL (m + 1) = false ∧ s.chip.fw.forward = none ∧ s.chip.sys.fwCopy = true ∧ s.chip.restartWaits = true) :=
  ⟨⟨5, 4, 7, 0x40, 0x10, 256, 0x1000000040, 0x1001040000, 256, call 1 7 4 [0x40, 0x10, 256] (bytesAt 0x1000000040 [1,2,3] (armed dd)), by decide +kernel⟩,
   ⟨5, 4, 7, 0, 0, 64, call 1 7 4 [0, 0, 64] (tb.put F.STR_STAT_CHECKING 1), by decide +kernel⟩,
   ⟨5, 4, 7, 9, 0, call 2 7 4 [9, 0] (tb.put F.STR_STAT_PEND_VALID 1), by decide +kernel⟩,
   ⟨5, 4, 7, 9, 0, 0x40, call 2 7 4 [9, 0] tb, by decide +kernel⟩,
   ⟨5, 4, 7, call 3 7 4 [] (tb.put F.STR_STAT_SW_STATE 1), by decide +kernel⟩,
   ⟨5, 2, 7, call 3 7 2 [] tb, by decide +kernel⟩,
   ⟨5, 4, 7, 0x1000, 0, 128, (pkg2.map (BitVec.ofNat 8) : List Byte), call 4 7 4 [0, 0x1000, 0, 128] (keyed key2 (bytesAt 0x1000 pkg2 tb)), by decide +kernel⟩,
   ⟨5, 4, 7, 0x1000, 0, 136, (pkg1.map (BitVec.ofNat 8) : List Byte), call 4 7 4 [1, 0x1000, 0, 136] (keyed key1 (bytesAt 0x1000 pkg1 tb)), by decide +kernel⟩,
   ⟨5, 4, 7, 0, 0x1000, 0, 128, 3, (pkg2.map (BitVec.ofNat 8) : List Byte), call 4 7 4 [0, 0x1000, 0, 128] (bytesAt 0x1000 pkg2 tb), by decide +kernel⟩,
   ⟨5, 4, 7, (call 5 7 4 [0] tb).on (fun c => c.setSys { c.sys with fwCopy := true }), by decide +kernel⟩,
   ⟨5, 4, 7, call 5 7 4 [0] tb, by decide +kernel⟩,
   ⟨5, 4, 7, (call 5 7 4 [0] (run2 tb)).on (fun c => { c.setSys { c.sys with fwCopy := true } with cmp := { c.cmp with items := [{ slot := 0, id := 5, lane := 3, anchor := 0, startField := 0, lines := 10 }] }, trk := { c.trk with v := 1000000 } }), by decide +kernel⟩⟩

theorem witness_TrustCommands :
    (∃ (t m tag v : Nat) (s : State), s.chip.tcMessage m 6 = some (tag, [v]) ∧ s.chip.tcDenies m 6 (v == 1) = false ∧ s.chip.on F.MBXM_CTRL_FULL (m + 1) = false ∧ s.chip.fw.forward = none ∧ v ≤ 3 ∧ v ≠ 0 ∧ ((v = 1 → s.chip.pwrState ≤ 1)) ∧ v ≠ s.chip.pwrState ∧ s.chip.pwrPhase = 0 ∧ s.chip.pwr.wake = none ∧ s.chip.up 0 = true ∧ aonCycle s.chip.pwr.latchAt ≠ aonCycle (max s.chip.now t)) ∧
    (∃ (t m tag v : Nat) (s : State), s.chip.tcMessage m 6 = some (tag, [v]) ∧ s.chip.tcDenies m 6 (v == 1) = false ∧ s.chip.on F.MBXM_CTRL_FULL (m + 1) = false ∧ s.chip.fw.forward = none ∧ v ≤ 3 ∧ s.chip.pwrPhase ≠ 0) ∧
    (∃ (t m tag v : Nat) (s : State), s.chip.tcMessage m 6 = some (tag, [v]) ∧ s.chip.tcDenies m 6 (v == 1) = false ∧ s.chip.on F.MBXM_CTRL_FULL (m + 1) = false ∧ s.chip.fw.forward = none ∧ 3 < v) ∧
    (∃ (t m tag row w : Nat) (s : State), s.chip.tcMessage m 7 = some (tag, [row, w]) ∧ s.chip.tcDenies m 7 (row == 1) = false ∧ s.chip.on F.MBXM_CTRL_FULL (m + 1) = false ∧ s.chip.fw.forward = none ∧ row ≤ 511 ∧ w < 2 ^ 32 ∧ s.chip.on F.OTP_STAT_BUSY = false) ∧
    (∃ (t m tag row w : Nat) (s : State), s.chip.tcMessage m 7 = some (tag, [row, w]) ∧ s.chip.tcDenies m 7 (row == 1) = false ∧ s.chip.on F.MBXM_CTRL_FULL (m + 1) = false ∧ s.chip.fw.forward = none ∧ row ≤ 511 ∧ s.chip.on F.OTP_STAT_BUSY = true) ∧
    (∃ (t m tag r d0 d1 d2 d3 d4 d5 d6 d7 : Nat) (s : State), s.chip.tcMessage m 8 = some (tag, [r, d0, d1, d2, d3, d4, d5, d6, d7]) ∧ s.chip.tcDenies m 8 (r == 1) = false ∧ s.chip.on F.MBXM_CTRL_FULL (m + 1) = false ∧ s.chip.fw.forward = none ∧ r ≤ 10 ∧ (∀ x ∈ [d0, d1, d2, d3, d4, d5, d6, d7], x < 2 ^ 32) ∧ s.chip.on F.OTP_STAT_BUSY = false) ∧
    (∃ (t m tag v : Nat) (s : State), s.chip.tcMessage m 9 = some (tag, [v]) ∧ s.chip.tcDenies m 9 (v == 1) = false ∧ s.chip.on F.MBXM_CTRL_FULL (m + 1) = false ∧ s.chip.fw.forward = none ∧ v ≤ 4 ∧ s.chip.on F.OTP_STAT_BUSY = false) ∧
    (∃ (t m tag a0 a1 a2 : Nat) (s : State), s.chip.tcMessage m 10 = some (tag, [a0, a1, a2]) ∧ s.chip.tcDenies m 10 (a0 == 1) = false ∧ s.chip.on F.MBXM_CTRL_FULL (m + 1) = false ∧ s.chip.fw.forward = none ∧ s.chip.switchState = 0 ∧ s.chip.calBusy = false ∧ s.chip.up 3 = true ∧ a0 / 2 % 2 = 0 ∧ a0 % 2 = s.chip.get F.TKO_CTRL_EN ∧ 100 ≤ fld F.TKO_LEAD_RET_LEAD a1 ∧ fld F.TKO_LEAD_RET_LEAD a1 ≤ 1000 ∧ 50 ≤ fld F.TKO_LEAD_REFILL a1 ∧ fld F.TKO_LEAD_REFILL a1 ≤ 1000 ∧ 100 ≤ fld F.TKO_STBY_STBY_LEAD a2 ∧ fld F.TKO_STBY_STBY_LEAD a2 ≤ 1000) ∧
    (∃ (t m tag a0 a1 a2 : Nat) (s : State), s.chip.tcMessage m 10 = some (tag, [a0, a1, a2]) ∧ s.chip.tcDenies m 10 (a0 == 1) = false ∧ s.chip.on F.MBXM_CTRL_FULL (m + 1) = false ∧ s.chip.fw.forward = none ∧ s.chip.switchState = 0 ∧ s.chip.calBusy = false ∧ s.chip.up 3 = true ∧ a0 / 2 % 2 = 0 ∧ a0 % 2 = 0 ∧ s.chip.on F.TKO_CTRL_EN = true) ∧
    (∃ (t m tag w isl : Nat) (s : State), s.chip.tcMessage m 11 = some (tag, [w]) ∧ s.chip.tcDenies m 11 (w == 1) = false ∧ s.chip.on F.MBXM_CTRL_FULL (m + 1) = false ∧ s.chip.fw.forward = none ∧ isl < 16 ∧ 3 ≤ isl ∧ w % 65536 = 2 ^ isl ∧ s.chip.up 0 = true ∧ s.chip.up isl = true) ∧
    (∃ (t m tag w : Nat) (s : State), s.chip.tcMessage m 11 = some (tag, [w]) ∧ s.chip.tcDenies m 11 (w == 1) = false ∧ s.chip.on F.MBXM_CTRL_FULL (m + 1) = false ∧ s.chip.fw.forward = none ∧ w % 65536 = 4 ∧ s.chip.up 0 = true) ∧
    (∃ (t m tag : Nat) (s : State), s.chip.tcMessage m 12 = some (tag, [0x5A3C]) ∧ s.chip.tcDenies m 12 (false) = false ∧ s.chip.on F.MBXM_CTRL_FULL (m + 1) = false ∧ s.chip.fw.forward = none) ∧
    (∃ (t m tag v : Nat) (s : State), s.chip.tcMessage m 12 = some (tag, [v]) ∧ s.chip.tcDenies m 12 (v == 1) = false ∧ s.chip.on F.MBXM_CTRL_FULL (m + 1) = false ∧ s.chip.fw.forward = none ∧ v ≠ 0x5A3C) ∧
    (∃ (t m tag : Nat) (s : State), s.chip.tcMessage m 13 = some (tag, []) ∧ s.chip.tcDenies m 13 (false) = false ∧ s.chip.on F.MBXM_CTRL_FULL (m + 1) = false ∧ s.chip.fw.forward = none) ∧
    (∃ (t tag q since : Nat) (h : HostCmd) (s : State), s.chip.tcMessage 0 13 = some (tag, []) ∧ s.chip.tcDenies 0 13 false = false ∧ s.chip.on F.MBXM_CTRL_FULL 1 = false ∧ s.chip.fw.forward = some (q, tag, since) ∧ s.chip.sys.fwUp = true ∧ s.chip.hst.cmds = [h] ∧ h.sq = q) ∧
    (∃ (t m tag : Nat) (a : List Nat) (s : State), s.chip.tcMessage m 7 = some (tag, a) ∧ s.chip.on F.MBXM_CTRL_FULL (m + 1) = false ∧ s.chip.fw.forward = none ∧ s.chip.get F.SEC_PHASE_PHASE ≠ 3 ∧ m ≠ 4) ∧
    (∃ (t m tag : Nat) (a : List Nat) (s : State), s.chip.tcMessage m 3 = some (tag, a) ∧ s.chip.tcDenies m 3 (a.getD 0 0 == 1) = false ∧ s.chip.on F.MBXM_CTRL_FULL (m + 1) = false ∧ s.chip.fw.forward = none ∧ a.length ≠ 0) :=
  ⟨⟨us 5, 4, 7, 2, call 6 7 4 [2] tb, by decide +kernel⟩,
   ⟨5, 4, 7, 2, call 6 7 4 [2] (tb.put F.PWR_STAT_PHASE 1), by decide +kernel⟩,
   ⟨5, 4, 7, 4, call 6 7 4 [4] tb, by decide +kernel⟩,
   ⟨5, 4, 7, 100, 0xABCD, call 7 7 4 [100, 0xABCD] tb, by decide +kernel⟩,
   ⟨5, 4, 7, 100, 0xABCD, call 7 7 4 [100, 0xABCD] (tb.put F.OTP_STAT_BUSY 1), by decide +kernel⟩,
   ⟨5, 4, 7, 10, 1, 2, 3, 4, 5, 6, 7, 8, call 8 7 4 [10, 1, 2, 3, 4, 5, 6, 7, 8] tb, by decide +kernel⟩,
   ⟨5, 4, 7, 4, call 9 7 4 [4] tb, by decide +kernel⟩,
   ⟨5, 2, 7, 4, 100 * 65536 + 1000, 1000 * 65536 + 2, call 10 7 2 [4, 100 * 65536 + 1000, 1000 * 65536 + 2] tb, by decide +kernel⟩,
   ⟨5, 2, 7, 4, 100 * 65536 + 1000, 1000 * 65536 + 2, call 10 7 2 [4, 100 * 65536 + 1000, 1000 * 65536 + 2] (tb.put F.TKO_CTRL_EN 1), by decide +kernel⟩,
   ⟨5, 2, 7, 32, 5, call 11 7 2 [32] (tb.put F.CMP_WARN_WARN 3), by decide +kernel⟩,
   ⟨5, 2, 7, 4, call 11 7 2 [4] tb, by decide +kernel⟩,
   ⟨5, 2, 7, call 12 7 2 [0x5A3C] (tb.put F.CMP_WARN_WARN 3), by decide +kernel⟩,
   ⟨5, 2, 7, 1, call 12 7 2 [1] tb, by decide +kernel⟩,
   ⟨5, 2, 7, (call 13 7 2 [] tb).on (fun c => c.setSys { c.sys with holdAdmit := true }), by decide +kernel⟩,
   ⟨5, 7, 3, 0, ({ sq := 3, entry := [0x40], head := 5 } : HostCmd), (call 13 7 0 [] tb).on (fun c => (c.setFw { c.fw with forward := some (3, 7, 0) }).setHst { c.hst with cmds := [{ sq := 3, entry := [0x40], head := 5 }] }), by decide +kernel⟩,
   ⟨5, 2, 7, ([100, 1] : List Nat), call 7 7 2 [100, 1] tb, by decide +kernel⟩,
   ⟨5, 2, 7, ([1] : List Nat), call 3 7 2 [1] tb, by decide +kernel⟩⟩

theorem witness_I2cTarget :
    (∃ (t addr : Nat) (s : State), s.chip.i2cSees addr = true ∧ s.chip.thm.tripped = false ∧ bitAt (s.chip.get F.PWR_WAKE_EN_EN) 3 = false) ∧
    (∃ (t addr : Nat) (s : State), s.chip.i2cSees addr = true ∧ s.chip.thm.tripped = false ∧ bitAt (s.chip.get F.PWR_WAKE_EN_EN) 3 = false) ∧
    (∃ (t addr : Nat) (s : State), s.chip.i2cSees addr = true ∧ s.chip.thm.tripped = false ∧ bitAt (s.chip.get F.PWR_WAKE_EN_EN) 3 = false) ∧
    (∃ (t addr w : Nat) (s : State), s.chip.i2cSees addr = true ∧ s.chip.thm.tripped = false ∧ bitAt (s.chip.get F.PWR_WAKE_EN_EN) 3 = false) ∧
    (∃ (t addr a : Nat) (w : Word) (c : Chip) (s : State), s.chip.i2cSees addr = true ∧ s.chip.thm.tripped = false ∧ bitAt (s.chip.get F.PWR_WAKE_EN_EN) 3 = false ∧ a = s.chip.sys.i2cWindow ∧ c = (s.chip.at t).latchWake 3 ∧ (c.busRead .host a 4).answer = .data w) ∧
    (∃ (t addr a : Nat) (c : Chip) (s : State), s.chip.i2cSees addr = true ∧ s.chip.thm.tripped = false ∧ bitAt (s.chip.get F.PWR_WAKE_EN_EN) 3 = false ∧ a = s.chip.sys.i2cWindow ∧ c = (s.chip.at t).latchWake 3 ∧ (c.busRead .host a 4).answer.isData = false) ∧
    (∃ (t addr : Nat) (s : State), (s.chip.pwr.off = true ∨ addr ≠ s.chip.sys.i2cAddr)) ∧
    (∃ (t addr : Nat) (s : State), (s.chip.pwr.off = true ∨ addr ≠ s.chip.sys.i2cAddr)) ∧
    (∃ (t addr : Nat) (s : State), (s.chip.pwr.off = true ∨ addr ≠ s.chip.sys.i2cAddr)) ∧
    (∃ (t addr : Nat) (s : State), (s.chip.pwr.off = true ∨ addr ≠ s.chip.sys.i2cAddr)) ∧
    (∃ (t addr w : Nat) (s : State), (s.chip.pwr.off = true ∨ addr ≠ s.chip.sys.i2cAddr)) :=
  ⟨⟨5, 0x4C, i2 tb, by decide +kernel⟩,
   ⟨5, 0x4C, (i2 tb).put F.PWR_STAT_STATE 3, by decide +kernel⟩,
   ⟨5, 0x4C, (i2 tb).on (fun c => c.setSys { c.sys with winErr := true }), by decide +kernel⟩,
   ⟨5, 0x4C, 0x10000000, i2 tb, by decide +kernel⟩,
   ⟨5, 0x4C, R.SYS_ID.addr, ((i2 tb).chip.word R.SYS_ID.addr : Word), (((i2 tb).chip.at 5).latchWake 3 : Chip), i2 tb, by decide +kernel⟩,
   ⟨5, 0x4C, R.CMP_CTRL.addr, (((((i2 tb).on (fun c => (c.setUp 5 false).setSys { c.sys with i2cWindow := R.CMP_CTRL.addr }))).chip.at 5).latchWake 3 : Chip), ((i2 tb).on (fun c => (c.setUp 5 false).setSys { c.sys with i2cWindow := R.CMP_CTRL.addr })), by decide +kernel⟩,
   ⟨5, 0x4D, i2 tb, by decide +kernel⟩,
   ⟨5, 0x4D, i2 tb, by decide +kernel⟩,
   ⟨5, 0x4D, i2 tb, by decide +kernel⟩,
   ⟨5, 0x4D, i2 tb, by decide +kernel⟩,
   ⟨5, 0x4D, 3, i2 tb, by decide +kernel⟩⟩

end FamT

namespace FamU

def fb (f : FabSt → FabSt) (s : State) : State := s.on (fun c => { c with fab := f c.fab })
def ports : State := (((base.put F.FAB_CTRL_EN 1).put F.FAB_NODE_PORT_EN 7).put F.STR_STAT_ACTIVE_VALID 1).put F.FAB_NODE_NODE_ID 3
def upF : State := (ports.put F.FAB_P_STAT_STATE 3 0).put F.FAB_P_STAT_LANES 3 0
def nd (n pr : Nat) (st : List Nat) : Topo := { node := n, pstate := 0, tseq := 1, states := st, peers := [3, 3, 0], prio := pr, estab := false, locked := false, master := false, hops := 0, masterId := 0 }
def mp (l : List MapNode) (s : State) : State := fb (fun z => { z with map := l }) s
def srcF : State := ((ports.put F.TRK_SRC_PRI 2).put F.TRK_FAB_NODE_PRI_NODE 7).put F.TRK_FAB_TIME_AGE 100 |>.put F.TRK_CTRL_EN 1
def tm (t1 : Nat) (s : State) : State := fb (fun z => { z with t1 := some t1, tseq := 9 }) ((s.put F.FAB_TSYNC_STAT_UP_PORT 1).put F.FAB_ASYM_ASYM 4 0)
def steerS : State := fb (fun z => { z with mapChanged := true, map := [⟨nd 0 1 [3, 3, 0], 0⟩, ⟨nd 1 1 [3, 3, 0], 0⟩, ⟨nd 2 1 [3, 3, 0], 0⟩] }) ((upF.put F.FAB_RING_SIZE 4).on (fun c => c.setSys { c.sys with lcUp := true }))

theorem witness_FabricMapAndTime :
    (∃ (t : Nat) (s : State), s.chip.up 3 = true ∧ s.chip.on F.FAB_CTRL_EN = true ∧ (s.chip.fab.topoDue = true ∨ s.chip.fab.topoAt + ms 1 ≤ max s.chip.now t)) ∧
    (∃ (t : Nat) (s : State), (s.chip.on F.FAB_CTRL_EN = false ∨ s.chip.fab.topoDue = false ∧ max s.chip.now t < s.chip.fab.topoAt + ms 1)) ∧
    (∃ (t : Nat) (v : Topo) (s : State), s.chip.up 3 = true ∧ v.node = s.chip.nodeId ∧ v.tseq ∉ s.chip.fab.topoSent) ∧
    (∃ (t : Nat) (v : Topo) (s : State), v.node = s.chip.nodeId ∧ v.tseq ∈ s.chip.fab.topoSent) ∧
    (∃ (t : Nat) (v : Topo) (s : State), s.chip.up 3 = true ∧ v.node ≠ s.chip.nodeId) ∧
    (∃ (t : Nat) (v : Topo) (s : State), s.chip.up 3 = true ∧ v.node < 65536 ∧ v.node ≠ s.chip.nodeId ∧ (∀ m ∈ s.chip.fab.map, m.topo.node = v.node) ∧ better v s.chip.ownTopo = true) ∧
    (∃ (t : Nat) (v : Topo) (s : State), s.chip.up 3 = true ∧ v.node ≠ s.chip.nodeId ∧ (∀ m ∈ s.chip.fab.map, m.topo.node = v.node) ∧ better v s.chip.ownTopo = false) ∧
    (∃ (t n : Nat) (s : State), s.chip.up 3 = true ∧ (∃ m ∈ s.chip.fab.map, m.topo.node = n) ∧ ((∀ m ∈ s.chip.fab.map, m.topo.node = n → m.at' + ms 3 ≤ max s.chip.now t)) ∧ s.chip.get F.TRK_SRC_PRI ≠ 2 ∧ s.chip.get F.TRK_SRC_FB ≠ 2) ∧
    (∃ (t n : Nat) (s : State), (∀ m ∈ s.chip.fab.map, m.topo.node ≠ n)) ∧
    (∃ (t : Nat) (s : State), s.chip.up 3 = true ∧ s.chip.fab.mapChanged = true ∧ s.chip.sys.lcUp = true) ∧
    (∃ (t : Nat) (s : State), (s.chip.fab.mapChanged = false ∨ s.chip.sys.lcUp = false)) ∧
    (∃ (t node seq ts : Nat) (p : Int) (valid : Bool) (s : State), (s.chip.on F.POS_ENCO_CFG_EN = false ∨ s.chip.get F.POS_ENCO_CFG_SRC ≠ 2) ∧ (¬ (s.chip.get F.TRK_SRC_PRI = 2 ∧ node = s.chip.get F.TRK_FAB_NODE_PRI_NODE ∨ s.chip.get F.TRK_SRC_FB = 2 ∧ node = s.chip.get F.TRK_FAB_NODE_FB_NODE))) ∧
    (∃ (t node seq ts s0 t0 : Nat) (p : Int) (s : State), s.chip.up 6 = true ∧ s.chip.trkOn = true ∧ (s.chip.on F.POS_ENCO_CFG_EN = false ∨ s.chip.get F.POS_ENCO_CFG_SRC ≠ 2) ∧ (s.chip.get F.TRK_SRC_PRI = 2 ∧ node = s.chip.get F.TRK_FAB_NODE_PRI_NODE ∨ s.chip.get F.TRK_SRC_FB = 2 ∧ node = s.chip.get F.TRK_FAB_NODE_FB_NODE) ∧ s.chip.trk.fabSeen = [(node, s0, t0)] ∧ ((seq + 256 - s0 % 256) % 256 = 0 ∨ 127 < (seq + 256 - s0 % 256) % 256 ∨ ts ≤ t0 ∨ ts * 2 ^ 31 + us (s.chip.get F.TRK_FAB_TIME_AGE) < max s.chip.now t)) ∧
    (∃ (t node seq ts : Nat) (p : Int) (s : State), s.chip.up 6 = true ∧ s.chip.trkOn = true ∧ (s.chip.on F.POS_ENCO_CFG_EN = false ∨ s.chip.get F.POS_ENCO_CFG_SRC ≠ 2) ∧ (s.chip.get F.TRK_SRC_PRI = 2 ∧ node = s.chip.get F.TRK_FAB_NODE_PRI_NODE ∨ s.chip.get F.TRK_SRC_FB = 2 ∧ node = s.chip.get F.TRK_FAB_NODE_FB_NODE) ∧ s.chip.trk.fabSeen = [] ∧ max s.chip.now t ≤ ts * 2 ^ 31 + us (s.chip.get F.TRK_FAB_TIME_AGE)) ∧
    (∃ (t : Nat) (s : State), s.chip.up 3 = true ∧ s.chip.on F.FAB_TSYNC_EN = true ∧ s.chip.get F.FAB_TSYNC_STAT_UP_PORT ≠ 0 ∧ s.chip.fab.exchangedAt + us (s.chip.get F.FAB_TSYNC_PER) ≤ max s.chip.now t) ∧
    (∃ (t : Nat) (s : State), (s.chip.on F.FAB_TSYNC_EN = false ∨ s.chip.get F.FAB_TSYNC_STAT_UP_PORT = 0 ∨ max s.chip.now t < s.chip.fab.exchangedAt + us (s.chip.get F.FAB_TSYNC_PER))) ∧
    (∃ (t tseq : Nat) (p : Fin 3) (s : State), s.chip.up 3 = true ∧ s.chip.carriesFrames p = true) ∧
    (∃ (t tseq : Nat) (p : Fin 3) (s : State), s.chip.carriesFrames p = false) ∧
    (∃ (t tseq t1 t2 t3 t4 : Nat) (p : Fin 3) (theta : Int) (s : State), s.chip.up 3 = true ∧ s.chip.fab.t1 = some t1 ∧ s.chip.fab.tseq = tseq ∧ s.chip.get F.FAB_TSYNC_STAT_UP_PORT = p.val + 1 ∧ theta = (((t2 : Int) - t1) + ((t3 : Int) - t4) - signed 16 (s.chip.get F.FAB_ASYM_ASYM p)) / 2 ∧ s.chip.on F.FAB_TSYNC_STAT_LOCKED = true ∧ theta.natAbs ≤ 64 * s.chip.get F.FAB_XTSYNC_STEP_THR) ∧
    (∃ (t tseq t1 t2 t3 t4 : Nat) (p : Fin 3) (theta : Int) (s : State), s.chip.up 3 = true ∧ s.chip.fab.t1 = some t1 ∧ s.chip.fab.tseq = tseq ∧ s.chip.get F.FAB_TSYNC_STAT_UP_PORT = p.val + 1 ∧ theta = (((t2 : Int) - t1) + ((t3 : Int) - t4) - signed 16 (s.chip.get F.FAB_ASYM_ASYM p)) / 2 ∧ s.chip.on F.FAB_TSYNC_STAT_LOCKED = true ∧ 64 * s.chip.get F.FAB_XTSYNC_STEP_THR < theta.natAbs) ∧
    (∃ (t tseq t1 t2 t3 t4 : Nat) (p : Fin 3) (theta : Int) (s : State), s.chip.up 3 = true ∧ s.chip.fab.t1 = some t1 ∧ s.chip.fab.tseq = tseq ∧ s.chip.get F.FAB_TSYNC_STAT_UP_PORT = p.val + 1 ∧ theta = (((t2 : Int) - t1) + ((t3 : Int) - t4) - signed 16 (s.chip.get F.FAB_ASYM_ASYM p)) / 2 ∧ s.chip.on F.FAB_TSYNC_STAT_LOCKED = false ∧ s.chip.fab.everLocked = false ∧ 64 * s.chip.get F.FAB_XTSYNC_STEP_THR < theta.natAbs ∧ 16 * s.chip.get F.FAB_XTSYNC_LOCK_THR < theta.natAbs ∧ s.chip.get F.FAB_XTSYNC_LOCK_N ≠ 0) ∧
    (∃ (t tseq t1 t2 t3 t4 : Nat) (p : Fin 3) (theta : Int) (s : State), s.chip.up 3 = true ∧ s.chip.fab.t1 = some t1 ∧ s.chip.fab.tseq = tseq ∧ s.chip.get F.FAB_TSYNC_STAT_UP_PORT = p.val + 1 ∧ theta = (((t2 : Int) - t1) + ((t3 : Int) - t4) - signed 16 (s.chip.get F.FAB_ASYM_ASYM p)) / 2 ∧ s.chip.on F.FAB_TSYNC_STAT_LOCKED = false ∧ theta.natAbs ≤ 16 * s.chip.get F.FAB_XTSYNC_LOCK_THR ∧ theta.natAbs ≤ 64 * s.chip.get F.FAB_XTSYNC_STEP_THR ∧ s.chip.get F.FAB_XTSYNC_LOCK_N ≤ s.chip.fab.good + 1) ∧
    (∃ (t tseq t2 t3 t4 : Nat) (s : State), (s.chip.fab.t1 = none ∨ s.chip.fab.tseq ≠ tseq)) ∧
    (∃ (t : Nat) (s : State), s.chip.up 3 = true) :=
  ⟨⟨ms 2, ports, by decide +kernel⟩,
   ⟨5, ports, by decide +kernel⟩,
   ⟨5, (nd 3 1 [] : Topo), ports, by decide +kernel⟩,
   ⟨5, (nd 3 1 [] : Topo), fb (fun z => { z with topoSent := [1] }) ports, by decide +kernel⟩,
   ⟨5, (nd 70 1 [3, 3, 0] : Topo), mp [⟨nd 4 1 [3, 3, 0], 0⟩] ports, by decide +kernel⟩,
   ⟨5, (nd 70 0 [3, 3, 0] : Topo), ports.put F.FAB_TSYNC_PRIO 5, by decide +kernel⟩,
   ⟨5, (nd 70 9 [3, 3, 0] : Topo), ports.put F.FAB_TSYNC_PRIO 5, by decide +kernel⟩,
   ⟨ms 4, 4, mp [⟨nd 4 1 [3, 3, 0], 0⟩] ports, by decide +kernel⟩,
   ⟨5, 4, ports, by decide +kernel⟩,
   ⟨5, steerS, by decide +kernel⟩,
   ⟨5, ports, by decide +kernel⟩,
   ⟨5, 8, 1, 0, (0 : Int), (true : Bool), srcF, by decide +kernel⟩,
   ⟨5, 7, 1, 4, 1, 2, (0 : Int), srcF.on (fun c => { c with trk := { c.trk with fabSeen := [(7, 1, 2)] } }), by decide +kernel⟩,
   ⟨5, 7, 1, 4, (65536 : Int), srcF, by decide +kernel⟩,
   ⟨ms 50, (ports.put F.FAB_TSYNC_EN 1).put F.FAB_TSYNC_STAT_UP_PORT 2, by decide +kernel⟩,
   ⟨5, ports, by decide +kernel⟩,
   ⟨2 ^ 30, 5, (0 : Fin 3), upF, by decide +kernel⟩,
   ⟨5, 5, (1 : Fin 3), upF, by decide +kernel⟩,
   ⟨5, 9, 100, 140, 150, 180, (0 : Fin 3), (3 : Int), tm 100 (ports.put F.FAB_TSYNC_STAT_LOCKED 1), by decide +kernel⟩,
   ⟨5, 9, 100, 14000000, 15000000, 180, (0 : Fin 3), (14499858 : Int), tm 100 (ports.put F.FAB_TSYNC_STAT_LOCKED 1), by decide +kernel⟩,
   ⟨5, 9, 100, 14000000, 15000000, 180, (0 : Fin 3), (14499858 : Int), tm 100 ports, by decide +kernel⟩,
   ⟨5, 9, 100, 140, 150, 180, (0 : Fin 3), (3 : Int), fb (fun z => { z with good := 500 }) (tm 100 ports), by decide +kernel⟩,
   ⟨5, 8, 1, 2, 3, tm 100 ports, by decide +kernel⟩,
   ⟨5, ports.on (fun c => c.setSys { c.sys with lcUp := false }), by decide +kernel⟩⟩

end FamU

namespace FamV

def vb : State := base.put F.CAL_LDL_AMT 7
def upK (k : Nat) (s : State) : State := ((s.put F.HP_STAT_STATE 5 k).put F.HP_STAT_LANES 3 k).put F.HP_STAT_BC_LOCK 1 k
def run (p t ph : Nat) (s : State) : State := (((s.put F.CAL_STAT_BUSY 1).put F.CAL_STAT_PROC p).put F.CAL_STAT_TARGET t).put F.CAL_STAT_PHASE ph
def cl (f : CalSt → CalSt) (s : State) : State := s.on (fun c => { c with cal := f c.cal })
def hold (s : State) : State := s.on (fun c => { c with ldl := { c.ldl with grants := [⟨4, 0, 0, 5⟩, ⟨3, 2, 0, 6⟩] } })
def eye (a n : Nat) : List Bool := (List.range 64).map (fun i => decide (a ≤ i ∧ i < a + n))
def eye65 (a n : Nat) : List Bool := (List.range 65).map (fun i => decide (a ≤ i ∧ i < a + n))
def sel (i p t n : Nat) (s : State) : State := s.on (fun c => c.setLatch R.CAL_VSEL.addr i (p * 65536 + t * 256 + n))
def moving (s : State) : State := (((s.put F.POS_ENC_CFG_EN 1 1).put F.CAL_MOTION_RATE 100).on (fun c => { c with pos := { c.pos with enc := c.pos.enc.set 1 { c.pos.enc[1] with gap := 2000, ts := 0 } } }))
def chart (s : State) : State := (((upK 2 s).put F.TRK_STAT_RUN 1).put F.POS_MARK_CFG_EN 1 0).put F.TRK_STAT_NO_SOURCE 0
def it (st : ItemStage) : Item := { slot := 0, id := 5, lane := 3, anchor := 0, startField := 0, lines := 10, stage := st, start := 77 }
def withIt (st : ItemStage) (s : State) : State := s.on (fun c => { c with cmp := { c.cmp with items := [it st] } })
def strobed (s : State) : State := s.on (fun c => { c with flw := { c.flw with everFired := c.flw.everFired.set 2 true, lastStrobe := c.flw.lastStrobe.set 2 3 } })
def ddrS : State := vb.put F.DDR_STAT_READY 1
def lim (s : State) : State := s
def sens : State := (vb.put F.CAL_ARG_ABS 1).put F.THM_SENS_RANGE 0 1
def dash (e : Rat) : List (Nat × Rat) := (List.range 6).map (fun r => (r, e))
def tick (e : Rat) : State := cl (fun z => { z with chart := some 0, dashes := dash e }) (run 4 2 3 ((((chart vb).put F.CAL_CHART_REP 1).put F.CAL_LIM1_TICK_MAX 0).put F.COL_PORT_EN 1 2 |>.put F.COL_PSTAT_FIRES 3 2))

theorem witness_CalibrationStarts :
    (∃ (t : Nat) (i : Initiator) (w : Word) (k : Fin 8) (s : State), s.chip.mayWrite i R.CAL_CMD.addr ∧ s.chip.fw.calCmd = none ∧ s.chip.calBusy = false ∧ 3 ∉ s.chip.pwr.ready ∧ bitAt w.toNat 30 = false ∧ bitsOf w.toNat 15 8 = k ∧ s.chip.ldl.asks = [] ∧ s.chip.ldl.grants = [] ∧ s.chip.hasPort k = true ∧ s.chip.isUp k = true ∧ s.chip.get F.HP_STAT_LANES k = 3 ∧ s.chip.on F.HP_STAT_BC_LOCK k = true) ∧
    (∃ (t : Nat) (i : Initiator) (w : Word) (k : Fin 8) (s : State), s.chip.mayWrite i R.CAL_CMD.addr ∧ s.chip.fw.calCmd = none ∧ s.chip.calBusy = false ∧ 3 ∉ s.chip.pwr.ready ∧ bitAt w.toNat 30 = false ∧ bitsOf w.toNat 15 8 = k ∧ s.chip.ldl.asks = [] ∧ s.chip.ldl.grants = [] ∧ s.chip.hasPort k = true ∧ s.chip.isUp k = true ∧ s.chip.on F.HP_STAT_BC_LOCK k = true) ∧
    (∃ (t : Nat) (i : Initiator) (w : Word) (k : Fin 8) (s : State), s.chip.mayWrite i R.CAL_CMD.addr ∧ s.chip.fw.calCmd = none ∧ s.chip.calBusy = false ∧ 3 ∉ s.chip.pwr.ready ∧ bitAt w.toNat 30 = false ∧ bitsOf w.toNat 15 8 = k ∧ s.chip.hasPort k = true ∧ s.chip.isUp k = true) ∧
    (∃ (t : Nat) (i : Initiator) (w : Word) (k : Fin 8) (s : State), s.chip.mayWrite i R.CAL_CMD.addr ∧ s.chip.fw.calCmd = none ∧ s.chip.calBusy = false ∧ 3 ∉ s.chip.pwr.ready ∧ bitAt w.toNat 30 = false ∧ bitsOf w.toNat 15 8 = k ∧ s.chip.hasPort k = true ∧ s.chip.isUp k = true ∧ s.chip.isFenced k = false ∧ s.chip.on F.HP_PSTAT_BLANK k = false ∧ s.chip.on F.TRK_STAT_RUN = true ∧ s.chip.on F.TRK_STAT_COAST = false ∧ s.chip.on F.TRK_STAT_NO_SOURCE = false ∧ s.chip.on F.POS_MARK_CFG_EN (s.chip.get F.CAL_CHART_MARK) = true ∧ s.chip.on F.POS_MARK_CFG_WIN_EN (s.chip.get F.CAL_CHART_MARK) = false ∧ ((∀ a ∈ s.chip.cmp.items, a.anchor = 2 → s.chip.get F.CMP_LANE_MARK_MARK_SEL a.lane = s.chip.get F.CAL_CHART_MARK → a.stage = .done)) ∧ s.chip.switchState = 0) ∧
    (∃ (t : Nat) (i : Initiator) (w : Word) (k : Fin 2) (s : State), s.chip.mayWrite i R.CAL_CMD.addr ∧ s.chip.fw.calCmd = none ∧ s.chip.calBusy = false ∧ 3 ∉ s.chip.pwr.ready ∧ bitAt w.toNat 30 = false ∧ bitsOf w.toNat 15 8 = k ∧ s.chip.ldl.asks = [] ∧ s.chip.ldl.grants = [] ∧ s.chip.on F.POS_ENC_CFG_EN k = true ∧ s.chip.get F.POS_ENC_STAT_WIRE_ACT k = 0 ∧ (s.chip.at t).calMotion k = true) ∧
    (∃ (t : Nat) (i : Initiator) (w : Word) (k : Fin 3) (s : State), s.chip.mayWrite i R.CAL_CMD.addr ∧ s.chip.fw.calCmd = none ∧ s.chip.calBusy = false ∧ 3 ∉ s.chip.pwr.ready ∧ bitAt w.toNat 30 = false ∧ bitsOf w.toNat 15 8 = k ∧ s.chip.ldl.asks = [] ∧ s.chip.ldl.grants = [] ∧ (k < 2 ∨ s.chip.feature 4 = true) ∧ s.chip.get F.FAB_P_STAT_STATE k = 3 ∧ s.chip.get F.FAB_P_STAT_LANES k = 3) ∧
    (∃ (t : Nat) (i : Initiator) (w : Word) (k : Fin 1) (s : State), s.chip.mayWrite i R.CAL_CMD.addr ∧ s.chip.fw.calCmd = none ∧ s.chip.calBusy = false ∧ 3 ∉ s.chip.pwr.ready ∧ bitAt w.toNat 30 = false ∧ bitsOf w.toNat 15 8 = k ∧ s.chip.ldl.asks = [] ∧ s.chip.ldl.grants = [] ∧ s.chip.on F.DDR_STAT_READY = true ∧ s.chip.on F.DDR_STAT_SR = false) ∧
    (∃ (t : Nat) (i : Initiator) (w : Word) (k : Fin 4) (s : State), s.chip.mayWrite i R.CAL_CMD.addr ∧ s.chip.fw.calCmd = none ∧ s.chip.calBusy = false ∧ 3 ∉ s.chip.pwr.ready ∧ bitAt w.toNat 30 = false ∧ bitsOf w.toNat 15 8 = k ∧ s.chip.ldl.asks = [] ∧ s.chip.ldl.grants = [] ∧ s.chip.on F.THM_SENS_RANGE k = false ∧ (s.chip.on F.CAL_ARG_ABS = true ∨ 2 ≤ (s.chip.validSensors.filter (fun (e : Fin 4) => e != k)).length)) ∧
    (∃ (t : Nat) (i : Initiator) (w : Word) (s : State), s.chip.mayWrite i R.CAL_CMD.addr ∧ s.chip.fw.calCmd = none ∧ bitAt w.toNat 30 = false ∧ (s.chip.calBusy = true ∨ 8 ≤ bitsOf w.toNat 15 8 ∨ 3 ∈ s.chip.pwr.ready)) ∧
    (∃ (t : Nat) (i : Initiator) (w : Word) (k : Fin 8) (s : State), s.chip.mayWrite i R.CAL_CMD.addr ∧ s.chip.fw.calCmd = none ∧ s.chip.calBusy = false ∧ 3 ∉ s.chip.pwr.ready ∧ bitAt w.toNat 30 = false ∧ bitsOf w.toNat 15 8 = k ∧ (s.chip.hasPort k = false ∨ s.chip.isUp k = false)) ∧
    (∃ (t : Nat) (s : State), s.chip.up 2 = true ∧ s.chip.fw.calCmd = none ∧ s.chip.calBusy = true ∧ s.chip.calPhase = 2 ∧ s.chip.calProc = 3 ∧ (s.chip.at t).calStrobe s.chip.calPort = true ∧ s.chip.ldl.asks = [] ∧ s.chip.ldl.grants = []) ∧
    (∃ (t : Nat) (a : Item) (s : State), s.chip.up 2 = true ∧ s.chip.fw.calCmd = none ∧ s.chip.calBusy = true ∧ s.chip.calPhase = 2 ∧ s.chip.calProc = 4 ∧ s.chip.cal.chart = none ∧ s.chip.cmp.items = [a] ∧ a.id = s.chip.get F.CAL_CHART_ID_HI_ID_HI * 2 ^ 32 + s.chip.get F.CAL_CHART_ID_LO_ID_LO ∧ (a.stage = .placed ∨ a.stage = .done) ∧ s.chip.ldl.asks = [] ∧ s.chip.ldl.grants = []) ∧
    (∃ (t : Nat) (s : State), s.chip.fw.calCmd = none ∧ (s.chip.calBusy = false ∨ s.chip.calPhase ≠ 2)) ∧
    (∃ (t f : Nat) (s : State), s.chip.up 2 = true ∧ s.chip.fw.calCmd = none ∧ s.chip.calBusy = true ∧ s.chip.cal.laneOff = false ∧ s.chip.calPhase < 4 ∧ f = (s.chip.at t).calFails s.chip.calProc s.chip.calTarget ∧ f ≠ 0) ∧
    (∃ (t : Nat) (s : State), s.chip.up 2 = true ∧ s.chip.fw.calCmd = none ∧ s.chip.calBusy = true ∧ (s.chip.at t).calFails s.chip.calProc s.chip.calTarget = 0) :=
  ⟨⟨5, (.jc0 : Initiator), (0x200 : Word), (2 : Fin 8), upK 2 vb, by decide +kernel⟩,
   ⟨5, (.jc0 : Initiator), (0x700 : Word), (7 : Fin 8), upK 7 vb, by decide +kernel⟩,
   ⟨5, (.tc : Initiator), (0 : Word), (0 : Fin 8), upK 0 vb, by decide +kernel⟩,
   ⟨5, (.jc0 : Initiator), (0x200 : Word), (2 : Fin 8), chart vb, by decide +kernel⟩,
   ⟨2 ^ 32, (.jc0 : Initiator), (0x100 : Word), (1 : Fin 2), moving vb, by decide +kernel⟩,
   ⟨5, (.jc0 : Initiator), (0x200 : Word), (2 : Fin 3), (vb.put F.FAB_P_STAT_STATE 3 2).put F.FAB_P_STAT_LANES 3 2, by decide +kernel⟩,
   ⟨5, (.jc0 : Initiator), (0 : Word), (0 : Fin 1), ddrS, by decide +kernel⟩,
   ⟨5, (.jc0 : Initiator), (0x100 : Word), (1 : Fin 4), sens, by decide +kernel⟩,
   ⟨5, (.jc0 : Initiator), (0x800 : Word), vb, by decide +kernel⟩,
   ⟨5, (.jc0 : Initiator), (0x200 : Word), (2 : Fin 8), vb, by decide +kernel⟩,
   ⟨5, strobed (run 3 2 2 (upK 2 vb)), by decide +kernel⟩,
   ⟨5, (it .placed : Item), ((withIt .placed (run 4 2 2 (chart vb))).put F.CAL_CHART_ID_LO_ID_LO 5), by decide +kernel⟩,
   ⟨5, vb, by decide +kernel⟩,
   ⟨5, 1, hold (run 2 2 3 vb), by decide +kernel⟩,
   ⟨5, run 2 2 3 (upK 2 vb), by decide +kernel⟩⟩

theorem witness_CalibrationEnds :
    (∃ (t : Nat) (pass : List Bool) (e : Nat × Nat) (s : State), s.chip.up 2 = true ∧ s.chip.fw.calCmd = none ∧ s.chip.calBusy = true ∧ s.chip.calPhase = 3 ∧ (s.chip.at t).calFails s.chip.calProc s.chip.calTarget = 0 ∧ s.chip.cal.laneOff = false ∧ s.chip.on F.CAL_XCFG_NO_APPLY = false ∧ s.chip.calProc = 2 ∧ chooseEye true (pass.take 64) (s.chip.get F.HP_TXDLY_BC_PH s.chip.calPort) = some e ∧ s.chip.get F.CAL_LIM0_BC_MIN ≤ e.2) ∧
    (∃ (t : Nat) (pass : List Bool) (e : Nat × Nat) (s : State), s.chip.up 2 = true ∧ s.chip.fw.calCmd = none ∧ s.chip.calBusy = true ∧ s.chip.calPhase = 3 ∧ (s.chip.at t).calFails s.chip.calProc s.chip.calTarget = 0 ∧ s.chip.cal.laneOff = false ∧ s.chip.on F.CAL_XCFG_NO_APPLY = true ∧ s.chip.calProc = 2 ∧ chooseEye true (pass.take 64) (s.chip.get F.HP_TXDLY_BC_PH s.chip.calPort) = some e ∧ s.chip.get F.CAL_LIM0_BC_MIN ≤ e.2) ∧
    (∃ (t : Nat) (pass : List Bool) (e : Nat × Nat) (s : State), s.chip.up 2 = true ∧ s.chip.fw.calCmd = none ∧ s.chip.calBusy = true ∧ s.chip.calPhase = 3 ∧ (s.chip.at t).calFails s.chip.calProc s.chip.calTarget = 0 ∧ s.chip.cal.laneOff = false ∧ s.chip.calProc = 2 ∧ chooseEye true (pass.take 64) (s.chip.get F.HP_TXDLY_BC_PH s.chip.calPort) = some e ∧ e.2 < s.chip.get F.CAL_LIM0_BC_MIN) ∧
    (∃ (t : Nat) (pass : List Bool) (s : State), s.chip.up 2 = true ∧ s.chip.fw.calCmd = none ∧ s.chip.calBusy = true ∧ s.chip.calPhase = 3 ∧ (s.chip.at t).calFails s.chip.calProc s.chip.calTarget = 0 ∧ s.chip.cal.laneOff = false ∧ s.chip.calProc = 2 ∧ chooseEye true (pass.take 64) (s.chip.get F.HP_TXDLY_BC_PH s.chip.calPort) = none) ∧
    (∃ (t : Nat) (pass : List (List Bool)) (locks : List Bool) (a b : Nat × Nat) (s : State), s.chip.up 2 = true ∧ s.chip.fw.calCmd = none ∧ s.chip.calBusy = true ∧ s.chip.calPhase = 3 ∧ (s.chip.at t).calFails s.chip.calProc s.chip.calTarget = 0 ∧ s.chip.on F.CAL_XCFG_NO_APPLY = false ∧ s.chip.cal.laneOff = true ∧ s.chip.calProc = 1 ∧ chooseEye false ((pass.getD 0 []).take 64) (s.chip.get F.HP_TXDLY_D0 s.chip.calPort) = some a ∧ chooseEye false ((pass.getD 1 []).take 64) (s.chip.get F.HP_TXDLY_D1 s.chip.calPort) = some b ∧ locks.getD 0 false = true ∧ locks.getD 1 false = true ∧ s.chip.get F.CAL_LIM0_LINK_MIN ≤ min a.2 b.2) ∧
    (∃ (t n f j late : Nat) (high : List Nat) (taps : Int) (s : State), s.chip.up 2 = true ∧ s.chip.fw.calCmd = none ∧ s.chip.calBusy = true ∧ s.chip.calPhase = 3 ∧ (s.chip.at t).calFails s.chip.calProc s.chip.calTarget = 0 ∧ s.chip.cal.laneOff = false ∧ s.chip.on F.CAL_XCFG_NO_APPLY = false ∧ s.chip.calProc = 3 ∧ n = s.chip.get F.CAL_DWELL_STROBES ∧ (high.take 96).findIdx? (fun h => decide (n ≤ h)) = some j ∧ f = ((high.take 96).filter (fun h => decide (0 < h) && decide (h < n))).length ∧ late = s.chip.get F.CAL_ARG_ARG + recField (s.chip.port s.chip.calPort).record 0x3C 2 ∧ taps = -roundDiv (((j : Int) - 32) * 78125 + (late * 10000 : Nat)) 78125 ∧ -2048 ≤ taps ∧ taps ≤ 2047 ∧ f ≤ s.chip.get F.CAL_LIM1_EDGE_MAX) ∧
    (∃ (t : Nat) (ct : Int) (cr : List Int) (f : Nat) (s : State), s.chip.up 2 = true ∧ s.chip.fw.calCmd = none ∧ s.chip.calBusy = true ∧ s.chip.calPhase = 3 ∧ (s.chip.at t).calFails s.chip.calProc s.chip.calTarget = 0 ∧ s.chip.cal.laneOff = false ∧ s.chip.calProc = 4 ∧ (s.chip.at t).tickResult s.chip.calPort = some (ct, cr, f) ∧ s.chip.get F.CAL_LIM1_TICK_MAX < f ∧ f < 65536) ∧
    (∃ (t f : Nat) (ct tile : Int) (cr : List Int) (k : Fin 8) (s : State), s.chip.up 2 = true ∧ s.chip.fw.calCmd = none ∧ s.chip.calBusy = true ∧ s.chip.calPhase = 3 ∧ (s.chip.at t).calFails s.chip.calProc s.chip.calTarget = 0 ∧ s.chip.cal.laneOff = false ∧ s.chip.on F.CAL_XCFG_NO_APPLY = false ∧ s.chip.calProc = 4 ∧ k = s.chip.calPort ∧ (s.chip.at t).tickResult k = some (ct, cr, f) ∧ f ≤ s.chip.get F.CAL_LIM1_TICK_MAX ∧ f < 65536 ∧ tile = signed 21 (s.chip.get F.TRK_TILEOFS_OFS k) - ct ∧ -(2 ^ 20) ≤ tile ∧ tile < 2 ^ 20 ∧ ((∀ r : Fin 6, -(2 ^ 20) ≤ signed 21 (s.chip.get F.TRK_ROWOFS_OFS k r) - cr.getD r 0 ∧ signed 21 (s.chip.get F.TRK_ROWOFS_OFS k r) - cr.getD r 0 < 2 ^ 20)) ∧ ((∀ r : Fin 6, 0 ≤ tile + (signed 21 (s.chip.get F.TRK_ROWOFS_OFS k r) - cr.getD r 0) + signed 21 (s.chip.inForce F.TRK_ICOFS_OFS (s.chip.rowChannel k r)) ∧ ((tile + (signed 21 (s.chip.get F.TRK_ROWOFS_OFS k r) - cr.getD r 0) + signed 21 (s.chip.inForce F.TRK_ICOFS_OFS (s.chip.rowChannel k r))) / 64) % 2 = s.chip.calDelay k r % 2))) ∧
    (∃ (t : Nat) (s : State), s.chip.up 2 = true ∧ s.chip.fw.calCmd = none ∧ s.chip.calBusy = true ∧ s.chip.calPhase = 3 ∧ (s.chip.at t).calFails s.chip.calProc s.chip.calTarget = 0 ∧ s.chip.cal.laneOff = false ∧ s.chip.calProc = 4 ∧ (s.chip.at t).tickResult s.chip.calPort = none) ∧
    (∃ (t : Nat) (pass : List Bool) (e : Nat × Nat) (s : State), s.chip.up 2 = true ∧ s.chip.fw.calCmd = none ∧ s.chip.calBusy = true ∧ s.chip.calPhase = 3 ∧ (s.chip.at t).calFails s.chip.calProc s.chip.calTarget = 0 ∧ s.chip.cal.laneOff = false ∧ s.chip.on F.CAL_XCFG_NO_APPLY = false ∧ s.chip.calProc = 5 ∧ s.chip.calTarget = 1 ∧ chooseEye false (pass.take 64) (s.chip.get F.POS_ENC_THR_THR1) = some e ∧ s.chip.get F.CAL_LIM0_THR_MIN ≤ e.2) ∧
    (∃ (t : Nat) (pass : List (List (List Bool))) (p : Fin 3) (a b : Nat × Nat) (s : State), s.chip.up 2 = true ∧ s.chip.fw.calCmd = none ∧ s.chip.calBusy = true ∧ s.chip.calPhase = 3 ∧ (s.chip.at t).calFails s.chip.calProc s.chip.calTarget = 0 ∧ s.chip.cal.laneOff = false ∧ s.chip.on F.CAL_XCFG_NO_APPLY = false ∧ s.chip.calProc = 6 ∧ s.chip.calTarget = p ∧ a = bestCtle (pass.getD 0 []) ∧ b = bestCtle (pass.getD 1 []) ∧ min a.2 b.2 ≠ 0 ∧ s.chip.get F.CAL_LIM0_FAB_MIN ≤ min a.2 b.2) ∧
    (∃ (t : Nat) (pass : List (List Bool)) (s : State), s.chip.up 2 = true ∧ s.chip.fw.calCmd = none ∧ s.chip.calBusy = true ∧ s.chip.calPhase = 3 ∧ (s.chip.at t).calFails s.chip.calProc s.chip.calTarget = 0 ∧ s.chip.cal.laneOff = false ∧ s.chip.calProc = 7 ∧ (∃ i ∈ List.range 9, chooseEye false ((pass.getD i []).take 65) 32 = none)) ∧
    (∃ (t w lo : Nat) (pass : List (List Bool)) (s : State), s.chip.up 2 = true ∧ s.chip.fw.calCmd = none ∧ s.chip.calBusy = true ∧ s.chip.calPhase = 3 ∧ (s.chip.at t).calFails s.chip.calProc s.chip.calTarget = 0 ∧ s.chip.cal.laneOff = false ∧ s.chip.on F.CAL_XCFG_NO_APPLY = false ∧ s.chip.calProc = 7 ∧ (∀ i ∈ List.range 9, chooseEye false ((pass.getD i []).take 65) 32 = some (lo, w)) ∧ 8 ≤ w ∧ w < 65536 ∧ (∀ i : Fin 9, 32 ≤ s.chip.mem.training[i.val]'(by omega) + lo)) ∧
    (∃ (t f : Nat) (ofs : Int) (s : State), s.chip.up 2 = true ∧ s.chip.fw.calCmd = none ∧ s.chip.calBusy = true ∧ s.chip.calPhase = 3 ∧ (s.chip.at t).calFails s.chip.calProc s.chip.calTarget = 0 ∧ s.chip.cal.laneOff = false ∧ s.chip.on F.CAL_XCFG_NO_APPLY = false ∧ s.chip.calProc = 8 ∧ s.chip.cal.samples.length = 64 ∧ ofs = roundQ (meanQ (s.chip.cal.samples.map (fun x => x.1 - (x.2 : Rat)))) ∧ -128 ≤ ofs ∧ ofs ≤ 127 ∧ f = sqrtRound (meanQ (s.chip.cal.samples.map (fun x => ((x.2 : Rat) + (ofs : Rat) - x.1) * ((x.2 : Rat) + (ofs : Rat) - x.1)))) ∧ f ≤ s.chip.get F.CAL_LIM1_SENS_MAX) ∧
    (∃ (t : Nat) (sweep : CalSweep) (s : State), s.chip.fw.calCmd = none ∧ (s.chip.calBusy = false ∨ s.chip.calPhase ≠ 3)) ∧
    (∃ (t : Nat) (i : Initiator) (s : State), s.chip.mayWrite i R.CAL_CMD.addr ∧ s.chip.fw.calCmd = none ∧ s.chip.calBusy = true ∧ s.chip.cal.laneOff = false ∧ s.chip.calPhase < 4) ∧
    (∃ (t : Nat) (i : Initiator) (s : State), s.chip.mayWrite i R.CAL_CMD.addr ∧ s.chip.fw.calCmd = none ∧ (s.chip.calBusy = false ∨ 4 ≤ s.chip.calPhase)) ∧
    (∃ (t : Nat) (s : State), s.chip.up 2 = true ∧ s.chip.fw.calCmd = none ∧ s.chip.calBusy = true ∧ s.chip.cal.laneOff = false ∧ s.chip.calPhase < 4 ∧ s.chip.cal.startAt + ms (s.chip.get F.CAL_TO_MS) ≤ max s.chip.now t) ∧
    (∃ (t : Nat) (s : State), s.chip.fw.calCmd = none ∧ (s.chip.calBusy = false ∨ max s.chip.now t < s.chip.cal.startAt + ms (s.chip.get F.CAL_TO_MS))) ∧
    (∃ (t p g n a b : Nat) (i : Initiator) (w : Word) (v : CalVal) (q : Place) (s : State), s.chip.mayWrite i R.CAL_VDATA.addr ∧ s.chip.fw.calCmd = none ∧ s.chip.calSel (initNo i) = (p, g, n) ∧ s.chip.calValue p g n = some v ∧ v.ro = false ∧ s.chip.calStale p g n = false ∧ v.inRange w.toNat = true ∧ v.field = some (q, a, b) ∧ s.chip.switchState = 0 ∧ p ≠ 4) ∧
    (∃ (t g n a b : Nat) (i : Initiator) (w : Word) (v : CalVal) (q : Place) (s : State), s.chip.mayWrite i R.CAL_VDATA.addr ∧ s.chip.fw.calCmd = none ∧ s.chip.calSel (initNo i) = (4, g, n) ∧ s.chip.calValue 4 g n = some v ∧ s.chip.calStale 4 g n = false ∧ v.inRange w.toNat = true ∧ v.field = some (q, a, b) ∧ s.chip.switchState = 0) ∧
    (∃ (t g : Nat) (i : Initiator) (w : Word) (n : Fin 2) (k : Fin 3) (s : State), s.chip.mayWrite i R.CAL_VDATA.addr ∧ s.chip.fw.calCmd = none ∧ s.chip.calSel (initNo i) = (6, g, n.val) ∧ g = k ∧ (k < 2 ∨ s.chip.feature 4 = true) ∧ s.chip.calStale 6 g n = false ∧ w.toNat < 16) ∧
    (∃ (t p g n : Nat) (i : Initiator) (w : Word) (s : State), s.chip.mayWrite i R.CAL_VDATA.addr ∧ s.chip.fw.calCmd = none ∧ s.chip.calSel (initNo i) = (p, g, n) ∧ (s.chip.calValue p g n = none ∨ s.chip.calStale p g n = true ∨ (∀ v, s.chip.calValue p g n = some v → v.ro = true ∨ v.inRange w.toNat = false))) :=
  ⟨⟨5, (eye 20 21 : List Bool), ((30, 21) : Nat × Nat), hold (run 2 2 3 (upK 2 vb)), by decide +kernel⟩,
   ⟨5, (eye 20 21 : List Bool), ((30, 21) : Nat × Nat), hold (run 2 2 3 (upK 2 (vb.put F.CAL_XCFG_NO_APPLY 1))), by decide +kernel⟩,
   ⟨5, (eye 20 1 : List Bool), ((20, 1) : Nat × Nat), hold (run 2 2 3 (upK 2 vb)), by decide +kernel⟩,
   ⟨5, (eye 0 0 : List Bool), hold (run 2 2 3 (upK 2 vb)), by decide +kernel⟩,
   ⟨5, ([eye 20 21, eye 10 31] : List (List Bool)), ([true, true] : List Bool), ((30, 21) : Nat × Nat), ((25, 31) : Nat × Nat), cl (fun z => { z with laneOff := true }) (run 1 2 3 (upK 2 vb)), by decide +kernel⟩,
   ⟨5, (hold (strobed (run 3 2 3 (upK 2 vb)))).chip.get F.CAL_DWELL_STROBES, 0, 40, 0, (List.replicate 40 0 ++ List.replicate 56 60000 : List Nat), (-8 : Int), hold (strobed (run 3 2 3 (upK 2 vb))), by decide +kernel⟩,
   ⟨5, (1 : Int), ([-1, -1, -1, -1, -1, -1] : List Int), 8, tick (1 / 2), by decide +kernel⟩,
   ⟨5, 8, (1 : Int), (-1 : Int), ([-1, -1, -1, -1, -1, -1] : List Int), (2 : Fin 8), (tick (1 / 2)).put F.CAL_LIM1_TICK_MAX 64, by decide +kernel⟩,
   ⟨5, run 4 2 3 (chart (vb.put F.CAL_CHART_REP 1)), by decide +kernel⟩,
   ⟨2 ^ 32, (eye 20 21 : List Bool), ((30, 21) : Nat × Nat), run 5 1 3 (moving vb), by decide +kernel⟩,
   ⟨5, ([[eye 1 3, eye 20 41], [eye 10 40]] : List (List (List Bool))), (1 : Fin 3), ((1, 41) : Nat × Nat), ((0, 40) : Nat × Nat), run 6 1 3 ((vb.put F.FAB_P_STAT_STATE 3 1).put F.FAB_P_STAT_LANES 3 1), by decide +kernel⟩,
   ⟨5, ([] : List (List Bool)), run 7 0 3 ddrS, by decide +kernel⟩,
   ⟨5, 21, 34, (List.replicate 9 (eye65 24 21) : List (List Bool)), run 7 0 3 ddrS, by decide +kernel⟩,
   ⟨5, 0, (5 : Int), cl (fun z => { z with samples := List.replicate 64 (10, 5) }) (run 8 1 3 sens), by decide +kernel⟩,
   ⟨5, (.gathered : CalSweep), vb, by decide +kernel⟩,
   ⟨5, (.jc0 : Initiator), hold (run 2 2 3 vb), by decide +kernel⟩,
   ⟨5, (.jc0 : Initiator), vb, by decide +kernel⟩,
   ⟨ms 100000000, hold (run 2 2 3 vb), by decide +kernel⟩,
   ⟨5, vb, by decide +kernel⟩,
   ⟨5, 3, 2, 0, 2, 0, (.jc0 : Initiator), (0xFFFFFFFF : Word), (⟨0, false, some (F.HP_FTRIM_TAPS, 2, 0), 12, true⟩ : CalVal), (F.HP_FTRIM_TAPS : Place), sel (initNo .jc0) 3 2 0 vb, by decide +kernel⟩,
   ⟨5, 2, 3, 2, 2, (.jc0 : Initiator), (5 : Word), (⟨0, false, some (F.TRK_ROWOFS_OFS, 2, 2), 21, true⟩ : CalVal), (F.TRK_ROWOFS_OFS : Place), sel (initNo .jc0) 4 2 3 vb, by decide +kernel⟩,
   ⟨5, 2, (.jc0 : Initiator), (9 : Word), (1 : Fin 2), (2 : Fin 3), sel (initNo .jc0) 6 2 1 vb, by decide +kernel⟩,
   ⟨5, 7, 0, 3, (.jc0 : Initiator), (9 : Word), sel (initNo .jc0) 7 0 3 vb, by decide +kernel⟩⟩

end FamV

end Sys2Proof.Tests
end

section
/-!
PROOFS about the fields of a register: what a plain write leaves in each field, and when it is counted as ignored.
-/

namespace Sys2Proof.Machine

/-! ### One field takes its bits of the word (R10 to R13) -/

/-- A field's bits lie in the word. -/
abbrev FieldDef.Fits (f : FieldDef) : Prop := f.lo ≤ f.hi ∧ f.hi < 32

/-- Two fields share no bit. -/
abbrev FieldDef.Apart (f g : FieldDef) : Prop := f.hi < g.lo ∨ g.hi < f.lo

/-- A lock, XPERT_EN, the field's range, a calibration run or a pending switch keeps a field from taking its bits of w (R10, R12,
R13, R410, R669). -/
def Chip.barsField (c : Chip) (a w : Nat) (f : FieldDef) : Bool :=
  (f.acc == .rwl && c.lockedBlock a) || (f.acc == .rwx && !c.xpert a) || bitsOf w f.hi f.lo < f.min || f.max < bitsOf w f.hi f.lo
    || bitsOf (c.calHolds a) f.hi f.lo != 0 || c.frozen a

/-- A write of w to a field is ignored and counted. -/
def Chip.ignoresField (c : Chip) (a w : Nat) (f : FieldDef) : Bool :=
  (f.acc == .rw || f.acc == .rwl || f.acc == .rwx) && !c.featureless a f && c.barsField a w f

/-- What a field that read `old` reads after a write of w (R10). -/
def Chip.fieldAfter (c : Chip) (a w : Nat) (f : FieldDef) (old : Nat) : Nat :=
  match f.acc with
  | .wo => old
  | .w1c => old - (old &&& bitsOf w f.hi f.lo)
  | .w1s => old ||| bitsOf w f.hi f.lo
  | _ => if c.featureless a f || c.barsField a w f then old else bitsOf w f.hi f.lo

/-- Putting a field's own bits back changes nothing. -/
theorem withBits_bitsOf_self (n : Nat) {hi lo : Nat} (h : lo ≤ hi + 1) : withBits n hi lo (bitsOf n hi lo) = n := by
  apply Nat.eq_of_testBit_eq
  intro k
  rw [withBits_testBit _ _ h, bitsOf_testBit]
  split
  · rename_i hk
    rw [show lo + (k - lo) = k by omega, decide_eq_true (by omega : k - lo < hi + 1 - lo), Bool.true_and]
  · rfl

section Fold

variable {c : Chip} {a w : Nat} {f g : FieldDef} {s : FieldWrite} {fs : List FieldDef}

theorem fieldAfter_lt (n : Nat) : c.fieldAfter a w f (bitsOf n f.hi f.lo) < 2 ^ (f.hi + 1 - f.lo) := by
  have hold := bitsOf_lt n f.hi f.lo
  have hnew := bitsOf_lt w f.hi f.lo
  unfold Chip.fieldAfter
  split
  · exact hold
  · exact lt_of_le_of_lt (Nat.sub_le _ _) hold
  · exact Nat.or_lt_two_pow hold hnew
  · split <;> assumption

/-- A field that takes words takes its bits unless something bars it. -/
theorem storeField_taking (h : f.acc = .rw ∨ f.acc = .rwl ∨ f.acc = .rwx) :
    c.storeField a w s f = if c.featureless a f then s
      else if c.barsField a w f then { s with ignored := true }
      else { word := withBits s.word f.hi f.lo (bitsOf w f.hi f.lo), ignored := s.ignored, shadow := s.shadow || f.shadow } := by
  rcases h with h | h | h <;> simp only [Chip.storeField, Chip.barsField, h]

theorem fieldAfter_taking (h : f.acc = .rw ∨ f.acc = .rwl ∨ f.acc = .rwx) (n : Nat) :
    c.fieldAfter a w f n = if c.featureless a f || c.barsField a w f then n else bitsOf w f.hi f.lo := by
  rcases h with h | h | h <;> simp only [Chip.fieldAfter, h]

/-- The word after one field: the field replaced by what it reads then. -/
theorem storeField_word (h : f.Fits) :
    (c.storeField a w s f).word = withBits s.word f.hi f.lo (c.fieldAfter a w f (bitsOf s.word f.hi f.lo)) := by
  have hself := withBits_bitsOf_self s.word (show f.lo ≤ f.hi + 1 by have := h.1; omega)
  cases hacc : f.acc
  case wo => simp only [Chip.storeField, Chip.fieldAfter, hacc, hself]
  case w1c | w1s => simp only [Chip.storeField, Chip.fieldAfter, hacc]
  all_goals
    rw [storeField_taking (by simp [hacc]), fieldAfter_taking (by simp [hacc])]
    cases c.featureless a f <;> cases c.barsField a w f <;> simp [hself]

/-- An ignored field is noted, and stays noted. -/
theorem storeField_ignored : (c.storeField a w s f).ignored = (s.ignored || c.ignoresField a w f) := by
  cases hacc : f.acc
  case wo | w1c | w1s => simp [Chip.storeField, Chip.ignoresField, hacc]
  all_goals
    rw [storeField_taking (by simp [hacc]), Chip.ignoresField, hacc]
    cases c.featureless a f <;> cases c.barsField a w f <;> simp

theorem foldl_storeField_ignored :
    (fs.foldl (fun s f => c.storeField a w s f) s).ignored = (s.ignored || fs.any (c.ignoresField a w)) := by
  induction fs generalizing s with
  | nil => simp
  | cons g fs ih => rw [List.foldl_cons, ih, storeField_ignored, List.any_cons, Bool.or_assoc]

/-- A field that lies apart from those written reads as before. -/
theorem foldl_storeField_apart (hfit : ∀ g ∈ fs, g.Fits) (hap : ∀ g ∈ fs, g.Apart f) :
    bitsOf (fs.foldl (fun s f => c.storeField a w s f) s).word f.hi f.lo = bitsOf s.word f.hi f.lo := by
  induction fs generalizing s with
  | nil => rfl
  | cons g fs ih =>
    have hg := hfit g (by simp)
    rw [List.foldl_cons, ih (fun x hx => hfit x (by simp [hx])) (fun x hx => hap x (by simp [hx])), storeField_word hg,
      bitsOf_withBits_other _ _ (by have := hg.1; omega) (hap g (by simp))]

/-- Where the fields of a register share no bit, each reads what its own write leaves. -/
theorem foldl_storeField_bits (hp : fs.Pairwise FieldDef.Apart) (hfit : ∀ g ∈ fs, g.Fits) (hf : f ∈ fs) :
    bitsOf (fs.foldl (fun s f => c.storeField a w s f) s).word f.hi f.lo = c.fieldAfter a w f (bitsOf s.word f.hi f.lo) := by
  induction fs generalizing s with
  | nil => simp at hf
  | cons g fs ih =>
    obtain ⟨hgap, hp⟩ := List.pairwise_cons.mp hp
    have hg := hfit g (by simp)
    have hfit' : ∀ x ∈ fs, x.Fits := fun x hx => hfit x (by simp [hx])
    have hlo : g.lo ≤ g.hi + 1 := by have := hg.1; omega
    rw [List.foldl_cons]
    rcases List.mem_cons.mp hf with rfl | hf
    · rw [foldl_storeField_apart hfit' (fun x hx => (hgap x hx).symm), storeField_word hg, bitsOf_withBits_same _ _ hlo,
        Nat.mod_eq_of_lt (fieldAfter_lt _)]
    · rw [ih hp hfit' hf, storeField_word hg, bitsOf_withBits_other _ _ hlo (hgap f hf)]

/-- The word stays a word. -/
theorem foldl_storeField_lt (hfit : ∀ g ∈ fs, g.Fits) (hs : s.word < 2 ^ 32) :
    (fs.foldl (fun s f => c.storeField a w s f) s).word < 2 ^ 32 := by
  induction fs generalizing s with
  | nil => exact hs
  | cons g fs ih =>
    have hg := hfit g (by simp)
    rw [List.foldl_cons]
    apply ih (fun x hx => hfit x (by simp [hx]))
    rw [storeField_word hg]
    exact withBits_lt _ _ (by have := hg.1; omega) hg.2 hs

end Fold

/-! ### The register tables -/

/-- The fields of every register fit in the word and share no bit. -/
theorem blockRegs_fields_sound :
    ∀ id : Fin 32, ∀ d ∈ blockRegs id, (∀ f ∈ d.fields, f.Fits) ∧ d.fields.Pairwise FieldDef.Apart := by
  decide +kernel

theorem findReg_mem {off : Nat} {d : RegDef} {l : List RegDef} (h : findReg off l = some d) : d ∈ l := by
  induction l with
  | nil => simp [findReg] at h
  | cons e l ih =>
    unfold findReg at h
    split at h
    · cases h; simp
    · exact List.mem_cons_of_mem _ (ih h)

theorem regAt_mem {a : Nat} {d : RegDef} (h : regAt a = some d) : blockOf a < 32 ∧ d ∈ blockRegs (blockOf a) := by
  unfold regAt at h
  split at h
  · cases h
  · rename_i hin
    refine ⟨?_, findReg_mem h⟩
    unfold blockOf
    omega

theorem regWhere_regAt {a n m : Nat} {d : RegDef} (h : regWhere a = some (d, n, m)) : regAt a = some d := by
  unfold regWhere at h
  split at h
  · cases h
  · rename_i e he
    cases hi : e.index (a % 0x10000) <;> simp_all

theorem regAt_fields_sound {a : Nat} {d : RegDef} (h : regAt a = some d) :
    (∀ f ∈ d.fields, f.Fits) ∧ d.fields.Pairwise FieldDef.Apart := by
  obtain ⟨hlt, hd⟩ := regAt_mem h
  exact blockRegs_fields_sound ⟨blockOf a, hlt⟩ d hd

end Sys2Proof.Machine
end

section
/-!
PROOFS about the registers that software cannot change: those with a field under LOCK or XPERT_EN, the locks themselves, and the
counters of ignored writes. What a block does by itself after a write leaves them alone.
-/

namespace Sys2Proof.Machine

/-! ### Secured registers and counters of ignored writes (R12, R13) -/

/-- A field under LOCK or XPERT_EN, or a lock itself. -/
def FieldDef.secured (f : FieldDef) : Bool := f.acc == .rwl || f.acc == .rwx || f.acc == .w1s

/-- A register with a secured field. -/
def securedReg (a : Nat) : Bool := (regAt a).any (fun d => d.fields.any FieldDef.secured)

/-- The register in which a block counts the writes that it ignores. -/
def countsRejects (a : Nat) : Bool := (rejectCounter a).any (fun q => q.1.at q.2 0 == a)

/-- A secured register or a counter of ignored writes. -/
def upheld (a : Nat) : Bool := securedReg a || countsRejects a

theorem securedReg_of_mem {a : Nat} {d : RegDef} {f : FieldDef} (hd : regAt a = some d) (hf : f ∈ d.fields)
    (hs : f.secured = true) : securedReg a = true := by
  simp only [securedReg, hd, Option.any_some, List.any_eq_true]
  exact ⟨f, hf, hs⟩

theorem upheld_of_secured {a : Nat} (h : securedReg a = true) : upheld a = true := by simp [upheld, h]

/-- Every counter of ignored writes is a field of a register of its block that has no secured field. -/
theorem rejectCounters_sound : ∀ id : Fin 32, (rejectCounter (0x10000000 + id * 0x10000)).all (fun q =>
    decide (q.1.lo ≤ q.1.hi + 1) && decide (q.1.hi < 32) && rejectCounter (q.1.at q.2 0) == some q &&
      !securedReg (q.1.at q.2 0)) = true := by
  decide +kernel

theorem rejectCounter_block (a : Nat) : rejectCounter (0x10000000 + blockOf a * 0x10000) = rejectCounter a := by
  have : blockOf (0x10000000 + blockOf a * 0x10000) = blockOf a := by
    unfold blockOf; omega
  simp only [rejectCounter, this]

section Counter

variable {c : Chip} {a k : Nat} {q : Place} {d : RegDef}

theorem rejectCounter_spec (ha : blockOf a < 32) (h : rejectCounter a = some (q, k)) :
    q.lo ≤ q.hi + 1 ∧ q.hi < 32 ∧ countsRejects (q.at k 0) = true ∧ securedReg (q.at k 0) = false := by
  have hs := rejectCounters_sound ⟨blockOf a, ha⟩
  rw [rejectCounter_block, h] at hs
  simp only [Option.all_some, Bool.and_eq_true, decide_eq_true_eq, beq_iff_eq, Bool.not_eq_true'] at hs
  obtain ⟨⟨⟨hlo, hhi⟩, hself⟩, hsec⟩ := hs
  exact ⟨hlo, hhi, by simp [countsRejects, hself], hsec⟩

/-- An ignored write is counted in the counter that the block has. -/
theorem reject_of_counter (h : rejectCounter a = some (q, k)) : c.reject a = c.addSat q 1 k := by
  unfold rejectCounter at h
  unfold Chip.reject
  split at h
  · rename_i hp
    cases h
    simp [hp]
  · rename_i hp
    simp only [if_neg hp]
    cases hr : rejPlace (blockOf a) <;> simp_all

theorem reject_of_none (h : rejectCounter a = none) : c.reject a = c := by
  unfold rejectCounter at h
  unfold Chip.reject
  split at h
  · cases h
  · rename_i hp
    simp only [if_neg hp]
    cases hr : rejPlace (blockOf a) <;> simp_all

end Counter

/-! ### What leaves the secured registers and the counters alone -/

/-- From c to d the answer of the bus, every secured register and every counter of ignored writes stay. -/
def Chip.Upholds (c d : Chip) : Prop := d.answer = c.answer ∧ ∀ b, upheld b = true → d.word b = c.word b

section Upholds

variable {c d e : Chip} {p : Place} {v i j : Nat}

theorem Chip.Upholds.refl (c : Chip) : c.Upholds c := ⟨rfl, fun _ _ => rfl⟩

theorem Chip.Upholds.trans (h : c.Upholds d) (h' : d.Upholds e) : c.Upholds e :=
  ⟨h'.1.trans h.1, fun b hb => (h'.2 b hb).trans (h.2 b hb)⟩

/-- What is kept beside the registers does not matter. -/
theorem Chip.upholds_of_regs (ha : d.answer = c.answer) (hr : d.regs = c.regs) : c.Upholds d :=
  ⟨ha, fun b _ => Chip.word_mk_other c d hr b⟩

theorem Chip.Upholds.set (h : c.Upholds d) (hp : upheld (p.at i j) = false) : c.Upholds (d.set p v i j) := by
  refine h.trans ⟨rfl, fun b hb => Chip.word_set_other _ _ _ _ _ ?_⟩
  rintro rfl
  simp [hp] at hb

theorem Chip.Upholds.setWord {a : Nat} {w : Word} (h : c.Upholds d) (ha : upheld a = false) : c.Upholds (d.setWord a w) := by
  refine h.trans ⟨rfl, fun b hb => Chip.word_setWord_other _ ?_ _⟩
  rintro rfl
  simp [ha] at hb

theorem Chip.Upholds.addSat (h : c.Upholds d) (hp : upheld (p.at i j) = false) : c.Upholds (d.addSat p v i j) := h.set hp

theorem Chip.Upholds.orBits (h : c.Upholds d) (hp : upheld (p.at i j) = false) : c.Upholds (d.orBits p v i j) := h.set hp

theorem Chip.Upholds.beside (h : c.Upholds d) (ha : e.answer = d.answer) (hr : e.regs = d.regs) : c.Upholds e :=
  h.trans (Chip.upholds_of_regs ha hr)

theorem Chip.Upholds.emit {n : Nat} {l : List (Nat × Nat)} (h : c.Upholds d) : c.Upholds (d.emit n l) := h.beside rfl rfl

theorem Chip.Upholds.setPwr {x : PwrSt} (h : c.Upholds d) : c.Upholds (d.setPwr x) := h.beside rfl rfl

/-- A field of an upheld register reads as before. -/
theorem Chip.Upholds.get (h : c.Upholds d) (hp : upheld (p.at i j) = true) : d.get p i j = c.get p i j := by
  simp only [Chip.get, h.2 _ hp]

theorem Chip.upholds_foldl {α : Type} {f : Chip → α → Chip} (hf : ∀ (c : Chip) (x : α), c.Upholds (f c x)) (l : List α)
    (c : Chip) :
    c.Upholds (l.foldl f c) := by
  induction l generalizing c with
  | nil => exact Chip.Upholds.refl c
  | cons x l ih => exact (hf c x).trans (ih (f c x))

theorem Chip.upholds_ite {b : Prop} [Decidable b] (hd : c.Upholds d) (he : c.Upholds e) : c.Upholds (if b then d else e) := by
  split <;> assumption

end Upholds

/-- HPk_STAT, which the ports set by themselves, is neither secured nor a counter. -/
theorem hpStat_not_upheld : ∀ k : Fin 8, upheld (F.HP_STAT_STATE.at k 0) = false := by decide +kernel

/-! ### A shadowed field was written (R24) -/

theorem Chip.upholds_shadowWritten (c : Chip) (a : Nat) : c.Upholds (c.shadowWritten a) := by
  unfold Chip.shadowWritten
  have hdirty : c.Upholds (if blockOf a = 0x0A ∨ blockOf a = 0x0B ∨ blockOf a = 0x0C then
      { c with dirty := (a :: c.dirty).eraseDups } else c) :=
    Chip.upholds_ite (Chip.upholds_of_regs rfl rfl) (Chip.Upholds.refl c)
  exact Chip.upholds_ite ((hdirty.set (by decide +kernel)).set (by decide +kernel))
    (Chip.upholds_ite ((hdirty.set (by decide +kernel)).set (by decide +kernel)) hdirty)

/-! ### What TRK does by itself (R112, R136) -/

theorem Chip.upholds_showActive (c : Chip) (n : Nat) : c.Upholds (c.showActive n) :=
  ((Chip.Upholds.refl c).set (by decide +kernel)).beside rfl rfl

theorem Chip.upholds_makeActive (c : Chip) (n t : Nat) : c.Upholds (c.makeActive n t) := (c.upholds_showActive n).beside rfl rfl

theorem Chip.upholds_coast (c : Chip) : c.Upholds c.coast :=
  Chip.upholds_ite (Chip.Upholds.refl c) (((Chip.Upholds.refl c).set (by decide +kernel)).beside rfl rfl)

theorem Chip.upholds_abandon (c : Chip) (t : Nat) : c.Upholds (c.abandon t) := by
  have hafresh : c.Upholds (c.coast.followAfresh (fun i => i == c.activeSource)) := c.upholds_coast.beside rfl rfl
  exact Chip.upholds_ite (hafresh.trans (Chip.upholds_makeActive _ _ _)) (hafresh.trans (Chip.upholds_showActive _ _))

theorem Chip.upholds_serveSources (c : Chip) : c.Upholds c.serveSources := by
  unfold Chip.serveSources
  have hafresh : c.Upholds (c.followAfresh (fun i => !c.healthy i)) := Chip.upholds_of_regs rfl rfl
  split
  · exact Chip.Upholds.refl c
  · refine hafresh.trans (Chip.upholds_ite ?_ ?_)
    · exact Chip.upholds_ite (Chip.upholds_makeActive _ _ _)
        (Chip.upholds_ite (Chip.upholds_makeActive _ _ _) (Chip.Upholds.refl _))
    · split
      · exact Chip.upholds_abandon _ _
      · exact Chip.Upholds.refl _

theorem Chip.upholds_serveSpreq (c : Chip) : c.Upholds c.serveSpreq := by
  have hcause : c.Upholds (c.set F.TRK_SPREQ_STAT_CAUSE c.spreqCauses) := (Chip.Upholds.refl c).set (by decide +kernel)
  exact Chip.upholds_ite (Chip.Upholds.refl c)
    (Chip.upholds_ite ((hcause.set (by decide +kernel)).beside rfl rfl)
      (Chip.upholds_ite (hcause.beside rfl rfl) hcause))

theorem Chip.upholds_serveTrk (c : Chip) : c.Upholds c.serveTrk := c.upholds_serveSources.trans (Chip.upholds_serveSpreq _)

/-! ### Lasting activity is noted (R550, R551, R555) -/

theorem Chip.upholds_enter (c : Chip) (k : Fin 8) (st : Nat) : c.Upholds (c.enter k st) :=
  (Chip.upholds_of_regs rfl rfl : c.Upholds (c.setHp k { c.port k with stateAt := c.now })).set (hpStat_not_upheld k)

theorem Chip.upholds_startUp (c : Chip) (k : Fin 8) : c.Upholds (c.startUp k) := by
  have hpower : c.Upholds
      ((c.setHp k { c.port k with tries := 0, coldHold := false, pgoodAt := c.now }).set F.HP_STAT_EN_OUT 1 k) :=
    (Chip.upholds_of_regs rfl rfl : c.Upholds (c.setHp k _)).set (hpStat_not_upheld k)
  exact Chip.upholds_ite
    (Chip.upholds_ite (Chip.upholds_of_regs rfl rfl) (hpower.trans (Chip.upholds_enter _ k 1)))
    (Chip.Upholds.refl c)

theorem Chip.upholds_lpAsk (c : Chip) (r : Nat) : c.Upholds (c.lpAsk r) := by
  unfold Chip.lpAsk
  refine Chip.upholds_foldl (fun d p => ?_) _ c
  exact Chip.upholds_of_regs rfl rfl

theorem Chip.upholds_voterResumes (c : Chip) (v : Nat) : c.Upholds (c.voterResumes v) := by
  unfold Chip.voterResumes
  extract_lets _ d
  have hd : c.Upholds d := (Chip.Upholds.refl c).setPwr
  split
  · split
    · exact hd.setPwr.trans (Chip.upholds_startUp _ _)
    · exact hd
  · split
    · exact hd.trans (Chip.upholds_lpAsk _ 0)
    · exact hd

theorem Chip.upholds_pwrLast (c : Chip) (r v n t : Nat) : c.Upholds (c.pwrLast r v n t) := by
  unfold Chip.pwrLast
  exact ((((Chip.Upholds.refl c).set (by decide +kernel)).set (by decide +kernel)).set (by decide +kernel)).set (by decide +kernel)

theorem Chip.upholds_entryEnds (c : Chip) : c.Upholds c.entryEnds := by
  have hphase : c.Upholds (((c.set F.PWR_STAT_PHASE 0).set F.PWR_STAT_VOTER 0).set F.PWR_STAT_TARGET 0) :=
    (((Chip.Upholds.refl c).set (by decide +kernel)).set (by decide +kernel)).set (by decide +kernel)
  exact hphase.beside rfl rfl

theorem Chip.upholds_unwind (c : Chip) (r v n : Nat) : c.Upholds (c.unwind r v n) := by
  unfold Chip.unwind
  extract_lets asked target d e
  have hd : c.Upholds d := Chip.upholds_foldl Chip.upholds_voterResumes _ c
  have hlast := (hd.trans (Chip.upholds_entryEnds d)).trans (Chip.upholds_pwrLast _ r v n target)
  have he : c.Upholds e := hlast.addSat (by decide +kernel)
  exact he.emit

theorem Chip.upholds_latchWake (c : Chip) (src : Nat) : c.Upholds (c.latchWake src) := by
  unfold Chip.latchWake
  extract_lets st ph same _ d _
  have hd : c.Upholds d := ((Chip.Upholds.refl c).orBits (by decide +kernel)).setPwr
  split
  · exact Chip.Upholds.refl c
  · split
    · exact hd
    · split
      · split
        · exact hd.trans (Chip.upholds_unwind d _ _ _)
        · exact hd.setPwr
      · split
        · exact hd
        · split
          · exact hd.setPwr
          · split
            · exact hd.setPwr
            · exact hd

theorem Chip.upholds_activity (c : Chip) : c.Upholds c.activity := by
  have hnoted : c.Upholds (c.setPwr { c.pwr with activeAt := c.now }) := Chip.upholds_of_regs rfl rfl
  exact Chip.upholds_ite (hnoted.trans (Chip.upholds_latchWake _ 7)) hnoted

theorem Chip.upholds_noteWork (b c : Chip) : c.Upholds (b.noteWork c) :=
  Chip.upholds_ite (Chip.upholds_activity c) (Chip.Upholds.refl c)

/-! ### A CAL_RUN of the host completes (R481) -/

theorem Chip.upholds_completeOne (c : Chip) (q st r0 r1 : Nat) : c.Upholds (c.completeOne q st r0 r1) := by
  unfold Chip.completeOne
  split
  · exact Chip.Upholds.refl c
  · exact Chip.upholds_of_regs rfl rfl

theorem Chip.upholds_skipUnknown (q n : Nat) (c : Chip) : c.Upholds (skipUnknown q n c) := by
  induction n generalizing c with
  | zero => exact Chip.Upholds.refl c
  | succ n ih =>
    unfold skipUnknown
    split
    · exact Chip.upholds_ite (Chip.Upholds.refl c) ((c.upholds_completeOne q 1 0 0).trans (ih _))
    · exact Chip.Upholds.refl c

theorem Chip.upholds_calRunEnds (c : Chip) : c.Upholds c.calRunEnds := by
  unfold Chip.calRunEnds
  split
  · refine Chip.upholds_ite (Chip.Upholds.refl c) ?_
    have hdone : c.Upholds (c.setFw { c.fw with calCmd := none }) := Chip.upholds_of_regs rfl rfl
    exact (hdone.trans (Chip.upholds_completeOne _ _ _ _ _)).trans (Chip.upholds_skipUnknown _ _ _)
  · exact Chip.Upholds.refl c

/-- What follows a write of software. -/
theorem afterWrite_upholds (a : Nat) (x y : Chip × Store) : y.1.Upholds (afterWrite a x y).1 := by
  unfold afterWrite
  split
  · exact Chip.upholds_noteWork _ _
  · split
    · exact Chip.upholds_calRunEnds _
    · exact Chip.Upholds.refl _

/-! ### Event sources, the lanes and commands of a head, DDR -/

theorem Chip.upholds_raiseSource (c : Chip) {n : Nat} (h : n < 256) : c.Upholds (c.raiseSource n) := by
  have hpend : ∀ k : Fin 8, upheld (F.EVC_PEND_PEND.at k 0) = false := by decide +kernel
  exact ((Chip.Upholds.refl c).orBits (hpend ⟨n / 32, by omega⟩)).beside rfl rfl

theorem Chip.upholds_forceLanes (c : Chip) (k : Fin 8) : c.Upholds (c.forceLanes k) :=
  Chip.upholds_ite ((Chip.Upholds.refl c).set (hpStat_not_upheld k)) (Chip.Upholds.refl c)

theorem Chip.upholds_hpServe (c : Chip) (k : Fin 8) : c.Upholds (c.hpServe k) := by
  unfold Chip.hpServe
  dsimp only
  split
  · exact Chip.Upholds.refl c
  · exact Chip.upholds_ite (Chip.upholds_of_regs rfl rfl) (Chip.Upholds.refl c)

theorem Chip.upholds_command (c : Chip) (k : Fin 8) (l : List HeadCmd) : c.Upholds (c.command k l) :=
  (Chip.upholds_of_regs rfl rfl : c.Upholds (c.setHp k _)).trans (Chip.upholds_hpServe _ k)

/-- Enabling DDR shows the size of its configuration in DDR_STAT (R513). -/
theorem Chip.upholds_ddrEnable (c : Chip) : c.Upholds c.ddrEnable := (Chip.Upholds.refl c).set (by decide +kernel)

end Sys2Proof.Machine
end

section
/-!
PROOFS about the write of a register without effects of its own: what it leaves in each field, and what it counts.
-/

namespace Sys2Proof.Machine

section Plain

variable {c d e : Chip} {a w k : Nat} {r : RegDef} {f : FieldDef} {q : Place}

/-- The word that a plain write stores. -/
def Chip.plainWord (c : Chip) (a : Nat) (r : RegDef) (w : Nat) : Nat :=
  (r.fields.foldl (fun (s : FieldWrite) (f : FieldDef) => c.storeField a w s f) ⟨(c.word a).toNat, false, false⟩).word

/-- A plain write stores its word, and is counted where a field ignores it; a shadowed field may wait for its next copy. -/
theorem plain_cases (c : Chip) (a : Nat) (r : RegDef) (w : Nat) :
    ∃ e, (c.setWord a (BitVec.ofNat 32 (c.plainWord a r w))).Upholds e ∧
      c.plain a r w = if r.fields.any (c.ignoresField a w) then e.reject a else e := by
  simp only [Chip.plain, foldl_storeField_ignored, Bool.false_or]
  exact ⟨_, Chip.upholds_ite (Chip.upholds_shadowWritten _ a) (Chip.Upholds.refl _), rfl⟩

/-- A plain write that no field ignores, in a block without copies to wait for, stores its word and does nothing else. -/
theorem plain_of_taken (hb : blockOf a ≠ 0x0A ∧ blockOf a ≠ 0x0B ∧ blockOf a ≠ 0x0C)
    (hno : r.fields.any (c.ignoresField a w) = false) :
    c.plain a r w = c.setWord a (BitVec.ofNat 32 (c.plainWord a r w)) := by
  obtain ⟨hA, hB, hC⟩ := hb
  have hs : ∀ e : Chip, e.shadowWritten a = e := fun e => by simp [Chip.shadowWritten, hA, hB, hC]
  simp only [Chip.plain, foldl_storeField_ignored, Bool.false_or, hno, hs, ite_self, Bool.false_eq_true, if_false]
  rfl

/-- Each field of the word that a plain write stores. -/
theorem plainWord_field (hr : regAt a = some r) (hf : f ∈ r.fields) :
    bitsOf (BitVec.ofNat 32 (c.plainWord a r w)).toNat f.hi f.lo =
      c.fieldAfter a w f (bitsOf (c.word a).toNat f.hi f.lo) := by
  obtain ⟨hfit, hap⟩ := regAt_fields_sound hr
  have hlt : c.plainWord a r w < 2 ^ 32 := foldl_storeField_lt hfit (BitVec.isLt _)
  rw [BitVec.toNat_ofNat, Nat.mod_eq_of_lt hlt, Chip.plainWord, foldl_storeField_bits hap hfit hf]

/-! ### Counting an ignored write -/

theorem satNat_eq_min (b n : Nat) : satNat b n = min n (2 ^ b - 1) := by
  have := Nat.two_pow_pos b
  unfold satNat
  split <;> omega

theorem satNat_lt (b n : Nat) : satNat b n < 2 ^ b := by
  have := Nat.two_pow_pos b
  rw [satNat_eq_min]
  omega

/-- Counting twice from n goes past n + 1, or the counter has stopped. -/
theorem satNat_twice (b n : Nat) (h : ¬ n + 1 < satNat b (satNat b (n + 1) + 1)) :
    satNat b (satNat b (n + 1) + 1) = satNat b (n + 1) := by
  simp only [satNat_eq_min] at h ⊢
  omega

theorem securedReg_block (ha : securedReg a = true) : blockOf a < 32 := by
  cases hr : regAt a with
  | none => simp [securedReg, hr] at ha
  | some r => exact (regAt_mem hr).1

/-- A counter of ignored writes is not the secured register. -/
theorem rejectCounter_ne (ha : securedReg a = true) (hq : rejectCounter a = some (q, k)) : q.at k 0 ≠ a := by
  obtain ⟨-, -, -, hsec⟩ := rejectCounter_spec (securedReg_block ha) hq
  rintro rfl
  simp [ha] at hsec

/-- Counting an ignored write leaves a secured register alone. -/
theorem reject_word_secured (ha : securedReg a = true) : (c.reject a).word a = c.word a := by
  cases hq : rejectCounter a with
  | none => rw [reject_of_none hq]
  | some q =>
    rw [reject_of_counter hq]
    exact Chip.word_set_other _ _ _ _ _ (rejectCounter_ne ha hq).symm

theorem reject_answer : (c.reject a).answer = c.answer := by
  cases hq : rejectCounter a with
  | none => rw [reject_of_none hq]
  | some q => rw [reject_of_counter hq]; rfl

/-- The counter stops at its greatest value. -/
theorem reject_counter (ha : blockOf a < 32) (hq : rejectCounter a = some (q, k)) :
    (c.reject a).get q k = satNat (q.hi + 1 - q.lo) (c.get q k + 1) := by
  obtain ⟨hlo, hhi, -, -⟩ := rejectCounter_spec ha hq
  rw [reject_of_counter hq, Chip.addSat, Chip.get_set_same _ _ _ _ _ hlo hhi]
  exact Nat.mod_eq_of_lt (satNat_lt _ _)

/-- A secured register holds the word that a plain write stores. -/
theorem plain_word_secured (ha : securedReg a = true) : (c.plain a r w).word a = BitVec.ofNat 32 (c.plainWord a r w) := by
  obtain ⟨e, he, hplain⟩ := plain_cases c a r w
  rw [hplain]
  have hword := he.2 a (upheld_of_secured ha)
  rw [Chip.word_setWord_same] at hword
  split
  · rw [reject_word_secured ha, hword]
  · exact hword

/-! ### A write that a field of the register ignores (R13) -/

/-- From c to d a write of the register at a is done and counted once, and field f of it stays. -/
def Chip.Ignored (c : Chip) (a : Nat) (f : FieldDef) (d : Chip) : Prop :=
  d.answer = c.answer ∧ bitsOf (d.word a).toNat f.hi f.lo = bitsOf (c.word a).toNat f.hi f.lo ∧
    ∀ q k, rejectCounter a = some (q, k) → d.get q k = satNat (q.hi + 1 - q.lo) (c.get q k + 1)

/-- What leaves secured registers and counters alone may follow. -/
theorem Chip.Ignored.upholds (ha : securedReg a = true) (h : c.Ignored a f d) (hde : d.Upholds e) : c.Ignored a f e := by
  obtain ⟨hans, hbits, hcount⟩ := h
  refine ⟨hde.1.trans hans, by rw [hde.2 a (upheld_of_secured ha), hbits], fun q k hq => ?_⟩
  obtain ⟨-, -, hself, -⟩ := rejectCounter_spec (securedReg_block ha) hq
  rw [hde.get (by simp [upheld, hself]), hcount q k hq]

theorem reject_ignored (ha : securedReg a = true) : c.Ignored a f (c.reject a) :=
  ⟨reject_answer, by rw [reject_word_secured ha], fun _ _ hq => reject_counter (securedReg_block ha) hq⟩

/-- Field f of register r at a is under a lock that is set, or under XPERT_EN while it is 0. -/
structure Chip.Protects (c : Chip) (a : Nat) (r : RegDef) (f : FieldDef) : Prop where
  reg : regAt a = some r
  mem : f ∈ r.fields
  shut : f.acc = .rwl ∧ c.lockedBlock a = true ∨ f.acc = .rwx ∧ c.xpert a = false

theorem Chip.Protects.secured (h : c.Protects a r f) : securedReg a = true := by
  refine securedReg_of_mem h.reg h.mem ?_
  rcases h.shut with ⟨hacc, -⟩ | ⟨hacc, -⟩ <;> simp [FieldDef.secured, hacc]

/-- No field that a feature enables lies in a secured register (R4). -/
theorem featureless_of_secured (ha : securedReg a = true) : c.featureless a f = false := by
  have hstby : ∀ n : Fin 32, securedReg (R.COL_STBY.addr + n) = false := by decide +kernel
  have htrk : a ≠ R.TRK_CTRL.addr := by rintro rfl; exact absurd ha (by decide +kernel)
  have htko : a ≠ R.TKO_STBY.addr := by rintro rfl; exact absurd ha (by decide +kernel)
  have hcol : ¬ (R.COL_STBY.addr ≤ a ∧ a < R.COL_STBY.addr + 32) := by
    rintro ⟨hlo, hhi⟩
    have := hstby ⟨a - R.COL_STBY.addr, by omega⟩
    rw [Nat.add_sub_cancel' hlo, ha] at this
    cases this
  have hcol' : (R.COL_STBY.addr ≤ a && a < R.COL_STBY.addr + 32) = false := by simpa using hcol
  simp only [Chip.featureless, beq_eq_false_iff_ne.mpr htrk, beq_eq_false_iff_ne.mpr htko, hcol', Bool.false_and, Bool.false_or]

/-- A plain write leaves a protected field, and is counted once. -/
theorem plain_ignored (h : c.Protects a r f) (w : Nat) : c.Ignored a f (c.plain a r w) := by
  have ha := h.secured
  have hbars : c.barsField a w f = true := by
    rcases h.shut with ⟨hacc, hs⟩ | ⟨hacc, hs⟩ <;> simp [Chip.barsField, hacc, hs]
  have hign : c.ignoresField a w f = true := by
    rcases h.shut with ⟨hacc, -⟩ | ⟨hacc, -⟩ <;> simp [Chip.ignoresField, hacc, hbars, featureless_of_secured ha]
  have hkept : ∀ n, c.fieldAfter a w f n = n := fun n => by
    rcases h.shut with ⟨hacc, -⟩ | ⟨hacc, -⟩ <;> simp [Chip.fieldAfter, hacc, hbars]
  obtain ⟨e, he, hplain⟩ := plain_cases c a r w
  rw [hplain, if_pos (List.any_eq_true.mpr ⟨f, h.mem, hign⟩)]
  refine ⟨reject_answer.trans he.1, ?_, fun q k hq => ?_⟩
  · rw [reject_word_secured ha, he.2 a (upheld_of_secured ha), Chip.word_setWord_same, plainWord_field h.reg h.mem, hkept]
  · obtain ⟨-, -, hself, -⟩ := rejectCounter_spec (securedReg_block ha) hq
    rw [reject_counter (securedReg_block ha) hq, he.get (by simp [upheld, hself])]
    simp only [Chip.get, Chip.word_setWord_other c (rejectCounter_ne ha hq)]

theorem plainUnless_ignored (h : c.Protects a r f) (b : Bool) (w : Nat) : c.Ignored a f (c.plainUnless b a r w) := by
  unfold Chip.plainUnless
  split
  · exact reject_ignored h.secured
  · exact plain_ignored h w

end Plain

end Sys2Proof.Machine
end

section
/-!
PROOFS that a write which a protected field ignores is done and counted once, whatever block the register is in (R12, R13).
-/

namespace Sys2Proof.Machine

/-! ### Where the registers with protected fields stand -/

/-- A register with a field under LOCK or XPERT_EN. -/
def RegDef.guarded (r : RegDef) : Bool := r.fields.any (fun f => f.acc == .rwl || f.acc == .rwx)

/-- The offsets of a block's registers with protected fields. -/
def guardedOffsets (id : Nat) : List Nat := ((blockRegs id).filter RegDef.guarded).map RegDef.off

theorem index_le {r : RegDef} {off : Nat} (h : (r.index off).isSome = true) : r.off ≤ off := by
  unfold RegDef.index at h
  split at h
  · simp at h
  · omega

theorem findReg_index {off : Nat} {r : RegDef} {l : List RegDef} (h : findReg off l = some r) : (r.index off).isSome = true := by
  induction l with
  | nil => simp [findReg] at h
  | cons e l ih =>
    unfold findReg at h
    split at h
    · cases h; assumption
    · exact ih h

section Blocks

variable {c d e : Chip} {m : Store} {i : Initiator} {a n j k w : Nat} {v : Word} {errs : List DdrError} {ues : List Nat} {r : RegDef}
  {f : FieldDef} {p q : Place} {id : Nat}

theorem Chip.Protects.offset (h : c.Protects a r f) : r.off ∈ guardedOffsets (blockOf a) := by
  refine List.mem_map_of_mem (List.mem_filter.mpr ⟨(regAt_mem h.reg).2, List.any_eq_true.mpr ⟨f, h.mem, ?_⟩⟩)
  rcases h.shut with ⟨hacc, -⟩ | ⟨hacc, -⟩ <;> simp [hacc]

theorem Chip.Protects.off_le (h : c.Protects a r f) : r.off ≤ a % 0x10000 := by
  have hr := h.reg
  unfold regAt at hr
  split at hr
  · cases hr
  · exact index_le (findReg_index hr)

/-- A register with a protected field is none that stands elsewhere in its block. -/
theorem Chip.Protects.is_false (h : c.Protects a r f) (hb : blockOf a = id) (hp : p.addr % 0x10000 ∉ guardedOffsets id) :
    r.is p = false := by
  have hoff := h.offset
  rw [hb] at hoff
  simp only [RegDef.is, beq_eq_false_iff_ne]
  exact fun he => hp (he ▸ hoff)

/-! ### The blocks where more than a plain write may follow -/

/-- EVC_XTEST raises the source that it names, ignored or not. -/
theorem writeEvc_ignored (h : c.Protects a r f) (hb : blockOf a = 0x04) : c.Ignored a f (Chip.writeEvc i a r n w c) := by
  simp (disch := decide +kernel) only [Chip.writeEvc, h.is_false hb, Bool.false_eq_true, Bool.or_self, if_false]
  have hplain := plain_ignored h w
  split
  · split
    · exact hplain.upholds h.secured (Chip.upholds_raiseSource _ (Chip.get_lt _ F.EVC_XTEST_SRC 0 0))
    · exact hplain
  · exact hplain

/-- DMA's protected register stands behind the channel window. -/
theorem writeDma_ignored (h : c.Protects a r f) (hb : blockOf a = 0x05) {same : Bool} :
    c.Ignored a f (writeDma i a r w same errs ues (c, m)).1 := by
  have hoff := h.offset
  rw [hb, show guardedOffsets 0x05 = [0x400] by decide +kernel, List.mem_singleton] at hoff
  have hwin : ¬ (0x100 ≤ a % 0x10000 ∧ a % 0x10000 < 0x400) := by have := h.off_le; omega
  simp (disch := decide +kernel) only [writeDma, h.is_false hb, Bool.false_eq_true, if_false, if_neg hwin]
  exact plain_ignored h _

/-- TRK looks at its sources again after a write of TRK_FAB_TIME. -/
theorem writeTrk_ignored (h : c.Protects a r f) (hb : blockOf a = 0x0A) : c.Ignored a f (Chip.writeTrk a r w c) := by
  simp (disch := decide +kernel) only [Chip.writeTrk, h.is_false hb, Bool.false_eq_true, Bool.false_or, if_false]
  split
  · exact (plain_ignored h _).upholds h.secured (Chip.upholds_serveTrk _)
  · exact plain_ignored h _

/-- No register of FLW has a lock. -/
theorem Chip.Protects.flw_xpert (h : c.Protects a r f) (hb : blockOf a = 0x0D) : c.xpert a = false := by
  rcases h.shut with ⟨-, hlock⟩ | ⟨-, hx⟩
  · simp [Chip.lockedBlock, hb] at hlock
  · exact hx

/-- FLW takes no word of a shape without XPERT_EN, and none of a shadowed register while a commit is pending. -/
theorem writeFlw_ignored (h : c.Protects a r f) (hb : blockOf a = 0x0D) : c.Ignored a f (Chip.writeFlw a r n j w c) := by
  simp (disch := decide +kernel) only [Chip.writeFlw, h.is_false hb, h.flw_xpert hb, Bool.not_false, Bool.true_or,
    Bool.false_eq_true, Bool.or_self, if_false, if_true]
  split
  · exact reject_ignored h.secured
  · split
    · exact plainUnless_ignored h _ _
    · exact plain_ignored h _

/-- The slot bases are ignored while STR checks or switches, too. -/
theorem writeStr_ignored (h : c.Protects a r f) (hb : blockOf a = 0x0F) : c.Ignored a f (writeStr a r w errs (c, m)).1 := by
  simp (disch := decide +kernel) only [writeStr, h.is_false hb, Bool.false_eq_true, if_false]
  split
  · exact plainUnless_ignored h _ _
  · exact plain_ignored h _

/-- A write of SEC_WDOG_CFG may start the watchdog's period anew. -/
theorem writeSec_ignored (h : c.Protects a r f) (hb : blockOf a = 0x1B) : c.Ignored a f (writeSec a r w (c, m)).1 := by
  simp (disch := decide +kernel) only [writeSec, h.is_false hb, Bool.false_eq_true, if_false]
  have hplain := plain_ignored h w
  split
  · exact hplain.upholds h.secured (Chip.upholds_ite (Chip.upholds_of_regs rfl rfl) (Chip.Upholds.refl _))
  · exact hplain

/-- DDR_CFG is ignored while DDR is enabled, too. -/
theorem writeDdr_ignored (h : c.Protects a r f) (hb : blockOf a = 0x1E) : c.Ignored a f (Chip.writeDdr a r w c) := by
  simp (disch := decide +kernel) only [Chip.writeDdr, h.is_false hb, Bool.false_eq_true, if_false]
  split
  · exact plainUnless_ignored h _ _
  · exact plain_ignored h _

/-! ### The head ports: a write of HPk_XCMD is counted once, whatever in it is ignored -/

/-- The expert command of a write of HPk_XCMD is refused and counted, or leaves for the head. -/
theorem xcmd_cases (c : Chip) (k : Fin 8) : c.xcmd k = c.addSat F.HP_REJ_CNT_COUNT 1 k ∨ c.Upholds (c.xcmd k) := by
  have hrsp : ∀ k : Fin 8, upheld (R.HP_XRSP.at k 0) = false := by decide +kernel
  unfold Chip.xcmd
  extract_lets opc p busy d
  have hd : c.Upholds d := (Chip.upholds_of_regs rfl rfl : c.Upholds (c.setHp k _)).setWord (hrsp k)
  split
  · exact .inl rfl
  · exact .inr (hd.trans (Chip.upholds_command d k _))

/-- A write that was ignored and counted, then counted again, is held to one count; one that was not counted again is as it was. -/
theorem Chip.Ignored.held_once (ha : securedReg a = true) (hq : rejectCounter a = some (q, k)) (h : c.Ignored a f d)
    (he : e = d.reject a ∨ d.Upholds e) :
    c.Ignored a f (if c.get q k + 1 < e.get q k then e.set q (c.get q k + 1) k else e) := by
  have hblk := securedReg_block ha
  obtain ⟨hlo, hhi, -, -⟩ := rejectCounter_spec hblk hq
  rcases he with hcounted | hleaves
  · obtain ⟨hans, hbits, hcount⟩ := h
    have hget : e.get q k = satNat (q.hi + 1 - q.lo) (satNat (q.hi + 1 - q.lo) (c.get q k + 1) + 1) := by
      rw [hcounted, reject_counter hblk hq, hcount _ _ hq]
    have hword : e.word a = d.word a := by rw [hcounted, reject_word_secured ha]
    have hans' : e.answer = c.answer := by rw [hcounted, reject_answer, hans]
    split
    · rename_i hlt
      rw [hget] at hlt
      have hfits := hlt.trans (satNat_lt _ _)
      refine ⟨hans', ?_, fun q' k' hq' => ?_⟩
      · rw [Chip.word_set_other _ _ _ _ _ (rejectCounter_ne ha hq).symm, hword, hbits]
      · obtain ⟨rfl, rfl⟩ : q = q' ∧ k = k' := by simpa [hq] using hq'
        rw [Chip.get_set_same _ _ _ _ _ hlo hhi, Nat.mod_eq_of_lt hfits, satNat, if_pos hfits]
    · rename_i hge
      refine ⟨hans', by rw [hword, hbits], fun q' k' hq' => ?_⟩
      obtain ⟨rfl, rfl⟩ : q = q' ∧ k = k' := by simpa [hq] using hq'
      rw [hget] at hge ⊢
      exact satNat_twice _ _ hge
  · have hd := h.upholds ha hleaves
    rw [if_neg (by rw [hd.2.2 _ _ hq]; rw [satNat_eq_min]; omega)]
    exact hd

theorem writeHp_ignored (h : c.Protects a r f) (w : Nat) (hlo : 0x10 ≤ blockOf a) (hhi : blockOf a < 0x18) :
    c.Ignored a f (Chip.writeHp a r w c) := by
  have hk : (Fin.ofNat 8 (blockOf a - 0x10)).val = blockOf a - 0x10 := Nat.mod_eq_of_lt (by omega)
  have hq : rejectCounter a = some (F.HP_REJ_CNT_COUNT, (Fin.ofNat 8 (blockOf a - 0x10)).val) := by
    rw [hk]; exact if_pos ⟨hlo, hhi⟩
  have hoff : guardedOffsets (blockOf a) = guardedOffsets 0x10 := by
    unfold guardedOffsets
    have : ∀ n : Fin 8, blockRegs (0x10 + n) = blockRegs 0x10 := by decide +kernel
    rw [← this ⟨blockOf a - 0x10, by omega⟩, Nat.add_sub_cancel' hlo]
  have his : ∀ {p : Place}, p.addr % 0x10000 ∉ guardedOffsets 0x10 → r.is p = false := fun hp => h.is_false rfl (hoff ▸ hp)
  have hplain := plain_ignored h w
  simp (disch := decide +kernel) only [Chip.writeHp, his, Bool.false_eq_true, Bool.or_self, if_false]
  split
  · split
    · refine hplain.held_once h.secured hq ((xcmd_cases _ _).imp_left fun hr => ?_)
      rw [hr, reject_of_counter hq]
    · exact hplain
  · split
    · exact hplain.upholds h.secured (Chip.upholds_forceLanes _ _)
    · exact hplain

/-- The blocks whose registers with protected fields are written plainly: SYS, PWR, OTP, EVR, MEM, THM, LDL, POS, CMP, COL, NZH, FAB,
HST, CAL, MBX, PAD and TKO. -/
def plainBlocks : List Nat :=
  [0x00, 0x01, 0x02, 0x03, 0x06, 0x07, 0x08, 0x09, 0x0B, 0x0C, 0x0E, 0x18, 0x19, 0x1A, 0x1C, 0x1D, 0x1F]

/-- A write that a protected field ignores leaves the field, is done and is counted once: in every other block the registers with
protected fields are written plainly. -/
theorem writeReg_ignored (h : c.Protects a r f) {same : Bool} :
    c.Ignored a f (writeReg i a r n j v same errs ues (c, m)).1 := by
  have hlt := (regAt_mem h.reg).1
  have hblock : blockOf a = 0x04 ∨ blockOf a = 0x05 ∨ blockOf a = 0x0A ∨ blockOf a = 0x0D ∨ blockOf a = 0x0F ∨ blockOf a = 0x1B ∨
      blockOf a = 0x1E ∨ (0x10 ≤ blockOf a ∧ blockOf a < 0x18) ∨ blockOf a ∈ plainBlocks := by
    simp only [plainBlocks, List.mem_cons, List.not_mem_nil, or_false]
    omega
  rcases hblock with hb | hb | hb | hb | hb | hb | hb | ⟨hlo, hhi⟩ | hplain
  · simp only [writeReg, hb]; exact writeEvc_ignored h hb
  · simp only [writeReg, hb]; exact writeDma_ignored h hb
  · simp only [writeReg, hb]; exact writeTrk_ignored h hb
  · simp only [writeReg, hb]; exact writeFlw_ignored h hb
  · simp only [writeReg, hb]; exact writeStr_ignored h hb
  · simp only [writeReg, hb]; exact writeSec_ignored h hb
  · simp only [writeReg, hb]; exact writeDdr_ignored h hb
  · have hhp := writeHp_ignored h v.toNat hlo hhi
    interval_cases hb : blockOf a
    all_goals
      simp only [writeReg, hb]
      exact hhp
  · simp only [plainBlocks, List.mem_cons, List.not_mem_nil, or_false] at hplain
    rcases hplain with hb | hb | hb | hb | hb | hb | hb | hb | hb | hb | hb | hb | hb | hb | hb | hb | hb
    all_goals
      simp only [writeReg, hb]
      simp (disch := decide +kernel) only [writeSys, writePwr, Chip.writeOtp, Chip.writeEvr, Chip.writeMem, Chip.writeThm,
        Chip.writeLdl, Chip.writePos, writeCmp, Chip.writeCol, Chip.writeNzh, Chip.writeFab, Chip.writeHst, Chip.writeCal,
        Chip.writeMbx, Chip.writePad, Chip.writeTko, h.is_false hb, Bool.false_eq_true, Bool.or_self, if_false]
      exact plain_ignored h _

end Blocks

end Sys2Proof.Machine
end

section
/-!
PROOFS about the lock bits of STR, SEC and DDR, and the settling of the statement on locked and expert fields (R12, R13).
-/

namespace Sys2Proof.Machine

/-! ### What a plain write gives a field (R10) -/

section Fields

variable {c : Chip} {a w i j mn mx : Nat} {sh : Bool} {r : RegDef} {p : Place}

/-- A W1S field keeps its ones and gains those of the word. -/
theorem plain_get_w1s (hr : regAt (p.at i j) = some r) (hf : ⟨p.hi, p.lo, .w1s, mn, mx, sh⟩ ∈ r.fields) :
    (c.plain (p.at i j) r w).get p i j = c.get p i j ||| fld p w := by
  have ha : securedReg (p.at i j) = true := securedReg_of_mem hr hf (by rfl)
  rw [Chip.get, plain_word_secured ha, plainWord_field hr hf]
  rfl

/-- A field that nothing bars takes its bits of the word. -/
theorem plain_get_rw (ha : securedReg (p.at i j) = true) (hr : regAt (p.at i j) = some r)
    (hf : ⟨p.hi, p.lo, .rw, mn, mx, sh⟩ ∈ r.fields) (hbar : c.barsField (p.at i j) w ⟨p.hi, p.lo, .rw, mn, mx, sh⟩ = false) :
    (c.plain (p.at i j) r w).get p i j = fld p w := by
  rw [Chip.get, plain_word_secured ha, plainWord_field hr hf]
  simp [Chip.fieldAfter, featureless_of_secured ha, hbar, fld]

/-- No run and no switch bars an RW field of any value. -/
theorem barsField_free (hcal : c.calBusy = false) (hsw : c.switchState = 0) (hi lo : Nat) :
    c.barsField a w (fd hi lo .rw) = false := by
  have hlt := bitsOf_lt w hi lo
  have hheld : c.calHolds a = 0 := by simp [Chip.calHolds, hcal]
  have hnone : bitsOf 0 hi lo = 0 := by simp [bitsOf]
  have hmax : ¬ 2 ^ (hi + 1 - lo) - 1 < bitsOf w hi lo := not_lt.mpr (Nat.le_pred_of_lt hlt)
  simp [Chip.barsField, fd, Chip.frozen, hsw, hheld, hnone, hmax]

end Fields

/-! ### The control registers that hold a lock -/

/-- STR_CTRL, SEC_CTRL and DDR_CTRL in the register map. -/
def strCtrl : RegDef := ⟨0x000, 0, 1, 0, 1, 0x0, [fd 1 1 .w1s, fd 0 0 .rw]⟩
def secCtrl : RegDef := ⟨0x000, 0, 1, 0, 1, 0x0, [fd 1 1 .w1s, fd 0 0 .rw]⟩
def ddrCtrl : RegDef := ⟨0x000, 0, 1, 0, 1, 0x0, [fd 2 2 .w1s, fd 1 1 .rw, fd 0 0 .rw]⟩

/-- The register at a holds the lock bit of its block, and what its write sets off leaves secured registers alone. -/
structure HoldsLock (a : Nat) (r : RegDef) (p : Place) : Prop where
  addr : p.at 0 0 = a
  reg : regAt a = some r
  index : regWhere a = some (r, 0, 0)
  ordinary : ordinary a = true
  noWork : worksIn a = false
  bit : fd p.hi p.lo .w1s ∈ r.fields
  bitZero : fd 0 0 .rw ∈ r.fields
  oneBit : p.lo = p.hi
  aboveZero : 0 < p.lo
  fits : p.hi < 32
  free : r.fields.all (fun f => f == fd f.hi f.lo .w1s || f == fd f.hi f.lo .rw) = true
  uncopied : blockOf a ≠ 0x0A ∧ blockOf a ≠ 0x0B ∧ blockOf a ≠ 0x0C
  lock : ∀ c : Chip, c.lockedBlock a = c.on p
  write : ∀ (c : Chip) (m : Store) (i : Initiator) (w : Word),
    (c.plain a r w.toNat).Upholds (writeReg i a r 0 0 w false [] [] (c, m)).1

theorem writeReg_strCtrl (i : Initiator) (c : Chip) (m : Store) (w : Word) :
    writeReg i R.STR_CTRL.addr strCtrl 0 0 w false [] [] (c, m) = (c.plain R.STR_CTRL.addr strCtrl w.toNat, m) := by
  have hb : blockOf R.STR_CTRL.addr = 0x0F := rfl
  simp only [writeReg, hb]
  rfl

theorem strCtrl_holdsLock : HoldsLock R.STR_CTRL.addr strCtrl F.STR_CTRL_LOCK where
  addr := rfl
  reg := by decide +kernel
  index := by decide +kernel
  ordinary := by decide +kernel
  noWork := by decide +kernel
  bit := by decide +kernel
  bitZero := by decide +kernel
  oneBit := rfl
  aboveZero := by decide
  fits := by decide
  free := by decide +kernel
  uncopied := by decide +kernel
  lock c := by simp only [Chip.lockedBlock, show blockOf R.STR_CTRL.addr = 0x0F from rfl]
  write c m i w := by rw [writeReg_strCtrl]; exact Chip.Upholds.refl _

theorem writeReg_secCtrl (i : Initiator) (c : Chip) (m : Store) (w : Word) :
    writeReg i R.SEC_CTRL.addr secCtrl 0 0 w false [] [] (c, m) = (c.plain R.SEC_CTRL.addr secCtrl w.toNat, m) := by
  have hb : blockOf R.SEC_CTRL.addr = 0x1B := rfl
  simp only [writeReg, hb]
  rfl

theorem secCtrl_holdsLock : HoldsLock R.SEC_CTRL.addr secCtrl F.SEC_CTRL_LOCK where
  addr := rfl
  reg := by decide +kernel
  index := by decide +kernel
  ordinary := by decide +kernel
  noWork := by decide +kernel
  bit := by decide +kernel
  bitZero := by decide +kernel
  oneBit := rfl
  aboveZero := by decide
  fits := by decide
  free := by decide +kernel
  uncopied := by decide +kernel
  lock c := by simp only [Chip.lockedBlock, show blockOf R.SEC_CTRL.addr = 0x1B from rfl]
  write c m i w := by rw [writeReg_secCtrl]; exact Chip.Upholds.refl _

/-- A write of DDR_CTRL may begin or end the use of DDR, which shows in DDR_STAT. -/
theorem writeDdr_ctrl (c : Chip) (w : Nat) : Chip.writeDdr R.DDR_CTRL.addr ddrCtrl w c =
    let d := c.plain R.DDR_CTRL.addr ddrCtrl w
    if d.on F.DDR_CTRL_EN && !c.on F.DDR_CTRL_EN then d.ddrEnable
    else if c.on F.DDR_CTRL_EN && !d.on F.DDR_CTRL_EN then d.set F.DDR_STAT_READY 0 else d := rfl

theorem writeReg_ddrCtrl (i : Initiator) (c : Chip) (m : Store) (w : Word) :
    writeReg i R.DDR_CTRL.addr ddrCtrl 0 0 w false [] [] (c, m) = (Chip.writeDdr R.DDR_CTRL.addr ddrCtrl w.toNat c, m) := by
  have hb : blockOf R.DDR_CTRL.addr = 0x1E := rfl
  simp only [writeReg, hb]

theorem ddrCtrl_holdsLock : HoldsLock R.DDR_CTRL.addr ddrCtrl F.DDR_CTRL_LOCK where
  addr := rfl
  reg := by decide +kernel
  index := by decide +kernel
  ordinary := by decide +kernel
  noWork := by decide +kernel
  bit := by decide +kernel
  bitZero := by decide +kernel
  oneBit := rfl
  aboveZero := by decide
  fits := by decide
  free := by decide +kernel
  uncopied := by decide +kernel
  lock c := by simp only [Chip.lockedBlock, show blockOf R.DDR_CTRL.addr = 0x1E from rfl]
  write c m i w := by
    rw [writeReg_ddrCtrl, writeDdr_ctrl]
    exact Chip.upholds_ite (Chip.upholds_ddrEnable _)
      (Chip.upholds_ite ((Chip.Upholds.refl _).set (by decide +kernel)) (Chip.Upholds.refl _))

section Lock

variable {c d : Chip} {t a n j k : Nat} {i : Initiator} {v w hi : Word} {r : RegDef} {f : FieldDef} {p q : Place} {s : State}

theorem HoldsLock.secured (h : HoldsLock a r p) : securedReg a = true := securedReg_of_mem h.reg h.bit rfl

/-- The lock after a plain write: set where it was, or where the word sets it (R12). -/
theorem HoldsLock.get_plain (h : HoldsLock a r p) {w : Nat} : (c.plain a r w).get p = c.get p ||| fld p w := by
  obtain rfl := h.addr
  exact plain_get_w1s h.reg h.bit

/-- LOCK stays 1 under any write of its register. -/
theorem HoldsLock.stays (h : HoldsLock a r p) {w : Nat} (hl : c.on p = true) (hd : (c.plain a r w).Upholds d) : d.on p = true := by
  have hat : upheld (p.at 0 0) = true := by rw [h.addr]; exact upheld_of_secured h.secured
  simp only [Chip.on, bne_iff_ne, ne_eq] at hl ⊢
  rw [hd.get hat, h.get_plain, Nat.or_eq_zero_iff]
  exact fun hz => hl hz.1

/-- With no calibration run and no switch pending a write of the control register does nothing but store its word. -/
theorem HoldsLock.plain_eq (h : HoldsLock a r p) (w : Nat) (hcal : c.calBusy = false) (hsw : c.switchState = 0) :
    c.plain a r w = c.setWord a (BitVec.ofNat 32 (c.plainWord a r w)) := by
  refine plain_of_taken h.uncopied (List.any_eq_false.mpr fun f hf => ?_)
  have hfree := List.all_eq_true.mp h.free f hf
  simp only [Bool.or_eq_true, beq_iff_eq] at hfree
  rcases hfree with he | he <;> rw [he]
  · simp [Chip.ignoresField, fd]
  · simp [Chip.ignoresField, barsField_free hcal hsw]

theorem toNat_withField (hlo : p.lo ≤ p.hi + 1) (hhi : p.hi < 32) (n : Nat) :
    (withField p n w).toNat = withBits w.toNat p.hi p.lo n := by
  rw [withField, BitVec.toNat_ofNat, Nat.mod_eq_of_lt (withBits_lt _ _ hlo hhi (BitVec.isLt w))]

/-- The fields beside the lock take the word as it is. -/
theorem HoldsLock.fld_beside (h : HoldsLock a r p) (hq : p.hi < q.lo ∨ q.hi < p.lo) :
    fld q (withField p 1 w).toNat = fld q w.toNat := by
  have hone := h.oneBit
  rw [fld, toNat_withField (by omega) h.fits, bitsOf_withBits_other _ _ (by omega) hq, fld]

/-- A field of any value beside the lock. -/
theorem HoldsLock.get_beside (h : HoldsLock a r p) (q : Place) (w : Word) (hcal : c.calBusy = false)
    (hsw : c.switchState = 0) (ha : q.at 0 0 = a) (hf : fd q.hi q.lo .rw ∈ r.fields) (hq : p.hi < q.lo ∨ q.hi < p.lo) :
    (c.plain a r (withField p 1 w).toNat).get q = fld q w.toNat := by
  rw [← h.fld_beside hq]
  subst ha
  exact plain_get_rw h.secured h.reg hf (barsField_free hcal hsw _ _)

/-- The control register's first field, XPERT_EN or EN, stands in bit 0. -/
theorem get_bit_zero (c : Chip) (a : Nat) : c.get ⟨a, 0, 0, 0, 0⟩ = (c.word a).toNat % 2 := by
  simp [Chip.get, Place.at, bitsOf]

theorem writeLeaves_setWord : WriteLeaves t i a [] {a} s { s with chip := (s.chip.wrote t i a).setWord a v } := by
  refine ⟨⟨rfl, rfl, fun p hp => ?_, fun b hb => Chip.word_setWord_other _ hb _⟩, rfl, rfl⟩
  cases p
  case answer | sys => simp at hp
  all_goals rfl

/-- Setting LOCK writes its register alone, whose other fields take the same word. -/
theorem HoldsLock.set (h : HoldsLock a r p) (q : Place) (t : Nat) (w : Word) (hmay : s.chip.mayWrite i a)
    (hq : q.at 0 0 = a) (hcal : s.chip.calBusy = false) (hsw : s.chip.switchState = 0)
    (hcmd : (blockOf a = 0x1A ∨ blockOf a = 0x0F) → s.chip.fw.calCmd = none)
    (hw : writeReg i a r 0 0 (withField p 1 w) false [] [] (s.chip.wrote t i a, s.store) =
      ((s.chip.wrote t i a).plain a r (withField p 1 w).toNat, s.store)) :
    ∃ u, runWrite t i q (withField p 1 w) 0 0 s = .next u ∧ WriteLeaves t i a [] {a} s u ∧ u.chip.on p = true ∧
      (u.chip.word a).toNat % 2 = w.toNat % 2 ∧ u.chip = (s.chip.wrote t i a).plain a r (withField p 1 w).toNat := by
  have hcal' : (s.chip.wrote t i a).calBusy = false := hcal
  have hsw' : (s.chip.wrote t i a).switchState = 0 := hsw
  have hplain := h.plain_eq (withField p 1 w).toNat hcal' hsw'
  have hone := h.oneBit
  subst hq
  refine ⟨_, runWrite_taken hmay h.ordinary h.index h.noWork fun hb => ?_, ?_⟩
  · rw [hw, hplain]; exact hcmd hb
  · rw [hw]
    refine ⟨by rw [hplain]; exact writeLeaves_setWord, ?_, ?_, rfl⟩
    · have hset : fld p (withField p 1 w).toNat = 1 := by
        rw [fld, toNat_withField (by omega) h.fits, bitsOf_withBits_same _ _ (by omega), hone, Nat.add_sub_cancel_left]
        rfl
      simp only [Chip.on, bne_iff_ne, h.get_plain, hset, ne_eq, Nat.or_eq_zero_iff]
      omega
    · have := h.get_beside ⟨q.at 0 0, 0, 0, 0, 0⟩ w hcal' hsw' (by simp [Place.at]) h.bitZero (.inr h.aboveZero)
      rw [get_bit_zero] at this
      simpa [fld, bitsOf] using this

/-! ### Writes that the bus takes -/

/-- A command on the chip and the memories, where what it comes to is known. -/
theorem runBoth_chip {g : Chip × Store → Chip × Store} {y : Chip × Store} (hy : g (s.chip.at t, s.store) = y) :
    ∃ u, runBoth t g s = .next u ∧ u.chip = y.1 := by
  subst hy
  exact ⟨_, rfl, rfl⟩

/-- REGISTER_WRITE that is taken: the meaning of the register's write, and what follows it. -/
theorem registerWrite_taken (t : Nat) (w hi : Word) (errs : List DdrError) (ues : List Nat)
    (h : s.chip.mayWrite i a) (ho : ordinary a = true) (hr : regWhere a = some (r, n, k)) :
    ∃ u, exec (.registerWrite t i a 4 w hi false errs ues) s = .next u ∧
      u.chip = (afterWrite a (s.chip.at t, s.store) (writeReg i a r n k w false errs ues (s.chip.wrote t i a, s.store))).1 := by
  have h' : (s.chip.at t).mayWrite i a := h
  have hsize : ¬ ((4 : Nat) = 8 ∧ inMsixTable a = true ∧ a % 8 = 0) := by omega
  have htaken : busWrite i a 4 w false errs ues (s.chip.at t, s.store) =
      writeReg i a r n k w false errs ues (s.chip.wrote t i a, s.store) := busWrite_taken h' ho hr
  simp only [exec, execRegisterWrite, if_neg hsize]
  exact runBoth_chip (congrArg (afterWrite a (s.chip.at t, s.store)) htaken)

/-- LOCK stays 1 under any write that the bus takes. -/
theorem HoldsLock.stays_registerWrite (h : HoldsLock a r p) (hmay : s.chip.mayWrite i a) (hl : s.chip.lockedBlock a = true) :
    ∃ u, exec (.registerWrite t i a 4 w hi false [] []) s = .next u ∧ u.chip.lockedBlock a = true := by
  obtain ⟨u, hu, hchip⟩ := registerWrite_taken t w hi [] [] hmay h.ordinary h.index
  refine ⟨u, hu, ?_⟩
  rw [h.lock, ← Chip.wrote_on s.chip t i a] at hl
  rw [h.lock, hchip]
  exact h.stays hl ((h.write (s.chip.wrote t i a) s.store i w).trans (afterWrite_upholds _ _ _))

theorem wrote_lockedBlock (c : Chip) (t : Nat) (i : Initiator) (a b : Nat) : (c.wrote t i a).lockedBlock b = c.lockedBlock b := by
  have hon : ∀ p : Place, (c.wrote t i a).on p = c.on p := fun p => Chip.wrote_on c t i a p 0 0
  simp only [Chip.lockedBlock, hon]

theorem Chip.Protects.wrote (h : c.Protects a r f) : (c.wrote t i a).Protects a r f where
  reg := h.reg
  mem := h.mem
  shut := by simpa only [wrote_lockedBlock, Chip.xpert, Chip.wrote_word] using h.shut

/-- A write to a field that a lock or XPERT_EN protects is done, leaves the field and is counted once. -/
theorem registerWrite_ignored (h : s.chip.Protects a r f) (hmay : s.chip.mayWrite i a) (ho : ordinary a = true)
    (hr : regWhere a = some (r, n, j)) (hq : rejectCounter a = some (q, k)) :
    ∃ u, exec (.registerWrite t i a 4 w hi false [] []) s = .next u ∧ u.chip.answer = .done ∧
      bitsOf (u.chip.word a).toNat f.hi f.lo = bitsOf (s.chip.word a).toNat f.hi f.lo ∧
      u.chip.get q k = satNat (q.hi + 1 - q.lo) (s.chip.get q k + 1) := by
  obtain ⟨u, hu, hchip⟩ := registerWrite_taken t w hi [] [] hmay ho hr
  have hign : (s.chip.wrote t i a).Ignored a f u.chip := by
    rw [hchip]
    exact (writeReg_ignored h.wrote).upholds h.secured (afterWrite_upholds a (s.chip.at t, s.store) _)
  obtain ⟨hans, hbits, hcount⟩ := hign
  have hcounted := hcount q k hq
  rw [Chip.wrote_word] at hbits
  rw [Chip.wrote_get] at hcounted
  exact ⟨u, hu, hans, hbits, hcounted⟩

end Lock

end Sys2Proof.Machine

namespace Sys2Proof.Proofs

open Sys2Proof.Machine

/-- Settles O5: the locks by the control registers' own writes, the protected fields by one lemma for every block. -/
theorem lockedFieldsIgnoreWrites : Obligations.LockedFieldsIgnoreWrites := by
  unfold Obligations.LockedFieldsIgnoreWrites
  refine ⟨?_, ?_, ?_, ?_, ?_⟩
  · intro t i w s hmay hcmd hsw hcal
    obtain ⟨u, hu, hleaves, hlock, hmark, -⟩ :=
      strCtrl_holdsLock.set R.STR_CTRL t w hmay rfl hcal hsw (fun _ => hcmd) (writeReg_strCtrl _ _ _ _)
    exact ⟨u, hu, hleaves, hlock, hmark⟩
  · intro t i w s hmay hen hsw hcal
    have hget : ((s.chip.wrote t i R.DDR_CTRL.addr).plain R.DDR_CTRL.addr ddrCtrl (withField F.DDR_CTRL_LOCK 1 w).toNat).get
        F.DDR_CTRL_EN = s.chip.get F.DDR_CTRL_EN := by
      rw [← hen]
      exact ddrCtrl_holdsLock.get_beside F.DDR_CTRL_EN w hcal hsw rfl (by decide) (.inr (by decide))
    have hwrite := writeReg_ddrCtrl i (s.chip.wrote t i R.DDR_CTRL.addr) s.store (withField F.DDR_CTRL_LOCK 1 w)
    rw [writeDdr_ctrl] at hwrite
    simp only [Chip.on, hget, Chip.wrote_get, Bool.and_not_self, Bool.false_eq_true, if_false] at hwrite
    obtain ⟨u, hu, hleaves, hlock, hmark, hchip⟩ :=
      ddrCtrl_holdsLock.set R.DDR_CTRL t w hmay rfl hcal hsw (fun hb => absurd hb (by decide)) hwrite
    exact ⟨u, hu, hleaves, hlock, hchip ▸ hget, hmark⟩
  · intro t i w s hmay hsw hcal
    obtain ⟨u, hu, hleaves, hlock, hmark, -⟩ :=
      secCtrl_holdsLock.set R.SEC_CTRL t w hmay rfl hcal hsw (fun hb => absurd hb (by decide))
        (writeReg_secCtrl _ _ _ _)
    exact ⟨u, hu, hleaves, hlock, hmark⟩
  · rintro t a i w hi s hmay (rfl | rfl | rfl) hl
    · exact strCtrl_holdsLock.stays_registerWrite hmay hl
    · exact secCtrl_holdsLock.stays_registerWrite hmay hl
    · exact ddrCtrl_holdsLock.stays_registerWrite hmay hl
  · intro t a n m k i w hi d f q s hmay ho hr hf hshut hq
    exact registerWrite_ignored ⟨regWhere_regAt hr, hf, hshut⟩ hmay ho hr hq

end Sys2Proof.Proofs
end

section
/-!
PROOFS of what reset leaves and of the writes of software that the bus refuses.
-/

open Sys2Proof.Machine

namespace Sys2Proof.Proofs

/-! ### Reset (R9, R35) -/

/-- SYS_ISL_STAT resets to 0x00010003: AON's copy of press time is the keeper of last resort and valid in every state (R35). -/
theorem reset_aon_timeValid : State.reset.chip.timeValid 0 = true := by decide

/-- Refutes O58: it asks that no island's press time is valid at reset, and AON's is. -/
theorem not_resetLeavesTheMapsValues : ¬ Obligations.ResetLeavesTheMapsValues := by
  unfold Obligations.ResetLeavesTheMapsValues
  rintro ⟨-, -, -, -, hNoneValid, -⟩
  exact absurd reset_aon_timeValid (by simp [hNoneValid 0 (by decide)])

/-! ### A write to an island that is down (R32, R550) -/

/-- A software write to an island that is down is answered by a bus error; in a block whose registers may begin lasting activity,
activity is noted all the same. -/
theorem registerWrite_down {t a : Nat} {i : Initiator} {w hi : Word} {s : State} (ho : ordinary a = true)
    (ha : s.chip.absent a = false) (hd : s.chip.up (islandOf (blockOf a)) = false) (hw : worksIn a = true) :
    exec (.registerWrite t i a 4 w hi false [] []) s =
      .next { s with chip := (s.chip.at t).noteWork ((s.chip.at t).answered .busError) } := by
  simp only [ordinary, Bool.and_eq_true, decide_eq_true_eq, Bool.not_eq_true'] at ho
  obtain ⟨⟨⟨⟨hlo, hhi⟩, hal⟩, -⟩, -⟩ := ho
  have hin : ¬ (a < 0x10000000 ∨ 0x10200000 ≤ a) := by omega
  have hsize : ¬ ((4 : Nat) ≠ 4 ∨ a % 4 ≠ 0) := by omega
  have ha' : (s.chip.at t).absent a = false := ha
  have hd' : (s.chip.at t).up (islandOf (blockOf a)) = false := hd
  simp only [exec, execRegisterWrite, runBoth, busWrite, afterWrite, if_neg hin, if_neg hsize, ha', hd', hw]
  simp

/-- The device in Idle with a DMA channel at work, while the island of CMP is held in reset. -/
def idleAtWork : State :=
  { chip := ((State.reset.chip.set F.SYS_ISL_STAT_ISL_UP 0x1F).set F.PWR_STAT_STATE 1).setCh 0 { state := 1 } }

/-- The refused write of CMP_CTRL latches wake source ACTIVITY in PWR_WAKE_LATCH. -/
theorem idleAtWork_latches_wake :
    ((idleAtWork.chip.at 0).noteWork ((idleAtWork.chip.at 0).answered .busError)).get F.PWR_WAKE_LATCH_LATCH = 0x80 ∧
      idleAtWork.chip.get F.PWR_WAKE_LATCH_LATCH = 0 := by
  decide +kernel

/-- Refutes O4: in Idle, with a DMA channel at work and PIPE in reset, a write of CMP_CTRL is a bus error that sets a bit of
PWR_WAKE_LATCH, where the statement leaves every register. -/
theorem not_registerWriteFillsFields : ¬ Obligations.RegisterWriteFillsFields := by
  unfold Obligations.RegisterWriteFillsFields
  rintro ⟨-, hIslandDown, -⟩
  have ho : ordinary R.CMP_CTRL.addr = true := by decide
  have ha : idleAtWork.chip.absent R.CMP_CTRL.addr = false := by decide
  have hd : idleAtWork.chip.up (islandOf (blockOf R.CMP_CTRL.addr)) = false := by decide
  obtain ⟨u, hu, -, hRegs, -⟩ := hIslandDown 0 .tc R.CMP_CTRL.addr 0 0 idleAtWork ho ha hd
  rw [registerWrite_down ho ha hd (by decide)] at hu
  obtain ⟨hLatched, hBefore⟩ := idleAtWork_latches_wake
  cases hu
  have hSame := Chip.word_mk_other idleAtWork.chip _ hRegs (F.PWR_WAKE_LATCH_LATCH.at 0 0)
  simp only [Chip.get] at hLatched hBefore
  rw [hSame, hBefore] at hLatched
  exact absurd hLatched (by decide)

end Sys2Proof.Proofs
end

section
/-!
PROOFS about what an operation leaves alone: how `Chip.Only` is built up from the named operations, and events raised over such steps.
-/

namespace Sys2Proof.Machine

variable {c d e : Chip} {ps qs : List Part} {rs ss : Set Nat} {p : Place} {v i j : Nat}

/-! ### Building up what changed -/

theorem Chip.Only.refl (ps : List Part) (rs : Set Nat) (c : Chip) : c.Only ps rs c :=
  ⟨fun p _ => by cases p <;> rfl, fun _ _ => rfl⟩

theorem Part.kept_trans (q : Part) (h : q.kept c d) (h' : q.kept d e) : q.kept c e := by
  cases q <;> exact Eq.trans h' h

theorem Chip.Only.trans (h : c.Only ps rs d) (h' : d.Only ps rs e) : c.Only ps rs e :=
  ⟨fun q hq => q.kept_trans (h.1 q hq) (h'.1 q hq), fun a ha => (h'.2 a ha).trans (h.2 a ha)⟩

theorem Chip.Only.mono (h : c.Only ps rs d) (hp : ps ⊆ qs) (hr : rs ⊆ ss) : c.Only qs ss d :=
  ⟨fun q hq => h.1 q (fun hm => hq (hp hm)), fun a ha => h.2 a (fun hm => ha (hr hm))⟩

/-- A change beside the registers. -/
theorem Chip.Only.beside (h : c.Only ps rs d) (hr : e.regs = d.regs) (hp : ∀ q ∉ ps, q.kept d e) : c.Only ps rs e :=
  h.trans ⟨hp, fun a _ => Chip.word_mk_other d e hr a⟩

theorem Part.kept_setWord (q : Part) (c : Chip) (a : Nat) (w : Word) : q.kept c (c.setWord a w) := by cases q <;> rfl

theorem Chip.Only.setWord {a : Nat} {w : Word} (h : c.Only ps rs d) (ha : a ∈ rs) : c.Only ps rs (d.setWord a w) := by
  refine h.trans ⟨fun q _ => q.kept_setWord d a w, fun b hb => Chip.word_setWord_other d ?_ w⟩
  rintro rfl
  exact hb ha

theorem Chip.Only.set (h : c.Only ps rs d) (ha : p.at i j ∈ rs) : c.Only ps rs (d.set p v i j) := h.setWord ha

theorem Chip.Only.addSat (h : c.Only ps rs d) (ha : p.at i j ∈ rs) : c.Only ps rs (d.addSat p v i j) := h.set ha

theorem Chip.Only.addWrap (h : c.Only ps rs d) (ha : p.at i j ∈ rs) : c.Only ps rs (d.addWrap p v i j) := h.set ha

theorem Chip.Only.orBits (h : c.Only ps rs d) (ha : p.at i j ∈ rs) : c.Only ps rs (d.orBits p v i j) := h.set ha

theorem Chip.Only.setSys {x : SysSt} (h : c.Only ps rs d) (hm : .sys ∈ ps) : c.Only ps rs (d.setSys x) := by
  refine h.beside rfl fun q hq => ?_
  cases q
  case sys => exact absurd hm hq
  all_goals rfl

theorem Chip.Only.setEv {x : EvSt} (h : c.Only ps rs d) (hm : .ev ∈ ps) : c.Only ps rs (d.setEv x) := by
  refine h.beside rfl fun q hq => ?_
  cases q
  case ev => exact absurd hm hq
  all_goals rfl

theorem Chip.Only.emit {n : Nat} {l : List (Nat × Nat)} (h : c.Only ps rs d) (hm : .ev ∈ ps) : c.Only ps rs (d.emit n l) :=
  h.setEv hm

/-- A field of a register that is left alone reads as before. -/
theorem Chip.Only.get (h : c.Only ps rs d) (ha : p.at i j ∉ rs) : d.get p i j = c.get p i j := by
  simp only [Chip.get, h.2 _ ha]

/-- A command on the chip alone leaves what its operation leaves. -/
theorem leaves_of_only {t : Nat} {s : State} (h : (s.chip.at t).Only ps rs d) : Leaves t ps rs s { s with chip := d } := ⟨rfl, rfl, h⟩

theorem Chip.get_addWrap_same (c : Chip) (p : Place) (n i j : Nat) (h : p.lo ≤ p.hi + 1) (hw : p.hi < 32) :
    (c.addWrap p n i j).get p i j = (c.get p i j + n) % 2 ^ (p.hi + 1 - p.lo) := Chip.get_set_same _ _ _ _ _ h hw

theorem Chip.get_orBits_same (c : Chip) (p : Place) (m i j : Nat) (h : p.lo ≤ p.hi + 1) (hw : p.hi < 32) :
    (c.orBits p m i j).get p i j = (c.get p i j ||| m) % 2 ^ (p.hi + 1 - p.lo) := Chip.get_set_same _ _ _ _ _ h hw

/-! ### Events raised on the way -/

/-- The record of an event depends on press time, SYS_ISL_STAT and the events before it. -/
theorem Chip.emit_ev_congr (n : Nat) (l : List (Nat × Nat)) (hev : d.ev = c.ev) (hnow : d.now = c.now)
    (hstat : d.word F.SYS_ISL_STAT_TIME_VALID.addr = c.word F.SYS_ISL_STAT_TIME_VALID.addr) : (d.emit n l).ev = (c.emit n l).ev := by
  have htv : ∀ k, d.timeValid k = c.timeValid k := fun k => by
    simp only [Chip.timeValid, Chip.get, show F.SYS_ISL_STAT_TIME_VALID.at 0 0 = F.SYS_ISL_STAT_TIME_VALID.addr from rfl, hstat]
  simp only [Chip.emit, Chip.raiseEvent, Chip.nowNs, hev, hnow, htv]

/-- An event raised after steps that raised none. -/
theorem Chip.raised_emit (n : Nat) (l : List (Nat × Nat)) (hev : d.ev = c.ev) (hnow : d.now = c.now)
    (hstat : d.word F.SYS_ISL_STAT_TIME_VALID.addr = c.word F.SYS_ISL_STAT_TIME_VALID.addr) : c.Raised (d.emit n l) [(n, l)] :=
  Chip.emit_ev_congr n l hev hnow hstat

end Sys2Proof.Machine
end

section
/-!
PROOFS about the crossings between islands (R22 to R31).
-/

namespace Sys2Proof.Machine

variable {c d : Chip} {p q : Plane} {src dst a b w : Nat} {x : Crossing}

/-! ### Reading and putting a crossing -/

/-- The crossings are part of the island state alone. -/
theorem Chip.crossing_congr (h : d.sys = c.sys) : d.crossing p src dst = c.crossing p src dst := by simp only [Chip.crossing, h]

theorem Crossing.is_iff : x.is p src dst = true ↔ x.plane = p ∧ x.src = src ∧ x.dst = dst := by
  simp [Crossing.is, and_assoc]

theorem Chip.crossing_is (c : Chip) (p : Plane) (src dst : Nat) : (c.crossing p src dst).is p src dst = true := by
  unfold Chip.crossing
  cases h : c.sys.crossings.find? (fun (x : Crossing) => x.is p src dst) with
  | none => simp [Crossing.is]
  | some y => exact List.find?_some (p := fun (x : Crossing) => x.is p src dst) h

/-- What is put into a crossing is what it reads, listed or not. -/
theorem Chip.crossing_setCrossing (hx : x.is p src dst = true) : (c.setCrossing x).crossing p src dst = x := by
  obtain ⟨rfl, rfl, rfl⟩ := Crossing.is_iff.mp hx
  have hrest : (c.sys.crossings.filter (fun (y : Crossing) => !y.is x.plane x.src x.dst)).find?
      (fun (y : Crossing) => y.is x.plane x.src x.dst) = none := by
    simp [List.find?_eq_none]
  unfold Chip.setCrossing Chip.crossing
  by_cases he : (x.words.isEmpty && x.waiting.isEmpty) = true
  · obtain ⟨hw, hv⟩ := Bool.and_eq_true_iff.mp he
    simp only [he, if_true, Chip.setSys_sys, hrest, Option.getD_none]
    rw [List.isEmpty_iff] at hw hv
    cases x
    simp_all
  · simp [he, hx]

/-- The other crossings read as before. -/
theorem Chip.crossing_setCrossing_other (hx : x.is p src dst = true) (h : ¬ (q = p ∧ a = src ∧ b = dst)) :
    (c.setCrossing x).crossing q a b = c.crossing q a b := by
  obtain ⟨rfl, rfl, rfl⟩ := Crossing.is_iff.mp hx
  have hapart : ∀ y : Crossing, y.is q a b = true → y.is x.plane x.src x.dst = false := by
    intro y hy
    obtain ⟨rfl, rfl, rfl⟩ := Crossing.is_iff.mp hy
    rw [Bool.eq_false_iff, ne_eq, Crossing.is_iff]
    exact h
  have hrest : (c.sys.crossings.filter (fun (y : Crossing) => !y.is x.plane x.src x.dst)).find? (fun (y : Crossing) => y.is q a b) =
      c.sys.crossings.find? (fun (y : Crossing) => y.is q a b) := by
    rw [List.find?_filter]
    congr 1
    funext y
    cases hy : y.is q a b with
    | false => simp
    | true => simp [hapart y hy]
  have hself : x.is q a b = false := by
    rw [Bool.eq_false_iff]
    intro hy
    simp [hapart x hy] at hx
  unfold Chip.setCrossing Chip.crossing
  simp only [Chip.setSys_sys]
  split
  · rw [hrest]
  · rw [List.find?_cons, hself]
    exact congrArg (Option.getD · _) hrest

theorem Chip.only_setCrossing (c : Chip) (x : Crossing) : c.Only [.sys] ∅ (c.setCrossing x) :=
  (Chip.Only.refl _ _ c).setSys (by simp)

/-- New contents for the crossing read. -/
theorem Chip.is_contents (ws : List (Nat × Bool)) (vs : List Nat) :
    ({ c.crossing p src dst with words := ws, waiting := vs } : Crossing).is p src dst = true :=
  c.crossing_is p src dst

/-! ### Writing, marking and taking a word -/

section Write

variable (hsrc : c.up src = true) (hdst : c.up dst = true)
include hsrc hdst

theorem Chip.crossWrite_room (hroom : (c.crossing p src dst).words.length < depthOf p src dst) (hwait : (c.crossing p src dst).waiting = []) :
    c.crossWrite p src dst w false =
      c.setCrossing { c.crossing p src dst with words := (c.crossing p src dst).words ++ [(w, false)] } := by
  simp [Chip.crossWrite, hsrc, hdst, hroom, hwait]

theorem Chip.crossWrite_data (hfull : depthOf .data src dst ≤ (c.crossing .data src dst).words.length) :
    c.crossWrite .data src dst w false =
      c.setCrossing { c.crossing .data src dst with waiting := (c.crossing .data src dst).waiting ++ [w] } := by
  simp [Chip.crossWrite, hsrc, hdst, Nat.not_lt.mpr hfull]

theorem Chip.crossWrite_management (hfull : depthOf .management src dst ≤ (c.crossing .management src dst).words.length) :
    c.crossWrite .management src dst w false =
      (c.setCrossing { c.crossing .management src dst with
        words := (c.crossing .management src dst).words.drop 1 ++ [(w, false)] }).addWrap F.SYS_SUMP_DROP_COUNT 1 := by
  simp [Chip.crossWrite, hsrc, hdst, Nat.not_lt.mpr hfull]

theorem Chip.crossWrite_control (hfull : depthOf .control src dst ≤ (c.crossing .control src dst).words.length) :
    c.crossWrite .control src dst w false =
      ((c.setCrossing { c.crossing .control src dst with waiting := (c.crossing .control src dst).waiting ++ [w] }).orBits
        F.SYS_CTRL_OVR_OVERRUN (2 ^ src)).emit 0x0003 := by
  simp [Chip.crossWrite, hsrc, hdst, Nat.not_lt.mpr hfull]

end Write

/-- The oldest word that is not readable becomes so. -/
theorem markReadable_append {l r : List (Nat × Bool)} (h : ∀ y ∈ l, y.2 = true) : markReadable (l ++ (w, false) :: r) = l ++ (w, true) :: r := by
  induction l with
  | nil => rfl
  | cons y l ih =>
    obtain ⟨v, m⟩ := y
    obtain rfl : m = true := h (v, m) (by simp)
    simp [markReadable, ih (fun z hz => h z (by simp [hz]))]

theorem Chip.crossTake_waiting {v : Nat} {r : List (Nat × Bool)} {ws : List Nat} (hdst : c.up dst = true)
    (hwords : (c.crossing p src dst).words = (w, true) :: r) (hwait : (c.crossing p src dst).waiting = v :: ws) :
    c.crossTake p src dst = c.setCrossing { c.crossing p src dst with words := r ++ [(v, false)], waiting := ws } := by
  simp [Chip.crossTake, hdst, hwords, hwait]

theorem Chip.crossTake_idle {r : List (Nat × Bool)} (hdst : c.up dst = true)
    (hwords : (c.crossing p src dst).words = (w, true) :: r) (hwait : (c.crossing p src dst).waiting = []) :
    c.crossTake p src dst = c.setCrossing { c.crossing p src dst with words := r } := by
  simp [Chip.crossTake, hdst, hwords, hwait]

end Sys2Proof.Machine

namespace Sys2Proof.Proofs
open Sys2Proof.Machine

section Clauses

variable {t p src dst w} {s : State}

/-- The state after a new crossing was put in place. -/
theorem setCrossing_leaves (t : Nat) (s : State) (x : Crossing) :
    Leaves t [.sys] ∅ s { s with chip := (s.chip.at t).setCrossing x } :=
  leaves_of_only (Chip.only_setCrossing _ _)

end Clauses

/-- Settles O1, clause by clause: each is one case of `crossWrite`, `crossReadable` or `crossTake`, which puts one crossing in place. -/
theorem crossingsCarryWords : Obligations.CrossingsCarryWords := by
  unfold Obligations.CrossingsCarryWords
  refine ⟨?_, ?_, ?_, ?_, ?_, ?_, ?_⟩
  · intro t p src dst w s hsrc hdst hroom hwait
    refine ⟨_, rfl, ?_⟩
    simp only [Chip.crossWrite_room (c := s.chip.at t) hsrc hdst hroom hwait]
    exact ⟨setCrossing_leaves t s _, rfl, Chip.crossing_setCrossing (Chip.is_contents _ _),
      fun q a b h => Chip.crossing_setCrossing_other (Chip.is_contents _ _) h⟩
  · intro t src dst w s hsrc hdst hfull
    refine ⟨_, rfl, ?_⟩
    simp only [Chip.crossWrite_data (c := s.chip.at t) hsrc hdst hfull]
    exact ⟨setCrossing_leaves t s _, Chip.crossing_setCrossing (Chip.is_contents _ _)⟩
  · intro t src dst w s hsrc hdst hfull
    refine ⟨_, rfl, ?_⟩
    simp only [Chip.crossWrite_management (c := s.chip.at t) hsrc hdst hfull]
    refine ⟨leaves_of_only (((Chip.only_setCrossing _ _).mono (by simp) (by simp)).addWrap (by simp [Place.at])), ?_, ?_⟩
    · exact Chip.crossing_setCrossing (c := s.chip.at t) (Chip.is_contents _ _)
    · exact Chip.get_addWrap_same _ _ _ _ _ (by decide) (by decide)
  · intro t src dst w s hsrc hdst hfull
    refine ⟨_, rfl, ?_⟩
    simp only [Chip.crossWrite_control (c := s.chip.at t) hsrc hdst hfull]
    refine ⟨leaves_of_only ((((Chip.only_setCrossing _ _).mono (by simp) (by simp)).orBits (by simp [Place.at])).emit (by simp)), ?_, ?_, ?_⟩
    · exact Chip.crossing_setCrossing (c := s.chip.at t) (Chip.is_contents _ _)
    · rw [Chip.emit_get]
      exact Chip.get_orBits_same _ _ _ _ _ (by decide) (by decide)
    · exact Chip.raised_emit _ _ rfl rfl (Chip.word_set_other _ _ _ _ _ (by decide))
  · intro t src dst w p a b s hwords ha
    refine ⟨_, rfl, ?_⟩
    have hmark : (s.chip.at t).crossReadable p src dst =
        (s.chip.at t).setCrossing { s.chip.crossing p src dst with words := a ++ (w, true) :: b } := by
      rw [← markReadable_append ha, ← hwords]
      rfl
    simp only [hmark]
    exact ⟨setCrossing_leaves t s _, Chip.crossing_setCrossing (Chip.is_contents _ _),
      fun q x y h => Chip.crossing_setCrossing_other (Chip.is_contents _ _) h⟩
  · intro t src dst w v p r ws s hdst hwords hwait
    refine ⟨_, rfl, ?_⟩
    simp only [Chip.crossTake_waiting (c := s.chip.at t) hdst hwords hwait]
    exact ⟨setCrossing_leaves t s _, Chip.crossing_setCrossing (Chip.is_contents _ _)⟩
  · intro t src dst w p r s hdst hwords hwait
    refine ⟨_, rfl, ?_⟩
    simp only [Chip.crossTake_idle (c := s.chip.at t) hdst hwords hwait]
    exact ⟨setCrossing_leaves t s _, Chip.crossing_setCrossing (Chip.is_contents _ _)⟩

end Sys2Proof.Proofs
end

section
/-!
PROOFS about the fault manager (R26, R396).
-/

namespace Sys2Proof.Machine

variable {c : Chip} {e : Event} {a : Nat}

/-! ### The actions on the fault manager's own state -/

/-- The MSI-X due after an event's actions: its home source is added where bit 5 asks for it, once. -/
def EvSt.msixAfter (v : EvSt) (e : Event) (a : Nat) : List Nat :=
  v.msixDue ++ (if bitAt a 5 ∧ homeSource e.code (e.detail.headD 0) ∉ v.msixDue then [homeSource e.code (e.detail.headD 0)] else [])

theorem Chip.tellTc (b : Bool) :
    (if b = true then c.setEv { c.ev with tcPend := c.ev.tcPend ++ [e] } else c) =
      c.setEv { c.ev with tcPend := c.ev.tcPend ++ (if b then [e] else []) } := by
  cases b with
  | true => rfl
  | false => simp [Chip.setEv]

theorem Chip.holdAdmission (b : Bool) :
    (if b = true then c.setSys { c.sys with holdAdmit := true } else c) = c.setSys { c.sys with holdAdmit := c.sys.holdAdmit || b } := by
  cases b <;> simp [Chip.setSys]

theorem Chip.askMsix (b : Bool) (n : Nat) :
    (if (b && !c.ev.msixDue.contains n) = true then c.setEv { c.ev with msixDue := c.ev.msixDue ++ [n] } else c) =
      c.setEv { c.ev with msixDue := c.ev.msixDue ++ (if b = true ∧ n ∉ c.ev.msixDue then [n] else []) } := by
  by_cases h : b = true ∧ n ∉ c.ev.msixDue
  · simp [h]
  · have hb : ¬ (b && !c.ev.msixDue.contains n) = true := by simpa using h
    rw [if_neg hb, if_neg h, List.append_nil]
    rfl

/-- Actions without bits 1, 2 and 4 touch the fault manager's own state alone. -/
theorem Chip.faultActions_own (h1 : bitAt a 1 = false) (h2 : bitAt a 2 = false) (h4 : bitAt a 4 = false) :
    c.faultActions e a =
      (c.setSys { c.sys with holdAdmit := c.sys.holdAdmit || bitAt a 3 }).setEv
        { c.ev with tcPend := c.ev.tcPend ++ (if bitAt a 0 then [e] else []), msixDue := c.ev.msixAfter e a } := by
  simp only [Chip.faultActions, h1, h2, h4, Bool.false_and, Bool.false_eq_true, if_false, Chip.tellTc, Chip.holdAdmission, Chip.askMsix]
  rfl

theorem Chip.only_faultActions_own (h1 : bitAt a 1 = false) (h2 : bitAt a 2 = false) (h4 : bitAt a 4 = false) :
    c.Only [.ev, .sys] ∅ (c.faultActions e a) := by
  rw [Chip.faultActions_own h1 h2 h4]
  exact ((Chip.Only.refl _ _ c).setSys (by simp)).setEv (by simp)

/-! ### Reports and decisions -/

theorem Chip.faultReport_up {r : List Event} (hup : c.up 1 = true) (hin : c.ev.faultIn = e :: r)
    (ha : a = (((c.str.img.fault.find? (fun (x : Nat × Nat) => x.1 == e.code)).map Prod.snd).getD 1)) :
    c.faultReport = (c.setEv { c.ev with faultIn := r }).faultActions e a := by
  simp [Chip.faultReport, hin, hup, ha]

theorem Chip.tcDecision_up {r : List Event} (hup : c.sys.tcUp = true) (hin : c.ev.tcPend = e :: r) :
    c.tcDecision a = (c.setEv { c.ev with tcPend := r }).faultActions e (a - a % 2) := by
  simp [Chip.tcDecision, hin, hup]

/-- TC's decision leaves out bit 0: no event goes to TC again. -/
theorem bitAt_sub_mod_two (a k : Nat) : bitAt (a - a % 2) k = (bitAt a k && decide (k ≠ 0)) := by
  have h : a - a % 2 = a / 2 * 2 ^ 1 := by omega
  rw [bitAt_eq_testBit, bitAt_eq_testBit, h, Nat.testBit_mul_two_pow]
  cases k with
  | zero => simp
  | succ k => simp [Nat.testBit_succ]

end Sys2Proof.Machine

namespace Sys2Proof.Proofs
open Sys2Proof.Machine

/-- Settles O2: reports and decisions come to `faultActions`, whose bits 0, 3 and 5 touch the fault manager's own state alone. -/
theorem faultManagerActs : Obligations.FaultManagerActs := by
  unfold Obligations.FaultManagerActs
  refine ⟨?_, ?_, ?_⟩
  · intro t a e r s hup hin ha h1 h2 h4
    refine ⟨_, rfl, ?_⟩
    simp only [Chip.faultReport_up (c := s.chip.at t) hup hin ha]
    refine ⟨leaves_of_only (((Chip.Only.refl _ _ _).setEv (by simp)).trans (Chip.only_faultActions_own h1 h2 h4)), ?_⟩
    rw [Chip.faultActions_own h1 h2 h4]
    exact ⟨rfl, rfl, rfl, rfl⟩
  · intro t a e r s hup hin h1 h2 h4
    have hbit : ∀ k, k ≠ 0 → bitAt (a - a % 2) k = bitAt a k := fun k hk => by simp [bitAt_sub_mod_two, hk]
    have h0 : bitAt (a - a % 2) 0 = false := by simp [bitAt_sub_mod_two]
    rw [← hbit 1 (by decide)] at h1
    rw [← hbit 2 (by decide)] at h2
    rw [← hbit 4 (by decide)] at h4
    rw [← hbit 3 (by decide), ← hbit 5 (by decide)]
    refine ⟨_, rfl, ?_⟩
    simp only [Chip.tcDecision_up (c := s.chip.at t) hup hin]
    refine ⟨leaves_of_only (((Chip.Only.refl _ _ _).setEv (by simp)).trans (Chip.only_faultActions_own h1 h2 h4)), ?_⟩
    rw [Chip.faultActions_own h1 h2 h4, h0]
    exact ⟨List.append_nil r, rfl, rfl, rfl⟩
  · intro t s hin
    have hnone : (s.chip.at t).faultReport = s.chip.at t := by simp [Chip.faultReport, hin]
    exact congrArg (fun (c : Chip) => Host.Outcome.next { s with chip := c }) hnone

end Sys2Proof.Proofs
end

section
namespace Sys2Proof.Proofs
open Sys2Proof.Machine

/-- The DMA master has no right to the system block: from the reset state its read of SYS_PTIME_LO is a bus error. -/
theorem ptimeLoRead_dma_reset_answer :
    (match exec (.ptimeLoRead 0 .dma) State.reset with
      | .next u => u.chip.answer
      | _ => .done) = .busError := by
  decide +kernel

/-- Refutes O3: the read of SYS_PTIME_LO by DMA, which has no right to the block, is a bus error, not a word of press time. -/
theorem not_pressTimeMarkers : ¬ Obligations.PressTimeMarkers := by
  unfold Obligations.PressTimeMarkers
  rintro ⟨-, -, hRead⟩
  obtain ⟨u, hu, ⟨-, hData⟩, -⟩ := hRead 0 .dma State.reset (by decide)
  have hRefused := ptimeLoRead_dma_reset_answer
  simp only [hu, hData] at hRefused
  cases hRefused

/-- The device waits for its boot from SCRAP after a reset whose causes do not fit SYS_RST_CAUSE. -/
def bootOfWideCause : State :=
  { chip := ((State.reset.chip.set F.SEC_LC_IN_FORCE 4).set F.OTP_STAT_SCAN_DONE 1).setPwr
      { State.reset.chip.pwr with cause := 2 ^ 32, booting := true } }

/-- The environment of that boot: no pin held, nothing in the package. -/
def quietBoot : BootEnv := ⟨0, false, false, 0, 0, [], false⟩

/-- Refutes O7: SYS_RST_CAUSE holds 32 bits, so after the boot of `bootOfWideCause` it does not read the causes of the reset, bit 32. -/
theorem not_resetsAndBoot : ¬ Obligations.ResetsAndBoot := by
  unfold Obligations.ResetsAndBoot
  rintro ⟨-, -, -, -, -, -, -, -, hBoot⟩
  obtain ⟨u, -, -, -, hCause, -⟩ := hBoot 0 quietBoot bootOfWideCause (by decide +kernel) (by decide +kernel) (by decide +kernel) (by decide +kernel)
    (by decide +kernel) (by decide +kernel) (by decide +kernel) (by decide +kernel) (by decide +kernel)
  have hFits := Chip.get_lt u.chip R.SYS_RST_CAUSE 0 0
  have hBefore : bootOfWideCause.chip.get R.SYS_RST_CAUSE ||| bootOfWideCause.chip.pwr.cause = 2 ^ 32 := by decide +kernel
  rw [hCause, hBefore] at hFits
  exact absurd hFits (by decide)

end Sys2Proof.Proofs
end

section
/-!
PROOFS that what a head port does as it leaves its state touches no register of SYS: neither the islands' bits nor the bits of their press
time (R35, R46, R320, R372).
-/

namespace Sys2Proof.Machine

variable {c d e : Chip} {p : Place} {v i j : Nat}

/-! ### The registers of SYS stay -/

/-- From c to d every register of SYS stays: its window is the first of the register space. -/
def Chip.SysKept (c d : Chip) : Prop := ∀ a, a < 0x10010000 → d.word a = c.word a

theorem Chip.SysKept.refl (c : Chip) : c.SysKept c := fun _ _ => rfl

/-- The last step first, as a goal shows it. -/
theorem Chip.SysKept.after (h' : d.SysKept e) (h : c.SysKept d) : c.SysKept e := fun a ha => (h' a ha).trans (h a ha)

/-- What is kept beside the registers does not matter. -/
theorem Chip.SysKept.beside (h : c.SysKept d) (hr : e.regs = d.regs) : c.SysKept e := fun a ha => (Chip.word_mk_other d e hr a).trans (h a ha)

theorem Chip.SysKept.set (h : c.SysKept d) (hp : 0x10010000 ≤ p.addr) : c.SysKept (d.set p v i j) := by
  refine .after (fun a ha => Chip.word_set_other _ _ _ _ _ ?_) h
  unfold Place.at
  omega

theorem Chip.SysKept.addSat (h : c.SysKept d) (hp : 0x10010000 ≤ p.addr) : c.SysKept (d.addSat p v i j) := h.set hp

theorem Chip.SysKept.setBit {b : Bool} (h : c.SysKept d) (hp : 0x10010000 ≤ p.addr) : c.SysKept (d.setBit p v b) := h.set hp

theorem Chip.SysKept.emit {n : Nat} {l : List (Nat × Nat)} (h : c.SysKept d) : c.SysKept (d.emit n l) := h.beside rfl

theorem Chip.SysKept.setTko {x : TkoSt} (h : c.SysKept d) : c.SysKept (d.setTko x) := h.beside rfl

theorem Chip.SysKept.foldl {α : Type} {f : Chip → α → Chip} {l : List α} (hf : ∀ (c : Chip) (x : α), c.SysKept (f c x))
    (h : c.SysKept d) : c.SysKept (l.foldl f d) := by
  induction l generalizing d with
  | nil => exact h
  | cons x l ih => exact ih (.after (hf d x) h)

theorem Chip.SysKept.ite {b : Prop} [Decidable b] (hd : c.SysKept d) (he : c.SysKept e) : c.SysKept (if b then d else e) := by
  split <;> assumption

/-! ### The Ladle, SPEED_REQ and the accounts -/

theorem Chip.sysKept_ldlShow (c : Chip) (res : Nat) : c.SysKept (c.ldlShow res) := by
  unfold Chip.ldlShow
  exact .ite (.set (.set (.set (.refl c) (by decide)) (by decide)) (by decide))
    (.set (.set (.set (.refl c) (by decide)) (by decide)) (by decide))

theorem Chip.sysKept_ldlRelease (c : Chip) (client idx : Nat) : c.SysKept (c.ldlRelease client idx) := by
  unfold Chip.ldlRelease
  exact .foldl Chip.sysKept_ldlShow (.beside (.refl c) rfl)

theorem Chip.sysKept_ldlAsk (c : Chip) (client idx res amt : Nat) : c.SysKept (c.ldlAsk client idx res amt) :=
  .ite (.refl c) (.beside (.refl c) rfl)

theorem Chip.sysKept_serveSpreq (c : Chip) : c.SysKept c.serveSpreq := by
  have hcause : c.SysKept (c.set F.TRK_SPREQ_STAT_CAUSE c.spreqCauses) := .set (.refl c) (by decide)
  exact .ite (.refl c) (.ite (.beside (.set (v := 1) (i := 0) (j := 0) hcause (by decide : 0x10010000 ≤ F.TRK_SPREQ_STAT_OUT.addr)) rfl)
    (.ite (.beside hcause rfl) hcause))

theorem Chip.sysKept_portLineLost (c : Chip) (k : Fin 8) (n : Int) : c.SysKept (c.portLineLost k n) := .beside (.refl c) rfl

theorem Chip.sysKept_skipGroups (c : Chip) (k : Fin 8) (n : Int) : c.SysKept (c.skipGroups k n) :=
  .ite (.addSat (.refl c) (by decide)) (.refl c)

/-! ### A port's outputs and lines -/

theorem Chip.sysKept_heldLinesLost (c : Chip) (k : Fin 8) : c.SysKept (c.heldLinesLost k) := by
  unfold Chip.heldLinesLost
  exact .foldl (fun d e => .after (Chip.sysKept_skipGroups _ _ _) (d.sysKept_portLineLost k e.line)) (.beside (.refl c) rfl)

theorem Chip.sysKept_outputsOff (c : Chip) (k : Fin 8) : c.SysKept (c.outputsOff k) := by
  unfold Chip.outputsOff
  exact .set (.set (.set (.beside (.refl c) rfl) (by decide)) (by decide)) (by decide)

theorem Chip.sysKept_enter (c : Chip) (k : Fin 8) (st : Nat) : c.SysKept (c.enter k st) := by
  unfold Chip.enter
  exact .set (.beside (.refl c) rfl) (by decide)

theorem Chip.sysKept_blankLeaves (c : Chip) (k : Fin 8) (cut : Bool) : c.SysKept (c.blankLeaves k cut) := by
  unfold Chip.blankLeaves
  refine .after (Chip.sysKept_serveSpreq _) (.set (.set (.set ?_ (by decide)) (by decide)) (by decide))
  exact .ite (.emit (.set (.refl c) (by decide))) (.refl c)

/-! ### Flowstone, as a port leaves UP (R272, R273, R276) -/

theorem Chip.sysKept_warmStop (c : Chip) (k : Fin 8) (cause : Nat) : c.SysKept (c.warmStop k cause) := by
  unfold Chip.warmStop
  have hfree := c.sysKept_ldlRelease 6 k
  exact .ite (.emit (.setBit (.setBit hfree (by decide)) (by decide))) hfree

theorem Chip.sysKept_keepServe (c : Chip) : c.SysKept c.keepServe := by
  unfold Chip.keepServe
  exact .foldl (fun d k => .ite (d.sysKept_ldlAsk 7 k _ _) (.setBit (d.sysKept_ldlRelease 7 k) (by decide))) (.refl c)

theorem Chip.sysKept_showBounds (c : Chip) (ic : Nat) : c.SysKept (c.showBounds ic) := by
  unfold Chip.showBounds
  extract_lets b lo hi shown
  have hshown : c.SysKept shown := .set (.set (.refl c) (by decide)) (by decide)
  exact .ite (.refl c) (.ite (.emit (.set hshown (by decide))) hshown)

theorem Chip.sysKept_flwBounds (c : Chip) : c.SysKept c.flwBounds := by
  unfold Chip.flwBounds
  exact .foldl Chip.sysKept_showBounds (.refl c)

theorem Chip.sysKept_commitEnd (c : Chip) : c.SysKept c.commitEnd := by
  unfold Chip.commitEnd
  exact .ite (.after (Chip.sysKept_flwBounds _) (.set (.set (.refl c) (by decide)) (by decide))) (.refl c)

theorem Chip.sysKept_commitTake (c : Chip) (k : Fin 8) : c.SysKept (c.commitTake k) := by
  unfold Chip.commitTake
  exact .after (Chip.sysKept_commitEnd _) (.setBit (.beside (.refl c) rfl) (by decide))

theorem Chip.sysKept_commitPhase2 (c : Chip) : c.SysKept c.commitPhase2 := by
  unfold Chip.commitPhase2
  exact .ite (.after (Chip.sysKept_commitEnd _) (.foldl Chip.sysKept_commitTake (.beside (.refl c) rfl))) (.refl c)

theorem Chip.sysKept_commitLoaded (c : Chip) (k : Fin 8) : c.SysKept (c.commitLoaded k) := by
  unfold Chip.commitLoaded
  exact .ite (.after (Chip.sysKept_commitPhase2 _) (.beside (.refl c) rfl)) (.refl c)

theorem Chip.sysKept_flwPortDown (c : Chip) (k : Fin 8) : c.SysKept (c.flwPortDown k) := by
  unfold Chip.flwPortDown
  exact .after (Chip.sysKept_commitLoaded _ k) (.after (Chip.sysKept_keepServe _) (c.sysKept_warmStop k 4))

/-! ### Twin takeover, as a port leaves UP (R372, R377) -/

theorem Chip.sysKept_countLost (c : Chip) (k : Fin 8) (n : Int) : c.SysKept (c.countLost k n) := by
  unfold Chip.countLost
  split
  · exact .refl c
  · extract_lets first lines half counted
    have hcounted : c.SysKept counted := .foldl (fun d m => .ite (.beside (.refl d) rfl) (.beside (.refl d) rfl)) (.refl c)
    exact .beside hcounted rfl

theorem Chip.sysKept_halfCause (c : Chip) : c.SysKept c.halfCause := by
  unfold Chip.halfCause
  exact .after (Chip.sysKept_serveSpreq _) (.beside (.refl c) rfl)

theorem Chip.sysKept_showTakeover (c : Chip) (ports : List (Fin 8)) (n : Int) : c.SysKept (c.showTakeover ports n) := by
  unfold Chip.showTakeover
  exact .set (.set (.set (.refl c) (by decide)) (by decide)) (by decide)

theorem Chip.sysKept_sendTakeover (c : Chip) (ports : List (Fin 8)) : c.SysKept (c.sendTakeover ports).1 := by
  unfold Chip.sendTakeover
  refine .after (Chip.sysKept_halfCause _) (.emit (.addSat (.after (Chip.sysKept_showTakeover _ _ _) ?_) (by decide)))
  exact .foldl (fun d k => .setBit (.setBit (.beside (.refl d) rfl) (by decide)) (by decide)) (.refl c)

theorem Chip.sysKept_goHalf (c : Chip) (ports : List (Fin 8)) : c.SysKept (c.goHalf ports) := by
  unfold Chip.goHalf
  refine .foldl (fun d k => Chip.sysKept_countLost _ _ _) (.after (Chip.sysKept_halfCause _) (.emit ?_))
  exact .foldl (fun d k => .setBit (.refl d) (by decide)) (.refl c)

theorem Chip.sysKept_decideLoss (c : Chip) (ports : List (Fin 8)) : c.SysKept (c.decideLoss ports) := by
  unfold Chip.decideLoss
  exact .ite (.refl c)
    (.ite (.ite (.foldl (fun d k => Chip.sysKept_countLost _ _ _) (.refl c)) (.setTko (c.sysKept_sendTakeover _))) (c.sysKept_goHalf _))

theorem Chip.sysKept_stbyCommand (c : Chip) (k : Fin 8) (tp : Nat) (on : Bool) (n : Int) : c.SysKept (c.stbyCommand k tp on n).1 := by
  unfold Chip.stbyCommand
  split
  · exact .beside (.refl c) rfl
  · exact .emit (.addSat (.refl c) (by decide))

theorem Chip.sysKept_stbyStart (c : Chip) (q : Nat) (k : Fin 8) (n : Int) : c.SysKept (c.stbyStart q k n) :=
  .emit (c.sysKept_stbyCommand k q true n)

theorem Chip.sysKept_tkoSend (c : Chip) (ty : Nat) (body : List Nat) : c.SysKept (c.tkoSend ty body) := .beside (.refl c) rfl

theorem Chip.sysKept_stbyAuto (c : Chip) : c.SysKept c.stbyAuto := by
  unfold Chip.stbyAuto
  refine .ite (.refl c) (.foldl (fun d q => .ite ?_ (.refl d)) (.refl c))
  split
  · exact .refl d
  · exact .after (Chip.sysKept_tkoSend _ _ _) (d.sysKept_stbyStart _ _ _)

theorem Chip.sysKept_tkoPortDown (c : Chip) (k : Fin 8) : c.SysKept (c.tkoPortDown k) := by
  unfold Chip.tkoPortDown
  refine .after (Chip.sysKept_stbyAuto _) (.ite ?_ (.refl c))
  dsimp only
  split
  · exact .ite (.after (Chip.sysKept_decideLoss _ _) (.setBit (.refl c) (by decide))) (.refl c)
  · exact .refl c

/-! ### A port leaves its state (R56, R320, R322) -/

theorem Chip.sysKept_portLeaves (c : Chip) (k : Fin 8) (st : Nat) (cut : Bool) : c.SysKept (c.portLeaves k st cut) := by
  unfold Chip.portLeaves
  extract_lets up blanked off down
  have hblanked : c.SysKept blanked := .ite (c.sysKept_blankLeaves k cut) (.refl c)
  have hoff : c.SysKept off := .after (Chip.sysKept_outputsOff _ k) (.after (Chip.sysKept_heldLinesLost _ k) hblanked)
  have hdown : c.SysKept down := .after (Chip.sysKept_enter _ k st) (.after (Chip.sysKept_ldlRelease _ 0 k) hoff)
  exact .ite (.after (Chip.sysKept_tkoPortDown _ k) (.after (Chip.sysKept_flwPortDown _ k) hdown)) hdown

theorem Chip.sysKept_portReset (c : Chip) (k : Fin 8) : c.SysKept (c.portReset k) := by
  unfold Chip.portReset
  exact .beside (.ite (.refl c) (c.sysKept_portLeaves k 0 false)) rfl

end Sys2Proof.Machine
end

section
/-!
PROOFS about island resets (R30, R35, R37, R56, R742): what an island that goes down leaves of its registers, its crossings and its press
time, and how it comes up again.
-/

namespace Sys2Proof.Machine

variable {c d : Chip} {isl : Nat}

/-! ### SPEED_REQ follows in TRK alone -/

theorem Chip.Only.withTrk {ps : List Part} {rs : Set Nat} {x : TrkSt} (h : c.Only ps rs d) (hm : .trk ∈ ps) :
    c.Only ps rs { d with trk := x } := by
  refine h.beside rfl fun q hq => ?_
  cases q
  case trk => exact absurd hm hq
  all_goals rfl

theorem Chip.only_ite {ps : List Part} {rs : Set Nat} {e : Chip} {b : Prop} [Decidable b] (hd : c.Only ps rs d) (he : c.Only ps rs e) :
    c.Only ps rs (if b then d else e) := by
  split <;> assumption

theorem Chip.only_serveSpreq (c : Chip) : c.Only [.trk] {F.TRK_SPREQ_STAT_CAUSE.addr} c.serveSpreq := by
  have hcause : c.Only [.trk] {F.TRK_SPREQ_STAT_CAUSE.addr} (c.set F.TRK_SPREQ_STAT_CAUSE c.spreqCauses) :=
    (Chip.Only.refl _ _ c).set rfl
  have hout := (hcause.set (p := F.TRK_SPREQ_STAT_OUT) (v := 1) (i := 0) (j := 0) rfl)
  exact Chip.only_ite (Chip.Only.refl _ _ c)
    (Chip.only_ite (hout.withTrk (by simp)) (Chip.only_ite (hcause.withTrk (by simp)) hcause))

theorem Chip.serveSpreq_down (h : c.up 6 = false) : c.serveSpreq = c := by
  simp [Chip.serveSpreq, show (c.set F.TRK_SPREQ_STAT_CAUSE c.spreqCauses).up 6 = false from
    (congrArg (bitAt · 6) (Chip.get_set_other c _ _ _ _ _ _ _ (by decide))).trans h]

/-! ### Registers of an island's blocks go back to reset -/

theorem Chip.clearBlock_word (c : Chip) {id : Nat} (hid : id ≠ 0) (a : Nat) :
    (c.clearBlock id).word a = if blockOf a = id then resetWord a else c.word a := by
  have hin : (decide (0x10000000 + id * 0x10000 ≤ a) && decide (a < 0x10000000 + id * 0x10000 + 0x10000)) = decide (blockOf a = id) := by
    rw [Bool.eq_iff_iff]
    simp only [Bool.and_eq_true, decide_eq_true_eq]
    unfold blockOf
    constructor <;> intro h <;> omega
  simp only [Chip.word, Chip.clearBlock, sparseGet_clear, hin, decide_eq_true_eq]

theorem Chip.foldl_clearBlock_word (l : List Nat) (hl : 0 ∉ l) (c : Chip) (a : Nat) :
    (l.foldl Chip.clearBlock c).word a = if blockOf a ∈ l then resetWord a else c.word a := by
  induction l generalizing c with
  | nil => simp
  | cons id l ih =>
    obtain ⟨hid, hl⟩ : id ≠ 0 ∧ 0 ∉ l := by simpa [eq_comm] using hl
    rw [List.foldl_cons, ih hl, Chip.clearBlock_word c hid]
    by_cases hm : blockOf a ∈ l <;> simp [hm]

theorem mem_islandBlocks {b : Nat} : b ∈ islandBlocks isl ↔ b < 32 ∧ b ≠ 0 ∧ islandOf b = isl := by
  simp [islandBlocks]

theorem Chip.clearRegs_word (c : Chip) (isl : Nat) {a : Nat} (ha : a ≠ F.HST_SUBSYS_SUBSYS.addr) :
    (c.clearRegs isl).word a = if blockOf a ∈ islandBlocks isl then resetWord a else c.word a := by
  have hblocks := Chip.foldl_clearBlock_word (islandBlocks isl) (by simp [mem_islandBlocks]) c a
  unfold Chip.clearRegs
  dsimp only
  split
  · rw [Chip.word_set_other _ _ _ _ _ ha, hblocks]
  · exact hblocks

theorem Chip.sysKept_clearRegs (c : Chip) (isl : Nat) : c.SysKept (c.clearRegs isl) := by
  intro a ha
  have hsub : a ≠ F.HST_SUBSYS_SUBSYS.addr := by
    rintro rfl
    exact absurd ha (by decide)
  have hblock : blockOf a = 0 := by unfold blockOf; omega
  rw [Chip.clearRegs_word c isl hsub, if_neg (by simp [hblock, mem_islandBlocks])]

theorem Chip.sysKept_clearState (c : Chip) (isl : Nat) : c.SysKept (c.clearState isl) := by
  unfold Chip.clearState
  split
  · exact .after (Chip.sysKept_ldlRelease _ _ _) (.beside (.refl c) rfl)
  · extract_lets freed
    have hfreed : c.SysKept freed := .foldl (fun d q => d.sysKept_ldlRelease 1 q) (.refl c)
    clear_value freed
    exact .beside hfreed rfl
  · extract_lets freed
    have hfreed : c.SysKept freed := .foldl (fun d n => d.sysKept_ldlRelease 3 n) (c.sysKept_ldlRelease 2 0)
    clear_value freed
    exact .beside hfreed rfl
  · extract_lets freed
    have hfreed : c.SysKept freed := .foldl (fun d k => .after (Chip.sysKept_ldlRelease _ 7 _) (d.sysKept_ldlRelease 6 _)) (.refl c)
    clear_value freed
    exact .beside hfreed rfl
  · exact .beside (.refl c) rfl
  · exact .beside (.refl c) rfl
  · exact .refl c

/-! ### Crossings of an island (R30) -/

theorem Chip.emptyCrossings_src (c : Chip) (isl : Nat) : ∀ x ∈ (c.emptyCrossings isl).sys.crossings, x.src ≠ isl := by
  intro x hx hsrc
  simp only [Chip.emptyCrossings, Chip.setSys_sys, List.mem_filter, List.mem_map] at hx
  obtain ⟨⟨y, -, rfl⟩, hfull⟩ := hx
  by_cases hy : y.src = isl
  · simp [hy] at hfull
  · have hcut : ∀ z : Crossing, z.src = y.src → z.src ≠ isl := fun z hz => hz ▸ hy
    revert hsrc
    simp only [beq_eq_false_iff_ne.mpr hy, Bool.false_eq_true, if_false]
    split <;> exact hcut _ rfl

/-! ### An island goes down -/

/-- What `islandDown` has done before it clears the island's bit. -/
def Chip.emptied (c : Chip) (isl : Nat) : Chip :=
  let c := if 8 ≤ isl then c.portReset (Fin.ofNat 8 (isl - 8)) else c
  let c := ((c.clearState isl).clearRegs isl).emptyCrossings isl
  if isl = 6 then { c with trk := { c.trk with way := Vector.replicate 8 [] } }
  else if 8 ≤ isl then { c with trk := { c.trk with way := c.trk.way.set (Fin.ofNat 8 (isl - 8)) [] } } else c

theorem Chip.islandDown_eq (c : Chip) (isl : Nat) : c.islandDown isl = (c.emptied isl).setUp isl false := rfl

/-- The registers are as `clearRegs` leaves them, and the crossings as `emptyCrossings` does. -/
theorem Chip.emptied_eq (c : Chip) (isl : Nat) : ∃ d : Chip, c.SysKept d ∧ (8 ≤ isl ∨ d = c) ∧
    (c.emptied isl).regs = ((d.clearState isl).clearRegs isl).regs ∧
    (c.emptied isl).sys = (((d.clearState isl).clearRegs isl).emptyCrossings isl).sys := by
  unfold Chip.emptied
  by_cases hport : 8 ≤ isl
  · refine ⟨c.portReset (Fin.ofNat 8 (isl - 8)), c.sysKept_portReset _, .inl hport, ?_, ?_⟩ <;> simp only [hport, if_true] <;> split <;> rfl
  · refine ⟨c, .refl c, .inr rfl, ?_, ?_⟩ <;> simp only [hport, if_false] <;> split <;> rfl

theorem Chip.emptied_word (c : Chip) {a : Nat} (ha : a ≠ F.HST_SUBSYS_SUBSYS.addr) (hb : blockOf a ∈ islandBlocks isl) :
    (c.emptied isl).word a = resetWord a := by
  obtain ⟨d, -, -, hregs, -⟩ := c.emptied_eq isl
  rw [Chip.word_mk_other _ _ hregs, Chip.clearRegs_word _ _ ha, if_pos hb]

theorem Chip.sysKept_emptied (c : Chip) (isl : Nat) : c.SysKept (c.emptied isl) := by
  obtain ⟨d, hd, -, hregs, -⟩ := c.emptied_eq isl
  exact .beside (.after (Chip.sysKept_clearRegs _ isl) (.after (d.sysKept_clearState isl) hd)) hregs

theorem Chip.emptied_src (c : Chip) (isl : Nat) : ∀ x ∈ (c.emptied isl).sys.crossings, x.src ≠ isl := by
  obtain ⟨d, -, -, -, hsys⟩ := c.emptied_eq isl
  rw [hsys]
  exact Chip.emptyCrossings_src _ _

theorem Chip.SysKept.timeValid (h : c.SysKept d) (k : Nat) : d.timeValid k = c.timeValid k := by
  simp only [Chip.timeValid, Chip.get, h _ (show F.SYS_ISL_STAT_TIME_VALID.at 0 0 < 0x10010000 by decide)]

theorem Chip.SysKept.up (h : c.SysKept d) (k : Nat) : d.up k = c.up k := by
  simp only [Chip.up, Chip.get, h _ (show F.SYS_ISL_STAT_ISL_UP.at 0 0 < 0x10010000 by decide)]

/-! ### Its press time (R35) -/

theorem Chip.timeLost_timeValid (c : Chip) (h : isl < 16) (cause : Nat) (corr : Int) : (c.timeLost isl cause corr).timeValid isl = false := by
  have hsame : ∀ x : SysSt, (c.setSys x).timeValid isl = c.timeValid isl := fun _ => rfl
  unfold Chip.timeLost
  dsimp only
  split
  · exact (Chip.timeValid_setTimeValid _ isl isl false h).trans (if_pos rfl)
  · rename_i hv
    simpa using hv

theorem Chip.timeLost_sys (c : Chip) (isl cause : Nat) (corr : Int) :
    (c.timeLost isl cause corr).sys = { c.sys with goodMarkers := c.sys.goodMarkers.set (Fin.ofNat 16 isl) 0 } := by
  unfold Chip.timeLost
  dsimp only
  split <;> rfl

/-! ### One island is reset -/

/-- What `resetOne` has done before SPEED_REQ follows. -/
def Chip.downed (c : Chip) (isl : Nat) : Chip :=
  let c := (c.timeLost isl 2 0).islandDown isl
  (c.setSys { c.sys with inReset := putBit c.sys.inReset isl true }).emit 0x0004 [(1, isl)]

theorem Chip.resetOne_eq (h : c.up isl = true) : c.resetOne isl = (c.downed isl).serveSpreq := by
  simp [Chip.resetOne, h, Chip.downed]

theorem Chip.downed_up (c : Chip) (h : isl < 16) : (c.downed isl).up isl = false :=
  (Chip.up_setUp _ isl isl false h).trans (if_pos rfl)

theorem Chip.downed_timeValid (c : Chip) (h : isl < 16) : (c.downed isl).timeValid isl = false :=
  calc (c.downed isl).timeValid isl = ((c.timeLost isl 2 0).islandDown isl).timeValid isl := rfl
    _ = ((c.timeLost isl 2 0).emptied isl).timeValid isl := by rw [Chip.islandDown_eq, Chip.timeValid_setUp]
    _ = (c.timeLost isl 2 0).timeValid isl := (Chip.sysKept_emptied _ isl).timeValid isl
    _ = false := c.timeLost_timeValid h 2 0

theorem Chip.downed_word (c : Chip) {a : Nat} (ha : a ≠ F.HST_SUBSYS_SUBSYS.addr) (hb : blockOf a ∈ islandBlocks isl) :
    (c.downed isl).word a = resetWord a := by
  have hstat : a ≠ F.SYS_ISL_STAT_ISL_UP.at 0 0 := by
    rintro rfl
    exact (mem_islandBlocks.mp hb).2.1 (by decide)
  calc (c.downed isl).word a = ((c.timeLost isl 2 0).islandDown isl).word a := rfl
    _ = ((c.timeLost isl 2 0).emptied isl).word a := Chip.word_set_other _ _ _ _ _ hstat
    _ = resetWord a := Chip.emptied_word _ ha hb

theorem Chip.downed_sys (c : Chip) (isl : Nat) : (c.downed isl).sys = { ((c.timeLost isl 2 0).emptied isl).sys with
    inReset := putBit ((c.timeLost isl 2 0).emptied isl).sys.inReset isl true } := by
  unfold Chip.downed
  rw [Chip.islandDown_eq]
  generalize (c.timeLost isl 2 0).emptied isl = d
  rfl

theorem Chip.downed_src (c : Chip) (isl : Nat) : ∀ x ∈ (c.downed isl).sys.crossings, x.src ≠ isl := by
  rw [Chip.downed_sys]
  exact (c.timeLost isl 2 0).emptied_src isl

/-- The reset is recorded. -/
theorem Chip.downed_recorded (c : Chip) (h : isl < 16) : ∃ e ∈ (c.downed isl).ev.recs, e.code = 0x0004 ∧ e.detail = [isl] := by
  have hdetail : (packDetail [(1, isl)] []).1 = [isl] := by
    simp [packDetail, bytesLE]
    omega
  exact ⟨_, List.mem_append_right _ (List.mem_singleton_self _), rfl, hdetail⟩

/-- An island but POS may change SPEED_REQ as it goes down; POS leaves it as it is, for it is down. -/
theorem Chip.serveSpreq_word_of_downed (h : isl < 16) {a : Nat} (hb : blockOf a ∈ islandBlocks isl) :
    (c.downed isl).serveSpreq.word a = (c.downed isl).word a := by
  by_cases hpos : isl = 6
  · subst hpos
    rw [Chip.serveSpreq_down (c.downed_up h)]
  · refine (Chip.only_serveSpreq _).2 a fun hmem => hpos ?_
    rw [Set.mem_singleton_iff.mp hmem] at hb
    exact (mem_islandBlocks.mp hb).2.2.symm.trans (by decide)

theorem Chip.serveSpreq_sys (c : Chip) : c.serveSpreq.sys = c.sys := (Chip.only_serveSpreq c).1 .sys (by simp)

theorem Chip.serveSpreq_ev (c : Chip) : c.serveSpreq.ev = c.ev := (Chip.only_serveSpreq c).1 .ev (by simp)

/-- A write of SYS_ISL_RST with one bit resets one island. -/
theorem Chip.resetIslands_one (c : Chip) (h : isl < 16) (h2 : 2 ≤ isl) : c.resetIslands (2 ^ isl) = c.resetOne isl := by
  have hbits : ∀ k : Fin 16, 2 ≤ k.val → (setBits 16 (2 ^ k.val)).filter (fun (i : Nat) => decide (2 ≤ i)) = [k.val] := by decide +kernel
  rw [Chip.resetIslands, hbits ⟨isl, h⟩ h2]
  rfl

/-- The bits of AON and TRUST reset nothing. -/
theorem Chip.resetIslands_none (c : Chip) {mask : Nat} (h : mask < 4) : c.resetIslands mask = c := by
  have hbits : ∀ m : Fin 4, (setBits 16 m.val).filter (fun (i : Nat) => decide (2 ≤ i)) = [] := by decide +kernel
  rw [Chip.resetIslands, hbits ⟨mask, h⟩]
  rfl

end Sys2Proof.Machine
end

section
namespace Sys2Proof.Proofs
open Sys2Proof.Machine

variable {s : State} {isl : Nat}

/-! ### The write of SYS_ISL_RST -/

/-- SYS_ISL_RST in the register map. -/
theorem regWhere_islRst : ∃ d, regWhere (R.SYS_ISL_RST.at 0 0) = some (d, 0, 0) ∧ d.is R.SYS_ISL_RST = true := ⟨_, rfl, rfl⟩

/-- TC may write SYS_ISL_RST while AON is up. -/
theorem mayWrite_islRst (h : s.chip.up 0 = true) : s.chip.mayWrite .tc (R.SYS_ISL_RST.at 0 0) := by
  have hb : blockOf (R.SYS_ISL_RST.at 0 0) = 0 := rfl
  refine ⟨?_, ?_, ?_, fun _ => rfl⟩
  · simp [Chip.absent, hb]
  · rw [hb]; exact h
  · rw [hb]; rfl

theorem writeReg_islRst {d : RegDef} (hd : d.is R.SYS_ISL_RST = true) (w : Word) (x : Chip × Store) :
    writeReg .tc (R.SYS_ISL_RST.at 0 0) d 0 0 w false [] [] x = (x.1.resetIslands (w.toNat % 2 ^ 16), x.2) := by
  have hb : blockOf (R.SYS_ISL_RST.at 0 0) = 0 := rfl
  simp only [writeReg, hb, writeSys, hd, if_true]

/-- ISLAND_RESET_WRITE of TC comes to `resetIslands`. -/
theorem islandResetWrite_taken (t : Nat) {mask : Nat} (hm : mask < 2 ^ 16) (h : s.chip.up 0 = true) :
    exec (.islandResetWrite t .tc mask) s =
      .next { s with chip := (s.chip.wrote t .tc (R.SYS_ISL_RST.at 0 0)).resetIslands mask } := by
  obtain ⟨d, hr, hd⟩ := regWhere_islRst
  have hw : (BitVec.ofNat 32 (mask % 2 ^ 16)).toNat % 2 ^ 16 = mask := by
    rw [BitVec.toNat_ofNat]
    omega
  have htaken := runWrite_taken (t := t) (w := BitVec.ofNat 32 (mask % 2 ^ 16)) (mayWrite_islRst h) (by decide) hr (by decide)
    (fun hb => absurd hb (by decide))
  rw [writeReg_islRst hd, hw] at htaken
  exact htaken

/-- A write that does nothing more leaves all but the note of the write. -/
theorem writeLeaves_wrote {t : Nat} {i : Initiator} {a : Nat} : WriteLeaves t i a [] ∅ s { s with chip := s.chip.wrote t i a } := by
  refine ⟨⟨rfl, rfl, fun p hp => ?_, fun b _ => rfl⟩, rfl, rfl⟩
  cases p
  case answer | sys => simp at hp
  all_goals rfl

/-! ### An island leaves reset -/

theorem leaveReset_plain {c : Chip} (h : bitAt c.sys.inReset isl = true) (h2 : isl ≠ 2) (h6 : isl ≠ 6)
    (hval : c.on F.STR_STAT_ACTIVE_VALID = false) :
    c.leaveReset isl = (c.setSys { c.sys with inReset := putBit c.sys.inReset isl false }).setUp isl true := by
  have hload : ∀ x : SysSt, (c.setSys x).reloadIsland isl = c.setSys x := fun x => by simp [Chip.reloadIsland, hval]
  simp [Chip.leaveReset, h, Chip.islandUp, hload, h2, h6]

theorem leaveIsland_plain {x : Chip × Store} (h2 : isl ≠ 2) : leaveIsland isl x = (x.1.leaveReset isl, x.2) := by
  simp [leaveIsland, h2]

/-- Settles O6: an island that is reset goes through `Chip.downed`, whose registers, crossings and press time are those of reset; the bits of
AON and TRUST reset nothing; with no active image `leaveReset` sets the island's bit alone. -/
theorem islandResets : Obligations.IslandResets := by
  unfold Obligations.IslandResets
  refine ⟨?_, ?_, ?_⟩
  · intro t isl s h2 h16 haon hup
    have hmask : 2 ^ isl < 2 ^ 16 := Nat.pow_lt_pow_right (by decide) h16
    refine ⟨_, islandResetWrite_taken t hmask haon, rfl, rfl, ?_⟩
    simp only [Chip.resetIslands_one _ h16 h2]
    generalize hc : s.chip.wrote t .tc (R.SYS_ISL_RST.at 0 0) = c
    have hcup : c.up isl = true := by rw [← hc]; exact hup
    rw [Chip.resetOne_eq hcup]
    have honly := Chip.only_serveSpreq (c.downed isl)
    refine ⟨?_, ?_, ?_, ?_, ?_, ?_⟩
    · exact (congrArg (bitAt · isl) (honly.get (by decide))).trans (c.downed_up h16)
    · rw [Chip.serveSpreq_sys, Chip.downed_sys]
      simp [bitAt_putBit]
    · exact (congrArg (bitAt · isl) (honly.get (by decide))).trans (c.downed_timeValid h16)
    · rintro a ⟨hlo, hhi, hisl, hsub⟩
      have hblock : blockOf a ∈ islandBlocks isl := by
        refine mem_islandBlocks.mpr ⟨by unfold blockOf; omega, fun h0 => ?_, hisl⟩
        rw [h0] at hisl
        exact absurd hisl.symm (by simp [islandOf]; omega)
      rw [Chip.serveSpreq_word_of_downed h16 hblock, Chip.downed_word c hsub hblock]
    · rw [Chip.serveSpreq_sys]
      exact c.downed_src isl
    · rw [Chip.serveSpreq_ev]
      exact c.downed_recorded h16
  · intro t mask s hmask haon
    refine ⟨_, islandResetWrite_taken t (by omega) haon, ?_⟩
    simp only [Chip.resetIslands_none _ hmask]
    exact writeLeaves_wrote
  · intro t isl s h16 h2 h6 hres hval
    refine ⟨{ s with chip := (s.chip.at t).leaveReset isl }, ?_, ?_⟩
    · simp only [exec, execIslandLeaveReset, runBoth, leaveIsland_plain h2]
    · rw [leaveReset_plain (c := s.chip.at t) hres h2 h6 hval]
      refine ⟨leaves_of_only (((Chip.Only.refl _ _ _).setSys (by simp)).set rfl), ?_, rfl, ?_⟩
      · exact (Chip.up_setUp _ isl isl true h16).trans (if_pos rfl)
      · exact fun k hk hne => (Chip.up_setUp _ isl k true hk).trans (if_neg hne)

end Sys2Proof.Proofs
end

section
/-!
PROOFS about service firmware's restart (R44, R45): what a reset of JOB keeps of the record of service firmware.
-/

namespace Sys2Proof.Machine

variable {c d : Chip} {ps : List Part} {rs : Set Nat}

/-! ### A grant goes back (R571) -/

theorem Chip.only_ldlShow (c : Chip) (res : Nat) : c.Only [] Set.univ (c.ldlShow res) := by
  unfold Chip.ldlShow
  have hin : ∀ (p : Place) (i j : Nat), p.at i j ∈ (Set.univ : Set Nat) := fun _ _ _ => Set.mem_univ _
  exact Chip.only_ite ((((Chip.Only.refl _ _ c).set (hin _ _ _)).set (hin _ _ _)).set (hin _ _ _))
    ((((Chip.Only.refl _ _ c).set (hin _ _ _)).set (hin _ _ _)).set (hin _ _ _))

theorem Chip.only_foldl {α : Type} {f : Chip → α → Chip} (hf : ∀ (c : Chip) (x : α), c.Only ps rs (f c x)) (l : List α) (c : Chip) :
    c.Only ps rs (l.foldl f c) := by
  induction l generalizing c with
  | nil => exact .refl ps rs c
  | cons x l ih => exact (hf c x).trans (ih (f c x))

theorem Chip.Only.withLdl {x : LdlSt} (h : c.Only ps rs d) (hm : .ldl ∈ ps) : c.Only ps rs { d with ldl := x } := by
  refine h.beside rfl fun q hq => ?_
  cases q
  case ldl => exact absurd hm hq
  all_goals rfl

theorem Chip.only_ldlRelease (c : Chip) (client idx : Nat) : c.Only [.ldl] Set.univ (c.ldlRelease client idx) := by
  unfold Chip.ldlRelease
  exact ((Chip.Only.refl _ _ c).withLdl (by simp)).trans
    (Chip.only_foldl (fun d res => (d.only_ldlShow res).mono (by simp) (by simp)) _ _)

/-! ### JOB goes down -/

/-- The parts of the chip that a reset of JOB may touch. -/
def jobParts : List Part := [.sys, .ev, .ldl, .cal, .fw, .force, .latch, .dirty, .trk]

theorem Chip.only_clearRegs (c : Chip) (isl : Nat) : c.Only [.force, .latch, .dirty] Set.univ (c.clearRegs isl) := by
  unfold Chip.clearRegs
  have hblock : ∀ (d : Chip) (b : Nat), d.Only [.force, .latch, .dirty] Set.univ (d.clearBlock b) := by
    refine fun d b => ⟨fun q hq => ?_, fun a ha => absurd (Set.mem_univ a) ha⟩
    cases q
    case force | latch | dirty => simp at hq
    all_goals rfl
  have hblocks := Chip.only_foldl hblock (islandBlocks isl) c
  exact Chip.only_ite (hblocks.set (Set.mem_univ _)) hblocks

theorem Chip.clearState_two (c : Chip) : ∃ (x : CalSt) (y : FwSt), y.tcWait = c.fw.tcWait ∧
    c.clearState 2 = Chip.ldlRelease { c with cal := x, fw := y, sys := { c.sys with fwUp := false } } 4 0 :=
  ⟨{}, { c.fw with mbxRej := 0, tcOut := [], calCmd := none, forward := none, sends := [], heavy := false }, rfl, rfl⟩

/-- What JOB holds beside its registers is cleared; of the record of service firmware, that it runs. -/
theorem Chip.only_clearState_two (c : Chip) : c.Only [.sys, .cal, .fw, .ldl] Set.univ (c.clearState 2) ∧
    (c.clearState 2).sys = { c.sys with fwUp := false } ∧ (c.clearState 2).fw.tcWait = c.fw.tcWait := by
  obtain ⟨x, y, hwait, heq⟩ := c.clearState_two
  rw [heq]
  generalize hd : ({ c with cal := x, fw := y, sys := { c.sys with fwUp := false } } : Chip) = d
  have hfree := d.only_ldlRelease 4 0
  have hcd : c.Only [.sys, .cal, .fw, .ldl] Set.univ d := by
    subst hd
    refine ⟨fun q hq => ?_, fun a ha => absurd (Set.mem_univ a) ha⟩
    cases q
    case sys | cal | fw | ldl => simp at hq
    all_goals rfl
  refine ⟨hcd.trans (hfree.mono (by simp) (by simp)), ?_, ?_⟩
  · exact (hfree.1 .sys (by simp)).trans (by subst hd; rfl)
  · exact (congrArg FwSt.tcWait (hfree.1 .fw (by simp))).trans (by subst hd; exact hwait)

theorem Chip.emptyCrossings_sys (c : Chip) (isl : Nat) :
    (c.emptyCrossings isl).sys = { c.sys with crossings := (c.emptyCrossings isl).sys.crossings } := rfl

theorem Chip.emptied_two (c : Chip) : c.emptied 2 = ((c.clearState 2).clearRegs 2).emptyCrossings 2 := by
  simp [Chip.emptied]

theorem Chip.only_emptied_two (c : Chip) : c.Only jobParts Set.univ (c.emptied 2) ∧
    (∃ l, (c.emptied 2).sys = { c.sys with fwUp := false, crossings := l }) ∧ (c.emptied 2).fw.tcWait = c.fw.tcWait := by
  obtain ⟨hstate, hsys, hwait⟩ := c.only_clearState_two
  have hregs := (c.clearState 2).only_clearRegs 2
  rw [Chip.emptied_two]
  refine ⟨?_, ⟨(((c.clearState 2).clearRegs 2).emptyCrossings 2).sys.crossings, ?_⟩, ?_⟩
  · exact ((hstate.mono (by decide) (by simp)).trans (hregs.mono (by decide) (by simp))).setSys (by decide)
  · have hcleared := (hregs.1 .sys (by simp)).trans hsys
    rw [Chip.emptyCrossings_sys, hcleared]
  · exact (congrArg FwSt.tcWait (hregs.1 .fw (by simp))).trans hwait

theorem Chip.only_timeLost (c : Chip) (isl cause : Nat) (corr : Int) : c.Only [.sys, .ev] {F.SYS_ISL_STAT_TIME_VALID.addr} (c.timeLost isl cause corr) := by
  unfold Chip.timeLost
  have hgood : c.Only [.sys, .ev] {F.SYS_ISL_STAT_TIME_VALID.addr}
      (c.setSys { c.sys with goodMarkers := c.sys.goodMarkers.set (Fin.ofNat 16 isl) 0 }) := (Chip.Only.refl _ _ c).setSys (by simp)
  exact Chip.only_ite (.emit (.set hgood rfl) (by simp)) hgood

theorem Chip.only_resetOne_two (hup : c.up 2 = true) : c.Only jobParts Set.univ (c.resetOne 2) := by
  have hlost := c.only_timeLost 2 2 0
  obtain ⟨hempty, -, -⟩ := (c.timeLost 2 2 0).only_emptied_two
  rw [Chip.resetOne_eq hup]
  refine Chip.Only.trans ?_ ((Chip.only_serveSpreq _).mono (by decide) (by simp))
  unfold Chip.downed
  rw [Chip.islandDown_eq]
  exact ((((hlost.mono (by decide) (by simp)).trans hempty).set (Set.mem_univ _)).setSys (by decide)).emit (by decide)

/-- What a reset of JOB changes of the island record. -/
theorem Chip.resetOne_two_sys (hup : c.up 2 = true) : ∃ m l, (c.resetOne 2).sys =
    { c.sys with goodMarkers := m, crossings := l, fwUp := false, inReset := putBit c.sys.inReset 2 true } := by
  obtain ⟨-, ⟨l, hl⟩, -⟩ := (c.timeLost 2 2 0).only_emptied_two
  refine ⟨c.sys.goodMarkers.set (Fin.ofNat 16 2) 0, l, ?_⟩
  rw [Chip.resetOne_eq hup, Chip.serveSpreq_sys, Chip.downed_sys, hl, Chip.timeLost_sys]

theorem Chip.resetOne_two_tcWait (hup : c.up 2 = true) : (c.resetOne 2).fw.tcWait = c.fw.tcWait := by
  obtain ⟨-, -, hwait⟩ := (c.timeLost 2 2 0).only_emptied_two
  have hlost : (c.timeLost 2 2 0).fw = c.fw := (c.only_timeLost 2 2 0).1 .fw (by simp)
  have hspreq : (c.downed 2).serveSpreq.fw = (c.downed 2).fw := (Chip.only_serveSpreq _).1 .fw (by simp)
  have hdowned : (c.downed 2).fw = ((c.timeLost 2 2 0).emptied 2).fw := by
    unfold Chip.downed
    rw [Chip.islandDown_eq]
    generalize (c.timeLost 2 2 0).emptied 2 = d
    rfl
  rw [Chip.resetOne_eq hup, hspreq, hdowned, hwait, hlost]

theorem Chip.resetOne_two_up (hup : c.up 2 = true) : (c.resetOne 2).up 2 = false := by
  rw [Chip.resetOne_eq hup]
  exact (congrArg (bitAt · 2) ((Chip.only_serveSpreq _).get (by decide))).trans (c.downed_up (by decide))

/-! ### The restart (R44, R45) -/

/-- Service firmware's restart: JOB is down, and the other slot starts where its copy is good. -/
theorem Chip.restartService_spec (hup : c.up 2 = true) (m : Store) :
    (c.restartService m).now = c.now ∧ (c.restartService m).up 2 = false ∧ (c.restartService m).sys.fwUp = false ∧
    (c.restartService m).sys.fwDeferred = false ∧ bitAt (c.restartService m).sys.inReset 2 = true ∧
    (c.restartService m).sys.fwStarts = (c.sys.fwStarts || c.sys.fwCopy) ∧
    (c.restartService m).sys.fwSlot = (if c.sys.fwCopy then 1 - c.sys.fwSlot else c.sys.fwSlot) ∧
    (c.restartService m).fw.tcWait = c.fw.tcWait := by
  obtain ⟨g, l, hsys⟩ := Chip.resetOne_two_sys hup
  have hnow : (c.resetOne 2).now = c.now := (Chip.only_resetOne_two hup).1 .now (by decide)
  have hdown := Chip.resetOne_two_up hup
  have hwait := Chip.resetOne_two_tcWait hup
  unfold Chip.restartService
  generalize c.resetOne 2 = d at hsys hnow hdown hwait
  have hres : bitAt (putBit c.sys.inReset 2 true) 2 = true := by simp [bitAt_putBit]
  cases hcopy : c.sys.fwCopy with
  | false => simp [hsys, hnow, hdown, hcopy, hres, hwait]
  | true =>
    have hver : ∀ (e : Chip) (v : Nat), (e.set F.SEC_FW_SF_VER v).up 2 = e.up 2 := fun e v =>
      congrArg (bitAt · 2) (Chip.get_set_other _ _ _ _ _ _ _ _ (by decide))
    simp [hsys, hnow, hcopy, hres, hver, hdown, hwait]

/-- A restart asked for, with a good copy at hand: the slot taken into use is named in the boot record. -/
theorem startRequested_spec {x : Chip × Store} (hup : x.1.up 2 = true) (hcopy : x.1.sys.fwCopy = true) :
    startRequested x = (x.1.restartService x.2, x.2.nameService (1 - x.1.sys.fwSlot)) := by
  obtain ⟨-, -, -, -, -, hstarts, hslot, -⟩ := Chip.restartService_spec hup x.2
  simp [startRequested, hstarts, hslot, hcopy]

theorem Chip.restartWaits_stopped (h : c.on F.TRK_STAT_RUN = false) : c.restartWaits = false := by
  simp [Chip.restartWaits, h]

end Sys2Proof.Machine

namespace Sys2Proof.Proofs
open Sys2Proof.Machine

/-- Settles O8: a crash and a deferred request both come to `restartService`, which resets JOB and keeps the record of the slots. -/
theorem serviceFirmwareRestarts : Obligations.ServiceFirmwareRestarts := by
  unfold Obligations.ServiceFirmwareRestarts
  refine ⟨?_, ?_, ?_⟩
  · intro t s hfw htc h1 h2
    obtain ⟨hnow, hdown, hfwUp, hdefer, hres, hstarts, hslot, -⟩ := Chip.restartService_spec (c := s.chip.at t) h2 s.store
    have hcrash : serviceCrash (s.chip.at t, s.store) = ((s.chip.at t).restartService s.store, s.store) := by
      simp [serviceCrash, hfw, htc, h1]
    refine ⟨{ s with chip := (s.chip.at t).restartService s.store }, ?_, rfl, rfl, hnow, hdown, hfwUp, hdefer, hres, hstarts, hslot⟩
    simp only [exec, execServiceFwCrash, runBoth, hcrash]
  · intro t s hdefer htc h2 hcopy hrun
    obtain ⟨-, hdown, hfwUp, hdefer', -, hstarts, hslot, -⟩ := Chip.restartService_spec (c := s.chip.at t) h2 s.store
    have hstart : deferredStart (s.chip.at t, s.store) =
        ((s.chip.at t).restartService s.store, s.store.nameService (1 - s.chip.sys.fwSlot)) := by
      have hwaits : (s.chip.at t).restartWaits = false := Chip.restartWaits_stopped hrun
      simp [deferredStart, hdefer, htc, hwaits, startRequested_spec (x := (s.chip.at t, s.store)) h2 hcopy]
    refine ⟨{ s with
      chip := (s.chip.at t).restartService s.store
      store := s.store.nameService (1 - s.chip.sys.fwSlot) }, ?_, rfl, rfl, hdown, hfwUp, hdefer', ?_, ?_⟩
    · simp only [exec, execFwRestartDeferredStart, runBoth, hstart]
    · simp [hstarts, hcopy]
    · simp [hslot, hcopy]
  · intro t s hdefer
    have hnone : deferredStart (s.chip.at t, s.store) = (s.chip.at t, s.store) := by simp [deferredStart, hdefer]
    simp only [exec, execFwRestartDeferredStart, runBoth, hnone]

end Sys2Proof.Proofs
end

section
/-!
PROOFS about the head ports that both families of statements use: what an event of a port comes to while no switch is pending (R406), and
updates that change nothing.
-/

namespace Sys2Proof.Machine

variable {c d : Chip} {ps : List Part} {rs : Set Nat} {k : Fin 8}

theorem Chip.Only.setHp {x : PortSt} (h : c.Only ps rs d) (hm : .hp ∈ ps) : c.Only ps rs (d.setHp k x) := by
  refine h.beside rfl fun q hq => ?_
  cases q
  case hp => exact absurd hm hq
  all_goals rfl

theorem Chip.Only.setFlw {x : FlwSt} (h : c.Only ps rs d) (hm : .flw ∈ ps) : c.Only ps rs (d.setFlw x) := by
  refine h.beside rfl fun q hq => ?_
  cases q
  case flw => exact absurd hm hq
  all_goals rfl

theorem Chip.Only.send {n : String} {l : List Nat} (h : c.Only ps rs d) (hm : .sent ∈ ps) : c.Only ps rs (d.send n l) := by
  refine h.beside rfl fun q hq => ?_
  cases q
  case sent => exact absurd hm hq
  all_goals rfl

theorem Chip.Only.bring {a : Nat} (h : c.Only ps rs d) (hm : .force ∈ ps) : c.Only ps rs (d.bring a) := by
  refine h.beside rfl fun q hq => ?_
  cases q
  case force => exact absurd hm hq
  all_goals rfl

theorem Chip.port_setHp_same (c : Chip) (k : Fin 8) (p : PortSt) : (c.setHp k p).port k = p := by simp [Chip.port]

theorem Chip.port_setHp_other (c : Chip) {j : Fin 8} (h : j ≠ k) (p : PortSt) : (c.setHp k p).port j = c.port j := by
  have hne : k.val ≠ j.val := fun he => h (Fin.ext he.symm)
  simp [Chip.port, hne]

/-! ### While no switch is pending (R406) -/

theorem Chip.strServe_idle (h : c.switchState = 0) : c.strServe = c := by simp [Chip.strServe, Chip.passedParts, h]

/-- No part of a switch is to apply. -/
theorem Chip.partDue_idle (h : c.switchState = 0) (part : Nat) : c.partDue part = false := by simp [Chip.partDue, h]

theorem Chip.Only.switchState (h : c.Only ps rs d) (ha : F.STR_STAT_SW_STATE.at 0 0 ∉ rs) : d.switchState = c.switchState := h.get ha

/-- An event of a port whose island is up. -/
theorem runPort_idle {t : Nat} {f : Chip → Chip} {s : State} (hup : s.chip.up (8 + k.val) = true) (h : (f (s.chip.at t)).switchState = 0) :
    runPort t k f s = .next { s with chip := f (s.chip.at t) } := by
  have hup' : (s.chip.at t).up (portIsland k) = true := hup
  simp only [runPort, runChip, inIsland_up hup', Chip.strServe_idle h]

/-! ### Updates that change nothing -/

theorem Chip.ldlRelease_idle (hg : c.ldl.grants = []) (ha : c.ldl.asks = []) (client idx : Nat) : c.ldlRelease client idx = c := by
  have hsame : { c.ldl with grants := [], asks := [] } = c.ldl := by
    cases h : c.ldl
    simp_all
  simp [Chip.ldlRelease, hg, ha, hsame]

/-- A counter that stops at its greatest value, with nothing added. -/
theorem Chip.satNat_get (c : Chip) (p : Place) (i j : Nat) : satNat (p.hi + 1 - p.lo) (c.get p i j) = c.get p i j :=
  if_pos (c.get_lt p i j)

theorem Chip.get_addSat_same (c : Chip) (p : Place) (n i j : Nat) (h : p.lo ≤ p.hi + 1) (hw : p.hi < 32) :
    (c.addSat p n i j).get p i j = satNat (p.hi + 1 - p.lo) (c.get p i j + n) := by
  have hlt : satNat (p.hi + 1 - p.lo) (c.get p i j + n) < 2 ^ (p.hi + 1 - p.lo) := satNat_lt _ _
  rw [Chip.addSat, Chip.get_set_same _ _ _ _ _ h hw, Nat.mod_eq_of_lt hlt]

/-- Setting a field to what it reads. -/
theorem Chip.word_set_self (c : Chip) (p : Place) (i j a : Nat) (h : p.lo ≤ p.hi + 1) : (c.set p (c.get p i j) i j).word a = c.word a := by
  by_cases ha : a = p.at i j
  · subst ha
    simp [Chip.set, Chip.get, withBits_bitsOf_self _ h]
  · exact Chip.word_set_other c p _ i j ha

theorem Chip.only_addSat_zero (c : Chip) (p : Place) (i j : Nat) (h : p.lo ≤ p.hi + 1) : c.Only [] ∅ (c.addSat p 0 i j) := by
  have hsame : c.addSat p 0 i j = c.set p (c.get p i j) i j := congrArg (fun v => c.set p v i j) (c.satNat_get p i j)
  rw [hsame]
  exact ⟨fun q _ => q.kept_setWord _ _ _, fun a _ => c.word_set_self p i j a h⟩

theorem Chip.hpServe_idle (h : (c.port k).todo = []) : c.hpServe k = c := by simp [Chip.hpServe, h]

end Sys2Proof.Machine
end

section
/-!
PROOFS about a port line at its port: line events, transfers, segments, strobes and the strobe watchdog (R39, R40, R287 to R306, R341).
-/

namespace Sys2Proof.Machine

variable {c d : Chip} {k : Fin 8} {e : LineEvent} {rest : List LineEvent}

/-! ### A line event reaches the port (R39, R40, R125) -/

/-- Line event e of port k has left TRK's way. -/
def Chip.wayTaken (c : Chip) (k : Fin 8) (rest : List LineEvent) : Chip := { c with trk := { c.trk with way := c.trk.way.set k rest } }

theorem Chip.warmStop_idle (hg : c.ldl.grants = []) (ha : c.ldl.asks = []) (hact : bitAt (c.get F.FLW_WARM_STAT_IDLE_ACT) k = false) (cause : Nat) :
    c.warmStop k cause = c := by
  simp [Chip.warmStop, Chip.ldlRelease_idle hg ha, hact]

theorem Chip.warmCharge_idle (h : c.flw.warmSent[k] = []) (n : Int) : c.warmCharge k n = c := by
  simp only [Chip.warmCharge, h, List.isEmpty_nil, if_true]

theorem Chip.eventArrives_cons (hway : c.trk.way[k] = e :: rest) :
    c.eventArrives k =
      (let d := ((c.wayTaken k rest).warmStop k 3).warmCharge k e.line
      if d.isUp k && !d.isFenced k then d.eventTaken k e else d.eventAtVacant k e) := by
  simp only [Chip.eventArrives, hway]
  rfl

/-- A port that is UP and neither fenced nor warming takes the event. -/
theorem Chip.eventArrives_up (hway : c.trk.way[k] = e :: rest) (hup : c.isUp k = true) (hfence : c.isFenced k = false)
    (hg : c.ldl.grants = []) (ha : c.ldl.asks = []) (hact : bitAt (c.get F.FLW_WARM_STAT_IDLE_ACT) k = false) (hwarm : c.flw.warmSent[k] = []) :
    c.eventArrives k = (c.wayTaken k rest).eventTaken k e := by
  have hstop := Chip.warmStop_idle (c := c.wayTaken k rest) hg ha hact 3
  have hcharge := Chip.warmCharge_idle (c := c.wayTaken k rest) hwarm e.line
  have hup' : (c.wayTaken k rest).isUp k = true := hup
  have hfence' : (c.wayTaken k rest).isFenced k = false := hfence
  simp only [Chip.eventArrives_cons hway, hstop, hcharge, hup', hfence', Bool.not_false, Bool.and_self, if_true]

/-- An event in time is held. -/
theorem Chip.eventTaken_held (hdrop : e.drop = false) (hdue : c.nowQ ≤ c.firstDue k e) (hroom : (c.port k).events.length < 64) :
    c.eventTaken k e = c.setHp k { c.port k with events := (c.port k).events ++ [e] } := by
  have hlate : ¬ c.firstDue k e < c.nowQ := not_lt.mpr hdue
  have hkeep : (((c.port k).events ++ [e]).reverse.take 64).reverse = (c.port k).events ++ [e] := by
    rw [List.take_of_length_le (by simp; omega), List.reverse_reverse]
  simp only [Chip.eventTaken, hdrop, Bool.false_eq_true, if_false, if_neg hlate, hkeep]

theorem Chip.skipLines_idle (hxfer : (c.port k).xfer = none) (hheld : (c.port k).held = Vector.replicate 6 []) (p : Int → Bool) :
    c.skipLines k p = c := by
  simp [Chip.skipLines, hxfer, hheld]

/-- An event marked DROP is passed over. -/
theorem Chip.eventTaken_dropped (hdrop : e.drop = true) (hfires : c.portFires k e.line = true) (hxfer : (c.port k).xfer = none)
    (hheld : (c.port k).held = Vector.replicate 6 []) :
    c.eventTaken k e = (c.setHp k { c.port k with gone := e.line :: (c.port k).gone }).skipGroups k e.line := by
  have hport := c.port_setHp_same k { c.port k with gone := e.line :: (c.port k).gone }
  simp only [Chip.eventTaken, hdrop, hfires, if_true]
  generalize c.setHp k { c.port k with gone := e.line :: (c.port k).gone } = d at hport ⊢
  rw [Chip.skipLines_idle (by rw [hport]; exact hxfer) (by rw [hport]; exact hheld)]

theorem Chip.only_skipGroups (c : Chip) (k : Fin 8) (n : Int) : c.Only [] {F.NZH_MISS_CNT_SKIP.addr} (c.skipGroups k n) :=
  Chip.only_ite ((Chip.Only.refl _ _ c).addSat rfl) (Chip.Only.refl _ _ c)

theorem Chip.get_skipGroups (c : Chip) (k : Fin 8) (n : Int) : (c.skipGroups k n).get F.NZH_MISS_CNT_SKIP =
    satNat (F.NZH_MISS_CNT_SKIP.hi + 1 - F.NZH_MISS_CNT_SKIP.lo) (c.get F.NZH_MISS_CNT_SKIP + (if c.senses k then c.groupsPerLine k n else 0)) := by
  unfold Chip.skipGroups
  split
  · exact Chip.get_addSat_same _ _ _ _ _ (by decide) (by decide)
  · exact (c.satNat_get _ 0 0).symm

/-! ### The transfer start (R287, R291, R294) -/

section Transfer

variable {m : Int} {l : PortLine}

theorem Chip.lineTransfer_idle (h : c.switchState = 0) (k : Fin 8) : c.lineTransfer k = c.transferStart k := by
  have hport : c.applyPortTransfer k = c := by simp [Chip.applyPortTransfer, Chip.partDue_idle h]
  unfold Chip.lineTransfer
  cases c.nextTransfer k with
  | none => rfl
  | some m => simp [hport]

theorem Chip.transferStart_due (hup : c.isUp k = true) (hfence : c.isFenced k = false) (hxfer : (c.port k).xfer = none)
    (hnext : c.nextTransfer k = some m) (hdue : c.transferDue k m = true) :
    c.transferStart k = (c.bring (R.HP_FTRIM.at k 0)).transferAt k m := by
  simp [Chip.transferStart, hup, hfence, hxfer, hnext, hdue]

theorem Chip.limitBoundary_idle (h : (c.port k).pendLimit = none) : c.limitBoundary k = c := by simp [Chip.limitBoundary, h]

theorem Chip.fillOver_idle (h : (c.port k).fillFrom = none) (m : Int) : c.fillOver k m = c := by simp [Chip.fillOver, h]

theorem Chip.withheld_idle (hblank : c.on F.HP_PSTAT_BLANK k = false) (hfill : (c.port k).fillFrom = none) (m : Int) : c.withheld k m = false := by
  simp [Chip.withheld, hblank, hfill]

/-- The line at the head of the queue goes to the head of the port. -/
theorem Chip.transferAt_queued {more : List PortLine} (hqueue : (c.port k).queue = l :: more) (hline : l.line = m)
    (hgone : m ∉ (c.port k).gone) (htime : c.timeValid (8 + k.val) = true) (hlimit : (c.port k).pendLimit = none)
    (hfill : (c.port k).fillFrom = none) (hblank : c.on F.HP_PSTAT_BLANK k = false) :
    c.transferAt k m = (c.unqueue k m).transferLine k l := by
  have hport := c.port_setHp_same k { c.port k with
    queue := (c.port k).queue.filter (fun q => m < q.line), xferTop := some m, gone := (c.port k).gone.filter (fun n => m < n) }
  have hlimit' : ((c.unqueue k m).port k).pendLimit = none := (congrArg PortSt.pendLimit hport).trans hlimit
  have hfill' : ((c.unqueue k m).port k).fillFrom = none := (congrArg PortSt.fillFrom hport).trans hfill
  have htime' : (c.unqueue k m).timeValid (8 + k.val) = true := htime
  have hheld : (c.unqueue k m).withheld k m = false := Chip.withheld_idle (c := c.unqueue k m) hblank hfill' m
  have hfind : (c.port k).queue.find? (fun q => q.line == m) = some l := by simp [hqueue, hline]
  have hpast : (c.port k).gone.contains m = false := by simpa using hgone
  simp only [Chip.transferAt, hfind, hpast, Chip.limitBoundary_idle hlimit', Chip.fillOver_idle hfill', htime', hheld, Bool.false_eq_true,
    Bool.not_true, if_false]

theorem Chip.coldRemap_off (hlines : c.get F.FLW_COLDMAP_LINES = 0) (hleft : c.flw.coldLeft[k] = 0) (words : List (List Nat)) :
    c.coldRemap k words = (c.setBit F.FLW_STAT_COLD k false, words) := by
  simp [Chip.coldRemap, hlines, hleft]

/-- The registers that a transfer start shows. -/
def transferRegs (k : Fin 8) : Set Nat := {F.HP_SPREAD_CNT_COUNT.at k 0, F.HP_GRP_G_NOW.at k 0, F.FLW_STAT_COLD.addr}

theorem swState_not_transferRegs (k : Fin 8) : F.STR_STAT_SW_STATE.at 0 0 ∉ transferRegs k := by
  have hapart : ∀ k : Fin 8, F.STR_STAT_SW_STATE.at 0 0 ≠ F.HP_SPREAD_CNT_COUNT.at k 0 ∧ F.STR_STAT_SW_STATE.at 0 0 ≠ F.HP_GRP_G_NOW.at k 0 ∧
    F.STR_STAT_SW_STATE.at 0 0 ≠ F.FLW_STAT_COLD.addr := by decide
  simpa [transferRegs] using hapart k

/-- The transfer with its line tag, and what the head is told of it. -/
theorem Chip.transferLine_plain (hrestore : (c.port k).restore = false) (hlines : c.get F.FLW_COLDMAP_LINES = 0)
    (hleft : c.flw.coldLeft[k] = 0) :
    ∃ (d : Chip) (x : Transfer), c.Only [] (transferRegs k) d ∧ x.line = l.line ∧ x.ltag = (c.port k).ltag ∧ x.words = l.words ∧ x.bank = l.bank ∧
      c.transferLine k l = (d.setHp k { c.port k with
        ltag := ((c.port k).ltag + 1) % 4096, xfer := some x, sent := (⟨l.line, (c.port k).ltag, l.sensed⟩ :: (c.port k).sent).take 64 }).send
        "sns" ([k.val, (c.port k).ltag] ++ l.sensed) := by
  have hlanes : c.lanesRestored k = c := by simp [Chip.lanesRestored, hrestore]
  unfold Chip.transferLine
  rw [hlanes, Chip.coldRemap_off hlines hleft]
  extract_lets cold words g d p x
  have hcold : c.Only [] (transferRegs k) (c.setBit F.FLW_STAT_COLD k false) := (Chip.Only.refl _ _ c).set (by simp [transferRegs, Place.at])
  have hd : c.Only [] (transferRegs k) d :=
    .set (Chip.only_ite (.addSat hcold (by simp [transferRegs])) hcold) (by simp [transferRegs])
  have hp : p = c.port k := congrArg (fun (h : Vector PortSt 8) => h[k]) (hd.1 .hp (by simp))
  clear_value p
  subst hp
  exact ⟨d, x, hd, rfl, rfl, rfl, rfl, rfl⟩

/-- From the transfer due to the transfer begun. -/
theorem Chip.lineTransfer_queued {more : List PortLine} (hsw : c.switchState = 0) (hup : c.isUp k = true) (hfence : c.isFenced k = false)
    (hxfer : (c.port k).xfer = none) (hnext : c.nextTransfer k = some m) (hdue : c.transferDue k m = true)
    (hqueue : (c.port k).queue = l :: more) (hline : l.line = m) (hgone : m ∉ (c.port k).gone) (htime : c.timeValid (8 + k.val) = true)
    (hlimit : (c.port k).pendLimit = none) (hfill : (c.port k).fillFrom = none) (hblank : c.on F.HP_PSTAT_BLANK k = false) :
    c.lineTransfer k = ((c.bring (R.HP_FTRIM.at k 0)).unqueue k m).transferLine k l := by
  rw [Chip.lineTransfer_idle hsw, Chip.transferStart_due hup hfence hxfer hnext hdue]
  exact Chip.transferAt_queued (c := c.bring (R.HP_FTRIM.at k 0)) hqueue hline hgone htime hlimit hfill hblank

end Transfer

/-! ### Segments (R291 to R295) -/

theorem Chip.transferRest_more (x : Transfer) (a : Nat) (more : List Nat) :
    c.transferRest k x (a :: more) = c.setHp k { c.port k with xfer := some { x with rows := a :: more } } := by
  simp [Chip.transferRest]

/-- How long a segment of 81 blocks is on the link (R283, R291). -/
def Chip.segmentTime (c : Chip) (k : Fin 8) : Nat := ns 33 * (if c.get F.HP_STAT_LANES k = 3 then 41 else 81)

/-- The bytes of the segment of row r: its header and the row's nibbles. -/
def Transfer.segment (x : Transfer) (k : Fin 8) (r : Nat) : List Nat :=
  [k.val, x.ltag, r, x.bank, x.g, unsigned 8 (x.trims.getD r 0), crc16 (nibbleBytes (x.words.getD r []))] ++ nibbleBytes (x.words.getD r [])

/-- The segment of the next row goes into a free slot; more rows follow. -/
theorem Chip.segmentSend_next {x : Transfer} {r : Fin 6} {a : Nat} {more : List Nat} (hxfer : (c.port k).xfer = some x)
    (hrows : x.rows = r.val :: a :: more) (hpredict : (c.port k).predict x.line = none) (hslot : ((c.port k).held[r]).length < 2)
    (hlink : (c.port k).busyUntil ≤ c.now) :
    ∃ recent : List (Nat × Nat), c.segmentSend k = ((c.setHp k { c.port k with
        held := (c.port k).held.set r ((c.port k).held[r] ++ [{ line := x.line, ltag := x.ltag, groups := 4 * 2 ^ x.g, bank := x.bank }])
        busyUntil := c.now + c.segmentTime k, recent := recent }).send "segment" (x.segment k r)).transferRest k x (a :: more) := by
  have hdur : c.blockTime k 81 = c.segmentTime k := rfl
  have hr : r.val < 6 := r.isLt
  refine ⟨c.sentLately (c.port k) ++ [(c.now + c.segmentTime k, r.val)], ?_⟩
  have hrow : (⟨r.val, hr⟩ : Fin 6) = r := rfl
  simp only [Chip.segmentSend, hxfer, hrows, dif_pos hr, hpredict, hrow, hslot, hlink, hdur, Bool.false_eq_true, if_false, and_self, if_true]
  rfl

/-! ### Strobes (R303 to R306) -/

/-- A line that the port has begun to fire is not begun again. -/
theorem Chip.lineStarts_begun {n : Int} (h : (c.port k).firedTop = some n) : c.lineStarts k n = c := by simp [Chip.lineStarts, h]

/-- One row strobes at its edge. -/
theorem Chip.fireStrobe_one {r : Fin 6} {h : HeldRow} {tap : Int} (hup : c.isUp k = true) (htime : c.timeValid (8 + k.val) = true)
    (hwdog : (c.port k).wdogHeld = false) (hnext : c.nextStrobes k = [(r, h, tap)]) (hedge : tap ≤ c.nowTaps)
    (hlast : (c.port k).lastSymbol = none) : c.fireStrobe k = c.symbol k tap [(r, h, tap)] := by
  have hnow : ¬ c.nowTaps < tap := not_lt.mpr hedge
  have hmerge : tap < tap + 160 := by omega
  simp [Chip.fireStrobe, hnext, hlast, hnow, hup, hwdog, htime, hmerge]

/-- What a symbol of one begun row comes to. -/
theorem Chip.symbol_one {r : Fin 6} {h : HeldRow} {tap : Int} (hfired : (c.port k).firedTop = some h.line)
    (htodo : (((c.port k).strobed r).todo) = []) :
    c.symbol k tap [(r, h, tap)] =
      (((c.setHp k { (c.port k).strobed r with lastSymbol := some tap }).setFlw { c.flw with
        lastStrobe := c.flw.lastStrobe.set k c.now, everFired := c.flw.everFired.set k true }).addSat F.HP_MERGE_CNT_COUNT 0 k).send "fire"
        [k.val, 2 ^ r.val, tap.toNat] := by
  have hport := c.port_setHp_same k { (c.port k).strobed r with lastSymbol := some tap }
  simp only [Chip.symbol, List.foldl_cons, List.foldl_nil, Chip.lineStarts_begun hfired, List.map_cons, List.map_nil, List.sum_cons, List.sum_nil,
    List.length_singleton, Nat.sub_self, Nat.add_zero]
  exact Chip.hpServe_idle ((congrArg PortSt.todo hport).trans htodo)

/-! ### The strobe watchdog (R341, R351) -/

theorem Chip.wdogAct_below {high : Nat} (h : high < (c.port k).wdog) : c.wdogAct k high = c := by
  simp [Chip.wdogAct, Nat.not_le.mpr h]

/-- A port that holds no line event loses none. -/
theorem Chip.heldLinesLost_empty (h : (c.port k).events = []) : ∃ x : PortSt, x.wdogHeld = (c.port k).wdogHeld ∧ c.heldLinesLost k = c.setHp k x := by
  simp only [Chip.heldLinesLost, h, List.filter_nil, List.foldl_nil]
  refine ⟨_, ?_, rfl⟩
  rfl

/-- A client without a grant takes no register with it. -/
theorem Chip.only_ldlRelease_ungranted (h : c.ldl.grants = []) (client idx : Nat) : c.Only [.ldl] ∅ (c.ldlRelease client idx) := by
  simp only [Chip.ldlRelease, h, List.filter_nil, List.map_nil, List.foldl_nil]
  exact (Chip.Only.refl _ _ c).withLdl (by simp)

theorem Chip.set_port (c : Chip) (p : Place) (v i j : Nat) (k : Fin 8) : (c.set p v i j).port k = c.port k := rfl

theorem Chip.addSat_port (c : Chip) (p : Place) (v i j : Nat) (k : Fin 8) : (c.addSat p v i j).port k = c.port k := rfl

theorem Chip.setFlw_port (c : Chip) (x : FlwSt) (k : Fin 8) : (c.setFlw x).port k = c.port k := rfl

theorem Chip.send_port (c : Chip) (n : String) (l : List Nat) (k : Fin 8) : (c.send n l).port k = c.port k := rfl

theorem Chip.outputsOff_spec (c : Chip) (k : Fin 8) :
    c.Only [.hp] {F.HP_STAT_STATE.at k 0} (c.outputsOff k) ∧ (c.outputsOff k).on F.HP_STAT_EN_OUT k = false ∧
      ((c.outputsOff k).port k).wdogHeld = (c.port k).wdogHeld := by
  unfold Chip.outputsOff
  extract_lets p q
  have hq : q.wdogHeld = (c.port k).wdogHeld := rfl
  clear_value q
  have hp : c.Only [.hp] {F.HP_STAT_STATE.at k 0} (c.setHp k q) := .setHp (.refl _ _ c) (by simp)
  have hport := c.port_setHp_same k q
  generalize c.setHp k q = d at hp hport
  refine ⟨.set (.set (.set hp rfl) rfl) rfl, ?_, ?_⟩
  · have hoff : ((((d.set F.HP_STAT_EN_OUT 0 k).set F.HP_STAT_LANES 0 k).set F.HP_STAT_BC_LOCK 0 k).get F.HP_STAT_EN_OUT k) = 0 := by
      rw [Chip.get_set_beside _ F.HP_STAT_BC_LOCK F.HP_STAT_EN_OUT _ _ _ _ _ rfl (by decide) (by decide) (by decide),
        Chip.get_set_beside _ F.HP_STAT_LANES F.HP_STAT_EN_OUT _ _ _ _ _ rfl (by decide) (by decide) (by decide),
        Chip.get_set_same _ _ _ _ _ (by decide) (by decide)]
      rfl
    simp [Chip.on, hoff]
  · rw [Chip.set_port, Chip.set_port, Chip.set_port, hport, hq]

theorem Chip.enter_spec (c : Chip) (k : Fin 8) {st : Nat} (h : st < 16) :
    c.Only [.hp] {F.HP_STAT_STATE.at k 0} (c.enter k st) ∧ (c.enter k st).portState k = st ∧
      (c.enter k st).on F.HP_STAT_EN_OUT k = c.on F.HP_STAT_EN_OUT k ∧ ((c.enter k st).port k).wdogHeld = (c.port k).wdogHeld := by
  unfold Chip.enter
  refine ⟨.set (.setHp (.refl _ _ c) (by simp)) rfl, ?_, ?_, ?_⟩
  · rw [Chip.portState, Chip.get_set_same _ _ _ _ _ (by decide) (by decide)]
    exact Nat.mod_eq_of_lt h
  · rw [Chip.on, Chip.get_set_beside _ F.HP_STAT_STATE F.HP_STAT_EN_OUT _ _ _ _ _ rfl (by decide) (by decide) (by decide)]
    rfl
  · rw [Chip.set_port, Chip.port_setHp_same]

/-- A port that is not UP, holds no line event and no grant leaves for another state. -/
theorem Chip.portLeaves_spec {st : Nat} (hup : c.isUp k = false) (hev : (c.port k).events = []) (hg : c.ldl.grants = []) (hst : st < 16) (cut : Bool) :
    c.Only [.hp, .ldl] {F.HP_STAT_STATE.at k 0} (c.portLeaves k st cut) ∧ (c.portLeaves k st cut).portState k = st ∧
      (c.portLeaves k st cut).on F.HP_STAT_EN_OUT k = false ∧ ((c.portLeaves k st cut).port k).wdogHeld = (c.port k).wdogHeld := by
  obtain ⟨x, hx, hlost⟩ := Chip.heldLinesLost_empty hev
  have hdef : c.portLeaves k st cut = ((((c.setHp k x).outputsOff k).ldlRelease 0 k).enter k st) := by
    simp only [Chip.portLeaves, hup, hlost, Bool.false_eq_true, if_false]
  have hxo : c.Only [.hp, .ldl] {F.HP_STAT_STATE.at k 0} (c.setHp k x) := .setHp (.refl _ _ c) (by simp)
  have hport := congrArg PortSt.wdogHeld (c.port_setHp_same k x)
  rw [hdef]
  have hldl : (c.setHp k x).ldl = c.ldl := rfl
  generalize c.setHp k x = d at hxo hport hldl
  obtain ⟨hoff, hout, hheld⟩ := d.outputsOff_spec k
  have hdo := hxo.trans (hoff.mono (by simp) subset_rfl)
  have hrel := Chip.only_ldlRelease_ungranted (c := d.outputsOff k) ((congrArg LdlSt.grants ((hoff.1 .ldl (by simp)).trans hldl)).trans hg) 0 k
  generalize d.outputsOff k = e at hout hheld hdo hrel
  have hlo := hdo.trans (hrel.mono (by simp) (by simp))
  have hlport : (e.ldlRelease 0 k).port k = e.port k := congrArg (fun (h : Vector PortSt 8) => h[k]) (hrel.1 .hp (by simp))
  have hlout : (e.ldlRelease 0 k).get F.HP_STAT_EN_OUT k = e.get F.HP_STAT_EN_OUT k := hrel.get (by simp)
  generalize e.ldlRelease 0 k = f at hlo hlport hlout
  obtain ⟨hent, hstate, heout, hehold⟩ := f.enter_spec k hst
  refine ⟨hlo.trans (hent.mono (by simp) subset_rfl), hstate, heout.trans ?_, ?_⟩
  · rw [Chip.on, hlout]
    exact hout
  · rw [hehold, hlport, hheld, hport, hx]

theorem Chip.emit_port (c : Chip) (n : Nat) (l : List (Nat × Nat)) (k : Fin 8) : (c.emit n l).port k = c.port k := rfl

/-- The watchdog with its marks set and FIRE held low, before the port goes. -/
def Chip.wdogMarks (c : Chip) (k : Fin 8) : Chip :=
  (((c.setHp k { c.port k with wdogHeld := true }).set F.HP_PSTAT_WDOG 1 k).set F.HP_PSTAT_CUT 1 k).hpEvent k 0x11 [(1, 4)]

theorem Chip.wdogAct_cuts {high : Nat} (hhigh : (c.port k).wdog ≤ high) (hon : c.on F.HP_STAT_EN_OUT k = true) :
    c.wdogAct k high = (c.wdogMarks k).portVacant k vacCut := by
  have happart : ∀ k : Fin 8, F.HP_STAT_EN_OUT.at k 0 ≠ F.HP_PSTAT_WDOG.at k 0 := by decide
  have hout : ((c.setHp k { c.port k with wdogHeld := true }).set F.HP_PSTAT_WDOG 1 k).on F.HP_STAT_EN_OUT k = true := by
    rw [Chip.on, Chip.get_set_other _ _ _ _ _ _ _ _ (happart k)]
    exact hon
  simp only [Chip.wdogAct, if_pos hhigh, hout, if_true]
  rfl

theorem Chip.wdogMarks_spec (c : Chip) (k : Fin 8) :
    c.Only [.hp, .ev] {F.HP_PSTAT_WDOG.at k 0} (c.wdogMarks k) ∧ (c.wdogMarks k).get F.HP_PSTAT_WDOG k = 1 ∧
      (c.wdogMarks k).get F.HP_PSTAT_CUT k = 1 ∧ (c.wdogMarks k).port k = { c.port k with wdogHeld := true } ∧
      c.Raised (c.wdogMarks k) [(hpCode k 0x11, [(1, 4)])] := by
  have hport := c.port_setHp_same k { c.port k with wdogHeld := true }
  have hd : c.Only [.hp, .ev] {F.HP_PSTAT_WDOG.at k 0} (c.setHp k { c.port k with wdogHeld := true }) := .setHp (.refl _ _ c) (by simp)
  have hev : (c.setHp k { c.port k with wdogHeld := true }).ev = c.ev := rfl
  unfold Chip.wdogMarks Chip.hpEvent
  generalize c.setHp k { c.port k with wdogHeld := true } = d at hport hd hev
  have happart : ∀ k : Fin 8, F.SYS_ISL_STAT_TIME_VALID.addr ≠ F.HP_PSTAT_WDOG.at k 0 := by decide
  have hmarks : c.Only [.hp, .ev] {F.HP_PSTAT_WDOG.at k 0} ((d.set F.HP_PSTAT_WDOG 1 k).set F.HP_PSTAT_CUT 1 k) := .set (.set hd rfl) rfl
  refine ⟨.emit hmarks (by simp), ?_, ?_, ?_, ?_⟩
  · rw [Chip.emit_get, Chip.get_set_beside _ F.HP_PSTAT_CUT F.HP_PSTAT_WDOG _ _ _ _ _ rfl (by decide) (by decide) (by decide)]
    exact Chip.get_set_same _ _ _ _ _ (by decide) (by decide)
  · rw [Chip.emit_get]
    exact Chip.get_set_same _ _ _ _ _ (by decide) (by decide)
  · rw [Chip.emit_port]
    exact hport
  · exact Chip.raised_emit _ _ hev (hmarks.1 .now (by simp)) (hmarks.2 _ (by simpa using happart k))

/-- The watchdog's cut takes a port that trains to VACANT. -/
theorem Chip.portVacant_cut (hstate : c.portState k = 2) :
    c.portVacant k vacCut = ((c.setHp k { c.port k with arm := false, rearmAny := false }).portLeaves k 0 true).hpEvent k 0x02 [(1, vacCut)] := by
  have hst : (c.setHp k { c.port k with arm := false, rearmAny := false }).portState k = 2 := hstate
  simp [Chip.portVacant, hst, vacCut]

/-- An event raised after another. -/
theorem Chip.Raised.after {n m : Nat} {l r : List (Nat × Nat)} (h : c.Raised d [(n, l)]) (hnow : d.now = c.now)
    (hstat : d.word F.SYS_ISL_STAT_TIME_VALID.addr = c.word F.SYS_ISL_STAT_TIME_VALID.addr) : c.Raised (d.emit m r) [(n, l), (m, r)] :=
  Chip.emit_ev_congr (c := c.emit n l) m r h hnow hstat

theorem Chip.wdogAct_training {high : Nat} (hhigh : (c.port k).wdog ≤ high) (hstate : c.portState k = 2) (hon : c.on F.HP_STAT_EN_OUT k = true)
    (hev : (c.port k).events = []) (hg : c.ldl.grants = []) :
    c.Only [.hp, .ev, .ldl] {F.HP_PSTAT_WDOG.at k 0, F.HP_STAT_STATE.at k 0} (c.wdogAct k high) ∧
      (c.wdogAct k high).on F.HP_PSTAT_WDOG k = true ∧ (c.wdogAct k high).on F.HP_PSTAT_CUT k = true ∧
      (c.wdogAct k high).on F.HP_STAT_EN_OUT k = false ∧ (c.wdogAct k high).portState k = 0 ∧ ((c.wdogAct k high).port k).wdogHeld = true ∧
      c.Raised (c.wdogAct k high) [(hpCode k 0x11, [(1, 4)]), (hpCode k 0x02, [(1, vacCut)])] := by
  have happart : ∀ k : Fin 8, F.HP_STAT_STATE.at k 0 ≠ F.HP_PSTAT_WDOG.at k 0 := by decide
  have hstat : ∀ k : Fin 8, F.SYS_ISL_STAT_TIME_VALID.addr ≠ F.HP_PSTAT_WDOG.at k 0 ∧ F.SYS_ISL_STAT_TIME_VALID.addr ≠ F.HP_STAT_STATE.at k 0 := by decide
  obtain ⟨hmarks, hwdog, hcut, hport, hraised⟩ := c.wdogMarks_spec k
  rw [Chip.wdogAct_cuts hhigh hon]
  generalize c.wdogMarks k = d at hmarks hwdog hcut hport hraised
  have hst : d.portState k = 2 := (hmarks.get (by simpa using happart k)).trans hstate
  rw [Chip.portVacant_cut hst]
  have hdo : d.Only [.hp] ∅ (d.setHp k { d.port k with arm := false, rearmAny := false }) := .setHp (.refl _ _ d) (by simp)
  have hdev : (d.setHp k { d.port k with arm := false, rearmAny := false }).ev = d.ev := rfl
  have hdport := d.port_setHp_same k { d.port k with arm := false, rearmAny := false }
  generalize d.setHp k { d.port k with arm := false, rearmAny := false } = e at hdo hdev hdport
  have hup : e.isUp k = false := by
    have hest : e.get F.HP_STAT_STATE k = 2 := (hdo.get (by simp)).trans hst
    simp [Chip.isUp, hest]
  have heev : (e.port k).events = [] := by rw [hdport, hport]; exact hev
  have heg : e.ldl.grants = [] := by rw [hdo.1 .ldl (by simp), hmarks.1 .ldl (by simp)]; exact hg
  obtain ⟨hleft, hvacant, hout, hheld⟩ := Chip.portLeaves_spec hup heev heg (st := 0) (by decide) true
  have honly := ((hmarks.mono (by simp) (by simp)).trans (hdo.mono (by simp) (by simp))).trans (hleft.mono (qs := [.hp, .ev, .ldl])
    (ss := {F.HP_PSTAT_WDOG.at k 0, F.HP_STAT_STATE.at k 0}) (by simp) (by simp))
  generalize e.portLeaves k 0 true = f at hleft hvacant hout hheld honly
  have hmark : ∀ p : Place, p.at k 0 = F.HP_PSTAT_WDOG.at k 0 → f.get p k = d.get p k := fun p hp =>
    (hleft.get (by rw [hp]; simpa using (happart k).symm)).trans (hdo.get (by simp))
  have hraised' : c.Raised f [(hpCode k 0x11, [(1, 4)])] := ((hleft.1 .ev (by simp)).trans hdev).trans hraised
  refine ⟨.emit honly (by simp), ?_, ?_, ?_, ?_, ?_, ?_⟩
  · rw [Chip.hpEvent, Chip.emit_on, Chip.on, hmark F.HP_PSTAT_WDOG rfl, hwdog]
    rfl
  · rw [Chip.hpEvent, Chip.emit_on, Chip.on, hmark F.HP_PSTAT_CUT rfl, hcut]
    rfl
  · rw [Chip.hpEvent, Chip.emit_on]
    exact hout
  · rw [Chip.hpEvent, Chip.portState, Chip.emit_get]
    exact hvacant
  · rw [Chip.hpEvent, Chip.emit_port, hheld, hdport, hport]
  · exact hraised'.after (honly.1 .now (by simp)) (honly.2 _ (by simpa using hstat k))

end Sys2Proof.Machine

namespace Sys2Proof.Proofs
open Sys2Proof.Machine

/-- Settles O19, clause by clause: each step of a port comes to one branch of its operation, stated by a lemma above. -/
theorem linesGoToTheHead : Obligations.LinesGoToTheHead := by
  unfold Obligations.LinesGoToTheHead
  refine ⟨?_, ?_, ?_, ?_, ?_, ?_, ?_⟩
  · intro t k e rest s hisl hway hup hfence hsw hg ha hact hwarm hdrop hdue hroom
    have heq : (s.chip.at t).eventArrives k =
        ((s.chip.at t).wayTaken k rest).setHp k { s.chip.port k with events := (s.chip.port k).events ++ [e] } :=
      (Chip.eventArrives_up (c := s.chip.at t) hway hup hfence hg ha hact hwarm).trans
        (Chip.eventTaken_held (c := (s.chip.at t).wayTaken k rest) hdrop hdue hroom)
    have honly : (s.chip.at t).Only [.trk, .hp] ∅ ((s.chip.at t).eventArrives k) := by
      rw [heq]
      exact ((Chip.Only.refl _ _ _).withTrk (by simp)).setHp (by simp)
    refine ⟨_, runPort_idle hisl ((honly.switchState (by simp)).trans hsw), leaves_of_only honly, ?_⟩
    rw [heq]
    exact ⟨rfl, rfl⟩
  · intro t k e rest s hisl hway hup hfence hsw hg ha hact hwarm hdrop hfires hxfer hheld
    have heq : (s.chip.at t).eventArrives k =
        (((s.chip.at t).wayTaken k rest).setHp k { s.chip.port k with gone := e.line :: (s.chip.port k).gone }).skipGroups k e.line :=
      (Chip.eventArrives_up (c := s.chip.at t) hway hup hfence hg ha hact hwarm).trans
        (Chip.eventTaken_dropped (c := (s.chip.at t).wayTaken k rest) hdrop hfires hxfer hheld)
    have honly : (s.chip.at t).Only [.trk, .hp] {F.NZH_MISS_CNT_SKIP.addr} ((s.chip.at t).eventArrives k) := by
      rw [heq]
      exact (((Chip.Only.refl _ _ _).withTrk (by simp)).setHp (by simp)).trans ((Chip.only_skipGroups _ _ _).mono (by simp) subset_rfl)
    refine ⟨_, runPort_idle hisl ((honly.switchState (by decide)).trans hsw), leaves_of_only honly, ?_⟩
    rw [heq]
    have hskip := Chip.only_skipGroups (((s.chip.at t).wayTaken k rest).setHp k { s.chip.port k with gone := e.line :: (s.chip.port k).gone }) k e.line
    exact ⟨hskip.1 .trk (by simp), hskip.1 .hp (by simp), Chip.get_skipGroups _ _ _⟩
  · intro t k m l more s hisl htime hup hfence hsw hxfer hnext hdue hqueue hline hgone hlimit hfill hblank hrestore hlines hleft
    have hline' := Chip.lineTransfer_queued (c := s.chip.at t) hsw hup hfence hxfer hnext hdue hqueue hline hgone htime hlimit hfill hblank
    have hport : (((s.chip.at t).bring (R.HP_FTRIM.at k 0)).unqueue k m).port k = { s.chip.port k with
        queue := (s.chip.port k).queue.filter (fun q => m < q.line), xferTop := some m, gone := (s.chip.port k).gone.filter (fun n => m < n) } :=
      Chip.port_setHp_same _ k _
    have hother : ∀ j : Fin 8, j ≠ k → (((s.chip.at t).bring (R.HP_FTRIM.at k 0)).unqueue k m).port j = s.chip.port j :=
      fun j hj => Chip.port_setHp_other _ hj _
    have hd : (s.chip.at t).Only [.force, .hp] ∅ (((s.chip.at t).bring (R.HP_FTRIM.at k 0)).unqueue k m) :=
      ((Chip.Only.refl _ _ _).bring (by simp)).setHp (by simp)
    obtain ⟨f, x, hf, hxl, hxt, hxw, hxb, heq⟩ := Chip.transferLine_plain (c := ((s.chip.at t).bring (R.HP_FTRIM.at k 0)).unqueue k m) (k := k) (l := l)
      ((congrArg PortSt.restore hport).trans hrestore) hlines hleft
    rw [heq] at hline'
    generalize ((s.chip.at t).bring (R.HP_FTRIM.at k 0)).unqueue k m = d at hline' hport hother hd hf hxt
    have hhp : f.hp = d.hp := hf.1 .hp (by simp)
    have hsent : f.sent = s.chip.sent := (hf.1 .sent (by simp)).trans (hd.1 .sent (by simp))
    have honly : (s.chip.at t).Only [.force, .hp, .sent] (transferRegs k) ((s.chip.at t).lineTransfer k) := by
      rw [hline']
      exact (((hd.mono (by simp) (by simp)).trans (hf.mono (by simp) subset_rfl)).setHp (by simp)).send (by simp)
    refine ⟨_, runPort_idle hisl ((honly.switchState (swState_not_transferRegs k)).trans hsw), leaves_of_only honly, ?_⟩
    simp only [hline']
    have hsame : ∀ p : PortSt, ((f.setHp k p).send "sns" ([k.val, (d.port k).ltag] ++ l.sensed)).port k = p := fun p => f.port_setHp_same k p
    have hqueue' : (s.chip.port k).queue.filter (fun q => m < q.line) = more.filter (fun q => m < q.line) := by simp [hqueue, hline]
    refine ⟨⟨x, ?_, hxl.trans hline, ?_, hxw, hxb⟩, ?_, ?_, ?_, ?_, ?_⟩
    · rw [hsame]
    · rw [hxt, hport]
    · rw [hsame, hport]
    · rw [hsame, hport]
    · rw [hsame, hport, hqueue']
    · intro j hj
      calc _ = f.port j := f.port_setHp_other hj _
        _ = d.port j := congrArg (fun (h : Vector PortSt 8) => h[j]) hhp
        _ = s.chip.port j := hother j hj
    · simp only [Chip.send_sent, hport]
      exact congrArg (· ++ _) hsent
  · intro t k x r a more s hisl hsw hxfer hrows hpredict hslot hlink
    obtain ⟨recent, heq⟩ := Chip.segmentSend_next (c := s.chip.at t) hxfer hrows hpredict hslot hlink
    have hport := (s.chip.at t).port_setHp_same k { s.chip.port k with
        held := (s.chip.port k).held.set r ((s.chip.port k).held[r] ++ [{ line := x.line, ltag := x.ltag, groups := 4 * 2 ^ x.g, bank := x.bank }])
        busyUntil := max s.chip.now t + s.chip.segmentTime k, recent := recent }
    have hother : ∀ j : Fin 8, j ≠ k → ∀ p : PortSt, ((s.chip.at t).setHp k p).port j = s.chip.port j := fun j hj p => Chip.port_setHp_other _ hj p
    rw [Chip.transferRest_more] at heq
    have honly : (s.chip.at t).Only [.hp, .sent] ∅ ((s.chip.at t).segmentSend k) := by
      rw [heq]
      exact (((Chip.Only.refl _ _ _).setHp (by simp)).send (by simp)).setHp (by simp)
    refine ⟨_, runPort_idle hisl ((honly.switchState (by simp)).trans hsw), leaves_of_only honly, ?_⟩
    simp only [heq]
    refine ⟨?_, ?_, ?_, ?_, ?_⟩
    · rw [Chip.port_setHp_same]
    · rw [Chip.port_setHp_same]
      exact congrArg PortSt.held hport
    · rw [Chip.port_setHp_same]
      exact congrArg PortSt.busyUntil hport
    · intro j hj
      rw [Chip.port_setHp_other _ hj]
      exact hother j hj _
    · rfl
  · intro t k r h more tap s hisl htime hup hsw hwdog hnext hheld hedge hlast hfired htodo
    have hstrobed : (s.chip.port k).strobed r = { s.chip.port k with
        held := (s.chip.port k).held.set r (if h.strobed + 1 = h.groups then more else { h with strobed := h.strobed + 1 } :: more) } := by
      simp only [PortSt.strobed, hheld]
    have heq := (Chip.fireStrobe_one (c := s.chip.at t) hup htime hwdog hnext hedge hlast).trans
      (Chip.symbol_one (c := s.chip.at t) hfired ((congrArg PortSt.todo hstrobed).trans htodo))
    have hother : ∀ j : Fin 8, j ≠ k → ∀ p : PortSt, ((s.chip.at t).setHp k p).port j = s.chip.port j := fun j hj p => Chip.port_setHp_other _ hj p
    have hhp : (s.chip.at t).Only [.hp, .flw, .sent] ∅ ((s.chip.at t).setHp k { (s.chip.port k).strobed r with lastSymbol := some tap }) :=
      .setHp (.refl _ _ _) (by simp)
    have honly : (s.chip.at t).Only [.hp, .flw, .sent] ∅ ((s.chip.at t).fireStrobe k) := by
      rw [heq]
      exact .send (.trans (.setFlw hhp (by simp)) ((Chip.only_addSat_zero _ _ _ _ (by decide)).mono (by simp) subset_rfl)) (by simp)
    refine ⟨_, runPort_idle hisl ((honly.switchState (by simp)).trans hsw), leaves_of_only honly, ?_⟩
    simp only [heq, Chip.send_port, Chip.addSat_port, Chip.setFlw_port]
    refine ⟨?_, ?_, ?_, rfl, rfl⟩
    · rw [Chip.port_setHp_same]
    · exact (congrArg (fun p : PortSt => p.held[r]) (Chip.port_setHp_same _ k _)).trans
        ((congrArg (fun p : PortSt => p.held[r]) hstrobed).trans (Vector.getElem_set_self _))
    · exact fun j hj => hother j hj _
  · intro t k high s hsw hhigh hstate hon hev hg
    obtain ⟨honly, hrest⟩ := Chip.wdogAct_training (c := s.chip.at t) hhigh hstate hon hev hg
    have happart : ∀ k : Fin 8, F.STR_STAT_SW_STATE.at 0 0 ≠ F.HP_PSTAT_WDOG.at k 0 ∧ F.STR_STAT_SW_STATE.at 0 0 ≠ F.HP_STAT_STATE.at k 0 := by decide
    have hidle := Chip.strServe_idle ((honly.switchState (by simpa using happart k)).trans hsw)
    refine ⟨_, rfl, ?_⟩
    simp only [hidle]
    exact ⟨leaves_of_only honly, hrest⟩
  · intro t k high s hsw hhigh
    have hidle : ((s.chip.at t).wdogAct k high).strServe = s.chip.at t := by
      rw [Chip.wdogAct_below (c := s.chip.at t) hhigh]
      exact Chip.strServe_idle hsw
    simp only [exec, execWdogAct, runChip, hidle]

end Sys2Proof.Proofs
end

section
/-!
PROOFS about the registers of a head port: which writes and reads the bus takes to a port, what a field under XPERT_EN takes, the expert
commands and the limits (R43, R325, R341, R353).
-/

namespace Sys2Proof.Machine

variable {c d : Chip} {k : Fin 8} {i : Initiator} {a w : Nat} {r : RegDef} {p q : Place} {s : State} {t : Nat}

/-! ### The registers of a port -/

/-- Place p is register r of every port. -/
def isPortReg (p : Place) (r : RegDef) : Bool := (List.finRange 8).all fun (k : Fin 8) =>
  decide (regWhere (p.at k 0) = some (r, 0, 0)) && ordinary (p.at k 0) && !worksIn (p.at k 0) && decide (blockOf (p.at k 0) = 0x10 + k)

theorem isPortReg_spec (h : isPortReg p r = true) (k : Fin 8) :
    regWhere (p.at k 0) = some (r, 0, 0) ∧ ordinary (p.at k 0) = true ∧ worksIn (p.at k 0) = false ∧ blockOf (p.at k 0) = 0x10 + k := by
  have hk := List.all_eq_true.mp h k (List.mem_finRange k)
  simpa [and_assoc] using hk

/-- HPk_XCMD, HPk_XDATA, HPk_MEM_DATA, HPk_WDOG, HPk_TLIM and HPk_TWARN in the register map. -/
def hpXcmd : RegDef := ⟨0x400, 0, 1, 0, 1, 0x0, [fd 31 31 .wo, fd 15 8 .rwx, fd 7 0 .rwx]⟩
def hpXdata : RegDef := ⟨0x40C, 0, 1, 0, 1, 0x0, []⟩
def hpMemData : RegDef := ⟨0x028, 0, 1, 0, 1, 0x0, []⟩
def hpWdog : RegDef := ⟨0x100, 0, 1, 0, 1, 0x12C, [fr 9 0 .rw 50 800 false]⟩
def hpTlim : RegDef := ⟨0x10C, 0, 1, 0, 1, 0x4B00410, [fd 27 16 .rw, fd 11 0 .rw]⟩
def hpTwarn : RegDef := ⟨0x110, 0, 1, 0, 1, 0x500370, [fr 27 16 .rw 16 480 false, fd 11 0 .rw]⟩

theorem isPortReg_xcmd : isPortReg R.HP_XCMD hpXcmd = true := by decide +kernel
theorem isPortReg_xdata : isPortReg R.HP_XDATA hpXdata = true := by decide +kernel
theorem isPortReg_memData : isPortReg R.HP_MEM_DATA hpMemData = true := by decide +kernel
theorem isPortReg_wdog : isPortReg R.HP_WDOG hpWdog = true := by decide +kernel
theorem isPortReg_tlim : isPortReg R.HP_TLIM hpTlim = true := by decide +kernel
theorem isPortReg_twarn : isPortReg R.HP_TWARN hpTwarn = true := by decide +kernel

theorem writeReg_hp {m n : Nat} {v : Word} {same : Bool} {errs : List DdrError} {ues : List Nat} {x : Chip × Store}
    (h : blockOf a = 0x10 + k) : writeReg i a r n m v same errs ues x = (Chip.writeHp a r v.toNat x.1, x.2) := by
  obtain ⟨k, hk⟩ := k
  interval_cases k <;> simp only [writeReg, h]

theorem readReg_hp {n : Nat} (h : blockOf a = 0x10 + k) : c.readReg i a r n = Chip.readHp a r c := by
  obtain ⟨k, hk⟩ := k
  interval_cases k <;> simp only [Chip.readReg, h]

/-- A write of a port's register that is taken. -/
theorem portWrite_taken {v : Word} (h : isPortReg p r = true) (hmay : s.chip.mayWrite i (p.at k 0)) :
    runWrite t i p v k 0 s = .next { s with chip := Chip.writeHp (p.at k 0) r v.toNat (s.chip.wrote t i (p.at k 0)) } := by
  obtain ⟨hreg, hord, hwork, hblock⟩ := isPortReg_spec h k
  have hcal : ¬ (blockOf (p.at k 0) = 0x1A ∨ blockOf (p.at k 0) = 0x0F) := by omega
  rw [runWrite_taken hmay hord hreg hwork (fun hb => absurd hb hcal), writeReg_hp hblock]

/-- A read of a port's register that is taken. -/
theorem portRead_taken (h : isPortReg p r = true) (hmay : s.chip.mayRead i (p.at k 0)) :
    runRead t i p k s = .next { s with chip := Chip.gives (Chip.readHp (p.at k 0) r (s.chip.at t)) } := by
  obtain ⟨hreg, hord, -, hblock⟩ := isPortReg_spec h k
  have hmay' : (s.chip.at t).mayRead i (p.at k 0) := hmay
  rw [runRead, runChip, busRead_taken hmay' hord hreg, readReg_hp hblock]

/-- The port that a register's address names. -/
theorem portOf_block (h : blockOf a = 0x10 + k) : Fin.ofNat 8 (blockOf a - 0x10) = k := by
  ext
  simp [h]

theorem not_frozen (h : c.switchState = 0) (a : Nat) : c.frozen a = false := by simp [Chip.frozen, h]

/-! ### Writes that leave what the write found -/

/-- What a write leaves is what its meaning leaves of the chip that it found. -/
theorem writeLeaves_of_only {ps : List Part} {rs : Set Nat} (h : (s.chip.wrote t i a).Only ps rs d) (hans : .answer ∉ ps) (hsys : .sys ∉ ps) :
    WriteLeaves t i a ps rs s { s with chip := d } := by
  have hwrote : (s.chip.at t).Only [.answer, .sys] ∅ (s.chip.wrote t i a) := by
    refine (Chip.Only.refl _ _ _).beside rfl fun q hq => ?_
    cases q
    case answer | sys => simp at hq
    all_goals rfl
  refine ⟨⟨rfl, rfl, (hwrote.mono ?_ (Set.empty_subset _)).trans (h.mono ?_ subset_rfl)⟩, h.1 .answer hans, h.1 .sys hsys⟩
  · simp
  · exact fun x hx => by simp [hx]

/-- What a read leaves is what its meaning leaves. -/
theorem readLeaves_of_only {ps : List Part} {rs : Set Nat} {n : Nat} (h : (s.chip.at t).Only ps rs d) :
    ReadLeaves t n ps rs s { s with chip := Chip.gives (d, n) } := by
  refine ⟨⟨rfl, rfl, (h.mono (by simp) subset_rfl).beside rfl fun q hq => ?_⟩, rfl⟩
  cases q
  case answer => simp at hq
  all_goals rfl

theorem Chip.setWord_port (c : Chip) (a : Nat) (v : Word) (k : Fin 8) : (c.setWord a v).port k = c.port k := rfl

/-! ### Expert commands (R325) -/

/-- No run and no switch bars an expert field of any value while XPERT_EN is 1. -/
theorem barsField_expert (hx : c.xpert a = true) (hcal : c.calBusy = false) (hsw : c.switchState = 0) (hi lo : Nat) :
    c.barsField a w (fd hi lo .rwx) = false := by
  have hsame : c.barsField a w (fd hi lo .rwx) = c.barsField a w (fd hi lo .rw) := by
    simp only [Chip.barsField, fd, hx]
    rfl
  rw [hsame, barsField_free hcal hsw]

theorem xpert_of_on (h : c.on F.HP_CTRL_XPERT_EN k = true) : c.xpert (R.HP_XCMD.at k 0) = true := by
  have hbase : ∀ k : Fin 8, R.HP_XCMD.at k 0 / 0x10000 * 0x10000 = F.HP_CTRL_XPERT_EN.at k 0 := by decide
  rw [Chip.xpert, hbase k]
  simpa [Chip.on, Chip.get, bitsOf, bitAt, F.HP_CTRL_XPERT_EN, Nat.testBit_zero] using h

/-- A write of HPk_XCMD under XPERT_EN takes every field. -/
theorem plain_xcmd (hx : c.on F.HP_CTRL_XPERT_EN k = true) (hcal : c.calBusy = false) (hsw : c.switchState = 0) :
    c.plain (R.HP_XCMD.at k 0) hpXcmd w = c.setWord (R.HP_XCMD.at k 0) (BitVec.ofNat 32 (c.plainWord (R.HP_XCMD.at k 0) hpXcmd w)) := by
  obtain ⟨-, -, -, hblock⟩ := isPortReg_spec isPortReg_xcmd k
  refine plain_of_taken (by omega) (List.any_eq_false.mpr fun f hf => ?_)
  simp only [hpXcmd, List.mem_cons, List.not_mem_nil, or_false] at hf
  rcases hf with rfl | rfl | rfl
  · simp [Chip.ignoresField, fd]
  · simp [Chip.ignoresField, barsField_expert (xpert_of_on hx) hcal hsw]
  · simp [Chip.ignoresField, barsField_expert (xpert_of_on hx) hcal hsw]

/-- The command that a write of HPk_XCMD stores. -/
theorem get_plain_xcmd (hx : c.on F.HP_CTRL_XPERT_EN k = true) (hcal : c.calBusy = false) (hsw : c.switchState = 0)
    (hq : q = F.HP_XCMD_OPC ∨ q = F.HP_XCMD_TAG) : (c.plain (R.HP_XCMD.at k 0) hpXcmd w).get q k = fld q w := by
  obtain ⟨hreg, -, -, -⟩ := isPortReg_spec isPortReg_xcmd k
  have hat : q.at k 0 = R.HP_XCMD.at k 0 := by rcases hq with rfl | rfl <;> rfl
  have hmem : fd q.hi q.lo .rwx ∈ hpXcmd.fields := by rcases hq with rfl | rfl <;> simp [hpXcmd, F.HP_XCMD_OPC, F.HP_XCMD_TAG]
  have hsec : securedReg (R.HP_XCMD.at k 0) = true := securedReg_of_mem (regWhere_regAt hreg) hmem rfl
  rw [Chip.get, hat, plain_word_secured hsec]
  refine (plainWord_field (regWhere_regAt hreg) hmem).trans ?_
  rw [fieldAfter_taking (.inr (.inr rfl)), featureless_of_secured hsec, barsField_expert (xpert_of_on hx) hcal hsw]
  rfl

/-- An expert command of a port that is UP and has none pending. -/
theorem xcmd_taken {n : Nat} (hopc : c.get F.HP_XCMD_OPC k = n) (hn : 1 ≤ n ∧ n ≤ 3) (hup : c.isUp k = true) (htodo : (c.port k).todo = [])
    (hwait : (c.port k).wait = none) :
    c.xcmd k = ((c.setHp k { c.port k with xdata := [] }).setWord (R.HP_XRSP.at k 0) 0).command k
      [{ opc := n, arg := c.get F.HP_XARG_ARG k, use := .expert, tag := some (c.get F.HP_XCMD_TAG k) }] := by
  have hxarg : ∀ k : Fin 8, F.HP_XARG_ARG.at k 0 ≠ R.HP_XRSP.at k 0 ∧ F.HP_XCMD_TAG.at k 0 ≠ R.HP_XRSP.at k 0 := by decide
  obtain ⟨harg, htag⟩ := hxarg k
  have hget : ∀ (d : Chip) (q : Place), q.at k 0 ≠ R.HP_XRSP.at k 0 → (d.setWord (R.HP_XRSP.at k 0) 0).get q k = d.get q k :=
    fun d q hq => by rw [Chip.get, Chip.word_setWord_other _ hq, Chip.get]
  have hrange : ¬ (n < 1 ∨ 3 < n) := by omega
  simp only [Chip.xcmd, hopc, hup, htodo, hwait, List.any_nil, Option.any_none, Bool.not_true, Bool.or_self, Bool.false_eq_true, or_false,
    if_neg hrange, hget _ _ harg, hget _ _ htag, Chip.setHp_get]

/-- A port that is not UP refuses an expert command. -/
theorem xcmd_refused (hup : c.isUp k = false) : c.xcmd k = c.addSat F.HP_REJ_CNT_COUNT 1 k := by
  simp [Chip.xcmd, hup]

/-- While a line is in transfer a command waits. -/
theorem command_waits {h : HeadCmd} (htodo : (c.port k).todo = []) (hxfer : (c.port k).xfer ≠ none) :
    c.command k [h] = c.setHp k { c.port k with todo := [h] } := by
  have hport := c.port_setHp_same k { c.port k with todo := [h] }
  have hsome : (c.port k).xfer.isNone = false := Option.isNone_eq_false_iff.mpr (Option.isSome_iff_ne_none.mpr hxfer)
  simp only [Chip.command, htodo, List.nil_append]
  simp only [Chip.hpServe, hport, hsome, Bool.and_false, Bool.false_and, Bool.false_eq_true, if_false]

/-- An expert command that nothing holds back leaves at once, with its own tag. -/
theorem hpServe_leaves {h : HeadCmd} {n : Nat} (htodo : (c.port k).todo = [h]) (hwait : (c.port k).wait = none) (hxfer : (c.port k).xfer = none)
    (hlink : (c.port k).busyUntil ≤ c.now) (hup : c.isUp k = true) (huse : h.use = .expert) (htag : h.tag = some n) :
    c.hpServe k = (c.setHp k { c.port k with todo := [] }).sendCommand k h n false := by
  have hst : c.portState k = 5 := by simpa [Chip.isUp, Chip.portState] using hup
  have hmay : (c.port k).mayCommand h = true := by simp [PortSt.mayCommand, huse]
  have hready : ((c.port k).wait.isNone && (c.port k).xfer.isNone && decide ((c.port k).busyUntil ≤ c.now) && (c.port k).mayCommand h &&
      decide (3 ≤ c.portState k) && decide (c.portState k ≤ 5)) = true := by
    rw [hmay, hst, hwait, hxfer]
    simpa using hlink
  have hnot : h.use ≠ .timeout := by simp [huse]
  simp only [Chip.hpServe, htodo, hready, htag, hnot, if_true, if_false, Option.getD_some, Option.isSome_some]

theorem Chip.sendCommand_spec (c : Chip) (k : Fin 8) (h : HeadCmd) (n : Nat) :
    c.Only [.hp, .sent] ∅ (c.sendCommand k h n false) ∧ ((c.sendCommand k h n false).port k).xdata = (c.port k).xdata ∧
      (∃ x, ((c.sendCommand k h n false).port k).wait = some x ∧ x.cmd = h ∧ x.tag = n) ∧
      (c.sendCommand k h n false).sent = c.sent ++ [⟨"headCmd", [k.val, h.opc, n, (h.data.length + 7) / 8, h.arg] ++ h.data⟩] := by
  unfold Chip.sendCommand
  extract_lets blocks last p d
  have hd : d.port k = _ := Chip.port_setHp_same c k _
  refine ⟨.send (.setHp (.refl _ _ c) (by simp)) (by simp), ?_, ?_, rfl⟩
  · rw [Chip.send_port, hd]
  · rw [Chip.send_port, hd]
    exact ⟨_, rfl, rfl, rfl⟩

/-- A command that nothing holds back leaves at once. -/
theorem command_leaves {h : HeadCmd} {n : Nat} (htodo : (c.port k).todo = []) (hwait : (c.port k).wait = none) (hxfer : (c.port k).xfer = none)
    (hlink : (c.port k).busyUntil ≤ c.now) (hup : c.isUp k = true) (huse : h.use = .expert) (htag : h.tag = some n) :
    c.Only [.hp, .sent] ∅ (c.command k [h]) ∧ ((c.command k [h]).port k).xdata = (c.port k).xdata ∧
      (∃ x, ((c.command k [h]).port k).wait = some x ∧ x.cmd = h ∧ x.tag = n) ∧
      (c.command k [h]).sent = c.sent ++ [⟨"headCmd", [k.val, h.opc, n, (h.data.length + 7) / 8, h.arg] ++ h.data⟩] := by
  have hport := c.port_setHp_same k { c.port k with todo := [h] }
  have honly : c.Only [.hp, .sent] ∅ (c.setHp k { c.port k with todo := [h] }) := .setHp (.refl _ _ c) (by simp)
  have hdef : c.command k [h] = (c.setHp k { c.port k with todo := [h] }).hpServe k := by simp only [Chip.command, htodo, List.nil_append]
  have hsent : (c.setHp k { c.port k with todo := [h] }).sent = c.sent := rfl
  have hup' : (c.setHp k { c.port k with todo := [h] }).isUp k = true := hup
  have hnow : (c.setHp k { c.port k with todo := [h] }).now = c.now := rfl
  rw [hdef]
  generalize c.setHp k { c.port k with todo := [h] } = d at hport honly hsent hup' hnow
  rw [hpServe_leaves (by rw [hport]) (by rw [hport]; exact hwait) (by rw [hport]; exact hxfer) (by rw [hport, hnow]; exact hlink) hup' huse htag]
  have hport' := d.port_setHp_same k { d.port k with todo := [] }
  have honly' : c.Only [.hp, .sent] ∅ (d.setHp k { d.port k with todo := [] }) := honly.setHp (by simp)
  have hsent' : (d.setHp k { d.port k with todo := [] }).sent = c.sent := hsent
  generalize d.setHp k { d.port k with todo := [] } = e at hport' honly' hsent'
  obtain ⟨hsend, hx, hw, hs⟩ := e.sendCommand_spec k h n
  refine ⟨honly'.trans hsend, ?_, hw, by rw [hs, hsent']⟩
  rw [hx, hport', hport]

/-- A write of HPk_XCMD with GO stores the command and gives it, counted once at most. -/
theorem writeHp_xcmd (hgo : fld F.HP_XCMD_GO w = 1)
    (honce : ((c.plain (R.HP_XCMD.at k 0) hpXcmd w).xcmd k).get F.HP_REJ_CNT_COUNT k ≤ c.get F.HP_REJ_CNT_COUNT k + 1) :
    Chip.writeHp (R.HP_XCMD.at k 0) hpXcmd w c = (c.plain (R.HP_XCMD.at k 0) hpXcmd w).xcmd k := by
  obtain ⟨-, -, -, hblock⟩ := isPortReg_spec isPortReg_xcmd k
  have hothers : (hpXcmd.is R.HP_CTRL || hpXcmd.is R.HP_WDOG || hpXcmd.is R.HP_TLIM || hpXcmd.is R.HP_TWARN || hpXcmd.is R.HP_DUTY ||
    hpXcmd.is R.HP_ELIM) = false := rfl
  have hself : hpXcmd.is R.HP_XCMD = true := rfl
  simp only [Bool.or_eq_false_iff] at hothers
  obtain ⟨⟨⟨⟨⟨hctrl, hwdog⟩, htlim⟩, htwarn⟩, hduty⟩, helim⟩ := hothers
  simp only [Chip.writeHp, portOf_block hblock, hctrl, hwdog, htlim, htwarn, hduty, helim, hself, hgo, if_neg (not_lt.mpr honce), Bool.or_self,
    Bool.false_eq_true, if_false, if_true]

/-- The word of an expert command: GO, its opcode and software's tag. -/
def expertWord (n : Nat) (v : Word) : Word := withField F.HP_XCMD_GO 1 (withField F.HP_XCMD_OPC n v)

theorem fld_expertWord {n : Nat} (hn : n < 256) (v : Word) :
    fld F.HP_XCMD_GO (expertWord n v).toNat = 1 ∧ fld F.HP_XCMD_OPC (expertWord n v).toNat = n ∧
      fld F.HP_XCMD_TAG (expertWord n v).toNat = fld F.HP_XCMD_TAG v.toNat := by
  have hgo : F.HP_XCMD_GO.lo ≤ F.HP_XCMD_GO.hi + 1 := by decide
  have hopc : F.HP_XCMD_OPC.lo ≤ F.HP_XCMD_OPC.hi + 1 := by decide
  rw [expertWord, toNat_withField hgo (by decide), toNat_withField hopc (by decide)]
  refine ⟨bitsOf_withBits_same _ _ hgo, ?_, ?_⟩
  · rw [fld, bitsOf_withBits_other _ _ hgo (by decide), bitsOf_withBits_same _ _ hopc]
    exact Nat.mod_eq_of_lt hn
  · rw [fld, bitsOf_withBits_other _ _ hgo (by decide), bitsOf_withBits_other _ _ hopc (by decide), fld]

/-- The chip that an expert command finds: the write stored, the answer of the command before it cleared. -/
structure ExpertReady (c d : Chip) (k : Fin 8) : Prop where
  only : c.Only [.hp] {R.HP_XCMD.at k 0, R.HP_XRSP.at k 0} d
  port : d.port k = { c.port k with xdata := [] }
  hp : d.hp = c.hp.set k { c.port k with xdata := [] }
  cleared : d.word (R.HP_XRSP.at k 0) = 0

/-- What the write of an expert command comes to, in a port that is UP and has no command pending. -/
theorem expertWrite_taken {n : Nat} {v : Word} (hn : 1 ≤ n ∧ n ≤ 3) (hx : c.on F.HP_CTRL_XPERT_EN k = true) (hcal : c.calBusy = false)
    (hsw : c.switchState = 0) (hup : c.isUp k = true) (htodo : (c.port k).todo = []) (hwait : (c.port k).wait = none) :
    ∃ d, ExpertReady c d k ∧ (c.plain (R.HP_XCMD.at k 0) hpXcmd (expertWord n v).toNat).xcmd k = d.command k
      [{ opc := n, arg := c.get F.HP_XARG_ARG k, use := .expert, tag := some (fld F.HP_XCMD_TAG v.toNat) }] := by
  obtain ⟨-, hopc, htag⟩ := fld_expertWord (by omega : n < 256) v
  have hopc' := (get_plain_xcmd (w := (expertWord n v).toNat) hx hcal hsw (.inl rfl)).trans hopc
  have htag' := (get_plain_xcmd (w := (expertWord n v).toNat) hx hcal hsw (.inr rfl)).trans htag
  have hplain : c.Only [.hp] {R.HP_XCMD.at k 0, R.HP_XRSP.at k 0} (c.plain (R.HP_XCMD.at k 0) hpXcmd (expertWord n v).toNat) := by
    rw [plain_xcmd hx hcal hsw]
    exact .setWord (.refl _ _ c) (by simp)
  have hhp : (c.plain (R.HP_XCMD.at k 0) hpXcmd (expertWord n v).toNat).hp = c.hp := by rw [plain_xcmd hx hcal hsw]; rfl
  generalize c.plain (R.HP_XCMD.at k 0) hpXcmd (expertWord n v).toNat = d at hopc' htag' hplain hhp
  have hport : d.port k = c.port k := congrArg (fun (h : Vector PortSt 8) => h[k]) hhp
  have hapart : ∀ k : Fin 8, F.HP_XARG_ARG.at k 0 ≠ R.HP_XCMD.at k 0 ∧ F.HP_XARG_ARG.at k 0 ≠ R.HP_XRSP.at k 0 ∧
    F.HP_STAT_STATE.at k 0 ≠ R.HP_XCMD.at k 0 ∧ F.HP_STAT_STATE.at k 0 ≠ R.HP_XRSP.at k 0 := by decide
  obtain ⟨hargx, hargr, hstx, hstr⟩ := hapart k
  have harg : d.get F.HP_XARG_ARG k = c.get F.HP_XARG_ARG k := hplain.get (by simp [hargx, hargr])
  have hup' : d.isUp k = true := by rw [Chip.isUp, hplain.get (by simp [hstx, hstr])]; exact hup
  refine ⟨(d.setHp k { d.port k with xdata := [] }).setWord (R.HP_XRSP.at k 0) 0, ⟨?_, ?_, ?_, Chip.word_setWord_same _ _ _⟩, ?_⟩
  · exact .setWord (.setHp hplain (by simp)) (by simp)
  · rw [Chip.setWord_port, Chip.port_setHp_same, hport]
  · rw [← hhp, ← hport]
    rfl
  · rw [xcmd_taken hopc' hn hup' (by rw [hport]; exact htodo) (by rw [hport]; exact hwait), harg, htag']

/-! ### The limits of head protection (R43, R341, R343, R353) -/

theorem Chip.only_showBounds (c : Chip) {n : Nat} (hn : n < 6) : c.Only [.ev] (blockRegsSet 0x0D) (c.showBounds n) := by
  have haddr : ∀ n : Fin 6, 0x100D0000 ≤ F.FLW_EFF_LO.at n 0 ∧ F.FLW_EFF_LO.at n 0 < 0x100E0000 := by decide
  have heff : F.FLW_EFF_LO.at n 0 ∈ blockRegsSet 0x0D := haddr ⟨n, hn⟩
  have hset : ∀ lo hi : Nat, c.Only [.ev] (blockRegsSet 0x0D) ((c.set F.FLW_EFF_LO lo n).set F.FLW_EFF_HI hi n) :=
    fun lo hi => .set (.set (.refl _ _ c) heff) heff
  unfold Chip.showBounds
  refine Chip.only_ite (.refl _ _ c) (Chip.only_ite (.emit (.set (hset _ _) ?_) (by simp)) (hset _ _))
  show 0x100D0000 ≤ F.FLW_STAT_BOUND_CONFLICT.at 0 0 ∧ F.FLW_STAT_BOUND_CONFLICT.at 0 0 < 0x100E0000
  decide

theorem Chip.only_flwBounds (c : Chip) : c.Only [.ev] (blockRegsSet 0x0D) c.flwBounds := by
  have hall : ∀ (l : List Nat) (d : Chip), (∀ n ∈ l, n < 6) → d.Only [.ev] (blockRegsSet 0x0D) (l.foldl Chip.showBounds d) := by
    intro l
    induction l with
    | nil => exact fun d _ => .refl _ _ d
    | cons n l ih => exact fun d h => (d.only_showBounds (h n (by simp))).trans (ih _ fun m hm => h m (by simp [hm]))
  exact hall _ c (by simp)

/-- A port without shapes in force has none that a limit could cut. -/
theorem shapeOf_nil (ic m : Nat) : shapeOf [] ic m = [] := by
  have hnone : shapePulses 0 0 = [] := by decide
  exact hnone

/-- The limit stored and in force at once. -/
def Chip.limitSet (c : Chip) (k : Fin 8) (v : Nat) : Chip :=
  (c.set F.HP_WDOG_LIMIT v k).setHp k { c.port k with wdog := v, span := v, pendLimit := none }

theorem Chip.only_limitSet (c : Chip) (k : Fin 8) (v : Nat) : c.Only [.hp] {R.HP_WDOG.at k 0} (c.limitSet k v) :=
  .setHp (.set (.refl _ _ c) rfl) (by simp)

theorem Chip.get_limitSet (c : Chip) (k : Fin 8) {v : Nat} (h : v ≤ 800) : (c.limitSet k v).get F.HP_WDOG_LIMIT k = v := by
  rw [Chip.limitSet, Chip.setHp_get, Chip.get_set_same _ _ _ _ _ (by decide) (by decide)]
  exact Nat.mod_eq_of_lt (lt_of_le_of_lt h (by decide))

/-- A limit within its range and its ceiling, while the port is not UP and no shape is in force, applies at once. -/
theorem wdogWrite_applies {v : Nat} (hlo : 50 ≤ v) (hhi : v ≤ 800) (hceil : v ≤ c.get F.HP_PCEIL_WDOG_CEIL k) (hup : c.isUp k = false)
    (hsets : c.flw.sets[k] = []) :
    c.wdogWrite k v = (c.limitSet k v).flwBounds := by
  have hmin : min v (c.get F.HP_PCEIL_WDOG_CEIL k) = v := min_eq_left hceil
  have hapart : ∀ k : Fin 8, F.HP_STAT_STATE.at k 0 ≠ F.HP_WDOG_LIMIT.at k 0 := by decide
  have hup' : (c.set F.HP_WDOG_LIMIT v k).isUp k = false := by rw [Chip.isUp, Chip.get_set_other _ _ _ _ _ _ _ _ (hapart k)]; exact hup
  have hrange : ¬ (v < 50 ∨ 800 < v) := by omega
  have hnone : ∀ (fs : List (Fin 6)) (ms : List Nat), fs.any (fun r => ms.any fun m =>
      !(shapeOf c.flw.sets[k] (c.rowChannel k r) m).isEmpty && decide (v < pulseSpan (shapeOf c.flw.sets[k] (c.rowChannel k r) m) + 20)) = false := by
    simp [hsets, shapeOf_nil]
  have hceil' : ¬ c.get F.HP_PCEIL_WDOG_CEIL k < v := by omega
  simp only [Chip.wdogWrite, hmin, hnone, hup, hrange, hceil', or_self, or_false, Bool.false_and, Bool.false_eq_true, if_false]
  simp only [Chip.limitChanges, hup', Bool.not_false, if_true]
  rfl

/-- A limit out of its range is refused and counted. -/
theorem wdogWrite_refused {v : Nat} (h : v < 50 ∨ 800 < v) : c.wdogWrite k v = c.addSat F.HP_REJ_CNT_COUNT 1 k := by
  unfold Chip.wdogWrite
  extract_lets ceil lim p toMax spanBad
  exact if_pos (or_assoc.mp (.inl h))

theorem writeHp_wdog (hsw : c.switchState = 0) : Chip.writeHp (R.HP_WDOG.at k 0) hpWdog w c = c.wdogWrite k (fld F.HP_WDOG_LIMIT w) := by
  obtain ⟨-, -, -, hblock⟩ := isPortReg_spec isPortReg_wdog k
  have hctrl : hpWdog.is R.HP_CTRL = false := rfl
  have hself : hpWdog.is R.HP_WDOG = true := rfl
  simp only [Chip.writeHp, portOf_block hblock, hctrl, hself, not_frozen hsw, Bool.false_eq_true, if_false, if_true]

theorem writeHp_tlim (hsw : c.switchState = 0) : Chip.writeHp (R.HP_TLIM.at k 0) hpTlim w c = c.thresholdWrite k true w := by
  obtain ⟨-, -, -, hblock⟩ := isPortReg_spec isPortReg_tlim k
  have hctrl : hpTlim.is R.HP_CTRL = false := rfl
  have hwdog : hpTlim.is R.HP_WDOG = false := rfl
  have hself : hpTlim.is R.HP_TLIM = true := rfl
  simp only [Chip.writeHp, portOf_block hblock, hctrl, hwdog, hself, not_frozen hsw, Bool.true_or, Bool.false_eq_true, if_false, if_true]

theorem writeHp_twarn (hsw : c.switchState = 0) : Chip.writeHp (R.HP_TWARN.at k 0) hpTwarn w c = c.thresholdWrite k false w := by
  obtain ⟨-, -, -, hblock⟩ := isPortReg_spec isPortReg_twarn k
  have hctrl : hpTwarn.is R.HP_CTRL = false := rfl
  have hwdog : hpTwarn.is R.HP_WDOG = false := rfl
  have hlim : hpTwarn.is R.HP_TLIM = false := rfl
  have hself : hpTwarn.is R.HP_TWARN = true := rfl
  simp only [Chip.writeHp, portOf_block hblock, hctrl, hwdog, hlim, hself, not_frozen hsw, Bool.or_true, Bool.false_eq_true, if_false, if_true]

/-- The two's complement form of a signed field is the field. -/
theorem unsigned_signed {b n : Nat} (h : n < 2 ^ b) : unsigned b (signed b n) = n := by
  have hmod : ((n : Int) % ((2 ^ b : Nat) : Int)).toNat = n := by
    rw [← Int.natCast_mod, Nat.mod_eq_of_lt h, Int.toNat_natCast]
  unfold unsigned signed
  rw [Nat.mod_eq_of_lt h]
  dsimp only
  split
  · exact hmod
  · rw [Int.sub_emod_right, hmod]

/-- Limits in order and below their ceilings are taken. -/
theorem thresholdWrite_taken {x y : Int} (hx : x = signed 12 (fld F.HP_TLIM_T_LIMIT w)) (hy : y = signed 12 (fld F.HP_TLIM_T_CRIT w))
    (hxc : x ≤ signed 12 (c.get F.HP_PCEIL_T_TLIM_CEIL k)) (hyc : y ≤ signed 12 (c.get F.HP_PCEIL_T_TCRIT_CEIL k))
    (hwarn : signed 12 (c.get F.HP_TWARN_T_WARN k) < x) (horder : x < y) :
    c.thresholdWrite k true w = (c.set F.HP_TLIM_T_LIMIT (fld F.HP_TLIM_T_LIMIT w) k).set F.HP_TLIM_T_CRIT (fld F.HP_TLIM_T_CRIT w) k := by
  have hlim : signed 12 (bitsOf w 11 0) = x := hx.symm
  have hcrit : signed 12 (bitsOf w 27 16) = y := hy.symm
  have hul : unsigned 12 x = fld F.HP_TLIM_T_LIMIT w := by rw [hx]; exact unsigned_signed (bitsOf_lt _ _ _)
  have huc : unsigned 12 y = fld F.HP_TLIM_T_CRIT w := by rw [hy]; exact unsigned_signed (bitsOf_lt _ _ _)
  have hok : ¬ (x ≤ signed 12 (c.get F.HP_TWARN_T_WARN k) ∨ y ≤ x) := by omega
  have hceil : ¬ (signed 12 (c.get F.HP_PCEIL_T_TLIM_CEIL k) < x ∨ signed 12 (c.get F.HP_PCEIL_T_TCRIT_CEIL k) < y) := by omega
  simp only [Chip.thresholdWrite, if_true, hlim, hcrit, min_eq_left hxc, min_eq_left hyc, if_neg hok, if_neg hceil, hul, huc]

/-- A warning threshold out of order, and a hysteresis out of its range, are refused and counted. -/
theorem thresholdWrite_refused (h : signed 12 (c.get F.HP_TLIM_T_LIMIT k) ≤ signed 12 (fld F.HP_TWARN_T_WARN w) ∨ fld F.HP_TWARN_T_HYST w < 16 ∨
    480 < fld F.HP_TWARN_T_HYST w) : c.thresholdWrite k false w = c.addSat F.HP_REJ_CNT_COUNT 1 k := by
  have h' : signed 12 (c.get F.HP_TLIM_T_LIMIT k) ≤ signed 12 (bitsOf w 11 0) ∨ bitsOf w 27 16 < 16 ∨ 480 < bitsOf w 27 16 := h
  simp only [Chip.thresholdWrite, Bool.false_eq_true, if_false, if_pos h']

end Sys2Proof.Machine
end

section
namespace Sys2Proof.Proofs
open Sys2Proof.Machine

section Expert

variable {t n : Nat} {i : Initiator} {k : Fin 8} {w : Word} {s : State} {ps : List Part}

/-- The expert command that a write with word w gives port k. -/
def expertCmd (s : State) (k : Fin 8) (n : Nat) (w : Word) : HeadCmd :=
  { opc := n, arg := s.chip.get F.HP_XARG_ARG k, use := .expert, tag := some (fld F.HP_XCMD_TAG w.toNat) }

/-- What the write of an expert command finds at a port that takes it. -/
structure ExpertWrite (s : State) (i : Initiator) (k : Fin 8) : Prop where
  may : s.chip.mayWrite i (R.HP_XCMD.at k 0)
  noSwitch : s.chip.switchState = 0
  noRun : s.chip.calBusy = false
  expert : s.chip.on F.HP_CTRL_XPERT_EN k = true
  up : s.chip.isUp k = true
  todo : (s.chip.port k).todo = []
  wait : (s.chip.port k).wait = none

theorem xcmdAddr_apart : ∀ k : Fin 8, F.HP_REJ_CNT_COUNT.at k 0 ≠ R.HP_XCMD.at k 0 ∧ F.HP_REJ_CNT_COUNT.at k 0 ≠ R.HP_XRSP.at k 0 ∧
    F.HP_STAT_STATE.at k 0 ≠ R.HP_XCMD.at k 0 ∧ F.HP_STAT_STATE.at k 0 ≠ R.HP_XRSP.at k 0 := by decide

/-- The write of an expert command gives the command, where the command counts nothing. -/
theorem expertCommand_taken (h : ExpertWrite s i k) (hn : 1 ≤ n ∧ n ≤ 3) (t : Nat) (w : Word)
    (hcmd : ∀ d, ExpertReady (s.chip.wrote t i (R.HP_XCMD.at k 0)) d k → d.Only ps ∅ (d.command k [expertCmd s k n w])) :
    ∃ d, ExpertReady (s.chip.wrote t i (R.HP_XCMD.at k 0)) d k ∧
      expertCommand t i k n w s = .next { s with chip := (d.command k [expertCmd s k n w]) } := by
  obtain ⟨hgo, -, -⟩ := fld_expertWord (by omega : n < 256) w
  obtain ⟨d, hd, hxcmd⟩ := expertWrite_taken (c := s.chip.wrote t i (R.HP_XCMD.at k 0)) (v := w) hn h.expert h.noRun h.noSwitch h.up h.todo h.wait
  obtain ⟨hrx, hrr, -, -⟩ := xcmdAddr_apart k
  have hkept := ((hcmd d hd).get (p := F.HP_REJ_CNT_COUNT) (i := k) (j := 0) (by simp)).trans (hd.only.get (by simp [hrx, hrr]))
  refine ⟨d, hd, ?_⟩
  rw [expertCommand, ← expertWord, portWrite_taken isPortReg_xcmd h.may, writeHp_xcmd hgo, hxcmd]
  · rfl
  · rw [hxcmd]
    exact le_of_eq_of_le hkept (Nat.le_succ _)

/-- An expert command that waits for the transfer in progress. -/
theorem expertCommand_waits (h : ExpertWrite s i k) (hn : 1 ≤ n ∧ n ≤ 3) (t : Nat) (w : Word) (hxfer : (s.chip.port k).xfer ≠ none) :
    ∃ u, expertCommand t i k n w s = .next u ∧ WriteLeaves t i (R.HP_XCMD.at k 0) [.hp] {R.HP_XCMD.at k 0, R.HP_XRSP.at k 0} s u ∧
      u.chip.word (R.HP_XRSP.at k 0) = 0 ∧ u.chip.hp = s.chip.hp.set k { s.chip.port k with xdata := [], todo := [expertCmd s k n w] } := by
  have hwaits : ∀ d, ExpertReady (s.chip.wrote t i (R.HP_XCMD.at k 0)) d k →
      d.command k [expertCmd s k n w] = d.setHp k { d.port k with todo := [expertCmd s k n w] } :=
    fun d hd => command_waits (by rw [hd.port]; exact h.todo) (by rw [hd.port]; exact hxfer)
  obtain ⟨d, hd, hexec⟩ := expertCommand_taken (ps := [.hp]) h hn t w fun d hd => by rw [hwaits d hd]; exact .setHp (.refl _ _ d) (by simp)
  rw [hwaits d hd] at hexec
  refine ⟨_, hexec, writeLeaves_of_only (.setHp hd.only (by simp)) (by simp) (by simp), hd.cleared, ?_⟩
  simp only [Chip.setHp_hp, hd.port, hd.hp]
  exact Vector.set_set _ _

/-- An expert command that leaves at once. -/
theorem expertCommand_leaves (h : ExpertWrite s i k) (hn : 1 ≤ n ∧ n ≤ 3) (t : Nat) (w : Word) (hxfer : (s.chip.port k).xfer = none)
    (hlink : (s.chip.port k).busyUntil ≤ max s.chip.now t) :
    ∃ u, expertCommand t i k n w s = .next u ∧ WriteLeaves t i (R.HP_XCMD.at k 0) [.hp, .sent] {R.HP_XCMD.at k 0, R.HP_XRSP.at k 0} s u ∧
      u.chip.word (R.HP_XRSP.at k 0) = 0 ∧ (u.chip.port k).xdata = [] ∧
      (∃ x, (u.chip.port k).wait = some x ∧ x.cmd.opc = n ∧ x.cmd.use = .expert ∧ x.tag = fld F.HP_XCMD_TAG w.toNat) ∧
      u.chip.sent = s.chip.sent ++ [⟨"headCmd", [k.val, n, fld F.HP_XCMD_TAG w.toNat, 0, s.chip.get F.HP_XARG_ARG k]⟩] := by
  have hleaves : ∀ d, ExpertReady (s.chip.wrote t i (R.HP_XCMD.at k 0)) d k → _ := fun d hd =>
    command_leaves (c := d) (k := k) (h := expertCmd s k n w) (n := fld F.HP_XCMD_TAG w.toNat) (by rw [hd.port]; exact h.todo)
      (by rw [hd.port]; exact h.wait) (by rw [hd.port]; exact hxfer)
      (by rw [hd.port, hd.only.1 .now (by simp)]; exact hlink)
      (by
        obtain ⟨-, -, hsx, hsr⟩ := xcmdAddr_apart k
        rw [Chip.isUp, hd.only.get (by simp [hsx, hsr])]
        exact h.up) rfl rfl
  obtain ⟨d, hd, hexec⟩ := expertCommand_taken (ps := [.hp, .sent]) h hn t w fun d hd => (hleaves d hd).1
  obtain ⟨honly, hxdata, ⟨x, hwait, hcmd, htag⟩, hsent⟩ := hleaves d hd
  refine ⟨_, hexec, writeLeaves_of_only ((hd.only.mono (by simp) subset_rfl).trans (honly.mono (by simp) (by simp))) (by simp) (by simp), ?_, ?_,
    ⟨x, hwait, by rw [hcmd]; rfl, by rw [hcmd]; rfl, htag⟩, ?_⟩
  · exact (honly.2 _ (by simp)).trans hd.cleared
  · exact hxdata.trans (by rw [hd.port])
  · rw [hsent, hd.only.1 .sent (by simp)]
    simp only [expertCmd, List.length_nil, List.append_nil, Nat.zero_add, Nat.reduceDiv]
    rfl

/-- An expert command of a port that is not UP is counted. -/
theorem ping_refused (hmay : s.chip.mayWrite i (R.HP_XCMD.at k 0)) (hsw : s.chip.switchState = 0) (hcal : s.chip.calBusy = false)
    (hx : s.chip.on F.HP_CTRL_XPERT_EN k = true) (hup : s.chip.isUp k = false) (t : Nat) (w : Word) :
    ∃ d, (s.chip.wrote t i (R.HP_XCMD.at k 0)).Only [] {R.HP_XCMD.at k 0} d ∧
      exec (.ping t i k w) s = .next { s with chip := (d.addSat F.HP_REJ_CNT_COUNT 1 k) } := by
  have hplain := plain_xcmd (w := (expertWord 1 w).toNat) (c := s.chip.wrote t i (R.HP_XCMD.at k 0)) (k := k) hx hcal hsw
  obtain ⟨hgo, -, -⟩ := fld_expertWord (by decide : 1 < 256) w
  obtain ⟨hrx, -, hsx, -⟩ := xcmdAddr_apart k
  have honly : (s.chip.wrote t i (R.HP_XCMD.at k 0)).Only [] {R.HP_XCMD.at k 0}
      ((s.chip.wrote t i (R.HP_XCMD.at k 0)).plain (R.HP_XCMD.at k 0) hpXcmd (expertWord 1 w).toNat) := by
    rw [hplain]
    exact .setWord (.refl _ _ _) rfl
  have hexec : exec (.ping t i k w) s = runWrite t i R.HP_XCMD (expertWord 1 w) k 0 s := rfl
  have hwrite := writeHp_xcmd (c := s.chip.wrote t i (R.HP_XCMD.at k 0)) (k := k) hgo
  generalize (s.chip.wrote t i (R.HP_XCMD.at k 0)).plain (R.HP_XCMD.at k 0) hpXcmd (expertWord 1 w).toNat = d at honly hwrite
  have hdup : d.isUp k = false := by rw [Chip.isUp, honly.get (by simpa using hsx)]; exact hup
  rw [xcmd_refused hdup, Chip.get_addSat_same _ _ _ _ _ (by decide) (by decide), honly.get (by simpa using hrx)] at hwrite
  refine ⟨d, honly, ?_⟩
  rw [hexec, portWrite_taken isPortReg_xcmd hmay, hwrite (by rw [satNat_eq_min]; exact min_le_left _ _)]

end Expert

/-- A write that does nothing but count is refused. -/
theorem writeLeaves_counted {t : Nat} {i : Initiator} {k : Fin 8} {a : Nat} {s : State} :
    WriteLeaves t i a [] {F.HP_REJ_CNT_COUNT.at k 0} s { s with chip := ((s.chip.wrote t i a).addSat F.HP_REJ_CNT_COUNT 1 k) } ∧
      ((s.chip.wrote t i a).addSat F.HP_REJ_CNT_COUNT 1 k).get F.HP_REJ_CNT_COUNT k =
        satNat (F.HP_REJ_CNT_COUNT.hi + 1 - F.HP_REJ_CNT_COUNT.lo) (s.chip.get F.HP_REJ_CNT_COUNT k + 1) :=
  ⟨writeLeaves_of_only (.addSat (.refl _ _ _) rfl) (by simp) (by simp), Chip.get_addSat_same _ _ _ _ _ (by decide) (by decide)⟩

/-- Settles O23, clause by clause: each access comes to one operation of the port, stated by a lemma above. -/
theorem portRegisters : Obligations.PortRegisters := by
  unfold Obligations.PortRegisters
  refine ⟨?_, ?_, ?_, ?_, ?_, ?_, ?_, ?_, ?_, ?_⟩
  · intro t i k w s hmay hsw hcal hx hup htodo hwait hxfer
    exact expertCommand_waits ⟨hmay, hsw, hcal, hx, hup, htodo, hwait⟩ (by decide) t w hxfer
  · intro t i k w s hmay hsw hcal hx hup htodo hwait hxfer hlink
    exact expertCommand_leaves ⟨hmay, hsw, hcal, hx, hup, htodo, hwait⟩ (by decide) t w hxfer hlink
  · intro t i k w s hmay hsw hcal hx hup htodo hwait hxfer hlink
    exact expertCommand_leaves ⟨hmay, hsw, hcal, hx, hup, htodo, hwait⟩ (by decide) t w hxfer hlink
  · intro t i k w s hmay hsw hcal hx hup
    obtain ⟨d, hd, hexec⟩ := ping_refused hmay hsw hcal hx hup t w
    have hrx := (xcmdAddr_apart k).1
    refine ⟨_, hexec, writeLeaves_of_only (.addSat (hd.mono (by simp) (by simp)) (by simp)) (by simp) (by simp), ?_⟩
    rw [Chip.get_addSat_same _ _ _ _ _ (by decide) (by decide), hd.get (by simpa using hrx), Chip.wrote_get]
  · intro t i k s hmay
    have hself : hpXdata.is R.HP_XDATA = true := rfl
    have hother : hpXdata.is R.HP_MEM_DATA = false := rfl
    obtain ⟨-, -, -, hblock⟩ := isPortReg_spec isPortReg_xdata k
    have hread : Chip.readHp (R.HP_XDATA.at k 0) hpXdata (s.chip.at t) = (s.chip.at t).xdataRead k := by
      simp only [Chip.readHp, portOf_block hblock, hself, hother, Bool.false_eq_true, if_false, if_true]
    refine ⟨_, portRead_taken isPortReg_xdata hmay, ?_⟩
    rw [hread]
    exact ⟨readLeaves_of_only (.setHp (.refl _ _ _) (by simp)), rfl⟩
  · intro t i k s hmay
    have hself : hpMemData.is R.HP_MEM_DATA = true := rfl
    obtain ⟨-, -, -, hblock⟩ := isPortReg_spec isPortReg_memData k
    have hread : Chip.readHp (R.HP_MEM_DATA.at k 0) hpMemData (s.chip.at t) = (s.chip.at t).memDataRead k := by
      simp only [Chip.readHp, portOf_block hblock, hself, if_true]
    refine ⟨_, portRead_taken isPortReg_memData hmay, ?_⟩
    rw [hread]
    have honly : (s.chip.at t).Only [] {F.HP_MEM_SEL_WORD.at k 0} ((s.chip.at t).memDataRead k).1 :=
      Chip.only_ite (.addWrap (.refl _ _ _) rfl) (.refl _ _ _)
    refine ⟨readLeaves_of_only honly, ?_⟩
    show ((s.chip.at t).memDataRead k).1.get F.HP_MEM_SEL_WORD k = _
    cases hinc : s.chip.on F.HP_MEM_SEL_AUTOINC k
    · have hinc' : (s.chip.at t).on F.HP_MEM_SEL_AUTOINC k = false := hinc
      simp only [Chip.memDataRead, hinc', Bool.false_eq_true, if_false]
      rfl
    · have hinc' : (s.chip.at t).on F.HP_MEM_SEL_AUTOINC k = true := hinc
      simp only [Chip.memDataRead, hinc', if_true]
      exact Chip.get_addWrap_same _ _ _ _ _ (by decide) (by decide)
  · intro t i k w v s hmay hsw hup hv hlo hhi hceil hsets
    have hwrite := wdogWrite_applies (c := s.chip.wrote t i (R.HP_WDOG.at k 0)) hlo hhi hceil hup hsets
    have hexec := portWrite_taken (t := t) (v := w) isPortReg_wdog hmay
    rw [writeHp_wdog (c := s.chip.wrote t i (R.HP_WDOG.at k 0)) hsw, ← hv, hwrite] at hexec
    refine ⟨_, hexec, ?_⟩
    have hset := (s.chip.wrote t i (R.HP_WDOG.at k 0)).only_limitSet k v
    have hbounds := ((s.chip.wrote t i (R.HP_WDOG.at k 0)).limitSet k v).only_flwBounds
    have hapart : ∀ k : Fin 8, 0x100E0000 ≤ F.HP_WDOG_LIMIT.at k 0 := by decide
    have hout : F.HP_WDOG_LIMIT.at k 0 ∉ blockRegsSet 0x0D := fun h => absurd h.2 (not_lt.mpr (hapart k))
    have honly : (s.chip.wrote t i (R.HP_WDOG.at k 0)).Only [.hp, .flw, .ev] ({R.HP_WDOG.at k 0} ∪ blockRegsSet 0x0D)
        ((s.chip.wrote t i (R.HP_WDOG.at k 0)).limitSet k v).flwBounds :=
      (hset.mono (by simp) (by simp)).trans (hbounds.mono (by simp) (by simp))
    exact ⟨writeLeaves_of_only honly (by simp) (by simp), (hbounds.get hout).trans (Chip.get_limitSet _ _ hhi), hbounds.1 .hp (by simp)⟩
  · intro t i k w s hmay hsw hrange
    have hexec := portWrite_taken (t := t) (v := w) isPortReg_wdog hmay
    rw [writeHp_wdog (c := s.chip.wrote t i (R.HP_WDOG.at k 0)) hsw, wdogWrite_refused hrange] at hexec
    exact ⟨_, hexec, writeLeaves_counted⟩
  · intro t i k w x y s hmay hsw hx hy hxc hyc hwarn horder
    have hexec := portWrite_taken (t := t) (v := w) isPortReg_tlim hmay
    rw [writeHp_tlim (c := s.chip.wrote t i (R.HP_TLIM.at k 0)) hsw,
      thresholdWrite_taken (c := s.chip.wrote t i (R.HP_TLIM.at k 0)) hx hy hxc hyc hwarn horder] at hexec
    refine ⟨_, hexec, writeLeaves_of_only (.set (.set (.refl _ _ _) rfl) rfl) (by simp) (by simp), ?_, ?_⟩
    · rw [hx, Chip.get_set_beside _ F.HP_TLIM_T_CRIT F.HP_TLIM_T_LIMIT _ _ _ _ _ rfl (by decide) (by decide) (by decide),
        Chip.get_set_same _ _ _ _ _ (by decide) (by decide)]
      exact congrArg (signed 12) (Nat.mod_eq_of_lt (bitsOf_lt _ _ _))
    · rw [hy, Chip.get_set_same _ _ _ _ _ (by decide) (by decide)]
      exact congrArg (signed 12) (Nat.mod_eq_of_lt (bitsOf_lt _ _ _))
  · intro t i k w s hmay hsw hbad
    have hexec := portWrite_taken (t := t) (v := w) isPortReg_twarn hmay
    rw [writeHp_twarn (c := s.chip.wrote t i (R.HP_TWARN.at k 0)) hsw,
      thresholdWrite_refused (c := s.chip.wrote t i (R.HP_TWARN.at k 0)) hbad] at hexec
    exact ⟨_, hexec, writeLeaves_counted⟩

end Sys2Proof.Proofs
end

section
/-!
PROOFS about the mailboxes and the commands of TC: the message that TC takes, the answer it gives (R485, R487).
-/

namespace Sys2Proof.Machine

variable {c d : Chip} {m op tag st k : Nat} {a l : List Nat} {s : Store}

/-! ### Where the mailboxes stand -/

/-- The message words of a mailbox. -/
def msgRegs (m : Nat) : Set Nat := { a | ∃ w : Fin 16, a = R.MBX_MSG.at m w }

theorem full_apart (h : m ≠ k) : F.MBXM_CTRL_FULL.at m 0 ≠ F.MBXM_CTRL_FULL.at k 0 := by
  simp only [Place.at, F.MBXM_CTRL_FULL]
  omega

theorem full_not_msg (m k : Nat) : F.MBXM_CTRL_FULL.at m 0 ∉ msgRegs k := by
  rintro ⟨w, hw⟩
  simp only [Place.at, F.MBXM_CTRL_FULL, R.MBX_MSG] at hw
  omega

theorem msgRegs_answerRegs (m : Nat) : msgRegs (m + 1) ⊆ answerRegs m := fun _ h => .inr h

theorem full_answerRegs (m : Nat) : F.MBXM_CTRL_FULL.at m 0 ∈ answerRegs m ∧ F.MBXM_CTRL_FULL.at (m + 1) 0 ∈ answerRegs m :=
  ⟨.inl (.inl rfl), .inl (.inr rfl)⟩

/-- The registers of an answer lie in the mailbox block. -/
theorem answerRegs_block {b : Nat} (hm : m ≤ 4) (h : b ∈ answerRegs m) : 0x101C0100 ≤ b ∧ b < 0x101C0340 := by
  rcases h with (rfl | rfl) | ⟨w, rfl⟩
  all_goals
    simp only [Place.at, F.MBXM_CTRL_FULL, R.MBX_MSG]
    omega

/-! ### The message that TC takes -/

/-- What a message that TC finds says of the chip. -/
theorem tcMessage_spec (h : c.tcMessage m op = some (tag, a)) :
    (m = 0 ∨ m = 2 ∨ m = 4) ∧ c.up 1 = true ∧ c.up 2 = true ∧ tag < 256 ∧ ∀ v ∈ a, v < 2 ^ 32 := by
  unfold Chip.tcMessage at h
  dsimp only at h
  split at h
  · rename_i hok
    simp only [Chip.tcRuns, Bool.and_eq_true, Bool.or_eq_true, beq_iff_eq] at hok
    obtain ⟨⟨⟨hm, ⟨⟨⟨h1, h2⟩, -⟩, -⟩, -⟩, -⟩, -⟩ := hok
    obtain ⟨rfl, rfl⟩ := Prod.mk.inj (Option.some.inj h)
    refine ⟨by omega, h1, h2, bitsOf_lt _ 15 8, fun v hv => ?_⟩
    obtain ⟨i, -, rfl⟩ := List.mem_map.mp hv
    exact c.get_lt F.MBX_MSG_DATA m (i + 1)
  · cases h

/-- TC has taken the message of mailbox m. -/
def Chip.tookMsg (c : Chip) (m : Nat) : Chip := c.set F.MBXM_CTRL_FULL 0 m

theorem Chip.only_tookMsg (c : Chip) (m : Nat) : c.Only [] {F.MBXM_CTRL_FULL.at m 0} (c.tookMsg m) := .set (.refl _ _ c) rfl

theorem Chip.full_tookMsg (c : Chip) (m : Nat) : (c.tookMsg m).on F.MBXM_CTRL_FULL m = false := by
  have hget := c.get_set_same F.MBXM_CTRL_FULL 0 m 0 (by decide) (by decide)
  simp [Chip.on, Chip.tookMsg, hget]

/-- Whether the caller is refused does not depend on the mailboxes. -/
theorem tcDenies_congr {b : Bool} (hsec : d.sec = c.sec) (hget : ∀ p ∈ [F.SEC_PHASE_PHASE, F.SEC_LC_IN_FORCE, F.SEC_BOOT_DDR_NONE], d.get p = c.get p) :
    d.tcDenies m op b = c.tcDenies m op b := by
  simp only [List.mem_cons, List.not_mem_nil, or_false, forall_eq_or_imp, forall_eq] at hget
  obtain ⟨hphase, hlc, hnone⟩ := hget
  unfold Chip.tcDenies Chip.lcInForce Chip.on
  rw [hphase, hlc, hnone, hsec]

theorem tcDenies_tookMsg {b : Bool} : (c.tookMsg m).tcDenies m op b = c.tcDenies m op b := by
  refine tcDenies_congr rfl fun p hp => Chip.Only.get (c.only_tookMsg m) ?_
  have hsec : p.at 0 0 < 0x101C0140 := by
    simp only [List.mem_cons, List.not_mem_nil, or_false] at hp
    rcases hp with rfl | rfl | rfl <;> decide
  simp only [Set.mem_singleton_iff]
  have hfull : 0x101C0140 ≤ F.MBXM_CTRL_FULL.at m 0 := by simp [Place.at, F.MBXM_CTRL_FULL]
  omega

/-- A command that is not refused and has its words acts. -/
theorem tcCommand_acts {n : Nat} {act : Nat → List Nat → Chip × Store → Chip × Store} (hmsg : c.tcMessage m op = some (tag, a))
    (hdeny : c.tcDenies m op (a.getD 0 0 == 1) = false) (hlen : a.length = n) : tcCommand m op n act (c, s) = act tag a (c.tookMsg m, s) := by
  have hdeny' := (tcDenies_tookMsg (c := c) (m := m) (op := op) (b := a.getD 0 0 == 1)).trans hdeny
  unfold Chip.tookMsg at hdeny' ⊢
  simp only [tcCommand, hmsg, hdeny', hlen, ne_eq, not_true_eq_false, Bool.false_eq_true, if_false]

/-! ### TC's answer -/

/-- Words are written into a mailbox's message, from word j on. -/
def Chip.msgPut (c : Chip) (m j : Nat) (l : List Nat) : Chip :=
  (l.zip (List.range' j (16 - j))).foldl (fun (c : Chip) (e : Nat × Nat) => c.set F.MBX_MSG_DATA e.1 m e.2) c

theorem Chip.msgPut_cons (c : Chip) {j : Nat} (hj : j < 16) (v : Nat) (l : List Nat) :
    c.msgPut m j (v :: l) = (c.set F.MBX_MSG_DATA v m j).msgPut m (j + 1) l := by
  obtain ⟨n, hn⟩ : ∃ n, 16 - j = n + 1 := ⟨15 - j, by omega⟩
  have hn' : 16 - (j + 1) = n := by omega
  simp only [Chip.msgPut, hn, hn', List.range'_succ, List.zip_cons_cons, List.foldl_cons]

theorem Chip.only_msgPut (c : Chip) (l : List Nat) {j : Nat} (h : j + l.length ≤ 16) :
    c.Only [] { b | ∃ w, j ≤ w ∧ w < 16 ∧ b = R.MBX_MSG.at m w } (c.msgPut m j l) := by
  induction l generalizing c j with
  | nil => exact .refl _ _ c
  | cons v l ih =>
    rw [List.length_cons] at h
    rw [Chip.msgPut_cons c (by omega)]
    refine .trans (.set (.refl _ _ c) ⟨j, le_refl j, by omega, rfl⟩) ((ih _ (by omega)).mono (List.Subset.refl _) ?_)
    rintro b ⟨w, hw, hw', rfl⟩
    exact ⟨w, by omega, hw', rfl⟩

theorem Chip.get_msgPut (c : Chip) (l : List Nat) {j : Nat} (h : j + l.length ≤ 16) (hl : ∀ v ∈ l, v < 2 ^ 32) (hk : k < l.length) :
    (c.msgPut m j l).get F.MBX_MSG_DATA m (j + k) = l.getD k 0 := by
  induction l generalizing c j k with
  | nil => simp at hk
  | cons v l ih =>
    rw [List.length_cons] at h hk
    rw [Chip.msgPut_cons c (by omega)]
    cases k with
    | zero =>
      have hrest := (c.set F.MBX_MSG_DATA v m j).only_msgPut (m := m) l (j := j + 1) (by omega)
      rw [hrest.get, Nat.add_zero, Chip.get_set_same _ _ _ _ _ (by decide) (by decide)]
      · exact Nat.mod_eq_of_lt (hl v (by simp))
      · rintro ⟨w, hw, -, heq⟩
        simp only [Place.at, F.MBX_MSG_DATA, R.MBX_MSG] at heq
        omega
    | succ k =>
      have hnext := ih (c.set F.MBX_MSG_DATA v m j) (j := j + 1) (k := k) (by omega) (fun x hx => hl x (by simp [hx])) (by omega)
      rw [show j + (k + 1) = j + 1 + k by omega]
      simpa using hnext

/-- FULL is set; EVC or the host hears of it. -/
theorem Chip.only_mbxFull (c : Chip) (m : Nat) : c.Only [.ev, .hst] {F.MBXM_CTRL_FULL.at m 0} (c.mbxFull m) := by
  have hset : c.Only [.ev, .hst] {F.MBXM_CTRL_FULL.at m 0} (c.set F.MBXM_CTRL_FULL 1 m) := .set (.refl _ _ c) rfl
  unfold Chip.mbxFull
  generalize c.set F.MBXM_CTRL_FULL 1 m = d at *
  refine Chip.only_ite (Chip.only_ite ?_ hset) (hset.setEv (by simp))
  refine hset.beside rfl fun q hq => ?_
  cases q
  case hst => simp at hq
  all_goals rfl

theorem Chip.full_mbxFull (c : Chip) (m : Nat) : (c.mbxFull m).on F.MBXM_CTRL_FULL m = true := by
  have hget : (c.set F.MBXM_CTRL_FULL 1 m).get F.MBXM_CTRL_FULL m = 1 := c.get_set_same F.MBXM_CTRL_FULL 1 m 0 (by decide) (by decide)
  have hword : (c.mbxFull m).get F.MBXM_CTRL_FULL m = (c.set F.MBXM_CTRL_FULL 1 m).get F.MBXM_CTRL_FULL m := by
    unfold Chip.mbxFull
    generalize c.set F.MBXM_CTRL_FULL 1 m = d
    dsimp only
    split
    · split <;> rfl
    · rfl
  simp [Chip.on, hword, hget]

/-- TC's answer goes into the free mailbox of the way back, where no forwarded message waits for one. -/
theorem tcAnswer_spec (hup : c.up 2 = true) (hfree : c.on F.MBXM_CTRL_FULL (m + 1) = false) (hforward : c.fw.forward = none)
    (htook : c.on F.MBXM_CTRL_FULL m = false) (htag : tag < 256) (hst : st < 256) (hl : ∀ v ∈ l, v < 2 ^ 32) (hlen : l.length ≤ 15) :
    c.Only [.ev, .hst] (answerRegs m) (c.tcAnswer m tag st l) ∧ (c.tcAnswer m tag st l).TcAnswered m tag st l := by
  have hput : (((st + tag * 256 + l.length * 65536) :: l).zip (List.range 16)).foldl
      (fun (c : Chip) (e : Nat × Nat) => c.set F.MBX_MSG_DATA e.1 (m + 1) e.2) c = c.msgPut (m + 1) 0 ((st + tag * 256 + l.length * 65536) :: l) := by
    rw [Chip.msgPut, List.range_eq_range']
  have hfits : 0 + ((st + tag * 256 + l.length * 65536) :: l).length ≤ 16 := by simp; omega
  have hwords : ∀ v ∈ (st + tag * 256 + l.length * 65536) :: l, v < 2 ^ 32 := by
    intro v hv
    rcases List.mem_cons.mp hv with rfl | hv
    · omega
    · exact hl v hv
  have honly := c.only_msgPut (m := m + 1) _ hfits
  have hget := fun k hk => c.get_msgPut (m := m + 1) (k := k) _ hfits hwords hk
  have hdef : c.tcAnswer m tag st l = (c.msgPut (m + 1) 0 ((st + tag * 256 + l.length * 65536) :: l)).mbxFull (m + 1) := by
    have hfull : (c.msgPut (m + 1) 0 ((st + tag * 256 + l.length * 65536) :: l)).mbxFull (m + 1) = c.tcWrite m tag st l := by
      have hfw : ((c.msgPut (m + 1) 0 ((st + tag * 256 + l.length * 65536) :: l)).mbxFull (m + 1)).fw.forward = none := by
        rw [(Chip.only_mbxFull _ _).1 .fw (by simp), honly.1 .fw (by simp), hforward]
      simp only [Chip.tcWrite, hput, Chip.forwardAnswered, hfw, ite_self]
    simp only [Chip.tcAnswer, hup, hfree, hfull, Bool.not_true, Bool.false_eq_true, if_false]
  rw [hdef]
  generalize c.msgPut (m + 1) 0 ((st + tag * 256 + l.length * 65536) :: l) = d at honly hget
  have hfull := d.only_mbxFull (m + 1)
  have hset := d.full_mbxFull (m + 1)
  generalize d.mbxFull (m + 1) = e at hfull hset
  have hmsg : { b | ∃ w, 0 ≤ w ∧ w < 16 ∧ b = R.MBX_MSG.at (m + 1) w } ⊆ msgRegs (m + 1) := by
    rintro b ⟨w, -, hw, rfl⟩
    exact ⟨⟨w, hw⟩, rfl⟩
  have honly' : c.Only [] (msgRegs (m + 1)) d := honly.mono (List.Subset.refl _) hmsg
  have hread : ∀ k, k < 16 → e.get F.MBX_MSG_DATA (m + 1) k = d.get F.MBX_MSG_DATA (m + 1) k := by
    intro k hk
    refine hfull.get fun h => full_not_msg (m + 1) (m + 1) ⟨⟨k, hk⟩, ?_⟩
    exact (Set.mem_singleton_iff.mp h).symm
  refine ⟨?_, ?_, hset, ?_, ?_⟩
  · refine (honly'.mono (by simp) (msgRegs_answerRegs m)).trans (hfull.mono (List.Subset.refl _) ?_)
    exact Set.singleton_subset_iff.mpr (full_answerRegs m).2
  · have hother : e.get F.MBXM_CTRL_FULL m = c.get F.MBXM_CTRL_FULL m :=
      (hfull.get (by simpa using full_apart (Nat.ne_of_lt (Nat.lt_succ_self m)))).trans (honly'.get (full_not_msg m (m + 1)))
    rw [Chip.on, hother]
    exact htook
  · rw [hread 0 (by decide)]
    exact hget 0 (by simp)
  · intro k hk
    rw [hread (k + 1) (by omega)]
    have hword := hget (k + 1) (by simpa using hk)
    rw [Nat.zero_add] at hword
    simpa using hword

/-- The registers outside SYS and the mailboxes. -/
def beyondAnswer (rs : Set Nat) : Prop := ∀ b ∈ rs, 0x10010000 ≤ b ∧ b < 0x101C0000

theorem not_mem_of_beyond {rs : Set Nat} {b : Nat} (h : beyondAnswer rs) (hb : b < 0x10010000 ∨ 0x101C0000 ≤ b) : b ∉ rs := fun hm => by
  have := h b hm
  omega

theorem full_beyond (m : Nat) : 0x101C0000 ≤ F.MBXM_CTRL_FULL.at m 0 := by
  simp only [Place.at, F.MBXM_CTRL_FULL]
  omega

/-- A message that TC takes, acts on beside the mailboxes, and answers. -/
theorem tcAnswer_after {ps : List Part} {rs : Set Nat} (hmsg : c.tcMessage m op = some (tag, a)) (hfree : c.on F.MBXM_CTRL_FULL (m + 1) = false)
    (hforward : c.fw.forward = none) (hd : (c.tookMsg m).Only ps rs d) (hfw : .fw ∉ ps) (hrs : beyondAnswer rs) (hst : st < 256)
    (hl : ∀ v ∈ l, v < 2 ^ 32) (hlen : l.length ≤ 15) :
    d.Only [.ev, .hst] (answerRegs m) (d.tcAnswer m tag st l) ∧ c.Only (.ev :: .hst :: ps) (answerRegs m ∪ rs) (d.tcAnswer m tag st l) ∧
      (d.tcAnswer m tag st l).TcAnswered m tag st l := by
  obtain ⟨-, -, hup, htag, -⟩ := tcMessage_spec hmsg
  have htook := c.only_tookMsg m
  have hfull := fun n => not_mem_of_beyond hrs (.inr (full_beyond n))
  have hup' : d.up 2 = true := by
    rw [Chip.up, hd.get (not_mem_of_beyond hrs (.inl (by decide))), htook.get]
    · exact hup
    · have := full_beyond m
      exact fun h => absurd (Set.mem_singleton_iff.mp h ▸ this) (by decide)
  have hfree' : d.on F.MBXM_CTRL_FULL (m + 1) = false := by
    rw [Chip.on, hd.get (hfull _), htook.get]
    · exact hfree
    · exact full_apart (by omega)
  have htaken : d.on F.MBXM_CTRL_FULL m = false := by
    rw [Chip.on, hd.get (hfull _)]
    exact c.full_tookMsg m
  have hfw' : d.fw.forward = none := by rw [hd.1 .fw hfw, htook.1 .fw (by simp), hforward]
  obtain ⟨honly, hans⟩ := tcAnswer_spec hup' hfree' hfw' htaken htag hst hl hlen
  refine ⟨honly, ?_, hans⟩
  refine ((htook.mono (by simp) ?_).trans (hd.mono (fun x hx => by simp [hx]) (by simp))).trans (honly.mono (by simp) (by simp))
  exact fun x hx => .inl (Set.mem_singleton_iff.mp hx ▸ (full_answerRegs m).1)

/-- A field outside the mailboxes reads as before TC took the message. -/
theorem get_took {p : Place} {i j : Nat} (h : p.at i j < 0x101C0000) : (c.tookMsg m).get p i j = c.get p i j := by
  refine Chip.Only.get (c.only_tookMsg m) fun hm => ?_
  have := full_beyond m
  rw [Set.mem_singleton_iff] at hm
  omega

end Sys2Proof.Machine
end

section
/-!
PROOFS about what TC does with a message: its writes to registers of STR, its reads of the fuses, its restart of service firmware (R400, R405,
R407, R621, R487).
-/

namespace Sys2Proof.Machine

variable {c d : Chip} {m tag a w : Nat} {s : Store} {r : RegDef} {f : FieldDef} {errs : List DdrError}

/-! ### TC's writes to STR -/

/-- No section of an image loads a register of STR (R395). -/
theorem sectionLoads_not_str {ty : Nat} {l : ImgLoad} (h : l ∈ sectionLoads ty) : blockOf l.addr ≠ 0x0F := by
  have hall : ∀ ty : Fin 12, (sectionLoads ty).all (fun l => blockOf l.addr != 0x0F) = true := by decide +kernel
  by_cases hty : ty < 12
  · simpa using List.all_eq_true.mp (hall ⟨ty, hty⟩) l h
  · have hnone : sectionLoads ty = [] := by
      unfold sectionLoads
      simp only [show ty ≠ 1 by omega, show ty ≠ 3 by omega, show ty ≠ 4 by omega, show ty ≠ 5 by omega, show ty ≠ 6 by omega,
        show ty ≠ 7 by omega, show ty ≠ 8 by omega, show ty ≠ 9 by omega, show ty ≠ 10 by omega, show ty ≠ 11 by omega, if_false]
    simp [hnone] at h

theorem str_not_frozen (hb : blockOf a = 0x0F) : c.frozen a = false := by
  have hnone : loadsRegister c.str.pend a = false := by
    simp only [loadsRegister, List.any_eq_false]
    rintro x - hx
    obtain ⟨l, hl, heq⟩ := List.any_eq_true.mp hx
    exact sectionLoads_not_str hl (beq_iff_eq.mp heq ▸ hb)
  simp [Chip.frozen, hnone]

theorem str_not_featureless (hb : blockOf a = 0x0F) : c.featureless a f = false := by
  have hlo : 0x100F0000 ≤ a ∧ a < 0x10100000 := by unfold blockOf at hb; omega
  have htrk : a ≠ R.TRK_CTRL.addr := by rintro rfl; exact absurd hlo.1 (by decide)
  have htko : a ≠ R.TKO_STBY.addr := by rintro rfl; exact absurd hlo.2 (by decide)
  have hcol : ¬ a < R.COL_STBY.addr + 32 := by
    have : R.COL_STBY.addr + 32 ≤ 0x100F0000 := by decide
    omega
  simp [Chip.featureless, beq_eq_false_iff_ne.mpr htrk, beq_eq_false_iff_ne.mpr htko, hcol]

/-- Register r of STR stands at address a. -/
structure StrReg (a : Nat) (r : RegDef) : Prop where
  index : regWhere a = some (r, 0, 0)
  ordinary : ordinary a = true
  block : blockOf a = 0x0F

/-- What TC's write finds: the write noted, the bus answered. -/
def Chip.tcWrote (c : Chip) (a : Nat) : Chip := (c.setSys { c.sys with lastWrite := some (a, .tc) }).answered .done

theorem Chip.only_tcWrote (c : Chip) (a : Nat) : c.Only [.sys, .answer] ∅ (c.tcWrote a) := by
  refine (Chip.Only.refl _ _ c).beside rfl fun q hq => ?_
  cases q
  case sys | answer => simp at hq
  all_goals rfl

/-- The answer that a bus access had is put back. -/
theorem Chip.Only.answeredBack {ps : List Part} {rs : Set Nat} (h : c.Only (.answer :: ps) rs d) : c.Only ps rs (d.answered c.answer) := by
  refine ⟨fun q hq => ?_, h.2⟩
  by_cases hans : q = .answer
  · subst hans
    rfl
  · have hkept := h.1 q (by simp [hans, hq])
    cases q
    case answer => simp at hans
    all_goals exact hkept

/-- TC's write to STR comes to the register's meaning. -/
theorem tcStore_str (h : StrReg a r) (hup : c.up 1 = true) : tcStore a w errs (c, s) =
    ((writeStr a r (BitVec.ofNat 32 w).toNat errs (c.tcWrote a, s)).1.answered c.answer,
      (writeStr a r (BitVec.ofNat 32 w).toNat errs (c.tcWrote a, s)).2) := by
  have hmay : c.mayWrite .tc a := by
    refine ⟨?_, ?_, ?_, fun _ => rfl⟩
    · simp [Chip.absent, h.block]
    · rw [h.block]
      exact hup
    · rw [h.block]
      rfl
  simp only [tcStore, keepAnswer, busWrite_taken hmay h.ordinary h.index, writeReg, h.block]
  rfl

/-- A plain write of values in range to a register of STR is taken. -/
theorem plain_str (h : StrReg a r) (hcal : c.calBusy = false)
    (hrw : ∀ f ∈ r.fields, f.acc = .rw ∧ f.min ≤ bitsOf w f.hi f.lo ∧ bitsOf w f.hi f.lo ≤ f.max) :
    c.Only [] {a} (c.plain a r w) ∧ ∀ f ∈ r.fields, bitsOf ((c.plain a r w).word a).toNat f.hi f.lo = bitsOf w f.hi f.lo := by
  have hbar : ∀ f ∈ r.fields, c.barsField a w f = false := by
    intro f hf
    obtain ⟨hacc, hmin, hmax⟩ := hrw f hf
    have hheld : c.calHolds a = 0 := by simp [Chip.calHolds, hcal]
    have hnone : bitsOf 0 f.hi f.lo = 0 := by simp [bitsOf]
    simp [Chip.barsField, hacc, Nat.not_lt.mpr hmin, Nat.not_lt.mpr hmax, hheld, hnone, str_not_frozen h.block]
  have hno : r.fields.any (c.ignoresField a w) = false := List.any_eq_false.mpr fun f hf => by simp [Chip.ignoresField, hbar f hf]
  rw [plain_of_taken (by rw [h.block]; decide) hno]
  refine ⟨.setWord (.refl _ _ c) rfl, fun f hf => ?_⟩
  rw [Chip.word_setWord_same, plainWord_field (regWhere_regAt h.index) hf, fieldAfter_taking (.inl (hrw f hf).1), str_not_featureless h.block,
    hbar f hf]
  rfl

/-- TC's write of w to a register of STR that is written plainly. -/
theorem tcStore_plain (h : StrReg a r) (hup : c.up 1 = true) (hcal : c.calBusy = false) (hw : w < 2 ^ 32)
    (hkind : (r.is R.STR_LOAD_GO || r.is R.STR_APPROVE || r.is R.STR_SLOT_BASE_LO || r.is R.STR_SLOT_BASE_HI) = false)
    (hrw : ∀ f ∈ r.fields, f.acc = .rw ∧ f.min ≤ bitsOf w f.hi f.lo ∧ bitsOf w f.hi f.lo ≤ f.max) :
    ∃ d, tcStore a w errs (c, s) = (d, s) ∧ c.Only [.sys] {a} d ∧ ∀ f ∈ r.fields, bitsOf (d.word a).toNat f.hi f.lo = bitsOf w f.hi f.lo := by
  simp only [Bool.or_eq_false_iff] at hkind
  obtain ⟨⟨⟨hgo, happrove⟩, hlo⟩, hhi⟩ := hkind
  have hnat : (BitVec.ofNat 32 w).toNat = w := by rw [BitVec.toNat_ofNat, Nat.mod_eq_of_lt hw]
  obtain ⟨honly, hbits⟩ := plain_str (c := c.tcWrote a) h hcal hrw
  refine ⟨((c.tcWrote a).plain a r w).answered c.answer, ?_, ?_, hbits⟩
  · simp only [tcStore_str h hup, writeStr, hgo, happrove, hlo, hhi, hnat, Bool.or_self, Bool.false_eq_true, if_false]
  · exact Chip.Only.answeredBack (((c.only_tcWrote a).mono (by simp) (by simp)).trans (honly.mono (by simp) subset_rfl))

/-! ### The registers of STR that TC writes -/

/-- STR_LOAD_LO, STR_LOAD_HI, STR_LOAD_LEN, STR_LOAD_GO, STR_SW_LINE_LO, STR_SW_LINE_HI and STR_APPROVE in the register map. -/
def strLoadLo : RegDef := ⟨0x010, 0, 1, 0, 1, 0x0, [fd 31 2 .rw]⟩
def strLoadHi : RegDef := ⟨0x014, 0, 1, 0, 1, 0x0, [fd 7 0 .rw]⟩
def strLoadLen : RegDef := ⟨0x018, 0, 1, 0, 1, 0x0, [fr 18 0 .rw 192 262144 false]⟩
def strLoadGo : RegDef := ⟨0x01C, 0, 1, 0, 1, 0x0, [fd 0 0 .wo]⟩
def strSwLineLo : RegDef := ⟨0x024, 0, 1, 0, 1, 0x0, [fd 31 0 .rw]⟩
def strSwLineHi : RegDef := ⟨0x028, 0, 1, 0, 1, 0x0, [fd 15 0 .rw]⟩
def strApproveReg : RegDef := ⟨0x02C, 0, 1, 0, 1, 0x0, [fd 1 0 .wo]⟩

theorem strReg_loadLo : StrReg R.STR_LOAD_LO.addr strLoadLo := ⟨by decide +kernel, by decide, by decide⟩
theorem strReg_loadHi : StrReg R.STR_LOAD_HI.addr strLoadHi := ⟨by decide +kernel, by decide, by decide⟩
theorem strReg_loadLen : StrReg R.STR_LOAD_LEN.addr strLoadLen := ⟨by decide +kernel, by decide, by decide⟩
theorem strReg_loadGo : StrReg R.STR_LOAD_GO.addr strLoadGo := ⟨by decide +kernel, by decide, by decide⟩
theorem strReg_swLineLo : StrReg R.STR_SW_LINE_LO.addr strSwLineLo := ⟨by decide +kernel, by decide, by decide⟩
theorem strReg_swLineHi : StrReg R.STR_SW_LINE_HI.addr strSwLineHi := ⟨by decide +kernel, by decide, by decide⟩
theorem strReg_approve : StrReg R.STR_APPROVE.addr strApproveReg := ⟨by decide +kernel, by decide, by decide⟩

/-- A register of one field of any value takes it. -/
theorem tcStore_field {hi lo : Nat} (h : StrReg a r) (hup : c.up 1 = true) (hcal : c.calBusy = false) (hw : w < 2 ^ 32)
    (hkind : (r.is R.STR_LOAD_GO || r.is R.STR_APPROVE || r.is R.STR_SLOT_BASE_LO || r.is R.STR_SLOT_BASE_HI) = false)
    (hfields : r.fields = [fd hi lo .rw]) :
    ∃ d, tcStore a w errs (c, s) = (d, s) ∧ c.Only [.sys] {a} d ∧ bitsOf (d.word a).toNat hi lo = bitsOf w hi lo := by
  have hmax : bitsOf w hi lo ≤ 2 ^ (hi + 1 - lo) - 1 := Nat.le_pred_of_lt (bitsOf_lt _ _ _)
  obtain ⟨d, hstore, honly, hbits⟩ := tcStore_plain (errs := errs) (s := s) h hup hcal hw hkind (fun f hf => by
    rw [hfields, List.mem_singleton] at hf
    subst hf
    exact ⟨rfl, Nat.zero_le _, hmax⟩)
  exact ⟨d, hstore, honly, hbits (fd hi lo .rw) (by simp [hfields])⟩

theorem calSwitch_idle (h : c.calBusy = false) : c.calSwitch = c := by simp [Chip.calSwitch, h]

/-- TC's approval, or cancelling, of a switch. -/
theorem tcStore_approve {op : Nat} (hop : op = 1 ∨ op = 2) (hup : c.up 1 = true)
    (hcal : ((c.tcWrote R.STR_APPROVE.addr).strApprove op).calBusy = false) :
    tcStore R.STR_APPROVE.addr op errs (c, s) = (((c.tcWrote R.STR_APPROVE.addr).strApprove op).answered c.answer, s) := by
  have hgo : strApproveReg.is R.STR_LOAD_GO = false := rfl
  have hself : strApproveReg.is R.STR_APPROVE = true := rfl
  have hfld : fld F.STR_APPROVE_OP (BitVec.ofNat 32 op).toNat = op := by rcases hop with rfl | rfl <;> decide
  simp only [tcStore_str strReg_approve hup, writeStr, hgo, hself, hfld, calSwitch_idle hcal, Bool.false_eq_true, if_false, if_true]

theorem tcStore_loadGo (hup : c.up 1 = true) : tcStore R.STR_LOAD_GO.addr 1 errs (c, s) =
    ((Chip.strLoad errs (c.tcWrote R.STR_LOAD_GO.addr, s)).1.answered c.answer, (Chip.strLoad errs (c.tcWrote R.STR_LOAD_GO.addr, s)).2) := by
  have hself : strLoadGo.is R.STR_LOAD_GO = true := rfl
  have hfld : fld F.STR_LOAD_GO_GO (BitVec.ofNat 32 1).toNat = 1 := by decide
  simp only [tcStore_str strReg_loadGo hup, writeStr, hself, hfld, if_true]

/-! ### An image is copied (R400) -/

section Ddr

variable {g : Agent} {addr n : Nat} {l : List Byte}

theorem windowRefuses_open (hopen : ∀ w : Fin 8, c.on F.DDR_WIN_PERM_EN w = false) (b : Bool) : c.windowRefuses g addr b = none := by
  have hnone : c.windowOf addr = none := by
    simp [Chip.windowOf, hopen]
  simp [Chip.windowRefuses, hnone]

/-- An agent's read of DDR with no window in force and no error on a line. -/
theorem agentRead_open (hready : c.ddrReady = true) (hopen : ∀ w : Fin 8, c.on F.DDR_WIN_PERM_EN w = false) (hin : c.inDdr addr n = true) :
    c.agentRead s g [] addr n = (c, some (s.read addr n)) := by
  simp [Chip.agentRead, hready, hin, windowRefuses_open hopen, Chip.ddrJudge, errorsOn]

theorem agentWriteOk_open (hready : c.ddrReady = true) (hopen : ∀ w : Fin 8, c.on F.DDR_WIN_PERM_EN w = false)
    (hin : c.inDdr addr l.length = true) : agentWriteOk g [] addr l (c, s) = ((c, s.write addr l), true) := by
  simp [agentWriteOk, hready, hin, windowRefuses_open hopen, Chip.ddrJudge, errorsOn]

end Ddr

/-- STR with a check begun. -/
def Chip.checkBegun (c : Chip) : Chip := ((c.set F.STR_STAT_PEND_VALID 0).set F.STR_STAT_CHECKING 1).set F.STR_RESULT_DONE 0

theorem Chip.checkBegun_eq (c : Chip) : ((c.set F.STR_STAT_PEND_VALID 0).set F.STR_STAT_CHECKING 1).set F.STR_RESULT_DONE 0 = c.checkBegun := rfl

theorem Chip.only_checkBegun (c : Chip) : c.Only [] {F.STR_STAT_CHECKING.addr, F.STR_RESULT_DONE.addr} c.checkBegun :=
  .set (.set (.set (.refl _ _ c) (.inl rfl)) (.inl rfl)) (.inr rfl)

theorem Chip.checkBegun_on (c : Chip) : c.checkBegun.on F.STR_STAT_CHECKING = true ∧ c.checkBegun.on F.STR_RESULT_DONE = false := by
  have hdone : c.checkBegun.get F.STR_RESULT_DONE = 0 := Chip.get_set_same _ F.STR_RESULT_DONE 0 0 0 (by decide) (by decide)
  have hcheck : c.checkBegun.get F.STR_STAT_CHECKING = 1 := by
    rw [Chip.checkBegun, Chip.get_set_other _ F.STR_RESULT_DONE F.STR_STAT_CHECKING _ _ _ _ _ (by decide)]
    exact Chip.get_set_same _ F.STR_STAT_CHECKING 1 0 0 (by decide) (by decide)
  simp [Chip.on, hdone, hcheck]

theorem Chip.Only.setStr {ps : List Part} {rs : Set Nat} {x : StrSt} (h : c.Only ps rs d) (hm : .str ∈ ps) : c.Only ps rs (d.setStr x) := by
  refine h.beside rfl fun q hq => ?_
  cases q
  case str => exact absurd hm hq
  all_goals rfl

/-- What a check begun leaves of the registers that a load reads. -/
theorem Chip.checkBegun_get (c : Chip) {p : Place} {i : Nat} (h : p.at i 0 ≠ F.STR_STAT_CHECKING.addr ∧ p.at i 0 ≠ F.STR_RESULT_DONE.addr) :
    c.checkBegun.get p i = c.get p i := c.only_checkBegun.get (by simpa using h)

theorem Chip.checkBegun_slotAddr (c : Chip) : c.checkBegun.slotAddr c.checkBegun.pendingSlot = c.slotAddr c.pendingSlot := by
  have hslot : c.checkBegun.get F.STR_STAT_ACTIVE_SLOT = c.get F.STR_STAT_ACTIVE_SLOT := by
    rw [Chip.checkBegun, Chip.get_set_other _ F.STR_RESULT_DONE F.STR_STAT_ACTIVE_SLOT _ _ _ _ _ (by decide),
      Chip.get_set_beside _ F.STR_STAT_CHECKING F.STR_STAT_ACTIVE_SLOT _ _ _ _ _ rfl (by decide) (by decide) (by decide),
      Chip.get_set_beside _ F.STR_STAT_PEND_VALID F.STR_STAT_ACTIVE_SLOT _ _ _ _ _ rfl (by decide) (by decide) (by decide)]
  simp only [Chip.slotAddr, Chip.pendingSlot, hslot, c.checkBegun_get (p := F.STR_SLOT_BASE_HI_ADDR) (i := 0) (by decide),
    c.checkBegun_get (p := F.STR_SLOT_BASE_LO_ADDR) (i := 0) (by decide)]

theorem Chip.checkBegun_ddr (c : Chip) : c.checkBegun.ddrReady = c.ddrReady ∧ (∀ x n, c.checkBegun.inDdr x n = c.inDdr x n) ∧
    ∀ w : Fin 8, c.checkBegun.on F.DDR_WIN_PERM_EN w = c.on F.DDR_WIN_PERM_EN w := by
  have hwin : ∀ w : Fin 8, F.DDR_WIN_PERM_EN.at w 0 ≠ F.STR_STAT_CHECKING.addr ∧ F.DDR_WIN_PERM_EN.at w 0 ≠ F.STR_RESULT_DONE.addr := by decide
  refine ⟨?_, fun x n => ?_, fun w => ?_⟩
  · simp only [Chip.ddrReady, Chip.on, Chip.up, c.checkBegun_get (p := F.DDR_STAT_READY) (i := 0) (by decide),
      c.checkBegun_get (p := F.SYS_ISL_STAT_ISL_UP) (i := 0) (by decide)]
  · simp only [Chip.inDdr, c.checkBegun_get (p := F.DDR_STAT_SIZE) (i := 0) (by decide)]
  · rw [Chip.on, c.checkBegun_get (hwin w), Chip.on]

/-- The copy of an image that DDR gives, to the slot that is not active. -/
theorem strLoad_copies {src dst len : Nat} (hidle : c.on F.STR_STAT_CHECKING = false) (hsw : c.switchState = 0)
    (hsrc : c.get F.STR_LOAD_HI_ADDR * 2 ^ 32 + c.get F.STR_LOAD_LO_ADDR * 4 = src) (hdst : c.slotAddr c.pendingSlot = dst)
    (hlen : c.get F.STR_LOAD_LEN_LEN = len) (hready : c.ddrReady = true) (hopen : ∀ w : Fin 8, c.on F.DDR_WIN_PERM_EN w = false)
    (hin : c.inDdr src len = true) (hout : c.inDdr dst len = true) :
    Chip.strLoad [] (c, s) = (c.checkBegun.setStr { c.str with copyFail := false }, s.write dst (s.read src len)) := by
  obtain ⟨hserves, hsize, hwin⟩ := c.checkBegun_ddr
  have hslot := c.checkBegun_slotAddr
  have hhi := c.checkBegun_get (p := F.STR_LOAD_HI_ADDR) (i := 0) (by decide)
  have hlo := c.checkBegun_get (p := F.STR_LOAD_LO_ADDR) (i := 0) (by decide)
  have hlen' := (c.checkBegun_get (p := F.STR_LOAD_LEN_LEN) (i := 0) (by decide)).trans hlen
  have hstr : c.checkBegun.str = c.str := c.only_checkBegun.1 .str (by simp)
  have hbusy : ¬ (c.on F.STR_STAT_CHECKING = true ∨ c.switchState ≠ 0) := by simp [hidle, hsw]
  have hlength : (s.read src len).length = len := bytesAt_length _ _ _ _
  have hread := agentRead_open (c := c.checkBegun) (g := .str) (s := s) (hserves.trans hready) (fun w => (hwin w).trans (hopen w))
    ((hsize src len).trans hin)
  have hwrite := agentWriteOk_open (c := c.checkBegun) (g := .str) (s := s) (addr := dst) (l := s.read src len) (hserves.trans hready)
    (fun w => (hwin w).trans (hopen w)) (by rw [hlength, hsize]; exact hout)
  simp only [Chip.strLoad, if_neg hbusy, c.checkBegun_eq, hhi, hlo, hsrc, hlen', hread, hslot, hdst, hwrite, hstr, Bool.not_true]

end Sys2Proof.Machine
end

section
/-!
PROOFS about IMG_LOAD (R400, R487): TC writes where the image stands, STR copies it and begins its check.
-/

namespace Sys2Proof.Machine

variable {c d : Chip} {m tag a0 a1 a2 : Nat} {s : Store} {ps : List Part} {rs : Set Nat}

theorem Chip.Only.up (h : c.Only ps rs d) (ha : F.SYS_ISL_STAT_ISL_UP.at 0 0 ∉ rs) (k : Nat) : d.up k = c.up k := by
  rw [Chip.up, Chip.up, h.get ha]

theorem Chip.Only.on {p : Place} {i j : Nat} (h : c.Only ps rs d) (ha : p.at i j ∉ rs) : d.on p i j = c.on p i j := by
  rw [Chip.on, Chip.on, h.get ha]

theorem Chip.Only.calBusy (h : c.Only ps rs d) (ha : F.CAL_STAT_BUSY.at 0 0 ∉ rs) : d.calBusy = c.calBusy := h.on ha

/-- TC's writes of source and length of an image. -/
theorem loadRegs_written (hup : c.up 1 = true) (hcal : c.calBusy = false) (h0 : a0 < 2 ^ 32) (h1 : a1 < 2 ^ 32) (h2 : a2 < 2 ^ 32)
    (hmin : 192 ≤ fld F.STR_LOAD_LEN_LEN a2) (hmax : fld F.STR_LOAD_LEN_LEN a2 ≤ 262144) :
    ∃ d, tcStore R.STR_LOAD_LEN.addr a2 [] (tcStore R.STR_LOAD_HI.addr a1 [] (tcStore R.STR_LOAD_LO.addr a0 [] (c, s))) = (d, s) ∧
      c.Only [.sys] {R.STR_LOAD_LO.addr, R.STR_LOAD_HI.addr, R.STR_LOAD_LEN.addr} d ∧ d.get F.STR_LOAD_LO_ADDR = fld F.STR_LOAD_LO_ADDR a0 ∧
      d.get F.STR_LOAD_HI_ADDR = fld F.STR_LOAD_HI_ADDR a1 ∧ d.get F.STR_LOAD_LEN_LEN = fld F.STR_LOAD_LEN_LEN a2 := by
  obtain ⟨e, he, honly, hlo⟩ := tcStore_field (errs := []) (s := s) strReg_loadLo hup hcal h0 rfl rfl
  obtain ⟨f, hf, honly', hhi⟩ := tcStore_field (errs := []) (s := s) strReg_loadHi ((honly.up (by decide) 1).trans hup)
    ((honly.calBusy (by decide)).trans hcal) h1 rfl rfl
  have hboth := (honly.mono (List.Subset.refl _) (by simp)).trans (honly'.mono (List.Subset.refl _) (by simp) : e.Only [.sys] {R.STR_LOAD_LO.addr, R.STR_LOAD_HI.addr} f)
  obtain ⟨g, hg, honly'', hlen⟩ := tcStore_plain (errs := []) (s := s) strReg_loadLen ((hboth.up (by decide) 1).trans hup)
    ((hboth.calBusy (by decide)).trans hcal) h2 rfl (fun x hx => by
      simp only [strLoadLen, List.mem_singleton] at hx
      subst hx
      exact ⟨rfl, hmin, hmax⟩)
  refine ⟨g, by rw [he, hf, hg], (hboth.mono (List.Subset.refl _) ?_).trans (honly''.mono (List.Subset.refl _) (by simp)), ?_, ?_, hlen _ (List.mem_singleton.mpr rfl)⟩
  · exact Set.insert_subset_insert (by simp)
  · rw [honly''.get (by decide), honly'.get (by decide)]
    exact hlo
  · rw [honly''.get (by decide)]
    exact hhi

/-- TC has taken an IMG_LOAD and will answer it later. -/
theorem Chip.only_tcLater (c : Chip) (tag op : Nat) : c.Only [.fw] {F.MBXM_CTRL_FULL.at m 0} ((c.tookMsg m).tcLater m tag op) := by
  refine (Chip.Only.mono (c.only_tookMsg m) (List.nil_subset _) subset_rfl).beside rfl fun q hq => ?_
  cases q
  case fw => simp at hq
  all_goals rfl

/-- STR can copy an image now, and DDR gives its bytes. -/
structure Chip.CanCopy (c : Chip) (src dst len : Nat) : Prop where
  idle : c.on F.STR_STAT_CHECKING = false
  settled : c.switchState = 0
  slot : c.slotAddr c.pendingSlot = dst
  ready : c.ddrReady = true
  windows : ∀ w : Fin 8, c.on F.DDR_WIN_PERM_EN w = false
  source : c.inDdr src len = true
  target : c.inDdr dst len = true

/-- The registers of STR that name an image's source and length, and those of the mailboxes. -/
def besideCopy (rs : Set Nat) : Prop := ∀ b ∈ rs, 0x100F0010 ≤ b ∧ b < 0x100F001C ∨ 0x101C0000 ≤ b ∧ b < 0x101D0000

theorem not_mem_besideCopy {b : Nat} (hrs : besideCopy rs) (hb : b < 0x100F0010 ∨ 0x100F001C ≤ b ∧ b < 0x101C0000 ∨ 0x101D0000 ≤ b) : b ∉ rs := fun hm => by
  have := hrs b hm
  omega

theorem Chip.CanCopy.after {src dst len : Nat} (h : c.CanCopy src dst len) (ho : c.Only ps rs d) (hrs : besideCopy rs) : d.CanCopy src dst len := by
  have hget : ∀ {p : Place} {i : Nat}, (p.at i 0 < 0x100F0010 ∨ 0x100F001C ≤ p.at i 0 ∧ p.at i 0 < 0x101C0000 ∨ 0x101D0000 ≤ p.at i 0) → d.get p i = c.get p i :=
    fun hp => ho.get (not_mem_besideCopy hrs hp)
  have hwin : ∀ w : Fin 8, 0x101D0000 ≤ F.DDR_WIN_PERM_EN.at w 0 := by decide
  have hddr : ∀ x n, d.inDdr x n = c.inDdr x n := fun x n => by
    simp only [Chip.inDdr, hget (p := F.DDR_STAT_SIZE) (i := 0) (by decide)]
  refine ⟨?_, ?_, ?_, ?_, fun w => ?_, (hddr _ _).trans h.source, (hddr _ _).trans h.target⟩
  · rw [Chip.on, hget (by decide)]
    exact h.idle
  · exact (hget (p := F.STR_STAT_SW_STATE) (i := 0) (by decide)).trans h.settled
  · rw [← h.slot]
    simp only [Chip.slotAddr, Chip.pendingSlot, hget (p := F.STR_SLOT_BASE_HI_ADDR) (i := 0) (by decide),
      hget (p := F.STR_SLOT_BASE_LO_ADDR) (i := 0) (by decide), hget (p := F.STR_STAT_ACTIVE_SLOT) (i := 0) (by decide)]
  · rw [← h.ready]
    simp only [Chip.ddrReady, Chip.on, Chip.up, hget (p := F.DDR_STAT_READY) (i := 0) (by decide),
      hget (p := F.SYS_ISL_STAT_ISL_UP) (i := 0) (by decide)]
  · rw [Chip.on, hget (.inr (.inr (hwin w)))]
    exact h.windows w

/-- What STR does with TC's GO, where the copy is made. -/
theorem loadGo_copies {src dst len : Nat} (hup : c.up 1 = true) (hcan : c.CanCopy src dst len)
    (hsrc : c.get F.STR_LOAD_HI_ADDR * 2 ^ 32 + c.get F.STR_LOAD_LO_ADDR * 4 = src) (hlen : c.get F.STR_LOAD_LEN_LEN = len) :
    ∃ d, tcStore R.STR_LOAD_GO.addr 1 [] (c, s) = (d, s.write dst (s.read src len)) ∧
      c.Only [.sys, .str] {F.STR_STAT_CHECKING.addr, F.STR_RESULT_DONE.addr} d ∧ d.on F.STR_STAT_CHECKING = true ∧ d.on F.STR_RESULT_DONE = false := by
  have hwrote := c.only_tcWrote R.STR_LOAD_GO.addr
  have hgo := tcStore_loadGo (c := c) (s := s) (errs := []) hup
  obtain ⟨hidle, hsw, hslot, hready, hopen, hin, hout⟩ := hcan.after hwrote (fun _ h => absurd h (Set.notMem_empty _))
  rw [← hwrote.get (p := F.STR_LOAD_HI_ADDR) (i := 0) (j := 0) (Set.notMem_empty _),
    ← hwrote.get (p := F.STR_LOAD_LO_ADDR) (i := 0) (j := 0) (Set.notMem_empty _)] at hsrc
  rw [← hwrote.get (p := F.STR_LOAD_LEN_LEN) (i := 0) (j := 0) (Set.notMem_empty _)] at hlen
  generalize c.tcWrote R.STR_LOAD_GO.addr = e at *
  have hcopy := strLoad_copies (s := s) hidle hsw hsrc hslot hlen hready hopen hin hout
  obtain ⟨hchecking, hdone⟩ := e.checkBegun_on
  have honly := e.only_checkBegun
  generalize e.checkBegun = d at *
  refine ⟨(d.setStr { e.str with copyFail := false }).answered c.answer, hgo.trans (by rw [hcopy]), ?_, ?_, ?_⟩
  · refine Chip.Only.answeredBack (Chip.Only.setStr ?_ (by simp))
    exact (hwrote.mono (by simp) (by simp)).trans (honly.mono (by simp) subset_rfl)
  · rw [Chip.answered_on, Chip.setStr_on, hchecking]
  · rw [Chip.answered_on, Chip.setStr_on, hdone]

/-- IMG_LOAD of an image that DDR gives: it is copied and its check begins. -/
theorem imgLoad_copies {src dst len : Nat} (hmsg : c.tcMessage m 1 = some (tag, [a0, a1, a2])) (hdeny : c.tcDenies m 1 (a0 == 1) = false)
    (hcan : c.CanCopy src dst len) (hsrc : fld F.STR_LOAD_HI_ADDR a1 * 2 ^ 32 + fld F.STR_LOAD_LO_ADDR a0 * 4 = src)
    (hlen : fld F.STR_LOAD_LEN_LEN a2 = len) (hmin : 192 ≤ len) (hmax : len ≤ 262144) (hcal : c.calBusy = false) :
    ∃ d, imgLoad m [] (c, s) = (d, s.write dst (s.read src len)) ∧
      c.Only [.fw, .sys, .str] ({F.MBXM_CTRL_FULL.at m 0} ∪ {F.STR_LOAD_LO_ADDR.addr, F.STR_LOAD_HI_ADDR.addr, F.STR_LOAD_LEN_LEN.addr,
        F.STR_STAT_CHECKING.addr, F.STR_RESULT_DONE.addr}) d ∧ d.on F.MBXM_CTRL_FULL m = false ∧
      d.on F.STR_STAT_CHECKING = true ∧ d.on F.STR_RESULT_DONE = false ∧ d.fw = { c.fw with tcWait := c.fw.tcWait ++ [(m, tag, 1)] } := by
  obtain ⟨hmail, hup, -, -, hwords⟩ := tcMessage_spec hmsg
  simp only [List.mem_cons, List.not_mem_nil, or_false, forall_eq_or_imp, forall_eq] at hwords
  obtain ⟨h0, h1, h2⟩ := hwords
  have hm : m ≤ 4 := by omega
  have hbeside : besideCopy {F.MBXM_CTRL_FULL.at m 0} := fun b hb => by
    have := (answerRegs_block hm (full_answerRegs m).1)
    rw [Set.mem_singleton_iff] at hb
    omega
  have hnotbusy : ¬ ((c.tookMsg m).on F.STR_STAT_CHECKING = true ∨ (c.tookMsg m).switchState ≠ 0) := by
    have htaken := hcan.after (c.only_tookMsg m) hbeside
    simp [htaken.idle, htaken.settled]
  have hlater := c.only_tcLater (m := m) tag 1
  have hfw : ((c.tookMsg m).tcLater m tag 1).fw = { c.fw with tcWait := c.fw.tcWait ++ [(m, tag, 1)] } := rfl
  have hfull : ((c.tookMsg m).tcLater m tag 1).on F.MBXM_CTRL_FULL m = false := c.full_tookMsg m
  rw [imgLoad, tcCommand_acts (n := 3) hmsg hdeny rfl]
  simp only [if_neg hnotbusy, List.getD_cons_zero, List.getD_cons_succ]
  generalize (c.tookMsg m).tcLater m tag 1 = e at hlater hfw hfull
  obtain ⟨f, hf, hloaded, hlo, hhi, hsize⟩ := loadRegs_written (s := s) ((hlater.up (not_mem_besideCopy hbeside (by decide)) 1).trans hup)
    ((hlater.calBusy (not_mem_besideCopy hbeside (by decide))).trans hcal) h0 h1 h2 (hlen ▸ hmin) (hlen ▸ hmax)
  have hregs : besideCopy {R.STR_LOAD_LO.addr, R.STR_LOAD_HI.addr, R.STR_LOAD_LEN.addr} := by
    rintro b (rfl | rfl | rfl) <;> decide
  have hready := (hcan.after hlater hbeside).after hloaded hregs
  have hup' := (hloaded.up (by decide) 1).trans ((hlater.up (not_mem_besideCopy hbeside (by decide)) 1).trans hup)
  obtain ⟨d, hd, hbegun, hchecking, hdone⟩ := loadGo_copies (s := s) hup' hready (by rw [hlo, hhi, hsrc]) (hsize.trans hlen)
  have himage : d.tcImage = d := by simp [Chip.tcImage, hchecking]
  simp only [hf, hd, himage]
  refine ⟨d, rfl, ?_, ?_, hchecking, hdone, ?_⟩
  · refine ((hlater.mono (by simp) (by simp)).trans (hloaded.mono (by simp) ?_)).trans (hbegun.mono (by simp) ?_)
    · rintro b (rfl | rfl | rfl) <;> simp [R.STR_LOAD_LO, R.STR_LOAD_HI, R.STR_LOAD_LEN, F.STR_LOAD_LO_ADDR, F.STR_LOAD_HI_ADDR, F.STR_LOAD_LEN_LEN]
    · rintro b (rfl | rfl) <;> simp
  · have hfulls : F.MBXM_CTRL_FULL.at m 0 ∉ ({R.STR_LOAD_LO.addr, R.STR_LOAD_HI.addr, R.STR_LOAD_LEN.addr} : Set Nat) ∧
        F.MBXM_CTRL_FULL.at m 0 ∉ ({F.STR_STAT_CHECKING.addr, F.STR_RESULT_DONE.addr} : Set Nat) := by
      have hbeyond := full_beyond m
      constructor
      · rintro (h | h | h) <;> exact absurd (h ▸ hbeyond) (by decide)
      · rintro (h | h) <;> exact absurd (h ▸ hbeyond) (by decide)
    rw [hbegun.on hfulls.2, hloaded.on hfulls.1]
    exact hfull
  · rw [hbegun.1 .fw (by simp), hloaded.1 .fw (by simp), hfw]

/-- IMG_LOAD while an image is checked or a switch is on its way: STR is busy. -/
theorem imgLoad_busy {a2 : Nat} (hmsg : c.tcMessage m 1 = some (tag, [a0, a1, a2])) (hdeny : c.tcDenies m 1 (a0 == 1) = false)
    (hfree : c.on F.MBXM_CTRL_FULL (m + 1) = false) (hforward : c.fw.forward = none)
    (hbusy : c.on F.STR_STAT_CHECKING = true ∨ c.switchState ≠ 0) :
    ∃ d, imgLoad m [] (c, s) = (d, s) ∧ c.Only [.ev, .hst] (answerRegs m) d ∧ d.TcAnswered m tag 4 [] := by
  have hbusy' : (c.tookMsg m).on F.STR_STAT_CHECKING = true ∨ (c.tookMsg m).switchState ≠ 0 := by
    rw [Chip.on, get_took (by decide), ← Chip.on, Chip.switchState, get_took (by decide), ← Chip.switchState]
    exact hbusy
  obtain ⟨-, honly, htc⟩ := tcAnswer_after (st := stBusy) (l := []) (rs := ∅) hmsg hfree hforward (.refl [] ∅ _) (by decide)
    (fun _ h => absurd h (Set.notMem_empty _)) (by decide) (by simp) (by simp)
  refine ⟨(c.tookMsg m).tcAnswer m tag stBusy [], ?_, honly.mono (by simp) (by simp), htc⟩
  rw [imgLoad, tcCommand_acts (n := 3) hmsg hdeny rfl]
  exact if_pos hbusy'

end Sys2Proof.Machine
end

section
/-!
PROOFS about the approval of a switch and its end (R405 to R407): what STR changes and what it answers.
-/

namespace Sys2Proof.Machine

variable {c d : Chip} {ps : List Part} {rs : Set Nat} {a r b : Nat} {s : Store}

theorem Chip.Only.setTko {x : TkoSt} (h : c.Only ps rs d) (hm : .tko ∈ ps) : c.Only ps rs (d.setTko x) := by
  refine h.beside rfl fun q hq => ?_
  cases q
  case tko => exact absurd hm hq
  all_goals rfl

/-! ### Why an approval is refused -/

/-- No reason to refuse an image that is pending, no switch on its way, a press that stands and no port that is there. -/
theorem switchReason_none (hpend : c.on F.STR_STAT_PEND_VALID = true) (hsw : c.switchState = 0) (hstop : c.on F.TRK_STAT_RUN = false)
    (hports : ∀ k : Fin 8, c.portState k = 0) : c.switchReason = none := by
  simp [Chip.switchReason, hpend, hsw, hstop, hports]

theorem switchReason_unchecked (hpend : c.on F.STR_STAT_PEND_VALID = false) : c.switchReason = some 0x40 := by
  simp [Chip.switchReason, hpend]

theorem switchReason_switching (hpend : c.on F.STR_STAT_PEND_VALID = true) (hsw : c.switchState ≠ 0) : c.switchReason = some 0x41 := by
  simp [Chip.switchReason, hpend, hsw]

theorem Chip.only_switchRefused (c : Chip) (r : Nat) : c.Only [.ev] {F.STR_RESULT_REASON.addr} (c.switchRefused r) :=
  .emit (.set (.set (.refl _ _ c) rfl) rfl) (by simp)

/-! ### An approval is taken -/

/-- STR prepares the switch: it waits for READY of every block. -/
def Chip.preparing (c : Chip) : Chip :=
  let e := c.setStr { c.str with
    cold := c.coldPorts, pendSet := some (sectionSet c.str.pend), loadFail := none, eLine := none, wantReady := readyBlocks ++ (List.range 8).map (0x10 + ·) }
  let e := (e.set F.STR_STAT_SW_STATE 1).set F.STR_COLD_PORTS c.coldPorts
  let e := e.setTko { e.tko with pend := if hasSection e.str.pend 11 then some (secWord e.str.pend 11 36, e.namedLine) else none }
  e.emit 0x0F03 [(6, unsigned 48 e.namedLine), (1, c.coldPorts)]

theorem Chip.only_preparing (c : Chip) : c.Only [.str, .tko, .ev] {F.STR_STAT_SW_STATE.addr, F.STR_COLD_PORTS.addr} c.preparing := by
  refine .emit (.setTko (.set (.set (.setStr (.refl _ _ c) ?_) ?_) ?_) ?_) ?_
  all_goals simp [Place.at]

theorem Chip.preparing_switchState (c : Chip) : c.preparing.switchState = 1 := by
  rw [Chip.switchState, Chip.preparing, Chip.emit_get, Chip.setTko_get, Chip.get_set_other _ _ _ _ _ _ _ _ (by decide)]
  exact Chip.get_set_same _ F.STR_STAT_SW_STATE 1 0 0 (by decide) (by decide)

/-- With no port UP, the ports answer READY at once and the other blocks are waited for. -/
theorem strServe_ports (hsw : c.switchState = 1) (hfail : c.str.loadFail = none)
    (hwant : c.str.wantReady = readyBlocks ++ (List.range 8).map (0x10 + ·)) (hports : ∀ k : Fin 8, c.isUp k = false) :
    c.strServe = c.setStr { c.str with wantReady := readyBlocks } := by
  have hmay : ∀ x, c.mayAnswer x = true := fun x => by
    unfold Chip.mayAnswer
    split
    · simp [hports]
    · rfl
  have hrest : (readyBlocks ++ (List.range 8).map (0x10 + ·)).filter (fun x => !(decide (0x10 ≤ x) && decide (x < 0x18) && true)) = readyBlocks := by
    decide
  have hsome : readyBlocks ≠ [] := by decide
  simp only [Chip.strServe, hsw, ne_eq, not_true_eq_false, if_false, hfail, hwant, hmay, hrest, Chip.setStr_str, hsome]

theorem switchApproved_spec (hflw : c.on F.FLW_SHSTAT_PENDING = false) (hports : ∀ k : Fin 8, c.isUp k = false) :
    c.switchApproved = c.preparing.setStr { c.preparing.str with wantReady := readyBlocks } := by
  have hget : ∀ k : Fin 8, c.preparing.isUp k = false := fun k => by
    have hapart : ∀ k : Fin 8, F.HP_STAT_STATE.at k 0 ∉ ({F.STR_STAT_SW_STATE.addr, F.STR_COLD_PORTS.addr} : Set Nat) := by decide
    rw [Chip.isUp, c.only_preparing.get (hapart k)]
    exact hports k
  have hnone : allPorts.filter (fun (k : Fin 8) => c.preparing.isUp k) = [] := by simp [hget]
  have hdef : c.switchApproved = ((allPorts.filter (fun (k : Fin 8) => c.preparing.isUp k)).foldl (fun c' (k : Fin 8) =>
      c'.command k (c'.shapeCommands k (sectionSet c.str.pend) (1 - c'.asm[k].setNo) .image)) c.preparing).strServe := by
    simp only [Chip.switchApproved, hflw, Bool.false_eq_true, if_false]
    rfl
  rw [hdef, hnone, List.foldl_nil, strServe_ports c.preparing_switchState rfl rfl hget]

/-- What an approved switch changes, and where it stands. -/
theorem switchApproved_leaves (hflw : c.on F.FLW_SHSTAT_PENDING = false) (hports : ∀ k : Fin 8, c.isUp k = false) :
    c.Only [.str, .tko, .ev] {F.STR_STAT_SW_STATE.addr, F.STR_COLD_PORTS.addr} c.switchApproved ∧ c.switchApproved.switchState = 1 ∧
      c.switchApproved.str.wantReady = readyBlocks := by
  rw [switchApproved_spec hflw hports]
  exact ⟨c.only_preparing.setStr (by simp), c.preparing_switchState, rfl⟩

/-! ### A switch is cancelled -/

/-- STR forgets the switch. -/
def Chip.unprepared (c : Chip) (r : Nat) : Chip :=
  let e := (c.strResult r 0).set F.STR_STAT_SW_STATE 0
  (e.setStr { e.str with wantReady := [], wantApply := [], pendSet := none, loadFail := none, eLine := none }).setTko { e.tko with pend := none }

theorem Chip.only_unprepared (c : Chip) (r : Nat) :
    c.Only [.str, .tko] {F.STR_STAT_SW_STATE.addr, F.STR_RESULT_REASON.addr} (c.unprepared r) := by
  refine .setTko (.setStr (.set (.set (.set (.refl _ _ c) ?_) ?_) ?_) ?_) ?_
  all_goals simp [Place.at, F.STR_RESULT_SECTION, F.STR_RESULT_REASON]

theorem Chip.unprepared_stat (c : Chip) (r : Nat) :
    (c.unprepared r).switchState = 0 ∧ (c.unprepared r).on F.STR_STAT_PEND_VALID = c.on F.STR_STAT_PEND_VALID := by
  refine ⟨Chip.get_set_same _ F.STR_STAT_SW_STATE 0 0 0 (by decide) (by decide), ?_⟩
  have hresult : c.Only [] {F.STR_RESULT_REASON.addr} (c.strResult r 0) := .set (.set (.refl _ _ c) rfl) rfl
  have hstat : ((c.strResult r 0).set F.STR_STAT_SW_STATE 0).get F.STR_STAT_PEND_VALID = (c.strResult r 0).get F.STR_STAT_PEND_VALID :=
    Chip.get_set_beside _ F.STR_STAT_SW_STATE F.STR_STAT_PEND_VALID _ _ _ _ _ rfl (by decide) (by decide) (by decide)
  rw [Chip.unprepared, Chip.setTko_on, Chip.setStr_on, Chip.on, hstat, hresult.get (by decide), Chip.on]

theorem Chip.only_dropCommands (c : Chip) (u : CmdUse) : c.Only [.hp] ∅ (c.dropCommands u) := by
  refine (Chip.Only.refl _ _ c).beside rfl fun q hq => ?_
  cases q
  case hp => simp at hq
  all_goals rfl

theorem Chip.dropCommands_coldHold (c : Chip) (u : CmdUse) (k : Fin 8) : ((c.dropCommands u).port k).coldHold = (c.port k).coldHold := by
  simp [Chip.dropCommands, Chip.port]

theorem strAbort_leaves (hhold : ∀ k : Fin 8, (c.port k).coldHold = false) :
    c.Only [.ev, .str, .tko, .hp] {F.STR_STAT_SW_STATE.addr, F.STR_RESULT_REASON.addr} (c.strAbort r b) ∧ (c.strAbort r b).switchState = 0 ∧
      (c.strAbort r b).on F.STR_STAT_PEND_VALID = c.on F.STR_STAT_PEND_VALID := by
  have hdef : c.strAbort r b = (((c.unprepared r).dropCommands .image).emit 0x0F06 [(1, r), (1, b)]).releaseCold := rfl
  have honly := c.only_unprepared r
  obtain ⟨hsw, hpend⟩ := c.unprepared_stat r
  have hport : ∀ k : Fin 8, ((c.unprepared r).port k).coldHold = false := fun k => by
    rw [← hhold k, Chip.port, honly.1 .hp (by simp), ← Chip.port]
  generalize c.unprepared r = d at honly hsw hpend hport hdef
  have hnone : allPorts.filter (fun (k : Fin 8) => (((d.dropCommands .image).emit 0x0F06 [(1, r), (1, b)]).port k).coldHold) = [] := by
    simp [Chip.emit_port, Chip.dropCommands_coldHold, hport]
  have hdrop := d.only_dropCommands .image
  rw [hdef, Chip.releaseCold, hnone]
  dsimp only [List.foldl_nil]
  refine ⟨.setStr (.emit ((honly.mono (by simp) subset_rfl).trans (hdrop.mono (by simp) (by simp))) (by simp)) (by simp), ?_, ?_⟩
  · rw [Chip.switchState, Chip.setStr_get, Chip.emit_get, hdrop.get (Set.notMem_empty _)]
    exact hsw
  · rw [Chip.setStr_on, Chip.emit_on, hdrop.on (Set.notMem_empty _), hpend]

end Sys2Proof.Machine
end

section
/-!
PROOFS about IMG_SWITCH and IMG_CANCEL (R405, R407, R487): TC names the line, approves or cancels, and answers what STR did.
-/

namespace Sys2Proof.Machine

variable {c d e : Chip} {m tag a0 a1 r : Nat} {s : Store} {ps : List Part} {rs : Set Nat}

@[simp] theorem Chip.tcWrote_get (c : Chip) (a : Nat) (p : Place) (i j : Nat) : (c.tcWrote a).get p i j = c.get p i j :=
  (c.only_tcWrote a).get (Set.notMem_empty _)

@[simp] theorem Chip.tcWrote_on (c : Chip) (a : Nat) (p : Place) (i j : Nat) : (c.tcWrote a).on p i j = c.on p i j :=
  (c.only_tcWrote a).on (Set.notMem_empty _)

/-- Outside the mailboxes an answer changes nothing of the registers. -/
theorem get_answered {p : Place} {i j : Nat} (h : d.Only [.ev, .hst] (answerRegs m) e) (hm : m ≤ 4) (hp : p.at i j < 0x101C0000) :
    e.get p i j = d.get p i j :=
  h.get fun hmem => by
    have := answerRegs_block hm hmem
    omega

/-- Nothing speaks against a switch: an image is pending, none is on its way, the press stands, no port is there, no commit runs. -/
structure Chip.CanApprove (c : Chip) : Prop where
  pending : c.on F.STR_STAT_PEND_VALID = true
  settled : c.switchState = 0
  stopped : c.on F.TRK_STAT_RUN = false
  vacant : ∀ k : Fin 8, c.portState k = 0
  commit : c.on F.FLW_SHSTAT_PENDING = false

/-- The registers outside the named line and the mailboxes. -/
def besideLine (b : Nat) : Prop := b < 0x100F0024 ∨ 0x100F0028 < b ∧ b < 0x101C0000

/-- They decide whether a switch can be approved. -/
theorem Chip.CanApprove.of_get (h : c.CanApprove) (hget : ∀ (p : Place) (i : Nat), besideLine (p.at i 0) → e.get p i = c.get p i) :
    e.CanApprove := by
  have hhp : ∀ k : Fin 8, 0x100F0028 < F.HP_STAT_STATE.at k 0 ∧ F.HP_STAT_STATE.at k 0 < 0x101C0000 := by decide
  have hon : ∀ p : Place, besideLine (p.at 0 0) → e.on p = c.on p := fun p hp => by rw [Chip.on, hget p 0 hp, Chip.on]
  refine ⟨(hon _ ?_).trans h.pending, (hget _ _ ?_).trans h.settled, (hon _ ?_).trans h.stopped,
    fun k => (hget _ _ (.inr (hhp k))).trans (h.vacant k), (hon _ ?_).trans h.commit⟩
  all_goals exact .inl (by decide)

/-! ### TC's write of STR_APPROVE -/

/-- TC's approval or cancelling changes what STR changes. -/
theorem approve_leaves {op : Nat} (hop : op = 1 ∨ op = 2) (hup : c.up 1 = true) (hcal : c.calBusy = false)
    (h : (c.tcWrote R.STR_APPROVE.addr).Only ps rs ((c.tcWrote R.STR_APPROVE.addr).strApprove op)) (hrs : F.CAL_STAT_BUSY.at 0 0 ∉ rs) :
    tcStore R.STR_APPROVE.addr op [] (c, s) = (((c.tcWrote R.STR_APPROVE.addr).strApprove op).answered c.answer, s) ∧
      c.Only (.sys :: ps) rs (((c.tcWrote R.STR_APPROVE.addr).strApprove op).answered c.answer) := by
  refine ⟨tcStore_approve hop hup ?_, Chip.Only.answeredBack ?_⟩
  · rw [h.calBusy hrs, Chip.calBusy, Chip.tcWrote_on]
    exact hcal
  · exact ((c.only_tcWrote _).mono (by simp) (by simp)).trans (h.mono (fun q hq => by simp [hq]) subset_rfl)

/-- An approval that nothing speaks against. -/
theorem approve_taken (hup : c.up 1 = true) (hcal : c.calBusy = false) (hcan : c.CanApprove) :
    ∃ d, tcStore R.STR_APPROVE.addr 1 [] (c, s) = (d, s) ∧ c.Only [.sys, .str, .tko, .ev] {F.STR_STAT_SW_STATE.addr, F.STR_COLD_PORTS.addr} d ∧
      d.switchState = 1 ∧ d.str.wantReady = readyBlocks := by
  obtain ⟨hpend, hsw, hstop, hports, hflw⟩ := hcan.of_get (e := c.tcWrote R.STR_APPROVE.addr) (fun p i _ => c.tcWrote_get _ p i 0)
  have hreason := switchReason_none hpend hsw hstop hports
  have hnotup : ∀ k : Fin 8, (c.tcWrote R.STR_APPROVE.addr).isUp k = false := fun k => by
    have hstate := hports k
    rw [Chip.portState] at hstate
    simp [Chip.isUp, hstate]
  obtain ⟨honly, hstate, hwant⟩ := switchApproved_leaves hflw hnotup
  have hdef : (c.tcWrote R.STR_APPROVE.addr).strApprove 1 = (c.tcWrote R.STR_APPROVE.addr).switchApproved := by
    simp only [Chip.strApprove, hreason, if_true]
  have happrove := approve_leaves (s := s) (op := 1) (.inl rfl) hup hcal (hdef ▸ honly) (by decide)
  rw [hdef] at happrove
  exact ⟨_, happrove.1, happrove.2, by rw [Chip.switchState, Chip.answered_get]; exact hstate, hwant⟩

/-- An approval refused for reason r. -/
theorem approve_refused (hup : c.up 1 = true) (hcal : c.calBusy = false) (hreason : (c.tcWrote R.STR_APPROVE.addr).switchReason = some r) :
    ∃ d, tcStore R.STR_APPROVE.addr 1 [] (c, s) = (d, s) ∧ c.Only [.sys, .ev] {F.STR_RESULT_REASON.addr} d := by
  have hdef : (c.tcWrote R.STR_APPROVE.addr).strApprove 1 = (c.tcWrote R.STR_APPROVE.addr).switchRefused r := by
    simp only [Chip.strApprove, hreason, if_true]
  obtain ⟨hstore, honly⟩ := approve_leaves (s := s) (op := 1) (.inl rfl) hup hcal (hdef ▸ Chip.only_switchRefused _ r) (by decide)
  exact ⟨_, hstore, honly⟩

/-- A switch in prepare is cancelled. -/
theorem cancel_taken (hup : c.up 1 = true) (hcal : c.calBusy = false) (hsw : c.switchState = 1) (hhold : ∀ k : Fin 8, (c.port k).coldHold = false) :
    ∃ d, tcStore R.STR_APPROVE.addr 2 [] (c, s) = (d, s) ∧
      c.Only [.sys, .ev, .str, .tko, .hp] {F.STR_STAT_SW_STATE.addr, F.STR_RESULT_REASON.addr} d ∧ d.switchState = 0 ∧
      d.on F.STR_STAT_PEND_VALID = c.on F.STR_STAT_PEND_VALID := by
  have hhold' : ∀ k : Fin 8, ((c.tcWrote R.STR_APPROVE.addr).port k).coldHold = false := fun k => by
    rw [← hhold k, Chip.port, (c.only_tcWrote _).1 .hp (by simp), ← Chip.port]
  obtain ⟨honly, hstate, hpend⟩ := strAbort_leaves (r := 0x4A) (b := 0xFF) hhold'
  have hsw' : (c.tcWrote R.STR_APPROVE.addr).switchState = 1 := by
    rw [Chip.switchState, Chip.tcWrote_get]
    exact hsw
  have hdef : (c.tcWrote R.STR_APPROVE.addr).strApprove 2 = (c.tcWrote R.STR_APPROVE.addr).strAbort 0x4A 0xFF := by
    simp [Chip.strApprove, hsw']
  have happrove := approve_leaves (s := s) (op := 2) (.inr rfl) hup hcal (hdef ▸ honly) (by decide)
  rw [hdef] at happrove
  refine ⟨_, happrove.1, happrove.2, ?_, ?_⟩
  · rw [Chip.switchState, Chip.answered_get]
    exact hstate
  · rw [Chip.answered_on, hpend, Chip.tcWrote_on]

/-- No switch in prepare: nothing to cancel. -/
theorem cancel_refused (hup : c.up 1 = true) (hcal : c.calBusy = false) (hsw : c.switchState ≠ 1) :
    ∃ d, tcStore R.STR_APPROVE.addr 2 [] (c, s) = (d, s) ∧ c.Only [.sys] {F.STR_REJ_CNT_COUNT.addr} d := by
  have hsw' : (c.tcWrote R.STR_APPROVE.addr).switchState ≠ 1 := by
    rw [Chip.switchState, Chip.tcWrote_get]
    exact hsw
  have hdef : (c.tcWrote R.STR_APPROVE.addr).strApprove 2 = (c.tcWrote R.STR_APPROVE.addr).addSat F.STR_REJ_CNT_COUNT 1 := by
    simp [Chip.strApprove, hsw']
  have hcount : (c.tcWrote R.STR_APPROVE.addr).Only [] {F.STR_REJ_CNT_COUNT.addr} ((c.tcWrote R.STR_APPROVE.addr).addSat F.STR_REJ_CNT_COUNT 1) :=
    .addSat (.refl _ _ _) rfl
  obtain ⟨hstore, honly⟩ := approve_leaves (s := s) (op := 2) (.inr rfl) hup hcal (hdef ▸ hcount) (by decide)
  exact ⟨_, hstore, honly⟩

/-! ### IMG_SWITCH and IMG_CANCEL -/

/-- TC's writes of the named line. -/
theorem switchLine_written (hup : c.up 1 = true) (hcal : c.calBusy = false) (h0 : a0 < 2 ^ 32) (h1 : a1 < 2 ^ 32) :
    ∃ d, tcStore R.STR_SW_LINE_HI.addr a1 [] (tcStore R.STR_SW_LINE_LO.addr a0 [] (c, s)) = (d, s) ∧
      c.Only [.sys] {F.STR_SW_LINE_LO_LINE_LO.addr, F.STR_SW_LINE_HI_LINE_HI.addr} d ∧ d.get F.STR_SW_LINE_LO_LINE_LO = a0 ∧
      d.get F.STR_SW_LINE_HI_LINE_HI = fld F.STR_SW_LINE_HI_LINE_HI a1 := by
  obtain ⟨e, he, honly, hlo⟩ := tcStore_field (errs := []) (s := s) strReg_swLineLo hup hcal h0 rfl rfl
  obtain ⟨f, hf, honly', hhi⟩ := tcStore_field (errs := []) (s := s) strReg_swLineHi ((honly.up (by decide) 1).trans hup)
    ((honly.calBusy (by decide)).trans hcal) h1 rfl rfl
  refine ⟨f, by rw [he, hf], ?_, ?_, hhi⟩
  · exact (honly.mono (List.Subset.refl _) (fun x hx => .inl hx)).trans (honly'.mono (List.Subset.refl _) (fun x hx => .inr hx))
  · rw [honly'.get (by decide)]
    refine hlo.trans ?_
    simp only [bitsOf, Nat.pow_zero, Nat.div_one]
    exact Nat.mod_eq_of_lt h0

/-- What IMG_SWITCH comes to: the line is named, and STR's approval answers. -/
theorem imgSwitch_acts (hmsg : c.tcMessage m 2 = some (tag, [a0, a1])) (hdeny : c.tcDenies m 2 (a0 == 1) = false) (hcal : c.calBusy = false) :
    ∃ e, (c.tookMsg m).Only [.sys] {F.STR_SW_LINE_LO_LINE_LO.addr, F.STR_SW_LINE_HI_LINE_HI.addr} e ∧ e.get F.STR_SW_LINE_LO_LINE_LO = a0 ∧
      e.get F.STR_SW_LINE_HI_LINE_HI = fld F.STR_SW_LINE_HI_LINE_HI a1 ∧
      (e.switchReason = none → imgSwitch m (c, s) = answer m tag 0 [] (tcStore R.STR_APPROVE.addr 1 [] (e, s))) ∧
      ∀ r, e.switchReason = some r → imgSwitch m (c, s) = answer m tag 9 [r] (tcStore R.STR_APPROVE.addr 1 [] (e, s)) := by
  obtain ⟨-, hup, -, -, hwords⟩ := tcMessage_spec hmsg
  simp only [List.mem_cons, List.not_mem_nil, or_false, forall_eq_or_imp, forall_eq] at hwords
  obtain ⟨e, he, honly, hlo, hhi⟩ := switchLine_written (c := c.tookMsg m) (s := s) (by rw [Chip.up, get_took (by decide)]; exact hup)
    (by rw [Chip.calBusy, Chip.on, get_took (by decide)]; exact hcal) hwords.1 hwords.2
  have hact : imgSwitch m (c, s) = tcCommand m 0x02 2 _ (c, s) := rfl
  rw [tcCommand_acts (n := 2) hmsg hdeny rfl] at hact
  simp only [List.getD_cons_zero, List.getD_cons_succ, he] at hact
  refine ⟨e, honly, hlo, hhi, fun hwhy => ?_, fun r hwhy => ?_⟩
  all_goals
    rw [hact, hwhy]
    rfl

/-- What IMG_SWITCH reads beside the named line is as TC found it. -/
theorem get_lined (h : (c.tookMsg m).Only [.sys] {F.STR_SW_LINE_LO_LINE_LO.addr, F.STR_SW_LINE_HI_LINE_HI.addr} e) (p : Place) (i : Nat)
    (hp : besideLine (p.at i 0)) : e.get p i = c.get p i := by
  unfold besideLine at hp
  rw [h.get, get_took (by omega)]
  rintro (hmem | hmem)
  · have : p.at i 0 = 0x100F0024 := hmem
    omega
  · have : p.at i 0 = 0x100F0028 := hmem
    omega

theorem beyondAnswer_line : beyondAnswer {F.STR_SW_LINE_LO_LINE_LO.addr, F.STR_SW_LINE_HI_LINE_HI.addr} := by
  rintro b (rfl | rfl) <;> decide

theorem beyondAnswer_union {ss : Set Nat} (h : beyondAnswer rs) (h' : beyondAnswer ss) : beyondAnswer (rs ∪ ss) :=
  fun b hb => hb.elim (h b) (h' b)

/-- An IMG_SWITCH that nothing speaks against: the switch is in prepare and TC says so. -/
theorem imgSwitch_approves (hmsg : c.tcMessage m 2 = some (tag, [a0, a1])) (hdeny : c.tcDenies m 2 (a0 == 1) = false)
    (hfree : c.on F.MBXM_CTRL_FULL (m + 1) = false) (hforward : c.fw.forward = none) (hcal : c.calBusy = false) (hcan : c.CanApprove) :
    ∃ d, imgSwitch m (c, s) = (d, s) ∧ c.Only [.ev, .hst, .sys, .str, .tko] (answerRegs m ∪ ({F.STR_SW_LINE_LO_LINE_LO.addr,
        F.STR_SW_LINE_HI_LINE_HI.addr} ∪ {F.STR_STAT_SW_STATE.addr, F.STR_COLD_PORTS.addr})) d ∧ d.TcAnswered m tag 0 [] ∧ d.switchState = 1 ∧
      d.get F.STR_SW_LINE_LO_LINE_LO = a0 ∧ d.get F.STR_SW_LINE_HI_LINE_HI = fld F.STR_SW_LINE_HI_LINE_HI a1 ∧ d.str.wantReady = readyBlocks := by
  obtain ⟨hmail, hup, -⟩ := tcMessage_spec hmsg
  have hm : m ≤ 4 := by omega
  obtain ⟨e, hlined, hlo, hhi, hnone, -⟩ := imgSwitch_acts (s := s) hmsg hdeny hcal
  have hget := get_lined hlined
  have hcan' := hcan.of_get hget
  obtain ⟨f, hstore, happroved, hstate, hwant⟩ := approve_taken (s := s) (by rw [Chip.up, hget _ _ (.inl (by decide))]; exact hup)
    (by rw [Chip.calBusy, Chip.on, hget _ _ (.inr (by decide))]; exact hcal) hcan'
  have hboth := (hlined.mono (by simp) Set.subset_union_left).trans (happroved.mono (List.Subset.refl _) Set.subset_union_right)
  obtain ⟨hans, honly, htc⟩ := tcAnswer_after (st := 0) (l := []) hmsg hfree hforward hboth (by decide)
    (beyondAnswer_union beyondAnswer_line (by rintro b (rfl | rfl) <;> decide)) (by decide) (by simp) (by simp)
  refine ⟨f.tcAnswer m tag 0 [], ?_, honly.mono (by simp) subset_rfl, htc, ?_, ?_, ?_, ?_⟩
  · rw [hnone (switchReason_none hcan'.pending hcan'.settled hcan'.stopped hcan'.vacant), hstore]
    rfl
  · exact (get_answered hans hm (by decide)).trans hstate
  · rw [get_answered hans hm (by decide), happroved.get (by decide), hlo]
  · rw [get_answered hans hm (by decide), happroved.get (by decide), hhi]
  · rw [hans.1 .str (by simp), hwant]

/-- An IMG_SWITCH with no image pending, or a switch on its way, is refused. -/
theorem imgSwitch_refuses (hmsg : c.tcMessage m 2 = some (tag, [a0, a1])) (hdeny : c.tcDenies m 2 (a0 == 1) = false)
    (hfree : c.on F.MBXM_CTRL_FULL (m + 1) = false) (hforward : c.fw.forward = none) (hcal : c.calBusy = false)
    (hwhy : r = 0x40 ∧ c.on F.STR_STAT_PEND_VALID = false ∨ r = 0x41 ∧ c.on F.STR_STAT_PEND_VALID = true ∧ c.switchState ≠ 0) :
    ∃ d, imgSwitch m (c, s) = (d, s) ∧ c.Only [.ev, .hst, .sys] (answerRegs m ∪ ({F.STR_SW_LINE_LO_LINE_LO.addr,
        F.STR_SW_LINE_HI_LINE_HI.addr} ∪ {F.STR_RESULT_REASON.addr})) d ∧ d.TcAnswered m tag 9 [r] ∧ d.switchState = c.switchState := by
  obtain ⟨hmail, hup, -⟩ := tcMessage_spec hmsg
  have hm : m ≤ 4 := by omega
  obtain ⟨e, hlined, -, -, -, hsome⟩ := imgSwitch_acts (s := s) hmsg hdeny hcal
  have hget := get_lined hlined
  have hreason : ∀ d : Chip, d.on F.STR_STAT_PEND_VALID = c.on F.STR_STAT_PEND_VALID → d.switchState = c.switchState → d.switchReason = some r := by
    intro d hpend hsw
    rcases hwhy with ⟨rfl, h⟩ | ⟨rfl, h, h'⟩
    · exact switchReason_unchecked (hpend.trans h)
    · exact switchReason_switching (hpend.trans h) (hsw ▸ h')
  have hr : r < 256 := by omega
  have hpend : e.on F.STR_STAT_PEND_VALID = c.on F.STR_STAT_PEND_VALID := by rw [Chip.on, hget _ _ (.inl (by decide)), Chip.on]
  have hsw : e.switchState = c.switchState := hget _ _ (.inl (by decide))
  obtain ⟨f, hstore, hrefused⟩ := approve_refused (s := s) (r := r) (c := e) (by rw [Chip.up, hget _ _ (.inl (by decide))]; exact hup)
    (by rw [Chip.calBusy, Chip.on, hget _ _ (.inr (by decide))]; exact hcal)
    (hreason _ (by rw [Chip.tcWrote_on, hpend]) ((e.tcWrote_get _ _ _ _).trans hsw))
  have hboth := (hlined.mono (by simp) Set.subset_union_left).trans (hrefused.mono (List.Subset.refl _) Set.subset_union_right)
  obtain ⟨hans, honly, htc⟩ := tcAnswer_after (st := 9) (l := [r]) hmsg hfree hforward hboth (by decide)
    (beyondAnswer_union beyondAnswer_line (by rintro b rfl; decide)) (by decide) (by simp; omega) (by simp)
  refine ⟨f.tcAnswer m tag 9 [r], ?_, honly.mono (by simp) subset_rfl, htc, ?_⟩
  · rw [hsome r (hreason _ hpend hsw), hstore]
    rfl
  · exact (get_answered hans hm (by decide)).trans ((hrefused.get (by decide)).trans hsw)

/-- IMG_CANCEL of a switch in prepare. -/
theorem imgCancel_cancels (hmsg : c.tcMessage m 3 = some (tag, [])) (hdeny : c.tcDenies m 3 false = false)
    (hfree : c.on F.MBXM_CTRL_FULL (m + 1) = false) (hforward : c.fw.forward = none) (hcal : c.calBusy = false) (hsw : c.switchState = 1)
    (hhold : ∀ k : Fin 8, (c.port k).coldHold = false) :
    ∃ d, imgCancel m (c, s) = (d, s) ∧ c.Only [.ev, .hst, .sys, .str, .tko, .hp] (answerRegs m ∪ {F.STR_STAT_SW_STATE.addr,
        F.STR_RESULT_REASON.addr}) d ∧ d.TcAnswered m tag 0 [] ∧ d.switchState = 0 ∧
      d.on F.STR_STAT_PEND_VALID = c.on F.STR_STAT_PEND_VALID := by
  obtain ⟨hmail, hup, -⟩ := tcMessage_spec hmsg
  have hm : m ≤ 4 := by omega
  have hsw' : (c.tookMsg m).switchState = 1 := (get_took (by decide)).trans hsw
  obtain ⟨f, hstore, hcancel, hstate, hpend⟩ := cancel_taken (c := c.tookMsg m) (s := s) (by rw [Chip.up, get_took (by decide)]; exact hup)
    (by rw [Chip.calBusy, Chip.on, get_took (by decide)]; exact hcal) hsw' hhold
  obtain ⟨hans, honly, htc⟩ := tcAnswer_after (st := 0) (l := []) hmsg hfree hforward hcancel (by decide)
    (by rintro b (rfl | rfl) <;> decide) (by decide) (by simp) (by simp)
  refine ⟨f.tcAnswer m tag 0 [], ?_, honly.mono (by simp) subset_rfl, htc, ?_, ?_⟩
  · rw [imgCancel, tcCommand_acts (n := 0) hmsg hdeny rfl]
    simp only [hsw', hstore, if_true]
    rfl
  · exact (get_answered hans hm (by decide)).trans hstate
  · rw [Chip.on, get_answered hans hm (by decide), ← Chip.on, hpend, Chip.on, get_took (by decide), Chip.on]

/-- IMG_CANCEL with no switch in prepare. -/
theorem imgCancel_refuses (hmsg : c.tcMessage m 3 = some (tag, [])) (hdeny : c.tcDenies m 3 false = false)
    (hfree : c.on F.MBXM_CTRL_FULL (m + 1) = false) (hforward : c.fw.forward = none) (hcal : c.calBusy = false) (hsw : c.switchState ≠ 1) :
    ∃ d, imgCancel m (c, s) = (d, s) ∧ c.Only [.ev, .hst, .sys] (answerRegs m ∪ {F.STR_REJ_CNT_COUNT.addr}) d ∧ d.TcAnswered m tag 9 [] ∧
      d.switchState = c.switchState := by
  obtain ⟨hmail, hup, -⟩ := tcMessage_spec hmsg
  have hm : m ≤ 4 := by omega
  have hkept : (c.tookMsg m).switchState = c.switchState := get_took (by decide)
  obtain ⟨f, hstore, hcount⟩ := cancel_refused (c := c.tookMsg m) (s := s) (by rw [Chip.up, get_took (by decide)]; exact hup)
    (by rw [Chip.calBusy, Chip.on, get_took (by decide)]; exact hcal) (hkept ▸ hsw)
  obtain ⟨hans, honly, htc⟩ := tcAnswer_after (st := 9) (l := []) hmsg hfree hforward hcount (by decide)
    (by rintro b rfl; decide) (by decide) (by simp) (by simp)
  refine ⟨f.tcAnswer m tag 9 [], ?_, honly.mono (by simp) subset_rfl, htc, ?_⟩
  · rw [imgCancel, tcCommand_acts (n := 0) hmsg hdeny rfl]
    simp only [hkept, hsw, hstore, if_false]
    rfl
  · exact (get_answered hans hm (by decide)).trans ((hcount.get (by decide)).trans hkept)

end Sys2Proof.Machine
end

section
/-!
PROOFS about FW_STAGE and FW_RESTART (R45, R487, R621): TC reads the fuses, verifies a package and writes it; it restarts service firmware.
-/

namespace Sys2Proof.Machine

variable {c d e : Chip} {m tag a0 a1 a2 a3 : Nat} {s : Store} {b : List Byte}

/-! ### Keys and counters are read on demand (R616, R617) -/

/-- SEC has read which keys are revoked. -/
def Chip.keysRead (c : Chip) (s : Store) : Chip := { c with sec := { c.sec with revoked := s.rowN 160 % 256 } }

/-- Beside the record of what is revoked, a read of the fuses shows in SEC_KEYS, SEC_ROLL and events. -/
theorem only_readFuses (c : Chip) (s : Store) : (c.keysRead s).Only [.ev] {R.SEC_ROLL.addr, F.SEC_KEYS_REVOKED.addr} (c.readFuses s) := by
  have hset := Chip.Only.set (v := s.rowN 160 % 256) (.refl [.ev] {R.SEC_ROLL.addr, F.SEC_KEYS_REVOKED.addr} (c.keysRead s))
    (p := F.SEC_KEYS_REVOKED) (i := 0) (j := 0) (.inr rfl)
  have hkeys := hset.trans (Chip.only_foldl (f := fun (c : Chip) (k : Nat) => c.emit 0x1B08 [(1, k)])
    (fun c _ => .emit (.refl _ _ c) (by simp)) (setBits 8 (s.rowN 160 % 256 - (s.rowN 160 % 256 &&& c.sec.revoked))) _)
  have hcounts := ((hkeys.set (p := F.SEC_ROLL_TF_CNT) (i := 0) (j := 0) (v := s.tfCnt) (.inl rfl)).set
    (p := F.SEC_ROLL_SF_CNT) (i := 0) (j := 0) (v := s.sfCnt) (.inl rfl)).set (p := F.SEC_ROLL_IMG_CNT) (i := 0) (j := 0) (v := s.imgCnt) (.inl rfl)
  have hup : ∀ (x : Chip) (n v w : Nat), (c.keysRead s).Only [.ev] {R.SEC_ROLL.addr, F.SEC_KEYS_REVOKED.addr} x →
      (c.keysRead s).Only [.ev] {R.SEC_ROLL.addr, F.SEC_KEYS_REVOKED.addr} (if w < v then x.emit 0x1B09 [(1, n), (1, v)] else x) :=
    fun x n v w hx => Chip.only_ite (hx.emit (by simp)) hx
  unfold Chip.readFuses
  exact hup _ 2 _ _ (hup _ 1 _ _ (hup _ 0 _ _ hcounts))

theorem secRegs_block : ({R.SEC_ROLL.addr, F.SEC_KEYS_REVOKED.addr} : Set Nat) ⊆ blockRegsSet 0x1B := by
  rintro x (rfl | rfl) <;> exact ⟨by decide, by decide⟩

theorem readFuses_leaves (c : Chip) (s : Store) : c.Only [.ev, .sec] {R.SEC_ROLL.addr, F.SEC_KEYS_REVOKED.addr} (c.readFuses s) := by
  have hread : c.Only [.ev, .sec] {R.SEC_ROLL.addr, F.SEC_KEYS_REVOKED.addr} (c.keysRead s) := by
    refine (Chip.Only.refl _ _ c).beside rfl fun q hq => ?_
    cases q
    case sec => simp at hq
    all_goals rfl
  exact hread.trans ((only_readFuses c s).mono (by simp) subset_rfl)

theorem readFuses_keys (c : Chip) (s : Store) : (c.readFuses s).sec.keys = c.sec.keys := by
  rw [(only_readFuses c s).1 .sec (by simp)]
  rfl

/-! ### A package is judged (R621) -/

/-- The judgement rests on the keys, the fuses and the bytes. -/
theorem packageReason_congr {ty : Nat} {ok : Bool} {l : List Nat} (h : d.sec.keys = c.sec.keys) :
    d.packageReason s ty ok l = c.packageReason s ty ok l := by
  simp only [Chip.packageReason, h]

theorem packageReason_lt (c : Chip) (s : Store) (ty : Nat) (ok : Bool) (l : List Nat) : c.packageReason s ty ok l < 256 := by
  unfold Chip.packageReason
  dsimp only
  generalize (if ty = 1 then s.tfCnt else s.sfCnt) = n
  split
  · decide
  split
  · decide
  split
  · decide
  split
  · decide
  split
  · decide
  split <;> decide

theorem packageReason_took {ty : Nat} {ok : Bool} {l : List Nat} :
    ((c.tookMsg m).readFuses s).packageReason s ty ok l = (c.readFuses s).packageReason s ty ok l :=
  packageReason_congr ((readFuses_keys _ s).trans (readFuses_keys c s).symm)

/-! ### FW_STAGE -/

/-- A package that TC finds in the scratchpad, outside RECOVERY: words a0 to a3 of FW_STAGE, its bytes b. -/
structure StageAsked (c : Chip) (s : Store) (m tag a0 a1 a2 a3 : Nat) (b : List Byte) : Prop where
  message : c.tcMessage m 4 = some (tag, [a0, a1, a2, a3])
  allowed : c.tcDenies m 4 (a0 == 1) = false
  free : c.on F.MBXM_CTRL_FULL (m + 1) = false
  forward : c.fw.forward = none
  bytes : b = s.read (a2 % 256 * 2 ^ 32 + a1) a3
  header : 64 ≤ a3
  phase : c.get F.SEC_PHASE_PHASE ≠ 3
  scratch : inScratch (a2 % 256 * 2 ^ 32 + a1) = true
  inside : a2 % 256 * 2 ^ 32 + a1 + a3 ≤ 0x100000
  kind : a0 ≤ 1
  fits : a3 ≤ packageSize (2 - a0)

theorem tcRead_scratch {a n : Nat} (h : inScratch a = true) (hin : a + n ≤ 0x100000) : c.tcRead s [] a n = (c, some (s.read a n)) := by
  simp only [Chip.tcRead, h, hin, if_true]

/-- TC reads and judges the package, and refuses it. -/
theorem fwStage_refuses (h : StageAsked c s m tag a0 a1 a2 a3 b) {r : Nat}
    (hr : r = (c.readFuses s).packageReason s (2 - a0) true (b.map BitVec.toNat)) (hr0 : r ≠ 0) :
    fwStage m [] (c, s) = answer m tag stRefused [r] (((c.tookMsg m).readFuses s).set F.SEC_BOOT_LAST_REASON r, s) := by
  obtain ⟨hmsg, hdeny, -, -, hb, h64, hphase, hscr, hin, hkind, hfits⟩ := h
  have hty : 3 - (a0 + 1) = 2 - a0 := by omega
  have hargs : ¬ (2 < a0 + 1 ∨ a3 < 64) := by omega
  subst hb
  rw [← packageReason_took (m := m)] at hr
  rw [fwStage, tcCommand_acts (n := 4) hmsg hdeny rfl]
  simp only [List.getD_cons_zero, List.getD_cons_succ, if_neg hargs, hty, if_neg (Nat.not_lt.mpr hfits), tcRead_scratch hscr hin, Option.getD_some,
    Option.isSome_some, ← hr, if_pos hr0]

/-- TC reads and judges the package, and takes it. -/
theorem fwStage_takes (h : StageAsked c s m tag a0 a1 a2 a3 b) (hr : (c.readFuses s).packageReason s (2 - a0) true (b.map BitVec.toNat) = 0) :
    fwStage m [] (c, s) = if 2 - a0 = 2 then
      answer m tag stOk [] (((c.tookMsg m).readFuses s).setSys { ((c.tookMsg m).readFuses s).sys with fwCopy := true },
        (s.putPackage 2 (1 - ((c.tookMsg m).readFuses s).sys.fwSlot) b).write spareBase (pkgBody (b.map BitVec.toNat)))
      else answer m tag stOk [] ((c.tookMsg m).readFuses s, s.putPackage 1 (1 - ((c.tookMsg m).readFuses s).get F.SEC_BOOT_TF_SLOT) b) := by
  obtain ⟨hmsg, hdeny, -, -, hb, h64, hphase, hscr, hin, hkind, hfits⟩ := h
  have hty : 3 - (a0 + 1) = 2 - a0 := by omega
  have hargs : ¬ (2 < a0 + 1 ∨ a3 < 64) := by omega
  subst hb
  have hphase' : ((c.tookMsg m).readFuses s).get F.SEC_PHASE_PHASE ≠ 3 := by
    rw [(readFuses_leaves _ s).get (by decide), get_took (by decide)]
    exact hphase
  rw [← packageReason_took (m := m)] at hr
  rw [fwStage, tcCommand_acts (n := 4) hmsg hdeny rfl]
  simp only [List.getD_cons_zero, List.getD_cons_succ, if_neg hargs, hty, if_neg (Nat.not_lt.mpr hfits), tcRead_scratch hscr hin, Option.getD_some,
    Option.isSome_some, hr, ne_eq, not_true_eq_false, if_false, if_neg hphase']

theorem beyondAnswer_sec : beyondAnswer (blockRegsSet 0x1B) := fun x ⟨hlo, hhi⟩ => ⟨by omega, by omega⟩

/-- The fuses read, where TC has taken a message: what changes, and what of it is of SEC. -/
theorem tookRead_leaves (c : Chip) (s : Store) : (c.tookMsg m).Only [.ev, .sec] (blockRegsSet 0x1B) ((c.tookMsg m).readFuses s) :=
  (readFuses_leaves _ s).mono (List.Subset.refl _) secRegs_block

/-- FW_STAGE of a package that TC refuses. -/
theorem fwStage_answers_refused (h : StageAsked c s m tag a0 a1 a2 a3 b) {r : Nat}
    (hr : r = (c.readFuses s).packageReason s (2 - a0) true (b.map BitVec.toNat)) (hr0 : r ≠ 0) :
    ∃ d, fwStage m [] (c, s) = (d, s) ∧ c.Only [.ev, .hst, .sec] (answerRegs m ∪ blockRegsSet 0x1B) d ∧ d.TcAnswered m tag 9 [r] ∧
      d.get F.SEC_BOOT_LAST_REASON = r % 2 ^ (F.SEC_BOOT_LAST_REASON.hi + 1 - F.SEC_BOOT_LAST_REASON.lo) := by
  obtain ⟨hmail, -⟩ := tcMessage_spec h.message
  have hlt : r < 256 := hr ▸ packageReason_lt _ _ _ _ _
  have hset := (tookRead_leaves (m := m) c s).set (p := F.SEC_BOOT_LAST_REASON) (i := 0) (j := 0) (v := r) ⟨by decide, by decide⟩
  obtain ⟨hans, honly, htc⟩ := tcAnswer_after (st := 9) (l := [r]) h.message h.free h.forward hset (by decide) beyondAnswer_sec (by decide)
    (by simp; omega) (by simp)
  refine ⟨_, fwStage_refuses h hr hr0, honly.mono (by simp) subset_rfl, htc, ?_⟩
  exact (get_answered hans (by omega) (by decide)).trans (Chip.get_set_same _ _ _ _ _ (by decide) (by decide))

/-- FW_STAGE of a good package of service firmware: it is in the slot not in use, and a copy of its image at hand. -/
theorem fwStage_service (h : StageAsked c s m tag 0 a1 a2 a3 b) (hr : (c.readFuses s).packageReason s 2 true (b.map BitVec.toNat) = 0) :
    ∃ d, fwStage m [] (c, s) = (d, (s.putPackage 2 (1 - c.sys.fwSlot) b).write spareBase (pkgBody (b.map BitVec.toNat))) ∧
      c.Only [.ev, .hst, .sec, .sys] (answerRegs m ∪ blockRegsSet 0x1B) d ∧ d.TcAnswered m tag 0 [] ∧ d.sys = { c.sys with fwCopy := true } := by
  have hread := tookRead_leaves (m := m) c s
  have hsys : ((c.tookMsg m).readFuses s).sys = c.sys := hread.1 .sys (by simp)
  have htakes := fwStage_takes h hr
  generalize (c.tookMsg m).readFuses s = e at *
  rw [hsys] at htakes
  have hcopy : (c.tookMsg m).Only [.ev, .sec, .sys] (blockRegsSet 0x1B) (e.setSys { c.sys with fwCopy := true }) :=
    (hread.mono (by simp) subset_rfl).setSys (by simp)
  obtain ⟨hans, honly, htc⟩ := tcAnswer_after (st := 0) (l := []) h.message h.free h.forward hcopy (by decide) beyondAnswer_sec (by decide)
    (by simp) (by simp)
  exact ⟨_, htakes, honly.mono (by simp) subset_rfl, htc, hans.1 .sys (by simp)⟩

/-- FW_STAGE of a good package of trusted firmware: it is in the slot not in use. -/
theorem fwStage_trusted (h : StageAsked c s m tag 1 a1 a2 a3 b) (hr : (c.readFuses s).packageReason s 1 true (b.map BitVec.toNat) = 0) :
    ∃ d, fwStage m [] (c, s) = (d, s.putPackage 1 (1 - c.get F.SEC_BOOT_TF_SLOT) b) ∧
      c.Only [.ev, .hst, .sec] (answerRegs m ∪ blockRegsSet 0x1B) d ∧ d.TcAnswered m tag 0 [] := by
  have hread := tookRead_leaves (m := m) c s
  have hslot : ((c.tookMsg m).readFuses s).get F.SEC_BOOT_TF_SLOT = c.get F.SEC_BOOT_TF_SLOT := by
    rw [(readFuses_leaves _ s).get (by decide), get_took (by decide)]
  have htakes := fwStage_takes h hr
  generalize (c.tookMsg m).readFuses s = e at *
  rw [hslot] at htakes
  obtain ⟨-, honly, htc⟩ := tcAnswer_after (st := 0) (l := []) h.message h.free h.forward hread (by decide) beyondAnswer_sec (by decide)
    (by simp) (by simp)
  exact ⟨e.tcAnswer m tag 0 [], htakes, honly.mono (by simp) subset_rfl, htc⟩

/-! ### FW_RESTART (R45) -/

/-- FW_RESTART of service firmware at once: JOB goes down and the other slot's firmware is to start; TC's answer waits. -/
theorem fwRestart_starts (hmsg : c.tcMessage m 5 = some (tag, [0])) (hdeny : c.tcDenies m 5 false = false) (hcopy : c.sys.fwCopy = true)
    (hstop : c.on F.TRK_STAT_RUN = false) :
    fwRestart m (c, s) = (((c.tookMsg m).tcLater m tag 5).restartService s, s.nameService (1 - c.sys.fwSlot)) ∧
      ((c.tookMsg m).tcLater m tag 5).up 2 = true := by
  obtain ⟨-, -, hup, -⟩ := tcMessage_spec hmsg
  have hup' : ((c.tookMsg m).tcLater m tag 5).up 2 = true := by
    rw [Chip.tcLater, Chip.up, Chip.setFw_get, get_took (by decide)]
    exact hup
  have hwaits : (c.tookMsg m).restartWaits = false := Chip.restartWaits_stopped (by rw [Chip.on, get_took (by decide)]; exact hstop)
  have hcopy' : (c.tookMsg m).sys.fwCopy = true := hcopy
  refine ⟨?_, hup'⟩
  rw [fwRestart, tcCommand_acts (n := 1) hmsg hdeny rfl]
  simp only [List.getD_cons_zero, if_true, hcopy', hwaits, Bool.not_true, Bool.false_eq_true, if_false]
  exact startRequested_spec (x := ((c.tookMsg m).tcLater m tag 5, s)) hup' hcopy

/-- FW_RESTART with no good copy at hand is refused. -/
theorem fwRestart_refuses (hmsg : c.tcMessage m 5 = some (tag, [0])) (hdeny : c.tcDenies m 5 false = false)
    (hfree : c.on F.MBXM_CTRL_FULL (m + 1) = false) (hforward : c.fw.forward = none) (hcopy : c.sys.fwCopy = false) :
    ∃ d, fwRestart m (c, s) = (d, s) ∧ c.Only [.ev, .hst] (answerRegs m) d ∧ d.TcAnswered m tag 9 [] := by
  obtain ⟨-, honly, htc⟩ := tcAnswer_after (st := 9) (l := []) (rs := ∅) hmsg hfree hforward (.refl [] ∅ _) (by decide)
    (fun _ h => absurd h (Set.notMem_empty _)) (by decide) (by simp) (by simp)
  have hcopy' : (c.tookMsg m).sys.fwCopy = false := hcopy
  refine ⟨(c.tookMsg m).tcAnswer m tag 9 [], ?_, honly.mono (by simp) (by simp), htc⟩
  rw [fwRestart, tcCommand_acts (n := 1) hmsg hdeny rfl]
  simp only [List.getD_cons_zero, if_true, hcopy', Bool.not_false]
  rfl

/-- Whether a restart is deferred does not depend on the mailboxes. -/
theorem restartWaits_took (c : Chip) (m : Nat) : (c.tookMsg m).restartWaits = c.restartWaits := by
  have hcmp : (c.tookMsg m).cmp = c.cmp := rfl
  have hrate : (c.tookMsg m).rate = c.rate := rfl
  have hissued : (c.tookMsg m).trk = c.trk := rfl
  have hrun : (c.tookMsg m).on F.TRK_STAT_RUN = c.on F.TRK_STAT_RUN := by rw [Chip.on, get_took (by decide), Chip.on]
  have hstart : (c.tookMsg m).trkStart = c.trkStart := by rw [Chip.trkStart, get_took (by decide), get_took (by decide), Chip.trkStart]
  have hlines : (c.tookMsg m).queuedLines = c.queuedLines := by
    simp only [Chip.queuedLines, Chip.lastIssued, hcmp, hissued, hstart]
  rw [Chip.restartWaits, hrun, hcmp, hlines, hrate, Chip.restartWaits]

/-- FW_RESTART while lines wait to be printed is deferred. -/
theorem fwRestart_defers (hmsg : c.tcMessage m 5 = some (tag, [0])) (hdeny : c.tcDenies m 5 false = false)
    (hfree : c.on F.MBXM_CTRL_FULL (m + 1) = false) (hforward : c.fw.forward = none) (hcopy : c.sys.fwCopy = true)
    (hwaits : c.restartWaits = true) :
    ∃ d, fwRestart m (c, s) = (d, s) ∧ c.Only [.ev, .hst, .sys] (answerRegs m) d ∧ d.TcAnswered m tag 4 [] ∧
      d.sys = { c.sys with fwDeferred := true } := by
  have hdefer : (c.tookMsg m).Only [.sys] ∅ ((c.tookMsg m).setSys { (c.tookMsg m).sys with fwDeferred := true }) :=
    (Chip.Only.refl _ _ _).setSys (by simp)
  obtain ⟨hans, honly, htc⟩ := tcAnswer_after (st := stBusy) (l := []) hmsg hfree hforward hdefer (by decide)
    (fun _ h => absurd h (Set.notMem_empty _)) (by decide) (by simp) (by simp)
  have hcopy' : (c.tookMsg m).sys.fwCopy = true := hcopy
  refine ⟨((c.tookMsg m).setSys { (c.tookMsg m).sys with fwDeferred := true }).tcAnswer m tag stBusy [], ?_, honly.mono (by simp) (by simp), htc,
    hans.1 .sys (by simp)⟩
  rw [fwRestart, tcCommand_acts (n := 1) hmsg hdeny rfl]
  simp only [List.getD_cons_zero, if_true]
  rw [if_neg (by simp [hcopy']), if_pos ((restartWaits_took c m).trans hwaits)]
  rfl

end Sys2Proof.Machine
end

section
/-!
PROOFS: O51, the commands of TC that load images and firmware.
-/

namespace Sys2Proof.Proofs
open Sys2Proof.Machine

variable {t m tag : Nat} {s : State} {c d : Chip} {f : Chip × Store → Chip × Store} {z : Store} {ps : List Part} {rs : Set Nat}

/-- A command on the chip and the memories that comes to d and z. -/
theorem runBoth_of (h : f (s.chip.at t, s.store) = (d, z)) : runBoth t f s = .next { s with chip := d, store := z } := by
  simp only [runBoth, h]

/-- No CAL_RUN is in progress: nothing of it ends. -/
theorem calRunEnds_none (h : c.fw.calCmd = none) : c.calRunEnds = c := by simp only [Chip.calRunEnds, h]

/-- IMG_SWITCH comes to d, with no CAL_RUN in progress. -/
theorem execImgSwitch_of (h : imgSwitch m (s.chip.at t, s.store) = (d, s.store)) (honly : (s.chip.at t).Only ps rs d) (hfw : .fw ∉ ps)
    (hcal : s.chip.fw.calCmd = none) : exec (.imgSwitch t m) s = .next { s with chip := d } := by
  have hnone : d.calRunEnds = d := calRunEnds_none (by rw [honly.1 .fw hfw]; exact hcal)
  simp only [exec, execImgSwitch, runBoth, h, hnone]

/-- Bytes copied read as the source, and the bytes outside as before. -/
theorem copied_bytes (z : Store) (src dst len : Nat) : (z.write dst (z.read src len)).read dst len = z.read src len ∧
    ∀ b, b < dst ∨ dst + len ≤ b → (z.write dst (z.read src len)).read b 1 = z.read b 1 := by
  have hlen : (z.read src len).length = len := bytesAt_length _ _ _ _
  constructor
  · have h := bytesAt_putBytes memDefault (z.read src len) z.mem dst
    rw [hlen] at h
    exact h
  · intro b hb
    have h := putBytes_outside memDefault (z.read src len) z.mem (a := dst) (b := b) (by rw [hlen]; exact hb)
    exact congrArg (fun x => [x]) h

/-- The parts of the memories that a package of service firmware and its copy write. -/
theorem staged_store (z : Store) (a b : Nat) (l k : List Byte) :
    (z.writeFlash a l).write b k = { z.writeFlash a l with mem := ((z.writeFlash a l).write b k).mem } ∧
      ((z.writeFlash a l).write b k).mem = (z.write b k).mem := ⟨rfl, rfl⟩

/-- Settles O51, clause by clause: what TC does with a message, and how it answers. -/
theorem trustLoadsImages : Obligations.TrustLoadsImages := by
  unfold Obligations.TrustLoadsImages
  refine ⟨?_, ?_, ?_, ?_, ?_, ?_, ?_, ?_, ?_, ?_, ?_, ?_⟩
  · intro t m tag a0 a1 a2 src dst len s hmsg hdeny _ _ hidle hsw hsrc hdst hlen hmin hmax _ hcal hready hopen hin hout
    have hcan : (s.chip.at t).CanCopy src dst len :=
      ⟨hidle, hsw, by simp only [Chip.slotAddr, Chip.pendingSlot, Chip.at_get, hdst], hready, hopen, hin, hout⟩
    obtain ⟨d, hload, honly, hfull, hchecking, hdone, hfw⟩ := imgLoad_copies (s := s.store) (c := s.chip.at t) hmsg hdeny hcan hsrc.symm hlen.symm hmin hmax hcal
    obtain ⟨hbytes, hframe⟩ := copied_bytes s.store src dst len
    exact ⟨_, runBoth_of hload, ⟨rfl, honly⟩, hfull, hchecking, hdone, hfw, rfl, hbytes, hframe⟩
  · intro t m tag a0 a1 a2 s hmsg hdeny hfree hforward hbusy
    obtain ⟨d, hload, honly, hans⟩ := imgLoad_busy (s := s.store) (c := s.chip.at t) hmsg hdeny hfree hforward hbusy
    exact ⟨_, runBoth_of hload, leaves_of_only honly, hans⟩
  · intro t m tag a0 a1 s hmsg hdeny hfree hforward hcal hcmd hpend hsw hstop hports hflw
    obtain ⟨d, hswitch, honly, hans, hstate, hlo, hhi, hwant⟩ := imgSwitch_approves (s := s.store) (c := s.chip.at t) hmsg hdeny hfree hforward hcal
      ⟨hpend, hsw, hstop, hports, hflw⟩
    refine ⟨_, execImgSwitch_of hswitch honly (by decide) hcmd, leaves_of_only (honly.mono (List.Subset.refl _) ?_), hans, hstate, hlo, hhi, hwant⟩
    exact Set.union_subset_union_right _ (by rintro x ((rfl | rfl) | (rfl | rfl)) <;> simp)
  · intro t m tag a0 a1 r s hmsg hdeny hfree hforward hcal hcmd hwhy
    obtain ⟨d, hswitch, honly, hans, hstate⟩ := imgSwitch_refuses (s := s.store) (c := s.chip.at t) hmsg hdeny hfree hforward hcal hwhy
    refine ⟨_, execImgSwitch_of hswitch honly (by decide) hcmd, leaves_of_only (honly.mono (List.Subset.refl _) ?_), hans, hstate⟩
    exact Set.union_subset_union_right _ (by rintro x ((rfl | rfl) | rfl) <;> simp)
  · intro t m tag s hmsg hdeny hfree hforward hcal hsw hhold
    obtain ⟨d, hcancel, honly, hans, hstate, hpend⟩ := imgCancel_cancels (s := s.store) (c := s.chip.at t) hmsg hdeny hfree hforward hcal hsw hhold
    exact ⟨_, runBoth_of hcancel, leaves_of_only honly, hans, hstate, hpend⟩
  · intro t m tag s hmsg hdeny hfree hforward hcal hsw
    obtain ⟨d, hcancel, honly, hans, hstate⟩ := imgCancel_refuses (s := s.store) (c := s.chip.at t) hmsg hdeny hfree hforward hcal hsw
    exact ⟨_, runBoth_of hcancel, leaves_of_only honly, hans, hstate⟩
  · intro t m tag a1 a2 a3 b s hmsg hdeny hfree hforward hb h64 hphase hscr hin hfits hr
    obtain ⟨d, hstage, honly, hans, hsys⟩ := fwStage_service (c := s.chip.at t)
      ⟨hmsg, hdeny, hfree, hforward, hb, h64, hphase, hscr, hin, by decide, hfits⟩ hr
    obtain ⟨hstore, hmem⟩ := staged_store s.store (packageBase 2 (1 - s.chip.sys.fwSlot)) spareBase b (pkgBody (b.map BitVec.toNat))
    exact ⟨_, runBoth_of hstage, ⟨rfl, honly⟩, hans, hstore, hmem, hsys⟩
  · intro t m tag a1 a2 a3 b s hmsg hdeny hfree hforward hb h64 hphase hscr hin hfits hr
    obtain ⟨d, hstage, honly, hans⟩ := fwStage_trusted (c := s.chip.at t)
      ⟨hmsg, hdeny, hfree, hforward, hb, h64, hphase, hscr, hin, by decide, hfits⟩ hr
    exact ⟨_, runBoth_of hstage, ⟨rfl, honly⟩, hans, rfl⟩
  · intro t m tag a0 a1 a2 a3 r b s hmsg hdeny hfree hforward hb h64 hphase hscr hin hkind hfits hr hr0
    obtain ⟨d, hstage, honly, hans, hreason⟩ := fwStage_answers_refused (c := s.chip.at t)
      ⟨hmsg, hdeny, hfree, hforward, hb, h64, hphase, hscr, hin, hkind, hfits⟩ hr hr0
    exact ⟨_, runBoth_of hstage, leaves_of_only honly, hans, hreason⟩
  · intro t m tag s hmsg hdeny hfree hforward hcopy hstop
    obtain ⟨hrestart, hup⟩ := fwRestart_starts (s := s.store) (c := s.chip.at t) hmsg hdeny hcopy hstop
    obtain ⟨-, hdown, hfwUp, -, -, hstarts, hslot, hwait⟩ := Chip.restartService_spec hup s.store
    have hcopy' : (((s.chip.at t).tookMsg m).tcLater m tag 5).sys.fwCopy = true := hcopy
    rw [hcopy', Bool.or_true] at hstarts
    rw [hcopy', if_pos rfl] at hslot
    exact ⟨_, runBoth_of hrestart, rfl, rfl, hdown, hfwUp, hstarts, hslot, hwait⟩
  · intro t m tag s hmsg hdeny hfree hforward hcopy
    obtain ⟨d, hrestart, honly, hans⟩ := fwRestart_refuses (s := s.store) (c := s.chip.at t) hmsg hdeny hfree hforward hcopy
    exact ⟨_, runBoth_of hrestart, leaves_of_only honly, hans⟩
  · intro t m tag s hmsg hdeny hfree hforward hcopy hwaits
    obtain ⟨d, hrestart, honly, hans, hsys⟩ := fwRestart_defers (s := s.store) (c := s.chip.at t) hmsg hdeny hfree hforward hcopy hwaits
    exact ⟨_, runBoth_of hrestart, leaves_of_only honly, hans, hsys⟩

end Sys2Proof.Proofs
end

section
/-!
PROOFS about POS that its statements share: what is left alone where the state of POS, CMP or NZH is replaced, the tracking unit that is
off, and the registers of POS (R8 to R13, R57 to R105).
-/

namespace Sys2Proof.Machine

variable {c d : Chip} {ps : List Part} {rs : Set Nat} {s : State} {t : Nat} {i : Initiator} {w : Nat} {p : Place} {r : RegDef}

/-! ### What is left alone -/

theorem Chip.Only.withPos {x : PosSt} (h : c.Only ps rs d) (hm : .pos ∈ ps) : c.Only ps rs { d with pos := x } := by
  refine h.beside rfl fun q hq => ?_
  cases q
  case pos => exact absurd hm hq
  all_goals rfl

theorem Chip.Only.withCmp {x : CmpSt} (h : c.Only ps rs d) (hm : .cmp ∈ ps) : c.Only ps rs { d with cmp := x } := by
  refine h.beside rfl fun q hq => ?_
  cases q
  case cmp => exact absurd hm hq
  all_goals rfl

theorem Chip.Only.withNzh {x : NzhSt} (h : c.Only ps rs d) (hm : .nzh ∈ ps) : c.Only ps rs { d with nzh := x } := by
  refine h.beside rfl fun q hq => ?_
  cases q
  case nzh => exact absurd hm hq
  all_goals rfl

theorem Chip.Only.setLatch {a n v : Nat} (h : c.Only ps rs d) (hm : .latch ∈ ps) : c.Only ps rs (d.setLatch a n v) := by
  refine h.beside rfl fun q hq => ?_
  cases q
  case latch => exact absurd hm hq
  all_goals rfl

theorem Chip.Only.setEnc {x : Fin 2} {e : EncSt} (h : c.Only ps rs d) (hm : .pos ∈ ps) : c.Only ps rs (d.setEnc x e) := h.withPos hm

theorem Chip.Only.setEnco {e : EncoSt} (h : c.Only ps rs d) (hm : .pos ∈ ps) : c.Only ps rs (d.setEnco e) := h.withPos hm

theorem Chip.Only.setMark {y : Fin 2} {m : MarkSt} (h : c.Only ps rs d) (hm : .pos ∈ ps) : c.Only ps rs (d.setMark y m) := h.withPos hm

theorem Chip.Only.setOut {n : Fin 8} {o : CmpOutSt} (h : c.Only ps rs d) (hm : .pos ∈ ps) : c.Only ps rs (d.setOut n o) := h.withPos hm

/-- An event of an island that is up. -/
theorem runChip_inIsland {f : Chip → Chip} {isl : Nat} (hup : s.chip.up isl = true) :
    runChip t (inIsland isl f) s = .next { s with chip := f (s.chip.at t) } := by
  have hup' : (s.chip.at t).up isl = true := hup
  rw [runChip, inIsland_up hup']

/-- The same, with the chip it comes to named. -/
theorem runChip_inIsland_eq {f : Chip → Chip} {isl : Nat} (hup : s.chip.up isl = true) (h : f (s.chip.at t) = d) :
    runChip t (inIsland isl f) s = .next { s with chip := d } := by
  rw [runChip_inIsland hup, h]

/-! ### Events raised one after another -/

/-- Raising events leaves press time and the registers. -/
theorem Chip.foldl_emit_keeps (l : List (Nat × List (Nat × Nat))) (c : Chip) :
    (l.foldl (fun (c : Chip) (e : Nat × List (Nat × Nat)) => c.emit e.1 e.2) c).now = c.now ∧
      ∀ a, (l.foldl (fun (c : Chip) (e : Nat × List (Nat × Nat)) => c.emit e.1 e.2) c).word a = c.word a := by
  induction l generalizing c with
  | nil => exact ⟨rfl, fun _ => rfl⟩
  | cons e l ih => exact ih (c.emit e.1 e.2)

/-- One more event, raised after steps that raised none. -/
theorem Chip.Raised.then_emit {e : Chip} {l : List (Nat × List (Nat × Nat))} {n : Nat} {v : List (Nat × Nat)} (h : c.Raised d l)
    (hev : e.ev = d.ev) (hnow : e.now = c.now) (hstat : e.word F.SYS_ISL_STAT_TIME_VALID.addr = c.word F.SYS_ISL_STAT_TIME_VALID.addr) :
    c.Raised (e.emit n v) (l ++ [(n, v)]) := by
  obtain ⟨hfold, hword⟩ := Chip.foldl_emit_keeps l c
  rw [Chip.Raised, List.foldl_append]
  exact Chip.emit_ev_congr n v (hev.trans h) (hnow.trans hfold.symm) (hstat.trans (hword _).symm)

/-! ### Encoder channels, mark inputs and compare outputs, read after a write -/

@[simp] theorem Chip.enc_setEnc_same (c : Chip) (x : Fin 2) (e : EncSt) : (c.setEnc x e).enc x = e := by simp [Chip.enc, Chip.setEnc]

theorem Chip.enc_setEnc_other (c : Chip) {x y : Fin 2} (h : y ≠ x) (e : EncSt) : (c.setEnc x e).enc y = c.enc y := by
  have hne : x.val ≠ y.val := fun he => h (Fin.ext he.symm)
  simp [Chip.enc, Chip.setEnc, hne]

@[simp] theorem Chip.setEnc_setEnc (c : Chip) (x : Fin 2) (e f : EncSt) : (c.setEnc x e).setEnc x f = c.setEnc x f := by
  simp [Chip.setEnc]

theorem Chip.enc_congr (h : d.pos = c.pos) (x : Fin 2) : d.enc x = c.enc x := by rw [Chip.enc, h, Chip.enc]

theorem Chip.enc_set (c : Chip) (q : Place) (v n m : Nat) (x : Fin 2) : (c.set q v n m).enc x = c.enc x := rfl

theorem Chip.enc_emit (c : Chip) (n : Nat) (l : List (Nat × Nat)) (x : Fin 2) : (c.emit n l).enc x = c.enc x := rfl

@[simp] theorem Chip.out_setOut_same (c : Chip) (n : Fin 8) (o : CmpOutSt) : (c.setOut n o).pos.out[n] = o := by simp [Chip.setOut]

@[simp] theorem Chip.setOut_setOut (c : Chip) (n : Fin 8) (o q : CmpOutSt) : (c.setOut n o).setOut n q = c.setOut n q := by
  simp [Chip.setOut]

/-! ### The tracking unit is off (R117, R136) -/

theorem spreqStat_trk : F.TRK_SPREQ_STAT_CAUSE.addr ∈ blockRegsSet 0x0A := by
  constructor <;> decide

/-- With TRK off a change of its inputs reaches SPEED_REQ alone. -/
theorem Chip.only_serveTrk_off (h : c.trkOn = false) : c.Only [.trk] (blockRegsSet 0x0A) c.serveTrk := by
  have hoff : c.serveSources = c := by simp [Chip.serveSources, h]
  rw [Chip.serveTrk, hoff]
  exact c.only_serveSpreq.mono (List.Subset.refl _) (Set.singleton_subset_iff.mpr spreqStat_trk)

/-- A change in POS of parts and registers that TRK's own are not among, with what TRK makes of it. -/
theorem Chip.Only.serveTrk_off (h : c.Only ps rs d) (hoff : d.trkOn = false) : c.Only (ps ++ [.trk]) (rs ∪ blockRegsSet 0x0A) d.serveTrk :=
  (h.mono (by simp) (by simp)).trans ((Chip.only_serveTrk_off hoff).mono (by simp) (by simp))

/-! ### The registers of POS -/

/-- Place p is register r of POS, of n channels, inputs or outputs. -/
def isPosReg (p : Place) (r : RegDef) (n : Nat) : Bool := (List.finRange n).all fun (k : Fin n) =>
  decide (regWhere (p.at k 0) = some (r, k.val, 0)) && ordinary (p.at k 0) && decide (blockOf (p.at k 0) = 0x09) &&
    decide (p.at k 0 ≠ F.POS_REJ_CNT_COUNT.addr)

theorem isPosReg_spec {n : Nat} (h : isPosReg p r n = true) (k : Fin n) :
    regWhere (p.at k 0) = some (r, k.val, 0) ∧ ordinary (p.at k 0) = true ∧ blockOf (p.at k 0) = 0x09 ∧
      p.at k 0 ≠ F.POS_REJ_CNT_COUNT.addr := by
  have hk := List.all_eq_true.mp h k (List.mem_finRange k)
  simpa [and_assoc] using hk

/-- A write of a register of POS that is taken. -/
theorem posWrite_taken {n : Nat} {v : Word} {k : Fin n} (h : isPosReg p r n = true) (hmay : s.chip.mayWrite i (p.at k 0)) :
    runWrite t i p v k 0 s = .next { s with chip := Chip.writePos i (p.at k 0) r k v.toNat (s.chip.wrote t i (p.at k 0)) } := by
  obtain ⟨hreg, hord, hblock, -⟩ := isPosReg_spec h k
  have hwork : worksIn (p.at k 0) = false := by simp [worksIn, hblock]
  have hcal : ¬ (blockOf (p.at k 0) = 0x1A ∨ blockOf (p.at k 0) = 0x0F) := by omega
  rw [runWrite_taken hmay hord hreg hwork (fun hb => absurd hb hcal)]
  simp only [writeReg, hblock]

/-- A read of a register of POS that is taken. -/
theorem posRead_taken {n : Nat} {k : Fin n} (h : isPosReg p r n = true) (hmay : s.chip.mayRead i (p.at k 0)) :
    runRead t i p k s = .next { s with chip := Chip.gives (Chip.readPos (p.at k 0) r k (s.chip.at t)) } := by
  obtain ⟨hreg, hord, hblock, -⟩ := isPosReg_spec h k
  have hmay' : (s.chip.at t).mayRead i (p.at k 0) := hmay
  rw [runRead, runChip, busRead_taken hmay' hord hreg]
  simp only [Chip.readReg, hblock]

/-- An ignored write of POS is counted in POS_REJ_CNT. -/
theorem reject_pos {a : Nat} (h : blockOf a = 0x09) : c.reject a = c.addSat F.POS_REJ_CNT_COUNT 1 := by
  refine reject_of_counter (k := 0) ?_
  simp only [rejectCounter, h]
  rfl

theorem Chip.only_reject_pos {a : Nat} (h : blockOf a = 0x09) : c.Only [] {F.POS_REJ_CNT_COUNT.addr} (c.reject a) := by
  rw [reject_pos h]
  exact .addSat (.refl _ _ c) rfl

/-- A plain write in POS, which has no copies to wait for, stores its word, and is counted where a field ignores it. -/
theorem plain_pos {a : Nat} (h : blockOf a = 0x09) :
    c.plain a r w = if r.fields.any (c.ignoresField a w) then (c.setWord a (BitVec.ofNat 32 (c.plainWord a r w))).reject a
      else c.setWord a (BitVec.ofNat 32 (c.plainWord a r w)) := by
  have hs : ∀ e : Chip, e.shadowWritten a = e := fun e => by simp [Chip.shadowWritten, h]
  simp only [Chip.plain, foldl_storeField_ignored, Bool.false_or, hs, ite_self]
  rfl

theorem Chip.only_plain_pos {a : Nat} (h : blockOf a = 0x09) : c.Only [] {a, F.POS_REJ_CNT_COUNT.addr} (c.plain a r w) := by
  have hstored : c.Only [] {a, F.POS_REJ_CNT_COUNT.addr} (c.setWord a (BitVec.ofNat 32 (c.plainWord a r w))) := .setWord (.refl _ _ c) (by simp)
  rw [plain_pos h]
  exact Chip.only_ite (hstored.trans ((Chip.only_reject_pos h).mono (by simp) (by simp))) hstored

theorem plain_keeps_pos {a : Nat} (h : blockOf a = 0x09) : (c.plain a r w).pos = c.pos := (Chip.only_plain_pos h).1 .pos (by simp)

/-- The word that a plain write of a register of POS leaves in it. -/
theorem plain_word_pos {n : Nat} {k : Fin n} (h : isPosReg p r n = true) :
    (c.plain (p.at k 0) r w).word (p.at k 0) = BitVec.ofNat 32 (c.plainWord (p.at k 0) r w) := by
  obtain ⟨-, -, hblock, hne⟩ := isPosReg_spec h k
  rw [plain_pos hblock]
  split
  · rw [(Chip.only_reject_pos hblock).2 _ hne, Chip.word_setWord_same]
  · exact Chip.word_setWord_same _ _ _

/-- No run and no switch bars an RW field from a value in its range. -/
theorem barsField_inRange {a hi lo mn mx : Nat} {sh : Bool} (hcal : c.calBusy = false) (hsw : c.switchState = 0)
    (hmn : mn ≤ bitsOf w hi lo) (hmx : bitsOf w hi lo ≤ mx) : c.barsField a w ⟨hi, lo, .rw, mn, mx, sh⟩ = false := by
  have hheld : c.calHolds a = 0 := by simp [Chip.calHolds, hcal]
  have hnone : bitsOf 0 hi lo = 0 := by simp [bitsOf]
  simp [Chip.barsField, not_frozen hsw, hheld, hnone, not_lt.mpr hmn, not_lt.mpr hmx]

/-- No field of POS enables a feature (R4). -/
theorem featureless_pos {a : Nat} {f : FieldDef} (h : blockOf a = 0x09) : c.featureless a f = false := by
  have htrk : a ≠ R.TRK_CTRL.addr := by rintro rfl; exact absurd h (by decide)
  have htko : a ≠ R.TKO_STBY.addr := by rintro rfl; exact absurd h (by decide)
  have hcol : ¬ (R.COL_STBY.addr ≤ a ∧ a < R.COL_STBY.addr + 32) := by
    have : R.COL_STBY.addr = 0x100C00D0 := rfl
    unfold blockOf at h
    omega
  have hcol' : (R.COL_STBY.addr ≤ a && a < R.COL_STBY.addr + 32) = false := by simpa using hcol
  simp only [Chip.featureless, beq_eq_false_iff_ne.mpr htrk, beq_eq_false_iff_ne.mpr htko, hcol', Bool.false_and, Bool.false_or]

/-- What a field of a register of POS reads after a plain write. -/
theorem get_plain_pos {n : Nat} {k : Fin n} {f : FieldDef} {q : Place} (h : isPosReg p r n = true) (hf : f ∈ r.fields)
    (hat : q.at k 0 = p.at k 0) (hhi : q.hi = f.hi) (hlo : q.lo = f.lo) :
    (c.plain (p.at k 0) r w).get q k = c.fieldAfter (p.at k 0) w f (c.get q k) := by
  obtain ⟨hreg, -, -, -⟩ := isPosReg_spec h k
  simp only [Chip.get, hat, hhi, hlo, plain_word_pos h, plainWord_field (regWhere_regAt hreg) hf]

/-- A plain write leaves what lies apart from the register's fields. -/
theorem get_plain_pos_apart {n : Nat} {k : Fin n} {q : Place} (h : isPosReg p r n = true) (hat : q.at k 0 = p.at k 0)
    (hap : ∀ f ∈ r.fields, f.Apart (fd q.hi q.lo .wo)) : (c.plain (p.at k 0) r w).get q k = c.get q k := by
  obtain ⟨hreg, -, -, -⟩ := isPosReg_spec h k
  obtain ⟨hfit, -⟩ := regAt_fields_sound (regWhere_regAt hreg)
  have hlt : c.plainWord (p.at k 0) r w < 2 ^ 32 := foldl_storeField_lt hfit (BitVec.isLt _)
  rw [Chip.get, hat, plain_word_pos h, BitVec.toNat_ofNat, Nat.mod_eq_of_lt hlt, Chip.plainWord, Chip.get, hat]
  exact foldl_storeField_apart hfit hap

/-- An RW field of POS takes a value in its range. -/
theorem get_plain_pos_rw {n mn mx : Nat} {k : Fin n} {q : Place} {sh : Bool} (h : isPosReg p r n = true)
    (hf : ⟨q.hi, q.lo, .rw, mn, mx, sh⟩ ∈ r.fields) (hat : q.at k 0 = p.at k 0) (hcal : c.calBusy = false) (hsw : c.switchState = 0)
    (hmn : mn ≤ fld q w) (hmx : fld q w ≤ mx) : (c.plain (p.at k 0) r w).get q k = fld q w := by
  obtain ⟨-, -, hblock, -⟩ := isPosReg_spec h k
  rw [get_plain_pos h hf hat rfl rfl, fieldAfter_taking (.inl rfl), featureless_pos hblock, barsField_inRange hcal hsw hmn hmx]
  rfl

/-- What a field of the word written reads where a command sets it. -/
theorem fld_withField (hlo : p.lo ≤ p.hi + 1) (hhi : p.hi < 32) (n : Nat) (v : Word) :
    fld p (withField p n v).toNat = n % 2 ^ (p.hi + 1 - p.lo) := by
  rw [toNat_withField hlo hhi]
  exact bitsOf_withBits_same _ _ hlo

end Sys2Proof.Machine
end

section
/-!
PROOFS about the encoder channels: counting with hysteresis, the index, the wires, and the writes that enable a channel and clear its faults
(R59 to R76).
-/

namespace Sys2Proof.Machine

variable {c d : Chip} {ps : List Part} {x : Fin 2} {i : Initiator} {w ts : Nat} {a b : Bool}

/-! ### One count with hysteresis (R63, R65) -/

section Count

variable {e : EncSt} {fwd dis : Bool}

/-- A count keeps the accepted levels. -/
theorem EncSt.count_levels (e : EncSt) (fwd dis : Bool) (ts : Nat) :
    (e.count fwd dis ts).1.a = e.a ∧ (e.count fwd dis ts).1.b = e.b := by
  have hkeep : ∀ (q : Prop) [Decidable q] (f g : EncSt × Int), f.1.a = e.a ∧ f.1.b = e.b → g.1.a = e.a ∧ g.1.b = e.b →
      (if q then f else g).1.a = e.a ∧ (if q then f else g).1.b = e.b := fun q _ f g hf hg => by split <;> assumption
  exact hkeep _ _ _ (hkeep _ _ _ ⟨rfl, rfl⟩ ⟨rfl, rfl⟩) (hkeep _ _ _ ⟨rfl, rfl⟩ ⟨rfl, rfl⟩)

/-- A count that is no reversal, or any with the hysteresis off, is applied. -/
theorem EncSt.count_applied (hheld : e.held = false) (hdir : e.dir ≠ some (!fwd) ∨ dis = true) :
    (e.count fwd dis ts).1 =
      { e with pos := pos48 (e.pos + (if fwd then 1 else -1)), dir := some fwd, gap := ts - e.ts, ts := ts } := by
  have hno : ¬ (e.dir = some (!fwd) ∧ (!dis) = true) := by
    rintro ⟨h, hd⟩
    rcases hdir with hdir | hdir
    · exact hdir h
    · simp [hdir] at hd
  simp only [EncSt.count, hheld, Bool.false_eq_true, if_false, if_neg hno]

/-- A reversal is held back. -/
theorem EncSt.count_reversal_held (hheld : e.held = false) (hdir : e.dir = some (!fwd)) (hdis : dis = false) :
    (e.count fwd dis ts).1 = { e with held := true } := by
  simp [EncSt.count, hheld, hdir, hdis]

/-- The channel goes on in its old direction: the count held back and this one cancel. -/
theorem EncSt.count_held_cancels (hheld : e.held = true) (hdir : e.dir = some fwd) :
    (e.count fwd dis ts).1 = { e with held := false } := by
  simp [EncSt.count, hheld, hdir]

/-- The channel keeps its new direction: the count held back comes with this one. -/
theorem EncSt.count_held_doubles (hheld : e.held = true) (hdir : e.dir = some (!fwd)) :
    (e.count fwd dis ts).1 =
      { e with held := false, pos := pos48 (e.pos + 2 * (if fwd then 1 else -1)), dir := some fwd, gap := ts - e.ts, ts := ts } := by
  have hne : ¬ some (!fwd) = some fwd := by simp
  simp only [EncSt.count, hheld, hdir, if_true, if_neg hne]

end Count

/-! ### A count that nothing else follows -/

/-- No other use is made of channel x: no index, Hall or mark check, no output that follows it, no threshold on its way, TRK off. -/
structure EncAlone (c : Chip) (x : Fin 2) : Prop where
  noIndex : c.get F.POS_ENC_CPR_CPR x = 0
  noHall : c.hallOn = false
  noMark : ∀ y : Fin 2, c.on F.POS_MARK_CFG_EN y = false
  noEnco : c.on F.POS_ENCO_CFG_EN = false
  noTrk : c.trkOn = false
  noStep : c.cal.thr[x] = none
  noOut : ∀ n : Fin 8, c.get F.POS_CMP_CFG_SRC n ≠ x.val

theorem EncAlone.setEnc (h : EncAlone c x) (e : EncSt) : EncAlone (c.setEnc x e) x :=
  ⟨h.noIndex, h.noHall, h.noMark, h.noEnco, h.noTrk, h.noStep, h.noOut⟩

theorem EncAlone.indexMissing (h : EncAlone c x) : c.indexMissing x = c := by
  simp [Chip.indexMissing, Chip.indexOn, h.noIndex]

theorem EncAlone.hallStall (h : EncAlone c x) : c.hallStall x = c := by
  unfold Chip.hallStall
  split
  · rfl
  · simp [h.noHall]

theorem EncAlone.markMissing (h : EncAlone c x) (y : Fin 2) : c.markMissing y = c := by
  unfold Chip.markMissing
  dsimp only
  split
  · rfl
  · simp [h.noMark y]

theorem Chip.encoTicks_off (h : c.on F.POS_ENCO_CFG_EN = false) (fwd : Bool) (gap k : Nat) : Chip.encoTicks fwd gap k c = c := by
  induction k with
  | zero => rfl
  | succ k ih => rw [Chip.encoTicks, Chip.encoIn, h, Bool.not_false, if_pos rfl, ih]

theorem EncAlone.encMoved (h : EncAlone c x) (n : Int) : c.encMoved x n = c := by
  simp only [Chip.encMoved, h.indexMissing, h.hallStall, h.markMissing, Chip.encoTicks_off h.noEnco, ite_self]

theorem EncAlone.trkMoved (h : EncAlone c x) (n : Int) : c.trkMoved x n = c := by simp [Chip.trkMoved, h.noTrk]

theorem EncAlone.encoFollow (h : EncAlone c x) : c.encoFollow = c := by simp [Chip.encoFollow, h.noEnco]

theorem EncAlone.cmpFollow (h : EncAlone c x) (n : Int) : c.cmpFollow x n = c := by
  have hstay : ∀ k : Fin 8, (if c.get F.POS_CMP_CFG_SRC k.val = x.val then c.setOut k { c.pos.out[k] with prev := n } else c) = c :=
    fun k => if_neg (h.noOut k)
  simp only [Chip.cmpFollow, List.foldl_cons, List.foldl_nil, hstay]

theorem EncAlone.thrStep (h : EncAlone c x) : c.thrStep x = c := by simp only [Chip.thrStep, h.noStep]

/-- A change of one level that is accepted counts once. -/
theorem encLevels_one (hen : c.on F.POS_ENC_CFG_EN x = true) (hact : c.get F.POS_ENC_STAT_WIRE_ACT x = 0)
    (h : (c.enc x).a ≠ a ∧ (c.enc x).b = b ∨ (c.enc x).a = a ∧ (c.enc x).b ≠ b) :
    c.encLevels x a b ts =
      let r := ({ c.enc x with a := a, b := b } : EncSt).count
        ((((c.enc x).a != a) == ((c.enc x).a == (c.enc x).b)) != c.on F.POS_ENC_CFG_DIR_INV x) (bitAt (c.get F.POS_XCFG_HYST_DIS) x) ts
      (c.setEnc x r.1, r.2) := by
  have hbit : ∀ k, bitAt 0 k = false := fun k => by simp [bitAt_eq_testBit]
  have hnone : ¬ ((c.enc x).a = a ∧ (c.enc x).b = b) := by tauto
  have hboth : ¬ ((c.enc x).a ≠ a ∧ (c.enc x).b ≠ b) := by tauto
  have hdec : decide ((c.enc x).a ≠ a) = ((c.enc x).a != a) := by simp [bne, beq_eq_decide]
  simp only [Chip.encLevels, hact, hbit, hen, Bool.not_true, Bool.false_eq_true, if_false, if_neg hnone, if_neg hboth, hdec]

/-- A change of both levels counts nothing and is reported (R64). -/
theorem encLevels_both (hen : c.on F.POS_ENC_CFG_EN x = true) (hact : c.get F.POS_ENC_STAT_WIRE_ACT x = 0)
    (ha : (c.enc x).a ≠ a) (hb : (c.enc x).b ≠ b) :
    c.encLevels x a b ts = (((c.setEnc x { c.enc x with a := a, b := b }).set F.POS_ENC_STAT_QUAD_ERR 1 x).emit 0x0902, 0) := by
  have hbit : ∀ k, bitAt 0 k = false := fun k => by simp [bitAt_eq_testBit]
  have hnone : ¬ ((c.enc x).a = a ∧ (c.enc x).b = b) := fun h => ha h.1
  simp only [Chip.encLevels, hact, hbit, hen, Bool.not_true, Bool.false_eq_true, if_false, if_neg hnone, if_pos (And.intro ha hb)]

/-- The channel after an accepted change of one input. -/
def Chip.counted (c : Chip) (x : Fin 2) (a b : Bool) (ts : Nat) : EncSt :=
  (({ c.enc x with a := a, b := b } : EncSt).count
    ((((c.enc x).a != a) == ((c.enc x).a == (c.enc x).b)) != c.on F.POS_ENC_CFG_DIR_INV x) (bitAt (c.get F.POS_XCFG_HYST_DIS) x) ts).1

/-- An accepted change of one input, with no other use of the channel, changes the channel alone. -/
theorem encCount_one {first run : Nat} (hrun : 2 * c.get F.POS_ENC_CFG_SIEVE_N x ≤ run) (hen : c.on F.POS_ENC_CFG_EN x = true)
    (hact : c.get F.POS_ENC_STAT_WIRE_ACT x = 0)
    (h : (c.enc x).a ≠ a ∧ (c.enc x).b = b ∨ (c.enc x).a = a ∧ (c.enc x).b ≠ b) (halone : EncAlone c x) :
    c.encCount x a b first run = c.setEnc x (c.counted x a b (stamp first (c.get F.POS_RXDLY_ENC_DLY))) := by
  have haccept : sieveAccepts (c.get F.POS_ENC_CFG_SIEVE_N x) run = true := by simp [sieveAccepts, hrun]
  simp only [Chip.encCount, haccept, encLevels_one hen hact h, Bool.not_true, Bool.false_eq_true, if_false]
  rw [← Chip.counted]
  have hafter := halone.setEnc (c.counted x a b (stamp first (c.get F.POS_RXDLY_ENC_DLY)))
  simp only [hafter.thrStep, hafter.cmpFollow, hafter.encMoved, hafter.trkMoved, hafter.encoFollow, ite_self]

/-- An accepted change of both inputs. -/
theorem encCount_both {first run : Nat} (hrun : 2 * c.get F.POS_ENC_CFG_SIEVE_N x ≤ run) (hen : c.on F.POS_ENC_CFG_EN x = true)
    (hact : c.get F.POS_ENC_STAT_WIRE_ACT x = 0) (ha : (c.enc x).a ≠ a) (hb : (c.enc x).b ≠ b) :
    c.encCount x a b first run = ((c.setEnc x { c.enc x with a := a, b := b }).set F.POS_ENC_STAT_QUAD_ERR 1 x).emit 0x0902 := by
  have haccept : sieveAccepts (c.get F.POS_ENC_CFG_SIEVE_N x) run = true := by simp [sieveAccepts, hrun]
  have hlevels : (((c.setEnc x { c.enc x with a := a, b := b }).set F.POS_ENC_STAT_QUAD_ERR 1 x).emit 0x0902).enc x =
      { c.enc x with a := a, b := b } := by rw [Chip.enc_emit, Chip.enc_set, Chip.enc_setEnc_same]
  have hneither : (((c.enc x).a != a) != ((c.enc x).b != b)) = false := by simp [bne_iff_ne.mpr ha, bne_iff_ne.mpr hb]
  simp only [Chip.encCount, haccept, encLevels_both hen hact ha hb, hlevels, hneither, Bool.not_true, Bool.false_eq_true, if_false, if_true]

/-! ### The index (R67, R68) -/

/-- The first index edge in the direction of travel sets the reference. -/
theorem indexEdge_first {level : Bool} (hen : c.on F.POS_ENC_CFG_EN x = true) (hcpr : c.get F.POS_ENC_CPR_CPR x ≠ 0)
    (hact : bitAt (c.get F.POS_ENC_STAT_WIRE_ACT x) 2 = false) (hz : (c.enc x).z ≠ level)
    (hdir : (c.enc x).dir = some (level != c.on F.POS_ENC_CFG_Z_POL x)) (href : (c.enc x).ref = none)
    (hsrc : c.get F.POS_ENCO_CFG_SRC ≠ x.val) :
    c.indexEdge x level = c.setEnc x { c.enc x with z := level, ref := some (c.enc x).pos, base := (c.enc x).pos } := by
  have hopen : ¬ (bitAt (c.get F.POS_ENC_STAT_WIRE_ACT x) 2 = true ∨ (c.enc x).z = level ∨ (!c.on F.POS_ENC_CFG_EN x) = true) := by
    simp [hact, hz, hen]
  have hon : (c.setEnc x { c.enc x with z := level }).indexOn x = true := by
    simp [Chip.indexOn, hen, hcpr, hact]
  have hno : ¬ ((c.enc x).dir = some (level != c.on F.POS_ENC_CFG_Z_POL x) ∧ c.get F.POS_ENCO_CFG_SRC = x.val) := fun h => hsrc h.2
  simp only [Chip.indexEdge, if_neg hopen, Chip.setEnc_on, Chip.setEnc_get, hno, if_false, hon, and_true]
  rw [if_pos hdir]
  simp only [Chip.enc_setEnc_same, href, Chip.setEnc_setEnc]

/-! ### The wires (R72 to R75) -/

theorem encStat_places : F.POS_ENC_STAT_WIRE_ACT.at x 0 = F.POS_ENC_STAT_WIRE.at x 0 ∧
    F.POS_ENC_STAT_ENC_FAULT.at x 0 = F.POS_ENC_STAT_WIRE.at x 0 ∧ F.POS_ENC_STAT_FC_WIRE.at x 0 = F.POS_ENC_STAT_WIRE.at x 0 :=
  ⟨rfl, rfl, rfl⟩

/-- A wire fault is a cause of ENC_FAULT. -/
theorem encFault_wire : c.encFault x 2 = ((c.set F.POS_ENC_STAT_ENC_FAULT 1 x).set F.POS_ENC_STAT_FC_WIRE 1 x).emit 0x0906 [(1, x.val), (1, 2)] := by
  have h0 : bitAt 2 0 = false := by decide
  have h1 : bitAt 2 1 = true := by decide
  have h2 : bitAt 2 2 = false := by decide
  simp only [Chip.encFault, h0, h1, h2, Bool.false_eq_true, if_false, if_true]

/-- The bits and the event of a wire fault. -/
def Chip.wireMarked (c : Chip) (x : Fin 2) (sig : Fin 3) : Chip :=
  ((c.orBits F.POS_ENC_STAT_WIRE (2 ^ sig.val) x).orBits F.POS_ENC_STAT_WIRE_ACT (2 ^ sig.val) x).emit 0x0901 [(1, x.val), (1, sig.val)]

theorem wireFault_on (hen : c.on F.POS_ENC_CFG_EN x = true) (sig : Fin 3) :
    c.wireFault x sig = if sig.val < 2 then (c.wireMarked x sig).encFault x 2 else c.wireMarked x sig := by
  simp only [Chip.wireFault, hen, Bool.not_true, Bool.false_eq_true, if_false]
  rfl

theorem wireFault_off (hen : c.on F.POS_ENC_CFG_EN x = false) (sig : Fin 3) : c.wireFault x sig = c := by
  simp [Chip.wireFault, hen]

theorem Chip.only_wireMarked (c : Chip) (x : Fin 2) (sig : Fin 3) : c.Only [.ev] {F.POS_ENC_STAT_WIRE.at x 0} (c.wireMarked x sig) :=
  .emit (.orBits (.orBits (.refl _ _ c) rfl) rfl) (by simp)

theorem Chip.only_encFault_wire (c : Chip) (x : Fin 2) : c.Only [.ev] {F.POS_ENC_STAT_WIRE.at x 0} (c.encFault x 2) := by
  rw [encFault_wire]
  exact .emit (.set (.set (.refl _ _ c) rfl) rfl) (by simp)

theorem Chip.only_wireFault (hen : c.on F.POS_ENC_CFG_EN x = true) (sig : Fin 3) :
    c.Only [.ev] {F.POS_ENC_STAT_WIRE.at x 0} (c.wireFault x sig) := by
  rw [wireFault_on hen]
  exact Chip.only_ite ((c.only_wireMarked x sig).trans (Chip.only_encFault_wire _ x)) (c.only_wireMarked x sig)

/-- A bit of a three-bit mask that is set in it. -/
theorem bitAt_or_two_pow (n : Nat) (sig : Fin 3) : bitAt ((n ||| 2 ^ sig.val) % 2 ^ 3) sig = true := by
  rw [bitAt_mod _ _ _ sig.isLt, bitAt_eq_testBit]
  simp

/-- A wire fault freezes its signal: both bits of the signal are set. -/
theorem wireMarked_bits (sig : Fin 3) : bitAt ((c.wireMarked x sig).get F.POS_ENC_STAT_WIRE x) sig = true ∧
    bitAt ((c.wireMarked x sig).get F.POS_ENC_STAT_WIRE_ACT x) sig = true := by
  have hlatched := Chip.get_orBits_same c F.POS_ENC_STAT_WIRE (2 ^ sig.val) x 0 (by decide) (by decide)
  have hlive := Chip.get_orBits_same (c.orBits F.POS_ENC_STAT_WIRE (2 ^ sig.val) x) F.POS_ENC_STAT_WIRE_ACT (2 ^ sig.val) x 0 (by decide) (by decide)
  have hbeside := Chip.get_set_beside (c.orBits F.POS_ENC_STAT_WIRE (2 ^ sig.val) x) F.POS_ENC_STAT_WIRE_ACT F.POS_ENC_STAT_WIRE
    ((c.orBits F.POS_ENC_STAT_WIRE (2 ^ sig.val) x).get F.POS_ENC_STAT_WIRE_ACT x ||| 2 ^ sig.val) x 0 x 0 rfl (by decide) (by decide) (by decide)
  rw [Chip.wireMarked, Chip.emit_get, Chip.emit_get, hlive]
  refine ⟨?_, bitAt_or_two_pow _ sig⟩
  rw [Chip.orBits, hbeside, hlatched]
  exact bitAt_or_two_pow _ sig

/-- ENC_FAULT and its cause are set beside the bits of the wires. -/
theorem encFault_wire_get {q : Place} (hat : q.at x 0 = F.POS_ENC_STAT_FC_WIRE.at x 0) (hcause : 21 < q.lo ∨ q.hi < 21)
    (hfault : 16 < q.lo ∨ q.hi < 16) : (c.encFault x 2).get q x = c.get q x := by
  rw [encFault_wire, Chip.emit_get, Chip.get_set_beside _ F.POS_ENC_STAT_FC_WIRE q _ _ _ _ _ hat (by decide) (by decide) hcause,
    Chip.get_set_beside _ F.POS_ENC_STAT_ENC_FAULT q _ _ _ _ _ hat (by decide) (by decide) hfault]

theorem encFault_wire_bits :
    (c.encFault x 2).on F.POS_ENC_STAT_ENC_FAULT x = true ∧ (c.encFault x 2).on F.POS_ENC_STAT_FC_WIRE x = true := by
  have hbeside := Chip.get_set_beside (c.set F.POS_ENC_STAT_ENC_FAULT 1 x) F.POS_ENC_STAT_FC_WIRE F.POS_ENC_STAT_ENC_FAULT 1 x 0 x 0 rfl
    (by decide) (by decide) (by decide)
  have hfault := Chip.get_set_same c F.POS_ENC_STAT_ENC_FAULT 1 x 0 (by decide) (by decide)
  have hcause := Chip.get_set_same (c.set F.POS_ENC_STAT_ENC_FAULT 1 x) F.POS_ENC_STAT_FC_WIRE 1 x 0 (by decide) (by decide)
  rw [encFault_wire, Chip.emit_on, Chip.emit_on, Chip.on, Chip.on, hbeside, hfault, hcause]
  decide

/-- A wire of A or B freezes its signal and raises ENC_FAULT with it. -/
theorem wireFault_bits (hen : c.on F.POS_ENC_CFG_EN x = true) (sig : Fin 3) :
    bitAt ((c.wireFault x sig).get F.POS_ENC_STAT_WIRE x) sig = true ∧ bitAt ((c.wireFault x sig).get F.POS_ENC_STAT_WIRE_ACT x) sig = true ∧
      (sig.val < 2 → (c.wireFault x sig).on F.POS_ENC_STAT_ENC_FAULT x = true ∧ (c.wireFault x sig).on F.POS_ENC_STAT_FC_WIRE x = true) := by
  obtain ⟨hlatched, hlive⟩ := wireMarked_bits (c := c) (x := x) sig
  rw [wireFault_on hen]
  by_cases h : sig.val < 2
  · rw [if_pos h, encFault_wire_get (q := F.POS_ENC_STAT_WIRE) rfl (by decide) (by decide),
      encFault_wire_get (q := F.POS_ENC_STAT_WIRE_ACT) rfl (by decide) (by decide)]
    exact ⟨hlatched, hlive, fun _ => encFault_wire_bits⟩
  · rw [if_neg h]
    exact ⟨hlatched, hlive, fun h' => absurd h' h⟩

/-- A field of ENC_STAT apart, SYS_ISL_STAT stays. -/
theorem timeStat_ne_encStat : ∀ x : Fin 2, F.SYS_ISL_STAT_TIME_VALID.addr ≠ F.POS_ENC_STAT_WIRE.at x 0 := by decide

theorem Chip.wireMarked_raised (c : Chip) (x : Fin 2) (sig : Fin 3) : c.Raised (c.wireMarked x sig) [(0x0901, [(1, x.val), (1, sig.val)])] := by
  have hbits : c.Only [] {F.POS_ENC_STAT_WIRE.at x 0}
      ((c.orBits F.POS_ENC_STAT_WIRE (2 ^ sig.val) x).orBits F.POS_ENC_STAT_WIRE_ACT (2 ^ sig.val) x) :=
    .orBits (.orBits (.refl _ _ c) rfl) rfl
  exact Chip.raised_emit _ _ rfl rfl (hbits.2 _ (timeStat_ne_encStat x))

/-- The events of a wire fault, in their order. -/
theorem wireFault_raised (hen : c.on F.POS_ENC_CFG_EN x = true) (sig : Fin 3) :
    (sig.val < 2 → c.Raised (c.wireFault x sig) [(0x0901, [(1, x.val), (1, sig.val)]), (0x0906, [(1, x.val), (1, 2)])]) ∧
      (sig.val = 2 → c.Raised (c.wireFault x sig) [(0x0901, [(1, x.val), (1, sig.val)])]) := by
  have hmarked := c.wireMarked_raised x sig
  have hstat := timeStat_ne_encStat x
  rw [wireFault_on hen]
  refine ⟨fun h => ?_, fun h => ?_⟩
  · have honly : c.Only [.ev] {F.POS_ENC_STAT_WIRE.at x 0}
        (((c.wireMarked x sig).set F.POS_ENC_STAT_ENC_FAULT 1 x).set F.POS_ENC_STAT_FC_WIRE 1 x) :=
      .set (.set (c.only_wireMarked x sig) rfl) rfl
    rw [if_pos h, encFault_wire]
    exact hmarked.then_emit (by simp only [Chip.set_leaves]) (honly.1 .now (by simp)) (honly.2 _ hstat)
  · rw [if_neg (by omega)]
    exact hmarked

/-- The wires of a pair differ again: the live bit clears; a restored Z waits for its next index. -/
theorem wireRestored_spec (c : Chip) (x : Fin 2) (sig : Fin 3) :
    c.Only [.pos] {F.POS_ENC_STAT_WIRE_ACT.at x 0} (c.wireRestored x sig) ∧
      bitAt ((c.wireRestored x sig).get F.POS_ENC_STAT_WIRE_ACT x) sig = false ∧
      (sig.val < 2 → (c.wireRestored x sig).pos = c.pos) ∧
      (sig.val = 2 → (c.wireRestored x sig).pos = (c.setEnc x { c.enc x with ref := none, mismatch := 0, base := (c.enc x).pos }).pos) := by
  have hlive : bitAt ((c.set F.POS_ENC_STAT_WIRE_ACT (putBit (c.get F.POS_ENC_STAT_WIRE_ACT x) sig false) x).get F.POS_ENC_STAT_WIRE_ACT x) sig =
      false := by
    rw [Chip.get_set_same _ _ _ _ _ (by decide) (by decide)]
    exact (bitAt_mod _ 3 _ sig.isLt).trans (by simp [bitAt_putBit])
  have honly : c.Only [.pos] {F.POS_ENC_STAT_WIRE_ACT.at x 0}
      (c.set F.POS_ENC_STAT_WIRE_ACT (putBit (c.get F.POS_ENC_STAT_WIRE_ACT x) sig false) x) := .set (.refl _ _ c) rfl
  unfold Chip.wireRestored
  dsimp only
  split
  · rename_i h
    exact ⟨.setEnc honly (by simp), hlive, fun h' => by omega, fun _ => rfl⟩
  · rename_i h
    exact ⟨honly, hlive, fun _ => rfl, fun h' => absurd h' h⟩

/-! ### What TRK makes of a change in POS_ENCx_STAT (R117) -/

theorem trkCtrl_ne_encStat : ∀ x : Fin 2, F.TRK_CTRL_EN.addr ≠ F.POS_ENC_STAT_WIRE.at x 0 := by decide

/-- What changes POS_ENCx_STAT alone leaves TRK off. -/
theorem Chip.Only.trkOn_encStat (h : c.Only ps {F.POS_ENC_STAT_WIRE.at x 0} d) : d.trkOn = c.trkOn := by
  exact h.on (fun hin => absurd hin (trkCtrl_ne_encStat x))

/-- What TRK makes of its inputs leaves the fields of POS_ENCx_STAT. -/
theorem Chip.Only.encStat (h : c.Only ps (blockRegsSet 0x0A) d) (q : Place) (hat : q.at x 0 = R.POS_ENC_STAT.at x 0) : d.get q x = c.get q x := by
  have hblock : ∀ y : Fin 2, R.POS_ENC_STAT.at y 0 < 0x10000000 + 0x0A * 0x10000 := by decide
  exact h.get fun hin => absurd (hat ▸ hin.1) (Nat.not_le.mpr (hblock x))

/-! ### Writes of POS_ENCx_CFG and POS_ENCx_STAT (R66, R76) -/

/-- POS_ENCx_CFG and POS_ENCx_STAT in the register map. -/
def posEncCfg : RegDef :=
  ⟨0x010, 0x30, 2, 0, 1, 0x20804, [fd 23 16 .rw, fr 15 8 .rw 1 255 false, fd 3 3 .rw, fd 2 2 .rw, fd 1 1 .rw, fd 0 0 .rw]⟩
def posEncStat : RegDef := ⟨0x028, 0x30, 2, 0, 1, 0x0, [fd 17 17 .w1c, fd 16 16 .w1c, fd 2 0 .w1c]⟩

theorem isPosReg_encCfg : isPosReg R.POS_ENC_CFG posEncCfg 2 = true := by decide +kernel
theorem isPosReg_encStat : isPosReg R.POS_ENC_STAT posEncStat 2 = true := by decide +kernel

theorem writePos_encCfg {addr : Nat} : Chip.writePos i addr posEncCfg x w c =
    let d := c.plain addr posEncCfg w
    if d.on F.POS_ENC_CFG_EN x && !c.on F.POS_ENC_CFG_EN x then d.encEnabled x else d := by
  have hx : Fin.ofNat 2 x.val = x := Fin.ofNat_val_eq_self x
  have hself : posEncCfg.is R.POS_ENC_CFG = true := rfl
  simp only [Chip.writePos, hself, if_true, hx]

theorem writePos_encStat {addr : Nat} : Chip.writePos i addr posEncStat x w c =
    let d := c.plain addr posEncStat w
    if fld F.POS_ENC_STAT_ENC_FAULT w = 1 then d.encFaultClear x else d := by
  have hx : Fin.ofNat 2 x.val = x := Fin.ofNat_val_eq_self x
  have hself : posEncStat.is R.POS_ENC_STAT = true := rfl
  have hothers : posEncStat.is R.POS_ENC_CFG = false ∧ posEncStat.is R.POS_ENC_CPR = false := ⟨rfl, rfl⟩
  simp only [Chip.writePos, hself, hothers, if_true, Bool.false_eq_true, if_false, hx]

/-- Enabling a channel starts it at position 0. -/
theorem encCfg_enables (hoff : c.on F.POS_ENC_CFG_EN x = false) (hfld : fld F.POS_ENC_CFG_EN w = 1) (hcal : c.calBusy = false)
    (hsw : c.switchState = 0) :
    c.Only [.pos] {R.POS_ENC_CFG.at x 0, F.POS_REJ_CNT_COUNT.addr} (Chip.writePos i (R.POS_ENC_CFG.at x 0) posEncCfg x w c) ∧
      (Chip.writePos i (R.POS_ENC_CFG.at x 0) posEncCfg x w c).on F.POS_ENC_CFG_EN x = true ∧
      (Chip.writePos i (R.POS_ENC_CFG.at x 0) posEncCfg x w c).pos =
        (c.setEnc x { c.enc x with pos := 0, dir := none, held := false, ref := none, base := 0, mismatch := 0 }).pos := by
  obtain ⟨-, -, hblock, -⟩ := isPosReg_spec isPosReg_encCfg x
  have hplain : c.Only [] {R.POS_ENC_CFG.at x 0, F.POS_REJ_CNT_COUNT.addr} (c.plain (R.POS_ENC_CFG.at x 0) posEncCfg w) :=
    Chip.only_plain_pos hblock
  have hen : (c.plain (R.POS_ENC_CFG.at x 0) posEncCfg w).on F.POS_ENC_CFG_EN x = true := by
    rw [Chip.on, get_plain_pos_rw (q := F.POS_ENC_CFG_EN) (mn := 0) (mx := 1) (sh := false) isPosReg_encCfg (by decide) rfl hcal hsw (by omega)
      (by omega), hfld]
    rfl
  have hpos : (c.plain (R.POS_ENC_CFG.at x 0) posEncCfg w).pos = c.pos := plain_keeps_pos hblock
  rw [writePos_encCfg]
  generalize c.plain (R.POS_ENC_CFG.at x 0) posEncCfg w = d at hplain hen hpos
  simp only [hen, hoff, Bool.not_false, Bool.and_self, if_true]
  refine ⟨.setEnc (hplain.mono (by simp) subset_rfl) (by simp), hen, ?_⟩
  simp only [Chip.encEnabled, Chip.setEnc, Chip.enc, hpos]

/-- A write of W1C fields alone is never counted. -/
theorem plain_encStat : c.plain (R.POS_ENC_STAT.at x 0) posEncStat w =
    c.setWord (R.POS_ENC_STAT.at x 0) (BitVec.ofNat 32 (c.plainWord (R.POS_ENC_STAT.at x 0) posEncStat w)) := by
  obtain ⟨-, -, hblock, -⟩ := isPosReg_spec isPosReg_encStat x
  refine plain_of_taken (by omega) (List.any_eq_false.mpr fun f hf => ?_)
  have hw1c : f.acc = .w1c := by
    simp only [posEncStat, List.mem_cons, List.not_mem_nil, or_false] at hf
    rcases hf with rfl | rfl | rfl <;> rfl
  simp [Chip.ignoresField, hw1c]

/-- A plain write of POS_ENCx_STAT clears ENC_FAULT where the word has a one in it. -/
theorem plain_encStat_clears (hfld : fld F.POS_ENC_STAT_ENC_FAULT w = 1) :
    (c.plain (R.POS_ENC_STAT.at x 0) posEncStat w).on F.POS_ENC_STAT_ENC_FAULT x = false := by
  have hclears : c.get F.POS_ENC_STAT_ENC_FAULT x - (c.get F.POS_ENC_STAT_ENC_FAULT x &&& 1) = 0 := by
    have hlt : c.get F.POS_ENC_STAT_ENC_FAULT x < 2 := c.get_lt F.POS_ENC_STAT_ENC_FAULT x 0
    interval_cases c.get F.POS_ENC_STAT_ENC_FAULT x <;> rfl
  have hget := get_plain_pos (c := c) (w := w) (k := x) (q := F.POS_ENC_STAT_ENC_FAULT) (f := fd 16 16 .w1c) isPosReg_encStat (by decide) rfl rfl rfl
  have hafter : c.fieldAfter (R.POS_ENC_STAT.at x 0) w (fd 16 16 .w1c) (c.get F.POS_ENC_STAT_ENC_FAULT x) =
      c.get F.POS_ENC_STAT_ENC_FAULT x - (c.get F.POS_ENC_STAT_ENC_FAULT x &&& fld F.POS_ENC_STAT_ENC_FAULT w) := rfl
  rw [Chip.on, hget, hafter, hfld, hclears]
  rfl

/-- The live bits of the wires are not software's to write. -/
theorem plain_encStat_wireAct : (c.plain (R.POS_ENC_STAT.at x 0) posEncStat w).get F.POS_ENC_STAT_WIRE_ACT x = c.get F.POS_ENC_STAT_WIRE_ACT x :=
  get_plain_pos_apart isPosReg_encStat rfl (by decide)

/-- The causes of ENC_FAULT clear. -/
def Chip.causesCleared (c : Chip) (x : Fin 2) : Chip :=
  ((c.set F.POS_ENC_STAT_FC_INDEX 0 x).set F.POS_ENC_STAT_FC_WIRE 0 x).set F.POS_ENC_STAT_FC_HALL 0 x

theorem Chip.only_causesCleared (c : Chip) (x : Fin 2) : c.Only [] {R.POS_ENC_STAT.at x 0} (c.causesCleared x) :=
  .set (.set (.set (.refl _ _ c) rfl) rfl) rfl

/-- A field of the register apart from the causes stays. -/
theorem causesCleared_get {q : Place} (hat : q.at x 0 = R.POS_ENC_STAT.at x 0) (hd : q.hi < 20 ∨ 22 < q.lo) :
    (c.causesCleared x).get q x = c.get q x := by
  have hindex : F.POS_ENC_STAT_FC_INDEX.hi < q.lo ∨ q.hi < F.POS_ENC_STAT_FC_INDEX.lo := by simp only [F.POS_ENC_STAT_FC_INDEX]; omega
  have hwire : F.POS_ENC_STAT_FC_WIRE.hi < q.lo ∨ q.hi < F.POS_ENC_STAT_FC_WIRE.lo := by simp only [F.POS_ENC_STAT_FC_WIRE]; omega
  have hhall : F.POS_ENC_STAT_FC_HALL.hi < q.lo ∨ q.hi < F.POS_ENC_STAT_FC_HALL.lo := by simp only [F.POS_ENC_STAT_FC_HALL]; omega
  rw [Chip.causesCleared, Chip.get_set_beside _ F.POS_ENC_STAT_FC_HALL q _ _ _ _ _ hat (by decide) (by decide) hhall,
    Chip.get_set_beside _ F.POS_ENC_STAT_FC_WIRE q _ _ _ _ _ hat (by decide) (by decide) hwire,
    Chip.get_set_beside _ F.POS_ENC_STAT_FC_INDEX q _ _ _ _ _ hat (by decide) (by decide) hindex]

theorem causesCleared_off : (c.causesCleared x).on F.POS_ENC_STAT_FC_INDEX x = false ∧ (c.causesCleared x).on F.POS_ENC_STAT_FC_WIRE x = false ∧
    (c.causesCleared x).on F.POS_ENC_STAT_FC_HALL x = false := by
  have hindex := Chip.get_set_same c F.POS_ENC_STAT_FC_INDEX 0 x 0 (by decide) (by decide)
  have hwire := Chip.get_set_same (c.set F.POS_ENC_STAT_FC_INDEX 0 x) F.POS_ENC_STAT_FC_WIRE 0 x 0 (by decide) (by decide)
  have hhall := Chip.get_set_same ((c.set F.POS_ENC_STAT_FC_INDEX 0 x).set F.POS_ENC_STAT_FC_WIRE 0 x) F.POS_ENC_STAT_FC_HALL 0 x 0
    (by decide) (by decide)
  have hindexWire := Chip.get_set_beside (c.set F.POS_ENC_STAT_FC_INDEX 0 x) F.POS_ENC_STAT_FC_WIRE F.POS_ENC_STAT_FC_INDEX 0 x 0 x 0 rfl
    (by decide) (by decide) (by decide)
  have hpast : ∀ q : Place, q.at x 0 = F.POS_ENC_STAT_FC_HALL.at x 0 → q.hi < F.POS_ENC_STAT_FC_HALL.lo →
      (c.causesCleared x).get q x = ((c.set F.POS_ENC_STAT_FC_INDEX 0 x).set F.POS_ENC_STAT_FC_WIRE 0 x).get q x :=
    fun q hq hd => Chip.get_set_beside _ F.POS_ENC_STAT_FC_HALL q _ _ _ _ _ hq (by decide) (by decide) (.inr hd)
  rw [Chip.on, Chip.on, Chip.on, hpast F.POS_ENC_STAT_FC_INDEX rfl (by decide), hpast F.POS_ENC_STAT_FC_WIRE rfl (by decide), Chip.causesCleared,
    hindexWire, hindex, hwire, hhall]
  decide

/-- With no wire of A or B at fault the write clears the causes and the mismatches. -/
theorem encFaultClear_clears (hact : c.get F.POS_ENC_STAT_WIRE_ACT x % 4 = 0) :
    c.encFaultClear x = (c.setEnc x { c.enc x with mismatch := 0 }).causesCleared x := by
  have hlive : ((c.setEnc x { c.enc x with mismatch := 0 }).causesCleared x).get F.POS_ENC_STAT_WIRE_ACT x % 4 = 0 := by
    rw [causesCleared_get (q := F.POS_ENC_STAT_WIRE_ACT) rfl (by decide), Chip.setEnc_get, hact]
  unfold Chip.causesCleared at hlive
  simp only [Chip.encFaultClear, hlive, bne_self_eq_false, Bool.false_eq_true, false_and, if_false]
  rfl

/-- A write of 1 to ENC_FAULT. -/
theorem encStat_write_clears (hfld : fld F.POS_ENC_STAT_ENC_FAULT w = 1) (hact : c.get F.POS_ENC_STAT_WIRE_ACT x % 4 = 0) :
    Chip.writePos i (R.POS_ENC_STAT.at x 0) posEncStat x w c =
      ((c.plain (R.POS_ENC_STAT.at x 0) posEncStat w).setEnc x { c.enc x with mismatch := 0 }).causesCleared x := by
  obtain ⟨-, -, hblock, -⟩ := isPosReg_spec isPosReg_encStat x
  have henc : (c.plain (R.POS_ENC_STAT.at x 0) posEncStat w).enc x = c.enc x := Chip.enc_congr (plain_keeps_pos hblock) x
  rw [writePos_encStat]
  simp only [hfld, if_true]
  rw [encFaultClear_clears (by rw [plain_encStat_wireAct, hact]), henc]

/-- A write of 1 to ENC_FAULT clears ENC_FAULT, its causes and the mismatches, and nothing else. -/
theorem encStat_clears (hfld : fld F.POS_ENC_STAT_ENC_FAULT w = 1) (hact : c.get F.POS_ENC_STAT_WIRE_ACT x % 4 = 0) :
    let d := Chip.writePos i (R.POS_ENC_STAT.at x 0) posEncStat x w c
    c.Only [.pos] {R.POS_ENC_STAT.at x 0} d ∧ d.on F.POS_ENC_STAT_ENC_FAULT x = false ∧
      (d.on F.POS_ENC_STAT_FC_INDEX x = false ∧ d.on F.POS_ENC_STAT_FC_WIRE x = false ∧ d.on F.POS_ENC_STAT_FC_HALL x = false) ∧
      d.pos = (c.setEnc x { c.enc x with mismatch := 0 }).pos := by
  have hstored : c.Only [] {R.POS_ENC_STAT.at x 0} (c.plain (R.POS_ENC_STAT.at x 0) posEncStat w) := by
    rw [plain_encStat]
    exact .setWord (.refl _ _ _) rfl
  have hfault := plain_encStat_clears (c := c) (x := x) hfld
  have hpos := hstored.1 .pos (by simp)
  rw [encStat_write_clears hfld hact]
  generalize c.plain (R.POS_ENC_STAT.at x 0) posEncStat w = d at hstored hfault hpos
  have hcleared := (d.setEnc x { c.enc x with mismatch := 0 }).only_causesCleared x
  refine ⟨((hstored.mono (by simp) subset_rfl).setEnc (by simp)).trans (hcleared.mono (by simp) subset_rfl), ?_, causesCleared_off, ?_⟩
  · rwa [Chip.on, causesCleared_get (q := F.POS_ENC_STAT_ENC_FAULT) rfl (by decide)]
  · rw [show _ = _ from hcleared.1 .pos (by simp), Chip.setEnc, show _ = _ from hpos]
    rfl

end Sys2Proof.Machine
end

section
namespace Sys2Proof.Proofs
open Sys2Proof.Machine

/-- Settles O9: a count comes to `EncSt.count` on its channel alone, the other clauses to one operation of the channel each. -/
theorem encoderChannels : Obligations.EncoderChannels := by
  unfold Obligations.EncoderChannels
  refine ⟨?_, ?_, ?_, ?_, ?_, ?_, ?_, ?_⟩
  · intro t x a b first run fwd s hup hrun hen hact hone hcpr hhall hmark0 hmark1 henco htrk hthr hout hfwd
    have hmark : ∀ y : Fin 2, s.chip.on F.POS_MARK_CFG_EN y = false := Fin.forall_fin_two.mpr ⟨hmark0, hmark1⟩
    have halone : EncAlone (s.chip.at t) x := ⟨hcpr, hhall, hmark, henco, htrk, hthr, hout⟩
    have hcounted := encCount_one (c := s.chip.at t) (first := first) hrun hen hact hone halone
    obtain ⟨ha, hb⟩ := EncSt.count_levels { s.chip.enc x with a := a, b := b } fwd (bitAt (s.chip.get F.POS_XCFG_HYST_DIS) x)
      (stamp first (s.chip.get F.POS_RXDLY_ENC_DLY))
    refine ⟨{ s with chip := _ }, runChip_inIsland_eq hup hcounted,
      leaves_of_only (.setEnc (.refl _ _ _) (by simp)), rfl, fun y hy => Chip.enc_setEnc_other _ hy _, ?_⟩
    have hnew : (s.chip.at t).counted x a b (stamp first ((s.chip.at t).get F.POS_RXDLY_ENC_DLY)) =
        (({ s.chip.enc x with a := a, b := b } : EncSt).count fwd (bitAt (s.chip.get F.POS_XCFG_HYST_DIS) x)
          (stamp first (s.chip.get F.POS_RXDLY_ENC_DLY))).1 := by rw [hfwd]; rfl
    rw [Chip.enc_setEnc_same, hnew]
    refine ⟨ha, hb, fun hheld hdir => ?_, fun hheld hdir hdis => ?_, fun hheld hdir => ?_, fun hheld hdir => ?_⟩
    · rw [EncSt.count_applied (e := { s.chip.enc x with a := a, b := b }) hheld hdir]
      exact ⟨rfl, hheld, rfl, rfl⟩
    · rw [EncSt.count_reversal_held (e := { s.chip.enc x with a := a, b := b }) hheld hdir hdis]
      exact ⟨rfl, rfl, hdir⟩
    · rw [EncSt.count_held_cancels (e := { s.chip.enc x with a := a, b := b }) hheld hdir]
      exact ⟨rfl, rfl⟩
    · rw [EncSt.count_held_doubles (e := { s.chip.enc x with a := a, b := b }) hheld hdir]
      exact ⟨rfl, rfl, rfl⟩
  · intro t x a b first run s hup hrun hen hact ha hb
    have hcount := encCount_both (c := s.chip.at t) (first := first) hrun hen hact ha hb
    refine ⟨{ s with chip := _ }, runChip_inIsland_eq hup hcount,
      leaves_of_only ?_, rfl, ?_, ?_⟩
    · exact .emit (.set (.setEnc (.refl _ _ _) (by simp)) rfl) (by simp)
    · rw [Chip.emit_on, Chip.on, Chip.get_set_same _ _ _ _ _ (by decide) (by decide)]
      decide
    · exact Chip.raised_emit _ _ rfl rfl (Chip.word_set_other _ _ _ _ _ (timeStat_ne_encStat x))
  · intro t x level run s hup hrun hen hcpr hact hz hdir href hsrc htrk
    have hedge := indexEdge_first (c := s.chip.at t) hen hcpr hact hz hdir href hsrc
    have haccept : sieveAccepts ((s.chip.at t).get F.POS_ENC_CFG_SIEVE_N x) run = true := decide_eq_true hrun
    have hserved := Chip.only_serveTrk_off (c := (s.chip.at t).indexEdge x level) (by rw [hedge]; exact htrk)
    have hrun' : (if sieveAccepts ((s.chip.at t).get F.POS_ENC_CFG_SIEVE_N x) run then ((s.chip.at t).indexEdge x level).serveTrk
        else s.chip.at t) = ((s.chip.at t).indexEdge x level).serveTrk := by rw [haccept, if_pos rfl]
    refine ⟨_, runChip_inIsland_eq hup hrun', leaves_of_only ?_, ?_⟩
    · refine .trans ?_ (hserved.mono (by simp) subset_rfl)
      rw [hedge]
      exact .setEnc (.refl _ _ _) (by simp)
    · rw [show _ = _ from hserved.1 .pos (by simp), hedge]
      rfl
  · intro t x sig s htrk hoff
    have honly : (s.chip.at t).Only [.trk] (blockRegsSet 0x0A) (inIsland 6 (fun (c : Chip) => (c.wireFault x sig).serveTrk) (s.chip.at t)) := by
      unfold inIsland
      refine Chip.only_ite ?_ (.refl _ _ _)
      dsimp only
      rw [wireFault_off (c := s.chip.at t) hoff]
      exact Chip.only_serveTrk_off (c := s.chip.at t) htrk
    exact ⟨_, rfl, leaves_of_only honly⟩
  · intro t x sig s hup htrk hen
    have hfault := Chip.only_wireFault (c := s.chip.at t) hen sig
    have hserved := Chip.only_serveTrk_off (hfault.trkOn_encStat.trans htrk)
    obtain ⟨hlatched, hlive, hcauses⟩ := wireFault_bits (c := s.chip.at t) hen sig
    obtain ⟨htwo, hone⟩ := wireFault_raised (c := s.chip.at t) hen sig
    have hev := hserved.1 .ev (by simp)
    refine ⟨_, runChip_inIsland hup, leaves_of_only (hfault.serveTrk_off (hfault.trkOn_encStat.trans htrk)), ?_, ?_, fun hab => ?_, fun hz => ?_⟩
    · exact (congrArg (bitAt · sig.val) (hserved.encStat F.POS_ENC_STAT_WIRE rfl)).trans hlatched
    · exact (congrArg (bitAt · sig.val) (hserved.encStat F.POS_ENC_STAT_WIRE_ACT rfl)).trans hlive
    · obtain ⟨hfaultBit, hcause⟩ := hcauses hab
      exact ⟨(congrArg (· != 0) (hserved.encStat F.POS_ENC_STAT_ENC_FAULT rfl)).trans hfaultBit,
        (congrArg (· != 0) (hserved.encStat F.POS_ENC_STAT_FC_WIRE rfl)).trans hcause, hev.trans (htwo hab)⟩
    · exact hev.trans (hone hz)
  · intro t x sig s hup htrk
    obtain ⟨honly, hlive, hab, hz⟩ := wireRestored_spec (s.chip.at t) x sig
    have hoff := honly.trkOn_encStat.trans htrk
    have hserved := Chip.only_serveTrk_off hoff
    have hpos := hserved.1 .pos (by simp)
    refine ⟨_, runChip_inIsland hup, leaves_of_only (honly.serveTrk_off hoff), ?_, fun h => hpos.trans (hab h), fun h => hpos.trans (hz h)⟩
    exact (congrArg (bitAt · sig.val) (hserved.encStat F.POS_ENC_STAT_WIRE_ACT rfl)).trans hlive
  · intro t i x w s hmay hoff hsw hcal
    have hfld := fld_withField (p := F.POS_ENC_CFG_EN) (by decide) (by decide) 1 w
    obtain ⟨honly, hen, hpos⟩ := encCfg_enables (c := s.chip.wrote t i (R.POS_ENC_CFG.at x 0)) (i := i) hoff hfld hcal hsw
    exact ⟨_, posWrite_taken isPosReg_encCfg hmay, writeLeaves_of_only honly (by simp) (by simp), hen, hpos⟩
  · intro t i x w s hmay hact
    have hfld := fld_withField (p := F.POS_ENC_STAT_ENC_FAULT) (by decide) (by decide) 1 w
    obtain ⟨honly, hfault, hcauses, hpos⟩ := encStat_clears (c := s.chip.wrote t i (R.POS_ENC_STAT.at x 0)) (i := i) hfld hact
    obtain ⟨hindex, hwire, hhall⟩ := hcauses
    exact ⟨_, posWrite_taken isPosReg_encStat hmay, writeLeaves_of_only honly (by simp) (by simp), hfault, hindex, hwire, hhall, hpos⟩

end Sys2Proof.Proofs
end

section
/-!
PROOFS about what a read of POS captures, and about the Hall and mark inputs (R77, R78, R82, R85, R86, R104).
-/

namespace Sys2Proof.Machine

variable {c d : Chip} {x y : Fin 2} {i : Initiator} {s : State} {t : Nat}

/-! ### Captured words (R16, R104) -/

theorem Chip.captured_keep_same (c : Chip) (a v : Nat) : (c.keep a v).captured a = v % 2 ^ 32 := by
  simp [Chip.captured, Chip.keep, Chip.latched, Chip.setLatch]

theorem Chip.captured_keep_other (c : Chip) {a b : Nat} (h : b ≠ a) (v : Nat) : (c.keep a v).captured b = c.captured b := by
  have hkey : 8 * b + 7 ≠ 8 * a + 7 := by omega
  simp only [Chip.captured, Chip.keep, Chip.latched, Chip.setLatch, sparseGet_put_other _ _ _ hkey]

theorem Chip.Only.keep {ps : List Part} {rs : Set Nat} {a v : Nat} (h : c.Only ps rs d) (hm : .latch ∈ ps) : c.Only ps rs (d.keep a v) :=
  h.setLatch hm

/-- POS_ENCx_POS_LO and POS_MARKy_POS in the register map. -/
def posEncPosLo : RegDef := ⟨0x018, 0x30, 2, 0, 1, 0x0, []⟩
def posMarkPos : RegDef := ⟨0x094, 0x20, 2, 0, 1, 0x0, []⟩

theorem isPosReg_encPosLo : isPosReg R.POS_ENC_POS_LO posEncPosLo 2 = true := by decide +kernel
theorem isPosReg_markPos : isPosReg R.POS_MARK_POS posMarkPos 2 = true := by decide +kernel

/-- The chip after a read of a low position word: the high word and the timestamp are captured. -/
def Chip.positionKept (c : Chip) (x : Fin 2) : Chip :=
  ((c.keep (R.POS_ENC_POS_HI.at x 0) (unsigned 64 (c.enc x).pos / 2 ^ 32)).keep (R.POS_ENC_TS_LO.at x 0) ((c.enc x).ts % 2 ^ 32)).keep
    (R.POS_ENC_TS_HI.at x 0) ((c.enc x).ts / 2 ^ 32)

theorem readPos_encPosLo {addr : Nat} :
    Chip.readPos addr posEncPosLo x c = (c.positionKept x, unsigned 48 (c.enc x).pos % 2 ^ 32) := by
  have hx : Fin.ofNat 2 x.val = x := Fin.ofNat_val_eq_self x
  have hself : posEncPosLo.is R.POS_ENC_POS_LO = true := rfl
  simp only [Chip.readPos, hself, if_true, hx]
  rfl

theorem Chip.only_positionKept (c : Chip) (x : Fin 2) : c.Only [.latch] ∅ (c.positionKept x) :=
  .keep (.keep (.keep (.refl _ _ c) (by simp)) (by simp)) (by simp)

theorem captureRegs_apart : ∀ x : Fin 2, R.POS_ENC_POS_HI.at x 0 ≠ R.POS_ENC_TS_LO.at x 0 ∧
    R.POS_ENC_POS_HI.at x 0 ≠ R.POS_ENC_TS_HI.at x 0 ∧ R.POS_ENC_TS_LO.at x 0 ≠ R.POS_ENC_TS_HI.at x 0 := by decide

theorem positionKept_captured (c : Chip) (x : Fin 2) :
    (c.positionKept x).captured (R.POS_ENC_TS_LO.at x 0) = (c.enc x).ts % 2 ^ 32 ∧
      (c.positionKept x).captured (R.POS_ENC_TS_HI.at x 0) = (c.enc x).ts / 2 ^ 32 % 2 ^ 32 ∧
      (c.positionKept x).captured (R.POS_ENC_POS_HI.at x 0) = unsigned 64 (c.enc x).pos / 2 ^ 32 % 2 ^ 32 := by
  obtain ⟨hlo, hhi, hts⟩ := captureRegs_apart x
  refine ⟨?_, ?_, ?_⟩
  · rw [Chip.positionKept, Chip.captured_keep_other _ hts, Chip.captured_keep_same, Nat.mod_mod]
  · rw [Chip.positionKept, Chip.captured_keep_same]
  · rw [Chip.positionKept, Chip.captured_keep_other _ hhi, Chip.captured_keep_other _ hlo, Chip.captured_keep_same]

/-- POS_MARKy_POS is the first of its kind that a read of POS asks for. -/
theorem posMarkPos_is : posMarkPos.is R.POS_MARK_POS = true ∧ posMarkPos.is R.POS_ENC_POS_LO = false ∧ posMarkPos.is R.POS_ENC_POS_HI = false ∧
    posMarkPos.is R.POS_ENC_TS_LO = false ∧ posMarkPos.is R.POS_ENC_TS_HI = false ∧ posMarkPos.is R.POS_ENC_STAT = false ∧
    posMarkPos.is R.POS_HALL_STAT = false ∧ posMarkPos.is R.POS_MARK_TS_LO = false ∧ posMarkPos.is R.POS_MARK_TS_HI = false ∧
    posMarkPos.is R.POS_MARK_HEAD = false := by decide

theorem readPos_markPos_empty {addr : Nat} (h : c.pos.mark[y].fifo = []) : Chip.readPos addr posMarkPos y c = (c, 0) := by
  have hy : Fin.ofNat 2 y.val = y := Fin.ofNat_val_eq_self y
  simp only [Chip.readPos, posMarkPos_is, if_true, Bool.false_eq_true, if_false, Bool.or_self, hy, h]

/-- A read takes the oldest record out of the FIFO (R86). -/
theorem readPos_markPos_oldest {addr : Nat} {r : MarkRec} {rest : List MarkRec} (h : c.pos.mark[y].fifo = r :: rest) :
    Chip.readPos addr posMarkPos y c = (c.setMark y { c.pos.mark[y] with fifo := rest }, unsigned 32 r.pos) := by
  have hy : Fin.ofNat 2 y.val = y := Fin.ofNat_val_eq_self y
  simp only [Chip.readPos, posMarkPos_is, if_true, Bool.false_eq_true, if_false, Bool.or_self, hy, h]

/-! ### Hall inputs (R77, R78) -/

/-- The new state of the Hall inputs. -/
def Chip.hallTo (c : Chip) (j : Nat) : Chip := { c with pos := { c.pos with hall := { c.pos.hall with state := j % 8 } } }

/-- The chip where a Hall state is invalid, before its window is empty again. -/
def Chip.hallMarked (c : Chip) : Chip := (c.set F.POS_HALL_STAT_INVALID 1).emit 0x0907

/-- An edge to the next state whose direction is not the window's starts the window again in it. -/
theorem hallEdge_turns {j k l : Nat} (hi : hallIndex c.pos.hall.state = some k) (hj : hallIndex (j % 8) = some l) (hnext : l = (k + 1) % 6)
    (hinv : c.on F.POS_HALL_CFG_DIR_INV = false) (hdir : c.pos.hall.dir ≠ some true) :
    c.hallEdge j = (c.hallTo j).hallRestart (some true) := by
  have hadjacent : (k + 1) % 6 = l ∨ (l + 1) % 6 = k := .inl hnext.symm
  have hfwd : (decide ((k + 1) % 6 = l) != c.on F.POS_HALL_CFG_DIR_INV) = true := by simp [hinv, hnext]
  have hinv' : Chip.on { c with pos := { c.pos with hall := { c.pos.hall with state := j % 8 } } } F.POS_HALL_CFG_DIR_INV =
    c.on F.POS_HALL_CFG_DIR_INV := rfl
  simp only [Chip.hallEdge, hi, hj, if_pos hadjacent, hinv', hfwd, if_neg hdir]
  rfl

/-- No index stands for a state of all zeros or all ones: it is reported, and the window is empty. -/
theorem hallEdge_invalid {j : Nat} (hj : hallIndex (j % 8) = none) : c.hallEdge j = ((c.hallTo j).hallMarked).hallRestart none := by
  unfold Chip.hallEdge
  simp only [hj]
  cases hallIndex c.pos.hall.state <;> rfl

theorem hallIndex_invalid {j : Nat} (h : j % 8 = 0 ∨ j % 8 = 7) : hallIndex (j % 8) = none := by
  rcases h with h | h <;> rw [h] <;> rfl

theorem Chip.only_hallTo (c : Chip) (j : Nat) : c.Only [.pos] ∅ (c.hallTo j) := .withPos (.refl _ _ c) (by simp)

/-- A window that starts again: its edge is the last, at the position and the press time of now. -/
theorem Chip.hallRestart_spec (c : Chip) (dir : Option Bool) : c.Only [.pos] ∅ (c.hallRestart dir) ∧
    (c.hallRestart dir).pos = { c.pos with hall := { c.pos.hall with
      edges := [((c.enc c.hallEnc).pos, c.now)], dir := dir, last := some ((c.enc c.hallEnc).pos, c.now) } } :=
  ⟨.withPos (.refl _ _ c) (by simp), rfl⟩

theorem Chip.only_hallMarked (c : Chip) : c.Only [.ev] {F.POS_HALL_STAT_INVALID.addr} c.hallMarked :=
  .emit (.set (.refl _ _ c) rfl) (by simp)

theorem Chip.hallMarked_invalid (c : Chip) : c.hallMarked.on F.POS_HALL_STAT_INVALID = true := by
  rw [Chip.hallMarked, Chip.emit_on, Chip.on, Chip.get_set_same _ _ _ _ _ (by decide) (by decide)]
  decide

theorem Chip.hallMarked_raised (c : Chip) : c.Raised c.hallMarked [(0x0907, [])] :=
  Chip.raised_emit _ _ rfl rfl (Chip.word_set_other _ _ _ _ _ (by decide))

/-- An invalid state: it is reported, the window is empty again, and its edge is at the position and the press time of now. -/
theorem hallEdge_invalid_spec {j : Nat} (hj : j % 8 = 0 ∨ j % 8 = 7) :
    c.Only [.pos, .ev] {F.POS_HALL_STAT_INVALID.addr} (c.hallEdge j) ∧ (c.hallEdge j).on F.POS_HALL_STAT_INVALID = true ∧
      (c.hallEdge j).pos.hall = { c.pos.hall with
        state := j % 8, edges := [((c.enc c.hallEnc).pos, c.now)], dir := none, last := some ((c.enc c.hallEnc).pos, c.now) } ∧
      c.Raised (c.hallEdge j) [(0x0907, [])] := by
  have hto := c.only_hallTo j
  have hmarked := (c.hallTo j).only_hallMarked
  have hinvalid := (c.hallTo j).hallMarked_invalid
  have hraised := (c.hallTo j).hallMarked_raised
  obtain ⟨hrestart, hpos⟩ := (c.hallTo j).hallMarked.hallRestart_spec none
  have hpos' : (c.hallTo j).hallMarked.pos = (c.hallTo j).pos := hmarked.1 .pos (by simp)
  have hnow : (c.hallTo j).hallMarked.now = c.now := hmarked.1 .now (by simp)
  have henc : (c.hallTo j).hallMarked.hallEnc = c.hallEnc := by
    rw [Chip.hallEnc, hmarked.on (by decide)]
    rfl
  rw [hallEdge_invalid (hallIndex_invalid hj)]
  refine ⟨?_, (hrestart.on (by simp)).trans hinvalid, ?_, ?_⟩
  · exact ((hto.mono (by simp) (by simp)).trans (hmarked.mono (by simp) subset_rfl)).trans (hrestart.mono (by simp) (by simp))
  · rw [hpos, Chip.enc_congr hpos', hpos', hnow, henc]
    rfl
  · exact Eq.trans (hrestart.1 .ev (by simp)) hraised

/-- An edge that the Sieve accepts, with TRK off. -/
theorem runChip_hallEdge {j run : Nat} (hup : s.chip.up 6 = true) (hrun : 2 * s.chip.get F.POS_HALL_CFG_SIEVE_N ≤ run) :
    runChip t (inIsland 6 (fun (c : Chip) =>
      if sieveAccepts (c.get F.POS_HALL_CFG_SIEVE_N) run then (c.hallEdge j).serveTrk else c)) s =
        .next { s with chip := ((s.chip.at t).hallEdge j).serveTrk } := by
  have haccept : sieveAccepts ((s.chip.at t).get F.POS_HALL_CFG_SIEVE_N) run = true := decide_eq_true hrun
  exact runChip_inIsland_eq hup (by rw [haccept, if_pos rfl])

/-! ### Mark inputs (R82, R83, R85) -/

/-- The record of a mark goes on its way to CMP and into the FIFO. -/
def Chip.markNoted (c : Chip) (y : Fin 2) (r : MarkRec) : Chip :=
  { c with pos := { c.pos with markWay := c.pos.markWay ++ [r] } }.setMark y { c.pos.mark[y] with fifo := c.pos.mark[y].fifo ++ [r] }

/-- An edge of either kind, with no window, becomes a record that is inside. -/
theorem markEdge_noted {rising : Bool} {ts : Nat} (hen : c.on F.POS_MARK_CFG_EN y = true) (hedge : c.get F.POS_MARK_CFG_EDGE y = 2)
    (hwin : c.on F.POS_MARK_CFG_WIN_EN y = false) (hroom : c.pos.mark[y].fifo.length < 16) :
    c.markEdge y rising ts = c.markNoted y ⟨ts, (c.enc (c.markEnc y)).pos, rising, false, y.val⟩ := by
  simp only [Chip.markEdge, hen, hedge, hwin, true_or, and_self, if_true, Bool.false_and, Bool.false_eq_true, if_false]
  simp only [Chip.markPush, if_pos hroom]
  rfl

theorem Chip.only_markNoted (c : Chip) (y : Fin 2) (r : MarkRec) : c.Only [.pos] ∅ (c.markNoted y r) :=
  .setMark (.withPos (.refl _ _ c) (by simp)) (by simp)

/-- Only a run of the calibration reads a mark of its own accord (R679). -/
theorem calMark_idle (h : c.calBusy = false) : c.calMark y = c := by simp [Chip.calMark, h]

end Sys2Proof.Machine
end

section
namespace Sys2Proof.Proofs
open Sys2Proof.Machine

/-- Settles O10: the captured words, the two kinds of Hall edge and the record of a mark, each by what its operation leaves. -/
theorem hallAndMarks : Obligations.HallAndMarks := by
  unfold Obligations.HallAndMarks
  refine ⟨?_, ?_, ?_, ?_, ?_, ?_⟩
  · intro t i x s hmay
    obtain ⟨hlo, hhi, hpos⟩ := positionKept_captured (s.chip.at t) x
    have hexec := posRead_taken (t := t) isPosReg_encPosLo hmay
    rw [readPos_encPosLo] at hexec
    refine ⟨_, hexec, readLeaves_of_only (Chip.only_positionKept _ x), hlo, hhi, ?_⟩
    exact (congrArg (· % 2 ^ 16) hpos).trans (Nat.mod_mod_of_dvd _ (by decide))
  · intro t j run k l s hup hrun htrk hk hl hnext hinv hdir
    have hturns := hallEdge_turns (c := s.chip.at t) hk hl hnext hinv hdir
    obtain ⟨hrestart, hpos⟩ := ((s.chip.at t).hallTo j).hallRestart_spec (some true)
    have honly := ((s.chip.at t).only_hallTo j).trans hrestart
    rw [← hturns] at honly hpos
    have hoff : ((s.chip.at t).hallEdge j).trkOn = false := (honly.on (by simp)).trans htrk
    have hserved := Chip.only_serveTrk_off hoff
    have hafter : ((s.chip.at t).hallEdge j).serveTrk.pos = _ := Eq.trans (hserved.1 .pos (by simp)) hpos
    have hnow : ((s.chip.at t).hallEdge j).serveTrk.now = (s.chip.at t).now :=
      Eq.trans (hserved.1 .now (by simp)) (honly.1 .now (by simp))
    refine ⟨_, runChip_hallEdge hup hrun, leaves_of_only ((honly.serveTrk_off hoff).mono (by simp) (by simp)), ?_⟩
    dsimp only
    rw [hafter, hnow]
    exact ⟨rfl, rfl, rfl, rfl, rfl⟩
  · intro t j run s hup hrun htrk hj
    obtain ⟨honly, hinvalid, hhall, hraised⟩ := hallEdge_invalid_spec (c := s.chip.at t) hj
    have hoff : ((s.chip.at t).hallEdge j).trkOn = false := (honly.on (by decide)).trans htrk
    have hserved := Chip.only_serveTrk_off hoff
    have hafter : ((s.chip.at t).hallEdge j).serveTrk.pos.hall = _ := (congrArg PosSt.hall (hserved.1 .pos (by simp))).trans hhall
    have hnow : ((s.chip.at t).hallEdge j).serveTrk.now = (s.chip.at t).now :=
      Eq.trans (hserved.1 .now (by simp)) (honly.1 .now (by simp))
    have hbit : F.POS_HALL_STAT_INVALID.at 0 0 ∉ blockRegsSet 0x0A := fun hin => absurd hin.1 (by decide)
    refine ⟨_, runChip_hallEdge hup hrun, leaves_of_only ((honly.serveTrk_off hoff).mono (by simp) subset_rfl),
      (hserved.on hbit).trans hinvalid, ?_⟩
    dsimp only
    rw [hafter, hnow]
    exact ⟨rfl, rfl, rfl, Eq.trans (hserved.1 .ev (by simp)) hraised⟩
  · intro t y rising first run r s hup hrun hen hedge hwin hcal hroom hr
    have hnoted := markEdge_noted (c := s.chip.at t) (y := y) (rising := rising) (ts := stamp first (s.chip.get F.POS_RXDLY_SE_DLY)) hen hedge
      hwin hroom
    have haccept : sieveAccepts ((s.chip.at t).get F.POS_MARK_CFG_SIEVE_N y) run = true := decide_eq_true hrun
    subst hr
    refine ⟨_, runChip_inIsland_eq hup ?_, leaves_of_only (Chip.only_markNoted _ y _), rfl⟩
    rw [haccept, if_pos rfl]
    exact (congrArg (Chip.calMark · y) hnoted).trans (calMark_idle hcal)
  · intro t i y r rest s hmay hfifo
    have hexec := posRead_taken (t := t) isPosReg_markPos hmay
    rw [readPos_markPos_oldest (c := s.chip.at t) hfifo] at hexec
    exact ⟨_, hexec, readLeaves_of_only (.setMark (.refl _ _ _) (by simp)), rfl⟩
  · intro t i y s hmay hfifo
    have hexec := posRead_taken (t := t) isPosReg_markPos hmay
    rw [readPos_markPos_empty (c := s.chip.at t) hfifo] at hexec
    exact ⟨_, hexec, readLeaves_of_only (.refl _ _ _)⟩

end Sys2Proof.Proofs
end

section
/-!
PROOFS about ENCO and the compare outputs (R88 to R101).
-/

namespace Sys2Proof.Machine

variable {c d : Chip} {n : Fin 8} {i : Initiator} {s : State} {t w a : Nat}

/-! ### ENCO (R88, R90, R91) -/

/-- With its source an encoder ENCO does not follow the tracked position. -/
theorem encoFollow_encoder (h : c.get F.POS_ENCO_CFG_SRC ≠ 2) : c.encoFollow = c := by
  simp [Chip.encoFollow, h]

theorem natAbs_stepped {b : Int} (h : b ≠ 0) : (b - (if 0 < b then 1 else -1)).natAbs + 1 = b.natAbs := by
  split <;> omega

/-- A pending step that is due leaves. -/
theorem encoStep_due (hen : c.on F.POS_ENCO_CFG_EN = true) (hback : c.pos.enco.backlog ≠ 0) (hdue : c.pos.enco.due ≤ c.now) :
    ∃ e : EncoSt, c.encoStep = c.setEnco e ∧ e.count = c.pos.enco.count + (if 0 < c.pos.enco.backlog then 1 else -1) ∧
      e.backlog.natAbs + 1 = c.pos.enco.backlog.natAbs ∧ e.due = c.now + c.pos.enco.spacing ∧ e.acc = c.pos.enco.acc := by
  refine ⟨_, if_pos ⟨hen, hback, hdue⟩, rfl, natAbs_stepped hback, rfl, rfl⟩

/-- POS_ENCO_RATIO in the register map. -/
def posEncoRatio : RegDef := ⟨0x0C4, 0, 1, 0, 1, 0x10001, [fr 31 16 .rw 1 65535 false, fr 15 0 .rw 1 65535 false]⟩

theorem isPosReg_encoRatio : isPosReg R.POS_ENCO_RATIO posEncoRatio 1 = true := by decide +kernel

theorem writePos_encoRatio {k : Nat} : Chip.writePos i a posEncoRatio k w c =
    if fld F.POS_ENCO_RATIO_N w = 0 ∨ fld F.POS_ENCO_RATIO_M w = 0 then c.reject a
    else (c.plain a posEncoRatio w).setEnco { c.pos.enco with acc := 0 } := by
  have hself : posEncoRatio.is R.POS_ENCO_RATIO = true := rfl
  have hothers : posEncoRatio.is R.POS_ENC_CFG = false ∧ posEncoRatio.is R.POS_ENC_CPR = false ∧ posEncoRatio.is R.POS_ENC_STAT = false ∧
    posEncoRatio.is R.POS_HALL_CFG = false ∧ posEncoRatio.is R.POS_MARK_CFG = false ∧ posEncoRatio.is R.POS_ENCO_CFG = false := by decide
  simp only [Chip.writePos, hself, hothers, if_true, Bool.false_eq_true, if_false]

/-- A ratio with no zero half is taken: both fields are stored, and the accumulator clears. -/
theorem encoRatio_taken (hn : fld F.POS_ENCO_RATIO_N w ≠ 0) (hm : fld F.POS_ENCO_RATIO_M w ≠ 0) (hcal : c.calBusy = false)
    (hsw : c.switchState = 0) :
    let d := Chip.writePos i (R.POS_ENCO_RATIO.at (0 : Fin 1) 0) posEncoRatio (0 : Fin 1) w c
    c.Only [.pos] {R.POS_ENCO_RATIO.addr} d ∧ d.get F.POS_ENCO_RATIO_N = fld F.POS_ENCO_RATIO_N w ∧
      d.get F.POS_ENCO_RATIO_M = fld F.POS_ENCO_RATIO_M w ∧ d.pos = { c.pos with enco := { c.pos.enco with acc := 0 } } := by
  have hblock := (isPosReg_spec isPosReg_encoRatio (0 : Fin 1)).2.2.1
  have hltN : fld F.POS_ENCO_RATIO_N w < 2 ^ 16 := Nat.mod_lt _ (by decide)
  have hltM : fld F.POS_ENCO_RATIO_M w < 2 ^ 16 := Nat.mod_lt _ (by decide)
  have hgetN := get_plain_pos_rw (c := c) (w := w) (k := (0 : Fin 1)) (q := F.POS_ENCO_RATIO_N) (mn := 1) (mx := 65535) (sh := false)
    isPosReg_encoRatio (by decide) rfl hcal hsw (by omega) (by omega)
  have hgetM := get_plain_pos_rw (c := c) (w := w) (k := (0 : Fin 1)) (q := F.POS_ENCO_RATIO_M) (mn := 1) (mx := 65535) (sh := false)
    isPosReg_encoRatio (by decide) rfl hcal hsw (by omega) (by omega)
  have hbarsN : c.barsField (R.POS_ENCO_RATIO.at (0 : Fin 1) 0) w ⟨31, 16, .rw, 1, 65535, false⟩ = false :=
    barsField_inRange hcal hsw (Nat.one_le_iff_ne_zero.mpr hn) (Nat.le_pred_of_lt hltN)
  have hbarsM : c.barsField (R.POS_ENCO_RATIO.at (0 : Fin 1) 0) w ⟨15, 0, .rw, 1, 65535, false⟩ = false :=
    barsField_inRange hcal hsw (Nat.one_le_iff_ne_zero.mpr hm) (Nat.le_pred_of_lt hltM)
  have hplain : c.Only [] {R.POS_ENCO_RATIO.addr} (c.plain (R.POS_ENCO_RATIO.at (0 : Fin 1) 0) posEncoRatio w) := by
    rw [plain_of_taken (by omega) (by simp only [posEncoRatio, fr, List.any_cons, List.any_nil, Chip.ignoresField, hbarsN, hbarsM, Bool.and_false,
      Bool.or_self])]
    exact .setWord (.refl _ _ c) rfl
  have hpos := plain_keeps_pos (c := c) (r := posEncoRatio) (w := w) hblock
  rw [writePos_encoRatio, if_neg (not_or.mpr ⟨hn, hm⟩)]
  generalize c.plain (R.POS_ENCO_RATIO.at (0 : Fin 1) 0) posEncoRatio w = d at hgetN hgetM hplain hpos
  refine ⟨.setEnco (hplain.mono (by simp) subset_rfl) (by simp), hgetN, hgetM, ?_⟩
  rw [Chip.setEnco, hpos]

/-- A ratio with a zero half is counted and changes nothing else. -/
theorem encoRatio_refused (h : fld F.POS_ENCO_RATIO_N w = 0 ∨ fld F.POS_ENCO_RATIO_M w = 0) :
    c.Only [] {F.POS_REJ_CNT_COUNT.addr} (Chip.writePos i (R.POS_ENCO_RATIO.at (0 : Fin 1) 0) posEncoRatio (0 : Fin 1) w c) := by
  rw [writePos_encoRatio, if_pos h]
  exact Chip.only_reject_pos (isPosReg_spec isPosReg_encoRatio (0 : Fin 1)).2.2.1

/-! ### Entries of the compare outputs (R92 to R95, R98, R100) -/

/-- POS_CMPn_ENT_HI, POS_CMPn_CFG and POS_CMPn_FLUSH in the register map. -/
def posCmpEntHi : RegDef := ⟨0x108, 0x20, 8, 0, 1, 0x0, [fd 17 16 .wo, fd 15 0 .wo]⟩
def posCmpCfg : RegDef :=
  ⟨0x100, 0x20, 8, 0, 1, 0xA0000, [fr 31 16 .rw 1 65535 false, fd 5 5 .rw, fd 3 3 .rw, fr 2 1 .rw 0 2 false, fd 0 0 .rw]⟩
def posCmpFlush : RegDef := ⟨0x118, 0x20, 8, 0, 1, 0x0, [fd 0 0 .wo]⟩

theorem isPosReg_cmpEntHi : isPosReg R.POS_CMP_ENT_HI posCmpEntHi 8 = true := by decide +kernel
theorem isPosReg_cmpCfg : isPosReg R.POS_CMP_CFG posCmpCfg 8 = true := by decide +kernel
theorem isPosReg_cmpFlush : isPosReg R.POS_CMP_FLUSH posCmpFlush 8 = true := by decide +kernel

/-- Register r of POS is of no encoder, Hall, mark or ENCO. -/
def RegDef.isCompare (r : RegDef) : Bool :=
  !r.is R.POS_ENC_CFG && !r.is R.POS_ENC_CPR && !r.is R.POS_ENC_STAT && !r.is R.POS_HALL_CFG && !r.is R.POS_MARK_CFG && !r.is R.POS_ENCO_CFG &&
    !r.is R.POS_ENCO_RATIO

/-- The meaning of a write of POS is that of a compare output. -/
theorem writePos_compare {r : RegDef} (h : r.isCompare = true) : Chip.writePos i a r n w c =
    if r.is R.POS_CMP_CFG then
      let d := c.plain a r w
      d.cmpEnable n (c.on F.POS_CMP_CFG_EN n) (d.cmpPosition n)
    else if r.is R.POS_CMP_ENT_LO then c.setLatch (R.POS_CMP_ENT_LO.at n 0) (initNo i) w
    else if r.is R.POS_CMP_ENT_HI then
      let e := signed 48 (fld F.POS_CMP_ENT_HI_POS_HI w * 2 ^ 32 + c.latched (R.POS_CMP_ENT_LO.at n 0) (initNo i))
      if c.on F.POS_CMP_CFG_OWNER n then c.reject a else (c.cmpPush n e (fld F.POS_CMP_ENT_HI_ACTION w) (c.cmpPosition n)).1
    else if r.is R.POS_CMP_FLUSH then
      if fld F.POS_CMP_FLUSH_FLUSH w = 1 then c.setOut n { c.pos.out[n] with list := [] } else c
    else c.plain a r w := by
  have hn : Fin.ofNat 8 n.val = n := Fin.ofNat_val_eq_self n
  simp only [RegDef.isCompare, Bool.and_eq_true, Bool.not_eq_true'] at h
  simp only [Chip.writePos, h, Bool.false_eq_true, if_false, hn]

/-- The 48 bits of a pushed position are a position. -/
theorem pos48_signed (m : Nat) : pos48 (signed 48 m) = signed 48 m := by
  have hmod : ∀ k : Nat, signed 48 (k % 2 ^ 48) = signed 48 k := fun k => by simp only [signed, Nat.mod_mod]
  rw [pos48, ← hmod m, unsigned_signed (Nat.mod_lt _ (by decide))]

/-- A pulse pushed onto a list that holds entries and is not full goes to its end. -/
theorem cmpPush_appends {e : Int} {p : Int} (hroom : c.pos.out[n].list.length < 64) (hsome : c.pos.out[n].list ≠ []) :
    c.cmpPush n e 0 p = (c.setOut n { c.pos.out[n] with list := c.pos.out[n].list ++ [(pos48 e, .pulse)] }, true) := by
  have hopen : ¬ (64 ≤ c.pos.out[n].list.length ∨ 0 = 3) := by omega
  have hheld : ¬ (c.pos.out[n].list = [] ∧ c.on F.POS_CMP_CFG_EN n = true) := fun h => hsome h.1
  simp only [Chip.cmpPush, if_neg hopen, if_neg hheld, if_true]

/-- A write of POS_CMPn_ENT_HI that appends a pulse. -/
theorem cmpEntHi_appends (howner : c.on F.POS_CMP_CFG_OWNER n = false) (haction : fld F.POS_CMP_ENT_HI_ACTION w = 0)
    (hroom : c.pos.out[n].list.length < 64) (hsome : c.pos.out[n].list ≠ []) :
    Chip.writePos i (R.POS_CMP_ENT_HI.at n 0) posCmpEntHi n w c = c.setOut n { c.pos.out[n] with list := c.pos.out[n].list ++
      [(signed 48 (fld F.POS_CMP_ENT_HI_POS_HI w * 2 ^ 32 + c.latched (R.POS_CMP_ENT_LO.at n 0) (initNo i)), .pulse)] } := by
  have hself : posCmpEntHi.is R.POS_CMP_CFG = false ∧ posCmpEntHi.is R.POS_CMP_ENT_LO = false ∧ posCmpEntHi.is R.POS_CMP_ENT_HI = true := by
    decide
  rw [writePos_compare (by decide)]
  simp only [hself, howner, haction, Bool.false_eq_true, if_false, if_true, cmpPush_appends hroom hsome, pos48_signed]

/-- An output that NZH owns counts a push by software. -/
theorem cmpEntHi_refused (howner : c.on F.POS_CMP_CFG_OWNER n = true) :
    c.Only [] {F.POS_REJ_CNT_COUNT.addr} (Chip.writePos i (R.POS_CMP_ENT_HI.at n 0) posCmpEntHi n w c) := by
  have hself : posCmpEntHi.is R.POS_CMP_CFG = false ∧ posCmpEntHi.is R.POS_CMP_ENT_LO = false ∧ posCmpEntHi.is R.POS_CMP_ENT_HI = true := by
    decide
  rw [writePos_compare (by decide)]
  simp only [hself, howner, Bool.false_eq_true, if_false, if_true]
  exact Chip.only_reject_pos (isPosReg_spec isPosReg_cmpEntHi n).2.2.1

/-- A single entry that sets the output and is reached. -/
theorem cmpHead_set {e : Int} (hen : c.on F.POS_CMP_CFG_EN n = true) (hsrc : c.get F.POS_CMP_CFG_SRC n = 0)
    (hlist : c.pos.out[n].list = [(e, .set)]) (he : e ≤ (c.enc 0).pos) (hprev : c.pos.out[n].prev ≤ (c.enc 0).pos) :
    c.cmpHead n = c.setOut n { c.pos.out[n] with list := [], active := true, prev := (c.enc 0).pos } := by
  have hsrc' : c.get F.POS_CMP_CFG_SRC n < 2 := by omega
  have hplace : c.cmpPosition n = (c.enc 0).pos := by simp only [Chip.cmpPosition, hsrc]
  have hact : c.cmpAct n .set = c.setOut n { c.pos.out[n] with active := true } := by simp [Chip.cmpAct]
  simp only [Chip.cmpHead, if_pos hsrc', Chip.cmpReached, hplace, hlist, hen, he, hprev, and_self, if_true, hact, Chip.cmpJudge,
    Chip.out_setOut_same, Chip.setOut_setOut]

theorem cmpPulseEnd_due {e : Nat} (hend : c.pos.out[n].pulseEnd = some e) (hdue : e ≤ c.now) :
    c.cmpPulseEnd n = c.setOut n { c.pos.out[n] with active := false, pulseEnd := none } := by
  simp only [Chip.cmpPulseEnd, hend, if_pos hdue]

/-! ### Enabling, disabling and flushing (R101) -/

/-- Disabling an output makes it inactive. -/
theorem cmpEnable_off {p : Int} (h : c.on F.POS_CMP_CFG_EN n = false) :
    c.cmpEnable n true p = c.setOut n { c.pos.out[n] with active := false, pulseEnd := none } := by
  simp [Chip.cmpEnable, h]

/-- Enabling an output whose list is empty judges nothing. -/
theorem cmpEnable_on {p : Int} (h : c.on F.POS_CMP_CFG_EN n = true) (hlist : c.pos.out[n].list = []) :
    c.cmpEnable n false p = c.setOut n { c.pos.out[n] with enabled := true, list := [], prev := p } := by
  simp only [Chip.cmpEnable, h, hlist, Chip.cmpJudge, Bool.not_false, and_self, if_true, Chip.out_setOut_same, Chip.setOut_setOut]

/-- EN of an output takes the bit written. -/
theorem cmpCfg_en (hcal : c.calBusy = false) (hsw : c.switchState = 0) :
    (c.plain (R.POS_CMP_CFG.at n 0) posCmpCfg w).on F.POS_CMP_CFG_EN n = (fld F.POS_CMP_CFG_EN w != 0) := by
  have hlt : fld F.POS_CMP_CFG_EN w < 2 := Nat.mod_lt _ (by decide)
  rw [Chip.on, get_plain_pos_rw (q := F.POS_CMP_CFG_EN) (mn := 0) (mx := 1) (sh := false) isPosReg_cmpCfg (by decide) rfl hcal hsw (by omega)
    (by omega)]

theorem writePos_cmpCfg : Chip.writePos i (R.POS_CMP_CFG.at n 0) posCmpCfg n w c =
    let d := c.plain (R.POS_CMP_CFG.at n 0) posCmpCfg w
    d.cmpEnable n (c.on F.POS_CMP_CFG_EN n) (d.cmpPosition n) := by
  rw [writePos_compare (by decide)]
  rfl

/-- A write that disables an output. -/
theorem cmpCfg_disables (hcal : c.calBusy = false) (hsw : c.switchState = 0) (hwas : c.on F.POS_CMP_CFG_EN n = true)
    (hfld : fld F.POS_CMP_CFG_EN w = 0) :
    let d := Chip.writePos i (R.POS_CMP_CFG.at n 0) posCmpCfg n w c
    c.Only [.pos] {R.POS_CMP_CFG.at n 0, F.POS_REJ_CNT_COUNT.addr} d ∧ d.on F.POS_CMP_CFG_EN n = false ∧
      d.pos = (c.setOut n { c.pos.out[n] with active := false, pulseEnd := none }).pos := by
  have hblock := (isPosReg_spec isPosReg_cmpCfg n).2.2.1
  have hplain := Chip.only_plain_pos (c := c) (r := posCmpCfg) (w := w) hblock
  have hpos := plain_keeps_pos (c := c) (r := posCmpCfg) (w := w) hblock
  have hen := cmpCfg_en (c := c) (n := n) (w := w) hcal hsw
  rw [hfld] at hen
  rw [writePos_cmpCfg]
  generalize c.plain (R.POS_CMP_CFG.at n 0) posCmpCfg w = d at hplain hpos hen
  dsimp only
  rw [hwas, cmpEnable_off hen]
  refine ⟨.setOut (hplain.mono (by simp) subset_rfl) (by simp), hen, ?_⟩
  simp only [Chip.setOut, hpos]

/-- A write that enables an output whose list is empty. -/
theorem cmpCfg_enables (hcal : c.calBusy = false) (hsw : c.switchState = 0) (hwas : c.on F.POS_CMP_CFG_EN n = false)
    (hfld : fld F.POS_CMP_CFG_EN w = 1) (hlist : c.pos.out[n].list = []) :
    let d := Chip.writePos i (R.POS_CMP_CFG.at n 0) posCmpCfg n w c
    c.Only [.pos] {R.POS_CMP_CFG.at n 0, F.POS_REJ_CNT_COUNT.addr} d ∧ d.on F.POS_CMP_CFG_EN n = true ∧
      d.pos.out[n].enabled = true ∧ d.pos.out[n].list = [] := by
  have hblock := (isPosReg_spec isPosReg_cmpCfg n).2.2.1
  have hplain := Chip.only_plain_pos (c := c) (r := posCmpCfg) (w := w) hblock
  have hpos := plain_keeps_pos (c := c) (r := posCmpCfg) (w := w) hblock
  have hen := cmpCfg_en (c := c) (n := n) (w := w) hcal hsw
  rw [hfld] at hen
  rw [writePos_cmpCfg]
  generalize c.plain (R.POS_CMP_CFG.at n 0) posCmpCfg w = d at hplain hpos hen
  dsimp only
  rw [hwas, cmpEnable_on hen (by rw [hpos, hlist])]
  refine ⟨.setOut (hplain.mono (by simp) subset_rfl) (by simp), hen, ?_, ?_⟩
  · rw [Chip.out_setOut_same]
  · rw [Chip.out_setOut_same]

/-- A flush empties the list. -/
theorem cmpFlush_empties :
    Chip.writePos i (R.POS_CMP_FLUSH.at n 0) posCmpFlush n 1 c = c.setOut n { c.pos.out[n] with list := [] } := by
  have hself : posCmpFlush.is R.POS_CMP_CFG = false ∧ posCmpFlush.is R.POS_CMP_ENT_LO = false ∧ posCmpFlush.is R.POS_CMP_ENT_HI = false ∧
    posCmpFlush.is R.POS_CMP_FLUSH = true := by decide
  have hone : fld F.POS_CMP_FLUSH_FLUSH 1 = 1 := by decide
  rw [writePos_compare (by decide)]
  simp only [hself, hone, Bool.false_eq_true, if_false, if_true]

end Sys2Proof.Machine
end

section
namespace Sys2Proof.Proofs
open Sys2Proof.Machine

/-- Settles O11: each clause is one operation of ENCO or of an output, which replaces its own state in POS. -/
theorem encoAndCompareOutputs : Obligations.EncoAndCompareOutputs := by
  unfold Obligations.EncoAndCompareOutputs
  refine ⟨?_, ?_, ?_, ?_, ?_, ?_, ?_, ?_, ?_, ?_⟩
  · intro t s hup hen hsrc hback hdue _
    obtain ⟨e, hstep, hcount, hbacklog, hspaced, hacc⟩ := encoStep_due (c := s.chip.at t) hen hback hdue
    have hexec := runChip_inIsland_eq (t := t) (f := fun (c : Chip) => c.encoFollow.encoStep) hup
      ((congrArg Chip.encoStep (encoFollow_encoder (c := s.chip.at t) hsrc)).trans hstep)
    exact ⟨_, hexec, leaves_of_only (.setEnco (.refl _ _ _) (by simp)), rfl, hcount, hbacklog, hspaced, hacc⟩
  · intro t i w s hmay hsw hcal hn hm
    obtain ⟨honly, hgetN, hgetM, hpos⟩ := encoRatio_taken (c := s.chip.wrote t i R.POS_ENCO_RATIO.addr) (i := i) hn hm hcal hsw
    exact ⟨_, posWrite_taken (k := (0 : Fin 1)) isPosReg_encoRatio hmay, writeLeaves_of_only honly (by simp) (by simp), hgetN, hgetM, hpos⟩
  · intro t i w s hmay hzero
    have honly := encoRatio_refused (c := s.chip.wrote t i R.POS_ENCO_RATIO.addr) (i := i) hzero
    exact ⟨_, posWrite_taken (k := (0 : Fin 1)) isPosReg_encoRatio hmay, writeLeaves_of_only honly (by simp) (by simp)⟩
  · intro t i n w e s hmay howner haction hroom hsome he
    have hpush := cmpEntHi_appends (c := s.chip.wrote t i (R.POS_CMP_ENT_HI.at n 0)) (i := i) howner haction hroom hsome
    have hexec := posWrite_taken (t := t) (v := w) isPosReg_cmpEntHi hmay
    rw [hpush] at hexec
    subst he
    exact ⟨_, hexec, writeLeaves_of_only (.setOut (.refl _ _ _) (by simp)) (by simp) (by simp), rfl⟩
  · intro t i n w s hmay howner
    have honly := cmpEntHi_refused (c := s.chip.wrote t i (R.POS_CMP_ENT_HI.at n 0)) (i := i) (w := w.toNat) howner
    exact ⟨_, posWrite_taken isPosReg_cmpEntHi hmay, writeLeaves_of_only honly (by simp) (by simp)⟩
  · intro t n e s hup hen hsrc hlist he hprev
    exact ⟨_, runChip_inIsland_eq hup (cmpHead_set (c := s.chip.at t) hen hsrc hlist he hprev),
      leaves_of_only (.setOut (.refl _ _ _) (by simp)), rfl⟩
  · intro t e n s hup hend hdue
    exact ⟨_, runChip_inIsland_eq hup (cmpPulseEnd_due (c := s.chip.at t) hend hdue), leaves_of_only (.setOut (.refl _ _ _) (by simp)), rfl⟩
  · intro t i n w s hmay hsw hcal hwas hfld
    obtain ⟨honly, hoff, hpos⟩ := cmpCfg_disables (c := s.chip.wrote t i (R.POS_CMP_CFG.at n 0)) (i := i) hcal hsw hwas hfld
    exact ⟨_, posWrite_taken isPosReg_cmpCfg hmay, writeLeaves_of_only honly (by simp) (by simp), hoff, hpos⟩
  · intro t i n w s hmay hsw hcal hwas hfld hlist
    obtain ⟨honly, hon, henabled, hempty⟩ :=
      cmpCfg_enables (c := s.chip.wrote t i (R.POS_CMP_CFG.at n 0)) (i := i) hcal hsw hwas hfld hlist
    exact ⟨_, posWrite_taken isPosReg_cmpCfg hmay, writeLeaves_of_only honly (by simp) (by simp), hon, henabled, hempty⟩
  · intro t i n s hmay
    have hexec := posWrite_taken (t := t) (v := 1) isPosReg_cmpFlush hmay
    rw [show (1 : Word).toNat = 1 from rfl, cmpFlush_empties] at hexec
    exact ⟨_, hexec, writeLeaves_of_only (.setOut (.refl _ _ _) (by simp)) (by simp) (by simp), rfl⟩

end Sys2Proof.Proofs
end

section
/-!
PROOFS about marks in CMP: lanes with no item that waits, and the item of one lane that a mark, or the notice of a missing one, places
(R84, R144 to R147).
-/

namespace Sys2Proof.Machine

variable {c d : Chip} {a : Item} {i : Fin 8} {l : Rat} {start : Int} {s : State} {t f : Nat}

/-! ### Lanes -/

theorem nextOf_of_empty (h : c.cmp.items = []) (k : Nat) : c.nextOf k = none := by simp [Chip.nextOf, h]

theorem nextOf_of_placed (h : c.cmp.items = [a]) (hstage : a.stage = .placed) (k : Nat) : c.nextOf k = none := by
  simp [Chip.nextOf, h, hstage]

theorem nextOf_other (h : c.cmp.items = [a]) {k : Nat} (hlane : a.lane ≠ k) : c.nextOf k = none := by
  simp [Chip.nextOf, h, hlane]

theorem nextOf_waiting (h : c.cmp.items = [a]) (hstage : a.stage = .waiting) : c.nextOf a.lane = some a := by
  simp [Chip.nextOf, h, hstage]

/-- With no PLACE message kept, none is compared. -/
theorem serveNotes_none (h : c.cmp.notes = []) : c.serveNotes i = c := by
  simp only [Chip.serveNotes, h, compareNotes]
  rw [← h]

/-- A lane with no item to place keeps its marks. -/
theorem serveMark_none (h : c.nextOf i = none) : c.serveMark i = c := by simp only [Chip.serveMark, h]

/-- What a mark does to a lane that has no message to compare and no item to place. -/
theorem serveLane_none (hnotes : c.cmp.notes = []) (hnext : c.nextOf i = none) : (c.serveNotes i).serveMark i = c := by
  rw [serveNotes_none hnotes, serveMark_none hnext]

theorem missingMark_none {y : Nat} {ref : Int} (h : c.nextOf i = none) : c.missingMark y ref i = c := by simp only [Chip.missingMark, h]

theorem handOverLane_none {k : Nat} (h : c.nextOf k = none) : c.handOverLane k = c := by
  simp only [Chip.handOverLane, h, ite_self]

/-- What reaches every lane and changes something in lane 3 alone. -/
theorem foldl_lane3 {g : Chip → Fin 8 → Chip} (hbefore : ∀ i : Fin 8, i.val ≠ 3 → g c i = c) (hat : g c 3 = d)
    (hafter : ∀ i : Fin 8, g d i = d) : allPorts.foldl g c = d := by
  simp only [allPorts, List.foldl_cons, List.foldl_nil, hbefore 0 (by decide), hbefore 1 (by decide), hbefore 2 (by decide), hat, hafter]

/-! ### The place of an item (R145, R148) -/

/-- An item that is placed. -/
def Item.placedAt (a : Item) (start : Int) (f : Nat) : Item :=
  { a with stage := .placed, start := start, nextLine := start, flags := a.flags ||| f }

theorem Item.placedAt_unflagged (a : Item) (start : Int) : a.placedAt start 0 = { a with stage := .placed, start := start, nextLine := start } := by
  rw [Item.placedAt, Nat.or_zero]

/-- The lane of the only item after its place is set. -/
def Chip.lanePlaced (c : Chip) (a : Item) (h : a.lane < 8) (start : Int) (f : Nat) : Chip :=
  { c with cmp := { c.cmp with
      items := [a.placedAt start f]
      laneEnd := c.cmp.laneEnd.set a.lane (some (start + a.lines))
      laneStart := c.cmp.laneStart.set a.lane (some start)
      laneFirst := if c.cmp.laneFirst[a.lane].isNone then c.cmp.laneFirst.set a.lane (some start) else c.cmp.laneFirst } }

/-- The only item is placed, from the frontier on: the lane keeps its place, its account opens, and CMP_STAT shows who waits. -/
theorem placeItem_alone (hlane : a.lane < 8) (hs : c.cmp.w ≤ start) (hitems : c.cmp.items = [a]) :
    c.placeItem a start f = ((c.lanePlaced a hlane start f).openAccount (a.placedAt start f)).showMarkWait := by
  have hupd : c.updItems (fun b => b.slot == a.slot) (fun _ => a.placedAt start f) = c.setItems [a.placedAt start f] := by
    simp [Chip.updItems, hitems]
  have hnone : ((c.lanePlaced a hlane start f).openAccount (a.placedAt start f)).showMarkWait.nextOf a.lane = none :=
    nextOf_of_placed (a := a.placedAt start f) rfl rfl _
  rw [← handOverLane_none hnone]
  simp only [Chip.placeItem, hlane, dif_pos, not_lt.mpr hs, if_false]
  rw [← Item.placedAt, hupd]
  rfl

theorem only_placeItem_alone (hlane : a.lane < 8) (hs : c.cmp.w ≤ start) (hitems : c.cmp.items = [a]) :
    c.Only [.cmp, .nzh] {F.CMP_STAT_MARK_WAIT.addr} (c.placeItem a start f) ∧ (c.placeItem a start f).cmp.items = [a.placedAt start f] ∧
      (c.placeItem a start f).cmp.notes = c.cmp.notes := by
  rw [placeItem_alone hlane hs hitems]
  exact ⟨.set (.withNzh (.withCmp (.refl _ _ c) (by simp)) (by simp)) rfl, rfl, rfl⟩

/-! ### A mark record (R145) -/

/-- Every lane keeps a mark. -/
def Chip.marksKept (c : Chip) (r : MarkRec) : Chip :=
  { c with cmp := { c.cmp with laneMarks := c.cmp.laneMarks.map (fun l => l ++ [⟨r.ts, r.input⟩]) } }

theorem markRecord_inside {r : MarkRec} (h : r.outside = false) :
    c.markRecord r = allPorts.foldl (fun c i => (c.serveNotes i).serveMark i) (c.marksKept r) := by
  simp only [Chip.markRecord, h, Bool.false_eq_true, if_false]
  rfl

/-- With no item in the queue every lane keeps the mark. -/
theorem markRecord_kept {r : MarkRec} (h : r.outside = false) (hitems : c.cmp.items = []) (hnotes : c.cmp.notes = []) :
    c.markRecord r = c.marksKept r := by
  rw [markRecord_inside h]
  exact List.foldl_fixed' (fun _ => serveLane_none (c := c.marksKept r) hnotes (nextOf_of_empty hitems _)) _

/-- The first mark of a lane's input is its candidate (R145). -/
theorem pickMark_first {m : LaneMark} {ofs : Int} (hline : c.lineAt ((m.ts : Rat) / (2 : Nat)) = some l) :
    c.pickMark m.input ofs none [m] = (c, some (candidate l ofs), []) := by
  have hat : c.candidateAt m.ts ofs = some (candidate l ofs) := by rw [Chip.candidateAt, hline, Option.map_some]
  simp only [Chip.pickMark, hat, ne_eq, not_true_eq_false, if_false]

/-- A node without a twin section places its MARK items. -/
theorem placesMarks_single (h : c.twin = false) : c.placesMarks = true := by simp [Chip.placesMarks, h]

/-- The only item is one of lane 3 that waits for a mark, on a lane that nothing precedes, in a CMP that runs without a twin section. -/
structure WaitsForMark (c : Chip) (a : Item) : Prop where
  runs : c.on F.CMP_CTRL_EN = true
  items : c.cmp.items = [a]
  stage : a.stage = .waiting
  anchor : a.anchor = 2
  lane : a.lane = 3
  single : c.twin = false
  first : c.cmp.laneEnd[3] = none

theorem WaitsForMark.next (h : WaitsForMark c a) : c.nextOf (3 : Fin 8) = some a := by
  rw [← nextOf_waiting h.items h.stage, h.lane]
  rfl

theorem WaitsForMark.other (h : WaitsForMark c a) (hi : i.val ≠ 3) : c.nextOf i = none := by
  obtain ⟨-, hitems, -, -, hlane, -, -⟩ := h
  exact nextOf_other hitems (by omega)

/-- The item of lane 3, which waits for a mark, is placed from the lane's only mark. -/
theorem serveMark_places {m : LaneMark} (h : WaitsForMark c a) (hsel : a.markSel = m.input) (hmarks : c.marksOf 3 = [m])
    (hline : c.lineAt ((m.ts : Rat) / (2 : Nat)) = some l) :
    c.serveMark 3 = (c.setMarks 3 []).placeItem a (candidate l a.markOfs) 0 := by
  have hfirst : c.cmp.laneEnd[(3 : Fin 8)] = none := h.first
  have hsingle : (c.setMarks 3 []).twin = false := h.single
  simp only [Chip.serveMark, h.next, h.stage, h.anchor, h.runs, hmarks, hsel, hfirst, placesMarks_single h.single, pickMark_first hline, hsingle,
    beq_self_eq_true, Bool.and_self, Bool.not_true, Bool.false_eq_true, if_false, if_true]

/-- A mark places the item of lane 3 that waits for it. -/
theorem markRecord_places {r : MarkRec} (hin : r.outside = false) (h : WaitsForMark c a) (hsel : a.markSel = r.input)
    (hnotes : c.cmp.notes = []) (hmarks : c.cmp.laneMarks = Vector.replicate 8 []) (hline : c.lineAt ((r.ts : Rat) / (2 : Nat)) = some l)
    (hw : c.cmp.w ≤ candidate l a.markOfs) :
    c.Only [.cmp, .nzh] {F.CMP_STAT_MARK_WAIT.addr} (c.markRecord r) ∧ (c.markRecord r).cmp.items = [a.placedAt (candidate l a.markOfs) 0] := by
  have hlane : a.lane < 8 := by rw [h.lane]; decide
  have hwaits : WaitsForMark (c.marksKept r) a := ⟨h.runs, h.items, h.stage, h.anchor, h.lane, h.single, h.first⟩
  have hmarks3 : (c.marksKept r).marksOf 3 = [⟨r.ts, r.input⟩] := by simp [Chip.marksKept, Chip.marksOf, hmarks]
  obtain ⟨honly, hplaced, hnotes'⟩ := only_placeItem_alone (c := (c.marksKept r).setMarks 3 []) (f := 0) hlane hw h.items
  have hserve : ((c.marksKept r).serveNotes 3).serveMark 3 = ((c.marksKept r).setMarks 3 []).placeItem a (candidate l a.markOfs) 0 := by
    rw [serveNotes_none (c := c.marksKept r) hnotes]
    exact serveMark_places (m := ⟨r.ts, r.input⟩) hwaits hsel hmarks3 hline
  have hfold : c.markRecord r = ((c.marksKept r).setMarks 3 []).placeItem a (candidate l a.markOfs) 0 := by
    rw [markRecord_inside hin]
    refine foldl_lane3 (fun i hi => ?_) hserve fun i => ?_
    · exact serveLane_none (c := c.marksKept r) hnotes (hwaits.other hi)
    · exact serveLane_none (hnotes'.trans hnotes) (nextOf_of_placed hplaced rfl _)
  rw [hfold]
  exact ⟨.trans (.withCmp (.withCmp (.refl _ _ c) (by simp)) (by simp)) honly, hplaced⟩

/-! ### The notice of a missing mark (R84, R146) -/

/-- A missing mark places the item of lane 3 at the line where the mark should have been. -/
theorem missingMark_places {y : Nat} {ref : Int} (h : WaitsForMark c a) (hsel : a.markSel = y) (hpol : a.missPol = 0)
    (hline : c.referenceLine y ref = some l) :
    c.missingMark y ref 3 = (c.emit 0x0B09).placeItem a (candidate l a.markOfs) (2 ^ flagSubst) := by
  have hfirst : c.cmp.laneEnd[(3 : Fin 8)] = none := h.first
  simp only [Chip.missingMark, h.next, h.stage, h.anchor, h.runs, hsel, hpol, hfirst, placesMarks_single h.single, hline, h.single,
    startsTooEarly, beq_self_eq_true, Bool.and_self, Bool.false_eq_true, if_false, if_true]

/-- The notice places the item of lane 3 that waits for the mark, and is recorded. -/
theorem missingMark_lanes {y : Nat} {ref : Int} (h : WaitsForMark c a) (hsel : a.markSel = y) (hpol : a.missPol = 0)
    (hline : c.referenceLine y ref = some l) (hw : c.cmp.w ≤ candidate l a.markOfs) :
    let d := allPorts.foldl (fun (c : Chip) (i : Fin 8) => c.missingMark y ref i) c
    c.Only [.cmp, .nzh, .ev] {F.CMP_STAT_MARK_WAIT.addr} d ∧ d.cmp.items = [a.placedAt (candidate l a.markOfs) (2 ^ flagSubst)] ∧
      c.Raised d [(0x0B09, [])] := by
  have hlane : a.lane < 8 := by rw [h.lane]; decide
  obtain ⟨honly, hplaced, -⟩ := only_placeItem_alone (c := c.emit 0x0B09) (start := candidate l a.markOfs) (f := 2 ^ flagSubst) hlane hw h.items
  have hfold : allPorts.foldl (fun (c : Chip) (i : Fin 8) => c.missingMark y ref i) c = _ :=
    foldl_lane3 (fun _ hi => missingMark_none (h.other hi)) (missingMark_places h hsel hpol hline)
      fun _ => missingMark_none (nextOf_of_placed hplaced rfl _)
  rw [hfold]
  exact ⟨.trans (.emit (.refl _ _ c) (by simp)) (honly.mono (by simp) subset_rfl), hplaced,
    Eq.trans (honly.1 .ev (by simp)) (Chip.raised_emit _ _ rfl rfl rfl)⟩

/-! ### What is on its way to CMP (R30, R84, R147) -/

/-- A mark record, and a notice of a missing mark, leaves the way; a PLACE message is kept. -/
def Chip.markTaken (c : Chip) (rest : List MarkRec) : Chip := { c with pos := { c.pos with markWay := rest } }
def Chip.missTaken (c : Chip) (rest : List (Nat × Int)) : Chip := { c with pos := { c.pos with missWay := rest } }
def Chip.noteKept (c : Chip) (id : Nat) (start : Int) : Chip :=
  { c with cmp := { c.cmp with notes := c.cmp.notes ++ [{ id := id, start := start }] } }

/-- With no item in the queue a PLACE message waits. -/
theorem partnerPlace_kept {id : Nat} (h : c.cmp.items = []) : c.partnerPlace id start = c.noteKept id start := by
  have hlanes : allPorts.foldl Chip.serveMark (c.noteKept id start) = c.noteKept id start :=
    List.foldl_fixed' (fun _ => serveMark_none (nextOf_of_empty (c := c.noteKept id start) h _)) _
  exact hlanes

theorem markRecordRx_of {r : MarkRec} {rest : List MarkRec} (hway : s.chip.pos.markWay = r :: rest)
    (h : inIsland 5 (fun (c : Chip) => c.markRecord r) ((s.chip.at t).markTaken rest) = d) :
    exec (.markRecordRx t) s = .next { s with chip := d } := by
  have hway' : (s.chip.at t).pos.markWay = r :: rest := hway
  have hrx : (s.chip.at t).markRecordRx = d := by
    rw [Chip.markRecordRx, hway']
    exact h
  exact runChip_iff.mpr (by rw [hrx])

theorem markRecordRx_up {r : MarkRec} {rest : List MarkRec} (hup : s.chip.up 5 = true) (hway : s.chip.pos.markWay = r :: rest)
    (h : ((s.chip.at t).markTaken rest).markRecord r = d) : exec (.markRecordRx t) s = .next { s with chip := d } := by
  have hup' : ((s.chip.at t).markTaken rest).up 5 = true := hup
  exact markRecordRx_of hway ((inIsland_up hup').trans h)

/-- A record that is outside its window, or finds PIPE down, changes nothing in CMP. -/
theorem markRecord_lost {r : MarkRec} (h : r.outside = true ∨ c.up 5 = false) : inIsland 5 (fun (c : Chip) => c.markRecord r) c = c := by
  rcases h with hout | hdown
  · have hsame : c.markRecord r = c := if_pos hout
    simp only [inIsland, hsame, ite_self]
  · exact inIsland_down hdown

theorem missingNoticeRx_up {y : Nat} {ref : Int} {rest : List (Nat × Int)} (hup : s.chip.up 5 = true)
    (hway : s.chip.pos.missWay = (y, ref) :: rest)
    (h : allPorts.foldl (fun (c : Chip) (i : Fin 8) => c.missingMark y ref i) ((s.chip.at t).missTaken rest) = d) :
    exec (.markMissingNotice t) s = .next { s with chip := d } := by
  have hway' : (s.chip.at t).pos.missWay = (y, ref) :: rest := hway
  have hup' : ((s.chip.at t).missTaken rest).up 5 = true := hup
  have hrx : (s.chip.at t).missingNoticeRx = d := by
    rw [Chip.missingNoticeRx, hway']
    exact (inIsland_up hup').trans h
  exact runChip_iff.mpr (by rw [hrx])

end Sys2Proof.Machine
end

section
namespace Sys2Proof.Proofs
open Sys2Proof.Machine

/-- Settles O15: a mark or a notice goes to the lanes one by one, and only the lane of the item that waits does anything. -/
theorem marksPlaceItems : Obligations.MarksPlaceItems := by
  unfold Obligations.MarksPlaceItems
  refine ⟨?_, ?_, ?_, ?_, ?_, ?_⟩
  · intro t r rest s hup hway hin hitems hnotes
    have hkept := markRecord_kept (c := (s.chip.at t).markTaken rest) hin hitems hnotes
    exact ⟨_, markRecordRx_up hup hway hkept, leaves_of_only (.withCmp (.withPos (.refl _ _ _) (by simp)) (by simp)), rfl, rfl⟩
  · intro t r rest s hway hlost
    have hkept : inIsland 5 (fun (c : Chip) => c.markRecord r) ((s.chip.at t).markTaken rest) = (s.chip.at t).markTaken rest :=
      markRecord_lost hlost
    exact ⟨_, markRecordRx_of hway hkept, leaves_of_only (.withPos (.refl _ _ _) (by simp)), rfl⟩
  · intro t r a l s hup hon hway hin hitems hstage hanchor hlane hsel htwin hnotes hmarks hline hend hw
    have hwaits : WaitsForMark ((s.chip.at t).markTaken []) a := ⟨hon, hitems, hstage, hanchor, hlane, htwin, hend⟩
    obtain ⟨honly, hplaced⟩ := markRecord_places hin hwaits hsel hnotes hmarks hline hw
    refine ⟨_, markRecordRx_up hup hway rfl, leaves_of_only (.trans (.withPos (.refl _ _ _) (by simp)) (honly.mono (by simp) subset_rfl)), ?_⟩
    exact hplaced.trans (congrArg (fun b => [b]) (a.placedAt_unflagged _))
  · intro t y ref rest s hup hway hitems
    have hkept : allPorts.foldl (fun (c : Chip) (i : Fin 8) => c.missingMark y ref i) ((s.chip.at t).missTaken rest) =
        (s.chip.at t).missTaken rest :=
      List.foldl_fixed' (fun _ => missingMark_none (c := (s.chip.at t).missTaken rest) (nextOf_of_empty hitems _)) _
    exact ⟨_, missingNoticeRx_up hup hway hkept, leaves_of_only (.withPos (.refl _ _ _) (by simp)), rfl⟩
  · intro t y ref a l s hup hon hway hitems hstage hanchor hlane hsel hpol htwin hline hend hw
    have hwaits : WaitsForMark ((s.chip.at t).missTaken []) a := ⟨hon, hitems, hstage, hanchor, hlane, htwin, hend⟩
    obtain ⟨honly, hplaced, hraised⟩ := missingMark_lanes hwaits hsel hpol hline hw
    exact ⟨_, missingNoticeRx_up hup hway rfl, leaves_of_only (.trans (.withPos (.refl _ _ _) (by simp)) (honly.mono (by simp) subset_rfl)),
      hplaced, hraised⟩
  · intro t id start s hup hitems
    have hkept : (s.chip.at t).partnerPlace id start = (s.chip.at t).noteKept id start :=
      partnerPlace_kept hitems
    exact ⟨_, runChip_inIsland_eq hup hkept, leaves_of_only (.withCmp (.refl _ _ _) (by simp)), rfl⟩

end Sys2Proof.Proofs
end

section
/-!
PROOFS about the fields of one register, and about the sources of the tracking unit (R109 to R120, R136).
-/

namespace Sys2Proof.Machine

variable {c d e : Chip} {ps : List Part} {rs : Set Nat} {t n : Nat} {s : State} {f : Chip → Chip} {p q : Place}

/-! ### Fields of one register -/

/-- A flag reads as what was put into it. -/
theorem Chip.on_set_same (c : Chip) (p : Place) (b : Bool) (i j : Nat) (h : p.hi = p.lo) (hw : p.hi < 32) :
    (c.set p (bit b) i j).on p i j = b := by
  rw [Chip.on, Chip.get_set_same c p _ i j (by omega) hw, h, Nat.add_sub_cancel_left]
  cases b <;> rfl

/-- Two fields of one register without channels that share no bit. -/
def Place.apart (p q : Place) : Bool :=
  decide (q.addr = p.addr) && decide (p.lo ≤ p.hi + 1) && decide (p.hi < 32) && (decide (p.hi < q.lo) || decide (q.hi < p.lo))

theorem Place.at_of_apart (h : p.apart q = true) : q.at 0 0 = p.addr := by
  simp only [Place.apart, Bool.and_eq_true, decide_eq_true_eq] at h
  simp [Place.at, h.1.1.1]

/-- A field reads as before where another field of its register changes. -/
theorem Chip.get_set_apart (c : Chip) (p q : Place) (v : Nat) (h : p.apart q = true) : (c.set p v).get q = c.get q := by
  simp only [Place.apart, Bool.and_eq_true, Bool.or_eq_true, decide_eq_true_eq] at h
  obtain ⟨⟨⟨haddr, hle⟩, hw⟩, hd⟩ := h
  exact Chip.get_set_beside c p q v 0 0 0 0 (by simp [Place.at, haddr]) hle hw hd

theorem Chip.on_set_apart (c : Chip) (p q : Place) (v : Nat) (h : p.apart q = true) : (c.set p v).on q = c.on q := by
  rw [Chip.on, Chip.get_set_apart c p q v h, Chip.on]

/-- What an operation leaves alone, the command does, whether its island is up or not. -/
theorem runChip_idle {isl : Nat} (h : f (s.chip.at t) = s.chip.at t) :
    runChip t (inIsland isl f) s = .next { s with chip := s.chip.at t } :=
  runChip_iff.mpr (by rw [inIsland, h, ite_self])

/-! ### What TRK does of itself (R112, R115, R117, R136) -/

/-- The registers that TRK's service of its sources and of SPEED_REQ writes. -/
def sourceRegs : Set Nat := {F.TRK_STAT_ACTIVE.addr, F.TRK_SPREQ_STAT_CAUSE.addr}

/-- A change of the sources and of SPEED_REQ alone: of TRK_STAT only ACTIVE and COAST, of the loop and the line events nothing. -/
structure Chip.SourcesServed (c d : Chip) : Prop where
  only : c.Only [.trk, .ev] sourceRegs d
  trk : { d.trk with dAt := c.trk.dAt, fabFb := c.trk.fabFb, coastAt := c.trk.coastAt, spreqHold := c.trk.spreqHold } = c.trk
  stat : ∀ q : Place, F.TRK_STAT_ACTIVE.apart q = true → F.TRK_STAT_COAST.apart q = true → d.get q = c.get q

theorem Chip.SourcesServed.refl (c : Chip) : c.SourcesServed c := ⟨.refl _ _ c, rfl, fun _ _ _ => rfl⟩

theorem Chip.SourcesServed.trans (h : c.SourcesServed d) (h' : d.SourcesServed e) : c.SourcesServed e := by
  refine ⟨h.only.trans h'.only, ?_, fun q ha hc => (h'.stat q ha hc).trans (h.stat q ha hc)⟩
  have htrk := congrArg (fun (x : TrkSt) => { x with
    dAt := c.trk.dAt, fabFb := c.trk.fabFb, coastAt := c.trk.coastAt, spreqHold := c.trk.spreqHold }) h'.trk
  exact htrk.trans h.trk

/-- A part of the tracking unit's state beside its sources is as before. -/
theorem Chip.SourcesServed.keeps {α : Type} (h : c.SourcesServed d) (g : TrkSt → α)
    (hg : ∀ (x y : TrkSt), g { x with dAt := y.dAt, fabFb := y.fabFb, coastAt := y.coastAt, spreqHold := y.spreqHold } = g x) :
    g d.trk = g c.trk := (hg d.trk c.trk).symm.trans (congrArg g h.trk)

theorem Chip.sourcesServed_ite {b : Prop} [Decidable b] (hd : c.SourcesServed d) (he : c.SourcesServed e) :
    c.SourcesServed (if b then d else e) := by
  split <;> assumption

theorem Chip.sourcesServed_showActive (c : Chip) (n : Nat) : c.SourcesServed (c.showActive n) :=
  ⟨.withTrk (.set (.refl _ _ c) (.inl rfl)) (by simp), rfl, fun _ ha _ => Chip.get_set_apart c _ _ _ ha⟩

theorem Chip.sourcesServed_makeActive (c : Chip) (n m : Nat) : c.SourcesServed (c.makeActive n m) := by
  obtain ⟨honly, htrk, hstat⟩ := c.sourcesServed_showActive n
  exact ⟨honly.emit (by simp), htrk, hstat⟩

theorem Chip.sourcesServed_coast (c : Chip) : c.SourcesServed c.coast :=
  Chip.sourcesServed_ite (.refl c)
    ⟨.withTrk (.set (.refl _ _ c) (.inl rfl)) (by simp), rfl, fun _ _ hc => Chip.get_set_apart c _ _ _ hc⟩

theorem Chip.sourcesServed_followAfresh (c : Chip) (g : Nat → Bool) : c.SourcesServed (c.followAfresh g) :=
  ⟨.withTrk (.refl _ _ c) (by simp), rfl, fun _ _ _ => rfl⟩

theorem Chip.sourcesServed_abandon (c : Chip) (n : Nat) : c.SourcesServed (c.abandon n) := by
  have hafresh := c.sourcesServed_coast.trans (c.coast.sourcesServed_followAfresh fun i => i == c.activeSource)
  exact Chip.sourcesServed_ite (hafresh.trans (Chip.sourcesServed_makeActive _ _ _)) (hafresh.trans (Chip.sourcesServed_showActive _ _))

theorem Chip.sourcesServed_serveSources (c : Chip) : c.SourcesServed c.serveSources := by
  rw [Chip.serveSources]
  refine Chip.sourcesServed_ite (.refl c) ((c.sourcesServed_followAfresh fun i => !c.healthy i).trans ?_)
  refine Chip.sourcesServed_ite ?_ ?_
  · exact Chip.sourcesServed_ite (Chip.sourcesServed_makeActive _ _ _)
      (Chip.sourcesServed_ite (Chip.sourcesServed_makeActive _ _ _) (.refl _))
  · split
    · exact Chip.sourcesServed_abandon _ _
    · exact .refl _

/-- A field of TRK_SPREQ_STAT is set. -/
theorem Chip.SourcesServed.setSpreq {v : Nat} (h : c.SourcesServed d) (hp : p.at 0 0 = F.TRK_SPREQ_STAT_CAUSE.addr) :
    c.SourcesServed (d.set p v) := by
  refine ⟨h.only.set (.inr hp), h.trk, fun q ha hc => .trans (Chip.get_set_other d p q v 0 0 0 0 ?_) (h.stat q ha hc)⟩
  rw [hp, Place.at_of_apart ha]
  decide

/-- The hold of SPEED_REQ begins or ends. -/
theorem Chip.SourcesServed.hold {x : Option Nat} (h : c.SourcesServed d) : c.SourcesServed { d with trk := { d.trk with spreqHold := x } } :=
  ⟨h.only.withTrk (by simp), h.trk, h.stat⟩

theorem Chip.sourcesServed_serveSpreq (c : Chip) : c.SourcesServed c.serveSpreq := by
  have hcause : c.SourcesServed (c.set F.TRK_SPREQ_STAT_CAUSE c.spreqCauses) := (Chip.SourcesServed.refl c).setSpreq rfl
  have hout := hcause.setSpreq (p := F.TRK_SPREQ_STAT_OUT) (v := 1) rfl
  exact Chip.sourcesServed_ite (.refl c) (Chip.sourcesServed_ite hout.hold (Chip.sourcesServed_ite hcause.hold hcause))

theorem Chip.sourcesServed_serveTrk (c : Chip) : c.SourcesServed c.serveTrk :=
  c.sourcesServed_serveSources.trans (Chip.sourcesServed_serveSpreq _)

end Sys2Proof.Machine
end

section
/-!
PROOFS about the map, the steering and the time of the fabric (R109, R112, R426 to R431, R444 to R447).
-/

namespace Sys2Proof.Machine

variable {c d e : Chip} {ps : List Part} {rs : Set Nat} {t n m : Nat} {s : State} {f : Chip → Chip} {p q : Place} {b : Bool}

/-! ### The state of the fabric -/

theorem Chip.Only.setFab {x : FabSt} (h : c.Only ps rs d) (hm : .fab ∈ ps) : c.Only ps rs (d.setFab x) := by
  refine h.beside rfl fun q hq => ?_
  cases q
  case fab => exact absurd hm hq
  all_goals rfl

theorem Chip.Only.setFport {k : Fin 3} {x : FabPort} (h : c.Only ps rs d) (hm : .fab ∈ ps) : c.Only ps rs (d.setFport k x) := h.setFab hm

theorem Chip.Only.mapDirty (h : c.Only ps rs d) (hm : .fab ∈ ps) : c.Only ps rs d.mapDirty := h.setFab hm

theorem mapDirty_keeps (c : Chip) : c.mapDirty.fab.map = c.fab.map ∧ c.mapDirty.ev = c.ev := ⟨rfl, rfl⟩

theorem runFab_up (hup : s.chip.up 3 = true) (h : f (s.chip.at t) = d) : runFab t f s = .next { s with chip := d } :=
  runChip_inIsland_eq hup h

/-! ### Frames on their way out of the node (R429, R432, R434) -/

/-- What routing leaves: of the fabric all but the ports and the windows of broadcasts, of the registers all but FAB_HOP_DROP. -/
structure Chip.Routes (c d : Chip) : Prop where
  only : c.Only [.fab, .sent] {F.FAB_HOP_DROP_COUNT.addr} d
  fab : { d.fab with ports := c.fab.ports, bcast := c.fab.bcast } = c.fab

theorem Chip.Routes.refl (c : Chip) : c.Routes c := ⟨.refl _ _ c, rfl⟩

theorem Chip.Routes.trans (h : c.Routes d) (h' : d.Routes e) : c.Routes e := by
  refine ⟨h.only.trans h'.only, ?_⟩
  have hfab := congrArg (fun (x : FabSt) => { x with ports := c.fab.ports, bcast := c.fab.bcast }) h'.fab
  exact hfab.trans h.fab

theorem Chip.routes_foldl {α : Type} {g : Chip → α → Chip} (hg : ∀ (c : Chip) (x : α), c.Routes (g c x)) (l : List α) (c : Chip) :
    c.Routes (l.foldl g c) := by
  induction l generalizing c with
  | nil => exact .refl c
  | cons x l ih => exact (hg c x).trans (ih _)

theorem Chip.routes_send (c : Chip) (n : String) (l : List Nat) : c.Routes (c.send n l) := ⟨.send (.refl _ _ c) (by simp), rfl⟩

theorem Chip.routes_setFport (c : Chip) (k : Fin 3) (x : FabPort) : c.Routes (c.setFport k x) := ⟨.setFport (.refl _ _ c) (by simp), rfl⟩

theorem Chip.routes_hopDrop (c : Chip) : c.Routes c.hopDrop := ⟨.addSat (.refl _ _ c) rfl, rfl⟩

theorem Chip.routes_transmit (c : Chip) (k : Fin 3) (x : FabFrame) : c.Routes (c.transmit k x) :=
  (c.routes_setFport k _).trans (Chip.routes_send _ _ _)

theorem Chip.routes_fabServe (k : Fin 3) (n : Nat) (c : Chip) : c.Routes (Chip.fabServe k n c) := by
  induction n generalizing c with
  | zero => exact .refl c
  | succ n ih =>
    rw [Chip.fabServe]
    split
    · split
      · exact .refl c
      · exact ((c.routes_setFport k _).trans (Chip.routes_transmit _ _ _)).trans (ih _)
    · exact .refl c

theorem Chip.routes_outOf (c : Chip) (k : Fin 3) (x : FabFrame) : c.Routes (c.outOf k x) :=
  (c.routes_setFport k _).trans (Chip.routes_fabServe k _ _)

theorem Chip.routes_flood (c : Chip) (n : Nat) (x : FabFrame) : c.Routes (c.flood n x) :=
  Chip.routes_foldl (fun c k => by
    split
    · exact .refl c
    · exact c.routes_outOf k x) _ c

theorem Chip.routes_firstSeen {x : FabFrame} (h : c.firstSeen x = some d) : c.Routes d := by
  have hwindow : ∀ l, c.Routes (c.setFab { c.fab with bcast := l }) := fun l => ⟨.setFab (.refl _ _ c) (by simp), rfl⟩
  revert h
  rw [Chip.firstSeen]
  split
  · rintro ⟨⟩
    exact hwindow _
  · simp only
    split
    · exact nofun
    · split
      · rintro ⟨⟩
        exact hwindow _
      · split
        · exact nofun
        · rintro ⟨⟩
          exact hwindow _

theorem Chip.routes_forward (c : Chip) (n : Nat) (x : FabFrame) : c.Routes (c.forward n x) := by
  rw [Chip.forward]
  extract_lets y z
  split
  · exact c.routes_hopDrop
  split
  · exact c.routes_send _ _
  split
  · split
    · exact .refl c
    · rename_i d hseen
      refine (Chip.routes_firstSeen hseen).trans (.trans ?_ (Chip.routes_flood _ _ _))
      split
      · exact d.routes_send _ _
      · exact .refl d
  split
  · exact c.routes_send _ _
  split
  · exact c.routes_hopDrop
  split
  · exact c.routes_outOf _ _
  · exact c.routes_hopDrop

theorem Chip.routes_sendAll (c : Chip) (l : List FabFrame) : c.Routes (c.sendAll l) := Chip.routes_foldl (fun c x => c.routes_forward 3 x) l c

/-! ### The node's own TOPO (R426) -/

/-- The TOPO is numbered and noted. -/
def Chip.topoBegun (c : Chip) : Chip :=
  let c := c.setFab { c.fab with topoSeq := (c.fab.topoSeq + 1) % 256, topoAt := c.now, topoDue := false,
                                 topoSent := ((c.fab.topoSeq + 1) % 256 :: c.fab.topoSent).take 128 }
  c.setFab { c.fab with bcastSeq := c.fab.bcastSeq.set 0 ((c.fab.bcastSeq[0] + 1) % 65536) }

theorem topoSend_due (hon : c.on F.FAB_CTRL_EN = true) (hup : c.up 3 = true) (hdue : c.fab.topoDue = true ∨ c.fab.topoAt + ms 1 ≤ c.now) :
    c.topoBegun.Routes c.topoSend := by
  have hcond : (c.on F.FAB_CTRL_EN && c.up 3 && (c.fab.topoDue || decide (c.fab.topoAt + ms 1 ≤ c.now))) = true := by
    simp only [hon, hup, Bool.true_and, Bool.or_eq_true, decide_eq_true_eq, hdue]
  rw [Chip.topoSend, if_pos hcond]
  exact Chip.routes_sendAll _ _

theorem topoSend_idle (h : c.on F.FAB_CTRL_EN = false ∨ c.fab.topoDue = false ∧ c.now < c.fab.topoAt + ms 1) : c.topoSend = c := by
  refine if_neg ?_
  simp only [Bool.and_eq_true, Bool.or_eq_true, decide_eq_true_eq]
  rintro ⟨⟨hon, -⟩, hdue⟩
  rcases h with hoff | ⟨hnot, hearly⟩
  · exact absurd hon (by simp [hoff])
  · rcases hdue with hdue | hlate
    · exact absurd hdue (by simp [hnot])
    · omega

theorem topoSend_spec (hon : c.on F.FAB_CTRL_EN = true) (hup : c.up 3 = true) (hdue : c.fab.topoDue = true ∨ c.fab.topoAt + ms 1 ≤ c.now) :
    c.Only [.fab, .sent, .ldl, .ev] (blockRegsSet 0x18) c.topoSend ∧ c.topoSend.fab.topoSeq = (c.fab.topoSeq + 1) % 256 ∧
      c.topoSend.fab.topoAt = c.now ∧ c.topoSend.fab.topoDue = false ∧
      c.topoSend.fab.topoSent = ((c.fab.topoSeq + 1) % 256 :: c.fab.topoSent).take 128 ∧
      c.topoSend.fab.bcastSeq[0] = (c.fab.bcastSeq[0] + 1) % 65536 ∧ c.topoSend.fab.map = c.fab.map := by
  obtain ⟨honly, hfab⟩ := topoSend_due hon hup hdue
  have hdrop : F.FAB_HOP_DROP_COUNT.addr ∈ blockRegsSet 0x18 := by constructor <;> decide
  have hbegun : c.Only [.fab, .sent, .ldl, .ev] (blockRegsSet 0x18) c.topoBegun := .setFab (.setFab (.refl _ _ c) (by simp)) (by simp)
  refine ⟨hbegun.trans (honly.mono (by simp) (Set.singleton_subset_iff.mpr hdrop)), ?_, ?_, ?_, ?_, ?_, ?_⟩
  · exact congrArg FabSt.topoSeq hfab
  · exact congrArg FabSt.topoAt hfab
  · exact congrArg FabSt.topoDue hfab
  · exact congrArg FabSt.topoSent hfab
  · have hseq := congrArg (fun (x : FabSt) => x.bcastSeq[0]) hfab
    exact hseq.trans (by simp [Chip.topoBegun, Chip.setFab])
  · have hmap := congrArg FabSt.map hfab
    exact hmap

/-! ### The map and the election (R426, R427, R444, R445) -/

/-- FAB_RING and FAB_SEGMAP alone change with the map. -/
theorem Chip.only_showMap (c : Chip) : c.Only [] {F.FAB_RING_SIZE.addr, F.FAB_SEGMAP_REACH.addr} c.showMap :=
  .set (.set (.set (.set (.refl _ _ c) (by simp [Place.at])) (.inl rfl)) (.inl rfl)) (.inr rfl)

theorem showMap_fab (c : Chip) : c.showMap.fab = c.fab := c.only_showMap.1 .fab (by simp)

theorem showMap_valid (c : Chip) : c.showMap.on F.FAB_RING_VALID = true := by
  rw [Chip.showMap, Chip.on, Chip.get_set_other _ F.FAB_SEGMAP_REACH F.FAB_RING_VALID _ 0 0 0 0 (by decide)]
  exact Chip.on_set_same _ F.FAB_RING_VALID true 0 0 rfl (by decide)

/-- Distinct powers of two add up to the number of those bits. -/
theorem testBit_sum_two_pow (P : Nat → Bool) (n m : Nat) :
    (((List.range n).filter P).map (2 ^ ·)).sum < 2 ^ n ∧
      (((List.range n).filter P).map (2 ^ ·)).sum.testBit m = (decide (m < n) && P m) := by
  induction n with
  | zero => simp
  | succ n ih =>
    obtain ⟨hlt, hbit⟩ := ih
    have hpow : 2 ^ (n + 1) = 2 ^ n + 2 ^ n := by rw [pow_succ, mul_two]
    rw [List.range_succ, List.filter_append, List.map_append, List.sum_append]
    cases hP : P n with
    | false =>
      have hne : P m = true → m ≠ n := by rintro hm rfl; simp [hP] at hm
      refine ⟨by simp [hP]; omega, ?_⟩
      simp only [List.filter_cons, hP, Bool.false_eq_true, if_false, List.filter_nil, List.map_nil, List.sum_nil, Nat.add_zero, hbit]
      cases hm : P m
      · simp
      · have := hne hm
        simp only [Bool.and_true, decide_eq_decide]
        omega
    | true =>
      refine ⟨by simp [hP]; omega, ?_⟩
      simp only [List.filter_cons, hP, if_true, List.filter_nil, List.map_cons, List.map_nil, List.sum_cons, List.sum_nil, Nat.add_zero]
      rw [Nat.add_comm]
      rcases Nat.lt_trichotomy m n with hlow | rfl | hhigh
      · rw [Nat.testBit_two_pow_add_gt hlow, hbit]
        simp [hlow, Nat.lt_succ_of_lt hlow]
      · rw [Nat.testBit_two_pow_add_eq, Nat.testBit_lt_two_pow hlt]
        simp [hP]
      · have hle : 2 ^ (n + 1) ≤ 2 ^ m := Nat.pow_le_pow_right (by decide) hhigh
        rw [Nat.testBit_lt_two_pow (by omega)]
        simp only [show ¬ m < n + 1 by omega, decide_false, Bool.false_and]

/-- A segment is shown as reached where this node or one of the map lies in it. -/
theorem showMap_segments (c : Chip) (m : Nat) : bitAt (c.showMap.get F.FAB_SEGMAP_REACH) m =
    (decide (m < 16) && (decide (c.nodeId / 64 = m) || c.fab.map.any (fun x => x.topo.node / 64 == m))) := by
  rw [Chip.showMap, Chip.get_set_same _ _ _ 0 0 (by decide) (by decide), bitAt_eq_testBit]
  refine (Nat.testBit_mod_two_pow _ 16 m).trans ?_
  rw [(testBit_sum_two_pow _ 16 m).2, List.any_cons, List.any_map, ← Bool.and_assoc, Bool.and_self]
  rfl

/-- A field of FAB_TSYNC_STAT that is not MASTER_ID, ESTAB or MASTER. -/
def Place.besideMaster (p : Place) : Bool :=
  p.apart F.FAB_TSYNC_STAT_MASTER_ID && p.apart F.FAB_TSYNC_STAT_ESTAB && p.apart F.FAB_TSYNC_STAT_MASTER

/-- A change of FAB_TSYNC_STAT, with events, that leaves who is master. -/
structure Chip.KeepsMaster (c d : Chip) : Prop where
  only : c.Only [.ev] {F.FAB_TSYNC_STAT_MASTER.addr} d
  id : d.get F.FAB_TSYNC_STAT_MASTER_ID = c.get F.FAB_TSYNC_STAT_MASTER_ID
  estab : d.on F.FAB_TSYNC_STAT_ESTAB = c.on F.FAB_TSYNC_STAT_ESTAB
  master : d.on F.FAB_TSYNC_STAT_MASTER = c.on F.FAB_TSYNC_STAT_MASTER
  recs : c.ev.recs ⊆ d.ev.recs

theorem Chip.KeepsMaster.refl (c : Chip) : c.KeepsMaster c := ⟨.refl _ _ c, rfl, rfl, rfl, List.Subset.refl _⟩

theorem Chip.KeepsMaster.set {v : Nat} (h : c.KeepsMaster d) (hp : p.besideMaster = true) : c.KeepsMaster (d.set p v) := by
  obtain ⟨honly, hid, hestab, hmaster, hrecs⟩ := h
  simp only [Place.besideMaster, Bool.and_eq_true] at hp
  obtain ⟨⟨hpid, hpestab⟩, hpmaster⟩ := hp
  have haddr : p.at 0 0 = F.FAB_TSYNC_STAT_MASTER.addr := by
    have hsame := Place.at_of_apart hpmaster
    simpa [Place.at] using hsame.symm
  exact ⟨honly.set haddr, (Chip.get_set_apart d _ _ v hpid).trans hid, (Chip.on_set_apart d _ _ v hpestab).trans hestab,
    (Chip.on_set_apart d _ _ v hpmaster).trans hmaster, hrecs⟩

theorem Chip.KeepsMaster.emit {l : List (Nat × Nat)} (h : c.KeepsMaster d) : c.KeepsMaster (d.emit n l) :=
  ⟨h.only.emit (by simp), h.id, h.estab, h.master, List.Subset.trans h.recs (List.subset_append_left _ _)⟩

/-- The master has no upstream. -/
theorem chooseUpstream_master (h : c.on F.FAB_TSYNC_STAT_MASTER = true) : c.chooseUpstream =
    ((c.set F.FAB_TSYNC_STAT_UP_PORT 0).set F.FAB_TSYNC_STAT_HOPS 0).set F.FAB_TSYNC_STAT_HOLDOVER 0 := if_pos h

theorem Chip.keepsMaster_chooseUpstream (c : Chip) : c.KeepsMaster c.chooseUpstream := by
  rw [Chip.chooseUpstream]
  split
  · exact (((Chip.KeepsMaster.refl c).set rfl).set rfl).set rfl
  · split
    · exact (((Chip.KeepsMaster.refl c).set rfl).set rfl).set rfl
    · simp only
      split
      · exact (Chip.KeepsMaster.refl c).set rfl
      · exact (((Chip.KeepsMaster.refl c).set rfl).set rfl).emit

/-- The best rank in the map and of this node (R444). -/
def Chip.bestTopo (c : Chip) : Topo := (c.fab.map.map MapNode.topo).foldl (fun a b => if better b a then b else a) c.ownTopo

/-- The master of the election is shown. -/
def Chip.masterShown (c : Chip) : Chip :=
  let c' := (c.set F.FAB_TSYNC_STAT_MASTER_ID c.bestTopo.node).set F.FAB_TSYNC_STAT_MASTER (bit (c.bestTopo.node = c.nodeId))
  if c.bestTopo.node = c.nodeId then c'.set F.FAB_TSYNC_STAT_ESTAB 1 else c'

theorem masterShown_spec (c : Chip) : c.Only [] {F.FAB_TSYNC_STAT_MASTER.addr} c.masterShown ∧
    c.masterShown.get F.FAB_TSYNC_STAT_MASTER_ID = c.bestTopo.node % 2 ^ 10 ∧
    c.masterShown.on F.FAB_TSYNC_STAT_MASTER = decide (c.bestTopo.node = c.nodeId) ∧
    (c.bestTopo.node = c.nodeId → c.masterShown.on F.FAB_TSYNC_STAT_ESTAB = true) := by
  have hid : ∀ v, ((c.set F.FAB_TSYNC_STAT_MASTER_ID c.bestTopo.node).set F.FAB_TSYNC_STAT_MASTER v).get F.FAB_TSYNC_STAT_MASTER_ID =
      c.bestTopo.node % 2 ^ 10 := fun v => by
    rw [Chip.get_set_apart _ F.FAB_TSYNC_STAT_MASTER F.FAB_TSYNC_STAT_MASTER_ID v rfl]
    exact Chip.get_set_same _ _ _ 0 0 (by decide) (by decide)
  have hmaster : ((c.set F.FAB_TSYNC_STAT_MASTER_ID c.bestTopo.node).set F.FAB_TSYNC_STAT_MASTER (bit (c.bestTopo.node = c.nodeId))).on
      F.FAB_TSYNC_STAT_MASTER = decide (c.bestTopo.node = c.nodeId) := Chip.on_set_same _ _ _ 0 0 rfl (by decide)
  rw [Chip.masterShown]
  split
  · refine ⟨.set (.set (.set (.refl _ _ c) rfl) rfl) rfl, ?_, ?_, fun _ => Chip.on_set_same _ _ true 0 0 rfl (by decide)⟩
    · rw [Chip.get_set_apart _ F.FAB_TSYNC_STAT_ESTAB F.FAB_TSYNC_STAT_MASTER_ID 1 rfl, hid]
    · rw [Chip.on_set_apart _ F.FAB_TSYNC_STAT_ESTAB F.FAB_TSYNC_STAT_MASTER 1 rfl, hmaster]
  · rename_i hnot
    exact ⟨.set (.set (.refl _ _ c) rfl) rfl, hid _, hmaster, fun h => absurd h hnot⟩

/-- The election shows the best rank as master; where that is new it is recorded. -/
theorem elect_steps (c : Chip) : ∃ d, (d = c.masterShown ∨ d = (c.masterShown.emit 0x1809 [(2, c.bestTopo.node)]).mapDirty) ∧
    c.elect = d.chooseUpstream := by
  by_cases hwas : (c.get F.FAB_TSYNC_STAT_MASTER_ID, c.on F.FAB_TSYNC_STAT_MASTER) = (c.bestTopo.node, decide (c.bestTopo.node = c.nodeId))
  · exact ⟨_, .inl rfl, congrArg Chip.chooseUpstream (if_pos hwas)⟩
  · exact ⟨_, .inr rfl, congrArg Chip.chooseUpstream (if_neg hwas)⟩

theorem elect_spec (c : Chip) : c.Only [.fab, .ev] {F.FAB_TSYNC_STAT_MASTER.addr} c.elect ∧ c.elect.fab.map = c.fab.map ∧
    c.ev.recs ⊆ c.elect.ev.recs ∧ c.elect.get F.FAB_TSYNC_STAT_MASTER_ID = c.bestTopo.node % 2 ^ 10 ∧
    c.elect.on F.FAB_TSYNC_STAT_MASTER = decide (c.bestTopo.node = c.nodeId) ∧
    (c.bestTopo.node = c.nodeId → c.elect.on F.FAB_TSYNC_STAT_ESTAB = true ∧ c.elect.get F.FAB_TSYNC_STAT_HOPS = 0 ∧
      c.elect.get F.FAB_TSYNC_STAT_UP_PORT = 0) := by
  obtain ⟨hshown, hid, hmaster, hestab⟩ := masterShown_spec c
  obtain ⟨d, hd, helect⟩ := elect_steps c
  have hget : ∀ q : Place, d.get q = c.masterShown.get q := by rcases hd with rfl | rfl <;> exact fun _ => rfl
  have hon : ∀ q : Place, d.on q = c.masterShown.on q := fun q => by rw [Chip.on, hget, Chip.on]
  have honly : c.Only [.fab, .ev] {F.FAB_TSYNC_STAT_MASTER.addr} d := by
    rcases hd with rfl | rfl
    · exact hshown.mono (by simp) subset_rfl
    · exact ((hshown.mono (by simp) subset_rfl).emit (by simp)).mapDirty (by simp)
  have hmap : d.fab.map = c.fab.map := by
    have hfab : c.masterShown.fab = c.fab := hshown.1 .fab (by simp)
    rcases hd with rfl | rfl
    · rw [hfab]
    · have hshownMap := congrArg FabSt.map hfab
      exact hshownMap
  have hrecs : c.ev.recs ⊆ d.ev.recs := by
    have hev : c.masterShown.ev = c.ev := hshown.1 .ev (by simp)
    rcases hd with rfl | rfl
    · rw [hev]
      exact List.Subset.refl _
    · rw [← hev]
      exact List.subset_append_left _ _
  have hkeeps := d.keepsMaster_chooseUpstream
  have hfab : d.chooseUpstream.fab = d.fab := hkeeps.only.1 .fab (by simp)
  rw [helect, hfab]
  refine ⟨honly.trans (hkeeps.only.mono (by simp) subset_rfl), hmap, List.Subset.trans hrecs hkeeps.recs, ?_, ?_, fun hme => ⟨?_, ?_, ?_⟩⟩
  · rw [hkeeps.id, hget, hid]
  · rw [hkeeps.master, hon, hmaster]
  · rw [hkeeps.estab, hon, hestab hme]
  all_goals
    have hon' : d.on F.FAB_TSYNC_STAT_MASTER = true := by rw [hon, hmaster, decide_eq_true hme]
    rw [chooseUpstream_master hon']
  · rw [Chip.get_set_apart _ F.FAB_TSYNC_STAT_HOLDOVER F.FAB_TSYNC_STAT_HOPS 0 rfl]
    exact Chip.get_set_same _ _ _ 0 0 (by decide) (by decide)
  · rw [Chip.get_set_apart _ F.FAB_TSYNC_STAT_HOLDOVER F.FAB_TSYNC_STAT_UP_PORT 0 rfl,
      Chip.get_set_apart _ F.FAB_TSYNC_STAT_HOPS F.FAB_TSYNC_STAT_UP_PORT 0 rfl]
    exact Chip.get_set_same _ _ _ 0 0 (by decide) (by decide)

/-! ### A TOPO of another node (R426, R427, R444) -/

/-- The TOPO of another node enters the map. -/
def Chip.topoEntered (c : Chip) (v : Topo) : Chip :=
  let d := c.setFab { c.fab with map := ⟨v, c.now⟩ :: c.fab.map.filter (fun m => m.topo.node != v.node) }
  if (c.topoOf v.node).map Topo.states = some v.states ∧ (c.topoOf v.node).map Topo.peers = some v.peers then d
  else d.setFab { d.fab with mapChanged := true }

theorem topoRx_own {v : Topo} (hown : v.node = c.nodeId) :
    c.topoRx v = if c.fab.topoSent.contains v.tseq then c else (c.set F.FAB_STAT_DUP_ID 1).emit 0x1805 := if_pos hown

/-- A TOPO with this node's number that this node did not send. -/
theorem topoRx_duplicate {v : Topo} (hown : v.node = c.nodeId) (hnew : v.tseq ∉ c.fab.topoSent) :
    c.Only [.ev] {F.FAB_STAT_DUP_ID.addr} (c.topoRx v) ∧ (c.topoRx v).on F.FAB_STAT_DUP_ID = true ∧ c.Raised (c.topoRx v) [(0x1805, [])] := by
  have hflag : c.Only [] {F.FAB_STAT_DUP_ID.addr} (c.set F.FAB_STAT_DUP_ID 1) := .set (.refl _ _ c) rfl
  rw [topoRx_own hown, if_neg (by simpa using hnew)]
  refine ⟨(hflag.mono (by simp) subset_rfl).emit (by simp), ?_, ?_⟩
  · rw [Chip.emit_on]
    exact Chip.on_set_same c F.FAB_STAT_DUP_ID true 0 0 rfl (by decide)
  · exact Chip.raised_emit _ _ rfl rfl (hflag.2 _ (by decide))

theorem topoRx_other {v : Topo} (h : v.node ≠ c.nodeId) : c.topoRx v = (c.topoEntered v).showMap.elect := if_neg h

theorem topoEntered_spec (c : Chip) (v : Topo) : c.Only [.fab] ∅ (c.topoEntered v) ∧
    (c.topoEntered v).fab.map = ⟨v, c.now⟩ :: c.fab.map.filter (fun m => m.topo.node != v.node) ∧
    (c.topoEntered v).fab.topoSeq = c.fab.topoSeq := by
  rw [Chip.topoEntered]
  split
  · exact ⟨.setFab (.refl _ _ c) (by simp), rfl, rfl⟩
  · exact ⟨.setFab (.setFab (.refl _ _ c) (by simp)) (by simp), rfl, rfl⟩

/-- The registers of the map and of the election. -/
def mapRegs : Set Nat := {F.FAB_RING_SIZE.addr, F.FAB_SEGMAP_REACH.addr, F.FAB_TSYNC_STAT_MASTER.addr}

/-- The map as it stands is shown, and the election held. -/
theorem Chip.Only.mapShown (h : c.Only ps rs d) (hf : .fab ∈ ps) (he : .ev ∈ ps) (hr : mapRegs ⊆ rs) : c.Only ps rs d.showMap.elect := by
  have hps : [Part.fab, Part.ev] ⊆ ps := by
    intro q hq
    rcases List.mem_pair.mp hq with rfl | rfl
    · exact hf
    · exact he
  refine (h.trans (d.only_showMap.mono (by simp) ?_)).trans ((elect_spec _).1.mono hps ?_)
  · exact Set.Subset.trans (by simp [mapRegs, Set.insert_subset_iff]) hr
  · exact Set.Subset.trans (by simp [mapRegs]) hr

/-- What a node says of itself does not depend on what it shows of the map. -/
theorem ownTopo_entered (c : Chip) (v : Topo) : (c.topoEntered v).showMap.ownTopo = c.ownTopo := by
  obtain ⟨hentered, -, hseq⟩ := topoEntered_spec c v
  have honly : c.Only [.fab] {F.FAB_RING_SIZE.addr, F.FAB_SEGMAP_REACH.addr} (c.topoEntered v).showMap :=
    (hentered.mono (by simp) (by simp)).trans ((c.topoEntered v).only_showMap.mono (by simp) subset_rfl)
  have hseq' : (c.topoEntered v).showMap.fab.topoSeq = c.fab.topoSeq := by rw [showMap_fab, hseq]
  have hget : ∀ (q : Place) (i j : Nat), q.at i j ≠ F.FAB_RING_SIZE.addr → q.at i j ≠ F.FAB_SEGMAP_REACH.addr →
      (c.topoEntered v).showMap.get q i j = c.get q i j := fun q i j hr hs => honly.get (by simp [hr, hs])
  simp (disch := decide) only [Chip.ownTopo, Chip.nodeId, Chip.fabState, fabPorts, List.map_cons, List.map_nil, Chip.on, hget, hseq']

/-- Of two ranks the better is master (R444). -/
theorem bestTopo_entered {v : Topo} (halone : ∀ m ∈ c.fab.map, m.topo.node = v.node) :
    (c.topoEntered v).showMap.bestTopo = if better v c.ownTopo then v else c.ownTopo := by
  have hmap : (c.topoEntered v).showMap.fab.map = [⟨v, c.now⟩] := by
    have hnone : c.fab.map.filter (fun m => m.topo.node != v.node) = [] := by
      rw [List.filter_eq_nil_iff]
      intro m hm
      simp [halone m hm]
    rw [showMap_fab, (topoEntered_spec c v).2.1, hnone]
  rw [Chip.bestTopo, hmap, ownTopo_entered]
  rfl

theorem topoRx_spec {v : Topo} (hother : v.node ≠ c.nodeId) : c.Only [.fab, .ev] mapRegs (c.topoRx v) ∧
    (c.topoRx v).fab.map = ⟨v, c.now⟩ :: c.fab.map.filter (fun m => m.topo.node != v.node) ∧
    (c.topoRx v).on F.FAB_RING_VALID = true ∧
    (c.topoRx v).get F.FAB_SEGMAP_REACH = (c.topoEntered v).showMap.get F.FAB_SEGMAP_REACH := by
  obtain ⟨hentered, hmap, -⟩ := topoEntered_spec c v
  obtain ⟨helect, hkept, -⟩ := elect_spec (c.topoEntered v).showMap
  rw [showMap_fab] at hkept
  rw [topoRx_other hother]
  refine ⟨(hentered.mono (by simp) (by simp)).mapShown (by simp) (by simp) subset_rfl, hkept.trans hmap, ?_, helect.get (by decide)⟩
  exact (helect.on (by decide)).trans (showMap_valid _)

theorem topoEntered_nodeId (c : Chip) (v : Topo) : (c.topoEntered v).showMap.nodeId = c.nodeId :=
  ((c.topoEntered v).only_showMap.get (by decide)).trans ((topoEntered_spec c v).1.get (by simp))

theorem topoRx_segments {v : Topo} (hother : v.node ≠ c.nodeId) (m : Nat) : bitAt ((c.topoRx v).get F.FAB_SEGMAP_REACH) m =
    (decide (m < 16) && (decide (c.nodeId / 64 = m) || (c.topoRx v).fab.map.any (fun x => x.topo.node / 64 == m))) := by
  obtain ⟨hentered, hmap, -⟩ := topoEntered_spec c v
  obtain ⟨-, hmap', -, hreach⟩ := topoRx_spec hother
  have hid : (c.topoEntered v).nodeId = c.nodeId := hentered.get (by simp)
  rw [hreach, showMap_segments, hid, hmap, hmap']

theorem ownTopo_node (c : Chip) : c.ownTopo.node = c.nodeId := rfl

/-- The election after a TOPO of the only other node of the map, which is better. -/
theorem topoRx_loses {v : Topo} (hother : v.node ≠ c.nodeId) (halone : ∀ m ∈ c.fab.map, m.topo.node = v.node)
    (hbetter : better v c.ownTopo = true) : (c.topoRx v).get F.FAB_TSYNC_STAT_MASTER_ID = v.node % 2 ^ 10 ∧
      (c.topoRx v).on F.FAB_TSYNC_STAT_MASTER = false := by
  obtain ⟨-, -, -, hid, hmaster, -⟩ := elect_spec (c.topoEntered v).showMap
  rw [bestTopo_entered halone, hbetter, if_pos rfl] at hid hmaster
  rw [topoEntered_nodeId, decide_eq_false hother] at hmaster
  rw [topoRx_other hother]
  exact ⟨hid, hmaster⟩

/-- The election after a TOPO of the only other node of the map, which is no better. -/
theorem topoRx_wins {v : Topo} (hother : v.node ≠ c.nodeId) (halone : ∀ m ∈ c.fab.map, m.topo.node = v.node)
    (hbetter : better v c.ownTopo = false) : (c.topoRx v).get F.FAB_TSYNC_STAT_MASTER_ID = c.nodeId ∧
      (c.topoRx v).on F.FAB_TSYNC_STAT_MASTER = true ∧ (c.topoRx v).on F.FAB_TSYNC_STAT_ESTAB = true ∧
      (c.topoRx v).get F.FAB_TSYNC_STAT_HOPS = 0 ∧ (c.topoRx v).get F.FAB_TSYNC_STAT_UP_PORT = 0 := by
  obtain ⟨-, -, -, hid, hmaster, hrest⟩ := elect_spec (c.topoEntered v).showMap
  rw [bestTopo_entered halone, hbetter, if_neg Bool.false_ne_true, ownTopo_node] at hid hmaster hrest
  have hme : c.nodeId = (c.topoEntered v).showMap.nodeId := (topoEntered_nodeId c v).symm
  rw [topoRx_other hother]
  exact ⟨hid.trans (Nat.mod_eq_of_lt (c.get_lt F.FAB_NODE_NODE_ID 0 0)), hmaster.trans (decide_eq_true hme), hrest hme⟩

/-! ### A node is lost (R428) -/

theorem nodeGone_silent (hin : ∃ m ∈ c.fab.map, m.topo.node = n) (hold : ∀ m ∈ c.fab.map, m.topo.node = n → m.at' + ms 3 ≤ c.now) :
    c.nodeGone n = true := by
  obtain ⟨m, hm, hnode⟩ := hin
  cases hfind : c.fab.map.find? (fun m => m.topo.node == n) with
  | none =>
    rw [List.find?_eq_none] at hfind
    exact absurd (beq_iff_eq.mpr hnode) (hfind m hm)
  | some x =>
    have hnode' : (x.topo.node == n) = true := List.find?_some (p := fun (m : MapNode) => m.topo.node == n) hfind
    have hx := hold x (List.mem_of_find?_eq_some hfind) (beq_iff_eq.mp hnode')
    simp only [Chip.nodeGone, hfind, decide_eq_true hx, Bool.true_or]

/-- A node that the map does not hold is not lost. -/
theorem nodeGone_unknown (h : ∀ m ∈ c.fab.map, m.topo.node ≠ n) : c.nodeGone n = false := by
  have hfind : c.fab.map.find? (fun m => m.topo.node == n) = none := by
    rw [List.find?_eq_none]
    exact fun m hm => by simp [h m hm]
  simp only [Chip.nodeGone, Chip.topoOf, hfind, Option.map_none, Option.isSome_none, Bool.false_and, Bool.or_self]

/-- Node n leaves the map, and the loss is recorded. -/
def Chip.nodeRemoved (c : Chip) (n : Nat) : Chip :=
  (c.setFab { c.fab with map := c.fab.map.filter (fun m => m.topo.node != n) }).emit 0x1808 [(2, n)]

theorem nodeLost_spec (hgone : c.nodeGone n = true) (hpri : c.get F.TRK_SRC_PRI ≠ 2) (hfb : c.get F.TRK_SRC_FB ≠ 2) :
    c.Only [.fab, .ev] mapRegs (c.nodeLost n) ∧ (c.nodeLost n).fab.map = c.fab.map.filter (fun m => m.topo.node != n) ∧
      (c.nodeLost n).fab.mapChanged = true ∧ (c.nodeLost n).fab.topoDue = true ∧ ∃ e ∈ (c.nodeLost n).ev.recs, e.code = 0x1808 := by
  obtain ⟨-, hmap, hrecs, -⟩ := elect_spec (c.nodeRemoved n).showMap
  have hev : (c.nodeRemoved n).showMap.ev = (c.nodeRemoved n).ev := (c.nodeRemoved n).only_showMap.1 .ev (by simp)
  rw [showMap_fab] at hmap
  rw [hev] at hrecs
  have honly : c.Only [.fab, .ev] mapRegs (c.nodeRemoved n).showMap.elect.mapDirty :=
    ((Chip.Only.setFab (.refl _ _ c) (by simp)).emit (by simp)).mapShown (by simp) (by simp) subset_rfl |>.mapDirty (by simp)
  have hpri' : (c.nodeRemoved n).showMap.elect.mapDirty.get F.TRK_SRC_PRI ≠ 2 := by
    rwa [honly.get (by simp [mapRegs]; decide)]
  have hfb' : (c.nodeRemoved n).showMap.elect.mapDirty.get F.TRK_SRC_FB ≠ 2 := by
    rwa [honly.get (by simp [mapRegs]; decide)]
  have hnone : (c.nodeRemoved n).showMap.elect.mapDirty.fabMembers n = [] := by simp [Chip.fabMembers, hpri', hfb']
  have hlost : c.nodeLost n = (c.nodeRemoved n).showMap.elect.mapDirty := (if_pos hgone).trans (if_pos hnone)
  obtain ⟨hdirtyMap, hdirtyEv⟩ := mapDirty_keeps (c.nodeRemoved n).showMap.elect
  rw [hlost, hdirtyMap, hdirtyEv]
  refine ⟨honly, hmap, rfl, rfl, ?_⟩
  exact ⟨_, hrecs (List.mem_append_right _ (List.mem_singleton_self _)), rfl⟩

/-! ### Steering (R431) -/

/-- Press time has no part in which links are open. -/
theorem wayOpen_at (c : Chip) (t dir n pos : Nat) : (c.at t).wayOpen dir n pos = c.wayOpen dir n pos := by
  induction n generalizing pos with
  | zero => rfl
  | succ n ih =>
    simp only [Chip.wayOpen, ih]
    rfl

/-- The direction to a ring position, from which ways round the ring are open (R431). -/
def Chip.steered (c : Chip) (pos : Nat) : Nat :=
  let e := (pos + c.ringSize - c.position) % c.ringSize
  let w := (c.position + c.ringSize - pos) % c.ringSize
  let eOk := c.wayOpen 1 e c.position
  let wOk := c.wayOpen 2 w c.position
  if eOk && (decide (e ≤ w) || !wOk) then 1 else if wOk then 2 else if e ≤ w then 1 else 2

theorem steered_at (c : Chip) (t pos : Nat) : (c.at t).steered pos = c.steered pos := by
  simp only [Chip.steered, wayOpen_at]
  rfl

/-- Only one way round the ring is open (R431). -/
theorem steered_east {pos : Nat} (heast : c.wayOpen 1 ((pos + c.ringSize - c.position) % c.ringSize) c.position = true)
    (hwest : c.wayOpen 2 ((c.position + c.ringSize - pos) % c.ringSize) c.position = false) : c.steered pos = 1 := by
  simp only [Chip.steered, heast, hwest, Bool.not_false, Bool.or_true, Bool.and_self, if_true]

theorem steered_west {pos : Nat} (heast : c.wayOpen 1 ((pos + c.ringSize - c.position) % c.ringSize) c.position = false)
    (hwest : c.wayOpen 2 ((c.position + c.ringSize - pos) % c.ringSize) c.position = true) : c.steered pos = 2 := by
  simp only [Chip.steered, heast, hwest, Bool.false_and, Bool.false_eq_true, if_false, if_true]

theorem steer_idle (h : c.fab.mapChanged = false ∨ c.sys.lcUp = false) : c.steer = c := by
  refine if_neg ?_
  rcases h with h | h <;> simp [h]

theorem steer_spec (hchanged : c.fab.mapChanged = true) (hlc : c.sys.lcUp = true) : c.Only [.fab, .ev] mapRegs c.steer ∧
    c.steer.fab.mapChanged = false ∧ c.steer.fab.dirs = (List.range 64).map c.steered := by
  have hcond : (c.fab.mapChanged && c.sys.lcUp) = true := by rw [hchanged, hlc, Bool.and_self]
  have hsteer : c.steer = ((c.setFab { c.fab with dirs := (List.range 64).map c.steered, mapChanged := false }).emit 0x1807).showMap.chooseUpstream :=
    if_pos hcond
  have honly : c.Only [.fab, .ev] mapRegs ((c.setFab { c.fab with dirs := (List.range 64).map c.steered, mapChanged := false }).emit 0x1807) :=
    .emit (.setFab (.refl _ _ c) (by simp)) (by simp)
  have hkeeps := Chip.keepsMaster_chooseUpstream
    ((c.setFab { c.fab with dirs := (List.range 64).map c.steered, mapChanged := false }).emit 0x1807).showMap
  have hfab := hkeeps.only.1 .fab (by simp)
  rw [hsteer]
  refine ⟨(honly.trans ((Chip.only_showMap _).mono (by simp) ?_)).trans (hkeeps.only.mono (by simp) (by simp [mapRegs])), ?_, ?_⟩
  · simp [mapRegs, Set.insert_subset_iff]
  · exact congrArg FabSt.mapChanged hfab
  · exact congrArg FabSt.dirs hfab

theorem steer_dir (hchanged : c.fab.mapChanged = true) (hlc : c.sys.lcUp = true) {pos : Nat} (h : pos < 64) :
    c.steer.fab.dirs.getD pos 0 = c.steered pos := by
  rw [(steer_spec hchanged hlc).2.2]
  simp [List.getD, h]

/-! ### The time exchange (R446, R447, R462) -/

/-- TREQ goes to the upstream. -/
def Chip.exchangeBegun (c : Chip) : Chip :=
  (c.setFab { c.fab with tseq := (c.fab.tseq + 1) % 256, t1 := some (c.now / 2 ^ 26), exchangedAt := c.now }).send "treq"
    [c.get F.FAB_TSYNC_STAT_UP_PORT - 1, (c.fab.tseq + 1) % 256]

theorem timeExchange_due (hon : c.on F.FAB_TSYNC_EN = true) (hup : c.get F.FAB_TSYNC_STAT_UP_PORT ≠ 0)
    (hdue : c.fab.exchangedAt + us (c.get F.FAB_TSYNC_PER) ≤ c.now) : c.timeExchange = c.exchangeBegun := if_pos ⟨hon, hup, hdue⟩

theorem timeExchange_idle (h : c.on F.FAB_TSYNC_EN = false ∨ c.get F.FAB_TSYNC_STAT_UP_PORT = 0 ∨
    c.now < c.fab.exchangedAt + us (c.get F.FAB_TSYNC_PER)) : c.timeExchange = c := by
  refine if_neg ?_
  rintro ⟨hon, hup, hdue⟩
  rcases h with hoff | hnone | hearly
  · exact absurd hon (by simp [hoff])
  · exact hup hnone
  · omega

/-- The exchange is over, with its offset and delay shown. -/
def Chip.exchanged (c : Chip) (k : Fin 3) (theta delay : Int) : Chip :=
  ((c.setFab { c.fab with t1 := none }).set F.FAB_TSYNC_OFS_OFS (unsigned 32 theta)).set F.FAB_P_DELAY_DELAY (unsigned 24 delay) k

theorem only_exchanged (c : Chip) (k : Fin 3) (theta delay : Int) :
    c.Only [.fab] {F.FAB_TSYNC_OFS_OFS.addr, F.FAB_P_DELAY_DELAY.at k 0} (c.exchanged k theta delay) :=
  .set (.set (.setFab (.refl _ _ c) (by simp)) (.inl rfl)) (.inr rfl)

theorem exchanged_fab (c : Chip) (k : Fin 3) (theta delay : Int) : (c.exchanged k theta delay).fab = { c.fab with t1 := none } := rfl

theorem unsigned_lt (w : Nat) (v : Int) : unsigned w v < 2 ^ w := by
  have hpos : (0 : Int) < ((2 ^ w : Nat) : Int) := by positivity
  have hlt := Int.emod_lt_of_pos v hpos
  have hnonneg := Int.emod_nonneg v hpos.ne'
  unfold unsigned
  omega

theorem delay_beside (k : Fin 3) : F.FAB_TSYNC_OFS_OFS.at 0 0 ≠ F.FAB_P_DELAY_DELAY.at k 0 := by
  revert k
  decide

theorem exchanged_shows (c : Chip) (k : Fin 3) (theta delay : Int) :
    (c.exchanged k theta delay).get F.FAB_TSYNC_OFS_OFS = unsigned 32 theta ∧
      (c.exchanged k theta delay).get F.FAB_P_DELAY_DELAY k = unsigned 24 delay := by
  constructor
  · rw [Chip.exchanged, Chip.get_set_other _ _ _ _ _ _ _ _ (delay_beside k), Chip.get_set_same _ _ _ 0 0 (by decide) (by decide)]
    exact Nat.mod_eq_of_lt (unsigned_lt 32 theta)
  · rw [Chip.exchanged, Chip.get_set_same _ _ _ k 0 (by decide) (by decide)]
    exact Nat.mod_eq_of_lt (unsigned_lt 24 delay)

theorem delay_beside_stat (k : Fin 3) : F.FAB_P_DELAY_DELAY.at k 0 ∉ ({F.FAB_TSYNC_STAT_LOCKED.addr} : Set Nat) := by
  revert k
  decide

theorem isl_beside (k : Fin 3) :
    F.SYS_ISL_STAT_TIME_VALID.addr ∉ ({F.FAB_TSYNC_OFS_OFS.addr, F.FAB_P_DELAY_DELAY.at k 0} : Set Nat) := by
  have hall : ∀ k : Fin 3, F.SYS_ISL_STAT_TIME_VALID.addr ≠ F.FAB_TSYNC_OFS_OFS.addr ∧
      F.SYS_ISL_STAT_TIME_VALID.addr ≠ F.FAB_P_DELAY_DELAY.at k 0 := by decide
  simpa using hall k

theorem sync_beside (k : Fin 3) (q : Place) (hq : q ∈ [F.FAB_TSYNC_STAT_LOCKED, F.FAB_XTSYNC_STEP_THR, F.FAB_XTSYNC_LOCK_THR, F.FAB_XTSYNC_LOCK_N]) :
    q.at 0 0 ∉ ({F.FAB_TSYNC_OFS_OFS.addr, F.FAB_P_DELAY_DELAY.at k 0} : Set Nat) := by
  have hall : ∀ k : Fin 3, ∀ q ∈ [F.FAB_TSYNC_STAT_LOCKED, F.FAB_XTSYNC_STEP_THR, F.FAB_XTSYNC_LOCK_THR, F.FAB_XTSYNC_LOCK_N],
      q.at 0 0 ≠ F.FAB_TSYNC_OFS_OFS.addr ∧ q.at 0 0 ≠ F.FAB_P_DELAY_DELAY.at k 0 := by decide
  simpa using hall k q hq

/-- What the time keeper does with an offset (R447). -/
def Chip.keepTime (c : Chip) (theta : Int) : Chip :=
  let big := decide (64 * c.get F.FAB_XTSYNC_STEP_THR < theta.natAbs)
  let ok := decide (theta.natAbs ≤ 16 * c.get F.FAB_XTSYNC_LOCK_THR)
  if c.on F.FAB_TSYNC_STAT_LOCKED then (if big then c.emit 0x180C else c)
  else
    let c := if big && !c.fab.everLocked then c.timeStep theta else c
    let n := if ok then c.fab.good + 1 else 0
    let c := c.setFab { c.fab with good := n }
    if c.get F.FAB_XTSYNC_LOCK_N ≤ n then
      let c := c.setFab { c.fab with everLocked := true }
      (((c.set F.FAB_TSYNC_STAT_LOCKED 1).set F.FAB_TSYNC_STAT_ESTAB 1).emit 0x180A [(4, unsigned 32 theta)]).mapDirty
    else c

/-- The answer of the upstream to the exchange in progress. -/
theorem timeDataRx_answered {t1 t2 t3 t4 : Nat} {k : Fin 3} {theta : Int} (hbegun : c.fab.t1 = some t1) (hseq : c.fab.tseq = n)
    (hup : c.get F.FAB_TSYNC_STAT_UP_PORT = k.val + 1)
    (htheta : theta = (((t2 : Int) - t1) + ((t3 : Int) - t4) - signed 16 (c.get F.FAB_ASYM_ASYM k)) / 2) :
    c.timeDataRx n t2 t3 t4 =
      (c.exchanged k theta ((((t4 : Int) - t1) - ((t3 : Int) - t2) + signed 16 (c.get F.FAB_ASYM_ASYM k)) / 2)).keepTime theta := by
  have hone : k.val + 1 - 1 = k.val := Nat.add_sub_cancel _ _
  have hopen : ¬ (c.fab.tseq ≠ n ∨ k.val + 1 = 0) := by simp [hseq]
  simp only [Chip.timeDataRx, hbegun, hup, if_neg hopen, hone, ← htheta]
  rfl

theorem timeDataRx_idle {t2 t3 t4 : Nat} (h : c.fab.t1 = none ∨ c.fab.tseq ≠ n) : c.timeDataRx n t2 t3 t4 = c := by
  rw [Chip.timeDataRx]
  cases hbegun : c.fab.t1 with
  | none => rfl
  | some t1 =>
    have hseq : c.fab.tseq ≠ n := h.resolve_left (by simp [hbegun])
    exact if_pos (.inl hseq)

section keepTime
variable {theta delay : Int} {k : Fin 3}

/-- The fields that the time keeper goes by are no part of the answer. -/
theorem exchanged_get (c : Chip) (k : Fin 3) (theta delay : Int) (q : Place)
    (hq : q ∈ [F.FAB_TSYNC_STAT_LOCKED, F.FAB_XTSYNC_STEP_THR, F.FAB_XTSYNC_LOCK_THR, F.FAB_XTSYNC_LOCK_N]) :
    (c.exchanged k theta delay).get q = c.get q := (only_exchanged c k theta delay).get (sync_beside k q hq)

theorem keepTime_locked (hlocked : c.on F.FAB_TSYNC_STAT_LOCKED = true) :
    c.keepTime theta = if 64 * c.get F.FAB_XTSYNC_STEP_THR < theta.natAbs then c.emit 0x180C else c := by
  simp only [Chip.keepTime, hlocked, if_true, decide_eq_true_eq]

/-- A first large offset steps the time keeper. -/
theorem keepTime_steps (hlocked : c.on F.FAB_TSYNC_STAT_LOCKED = false) (hnever : c.fab.everLocked = false)
    (hbig : 64 * c.get F.FAB_XTSYNC_STEP_THR < theta.natAbs) (hbad : 16 * c.get F.FAB_XTSYNC_LOCK_THR < theta.natAbs)
    (hn : c.get F.FAB_XTSYNC_LOCK_N ≠ 0) : c.keepTime theta = (c.timeStep theta).setFab { (c.timeStep theta).fab with good := 0 } := by
  have hn' : ¬ ((c.timeStep theta).setFab { (c.timeStep theta).fab with good := 0 }).get F.FAB_XTSYNC_LOCK_N ≤ 0 :=
    fun h => hn (Nat.le_zero.mp h)
  simp only [Chip.keepTime, hlocked, hnever, decide_eq_true hbig, decide_eq_false (not_le.mpr hbad), Bool.not_false, Bool.and_self,
    Bool.false_eq_true, if_false, if_true, if_neg hn']

/-- The time keeper is locked. -/
def Chip.timeLocked (c : Chip) (theta : Int) : Chip :=
  (((c.setFab { c.fab with good := c.fab.good + 1, everLocked := true }).set F.FAB_TSYNC_STAT_LOCKED 1).set F.FAB_TSYNC_STAT_ESTAB 1).emit 0x180A
    [(4, unsigned 32 theta)]

/-- Enough small offsets lock the time keeper. -/
theorem keepTime_locks (hlocked : c.on F.FAB_TSYNC_STAT_LOCKED = false) (hsmall : theta.natAbs ≤ 64 * c.get F.FAB_XTSYNC_STEP_THR)
    (hgood : theta.natAbs ≤ 16 * c.get F.FAB_XTSYNC_LOCK_THR) (hn : c.get F.FAB_XTSYNC_LOCK_N ≤ c.fab.good + 1) :
    c.keepTime theta = (c.timeLocked theta).mapDirty := by
  have hn' : (c.setFab { c.fab with good := c.fab.good + 1 }).get F.FAB_XTSYNC_LOCK_N ≤ c.fab.good + 1 := hn
  simp only [Chip.keepTime, hlocked, decide_eq_false (not_lt.mpr hsmall), decide_eq_true hgood, Bool.false_and,
    Bool.false_eq_true, if_false, if_true, if_pos hn']
  rfl

theorem timeLocked_fab (c : Chip) (theta : Int) : (c.timeLocked theta).mapDirty.fab =
    { c.fab with good := c.fab.good + 1, everLocked := true, mapChanged := true, topoDue := true } := by
  simp only [Chip.timeLocked, Chip.mapDirty, Chip.setFab_fab, Chip.emit_leaves, Chip.set_leaves]

theorem timeLocked_spec (c : Chip) (theta : Int) : c.Only [.fab, .ev] {F.FAB_TSYNC_STAT_LOCKED.addr} (c.timeLocked theta).mapDirty ∧
    (c.timeLocked theta).mapDirty.on F.FAB_TSYNC_STAT_LOCKED = true ∧ (c.timeLocked theta).mapDirty.on F.FAB_TSYNC_STAT_ESTAB = true ∧
    c.Raised (c.timeLocked theta).mapDirty [(0x180A, [(4, unsigned 32 theta)])] := by
  have honly : c.Only [.fab] {F.FAB_TSYNC_STAT_LOCKED.addr}
      (((c.setFab { c.fab with good := c.fab.good + 1, everLocked := true }).set F.FAB_TSYNC_STAT_LOCKED 1).set F.FAB_TSYNC_STAT_ESTAB 1) :=
    .set (.set (.setFab (.refl _ _ c) (by simp)) rfl) rfl
  have hon : ∀ q : Place, (c.timeLocked theta).mapDirty.on q = (((c.setFab { c.fab with good := c.fab.good + 1, everLocked := true }).set
      F.FAB_TSYNC_STAT_LOCKED 1).set F.FAB_TSYNC_STAT_ESTAB 1).on q := fun _ => by
    rw [Chip.timeLocked, Chip.mapDirty, Chip.setFab_on, Chip.emit_on]
  refine ⟨((honly.mono (by simp) subset_rfl).emit (by simp)).mapDirty (by simp), ?_, ?_, ?_⟩
  · rw [hon, Chip.on_set_apart _ F.FAB_TSYNC_STAT_ESTAB F.FAB_TSYNC_STAT_LOCKED 1 rfl]
    exact Chip.on_set_same _ F.FAB_TSYNC_STAT_LOCKED true 0 0 rfl (by decide)
  · rw [hon]
    exact Chip.on_set_same _ F.FAB_TSYNC_STAT_ESTAB true 0 0 rfl (by decide)
  · exact (mapDirty_keeps _).2.trans (Chip.raised_emit (c := c) _ _ (honly.1 .ev (by simp)) (honly.1 .now (by simp)) (honly.2 _ (by decide)))

theorem only_timeStep (c : Chip) (theta : Int) : c.Only [.now] ∅ (c.timeStep theta) := by
  refine Chip.Only.beside (.refl _ _ c) rfl fun q hq => ?_
  cases q
  case now => exact absurd (by simp) hq
  all_goals rfl

theorem timeStep_fab (c : Chip) (theta : Int) : (c.timeStep theta).fab = c.fab := rfl

theorem timeStep_get (c : Chip) (theta : Int) (q : Place) (i j : Nat) : (c.timeStep theta).get q i j = c.get q i j := rfl

/-- An offset of a locked time keeper that is not large changes nothing more. -/
theorem exchanged_small (hlocked : c.on F.FAB_TSYNC_STAT_LOCKED = true) (hsmall : theta.natAbs ≤ 64 * c.get F.FAB_XTSYNC_STEP_THR) :
    (c.exchanged k theta delay).keepTime theta = c.exchanged k theta delay := by
  have hget := exchanged_get c k theta delay
  have hon : (c.exchanged k theta delay).on F.FAB_TSYNC_STAT_LOCKED = true := by rwa [Chip.on, hget _ (by simp)]
  rw [keepTime_locked hon, if_neg]
  rw [hget _ (by simp)]
  omega

/-- A large offset of a locked time keeper is recorded. -/
theorem exchanged_large (hlocked : c.on F.FAB_TSYNC_STAT_LOCKED = true) (hbig : 64 * c.get F.FAB_XTSYNC_STEP_THR < theta.natAbs) :
    (c.exchanged k theta delay).keepTime theta = (c.exchanged k theta delay).emit 0x180C ∧
      c.Only [.fab, .ev] {F.FAB_TSYNC_OFS_OFS.addr, F.FAB_P_DELAY_DELAY.at k 0} ((c.exchanged k theta delay).emit 0x180C) ∧
      c.Raised ((c.exchanged k theta delay).emit 0x180C) [(0x180C, [])] := by
  have hget := exchanged_get c k theta delay
  have hon : (c.exchanged k theta delay).on F.FAB_TSYNC_STAT_LOCKED = true := by rwa [Chip.on, hget _ (by simp)]
  have honly := only_exchanged c k theta delay
  refine ⟨?_, (honly.mono (by simp) subset_rfl).emit (by simp), ?_⟩
  · rw [keepTime_locked hon, if_pos]
    rwa [hget _ (by simp)]
  · exact Chip.raised_emit _ _ (honly.1 .ev (by simp)) (honly.1 .now (by simp)) (honly.2 _ (isl_beside k))

/-- A first large offset. -/
theorem exchanged_steps (hlocked : c.on F.FAB_TSYNC_STAT_LOCKED = false) (hnever : c.fab.everLocked = false)
    (hbig : 64 * c.get F.FAB_XTSYNC_STEP_THR < theta.natAbs) (hbad : 16 * c.get F.FAB_XTSYNC_LOCK_THR < theta.natAbs)
    (hn : c.get F.FAB_XTSYNC_LOCK_N ≠ 0) :
    c.Only [.fab, .now] {F.FAB_TSYNC_OFS_OFS.addr, F.FAB_P_DELAY_DELAY.at k 0} ((c.exchanged k theta delay).keepTime theta) ∧
      ((c.exchanged k theta delay).keepTime theta).fab = { c.fab with t1 := none, good := 0 } ∧
      ((c.exchanged k theta delay).keepTime theta).get F.FAB_TSYNC_OFS_OFS = unsigned 32 theta ∧
      ((c.exchanged k theta delay).keepTime theta).get F.FAB_P_DELAY_DELAY k = unsigned 24 delay ∧
      ((c.exchanged k theta delay).keepTime theta).now = ((c.now : Int) + theta * 2 ^ 26).toNat := by
  have hget := exchanged_get c k theta delay
  have hkeep : (c.exchanged k theta delay).keepTime theta = ((c.exchanged k theta delay).timeStep theta).setFab
      { ((c.exchanged k theta delay).timeStep theta).fab with good := 0 } := by
    refine keepTime_steps ?_ hnever ?_ ?_ ?_
    · rwa [Chip.on, hget _ (by simp)]
    all_goals rwa [hget _ (by simp)]
  have honly : c.Only [.fab, .now] {F.FAB_TSYNC_OFS_OFS.addr, F.FAB_P_DELAY_DELAY.at k 0} ((c.exchanged k theta delay).keepTime theta) := by
    rw [hkeep]
    exact .setFab (((only_exchanged c k theta delay).mono (by simp) subset_rfl).trans ((only_timeStep _ _).mono (by simp) (by simp))) (by simp)
  obtain ⟨hofs, hdelay⟩ := exchanged_shows c k theta delay
  rw [hkeep] at honly ⊢
  rw [Chip.setFab_fab, timeStep_fab, exchanged_fab, Chip.setFab_get, timeStep_get, hofs, Chip.setFab_get, timeStep_get, hdelay]
  exact ⟨honly, rfl, rfl, rfl, rfl⟩

/-- Enough small offsets. -/
theorem exchanged_locks (hlocked : c.on F.FAB_TSYNC_STAT_LOCKED = false) (hgood : theta.natAbs ≤ 16 * c.get F.FAB_XTSYNC_LOCK_THR)
    (hsmall : theta.natAbs ≤ 64 * c.get F.FAB_XTSYNC_STEP_THR) (hn : c.get F.FAB_XTSYNC_LOCK_N ≤ c.fab.good + 1) :
    c.Only [.fab, .ev] {F.FAB_TSYNC_OFS_OFS.addr, F.FAB_P_DELAY_DELAY.at k 0, F.FAB_TSYNC_STAT_LOCKED.addr}
        ((c.exchanged k theta delay).keepTime theta) ∧
      ((c.exchanged k theta delay).keepTime theta).get F.FAB_TSYNC_OFS_OFS = unsigned 32 theta ∧
      ((c.exchanged k theta delay).keepTime theta).get F.FAB_P_DELAY_DELAY k = unsigned 24 delay ∧
      ((c.exchanged k theta delay).keepTime theta).on F.FAB_TSYNC_STAT_LOCKED = true ∧
      ((c.exchanged k theta delay).keepTime theta).on F.FAB_TSYNC_STAT_ESTAB = true ∧
      ((c.exchanged k theta delay).keepTime theta).fab =
        { c.fab with t1 := none, good := c.fab.good + 1, everLocked := true, mapChanged := true, topoDue := true } ∧
      c.Raised ((c.exchanged k theta delay).keepTime theta) [(0x180A, [(4, unsigned 32 theta)])] := by
  have hget := exchanged_get c k theta delay
  have hkeep : (c.exchanged k theta delay).keepTime theta = ((c.exchanged k theta delay).timeLocked theta).mapDirty := by
    refine keepTime_locks ?_ ?_ ?_ ?_
    · rwa [Chip.on, hget _ (by simp)]
    all_goals rwa [hget _ (by simp)]
  obtain ⟨hofs, hdelay⟩ := exchanged_shows c k theta delay
  have hshown := only_exchanged c k theta delay
  obtain ⟨honly, hon, hestab, hraised⟩ := timeLocked_spec (c.exchanged k theta delay) theta
  rw [hkeep, timeLocked_fab, exchanged_fab]
  refine ⟨(hshown.mono (by simp) (by simp [Set.insert_subset_iff])).trans (honly.mono (by simp) (by simp)), ?_, ?_, hon, hestab, rfl, ?_⟩
  · exact (honly.get (by decide)).trans hofs
  · exact (honly.get (delay_beside_stat k)).trans hdelay
  · exact hraised.trans (Chip.emit_ev_congr _ _ (hshown.1 .ev (by simp)) (hshown.1 .now (by simp)) (hshown.2 _ (isl_beside k)))

end keepTime


/-! ### Samples of the position over the fabric (R109, R112, R117) -/

/-- A node that is no source of the pair. -/
theorem fabMembers_none (h : ¬ (c.get F.TRK_SRC_PRI = 2 ∧ n = c.get F.TRK_FAB_NODE_PRI_NODE ∨
    c.get F.TRK_SRC_FB = 2 ∧ n = c.get F.TRK_FAB_NODE_FB_NODE)) : c.fabMembers n = [] := by
  rw [not_or] at h
  rw [Chip.fabMembers, if_neg h.1, if_neg h.2, List.append_nil]

theorem fabMembers_some (h : c.get F.TRK_SRC_PRI = 2 ∧ n = c.get F.TRK_FAB_NODE_PRI_NODE ∨
    c.get F.TRK_SRC_FB = 2 ∧ n = c.get F.TRK_FAB_NODE_FB_NODE) : c.fabMembers n ≠ [] := by
  rw [Chip.fabMembers]
  rcases h with h | h <;> simp [h]

theorem encoFollow_off (h : c.on F.POS_ENCO_CFG_EN = false ∨ c.get F.POS_ENCO_CFG_SRC ≠ 2) : c.encoFollow = c := by
  rcases h with h | h
  · exact if_neg (by simp [h])
  · exact encoFollow_encoder h

/-- What leaves ENCO's configuration leaves an ENCO that does not follow as it is. -/
theorem encoFollow_kept (honly : c.Only ps rs d) (hen : F.POS_ENCO_CFG_EN.at 0 0 ∉ rs)
    (h : c.on F.POS_ENCO_CFG_EN = false ∨ c.get F.POS_ENCO_CFG_SRC ≠ 2) : d.encoFollow = d := by
  have hsrc : d.get F.POS_ENCO_CFG_SRC = c.get F.POS_ENCO_CFG_SRC := honly.get hen
  exact encoFollow_off (h.imp (honly.on hen).trans hsrc.trans_ne)

/-- What the service of the sources, and a measurement, leave: all but TRK, its registers and the events, and of TRK what is known of the
fabric sources. -/
structure Chip.SamplesKept (c d : Chip) : Prop where
  only : c.Only [.trk, .ev] (blockRegsSet 0x0A) d
  seen : d.trk.fabSeen = c.trk.fabSeen
  at' : d.trk.fabAt = c.trk.fabAt
  bad : d.trk.fabBad = c.trk.fabBad

theorem Chip.SamplesKept.refl (c : Chip) : c.SamplesKept c := ⟨.refl _ _ c, rfl, rfl, rfl⟩

theorem Chip.SamplesKept.trans (h : c.SamplesKept d) (h' : d.SamplesKept e) : c.SamplesKept e :=
  ⟨h.only.trans h'.only, h'.seen.trans h.seen, h'.at'.trans h.at', h'.bad.trans h.bad⟩

theorem Chip.SamplesKept.set {v : Nat} (h : c.SamplesKept d) (hp : p.at 0 0 ∈ blockRegsSet 0x0A) : c.SamplesKept (d.set p v) :=
  ⟨h.only.set hp, h.seen, h.at', h.bad⟩

theorem Chip.SamplesKept.emit {l : List (Nat × Nat)} (h : c.SamplesKept d) : c.SamplesKept (d.emit n l) :=
  ⟨h.only.emit (by simp), h.seen, h.at', h.bad⟩

theorem Chip.SamplesKept.withTrk {x : TrkSt} (h : c.SamplesKept d) (hs : x.fabSeen = d.trk.fabSeen) (ha : x.fabAt = d.trk.fabAt)
    (hb : x.fabBad = d.trk.fabBad) : c.SamplesKept { d with trk := x } :=
  ⟨h.only.withTrk (by simp), hs.trans h.seen, ha.trans h.at', hb.trans h.bad⟩

theorem trkStat_trk : F.TRK_STAT_ACTIVE.addr ∈ blockRegsSet 0x0A := by constructor <;> decide

/-- A field of TRK_STAT is set. -/
theorem Chip.SamplesKept.setStat {v : Nat} (h : c.SamplesKept d) (hp : p.at 0 0 = F.TRK_STAT_ACTIVE.addr) : c.SamplesKept (d.set p v) :=
  h.set (hp ▸ trkStat_trk)

theorem sourceRegs_trk : sourceRegs ⊆ blockRegsSet 0x0A := by
  rintro a (rfl | rfl)
  · exact trkStat_trk
  · exact spreqStat_trk

theorem Chip.SourcesServed.samplesKept (h : c.SourcesServed d) : c.SamplesKept d :=
  ⟨h.only.mono (by simp) sourceRegs_trk, h.keeps TrkSt.fabSeen fun _ _ => rfl, h.keeps TrkSt.fabAt fun _ _ => rfl,
    h.keeps TrkSt.fabBad fun _ _ => rfl⟩

theorem Chip.samplesKept_ite {b : Prop} [Decidable b] (hd : c.SamplesKept d) (he : c.SamplesKept e) :
    c.SamplesKept (if b then d else e) := by
  split <;> assumption

/-- The loop's change of rate was held back: LOOP_SAT, recorded at most once in a millisecond (R120). -/
def Chip.loopSaturated (c : Chip) : Chip :=
  let c := c.set F.TRK_STAT_LOOP_SAT 1
  match c.trk.satAt with
  | some s => if s + ms 1 ≤ c.now then { c with trk := { c.trk with satAt := some c.now } }.emit 0x0A05 else c
  | none => { c with trk := { c.trk with satAt := some c.now } }.emit 0x0A05

theorem Chip.samplesKept_loopSaturated (c : Chip) : c.SamplesKept c.loopSaturated := by
  have hsat : c.SamplesKept (c.set F.TRK_STAT_LOOP_SAT 1) := (Chip.SamplesKept.refl c).setStat rfl
  have hnoted : c.SamplesKept { c.set F.TRK_STAT_LOOP_SAT 1 with trk := { c.trk with satAt := some c.now } } := hsat.withTrk rfl rfl rfl
  rw [Chip.loopSaturated]
  split
  · exact Chip.samplesKept_ite hnoted.emit hsat
  · exact hnoted.emit

theorem Chip.samplesKept_loopUpdate (c : Chip) (z tz : Rat) : c.SamplesKept (c.loopUpdate z tz) := by
  have hmoved : ∀ x v : Rat, c.SamplesKept { c with trk := { c.trk with lastMeas := some tz, x := x, v := v, tx := tz } } :=
    fun x v => (Chip.SamplesKept.refl c).withTrk rfl rfl rfl
  exact Chip.samplesKept_ite ((hmoved z c.trk.v).setStat rfl).emit
    (Chip.samplesKept_ite ((hmoved _ _).trans (Chip.samplesKept_loopSaturated _)) (hmoved _ _))

theorem Chip.samplesKept_measure (c : Chip) (src : Fin 4) (z tz : Rat) : c.SamplesKept (c.measure src z tz) := by
  have hnewest : c.SamplesKept { c with trk := { c.trk with newest := (z, tz) } } := (Chip.SamplesKept.refl c).withTrk rfl rfl rfl
  have hstarts : ∀ x : Rat, c.SamplesKept { c with trk := { c.trk with newest := (z, tz), x := x, tx := tz, lastMeas := some tz } } :=
    fun x => (Chip.SamplesKept.refl c).withTrk rfl rfl rfl
  refine Chip.samplesKept_ite (Chip.samplesKept_ite ?_ ?_) (Chip.samplesKept_ite ?_ (.refl c))
  · exact ((hstarts _).setStat rfl).setStat rfl
  · exact (hnewest.setStat rfl).trans (Chip.samplesKept_loopUpdate _ _ _)
  · exact (Chip.SamplesKept.refl c).withTrk rfl rfl rfl

theorem Chip.samplesKept_foldl {α : Type} {g : Chip → α → Chip} (hg : ∀ (c : Chip) (x : α), c.SamplesKept (g c x)) (l : List α) (c : Chip) :
    c.SamplesKept (l.foldl g c) := by
  induction l generalizing c with
  | nil => exact .refl c
  | cons x l ih => exact (hg c x).trans (ih _)

/-- What is set at every place of a list is at each of them. -/
theorem foldl_set_mem {α : Type} {m : Nat} (x : α) {l : List (Fin m)} {k : Fin m} (h : k ∈ l) (v : Vector α m) :
    (l.foldl (fun (v : Vector α m) (i : Fin m) => v.set i x) v)[k] = x := by
  induction l using List.reverseRecOn with
  | nil => exact absurd h (List.not_mem_nil)
  | append_singleton l i ih =>
    rw [List.foldl_append, List.foldl_cons, List.foldl_nil]
    by_cases hik : i = k
    · subst hik
      simp
    · have hne : i.val ≠ k.val := fun he => hik (Fin.ext he)
      have hk : k ∈ l := (List.mem_append.mp h).resolve_right (by simpa using fun he => hik he.symm)
      simpa [hne] using ih hk

/-- A sample that is taken is noted with its source or sources. -/
def Chip.sampleNoted (c : Chip) (node seq ts : Nat) : Chip :=
  let d := c.followAfresh (fun i => !c.healthy i)
  { d with trk := { d.trk with
    fabSeen := (node, seq, ts) :: c.trk.fabSeen.filter (fun e => e.1 != node)
    fabAt := (c.fabMembers node).foldl (fun (v : Vector Nat 2) (m : Fin 2) => v.set m c.now) c.trk.fabAt
    fabBad := (c.fabMembers node).foldl (fun (v : Vector Bool 2) (m : Fin 2) => v.set m false) c.trk.fabBad } }

theorem fabSample_foreign {node seq ts : Nat} {z : Int} {valid : Bool} (h : c.fabMembers node = []) : c.fabSample node seq ts z valid = c :=
  if_pos (.inr h)

/-- A sample out of order or too old is counted. -/
theorem fabSample_refused {node seq ts s0 t0 : Nat} {z : Int} (hon : c.trkOn = true) (hmember : c.fabMembers node ≠ [])
    (hseen : c.trk.fabSeen = [(node, s0, t0)])
    (hlate : (seq + 256 - s0 % 256) % 256 = 0 ∨ 127 < (seq + 256 - s0 % 256) % 256 ∨ ts ≤ t0 ∨
      ts * 2 ^ 31 + us (c.get F.TRK_FAB_TIME_AGE) < c.now) :
    c.fabSample node seq ts z true = c.addSat F.TRK_REJ_CNT_COUNT 1 := by
  have hmine : ¬ ((!c.trkOn) = true ∨ c.fabMembers node = []) := by simp [hon, hmember]
  refine (if_neg hmine).trans ((if_neg (by simp)).trans (if_pos ?_))
  simp only [hseen, List.find?_cons, beq_self_eq_true, Option.map_some, Bool.not_eq_true', Bool.and_eq_false_iff, decide_eq_false_iff_not,
    decide_eq_true_eq]
  omega

/-- A first sample that is not too old is taken. -/
theorem fabSample_first {node seq ts : Nat} {z : Int} (hon : c.trkOn = true) (hmember : c.fabMembers node ≠ [])
    (hseen : c.trk.fabSeen = []) (htime : c.now ≤ ts * 2 ^ 31 + us (c.get F.TRK_FAB_TIME_AGE)) :
    (c.sampleNoted node seq ts).SamplesKept (c.fabSample node seq ts z true) := by
  have hmine : ¬ ((!c.trkOn) = true ∨ c.fabMembers node = []) := by simp [hon, hmember]
  have htaken : ¬ ((!(match (c.trk.fabSeen.find? (fun e => e.1 == node)).map Prod.snd with
      | none => true
      | some (s, t) => 1 ≤ (seq + 256 - s % 256) % 256 && (seq + 256 - s % 256) % 256 ≤ 127 && t < ts)) = true ∨
      decide (ts * 2 ^ 31 + us (c.get F.TRK_FAB_TIME_AGE) < c.now) = true) := by
    simpa [hseen] using htime
  have hsample : c.fabSample node seq ts z true = _ := (if_neg hmine).trans ((if_neg (by simp)).trans (if_neg htaken))
  rw [hsample]
  refine .trans (.trans (Chip.sourcesServed_serveSources _).samplesKept (Chip.samplesKept_foldl ?_ _ _))
    (Chip.sourcesServed_serveSpreq _).samplesKept
  exact fun c m => c.samplesKept_measure _ _ _

/-- What a first sample leaves, with an ENCO that does not follow the tracked position. -/
theorem fabSample_spec {node seq ts : Nat} {z : Int} (hon : c.trkOn = true) (hmember : c.fabMembers node ≠ [])
    (hseen : c.trk.fabSeen = []) (htime : c.now ≤ ts * 2 ^ 31 + us (c.get F.TRK_FAB_TIME_AGE)) :
    c.Only [.trk, .ev] (blockRegsSet 0x0A) (c.fabSample node seq ts z true) ∧
      (c.fabSample node seq ts z true).trk.fabSeen = [(node, seq, ts)] ∧
      ∀ m ∈ c.fabMembers node, (c.fabSample node seq ts z true).trk.fabAt[m] = c.now ∧
        (c.fabSample node seq ts z true).trk.fabBad[m] = false := by
  obtain ⟨honly, hseen', hat, hbad⟩ := fabSample_first (seq := seq) (z := z) hon hmember hseen htime
  have hnoted : c.Only [.trk, .ev] (blockRegsSet 0x0A) (c.sampleNoted node seq ts) := .withTrk (.withTrk (.refl _ _ c) (by simp)) (by simp)
  refine ⟨hnoted.trans honly, ?_, fun m hm => ?_⟩
  · rw [hseen', Chip.sampleNoted, hseen]
    rfl
  · rw [hat, hbad]
    exact ⟨foldl_set_mem _ hm _, foldl_set_mem _ hm _⟩

end Sys2Proof.Machine
end

section
namespace Sys2Proof.Proofs
open Sys2Proof.Machine

/-- Settles O54: the parts of the map, of steering, of the samples and of the time exchange, each by what its operation leaves. -/
theorem fabricMapAndTime : Obligations.FabricMapAndTime := by
  unfold Obligations.FabricMapAndTime
  refine ⟨?_, ?_, ?_, ?_, ?_, ?_, ?_, ?_, ?_, ?_, ?_, ?_, ?_, ?_, ?_, ?_, ?_, ?_, ?_, ?_, ?_, ?_, ?_, ?_⟩
  · intro t s hup hon hdue
    obtain ⟨honly, hrest⟩ := topoSend_spec (c := s.chip.at t) hon hup hdue
    exact ⟨_, runFab_up hup rfl, leaves_of_only honly, hrest⟩
  · intro t s h
    exact runChip_idle (topoSend_idle (c := s.chip.at t) h)
  · intro t v s hup hown hnew
    obtain ⟨honly, hrest⟩ := topoRx_duplicate (c := s.chip.at t) hown hnew
    exact ⟨_, runFab_up hup rfl, leaves_of_only honly, hrest⟩
  · intro t v s hown hold
    exact runChip_idle ((topoRx_own (c := s.chip.at t) hown).trans (if_pos (by simpa using hold)))
  · intro t v s hup hother
    obtain ⟨honly, hmap, hvalid, -⟩ := topoRx_spec (c := s.chip.at t) hother
    exact ⟨_, runFab_up hup rfl, leaves_of_only honly, hmap, hvalid, topoRx_segments (c := s.chip.at t) hother⟩
  · intro t v s hup _ hother halone hbetter
    exact ⟨_, runFab_up hup rfl, topoRx_loses (c := s.chip.at t) hother halone hbetter⟩
  · intro t v s hup hother halone hbetter
    exact ⟨_, runFab_up hup rfl, topoRx_wins (c := s.chip.at t) hother halone hbetter⟩
  · intro t n s hup hin hold hpri hfb
    obtain ⟨honly, hrest⟩ := nodeLost_spec (c := s.chip.at t) (nodeGone_silent hin hold) hpri hfb
    exact ⟨_, runFab_up hup rfl, leaves_of_only honly, hrest⟩
  · intro t n s h
    have hgone : (s.chip.at t).nodeGone n = false := nodeGone_unknown h
    exact runChip_idle (if_neg (by simp [hgone]))
  · intro t s hup hchanged hlc
    obtain ⟨honly, hdone, hdirs⟩ := steer_spec (c := s.chip.at t) hchanged hlc
    have hdir : ∀ p, p < 64 → (s.chip.at t).steer.fab.dirs.getD p 0 = s.chip.steered p := fun p hp =>
      (steer_dir (c := s.chip.at t) hchanged hlc hp).trans (steered_at _ _ _)
    refine ⟨_, runFab_up hup rfl, leaves_of_only honly, hdone, ?_, fun p hp h1 h2 => ?_, fun p hp h1 h2 => ?_⟩
    · rw [hdirs, List.length_map, List.length_range]
    · exact (hdir p hp).trans (steered_east h1 h2)
    · exact (hdir p hp).trans (steered_west h1 h2)
  · intro t s h
    exact runChip_idle (steer_idle (c := s.chip.at t) h)
  · intro t node seq ts p valid s henco hforeign
    have hnone : (s.chip.at t).fabMembers node = [] := fabMembers_none hforeign
    have hsample : (s.chip.at t).fabSample node seq ts p valid = s.chip.at t := fabSample_foreign hnone
    exact runChip_idle ((congrArg Chip.encoFollow hsample).trans (encoFollow_off henco))
  · intro t node seq ts s0 t0 p s hup hon henco hmember hseen hlate
    have hrefused := fabSample_refused (c := s.chip.at t) (z := p) hon (fabMembers_some hmember) hseen hlate
    have honly : (s.chip.at t).Only [] {F.TRK_REJ_CNT_COUNT.addr} ((s.chip.at t).addSat F.TRK_REJ_CNT_COUNT 1) := .addSat (.refl _ _ _) rfl
    have hkept := encoFollow_kept honly (by decide) henco
    refine ⟨_, runChip_inIsland_eq hup ((congrArg Chip.encoFollow hrefused).trans hkept), leaves_of_only honly, ?_⟩
    exact Chip.get_addSat_same _ _ _ _ _ (by decide) (by decide)
  · intro t node seq ts p s hup hon henco hmember hseen htime
    obtain ⟨honly, hseen', hmembers⟩ := fabSample_spec (c := s.chip.at t) (seq := seq) (z := p) hon (fabMembers_some hmember) hseen htime
    have hkept := encoFollow_kept honly (by intro hin; exact absurd hin.1 (by decide)) henco
    refine ⟨_, runChip_inIsland_eq hup hkept, rfl, rfl, honly.1 .now (by simp), hseen', hmembers, honly.1 .pos (by simp),
      honly.1 .fab (by simp), ?_⟩
    exact congrArg CmpSt.items (honly.1 .cmp (by simp))
  · intro t s hup hon hupstream hdue
    have hbegun := timeExchange_due (c := s.chip.at t) hon hupstream hdue
    exact ⟨_, runFab_up hup hbegun, leaves_of_only (.send (.setFab (.refl _ _ _) (by simp)) (by simp)), rfl, rfl⟩
  · intro t s h
    exact runChip_idle (timeExchange_idle (c := s.chip.at t) h)
  · intro t tseq p s hup hcarries
    have hcarries' : (s.chip.at t).carriesFrames p = true := hcarries
    refine ⟨_, runFab_up hup (if_pos hcarries'), leaves_of_only (.send (.send (.refl _ _ _) (by simp)) (by simp)), ?_⟩
    exact List.append_assoc _ _ _
  · intro t tseq p s hcarries
    have hcarries' : (s.chip.at t).carriesFrames p = false := hcarries
    exact runChip_idle (if_neg (by simp [hcarries']))
  · intro t tseq t1 t2 t3 t4 p theta s hup hbegun hseq hupstream htheta hlocked hsmall
    have hrx := timeDataRx_answered (c := s.chip.at t) (t2 := t2) (t3 := t3) (t4 := t4) hbegun hseq hupstream htheta
    obtain ⟨hofs, hdelay⟩ := exchanged_shows (s.chip.at t) p theta
      ((((t4 : Int) - t1) - ((t3 : Int) - t2) + signed 16 ((s.chip.at t).get F.FAB_ASYM_ASYM p)) / 2)
    have hsame := hrx.trans (exchanged_small (c := s.chip.at t) hlocked hsmall)
    exact ⟨_, runFab_up hup hsame, leaves_of_only (only_exchanged _ _ _ _), rfl, hofs, hdelay⟩
  · intro t tseq t1 t2 t3 t4 p theta s hup hbegun hseq hupstream htheta hlocked hbig
    have hrx := timeDataRx_answered (c := s.chip.at t) (t2 := t2) (t3 := t3) (t4 := t4) hbegun hseq hupstream htheta
    obtain ⟨hofs, hdelay⟩ := exchanged_shows (s.chip.at t) p theta
      ((((t4 : Int) - t1) - ((t3 : Int) - t2) + signed 16 ((s.chip.at t).get F.FAB_ASYM_ASYM p)) / 2)
    obtain ⟨hemit, honly, hraised⟩ := exchanged_large (c := s.chip.at t) (k := p) hlocked hbig
    exact ⟨_, runFab_up hup (hrx.trans hemit), leaves_of_only honly, rfl, hofs, hdelay, hraised⟩
  · intro t tseq t1 t2 t3 t4 p theta s hup hbegun hseq hupstream htheta hlocked hnever hbig hbad hn
    have hrx := timeDataRx_answered (c := s.chip.at t) (t2 := t2) (t3 := t3) (t4 := t4) hbegun hseq hupstream htheta
    obtain ⟨honly, hfab, hofs, hdelay, hnow⟩ := exchanged_steps (c := s.chip.at t) (k := p) hlocked hnever hbig hbad hn
    refine ⟨_, runFab_up hup hrx, leaves_of_only honly, hfab, hofs, hdelay, ?_⟩
    rw [hnow, Chip.at_now, Nat.cast_max]
  · intro t tseq t1 t2 t3 t4 p theta s hup hbegun hseq hupstream htheta hlocked hgood hsmall hn
    have hrx := timeDataRx_answered (c := s.chip.at t) (t2 := t2) (t3 := t3) (t4 := t4) hbegun hseq hupstream htheta
    obtain ⟨honly, hrest⟩ := exchanged_locks (c := s.chip.at t) (k := p) hlocked hgood hsmall hn
    exact ⟨_, runFab_up hup hrx, leaves_of_only honly, hrest⟩
  · intro t tseq t2 t3 t4 s h
    exact runChip_idle (timeDataRx_idle (c := s.chip.at t) h)
  · intro t s hup
    refine ⟨_, runFab_up hup rfl, leaves_of_only (.set (.setSys (.refl _ _ _) (by simp)) rfl), rfl, ?_⟩
    exact Chip.on_set_same _ _ true 0 0 rfl (by decide)

end Sys2Proof.Proofs
end

section
/-!
PROOFS about what follows in the other blocks from a line event (R172, R188, R191, R369, R371, R407, R411, R550): none of it reaches the
tracking unit but SPEED_REQ.
-/

namespace Sys2Proof.Machine

variable {c d e : Chip} {p : Place} {v i j n : Nat}

/-! ### What stays -/

/-- The registers that TRK and STR go by: TRK_CTRL, TRK_STAT, TRK_DROP_CNT, STR_STAT and OTP_FEAT. -/
def lineReg (a : Nat) : Bool :=
  [F.TRK_CTRL_EN.addr, F.TRK_STAT_RUN.addr, F.TRK_DROP_CNT_COUNT.addr, F.STR_STAT_SW_STATE.addr, F.OTP_FEAT_IN_FORCE.addr].contains a

/-- Between c and d the tracking unit and the structure image stay, but for what SPEED_REQ goes by, and no port's queue fills. -/
structure Chip.LineKept (c d : Chip) : Prop where
  now : d.now = c.now
  force : d.force = c.force
  str : d.str = c.str
  trk : { d.trk with tkoCause := c.trk.tkoCause, spreqHold := c.trk.spreqHold } = c.trk
  word : ∀ a, lineReg a = true → d.word a = c.word a
  queue : ∀ k : Fin 8, (c.port k).queue = [] → (d.port k).queue = []

theorem Chip.LineKept.refl (c : Chip) : c.LineKept c := ⟨rfl, rfl, rfl, rfl, fun _ _ => rfl, fun _ h => h⟩

/-- The last step first, as a goal shows it. -/
theorem Chip.LineKept.after (h' : d.LineKept e) (h : c.LineKept d) : c.LineKept e := by
  refine ⟨h'.now.trans h.now, h'.force.trans h.force, h'.str.trans h.str, ?_, fun a ha => (h'.word a ha).trans (h.word a ha),
    fun k hk => h'.queue k (h.queue k hk)⟩
  have htrk := congrArg (fun (x : TrkSt) => { x with tkoCause := c.trk.tkoCause, spreqHold := c.trk.spreqHold }) h'.trk
  exact htrk.trans h.trk

/-- A part of the tracking unit's state that SPEED_REQ does not go by. -/
theorem Chip.LineKept.keeps {α : Type} (h : c.LineKept d) (g : TrkSt → α)
    (hg : ∀ (x y : TrkSt), g { x with tkoCause := y.tkoCause, spreqHold := y.spreqHold } = g x) : g d.trk = g c.trk :=
  (hg d.trk c.trk).symm.trans (congrArg g h.trk)

theorem Chip.LineKept.get (h : c.LineKept d) (hp : lineReg (p.at i j) = true) : d.get p i j = c.get p i j := by
  rw [Chip.get, h.word _ hp, Chip.get]

theorem Chip.LineKept.on (h : c.LineKept d) (hp : lineReg (p.at i j) = true) : d.on p i j = c.on p i j := by
  rw [Chip.on, h.get hp, Chip.on]

theorem Chip.LineKept.set (h : c.LineKept d) (hp : lineReg (p.at i j) = false) : c.LineKept (d.set p v i j) := by
  have hset : d.LineKept (d.set p v i j) := by
    refine ⟨rfl, rfl, rfl, rfl, fun a ha => Chip.word_set_other d p v i j ?_, fun _ hk => hk⟩
    rintro rfl
    simp [hp] at ha
  exact .after hset h

/-- A field of a port's register is set. -/
theorem Chip.LineKept.setK {k : Fin 8} (h : c.LineKept d) (hp : ∀ k : Fin 8, lineReg (p.at k 0) = false) : c.LineKept (d.set p v k) :=
  h.set (hp k)

theorem Chip.LineKept.addSat (h : c.LineKept d) (hp : lineReg (p.at i j) = false) : c.LineKept (d.addSat p v i j) := h.set hp

theorem Chip.LineKept.setBit {b : Bool} (h : c.LineKept d) (hp : lineReg (p.at 0 0) = false) : c.LineKept (d.setBit p v b) := h.set hp

/-- What is kept beside these does not matter. -/
theorem Chip.LineKept.beside (h : c.LineKept d) (hr : e.regs = d.regs) (hn : e.now = d.now) (hf : e.force = d.force) (hs : e.str = d.str)
    (ht : e.trk = d.trk) (hh : e.hp = d.hp) : c.LineKept e := by
  refine .after ⟨hn, hf, hs, ?_, fun a _ => Chip.word_mk_other d e hr a, fun k hk => ?_⟩ h
  · rw [ht]
  · rwa [Chip.port, hh]

theorem Chip.LineKept.emit {l : List (Nat × Nat)} (h : c.LineKept d) : c.LineKept (d.emit n l) := h.beside rfl rfl rfl rfl rfl rfl

theorem Chip.LineKept.send {m : String} {l : List Nat} (h : c.LineKept d) : c.LineKept (d.send m l) := h.beside rfl rfl rfl rfl rfl rfl

theorem Chip.LineKept.setCol {x : ColSt} (h : c.LineKept d) : c.LineKept (d.setCol x) := h.beside rfl rfl rfl rfl rfl rfl

theorem Chip.LineKept.setAsm {k : Fin 8} {x : AsmSt} (h : c.LineKept d) : c.LineKept (d.setAsm k x) := h.beside rfl rfl rfl rfl rfl rfl

theorem Chip.LineKept.setTko {x : TkoSt} (h : c.LineKept d) : c.LineKept (d.setTko x) := h.beside rfl rfl rfl rfl rfl rfl

theorem Chip.LineKept.setPwr {x : PwrSt} (h : c.LineKept d) : c.LineKept (d.setPwr x) := h.beside rfl rfl rfl rfl rfl rfl

/-- A port's state changes, its queue no fuller. -/
theorem Chip.LineKept.setHp {k : Fin 8} {x : PortSt} (h : c.LineKept d) (hq : (d.port k).queue = [] → x.queue = []) :
    c.LineKept (d.setHp k x) := by
  suffices hset : d.LineKept (d.setHp k x) from .after hset h
  refine ⟨rfl, rfl, rfl, rfl, fun _ _ => rfl, fun m hm => ?_⟩
  by_cases hkm : m = k
  · subst hkm
    simpa [Chip.port, Chip.setHp] using hq hm
  · have hne : k.val ≠ m.val := fun he => hkm (Fin.ext he.symm)
    simpa [Chip.port, Chip.setHp, hne] using hm

theorem Chip.LineKept.foldl {α : Type} {f : Chip → α → Chip} {l : List α} (hf : ∀ (c : Chip) (x : α), c.LineKept (f c x))
    (h : c.LineKept d) : c.LineKept (l.foldl f d) := by
  induction l generalizing d with
  | nil => exact h
  | cons x l ih => exact ih (.after (hf d x) h)

theorem Chip.LineKept.ite {b : Prop} [Decidable b] (hd : c.LineKept d) (he : c.LineKept e) : c.LineKept (if b then d else e) := by
  split <;> assumption

/-- SPEED_REQ follows its causes. -/
theorem Chip.lineKept_serveSpreq (c : Chip) : c.LineKept c.serveSpreq := by
  have hcause : c.LineKept (c.set F.TRK_SPREQ_STAT_CAUSE c.spreqCauses) := .set (.refl c) (by decide)
  have hout := hcause.set (p := F.TRK_SPREQ_STAT_OUT) (v := 1) (i := 0) (j := 0) (by decide)
  have hhold : ∀ (d : Chip) (x : Option Nat), d.LineKept { d with trk := { d.trk with spreqHold := x } } :=
    fun _ _ => ⟨rfl, rfl, rfl, rfl, fun _ _ => rfl, fun _ hk => hk⟩
  exact .ite (.refl c) (.ite (.after (hhold _ _) hout) (.ite (.after (hhold _ _) hcause) hcause))

/-! ### The Colander (R188 to R191, R196, R210) -/

theorem Chip.lineKept_parityCheck (c : Chip) : c.LineKept c.parityCheck := by
  unfold Chip.parityCheck
  refine .foldl (fun c k => ?_) (.refl c)
  dsimp only
  split
  · refine .ite (.foldl (fun c ic => ?_) (.refl c)) (.refl c)
    exact .ite (.emit (.set (.refl c) (by decide))) (.refl c)
  · exact .refl c

theorem Chip.lineKept_showBridge (c : Chip) (k : Fin 8) (b : Bool) : c.LineKept (c.showBridge k b) := .set (.refl c) (by decide)

theorem Chip.lineKept_closeBridge (c : Chip) (k : Fin 8) (h : Int) : c.LineKept (c.closeBridge k h) := by
  unfold Chip.closeBridge
  exact .ite (.emit (.after (Chip.lineKept_showBridge _ k false) (.setAsm (.refl c)))) (.refl c)

theorem Chip.lineKept_switchQueue (c : Chip) (k : Fin 8) (n : Int) (set : Nat) : c.LineKept (c.switchQueue k n set) := by
  unfold Chip.switchQueue
  split
  · exact .after (Chip.lineKept_showBridge _ k true) (.setAsm (.refl c))
  · refine .setAsm (.setHp (c.lineKept_closeBridge k _) fun hq => ?_)
    simp [hq]

theorem Chip.lineKept_applySet (c : Chip) (k : Fin 8) (n : Int) (set : Nat) : c.LineKept (c.applySet k n set) := by
  unfold Chip.applySet
  extract_lets before col s d after
  have hd : c.LineKept d := .setK (.setCol (.refl c)) (by decide)
  exact .ite (.after (Chip.lineKept_switchQueue _ k n _) hd) (.ite (.after (Chip.lineKept_switchQueue _ k n _) hd) hd)

theorem Chip.lineKept_soloHalf (c : Chip) (n : Int) : c.LineKept (c.soloHalf n) :=
  .foldl (fun c k => .set (.emit (.set (c.lineKept_applySet k n _) (by decide))) (by decide)) (.refl c)

theorem Chip.lineKept_dntShow (c : Chip) : c.LineKept c.dntShow := by
  unfold Chip.dntShow
  extract_lets l d waiting e
  have he : c.LineKept e := .set (.set (.set (.refl c) (by decide)) (by decide)) (by decide)
  refine .foldl (fun c k => ?_) he
  extract_lets want before m m' col s d' after
  have hd : c.LineKept d' := .setK (.setCol (.refl c)) (by decide)
  exact .ite (.refl c) (.ite (.after (Chip.lineKept_switchQueue _ k _ _) hd) (.ite (.after (Chip.lineKept_switchQueue _ k _ _) hd) hd))

theorem Chip.lineKept_setDnt (c : Chip) (l : List DntEntry) : c.LineKept (c.setDnt l) := .after (Chip.lineKept_dntShow _) (.setCol (.refl c))

theorem Chip.lineKept_updEntry (c : Chip) (x : DntEntry) : c.LineKept (c.updEntry x) := c.lineKept_setDnt _

theorem Chip.lineKept_install (c : Chip) (ks : List (Fin 8)) (ic col method : Nat) (away : Bool) (wa : Int) (owner : Nat) :
    c.LineKept (c.install ks ic col method away wa owner) := by
  unfold Chip.install
  refine .foldl (fun c k => ?_) (.refl c)
  split
  · exact .emit (.set (.refl c) (by decide))
  · exact .after (Chip.lineKept_setDnt _ _) (.ite (.emit (.refl c)) (.refl c))

theorem Chip.lineKept_uninstall (c : Chip) (ks : List (Fin 8)) (ic col method : Nat) : c.LineKept (c.uninstall ks ic col method) :=
  c.lineKept_setDnt _

theorem Chip.lineKept_releaseOne (x : DntEntry) (c : Chip) (r : Recipient) : c.LineKept (Chip.releaseOne x c r) :=
  .ite (c.lineKept_uninstall _ _ _ _) (.send (.refl c))

theorem Chip.lineKept_commitEntry (c : Chip) (x : DntEntry) : c.LineKept (c.commitEntry x) :=
  .foldl (fun c _ => .ite (c.lineKept_install _ _ _ _ _ _ _) (.send (.refl c))) (c.lineKept_updEntry _)

theorem Chip.lineKept_startMethod (n : Nat) (x : DntEntry) (c : Chip) : c.LineKept (Chip.startMethod n x c) := by
  induction n generalizing x c with
  | zero => exact c.lineKept_updEntry _
  | succ n ih =>
    rw [Chip.startMethod]
    split
    · refine .ite (c.lineKept_updEntry _) ?_
      dsimp only
      split
      · exact .after (ih _ _) (.emit (.refl c))
      · exact .ite (.after (Chip.lineKept_commitEntry _ _) (c.lineKept_updEntry _))
          (.foldl (fun c _ => .send (.refl c)) (c.lineKept_updEntry _))
    · exact .refl c

theorem Chip.lineKept_redoRequests (c : Chip) (gone now : List Nat) : c.LineKept (c.redoRequests gone now) := by
  unfold Chip.redoRequests
  refine .foldl (fun c _ => Chip.lineKept_startMethod 3 _ c) (.after (Chip.lineKept_setDnt _ _) (.foldl (fun c x => ?_) (.refl c)))
  exact .after (Chip.lineKept_updEntry _ _) (.foldl (Chip.lineKept_releaseOne x) (.refl c))

theorem Chip.lineKept_showSwitch (c : Chip) (k : Fin 8) (n : Int) : c.LineKept (c.showSwitch k n) :=
  .set (.set (.set (.refl c) (by decide)) (by decide)) (by decide)

theorem Chip.lineKept_stbyApply (c : Chip) (k : Fin 8) (tp : Nat) (on : Bool) (n : Int) : c.LineKept (c.stbyApply k tp on n) := by
  unfold Chip.stbyApply
  refine .emit (.after (Chip.lineKept_showSwitch _ k n) (.ite ?_ ?_))
  · split
    · exact .refl c
    · refine .after (Chip.lineKept_redoRequests _ _ _) (.setAsm ?_)
      refine .after (Chip.lineKept_applySet _ _ _ _) (.after (Chip.lineKept_applySet _ _ _ _) ?_)
      exact .set (.setK (.setCol (.refl c)) (by decide)) (by decide)
  · split
    · exact .refl c
    · split
      · refine .after (Chip.lineKept_redoRequests _ _ _) (.set (.setK (.setCol ?_) (by decide)) (by decide))
        exact .after (Chip.lineKept_applySet _ _ _ _) (c.lineKept_applySet _ _ _)
      · exact .refl c

theorem Chip.lineKept_stbyDue (c : Chip) (n : Int) : c.LineKept (c.stbyDue n) := by
  unfold Chip.stbyDue
  refine .foldl (fun c x => ?_) (.setCol (.refl c))
  split
  · exact c.lineKept_stbyApply _ _ _ _
  · exact .refl c

theorem Chip.lineKept_passLines (c : Chip) (n : Int) : c.LineKept (c.passLines n) :=
  .foldl (fun c _ => .setAsm (.refl c)) (c.lineKept_stbyDue n)

/-! ### The ring depth (R170, R172) -/

theorem Chip.lineKept_spanChanged (c : Chip) : c.LineKept c.spanChanged := by
  have hshown : c.LineKept (((c.set F.CMP_LSPAN_L_MAX (unsigned 13 c.lMax)).set F.CMP_LSPAN_L_MIN (unsigned 13 c.lMin)).set
      F.CMP_STAT_DEPTH_SHORT (bit (decide ((c.ringDepth : Int) < c.lMax - c.lMin + 256)))) :=
    .set (.set (.set (.refl c) (by decide)) (by decide)) (by decide)
  exact .ite (.refl c) (.ite hshown.emit hshown)

/-! ### Takeover (R191, R367, R369, R371) -/

theorem Chip.lineKept_countLost (c : Chip) (k : Fin 8) (n : Int) : c.LineKept (c.countLost k n) := by
  unfold Chip.countLost
  split
  · exact .refl c
  · extract_lets first lines half counted
    have hdrop : ∀ d : Chip, ∀ m, d.LineKept (d.dropLine [k] m) := fun d m => .beside (.refl d) rfl rfl rfl rfl rfl rfl
    have hcounted : c.LineKept counted := .foldl (fun d m => .ite (.beside (hdrop d m) rfl rfl rfl rfl rfl rfl) (hdrop d m)) (.refl c)
    exact .setTko hcounted

theorem Chip.lineKept_tkoLine (c : Chip) (n : Int) : c.LineKept (c.tkoLine n) := .foldl (fun c k => c.lineKept_countLost k n) (.refl c)

theorem Chip.lineKept_halfCause (c : Chip) : c.LineKept c.halfCause :=
  .after (Chip.lineKept_serveSpreq _) ⟨rfl, rfl, rfl, rfl, fun _ _ => rfl, fun _ hk => hk⟩

theorem Chip.lineKept_showTakeover (c : Chip) (ports : List (Fin 8)) (n : Int) : c.LineKept (c.showTakeover ports n) :=
  .set (.set (.set (.refl c) (by decide)) (by decide)) (by decide)

theorem Chip.lineKept_sendTakeover (c : Chip) (ports : List (Fin 8)) : c.LineKept (c.sendTakeover ports).1 := by
  unfold Chip.sendTakeover
  refine .after (Chip.lineKept_halfCause _) (.emit (.addSat (.after (Chip.lineKept_showTakeover _ _ _) ?_) (by decide)))
  exact .foldl (fun d k => .setBit (.setBit (.setCol (.refl d)) (by decide)) (by decide)) (.refl c)

theorem Chip.lineKept_goHalf (c : Chip) (ports : List (Fin 8)) : c.LineKept (c.goHalf ports) := by
  unfold Chip.goHalf
  refine .foldl (fun d k => d.lineKept_countLost _ _) (.after (Chip.lineKept_halfCause _) (.emit ?_))
  exact .foldl (fun d _ => .setBit (.refl d) (by decide)) (.refl c)

theorem Chip.lineKept_decideLoss (c : Chip) (ports : List (Fin 8)) : c.LineKept (c.decideLoss ports) :=
  .ite (.refl c) (.ite (.ite (.foldl (fun d _ => d.lineKept_countLost _ _) (.refl c)) (.setTko (c.lineKept_sendTakeover _)))
    (c.lineKept_goHalf _))

theorem Chip.lineKept_modeLimitChanged (c : Chip) (before : Nat) (n : Int) : c.LineKept (c.modeLimitChanged before n) := by
  unfold Chip.modeLimitChanged
  refine .ite (.ite (.refl c) ?_) (.ite (c.lineKept_decideLoss _) (.refl c))
  exact .after (Chip.lineKept_goHalf _ _) (.foldl (fun d _ => .setBit (.refl d) (by decide)) (c.lineKept_soloHalf n))

/-! ### Activity (R550, R551, R555) -/

theorem Chip.lineKept_startUp (c : Chip) (k : Fin 8) : c.LineKept (c.startUp k) := by
  have hpower : c.LineKept
      ((c.setHp k { c.port k with tries := 0, coldHold := false, pgoodAt := c.now }).set F.HP_STAT_EN_OUT 1 k) :=
    .setK (.setHp (.refl c) id) (by decide)
  refine .ite (.ite (.emit (.setHp (.refl c) id)) ?_) (.refl c)
  exact .after (.setK (.setHp (.refl _) id) (by decide)) hpower

theorem Chip.lineKept_voterResumes (c : Chip) (v : Nat) : c.LineKept (c.voterResumes v) := by
  have hready : ∀ x : PwrSt, c.LineKept (c.setPwr x) := fun _ => .setPwr (.refl c)
  have hasked : ∀ d : Chip, d.LineKept (d.lpAsk 0) := fun d => .foldl (fun d _ => .beside (.refl d) rfl rfl rfl rfl rfl rfl) (.refl d)
  exact .ite (.ite (.after (Chip.lineKept_startUp _ _) (.setPwr (hready _))) (hready _)) (.ite (.after (hasked _) (hready _)) (hready _))

theorem Chip.lineKept_unwind (c : Chip) (r v n : Nat) : c.LineKept (c.unwind r v n) := by
  unfold Chip.unwind
  extract_lets asked target d e
  have hd : c.LineKept d := .foldl Chip.lineKept_voterResumes (.refl c)
  have hends : c.LineKept d.entryEnds := .setPwr (.set (.set (.set hd (by decide)) (by decide)) (by decide))
  have hlast : c.LineKept (d.entryEnds.pwrLast r v n target) := .set (.set (.set (.set hends (by decide)) (by decide)) (by decide)) (by decide)
  exact .emit (.addSat hlast (by decide))

theorem Chip.lineKept_latchWake (c : Chip) (src : Nat) : c.LineKept (c.latchWake src) := by
  unfold Chip.latchWake
  extract_lets st ph same pwr d
  have hd : c.LineKept d := .setPwr (.set (.refl c) (by decide))
  refine .ite (.refl c) (.ite hd (.ite (.ite (.after (Chip.lineKept_unwind _ _ _ _) hd) (.setPwr hd)) (.ite hd ?_)))
  split
  · exact .setPwr hd
  · exact .ite (.setPwr hd) hd

theorem Chip.lineKept_activity (c : Chip) : c.LineKept c.activity := by
  have hnoted : c.LineKept (c.setPwr { c.pwr with activeAt := c.now }) := .setPwr (.refl c)
  exact .ite (.after (Chip.lineKept_latchWake _ 7) hnoted) hnoted

theorem Chip.lineKept_calLine (c : Chip) (n : Int) : c.LineKept (c.calLine n) := by
  unfold Chip.calLine
  split
  · exact .ite (.beside (.refl c) rfl rfl rfl rfl rfl rfl) (.refl c)
  · exact .refl c

end Sys2Proof.Machine
end

section
/-!
PROOFS about the issue of a line event (R115, R118, R121 to R126, R130).
-/

namespace Sys2Proof.Machine

variable {c d e : Chip} {p : Place} {v i j : Nat} {n : Int} {te tc : Rat} {clamp : Bool}

/-! ### What follows in the other blocks -/

theorem strGuard_idle (h : c.switchState = 0) : c.strGuard = c := if_neg (by simp [h])

theorem afterIssue_idle {k : Nat} (h : c.switchState = 0) : c.afterIssue n k = c := if_neg (by simp [Chip.partDue_idle h])

theorem Chip.LineKept.switchState (h : c.LineKept d) : d.switchState = c.switchState := h.get (by decide)

/-- With no switch of the structure image nothing that follows a line event reaches the tracking unit but SPEED_REQ. -/
theorem lineKept_lineIssued (was : Chip) (n : Int) (h : c.switchState = 0) : c.LineKept (Chip.lineIssued was n c) := by
  unfold Chip.lineIssued
  extract_lets time checked shown
  have hchecked : c.LineKept checked := .ite (.refl c) c.lineKept_parityCheck
  have hlines : c.LineKept ((checked.spanChanged.passLines n).tkoLine n) :=
    .after (Chip.lineKept_tkoLine _ n) (.after (Chip.lineKept_passLines _ n) (.after (Chip.lineKept_spanChanged _) hchecked))
  have hshown : c.LineKept shown := .after (Chip.lineKept_modeLimitChanged _ _ n) hlines
  have hcal : c.LineKept (shown.calLine n) := .after (Chip.lineKept_calLine _ n) hshown
  rw [afterIssue_idle (hshown.switchState.trans h), strGuard_idle (hcal.switchState.trans h)]
  exact .after (Chip.lineKept_activity _) hcal

/-! ### The earliest time that the mode limit allows (R130) -/

theorem fLim_set (hp : F.OTP_FEAT_IN_FORCE.at 0 0 ≠ p.at i j) : (c.set p v i j).fLim = c.fLim := by
  have hfeature : (c.set p v i j).feature 2 = c.feature 2 := by rw [Chip.feature, Chip.get_set_other c p _ v i j 0 0 hp, Chip.feature]
  rw [Chip.fLim, hfeature]
  rfl

theorem clampedE_set (hp : F.OTP_FEAT_IN_FORCE.at 0 0 ≠ p.at i j) : (c.set p v i j).clampedE te = c.clampedE te := by
  rw [Chip.clampedE, fLim_set hp]
  rfl

/-! ### An event to be fired (R121, R130, R133, R135) -/

/-- CLAMP is shown; where it begins, OVERSPEED is recorded. -/
def Chip.clampShown (c : Chip) (clamp : Bool) : Chip :=
  (if clamp ∧ !c.trk.clampRun then
    (c.set F.TRK_STAT_OVERSPEED 1).emit 0x0A01 [(4, unsigned 32 (satInt 32 (c.rate * (256 : Nat)).floor))] else c).set F.TRK_STAT_CLAMP (bit clamp)

/-- The counters of a line to be fired, and the accounts that call it dropped. -/
def Chip.fireCounted (c : Chip) (n : Int) (clamp coast : Bool) : Chip :=
  let d := if clamp then c.addSat F.TRK_CLAMP_CNT_COUNT 1 else c
  let d := if coast then d.addSat F.TRK_COAST_CNT_COUNT 1 else d
  if clamp ∨ coast then d.dropLine (allPorts.filter (fun k => d.portFires k n)) n else d

theorem clampShown_spec (c : Chip) (clamp : Bool) : c.Only [.ev] {F.TRK_STAT_CLAMP.addr} (c.clampShown clamp) ∧
    (c.clampShown clamp).on F.TRK_STAT_CLAMP = clamp ∧ (c.clampShown clamp).on F.TRK_STAT_RUN = c.on F.TRK_STAT_RUN := by
  refine ⟨.set (Chip.only_ite (.emit (.set (.refl _ _ c) rfl) (by simp)) (.refl _ _ c)) rfl, Chip.on_set_same _ _ clamp 0 0 rfl (by decide), ?_⟩
  rw [Chip.clampShown, Chip.on_set_apart _ F.TRK_STAT_CLAMP F.TRK_STAT_RUN _ rfl]
  split
  · rw [Chip.emit_on, Chip.on_set_apart _ F.TRK_STAT_OVERSPEED F.TRK_STAT_RUN _ rfl]
  · rfl

theorem only_dropLine (c : Chip) (ks : List (Fin 8)) (n : Int) : c.Only [.nzh] ∅ (c.dropLine ks n) := .withNzh (.refl _ _ c) (by simp)

theorem only_fireCounted (c : Chip) (n : Int) (clamp coast : Bool) :
    c.Only [.nzh] {F.TRK_CLAMP_CNT_COUNT.addr, F.TRK_COAST_CNT_COUNT.addr} (c.fireCounted n clamp coast) := by
  unfold Chip.fireCounted
  extract_lets d d'
  have hd : c.Only [.nzh] {F.TRK_CLAMP_CNT_COUNT.addr, F.TRK_COAST_CNT_COUNT.addr} d :=
    Chip.only_ite (.addSat (.refl _ _ c) (.inl rfl)) (.refl _ _ c)
  have hd' : c.Only [.nzh] {F.TRK_CLAMP_CNT_COUNT.addr, F.TRK_COAST_CNT_COUNT.addr} d' :=
    Chip.only_ite (.addSat hd (.inr rfl)) hd
  exact Chip.only_ite (hd'.trans ((only_dropLine _ _ _).mono (by simp) (by simp))) hd'

/-- The marks of a line to be fired. -/
def Chip.fireMarked (c : Chip) (n : Int) (clamp : Bool) : Chip := (c.clampShown clamp).fireCounted n clamp (c.on F.TRK_STAT_COAST)

theorem fireMarked_spec (c : Chip) (n : Int) (clamp : Bool) :
    c.Only [.ev, .nzh] {F.TRK_STAT_CLAMP.addr, F.TRK_CLAMP_CNT_COUNT.addr, F.TRK_COAST_CNT_COUNT.addr} (c.fireMarked n clamp) ∧
      (c.fireMarked n clamp).on F.TRK_STAT_CLAMP = clamp ∧ (c.fireMarked n clamp).on F.TRK_STAT_RUN = c.on F.TRK_STAT_RUN := by
  obtain ⟨hshown, hclamp, hrun⟩ := clampShown_spec c clamp
  have hcounted := only_fireCounted (c.clampShown clamp) n clamp (c.on F.TRK_STAT_COAST)
  refine ⟨(hshown.mono (by simp) (by simp)).trans (hcounted.mono (by simp) (by simp)), ?_, ?_⟩
  · exact (hcounted.on (by decide)).trans hclamp
  · exact (hcounted.on (by decide)).trans hrun

/-- The line event that is sent. -/
def Chip.fireEvent (c : Chip) (n : Int) (te tc : Rat) : LineEvent :=
  ⟨n, timeField tc, c.period64, c.trk.bank, false, decide (te < tc), c.on F.TRK_STAT_COAST⟩

theorem issueFire_marked (c : Chip) (n : Int) (te tc : Rat) : ∃ checks : List (Int × Rat), c.issueFire n te tc =
    Chip.publish { c.fireMarked n (decide (te < tc)) with trk := { (c.fireMarked n (decide (te < tc))).trk with
      lastLine := n, issued := true, lastDrop := false, clampRun := decide (te < tc), lastFiredE := some (timeField tc), checks := checks } }
      (c.fireEvent n te tc) := ⟨_, rfl⟩

/-- What the issue of a line to be fired leaves and does. -/
theorem issueFire_spec (c : Chip) (n : Int) (te tc : Rat) :
    let d := c.issueFire n te tc
    c.Only [.ev, .nzh, .trk] {F.TRK_STAT_CLAMP.addr, F.TRK_CLAMP_CNT_COUNT.addr, F.TRK_COAST_CNT_COUNT.addr} d ∧
      d.on F.TRK_STAT_CLAMP = decide (te < tc) ∧ d.on F.TRK_STAT_RUN = c.on F.TRK_STAT_RUN ∧
      d.trk.lastLine = n ∧ d.trk.issued = true ∧ d.trk.lastDrop = false ∧ d.trk.events.head? = some (c.fireEvent n te tc) ∧
      d.trk.lastFiredE = some (timeField tc) ∧ d.trk.x = c.trk.x ∧ d.trk.v = c.trk.v := by
  obtain ⟨checks, hissue⟩ := issueFire_marked c n te tc
  obtain ⟨honly, hclamp, hrun⟩ := fireMarked_spec c n (decide (te < tc))
  have htrk : (c.fireMarked n (decide (te < tc))).trk = c.trk := honly.1 .trk (by simp)
  dsimp only
  rw [hissue]
  refine ⟨.withTrk (.withTrk (honly.mono (by simp) subset_rfl) (by simp)) (by simp), hclamp, hrun, rfl, rfl, rfl, rfl, rfl, ?_, ?_⟩
  · have hx := congrArg TrkSt.x htrk
    exact hx
  · have hv := congrArg TrkSt.v htrk
    exact hv

/-! ### An event with DROP (R125) -/

/-- The marks of a line with DROP. -/
def Chip.dropMarked (c : Chip) (n : Int) : Chip :=
  let d := if c.trk.lastDrop then c else c.emit 0x0A09 [(6, unsigned 48 n), (1, 0)]
  let d := if d.on F.TRK_STAT_COAST then d.addSat F.TRK_COAST_CNT_COUNT 1 else d
  (d.addSat F.TRK_DROP_CNT_COUNT 1).dropLine (allPorts.filter d.portEnabled) n

theorem issueDrop_marked (c : Chip) (n : Int) (te : Rat) : c.issueDrop n te =
    Chip.publish { c.dropMarked n with trk := { (c.dropMarked n).trk with lastLine := n, issued := true, lastDrop := true } }
      ⟨n, timeField te, c.period64, c.trk.bank, true, false, c.on F.TRK_STAT_COAST⟩ := rfl

theorem dropMarked_spec (c : Chip) (n : Int) :
    c.Only [.ev, .nzh] {F.TRK_COAST_CNT_COUNT.addr, F.TRK_DROP_CNT_COUNT.addr} (c.dropMarked n) ∧
      (c.dropMarked n).get F.TRK_DROP_CNT_COUNT =
        satNat (F.TRK_DROP_CNT_COUNT.hi + 1 - F.TRK_DROP_CNT_COUNT.lo) (c.get F.TRK_DROP_CNT_COUNT + 1) := by
  unfold Chip.dropMarked
  extract_lets d d'
  have hd : c.Only [.ev] {F.TRK_COAST_CNT_COUNT.addr} d := Chip.only_ite (.refl _ _ c) (.emit (.refl _ _ c) (by simp))
  have hd' : c.Only [.ev] {F.TRK_COAST_CNT_COUNT.addr} d' := Chip.only_ite (.addSat hd rfl) hd
  have hcounted : c.Only [.ev] {F.TRK_COAST_CNT_COUNT.addr, F.TRK_DROP_CNT_COUNT.addr} (d'.addSat F.TRK_DROP_CNT_COUNT 1) :=
    .addSat (hd'.mono (by simp) (by simp)) (.inr rfl)
  refine ⟨(hcounted.mono (by simp) subset_rfl).trans ((only_dropLine _ _ _).mono (by simp) (by simp)), ?_⟩
  rw [(only_dropLine _ _ _).get (by simp), Chip.get_addSat_same _ _ _ _ _ (by decide) (by decide), hd'.get (by decide)]

/-- What the issue of a line with DROP leaves and does. -/
theorem issueDrop_spec (c : Chip) (n : Int) (te : Rat) :
    let d := c.issueDrop n te
    c.Only [.ev, .nzh, .trk] {F.TRK_COAST_CNT_COUNT.addr, F.TRK_DROP_CNT_COUNT.addr} d ∧
      d.get F.TRK_DROP_CNT_COUNT = satNat (F.TRK_DROP_CNT_COUNT.hi + 1 - F.TRK_DROP_CNT_COUNT.lo) (c.get F.TRK_DROP_CNT_COUNT + 1) ∧
      d.trk.lastLine = n ∧ d.trk.issued = true ∧ d.trk.lastDrop = true ∧
      (∃ x : LineEvent, d.trk.events.head? = some x ∧ x.line = n ∧ x.drop = true ∧ x.clamp = false) ∧
      d.trk.lastFiredE = c.trk.lastFiredE := by
  obtain ⟨honly, hcount⟩ := dropMarked_spec c n
  have htrk : (c.dropMarked n).trk = c.trk := honly.1 .trk (by simp)
  dsimp only
  rw [issueDrop_marked]
  refine ⟨.withTrk (.withTrk (honly.mono (by simp) subset_rfl) (by simp)) (by simp), hcount, rfl, rfl, rfl, ⟨_, rfl, rfl, rfl, rfl⟩, ?_⟩
  have hlast := congrArg TrkSt.lastFiredE htrk
  exact hlast

/-! ### Whether a line is due (R115, R123 to R125) -/

/-- Too slow: UNDERSPEED, recorded where it begins, and RUN clears. -/
def Chip.tooSlow (c : Chip) : Chip :=
  ((if c.on F.TRK_STAT_RUN ∧ !c.on F.TRK_STAT_UNDERSPEED then c.emit 0x0A06 else c).set F.TRK_STAT_UNDERSPEED 1).set F.TRK_STAT_RUN 0

theorem mayIssue_slow (h : c.rate < (c.inForce F.TRK_VMIN_VMIN : Rat)) : c.mayIssue = false := by
  simp [Chip.mayIssue, not_le.mpr h]

theorem trkIssue_slow {pre : Int → Chip → Chip} (hon : c.trkOn = true) (hsource : c.on F.TRK_STAT_NO_SOURCE = false)
    (hslow : c.rate < (c.inForce F.TRK_VMIN_VMIN : Rat)) : c.trkIssue pre = c.tooSlow := by
  have hnot : (!c.mayIssue) = true := by simp [mayIssue_slow hslow]
  have hrun : c.trkOn = true ∧ (!c.on F.TRK_STAT_NO_SOURCE) = true := by simp [hon, hsource]
  exact (if_pos hnot).trans (if_pos hrun)

theorem tooSlow_spec (c : Chip) : c.Only [.ev] {F.TRK_STAT_RUN.addr} c.tooSlow ∧ c.tooSlow.on F.TRK_STAT_UNDERSPEED = true ∧
    c.tooSlow.on F.TRK_STAT_RUN = false ∧
    c.Raised c.tooSlow (if c.on F.TRK_STAT_RUN = true ∧ c.on F.TRK_STAT_UNDERSPEED = false then [(0x0A06, [])] else []) := by
  refine ⟨.set (.set (Chip.only_ite (.emit (.refl _ _ c) (by simp)) (.refl _ _ c)) rfl) rfl, ?_, ?_, ?_⟩
  · rw [Chip.tooSlow, Chip.on_set_apart _ F.TRK_STAT_RUN F.TRK_STAT_UNDERSPEED 0 rfl]
    exact Chip.on_set_same _ _ true 0 0 rfl (by decide)
  · exact Chip.on_set_same _ _ false 0 0 rfl (by decide)
  · by_cases hbegins : c.on F.TRK_STAT_RUN = true ∧ c.on F.TRK_STAT_UNDERSPEED = false
    · rw [if_pos hbegins, Chip.tooSlow, if_pos (by simpa using hbegins)]
      rfl
    · rw [if_neg hbegins, Chip.tooSlow, if_neg (by simpa using hbegins)]
      rfl

/-- A line further ahead than the lead is not issued yet. -/
theorem trkIssue_waits {pre : Int → Chip → Chip} (hmay : c.mayIssue = true) (hn : n = c.trk.lastLine + 1)
    (hlead : (c.inForce F.TRK_LEAD_LEAD : Rat) * (c.period64 : Rat) / (64 : Nat) + (500 : Nat) <
      c.clampedE (c.timeOf n - (c.tauMax : Rat)) - c.nowQ) : c.trkIssue pre = c.set F.TRK_STAT_UNDERSPEED 0 := by
  have hmay' : ¬ (!c.mayIssue) = true := by simp [hmay]
  subst hn
  refine (if_neg hmay').trans (if_neg ?_)
  rw [clampedE_set (by decide)]
  exact not_le.mpr hlead

/-- The issue of line n after its hand-over: fired, or with DROP where its middle will have been passed (R125). -/
def Chip.issueAt (c : Chip) (n : Int) : Chip :=
  let te := c.timeOf n - (c.tauMax : Rat)
  let tc := c.clampedE te
  let d := c.set F.TRK_STAT_RUN 1
  let fireAt := maxQ tc d.nowQ + (d.tauMax : Rat)
  (if (n : Rat) + 1 / 2 ≤ d.xAt fireAt then d.issueDrop n tc else d.issueFire n te tc).serveTrk

/-- A line that is due, with nothing to hand over. -/
theorem trkIssue_due (hmay : c.mayIssue = true) (hn : n = c.trk.lastLine + 1) (hdirty : c.dirty = []) (hsw : c.switchState = 0)
    (hlead : c.clampedE (c.timeOf n - (c.tauMax : Rat)) - c.nowQ ≤
      (c.inForce F.TRK_LEAD_LEAD : Rat) * (c.period64 : Rat) / (64 : Nat) + (500 : Nat)) :
    c.trkIssue Chip.applyIssue = (c.set F.TRK_STAT_UNDERSPEED 0).issueAt n := by
  have hmay' : ¬ (!c.mayIssue) = true := by simp [hmay]
  have hidle : (c.set F.TRK_STAT_UNDERSPEED 0).switchState = 0 := (Chip.get_set_other c _ _ _ _ _ _ _ (by decide)).trans hsw
  have happly : Chip.applyIssue n (c.set F.TRK_STAT_UNDERSPEED 0) = c.set F.TRK_STAT_UNDERSPEED 0 :=
    if_neg (by simp [Chip.partDue_idle hidle])
  have hnone : (c.set F.TRK_STAT_UNDERSPEED 0).trkDirty = [] := by
    rw [Chip.trkDirty, show (c.set F.TRK_STAT_UNDERSPEED 0).dirty = [] from hdirty]
    rfl
  have hover : (c.set F.TRK_STAT_UNDERSPEED 0).trkHandOver = c.set F.TRK_STAT_UNDERSPEED 0 := if_pos hnone
  have hissue : c.trkIssue Chip.applyIssue = (Chip.applyIssue n (c.set F.TRK_STAT_UNDERSPEED 0)).trkHandOver.issueAt n := by
    subst hn
    refine (if_neg hmay').trans (if_pos ?_)
    rw [clampedE_set (by decide)]
    exact hlead
  rw [hissue, happly, hover]

/-- The chip with UNDERSPEED gone and RUN set. -/
def Chip.running (c : Chip) : Chip := (c.set F.TRK_STAT_UNDERSPEED 0).set F.TRK_STAT_RUN 1

theorem running_spec (c : Chip) : c.Only [] {F.TRK_STAT_RUN.addr} c.running ∧ c.running.on F.TRK_STAT_RUN = true ∧
    c.running.on F.TRK_STAT_COAST = c.on F.TRK_STAT_COAST := by
  refine ⟨.set (.set (.refl _ _ c) rfl) rfl, Chip.on_set_same _ _ true 0 0 rfl (by decide), ?_⟩
  rw [Chip.running, Chip.on_set_apart _ F.TRK_STAT_RUN F.TRK_STAT_COAST 1 rfl, Chip.on_set_apart _ F.TRK_STAT_UNDERSPEED F.TRK_STAT_COAST 0 rfl]

/-- The fields that the issue of a line goes by stay where UNDERSPEED and RUN alone have changed. -/
theorem issueAt_due (hte : te = c.timeOf n - (c.tauMax : Rat)) : (c.set F.TRK_STAT_UNDERSPEED 0).issueAt n =
    (if (n : Rat) + 1 / 2 ≤ c.xAt (maxQ (c.clampedE te) c.nowQ + (c.tauMax : Rat))
      then c.running.issueDrop n (c.clampedE te)
      else c.running.issueFire n te (c.clampedE te)).serveTrk := by
  have hclamped : c.clampedE te = (c.set F.TRK_STAT_UNDERSPEED 0).clampedE te := (clampedE_set (by decide)).symm
  subst hte
  rw [hclamped]
  rfl

/-! ### The command, and what follows in the other blocks -/

/-- No line is issued: the other blocks hear nothing. -/
theorem lineEventIssue_none (htrk : (c.trkIssue Chip.applyIssue).trk = c.trk) : c.lineEventIssue = c.trkIssue Chip.applyIssue := by
  refine if_neg ?_
  rw [htrk]
  simp

/-- Line n is issued, in whatever way. -/
theorem lineEventIssue_issued (hn : n = c.trk.lastLine + 1) (hissue : c.trkIssue Chip.applyIssue = d) (hissued : d.trk.issued = true)
    (hline : d.trk.lastLine = n) : c.lineEventIssue = Chip.lineIssued c n d := by
  have hnew : (d.trk.issued && (!c.trk.issued || d.trk.lastLine != c.trk.lastLine)) = true := by
    simp only [hissued, hline, Bool.true_and, Bool.or_eq_true, bne_iff_ne]
    omega
  rw [Chip.lineEventIssue, hissue, if_pos hnew, hline]

/-- What the issue of a line and what follows from it in TRK and the other blocks leave of TRK. -/
theorem lineIssued_keeps (hn : n = c.trk.lastLine + 1) (hissue : c.trkIssue Chip.applyIssue = d.serveTrk) (hissued : d.trk.issued = true)
    (hline : d.trk.lastLine = n) (hsw : d.switchState = 0) : d.serveTrk.LineKept c.lineEventIssue := by
  have hserved := d.sourcesServed_serveTrk
  have hsw' : d.serveTrk.switchState = 0 := (hserved.only.get (by simp [sourceRegs]; decide)).trans hsw
  rw [lineEventIssue_issued hn hissue ((hserved.keeps TrkSt.issued fun _ _ => rfl).trans hissued)
    ((hserved.keeps TrkSt.lastLine fun _ _ => rfl).trans hline)]
  exact lineKept_lineIssued c n hsw'

/-- A part of the tracking unit's state that neither its sources nor SPEED_REQ go by. -/
theorem Chip.LineKept.keepsServed {α : Type} (h : d.serveTrk.LineKept e) (g : TrkSt → α)
    (hreq : ∀ (x y : TrkSt), g { x with tkoCause := y.tkoCause, spreqHold := y.spreqHold } = g x)
    (hsrc : ∀ (x y : TrkSt), g { x with dAt := y.dAt, fabFb := y.fabFb, coastAt := y.coastAt, spreqHold := y.spreqHold } = g x) :
    g e.trk = g d.trk := (h.keeps g hreq).trans (d.sourcesServed_serveTrk.keeps g hsrc)

/-- A flag of TRK_STAT beside ACTIVE and COAST. -/
theorem Chip.LineKept.onServed (h : d.serveTrk.LineKept e) (ha : F.TRK_STAT_ACTIVE.apart p = true) (hc : F.TRK_STAT_COAST.apart p = true) :
    e.on p = d.on p := by
  have hreg : lineReg (p.at 0 0) = true := by
    rw [Place.at_of_apart ha]
    rfl
  rw [Chip.on, h.get hreg, d.sourcesServed_serveTrk.stat p ha hc, Chip.on]

/-- A line that is due, with its middle still ahead, is issued to be fired. -/
theorem lineEventIssue_fires (hmay : c.mayIssue = true) (hn : n = c.trk.lastLine + 1) (hdirty : c.dirty = []) (hsw : c.switchState = 0)
    (hte : te = c.timeOf n - (c.tauMax : Rat))
    (hlead : c.clampedE te - c.nowQ ≤ (c.inForce F.TRK_LEAD_LEAD : Rat) * (c.period64 : Rat) / (64 : Nat) + (500 : Nat))
    (hmiddle : c.xAt (maxQ (c.clampedE te) c.nowQ + (c.tauMax : Rat)) < (n : Rat) + 1 / 2) :
    let d := c.lineEventIssue
    d.now = c.now ∧ d.trk.lastLine = n ∧ d.trk.issued = true ∧ d.trk.lastDrop = false ∧
      d.trk.events.head? = some ⟨n, timeField (c.clampedE te), c.period64, c.trk.bank, false, decide (te < c.clampedE te),
        c.on F.TRK_STAT_COAST⟩ ∧
      d.trk.lastFiredE = some (timeField (c.clampedE te)) ∧ d.on F.TRK_STAT_CLAMP = decide (te < c.clampedE te) ∧
      d.on F.TRK_STAT_RUN = true ∧ d.trk.x = c.trk.x ∧ d.trk.v = c.trk.v := by
  have hissue := (trkIssue_due hmay hn hdirty hsw (by rw [← hte]; exact hlead)).trans (issueAt_due hte)
  rw [if_neg (not_le.mpr hmiddle)] at hissue
  obtain ⟨hrunning, hrunOn, hcoast⟩ := running_spec c
  obtain ⟨honly, hclamp, hrun, hline, hissued, hdrop, hevent, hfired, hx, hv⟩ := issueFire_spec c.running n te (c.clampedE te)
  have hserved := (c.running.issueFire n te (c.clampedE te)).sourcesServed_serveTrk
  have hsw' : (c.running.issueFire n te (c.clampedE te)).switchState = 0 :=
    ((honly.switchState (by decide)).trans (hrunning.switchState (by decide))).trans hsw
  have hkept := lineIssued_keeps hn hissue hissued hline hsw'
  have hmarks : c.running.fireEvent n te (c.clampedE te) = ⟨n, timeField (c.clampedE te), c.period64, c.trk.bank, false,
      decide (te < c.clampedE te), c.on F.TRK_STAT_COAST⟩ := by
    rw [Chip.fireEvent, hcoast]
    rfl
  refine ⟨?_, ?_, ?_, ?_, ?_, ?_, ?_, ?_, ?_, ?_⟩
  · exact hkept.now.trans ((hserved.only.1 .now (by simp)).trans (honly.1 .now (by simp)))
  · exact (hkept.keepsServed TrkSt.lastLine (fun _ _ => rfl) fun _ _ => rfl).trans hline
  · exact (hkept.keepsServed TrkSt.issued (fun _ _ => rfl) fun _ _ => rfl).trans hissued
  · exact (hkept.keepsServed TrkSt.lastDrop (fun _ _ => rfl) fun _ _ => rfl).trans hdrop
  · rw [hkept.keepsServed TrkSt.events (fun _ _ => rfl) fun _ _ => rfl, hevent, hmarks]
  · exact (hkept.keepsServed TrkSt.lastFiredE (fun _ _ => rfl) fun _ _ => rfl).trans hfired
  · exact (hkept.onServed rfl rfl).trans hclamp
  · exact (hkept.onServed rfl rfl).trans (hrun.trans hrunOn)
  · exact (hkept.keepsServed TrkSt.x (fun _ _ => rfl) fun _ _ => rfl).trans hx
  · exact (hkept.keepsServed TrkSt.v (fun _ _ => rfl) fun _ _ => rfl).trans hv

/-- A line that is due with its middle passed is issued with DROP, and counted. -/
theorem lineEventIssue_drops (hmay : c.mayIssue = true) (hn : n = c.trk.lastLine + 1) (hdirty : c.dirty = []) (hsw : c.switchState = 0)
    (hte : te = c.timeOf n - (c.tauMax : Rat))
    (hlead : c.clampedE te - c.nowQ ≤ (c.inForce F.TRK_LEAD_LEAD : Rat) * (c.period64 : Rat) / (64 : Nat) + (500 : Nat))
    (hmiddle : (n : Rat) + 1 / 2 ≤ c.xAt (maxQ (c.clampedE te) c.nowQ + (c.tauMax : Rat))) :
    let d := c.lineEventIssue
    d.now = c.now ∧ d.trk.lastLine = n ∧ d.trk.lastDrop = true ∧
      (∃ ev : LineEvent, d.trk.events.head? = some ev ∧ ev.line = n ∧ ev.drop = true ∧ ev.clamp = false) ∧
      d.trk.lastFiredE = c.trk.lastFiredE ∧
      d.get F.TRK_DROP_CNT_COUNT = satNat (F.TRK_DROP_CNT_COUNT.hi + 1 - F.TRK_DROP_CNT_COUNT.lo) (c.get F.TRK_DROP_CNT_COUNT + 1) := by
  have hissue := (trkIssue_due hmay hn hdirty hsw (by rw [← hte]; exact hlead)).trans (issueAt_due hte)
  rw [if_pos hmiddle] at hissue
  obtain ⟨hrunning, -, -⟩ := running_spec c
  obtain ⟨honly, hcount, hline, hissued, hdrop, ⟨x, hevent, hmarks⟩, hfired⟩ := issueDrop_spec c.running n (c.clampedE te)
  have hserved := (c.running.issueDrop n (c.clampedE te)).sourcesServed_serveTrk
  have hsw' : (c.running.issueDrop n (c.clampedE te)).switchState = 0 :=
    ((honly.switchState (by decide)).trans (hrunning.switchState (by decide))).trans hsw
  have hkept := lineIssued_keeps hn hissue hissued hline hsw'
  refine ⟨?_, ?_, ?_, ⟨x, ?_, hmarks⟩, ?_, ?_⟩
  · exact hkept.now.trans ((hserved.only.1 .now (by simp)).trans (honly.1 .now (by simp)))
  · exact (hkept.keepsServed TrkSt.lastLine (fun _ _ => rfl) fun _ _ => rfl).trans hline
  · exact (hkept.keepsServed TrkSt.lastDrop (fun _ _ => rfl) fun _ _ => rfl).trans hdrop
  · rw [hkept.keepsServed TrkSt.events (fun _ _ => rfl) fun _ _ => rfl, hevent]
  · exact (hkept.keepsServed TrkSt.lastFiredE (fun _ _ => rfl) fun _ _ => rfl).trans hfired
  · rw [hkept.get rfl, hserved.only.get (by simp [sourceRegs]; decide), hcount, hrunning.get (by decide)]

end Sys2Proof.Machine
end

section
namespace Sys2Proof.Proofs
open Sys2Proof.Machine

/-- Settles O12: the issue of a line is one case of `trkIssue`, and what follows from it reaches TRK by SPEED_REQ alone. -/
theorem lineEventsIssue : Obligations.LineEventsIssue := by
  unfold Obligations.LineEventsIssue
  refine ⟨?_, ?_, ?_, ?_⟩
  · intro t s hup hon hsource hslow
    have hissue := trkIssue_slow (c := s.chip.at t) (pre := Chip.applyIssue) hon hsource hslow
    obtain ⟨honly, hrest⟩ := tooSlow_spec (s.chip.at t)
    rw [← hissue] at honly hrest
    exact ⟨_, runChip_inIsland_eq hup (lineEventIssue_none (honly.1 .trk (by simp))), leaves_of_only honly, hrest⟩
  · intro t n s hup hmay hn hlead
    have hissue := trkIssue_waits (c := s.chip.at t) (pre := Chip.applyIssue) hmay hn hlead
    have hnone := lineEventIssue_none (c := s.chip.at t) (by rw [hissue]; rfl)
    refine ⟨_, runChip_inIsland_eq hup (hnone.trans hissue), leaves_of_only (.set (.refl _ _ _) rfl), ?_⟩
    exact Chip.on_set_same _ _ false 0 0 rfl (by decide)
  · intro t n e s hup hmay hn hdirty hsw _ he hlead hmiddle
    exact ⟨_, runChip_inIsland_eq hup rfl, rfl, rfl, lineEventIssue_fires (c := s.chip.at t) hmay hn hdirty hsw he hlead hmiddle⟩
  · intro t n e s hup hmay hn hdirty hsw _ he hlead hmiddle
    exact ⟨_, runChip_inIsland_eq hup rfl, rfl, rfl, lineEventIssue_drops (c := s.chip.at t) hmay hn hdirty hsw he hlead hmiddle⟩

end Sys2Proof.Proofs
end

section
/-!
PROOFS about the registers of TRK: writes and reads that are taken, what a plain write stores, and the reads that capture a high word
(R10, R13, R128, R138).
-/

namespace Sys2Proof.Machine

variable {c d : Chip} {p q : Place} {r : RegDef} {f : FieldDef} {i : Initiator} {a w t : Nat} {s : State}

/-! ### Writes and reads that the bus takes -/

/-- Place p is register r of TRK, of no index, and not one that every write may change beside its own. -/
def isTrkReg (p : Place) (r : RegDef) : Bool :=
  decide (regWhere (p.at 0 0) = some (r, 0, 0)) && ordinary (p.at 0 0) && decide (blockOf (p.at 0 0) = 0x0A) &&
    decide (p.at 0 0 ≠ F.TRK_REJ_CNT_COUNT.addr) && decide (p.at 0 0 ≠ F.TRK_SHSTAT_PENDING.addr)

theorem isTrkReg_spec (h : isTrkReg p r = true) : regWhere (p.at 0 0) = some (r, 0, 0) ∧ ordinary (p.at 0 0) = true ∧
    blockOf (p.at 0 0) = 0x0A ∧ p.at 0 0 ≠ F.TRK_REJ_CNT_COUNT.addr ∧ p.at 0 0 ≠ F.TRK_SHSTAT_PENDING.addr := by
  simpa [isTrkReg, and_assoc] using h

/-- A write of a register of TRK that is taken. -/
theorem trkWrite_taken {v : Word} (h : isTrkReg p r = true) (hmay : s.chip.mayWrite i (p.at 0 0)) :
    runWrite t i p v 0 0 s = .next { s with chip := Chip.writeTrk (p.at 0 0) r v.toNat (s.chip.wrote t i (p.at 0 0)) } := by
  obtain ⟨hreg, hord, hblock, -, -⟩ := isTrkReg_spec h
  have hwork : worksIn (p.at 0 0) = false := by simp [worksIn, hblock]
  have hcal : ¬ (blockOf (p.at 0 0) = 0x1A ∨ blockOf (p.at 0 0) = 0x0F) := by omega
  rw [runWrite_taken hmay hord hreg hwork (fun hb => absurd hb hcal)]
  simp only [writeReg, hblock]

/-- A read of a register of TRK that is taken. -/
theorem trkRead_taken (h : isTrkReg p r = true) (hmay : s.chip.mayRead i (p.at 0 0)) :
    runRead t i p 0 s = .next { s with chip := Chip.gives (Chip.readTrk (p.at 0 0) r (s.chip.at t)) } := by
  obtain ⟨hreg, hord, hblock, -, -⟩ := isTrkReg_spec h
  have hmay' : (s.chip.at t).mayRead i (p.at 0 0) := hmay
  rw [runRead, runChip, busRead_taken hmay' hord hreg]
  simp only [Chip.readReg, hblock]

/-! ### What a plain write stores -/

/-- An ignored write of TRK is counted in TRK_REJ_CNT. -/
theorem reject_trk (h : blockOf a = 0x0A) : c.reject a = c.addSat F.TRK_REJ_CNT_COUNT 1 := by
  refine reject_of_counter (k := 0) ?_
  simp only [rejectCounter, h]
  rfl

/-- A shadowed write of TRK waits for its copy, which TRK_SHSTAT shows. -/
theorem only_shadowWritten_trk (h : blockOf a = 0x0A) : c.Only [.dirty] {F.TRK_SHSTAT_PENDING.addr} (c.shadowWritten a) := by
  have hdirty : c.Only [.dirty] {F.TRK_SHSTAT_PENDING.addr} { c with dirty := (a :: c.dirty).eraseDups } := by
    refine (Chip.Only.refl _ _ c).beside rfl fun q hq => ?_
    cases q
    case dirty => simp at hq
    all_goals rfl
  have hwritten : c.shadowWritten a = (({ c with dirty := (a :: c.dirty).eraseDups } : Chip).set F.TRK_SHSTAT_SHADOW_TAKEN 0).set
      F.TRK_SHSTAT_PENDING 1 := by simp only [Chip.shadowWritten, h, true_or, if_true]
  rw [hwritten]
  exact .set (.set hdirty rfl) rfl

/-- Beside its word a plain write in TRK changes TRK_SHSTAT and what waits there, and the count of ignored writes. -/
theorem plain_trk_stored (h : blockOf a = 0x0A) :
    (c.setWord a (BitVec.ofNat 32 (c.plainWord a r w))).Only [.dirty] {F.TRK_SHSTAT_PENDING.addr, F.TRK_REJ_CNT_COUNT.addr} (c.plain a r w) := by
  have hshadow : ∀ d : Chip, d.Only [.dirty] {F.TRK_SHSTAT_PENDING.addr, F.TRK_REJ_CNT_COUNT.addr} (d.shadowWritten a) :=
    fun d => (only_shadowWritten_trk h).mono (List.Subset.refl _) (by simp)
  have hreject : ∀ d : Chip, d.Only [.dirty] {F.TRK_SHSTAT_PENDING.addr, F.TRK_REJ_CNT_COUNT.addr} (d.reject a) := fun d => by
    rw [reject_trk h]
    exact .addSat (.refl _ _ d) (.inr rfl)
  have hstored := Chip.only_ite (b := (r.fields.foldl (fun (s : FieldWrite) (f : FieldDef) => c.storeField a w s f)
    ⟨(c.word a).toNat, false, false⟩).shadow = true) (hshadow (c.setWord a (BitVec.ofNat 32 (c.plainWord a r w)))) (.refl _ _ _)
  exact Chip.only_ite (hstored.trans (hreject _)) hstored

theorem only_plain_trk (h : blockOf a = 0x0A) :
    c.Only [.dirty] {a, F.TRK_SHSTAT_PENDING.addr, F.TRK_REJ_CNT_COUNT.addr} (c.plain a r w) :=
  (Chip.Only.setWord (.refl _ _ c) (by simp)).trans ((plain_trk_stored h).mono (List.Subset.refl _) (by simp))

/-- No field of a register that is not shadowed waits for a copy. -/
theorem foldl_storeField_unshadowed {fs : List FieldDef} {x : FieldWrite} (h : ∀ f ∈ fs, f.shadow = false) :
    (fs.foldl (fun x f => c.storeField a w x f) x).shadow = x.shadow := by
  induction fs generalizing x with
  | nil => rfl
  | cons f fs ih =>
    have hf : (c.storeField a w x f).shadow = x.shadow := by
      have hno : f.shadow = false := h f (by simp)
      unfold Chip.storeField
      extract_lets v
      split
      · rfl
      · rfl
      · rfl
      · split
        · rfl
        · split
          · rfl
          · simp [hno]
    rw [List.foldl_cons, ih fun g hg => h g (by simp [hg]), hf]

/-- A plain write of a register without shadowed fields, none of which ignores it, stores its word and does nothing else. -/
theorem plain_unshadowed (hsh : ∀ f ∈ r.fields, f.shadow = false) (hno : r.fields.any (c.ignoresField a w) = false) :
    c.plain a r w = c.setWord a (BitVec.ofNat 32 (c.plainWord a r w)) := by
  simp only [Chip.plain, foldl_storeField_ignored, foldl_storeField_unshadowed hsh, Bool.false_or, hno, Bool.false_eq_true, if_false]
  rfl

/-- An RW field of TRK that no variant lacks takes a value in its range. -/
theorem get_plain_trk_rw {mn mx : Nat} {sh : Bool} (h : isTrkReg p r = true) (hf : ⟨q.hi, q.lo, .rw, mn, mx, sh⟩ ∈ r.fields)
    (hat : q.at 0 0 = p.at 0 0) (hvar : c.featureless (p.at 0 0) ⟨q.hi, q.lo, .rw, mn, mx, sh⟩ = false) (hcal : c.calBusy = false)
    (hsw : c.switchState = 0) (hmn : mn ≤ fld q w) (hmx : fld q w ≤ mx) : (c.plain (p.at 0 0) r w).get q = fld q w := by
  obtain ⟨hreg, -, hblock, hrej, hshadow⟩ := isTrkReg_spec h
  have hword : (c.plain (p.at 0 0) r w).word (p.at 0 0) = BitVec.ofNat 32 (c.plainWord (p.at 0 0) r w) :=
    ((plain_trk_stored hblock).2 _ (by simp [hrej, hshadow])).trans (Chip.word_setWord_same _ _ _)
  have hfield := plainWord_field (c := c) (w := w) (regWhere_regAt hreg) hf
  rw [fieldAfter_taking (.inl rfl), hvar, barsField_inRange hcal hsw hmn hmx] at hfield
  simp only [Chip.get, hat, hword]
  exact hfield

/-! ### The position, the rate and the line (R138) -/

/-- TRK_POS_LO and TRK_LINE_LO in the register map. -/
def trkPosLo : RegDef := ⟨0x0B4, 0, 1, 0, 1, 0x0, []⟩
def trkLineLo : RegDef := ⟨0x0C0, 0, 1, 0, 1, 0x0, []⟩

theorem isTrkReg_posLo : isTrkReg R.TRK_POS_LO trkPosLo = true := by decide +kernel
theorem isTrkReg_lineLo : isTrkReg R.TRK_LINE_LO trkLineLo = true := by decide +kernel

/-- The chip after a read of TRK_POS_LO: the position's high word and the rate are captured. -/
def Chip.trackKept (c : Chip) : Chip := (c.keep R.TRK_POS_HI.addr (c.trkPosition / 2 ^ 32)).keep R.TRK_RATE.addr c.trkRate

theorem readTrk_posLo : Chip.readTrk a trkPosLo c = (c.trackKept, c.trkPosition % 2 ^ 32) := by
  have hself : trkPosLo.is R.TRK_POS_LO = true := rfl
  rw [Chip.readTrk, if_pos hself]
  rfl

theorem readTrk_lineLo : Chip.readTrk a trkLineLo c =
    (c.keep R.TRK_LINE_HI.addr (unsigned 48 c.trk.lastLine / 2 ^ 32), unsigned 48 c.trk.lastLine % 2 ^ 32) := by
  have hself : trkLineLo.is R.TRK_LINE_LO = true := rfl
  have hother : ¬ trkLineLo.is R.TRK_POS_LO = true := by decide
  rw [Chip.readTrk, if_neg hother, if_pos hself]

theorem only_trackKept (c : Chip) : c.Only [.latch] ∅ c.trackKept := .keep (.keep (.refl _ _ c) (by simp)) (by simp)

theorem trackKept_captured (c : Chip) : c.trackKept.captured R.TRK_POS_HI.addr = c.trkPosition / 2 ^ 32 % 2 ^ 32 ∧
    c.trackKept.captured R.TRK_RATE.addr = c.trkRate % 2 ^ 32 := by
  refine ⟨?_, Chip.captured_keep_same _ _ _⟩
  rw [Chip.trackKept, Chip.captured_keep_other _ (by decide), Chip.captured_keep_same]

end Sys2Proof.Machine
end

section
/-!
PROOFS about the sources of TRK where one is left for the other (R112, R113, R115, R117).
-/

namespace Sys2Proof.Machine

variable {c d : Chip} {p q : Place} {f : FieldDef} {a w n t : Nat} {s : State}

/-! ### What a source goes by -/

/-- An encoder as a source goes by its channel's faults alone. -/
theorem healthy_congr (hn : n < 2) (h : ∀ a, blockOf a = 0x09 → d.word a = c.word a) : d.healthy n = c.healthy n := by
  have hfab : ¬ 4 ≤ n ∧ ¬ 2 ≤ n := by omega
  have hstat : d.word (F.POS_ENC_STAT_ENC_FAULT.at n 0) = c.word (F.POS_ENC_STAT_ENC_FAULT.at n 0) := by
    refine h _ ?_
    interval_cases n <;> rfl
  have hfault : d.on F.POS_ENC_STAT_ENC_FAULT n = c.on F.POS_ENC_STAT_ENC_FAULT n := by rw [Chip.on, Chip.get, hstat, Chip.on, Chip.get]
  have hwire : d.get F.POS_ENC_STAT_WIRE_ACT n = c.get F.POS_ENC_STAT_WIRE_ACT n := by
    have hstat' : d.word (F.POS_ENC_STAT_WIRE_ACT.at n 0) = c.word (F.POS_ENC_STAT_WIRE_ACT.at n 0) := hstat
    rw [Chip.get, hstat', Chip.get]
  simp only [Chip.healthy, Chip.sourceState, if_neg hfab.1, if_neg hfab.2, hfault, hwire]

theorem sourceCode_lt (hn : n < 2) : sourceCode n = n := if_pos (by omega)

theorem active_showActive (c : Chip) (n : Nat) : (c.showActive n).active = sourceCode n % 4 :=
  Chip.get_set_same c F.TRK_STAT_ACTIVE (sourceCode n) 0 0 (by decide) (by decide)

theorem on_showActive (c : Chip) (n : Nat) (h : F.TRK_STAT_ACTIVE.apart p = true) : (c.showActive n).on p = c.on p :=
  Chip.on_set_apart c F.TRK_STAT_ACTIVE p (sourceCode n) h

theorem sourceOf_fabric {x m : Nat} {fb : Bool} (hm : m < 2) (h : sourceOf x fb = 2 + m) : x = 2 := by
  unfold sourceOf at h
  split_ifs at h with hnone hfb <;> omega

/-- A fabric source is the active one where ACTIVE says 2. -/
theorem active_of_fabric {m : Fin 2} (h : c.activeSource = 2 + m) : c.active = 2 := sourceOf_fabric m.isLt h

/-! ### Leaving the active source -/

theorem coast_on (c : Chip) : c.coast.on F.TRK_STAT_COAST = true := by
  by_cases hcoast : c.on F.TRK_STAT_COAST = true
  · rw [Chip.coast, if_pos hcoast, hcoast]
  · rw [Chip.coast, if_neg hcoast]
    exact Chip.on_set_same c F.TRK_STAT_COAST true 0 0 rfl (by decide)

theorem coast_active (c : Chip) : c.coast.active = c.active := by
  by_cases hcoast : c.on F.TRK_STAT_COAST = true
  · rw [Chip.coast, if_pos hcoast]
  · rw [Chip.coast, if_neg hcoast, Chip.active, Chip.active]
    exact Chip.get_set_apart c F.TRK_STAT_COAST F.TRK_STAT_ACTIVE 1 rfl

theorem only_coast (c : Chip) : c.Only [.trk] {F.TRK_STAT_ACTIVE.addr} c.coast :=
  Chip.only_ite (.refl _ _ c) (.withTrk (.set (.refl _ _ c) rfl) (by simp))

theorem only_followAfresh (c : Chip) (g : Nat → Bool) : c.Only [.trk] {F.TRK_STAT_ACTIVE.addr} (c.followAfresh g) :=
  .withTrk (.refl _ _ c) (by simp)

/-- The chip that coasts, the source it leaves followed afresh. -/
def Chip.left (c : Chip) : Chip := c.coast.followAfresh fun i => i == c.activeSource

theorem only_left (c : Chip) : c.Only [.trk] {F.TRK_STAT_ACTIVE.addr} c.left := (only_coast c).trans (only_followAfresh _ _)

/-- The active source is left for the other one, coasting. -/
theorem abandon_spec (hn : c.otherSource < 2) (hother : c.healthy c.otherSource = true) :
    c.Only [.trk, .ev] {F.TRK_STAT_ACTIVE.addr} (c.abandon n) ∧ (c.abandon n).active = c.otherSource ∧
      (c.abandon n).on F.TRK_STAT_COAST = true ∧
      c.Raised (c.abandon n) [(0x0A02, [(1, c.active), (1, c.otherSource), (1, n)])] := by
  have hleft := only_left c
  have hhealthy : c.left.healthy c.otherSource = true := by
    refine (healthy_congr hn fun a ha => hleft.2 a ?_).trans hother
    rintro rfl
    exact absurd ha (by decide)
  have habandon : c.abandon n = c.left.makeActive c.otherSource n := if_pos hhealthy
  have hactive : c.left.active = c.active := coast_active c
  have hshown : c.Only [.trk] {F.TRK_STAT_ACTIVE.addr} (c.left.showActive c.otherSource) := .withTrk (.set hleft rfl) (by simp)
  rw [habandon, Chip.makeActive, sourceCode_lt hn, hactive]
  refine ⟨.emit (hshown.mono (by simp) subset_rfl) (by simp), ?_, ?_, ?_⟩
  · rw [Chip.active, Chip.emit_get]
    refine (active_showActive c.left c.otherSource).trans ?_
    rw [sourceCode_lt hn, Nat.mod_eq_of_lt (by omega)]
  · rw [Chip.emit_on, on_showActive _ _ rfl]
    exact coast_on c
  · exact Chip.raised_emit _ _ (hshown.1 .ev (by simp)) (hshown.1 .now (by simp)) (hshown.2 _ (by decide))

/-! ### A fabric source that times out (R112) -/

theorem sourceState_timeout {m : Fin 2} (hbad : c.trk.fabBad[m] = false) (htime : c.trk.fabAt[m] + us (c.get F.TRK_FAB_TIME_TO) ≤ c.now) :
    c.sourceState (2 + m) = some 2 := by
  have hm : Fin.ofNat 2 (2 + m.val - 2) = m := by
    rw [Nat.add_sub_cancel_left]
    exact Fin.ofNat_val_eq_self m
  have hfab : ¬ 4 ≤ 2 + m.val ∧ 2 ≤ 2 + m.val := by omega
  simp only [Chip.sourceState, if_neg hfab.1, if_pos hfab.2, hm, hbad, if_pos htime, Bool.false_eq_true, if_false]

/-- The chip with the sources that are not healthy followed afresh. -/
def Chip.faultyAfresh (c : Chip) : Chip := c.followAfresh fun i => !c.healthy i

/-- A fabric source that times out is left for a healthy encoder. -/
theorem serveTrk_timeout {m : Fin 2} (hon : c.trkOn = true) (hsource : c.activeSource = 2 + m) (hbad : c.trk.fabBad[m] = false)
    (htime : c.trk.fabAt[m] + us (c.get F.TRK_FAB_TIME_TO) ≤ c.now) : c.serveTrk = (c.faultyAfresh.abandon 2).serveSpreq := by
  have hactive : ¬ c.faultyAfresh.active = 3 := by
    have hfabric : c.faultyAfresh.active = 2 := active_of_fabric (c := c) hsource
    omega
  have hstate : c.faultyAfresh.sourceState c.faultyAfresh.activeSource = some 2 := by
    have hsame : c.faultyAfresh.sourceState c.faultyAfresh.activeSource = c.sourceState c.activeSource := rfl
    rw [hsame, hsource, sourceState_timeout hbad htime]
  have hsources : c.serveSources = c.faultyAfresh.abandon 2 := by
    have hrun : ¬ (!c.trkOn) = true := by simp [hon]
    unfold Chip.faultyAfresh at hactive hstate ⊢
    rw [Chip.serveSources, if_neg hrun]
    dsimp only
    rw [if_neg hactive, hstate]
  rw [Chip.serveTrk, hsources]

end Sys2Proof.Machine
end

section
/-!
PROOFS about a switch of the source on request (R112, R113).
-/

namespace Sys2Proof.Machine

variable {c d : Chip} {p q : Place} {w n t : Nat} {s : State} {v : Word}

/-! ### The write of TRK_SRC -/

/-- TRK_SRC in the register map. -/
def trkSrc : RegDef := ⟨0x024, 0, 1, 0, 1, 0xC, [fd 4 4 .wo, fd 3 2 .rw, fd 1 0 .rw]⟩

theorem isTrkReg_src : isTrkReg R.TRK_SRC trkSrc = true := by decide +kernel

theorem writeTrk_src {a : Nat} : Chip.writeTrk a trkSrc w c =
    if fld F.TRK_SRC_SWITCH w = 1 then (c.plain a trkSrc w).pairChanged.srcSwitch else (c.plain a trkSrc w).pairChanged.serveTrk := by
  have hself : trkSrc.is R.TRK_SRC = true := rfl
  have hother : ¬ trkSrc.is R.TRK_CTRL = true := by decide
  rw [Chip.writeTrk, if_neg hother, if_pos hself]

/-- Every pair of sources is taken, and nothing but the word changes. -/
theorem only_plain_src (hcal : c.calBusy = false) (hsw : c.switchState = 0) :
    c.Only [] {R.TRK_SRC.addr} (c.plain (R.TRK_SRC.at 0 0) trkSrc w) := by
  have hfb : c.barsField (R.TRK_SRC.at 0 0) w (fd 3 2 .rw) = false := barsField_free hcal hsw _ _
  have hpri : c.barsField (R.TRK_SRC.at 0 0) w (fd 1 0 .rw) = false := barsField_free hcal hsw _ _
  rw [plain_unshadowed (by decide) (by
    simp only [trkSrc, List.any_cons, List.any_nil, Chip.ignoresField, hfb, hpri, Bool.and_false, Bool.or_self]
    rfl)]
  exact .setWord (.refl _ _ c) rfl

theorem get_plain_src (hq : fd q.hi q.lo .rw ∈ trkSrc.fields) (hat : q.at 0 0 = R.TRK_SRC.at 0 0) (hcal : c.calBusy = false)
    (hsw : c.switchState = 0) : (c.plain (R.TRK_SRC.at 0 0) trkSrc w).get q = fld q w :=
  get_plain_trk_rw isTrkReg_src hq hat rfl hcal hsw (Nat.zero_le _) (Nat.le_pred_of_lt (bitsOf_lt _ _ _))

/-! ### The pair of sources -/

theorem only_pairChanged (c : Chip) : c.Only [.trk] ∅ c.pairChanged := Chip.only_ite (.withTrk (.refl _ _ c) (by simp)) (.refl _ _ c)

theorem pairChanged_off (hoff : c.trkOn = false) : c.pairChanged = c := if_neg (by simp [hoff])

theorem pairChanged_position (c : Chip) : c.pairChanged.trk.x = c.trk.x ∧ c.pairChanged.trk.v = c.trk.v := by
  unfold Chip.pairChanged
  split <;> exact ⟨rfl, rfl⟩

/-- A fabric node that changes its place in the pair still leaves the same encoder as the other source. -/
theorem otherSource_pairChanged (hother : c.otherSource < 2) : c.pairChanged.otherSource = c.otherSource := by
  unfold Chip.pairChanged
  split
  case isFalse => rfl
  case isTrue h =>
    obtain ⟨-, hactive, hpri, -, -⟩ := h
    have hsource : c.otherSource = c.priSource := if_neg hpri
    rw [hsource] at hother ⊢
    have hnew : ∀ x : TrkSt, ({ c with trk := x } : Chip).activeSource ≠ c.priSource := by
      intro x
      have hfabric : ({ c with trk := x } : Chip).activeSource = sourceOf 2 x.fabFb := by rw [← hactive]; rfl
      have hge : 2 ≤ sourceOf 2 x.fabFb := by cases x.fabFb <;> decide
      omega
    exact if_neg (hnew _)

theorem otherSource_congr (hpri : d.get F.TRK_SRC_PRI = c.get F.TRK_SRC_PRI) (hfb : d.get F.TRK_SRC_FB = c.get F.TRK_SRC_FB)
    (hactive : d.active = c.active) (htrk : d.trk = c.trk) : d.otherSource = c.otherSource := by
  have hsource : d.activeSource = c.activeSource := by rw [Chip.activeSource, hactive, htrk, Chip.activeSource]
  have hpri' : d.priSource = c.priSource := by rw [Chip.priSource, hpri, Chip.priSource]
  have hfb' : d.fbSource = c.fbSource := by rw [Chip.fbSource, hfb, Chip.fbSource]
  rw [Chip.otherSource, hsource, hpri', hfb', Chip.otherSource]

/-! ### The switch -/

/-- SWITCH with the pair as it is leaves the active source for the other one. -/
theorem writeTrk_switch (hon : c.trkOn = true) (hcal : c.calBusy = false) (hsw : c.switchState = 0) (hswitch : fld F.TRK_SRC_SWITCH w = 1)
    (hpri : fld F.TRK_SRC_PRI w = c.get F.TRK_SRC_PRI) (hfb : fld F.TRK_SRC_FB w = c.get F.TRK_SRC_FB) (hother : c.otherSource < 2)
    (hhealthy : c.healthy c.otherSource = true) :
    let d := Chip.writeTrk (R.TRK_SRC.at 0 0) trkSrc w c
    c.Only [.trk, .ev] {R.TRK_SRC.addr, F.TRK_STAT_ACTIVE.addr} d ∧ d.active = c.otherSource ∧ d.on F.TRK_STAT_COAST = true ∧
      d.trk.x = c.trk.x ∧ d.trk.v = c.trk.v ∧ c.Raised d [(0x0A02, [(1, c.active), (1, c.otherSource), (1, 5)])] := by
  have hplain := only_plain_src (w := w) hcal hsw
  have hpri' := (get_plain_src (q := F.TRK_SRC_PRI) (w := w) (by decide) rfl hcal hsw).trans hpri
  have hfb' := (get_plain_src (q := F.TRK_SRC_FB) (w := w) (by decide) rfl hcal hsw).trans hfb
  dsimp only
  rw [writeTrk_src, if_pos hswitch]
  generalize c.plain (R.TRK_SRC.at 0 0) trkSrc w = d at hplain hpri' hfb'
  have hpair := only_pairChanged d
  obtain ⟨hx, hv⟩ := pairChanged_position d
  have htrk : d.trk = c.trk := hplain.1 .trk (by simp)
  have hactive : d.active = c.active := hplain.get (by decide)
  have hothers : d.otherSource = c.otherSource := otherSource_congr hpri' hfb' hactive htrk
  have hchanged : d.pairChanged.otherSource = c.otherSource := (otherSource_pairChanged (hothers ▸ hother)).trans hothers
  have hactive' : d.pairChanged.active = c.active := (hpair.get (by simp)).trans hactive
  have hwords : ∀ a ≠ R.TRK_SRC.addr, d.pairChanged.word a = c.word a := fun a ha => (hpair.2 a (by simp)).trans (hplain.2 a ha)
  generalize d.pairChanged = e at *
  have hhealthy' : e.healthy e.otherSource = true := by
    rw [hchanged]
    refine (healthy_congr hother fun a ha => hwords a ?_).trans hhealthy
    rintro rfl
    exact absurd ha (by decide)
  have hon' : e.trkOn = true := by
    rw [Chip.trkOn, Chip.on, Chip.get, hwords _ (by decide)]
    exact hon
  obtain ⟨honly, hnew, hcoast, hraised⟩ := abandon_spec (n := 5) (hchanged.symm ▸ hother) hhealthy'
  have hserved := e.sourcesServed_abandon 5
  have hswitched : e.srcSwitch = e.abandon 5 := if_pos ⟨hon', hhealthy'⟩
  rw [hchanged, hactive'] at *
  rw [hswitched]
  refine ⟨?_, hnew, hcoast, ?_, ?_, ?_⟩
  · exact (hplain.mono (by simp) (by simp)).trans ((hpair.mono (by simp) (by simp)).trans (honly.mono (by simp) (by simp)))
  · exact (hserved.keeps TrkSt.x fun _ _ => rfl).trans (hx.trans (congrArg TrkSt.x htrk))
  · exact (hserved.keeps TrkSt.v fun _ _ => rfl).trans (hv.trans (congrArg TrkSt.v htrk))
  · exact hraised.trans (Chip.emit_ev_congr _ _ ((hpair.1 .ev (by simp)).trans (hplain.1 .ev (by simp)))
      ((hpair.1 .now (by simp)).trans (hplain.1 .now (by simp))) (hwords _ (by decide)))

/-- SWITCH with TRK off is counted. -/
theorem writeTrk_switch_off (hoff : c.trkOn = false) (hcal : c.calBusy = false) (hsw : c.switchState = 0)
    (hswitch : fld F.TRK_SRC_SWITCH w = 1) :
    c.Only [] {R.TRK_SRC.addr, F.TRK_REJ_CNT_COUNT.addr} (Chip.writeTrk (R.TRK_SRC.at 0 0) trkSrc w c) := by
  have hplain := only_plain_src (w := w) hcal hsw
  have hoff' : (c.plain (R.TRK_SRC.at 0 0) trkSrc w).trkOn = false := (hplain.on (by decide)).trans hoff
  have hrefused : ∀ d : Chip, d.trkOn = false → d.srcSwitch = d.addSat F.TRK_REJ_CNT_COUNT 1 := fun d h => if_neg (by simp [h])
  rw [writeTrk_src, if_pos hswitch, pairChanged_off hoff', hrefused _ hoff']
  exact .addSat (hplain.mono (by simp) (by simp)) (.inr rfl)

end Sys2Proof.Machine
end

section
/-!
PROOFS about the enabling of TRK (R106, R111, R114, R127).
-/

namespace Sys2Proof.Machine

variable {c d e : Chip} {p q : Place} {a w n t : Nat} {s : State}

/-! ### The write of TRK_CTRL -/

/-- TRK_CTRL in the register map. -/
def trkCtrl : RegDef := ⟨0x000, 0, 1, 0, 1, 0x0, [fr 2 2 .rw 0 1 true, fd 1 1 .rw, fd 0 0 .rw]⟩

theorem isTrkReg_ctrl : isTrkReg R.TRK_CTRL trkCtrl = true := by decide +kernel

/-- A register of TRK by its address. -/
theorem mem_trkBlock (h : (decide (0x100A0000 ≤ a) && decide (a < 0x100B0000)) = true) : a ∈ blockRegsSet 0x0A := by
  simp only [Bool.and_eq_true, decide_eq_true_eq] at h
  exact h

theorem only_plain_ctrl : c.Only [.dirty] (blockRegsSet 0x0A) (c.plain (R.TRK_CTRL.at 0 0) trkCtrl w) := by
  refine (only_plain_trk (isTrkReg_spec isTrkReg_ctrl).2.2.1).mono (List.Subset.refl _) ?_
  rintro a (rfl | rfl | rfl) <;> exact mem_trkBlock rfl

/-- The registers beside TRK_CTRL and what every write may change. -/
theorem word_plain_ctrl (ha : a ≠ R.TRK_CTRL.addr) (hs : a ≠ F.TRK_SHSTAT_PENDING.addr) (hr : a ≠ F.TRK_REJ_CNT_COUNT.addr) :
    (c.plain (R.TRK_CTRL.at 0 0) trkCtrl w).word a = c.word a := by
  refine (only_plain_trk (isTrkReg_spec isTrkReg_ctrl).2.2.1).2 a ?_
  rintro (h | h | h)
  · exact ha h
  · exact hs h
  · exact hr h

theorem plain_ctrl_enables (hen : fld F.TRK_CTRL_EN w = 1) (hcal : c.calBusy = false) (hsw : c.switchState = 0) :
    (c.plain (R.TRK_CTRL.at 0 0) trkCtrl w).trkOn = true := by
  have hget := get_plain_trk_rw (c := c) (w := w) (q := F.TRK_CTRL_EN) (mn := 0) (mx := 1) (sh := false) isTrkReg_ctrl (by decide) rfl rfl
    hcal hsw (by omega) (by omega)
  rw [Chip.trkOn, Chip.on, hget, hen]
  rfl

/-! ### The hand-over at the enabling (R127, R128) -/

theorem only_handOver (c : Chip) (l : List Nat) : c.Only [.force, .dirty] {F.TRK_SHSTAT_PENDING.addr} (c.handOver l) := by
  have hbring : ∀ (d : Chip) (a : Nat), d.Only [.force, .dirty] {F.TRK_SHSTAT_PENDING.addr} (d.bring a) := fun d a => by
    refine (Chip.Only.refl _ _ d).beside rfl fun q hq => ?_
    cases q
    case force => simp at hq
    all_goals rfl
  refine (Chip.only_foldl hbring l c).beside rfl fun q hq => ?_
  cases q
  case dirty => simp at hq
  all_goals rfl

theorem only_trkCopy (c : Chip) : c.Only [.force, .dirty] {F.TRK_SHSTAT_PENDING.addr} c.trkCopy :=
  Chip.only_ite (only_handOver c _) (.set (.set (only_handOver c _) rfl) rfl)

theorem only_checkPortOffsets (old : OffsetBank) (c : Chip) (k : Fin 8) :
    c.Only [.trk, .ev] {F.TRK_SHSTAT_PENDING.addr} (c.checkPortOffsets old k) := by
  unfold Chip.checkPortOffsets
  refine Chip.only_foldl (fun d x => ?_) _ _
  exact Chip.only_ite (.emit (.orBits (.refl _ _ d) rfl) (by simp)) (.refl _ _ d)

theorem only_loadBank (c : Chip) : c.Only [.trk, .ev] {F.TRK_SHSTAT_PENDING.addr} c.loadBank :=
  .trans (.withTrk (.refl _ _ c) (by simp)) (Chip.only_foldl (fun d k => only_checkPortOffsets _ d k) _ _)

/-- The chip with the shadowed writes in force and the other bank loaded. -/
def Chip.handed (c : Chip) : Chip := c.trkCopy.loadBank

theorem only_handed (c : Chip) : c.Only [.force, .dirty, .trk, .ev] {F.TRK_SHSTAT_PENDING.addr} c.handed :=
  ((only_trkCopy c).mono (by simp) subset_rfl).trans ((only_loadBank _).mono (by simp) subset_rfl)

/-! ### TRK as it starts (R106, R111, R114) -/

/-- The position stands at TRK_START, and no line has been issued. -/
def Chip.startLoop (c : Chip) : Chip :=
  { c with trk := { c.trk with
    pos := Vector.replicate 2 c.trkStart, d := Vector.replicate 4 0, dAt := Vector.replicate 4 none
    x := c.trkStart, v := 0, tx := c.nowQ, lastMeas := some c.nowQ, newest := (c.trkStart, c.nowQ), fabAt := Vector.replicate 2 c.now
    fabBad := Vector.replicate 2 false, fabFb := false, lastLine := c.trkStart.floor, issued := false, lastFiredE := none, lastDrop := false
    clampRun := false, checks := [], enabledOnce := true } }

theorem startLoop_word (c : Chip) (a : Nat) : c.startLoop.word a = c.word a := rfl

/-- TRK_STAT at the start: the primary source, no coasting. -/
def Chip.startStat (c : Chip) : Chip :=
  ((c.set F.TRK_STAT_COAST 0).set F.TRK_STAT_NO_SOURCE 0).set F.TRK_STAT_ACTIVE (c.get F.TRK_SRC_PRI)

theorem trkEnabled_eq (c : Chip) : c.trkEnabled = c.handed.startLoop.startStat.serveTrk := by
  unfold Chip.trkEnabled Chip.handed Chip.startStat
  rfl

theorem only_startStat (c : Chip) : c.Only [] {F.TRK_STAT_ACTIVE.addr} c.startStat := .set (.set (.set (.refl _ _ c) rfl) rfl) rfl

theorem startStat_shows (c : Chip) : c.startStat.active = c.get F.TRK_SRC_PRI ∧ c.startStat.on F.TRK_STAT_COAST = false ∧
    c.startStat.on F.TRK_STAT_NO_SOURCE = false := by
  have hpri : c.get F.TRK_SRC_PRI < 4 := bitsOf_lt _ 1 0
  refine ⟨?_, ?_, ?_⟩
  · have hset := Chip.get_set_same ((c.set F.TRK_STAT_COAST 0).set F.TRK_STAT_NO_SOURCE 0) F.TRK_STAT_ACTIVE (c.get F.TRK_SRC_PRI) 0 0
      (by decide) (by decide)
    exact hset.trans (Nat.mod_eq_of_lt hpri)
  · rw [Chip.startStat, Chip.on_set_apart _ F.TRK_STAT_ACTIVE F.TRK_STAT_COAST _ rfl,
      Chip.on_set_apart _ F.TRK_STAT_NO_SOURCE F.TRK_STAT_COAST _ rfl]
    exact Chip.on_set_same c F.TRK_STAT_COAST false 0 0 rfl (by decide)
  · rw [Chip.startStat, Chip.on_set_apart _ F.TRK_STAT_ACTIVE F.TRK_STAT_NO_SOURCE _ rfl]
    exact Chip.on_set_same (c.set F.TRK_STAT_COAST 0) F.TRK_STAT_NO_SOURCE false 0 0 rfl (by decide)

/-- A healthy encoder that is active stays so. -/
theorem serveTrk_encoder (hactive : c.active < 2) (hhealthy : c.healthy c.active = true) (hon : c.trkOn = true) :
    c.serveTrk = c.faultyAfresh.serveSpreq := by
  have hthree : ¬ c.faultyAfresh.active = 3 := by
    have hsame : c.faultyAfresh.active = c.active := rfl
    omega
  have hsource : c.activeSource = c.active := by
    have hcode : c.active ≠ 3 ∧ c.active ≠ 2 := by omega
    simp only [Chip.activeSource, sourceOf, if_neg hcode.1, hcode.2, false_and, if_false]
  have hstate : c.faultyAfresh.sourceState c.faultyAfresh.activeSource = none := by
    have hsame : c.faultyAfresh.sourceState c.faultyAfresh.activeSource = c.sourceState c.activeSource := rfl
    rw [hsame, hsource, ← Option.isNone_iff_eq_none]
    exact hhealthy
  have hrun : ¬ (!c.trkOn) = true := by simp [hon]
  have hsources : c.serveSources = c.faultyAfresh := by
    unfold Chip.faultyAfresh at hthree hstate ⊢
    rw [Chip.serveSources, if_neg hrun]
    dsimp only
    rw [if_neg hthree, hstate]
  rw [Chip.serveTrk, hsources]

/-! ### What the enabling leaves -/

/-- From c on TRK has started: at TRK_START with no speed, on the primary source, with no line issued. -/
structure Chip.Started (c d : Chip) : Prop where
  now : d.now = c.now
  on : d.trkOn = true
  x : d.trk.x = c.trkStart
  v : d.trk.v = 0
  tx : d.trk.tx = c.nowQ
  line : d.trk.lastLine = c.trkStart.floor
  issued : d.trk.issued = false
  once : d.trk.enabledOnce = true
  active : d.active = c.get F.TRK_SRC_PRI
  coast : d.on F.TRK_STAT_COAST = false
  source : d.on F.TRK_STAT_NO_SOURCE = false

theorem started_startLoop (hon : c.trkOn = true) : c.Started c.startLoop.startStat := by
  obtain ⟨hactive, hcoast, hsource⟩ := startStat_shows c.startLoop
  exact ⟨rfl, ((only_startStat _).on (by decide)).trans hon, rfl, rfl, rfl, rfl, rfl, rfl, hactive, hcoast, hsource⟩

/-- What TRK makes of its healthy primary source leaves it so. -/
theorem Chip.Started.serveTrk (h : c.Started d) (hhealthy : d.healthy (c.get F.TRK_SRC_PRI) = true) (hpri : c.get F.TRK_SRC_PRI < 2) :
    c.Started d.serveTrk := by
  have hserved := d.sourcesServed_serveTrk
  have hstat : d.serveTrk.word F.TRK_STAT_ACTIVE.addr = d.word F.TRK_STAT_ACTIVE.addr := by
    rw [serveTrk_encoder (h.active ▸ hpri) (by rwa [h.active]) h.on]
    exact (Chip.only_serveSpreq _).2 _ (by decide)
  have hflag : ∀ p : Place, p.at 0 0 = F.TRK_STAT_ACTIVE.addr → d.serveTrk.get p = d.get p := fun p hp => by
    rw [Chip.get, hp, hstat, Chip.get, hp]
  refine ⟨(hserved.only.1 .now (by simp)).trans h.now, (hserved.only.on (by simp [sourceRegs]; decide)).trans h.on,
    (hserved.keeps TrkSt.x fun _ _ => rfl).trans h.x, (hserved.keeps TrkSt.v fun _ _ => rfl).trans h.v,
    (hserved.keeps TrkSt.tx fun _ _ => rfl).trans h.tx, (hserved.keeps TrkSt.lastLine fun _ _ => rfl).trans h.line,
    (hserved.keeps TrkSt.issued fun _ _ => rfl).trans h.issued, (hserved.keeps TrkSt.enabledOnce fun _ _ => rfl).trans h.once,
    (hflag _ rfl).trans h.active, ?_, ?_⟩
  · rw [Chip.on, hflag _ rfl]
    exact h.coast
  · rw [Chip.on, hflag _ rfl]
    exact h.source

/-- Where c reads as b does. -/
theorem Chip.Started.from (h : c.Started d) {b : Chip} (hnow : c.now = b.now) (hstart : c.trkStart = b.trkStart)
    (hpri : c.get F.TRK_SRC_PRI = b.get F.TRK_SRC_PRI) : b.Started d := by
  have hnowQ : c.nowQ = b.nowQ := by rw [Chip.nowQ, hnow, Chip.nowQ]
  exact ⟨h.now.trans hnow, h.on, h.x.trans hstart, h.v, h.tx.trans hnowQ, h.line.trans (by rw [hstart]), h.issued, h.once,
    h.active.trans hpri, h.coast, h.source⟩

/-- Nothing that follows in the other blocks changes it. -/
theorem Chip.Started.lineKept (h : c.Started d) (hk : d.LineKept e) : c.Started e :=
  ⟨hk.now.trans h.now, (hk.on rfl).trans h.on, (hk.keeps TrkSt.x fun _ _ => rfl).trans h.x, (hk.keeps TrkSt.v fun _ _ => rfl).trans h.v,
    (hk.keeps TrkSt.tx fun _ _ => rfl).trans h.tx, (hk.keeps TrkSt.lastLine fun _ _ => rfl).trans h.line,
    (hk.keeps TrkSt.issued fun _ _ => rfl).trans h.issued, (hk.keeps TrkSt.enabledOnce fun _ _ => rfl).trans h.once,
    (hk.get rfl).trans h.active, (hk.on rfl).trans h.coast, (hk.on rfl).trans h.source⟩

/-! ### The other blocks start with it -/

/-- The assemblers, the ports and ENCO start afresh, and no line event is on its way. -/
def Chip.othersAfresh (c : Chip) : Chip :=
  { c with
    asm := c.asm.map (fun (a : AsmSt) => { a with top := c.lastIssued })
    hp := c.hp.map (fun (p : PortSt) => { p with queue := [], xferTop := none, events := [], gone := [] })
    trk := { c.trk with way := Vector.replicate 8 [], events := [] }
    pos := { c.pos with enco := { c.pos.enco with tick := c.ticks } } }

theorem only_othersAfresh (c : Chip) : c.Only [.asm, .hp, .trk, .pos] ∅ c.othersAfresh := by
  refine (Chip.Only.refl _ _ c).beside rfl fun q hq => ?_
  cases q
  case asm | hp | trk | pos => simp at hq
  all_goals rfl

theorem othersAfresh_queue (c : Chip) (k : Fin 8) : (c.othersAfresh.port k).queue = [] := by simp [Chip.othersAfresh, Chip.port]

theorem Chip.Started.othersAfresh (h : c.Started d) : c.Started d.othersAfresh :=
  ⟨h.now, h.on, h.x, h.v, h.tx, h.line, h.issued, h.once, h.active, h.coast, h.source⟩

theorem writeTrk_enables (hoff : c.trkOn = false) (hon : (c.plain a trkCtrl w).trkOn = true) : Chip.writeTrk a trkCtrl w c =
    ((c.plain a trkCtrl w).trkEnabled.othersAfresh.parityCheck.spanChanged).modeLimitChanged c.fLim
      ((c.plain a trkCtrl w).trkEnabled.othersAfresh.lastIssued + 1) := by
  have hself : trkCtrl.is R.TRK_CTRL = true := rfl
  have hnew : ((c.plain a trkCtrl w).trkOn && !c.trkOn) = true := by rw [hon, hoff]; rfl
  rw [Chip.writeTrk, if_pos hself]
  dsimp only
  rw [if_pos hnew]
  rfl

theorem only_parityCheck (c : Chip) : c.Only [.ev] {F.COL_STAT_PARITY_SKEW.addr} c.parityCheck := by
  unfold Chip.parityCheck
  refine Chip.only_foldl (fun d k => ?_) _ _
  dsimp only
  split
  · refine Chip.only_ite (Chip.only_foldl (fun e x => ?_) _ _) (.refl _ _ d)
    exact Chip.only_ite (.emit (.set (.refl _ _ e) rfl) (by simp)) (.refl _ _ e)
  · exact .refl _ _ d

theorem only_spanChanged (c : Chip) : c.Only [.ev] {F.CMP_LSPAN_L_MAX.addr, F.CMP_STAT_DEPTH_SHORT.addr} c.spanChanged := by
  have hshown : c.Only [.ev] {F.CMP_LSPAN_L_MAX.addr, F.CMP_STAT_DEPTH_SHORT.addr}
      (((c.set F.CMP_LSPAN_L_MAX (unsigned 13 c.lMax)).set F.CMP_LSPAN_L_MIN (unsigned 13 c.lMin)).set
        F.CMP_STAT_DEPTH_SHORT (bit (decide ((c.ringDepth : Int) < c.lMax - c.lMin + 256)))) :=
    .set (.set (.set (.refl _ _ c) (.inl rfl)) (.inl rfl)) (.inr rfl)
  exact Chip.only_ite (.refl _ _ c) (Chip.only_ite (.emit hshown (by simp)) hshown)

/-- The mode limit goes by the copies in force, the structure image and OTP_FEAT. -/
theorem Chip.LineKept.fLim (h : c.LineKept d) : d.fLim = c.fLim := by
  have hfeature : d.feature 2 = c.feature 2 := by rw [Chip.feature, h.get rfl, Chip.feature]
  have hinForce : d.inForce F.TRK_CTRL_SPRINT = c.inForce F.TRK_CTRL_SPRINT := by rw [Chip.inForce, h.force, Chip.inForce]
  rw [Chip.fLim, hfeature, hinForce, h.str, Chip.fLim]

/-- A limit that stays is no change. -/
theorem modeLimitChanged_same (c : Chip) (n : Int) : c.modeLimitChanged c.fLim n = c := by
  have hup : ¬ (c.fLim ≤ 48000 ∧ 48000 < c.fLim) := by omega
  have hdown : ¬ (48000 < c.fLim ∧ c.fLim ≤ 48000 ∧ c.takesOver = true ∧ c.on F.TKO_CFG_AUTO_SOLO = true ∧ c.get F.TKO_PORTS_HALF ≠ 0) := by
    omega
  exact (if_neg hup).trans (if_neg hdown)

/-- The words that the copies and the position do not reach. -/
theorem word_handed_plain (ha : a ≠ R.TRK_CTRL.addr) (hs : a ≠ F.TRK_SHSTAT_PENDING.addr) (hr : a ≠ F.TRK_REJ_CNT_COUNT.addr) :
    (c.plain (R.TRK_CTRL.at 0 0) trkCtrl w).handed.word a = c.word a :=
  ((only_handed _).2 a hs).trans (word_plain_ctrl ha hs hr)

/-- TRK_CTRL.EN goes to 1: TRK's own part. -/
theorem trkEnabled_plain (hen : fld F.TRK_CTRL_EN w = 1) (hcal : c.calBusy = false) (hsw : c.switchState = 0)
    (hhealthy : c.healthy (c.get F.TRK_SRC_PRI) = true) (hpri : c.get F.TRK_SRC_PRI < 2) :
    let d := (c.plain (R.TRK_CTRL.at 0 0) trkCtrl w).trkEnabled
    c.Started d ∧ c.Only [.trk, .force, .dirty, .ev] (blockRegsSet 0x0A) d := by
  have hword : ∀ {a : Nat}, a ≠ R.TRK_CTRL.addr → a ≠ F.TRK_SHSTAT_PENDING.addr → a ≠ F.TRK_REJ_CNT_COUNT.addr →
      (c.plain (R.TRK_CTRL.at 0 0) trkCtrl w).handed.word a = c.word a := word_handed_plain
  have hplain := only_plain_ctrl (c := c) (w := w)
  have hhanded := only_handed (c.plain (R.TRK_CTRL.at 0 0) trkCtrl w)
  have hon := plain_ctrl_enables (c := c) hen hcal hsw
  dsimp only
  rw [trkEnabled_eq]
  generalize c.plain (R.TRK_CTRL.at 0 0) trkCtrl w = d at *
  have hget : ∀ p : Place, p.at 0 0 ≠ R.TRK_CTRL.addr → p.at 0 0 ≠ F.TRK_SHSTAT_PENDING.addr → p.at 0 0 ≠ F.TRK_REJ_CNT_COUNT.addr →
      d.handed.get p = c.get p := fun p h1 h2 h3 => by rw [Chip.get, hword h1 h2 h3, Chip.get]
  have hpri' := hget F.TRK_SRC_PRI (by decide) (by decide) (by decide)
  have hstart : d.handed.trkStart = c.trkStart := by
    rw [Chip.trkStart, hget F.TRK_START_HI_START_HI (by decide) (by decide) (by decide),
      hget F.TRK_START_LO_START_LO (by decide) (by decide) (by decide), Chip.trkStart]
  have hnow : d.handed.now = c.now := (hhanded.1 .now (by simp)).trans (hplain.1 .now (by simp))
  have hstat := only_startStat d.handed.startLoop
  have hhealthy' : d.handed.startLoop.startStat.healthy (d.handed.get F.TRK_SRC_PRI) = true := by
    rw [hpri']
    refine (healthy_congr hpri fun a ha => ?_).trans hhealthy
    have hne : ∀ b : Nat, blockOf b = 0x0A → a ≠ b := by
      rintro b hb rfl
      omega
    have hshown := hstat.2 a (hne F.TRK_STAT_ACTIVE.addr rfl)
    exact (hshown.trans (startLoop_word _ a)).trans
      (hword (hne R.TRK_CTRL.addr rfl) (hne F.TRK_SHSTAT_PENDING.addr rfl) (hne F.TRK_REJ_CNT_COUNT.addr rfl))
  have hstarted := (started_startLoop ((hhanded.on (by decide)).trans hon)).serveTrk hhealthy' (by rwa [hpri'])
  refine ⟨hstarted.from hnow hstart hpri', ?_⟩
  have hloop : c.Only [.trk, .force, .dirty, .ev] (blockRegsSet 0x0A) d.handed.startLoop :=
    .withTrk ((hplain.mono (by simp) subset_rfl).trans (hhanded.mono (by simp) (Set.singleton_subset_iff.mpr (mem_trkBlock rfl)))) (by simp)
  have hshown := hloop.trans (hstat.mono (by simp) (Set.singleton_subset_iff.mpr trkStat_trk))
  exact hshown.trans ((Chip.sourcesServed_serveTrk _).only.mono (by simp) sourceRegs_trk)

/-- TRK_CTRL.EN goes to 1, with a healthy encoder the primary source. -/
theorem trkCtrl_enables (hoff : c.trkOn = false) (hen : fld F.TRK_CTRL_EN w = 1) (hcal : c.calBusy = false) (hsw : c.switchState = 0)
    (hhealthy : c.healthy (c.get F.TRK_SRC_PRI) = true) (hpri : c.get F.TRK_SRC_PRI < 2) :
    let d := Chip.writeTrk (R.TRK_CTRL.at 0 0) trkCtrl w c
    c.Started d ∧ d.trk.events = [] ∧ (∀ k : Fin 8, (d.port k).queue = []) ∧ (d.fLim ≠ c.fLim ∨
      c.Only [.trk, .pos, .asm, .hp, .force, .dirty, .ev]
        (blockRegsSet 0x0A ∪ {F.COL_STAT_PARITY_SKEW.addr, F.CMP_LSPAN_L_MAX.addr, F.CMP_STAT_DEPTH_SHORT.addr}) d) := by
  obtain ⟨hstarted, honly⟩ := trkEnabled_plain hen hcal hsw hhealthy hpri
  dsimp only
  rw [writeTrk_enables hoff (plain_ctrl_enables hen hcal hsw)]
  generalize (c.plain (R.TRK_CTRL.at 0 0) trkCtrl w).trkEnabled = d at *
  have hothers := only_othersAfresh d
  have hparity := only_parityCheck d.othersAfresh
  have hspan := only_spanChanged d.othersAfresh.parityCheck
  have hchecked : d.othersAfresh.LineKept d.othersAfresh.parityCheck.spanChanged :=
    .after (Chip.lineKept_spanChanged _) (Chip.lineKept_parityCheck _)
  have hmode := Chip.lineKept_modeLimitChanged d.othersAfresh.parityCheck.spanChanged c.fLim (d.othersAfresh.lastIssued + 1)
  have hkept := hmode.after hchecked
  refine ⟨hstarted.othersAfresh.lineKept hkept, hkept.keeps TrkSt.events fun _ _ => rfl, fun k => hkept.queue k (othersAfresh_queue d k), ?_⟩
  by_cases hlimit : d.othersAfresh.parityCheck.spanChanged.fLim = c.fLim
  · right
    rw [← hlimit, modeLimitChanged_same]
    have hboth := (hparity.mono (ss := {F.COL_STAT_PARITY_SKEW.addr, F.CMP_LSPAN_L_MAX.addr, F.CMP_STAT_DEPTH_SHORT.addr})
      (List.Subset.refl _) (by simp)).trans (hspan.mono (List.Subset.refl _) (by simp))
    have howned := (honly.mono (qs := [.trk, .pos, .asm, .hp, .force, .dirty, .ev]) (by simp) subset_rfl).trans
      (hothers.mono (by simp) (Set.empty_subset _))
    exact (howned.mono (List.Subset.refl _) Set.subset_union_left).trans (hboth.mono (by simp) Set.subset_union_right)
  · left
    rw [hmode.fLim]
    exact hlimit

end Sys2Proof.Machine
end

section
/-!
PROOFS about the tracking unit's other work (R106, R110, R112, R113, R115, R117, R132, R136, R138).
-/

namespace Sys2Proof.Machine

variable {c d : Chip} {n : Int} {te : Rat} {rest : List (Int × Rat)} {t : Nat}

/-- An encoder as a source does not go by press time, nor by the bus. -/
theorem healthy_wrote {k a : Nat} (i : Initiator) (hk : k < 2) (h : c.healthy k = true) : (c.wrote t i a).healthy k = true :=
  (healthy_congr (c := c) (d := c.wrote t i a) hk fun _ _ => rfl).trans h

/-- The loop starts at the press time that the chip has then. -/
theorem Chip.Started.tx_now (h : c.Started d) : d.trk.tx = d.nowQ := by rw [h.tx, Chip.nowQ, Chip.nowQ, h.now]

/-- A fabric source that times out is left for a healthy encoder, coasting (R112, R115). -/
theorem serveTrk_timeout_spec {m : Fin 2} (hon : c.trkOn = true) (hsource : c.activeSource = 2 + m) (hbad : c.trk.fabBad[m] = false)
    (htime : c.trk.fabAt[m] + us (c.get F.TRK_FAB_TIME_TO) ≤ c.now) (hother : c.otherSource < 2)
    (hhealthy : c.healthy c.otherSource = true) :
    c.Only [.trk, .ev] (blockRegsSet 0x0A) c.serveTrk ∧ c.serveTrk.active = c.otherSource ∧ c.serveTrk.on F.TRK_STAT_COAST = true ∧
      c.Raised c.serveTrk [(0x0A02, [(1, 2), (1, c.otherSource), (1, 2)])] := by
  have hserved := c.sourcesServed_serveTrk
  have hactive : c.faultyAfresh.active = 2 := active_of_fabric (c := c) hsource
  have hafresh : c.Only [.trk] {F.TRK_STAT_ACTIVE.addr} c.faultyAfresh := only_followAfresh c _
  have hhealthy' : c.faultyAfresh.healthy c.faultyAfresh.otherSource = true := hhealthy
  obtain ⟨-, hnew, hcoast, hraised⟩ := abandon_spec (c := c.faultyAfresh) (n := 2) hother hhealthy'
  have hspreq := Chip.only_serveSpreq (c.faultyAfresh.abandon 2)
  rw [serveTrk_timeout hon hsource hbad htime] at *
  refine ⟨hserved.only.mono (List.Subset.refl _) sourceRegs_trk, (hspreq.get (by decide)).trans hnew, (hspreq.on (by decide)).trans hcoast, ?_⟩
  rw [hactive] at hraised
  exact ((hspreq.1 .ev (by simp)).trans hraised).trans
    (Chip.emit_ev_congr _ _ (hafresh.1 .ev (by simp)) (hafresh.1 .now (by simp)) (hafresh.2 _ (by decide)))

/-! ### Coasting too long (R115) -/

/-- No source: RUN ends. -/
theorem noSource_due (hon : c.trkOn = true) (hcoast : c.on F.TRK_STAT_COAST = true) (hsource : c.on F.TRK_STAT_NO_SOURCE = false)
    (hdue : c.trk.coastAt + us (c.get F.TRK_COAST_MAX_COAST_MAX) ≤ c.now) :
    c.noSource = ((c.set F.TRK_STAT_NO_SOURCE 1).set F.TRK_STAT_RUN 0).emit 0x0A03 := by
  refine if_pos ⟨hon, hcoast, ?_, hdue⟩
  rw [hsource]
  rfl

theorem noSource_spec (hon : c.trkOn = true) (hcoast : c.on F.TRK_STAT_COAST = true) (hsource : c.on F.TRK_STAT_NO_SOURCE = false)
    (hdue : c.trk.coastAt + us (c.get F.TRK_COAST_MAX_COAST_MAX) ≤ c.now) :
    c.Only [.ev] {F.TRK_STAT_NO_SOURCE.addr} c.noSource ∧ c.noSource.on F.TRK_STAT_NO_SOURCE = true ∧
      c.noSource.on F.TRK_STAT_RUN = false ∧ c.Raised c.noSource [(0x0A03, [])] := by
  rw [noSource_due hon hcoast hsource hdue]
  have hset : c.Only [] {F.TRK_STAT_NO_SOURCE.addr} ((c.set F.TRK_STAT_NO_SOURCE 1).set F.TRK_STAT_RUN 0) := .set (.set (.refl _ _ c) rfl) rfl
  refine ⟨.emit (hset.mono (by simp) subset_rfl) (by simp), ?_, ?_, ?_⟩
  · rw [Chip.emit_on, Chip.on_set_apart _ F.TRK_STAT_RUN F.TRK_STAT_NO_SOURCE 0 rfl]
    exact Chip.on_set_same c F.TRK_STAT_NO_SOURCE true 0 0 rfl (by decide)
  · rw [Chip.emit_on]
    exact Chip.on_set_same (c.set F.TRK_STAT_NO_SOURCE 1) F.TRK_STAT_RUN false 0 0 rfl (by decide)
  · exact Chip.raised_emit _ _ (hset.1 .ev (by simp)) (hset.1 .now (by simp)) (hset.2 _ (by decide))

/-- The hold is over: SPEED_REQ goes inactive (R136). -/
theorem spreqHoldEnd_due {k : Nat} (hhold : c.trk.spreqHold = some k) (hdue : k ≤ c.now) :
    c.spreqHoldEnd = { c.set F.TRK_SPREQ_STAT_OUT 0 with trk := { c.trk with spreqHold := none } } := by
  rw [Chip.spreqHoldEnd, hhold]
  exact if_pos hdue

/-! ### The placement check (R132) -/

/-- A placement within the tolerance is noted in LAST alone. -/
theorem placementCheck_within (hchecks : c.trk.checks = (n, te) :: rest)
    (htol : absQ ((c.xAt te - (n : Rat)) * (64 : Nat)) ≤ (c.get F.TRK_PLACE_TOL_TOL : Rat)) :
    c.placementCheck n = ({ c with trk := { c.trk with checks := rest } }).set F.TRK_PLACE_ERR_LAST
      (unsigned 16 (satInt 16 (roundQ ((c.xAt te - (n : Rat)) * (64 : Nat) * (16 : Nat))))) := by
  have hfirst : takeFirst (fun e => e.1 == n) c.trk.checks = some ((n, te), rest) := by simp [hchecks, takeFirst]
  unfold Chip.placementCheck
  rw [hfirst]
  refine if_neg (not_lt.mpr ?_)
  rw [Chip.get_set_other _ _ _ _ _ _ _ _ (by decide)]
  exact htol

end Sys2Proof.Machine
end

section
namespace Sys2Proof.Proofs
open Sys2Proof.Machine

/-- Settles O13, clause by clause; the enabling rests on `Started`, which nothing that follows in the other blocks changes. -/
theorem trackingUnit : Obligations.TrackingUnit := by
  unfold Obligations.TrackingUnit
  refine ⟨?_, ?_, ?_, ?_, ?_, ?_, ?_, ?_, ?_, ?_⟩
  · intro t i w s hmay hoff hsw hcal hhealthy hpri
    have hen : fld F.TRK_CTRL_EN (withField F.TRK_CTRL_EN 1 w).toNat = 1 := fld_withField (by decide) (by decide) 1 w
    obtain ⟨hstarted, hevents, hqueue, honly⟩ := trkCtrl_enables (c := s.chip.wrote t i R.TRK_CTRL.addr) hoff hen hcal hsw
      (healthy_wrote i hpri hhealthy) hpri
    refine ⟨_, trkWrite_taken isTrkReg_ctrl hmay, rfl, rfl, hstarted.now, ?_, hstarted.on, hstarted.x, hstarted.v, hstarted.tx_now, hstarted.line,
      hstarted.issued, hevents, hstarted.once, hstarted.active, hstarted.coast, hstarted.source, hqueue⟩
    exact honly.imp id fun h => writeLeaves_of_only h (by simp) (by simp)
  · intro t i w s hmay hon hsw hcal hpri hfb _ hother hhealthy
    have hswitch : fld F.TRK_SRC_SWITCH (withField F.TRK_SRC_SWITCH 1 w).toNat = 1 := fld_withField (by decide) (by decide) 1 w
    have hbeside : ∀ q : Place, q.hi < 4 → fld q (withField F.TRK_SRC_SWITCH 1 w).toNat = fld q w.toNat := fun q hq => by
      rw [fld, toNat_withField (by decide) (by decide)]
      exact bitsOf_withBits_other _ _ (by decide) (.inr hq)
    obtain ⟨honly, hactive, hcoast, hx, hv, hraised⟩ := writeTrk_switch (c := s.chip.wrote t i R.TRK_SRC.addr) hon hcal hsw hswitch
      ((hbeside F.TRK_SRC_PRI (by decide)).trans hpri) ((hbeside F.TRK_SRC_FB (by decide)).trans hfb) hother (healthy_wrote i hother hhealthy)
    exact ⟨_, trkWrite_taken isTrkReg_src hmay, writeLeaves_of_only honly (by simp) (by simp), hactive, hcoast, hx, hv, hraised⟩
  · intro t i w s hmay hoff hsw hcal
    have hswitch : fld F.TRK_SRC_SWITCH (withField F.TRK_SRC_SWITCH 1 w).toNat = 1 := fld_withField (by decide) (by decide) 1 w
    have honly := writeTrk_switch_off (c := s.chip.wrote t i R.TRK_SRC.addr) hoff hcal hsw hswitch
    exact ⟨_, trkWrite_taken isTrkReg_src hmay, writeLeaves_of_only honly (by simp) (by simp)⟩
  · intro t m s hup hon hsource hbad htime hother hhealthy
    obtain ⟨honly, hrest⟩ := serveTrk_timeout_spec (c := s.chip.at t) hon hsource hbad htime hother
      ((healthy_congr (c := s.chip) (d := s.chip.at t) hother fun _ _ => rfl).trans hhealthy)
    exact ⟨_, runChip_inIsland_eq hup rfl, leaves_of_only honly, hrest⟩
  · intro t s hup hon hcoast hsource hdue
    obtain ⟨honly, hnone, hrun, hraised⟩ := noSource_spec (c := s.chip.at t) hon hcoast hsource hdue
    have hspreq := Chip.only_serveSpreq (s.chip.at t).noSource
    refine ⟨_, runChip_inIsland_eq hup rfl, leaves_of_only ?_, (hspreq.on (by decide)).trans hnone, (hspreq.on (by decide)).trans hrun, ?_⟩
    · exact (honly.mono (by simp) (Set.singleton_subset_iff.mpr trkStat_trk)).trans
        (hspreq.mono (by simp) (Set.singleton_subset_iff.mpr spreqStat_trk))
    · exact (hspreq.1 .ev (by simp)).trans hraised
  · intro t n tn rest s hup hchecks htol
    have hcheck := placementCheck_within (c := s.chip.at t) hchecks htol
    refine ⟨_, runChip_inIsland_eq hup hcheck, leaves_of_only (.set (.withTrk (.refl _ _ _) (by simp)) rfl), rfl, ?_, ?_⟩
    · exact Chip.get_set_apart _ F.TRK_PLACE_ERR_LAST F.TRK_PLACE_ERR_CNT _ rfl
    · have hset := Chip.get_set_same ({ s.chip.at t with trk := { s.chip.trk with checks := rest } }) F.TRK_PLACE_ERR_LAST
        (unsigned 16 (satInt 16 (roundQ ((s.chip.xAt tn - (n : Rat)) * (64 : Nat) * (16 : Nat))))) 0 0 (by decide) (by decide)
      exact hset.trans (Nat.mod_eq_of_lt (unsigned_lt 16 _))
  · intro t s hup hon hen
    refine ⟨_, runChip_inIsland_eq hup (if_pos ⟨hon, hen⟩), leaves_of_only (.withTrk ?_ (by simp)), rfl, rfl⟩
    exact .send (.refl _ _ _) (by simp)
  · intro t e s hup hhold hdue
    have hend := spreqHoldEnd_due (c := s.chip.at t) hhold hdue
    refine ⟨_, runChip_inIsland_eq hup hend, leaves_of_only (.withTrk (.set (.refl _ _ _) rfl) (by simp)), ?_, rfl⟩
    exact Chip.on_set_same (s.chip.at t) F.TRK_SPREQ_STAT_OUT false 0 0 rfl (by decide)
  · intro t i s hmay
    obtain ⟨hhi, hrate⟩ := trackKept_captured (s.chip.at t)
    have hexec := trkRead_taken (t := t) isTrkReg_posLo hmay
    rw [readTrk_posLo] at hexec
    exact ⟨_, hexec, readLeaves_of_only (only_trackKept _), hhi, hrate⟩
  · intro t i s hmay
    have hexec := trkRead_taken (t := t) isTrkReg_lineLo hmay
    rw [readTrk_lineLo] at hexec
    refine ⟨_, hexec, readLeaves_of_only (.keep (.refl _ _ _) (by simp)), ?_⟩
    have hlt := unsigned_lt 48 (s.chip.at t).trk.lastLine
    exact (Chip.captured_keep_same _ _ _).trans (Nat.mod_eq_of_lt (by omega))

end Sys2Proof.Proofs
end

section
/-!
PROOFS that settle the statements on the item queue, on composition and on what the host submits, each by a state the model runs: activity
that abandons the entry of a power state (R550, R555, R558), and a descriptor too short to hold its job (R481, R482).
-/

namespace Sys2Proof.Proofs

open Sys2Proof.Machine

/-- The chip after a command; where the command does not run, the chip before it. -/
def chipAfter (i : Instr) (s : State) : Chip :=
  match exec i s with
  | .next u => u.chip
  | _ => s.chip

theorem chipAfter_next {i : Instr} {s u : State} (h : exec i s = .next u) : chipAfter i s = u.chip := by simp only [chipAfter, h]

/-! ### Activity in the cycle of a commit (R550, R551, R555, R558) -/

/-- Idle, in the AON cycle in which the entry of Sleep is committed: every voter is ready, port 0 was taken to VACANT for it, and ACTIVITY
is among the wake sources enabled, as at reset. CMP is disabled, its queue is empty, and DDR serves. -/
def idleCommitted : State :=
  let c := (State.reset.chip.set F.SYS_ISL_STAT_ISL_UP 0xFFFF).set F.DDR_STAT_READY 1 |>.set F.DDR_STAT_SIZE 4
  let c := (c.set F.HP_CTRL_EN 1).set F.HP_STAT_PRES 1
  let c := ((c.set F.PWR_STAT_STATE 1).set F.PWR_STAT_TARGET 2).set F.PWR_STAT_PHASE 3
  { chip := c.setPwr { c.pwr with booting := false, ready := (voterList 2).reverse, slept := 1 } }

/-- Enqueueing an item is activity: it abandons the entry, and the unwind raises PWR_UNWIND (0x0102). -/
theorem itemEnqueue_idleCommitted_events :
    (chipAfter (.itemEnqueue 0 .tc ((idleCommitted.chip.get F.CMP_IQ_WR_WR + 1) % 2048) []) idleCommitted).ev.recs.map Event.code =
      [0x0102] := by
  decide +kernel

/-- Refutes O14: an item enqueued while the entry of Sleep from Idle is committed abandons the entry, and the event PWR_UNWIND changes
EV, which the statement leaves as it was. -/
theorem not_itemsEnterAndArePlaced : ¬ Obligations.ItemsEnterAndArePlaced := by
  unfold Obligations.ItemsEnterAndArePlaced
  rintro ⟨hEnqueue, -⟩
  obtain ⟨u, hu, ⟨⟨-, -, hParts, -⟩, -⟩, -⟩ := hEnqueue 0 .tc 0x1000000000 _ idleCommitted (by decide +kernel)
    (by decide +kernel) (by decide +kernel) (by decide +kernel) (by decide +kernel) (by decide +kernel) (by decide +kernel) (by decide +kernel) rfl
  have hKept : u.chip.ev = (idleCommitted.chip.at 0).ev := hParts .ev (by decide)
  have hRaised := itemEnqueue_idleCommitted_events
  rw [chipAfter_next hu, hKept] at hRaised
  exact absurd hRaised (by decide +kernel)

/-- Enabling CMP is activity: it abandons the entry, and port 0, which the entry had taken to VACANT, powers up its head again. -/
theorem cmpEnable_idleCommitted_portState :
    (chipAfter (.cmpEnable 0 .tc 0) idleCommitted).portState 0 = 1 ∧ idleCommitted.chip.portState 0 = 0 := by
  decide +kernel

/-- Refutes O16: enabling CMP while the entry of Sleep from Idle is committed abandons the entry, and the unwind starts port 0 up, whose
HP_STAT lies outside the registers the statement lets change. -/
theorem not_composingAndAssembling : ¬ Obligations.ComposingAndAssembling := by
  unfold Obligations.ComposingAndAssembling
  rintro ⟨hEnable, -⟩
  obtain ⟨u, hu, ⟨⟨-, -, -, hRegs⟩, -⟩, -⟩ := hEnable 0 .tc 0 idleCommitted (by decide +kernel) (by decide +kernel)
    (by decide +kernel) (by decide +kernel) (by decide +kernel)
  have hOutside : F.HP_STAT_STATE.at 0 0 ∉ blockRegsSet 0x0B ∪ blockRegsSet 0x01 := by simp [blockRegsSet, F.HP_STAT_STATE, Place.at]
  have hKept : u.chip.portState 0 = idleCommitted.chip.portState 0 := by
    simp only [Chip.portState, Chip.get, Fin.val_zero, hRegs _ hOutside, Chip.at_word]
  obtain ⟨hStarts, hBefore⟩ := cmpEnable_idleCommitted_portState
  rw [chipAfter_next hu, hKept, hBefore] at hStarts
  exact absurd hStarts (by decide)

/-! ### A descriptor whose LENGTH is 0 (R150, R177, R482) -/

/-- SUBMIT_ITEMS of one descriptor in 32 bytes of host memory at address 0. -/
def submitOne : HostCmd :=
  { sq := 0, head := 1
    entry := [0x20, 0, 0, 0, 32, 0, 0, 0] ++ List.replicate 8 0 ++ [1] ++ List.replicate 47 0 }

/-- Service firmware holds `submitOne`. Job 0 is open; the descriptor names job 7, which is not, and its LENGTH field is 0. -/
def submitsShort : State :=
  let c := State.reset.chip.set F.SYS_ISL_STAT_ISL_UP 0xFFFF
  { chip := { c with sys := { c.sys with fwUp := true }, hst := { c.hst with cmds := [submitOne] }, fw := { c.fw with jobs := [0] } }
    store := State.reset.store.writeHost 12 [7] }

/-- The model cuts the descriptor to its LENGTH first and reads job 0 from what is left, so admission refuses it as malformed. -/
theorem submitItems_submitsShort_status :
    (chipAfter (.submitItems 0 0 false 0 []) submitsShort).hst.comps.map Completion.status = [0x30] := by
  decide +kernel

/-- Refutes O49: `submitsShort` submits a descriptor whose job, 7, is not open, and the command completes with status 0x30, not with
JOB_UNKNOWN. -/
theorem not_hostSubmits : ¬ Obligations.HostSubmits := by
  unfold Obligations.HostSubmits
  rintro ⟨-, hUnknownJob, -⟩
  obtain ⟨u, hu, -, hCompleted⟩ := hUnknownJob 0 0 0 submitOne _ submitsShort (by decide +kernel) (by decide +kernel) rfl rfl
    (by decide +kernel) (by decide +kernel) (by decide +kernel) rfl (by decide +kernel) rfl rfl (by decide +kernel)
  have hStatus := submitItems_submitsShort_status
  rw [chipAfter_next hu, hCompleted] at hStatus
  exact absurd hStatus (by decide +kernel)

end Sys2Proof.Proofs
end

section
/-!
PROOFS about the registers of the Colander: the accesses that the bus takes, and what they leave (R8 to R10, R16, R212).
-/

namespace Sys2Proof.Machine

variable {c d : Chip} {ps : List Part} {rs : Set Nat} {p : Place} {r : RegDef} {i : Initiator} {s : State} {t : Nat}

theorem Chip.Only.setCol {x : ColSt} (h : c.Only ps rs d) (hm : .col ∈ ps) : c.Only ps rs (d.setCol x) := by
  refine h.beside rfl fun q hq => ?_
  cases q
  case col => exact absurd hm hq
  all_goals rfl

theorem Chip.Only.setAsm {k : Fin 8} {x : AsmSt} (h : c.Only ps rs d) (hm : .asm ∈ ps) : c.Only ps rs (d.setAsm k x) := by
  refine h.beside rfl fun q hq => ?_
  cases q
  case asm => exact absurd hm hq
  all_goals rfl

/-! ### Writes and reads that the bus takes -/

/-- Place p is register r of COL, of no index. -/
def isColReg (p : Place) (r : RegDef) : Bool :=
  decide (regWhere (p.at 0 0) = some (r, 0, 0)) && ordinary (p.at 0 0) && decide (blockOf (p.at 0 0) = 0x0C)

theorem isColReg_spec (h : isColReg p r = true) :
    regWhere (p.at 0 0) = some (r, 0, 0) ∧ ordinary (p.at 0 0) = true ∧ blockOf (p.at 0 0) = 0x0C := by
  simpa [isColReg, and_assoc] using h

/-- COL_SW_LO, COL_STBY_CMD and COL_DNT_DATA in the register map. -/
def colSwLo : RegDef := ⟨0x050, 0, 1, 0, 1, 0x0, []⟩
def colStbyCmd : RegDef := ⟨0x060, 0, 1, 0, 1, 0x0, [fd 10 8 .wo, fd 6 4 .wo, fd 1 0 .wo]⟩
def colDntData : RegDef :=
  ⟨0x104, 0, 1, 0, 1, 0x0, [fd 31 31 .rw, fd 30 28 .rw, fd 27 25 .rw, fd 24 14 .rw, fd 13 12 .rw, fd 11 10 .rw]⟩

theorem isColReg_swLo : isColReg R.COL_SW_LO colSwLo = true := by decide +kernel
theorem isColReg_stbyCmd : isColReg R.COL_STBY_CMD colStbyCmd = true := by decide +kernel
theorem isColReg_dntData : isColReg R.COL_DNT_DATA colDntData = true := by decide +kernel

/-- A write of a register of COL that is taken. -/
theorem colWrite_taken {v : Word} (h : isColReg p r = true) (hmay : s.chip.mayWrite i (p.at 0 0)) :
    runWrite t i p v 0 0 s = .next { s with chip := Chip.writeCol (p.at 0 0) r v.toNat (s.chip.wrote t i (p.at 0 0)) } := by
  obtain ⟨hreg, hord, hblock⟩ := isColReg_spec h
  have hwork : worksIn (p.at 0 0) = false := by simp [worksIn, hblock]
  have hcal : ¬ (blockOf (p.at 0 0) = 0x1A ∨ blockOf (p.at 0 0) = 0x0F) := by omega
  rw [runWrite_taken hmay hord hreg hwork (fun hb => absurd hb hcal)]
  simp only [writeReg, hblock]

/-- A read of a register of COL that is taken. -/
theorem colRead_taken (h : isColReg p r = true) (hmay : s.chip.mayRead i (p.at 0 0)) :
    runRead t i p 0 s = .next { s with chip := Chip.gives (Chip.readCol (p.at 0 0) r (s.chip.at t)) } := by
  obtain ⟨hreg, hord, hblock⟩ := isColReg_spec h
  have hmay' : (s.chip.at t).mayRead i (p.at 0 0) := hmay
  rw [runRead, runChip, busRead_taken hmay' hord hreg]
  simp only [Chip.readReg, hblock]

/-! ### What the accesses come to -/

/-- The line that COL_STBY_LINE names. -/
def Chip.stbyLine (c : Chip) : Int := signed 48 (c.get F.COL_STBY_LINE_HI_LINE_HI * 2 ^ 32 + c.get F.COL_STBY_LINE_LO_LINE_LO)

/-- A command in COL_STBY_CMD, to activate (OP 1) or to release (OP 2). -/
theorem writeCol_stbyCmd {a w : Nat} (h : fld F.COL_STBY_CMD_OP w = 1 ∨ fld F.COL_STBY_CMD_OP w = 2) :
    Chip.writeCol a colStbyCmd w c = (c.stbyCommand (Fin.ofNat 8 (fld F.COL_STBY_CMD_PORT w)) (fld F.COL_STBY_CMD_TARGET w)
      (fld F.COL_STBY_CMD_OP w == 1) c.stbyLine).1 := by
  have hself : colStbyCmd.is R.COL_STBY_CMD = true := rfl
  rw [Chip.writeCol, if_pos hself]
  exact if_pos h

theorem writeCol_dntData {a w : Nat} : Chip.writeCol a colDntData w c = c.dntWrite w := by
  have hself : colDntData.is R.COL_DNT_DATA = true := rfl
  have hother : ¬ colDntData.is R.COL_STBY_CMD = true := by decide
  rw [Chip.writeCol, if_neg hother, if_pos hself]

theorem readCol_dntData {a : Nat} : Chip.readCol a colDntData c = c.dntRead := by
  have hself : colDntData.is R.COL_DNT_DATA = true := rfl
  rw [Chip.readCol, if_pos hself]

/-- A read of COL_SW_LO captures the word of COL_SW_HI. -/
theorem readCol_swLo {a : Nat} :
    Chip.readCol a colSwLo c = (c.keep R.COL_SW_HI.addr (c.word R.COL_SW_HI.addr).toNat, (c.word a).toNat) := by
  have hself : colSwLo.is R.COL_SW_LO = true := rfl
  have hother : ¬ colSwLo.is R.COL_DNT_DATA = true := by decide
  rw [Chip.readCol, if_neg hother, Chip.pairRead, if_pos hself]
  rfl

end Sys2Proof.Machine
end

section
/-!
PROOFS about mode notices and standby commands (R189, R190, R196, R197, R267, R369).
-/

namespace Sys2Proof.Machine

variable {c d : Chip} {k : Fin 8} {n line : Int} {set : Nat}

/-! ### The set of lines a port fires changes (R184, R189) -/

theorem homeSet_lt (c : Chip) (k : Fin 8) : c.homeSet k < 4 := by
  have hown : ∀ j : Nat, (if c.portMode j = 2 then 3 else if c.portMode j = 3 then 0 else if c.on F.COL_PORT_SIDE j then 2 else 1) < 4 :=
    fun j => by split_ifs <;> decide
  unfold Chip.homeSet
  dsimp only
  split
  · exact hown _
  · exact hown _

/-- A port without same-line fills fires the lines that COL_PSTATk.FIRES names. -/
theorem firesNow_of_extra (h : c.on F.COL_PSTAT_EXTRA k = false) : c.firesNow k = c.get F.COL_PSTAT_FIRES k := by
  simp [Chip.firesNow, h]

/-- Port k fires another set from line n, and what it fired before is kept. -/
def Chip.firesFrom (c : Chip) (k : Fin 8) (n : Int) (set : Nat) : Chip :=
  (c.setCol { c.col with
    switchAt := c.col.switchAt.set k n
    prevFires := c.col.prevFires.set k (c.firesNow k)
    prevSolo := c.col.prevSolo.set k (bitAt (c.get F.COL_STAT_SOLO) k) }).set F.COL_PSTAT_FIRES set k

theorem firesFrom_fires (h : set < 4) : (c.firesFrom k n set).get F.COL_PSTAT_FIRES k = set := by
  rw [Chip.firesFrom, Chip.get_set_same _ _ _ _ _ (by decide) (by decide)]
  exact Nat.mod_eq_of_lt h

theorem firesFrom_firesNow (hextra : c.on F.COL_PSTAT_EXTRA k = false) (h : set < 4) : (c.firesFrom k n set).firesNow k = set := by
  have hkept : (c.firesFrom k n set).on F.COL_PSTAT_EXTRA k = false := by
    rw [Chip.on, Chip.firesFrom, Chip.get_set_beside _ _ _ _ _ _ _ _ (by rfl) (by decide) (by decide) (by decide)]
    exact hextra
  rw [firesNow_of_extra hkept, firesFrom_fires h]

/-- From one parity, or none, to another: no line queue is touched. -/
theorem applySet_home (hextra : c.on F.COL_PSTAT_EXTRA k = false) (hbefore : c.firesNow k ≠ 3) (hset : set ≠ 3) (hlt : set < 4) :
    c.applySet k n set = c.firesFrom k n set := by
  have hafter := firesFrom_firesNow (n := n) hextra hlt
  unfold Chip.applySet
  dsimp only
  rw [← Chip.firesFrom, hafter, if_neg (fun h => hset h.2), if_neg (fun h => hbefore h.1)]

/-- To every line: the bridge begins (R267, R268). -/
theorem applySet_every (hextra : c.on F.COL_PSTAT_EXTRA k = false) (hbefore : c.firesNow k ≠ 3) :
    c.applySet k n 3 = (c.firesFrom k n 3).switchQueue k n 3 := by
  have hafter := firesFrom_firesNow (n := n) hextra (show 3 < 4 by decide)
  unfold Chip.applySet
  dsimp only
  rw [← Chip.firesFrom, hafter, if_pos ⟨hbefore, rfl⟩]

theorem only_firesFrom (c : Chip) (k : Fin 8) (n : Int) (set : Nat) : c.Only [.col] {F.COL_PSTAT_FIRES.at k 0} (c.firesFrom k n set) :=
  .set (.setCol (.refl _ _ c) (by simp)) rfl

/-! ### What COL shows of a switch (R189, R213) -/

/-- COL_STAT.SOLO, COL_SW_LO and COL_SW_HI. -/
def switchRegs : Set Nat := {F.COL_STAT_SOLO.addr, F.COL_SW_LO_LINE_LO.addr, F.COL_SW_HI_PORT.addr}

theorem only_showSwitch (c : Chip) (k : Fin 8) (n : Int) : c.Only [] switchRegs (c.showSwitch k n) := by
  unfold Chip.showSwitch
  exact .set (.set (.set (.refl _ _ c) (by simp [switchRegs, Place.at])) (by simp [switchRegs, Place.at, F.COL_SW_HI_LINE_HI, F.COL_SW_HI_PORT]))
    (by simp [switchRegs, Place.at])

theorem showSwitch_line (c : Chip) (k : Fin 8) (n : Int) :
    (c.showSwitch k n).get F.COL_SW_LO_LINE_LO = unsigned 48 n % 2 ^ 32 ∧
      (c.showSwitch k n).get F.COL_SW_HI_LINE_HI = unsigned 48 n / 2 ^ 32 ∧ (c.showSwitch k n).get F.COL_SW_HI_PORT = k := by
  have hlt := unsigned_lt 48 n
  unfold Chip.showSwitch
  refine ⟨?_, ?_, ?_⟩
  · rw [Chip.get_set_other _ _ _ _ _ _ _ _ (by decide), Chip.get_set_other _ _ _ _ _ _ _ _ (by decide),
      Chip.get_set_same _ _ _ _ _ (by decide) (by decide)]
    rfl
  · rw [Chip.get_set_apart _ _ _ _ rfl, Chip.get_set_same _ _ _ _ _ (by decide) (by decide)]
    exact Nat.mod_eq_of_lt (by simp only [F.COL_SW_HI_LINE_HI]; omega)
  · rw [Chip.get_set_same _ _ _ _ _ (by decide) (by decide)]
    exact Nat.mod_eq_of_lt k.isLt

/-- The chip after COL has shown a notice's switch: SOLO, the applied line, PARITY_SWITCH. -/
def Chip.noticeShown (c : Chip) (k : Fin 8) (every : Bool) (named n : Int) : Chip :=
  ((c.setSolo k every).showSwitch k n).emit 0x0C01 [(1, k), (6, unsigned 48 named), (6, unsigned 48 n)]

theorem only_noticeShown (c : Chip) (k : Fin 8) (every : Bool) (named n : Int) : c.Only [.ev] switchRegs (c.noticeShown k every named n) := by
  have hsolo : c.Only [] switchRegs (c.setSolo k every) := .set (.refl _ _ c) (by simp [switchRegs, Place.at])
  exact .emit ((hsolo.trans (only_showSwitch _ k n)).mono (by simp) subset_rfl) (by simp)

theorem noticeShown_solo (c : Chip) (k : Fin 8) (every : Bool) (named n : Int) :
    bitAt ((c.noticeShown k every named n).get F.COL_STAT_SOLO) k = every := by
  have hshown : ∀ d : Chip, (d.showSwitch k n).get F.COL_STAT_SOLO = d.get F.COL_STAT_SOLO := fun d => by
    simp only [Chip.showSwitch]
    rw [Chip.get_set_other _ _ _ _ _ _ _ _ (by decide), Chip.get_set_other _ _ _ _ _ _ _ _ (by decide),
      Chip.get_set_other _ _ _ _ _ _ _ _ (by decide)]
  have hput : bitAt (putBit (c.get F.COL_STAT_SOLO) k every % 2 ^ 8) k = every := by rw [bitAt_mod _ _ _ k.isLt, bitAt_putBit, if_pos rfl]
  rw [Chip.noticeShown, Chip.emit_get, hshown, Chip.setSolo, Chip.get_set_same _ _ _ _ _ (by decide) (by decide)]
  exact hput

/-- What COL shows of a switch is in no COL_PSTATk, and neither in FLW_STAT nor in TKO_PORTS. -/
theorem fires_not_switchRegs (k : Fin 8) : F.COL_PSTAT_FIRES.at k 0 ∉ switchRegs := by
  have hapart : ∀ k : Fin 8, F.COL_PSTAT_FIRES.at k 0 ≠ F.COL_STAT_SOLO.addr ∧ F.COL_PSTAT_FIRES.at k 0 ≠ F.COL_SW_LO_LINE_LO.addr ∧
      F.COL_PSTAT_FIRES.at k 0 ≠ F.COL_SW_HI_PORT.addr := by decide
  simpa [switchRegs] using hapart k

theorem flwStat_not_switchRegs : F.FLW_STAT_BRIDGE.at 0 0 ∉ switchRegs := by
  simp [switchRegs, Place.at, F.FLW_STAT_BRIDGE, F.COL_STAT_SOLO, F.COL_SW_LO_LINE_LO, F.COL_SW_HI_PORT]

theorem tkoPorts_not_switchRegs : F.TKO_PORTS_LOST.at 0 0 ∉ switchRegs := by
  simp [switchRegs, Place.at, F.TKO_PORTS_LOST, F.COL_STAT_SOLO, F.COL_SW_LO_LINE_LO, F.COL_SW_HI_PORT]

/-- The registers that a change of a port's set of lines writes: COL_PSTATk and FLW_STAT. -/
def firesRegs (k : Fin 8) : Set Nat := {F.COL_PSTAT_FIRES.at k 0, F.FLW_STAT_BRIDGE.addr}

theorem islStat_not_firesRegs (k : Fin 8) : F.SYS_ISL_STAT_TIME_VALID.addr ∉ firesRegs k := by
  have hapart : ∀ k : Fin 8, F.SYS_ISL_STAT_TIME_VALID.addr ≠ F.COL_PSTAT_FIRES.at k 0 ∧
      F.SYS_ISL_STAT_TIME_VALID.addr ≠ F.FLW_STAT_BRIDGE.addr := by decide
  simpa [firesRegs] using hapart k

theorem tkoPorts_not_firesRegs (k : Fin 8) : F.TKO_PORTS_LOST.at 0 0 ∉ firesRegs k := by
  have hapart : ∀ k : Fin 8, F.TKO_PORTS_LOST.at 0 0 ≠ F.COL_PSTAT_FIRES.at k 0 ∧ F.TKO_PORTS_LOST.at 0 0 ≠ F.FLW_STAT_BRIDGE.addr := by
    decide
  simpa [firesRegs] using hapart k

/-- What a notice shows, where between c and d the port's set of lines has changed. -/
theorem noticeShown_spec (every : Bool) (named n : Int) (h : c.Only [.col, .asm] (firesRegs k) d) :
    (d.noticeShown k every named n).get F.COL_PSTAT_FIRES k = d.get F.COL_PSTAT_FIRES k ∧
      bitAt ((d.noticeShown k every named n).get F.COL_STAT_SOLO) k = every ∧
      (d.noticeShown k every named n).get F.COL_SW_LO_LINE_LO = unsigned 48 n % 2 ^ 32 ∧
      (d.noticeShown k every named n).get F.COL_SW_HI_LINE_HI = unsigned 48 n / 2 ^ 32 ∧
      (d.noticeShown k every named n).get F.COL_SW_HI_PORT = k ∧
      c.Raised (d.noticeShown k every named n) [(0x0C01, [(1, k.val), (6, unsigned 48 named), (6, unsigned 48 n)])] := by
  obtain ⟨hlo, hhi, hport⟩ := showSwitch_line (d.setSolo k every) k n
  have hget : ∀ q : Place, (d.noticeShown k every named n).get q = ((d.setSolo k every).showSwitch k n).get q := fun q => by
    rw [Chip.noticeShown, Chip.emit_get]
  refine ⟨(only_noticeShown d k every named n).get (fires_not_switchRegs k), noticeShown_solo d k every named n, (hget _).trans hlo,
    (hget _).trans hhi, (hget _).trans hport, ?_⟩
  have hsolo : d.Only [] switchRegs (d.setSolo k every) := .set (.refl _ _ d) (by simp [switchRegs, Place.at])
  have honly := hsolo.trans (only_showSwitch _ k n)
  have hstat : F.SYS_ISL_STAT_TIME_VALID.addr ∉ switchRegs := by
    simp [switchRegs, F.SYS_ISL_STAT_TIME_VALID, F.COL_STAT_SOLO, F.COL_SW_LO_LINE_LO, F.COL_SW_HI_PORT]
  exact Chip.raised_emit _ _ ((honly.1 .ev (by simp)).trans (h.1 .ev (by simp))) ((honly.1 .now (by simp)).trans (h.1 .now (by simp)))
    ((honly.2 _ hstat).trans (h.2 _ (islStat_not_firesRegs k)))

/-! ### A notice is applied (R189, R190, R369) -/

/-- The oldest notice is taken. -/
def Chip.noticeTaken (c : Chip) (r : List ModeNotice) : Chip := c.setCol { c.col with notices := r }

/-- A return notice: the port fires its home set from the applied line. -/
theorem modeNotice_return {m : ModeNotice} {r : List ModeNotice} (hnotices : c.col.notices = m :: r) (hevery : m.every = false)
    (hextra : c.on F.COL_PSTAT_EXTRA m.port = false) (hbefore : c.firesNow m.port ≠ 3) (hhome : c.homeSet m.port ≠ 3)
    (hline : n = c.switchLine m.port m.line) :
    c.modeNotice = ((c.noticeTaken r).firesFrom m.port n (c.homeSet m.port)).noticeShown m.port false m.line n := by
  subst hline
  have hbefore' : (c.noticeTaken r).firesNow m.port ≠ 3 := hbefore
  have hset := applySet_home (c := c.noticeTaken r) (n := c.switchLine m.port m.line) (set := c.homeSet m.port) hextra hbefore' hhome
    (homeSet_lt c m.port)
  simp only [Chip.modeNotice, hnotices, Chip.applyNotice, hevery, Bool.false_eq_true, if_false]
  rw [Chip.noticeShown, ← hset]
  rfl

/-- A bridge begins from the top of the line queue (R268). -/
def Chip.bridgeBegun (c : Chip) (k : Fin 8) : Chip :=
  (c.setAsm k { c.asm[k] with bridgeTo := some (c.queueTop k), bridgeKept := [], convert := none }).showBridge k true

theorem switchQueue_every (c : Chip) (k : Fin 8) (n : Int) : c.switchQueue k n 3 = c.bridgeBegun k := if_pos rfl

theorem only_bridgeBegun (c : Chip) (k : Fin 8) : c.Only [.asm] {F.FLW_STAT_BRIDGE.addr} (c.bridgeBegun k) :=
  .set (.setAsm (.refl _ _ c) (by simp)) rfl

theorem bridgeBegun_shown (c : Chip) (k : Fin 8) : bitAt ((c.bridgeBegun k).get F.FLW_STAT_BRIDGE) k = true := by
  rw [Chip.bridgeBegun, Chip.showBridge, Chip.get_set_same _ _ _ _ _ (by decide) (by decide)]
  exact (bitAt_mod _ 8 k k.isLt).trans ((bitAt_putBit _ _ _ _).trans (if_pos rfl))

theorem bridgeBegun_bridgeTo (c : Chip) (k : Fin 8) : (c.bridgeBegun k).asm[k].bridgeTo = some (c.queueTop k) := by
  simp [Chip.bridgeBegun, Chip.showBridge]

/-- TKO learns the line of a takeover; the lost side's lines are counted no more (R369). -/
def Chip.takenOver (c : Chip) (k : Fin 8) (n : Int) : Chip :=
  c.setTko { c.tko with lostLines := c.tko.lostLines.set k none, swLine := some n }

/-- What TKO does with the applied line of a takeover notice (R369). -/
def Chip.takeoverReported (c : Chip) (k : Fin 8) (n : Int) : Chip :=
  let d := c.countLost k (n - 1)
  let e := d.setTko { d.tko with lostLines := d.tko.lostLines.set k none }
  if bitAt (e.get F.TKO_PORTS_LOST) k then e.setTko { e.tko with swLine := some n } else e

/-- Where the port's other side is lost and none of its lines is still to count. -/
theorem takeoverReported_lost (hcounted : c.tko.lostLines[k] = none) (hlost : bitAt (c.get F.TKO_PORTS_LOST) k = true) :
    c.takeoverReported k n = c.takenOver k n := by
  have hnone : c.countLost k (n - 1) = c := by simp only [Chip.countLost, hcounted]
  rw [Chip.takeoverReported, hnone]
  exact if_pos hlost

theorem modeNotice_every {m : ModeNotice} {r : List ModeNotice} (hnotices : c.col.notices = m :: r) (hevery : m.every = true) :
    c.modeNotice = ((c.noticeTaken r).applyNotice m.port true m.line).1.takeoverReported m.port
      ((c.noticeTaken r).applyNotice m.port true m.line).2 := by
  rw [Chip.modeNotice, hnotices]
  dsimp only
  rw [hevery, if_pos rfl]
  rfl

/-- Every line and the bridge, before the switch is shown. -/
def Chip.everyBegun (c : Chip) (k : Fin 8) (n : Int) : Chip := (c.firesFrom k n 3).bridgeBegun k

theorem only_everyBegun (c : Chip) (k : Fin 8) (n : Int) : c.Only [.col, .asm] (firesRegs k) (c.everyBegun k n) :=
  ((only_firesFrom c k n 3).mono (by simp) (by simp [firesRegs])).trans
    ((only_bridgeBegun (c.firesFrom k n 3) k).mono (by simp) (by simp [firesRegs]))

theorem everyBegun_shown (c : Chip) (k : Fin 8) (n : Int) : (c.everyBegun k n).get F.COL_PSTAT_FIRES k = 3 ∧
    bitAt ((c.everyBegun k n).get F.FLW_STAT_BRIDGE) k = true ∧ (c.everyBegun k n).asm[k].bridgeTo = some (c.queueTop k) := by
  have hapart : ∀ k : Fin 8, F.COL_PSTAT_FIRES.at k 0 ≠ F.FLW_STAT_BRIDGE.addr := by decide
  refine ⟨?_, bridgeBegun_shown _ k, bridgeBegun_bridgeTo _ k⟩
  rw [Chip.everyBegun, (only_bridgeBegun (c.firesFrom k n 3) k).get (hapart k), firesFrom_fires (by decide)]

/-- A switch to every line is applied. -/
theorem applyNotice_every {named : Int} (hextra : c.on F.COL_PSTAT_EXTRA k = false) (hbefore : c.firesNow k ≠ 3) :
    c.applyNotice k true named =
      ((c.everyBegun k (c.switchLine k named)).noticeShown k true named (c.switchLine k named), c.switchLine k named) := by
  have hset := applySet_every (n := c.switchLine k named) hextra hbefore
  rw [switchQueue_every, ← Chip.everyBegun] at hset
  simp only [Chip.applyNotice, Chip.noticeShown, hset, if_true]

/-- A takeover notice for a port whose other side is lost: every line from the applied line. -/
theorem modeNotice_takeover {m : ModeNotice} {r : List ModeNotice} (hnotices : c.col.notices = m :: r) (hevery : m.every = true)
    (hextra : c.on F.COL_PSTAT_EXTRA m.port = false) (hbefore : c.firesNow m.port ≠ 3) (hcounted : c.tko.lostLines[m.port] = none)
    (hlost : bitAt (c.get F.TKO_PORTS_LOST) m.port = true) (hline : n = c.switchLine m.port m.line) :
    c.modeNotice = (((c.noticeTaken r).everyBegun m.port n).noticeShown m.port true m.line n).takenOver m.port n := by
  subst hline
  have hbefore' : (c.noticeTaken r).firesNow m.port ≠ 3 := hbefore
  have happlied := applyNotice_every (c := c.noticeTaken r) (k := m.port) (named := m.line) hextra hbefore'
  have hline : (c.noticeTaken r).switchLine m.port m.line = c.switchLine m.port m.line := rfl
  have hbegun := only_everyBegun (c.noticeTaken r) m.port (c.switchLine m.port m.line)
  have hshown := only_noticeShown ((c.noticeTaken r).everyBegun m.port (c.switchLine m.port m.line)) m.port true m.line
    (c.switchLine m.port m.line)
  rw [hline] at happlied
  rw [modeNotice_every hnotices hevery, happlied]
  refine takeoverReported_lost ?_ ?_
  · rw [hshown.1 .tko (by simp), hbegun.1 .tko (by simp)]
    exact hcounted
  · rw [hshown.get tkoPorts_not_switchRegs, hbegun.get (tkoPorts_not_firesRegs m.port), Chip.noticeTaken, Chip.setCol_get, hlost]

/-! ### What the notices leave -/

/-- A return notice: FIRES shows the home set, SOLO clears, and the set before the switch is kept. -/
theorem returnNotice_spec {r : List ModeNotice} {named : Int} (hset : set < 4)
    (hd : d = ((c.noticeTaken r).firesFrom k n set).noticeShown k false named n) :
    c.Only [.col, .ev] {F.COL_PSTAT_FIRES.at k 0, F.COL_STAT_SOLO.addr, F.COL_SW_LO_LINE_LO.addr, F.COL_SW_HI_PORT.addr} d ∧
      d.col = { c.col with
        notices := r
        switchAt := c.col.switchAt.set k n
        prevFires := c.col.prevFires.set k (c.firesNow k)
        prevSolo := c.col.prevSolo.set k (bitAt (c.get F.COL_STAT_SOLO) k) } ∧
      d.get F.COL_PSTAT_FIRES k = set ∧ bitAt (d.get F.COL_STAT_SOLO) k = false ∧
      d.get F.COL_SW_LO_LINE_LO = unsigned 48 n % 2 ^ 32 ∧ d.get F.COL_SW_HI_LINE_HI = unsigned 48 n / 2 ^ 32 ∧
      d.get F.COL_SW_HI_PORT = k ∧ c.Raised d [(0x0C01, [(1, k.val), (6, unsigned 48 named), (6, unsigned 48 n)])] := by
  have htaken : c.Only [.col] {F.COL_PSTAT_FIRES.at k 0} (c.noticeTaken r) := .setCol (.refl _ _ c) (by simp)
  have hfires := htaken.trans (only_firesFrom (c.noticeTaken r) k n set)
  have hshown : ((c.noticeTaken r).firesFrom k n set).Only [.ev] switchRegs d := hd ▸ only_noticeShown _ k false named n
  obtain ⟨hkept, hregs⟩ := noticeShown_spec (k := k) false named n (hfires.mono (by simp) (by simp [firesRegs]))
  rw [← hd] at hkept hregs
  exact ⟨(hfires.mono (by simp) (by simp)).trans (hshown.mono (by simp) (by simp [switchRegs])), hshown.1 .col (by simp),
    hkept.trans (firesFrom_fires hset), hregs⟩

/-- The registers that a takeover of port k changes. -/
def takeoverRegs (k : Fin 8) : Set Nat :=
  {F.COL_PSTAT_FIRES.at k 0, F.COL_STAT_SOLO.addr, F.COL_SW_LO_LINE_LO.addr, F.COL_SW_HI_PORT.addr, F.FLW_STAT_BRIDGE.addr}

/-- A takeover notice: FIRES shows every line, SOLO is set and the bridge begins. -/
theorem takeoverShown_spec {r : List ModeNotice} {named : Int} (hd : d = ((c.noticeTaken r).everyBegun k n).noticeShown k true named n) :
    c.Only [.col, .asm, .tko, .ev] (takeoverRegs k) d ∧
      d.col.notices = r ∧ d.col.switchAt = c.col.switchAt.set k n ∧ d.col.dnt = c.col.dnt ∧
      d.get F.COL_PSTAT_FIRES k = 3 ∧ bitAt (d.get F.COL_STAT_SOLO) k = true ∧
      d.get F.COL_SW_LO_LINE_LO = unsigned 48 n % 2 ^ 32 ∧ d.get F.COL_SW_HI_LINE_HI = unsigned 48 n / 2 ^ 32 ∧
      bitAt (d.get F.FLW_STAT_BRIDGE) k = true ∧ d.asm[k].bridgeTo = some (c.queueTop k) ∧
      c.Raised d [(0x0C01, [(1, k.val), (6, unsigned 48 named), (6, unsigned 48 n)])] := by
  have htaken : c.Only [.col, .asm] (firesRegs k) (c.noticeTaken r) := .setCol (.refl _ _ c) (by simp)
  have hbegun := htaken.trans (only_everyBegun (c.noticeTaken r) k n)
  have hshown : ((c.noticeTaken r).everyBegun k n).Only [.ev] switchRegs d := hd ▸ only_noticeShown _ k true named n
  obtain ⟨hfires, hbridge, hto⟩ := everyBegun_shown (c.noticeTaken r) k n
  obtain ⟨hkept, hsolo, hlo, hhi, -, hraised⟩ := noticeShown_spec true named n hbegun
  rw [← hd] at hkept hsolo hlo hhi hraised
  have hcol : d.col = ((c.noticeTaken r).firesFrom k n 3).col := hshown.1 .col (by simp)
  have hasm : d.asm = ((c.noticeTaken r).everyBegun k n).asm := hshown.1 .asm (by simp)
  have hstat : d.get F.FLW_STAT_BRIDGE = _ := hshown.get flwStat_not_switchRegs
  refine ⟨?_, ?_, ?_, ?_, hkept.trans hfires, hsolo, hlo, hhi, ?_, ?_, hraised⟩
  · exact (hbegun.mono (by simp) (by simp [firesRegs, takeoverRegs, Set.insert_subset_iff])).trans
      (hshown.mono (by simp) (by simp [switchRegs, takeoverRegs, Set.insert_subset_iff]))
  · rw [hcol]; rfl
  · rw [hcol]; rfl
  · rw [hcol]; rfl
  · rw [hstat, hbridge]
  · rw [hasm, hto]; rfl

/-! ### Standby commands (R196, R197) -/

/-- Another field of the word written reads as in the word given. -/
theorem fld_withField_other {p q : Place} (hlo : p.lo ≤ p.hi + 1) (hhi : p.hi < 32) (hq : p.hi < q.lo ∨ q.hi < p.lo) (v : Nat) (w : Word) :
    fld q (withField p v w).toNat = fld q w.toNat := by
  rw [fld, toNat_withField hlo hhi]
  exact bitsOf_withBits_other _ _ hlo hq

/-- STBY_ACTIVATE (OP 1) and STBY_RELEASE (OP 2) that the bus takes. -/
theorem stbyWrite_taken {t v tp : Nat} {on : Bool} {i : Initiator} {w : Word} {s : State} (hv : v = 1 ∧ on = true ∨ v = 2 ∧ on = false)
    (hmay : s.chip.mayWrite i R.COL_STBY_CMD.addr) (hk : k.val = fld F.COL_STBY_CMD_PORT w.toNat)
    (htp : tp = fld F.COL_STBY_CMD_TARGET w.toNat) (hline : line = s.chip.stbyLine) :
    runWrite t i R.COL_STBY_CMD (withField F.COL_STBY_CMD_OP v w) 0 0 s =
      .next { s with chip := ((s.chip.wrote t i R.COL_STBY_CMD.addr).stbyCommand k tp on line).1 } := by
  have hon : (v == 1) = on := by rcases hv with ⟨rfl, rfl⟩ | ⟨rfl, rfl⟩ <;> rfl
  have hop : fld F.COL_STBY_CMD_OP (withField F.COL_STBY_CMD_OP v w).toNat = v := by
    rw [fld_withField (by decide) (by decide)]
    exact Nat.mod_eq_of_lt (show v < 4 by omega)
  have hport : Fin.ofNat 8 (fld F.COL_STBY_CMD_PORT (withField F.COL_STBY_CMD_OP v w).toNat) = k := by
    rw [fld_withField_other (by decide) (by decide) (by decide), ← hk, Fin.ofNat_val_eq_self]
  have htarget : fld F.COL_STBY_CMD_TARGET (withField F.COL_STBY_CMD_OP v w).toNat = tp := by
    rw [fld_withField_other (by decide) (by decide) (by decide), htp]
  rw [colWrite_taken isColReg_stbyCmd hmay, writeCol_stbyCmd (by omega), hport, htarget, hop, hon, hline]
  rfl

theorem stbyAllowed_iff {tp : Nat} {on : Bool} : c.stbyAllowed k tp on line = true ↔ c.asm[k].top < line ∧ c.on F.COL_STBY_ARM k = true ∧
    c.portMode k = 3 ∧ c.on F.CMP_TP_EN tp = true ∧ c.feature 1 = true ∧ (on = true ∨ c.on F.COL_STBY_ACT k = true) := by
  simp [Chip.stbyAllowed, and_assoc]

/-- A command that is accepted waits for its named line. -/
theorem stbyCommand_kept {tp : Nat} {on : Bool} (h : c.stbyAllowed k tp on line = true) :
    (c.stbyCommand k tp on line).1 = c.setCol { c.col with stby := c.col.stby ++ [(k.val, tp, on, line)] } := by
  rw [Chip.stbyCommand, if_pos h]

theorem stbyCommand_refused {tp : Nat} {on : Bool} (h : c.stbyAllowed k tp on line = false) :
    (c.stbyCommand k tp on line).1 = (c.addSat F.COL_REJ_CNT_COUNT 1).emit 0x0C05 := by
  rw [Chip.stbyCommand, if_neg (by simp [h]), Chip.stbyRefuse]

end Sys2Proof.Machine
end

section
namespace Sys2Proof.Proofs
open Sys2Proof.Machine

/-- Settles O17, clause by clause: a notice comes to one switch of the port's lines and what COL shows of it, a standby command to one
entry of its list or one refusal. -/
theorem modesAndStandby : Obligations.ModesAndStandby := by
  unfold Obligations.ModesAndStandby
  refine ⟨?_, ?_, ?_, ?_, ?_, ?_⟩
  · intro t m r n s hup hnotices hn hevery hbefore hhome hextra
    have hexec := modeNotice_return (c := s.chip.at t) hnotices hevery hextra hbefore hhome hn
    obtain ⟨honly, hcol, hshown⟩ := returnNotice_spec (homeSet_lt (s.chip.at t) m.port) rfl
    exact ⟨_, runChip_inIsland_eq hup hexec, leaves_of_only honly, hcol, hshown⟩
  · intro t m r n s hup hnotices hn hevery hbefore hextra hcounted hlost
    have hexec := modeNotice_takeover (c := s.chip.at t) hnotices hevery hextra hbefore hcounted hlost hn
    obtain ⟨d, hd⟩ : ∃ d, d = (((s.chip.at t).noticeTaken r).everyBegun m.port n).noticeShown m.port true m.line n := ⟨_, rfl⟩
    obtain ⟨honly, hrest, hswitch, hdnt, hfires, hsolo, hlo, hhi, hbridge, hto, hraised⟩ := takeoverShown_spec hd
    rw [← hd] at hexec
    exact ⟨_, runChip_inIsland_eq hup hexec, leaves_of_only (.setTko honly (by simp)), hrest, hswitch, hdnt, hfires, hsolo, hlo, hhi,
      hbridge, hto, rfl, hraised⟩
  · intro t i w k tp line s hmay hk htp hline htop harm hmode htile hfeature
    have hallowed : (s.chip.wrote t i R.COL_STBY_CMD.addr).stbyAllowed k tp true line = true :=
      stbyAllowed_iff.mpr ⟨htop, harm, hmode, htile, hfeature, .inl rfl⟩
    have hexec := stbyWrite_taken (t := t) (.inl ⟨rfl, rfl⟩) hmay hk htp hline
    rw [stbyCommand_kept hallowed] at hexec
    exact ⟨_, hexec, writeLeaves_of_only (.setCol (.refl _ _ _) (by simp)) (by simp) (by simp), rfl⟩
  · intro t i w k tp line s hmay hk htp hline hrefused
    have hexec := stbyWrite_taken (t := t) (.inl ⟨rfl, rfl⟩) hmay hk htp hline
    rw [stbyCommand_refused] at hexec
    · refine ⟨_, hexec, writeLeaves_of_only (.emit (.addSat (.refl _ _ _) rfl) (by simp)) (by simp) (by simp), ?_, ?_⟩
      · exact Chip.get_addSat_same _ F.COL_REJ_CNT_COUNT 1 0 0 (by decide) (by decide)
      · exact Chip.raised_emit _ _ rfl rfl (Chip.word_set_other _ _ _ _ _ (by decide))
    · refine Bool.eq_false_iff.mpr fun hallowed => ?_
      obtain ⟨htop, harm, hmode, htile, hfeature, -⟩ := stbyAllowed_iff.mp hallowed
      rcases hrefused with h | h | h | h | h
      · exact absurd htop (not_lt.mpr h)
      · exact absurd (harm.symm.trans h) (by decide)
      · exact h hmode
      · exact absurd (htile.symm.trans h) (by decide)
      · exact absurd (hfeature.symm.trans h) (by decide)
  · intro t i w k tp line s hmay hk htp hline htop harm hmode htile hfeature hact
    have hallowed : (s.chip.wrote t i R.COL_STBY_CMD.addr).stbyAllowed k tp false line = true :=
      stbyAllowed_iff.mpr ⟨htop, harm, hmode, htile, hfeature, .inr hact⟩
    have hexec := stbyWrite_taken (t := t) (.inr ⟨rfl, rfl⟩) hmay hk htp hline
    rw [stbyCommand_kept hallowed] at hexec
    exact ⟨_, hexec, writeLeaves_of_only (.setCol (.refl _ _ _) (by simp)) (by simp) (by simp), rfl⟩
  · intro t i s hmay
    have hexec := colRead_taken (t := t) isColReg_swLo hmay
    rw [readCol_swLo] at hexec
    refine ⟨_, hexec, readLeaves_of_only (.keep (.refl _ _ _) (by simp)), ?_⟩
    exact (Chip.captured_keep_same _ _ _).trans (Nat.mod_eq_of_lt (BitVec.isLt _))

end Sys2Proof.Proofs
end

section
/-!
PROOFS about the dead-nozzle table and its exchange (R198, R199, R202, R206, R208, R212).
-/

namespace Sys2Proof.Machine

variable {c d : Chip} {e : DntEntry} {k : Fin 8} {l m : List DntEntry} {ps : List Part} {rs : Set Nat} {src tp ic col method : Nat}

/-! ### The table's lines of COL_STAT and COL_DNT_CNT (R249) -/

/-- No enabled port shares a tile in mode BOTH, and none has a same-line fill in force. -/
def Chip.NoSameLineFill (c : Chip) : Prop := ∀ k : Fin 8, c.portMode k ≠ 1 ∧ c.on F.COL_PSTAT_EXTRA k = false

/-- COL_DNT_CNT and COL_STAT. -/
def tableRegs : Set Nat := {F.COL_DNT_CNT_USED.addr, F.COL_STAT_REQ_WAIT.addr}

/-- Ports for which an entry waits for answers, as COL_STAT.REQ_WAIT shows them. -/
def waitingPorts (l : List DntEntry) : List Nat := (List.range 8).filter (fun k => l.any (fun e => e.port == k && e.stage == .asked))

/-- COL_DNT_CNT and COL_STAT.REQ_WAIT follow the table. -/
def Chip.dntCounted (c : Chip) : Chip :=
  ((c.set F.COL_DNT_CNT_USED c.col.dnt.length).set F.COL_DNT_CNT_REMOTE (c.col.dnt.filter (fun e => e.kind != 0)).length).set
    F.COL_STAT_REQ_WAIT ((waitingPorts c.col.dnt).map (fun k => 2 ^ k)).sum

theorem only_dntCounted (c : Chip) : c.Only [] tableRegs c.dntCounted :=
  .set (.set (.set (.refl _ _ c) (by simp [tableRegs, Place.at])) (by simp [tableRegs, Place.at, F.COL_DNT_CNT_REMOTE, F.COL_DNT_CNT_USED]))
    (by simp [tableRegs, Place.at])

theorem portMode_not_tableRegs (k : Fin 8) : F.COL_PORT_MODE.at k 0 ∉ tableRegs := by
  have hapart : ∀ k : Fin 8, F.COL_PORT_MODE.at k 0 ≠ F.COL_DNT_CNT_USED.addr ∧ F.COL_PORT_MODE.at k 0 ≠ F.COL_STAT_REQ_WAIT.addr := by decide
  simpa [tableRegs] using hapart k

theorem extra_not_tableRegs (k : Fin 8) : F.COL_PSTAT_EXTRA.at k 0 ∉ tableRegs := by
  have hapart : ∀ k : Fin 8, F.COL_PSTAT_EXTRA.at k 0 ≠ F.COL_DNT_CNT_USED.addr ∧ F.COL_PSTAT_EXTRA.at k 0 ≠ F.COL_STAT_REQ_WAIT.addr := by
    decide
  simpa [tableRegs] using hapart k

theorem Chip.NoSameLineFill.of_only (h : c.NoSameLineFill) (honly : c.Only ps tableRegs d) : d.NoSameLineFill := fun k => by
  rw [Chip.portMode, honly.get (portMode_not_tableRegs k), honly.on (extra_not_tableRegs k)]
  exact h k

/-- Without same-line fills no port's EXTRA bit moves. -/
theorem dntShow_eq (h : c.NoSameLineFill) : c.dntShow = c.dntCounted := by
  have hfixed : c.dntCounted.NoSameLineFill := h.of_only (only_dntCounted c)
  unfold Chip.dntShow
  refine List.foldl_fixed' (fun k => ?_) allPorts
  obtain ⟨hmode, hextra⟩ := hfixed k
  have hwant : ∀ x y : Bool, ((c.dntCounted.portMode k == 1) && x && y) = false := fun x y => by simp [hmode]
  exact if_pos (hextra.trans (hwant _ _).symm)

/-! ### The table is given another list of entries -/

/-- Chip d is chip c with the entries l in its table, and the counts that follow them. -/
def Chip.Tabled (c : Chip) (l : List DntEntry) (d : Chip) : Prop := c.Only [.col] tableRegs d ∧ d.col = { c.col with dnt := l }

theorem tabled_setDnt (h : c.NoSameLineFill) (l : List DntEntry) : c.Tabled l (c.setDnt l) := by
  have hset : c.Only [.col] tableRegs (c.setCol { c.col with dnt := l }) := .setCol (.refl _ _ c) (by simp)
  have hcounted := only_dntCounted (c.setCol { c.col with dnt := l })
  rw [Chip.setDnt, dntShow_eq (h.of_only hset)]
  exact ⟨hset.trans (hcounted.mono (by simp) subset_rfl), hcounted.1 .col (by simp)⟩

theorem Chip.Tabled.noSameLineFill (h : c.Tabled l d) (hfill : c.NoSameLineFill) : d.NoSameLineFill := hfill.of_only h.1

theorem Chip.Tabled.setDnt (h : c.Tabled l d) (hfill : c.NoSameLineFill) (m : List DntEntry) : c.Tabled m (d.setDnt m) := by
  obtain ⟨honly, hcol⟩ := tabled_setDnt (h.noSameLineFill hfill) m
  exact ⟨h.1.trans honly, by rw [hcol, h.2]⟩

/-- Putting the entry of index i leaves the entries of other indices. -/
theorem Chip.Tabled.updEntry (h : c.Tabled l d) (hfill : c.NoSameLineFill) (e : DntEntry) :
    c.Tabled (l.map (fun x => if x.idx == e.idx then e else x)) (d.updEntry e) := by
  have hput := h.setDnt hfill (l.map (fun x => if x.idx == e.idx then e else x))
  rwa [Chip.updEntry, h.2]

/-- The last entry is put, where no other has its index. -/
theorem Chip.Tabled.updEntry_last {e' : DntEntry} (h : c.Tabled (l ++ [e]) d) (hfill : c.NoSameLineFill) (hidx : e'.idx = e.idx)
    (hothers : ∀ x ∈ l, x.idx ≠ e.idx) : c.Tabled (l ++ [e']) (d.updEntry e') := by
  have hput := h.updEntry hfill e'
  have hkept : l.map (fun x => if x.idx == e.idx then e' else x) = l :=
    (List.map_congr_left fun x hx => by simp [hothers x hx]).trans (List.map_id _)
  rwa [List.map_append, hidx, hkept, List.map_singleton, beq_self_eq_true, if_pos rfl] at hput

/-- The only entry is put. -/
theorem Chip.Tabled.updEntry_single {e' : DntEntry} (h : c.Tabled [e] d) (hfill : c.NoSameLineFill) (hidx : e'.idx = e.idx) :
    c.Tabled [e'] (d.updEntry e') :=
  updEntry_last (l := []) h hfill hidx (by simp)

theorem tabled_of_dnt (h : c.col.dnt = l) : c.Tabled l c := ⟨.refl _ _ c, by rw [← h]⟩

theorem entryAt_idx {i : Nat} (h : c.entryAt i = some e) : e.idx = i := by simpa using List.find?_some h

/-! ### COL_DNT_IDX (R212) -/

/-- IDX advances while AUTOINC is 1. -/
def Chip.indexPast (c : Chip) : Chip := if c.on F.COL_DNT_IDX_AUTOINC then c.addWrap F.COL_DNT_IDX_IDX 1 else c

theorem only_indexPast (c : Chip) : c.Only [] {F.COL_DNT_IDX_IDX.addr} c.indexPast := by
  unfold Chip.indexPast
  split
  · exact .addWrap (.refl _ _ c) rfl
  · exact .refl _ _ c

theorem indexPast_idx (c : Chip) : c.indexPast.get F.COL_DNT_IDX_IDX =
    if c.on F.COL_DNT_IDX_AUTOINC then (c.get F.COL_DNT_IDX_IDX + 1) % 4096 else c.get F.COL_DNT_IDX_IDX := by
  unfold Chip.indexPast
  split
  · exact Chip.get_addWrap_same c F.COL_DNT_IDX_IDX 1 0 0 (by decide) (by decide)
  · rfl

/-- IDX advances from what it was before steps that leave COL_DNT_IDX. -/
theorem indexPast_idx_of_only (h : c.Only ps rs d) (hidx : F.COL_DNT_IDX_IDX.addr ∉ rs) : d.indexPast.get F.COL_DNT_IDX_IDX =
    if c.on F.COL_DNT_IDX_AUTOINC then (c.get F.COL_DNT_IDX_IDX + 1) % 4096 else c.get F.COL_DNT_IDX_IDX := by
  have hget : d.get F.COL_DNT_IDX_IDX = c.get F.COL_DNT_IDX_IDX := h.get hidx
  have hon : d.on F.COL_DNT_IDX_AUTOINC = c.on F.COL_DNT_IDX_AUTOINC := h.on hidx
  rw [indexPast_idx, hget, hon]

theorem idx_not_tableRegs : F.COL_DNT_IDX_IDX.addr ∉ tableRegs := by
  simp [tableRegs, F.COL_DNT_IDX_IDX, F.COL_DNT_CNT_USED, F.COL_STAT_REQ_WAIT]

theorem dntRead_eq (c : Chip) :
    c.dntRead = (c.indexPast, match c.entryAt (c.get F.COL_DNT_IDX_IDX) with | some e => e.word | none => 0) := rfl

/-! ### The method of an entry (R202) -/

/-- The entry with its method decided and no request of it left. -/
def DntEntry.decided (e : DntEntry) (m : Nat) : DntEntry := { e with state := m, stage := .none, asks := 0, wait := [], acked := [] }

/-- NEIGHBOUR and REPORT need no exchange. -/
theorem startMethod_decided {f m : Nat} (hport : e.port < 8) (hm : c.nextMethod e = m) (halone : m = 1 ∨ m = 4) :
    Chip.startMethod (f + 1) e c = c.updEntry (e.decided m) := by
  subst hm
  rw [Chip.startMethod]
  dsimp only
  rw [dif_pos hport, if_pos halone]
  rfl

/-- A forced method: NEIGHBOUR for 1, REPORT for 3. -/
theorem nextMethod_forced (hport : e.port < 8) (hforced : e.method = 1 ∨ e.method = 3) : c.nextMethod e = if e.method = 3 then 4 else 1 := by
  rw [Chip.nextMethod, dif_pos hport]
  rcases hforced with h | h <;> simp [h]

/-- A forced FILL that has failed falls back to NEIGHBOUR. -/
theorem nextMethod_fillFailed (hport : e.port < 8) (hmethod : e.method = 2) (htried : 2 ∈ e.tried) : c.nextMethod e = 1 := by
  rw [Chip.nextMethod, dif_pos hport]
  simp [hmethod, htried]

/-- The entry of a FILL that has failed. -/
def DntEntry.fillFailed (e : DntEntry) : DntEntry :=
  DntEntry.decided { e with tried := 2 :: e.tried, wait := [], acked := [], stage := .none } 1

/-- A failed FILL, where it was forced and nobody has acknowledged: REQ_FAILED, then NEIGHBOUR. -/
theorem failRequest_fill {reason : Nat} (hasks : e.asks = 2) (hmethod : e.method = 2) (hacked : e.acked = []) (hport : e.port < 8) :
    c.failRequest e reason = (c.emit 0x0C07 [(1, e.port), (1, e.ic), (2, e.col), (1, reason)]).updEntry e.fillFailed := by
  rw [Chip.failRequest, hacked, hasks]
  exact startMethod_decided (f := 2) hport (nextMethod_fillFailed hport hmethod (by simp)) (.inl rfl)

/-- What a failed FILL of the only entry leaves. -/
theorem failRequest_spec {reason : Nat} (hfill : c.NoSameLineFill) (hdnt : c.col.dnt = [e]) (hasks : e.asks = 2) (hmethod : e.method = 2)
    (hacked : e.acked = []) (hport : e.port < 8) (hd : d = c.failRequest e reason) :
    c.Only [.col, .ev] tableRegs d ∧
      d.col = { c.col with dnt := [{ e with state := 1, stage := .none, asks := 0, wait := [], tried := 2 :: e.tried }] } ∧
      c.Raised d [(0x0C07, [(1, e.port), (1, e.ic), (2, e.col), (1, reason)])] := by
  obtain ⟨x, hx⟩ : ∃ x, x = c.emit 0x0C07 [(1, e.port), (1, e.ic), (2, e.col), (1, reason)] := ⟨_, rfl⟩
  have hraised : c.Only [.ev] tableRegs x := hx ▸ .emit (.refl _ _ c) (by simp)
  have hcol : x.col = c.col := hraised.1 .col (by simp)
  obtain ⟨honly, hput⟩ := (tabled_of_dnt (by rw [hcol, hdnt])).updEntry_single (e := e) (e' := e.fillFailed) (hfill.of_only hraised) rfl
  rw [failRequest_fill hasks hmethod hacked hport, ← hx] at hd
  subst hd
  refine ⟨(hraised.mono (by simp) subset_rfl).trans (honly.mono (by simp) subset_rfl), ?_, ?_⟩
  · rw [hput, hcol, DntEntry.fillFailed, DntEntry.decided, ← hacked]
  · rw [hx] at honly
    exact hx ▸ honly.1 .ev (by simp)

/-! ### Software writes of the table (R198, R199) -/

/-- The fields of the word written that name the nozzle. -/
def nozzleOf (w : Nat) : Nat × Nat × Nat := (bitsOf w 30 28, bitsOf w 27 25, bitsOf w 24 14)

/-- Whether another entry is a DEAD entry of the same nozzle. -/
def Chip.dntClash (c : Chip) (w : Nat) : Bool :=
  bitAt w 31 && c.col.dnt.any (fun e => e.idx != c.get F.COL_DNT_IDX_IDX && e.kind == 0 && e.port == bitsOf w 30 28 &&
    e.ic == bitsOf w 27 25 && e.col == bitsOf w 24 14)

/-- The entry that a word asks for, before it has a method. -/
def writtenEntry (i w : Nat) : DntEntry :=
  { idx := i, port := bitsOf w 30 28, ic := bitsOf w 27 25, col := bitsOf w 24 14, kind := 0, method := bitsOf w 11 10, source := 2, state := 0 }

/-- Whether a write is ignored and counted. -/
def Chip.dntRefuses (c : Chip) (w : Nat) : Prop :=
  bitsOf w 13 12 ≠ 0 ∨ 5 < bitsOf w 27 25 ∨ 1279 < bitsOf w 24 14 ∨ c.dntClash w = true

theorem dntWrite_refused {w : Nat} (h : c.dntRefuses w) : c.dntWrite w = (c.addSat F.COL_REJ_CNT_COUNT 1).indexPast := by
  unfold Chip.dntRefuses Chip.dntClash at h
  unfold Chip.dntWrite
  dsimp only
  rw [if_pos h]
  rfl

/-- The entry of an index, if there is one, is removed. -/
def Chip.dropAt (c : Chip) (i : Nat) : Chip := match c.entryAt i with | some e => c.dropEntry e | none => c

/-- An entry is added and takes its method. -/
def Chip.addEntry (c : Chip) (e : DntEntry) : Chip := Chip.startMethod 3 e (c.setDnt (c.col.dnt ++ [e]))

theorem dntWrite_remove {w : Nat} (h : ¬ c.dntRefuses w) (hvalid : bitAt w 31 = false) :
    c.dntWrite w = (c.dropAt (c.get F.COL_DNT_IDX_IDX)).indexPast := by
  unfold Chip.dntRefuses Chip.dntClash at h
  unfold Chip.dntWrite
  dsimp only
  rw [if_neg h, if_neg (Bool.eq_false_iff.mp hvalid)]
  rfl

theorem dntWrite_insert {w : Nat} (h : ¬ c.dntRefuses w) (hvalid : bitAt w 31 = true) :
    c.dntWrite w = (((c.dropAt (c.get F.COL_DNT_IDX_IDX)).unrefuse (bitsOf w 30 28) (bitsOf w 27 25) (bitsOf w 24 14)).addEntry
      (writtenEntry (c.get F.COL_DNT_IDX_IDX) w)).indexPast := by
  unfold Chip.dntRefuses Chip.dntClash at h
  unfold Chip.dntWrite
  dsimp only
  rw [if_neg h, if_pos hvalid]
  rfl

theorem not_dntRefuses {w : Nat} (hkind : bitsOf w 13 12 = 0) (hic : bitsOf w 27 25 ≤ 5) (hcol : bitsOf w 24 14 ≤ 1279)
    (hclash : c.dntClash w = false) : ¬ c.dntRefuses w := by
  simp [Chip.dntRefuses, hkind, hic, hcol, hclash]

/-- A nozzle that no entry holds dead clashes with none. -/
theorem dntClash_of_not_dead {w : Nat} (h : c.isDead (bitsOf w 30 28) (bitsOf w 27 25) (bitsOf w 24 14) = false) : c.dntClash w = false := by
  rw [Chip.isDead, List.any_eq_false] at h
  rw [Chip.dntClash, List.any_eq_false.mpr, Bool.and_false]
  intro e he
  have hnot := h e he
  simp only [Bool.and_eq_true] at hnot ⊢
  tauto

theorem dropAt_unused {i : Nat} (h : ∀ e ∈ c.col.dnt, e.idx ≠ i) : c.dropAt i = c := by
  have hnone : c.entryAt i = none := List.find?_eq_none.mpr fun e he => by simpa using h e he
  rw [Chip.dropAt, hnone]

/-- An entry without an exchange is removed at once. -/
theorem dropAt_quiet {i : Nat} (hat : c.entryAt i = some e) (hstage : e.stage = .none) :
    c.dropAt i = c.setDnt (c.col.dnt.filter (fun x => x.idx != i)) := by
  have hquiet : ¬ (e.kind = 0 ∧ e.stage ≠ .none) := fun h => h.2 hstage
  rw [Chip.dropAt, hat]
  dsimp only
  rw [Chip.dropEntry, if_neg hquiet, entryAt_idx hat]

/-- An entry of an unused index is added and takes a method that needs no exchange. -/
theorem tabled_addEntry {f : Nat} (hfill : c.NoSameLineFill) (hport : e.port < 8) (hforced : e.method = 1 ∨ e.method = 3)
    (hunused : ∀ x ∈ c.col.dnt, x.idx ≠ e.idx) (hf : f = if e.method = 3 then 4 else 1) :
    c.Tabled (c.col.dnt ++ [e.decided f]) (c.addEntry e) := by
  have hmethod : (c.setDnt (c.col.dnt ++ [e])).nextMethod e = f := (nextMethod_forced hport hforced).trans hf.symm
  have halone : f = 1 ∨ f = 4 := by
    rw [hf]
    split_ifs
    · exact .inr rfl
    · exact .inl rfl
  rw [Chip.addEntry, startMethod_decided hport hmethod halone]
  exact (tabled_setDnt hfill (c.col.dnt ++ [e])).updEntry_last hfill rfl hunused

/-- The registers that a software write of the table changes. -/
def dntWriteRegs : Set Nat := {F.COL_DNT_CNT_USED.addr, F.COL_STAT_REQ_WAIT.addr, F.COL_DNT_IDX_IDX.addr}

theorem tableRegs_subset_dntWriteRegs : tableRegs ⊆ dntWriteRegs := by simp [tableRegs, dntWriteRegs, Set.insert_subset_iff]

theorem only_indexPast_tabled (h : c.Only [.col] tableRegs d) : c.Only [.col] dntWriteRegs d.indexPast :=
  (h.mono (by simp) tableRegs_subset_dntWriteRegs).trans ((only_indexPast d).mono (by simp) (by simp [dntWriteRegs]))

theorem indexPast_col (c : Chip) : c.indexPast.col = c.col := (only_indexPast c).1 .col (by simp)

/-- A write of a nozzle not yet dead at an unused index, with a forced method. -/
theorem dntWrite_insert_spec {w i f : Nat} (hi : i = c.get F.COL_DNT_IDX_IDX) (hfill : c.NoSameLineFill) (hvalid : bitAt w 31 = true)
    (haccepts : ¬ c.dntRefuses w) (hforced : bitsOf w 11 10 = 1 ∨ bitsOf w 11 10 = 3) (hunused : ∀ e ∈ c.col.dnt, e.idx ≠ i)
    (hf : f = if bitsOf w 11 10 = 3 then 4 else 1) (hd : d = c.dntWrite w) :
    c.Only [.col] dntWriteRegs d ∧
      d.col = { c.col with
        dnt := c.col.dnt ++ [(writtenEntry i w).decided f]
        refused := c.col.refused.filter (fun x => x != nozzleOf w) } ∧
      d.get F.COL_DNT_IDX_IDX =
        if c.on F.COL_DNT_IDX_AUTOINC then (c.get F.COL_DNT_IDX_IDX + 1) % 4096 else c.get F.COL_DNT_IDX_IDX := by
  have hunref : c.Only [.col] tableRegs (c.unrefuse (bitsOf w 30 28) (bitsOf w 27 25) (bitsOf w 24 14)) := .setCol (.refl _ _ c) (by simp)
  have hport : (writtenEntry i w).port < 8 := bitsOf_lt w 30 28
  obtain ⟨honly, hcol⟩ := tabled_addEntry (hfill.of_only hunref) hport hforced hunused hf
  have hall := hunref.trans honly
  rw [dntWrite_insert haccepts hvalid, ← hi, dropAt_unused hunused] at hd
  subst hd
  refine ⟨only_indexPast_tabled hall, ?_, indexPast_idx_of_only hall idx_not_tableRegs⟩
  rw [indexPast_col, hcol]
  rfl

/-- A write that is ignored is counted, and IDX advances all the same. -/
theorem dntWrite_refused_spec {w : Nat} (h : c.dntRefuses w) (hd : d = c.dntWrite w) :
    c.Only [] {F.COL_REJ_CNT_COUNT.addr, F.COL_DNT_IDX_IDX.addr} d ∧
      d.get F.COL_REJ_CNT_COUNT = satNat (F.COL_REJ_CNT_COUNT.hi + 1 - F.COL_REJ_CNT_COUNT.lo) (c.get F.COL_REJ_CNT_COUNT + 1) ∧
      d.get F.COL_DNT_IDX_IDX =
        if c.on F.COL_DNT_IDX_AUTOINC then (c.get F.COL_DNT_IDX_IDX + 1) % 4096 else c.get F.COL_DNT_IDX_IDX := by
  have hcounted : c.Only [] {F.COL_REJ_CNT_COUNT.addr} (c.addSat F.COL_REJ_CNT_COUNT 1) := .addSat (.refl _ _ c) rfl
  have hpast := only_indexPast (c.addSat F.COL_REJ_CNT_COUNT 1)
  have hkept : F.COL_REJ_CNT_COUNT.at 0 0 ∉ ({F.COL_DNT_IDX_IDX.addr} : Set Nat) := show F.COL_REJ_CNT_COUNT.addr ≠ F.COL_DNT_IDX_IDX.addr by decide
  rw [dntWrite_refused h] at hd
  subst hd
  refine ⟨(hcounted.mono (by simp) (by simp)).trans (hpast.mono (by simp) (by simp)), ?_, indexPast_idx_of_only hcounted ?_⟩
  · rw [hpast.get hkept, Chip.get_addSat_same c F.COL_REJ_CNT_COUNT 1 0 0 (by decide) (by decide)]
  · exact show F.COL_DNT_IDX_IDX.addr ≠ F.COL_REJ_CNT_COUNT.addr by decide

theorem dntClash_of_invalid {w : Nat} (h : bitAt w 31 = false) : c.dntClash w = false := by rw [Chip.dntClash, h, Bool.false_and]

/-- A write with VALID 0 at the index of an entry without an exchange. -/
theorem dntWrite_remove_spec {w i : Nat} (hi : i = c.get F.COL_DNT_IDX_IDX) (hfill : c.NoSameLineFill) (hvalid : bitAt w 31 = false)
    (haccepts : ¬ c.dntRefuses w) (hat : c.entryAt i = some e) (hstage : e.stage = .none) (hd : d = c.dntWrite w) :
    c.Only [.col] dntWriteRegs d ∧ d.col = { c.col with dnt := c.col.dnt.filter (fun x => x.idx != i) } := by
  obtain ⟨honly, hcol⟩ := tabled_setDnt hfill (c.col.dnt.filter (fun x => x.idx != i))
  rw [dntWrite_remove haccepts hvalid, ← hi, dropAt_quiet hat hstage] at hd
  subst hd
  exact ⟨only_indexPast_tabled honly, by rw [indexPast_col, hcol]⟩

/-! ### The exchange: requests that arrive (R206) -/

theorem answerReq_ack {ks : List (Fin 8)} (hdrives : ks ≠ []) (hfree : ∀ k ∈ ks, c.isDead k ic col = false ∧ c.get F.COL_PSTAT_FIRES k ≠ 3)
    (hroom : c.freeIndex ≠ none) : c.answerReq ks ic col = .ok (c.answerLine ks ic) := by
  have hdead : ks.any (fun k => c.isDead k ic col) = false := List.any_eq_false.mpr fun k hk => by simp [(hfree k hk).1]
  have hevery : ks.any (fun k => c.get F.COL_PSTAT_FIRES k == 3) = false := List.any_eq_false.mpr fun k hk => by simp [(hfree k hk).2]
  have hroom' : c.freeIndex.isNone = false := by simpa [Option.isSome_iff_ne_none] using hroom
  have hdrives' : ks.isEmpty = false := by simpa using hdrives
  rw [Chip.answerReq, hdrives', hdead, hevery, hroom']
  rfl

theorem answerReq_noPort : c.answerReq [] ic col = .error 4 := rfl

theorem answerReq_dead {ks : List (Fin 8)} (hdead : ∃ k ∈ ks, c.isDead k ic col = true) : c.answerReq ks ic col = .error 1 := by
  obtain ⟨k, hk, hkdead⟩ := hdead
  have hdrives : ks.isEmpty = false := by simpa using List.ne_nil_of_mem hk
  have hany : ks.any (fun k => c.isDead k ic col) = true := List.any_eq_true.mpr ⟨k, hk, hkdead⟩
  rw [Chip.answerReq, hdrives, hany]
  rfl

theorem answerReq_every {ks : List (Fin 8)} (halive : ∀ k ∈ ks, c.isDead k ic col = false) (hevery : ∃ k ∈ ks, c.get F.COL_PSTAT_FIRES k = 3) :
    c.answerReq ks ic col = .error 2 := by
  obtain ⟨k, hk, hfires⟩ := hevery
  have hdrives : ks.isEmpty = false := by simpa using List.ne_nil_of_mem hk
  have hdead : ks.any (fun k => c.isDead k ic col) = false := List.any_eq_false.mpr fun k hk => by simp [halive k hk]
  have hany : ks.any (fun k => c.get F.COL_PSTAT_FIRES k == 3) = true := List.any_eq_true.mpr ⟨k, hk, by simp [hfires]⟩
  rw [Chip.answerReq, hdrives, hdead, hany]
  rfl

theorem colReq_ack {a : Int} (h : c.answerReq (c.portsOf tp) ic col = .ok a) (hown : method ≠ 3 ∨ c.twin = false) :
    c.colReq src tp ic col method = c.send "colAck" [src, c.nodeId, tp, ic, col, method, unsigned 48 a] := by
  have hnot : ¬ (method = 3 ∧ c.twin ∧ src ≠ c.get F.TKO_PARTNER_NODE ∧ (c.portsOf tp).any (fun k => c.portMode k == 0)) := by
    rintro ⟨hmethod, htwin, -⟩
    rcases hown with hne | hoff
    · exact hne hmethod
    · exact absurd (htwin.symm.trans hoff) (by decide)
  rw [Chip.colReq, h]
  exact if_neg hnot

theorem colReq_nack {n : Nat} (h : c.answerReq (c.portsOf tp) ic col = .error n) :
    c.colReq src tp ic col method = c.send "colNack" [src, c.nodeId, tp, ic, col, method, n] := by
  rw [Chip.colReq, h]

/-! ### The exchange: answers that arrive (R206) -/

/-- The only entry waits for an answer of this node alone. -/
theorem askedBy_single {node : Nat} {own : Bool} (hdnt : c.col.dnt = [e]) (hkind : e.kind = 0) (hstage : e.stage = .asked) (hic : e.ic = ic)
    (hasks : e.asks = method) (hwait : e.wait = [⟨node, tp, col, own⟩]) : c.askedBy node tp ic col method = some e := by
  simp [Chip.askedBy, hdnt, hkind, hstage, hic, hasks, hwait]

/-- The entry whose last recipient has acknowledged. -/
def DntEntry.allAcked (e : DntEntry) (r : Recipient) (ar : Int) : DntEntry := { e with wait := [], acked := [r], wa := max e.wa ar }

/-- The entry that is in force with its recipients. -/
def DntEntry.committed (e : DntEntry) : DntEntry := { e with stage := .committed, state := e.asks }

theorem colAck_last {node : Nat} {own : Bool} {ar : Int} (hasked : c.askedBy node tp ic col method = some e)
    (hwait : e.wait = [⟨node, tp, col, own⟩]) (hacked : e.acked = []) :
    c.colAck node tp ic col method ar =
      (c.updEntry (e.allAcked ⟨node, tp, col, own⟩ ar)).commitEntry (e.allAcked ⟨node, tp, col, own⟩ ar) := by
  rw [Chip.colAck, hasked]
  simp [hwait, hacked, DntEntry.allAcked]

/-- COMMIT goes to the one recipient, of another node. -/
theorem commitEntry_far {r : Recipient} (hacked : e.acked = [r]) (hd : d = c.updEntry e.committed) (hfar : r.node ≠ d.nodeId) :
    c.commitEntry e = d.send "colCommit" [r.node, d.nodeId, r.tp, e.ic, r.col, e.asks, bit r.own, unsigned 48 e.wa] := by
  have hstep : c.commitEntry e = e.acked.foldl (fun c r =>
      if r.node = c.nodeId then c.install (c.actors e r.tp) e.ic r.col e.asks r.own e.wa c.nodeId
      else c.send "colCommit" [r.node, c.nodeId, r.tp, e.ic, r.col, e.asks, bit r.own, unsigned 48 e.wa]) d := by rw [hd]; rfl
  rw [hstep, hacked]
  exact if_neg hfar

theorem nodeId_of_only (h : c.Only ps tableRegs d) : d.nodeId = c.nodeId := by
  refine h.get ?_
  simp [tableRegs, Place.at, F.FAB_NODE_NODE_ID, F.COL_DNT_CNT_USED, F.COL_STAT_REQ_WAIT]

/-- The last ACK of the only entry's exchange: the entry is committed, and COMMIT goes to the recipient. -/
theorem colAck_spec {node : Nat} {own : Bool} {ar : Int} (hfill : c.NoSameLineFill) (hdnt : c.col.dnt = [e])
    (hasked : c.askedBy node tp ic col method = some e) (hasks : e.asks = method) (hic : e.ic = ic)
    (hwait : e.wait = [⟨node, tp, col, own⟩]) (hacked : e.acked = []) (hfar : node ≠ c.nodeId) (hd : d = c.colAck node tp ic col method ar) :
    c.Only [.col, .sent] tableRegs d ∧
      d.col = { c.col with dnt := [{ e with
        stage := .committed, state := method, wait := [], acked := [⟨node, tp, col, own⟩], wa := max e.wa ar }] } ∧
      d.sent = c.sent ++ [⟨"colCommit", [node, c.nodeId, tp, ic, col, method, bit own, unsigned 48 (max e.wa ar)]⟩] := by
  obtain ⟨x, hx⟩ : ∃ x, x = (c.updEntry (e.allAcked ⟨node, tp, col, own⟩ ar)).updEntry (e.allAcked ⟨node, tp, col, own⟩ ar).committed :=
    ⟨_, rfl⟩
  have hacks := (tabled_of_dnt hdnt).updEntry_single (e' := e.allAcked ⟨node, tp, col, own⟩ ar) hfill rfl
  have hcommits := hacks.updEntry_single (e' := (e.allAcked ⟨node, tp, col, own⟩ ar).committed) hfill rfl
  rw [← hx] at hcommits
  obtain ⟨honly, hcol⟩ := hcommits
  have hnode := nodeId_of_only honly
  rw [colAck_last hasked hwait hacked, commitEntry_far rfl hx (by rwa [hnode]), hnode] at hd
  subst hd hasks hic
  refine ⟨.send (honly.mono (by simp) subset_rfl) (by simp), hcol, ?_⟩
  rw [Chip.send_sent, show x.sent = c.sent from honly.1 .sent (by simp)]
  rfl

theorem colNack_asked {node reason : Nat} (hasked : c.askedBy node tp ic col method = some e) :
    c.colNack node tp ic col method reason = c.failRequest e reason := by
  rw [Chip.colNack, hasked]

theorem entryAt_single (hdnt : c.col.dnt = [e]) : c.entryAt e.idx = some e := by simp [Chip.entryAt, hdnt]

theorem colTimeout_asked (hdnt : c.col.dnt = [e]) (hstage : e.stage = .asked) (hlate : e.deadline ≤ c.now) :
    c.colTimeout e.idx = c.failRequest e 0 := by
  rw [Chip.colTimeout, entryAt_single hdnt]
  exact if_pos (by simp [hstage, hlate])

/-! ### The exchange: entries for others (R206, R208) -/

/-- FILL concerns one tile of the node: nothing is relayed. -/
theorem relays_fill : c.relays src tp 2 = false := rfl

/-- The entry of an installed FILL. -/
def fillEntry (idx : Nat) (k : Fin 8) (ic col : Nat) (own : Bool) (wa : Int) (src : Nat) : DntEntry :=
  { idx := idx, port := k.val, ic := ic, col := col, kind := 1, method := 0, source := 3, state := 2, wa := wa, owner := src, away := own }

/-- COMMIT of a FILL for the one port of a tile, from a line that the port has yet to assemble. -/
theorem colCommit_fill {idx : Nat} {own : Bool} {wa : Int} (hports : c.portsOf tp = [k]) (hidx : c.freeIndex = some idx)
    (hahead : c.answerLine [k] ic ≤ wa + (c.get F.COL_XCFG_REQ_MARGIN : Int)) :
    c.colCommit src tp ic col 2 own wa = c.setDnt (c.col.dnt ++ [fillEntry idx k ic col own wa src]) := by
  have hahead' : c.answerLine [k] ic - (c.get F.COL_XCFG_REQ_MARGIN : Int) ≤ wa := by omega
  rw [Chip.colCommit, relays_fill]
  simp [hports, Chip.install, hidx, not_lt.mpr hahead', max_eq_left hahead', fillEntry]

/-- RELEASE of a FILL for the one port of a tile. -/
theorem colRelease_fill (hports : c.portsOf tp = [k]) : c.colRelease src tp ic col 2 = c.setDnt (c.col.dnt.filter (fun e =>
    !(e.kind == 1 && e.ic == ic && e.col == col && e.source == 3 && e.port == k.val))) := by
  rw [Chip.colRelease, relays_fill]
  simp [hports, Chip.uninstall, Bool.beq_comm]

end Sys2Proof.Machine
end

section
namespace Sys2Proof.Proofs
open Sys2Proof.Machine

/-- Settles O18, clause by clause: where no port has a same-line fill, each write and each message comes to one new list of entries, or to
one answer. -/
theorem deadNozzleTable : Obligations.DeadNozzleTable := by
  unfold Obligations.DeadNozzleTable
  refine ⟨?_, ?_, ?_, ?_, ?_, ?_, ?_, ?_, ?_, ?_, ?_⟩
  · intro t i w m s hmay hfill hvalid hkind hic hcol hm hforced hunused hdead
    subst hm
    have haccepts : ¬ (s.chip.wrote t i R.COL_DNT_DATA.addr).dntRefuses w.toNat := not_dntRefuses hkind hic hcol (dntClash_of_not_dead hdead)
    have hexec := colWrite_taken (t := t) (v := w) isColReg_dntData hmay
    rw [writeCol_dntData] at hexec
    obtain ⟨honly, hcol, hidx⟩ := dntWrite_insert_spec (Chip.wrote_get _ _ _ _ _ _ _).symm hfill hvalid haccepts hforced hunused rfl rfl
    exact ⟨_, hexec, writeLeaves_of_only honly (by simp) (by simp), hcol, hidx⟩
  · intro t i w s hmay hrefused
    have hrefuses : (s.chip.wrote t i R.COL_DNT_DATA.addr).dntRefuses w.toNat := by
      rcases hrefused with h | h | h
      · exact .inl h
      · exact .inr (.inl h)
      · exact .inr (.inr (.inl h))
    have hexec := colWrite_taken (t := t) (v := w) isColReg_dntData hmay
    rw [writeCol_dntData] at hexec
    obtain ⟨honly, hcount, hidx⟩ := dntWrite_refused_spec hrefuses rfl
    exact ⟨_, hexec, writeLeaves_of_only honly (by simp) (by simp), hcount, hidx⟩
  · intro t i w e s hmay hfill hvalid hkind hic hcol hat hstage
    have haccepts : ¬ (s.chip.wrote t i R.COL_DNT_DATA.addr).dntRefuses w.toNat := not_dntRefuses hkind hic hcol (dntClash_of_invalid hvalid)
    have hexec := colWrite_taken (t := t) (v := w) isColReg_dntData hmay
    rw [writeCol_dntData] at hexec
    obtain ⟨honly, hcol⟩ := dntWrite_remove_spec (Chip.wrote_get _ _ _ _ _ _ _).symm hfill hvalid haccepts hat hstage rfl
    exact ⟨_, hexec, writeLeaves_of_only honly (by simp) (by simp), hcol⟩
  · intro t i s hmay
    have hexec := colRead_taken (t := t) isColReg_dntData hmay
    rw [readCol_dntData, dntRead_eq] at hexec
    exact ⟨_, hexec, readLeaves_of_only ((only_indexPast _).mono (by simp) subset_rfl), indexPast_idx (s.chip.at t)⟩
  · intro t src tp ic col method s hup hdrives hfree hroom hown
    have hexec := colReq_ack (c := s.chip.at t) (src := src) (answerReq_ack hdrives hfree hroom) hown
    exact ⟨_, runChip_inIsland_eq hup hexec, leaves_of_only (.send (.refl _ _ _) (by simp)), rfl⟩
  · intro t src tp ic col method reason s hup hreason
    have hanswer : (s.chip.at t).answerReq ((s.chip.at t).portsOf tp) ic col = .error reason := by
      rcases hreason with ⟨rfl, hnone⟩ | ⟨rfl, hdead⟩ | ⟨rfl, halive, hevery⟩
      · exact (congrArg (fun ks => (s.chip.at t).answerReq ks ic col) hnone).trans answerReq_noPort
      · exact answerReq_dead hdead
      · exact answerReq_every halive hevery
    exact ⟨_, runChip_inIsland_eq hup (colReq_nack hanswer), leaves_of_only (.send (.refl _ _ _) (by simp)), rfl⟩
  · intro t node tp ic col method ar e own s hup hfill hdnt hkind hstage hic hasks hwait hacked hfar
    have hasked := askedBy_single (c := s.chip.at t) hdnt hkind hstage hic hasks hwait
    obtain ⟨d, hd⟩ : ∃ d, d = (s.chip.at t).colAck node tp ic col method ar := ⟨_, rfl⟩
    obtain ⟨honly, hcol, hsent⟩ := colAck_spec (c := s.chip.at t) hfill hdnt hasked hasks hic hwait hacked hfar hd
    exact ⟨_, runChip_inIsland_eq hup hd.symm, leaves_of_only honly, hcol, hsent⟩
  · intro t node tp col reason e own s hup hfill hdnt hkind hstage hasks hmethod hwait hacked hport
    have hasked := askedBy_single (c := s.chip.at t) hdnt hkind hstage rfl hasks hwait
    obtain ⟨honly, hcol, hraised⟩ := failRequest_spec (c := s.chip.at t) hfill hdnt hasks hmethod hacked hport rfl
    exact ⟨_, runChip_inIsland_eq hup (colNack_asked hasked), leaves_of_only honly, hcol, hraised⟩
  · intro t e s hup hfill hdnt hkind hstage hasks hmethod hacked hport hlate
    have hexec := colTimeout_asked (c := s.chip.at t) hdnt hstage hlate
    obtain ⟨honly, hcol, hraised⟩ := failRequest_spec (c := s.chip.at t) hfill hdnt hasks hmethod hacked hport rfl
    exact ⟨_, runChip_inIsland_eq hup hexec, leaves_of_only honly, hcol, hraised⟩
  · intro t src tp ic col idx own wa k s hup hfill hports hidx hahead
    have hexec := colCommit_fill (c := s.chip.at t) (src := src) (col := col) (own := own) hports hidx hahead
    obtain ⟨honly, hcol⟩ := tabled_setDnt (c := s.chip.at t) hfill (s.chip.col.dnt ++ [fillEntry idx k ic col own wa src])
    exact ⟨_, runChip_inIsland_eq hup hexec, leaves_of_only honly, hcol⟩
  · intro t src tp ic col k s hup hfill hports
    have hexec := colRelease_fill (c := s.chip.at t) (src := src) (ic := ic) (col := col) hports
    obtain ⟨honly, hcol⟩ := tabled_setDnt (c := s.chip.at t) hfill _
    exact ⟨_, runChip_inIsland_eq hup hexec, leaves_of_only honly, hcol⟩

end Sys2Proof.Proofs
end
